-- ==== Sys2Proof/Word.lean ====
section
/-!
DEFINITION. Words, bytes, vector registers and register names of the Vusan 8D (spec/02, R31): the types only.
Bit-field helpers stand in Sys2Proof/Machine/Bits.lean.
-/
namespace Sys2Proof

/-- A scalar register, an address or a CSR as software sees it: 64 bits (R31). -/
abbrev Word := BitVec 64

/-- One byte of memory. -/
abbrev Byte := BitVec 8

/-- A vector register: 512 bits (R31). -/
abbrev Vec := BitVec 512

/-- x0 to x31 (R31). -/
abbrev XReg := Fin 32

/-- x0 to x15, where a 4-bit field names a scalar register (R46). -/
abbrev LReg := Fin 16

/-- v0 to v15. -/
abbrev VReg := Fin 16

/-- m0 to m7. -/
abbrev MReg := Fin 8

/-- t0 to t15. -/
abbrev TReg := Fin 16

/-- acc0 to acc7. -/
abbrev AReg := Fin 8

/-- A barrier handle, 0 to 11 (R309). -/
abbrev Handle := Fin 12

/-- A sparse table: values by a numeric key, the key not listed holding a stated default. -/
abbrev SMap (α : Type) := List (Nat × α)

end Sys2Proof
end

