-- ==== Sys2Proof/Machine/Bits.lean ====
section
/-!
DEFINITION. Bit fields, sign extension, byte order and sparse tables: the small helpers every later file uses.
-/
namespace Sys2Proof

/-- Field of `n` bits of a number, from bit `lo` (R5). -/
def bits (w lo n : Nat) : Nat := w / 2 ^ lo % 2 ^ n

/-- One bit of a number. -/
def bit (w i : Nat) : Bool := w / 2 ^ i % 2 == 1

/-- Field [lo + n - 1 : lo] of a word, as a number. -/
def Word.field (w : Word) (lo n : Nat) : Nat := bits w.toNat lo n

/-- `sext(v, n)` of R70: the low `n` bits read as two's complement, in 64 bits. -/
def sext (v : Word) (n : Nat) : Word := (BitVec.ofNat n v.toNat).signExtend 64

/-- `zext(v, n)` of R70. -/
def zext (v : Word) (n : Nat) : Word := (BitVec.ofNat n v.toNat).setWidth 64

/-- Boolean as a number. -/
def b2n (b : Bool) : Nat := if b then 1 else 0

/-- Boolean as a word. -/
def b2w (b : Bool) : Word := if b then 1 else 0

/-- Value of a bit vector read as unsigned, as an integer. -/
def uval {n : Nat} (v : BitVec n) : Int := v.toNat

/-- Little-endian bytes of a number (R6). -/
def bytesOf (n : Nat) (v : Nat) : List Byte :=
  match n with
  | 0 => []
  | k + 1 => BitVec.ofNat 8 v :: bytesOf k (v / 256)

/-- Number whose little-endian bytes these are (R6). -/
def ofBytes : List Byte → Nat
  | [] => 0
  | b :: r => b.toNat + 256 * ofBytes r

/-- `0, 1, …, n - 1` from `k` on. -/
def countFrom (k : Nat) : Nat → List Nat
  | 0 => []
  | n + 1 => k :: countFrom (k + 1) n

/-- Smallest multiple of `m` at or above `n`. -/
def alignUp (n m : Nat) : Nat := (n + m - 1) / m * m

/-- The value at a key; `d` where none is listed. -/
def SMap.get {α : Type} (d : α) : SMap α → Nat → α
  | [], _ => d
  | (k, a) :: r, i => if k = i then a else SMap.get d r i

/-- The value at a key, if listed. -/
def SMap.find {α : Type} : SMap α → Nat → Option α
  | [], _ => none
  | (k, a) :: r, i => if k = i then some a else SMap.find r i

/-- Put a value at a key, keeping keys rising. -/
def SMap.set {α : Type} : SMap α → Nat → α → SMap α
  | [], i, a => [(i, a)]
  | (k, b) :: r, i, a =>
    if i < k then (i, a) :: (k, b) :: r
    else if i = k then (i, a) :: r
    else (k, b) :: SMap.set r i a

/-- Take a key out. -/
def SMap.drop {α : Type} (m : SMap α) (i : Nat) : SMap α := m.filter fun p => p.1 != i

/-- The keys listed. -/
def SMap.keys {α : Type} (m : SMap α) : List Nat := m.map Prod.fst

/-- Apply a change to every listed value. -/
def SMap.mapVals {α : Type} (f : Nat → α → α) (m : SMap α) : SMap α := m.map fun p => (p.1, f p.1 p.2)

end Sys2Proof
end

