-- ==== Sys2Proof/Syntax.lean ====
section
/-!
DEFINITION. The instructions of the Vusan 8D: one constructor for each row of spec/opcode_table.json.
Rows 0 to 301 are encoded Faruz instructions (spec/02, Tables 2-4 and 2-7); a row with _LIT carries the 64-bit literal
(LEN 01, or 11 for the copy group) and a row with _EXT the extension field E (LEN 10). Rows 302 to 407, whose constructors
begin with `ev`, are the events of the part: steps taken by hardware, shipped firmware, the host, the board or the partner
(spec/95). They have no encoding. Their operands say which agent moves and with what outside data.
-/
namespace Sys2Proof

/-- Scope codes (R48, Table 2-5). -/
inductive Scope where
  | tm | cl | is | dv | sy
  deriving DecidableEq, Repr

/-- Ordering-and-scope suffix of a memory instruction (R47, Table 2-5). -/
inductive Os where
  | rlx
  | acq (sc : Scope)
  | rel (sc : Scope)
  | ar (sc : Scope)
  deriving DecidableEq, Repr

/-- Fence kinds (R54, Table 2-8). -/
inductive FenceKind where
  | acq | rel | ar | sc
  deriving DecidableEq, Repr

/-- Access paths (R48, Table 9-1). -/
inductive Path where
  | ls | mx | ce | co | ni | sl
  deriving DecidableEq, Repr

/-- Scalar floating-point precisions (R136). -/
inductive Prec where
  | d | s | h | b
  deriving DecidableEq, Repr

/-- Rounding modes (R85, Table 3-11); code 0b111 is no mode. -/
inductive Rm where
  | rne | rmm | rup | rdn | rtz | rsr | dyn
  deriving DecidableEq, Repr

/-- Lane types of the VEC layout (R45). -/
inductive Ty where
  | i8 | i16 | i32 | i64 | bf16 | fp16 | fp32
  deriving DecidableEq, Repr

/-- Element sizes of gathers, scatters and broadcasting loads (R266). -/
inductive ESize where
  | b1 | b2 | b4 | b8
  deriving DecidableEq, Repr

/-- Source and destination codes of FCVT (R141). -/
inductive NumCode where
  | d | s | h | b | w | wu | l | lu
  deriving DecidableEq, Repr

/-- Reduction codes of a collective (R287, Table 11-9). -/
inductive CollOp where
  | sum | max | min | and | or | xor
  deriving DecidableEq, Repr

/-- Element formats of a collective (R287, Table 11-9). -/
inductive CollFmt where
  | int32 | int64 | uint32 | uint64 | fp32 | fp64 | bf16 | fp16
  deriving DecidableEq, Repr

/-- A participant's collective command as it arrives from the partner box (R288). -/
structure PeerColl where
  fn : Nat
  op : CollOp
  fmt : CollFmt
  br : Bool
  count : Nat
  root : Option Nat
  deriving DecidableEq, Repr

/-- Every row of spec/opcode_table.json. -/
inductive Instr where
  /-- ADD (R97). -/
  | add (d : XReg) (a : XReg) (b : XReg)
  /-- SUB (R97). -/
  | sub (d : XReg) (a : XReg) (b : XReg)
  /-- AND (R97). -/
  | and (d : XReg) (a : XReg) (b : XReg)
  /-- OR (R97). -/
  | or (d : XReg) (a : XReg) (b : XReg)
  /-- XOR (R97). -/
  | xor (d : XReg) (a : XReg) (b : XReg)
  /-- ANDN (R97). -/
  | andn (d : XReg) (a : XReg) (b : XReg)
  /-- ORN (R97). -/
  | orn (d : XReg) (a : XReg) (b : XReg)
  /-- XNOR (R97). -/
  | xnor (d : XReg) (a : XReg) (b : XReg)
  /-- SLL (R97). -/
  | sll (d : XReg) (a : XReg) (b : XReg)
  /-- SRL (R97). -/
  | srl (d : XReg) (a : XReg) (b : XReg)
  /-- SRA (R97). -/
  | sra (d : XReg) (a : XReg) (b : XReg)
  /-- ROL (R97). -/
  | rol (d : XReg) (a : XReg) (b : XReg)
  /-- ROR (R97). -/
  | ror (d : XReg) (a : XReg) (b : XReg)
  /-- SLT (R97). -/
  | slt (d : XReg) (a : XReg) (b : XReg)
  /-- SLTU (R97). -/
  | sltu (d : XReg) (a : XReg) (b : XReg)
  /-- MIN (R97). -/
  | min (d : XReg) (a : XReg) (b : XReg)
  /-- MAX (R97). -/
  | max (d : XReg) (a : XReg) (b : XReg)
  /-- MINU (R97). -/
  | minu (d : XReg) (a : XReg) (b : XReg)
  /-- MAXU (R97). -/
  | maxu (d : XReg) (a : XReg) (b : XReg)
  /-- ADDW (R97). -/
  | addw (d : XReg) (a : XReg) (b : XReg)
  /-- SUBW (R97). -/
  | subw (d : XReg) (a : XReg) (b : XReg)
  /-- ADD_LIT (R97). -/
  | addLit (d : XReg) (a : XReg) (lit : Word)
  /-- SUB_LIT (R97). -/
  | subLit (d : XReg) (a : XReg) (lit : Word)
  /-- AND_LIT (R97). -/
  | andLit (d : XReg) (a : XReg) (lit : Word)
  /-- OR_LIT (R97). -/
  | orLit (d : XReg) (a : XReg) (lit : Word)
  /-- XOR_LIT (R97). -/
  | xorLit (d : XReg) (a : XReg) (lit : Word)
  /-- ANDN_LIT (R97). -/
  | andnLit (d : XReg) (a : XReg) (lit : Word)
  /-- ORN_LIT (R97). -/
  | ornLit (d : XReg) (a : XReg) (lit : Word)
  /-- XNOR_LIT (R97). -/
  | xnorLit (d : XReg) (a : XReg) (lit : Word)
  /-- SLL_LIT (R97). -/
  | sllLit (d : XReg) (a : XReg) (lit : Word)
  /-- SRL_LIT (R97). -/
  | srlLit (d : XReg) (a : XReg) (lit : Word)
  /-- SRA_LIT (R97). -/
  | sraLit (d : XReg) (a : XReg) (lit : Word)
  /-- ROL_LIT (R97). -/
  | rolLit (d : XReg) (a : XReg) (lit : Word)
  /-- ROR_LIT (R97). -/
  | rorLit (d : XReg) (a : XReg) (lit : Word)
  /-- SLT_LIT (R97). -/
  | sltLit (d : XReg) (a : XReg) (lit : Word)
  /-- SLTU_LIT (R97). -/
  | sltuLit (d : XReg) (a : XReg) (lit : Word)
  /-- MIN_LIT (R97). -/
  | minLit (d : XReg) (a : XReg) (lit : Word)
  /-- MAX_LIT (R97). -/
  | maxLit (d : XReg) (a : XReg) (lit : Word)
  /-- MINU_LIT (R97). -/
  | minuLit (d : XReg) (a : XReg) (lit : Word)
  /-- MAXU_LIT (R97). -/
  | maxuLit (d : XReg) (a : XReg) (lit : Word)
  /-- ADDW_LIT (R97). -/
  | addwLit (d : XReg) (a : XReg) (lit : Word)
  /-- SUBW_LIT (R97). -/
  | subwLit (d : XReg) (a : XReg) (lit : Word)
  /-- ADDI (R99). -/
  | addi (d : XReg) (a : XReg) (imm : BitVec 10)
  /-- ANDI (R99). -/
  | andi (d : XReg) (a : XReg) (imm : BitVec 10)
  /-- ORI (R99). -/
  | ori (d : XReg) (a : XReg) (imm : BitVec 10)
  /-- XORI (R99). -/
  | xori (d : XReg) (a : XReg) (imm : BitVec 10)
  /-- SLLI (R100). -/
  | slli (d : XReg) (a : XReg) (sh : BitVec 6)
  /-- SRLI (R100). -/
  | srli (d : XReg) (a : XReg) (sh : BitVec 6)
  /-- SRAI (R100). -/
  | srai (d : XReg) (a : XReg) (sh : BitVec 6)
  /-- SLTI (R99). -/
  | slti (d : XReg) (a : XReg) (imm : BitVec 10)
  /-- SLTIU (R99). -/
  | sltiu (d : XReg) (a : XReg) (imm : BitVec 10)
  /-- ADDWI (R99). -/
  | addwi (d : XReg) (a : XReg) (imm : BitVec 10)
  /-- ADDI_LIT (R99). -/
  | addiLit (d : XReg) (a : XReg) (lit : Word)
  /-- ANDI_LIT (R99). -/
  | andiLit (d : XReg) (a : XReg) (lit : Word)
  /-- ORI_LIT (R99). -/
  | oriLit (d : XReg) (a : XReg) (lit : Word)
  /-- XORI_LIT (R99). -/
  | xoriLit (d : XReg) (a : XReg) (lit : Word)
  /-- SLTI_LIT (R99). -/
  | sltiLit (d : XReg) (a : XReg) (lit : Word)
  /-- SLTIU_LIT (R99). -/
  | sltiuLit (d : XReg) (a : XReg) (lit : Word)
  /-- ADDWI_LIT (R99). -/
  | addwiLit (d : XReg) (a : XReg) (lit : Word)
  /-- LDK (R101). -/
  | ldk (d : XReg) (k : BitVec 8)
  /-- ADDK (R101). -/
  | addk (d : XReg) (a : XReg) (k : BitVec 8)
  /-- MUL (R104). -/
  | mul (d : XReg) (a : XReg) (b : XReg)
  /-- MULH (R104). -/
  | mulh (d : XReg) (a : XReg) (b : XReg)
  /-- MULHU (R104). -/
  | mulhu (d : XReg) (a : XReg) (b : XReg)
  /-- MULHMX (R104). -/
  | mulhmx (d : XReg) (a : XReg) (b : XReg)
  /-- DIV (R104). -/
  | div (d : XReg) (a : XReg) (b : XReg)
  /-- DIVU (R104). -/
  | divu (d : XReg) (a : XReg) (b : XReg)
  /-- REM (R104). -/
  | rem (d : XReg) (a : XReg) (b : XReg)
  /-- REMU (R104). -/
  | remu (d : XReg) (a : XReg) (b : XReg)
  /-- CLZ (R106). -/
  | clz (d : XReg) (a : XReg)
  /-- CTZ (R106). -/
  | ctz (d : XReg) (a : XReg)
  /-- POPC (R106). -/
  | popc (d : XReg) (a : XReg)
  /-- BREV (R106). -/
  | brev (d : XReg) (a : XReg)
  /-- BSWAP (R106). -/
  | bswap (d : XReg) (a : XReg)
  /-- SEXTB (R106). -/
  | sextb (d : XReg) (a : XReg)
  /-- SEXTH (R106). -/
  | sexth (d : XReg) (a : XReg)
  /-- ZEXTH (R106). -/
  | zexth (d : XReg) (a : XReg)
  /-- ZEXTW (R106). -/
  | zextw (d : XReg) (a : XReg)
  /-- BEXT (R106). -/
  | bext (d : XReg) (a : XReg) (b : XReg)
  /-- BDEP (R106). -/
  | bdep (d : XReg) (a : XReg) (b : XReg)
  /-- BEXT_LIT (R107). -/
  | bextLit (d : XReg) (a : XReg) (lit : Word)
  /-- BDEP_LIT (R107). -/
  | bdepLit (d : XReg) (a : XReg) (lit : Word)
  /-- LI (R108). -/
  | li (d : XReg) (imm : BitVec 10)
  /-- LI_LIT (R108). -/
  | liLit (d : XReg) (lit : Word)
  /-- PCADD (R108). -/
  | pcadd (d : XReg) (imm : BitVec 10)
  /-- PCADD_LIT (R108). -/
  | pcaddLit (d : XReg) (lit : Word)
  /-- SEL (R110). -/
  | sel (d : XReg) (a : XReg) (b : XReg)
  /-- SEQ (R110). -/
  | seq (d : XReg) (a : XReg) (b : XReg)
  /-- SNE (R110). -/
  | sne (d : XReg) (a : XReg) (b : XReg)
  /-- SEQ_LIT (R110). -/
  | seqLit (d : XReg) (a : XReg) (lit : Word)
  /-- SNE_LIT (R110). -/
  | sneLit (d : XReg) (a : XReg) (lit : Word)
  /-- BEQ (R112). -/
  | beq (a : XReg) (b : XReg) (off : BitVec 11)
  /-- BNE (R112). -/
  | bne (a : XReg) (b : XReg) (off : BitVec 11)
  /-- BLT (R112). -/
  | blt (a : XReg) (b : XReg) (off : BitVec 11)
  /-- BGE (R112). -/
  | bge (a : XReg) (b : XReg) (off : BitVec 11)
  /-- BLTU (R112). -/
  | bltu (a : XReg) (b : XReg) (off : BitVec 11)
  /-- BGEU (R112). -/
  | bgeu (a : XReg) (b : XReg) (off : BitVec 11)
  /-- BEQ_EXT (R112). -/
  | beqExt (a : XReg) (b : XReg) (off : BitVec 47)
  /-- BNE_EXT (R112). -/
  | bneExt (a : XReg) (b : XReg) (off : BitVec 47)
  /-- BLT_EXT (R112). -/
  | bltExt (a : XReg) (b : XReg) (off : BitVec 47)
  /-- BGE_EXT (R112). -/
  | bgeExt (a : XReg) (b : XReg) (off : BitVec 47)
  /-- BLTU_EXT (R112). -/
  | bltuExt (a : XReg) (b : XReg) (off : BitVec 47)
  /-- BGEU_EXT (R112). -/
  | bgeuExt (a : XReg) (b : XReg) (off : BitVec 47)
  /-- JAL (R114). -/
  | jal (d : XReg) (off : BitVec 19)
  /-- JAL_EXT (R114). -/
  | jalExt (d : XReg) (off : BitVec 47)
  /-- JALR (R115). -/
  | jalr (d : XReg) (a : XReg) (imm : BitVec 10)
  /-- LB (R264). -/
  | lb (d : XReg) (a : XReg) (off : BitVec 5) (os : Os)
  /-- LBU (R264). -/
  | lbu (d : XReg) (a : XReg) (off : BitVec 5) (os : Os)
  /-- LH (R264). -/
  | lh (d : XReg) (a : XReg) (off : BitVec 5) (os : Os)
  /-- LHU (R264). -/
  | lhu (d : XReg) (a : XReg) (off : BitVec 5) (os : Os)
  /-- LW (R264). -/
  | lw (d : XReg) (a : XReg) (off : BitVec 5) (os : Os)
  /-- LWU (R264). -/
  | lwu (d : XReg) (a : XReg) (off : BitVec 5) (os : Os)
  /-- LD (R264). -/
  | ld (d : XReg) (a : XReg) (off : BitVec 5) (os : Os)
  /-- LB_LIT (R263). -/
  | lbLit (d : XReg) (a : XReg) (lit : Word) (os : Os)
  /-- LBU_LIT (R263). -/
  | lbuLit (d : XReg) (a : XReg) (lit : Word) (os : Os)
  /-- LH_LIT (R263). -/
  | lhLit (d : XReg) (a : XReg) (lit : Word) (os : Os)
  /-- LHU_LIT (R263). -/
  | lhuLit (d : XReg) (a : XReg) (lit : Word) (os : Os)
  /-- LW_LIT (R263). -/
  | lwLit (d : XReg) (a : XReg) (lit : Word) (os : Os)
  /-- LWU_LIT (R263). -/
  | lwuLit (d : XReg) (a : XReg) (lit : Word) (os : Os)
  /-- LD_LIT (R263). -/
  | ldLit (d : XReg) (a : XReg) (lit : Word) (os : Os)
  /-- LB_EXT (R263). -/
  | lbExt (d : XReg) (a : XReg) (off : BitVec 47) (os : Os)
  /-- LBU_EXT (R263). -/
  | lbuExt (d : XReg) (a : XReg) (off : BitVec 47) (os : Os)
  /-- LH_EXT (R263). -/
  | lhExt (d : XReg) (a : XReg) (off : BitVec 47) (os : Os)
  /-- LHU_EXT (R263). -/
  | lhuExt (d : XReg) (a : XReg) (off : BitVec 47) (os : Os)
  /-- LW_EXT (R263). -/
  | lwExt (d : XReg) (a : XReg) (off : BitVec 47) (os : Os)
  /-- LWU_EXT (R263). -/
  | lwuExt (d : XReg) (a : XReg) (off : BitVec 47) (os : Os)
  /-- LD_EXT (R263). -/
  | ldExt (d : XReg) (a : XReg) (off : BitVec 47) (os : Os)
  /-- SB (R264). -/
  | sb (s : XReg) (a : XReg) (off : BitVec 5) (os : Os)
  /-- SH (R264). -/
  | sh (s : XReg) (a : XReg) (off : BitVec 5) (os : Os)
  /-- SW (R264). -/
  | sw (s : XReg) (a : XReg) (off : BitVec 5) (os : Os)
  /-- SD (R264). -/
  | sd (s : XReg) (a : XReg) (off : BitVec 5) (os : Os)
  /-- PSTORE (R274). -/
  | pstore (s : XReg) (a : XReg) (off : BitVec 5)
  /-- SB_LIT (R263). -/
  | sbLit (s : XReg) (a : XReg) (lit : Word) (os : Os)
  /-- SH_LIT (R263). -/
  | shLit (s : XReg) (a : XReg) (lit : Word) (os : Os)
  /-- SW_LIT (R263). -/
  | swLit (s : XReg) (a : XReg) (lit : Word) (os : Os)
  /-- SD_LIT (R263). -/
  | sdLit (s : XReg) (a : XReg) (lit : Word) (os : Os)
  /-- PSTORE_LIT (R274). -/
  | pstoreLit (s : XReg) (a : XReg) (lit : Word)
  /-- SB_EXT (R263). -/
  | sbExt (s : XReg) (a : XReg) (off : BitVec 47) (os : Os)
  /-- SH_EXT (R263). -/
  | shExt (s : XReg) (a : XReg) (off : BitVec 47) (os : Os)
  /-- SW_EXT (R263). -/
  | swExt (s : XReg) (a : XReg) (off : BitVec 47) (os : Os)
  /-- SD_EXT (R263). -/
  | sdExt (s : XReg) (a : XReg) (off : BitVec 47) (os : Os)
  /-- PSTORE_EXT (R274). -/
  | pstoreExt (s : XReg) (a : XReg) (off : BitVec 47)
  /-- AMOADD (R269). -/
  | amoadd (d : XReg) (a : XReg) (b : XReg) (dbl : Bool) (os : Os)
  /-- AMOAND (R269). -/
  | amoand (d : XReg) (a : XReg) (b : XReg) (dbl : Bool) (os : Os)
  /-- AMOOR (R269). -/
  | amoor (d : XReg) (a : XReg) (b : XReg) (dbl : Bool) (os : Os)
  /-- AMOXOR (R269). -/
  | amoxor (d : XReg) (a : XReg) (b : XReg) (dbl : Bool) (os : Os)
  /-- AMOMIN (R269). -/
  | amomin (d : XReg) (a : XReg) (b : XReg) (dbl : Bool) (os : Os)
  /-- AMOMAX (R269). -/
  | amomax (d : XReg) (a : XReg) (b : XReg) (dbl : Bool) (os : Os)
  /-- AMOMINU (R269). -/
  | amominu (d : XReg) (a : XReg) (b : XReg) (dbl : Bool) (os : Os)
  /-- AMOMAXU (R269). -/
  | amomaxu (d : XReg) (a : XReg) (b : XReg) (dbl : Bool) (os : Os)
  /-- AMOSWAP (R269). -/
  | amoswap (d : XReg) (a : XReg) (b : XReg) (dbl : Bool) (os : Os)
  /-- AMOCAS (R269). -/
  | amocas (d : XReg) (a : XReg) (b : XReg) (dbl : Bool) (os : Os)
  /-- AMOFADD (R270). -/
  | amofadd (d : XReg) (a : XReg) (b : XReg) (dbl : Bool) (os : Os)
  /-- ABUMP (R271). -/
  | abump (d : XReg) (a : XReg) (b : XReg) (os : Os)
  /-- FENCE (R272). -/
  | fence (sc : Scope) (k : FenceKind)
  /-- FENCEX (R222). -/
  | fencex (sc : Scope) (k : FenceKind) (p1 : Path) (p2 : Path)
  /-- IFENCE (R273). -/
  | ifence
  /-- FADD (R136). -/
  | fadd (p : Prec) (rm : Rm) (d : XReg) (a : XReg) (b : XReg)
  /-- FSUB (R136). -/
  | fsub (p : Prec) (rm : Rm) (d : XReg) (a : XReg) (b : XReg)
  /-- FMUL (R136). -/
  | fmul (p : Prec) (rm : Rm) (d : XReg) (a : XReg) (b : XReg)
  /-- FDIV (R136). -/
  | fdiv (p : Prec) (rm : Rm) (d : XReg) (a : XReg) (b : XReg)
  /-- FSQRT (R136). -/
  | fsqrt (p : Prec) (rm : Rm) (d : XReg) (a : XReg)
  /-- FMIN (R139). -/
  | fmin (p : Prec) (d : XReg) (a : XReg) (b : XReg)
  /-- FMAX (R139). -/
  | fmax (p : Prec) (d : XReg) (a : XReg) (b : XReg)
  /-- FEQ (R139). -/
  | feq (p : Prec) (d : XReg) (a : XReg) (b : XReg)
  /-- FLT (R139). -/
  | flt (p : Prec) (d : XReg) (a : XReg) (b : XReg)
  /-- FLE (R139). -/
  | fle (p : Prec) (d : XReg) (a : XReg) (b : XReg)
  /-- FCLASS (R140). -/
  | fclass (p : Prec) (d : XReg) (a : XReg)
  /-- FSGNJ (R139). -/
  | fsgnj (p : Prec) (d : XReg) (a : XReg) (b : XReg)
  /-- FABS (R139). -/
  | fabs (p : Prec) (d : XReg) (a : XReg)
  /-- FMAC (R138). -/
  | fmac (p : Prec) (rm : Rm) (d : XReg) (a : XReg) (b : XReg)
  /-- FMSC (R138). -/
  | fmsc (p : Prec) (rm : Rm) (d : XReg) (a : XReg) (b : XReg)
  /-- FMAC_EXT (R138). -/
  | fmacExt (p : Prec) (rm : Rm) (d : XReg) (a : XReg) (b : XReg) (c : XReg)
  /-- FMSC_EXT (R138). -/
  | fmscExt (p : Prec) (rm : Rm) (d : XReg) (a : XReg) (b : XReg) (c : XReg)
  /-- FCVT (R141). -/
  | fcvt (dst : NumCode) (src : NumCode) (rm : Rm) (d : XReg) (a : XReg)
  /-- VADD (R142). -/
  | vadd (ty : Ty) (d : VReg) (a : VReg) (b : VReg) (m : MReg)
  /-- VSUB (R142). -/
  | vsub (ty : Ty) (d : VReg) (a : VReg) (b : VReg) (m : MReg)
  /-- VMUL (R142). -/
  | vmul (ty : Ty) (d : VReg) (a : VReg) (b : VReg) (m : MReg)
  /-- VMULH (R142). -/
  | vmulh (ty : Ty) (d : VReg) (a : VReg) (b : VReg) (m : MReg)
  /-- VADDS (R142). -/
  | vadds (ty : Ty) (d : VReg) (a : VReg) (b : VReg) (m : MReg)
  /-- VSUBS (R142). -/
  | vsubs (ty : Ty) (d : VReg) (a : VReg) (b : VReg) (m : MReg)
  /-- VABS (R142). -/
  | vabs (ty : Ty) (d : VReg) (a : VReg) (m : MReg)
  /-- VMIN (R142). -/
  | vmin (ty : Ty) (d : VReg) (a : VReg) (b : VReg) (m : MReg)
  /-- VMAX (R142). -/
  | vmax (ty : Ty) (d : VReg) (a : VReg) (b : VReg) (m : MReg)
  /-- VAND (R142). -/
  | vand (ty : Ty) (d : VReg) (a : VReg) (b : VReg) (m : MReg)
  /-- VOR (R142). -/
  | vor (ty : Ty) (d : VReg) (a : VReg) (b : VReg) (m : MReg)
  /-- VXOR (R142). -/
  | vxor (ty : Ty) (d : VReg) (a : VReg) (b : VReg) (m : MReg)
  /-- VSLL (R142). -/
  | vsll (ty : Ty) (d : VReg) (a : VReg) (b : VReg) (m : MReg)
  /-- VSRL (R142). -/
  | vsrl (ty : Ty) (d : VReg) (a : VReg) (b : VReg) (m : MReg)
  /-- VSRA (R142). -/
  | vsra (ty : Ty) (d : VReg) (a : VReg) (b : VReg) (m : MReg)
  /-- VFADD (R144). -/
  | vfadd (ty : Ty) (d : VReg) (a : VReg) (b : VReg) (m : MReg)
  /-- VFSUB (R144). -/
  | vfsub (ty : Ty) (d : VReg) (a : VReg) (b : VReg) (m : MReg)
  /-- VFMUL (R144). -/
  | vfmul (ty : Ty) (d : VReg) (a : VReg) (b : VReg) (m : MReg)
  /-- VFDIV (R144). -/
  | vfdiv (ty : Ty) (d : VReg) (a : VReg) (b : VReg) (m : MReg)
  /-- VFSQRT (R144). -/
  | vfsqrt (ty : Ty) (d : VReg) (a : VReg) (m : MReg)
  /-- VFMIN (R144). -/
  | vfmin (ty : Ty) (d : VReg) (a : VReg) (b : VReg) (m : MReg)
  /-- VFMAX (R144). -/
  | vfmax (ty : Ty) (d : VReg) (a : VReg) (b : VReg) (m : MReg)
  /-- VFEXP2 (R144). -/
  | vfexp2 (ty : Ty) (d : VReg) (a : VReg) (m : MReg)
  /-- VFRCP (R144). -/
  | vfrcp (ty : Ty) (d : VReg) (a : VReg) (m : MReg)
  /-- VFRSQRT (R144). -/
  | vfrsqrt (ty : Ty) (d : VReg) (a : VReg) (m : MReg)
  /-- VLOAD (R266). -/
  | vload (v : VReg) (a : XReg) (off : BitVec 5) (m : MReg)
  /-- VSTORE (R266). -/
  | vstore (v : VReg) (a : XReg) (off : BitVec 5) (m : MReg)
  /-- VGATHER (R267). -/
  | vgather (e : ESize) (v : VReg) (vi : VReg) (a : XReg) (m : MReg)
  /-- VSCATTER (R267). -/
  | vscatter (e : ESize) (v : VReg) (vi : VReg) (a : XReg) (m : MReg)
  /-- VLOADB (R266). -/
  | vloadb (e : ESize) (v : VReg) (a : XReg) (off : BitVec 5) (m : MReg)
  /-- VLOAD_LIT (R263). -/
  | vloadLit (v : VReg) (a : XReg) (lit : Word) (m : MReg)
  /-- VSTORE_LIT (R263). -/
  | vstoreLit (v : VReg) (a : XReg) (lit : Word) (m : MReg)
  /-- VLOADB_LIT (R263). -/
  | vloadbLit (e : ESize) (v : VReg) (a : XReg) (lit : Word) (m : MReg)
  /-- VLOAD_EXT (R263). -/
  | vloadExt (v : VReg) (a : XReg) (off : BitVec 47) (m : MReg)
  /-- VSTORE_EXT (R263). -/
  | vstoreExt (v : VReg) (a : XReg) (off : BitVec 47) (m : MReg)
  /-- VLOADB_EXT (R263). -/
  | vloadbExt (e : ESize) (v : VReg) (a : XReg) (off : BitVec 47) (m : MReg)
  /-- VCMP_EQ (R147). -/
  | vcmpEq (ty : Ty) (md : MReg) (a : VReg) (b : VReg) (m : MReg)
  /-- VCMP_NE (R147). -/
  | vcmpNe (ty : Ty) (md : MReg) (a : VReg) (b : VReg) (m : MReg)
  /-- VCMP_LT (R147). -/
  | vcmpLt (ty : Ty) (md : MReg) (a : VReg) (b : VReg) (m : MReg)
  /-- VCMP_LE (R147). -/
  | vcmpLe (ty : Ty) (md : MReg) (a : VReg) (b : VReg) (m : MReg)
  /-- VCMP_LTU (R147). -/
  | vcmpLtu (ty : Ty) (md : MReg) (a : VReg) (b : VReg) (m : MReg)
  /-- VCMP_LEU (R147). -/
  | vcmpLeu (ty : Ty) (md : MReg) (a : VReg) (b : VReg) (m : MReg)
  /-- VSEL (R147). -/
  | vsel (ty : Ty) (d : VReg) (a : VReg) (b : VReg) (m : MReg)
  /-- VBCAST (R147). -/
  | vbcast (ty : Ty) (d : VReg) (xs : LReg) (m : MReg)
  /-- VEXT (R147). -/
  | vext (ty : Ty) (xd : LReg) (a : VReg) (xi : LReg)
  /-- VINS (R147). -/
  | vins (ty : Ty) (d : VReg) (xs : LReg) (xi : LReg)
  /-- VPERM (R147). -/
  | vperm (ty : Ty) (d : VReg) (a : VReg) (b : VReg) (m : MReg)
  /-- VSLIDE (R147). -/
  | vslide (ty : Ty) (d : VReg) (a : VReg) (xk : LReg) (m : MReg)
  /-- VREDSUM (R149). -/
  | vredsum (ty : Ty) (xd : LReg) (a : VReg) (m : MReg)
  /-- VREDMAX (R149). -/
  | vredmax (ty : Ty) (xd : LReg) (a : VReg) (m : MReg)
  /-- VREDMIN (R149). -/
  | vredmin (ty : Ty) (xd : LReg) (a : VReg) (m : MReg)
  /-- VCVT (R151). -/
  | vcvt (dty : Ty) (sty : Ty) (d : VReg) (a : VReg) (m : MReg)
  /-- VMOV (R147). -/
  | vmov (ty : Ty) (d : VReg) (a : VReg) (m : MReg)
  /-- MAND (R152). -/
  | mand (md : MReg) (a : MReg) (b : MReg)
  /-- MOR (R152). -/
  | mor (md : MReg) (a : MReg) (b : MReg)
  /-- MXOR (R152). -/
  | mxor (md : MReg) (a : MReg) (b : MReg)
  /-- MNOT (R152). -/
  | mnot (md : MReg) (a : MReg)
  /-- MPOP (R152). -/
  | mpop (d : XReg) (a : MReg)
  /-- MFIRST (R152). -/
  | mfirst (d : XReg) (a : MReg)
  /-- MFROMX (R152). -/
  | mfromx (md : MReg) (xs : XReg)
  /-- MTOX (R152). -/
  | mtox (d : XReg) (a : MReg)
  /-- VFMAC (R145). -/
  | vfmac (ty : Ty) (d : VReg) (a : VReg) (b : VReg) (m : MReg)
  /-- VDOT4 (R145). -/
  | vdot4 (d : VReg) (a : VReg) (b : VReg) (m : MReg)
  /-- TLOAD (R177). -/
  | tload (t : TReg) (xa : XReg) (xs : LReg)
  /-- TLOADT (R177). -/
  | tloadt (t : TReg) (xa : XReg) (xs : LReg)
  /-- TLOADS (R177). -/
  | tloads (t : TReg) (xa : XReg) (xs : LReg)
  /-- TSTORE (R177). -/
  | tstore (t : TReg) (xa : XReg) (xs : LReg)
  /-- TACCLD (R177). -/
  | taccld (acc : AReg) (xa : XReg) (xs : LReg)
  /-- TACCST (R177). -/
  | taccst (acc : AReg) (xa : XReg) (xs : LReg)
  /-- TMMA (R180). -/
  | tmma (acc : AReg) (ta : TReg) (tb : TReg)
  /-- TACCOUT (R181). -/
  | taccout (td : TReg) (acc : AReg) (ta : TReg) (tb : TReg) (cb : BitVec 5)
  /-- TACCADD (R184). -/
  | taccadd (accd : AReg) (accs : AReg)
  /-- TZERO (R185). -/
  | tzero (td : TReg)
  /-- TACCZ (R185). -/
  | taccz (acc : AReg)
  /-- TXCH (R188). -/
  | txch (tp : TReg) (ta : TReg) (h : Bool)
  /-- TCVT (R186). -/
  | tcvt (td : TReg) (ta : TReg)
  /-- VERST (R254). -/
  | verst (v : VReg) (xa : XReg) (xv : XReg) (os : Os)
  /-- VERLD (R254). -/
  | verld (v : VReg) (xa : XReg) (xv : XReg) (os : Os)
  /-- VERLDLE (R254). -/
  | verldle (v : VReg) (xa : XReg) (xv : XReg) (os : Os)
  /-- VERPROBE (R255). -/
  | verprobe (d : XReg) (xa : XReg) (xv : XReg)
  /-- VERFLOOR (R256). -/
  | verfloor (d : XReg) (xa : XReg) (xf : XReg) (os : Os)
  /-- VERDROP (R257). -/
  | verdrop (xa : XReg) (os : Os)
  /-- CPY1 (R275). -/
  | cpy1 (xd : XReg) (xs : XReg) (xn : XReg) (xc : XReg) (xv : XReg)
  /-- CPY2 (R275). -/
  | cpy2 (xd : XReg) (xs : XReg) (xn : XReg) (xc : XReg) (xv : XReg)
  /-- CPY3 (R275). -/
  | cpy3 (xd : XReg) (xs : XReg) (xn : XReg) (xc : XReg) (xv : XReg)
  /-- CPYV (R275). -/
  | cpyv (xd : XReg) (xs : XReg) (xn : XReg) (xver : XReg) (xc : XReg) (xv : XReg)
  /-- CPYQ (R275). -/
  | cpyq (xd : XReg) (xs : XReg) (xn : XReg) (xc : XReg) (xv : XReg)
  /-- CPYX (R275). -/
  | cpyx (xd : XReg) (xs : XReg) (xn : XReg) (xc : XReg) (xv : XReg)
  /-- CPY1_LIT (R275). -/
  | cpy1Lit (xd : XReg) (xs : XReg) (xn : XReg) (xc : XReg) (lit : Word)
  /-- CPY2_LIT (R275). -/
  | cpy2Lit (xd : XReg) (xs : XReg) (xn : XReg) (xc : XReg) (lit : Word)
  /-- CPY3_LIT (R275). -/
  | cpy3Lit (xd : XReg) (xs : XReg) (xn : XReg) (xc : XReg) (lit : Word)
  /-- CPYV_LIT (R275). -/
  | cpyvLit (xd : XReg) (xs : XReg) (xn : XReg) (xver : XReg) (xc : XReg) (lit : Word)
  /-- CPYQ_LIT (R275). -/
  | cpyqLit (xd : XReg) (xs : XReg) (xn : XReg) (xc : XReg) (lit : Word)
  /-- CPYX_LIT (R275). -/
  | cpyxLit (xd : XReg) (xs : XReg) (xn : XReg) (xc : XReg) (lit : Word)
  /-- COLLRED (R287). -/
  | collred (op : CollOp) (fmt : CollFmt) (br : Bool) (xd : XReg) (xs : XReg) (xn : XReg) (xc : XReg) (xr : XReg)
  /-- COLLGATH (R287). -/
  | collgath (fmt : CollFmt) (br : Bool) (xd : XReg) (xs : XReg) (xn : XReg) (xc : XReg) (xr : XReg)
  /-- COLLBCAST (R287). -/
  | collbcast (fmt : CollFmt) (br : Bool) (xd : XReg) (xs : XReg) (xn : XReg) (xc : XReg) (xr : XReg)
  /-- MSEND (R285). -/
  | msend (d : XReg) (v : VReg) (xt : XReg)
  /-- MRECV (R284). -/
  | mrecv (d : XReg) (v : VReg)
  /-- MPOLL (R284). -/
  | mpoll (d : XReg)
  /-- PAUSE (R330). -/
  | pause (n : BitVec 16)
  /-- WAITA (R331). -/
  | waita (d : XReg) (xv : XReg) (xa : XReg)
  /-- CLAVE (R337). -/
  | clave (d : XReg) (xs : XReg) (xk : XReg)
  /-- CLAVEV (R337). -/
  | clavev (vd : VReg) (vs : VReg) (xk : XReg)
  /-- CLAVEG (R338). -/
  | claveg (vd : VReg) (xs : XReg) (xk : XReg)
  /-- BARA (R335). -/
  | bara (h : Handle)
  /-- BARW (R334). -/
  | barw (h : Handle)
  /-- BARW_SS (R334). -/
  | barwSs
  /-- BARQ (R336). -/
  | barq (d : XReg) (h : Handle)
  /-- SLPUSH (R343). -/
  | slpush (v : VReg)
  /-- SLPOP (R343). -/
  | slpop (v : VReg)
  /-- SLFREE (R343). -/
  | slfree (d : XReg)
  /-- SLPEEK (R343). -/
  | slpeek (d : XReg) (v : VReg)
  /-- STRIKE (R350). -/
  | strike (d : XReg) (xs : XReg)
  /-- MIGR (R353). -/
  | migr (xc : XReg) (isl : Bool) (w1 : BitVec 12)
  /-- CSRR (R117). -/
  | csrr (d : XReg) (csr : BitVec 12)
  /-- CSRW (R117). -/
  | csrw (d : XReg) (csr : BitVec 12) (a : XReg)
  /-- CSRS (R117). -/
  | csrs (d : XReg) (csr : BitVec 12) (a : XReg)
  /-- CSRC (R117). -/
  | csrc (d : XReg) (csr : BitVec 12) (a : XReg)
  /-- SCALL (R467). -/
  | scall
  /-- BREAK (R468). -/
  | brk
  /-- DONE (R126). -/
  | threadDone
  /-- YIELD (R129). -/
  | yieldTurn
  /-- ERET (R469). -/
  | eret
  /-- HALT (R470). -/
  | halt
  /-- TLBINV (R432). -/
  | tlbinv (xa : XReg) (xs : XReg)
  /-- MARK (R497). -/
  | mark (d : XReg) (a : XReg) (b : XReg)
  /-- DEFERRED_TRAP_TAKE (R460). -/
  | evDeferredTrapTake (tid : Nat)
  /-- FIRMWARE_PAGE_VALIDATE (R430). -/
  | evFirmwarePageValidate (i : Nat)
  /-- SERVICED_FAULT_RESTART (R430). -/
  | evServicedFaultRestart (i : Nat)
  /-- WAITA_MONITOR_MATCH (R332). -/
  | evWaitaMonitorMatch (tid : Nat)
  /-- WAIT_TIMEOUT (R331). -/
  | evWaitTimeout (tid : Nat)
  /-- VER_WAIT (R250). -/
  | evVerWait (tid : Nat)
  /-- VER_FULL (R250). -/
  | evVerFull (tid : Nat)
  /-- BAR_STALL (R311). -/
  | evBarStall (tid : Nat)
  /-- CLAVE_TIMEOUT (R306). -/
  | evClaveTimeout (tid : Nat)
  /-- SL_DOWN (R342). -/
  | evSlDown (tid : Nat)
  /-- SL_ENTRY_ARRIVE (R340). -/
  | evSlEntryArrive (core : Nat)
  /-- SL_CREDIT_ARRIVE (R341). -/
  | evSlCreditArrive (core : Nat)
  /-- PAUSE_INTERVAL_END (R330). -/
  | evPauseIntervalEnd (tid : Nat)
  /-- MQ_TMMA_EXECUTE (R180). -/
  | evMqTmmaExecute (core : Nat)
  /-- MQ_TACCOUT_EXECUTE (R181). -/
  | evMqTaccoutExecute (core : Nat)
  /-- MQ_TACCADD_EXECUTE (R184). -/
  | evMqTaccaddExecute (core : Nat)
  /-- MQ_TZERO_EXECUTE (R185). -/
  | evMqTzeroExecute (core : Nat)
  /-- MQ_TACCZ_EXECUTE (R185). -/
  | evMqTacczExecute (core : Nat)
  /-- MQ_TXCH_EXECUTE (R188). -/
  | evMqTxchExecute (core : Nat)
  /-- MQ_TCVT_EXECUTE (R186). -/
  | evMqTcvtExecute (core : Nat)
  /-- CE_GRANULE_TRANSFER (R279). -/
  | evCeGranuleTransfer (core : Nat) (slot : Nat) (off : Nat)
  /-- COLLECTIVE_EXECUTE (R290). -/
  | evCollectiveExecute (gid : Nat) (peer : List (PeerColl × List Byte))
  /-- BINDCMD_READ (R375). -/
  | evBindcmdRead (tid : Nat)
  /-- BINDCMD_WRITE (R375). -/
  | evBindcmdWrite (tid : Nat)
  /-- BIND_ZEROING_DONE (R421). -/
  | evBindZeroingDone (tid : Nat)
  /-- BINDCMD_GO (R376). -/
  | evBindcmdGo (tid : Nat)
  /-- BINDCMD_STOP (R375). -/
  | evBindcmdStop (tid : Nat)
  /-- THREAD_STOP (R321). -/
  | evThreadStop (tid : Nat)
  /-- GANG_STOP_SAVE_COMPLETE (R321). -/
  | evGangStopSaveComplete (gid : Nat)
  /-- TASK_BIND (R370). -/
  | evTaskBind (gid : Nat) (cores : List Nat)
  /-- PRIORITY_AGING (R371). -/
  | evPriorityAging (gid : Nat)
  /-- QUANTUM_PREEMPT (R372). -/
  | evQuantumPreempt (gid : Nat) (waiting : Nat)
  /-- LAUNCH (R363). -/
  | evLaunch (qif : Nat) (queue : Nat)
  /-- SIGNAL (R358). -/
  | evSignal (qif : Nat) (queue : Nat)
  /-- WAITQ (R358). -/
  | evWaitq (qif : Nat) (queue : Nat)
  /-- WAITQ_SATISFIED (R358). -/
  | evWaitqSatisfied (qif : Nat) (queue : Nat)
  /-- WAITQ_TIMEOUT (R358). -/
  | evWaitqTimeout (qif : Nat) (queue : Nat)
  /-- CONTROL (R360). -/
  | evControl (qif : Nat) (queue : Nat)
  /-- CAPSTART (R494). -/
  | evCapstart (qif : Nat) (queue : Nat)
  /-- CAPSTOP (R495). -/
  | evCapstop (qif : Nat) (queue : Nat)
  /-- QUEUE_NOTIFY (R440). -/
  | evQueueNotify (qif : Nat) (off : Nat) (data : Word)
  /-- QIF_ENABLE_WRITE (R436). -/
  | evQifEnableWrite (qif : Nat) (data : Word)
  /-- QIF_RESET (R445). -/
  | evQifReset (qif : Nat)
  /-- QIF_RESET_COMPLETE (R445). -/
  | evQifResetComplete (qif : Nat)
  /-- S2INV (R435). -/
  | evS2inv (qif : Nat) (data : Word)
  /-- INVREQ (R437). -/
  | evInvreq (qif : Nat) (data : Word)
  /-- DBGRESUME (R496). -/
  | evDbgresume (qif : Nat) (data : Word)
  /-- DBGSTOP (R496). -/
  | evDbgstop (qif : Nat) (data : Word)
  /-- RESTART (R438). -/
  | evRestart (qif : Nat) (queue : Nat)
  /-- CHEAD_WRITE (R438). -/
  | evCheadWrite (qif : Nat) (queue : Nat) (data : Word)
  /-- FAULT_RING_WRITE (R515). -/
  | evFaultRingWrite (qif : Nat) (off : Nat) (data : Word)
  /-- FRESP (R443). -/
  | evFresp (qif : Nat) (data : Word)
  /-- FILE_FAULT_WAIT_LIMIT (R443). -/
  | evFileFaultWaitLimit (i : Nat)
  /-- TENANT_TABLE_WRITE (R420). -/
  | evTenantTableWrite (t : Nat) (word : Nat) (data : Word)
  /-- MSISEND (R451). -/
  | evMsisend (data : Word)
  /-- ATTBUF (R492). -/
  | evAttbuf (data : Word)
  /-- ATTESTATION_DONE (R492). -/
  | evAttestationDone
  /-- VMINSEL (R487). -/
  | evVminsel (data : Word)
  /-- VMINTIME_READ (R487). -/
  | evVmintimeRead
  /-- RECOVERY_LOAD (R490). -/
  | evRecoveryLoad (verdict : Nat)
  /-- RECOVERY_LOAD_FLASH (R490). -/
  | evRecoveryLoadFlash (verdict : Nat)
  /-- REGISTER_WRITE (R9). -/
  | evRegisterWrite (off : Nat) (data : Word)
  /-- HOST_CXL_ACCESS (R447). -/
  | evHostCxlAccess (hbm : Bool) (store : Bool) (addr : Nat) (data : List Byte)
  /-- BRIDGE_LINK_UP (R448). -/
  | evBridgeLinkUp (port : Nat) (serial : Word)
  /-- BRIDGE_FLIT_RECEIVE (R449). -/
  | evBridgeFlitReceive (port : Nat) (flit : List Byte)
  /-- BRIDGE_RETRAIN (R449). -/
  | evBridgeRetrain (port : Nat)
  /-- BRIDGE_PORT_DOWN (R449). -/
  | evBridgePortDown (port : Nat)
  /-- BRIDGE_SLACK_DECISION (R403). -/
  | evBridgeSlackDecision (gid sstep : Nat)
  /-- WC_FLUSH (R226). -/
  | evWcFlush (granule : Nat)
  /-- LM_BOUNDARY_TICK (R208). -/
  | evLmBoundaryTick (core : Nat) (up : Bool)
  /-- QUADRANT_IDLE_DOWN (R379). -/
  | evQuadrantIdleDown (q : Nat) (target : Nat)
  /-- QUADRANT_RAISE (R379). -/
  | evQuadrantRaise (q : Nat)
  /-- BIND_WAKE_REQUEST (R511). -/
  | evBindWakeRequest (gid : Nat) (q : Nat)
  /-- WAKE_COMPLETE (R385). -/
  | evWakeComplete (w : Nat)
  /-- STRIKER_RECORD_DELIVERY (R386). -/
  | evStrikerRecordDelivery (t : Nat)
  /-- TABOR_MODE_SWITCH (R380). -/
  | evTaborModeSwitch
  /-- LPDDR6_SELF_REFRESH_ENTRY (R380). -/
  | evLpddr6SelfRefreshEntry
  /-- CORE_C1_ENTRY (R381). -/
  | evCoreC1Entry (core : Nat)
  /-- CORE_C2_ENTRY (R381). -/
  | evCoreC2Entry (core : Nat)
  /-- DOMAIN_SWITCH_ON (R393). -/
  | evDomainSwitchOn (d : Nat) (busy : List Nat)
  /-- SWITCH_ON_NEIGHBOUR_TIMEOUT (R393). -/
  | evSwitchOnNeighbourTimeout (d : Nat)
  /-- SWITCH_ON_RAMP_COMPLETE (R393). -/
  | evSwitchOnRampComplete (d : Nat)
  /-- COOLING_REPORT (R395). -/
  | evCoolingReport (medium : Nat) (inlet : Int) (flow : Nat)
  /-- COOLING_SENSOR_TIMEOUT (R395). -/
  | evCoolingSensorTimeout
  /-- TALLOW_UPDATE (R396). -/
  | evTallowUpdate (cluster : Nat) (tj : Nat)
  /-- HBM_TEMP_THRESHOLD (R397). -/
  | evHbmTempThreshold (stack : Nat) (temp : Int)
  /-- HBM_THERMAL_STEP (R397). -/
  | evHbmThermalStep (stack : Nat)
  /-- BELLOWS_LIMIT_STEP (R398). -/
  | evBellowsLimitStep (clusters : List Nat)
  /-- BELLOWS_RAISE_STEP (R398). -/
  | evBellowsRaiseStep (clusters : List Nat)
  /-- POWER_ESTIMATE_TICK (R399). -/
  | evPowerEstimateTick (cluster : Nat) (volt : Nat) (temp : Nat)
  /-- POWER_WEIGHT_REFIT (R399). -/
  | evPowerWeightRefit (q : Nat) (energy : Rat)
  /-- CLOCK_RATIO_HANDSHAKE (R401). -/
  | evClockRatioHandshake (cluster : Nat)
  /-- LADLE_MIGRATION (R390). -/
  | evLadleMigration (gid : Nat) (cores : List Nat)
  /-- CE_SUMMARY_TICK (R479). -/
  | evCeSummaryTick
  /-- PATROL_SCRUB (R481). -/
  | evPatrolScrub (key : Nat)
  /-- PHASE_FAILURE (R483). -/
  | evPhaseFailure (d : Nat) (phase : Nat)
  /-- COLD_START (R488). -/
  | evColdStart (failStep : Nat)
  /-- WARM_START (R488). -/
  | evWarmStart (failStep : Nat)
  /-- RUDIMENT_HELD_RELEASE (R499). -/
  | evRudimentHeldRelease (tid : Nat)
  /-- REPLAY_WAIT_EXPIRY (R499). -/
  | evReplayWaitExpiry (tid : Nat)
  /-- DOMAIN_POWER_GATE (R347). -/
  | evDomainPowerGate (d : Nat)
  /-- SERVICE_WAIT_LIMIT (R514). -/
  | evServiceWaitLimit (qif : Nat) (queue : Nat)
  /-- CPYV_VERSION_WAIT_LIMIT (R262). -/
  | evCpyvVersionWaitLimit (core : Nat) (slot : Nat) (off : Nat)
  /-- MSIX_VECTOR_UNMASK (R444). -/
  | evMsixVectorUnmask (entry : Nat) (data : Word)
  /-- ALWAYS_ON_POWER_LOSS (R488). -/
  | evAlwaysOnPowerLoss
  /-- SUPPLY_VOLTAGE_MINIMUM (R487). -/
  | evSupplyVoltageMinimum (d : Nat) (mv : Nat)
  deriving DecidableEq, Repr

end Sys2Proof
end

