-- ==== Sys2Proof/WellFormed.lean ====
section
/-!
DEFINITION. Which instruction terms an encoding can carry: the conditions that a type of Syntax does not already hold
(spec/02, R46 to R55, Tables 2-5 to 2-8, and the entries that narrow them). An event is no encoded instruction, so no event
is well formed.
-/
namespace Sys2Proof

/-- Integer lane types (R45). -/
def Ty.isInt : Ty → Bool
  | .i8 | .i16 | .i32 | .i64 => true
  | .bf16 | .fp16 | .fp32 => false

/-- Integer codes of FCVT (R141). -/
def NumCode.isInt : NumCode → Bool
  | .w | .wu | .l | .lu => true
  | .d | .s | .h | .b => false

/-- OS 0 to 5: loads, VERLD and VERLDLE (R264, R253). -/
def Os.loadOk : Os → Bool
  | .rlx | .acq _ => true
  | .rel _ | .ar _ => false

/-- OS 0 and 6 to 10: stores, VERST, VERFLOOR and VERDROP (R264, R253). -/
def Os.storeOk : Os → Bool
  | .rlx | .rel _ => true
  | .acq _ | .ar _ => false

/-- AND, OR and XOR (R287). -/
def CollOp.isBitwise : CollOp → Bool
  | .and | .or | .xor => true
  | .sum | .max | .min => false

/-- Float formats of a collective (R287). -/
def CollFmt.isFloat : CollFmt → Bool
  | .fp32 | .fp64 | .bf16 | .fp16 => true
  | .int32 | .int64 | .uint32 | .uint64 => false

/-- The terms that some instruction word stands for. -/
def Instr.wellFormed : Instr → Bool
  | .add _ _ _ => true
  | .sub _ _ _ => true
  | .and _ _ _ => true
  | .or _ _ _ => true
  | .xor _ _ _ => true
  | .andn _ _ _ => true
  | .orn _ _ _ => true
  | .xnor _ _ _ => true
  | .sll _ _ _ => true
  | .srl _ _ _ => true
  | .sra _ _ _ => true
  | .rol _ _ _ => true
  | .ror _ _ _ => true
  | .slt _ _ _ => true
  | .sltu _ _ _ => true
  | .min _ _ _ => true
  | .max _ _ _ => true
  | .minu _ _ _ => true
  | .maxu _ _ _ => true
  | .addw _ _ _ => true
  | .subw _ _ _ => true
  | .addLit _ _ _ => true
  | .subLit _ _ _ => true
  | .andLit _ _ _ => true
  | .orLit _ _ _ => true
  | .xorLit _ _ _ => true
  | .andnLit _ _ _ => true
  | .ornLit _ _ _ => true
  | .xnorLit _ _ _ => true
  | .sllLit _ _ _ => true
  | .srlLit _ _ _ => true
  | .sraLit _ _ _ => true
  | .rolLit _ _ _ => true
  | .rorLit _ _ _ => true
  | .sltLit _ _ _ => true
  | .sltuLit _ _ _ => true
  | .minLit _ _ _ => true
  | .maxLit _ _ _ => true
  | .minuLit _ _ _ => true
  | .maxuLit _ _ _ => true
  | .addwLit _ _ _ => true
  | .subwLit _ _ _ => true
  | .addi _ _ _ => true
  | .andi _ _ _ => true
  | .ori _ _ _ => true
  | .xori _ _ _ => true
  | .slli _ _ _ => true
  | .srli _ _ _ => true
  | .srai _ _ _ => true
  | .slti _ _ _ => true
  | .sltiu _ _ _ => true
  | .addwi _ _ _ => true
  | .addiLit _ _ _ => true
  | .andiLit _ _ _ => true
  | .oriLit _ _ _ => true
  | .xoriLit _ _ _ => true
  | .sltiLit _ _ _ => true
  | .sltiuLit _ _ _ => true
  | .addwiLit _ _ _ => true
  | .ldk _ _ => true
  | .addk _ _ _ => true
  | .mul _ _ _ => true
  | .mulh _ _ _ => true
  | .mulhu _ _ _ => true
  | .mulhmx _ _ _ => true
  | .div _ _ _ => true
  | .divu _ _ _ => true
  | .rem _ _ _ => true
  | .remu _ _ _ => true
  | .clz _ _ => true
  | .ctz _ _ => true
  | .popc _ _ => true
  | .brev _ _ => true
  | .bswap _ _ => true
  | .sextb _ _ => true
  | .sexth _ _ => true
  | .zexth _ _ => true
  | .zextw _ _ => true
  | .bext _ _ _ => true
  | .bdep _ _ _ => true
  | .bextLit _ _ _ => true
  | .bdepLit _ _ _ => true
  | .li _ _ => true
  | .liLit _ _ => true
  | .pcadd _ _ => true
  | .pcaddLit _ _ => true
  | .sel _ _ _ => true
  | .seq _ _ _ => true
  | .sne _ _ _ => true
  | .seqLit _ _ _ => true
  | .sneLit _ _ _ => true
  | .beq _ _ _ => true
  | .bne _ _ _ => true
  | .blt _ _ _ => true
  | .bge _ _ _ => true
  | .bltu _ _ _ => true
  | .bgeu _ _ _ => true
  | .beqExt _ _ off => off.toNat % 4 == 0
  | .bneExt _ _ off => off.toNat % 4 == 0
  | .bltExt _ _ off => off.toNat % 4 == 0
  | .bgeExt _ _ off => off.toNat % 4 == 0
  | .bltuExt _ _ off => off.toNat % 4 == 0
  | .bgeuExt _ _ off => off.toNat % 4 == 0
  | .jal _ _ => true
  | .jalExt _ off => off.toNat % 4 == 0
  | .jalr _ _ _ => true
  | .lb _ _ _ os => os.loadOk
  | .lbu _ _ _ os => os.loadOk
  | .lh _ _ _ os => os.loadOk
  | .lhu _ _ _ os => os.loadOk
  | .lw _ _ _ os => os.loadOk
  | .lwu _ _ _ os => os.loadOk
  | .ld _ _ _ os => os.loadOk
  | .lbLit _ _ _ os => os.loadOk
  | .lbuLit _ _ _ os => os.loadOk
  | .lhLit _ _ _ os => os.loadOk
  | .lhuLit _ _ _ os => os.loadOk
  | .lwLit _ _ _ os => os.loadOk
  | .lwuLit _ _ _ os => os.loadOk
  | .ldLit _ _ _ os => os.loadOk
  | .lbExt _ _ _ os => os.loadOk
  | .lbuExt _ _ _ os => os.loadOk
  | .lhExt _ _ _ os => os.loadOk
  | .lhuExt _ _ _ os => os.loadOk
  | .lwExt _ _ _ os => os.loadOk
  | .lwuExt _ _ _ os => os.loadOk
  | .ldExt _ _ _ os => os.loadOk
  | .sb _ _ _ os => os.storeOk
  | .sh _ _ _ os => os.storeOk
  | .sw _ _ _ os => os.storeOk
  | .sd _ _ _ os => os.storeOk
  | .pstore _ _ _ => true
  | .sbLit _ _ _ os => os.storeOk
  | .shLit _ _ _ os => os.storeOk
  | .swLit _ _ _ os => os.storeOk
  | .sdLit _ _ _ os => os.storeOk
  | .pstoreLit _ _ _ => true
  | .sbExt _ _ _ os => os.storeOk
  | .shExt _ _ _ os => os.storeOk
  | .swExt _ _ _ os => os.storeOk
  | .sdExt _ _ _ os => os.storeOk
  | .pstoreExt _ _ _ => true
  | .amoadd _ _ _ _ _ => true
  | .amoand _ _ _ _ _ => true
  | .amoor _ _ _ _ _ => true
  | .amoxor _ _ _ _ _ => true
  | .amomin _ _ _ _ _ => true
  | .amomax _ _ _ _ _ => true
  | .amominu _ _ _ _ _ => true
  | .amomaxu _ _ _ _ _ => true
  | .amoswap _ _ _ _ _ => true
  | .amocas _ _ _ _ _ => true
  | .amofadd _ _ _ _ _ => true
  | .abump _ _ _ _ => true
  | .fence _ _ => true
  | .fencex _ _ p1 p2 => p1 != p2
  | .ifence => true
  | .fadd _ _ _ _ _ => true
  | .fsub _ _ _ _ _ => true
  | .fmul _ _ _ _ _ => true
  | .fdiv _ _ _ _ _ => true
  | .fsqrt _ _ _ _ => true
  | .fmin _ _ _ _ => true
  | .fmax _ _ _ _ => true
  | .feq _ _ _ _ => true
  | .flt _ _ _ _ => true
  | .fle _ _ _ _ => true
  | .fclass _ _ _ => true
  | .fsgnj _ _ _ _ => true
  | .fabs _ _ _ => true
  | .fmac _ _ _ _ _ => true
  | .fmsc _ _ _ _ _ => true
  | .fmacExt _ _ _ _ _ _ => true
  | .fmscExt _ _ _ _ _ _ => true
  | .fcvt dst src _ _ _ => dst != src && !(dst.isInt && src.isInt)
  | .vadd ty _ _ _ _ => ty.isInt
  | .vsub ty _ _ _ _ => ty.isInt
  | .vmul ty _ _ _ _ => ty.isInt
  | .vmulh ty _ _ _ _ => ty.isInt
  | .vadds ty _ _ _ _ => ty.isInt
  | .vsubs ty _ _ _ _ => ty.isInt
  | .vabs ty _ _ _ => ty.isInt
  | .vmin ty _ _ _ _ => ty.isInt
  | .vmax ty _ _ _ _ => ty.isInt
  | .vand ty _ _ _ _ => ty.isInt
  | .vor ty _ _ _ _ => ty.isInt
  | .vxor ty _ _ _ _ => ty.isInt
  | .vsll ty _ _ _ _ => ty.isInt
  | .vsrl ty _ _ _ _ => ty.isInt
  | .vsra ty _ _ _ _ => ty.isInt
  | .vfadd ty _ _ _ _ => !ty.isInt
  | .vfsub ty _ _ _ _ => !ty.isInt
  | .vfmul ty _ _ _ _ => !ty.isInt
  | .vfdiv ty _ _ _ _ => !ty.isInt
  | .vfsqrt ty _ _ _ => !ty.isInt
  | .vfmin ty _ _ _ _ => !ty.isInt
  | .vfmax ty _ _ _ _ => !ty.isInt
  | .vfexp2 ty _ _ _ => ty == .bf16 || ty == .fp32
  | .vfrcp ty _ _ _ => ty == .bf16 || ty == .fp32
  | .vfrsqrt ty _ _ _ => ty == .bf16 || ty == .fp32
  | .vload _ _ _ _ => true
  | .vstore _ _ _ _ => true
  | .vgather _ _ _ _ _ => true
  | .vscatter _ _ _ _ _ => true
  | .vloadb _ _ _ _ _ => true
  | .vloadLit _ _ _ _ => true
  | .vstoreLit _ _ _ _ => true
  | .vloadbLit _ _ _ _ _ => true
  | .vloadExt _ _ _ _ => true
  | .vstoreExt _ _ _ _ => true
  | .vloadbExt _ _ _ _ _ => true
  | .vcmpEq _ _ _ _ _ => true
  | .vcmpNe _ _ _ _ _ => true
  | .vcmpLt _ _ _ _ _ => true
  | .vcmpLe _ _ _ _ _ => true
  | .vcmpLtu ty _ _ _ _ => ty.isInt
  | .vcmpLeu ty _ _ _ _ => ty.isInt
  | .vsel _ _ _ _ _ => true
  | .vbcast _ _ _ _ => true
  | .vext _ _ _ _ => true
  | .vins _ _ _ _ => true
  | .vperm _ _ _ _ _ => true
  | .vslide _ _ _ _ _ => true
  | .vredsum _ _ _ _ => true
  | .vredmax _ _ _ _ => true
  | .vredmin _ _ _ _ => true
  | .vcvt dty sty _ _ _ => dty != sty
  | .vmov _ _ _ _ => true
  | .mand _ _ _ => true
  | .mor _ _ _ => true
  | .mxor _ _ _ => true
  | .mnot _ _ => true
  | .mpop _ _ => true
  | .mfirst _ _ => true
  | .mfromx _ _ => true
  | .mtox _ _ => true
  | .vfmac ty _ _ _ _ => !ty.isInt
  | .vdot4 _ _ _ _ => true
  | .tload _ _ _ => true
  | .tloadt _ _ _ => true
  | .tloads _ _ _ => true
  | .tstore _ _ _ => true
  | .taccld _ _ _ => true
  | .taccst _ _ _ => true
  | .tmma _ _ _ => true
  | .taccout _ _ _ _ _ => true
  | .taccadd _ _ => true
  | .tzero _ => true
  | .taccz _ => true
  | .txch _ _ _ => true
  | .tcvt _ _ => true
  | .verst _ _ _ os => os.storeOk
  | .verld _ _ _ os => os.loadOk
  | .verldle _ _ _ os => os.loadOk
  | .verprobe _ _ _ => true
  | .verfloor _ _ _ os => os.storeOk
  | .verdrop _ os => os.storeOk
  | .cpy1 _ _ _ xc xv => xc != 0 || xv == 0
  | .cpy2 _ _ _ xc xv => xc != 0 || xv == 0
  | .cpy3 _ _ _ xc xv => xc != 0 || xv == 0
  | .cpyv _ _ _ _ xc xv => xc != 0 || xv == 0
  | .cpyq _ _ _ xc xv => xc != 0 || xv == 0
  | .cpyx _ _ _ xc xv => xc != 0 || xv == 0
  | .cpy1Lit _ _ _ xc _ => xc != 0
  | .cpy2Lit _ _ _ xc _ => xc != 0
  | .cpy3Lit _ _ _ xc _ => xc != 0
  | .cpyvLit _ _ _ _ xc _ => xc != 0
  | .cpyqLit _ _ _ xc _ => xc != 0
  | .cpyxLit _ _ _ xc _ => xc != 0
  | .collred op fmt _ _ _ _ _ _ => !(op.isBitwise && fmt.isFloat)
  | .collgath _ _ _ _ _ _ _ => true
  | .collbcast _ _ _ _ _ _ _ => true
  | .msend _ _ _ => true
  | .mrecv _ _ => true
  | .mpoll _ => true
  | .pause n => n != 0
  | .waita _ _ _ => true
  | .clave _ _ _ => true
  | .clavev _ _ _ => true
  | .claveg _ _ _ => true
  | .bara h => h != 0
  | .barw h => h != 0
  | .barwSs => true
  | .barq _ _ => true
  | .slpush _ => true
  | .slpop _ => true
  | .slfree _ => true
  | .slpeek _ _ => true
  | .strike _ _ => true
  | .migr xc isl w1 => xc != 0 && decide (w1.toNat + 1 ≤ (if isl then 8 else 2048))
  | .csrr _ _ => true
  | .csrw _ _ _ => true
  | .csrs _ _ _ => true
  | .csrc _ _ _ => true
  | .scall => true
  | .brk => true
  | .threadDone => true
  | .yieldTurn => true
  | .eret => true
  | .halt => true
  | .tlbinv _ _ => true
  | .mark _ _ _ => true
  | .evDeferredTrapTake _ => false
  | .evFirmwarePageValidate _ => false
  | .evServicedFaultRestart _ => false
  | .evWaitaMonitorMatch _ => false
  | .evWaitTimeout _ => false
  | .evVerWait _ => false
  | .evVerFull _ => false
  | .evBarStall _ => false
  | .evClaveTimeout _ => false
  | .evSlDown _ => false
  | .evSlEntryArrive _ => false
  | .evSlCreditArrive _ => false
  | .evPauseIntervalEnd _ => false
  | .evMqTmmaExecute _ => false
  | .evMqTaccoutExecute _ => false
  | .evMqTaccaddExecute _ => false
  | .evMqTzeroExecute _ => false
  | .evMqTacczExecute _ => false
  | .evMqTxchExecute _ => false
  | .evMqTcvtExecute _ => false
  | .evCeGranuleTransfer _ _ _ => false
  | .evCollectiveExecute _ _ => false
  | .evBindcmdRead _ => false
  | .evBindcmdWrite _ => false
  | .evBindZeroingDone _ => false
  | .evBindcmdGo _ => false
  | .evBindcmdStop _ => false
  | .evThreadStop _ => false
  | .evGangStopSaveComplete _ => false
  | .evTaskBind _ _ => false
  | .evPriorityAging _ => false
  | .evQuantumPreempt _ _ => false
  | .evLaunch _ _ => false
  | .evSignal _ _ => false
  | .evWaitq _ _ => false
  | .evWaitqSatisfied _ _ => false
  | .evWaitqTimeout _ _ => false
  | .evControl _ _ => false
  | .evCapstart _ _ => false
  | .evCapstop _ _ => false
  | .evQueueNotify _ _ _ => false
  | .evQifEnableWrite _ _ => false
  | .evQifReset _ => false
  | .evQifResetComplete _ => false
  | .evS2inv _ _ => false
  | .evInvreq _ _ => false
  | .evDbgresume _ _ => false
  | .evDbgstop _ _ => false
  | .evRestart _ _ => false
  | .evCheadWrite _ _ _ => false
  | .evFaultRingWrite _ _ _ => false
  | .evFresp _ _ => false
  | .evFileFaultWaitLimit _ => false
  | .evTenantTableWrite _ _ _ => false
  | .evMsisend _ => false
  | .evAttbuf _ => false
  | .evAttestationDone => false
  | .evVminsel _ => false
  | .evVmintimeRead => false
  | .evRecoveryLoad _ => false
  | .evRecoveryLoadFlash _ => false
  | .evRegisterWrite _ _ => false
  | .evHostCxlAccess _ _ _ _ => false
  | .evBridgeLinkUp _ _ => false
  | .evBridgeFlitReceive _ _ => false
  | .evBridgeRetrain _ => false
  | .evBridgePortDown _ => false
  | .evBridgeSlackDecision _ _ => false
  | .evWcFlush _ => false
  | .evLmBoundaryTick _ _ => false
  | .evQuadrantIdleDown _ _ => false
  | .evQuadrantRaise _ => false
  | .evBindWakeRequest _ _ => false
  | .evWakeComplete _ => false
  | .evStrikerRecordDelivery _ => false
  | .evTaborModeSwitch => false
  | .evLpddr6SelfRefreshEntry => false
  | .evCoreC1Entry _ => false
  | .evCoreC2Entry _ => false
  | .evDomainSwitchOn _ _ => false
  | .evSwitchOnNeighbourTimeout _ => false
  | .evSwitchOnRampComplete _ => false
  | .evCoolingReport _ _ _ => false
  | .evCoolingSensorTimeout => false
  | .evTallowUpdate _ _ => false
  | .evHbmTempThreshold _ _ => false
  | .evHbmThermalStep _ => false
  | .evBellowsLimitStep _ => false
  | .evBellowsRaiseStep _ => false
  | .evPowerEstimateTick _ _ _ => false
  | .evPowerWeightRefit _ _ => false
  | .evClockRatioHandshake _ => false
  | .evLadleMigration _ _ => false
  | .evCeSummaryTick => false
  | .evPatrolScrub _ => false
  | .evPhaseFailure _ _ => false
  | .evColdStart _ => false
  | .evWarmStart _ => false
  | .evRudimentHeldRelease _ => false
  | .evReplayWaitExpiry _ => false
  | .evDomainPowerGate _ => false
  | .evServiceWaitLimit _ _ => false
  | .evCpyvVersionWaitLimit _ _ _ => false
  | .evMsixVectorUnmask _ _ => false
  | .evAlwaysOnPowerLoss => false
  | .evSupplyVoltageMinimum _ _ => false

end Sys2Proof
end

