-- ==== Sys2Proof/Decode.lean ====
section
/-!
DEFINITION. Decoding of instruction words (spec/02, R36 to R57, Tables 2-3 to 2-8, with the checks of ILLEGAL in the order of
R505) and, after it, the encoder written from the same tables. An instruction is given as three numbers: word 0, words 1 and 2
as one 64-bit value, words 3 and 4 as one 64-bit value; those beyond its length are not read. Lean compiles no constructor
with fields beyond its 244th (a limit of its runtime), so what builds such a term is marked noncomputable; the kernel
evaluates it like the rest.
-/
namespace Sys2Proof

/-- What a word stands for: an instruction, or an ILLEGAL trap with its EVAL (R58, Table 2-9). -/
inductive Decoded where
  | instr (i : Instr)
  | illegal (eval : Nat)
  deriving DecidableEq, Repr

/-- A check of R505: if it fails the word is ILLEGAL with this EVAL. -/
def chk (bad : Bool) (eval : Nat) (k : Decoded) : Decoded := if bad then .illegal eval else k

/-- Bytes of an instruction by LEN (R36, R37). -/
def lenBytes (w : Nat) : Nat := if w % 4 = 0 then 4 else if w % 4 = 3 then 20 else 12

/-! ## Fields of word 0 (R42, Table 2-4) -/

/-- Register at [12:8]. -/
def fRd (w : Nat) : XReg := Fin.ofNat 32 (w / 2 ^ 8)
/-- Register at [17:13]. -/
def fRs1 (w : Nat) : XReg := Fin.ofNat 32 (w / 2 ^ 13)
/-- Register at [22:18]. -/
def fRs2 (w : Nat) : XReg := Fin.ofNat 32 (w / 2 ^ 18)
/-- FN at [28:23]. -/
def fFn (w : Nat) : Nat := bits w 23 6
/-- OPT at [31:29]. -/
def fOpt (w : Nat) : Nat := bits w 29 3
/-- imm10 at [27:18]. -/
def fImm (w : Nat) : BitVec 10 := BitVec.ofNat 10 (w / 2 ^ 18)
/-- offset5 at [22:18]. -/
def fOff5 (w : Nat) : BitVec 5 := BitVec.ofNat 5 (w / 2 ^ 18)
/-- 4-bit register at [11:8]. -/
def fVd (w : Nat) : Fin 16 := Fin.ofNat 16 (w / 2 ^ 8)
/-- 4-bit register at [15:12]. -/
def fVs1 (w : Nat) : Fin 16 := Fin.ofNat 16 (w / 2 ^ 12)
/-- 4-bit register at [19:16]. -/
def fVs2 (w : Nat) : Fin 16 := Fin.ofNat 16 (w / 2 ^ 16)
/-- 4-bit vector register at [21:18], the low bits of rs2. -/
def fV2 (w : Nat) : VReg := Fin.ofNat 16 (w / 2 ^ 18)
/-- Mask at [22:20] of the VEC layout. -/
def fVm (w : Nat) : MReg := Fin.ofNat 8 (w / 2 ^ 20)
/-- Mask register at [10:8]. -/
def fMd (w : Nat) : MReg := Fin.ofNat 8 (w / 2 ^ 8)
/-- OS code: OS[3:1] at [31:29], OS[0] at [23] (R47). -/
def fOs (w : Nat) : Nat := 2 * bits w 29 3 + bits w 23 1
/-- off47 of E (R50). -/
def fOff47 (e : Nat) : BitVec 47 := BitVec.ofNat 47 e
/-- The literal or E as a word. -/
def fLit (l : Nat) : Word := BitVec.ofNat 64 l

/-- Scope by index TM, CL, IS, DV, SY. -/
def scopeOf : Nat → Scope
  | 0 => .tm
  | 1 => .cl
  | 2 => .is
  | 3 => .dv
  | _ => .sy

/-- Ordering-and-scope codes (Table 2-5). -/
def osOf (c : Nat) : Os :=
  if c = 0 then .rlx else if c < 6 then .acq (scopeOf (c - 1)) else if c < 11 then .rel (scopeOf (c - 6))
  else .ar (scopeOf (c - 11))

/-- Rounding codes 0 to 6 (Table 3-11). -/
def rmOf : Nat → Rm
  | 0 => .rne
  | 1 => .rmm
  | 2 => .rup
  | 3 => .rdn
  | 4 => .rtz
  | 5 => .rsr
  | _ => .dyn

/-- Precisions (R136). -/
def precOf : Nat → Prec
  | 0 => .d
  | 1 => .s
  | 2 => .h
  | _ => .b

/-- Lane types 0 to 6 (R45). -/
def tyOf : Nat → Ty
  | 0 => .i8
  | 1 => .i16
  | 2 => .i32
  | 3 => .i64
  | 4 => .bf16
  | 5 => .fp16
  | _ => .fp32

/-- Element sizes (R266). -/
def esizeOf : Nat → ESize
  | 0 => .b1
  | 1 => .b2
  | 2 => .b4
  | _ => .b8

/-- FCVT codes (R141). -/
def numOf : Nat → NumCode
  | 0 => .d
  | 1 => .s
  | 2 => .h
  | 3 => .b
  | 4 => .w
  | 5 => .wu
  | 6 => .l
  | _ => .lu

/-- Paths 0 to 5 (R48). -/
def pathOf : Nat → Path
  | 0 => .ls
  | 1 => .mx
  | 2 => .ce
  | 3 => .co
  | 4 => .ni
  | _ => .sl

/-- Fence kinds (Table 2-8). -/
def kindOf : Nat → FenceKind
  | 0 => .acq
  | 1 => .rel
  | 2 => .ar
  | _ => .sc

/-- Reductions 0 to 5 (Table 11-9). -/
def collOpOf : Nat → CollOp
  | 0 => .sum
  | 1 => .max
  | 2 => .min
  | 3 => .and
  | 4 => .or
  | _ => .xor

/-- Collective formats 0 to 7 (Table 11-9). -/
def collFmtOf : Nat → CollFmt
  | 0 => .int32
  | 1 => .int64
  | 2 => .uint32
  | 3 => .uint64
  | 4 => .fp32
  | 5 => .fp64
  | 6 => .bf16
  | _ => .fp16

/-- Members that accept LEN 00 alone: EVAL 4 for a literal, 5 for the extended lengths (R38, R50). -/
def only00 (w : Nat) (k : Decoded) : Decoded :=
  chk (w % 4 ≥ 2) 5 (chk (w % 4 = 1) 4 k)

/-! ## The groups (R52, Table 2-7) -/

/-- ALU-REG members with rs2. -/
def decAluReg0 (w : Nat) : Decoded :=
  match fFn w with
  | 0 => .instr (.add (fRd w) (fRs1 w) (fRs2 w))
  | 1 => .instr (.sub (fRd w) (fRs1 w) (fRs2 w))
  | 2 => .instr (.and (fRd w) (fRs1 w) (fRs2 w))
  | 3 => .instr (.or (fRd w) (fRs1 w) (fRs2 w))
  | 4 => .instr (.xor (fRd w) (fRs1 w) (fRs2 w))
  | 5 => .instr (.andn (fRd w) (fRs1 w) (fRs2 w))
  | 6 => .instr (.orn (fRd w) (fRs1 w) (fRs2 w))
  | 7 => .instr (.xnor (fRd w) (fRs1 w) (fRs2 w))
  | 8 => .instr (.sll (fRd w) (fRs1 w) (fRs2 w))
  | 9 => .instr (.srl (fRd w) (fRs1 w) (fRs2 w))
  | 10 => .instr (.sra (fRd w) (fRs1 w) (fRs2 w))
  | 11 => .instr (.rol (fRd w) (fRs1 w) (fRs2 w))
  | 12 => .instr (.ror (fRd w) (fRs1 w) (fRs2 w))
  | 13 => .instr (.slt (fRd w) (fRs1 w) (fRs2 w))
  | 14 => .instr (.sltu (fRd w) (fRs1 w) (fRs2 w))
  | 15 => .instr (.min (fRd w) (fRs1 w) (fRs2 w))
  | 16 => .instr (.max (fRd w) (fRs1 w) (fRs2 w))
  | 17 => .instr (.minu (fRd w) (fRs1 w) (fRs2 w))
  | 18 => .instr (.maxu (fRd w) (fRs1 w) (fRs2 w))
  | 19 => .instr (.addw (fRd w) (fRs1 w) (fRs2 w))
  | 20 => .instr (.subw (fRd w) (fRs1 w) (fRs2 w))
  | _ => .illegal 0

/-- ALU-REG members with the literal. -/
def decAluReg1 (w x1 : Nat) : Decoded :=
  match fFn w with
  | 0 => .instr (.addLit (fRd w) (fRs1 w) (fLit x1))
  | 1 => .instr (.subLit (fRd w) (fRs1 w) (fLit x1))
  | 2 => .instr (.andLit (fRd w) (fRs1 w) (fLit x1))
  | 3 => .instr (.orLit (fRd w) (fRs1 w) (fLit x1))
  | 4 => .instr (.xorLit (fRd w) (fRs1 w) (fLit x1))
  | 5 => .instr (.andnLit (fRd w) (fRs1 w) (fLit x1))
  | 6 => .instr (.ornLit (fRd w) (fRs1 w) (fLit x1))
  | 7 => .instr (.xnorLit (fRd w) (fRs1 w) (fLit x1))
  | 8 => .instr (.sllLit (fRd w) (fRs1 w) (fLit x1))
  | 9 => .instr (.srlLit (fRd w) (fRs1 w) (fLit x1))
  | 10 => .instr (.sraLit (fRd w) (fRs1 w) (fLit x1))
  | 11 => .instr (.rolLit (fRd w) (fRs1 w) (fLit x1))
  | 12 => .instr (.rorLit (fRd w) (fRs1 w) (fLit x1))
  | 13 => .instr (.sltLit (fRd w) (fRs1 w) (fLit x1))
  | 14 => .instr (.sltuLit (fRd w) (fRs1 w) (fLit x1))
  | 15 => .instr (.minLit (fRd w) (fRs1 w) (fLit x1))
  | 16 => .instr (.maxLit (fRd w) (fRs1 w) (fLit x1))
  | 17 => .instr (.minuLit (fRd w) (fRs1 w) (fLit x1))
  | 18 => .instr (.maxuLit (fRd w) (fRs1 w) (fLit x1))
  | 19 => .instr (.addwLit (fRd w) (fRs1 w) (fLit x1))
  | 20 => .instr (.subwLit (fRd w) (fRs1 w) (fLit x1))
  | _ => .illegal 0

/-- MAJ 0x01, ALU-REG (R97, R98). -/
def decAluReg (w x1 : Nat) : Decoded :=
  chk (w % 4 ≥ 2) 5 <|
  chk (fOpt w ≠ 0) 0 <|
  if w % 4 = 0 then decAluReg0 w else chk (fRs2 w ≠ 0) 0 (decAluReg1 w x1)

/-- ALU-IMM members with imm10 (R99, R100). -/
def decAluImm0 (w : Nat) : Decoded :=
  match bits w 28 4 with
  | 0 => .instr (.addi (fRd w) (fRs1 w) (fImm w))
  | 1 => .instr (.andi (fRd w) (fRs1 w) (fImm w))
  | 2 => .instr (.ori (fRd w) (fRs1 w) (fImm w))
  | 3 => .instr (.xori (fRd w) (fRs1 w) (fImm w))
  | 4 => chk (bits w 24 4 ≠ 0) 0 (.instr (.slli (fRd w) (fRs1 w) (BitVec.ofNat 6 (w / 2 ^ 18))))
  | 5 => chk (bits w 24 4 ≠ 0) 0 (.instr (.srli (fRd w) (fRs1 w) (BitVec.ofNat 6 (w / 2 ^ 18))))
  | 6 => chk (bits w 24 4 ≠ 0) 0 (.instr (.srai (fRd w) (fRs1 w) (BitVec.ofNat 6 (w / 2 ^ 18))))
  | 7 => .instr (.slti (fRd w) (fRs1 w) (fImm w))
  | 8 => .instr (.sltiu (fRd w) (fRs1 w) (fImm w))
  | 9 => .instr (.addwi (fRd w) (fRs1 w) (fImm w))
  | _ => .illegal 0

/-- ALU-IMM members with the literal; the shifts take none (R100). -/
def decAluImm1 (w x1 : Nat) : Decoded :=
  match bits w 28 4 with
  | 0 => chk (fImm w ≠ 0) 0 (.instr (.addiLit (fRd w) (fRs1 w) (fLit x1)))
  | 1 => chk (fImm w ≠ 0) 0 (.instr (.andiLit (fRd w) (fRs1 w) (fLit x1)))
  | 2 => chk (fImm w ≠ 0) 0 (.instr (.oriLit (fRd w) (fRs1 w) (fLit x1)))
  | 3 => chk (fImm w ≠ 0) 0 (.instr (.xoriLit (fRd w) (fRs1 w) (fLit x1)))
  | 4 => .illegal 4
  | 5 => .illegal 4
  | 6 => .illegal 4
  | 7 => chk (fImm w ≠ 0) 0 (.instr (.sltiLit (fRd w) (fRs1 w) (fLit x1)))
  | 8 => chk (fImm w ≠ 0) 0 (.instr (.sltiuLit (fRd w) (fRs1 w) (fLit x1)))
  | 9 => chk (fImm w ≠ 0) 0 (.instr (.addwiLit (fRd w) (fRs1 w) (fLit x1)))
  | _ => .illegal 0

/-- MAJ 0x02, ALU-IMM (R99, R100). -/
def decAluImm (w x1 : Nat) : Decoded :=
  chk (w % 4 ≥ 2) 5 (if w % 4 = 0 then decAluImm0 w else decAluImm1 w x1)

/-- MAJ 0x03, ALU-KON (R101, R102). -/
def decKon (w : Nat) : Decoded :=
  only00 w <|
  match bits w 26 6 with
  | 0 => chk (fRs1 w ≠ 0) 0 (.instr (.ldk (fRd w) (BitVec.ofNat 8 (w / 2 ^ 18))))
  | 1 => .instr (.addk (fRd w) (fRs1 w) (BitVec.ofNat 8 (w / 2 ^ 18)))
  | _ => .illegal 0

/-- MAJ 0x04, MUL/DIV (R104). -/
def decMul (w : Nat) : Decoded :=
  only00 w <| chk (fOpt w ≠ 0) 0 <|
  match fFn w with
  | 0 => .instr (.mul (fRd w) (fRs1 w) (fRs2 w))
  | 1 => .instr (.mulh (fRd w) (fRs1 w) (fRs2 w))
  | 2 => .instr (.mulhu (fRd w) (fRs1 w) (fRs2 w))
  | 3 => .instr (.mulhmx (fRd w) (fRs1 w) (fRs2 w))
  | 4 => .instr (.div (fRd w) (fRs1 w) (fRs2 w))
  | 5 => .instr (.divu (fRd w) (fRs1 w) (fRs2 w))
  | 6 => .instr (.rem (fRd w) (fRs1 w) (fRs2 w))
  | 7 => .instr (.remu (fRd w) (fRs1 w) (fRs2 w))
  | _ => .illegal 0

/-- BIT members with LEN 00 (R106, R107). -/
def decBit0 (w : Nat) : Decoded :=
  match fFn w with
  | 0 => chk (fRs2 w ≠ 0) 0 (.instr (.clz (fRd w) (fRs1 w)))
  | 1 => chk (fRs2 w ≠ 0) 0 (.instr (.ctz (fRd w) (fRs1 w)))
  | 2 => chk (fRs2 w ≠ 0) 0 (.instr (.popc (fRd w) (fRs1 w)))
  | 3 => chk (fRs2 w ≠ 0) 0 (.instr (.brev (fRd w) (fRs1 w)))
  | 4 => chk (fRs2 w ≠ 0) 0 (.instr (.bswap (fRd w) (fRs1 w)))
  | 5 => chk (fRs2 w ≠ 0) 0 (.instr (.sextb (fRd w) (fRs1 w)))
  | 6 => chk (fRs2 w ≠ 0) 0 (.instr (.sexth (fRd w) (fRs1 w)))
  | 7 => chk (fRs2 w ≠ 0) 0 (.instr (.zexth (fRd w) (fRs1 w)))
  | 8 => chk (fRs2 w ≠ 0) 0 (.instr (.zextw (fRd w) (fRs1 w)))
  | 9 => .instr (.bext (fRd w) (fRs1 w) (fRs2 w))
  | 10 => .instr (.bdep (fRd w) (fRs1 w) (fRs2 w))
  | _ => .illegal 0

/-- BIT members with the literal: members 0 to 8 take none (R107). -/
def decBit1 (w x1 : Nat) : Decoded :=
  match fFn w with
  | 9 => chk (fRs2 w ≠ 0) 0 (.instr (.bextLit (fRd w) (fRs1 w) (fLit x1)))
  | 10 => chk (fRs2 w ≠ 0) 0 (.instr (.bdepLit (fRd w) (fRs1 w) (fLit x1)))
  | k => .illegal (if k ≤ 8 then 4 else 0)

/-- MAJ 0x05, BIT (R106, R107). The literal check precedes OPT (R505). -/
def decBit (w x1 : Nat) : Decoded :=
  chk (w % 4 ≥ 2) 5 <|
  if w % 4 = 0 then chk (fOpt w ≠ 0) 0 (decBit0 w)
  else chk (fOpt w ≠ 0 && decide (fFn w > 8)) 0 (decBit1 w x1)

/-- MAJ 0x06, LI/PCADD (R108). -/
def decLi (w x1 : Nat) : Decoded :=
  chk (w % 4 ≥ 2) 5 <| chk (fRs1 w ≠ 0) 0 <|
  if w % 4 = 0 then
  match bits w 28 4 with
  | 0 => .instr (.li (fRd w) (fImm w))
  | 1 => .instr (.pcadd (fRd w) (fImm w))
  | _ => .illegal 0
  else chk (fImm w ≠ 0) 0 <|
  match bits w 28 4 with
  | 0 => .instr (.liLit (fRd w) (fLit x1))
  | 1 => .instr (.pcaddLit (fRd w) (fLit x1))
  | _ => .illegal 0

/-- MAJ 0x07, SEL/compare (R110, R111). -/
def decSel (w x1 : Nat) : Decoded :=
  chk (w % 4 ≥ 2) 5 <|
  if w % 4 = 0 then chk (fOpt w ≠ 0) 0 <|
  match fFn w with
  | 0 => .instr (.sel (fRd w) (fRs1 w) (fRs2 w))
  | 1 => .instr (.seq (fRd w) (fRs1 w) (fRs2 w))
  | 2 => .instr (.sne (fRd w) (fRs1 w) (fRs2 w))
  | _ => .illegal 0
  else
  match fFn w with
  | 0 => .illegal 4
  | 1 => chk (fOpt w ≠ 0 || fRs2 w ≠ 0) 0 (.instr (.seqLit (fRd w) (fRs1 w) (fLit x1)))
  | 2 => chk (fOpt w ≠ 0 || fRs2 w ≠ 0) 0 (.instr (.sneLit (fRd w) (fRs1 w) (fLit x1)))
  | _ => .illegal 0

/-- MAJ 0x08, BR (R112, R113): rs1 at [12:8], rs2 at [17:13]. -/
def decBr (w x1 : Nat) : Decoded :=
  chk (w % 2 = 1) 4 <|
  if w % 4 = 0 then
  match bits w 18 3 with
  | 0 => .instr (.beq (fRd w) (fRs1 w) (BitVec.ofNat 11 (w / 2 ^ 21)))
  | 1 => .instr (.bne (fRd w) (fRs1 w) (BitVec.ofNat 11 (w / 2 ^ 21)))
  | 2 => .instr (.blt (fRd w) (fRs1 w) (BitVec.ofNat 11 (w / 2 ^ 21)))
  | 3 => .instr (.bge (fRd w) (fRs1 w) (BitVec.ofNat 11 (w / 2 ^ 21)))
  | 4 => .instr (.bltu (fRd w) (fRs1 w) (BitVec.ofNat 11 (w / 2 ^ 21)))
  | 5 => .instr (.bgeu (fRd w) (fRs1 w) (BitVec.ofNat 11 (w / 2 ^ 21)))
  | _ => .illegal 0
  else chk (bits w 21 11 ≠ 0 || x1 % 4 ≠ 0 || x1 / 2 ^ 47 ≠ 0) 0 <|
  match bits w 18 3 with
  | 0 => .instr (.beqExt (fRd w) (fRs1 w) (fOff47 x1))
  | 1 => .instr (.bneExt (fRd w) (fRs1 w) (fOff47 x1))
  | 2 => .instr (.bltExt (fRd w) (fRs1 w) (fOff47 x1))
  | 3 => .instr (.bgeExt (fRd w) (fRs1 w) (fOff47 x1))
  | 4 => .instr (.bltuExt (fRd w) (fRs1 w) (fOff47 x1))
  | 5 => .instr (.bgeuExt (fRd w) (fRs1 w) (fOff47 x1))
  | _ => .illegal 0

/-- MAJ 0x09, JAL (R114). -/
def decJal (w x1 : Nat) : Decoded :=
  chk (w % 2 = 1) 4 <|
  if w % 4 = 0 then .instr (.jal (fRd w) (BitVec.ofNat 19 (w / 2 ^ 13)))
  else chk (bits w 13 19 ≠ 0 || x1 % 4 ≠ 0 || x1 / 2 ^ 47 ≠ 0) 0 (.instr (.jalExt (fRd w) (fOff47 x1)))

/-- MAJ 0x0A, JALR (R115). -/
def decJalr (w : Nat) : Decoded :=
  only00 w (chk (bits w 28 4 ≠ 0) 0 (.instr (.jalr (fRd w) (fRs1 w) (fImm w))))

/-- LOAD, address form 0 (R263). -/
def decLoad0 (w : Nat) : Decoded :=
  match bits w 24 3 with
  | 0 => chk (decide (fOs w > 5)) 0 (.instr (.lb (fRd w) (fRs1 w) (fOff5 w) (osOf (fOs w))))
  | 1 => chk (decide (fOs w > 5)) 0 (.instr (.lbu (fRd w) (fRs1 w) (fOff5 w) (osOf (fOs w))))
  | 2 => chk (decide (fOs w > 5)) 0 (.instr (.lh (fRd w) (fRs1 w) (fOff5 w) (osOf (fOs w))))
  | 3 => chk (decide (fOs w > 5)) 0 (.instr (.lhu (fRd w) (fRs1 w) (fOff5 w) (osOf (fOs w))))
  | 4 => chk (decide (fOs w > 5)) 0 (.instr (.lw (fRd w) (fRs1 w) (fOff5 w) (osOf (fOs w))))
  | 5 => chk (decide (fOs w > 5)) 0 (.instr (.lwu (fRd w) (fRs1 w) (fOff5 w) (osOf (fOs w))))
  | 6 => chk (decide (fOs w > 5)) 0 (.instr (.ld (fRd w) (fRs1 w) (fOff5 w) (osOf (fOs w))))
  | _ => .illegal 0

/-- LOAD, address form 1 (R263). -/
def decLoad1 (w x1 : Nat) : Decoded :=
  match bits w 24 3 with
  | 0 => chk (decide (fOs w > 5)) 0 (.instr (.lbLit (fRd w) (fRs1 w) (fLit x1) (osOf (fOs w))))
  | 1 => chk (decide (fOs w > 5)) 0 (.instr (.lbuLit (fRd w) (fRs1 w) (fLit x1) (osOf (fOs w))))
  | 2 => chk (decide (fOs w > 5)) 0 (.instr (.lhLit (fRd w) (fRs1 w) (fLit x1) (osOf (fOs w))))
  | 3 => chk (decide (fOs w > 5)) 0 (.instr (.lhuLit (fRd w) (fRs1 w) (fLit x1) (osOf (fOs w))))
  | 4 => chk (decide (fOs w > 5)) 0 (.instr (.lwLit (fRd w) (fRs1 w) (fLit x1) (osOf (fOs w))))
  | 5 => chk (decide (fOs w > 5)) 0 (.instr (.lwuLit (fRd w) (fRs1 w) (fLit x1) (osOf (fOs w))))
  | 6 => chk (decide (fOs w > 5)) 0 (.instr (.ldLit (fRd w) (fRs1 w) (fLit x1) (osOf (fOs w))))
  | _ => .illegal 0

/-- LOAD, address form 2 (R263). -/
def decLoad2 (w x1 : Nat) : Decoded :=
  match bits w 24 3 with
  | 0 => chk (decide (fOs w > 5)) 0 (.instr (.lbExt (fRd w) (fRs1 w) (fOff47 x1) (osOf (fOs w))))
  | 1 => chk (decide (fOs w > 5)) 0 (.instr (.lbuExt (fRd w) (fRs1 w) (fOff47 x1) (osOf (fOs w))))
  | 2 => chk (decide (fOs w > 5)) 0 (.instr (.lhExt (fRd w) (fRs1 w) (fOff47 x1) (osOf (fOs w))))
  | 3 => chk (decide (fOs w > 5)) 0 (.instr (.lhuExt (fRd w) (fRs1 w) (fOff47 x1) (osOf (fOs w))))
  | 4 => chk (decide (fOs w > 5)) 0 (.instr (.lwExt (fRd w) (fRs1 w) (fOff47 x1) (osOf (fOs w))))
  | 5 => chk (decide (fOs w > 5)) 0 (.instr (.lwuExt (fRd w) (fRs1 w) (fOff47 x1) (osOf (fOs w))))
  | 6 => chk (decide (fOs w > 5)) 0 (.instr (.ldExt (fRd w) (fRs1 w) (fOff47 x1) (osOf (fOs w))))
  | _ => .illegal 0

/-- MAJ 0x0C, LOAD (R263, R264). -/
def decLoad (w x1 : Nat) : Decoded :=
  chk (w % 4 = 3) 4 <| chk (bits w 27 2 ≠ 0) 0 <|
  if w % 4 = 0 then decLoad0 w
  else chk (fRs2 w ≠ 0) 0 <|
    if w % 4 = 1 then decLoad1 w x1 else chk (x1 / 2 ^ 47 ≠ 0) 0 (decLoad2 w x1)

/-- STORE, address form 0 (R263). -/
def decStore0 (w : Nat) : Decoded :=
  match bits w 24 3 with
  | 0 => chk (fOs w ≠ 0 && !(decide (6 ≤ fOs w) && decide (fOs w ≤ 10))) 0 (.instr (.sb (fRd w) (fRs1 w) (fOff5 w) (osOf (fOs w))))
  | 2 => chk (fOs w ≠ 0 && !(decide (6 ≤ fOs w) && decide (fOs w ≤ 10))) 0 (.instr (.sh (fRd w) (fRs1 w) (fOff5 w) (osOf (fOs w))))
  | 4 => chk (fOs w ≠ 0 && !(decide (6 ≤ fOs w) && decide (fOs w ≤ 10))) 0 (.instr (.sw (fRd w) (fRs1 w) (fOff5 w) (osOf (fOs w))))
  | 6 => chk (fOs w ≠ 0 && !(decide (6 ≤ fOs w) && decide (fOs w ≤ 10))) 0 (.instr (.sd (fRd w) (fRs1 w) (fOff5 w) (osOf (fOs w))))
  | 7 => chk (fOs w ≠ 0) 0 (.instr (.pstore (fRd w) (fRs1 w) (fOff5 w)))
  | _ => .illegal 0

/-- STORE, address form 1 (R263). -/
def decStore1 (w x1 : Nat) : Decoded :=
  match bits w 24 3 with
  | 0 => chk (fOs w ≠ 0 && !(decide (6 ≤ fOs w) && decide (fOs w ≤ 10))) 0 (.instr (.sbLit (fRd w) (fRs1 w) (fLit x1) (osOf (fOs w))))
  | 2 => chk (fOs w ≠ 0 && !(decide (6 ≤ fOs w) && decide (fOs w ≤ 10))) 0 (.instr (.shLit (fRd w) (fRs1 w) (fLit x1) (osOf (fOs w))))
  | 4 => chk (fOs w ≠ 0 && !(decide (6 ≤ fOs w) && decide (fOs w ≤ 10))) 0 (.instr (.swLit (fRd w) (fRs1 w) (fLit x1) (osOf (fOs w))))
  | 6 => chk (fOs w ≠ 0 && !(decide (6 ≤ fOs w) && decide (fOs w ≤ 10))) 0 (.instr (.sdLit (fRd w) (fRs1 w) (fLit x1) (osOf (fOs w))))
  | 7 => chk (fOs w ≠ 0) 0 (.instr (.pstoreLit (fRd w) (fRs1 w) (fLit x1)))
  | _ => .illegal 0

/-- STORE, address form 2 (R263). -/
def decStore2 (w x1 : Nat) : Decoded :=
  match bits w 24 3 with
  | 0 => chk (fOs w ≠ 0 && !(decide (6 ≤ fOs w) && decide (fOs w ≤ 10))) 0 (.instr (.sbExt (fRd w) (fRs1 w) (fOff47 x1) (osOf (fOs w))))
  | 2 => chk (fOs w ≠ 0 && !(decide (6 ≤ fOs w) && decide (fOs w ≤ 10))) 0 (.instr (.shExt (fRd w) (fRs1 w) (fOff47 x1) (osOf (fOs w))))
  | 4 => chk (fOs w ≠ 0 && !(decide (6 ≤ fOs w) && decide (fOs w ≤ 10))) 0 (.instr (.swExt (fRd w) (fRs1 w) (fOff47 x1) (osOf (fOs w))))
  | 6 => chk (fOs w ≠ 0 && !(decide (6 ≤ fOs w) && decide (fOs w ≤ 10))) 0 (.instr (.sdExt (fRd w) (fRs1 w) (fOff47 x1) (osOf (fOs w))))
  | 7 => chk (fOs w ≠ 0) 0 (.instr (.pstoreExt (fRd w) (fRs1 w) (fOff47 x1)))
  | _ => .illegal 0

/-- MAJ 0x0D, STORE (R263, R264). -/
def decStore (w x1 : Nat) : Decoded :=
  chk (w % 4 = 3) 4 <| chk (bits w 27 2 ≠ 0) 0 <|
  if w % 4 = 0 then decStore0 w
  else chk (fRs2 w ≠ 0) 0 <|
    if w % 4 = 1 then decStore1 w x1 else chk (x1 / 2 ^ 47 ≠ 0) 0 (decStore2 w x1)

/-- MAJ 0x0E, ATOMIC (R269). -/
def decAtomic (w : Nat) : Decoded :=
  only00 w <|
  match bits w 25 4 with
  | 0 => .instr (.amoadd (fRd w) (fRs1 w) (fRs2 w) (bit w 24) (osOf (fOs w)))
  | 1 => .instr (.amoand (fRd w) (fRs1 w) (fRs2 w) (bit w 24) (osOf (fOs w)))
  | 2 => .instr (.amoor (fRd w) (fRs1 w) (fRs2 w) (bit w 24) (osOf (fOs w)))
  | 3 => .instr (.amoxor (fRd w) (fRs1 w) (fRs2 w) (bit w 24) (osOf (fOs w)))
  | 4 => .instr (.amomin (fRd w) (fRs1 w) (fRs2 w) (bit w 24) (osOf (fOs w)))
  | 5 => .instr (.amomax (fRd w) (fRs1 w) (fRs2 w) (bit w 24) (osOf (fOs w)))
  | 6 => .instr (.amominu (fRd w) (fRs1 w) (fRs2 w) (bit w 24) (osOf (fOs w)))
  | 7 => .instr (.amomaxu (fRd w) (fRs1 w) (fRs2 w) (bit w 24) (osOf (fOs w)))
  | 8 => .instr (.amoswap (fRd w) (fRs1 w) (fRs2 w) (bit w 24) (osOf (fOs w)))
  | 9 => .instr (.amocas (fRd w) (fRs1 w) (fRs2 w) (bit w 24) (osOf (fOs w)))
  | 10 => .instr (.amofadd (fRd w) (fRs1 w) (fRs2 w) (bit w 24) (osOf (fOs w)))
  | 11 => chk (!bit w 24) 0 (.instr (.abump (fRd w) (fRs1 w) (fRs2 w) (osOf (fOs w))))
  | _ => .illegal 0

/-- Scope codes 0, 6 and 7 are refused (R48). -/
def badScope (w : Nat) : Bool := bits w 10 3 == 0 || decide (bits w 10 3 > 5)

/-- MAJ 0x0F, FENCE (R54, R272, Table 2-8). -/
def decFence (w : Nat) : Decoded :=
  only00 w <| chk (fOpt w ≠ 0) 0 <|
  match fFn w with
  | 0 => chk (bits w 13 10 ≠ 0 || badScope w) 0 (.instr (.fence (scopeOf (bits w 10 3 - 1)) (kindOf (bits w 8 2))))
  | 1 => chk (bits w 16 2 ≠ 0 || bits w 21 2 ≠ 0 || badScope w || decide (bits w 13 3 > 5) || decide (bits w 18 3 > 5)
      || bits w 13 3 == bits w 18 3) 0
      (.instr (.fencex (scopeOf (bits w 10 3 - 1)) (kindOf (bits w 8 2)) (pathOf (bits w 13 3)) (pathOf (bits w 18 3))))
  | 2 => chk (bits w 8 15 ≠ 0) 0 (.instr .ifence)
  | _ => .illegal 0

/-- MAJ 0x10, FP scalar (R136, R139). -/
def decFp (w : Nat) : Decoded :=
  only00 w <|
  match bits w 25 4 with
  | 0 => chk (fOpt w = 7) 0 (.instr (.fadd (precOf (bits w 23 2)) (rmOf (fOpt w)) (fRd w) (fRs1 w) (fRs2 w)))
  | 1 => chk (fOpt w = 7) 0 (.instr (.fsub (precOf (bits w 23 2)) (rmOf (fOpt w)) (fRd w) (fRs1 w) (fRs2 w)))
  | 2 => chk (fOpt w = 7) 0 (.instr (.fmul (precOf (bits w 23 2)) (rmOf (fOpt w)) (fRd w) (fRs1 w) (fRs2 w)))
  | 3 => chk (fOpt w = 7) 0 (.instr (.fdiv (precOf (bits w 23 2)) (rmOf (fOpt w)) (fRd w) (fRs1 w) (fRs2 w)))
  | 4 => chk (fOpt w = 7 || fRs2 w ≠ 0) 0 (.instr (.fsqrt (precOf (bits w 23 2)) (rmOf (fOpt w)) (fRd w) (fRs1 w)))
  | 5 => chk (fOpt w ≠ 0) 0 (.instr (.fmin (precOf (bits w 23 2)) (fRd w) (fRs1 w) (fRs2 w)))
  | 6 => chk (fOpt w ≠ 0) 0 (.instr (.fmax (precOf (bits w 23 2)) (fRd w) (fRs1 w) (fRs2 w)))
  | 7 => chk (fOpt w ≠ 0) 0 (.instr (.feq (precOf (bits w 23 2)) (fRd w) (fRs1 w) (fRs2 w)))
  | 8 => chk (fOpt w ≠ 0) 0 (.instr (.flt (precOf (bits w 23 2)) (fRd w) (fRs1 w) (fRs2 w)))
  | 9 => chk (fOpt w ≠ 0) 0 (.instr (.fle (precOf (bits w 23 2)) (fRd w) (fRs1 w) (fRs2 w)))
  | 10 => chk (fOpt w ≠ 0 || fRs2 w ≠ 0) 0 (.instr (.fclass (precOf (bits w 23 2)) (fRd w) (fRs1 w)))
  | 11 => chk (fOpt w ≠ 0) 0 (.instr (.fsgnj (precOf (bits w 23 2)) (fRd w) (fRs1 w) (fRs2 w)))
  | 12 => chk (fOpt w ≠ 0 || fRs2 w ≠ 0) 0 (.instr (.fabs (precOf (bits w 23 2)) (fRd w) (fRs1 w)))
  | _ => .illegal 0

/-- MAJ 0x11, FP FMA (R138): the addend is rd, or rs3 in E. -/
def decFma (w x1 : Nat) : Decoded :=
  chk (w % 2 = 1) 4 <| chk (bits w 26 3 ≠ 0 || fOpt w = 7) 0 <|
  if w % 4 = 0 then
    (if bit w 25 then .instr (.fmsc (precOf (bits w 23 2)) (rmOf (fOpt w)) (fRd w) (fRs1 w) (fRs2 w)) else .instr (.fmac (precOf (bits w 23 2)) (rmOf (fOpt w)) (fRd w) (fRs1 w) (fRs2 w)))
  else chk (x1 / 2 ^ 5 ≠ 0) 0 <|
    (if bit w 25 then .instr (.fmscExt (precOf (bits w 23 2)) (rmOf (fOpt w)) (fRd w) (fRs1 w) (fRs2 w) (Fin.ofNat 32 x1))
     else .instr (.fmacExt (precOf (bits w 23 2)) (rmOf (fOpt w)) (fRd w) (fRs1 w) (fRs2 w) (Fin.ofNat 32 x1)))

/-- MAJ 0x12, FP convert (R141). -/
def decCvt (w : Nat) : Decoded :=
  only00 w <|
  chk (fOpt w = 7 || fRs2 w ≠ 0 || bits w 23 3 == bits w 26 3 || (decide (bits w 23 3 ≥ 4) && decide (bits w 26 3 ≥ 4))) 0
    (.instr (.fcvt (numOf (bits w 23 3)) (numOf (bits w 26 3)) (rmOf (fOpt w)) (fRd w) (fRs1 w)))

/-- MAJ 0x14, VEC int (R142). -/
def decVecInt (w : Nat) : Decoded :=
  only00 w <| chk (decide (bits w 23 3 > 3)) 0 <|
  match bits w 26 6 with
  | 0 => .instr (.vadd (tyOf (bits w 23 3)) (fVd w) (fVs1 w) (fVs2 w) (fVm w))
  | 1 => .instr (.vsub (tyOf (bits w 23 3)) (fVd w) (fVs1 w) (fVs2 w) (fVm w))
  | 2 => .instr (.vmul (tyOf (bits w 23 3)) (fVd w) (fVs1 w) (fVs2 w) (fVm w))
  | 3 => .instr (.vmulh (tyOf (bits w 23 3)) (fVd w) (fVs1 w) (fVs2 w) (fVm w))
  | 4 => .instr (.vadds (tyOf (bits w 23 3)) (fVd w) (fVs1 w) (fVs2 w) (fVm w))
  | 5 => .instr (.vsubs (tyOf (bits w 23 3)) (fVd w) (fVs1 w) (fVs2 w) (fVm w))
  | 6 => chk (fVs2 w ≠ 0) 0 (.instr (.vabs (tyOf (bits w 23 3)) (fVd w) (fVs1 w) (fVm w)))
  | 7 => .instr (.vmin (tyOf (bits w 23 3)) (fVd w) (fVs1 w) (fVs2 w) (fVm w))
  | 8 => .instr (.vmax (tyOf (bits w 23 3)) (fVd w) (fVs1 w) (fVs2 w) (fVm w))
  | 9 => .instr (.vand (tyOf (bits w 23 3)) (fVd w) (fVs1 w) (fVs2 w) (fVm w))
  | 10 => .instr (.vor (tyOf (bits w 23 3)) (fVd w) (fVs1 w) (fVs2 w) (fVm w))
  | 11 => .instr (.vxor (tyOf (bits w 23 3)) (fVd w) (fVs1 w) (fVs2 w) (fVm w))
  | 12 => .instr (.vsll (tyOf (bits w 23 3)) (fVd w) (fVs1 w) (fVs2 w) (fVm w))
  | 13 => .instr (.vsrl (tyOf (bits w 23 3)) (fVd w) (fVs1 w) (fVs2 w) (fVm w))
  | 14 => .instr (.vsra (tyOf (bits w 23 3)) (fVd w) (fVs1 w) (fVs2 w) (fVm w))
  | _ => .illegal 0

/-- MAJ 0x15, VEC float (R143). -/
def decVecFloat (w : Nat) : Decoded :=
  only00 w <| chk (decide (bits w 23 3 < 4) || bits w 23 3 == 7) 0 <|
  match bits w 26 6 with
  | 0 => .instr (.vfadd (tyOf (bits w 23 3)) (fVd w) (fVs1 w) (fVs2 w) (fVm w))
  | 1 => .instr (.vfsub (tyOf (bits w 23 3)) (fVd w) (fVs1 w) (fVs2 w) (fVm w))
  | 2 => .instr (.vfmul (tyOf (bits w 23 3)) (fVd w) (fVs1 w) (fVs2 w) (fVm w))
  | 3 => .instr (.vfdiv (tyOf (bits w 23 3)) (fVd w) (fVs1 w) (fVs2 w) (fVm w))
  | 4 => chk (fVs2 w ≠ 0) 0 (.instr (.vfsqrt (tyOf (bits w 23 3)) (fVd w) (fVs1 w) (fVm w)))
  | 5 => .instr (.vfmin (tyOf (bits w 23 3)) (fVd w) (fVs1 w) (fVs2 w) (fVm w))
  | 6 => .instr (.vfmax (tyOf (bits w 23 3)) (fVd w) (fVs1 w) (fVs2 w) (fVm w))
  | 7 => chk (fVs2 w ≠ 0 || bits w 23 3 == 5) 0 (.instr (.vfexp2 (tyOf (bits w 23 3)) (fVd w) (fVs1 w) (fVm w)))
  | 8 => chk (fVs2 w ≠ 0 || bits w 23 3 == 5) 0 (.instr (.vfrcp (tyOf (bits w 23 3)) (fVd w) (fVs1 w) (fVm w)))
  | 9 => chk (fVs2 w ≠ 0 || bits w 23 3 == 5) 0 (.instr (.vfrsqrt (tyOf (bits w 23 3)) (fVd w) (fVs1 w) (fVm w)))
  | _ => .illegal 0

/-- VEC memory members, address form 0 (R263, R266). -/
def decVecMem0 (w : Nat) : Decoded :=
  match bits w 23 3 with
  | 0 => chk (bit w 12) 6 (chk (fOpt w ≠ 0) 0 (.instr (.vload (fVd w) (fRs1 w) (fOff5 w) (Fin.ofNat 8 (w / 2 ^ 26)))))
  | 1 => chk (bit w 12) 6 (chk (fOpt w ≠ 0) 0 (.instr (.vstore (fVd w) (fRs1 w) (fOff5 w) (Fin.ofNat 8 (w / 2 ^ 26)))))
  | 2 => chk (bit w 12 || bit w 22) 6 (chk (decide (fOpt w > 3)) 0 (.instr (.vgather (esizeOf (fOpt w)) (fVd w) (fV2 w) (fRs1 w) (Fin.ofNat 8 (w / 2 ^ 26)))))
  | 3 => chk (bit w 12 || bit w 22) 6 (chk (decide (fOpt w > 3)) 0 (.instr (.vscatter (esizeOf (fOpt w)) (fVd w) (fV2 w) (fRs1 w) (Fin.ofNat 8 (w / 2 ^ 26)))))
  | 4 => chk (bit w 12) 6 (chk (decide (fOpt w > 3)) 0 (.instr (.vloadb (esizeOf (fOpt w)) (fVd w) (fRs1 w) (fOff5 w) (Fin.ofNat 8 (w / 2 ^ 26)))))
  | _ => .illegal 0

/-- VEC memory members, address form 1 (R263, R266). -/
def decVecMem1 (w x1 : Nat) : Decoded :=
  match bits w 23 3 with
  | 0 => chk (bit w 12) 6 (chk (fOpt w ≠ 0 || fRs2 w ≠ 0) 0 (.instr (.vloadLit (fVd w) (fRs1 w) (fLit x1) (Fin.ofNat 8 (w / 2 ^ 26)))))
  | 1 => chk (bit w 12) 6 (chk (fOpt w ≠ 0 || fRs2 w ≠ 0) 0 (.instr (.vstoreLit (fVd w) (fRs1 w) (fLit x1) (Fin.ofNat 8 (w / 2 ^ 26)))))
  | 2 => .illegal 4
  | 3 => .illegal 4
  | 4 => chk (bit w 12) 6 (chk (decide (fOpt w > 3) || fRs2 w ≠ 0) 0 (.instr (.vloadbLit (esizeOf (fOpt w)) (fVd w) (fRs1 w) (fLit x1) (Fin.ofNat 8 (w / 2 ^ 26)))))
  | _ => .illegal 0

/-- VEC memory members, address form 2 (R263, R266). -/
def decVecMem2 (w x1 : Nat) : Decoded :=
  match bits w 23 3 with
  | 0 => chk (bit w 12) 6 (chk (fOpt w ≠ 0 || fRs2 w ≠ 0 || x1 / 2 ^ 47 ≠ 0) 0 (.instr (.vloadExt (fVd w) (fRs1 w) (fOff47 x1) (Fin.ofNat 8 (w / 2 ^ 26)))))
  | 1 => chk (bit w 12) 6 (chk (fOpt w ≠ 0 || fRs2 w ≠ 0 || x1 / 2 ^ 47 ≠ 0) 0 (.instr (.vstoreExt (fVd w) (fRs1 w) (fOff47 x1) (Fin.ofNat 8 (w / 2 ^ 26)))))
  | 2 => .illegal 5
  | 3 => .illegal 5
  | 4 => chk (bit w 12) 6 (chk (decide (fOpt w > 3) || fRs2 w ≠ 0 || x1 / 2 ^ 47 ≠ 0) 0 (.instr (.vloadbExt (esizeOf (fOpt w)) (fVd w) (fRs1 w) (fOff47 x1) (Fin.ofNat 8 (w / 2 ^ 26)))))
  | _ => .illegal 0

/-- VEC memory members with LEN 11: refused (R38, R50). For an op that names no member the group's own lengths decide, and the group takes
no literal beside E: EVAL 4 (DEDUCED, log entry 98). -/
def decVecMem3 (w : Nat) : Decoded :=
  match bits w 23 3 with
  | 0 | 1 | 4 => .illegal 4
  | 2 | 3 => .illegal 5
  | _ => .illegal 4

/-- MAJ 0x16, VEC memory (R266). VGATHER and VSCATTER take LEN 00 alone. -/
def decVecMem (w x1 : Nat) : Decoded :=
  if w % 4 = 0 then decVecMem0 w else if w % 4 = 1 then decVecMem1 w x1
  else if w % 4 = 2 then decVecMem2 w x1 else decVecMem3 w

/-- MAJ 0x17, VEC permute/reduce (R146, R148, R150). -/
def decVecPerm (w : Nat) : Decoded :=
  only00 w <|
  match bits w 26 6 with
  | 0 => chk (bit w 11) 6 (chk (bits w 23 3 == 7) 0 (.instr (.vcmpEq (tyOf (bits w 23 3)) (fMd w) (fVs1 w) (fVs2 w) (fVm w))))
  | 1 => chk (bit w 11) 6 (chk (bits w 23 3 == 7) 0 (.instr (.vcmpNe (tyOf (bits w 23 3)) (fMd w) (fVs1 w) (fVs2 w) (fVm w))))
  | 2 => chk (bit w 11) 6 (chk (bits w 23 3 == 7) 0 (.instr (.vcmpLt (tyOf (bits w 23 3)) (fMd w) (fVs1 w) (fVs2 w) (fVm w))))
  | 3 => chk (bit w 11) 6 (chk (bits w 23 3 == 7) 0 (.instr (.vcmpLe (tyOf (bits w 23 3)) (fMd w) (fVs1 w) (fVs2 w) (fVm w))))
  | 4 => chk (bit w 11) 6 (chk (decide (bits w 23 3 > 3)) 0 (.instr (.vcmpLtu (tyOf (bits w 23 3)) (fMd w) (fVs1 w) (fVs2 w) (fVm w))))
  | 5 => chk (bit w 11) 6 (chk (decide (bits w 23 3 > 3)) 0 (.instr (.vcmpLeu (tyOf (bits w 23 3)) (fMd w) (fVs1 w) (fVs2 w) (fVm w))))
  | 6 => chk (bits w 23 3 == 7) 0 (.instr (.vsel (tyOf (bits w 23 3)) (fVd w) (fVs1 w) (fVs2 w) (fVm w)))
  | 7 => chk (bits w 23 3 == 7 || fVs2 w ≠ 0) 0 (.instr (.vbcast (tyOf (bits w 23 3)) (fVd w) (fVs1 w) (fVm w)))
  | 8 => chk (bits w 23 3 == 7 || fVm w ≠ 0) 0 (.instr (.vext (tyOf (bits w 23 3)) (fVd w) (fVs1 w) (fVs2 w)))
  | 9 => chk (bits w 23 3 == 7 || fVm w ≠ 0) 0 (.instr (.vins (tyOf (bits w 23 3)) (fVd w) (fVs1 w) (fVs2 w)))
  | 10 => chk (bits w 23 3 == 7) 0 (.instr (.vperm (tyOf (bits w 23 3)) (fVd w) (fVs1 w) (fVs2 w) (fVm w)))
  | 11 => chk (bits w 23 3 == 7) 0 (.instr (.vslide (tyOf (bits w 23 3)) (fVd w) (fVs1 w) (fVs2 w) (fVm w)))
  | 12 => chk (bits w 23 3 == 7 || fVs2 w ≠ 0) 0 (.instr (.vredsum (tyOf (bits w 23 3)) (fVd w) (fVs1 w) (fVm w)))
  | 13 => chk (bits w 23 3 == 7 || fVs2 w ≠ 0) 0 (.instr (.vredmax (tyOf (bits w 23 3)) (fVd w) (fVs1 w) (fVm w)))
  | 14 => chk (bits w 23 3 == 7 || fVs2 w ≠ 0) 0 (.instr (.vredmin (tyOf (bits w 23 3)) (fVd w) (fVs1 w) (fVm w)))
  | 15 => chk (bits w 23 3 == 7 || bit w 19 || bits w 16 3 == 7 || bits w 16 3 == bits w 23 3) 0
      (.instr (.vcvt (tyOf (bits w 23 3)) (tyOf (bits w 16 3)) (fVd w) (fVs1 w) (fVm w)))
  | 16 => chk (bits w 23 3 == 7 || fVs2 w ≠ 0) 0 (.instr (.vmov (tyOf (bits w 23 3)) (fVd w) (fVs1 w) (fVm w)))
  | _ => .illegal 0

/-- MAJ 0x18, MASK (R152). -/
def decMask (w : Nat) : Decoded :=
  only00 w <|
  match fFn w with
  | 0 => chk (decide (bits w 8 5 > 7) || decide (bits w 13 5 > 7) || decide (bits w 18 5 > 7)) 6 (chk (fOpt w ≠ 0) 0 (.instr (.mand (fMd w) (Fin.ofNat 8 (w / 2 ^ 13)) (Fin.ofNat 8 (w / 2 ^ 18)))))
  | 1 => chk (decide (bits w 8 5 > 7) || decide (bits w 13 5 > 7) || decide (bits w 18 5 > 7)) 6 (chk (fOpt w ≠ 0) 0 (.instr (.mor (fMd w) (Fin.ofNat 8 (w / 2 ^ 13)) (Fin.ofNat 8 (w / 2 ^ 18)))))
  | 2 => chk (decide (bits w 8 5 > 7) || decide (bits w 13 5 > 7) || decide (bits w 18 5 > 7)) 6 (chk (fOpt w ≠ 0) 0 (.instr (.mxor (fMd w) (Fin.ofNat 8 (w / 2 ^ 13)) (Fin.ofNat 8 (w / 2 ^ 18)))))
  | 3 => chk (decide (bits w 8 5 > 7) || decide (bits w 13 5 > 7)) 6 (chk (fOpt w ≠ 0 || fRs2 w ≠ 0) 0 (.instr (.mnot (fMd w) (Fin.ofNat 8 (w / 2 ^ 13)))))
  | 4 => chk (decide (bits w 13 5 > 7)) 6 (chk (fOpt w ≠ 0 || fRs2 w ≠ 0) 0 (.instr (.mpop (fRd w) (Fin.ofNat 8 (w / 2 ^ 13)))))
  | 5 => chk (decide (bits w 13 5 > 7)) 6 (chk (fOpt w ≠ 0 || fRs2 w ≠ 0) 0 (.instr (.mfirst (fRd w) (Fin.ofNat 8 (w / 2 ^ 13)))))
  | 6 => chk (decide (bits w 8 5 > 7)) 6 (chk (fOpt w ≠ 0 || fRs2 w ≠ 0) 0 (.instr (.mfromx (fMd w) (fRs1 w))))
  | 7 => chk (decide (bits w 13 5 > 7)) 6 (chk (fOpt w ≠ 0 || fRs2 w ≠ 0) 0 (.instr (.mtox (fRd w) (Fin.ofNat 8 (w / 2 ^ 13)))))
  | _ => .illegal 0

/-- MAJ 0x19, VEC FMA (R145). -/
def decVecFma (w : Nat) : Decoded :=
  only00 w <|
  match bits w 26 6 with
  | 0 => chk (decide (bits w 23 3 < 4) || bits w 23 3 == 7) 0 (.instr (.vfmac (tyOf (bits w 23 3)) (fVd w) (fVs1 w) (fVs2 w) (fVm w)))
  | 1 => chk (bits w 23 3 ≠ 2) 0 (.instr (.vdot4 (fVd w) (fVs1 w) (fVs2 w) (fVm w)))
  | _ => .illegal 0

/-- MAJ 0x1C, TILE memory (R175, R176). -/
def decTileMem (w : Nat) : Decoded :=
  only00 w <|
  match bits w 25 4 with
  | 0 => chk (fVs1 w ≠ 0 || fOpt w ≠ 0) 0 (.instr (.tload (fVd w) (Fin.ofNat 32 (w / 2 ^ 20)) (fVs2 w)))
  | 1 => chk (fVs1 w ≠ 0 || fOpt w ≠ 0) 0 (.instr (.tloadt (fVd w) (Fin.ofNat 32 (w / 2 ^ 20)) (fVs2 w)))
  | 2 => chk (fVs1 w ≠ 0 || fOpt w ≠ 0) 0 (.instr (.tloads (fVd w) (Fin.ofNat 32 (w / 2 ^ 20)) (fVs2 w)))
  | 3 => chk (fVs1 w ≠ 0 || fOpt w ≠ 0) 0 (.instr (.tstore (fVd w) (Fin.ofNat 32 (w / 2 ^ 20)) (fVs2 w)))
  | 4 => chk (bit w 11) 6 (chk (fVs1 w ≠ 0 || fOpt w ≠ 0) 0 (.instr (.taccld (Fin.ofNat 8 (w / 2 ^ 8)) (Fin.ofNat 32 (w / 2 ^ 20)) (fVs2 w))))
  | 5 => chk (bit w 11) 6 (chk (fVs1 w ≠ 0 || fOpt w ≠ 0) 0 (.instr (.taccst (Fin.ofNat 8 (w / 2 ^ 8)) (Fin.ofNat 32 (w / 2 ^ 20)) (fVs2 w))))
  | _ => .illegal 0

/-- MAJ 0x1D, TILE compute (R175, Table 6-9). -/
noncomputable def decTileComp (w : Nat) : Decoded :=
  only00 w <|
  match bits w 25 4 with
  | 0 => chk (bit w 11) 6 (chk (bits w 20 5 ≠ 0 || fOpt w ≠ 0) 0 (.instr (.tmma (Fin.ofNat 8 (w / 2 ^ 8)) (fVs1 w) (fVs2 w))))
  | 1 => .instr (.taccout (fVd w) (Fin.ofNat 8 (w / 2 ^ 20)) (fVs1 w) (fVs2 w) (BitVec.ofNat 5 (8 * bits w 23 2 + bits w 29 3)))
  | 2 => chk (bit w 11 || bit w 15) 6 (chk (fVs2 w ≠ 0 || bits w 20 5 ≠ 0 || fOpt w ≠ 0) 0
      (.instr (.taccadd (Fin.ofNat 8 (w / 2 ^ 8)) (Fin.ofNat 8 (w / 2 ^ 12)))))
  | _ => .illegal 0

/-- MAJ 0x1E, TILE misc (R175, Table 6-9). -/
noncomputable def decTileMisc (w : Nat) : Decoded :=
  only00 w <|
  match bits w 25 4 with
  | 0 => chk (bits w 12 13 ≠ 0 || fOpt w ≠ 0) 0 (.instr (.tzero (fVd w)))
  | 1 => chk (bit w 11) 6 (chk (bits w 12 13 ≠ 0 || fOpt w ≠ 0) 0 (.instr (.taccz (Fin.ofNat 8 (w / 2 ^ 8)))))
  | 2 => chk (bits w 16 9 ≠ 0 || bits w 30 2 ≠ 0) 0 (.instr (.txch (fVd w) (fVs1 w) (bit w 29)))
  | 3 => chk (bits w 16 9 ≠ 0 || fOpt w ≠ 0) 0 (.instr (.tcvt (fVd w) (fVs1 w)))
  | _ => .illegal 0

/-- MAJ 0x20, VERSION (R253, Table 10-5). -/
noncomputable def decVersion (w : Nat) : Decoded :=
  only00 w <|
  match bits w 24 5 with
  | 0 => chk (bit w 12) 6 (chk (fOs w ≠ 0 && !(decide (6 ≤ fOs w) && decide (fOs w ≤ 10))) 0 (.instr (.verst (fVd w) (fRs1 w) (fRs2 w) (osOf (fOs w)))))
  | 1 => chk (bit w 12) 6 (chk (decide (fOs w > 5)) 0 (.instr (.verld (fVd w) (fRs1 w) (fRs2 w) (osOf (fOs w)))))
  | 2 => chk (bit w 12) 6 (chk (decide (fOs w > 5)) 0 (.instr (.verldle (fVd w) (fRs1 w) (fRs2 w) (osOf (fOs w)))))
  | 3 => chk (fOs w ≠ 0) 0 (.instr (.verprobe (fRd w) (fRs1 w) (fRs2 w)))
  | 4 => chk (fOs w ≠ 0 && !(decide (6 ≤ fOs w) && decide (fOs w ≤ 10))) 0 (.instr (.verfloor (fRd w) (fRs1 w) (fRs2 w) (osOf (fOs w))))
  | 5 => chk (fRd w ≠ 0 || fRs2 w ≠ 0 || (fOs w ≠ 0 && !(decide (6 ≤ fOs w) && decide (fOs w ≤ 10)))) 0 (.instr (.verdrop (fRs1 w) (osOf (fOs w))))
  | _ => .illegal 0

/-- MAJ 0x21, COPY (R275): E names xn, xc and xv; with LEN 11 the literal is the completion value. -/
noncomputable def decCopy (w x1 x2 : Nat) : Decoded :=
  chk (decide (w % 4 < 2)) 5 <| chk (fOpt w ≠ 0 || x1 / 2 ^ 15 ≠ 0) 0 <|
  if w % 4 = 2 then chk (bits x1 5 5 == 0 && bits x1 10 5 ≠ 0) 0 <|
  match fFn w with
  | 0 => chk (fRs2 w ≠ 0) 0 (.instr (.cpy1 (fRd w) (fRs1 w) (Fin.ofNat 32 x1) (Fin.ofNat 32 (x1 / 2 ^ 5)) (Fin.ofNat 32 (x1 / 2 ^ 10))))
  | 1 => chk (fRs2 w ≠ 0) 0 (.instr (.cpy2 (fRd w) (fRs1 w) (Fin.ofNat 32 x1) (Fin.ofNat 32 (x1 / 2 ^ 5)) (Fin.ofNat 32 (x1 / 2 ^ 10))))
  | 2 => chk (fRs2 w ≠ 0) 0 (.instr (.cpy3 (fRd w) (fRs1 w) (Fin.ofNat 32 x1) (Fin.ofNat 32 (x1 / 2 ^ 5)) (Fin.ofNat 32 (x1 / 2 ^ 10))))
  | 3 => .instr (.cpyv (fRd w) (fRs1 w) (Fin.ofNat 32 x1) (fRs2 w) (Fin.ofNat 32 (x1 / 2 ^ 5)) (Fin.ofNat 32 (x1 / 2 ^ 10)))
  | 4 => chk (fRs2 w ≠ 0) 0 (.instr (.cpyq (fRd w) (fRs1 w) (Fin.ofNat 32 x1) (Fin.ofNat 32 (x1 / 2 ^ 5)) (Fin.ofNat 32 (x1 / 2 ^ 10))))
  | 5 => chk (fRs2 w ≠ 0) 0 (.instr (.cpyx (fRd w) (fRs1 w) (Fin.ofNat 32 x1) (Fin.ofNat 32 (x1 / 2 ^ 5)) (Fin.ofNat 32 (x1 / 2 ^ 10))))
  | _ => .illegal 0
  else chk (bits x1 5 5 == 0 || bits x1 10 5 ≠ 0) 0 <|
  match fFn w with
  | 0 => chk (fRs2 w ≠ 0) 0 (.instr (.cpy1Lit (fRd w) (fRs1 w) (Fin.ofNat 32 x1) (Fin.ofNat 32 (x1 / 2 ^ 5)) (fLit x2)))
  | 1 => chk (fRs2 w ≠ 0) 0 (.instr (.cpy2Lit (fRd w) (fRs1 w) (Fin.ofNat 32 x1) (Fin.ofNat 32 (x1 / 2 ^ 5)) (fLit x2)))
  | 2 => chk (fRs2 w ≠ 0) 0 (.instr (.cpy3Lit (fRd w) (fRs1 w) (Fin.ofNat 32 x1) (Fin.ofNat 32 (x1 / 2 ^ 5)) (fLit x2)))
  | 3 => .instr (.cpyvLit (fRd w) (fRs1 w) (Fin.ofNat 32 x1) (fRs2 w) (Fin.ofNat 32 (x1 / 2 ^ 5)) (fLit x2))
  | 4 => chk (fRs2 w ≠ 0) 0 (.instr (.cpyqLit (fRd w) (fRs1 w) (Fin.ofNat 32 x1) (Fin.ofNat 32 (x1 / 2 ^ 5)) (fLit x2)))
  | 5 => chk (fRs2 w ≠ 0) 0 (.instr (.cpyxLit (fRd w) (fRs1 w) (Fin.ofNat 32 x1) (Fin.ofNat 32 (x1 / 2 ^ 5)) (fLit x2)))
  | _ => .illegal 0

/-- MAJ 0x22, COLLECTIVE (R287, Table 11-9). -/
noncomputable def decColl (w x1 : Nat) : Decoded :=
  chk (decide (w % 4 < 2)) 5 <| chk (w % 4 = 3) 4 <|
  chk (fOpt w ≠ 0 || x1 / 2 ^ 18 ≠ 0 || decide (bits x1 3 4 > 7)) 0 <|
  match fFn w with
  | 0 => chk (decide (bits x1 0 3 > 5) || (decide (bits x1 0 3 > 2) && decide (bits x1 3 4 > 3))) 0
      (.instr (.collred (collOpOf (bits x1 0 3)) (collFmtOf (bits x1 3 4)) (bit x1 7) (fRd w) (fRs1 w) (fRs2 w) (Fin.ofNat 32 (x1 / 2 ^ 8)) (Fin.ofNat 32 (x1 / 2 ^ 13))))
  | 1 => chk (bits x1 0 3 ≠ 0) 0 (.instr (.collgath (collFmtOf (bits x1 3 4)) (bit x1 7) (fRd w) (fRs1 w) (fRs2 w) (Fin.ofNat 32 (x1 / 2 ^ 8)) (Fin.ofNat 32 (x1 / 2 ^ 13))))
  | 2 => chk (bits x1 0 3 ≠ 0) 0 (.instr (.collbcast (collFmtOf (bits x1 3 4)) (bit x1 7) (fRd w) (fRs1 w) (fRs2 w) (Fin.ofNat 32 (x1 / 2 ^ 8)) (Fin.ofNat 32 (x1 / 2 ^ 13))))
  | _ => .illegal 0

/-- MAJ 0x23, MSG (R284, Table 11-8). -/
noncomputable def decMsg (w : Nat) : Decoded :=
  only00 w <|
  match fFn w with
  | 0 => chk (bit w 22) 6 (chk (fOpt w ≠ 0) 0 (.instr (.msend (fRd w) (fV2 w) (fRs1 w))))
  | 1 => chk (bit w 22) 6 (chk (fOpt w ≠ 0 || fRs1 w ≠ 0) 0 (.instr (.mrecv (fRd w) (fV2 w))))
  | 2 => chk (fOpt w ≠ 0 || fRs1 w ≠ 0 || fRs2 w ≠ 0) 0 (.instr (.mpoll (fRd w)))
  | _ => .illegal 0

/-- MAJ 0x24, SYNC (R53, R328, R329, Table 14-1). -/
noncomputable def decSync (w : Nat) : Decoded :=
  only00 w <|
  match fFn w with
  | 0 => chk (bits w 30 2 ≠ 0 || (bits w 8 15 == 0 && !bit w 29)) 0
      (.instr (.pause (BitVec.ofNat 16 (bits w 8 15 + 2 ^ 15 * bits w 29 1))))
  | 1 => chk (fOpt w ≠ 0) 0 (.instr (.waita (fRd w) (fRs2 w) (fRs1 w)))
  | 2 => chk (fOpt w ≠ 0) 0 (.instr (.clave (fRd w) (fRs2 w) (fRs1 w)))
  | 3 => chk (bit w 12 || bit w 22) 6 (chk (fOpt w ≠ 0) 0 (.instr (.clavev (fVd w) (fV2 w) (fRs1 w))))
  | 4 => chk (bit w 12) 6 (chk (fOpt w ≠ 0) 0 (.instr (.claveg (fVd w) (fRs2 w) (fRs1 w))))
  | 5 => chk (fOpt w ≠ 0 || bits w 8 10 ≠ 0 || decide (bits w 18 5 > 11) || bits w 18 5 == 0) 0 (.instr (.bara (Fin.ofNat 12 (bits w 18 5))))
  | 6 => chk (bits w 30 2 ≠ 0 || bits w 8 10 ≠ 0 || decide (bits w 18 5 > 11) || (bit w 29 != (bits w 18 5 == 0))) 0
      (.instr (if bit w 29 then .barwSs else .barw (Fin.ofNat 12 (bits w 18 5))))
  | 7 => chk (fOpt w ≠ 0 || fRs1 w ≠ 0 || decide (bits w 18 5 > 11)) 0 (.instr (.barq (fRd w) (Fin.ofNat 12 (bits w 18 5))))
  | _ => .illegal 0

/-- MAJ 0x25, STACK LINK (R343, Table 14-3). -/
noncomputable def decLink (w : Nat) : Decoded :=
  only00 w <|
  match fFn w with
  | 0 => chk (bit w 22) 6 (chk (fOpt w ≠ 0 || bits w 8 10 ≠ 0) 0 (.instr (.slpush (fV2 w))))
  | 1 => chk (bit w 12) 6 (chk (fOpt w ≠ 0 || bits w 13 10 ≠ 0) 0 (.instr (.slpop (fVd w))))
  | 2 => chk (fOpt w ≠ 0 || bits w 13 10 ≠ 0) 0 (.instr (.slfree (fRd w)))
  | 3 => chk (bit w 22) 6 (chk (fOpt w ≠ 0 || fRs1 w ≠ 0) 0 (.instr (.slpeek (fRd w) (fV2 w))))
  | _ => .illegal 0

/-- MAJ 0x26, ISLAND (R348, R353): STRIKE with LEN 00 alone, MIGR with LEN 10 alone. An FN that names no member has no member whose length
could be refused, so its EVAL is 0 at every LEN (DEDUCED, log entry 98). -/
noncomputable def decIsland (w x1 : Nat) : Decoded :=
  match fFn w with
  | 0 => only00 w (chk (fOpt w ≠ 0 || fRs2 w ≠ 0) 0 (.instr (.strike (fRd w) (fRs1 w))))
  | 1 => chk (decide (w % 4 < 2)) 5 <| chk (w % 4 = 3) 4 <|
      chk (fOpt w ≠ 0 || bits w 8 15 ≠ 0 || x1 / 2 ^ 18 ≠ 0 || bits x1 13 5 == 0
        || decide (bits x1 1 12 + 1 > (if bit x1 0 then 8 else 2048))) 0
        (.instr (.migr (Fin.ofNat 32 (x1 / 2 ^ 13)) (bit x1 0) (BitVec.ofNat 12 (x1 / 2))))
  | _ => .illegal 0

/-- MAJ 0x30, CSR (R117). -/
noncomputable def decCsr (w : Nat) : Decoded :=
  only00 w <|
  match bits w 30 2 with
  | 0 => chk (fRs1 w ≠ 0) 0 (.instr (.csrr (fRd w) (BitVec.ofNat 12 (w / 2 ^ 18))))
  | 1 => .instr (.csrw (fRd w) (BitVec.ofNat 12 (w / 2 ^ 18)) (fRs1 w))
  | 2 => .instr (.csrs (fRd w) (BitVec.ofNat 12 (w / 2 ^ 18)) (fRs1 w))
  | _ => .instr (.csrc (fRd w) (BitVec.ofNat 12 (w / 2 ^ 18)) (fRs1 w))

/-- MAJ 0x31, TRAP (R125, R466): every other field is zero. -/
def decTrap (w : Nat) : Decoded :=
  only00 w <| chk (fOpt w ≠ 0 || bits w 8 15 ≠ 0) 0 <|
  match fFn w with
  | 0 => .instr .scall
  | 1 => .instr .brk
  | 2 => .instr .threadDone
  | 3 => .instr .yieldTurn
  | _ => .illegal 0

/-- MAJ 0x32, PRIV (R432, R466). -/
noncomputable def decPriv (w : Nat) : Decoded :=
  only00 w <| chk (fOpt w ≠ 0) 0 <|
  match fFn w with
  | 0 => chk (bits w 8 15 ≠ 0) 0 (.instr .eret)
  | 1 => chk (bits w 8 15 ≠ 0) 0 (.instr .halt)
  | 2 => chk (fRd w ≠ 0) 0 (.instr (.tlbinv (fRs1 w) (fRs2 w)))
  | _ => .illegal 0

/-- MAJ 0x33, DEBUG (R497). -/
noncomputable def decDebug (w : Nat) : Decoded :=
  only00 w <| chk (fOpt w ≠ 0 || fFn w ≠ 0) 0 (.instr (.mark (fRd w) (fRs1 w) (fRs2 w)))

/-- Decode an instruction from its words (R505): a MAJ of 0x00 or a reserved MAJ is ILLEGAL with EVAL 0 whatever LEN is. -/
noncomputable def decode (w x1 x2 : Nat) : Decoded :=
  match bits w 2 6 with
  | 1 => decAluReg w x1
  | 2 => decAluImm w x1
  | 3 => decKon w
  | 4 => decMul w
  | 5 => decBit w x1
  | 6 => decLi w x1
  | 7 => decSel w x1
  | 8 => decBr w x1
  | 9 => decJal w x1
  | 10 => decJalr w
  | 12 => decLoad w x1
  | 13 => decStore w x1
  | 14 => decAtomic w
  | 15 => decFence w
  | 16 => decFp w
  | 17 => decFma w x1
  | 18 => decCvt w
  | 20 => decVecInt w
  | 21 => decVecFloat w
  | 22 => decVecMem w x1
  | 23 => decVecPerm w
  | 24 => decMask w
  | 25 => decVecFma w
  | 28 => decTileMem w
  | 29 => decTileComp w
  | 30 => decTileMisc w
  | 32 => decVersion w
  | 33 => decCopy w x1 x2
  | 34 => decColl w x1
  | 35 => decMsg w
  | 36 => decSync w
  | 37 => decLink w
  | 38 => decIsland w x1
  | 48 => decCsr w
  | 49 => decTrap w
  | 50 => decPriv w
  | 51 => decDebug w
  | _ => .illegal 0

/-! ## The encoder -/

/-- Index of a scope. -/
def Scope.code : Scope → Nat
  | .tm => 0
  | .cl => 1
  | .is => 2
  | .dv => 3
  | .sy => 4

/-- OS code (Table 2-5). -/
def Os.code : Os → Nat
  | .rlx => 0
  | .acq s => 1 + s.code
  | .rel s => 6 + s.code
  | .ar s => 11 + s.code

/-- Rounding code (Table 3-11). -/
def Rm.code : Rm → Nat
  | .rne => 0
  | .rmm => 1
  | .rup => 2
  | .rdn => 3
  | .rtz => 4
  | .rsr => 5
  | .dyn => 6

/-- Precision code. -/
def Prec.code : Prec → Nat
  | .d => 0
  | .s => 1
  | .h => 2
  | .b => 3

/-- Lane type code. -/
def Ty.code : Ty → Nat
  | .i8 => 0
  | .i16 => 1
  | .i32 => 2
  | .i64 => 3
  | .bf16 => 4
  | .fp16 => 5
  | .fp32 => 6

/-- Element size code. -/
def ESize.code : ESize → Nat
  | .b1 => 0
  | .b2 => 1
  | .b4 => 2
  | .b8 => 3

/-- FCVT code. -/
def NumCode.code : NumCode → Nat
  | .d => 0
  | .s => 1
  | .h => 2
  | .b => 3
  | .w => 4
  | .wu => 5
  | .l => 6
  | .lu => 7

/-- Path code. -/
def Path.code : Path → Nat
  | .ls => 0
  | .mx => 1
  | .ce => 2
  | .co => 3
  | .ni => 4
  | .sl => 5

/-- Fence kind code. -/
def FenceKind.code : FenceKind → Nat
  | .acq => 0
  | .rel => 1
  | .ar => 2
  | .sc => 3

/-- Reduction code. -/
def CollOp.code : CollOp → Nat
  | .sum => 0
  | .max => 1
  | .min => 2
  | .and => 3
  | .or => 4
  | .xor => 5

/-- Collective format code. -/
def CollFmt.code : CollFmt → Nat
  | .int32 => 0
  | .int64 => 1
  | .uint32 => 2
  | .uint64 => 3
  | .fp32 => 4
  | .fp64 => 5
  | .bf16 => 6
  | .fp16 => 7

/-- REG layout. -/
def eReg (len maj rd rs1 rs2 fn opt : Nat) : Nat :=
  len + 2 ^ 2 * maj + 2 ^ 8 * rd + 2 ^ 13 * rs1 + 2 ^ 18 * rs2 + 2 ^ 23 * fn + 2 ^ 29 * opt

/-- IMM layout. -/
def eImm (len maj rd rs1 imm fn4 : Nat) : Nat :=
  len + 2 ^ 2 * maj + 2 ^ 8 * rd + 2 ^ 13 * rs1 + 2 ^ 18 * imm + 2 ^ 28 * fn4

/-- KON layout. -/
def eKon (maj rd rs1 k fn : Nat) : Nat := 2 ^ 2 * maj + 2 ^ 8 * rd + 2 ^ 13 * rs1 + 2 ^ 18 * k + 2 ^ 26 * fn

/-- BR layout. -/
def eBr (len rs1 rs2 cond off : Nat) : Nat :=
  len + 2 ^ 2 * 8 + 2 ^ 8 * rs1 + 2 ^ 13 * rs2 + 2 ^ 18 * cond + 2 ^ 21 * off

/-- VEC layout. -/
def eVec (maj vd vs1 vs2 m ty fn : Nat) : Nat :=
  2 ^ 2 * maj + 2 ^ 8 * vd + 2 ^ 12 * vs1 + 2 ^ 16 * vs2 + 2 ^ 20 * m + 2 ^ 23 * ty + 2 ^ 26 * fn

/-- TIL layout. -/
def eTil (maj td ta tb rs fn opt : Nat) : Nat :=
  2 ^ 2 * maj + 2 ^ 8 * td + 2 ^ 12 * ta + 2 ^ 16 * tb + 2 ^ 20 * rs + 2 ^ 25 * fn + 2 ^ 29 * opt

/-- The words of an instruction: word 0, words 1 and 2, words 3 and 4. An event has none and gives zeros, which decode to no
instruction (R52). -/
def encode : Instr → Nat × Nat × Nat
  | .add d a b => (eReg 0 1 d.val a.val b.val 0 0, 0, 0)
  | .sub d a b => (eReg 0 1 d.val a.val b.val 1 0, 0, 0)
  | .and d a b => (eReg 0 1 d.val a.val b.val 2 0, 0, 0)
  | .or d a b => (eReg 0 1 d.val a.val b.val 3 0, 0, 0)
  | .xor d a b => (eReg 0 1 d.val a.val b.val 4 0, 0, 0)
  | .andn d a b => (eReg 0 1 d.val a.val b.val 5 0, 0, 0)
  | .orn d a b => (eReg 0 1 d.val a.val b.val 6 0, 0, 0)
  | .xnor d a b => (eReg 0 1 d.val a.val b.val 7 0, 0, 0)
  | .sll d a b => (eReg 0 1 d.val a.val b.val 8 0, 0, 0)
  | .srl d a b => (eReg 0 1 d.val a.val b.val 9 0, 0, 0)
  | .sra d a b => (eReg 0 1 d.val a.val b.val 10 0, 0, 0)
  | .rol d a b => (eReg 0 1 d.val a.val b.val 11 0, 0, 0)
  | .ror d a b => (eReg 0 1 d.val a.val b.val 12 0, 0, 0)
  | .slt d a b => (eReg 0 1 d.val a.val b.val 13 0, 0, 0)
  | .sltu d a b => (eReg 0 1 d.val a.val b.val 14 0, 0, 0)
  | .min d a b => (eReg 0 1 d.val a.val b.val 15 0, 0, 0)
  | .max d a b => (eReg 0 1 d.val a.val b.val 16 0, 0, 0)
  | .minu d a b => (eReg 0 1 d.val a.val b.val 17 0, 0, 0)
  | .maxu d a b => (eReg 0 1 d.val a.val b.val 18 0, 0, 0)
  | .addw d a b => (eReg 0 1 d.val a.val b.val 19 0, 0, 0)
  | .subw d a b => (eReg 0 1 d.val a.val b.val 20 0, 0, 0)
  | .addLit d a lit => (eReg 1 1 d.val a.val 0 0 0, lit.toNat, 0)
  | .subLit d a lit => (eReg 1 1 d.val a.val 0 1 0, lit.toNat, 0)
  | .andLit d a lit => (eReg 1 1 d.val a.val 0 2 0, lit.toNat, 0)
  | .orLit d a lit => (eReg 1 1 d.val a.val 0 3 0, lit.toNat, 0)
  | .xorLit d a lit => (eReg 1 1 d.val a.val 0 4 0, lit.toNat, 0)
  | .andnLit d a lit => (eReg 1 1 d.val a.val 0 5 0, lit.toNat, 0)
  | .ornLit d a lit => (eReg 1 1 d.val a.val 0 6 0, lit.toNat, 0)
  | .xnorLit d a lit => (eReg 1 1 d.val a.val 0 7 0, lit.toNat, 0)
  | .sllLit d a lit => (eReg 1 1 d.val a.val 0 8 0, lit.toNat, 0)
  | .srlLit d a lit => (eReg 1 1 d.val a.val 0 9 0, lit.toNat, 0)
  | .sraLit d a lit => (eReg 1 1 d.val a.val 0 10 0, lit.toNat, 0)
  | .rolLit d a lit => (eReg 1 1 d.val a.val 0 11 0, lit.toNat, 0)
  | .rorLit d a lit => (eReg 1 1 d.val a.val 0 12 0, lit.toNat, 0)
  | .sltLit d a lit => (eReg 1 1 d.val a.val 0 13 0, lit.toNat, 0)
  | .sltuLit d a lit => (eReg 1 1 d.val a.val 0 14 0, lit.toNat, 0)
  | .minLit d a lit => (eReg 1 1 d.val a.val 0 15 0, lit.toNat, 0)
  | .maxLit d a lit => (eReg 1 1 d.val a.val 0 16 0, lit.toNat, 0)
  | .minuLit d a lit => (eReg 1 1 d.val a.val 0 17 0, lit.toNat, 0)
  | .maxuLit d a lit => (eReg 1 1 d.val a.val 0 18 0, lit.toNat, 0)
  | .addwLit d a lit => (eReg 1 1 d.val a.val 0 19 0, lit.toNat, 0)
  | .subwLit d a lit => (eReg 1 1 d.val a.val 0 20 0, lit.toNat, 0)
  | .addi d a imm => (eImm 0 2 d.val a.val imm.toNat 0, 0, 0)
  | .andi d a imm => (eImm 0 2 d.val a.val imm.toNat 1, 0, 0)
  | .ori d a imm => (eImm 0 2 d.val a.val imm.toNat 2, 0, 0)
  | .xori d a imm => (eImm 0 2 d.val a.val imm.toNat 3, 0, 0)
  | .slli d a sh => (eImm 0 2 d.val a.val sh.toNat 4, 0, 0)
  | .srli d a sh => (eImm 0 2 d.val a.val sh.toNat 5, 0, 0)
  | .srai d a sh => (eImm 0 2 d.val a.val sh.toNat 6, 0, 0)
  | .slti d a imm => (eImm 0 2 d.val a.val imm.toNat 7, 0, 0)
  | .sltiu d a imm => (eImm 0 2 d.val a.val imm.toNat 8, 0, 0)
  | .addwi d a imm => (eImm 0 2 d.val a.val imm.toNat 9, 0, 0)
  | .addiLit d a lit => (eImm 1 2 d.val a.val 0 0, lit.toNat, 0)
  | .andiLit d a lit => (eImm 1 2 d.val a.val 0 1, lit.toNat, 0)
  | .oriLit d a lit => (eImm 1 2 d.val a.val 0 2, lit.toNat, 0)
  | .xoriLit d a lit => (eImm 1 2 d.val a.val 0 3, lit.toNat, 0)
  | .sltiLit d a lit => (eImm 1 2 d.val a.val 0 7, lit.toNat, 0)
  | .sltiuLit d a lit => (eImm 1 2 d.val a.val 0 8, lit.toNat, 0)
  | .addwiLit d a lit => (eImm 1 2 d.val a.val 0 9, lit.toNat, 0)
  | .ldk d k => (eKon 3 d.val 0 k.toNat 0, 0, 0)
  | .addk d a k => (eKon 3 d.val a.val k.toNat 1, 0, 0)
  | .mul d a b => (eReg 0 4 d.val a.val b.val 0 0, 0, 0)
  | .mulh d a b => (eReg 0 4 d.val a.val b.val 1 0, 0, 0)
  | .mulhu d a b => (eReg 0 4 d.val a.val b.val 2 0, 0, 0)
  | .mulhmx d a b => (eReg 0 4 d.val a.val b.val 3 0, 0, 0)
  | .div d a b => (eReg 0 4 d.val a.val b.val 4 0, 0, 0)
  | .divu d a b => (eReg 0 4 d.val a.val b.val 5 0, 0, 0)
  | .rem d a b => (eReg 0 4 d.val a.val b.val 6 0, 0, 0)
  | .remu d a b => (eReg 0 4 d.val a.val b.val 7 0, 0, 0)
  | .clz d a => (eReg 0 5 d.val a.val 0 0 0, 0, 0)
  | .ctz d a => (eReg 0 5 d.val a.val 0 1 0, 0, 0)
  | .popc d a => (eReg 0 5 d.val a.val 0 2 0, 0, 0)
  | .brev d a => (eReg 0 5 d.val a.val 0 3 0, 0, 0)
  | .bswap d a => (eReg 0 5 d.val a.val 0 4 0, 0, 0)
  | .sextb d a => (eReg 0 5 d.val a.val 0 5 0, 0, 0)
  | .sexth d a => (eReg 0 5 d.val a.val 0 6 0, 0, 0)
  | .zexth d a => (eReg 0 5 d.val a.val 0 7 0, 0, 0)
  | .zextw d a => (eReg 0 5 d.val a.val 0 8 0, 0, 0)
  | .bext d a b => (eReg 0 5 d.val a.val b.val 9 0, 0, 0)
  | .bdep d a b => (eReg 0 5 d.val a.val b.val 10 0, 0, 0)
  | .bextLit d a lit => (eReg 1 5 d.val a.val 0 9 0, lit.toNat, 0)
  | .bdepLit d a lit => (eReg 1 5 d.val a.val 0 10 0, lit.toNat, 0)
  | .li d imm => (eImm 0 6 d.val 0 imm.toNat 0, 0, 0)
  | .liLit d lit => (eImm 1 6 d.val 0 0 0, lit.toNat, 0)
  | .pcadd d imm => (eImm 0 6 d.val 0 imm.toNat 1, 0, 0)
  | .pcaddLit d lit => (eImm 1 6 d.val 0 0 1, lit.toNat, 0)
  | .sel d a b => (eReg 0 7 d.val a.val b.val 0 0, 0, 0)
  | .seq d a b => (eReg 0 7 d.val a.val b.val 1 0, 0, 0)
  | .sne d a b => (eReg 0 7 d.val a.val b.val 2 0, 0, 0)
  | .seqLit d a lit => (eReg 1 7 d.val a.val 0 1 0, lit.toNat, 0)
  | .sneLit d a lit => (eReg 1 7 d.val a.val 0 2 0, lit.toNat, 0)
  | .beq a b off => (eBr 0 a.val b.val 0 off.toNat, 0, 0)
  | .bne a b off => (eBr 0 a.val b.val 1 off.toNat, 0, 0)
  | .blt a b off => (eBr 0 a.val b.val 2 off.toNat, 0, 0)
  | .bge a b off => (eBr 0 a.val b.val 3 off.toNat, 0, 0)
  | .bltu a b off => (eBr 0 a.val b.val 4 off.toNat, 0, 0)
  | .bgeu a b off => (eBr 0 a.val b.val 5 off.toNat, 0, 0)
  | .beqExt a b off => (eBr 2 a.val b.val 0 0, off.toNat, 0)
  | .bneExt a b off => (eBr 2 a.val b.val 1 0, off.toNat, 0)
  | .bltExt a b off => (eBr 2 a.val b.val 2 0, off.toNat, 0)
  | .bgeExt a b off => (eBr 2 a.val b.val 3 0, off.toNat, 0)
  | .bltuExt a b off => (eBr 2 a.val b.val 4 0, off.toNat, 0)
  | .bgeuExt a b off => (eBr 2 a.val b.val 5 0, off.toNat, 0)
  | .jal d off => (0 + 2 ^ 2 * 9 + 2 ^ 8 * d.val + 2 ^ 13 * off.toNat, 0, 0)
  | .jalExt d off => (2 + 2 ^ 2 * 9 + 2 ^ 8 * d.val, off.toNat, 0)
  | .jalr d a imm => (eImm 0 10 d.val a.val imm.toNat 0, 0, 0)
  | .lb d a off os => (eReg 0 12 d.val a.val off.toNat (os.code % 2 + 2 * 0) (os.code / 2), 0, 0)
  | .lbu d a off os => (eReg 0 12 d.val a.val off.toNat (os.code % 2 + 2 * 1) (os.code / 2), 0, 0)
  | .lh d a off os => (eReg 0 12 d.val a.val off.toNat (os.code % 2 + 2 * 2) (os.code / 2), 0, 0)
  | .lhu d a off os => (eReg 0 12 d.val a.val off.toNat (os.code % 2 + 2 * 3) (os.code / 2), 0, 0)
  | .lw d a off os => (eReg 0 12 d.val a.val off.toNat (os.code % 2 + 2 * 4) (os.code / 2), 0, 0)
  | .lwu d a off os => (eReg 0 12 d.val a.val off.toNat (os.code % 2 + 2 * 5) (os.code / 2), 0, 0)
  | .ld d a off os => (eReg 0 12 d.val a.val off.toNat (os.code % 2 + 2 * 6) (os.code / 2), 0, 0)
  | .lbLit d a lit os => (eReg 1 12 d.val a.val 0 (os.code % 2 + 2 * 0) (os.code / 2), lit.toNat, 0)
  | .lbuLit d a lit os => (eReg 1 12 d.val a.val 0 (os.code % 2 + 2 * 1) (os.code / 2), lit.toNat, 0)
  | .lhLit d a lit os => (eReg 1 12 d.val a.val 0 (os.code % 2 + 2 * 2) (os.code / 2), lit.toNat, 0)
  | .lhuLit d a lit os => (eReg 1 12 d.val a.val 0 (os.code % 2 + 2 * 3) (os.code / 2), lit.toNat, 0)
  | .lwLit d a lit os => (eReg 1 12 d.val a.val 0 (os.code % 2 + 2 * 4) (os.code / 2), lit.toNat, 0)
  | .lwuLit d a lit os => (eReg 1 12 d.val a.val 0 (os.code % 2 + 2 * 5) (os.code / 2), lit.toNat, 0)
  | .ldLit d a lit os => (eReg 1 12 d.val a.val 0 (os.code % 2 + 2 * 6) (os.code / 2), lit.toNat, 0)
  | .lbExt d a off os => (eReg 2 12 d.val a.val 0 (os.code % 2 + 2 * 0) (os.code / 2), off.toNat, 0)
  | .lbuExt d a off os => (eReg 2 12 d.val a.val 0 (os.code % 2 + 2 * 1) (os.code / 2), off.toNat, 0)
  | .lhExt d a off os => (eReg 2 12 d.val a.val 0 (os.code % 2 + 2 * 2) (os.code / 2), off.toNat, 0)
  | .lhuExt d a off os => (eReg 2 12 d.val a.val 0 (os.code % 2 + 2 * 3) (os.code / 2), off.toNat, 0)
  | .lwExt d a off os => (eReg 2 12 d.val a.val 0 (os.code % 2 + 2 * 4) (os.code / 2), off.toNat, 0)
  | .lwuExt d a off os => (eReg 2 12 d.val a.val 0 (os.code % 2 + 2 * 5) (os.code / 2), off.toNat, 0)
  | .ldExt d a off os => (eReg 2 12 d.val a.val 0 (os.code % 2 + 2 * 6) (os.code / 2), off.toNat, 0)
  | .sb s a off os => (eReg 0 13 s.val a.val off.toNat (os.code % 2 + 2 * 0) (os.code / 2), 0, 0)
  | .sh s a off os => (eReg 0 13 s.val a.val off.toNat (os.code % 2 + 2 * 2) (os.code / 2), 0, 0)
  | .sw s a off os => (eReg 0 13 s.val a.val off.toNat (os.code % 2 + 2 * 4) (os.code / 2), 0, 0)
  | .sd s a off os => (eReg 0 13 s.val a.val off.toNat (os.code % 2 + 2 * 6) (os.code / 2), 0, 0)
  | .pstore s a off => (eReg 0 13 s.val a.val off.toNat 14 0, 0, 0)
  | .sbLit s a lit os => (eReg 1 13 s.val a.val 0 (os.code % 2 + 2 * 0) (os.code / 2), lit.toNat, 0)
  | .shLit s a lit os => (eReg 1 13 s.val a.val 0 (os.code % 2 + 2 * 2) (os.code / 2), lit.toNat, 0)
  | .swLit s a lit os => (eReg 1 13 s.val a.val 0 (os.code % 2 + 2 * 4) (os.code / 2), lit.toNat, 0)
  | .sdLit s a lit os => (eReg 1 13 s.val a.val 0 (os.code % 2 + 2 * 6) (os.code / 2), lit.toNat, 0)
  | .pstoreLit s a lit => (eReg 1 13 s.val a.val 0 14 0, lit.toNat, 0)
  | .sbExt s a off os => (eReg 2 13 s.val a.val 0 (os.code % 2 + 2 * 0) (os.code / 2), off.toNat, 0)
  | .shExt s a off os => (eReg 2 13 s.val a.val 0 (os.code % 2 + 2 * 2) (os.code / 2), off.toNat, 0)
  | .swExt s a off os => (eReg 2 13 s.val a.val 0 (os.code % 2 + 2 * 4) (os.code / 2), off.toNat, 0)
  | .sdExt s a off os => (eReg 2 13 s.val a.val 0 (os.code % 2 + 2 * 6) (os.code / 2), off.toNat, 0)
  | .pstoreExt s a off => (eReg 2 13 s.val a.val 0 14 0, off.toNat, 0)
  | .amoadd d a b dbl os => (eReg 0 14 d.val a.val b.val (os.code % 2 + 2 * b2n dbl + 4 * 0) (os.code / 2), 0, 0)
  | .amoand d a b dbl os => (eReg 0 14 d.val a.val b.val (os.code % 2 + 2 * b2n dbl + 4 * 1) (os.code / 2), 0, 0)
  | .amoor d a b dbl os => (eReg 0 14 d.val a.val b.val (os.code % 2 + 2 * b2n dbl + 4 * 2) (os.code / 2), 0, 0)
  | .amoxor d a b dbl os => (eReg 0 14 d.val a.val b.val (os.code % 2 + 2 * b2n dbl + 4 * 3) (os.code / 2), 0, 0)
  | .amomin d a b dbl os => (eReg 0 14 d.val a.val b.val (os.code % 2 + 2 * b2n dbl + 4 * 4) (os.code / 2), 0, 0)
  | .amomax d a b dbl os => (eReg 0 14 d.val a.val b.val (os.code % 2 + 2 * b2n dbl + 4 * 5) (os.code / 2), 0, 0)
  | .amominu d a b dbl os => (eReg 0 14 d.val a.val b.val (os.code % 2 + 2 * b2n dbl + 4 * 6) (os.code / 2), 0, 0)
  | .amomaxu d a b dbl os => (eReg 0 14 d.val a.val b.val (os.code % 2 + 2 * b2n dbl + 4 * 7) (os.code / 2), 0, 0)
  | .amoswap d a b dbl os => (eReg 0 14 d.val a.val b.val (os.code % 2 + 2 * b2n dbl + 4 * 8) (os.code / 2), 0, 0)
  | .amocas d a b dbl os => (eReg 0 14 d.val a.val b.val (os.code % 2 + 2 * b2n dbl + 4 * 9) (os.code / 2), 0, 0)
  | .amofadd d a b dbl os => (eReg 0 14 d.val a.val b.val (os.code % 2 + 2 * b2n dbl + 4 * 10) (os.code / 2), 0, 0)
  | .abump d a b os => (eReg 0 14 d.val a.val b.val (os.code % 2 + 2 * 1 + 4 * 11) (os.code / 2), 0, 0)
  | .fence sc k => (eReg 0 15 (k.code + 4 * (sc.code + 1)) 0 0 0 0, 0, 0)
  | .fencex sc k p1 p2 => (eReg 0 15 (k.code + 4 * (sc.code + 1)) p1.code p2.code 1 0, 0, 0)
  | .ifence => (eReg 0 15 0 0 0 2 0, 0, 0)
  | .fadd p rm d a b => (eReg 0 16 d.val a.val b.val (p.code + 4 * 0) rm.code, 0, 0)
  | .fsub p rm d a b => (eReg 0 16 d.val a.val b.val (p.code + 4 * 1) rm.code, 0, 0)
  | .fmul p rm d a b => (eReg 0 16 d.val a.val b.val (p.code + 4 * 2) rm.code, 0, 0)
  | .fdiv p rm d a b => (eReg 0 16 d.val a.val b.val (p.code + 4 * 3) rm.code, 0, 0)
  | .fsqrt p rm d a => (eReg 0 16 d.val a.val 0 (p.code + 4 * 4) rm.code, 0, 0)
  | .fmin p d a b => (eReg 0 16 d.val a.val b.val (p.code + 4 * 5) 0, 0, 0)
  | .fmax p d a b => (eReg 0 16 d.val a.val b.val (p.code + 4 * 6) 0, 0, 0)
  | .feq p d a b => (eReg 0 16 d.val a.val b.val (p.code + 4 * 7) 0, 0, 0)
  | .flt p d a b => (eReg 0 16 d.val a.val b.val (p.code + 4 * 8) 0, 0, 0)
  | .fle p d a b => (eReg 0 16 d.val a.val b.val (p.code + 4 * 9) 0, 0, 0)
  | .fclass p d a => (eReg 0 16 d.val a.val 0 (p.code + 4 * 10) 0, 0, 0)
  | .fsgnj p d a b => (eReg 0 16 d.val a.val b.val (p.code + 4 * 11) 0, 0, 0)
  | .fabs p d a => (eReg 0 16 d.val a.val 0 (p.code + 4 * 12) 0, 0, 0)
  | .fmac p rm d a b => (eReg 0 17 d.val a.val b.val (p.code + 4 * 0) rm.code, 0, 0)
  | .fmsc p rm d a b => (eReg 0 17 d.val a.val b.val (p.code + 4 * 1) rm.code, 0, 0)
  | .fmacExt p rm d a b c => (eReg 2 17 d.val a.val b.val (p.code + 4 * 0) rm.code, c.val, 0)
  | .fmscExt p rm d a b c => (eReg 2 17 d.val a.val b.val (p.code + 4 * 1) rm.code, c.val, 0)
  | .fcvt dst src rm d a => (eReg 0 18 d.val a.val 0 (dst.code + 8 * src.code) rm.code, 0, 0)
  | .vadd ty d a b m => (eVec 20 d.val a.val b.val m.val ty.code 0, 0, 0)
  | .vsub ty d a b m => (eVec 20 d.val a.val b.val m.val ty.code 1, 0, 0)
  | .vmul ty d a b m => (eVec 20 d.val a.val b.val m.val ty.code 2, 0, 0)
  | .vmulh ty d a b m => (eVec 20 d.val a.val b.val m.val ty.code 3, 0, 0)
  | .vadds ty d a b m => (eVec 20 d.val a.val b.val m.val ty.code 4, 0, 0)
  | .vsubs ty d a b m => (eVec 20 d.val a.val b.val m.val ty.code 5, 0, 0)
  | .vabs ty d a m => (eVec 20 d.val a.val 0 m.val ty.code 6, 0, 0)
  | .vmin ty d a b m => (eVec 20 d.val a.val b.val m.val ty.code 7, 0, 0)
  | .vmax ty d a b m => (eVec 20 d.val a.val b.val m.val ty.code 8, 0, 0)
  | .vand ty d a b m => (eVec 20 d.val a.val b.val m.val ty.code 9, 0, 0)
  | .vor ty d a b m => (eVec 20 d.val a.val b.val m.val ty.code 10, 0, 0)
  | .vxor ty d a b m => (eVec 20 d.val a.val b.val m.val ty.code 11, 0, 0)
  | .vsll ty d a b m => (eVec 20 d.val a.val b.val m.val ty.code 12, 0, 0)
  | .vsrl ty d a b m => (eVec 20 d.val a.val b.val m.val ty.code 13, 0, 0)
  | .vsra ty d a b m => (eVec 20 d.val a.val b.val m.val ty.code 14, 0, 0)
  | .vfadd ty d a b m => (eVec 21 d.val a.val b.val m.val ty.code 0, 0, 0)
  | .vfsub ty d a b m => (eVec 21 d.val a.val b.val m.val ty.code 1, 0, 0)
  | .vfmul ty d a b m => (eVec 21 d.val a.val b.val m.val ty.code 2, 0, 0)
  | .vfdiv ty d a b m => (eVec 21 d.val a.val b.val m.val ty.code 3, 0, 0)
  | .vfsqrt ty d a m => (eVec 21 d.val a.val 0 m.val ty.code 4, 0, 0)
  | .vfmin ty d a b m => (eVec 21 d.val a.val b.val m.val ty.code 5, 0, 0)
  | .vfmax ty d a b m => (eVec 21 d.val a.val b.val m.val ty.code 6, 0, 0)
  | .vfexp2 ty d a m => (eVec 21 d.val a.val 0 m.val ty.code 7, 0, 0)
  | .vfrcp ty d a m => (eVec 21 d.val a.val 0 m.val ty.code 8, 0, 0)
  | .vfrsqrt ty d a m => (eVec 21 d.val a.val 0 m.val ty.code 9, 0, 0)
  | .vload v a off m => (eReg 0 22 v.val a.val off.toNat (0 + 8 * m.val) 0, 0, 0)
  | .vstore v a off m => (eReg 0 22 v.val a.val off.toNat (1 + 8 * m.val) 0, 0, 0)
  | .vgather e v vi a m => (eReg 0 22 v.val a.val vi.val (2 + 8 * m.val) e.code, 0, 0)
  | .vscatter e v vi a m => (eReg 0 22 v.val a.val vi.val (3 + 8 * m.val) e.code, 0, 0)
  | .vloadb e v a off m => (eReg 0 22 v.val a.val off.toNat (4 + 8 * m.val) e.code, 0, 0)
  | .vloadLit v a lit m => (eReg 1 22 v.val a.val 0 (0 + 8 * m.val) 0, lit.toNat, 0)
  | .vstoreLit v a lit m => (eReg 1 22 v.val a.val 0 (1 + 8 * m.val) 0, lit.toNat, 0)
  | .vloadbLit e v a lit m => (eReg 1 22 v.val a.val 0 (4 + 8 * m.val) e.code, lit.toNat, 0)
  | .vloadExt v a off m => (eReg 2 22 v.val a.val 0 (0 + 8 * m.val) 0, off.toNat, 0)
  | .vstoreExt v a off m => (eReg 2 22 v.val a.val 0 (1 + 8 * m.val) 0, off.toNat, 0)
  | .vloadbExt e v a off m => (eReg 2 22 v.val a.val 0 (4 + 8 * m.val) e.code, off.toNat, 0)
  | .vcmpEq ty md a b m => (eVec 23 md.val a.val b.val m.val ty.code 0, 0, 0)
  | .vcmpNe ty md a b m => (eVec 23 md.val a.val b.val m.val ty.code 1, 0, 0)
  | .vcmpLt ty md a b m => (eVec 23 md.val a.val b.val m.val ty.code 2, 0, 0)
  | .vcmpLe ty md a b m => (eVec 23 md.val a.val b.val m.val ty.code 3, 0, 0)
  | .vcmpLtu ty md a b m => (eVec 23 md.val a.val b.val m.val ty.code 4, 0, 0)
  | .vcmpLeu ty md a b m => (eVec 23 md.val a.val b.val m.val ty.code 5, 0, 0)
  | .vsel ty d a b m => (eVec 23 d.val a.val b.val m.val ty.code 6, 0, 0)
  | .vbcast ty d xs m => (eVec 23 d.val xs.val 0 m.val ty.code 7, 0, 0)
  | .vext ty xd a xi => (eVec 23 xd.val a.val xi.val 0 ty.code 8, 0, 0)
  | .vins ty d xs xi => (eVec 23 d.val xs.val xi.val 0 ty.code 9, 0, 0)
  | .vperm ty d a b m => (eVec 23 d.val a.val b.val m.val ty.code 10, 0, 0)
  | .vslide ty d a xk m => (eVec 23 d.val a.val xk.val m.val ty.code 11, 0, 0)
  | .vredsum ty xd a m => (eVec 23 xd.val a.val 0 m.val ty.code 12, 0, 0)
  | .vredmax ty xd a m => (eVec 23 xd.val a.val 0 m.val ty.code 13, 0, 0)
  | .vredmin ty xd a m => (eVec 23 xd.val a.val 0 m.val ty.code 14, 0, 0)
  | .vcvt dty sty d a m => (eVec 23 d.val a.val sty.code m.val dty.code 15, 0, 0)
  | .vmov ty d a m => (eVec 23 d.val a.val 0 m.val ty.code 16, 0, 0)
  | .mand md a b => (eReg 0 24 md.val a.val b.val 0 0, 0, 0)
  | .mor md a b => (eReg 0 24 md.val a.val b.val 1 0, 0, 0)
  | .mxor md a b => (eReg 0 24 md.val a.val b.val 2 0, 0, 0)
  | .mnot md a => (eReg 0 24 md.val a.val 0 3 0, 0, 0)
  | .mpop d a => (eReg 0 24 d.val a.val 0 4 0, 0, 0)
  | .mfirst d a => (eReg 0 24 d.val a.val 0 5 0, 0, 0)
  | .mfromx md xs => (eReg 0 24 md.val xs.val 0 6 0, 0, 0)
  | .mtox d a => (eReg 0 24 d.val a.val 0 7 0, 0, 0)
  | .vfmac ty d a b m => (eVec 25 d.val a.val b.val m.val ty.code 0, 0, 0)
  | .vdot4 d a b m => (eVec 25 d.val a.val b.val m.val 2 1, 0, 0)
  | .tload t xa xs => (eTil 28 t.val 0 xs.val xa.val 0 0, 0, 0)
  | .tloadt t xa xs => (eTil 28 t.val 0 xs.val xa.val 1 0, 0, 0)
  | .tloads t xa xs => (eTil 28 t.val 0 xs.val xa.val 2 0, 0, 0)
  | .tstore t xa xs => (eTil 28 t.val 0 xs.val xa.val 3 0, 0, 0)
  | .taccld acc xa xs => (eTil 28 acc.val 0 xs.val xa.val 4 0, 0, 0)
  | .taccst acc xa xs => (eTil 28 acc.val 0 xs.val xa.val 5 0, 0, 0)
  | .tmma acc ta tb => (eTil 29 acc.val ta.val tb.val 0 0 0, 0, 0)
  | .taccout td acc ta tb cb => (eTil 29 td.val ta.val tb.val (acc.val + 8 * (cb.toNat / 8)) 1 (cb.toNat % 8), 0, 0)
  | .taccadd accd accs => (eTil 29 accd.val accs.val 0 0 2 0, 0, 0)
  | .tzero td => (eTil 30 td.val 0 0 0 0 0, 0, 0)
  | .taccz acc => (eTil 30 acc.val 0 0 0 1 0, 0, 0)
  | .txch tp ta h => (eTil 30 tp.val ta.val 0 0 2 (b2n h), 0, 0)
  | .tcvt td ta => (eTil 30 td.val ta.val 0 0 3 0, 0, 0)
  | .verst v xa xv os => (eReg 0 32 v.val xa.val xv.val (os.code % 2 + 2 * 0) (os.code / 2), 0, 0)
  | .verld v xa xv os => (eReg 0 32 v.val xa.val xv.val (os.code % 2 + 2 * 1) (os.code / 2), 0, 0)
  | .verldle v xa xv os => (eReg 0 32 v.val xa.val xv.val (os.code % 2 + 2 * 2) (os.code / 2), 0, 0)
  | .verprobe d xa xv => (eReg 0 32 d.val xa.val xv.val (2 * 3) 0, 0, 0)
  | .verfloor d xa xf os => (eReg 0 32 d.val xa.val xf.val (os.code % 2 + 2 * 4) (os.code / 2), 0, 0)
  | .verdrop xa os => (eReg 0 32 0 xa.val 0 (os.code % 2 + 2 * 5) (os.code / 2), 0, 0)
  | .cpy1 xd xs xn xc xv => (eReg 2 33 xd.val xs.val 0 0 0, xn.val + 2 ^ 5 * xc.val + 2 ^ 10 * xv.val, 0)
  | .cpy2 xd xs xn xc xv => (eReg 2 33 xd.val xs.val 0 1 0, xn.val + 2 ^ 5 * xc.val + 2 ^ 10 * xv.val, 0)
  | .cpy3 xd xs xn xc xv => (eReg 2 33 xd.val xs.val 0 2 0, xn.val + 2 ^ 5 * xc.val + 2 ^ 10 * xv.val, 0)
  | .cpyv xd xs xn xver xc xv => (eReg 2 33 xd.val xs.val xver.val 3 0, xn.val + 2 ^ 5 * xc.val + 2 ^ 10 * xv.val, 0)
  | .cpyq xd xs xn xc xv => (eReg 2 33 xd.val xs.val 0 4 0, xn.val + 2 ^ 5 * xc.val + 2 ^ 10 * xv.val, 0)
  | .cpyx xd xs xn xc xv => (eReg 2 33 xd.val xs.val 0 5 0, xn.val + 2 ^ 5 * xc.val + 2 ^ 10 * xv.val, 0)
  | .cpy1Lit xd xs xn xc lit => (eReg 3 33 xd.val xs.val 0 0 0, xn.val + 2 ^ 5 * xc.val, lit.toNat)
  | .cpy2Lit xd xs xn xc lit => (eReg 3 33 xd.val xs.val 0 1 0, xn.val + 2 ^ 5 * xc.val, lit.toNat)
  | .cpy3Lit xd xs xn xc lit => (eReg 3 33 xd.val xs.val 0 2 0, xn.val + 2 ^ 5 * xc.val, lit.toNat)
  | .cpyvLit xd xs xn xver xc lit => (eReg 3 33 xd.val xs.val xver.val 3 0, xn.val + 2 ^ 5 * xc.val, lit.toNat)
  | .cpyqLit xd xs xn xc lit => (eReg 3 33 xd.val xs.val 0 4 0, xn.val + 2 ^ 5 * xc.val, lit.toNat)
  | .cpyxLit xd xs xn xc lit => (eReg 3 33 xd.val xs.val 0 5 0, xn.val + 2 ^ 5 * xc.val, lit.toNat)
  | .collred op fmt br xd xs xn xc xr => (eReg 2 34 xd.val xs.val xn.val 0 0, op.code + 2 ^ 3 * fmt.code + 2 ^ 7 * b2n br + 2 ^ 8 * xc.val + 2 ^ 13 * xr.val, 0)
  | .collgath fmt br xd xs xn xc xr => (eReg 2 34 xd.val xs.val xn.val 1 0, 2 ^ 3 * fmt.code + 2 ^ 7 * b2n br + 2 ^ 8 * xc.val + 2 ^ 13 * xr.val, 0)
  | .collbcast fmt br xd xs xn xc xr => (eReg 2 34 xd.val xs.val xn.val 2 0, 2 ^ 3 * fmt.code + 2 ^ 7 * b2n br + 2 ^ 8 * xc.val + 2 ^ 13 * xr.val, 0)
  | .msend d v xt => (eReg 0 35 d.val xt.val v.val 0 0, 0, 0)
  | .mrecv d v => (eReg 0 35 d.val 0 v.val 1 0, 0, 0)
  | .mpoll d => (eReg 0 35 d.val 0 0 2 0, 0, 0)
  | .pause n => (2 ^ 2 * 36 + 2 ^ 8 * (n.toNat % 2 ^ 15) + 2 ^ 29 * (n.toNat / 2 ^ 15), 0, 0)
  | .waita d xv xa => (eReg 0 36 d.val xa.val xv.val 1 0, 0, 0)
  | .clave d xs xk => (eReg 0 36 d.val xk.val xs.val 2 0, 0, 0)
  | .clavev vd vs xk => (eReg 0 36 vd.val xk.val vs.val 3 0, 0, 0)
  | .claveg vd xs xk => (eReg 0 36 vd.val xk.val xs.val 4 0, 0, 0)
  | .bara h => (eReg 0 36 0 0 h.val 5 0, 0, 0)
  | .barw h => (eReg 0 36 0 0 h.val 6 0, 0, 0)
  | .barwSs => (eReg 0 36 0 0 0 6 1, 0, 0)
  | .barq d h => (eReg 0 36 d.val 0 h.val 7 0, 0, 0)
  | .slpush v => (eReg 0 37 0 0 v.val 0 0, 0, 0)
  | .slpop v => (eReg 0 37 v.val 0 0 1 0, 0, 0)
  | .slfree d => (eReg 0 37 d.val 0 0 2 0, 0, 0)
  | .slpeek d v => (eReg 0 37 d.val 0 v.val 3 0, 0, 0)
  | .strike d xs => (eReg 0 38 d.val xs.val 0 0 0, 0, 0)
  | .migr xc isl w1 => (eReg 2 38 0 0 0 1 0, b2n isl + 2 * w1.toNat + 2 ^ 13 * xc.val, 0)
  | .csrr d csr => (2 ^ 2 * 48 + 2 ^ 8 * d.val + 2 ^ 13 * 0 + 2 ^ 18 * csr.toNat + 2 ^ 30 * 0, 0, 0)
  | .csrw d csr a => (2 ^ 2 * 48 + 2 ^ 8 * d.val + 2 ^ 13 * a.val + 2 ^ 18 * csr.toNat + 2 ^ 30 * 1, 0, 0)
  | .csrs d csr a => (2 ^ 2 * 48 + 2 ^ 8 * d.val + 2 ^ 13 * a.val + 2 ^ 18 * csr.toNat + 2 ^ 30 * 2, 0, 0)
  | .csrc d csr a => (2 ^ 2 * 48 + 2 ^ 8 * d.val + 2 ^ 13 * a.val + 2 ^ 18 * csr.toNat + 2 ^ 30 * 3, 0, 0)
  | .scall => (eReg 0 49 0 0 0 0 0, 0, 0)
  | .brk => (eReg 0 49 0 0 0 1 0, 0, 0)
  | .threadDone => (eReg 0 49 0 0 0 2 0, 0, 0)
  | .yieldTurn => (eReg 0 49 0 0 0 3 0, 0, 0)
  | .eret => (eReg 0 50 0 0 0 0 0, 0, 0)
  | .halt => (eReg 0 50 0 0 0 1 0, 0, 0)
  | .tlbinv xa xs => (eReg 0 50 0 xa.val xs.val 2 0, 0, 0)
  | .mark d a b => (eReg 0 51 d.val a.val b.val 0 0, 0, 0)
  | .evDeferredTrapTake _ => (0, 0, 0)
  | .evFirmwarePageValidate _ => (0, 0, 0)
  | .evServicedFaultRestart _ => (0, 0, 0)
  | .evWaitaMonitorMatch _ => (0, 0, 0)
  | .evWaitTimeout _ => (0, 0, 0)
  | .evVerWait _ => (0, 0, 0)
  | .evVerFull _ => (0, 0, 0)
  | .evBarStall _ => (0, 0, 0)
  | .evClaveTimeout _ => (0, 0, 0)
  | .evSlDown _ => (0, 0, 0)
  | .evSlEntryArrive _ => (0, 0, 0)
  | .evSlCreditArrive _ => (0, 0, 0)
  | .evPauseIntervalEnd _ => (0, 0, 0)
  | .evMqTmmaExecute _ => (0, 0, 0)
  | .evMqTaccoutExecute _ => (0, 0, 0)
  | .evMqTaccaddExecute _ => (0, 0, 0)
  | .evMqTzeroExecute _ => (0, 0, 0)
  | .evMqTacczExecute _ => (0, 0, 0)
  | .evMqTxchExecute _ => (0, 0, 0)
  | .evMqTcvtExecute _ => (0, 0, 0)
  | .evCeGranuleTransfer _ _ _ => (0, 0, 0)
  | .evCollectiveExecute _ _ => (0, 0, 0)
  | .evBindcmdRead _ => (0, 0, 0)
  | .evBindcmdWrite _ => (0, 0, 0)
  | .evBindZeroingDone _ => (0, 0, 0)
  | .evBindcmdGo _ => (0, 0, 0)
  | .evBindcmdStop _ => (0, 0, 0)
  | .evThreadStop _ => (0, 0, 0)
  | .evGangStopSaveComplete _ => (0, 0, 0)
  | .evTaskBind _ _ => (0, 0, 0)
  | .evPriorityAging _ => (0, 0, 0)
  | .evQuantumPreempt _ _ => (0, 0, 0)
  | .evLaunch _ _ => (0, 0, 0)
  | .evSignal _ _ => (0, 0, 0)
  | .evWaitq _ _ => (0, 0, 0)
  | .evWaitqSatisfied _ _ => (0, 0, 0)
  | .evWaitqTimeout _ _ => (0, 0, 0)
  | .evControl _ _ => (0, 0, 0)
  | .evCapstart _ _ => (0, 0, 0)
  | .evCapstop _ _ => (0, 0, 0)
  | .evQueueNotify _ _ _ => (0, 0, 0)
  | .evQifEnableWrite _ _ => (0, 0, 0)
  | .evQifReset _ => (0, 0, 0)
  | .evQifResetComplete _ => (0, 0, 0)
  | .evS2inv _ _ => (0, 0, 0)
  | .evInvreq _ _ => (0, 0, 0)
  | .evDbgresume _ _ => (0, 0, 0)
  | .evDbgstop _ _ => (0, 0, 0)
  | .evRestart _ _ => (0, 0, 0)
  | .evCheadWrite _ _ _ => (0, 0, 0)
  | .evFaultRingWrite _ _ _ => (0, 0, 0)
  | .evFresp _ _ => (0, 0, 0)
  | .evFileFaultWaitLimit _ => (0, 0, 0)
  | .evTenantTableWrite _ _ _ => (0, 0, 0)
  | .evMsisend _ => (0, 0, 0)
  | .evAttbuf _ => (0, 0, 0)
  | .evAttestationDone => (0, 0, 0)
  | .evVminsel _ => (0, 0, 0)
  | .evVmintimeRead => (0, 0, 0)
  | .evRecoveryLoad _ => (0, 0, 0)
  | .evRecoveryLoadFlash _ => (0, 0, 0)
  | .evRegisterWrite _ _ => (0, 0, 0)
  | .evHostCxlAccess _ _ _ _ => (0, 0, 0)
  | .evBridgeLinkUp _ _ => (0, 0, 0)
  | .evBridgeFlitReceive _ _ => (0, 0, 0)
  | .evBridgeRetrain _ => (0, 0, 0)
  | .evBridgePortDown _ => (0, 0, 0)
  | .evBridgeSlackDecision _ _ => (0, 0, 0)
  | .evWcFlush _ => (0, 0, 0)
  | .evLmBoundaryTick _ _ => (0, 0, 0)
  | .evQuadrantIdleDown _ _ => (0, 0, 0)
  | .evQuadrantRaise _ => (0, 0, 0)
  | .evBindWakeRequest _ _ => (0, 0, 0)
  | .evWakeComplete _ => (0, 0, 0)
  | .evStrikerRecordDelivery _ => (0, 0, 0)
  | .evTaborModeSwitch => (0, 0, 0)
  | .evLpddr6SelfRefreshEntry => (0, 0, 0)
  | .evCoreC1Entry _ => (0, 0, 0)
  | .evCoreC2Entry _ => (0, 0, 0)
  | .evDomainSwitchOn _ _ => (0, 0, 0)
  | .evSwitchOnNeighbourTimeout _ => (0, 0, 0)
  | .evSwitchOnRampComplete _ => (0, 0, 0)
  | .evCoolingReport _ _ _ => (0, 0, 0)
  | .evCoolingSensorTimeout => (0, 0, 0)
  | .evTallowUpdate _ _ => (0, 0, 0)
  | .evHbmTempThreshold _ _ => (0, 0, 0)
  | .evHbmThermalStep _ => (0, 0, 0)
  | .evBellowsLimitStep _ => (0, 0, 0)
  | .evBellowsRaiseStep _ => (0, 0, 0)
  | .evPowerEstimateTick _ _ _ => (0, 0, 0)
  | .evPowerWeightRefit _ _ => (0, 0, 0)
  | .evClockRatioHandshake _ => (0, 0, 0)
  | .evLadleMigration _ _ => (0, 0, 0)
  | .evCeSummaryTick => (0, 0, 0)
  | .evPatrolScrub _ => (0, 0, 0)
  | .evPhaseFailure _ _ => (0, 0, 0)
  | .evColdStart _ => (0, 0, 0)
  | .evWarmStart _ => (0, 0, 0)
  | .evRudimentHeldRelease _ => (0, 0, 0)
  | .evReplayWaitExpiry _ => (0, 0, 0)
  | .evDomainPowerGate _ => (0, 0, 0)
  | .evServiceWaitLimit _ _ => (0, 0, 0)
  | .evCpyvVersionWaitLimit _ _ _ => (0, 0, 0)
  | .evMsixVectorUnmask _ _ => (0, 0, 0)
  | .evAlwaysOnPowerLoss => (0, 0, 0)
  | .evSupplyVoltageMinimum _ _ => (0, 0, 0)

/-- Bytes of the encoding of an instruction. -/
def encBytes (i : Instr) : Nat := lenBytes (encode i).1

/-- The words of an instruction as bytes in memory, each word little-endian, word 0 lowest (R6). -/
def wordBytes (w x1 x2 : Nat) : List Byte := bytesOf 4 w ++ bytesOf 8 x1 ++ bytesOf 8 x2

/-- Decode from bytes: the instruction or its EVAL, with its length; none where bytes are missing (R37). -/
noncomputable def decodeBytes (b : List Byte) : Option (Decoded × Nat) :=
  let w := ofBytes (b.take 4)
  if b.length < 4 ∨ b.length < lenBytes w then none
  else some (decode w (ofBytes ((b.drop 4).take 8)) (ofBytes ((b.drop 12).take 8)), lenBytes w)

/-- The instruction the decoder reads from bits numbered as spec/opcode_table.json numbers them: word 0 in bits 31..0, the
later words above it; bits the table does not give are 0. -/
noncomputable def decodeTableWord (nbits w : Nat) : Option Instr :=
  let u := w % 2 ^ nbits
  match decodeBytes (wordBytes (u % 2 ^ 32) (u / 2 ^ 32 % 2 ^ 64) (u / 2 ^ 96 % 2 ^ 64)) with
  | some (.instr i, _) => some i
  | _ => none

end Sys2Proof
end

