-- ==== Sys2Proof/Config.lean ====
section
/-!
DEFINITION. What is fixed for the part: the figures of the Vusan 8D (spec/01, Table 1-2), and the values the spec leaves
open, each an opaque constant (no body: a claim holds whatever it is). The log entries of notes/assumptions name them.
-/
namespace Sys2Proof.Config

/-- Bytes of LPDDR6: 512 GiB (R15, R29). -/
def lpddr6Bytes : Nat := 512 * 2 ^ 30

/-- Bytes of HBM: 384 GiB, eight stacks of 48 GiB (R15). -/
def hbmBytes : Nat := 384 * 2 ^ 30

/-- Bytes of one HBM stack (R15). -/
def hbmStackBytes : Nat := 48 * 2 ^ 30

/-- Cores that service firmware runs on unless the boot-time mask says otherwise (R22). -/
def defaultServiceMask : List Nat := [0x000, 0x200, 0x400, 0x600, 0xF07]

/-- Default quantum in ns: 2 ms (R372). -/
def defaultQuantum : Nat := 2000000

/-- Default service wait limit in ns: 1 s (R307). -/
def defaultServiceWaitLimit : Nat := 1000000000

/-- Default wait limit of a task and of versioned waits, in ns (R252, R307). -/
def defaultWaitLimit : Nat := 10000000

/-- The device hash of R369. -/
def deviceHash : Word := 0x6D2A91C40B7E53F8#64

/-- Seed value of the stochastic-rounding generator (R84, R89). -/
def srSeedReset : Word := 0x9E3779B97F4A7C15#64

/-- Version-list entries of one LLC slice (R242). -/
def entriesPerSlice : Nat := 262144

/-- The home LLC slice, 0 to 63, of a physical location: the spec gives no formula (log entry 15). -/
opaque homeSlice : Nat → Fin 64

/-- The slice that takes over a location whose own slice is out of service, by the mask of the quadrants in Q-ON; of its quadrant, the place
among those in Q-ON counts (R378; log entry 15). -/
opaque movedHome : Nat → Nat → Fin 64

/-- The 64-bit serial number in the identity fuses (R448, R492; log entry 16). -/
opaque serial : Word

/-- SHA-384 of the ROM as the fuses hold it, 48 bytes (R492; log entry 16). -/
opaque romHash : Nat → Byte

/-- The firmware measurement of step 6, 48 bytes (R488, R492; log entry 16). -/
opaque measurement : Nat → Byte

/-- SHA-384 of a firmware image, 48 bytes (R490, R492; log entry 79). -/
opaque imageHash : List Byte → Nat → Byte

/-- The boot configuration that an image holds: its service mask, one bit per core number, its quantum, its service wait limit and its VSPILL;
the spec gives no layout (R488, R490; log entry 79). -/
opaque imageMask : List Byte → Nat → Bool
/-- The quantum of an image in ns. -/
opaque imageQuantum : List Byte → Nat
/-- The service wait limit of an image in ns. -/
opaque imageWaitLimit : List Byte → Nat
/-- VSPILL of an image. -/
opaque imageVspill : List Byte → Word

/-- The identity public key, 97 bytes (R492; log entry 16). -/
opaque publicKey : Nat → Byte

/-- Byte `k` of the signature over the first 0x110 bytes of a quote (R492; log entry 16). -/
opaque signature : List Byte → Nat → Byte

/-- Whether the partner box accepts a memory request of a tenant at an address of its exported range: the partner's tenant
table is not in this box (R450; log entry 26). -/
opaque bridgeAccepts : Nat → Nat → Bool

/-- Whether a gang of the partner box that is paired with one of this box holds a window key at a TIME: its keys are not in this box (R423;
log entry 103). -/
opaque partnerKey : Nat → BitVec 32 → Bool

/-- Where service firmware keeps the images of a gang, as an LPDDR6 address (Table 15-9, SAVE; log entry 29). -/
opaque saveArea : Nat → Nat

/-- Bellows' factory weights by quadrant and event class (R399; log entry 17). -/
opaque factoryWeight : Nat → Nat → Rat

/-- Static power of a cluster by voltage and temperature (R399; log entry 17). -/
opaque staticPower : Nat → Nat → Nat → Rat

/-- The matrix P that the refit of R399 starts from (log entry 17). -/
opaque initialCovariance : Nat → Nat → Rat

/-- Byte `k` of the 240-byte payload of a bridge flit that carries this content: the spec fixes the header and the CRC, not the
payload's layout (R449; log entry 35). -/
opaque bridgePayload : List Byte → Nat → Byte

/-- The memory request in the payload of a bridge flit: whether it stores, the address, the bytes stored or as many as are read; none
for a payload that holds none. The spec does not give the layout (R449, R450; log entry 35). -/
opaque bridgeRequest : List Byte → Option (Bool × Nat × List Byte)

/-- The slack record in the payload of a control flit: the PARTNER tag of the sender's gang, SSTEP, the busy time B; none for another
payload (R403, R449; log entry 35). -/
opaque bridgeSlack : List Byte → Option (Word × Nat × Nat)

/-- The payload of a link flit asks for a replay (R449; log entry 35). -/
opaque linkReplay : List Byte → Bool

/-- The messages in the payload of a bridge flit: target core, PARTNER tag of the sender's gang, 64 bytes (R449, R450; log
entry 35). -/
opaque bridgeMessages : List Byte → List (Nat × Word × List Byte)

/-- A value the spec does not state, drawn with the counter of State (log entry 4). -/
opaque freeWord : Nat → Word

end Sys2Proof.Config
end

