-- ==== Sys2Proof/Machine/State.lean ====
section
/-!
DEFINITION. The state of the Vusan 8D: everything spec/ gives the machine, as plain data (INVENTORY.md, State).
Sparse tables list only what differs from the reset record of their kind. The parts are: threads, cores, gangs and tasks,
memory, versioned regions, the hub's registers, queues, the host link and bridge, power, errors and traces.
Three fields are the model's own and not the spec's: `agenda` (which agent moves next), `cur` (the thread that issues when
the agenda is empty) and `free` (the counter that values left open are drawn with).
-/
namespace Sys2Proof.Machine

/-! ## Translations and context records -/

/-- A translation held in a TLB (R429): the tag, the mapping, and the stage-2 intermediate page it came through. -/
structure TlbEntry where
  qif : Nat
  pasid : Nat
  mode : Bool
  global : Bool
  page : Nat
  size : Nat
  ipage : Nat
  isize : Nat
  home : Nat
  pa : Nat
  r : Bool
  w : Bool
  x : Bool
  u : Bool
  ca : Nat
  ver : Bool
  dirty : Bool
  vbase : Nat
  vok : Bool
  deriving DecidableEq, Repr

/-- A context record and its list as they were read, once, by MIGR, for the Ladle (R353, R388, R390); `wake` is the wake that the Ladle
waits for (R384). -/
structure Migration where
  record : Word
  tabor : Bool
  width : Nat
  team : Nat
  spmin : Nat
  spmax : Nat
  entry : Word
  image : Word
  args : Word
  argn : Nat
  statusw : Word
  kv : List (Word × Word × Nat × Bool)
  control : Nat
  quadMask : Nat
  wake : Option Nat
  deriving DecidableEq, Repr

/-! ## Threads -/

/-- States of a thread slot (R299, Table 13-2). -/
inductive SlotState where
  | unbound | active | asleep | stopped
  deriving DecidableEq, Repr

/-- Why a thread sleeps: the blocking waits of Table 13-4, the wait of DONE (R127), the command wait of BARW.SS and MIGR
(R334, R354), a serviced page fault (R430) and an atomic held by a replay (R499); `strike` marks an ACTIVE thread whose STRIKE has hit and
waits for what it submitted (R350, R351). -/
inductive WaitWhy where
  | verLoad | verStore | waita | barrier | superstep | clave | slPop | slPush | done | fault | replay | strike
  deriving DecidableEq, Repr

/-- What a sleeping thread waits for: why, since which TIME, the address or key it names, and for a WAITA the
translation-independent place of the word with the value and destination, and the translation it used (R333). -/
structure WaitRec where
  why : WaitWhy
  since : Nat
  addr : Word
  key : Nat
  value : Word
  dest : Nat
  leaf : Option TlbEntry
  deriving DecidableEq, Repr

/-- A deferred trap that waits for an instruction boundary (R460): a matrix-queue DATA_ERROR, or a handback with the
values of EHB0 to EHB7 (R281). -/
structure Deferred where
  isData : Bool
  code : BitVec 8
  eval : Word
  ehb : Vector Word 8
  deriving DecidableEq, Repr

/-- Trap CSRs of a thread (R462, Table 21-3) and EHB0 to EHB7 (R281). PPRIV and PRIV are Booleans: 0b10 and 0b11 never
occur (R124). -/
structure TrapRegs where
  trapped : Bool
  ppriv : Bool
  waitAbandon : Bool
  pwaitKind : BitVec 3
  epc : BitVec 47
  code : BitVec 8
  deferred : Bool
  eval : Word
  etvecEn : Bool
  etvecBase : BitVec 45
  escratch : Word
  ehb : Vector Word 8
  deriving DecidableEq, Repr

/-- TSTATUS as the thread image saves it (R124, R463). -/
structure TStatus where
  apb : Bool
  waiting : Bool
  priv : Bool
  leaseMode : Bool
  waitKind : BitVec 3
  debug : Bool
  deriving DecidableEq, Repr

/-- Address-space CSRs (R422, R428). -/
structure Space where
  qif : BitVec 3
  mode : Bool
  root : BitVec 33
  pasid : BitVec 20
  wkey : BitVec 32
  deriving DecidableEq, Repr

/-- Arithmetic, counter and limit CSRs of a thread. -/
structure Csrs where
  fflags : BitVec 5
  frm : BitVec 3
  srseed : Word
  cycle : Word
  instret : Word
  thresh : BitVec 32
  threshFmt : Bool
  wakeClass : BitVec 2
  wakeMask : BitVec 4
  vwaitlim : BitVec 40
  evcnt : Vector (BitVec 48) 16
  evsel : Vector (BitVec 9) 16
  deriving DecidableEq, Repr

/-- Slot-table CSRs of a thread (R375, Table 15-10) and the command in progress (0 none, 1 to 4; 5 a WRITE whose zeroing
runs, R421); `sawFree`, that the record was FREE when the command was given. -/
structure BindCsrs where
  core : BitVec 12
  slot : BitVec 3
  words : Vector Word 5
  busy : Bool
  err : Bool
  pending : Nat
  sawFree : Bool
  deriving DecidableEq, Repr

/-- The second word of a patch slot unit, fetched with the first: its address, and INSTRET and TRAPPED at that fetch, by which the next
fetch of the thread is told from a later one (R234). -/
structure SlotUnit where
  addr : Word
  word : Nat
  instret : Word
  trapped : Bool
  deriving DecidableEq, Repr

/-- One hardware thread slot. `pc` is held in 64 bits so that a transfer beyond 47 bits faults at its target (R116).
`sense` holds SENSE[0] to SENSE[11] (R310), `apbHandle` the handle recorded with APB (R313), `pause` the core cycles left of
a PAUSE interval (R330), `yielded` the one-turn mark of YIELD (R129), `stopReq` that a gang stop is to be taken at the next
boundary (R321), `phase` the fraction of a core cycle already passed, `migr` what a MIGR that waits has read (R353), `slotUnit` the rest
of the patch slot unit whose first word was fetched last (R234). -/
structure Thread where
  x : Vector Word 32
  v : Vector Vec 16
  m : Vector Word 8
  pc : Word
  slot : SlotState
  status : TStatus
  trap : TrapRegs
  csr : Csrs
  space : Space
  bind : BindCsrs
  sense : BitVec 12
  apbHandle : BitVec 4
  pause : Nat
  yielded : Bool
  wait : Option WaitRec
  deferred : List Deferred
  stopReq : Bool
  phase : Nat
  migr : Option Migration
  slotUnit : Option SlotUnit
  deriving DecidableEq, Repr

/-! ## Cores -/

/-- The operations of a matrix queue (R166). -/
inductive MxOp where
  | tmma (acc : AReg) (ta tb : TReg)
  | taccout (td : TReg) (acc : AReg) (ta tb : TReg) (cb : Nat)
  | taccadd (d s : AReg)
  | tzero (t : TReg)
  | taccz (a : AReg)
  | txch (tp ta : TReg) (h : Bool)
  | tcvt (td ta : TReg)
  deriving DecidableEq, Repr

/-- An entry of a matrix queue: the operation, the enqueuing thread, and what R167 and R168 capture at enqueue: the FRM
value and the generator state that its draws start from. -/
structure MxEntry where
  op : MxOp
  tid : Nat
  frm : BitVec 3
  seed : Word
  deriving DecidableEq, Repr

/-- Descriptors, status and queue of a core's matrix unit (R156 to R160, R166). -/
structure Matrix where
  tdesc : Vector (BitVec 23) 16
  tscl : Vector (BitVec 32) 16
  accd : Vector (BitVec 3) 8
  mxstat : BitVec 6
  queue : List MxEntry
  deriving DecidableEq, Repr

/-- A shape block as read at submission (R276, Table 11-5); `pad` holds its reserved bytes 12 to 15, which R474 saves. -/
structure Shape where
  rowlen : Nat
  n1 : Nat
  n2 : Nat
  sstr1 : Word
  sstr2 : Word
  dstr1 : Word
  dstr2 : Word
  idx : Word
  start : Nat
  pad : Nat
  deriving DecidableEq, Repr

/-- A copy command in a slot (R275 to R282): `user` and `space` are those of the submitting thread, `low` is
the payload offset of the lowest granule not performed, `done` lists those of the granules performed beyond it, `vwait` the
TIME since which a CPYV granule waits for room for its version, by payload offset, `passed` how many turns its engine has given to other
commands since this one's last (R278). -/
structure CopyCmd where
  tid : Nat
  fn : Nat
  user : Bool
  space : Space
  dst : Word
  src : Word
  len : Word
  shape : Option Shape
  hasWord : Bool
  caddr : Word
  cval : Word
  version : Nat
  low : Nat
  done : List Nat
  vwait : SMap Nat
  passed : Nat
  deriving DecidableEq, Repr

/-- A collective command of a core's thread 0 (R287, R288): `fn` 0 reduce, 1 gather, 2 broadcast; `len` X(xn) as submitted, whose
low half is the element count; `root` none for all ranks; `ord` the ordinal n. -/
structure CollCmd where
  tid : Nat
  fn : Nat
  op : CollOp
  fmt : CollFmt
  br : Bool
  len : Word
  root : Option Nat
  user : Bool
  space : Space
  dst : Word
  src : Word
  hasWord : Bool
  caddr : Word
  ord : Nat
  ext : BitVec 32
  deriving DecidableEq, Repr

/-- The stack link as one core sees it (R340 to R346): entries landed on its pop side and in transit to it, its push
credits, credits in transit to it, its counts, and whether the link is DOWN. -/
structure Link where
  fifo : List Vec
  transit : List Vec
  credits : Nat
  creditTransit : Nat
  pushed : BitVec 32
  popped : BitVec 32
  down : Bool
  deriving DecidableEq, Repr

/-- Retention states of a core (R381). -/
inductive CoreState where
  | c0 | c1 | c2 | c3
  deriving DecidableEq, Repr

/-- One core: LMSPLIT (R207), touched bits (R208), window key (R200), inbox words (R283), matrix unit, copy slots,
collective commands and count, stack link, TALLOW and CLKRATIO (R396, R400), retention state, TLB, the last gang bound
(R421), the TIME at which its slots last had one bound, and the parts of 1/640 core cycle for which every slot has been UNBOUND
or ASLEEP (R381). -/
structure Core where
  spmin : Nat
  spmax : Nat
  bound : Nat
  touched : BitVec 16
  key : Option (BitVec 32)
  inboxSize : Nat
  inboxBase : Nat
  inboxHead : BitVec 16
  inboxTail : BitVec 16
  mx : Matrix
  copies : SMap CopyCmd
  colls : List CollCmd
  collCount : Nat
  link : Link
  allow : Nat
  tj : Nat
  ratio : Nat
  cstate : CoreState
  tlb : List TlbEntry
  lastGang : Option Nat
  idleSince : Nat
  quiet : Nat
  deriving DecidableEq, Repr

/-! ## Gangs and tasks -/

/-- A barrier of Carillon (R310, R311): arrival count, generation, number expected, start of its watchdog while that runs. -/
structure Barrier where
  c : Nat
  g : Bool
  n : Nat
  since : Option Nat
  deriving DecidableEq, Repr

/-- Arrival records of handle 0 since its last firing (R495): earliest, latest, sum, count, core of the last arrival, the sums
of the event counters read at arrival; the TIME of the previous firing and the busy time of the last superstep (R403). -/
structure Arrivals where
  first : Nat
  last : Nat
  sum : Nat
  count : Nat
  core : Nat
  events : List Nat
  prevFire : Nat
  busy : Nat
  deriving DecidableEq, Repr

/-- The fields of a launch record that live on with the task (R362, Table 15-6). -/
structure LaunchRec where
  strict : Bool
  bridge : Bool
  tabor : Bool
  prio : Nat
  team : Nat
  spmin : Nat
  spmax : Nat
  gmin : Nat
  gmax : Nat
  textBase : Word
  textLen : Nat
  entry : Word
  seed : Word
  waitLim : Nat
  arenaBase : Word
  arenaLimit : Word
  inboxSize : Nat
  inboxBase : Nat
  wakeq : Option (Nat × Nat)
  barn : List Nat
  partner : Word
  leases : List (Nat × Nat)
  argAddr : Word
  argN : Nat
  patch : List Nat
  deriving DecidableEq, Repr

/-- A bind record of the slot table (R374, Table 15-9), five words. -/
abbrev BindRec := Vector Word 5

/-- What a gang stop keeps of a team beside its images in memory: the records of its threads by slot, collectives beyond those that the
team block has room for (R472), deferred traps of its threads beyond the one that an image holds, by thread index. -/
structure Paused where
  recs : SMap BindRec
  colls : List CollCmd
  deferred : SMap (List Deferred)
  deriving DecidableEq, Repr

/-- Where a task stands (R363 to R372, R320, R390). -/
inductive TaskState where
  | waiting | bound | stopping | saved | debugStopped | migrating | ended
  deriving DecidableEq, Repr

/-- One task and its gang, by gang identifier: where it came from (QIF, queue, index, TAG, flags), its launch record, its
cores by rank (`noCore` for a rank whose team has ended), its barriers 0 to 7, SSTEP and ID_SSTEPBASE, level and times (R370 to R372):
`rises`, the levels it has risen since it last entered waiting, `forTask`, the waiting task it was pre-empted for; debug request (R320), the
completion word (R359), captures that cover it, a status that decides its end, and a migration; `pinning`, that its pages are being
made resident for a bind (R512), `debugHeld`, that it was in a debug stop when a gang stop came (R320, R347), `collCounts`, the collective ordinals by rank while it has no cores (R287). -/
structure Task where
  qif : Nat
  queue : Nat
  index : Nat
  tag : BitVec 16
  crec : Bool
  irq : Bool
  pasid : BitVec 20
  tenant : Nat
  launch : LaunchRec
  cword : Word
  cval : Word
  state : TaskState
  fresh : Bool
  cores : List Nat
  key : BitVec 32
  bars : List Barrier
  sstep : Word
  sstepBase : Word
  level : Nat
  waitSince : Nat
  boundSince : Nat
  rises : Nat
  forTask : Option Nat
  doneCount : Nat
  arrivals : Arrivals
  debugReq : Bool
  capture : Option Nat
  migr : Option Migration
  saveBase : Nat
  savedCores : List Nat
  paused : SMap Paused
  pinning : Bool
  debugHeld : Bool
  collCounts : SMap Nat
  deriving DecidableEq, Repr

/-- A Clave offer (R316): gang, key, kind (0 CLAVE, 1 CLAVEV, 2 CLAVEG), k, payload, destination register; the list holds
offers in the order they reached Carillon. -/
structure Offer where
  tid : Nat
  gid : Nat
  key : BitVec 16
  kind : Nat
  k : Nat
  payload : Vec
  dest : Nat
  deriving DecidableEq, Repr

/-! ## Memory and versions -/

/-- Memory: (key, byte) pairs, keys strictly rising, no zero byte (Machine/Ops.lean). The key of a location is its space
times 2^52 plus its address there: spaces 0 LPDDR6, 1 HBM, 2 host, 3 partner box, 4 core windows (core number times 2^24 plus
offset), 5 island store. -/
abbrev Memory := List Host.Cell

/-- The versions of one granule (R242): live versions with their slots, whether the list is lost (R249), and how many of its entries lie
in the spill area (R243). -/
structure GranList where
  vers : List (Nat × Nat)
  lost : Bool
  spilled : Nat
  deriving DecidableEq, Repr

/-- A versioned region (R237 to R247), by the key of its block: leaf size, tenant tag, floor, whether it holds a region
record, whether that record lies in the spill area, whether it is lost, and its granules by page offset. -/
structure Region where
  size : Nat
  tag : Option Nat
  floor : Nat
  hasRecord : Bool
  spilled : Bool
  lost : Bool
  grans : SMap GranList
  deriving DecidableEq, Repr

/-- An access that waits on a page (R430, R443): by a thread, or an engine command (core, slot). `firmware` for a stage-1
entry with PPN not 0; otherwise a FILE fault with its fault record's SEQ (0 while the record is held). -/
structure PageWait where
  tid : Nat
  engine : Option (Nat × Nat)
  firmware : Bool
  entry : Nat
  qif : Nat
  page : Word
  addr : Word
  acc : Nat
  stage : Bool
  seq : Nat
  since : Nat
  failed : Bool
  deriving DecidableEq, Repr

/-! ## Queues and the host -/

/-- What a held record is: a packet's or a fault's, a POSTED record that still has its Striker place (tenant, SEQ), a DONE record
(R386, R387). -/
inductive HeldKind where
  | packet
  | fault
  | posted (tenant : Nat) (seq : Nat)
  | done
  deriving DecidableEq, Repr

/-- A record that waits for room in a completion or fault ring (R438, R515): its four words, the vector that follows, what it is. -/
structure HeldRec where
  words : List Word
  irq : Bool
  kind : HeldKind
  deriving DecidableEq, Repr

/-- A packet that has started and waits: a WAITQ that watches its word (R358), or any that waits on a serviced fault (R443, R514): its
index, its 64 bytes, and the TIME at which it started; of a LAUNCH also the gang number it has taken, which is its place in packet order
(R370), and what it has read: the launch record and then the code-body header (R363). -/
structure Watch where
  index : Nat
  pkt : List Byte
  since : Nat
  gid : Nat
  read : List Byte
  deriving DecidableEq, Repr

/-- What service firmware keeps for a queue beside its descriptor (R355 to R361): the next index to start, packets
started and not completed, completed flags at and after HEAD, PASS counts by index, open held regions, a forward jump's
target, the packets that wait, records held, the capture open on the queue. -/
structure Queue where
  next : Nat
  running : List Nat
  finished : List Nat
  passes : SMap Nat
  held : List Nat
  skipTo : Option Nat
  watch : List Watch
  pend : List HeldRec
  capture : Option Nat
  deriving DecidableEq, Repr

/-- What service firmware keeps for a QIF: the next fault SEQ, held fault records, a reset in progress. -/
structure Qif where
  seq : Nat
  pend : List HeldRec
  resetting : Bool
  deriving DecidableEq, Repr

/-- A trace capture (R494, R495, R498, R499): queue, set, buffer (address and size, the QIF and PASID it is translated under),
bytes used, records dropped, the Rudiment runs not yet written (slice, entries), the replay's entries (slice, TAG, REQ, left),
whether replay has ended, and the records that wait for the quadrant of their place to come up (R378). -/
structure Capture where
  qif : Nat
  queue : Nat
  set : Nat
  pasid : BitVec 20
  buffer : Word
  size : Nat
  used : Nat
  dropped : Nat
  runs : List (Nat × Nat × Nat × Nat)
  replay : List (Nat × Nat × Nat × Nat)
  replayOff : Bool
  waits : List (List Byte)
  deriving DecidableEq, Repr

/-- A task that has ended and whose completion is still to be made (R359): its packet, the words to write first (address, value, whether it
is the completion word), whether the completion word has failed, and what the record reports. -/
structure Ending where
  gid : Nat
  qif : Nat
  queue : Nat
  index : Nat
  tag : Nat
  pasid : Nat
  crec : Bool
  irq : Bool
  stores : List (Word × Word × Bool)
  failed : Option Word
  status : Nat
  sub : Nat
  value : Word
  deriving DecidableEq, Repr

/-- A port of the Vusan Bridge (R448, R449): up, the partner's serial, next SEQ to send and last SEQ received, flits not
acknowledged, flits that wait for room among those 512, consecutive discards, TIME of the last success, retraining. -/
structure Port where
  up : Bool
  serial : Word
  txSeq : Nat
  rxSeq : Nat
  replay : List (List Byte)
  waiting : List (List Byte)
  discards : Nat
  lastGood : Nat
  retraining : Bool
  deriving DecidableEq, Repr

/-! ## Power, errors and start-up -/

/-- Power state of a quadrant (R377); RISING and FALLING carry where the move leads and from where it began. -/
inductive QuadState where
  | on | ret | gate | off
  | rising (src dst : Nat) (wake : Bool)
  | falling (src dst : Nat)
  deriving DecidableEq, Repr

/-- A quadrant: state, QPWR.FLOOR, dark or shut down for heat, and whether its lowest service core has issued an instruction since
it last came up to Q-ON (R382). -/
structure Quad where
  st : QuadState
  floor : Nat
  dark : Bool
  hot : Bool
  awake : Bool
  deriving DecidableEq, Repr

/-- A wake in progress (R382, R384): quadrants, class, TIME of the request, the STRIKE it came from. -/
structure Wake where
  id : Nat
  mask : Nat
  cls : Nat
  request : Nat
  strike : Option (Nat × Nat × Nat)
  failed : Bool
  deriving DecidableEq, Repr

/-- A record in a Striker place (R386, R387): SEQ, core, score, FMT, CLASS, QMASK, TIME, the WAKEQ (QIF, queue), and whether service
firmware has taken it and waits to write it. -/
structure StrikeRec where
  seq : Nat
  core : Nat
  score : BitVec 32
  fmt : Bool
  cls : Nat
  mask : Nat
  time : Nat
  wakeq : Option (Nat × Nat)
  taken : Bool
  deriving DecidableEq, Repr

/-- A voltage domain (R392, R393, R483, R487): powered, dark, failed phases, the ramp in progress with its start, waiting
for neighbours since, stretched until, live voltage minimum with its TIME, whether its draw last stood above 85 % of its limit,
corrected errors of the present second. -/
structure Domain where
  powered : Bool
  dark : Bool
  failed : List Nat
  rampFrom : Option Nat
  waitFrom : Option Nat
  stretchTo : Nat
  vmin : Nat
  vminTime : Nat
  heavy : Bool
  corrected : Nat
  deriving DecidableEq, Repr

/-- Cooling as the board reports it (R395): medium 0 none, 1 air, 2 cold plate, 3 immersion; inlet in degrees C; flow in
0.1 L/min (air: 1 for a valid report); whether the fallback row applies and since when readings are in range; `flawed`, that it applies for a
low flow or a silent sensor, and so until readings have been in range for 10 s. -/
structure Cooling where
  medium : Nat
  inlet : Int
  flow : Nat
  fallback : Bool
  goodSince : Option Nat
  lastReport : Nat
  flawed : Bool
  deriving DecidableEq, Repr

/-- Bellows and the power controllers (R377 to R403): among them `want`, the clock ratio requested for a cluster until the handshake
of R401 applies it, `gatedTo`, until when a change of Tabor's mode gates its clocks, `throttled`, the clusters lowered by R398,
`lastChange`, the TIME of a cluster's last step, `counts`, the event counts of the present second by quadrant and class, `tready`, the
stretches of TIME of the last 10 ms in which a Tabor thread was ready (R380), `amps` and `watts`, the last readings of domain currents
and of package power, `calmSince`, since when every reading stands below 95 % of its limit, `urgent`, the clusters whose ratio a
current above its limit asked for (R398, R402), `hbmHold`, the stacks whose response to 95 degrees is not released (R397), `ceLast`, the TIME
of the last CE_SUMMARY records (R479), `patrol`, the next word that patrol reads of LPDDR6 (0), of an HBM stack (1 plus its number) and of
an LLC slice (16 plus its number) (R481). -/
structure Power where
  quads : Vector Quad 4
  misses : Nat
  wakes : List Wake
  nextWake : Nat
  tnt : Bool
  selfRefresh : Bool
  lpddrLast : Nat
  domains : SMap Domain
  switchQueue : List Nat
  cooling : Cooling
  hbmTemp : SMap Int
  hbmDouble : SMap Bool
  hbmStep : SMap Nat
  weights : SMap Rat
  covar : SMap Rat
  counts : SMap Nat
  estimate : SMap Rat
  throttled : List Nat
  lastChange : SMap Nat
  want : SMap Nat
  gatedTo : Nat
  tready : SMap (List (Nat × Nat))
  amps : SMap Rat
  watts : Rat
  calmSince : Option Nat
  urgent : List Nat
  hbmHold : List Nat
  ceLast : Nat
  patrol : SMap Nat
  deriving DecidableEq, Repr

/-- Slack control of a gang across the bridge (R403): the superstep of the last change, the busy times B of its own supersteps and of
the partner's, by SSTEP, that no decision has used yet. -/
structure Slack where
  last : Option Nat
  own : List (Nat × Nat)
  peer : List (Nat × Nat)
  deriving DecidableEq, Repr

/-- The Striker's places of a tenant and its next sequence number (R351, R386). -/
structure Striker where
  places : List StrikeRec
  next : Nat
  deriving DecidableEq, Repr

/-- Boot configuration as the signed image holds it (R488). -/
structure BootCfg where
  mask : List Nat
  quantum : Nat
  waitLim : Nat
  vspill : Word
  deriving DecidableEq, Repr

/-- A firmware image as far as the device shows it (R488, R490, R492): its boot configuration, its SHA-384, none for the image that the board's
flash holds at first (whose measurement is a value of the part), and whether its signature holds. -/
structure Image where
  cfg : BootCfg
  sum : Option (List Byte)
  good : Bool
  deriving DecidableEq, Repr

/-- Start-up and recovery (R486, R488 to R490): the last start's kind, failed starts, last failed step, recovery loader
running, the mailbox's STATE and whether its command writes the flash, always-on power, FATAL stop, a quote in progress
(R492), the boot configuration in force, the image whose measurement the always-on domain retains, the image in the board's flash, and the TIME
at which the last start was complete. -/
structure Boot where
  kind : Nat
  fails : Nat
  lastStep : Nat
  recovery : Bool
  mailbox : Nat
  toFlash : Bool
  alive : Bool
  fatal : Bool
  quote : Option Word
  cfg : BootCfg
  sum : Option (List Byte)
  flash : Image
  since : Nat
  deriving DecidableEq, Repr

/-- What an MSI-X message carried when it left the device (R444): table index, address, data. -/
structure Msi where
  entry : Nat
  addr : Word
  data : BitVec 32
  deriving DecidableEq, Repr

/-! ## The whole machine -/

/-- A turn of the agenda: a thread's next instruction boundary, an event of the part, time passing in ns, a TLB entry replaced by the
hardware (R429), a soft error in the 8-byte word of memory or of a register file at a key: corrected, or uncorrectable (R479,
R480), one corrected in an array of a domain that has no key (TLBs, caches, version lists, queue state), or one that leaves a granule's version
list or a region record uncorrectable (R249); readings of domain currents in A and of
package power in W (R398); a host write of 4 bytes to BAR0 (R434); host software writing its own memory (R233). -/
inductive Turn where
  | thread (tid : Nat)
  | event (i : Instr)
  | tick (ns : Nat)
  | tlbDrop (core : Nat) (n : Nat)
  | upset (key : Nat) (double : Bool)
  | corrected (domain : Nat)
  | upsetVer (region : Nat) (gran : Option Nat)
  | shunts (amps : SMap Rat) (watts : Rat)
  | hostWrite4 (off v : Nat)
  | hostMemory (addr : Nat) (data : List Byte)
  deriving DecidableEq, Repr

/-- The machine. -/
structure State where
  agenda : List Turn
  cur : Nat
  free : Nat
  time : Nat
  threads : SMap Thread
  cores : SMap Core
  tasks : SMap Task
  teamBars : SMap Barrier
  offers : List Offer
  nextGang : Nat
  nextKey : BitVec 32
  binds : SMap BindRec
  mem : Memory
  bad : List Nat
  wc : List (Nat × Nat × Byte × Nat)
  regions : SMap Region
  drops : List Nat
  vspill : Word
  clusterTlbs : SMap (List TlbEntry)
  rounds : SMap Nat
  pageWaits : List PageWait
  ends : List Ending
  hostWaits : List (Bool × Nat × List Byte)
  hub : SMap Word
  queues : SMap Queue
  qifs : SMap Qif
  captures : SMap Capture
  msi : List Msi
  ports : SMap Port
  sent : List (List Byte)
  bridgeBox : Nat
  slack : SMap Slack
  power : Power
  striker : SMap Striker
  boot : Boot
  deriving DecidableEq, Repr

/-! ## Reset records -/

/-- A thread slot as a cold start leaves it: the reset columns of the CSR tables; x, v, m and pc at 0 (log entry 10). -/
def Thread.init : Thread where
  x := Vector.replicate 32 0
  v := Vector.replicate 16 0
  m := Vector.replicate 8 0
  pc := 0
  slot := .unbound
  status := ⟨false, false, false, false, 0, false⟩
  trap := ⟨false, false, false, 0, 0, 0, false, 0, false, 0, 0, Vector.replicate 8 0⟩
  csr := ⟨0, 0, Config.srSeedReset, 0, 0, 0x7FFFFFFF#32, false, 2#2, 0, 10000000#40,
    Vector.replicate 16 0, Vector.replicate 16 0⟩
  space := ⟨0, true, 0, 0, 0⟩
  bind := ⟨0, 0, Vector.replicate 5 0, false, false, 0, false⟩
  sense := 0
  apbHandle := 0
  pause := 0
  yielded := false
  wait := none
  deferred := []
  stopReq := false
  phase := 0
  migr := none
  slotUnit := none

/-- A core as a cold start leaves it (Tables 6-3 to 6-6, 8-4, 11-7, 14-4, 16-12, 16-14). -/
def Core.init : Core where
  spmin := 1
  spmax := 1
  bound := 1
  touched := 0
  key := none
  inboxSize := 0
  inboxBase := 0
  inboxHead := 0
  inboxTail := 0
  mx := ⟨Vector.replicate 16 0, Vector.replicate 16 0x3F800000#32, Vector.replicate 8 0, 0, []⟩
  copies := []
  colls := []
  collCount := 0
  link := ⟨[], [], 16, 0, 0, 0, false⟩
  allow := 1024
  tj := 0
  ratio := 32
  cstate := .c1
  tlb := []
  lastGang := none
  idleSince := 0
  quiet := 0

/-- A barrier that is not declared (R309, R310). -/
def Barrier.init : Barrier := ⟨0, false, 0, none⟩

/-- No arrival since a firing at `t`. -/
def Arrivals.init (t busy : Nat) : Arrivals := ⟨0, 0, 0, 0, 0, [], t, busy⟩

/-- A queue with nothing started. -/
def Queue.init : Queue := ⟨0, [], [], [], [], none, [], [], none⟩

/-- A QIF with no fault posted; SEQ starts at 1 (R442). -/
def Qif.init : Qif := ⟨1, [], false⟩

/-- A bridge port before link-up. -/
def Port.init : Port := ⟨false, 0, 0, 4095, [], [], 0, 0, false⟩

/-- A quadrant in Q-ON with FLOOR 0b11 (Table 16-2). -/
def Quad.init : Quad := ⟨.on, 3, false, false, true⟩

/-- A powered domain with no failed phase and no minimum logged (Table 22-6). -/
def Domain.init : Domain := ⟨true, false, [], none, none, 0, 0xFFFF, 0, false, 0⟩

/-- A granule that holds no version. -/
def GranList.init : GranList := ⟨[], false, 0⟩

/-- A region that holds no version and has floor 0. -/
def Region.init : Region := ⟨16384, none, 0, false, false, false, []⟩

/-- A tenant with no record pending; sequence numbers start at 1 (R351). -/
def Striker.init : Striker := ⟨[], 1⟩

/-- A gang with no superstep recorded (R403). -/
def Slack.init : Slack := ⟨none, [], []⟩

/-- The default boot configuration (R22, R307, R372). -/
def BootCfg.init : BootCfg :=
  ⟨Config.defaultServiceMask, Config.defaultQuantum, Config.defaultServiceWaitLimit, 0⟩

/-- Bellows at reset: every quadrant in Q-ON, no cooling report yet, so the fallback row (R395). -/
def Power.init : Power where
  quads := Vector.replicate 4 Quad.init
  misses := 0
  wakes := []
  nextWake := 0
  tnt := false
  selfRefresh := false
  lpddrLast := 0
  domains := []
  switchQueue := []
  cooling := ⟨0, 0, 0, true, none, 0, false⟩
  hbmTemp := []
  hbmDouble := []
  hbmStep := []
  weights := []
  covar := []
  counts := []
  estimate := []
  throttled := []
  lastChange := []
  want := []
  gatedTo := 0
  tready := []
  amps := []
  watts := 0
  calmSince := none
  urgent := []
  hbmHold := []
  ceLast := 0
  patrol := []

/-- A service thread as the start sequence leaves it (R488 steps 8 and 9; log entry 12): slot 0 of a service core, bound and
ACTIVE in supervisor mode. -/
def Thread.service : Thread :=
  { Thread.init with slot := .active, status := ⟨false, false, true, false, 0, false⟩ }

/-- A core with an ACTIVE slot (R381). -/
def Core.running : Core := { Core.init with cstate := .c0 }

/-- The bind record of a service thread: RELEASED, naming no task (R510; log entry 12). -/
def BindRec.service : BindRec := ⟨#[2#64, 0, 0, 0, 0], rfl⟩

/-- The machine right after a cold start has completed (Table 22-7): the service cores of the default mask run scheduling
firmware in slot 0, BAR0 is open with every register at its reset value, nothing else is bound, memory lists nothing. -/
def State.reset : State where
  agenda := []
  cur := 0xF07 * 8
  free := 0
  time := 0
  threads := Config.defaultServiceMask.map fun c => (c * 8, Thread.service)
  cores := Config.defaultServiceMask.map fun c => (c, Core.running)
  tasks := []
  teamBars := []
  offers := []
  nextGang := 1
  nextKey := 1
  binds := Config.defaultServiceMask.map fun c => (c * 8, BindRec.service)
  mem := []
  bad := []
  wc := []
  regions := []
  drops := []
  vspill := 0
  clusterTlbs := []
  rounds := []
  pageWaits := []
  ends := []
  hostWaits := []
  hub := []
  queues := []
  qifs := []
  captures := []
  msi := []
  ports := []
  sent := []
  bridgeBox := 0
  slack := []
  power := Power.init
  striker := []
  boot := ⟨0, 0, 0, false, 1, false, true, false, none, BootCfg.init, none, ⟨BootCfg.init, none, true⟩, 0⟩

/-! ## Outcomes that stop the machine -/

/-- Faults of the machine. The device reports everything else by traps and records, which are next states. -/
inductive Fault where
  /-- Raised by `step` alone, when a FATAL record has stopped the device (R486) and the agenda is empty: nothing moves until
  a warm or cold start. Safe: the device itself is stopped. -/
  | fatalStop
  deriving DecidableEq, Repr

/-- Refusals. -/
inductive Refusal where
  /-- Raised by an arm of Dispatch whose instruction has no meaning yet. Safe. -/
  | notModelled (mnemonic : String)
  deriving DecidableEq, Repr

end Sys2Proof.Machine
end

