-- ==== Sys2Proof/Machine/Mem.lean ====
section
/-!
DEFINITION. Memory: bytes by key in canonical form, words known bad (spec/22, R482), and the plain accessors of threads,
cores, tasks and tables that every other file goes through.
-/
namespace Sys2Proof.Machine

/-! ## Bytes by key -/

/-- The byte at a key; a key not listed reads 0 (log entry 11). -/
def Memory.get : Memory → Nat → Byte
  | [], _ => 0
  | (k, b) :: r, i => if k = i then b else Memory.get r i

/-- Cells of consecutive bytes from a key on; a zero byte has none. -/
def cellsOf (i : Nat) : List Byte → Memory
  | [] => []
  | b :: r => if b = 0 then cellsOf (i + 1) r else (i, b) :: cellsOf (i + 1) r

/-- Write consecutive bytes from a key on, in canonical form: the cells below, the new ones, the cells above. -/
def Memory.putBytes (m : Memory) (i : Nat) (bs : List Byte) : Memory :=
  m.filter (fun c => c.1 < i) ++ (cellsOf i bs ++ m.filter fun c => i + bs.length ≤ c.1)

/-- Write one byte. -/
def Memory.put (m : Memory) (i : Nat) (b : Byte) : Memory := m.putBytes i [b]

/-- Read `n` consecutive bytes from a key on. -/
def Memory.getBytes (m : Memory) (i : Nat) : Nat → List Byte
  | 0 => []
  | n + 1 => m.get i :: Memory.getBytes m (i + 1) n

/-- Copy `n` bytes from a key to another; the ranges do not overlap. -/
def Memory.move (m : Memory) (src dst n : Nat) : Memory :=
  m.filter (fun c => c.1 < dst) ++
    (((m.filter fun c => decide (src ≤ c.1) && decide (c.1 < src + n)).map fun c => (c.1 - src + dst, c.2)) ++
      m.filter fun c => dst + n ≤ c.1)

/-- Make `n` bytes from a key on read zero. -/
def Memory.clear (m : Memory) (i n : Nat) : Memory := m.filter fun c => c.1 < i || i + n ≤ c.1

/-- The number in `n` bytes from a key on (R6). -/
def Memory.num (m : Memory) (i n : Nat) : Nat := ofBytes (m.getBytes i n)

/-- The same for long ranges, summed over the cells listed. -/
def Memory.longNum (m : Memory) (i n : Nat) : Nat :=
  (m.filter fun c => decide (i ≤ c.1) && decide (c.1 < i + n)).foldl (fun a c => a + c.2.toNat * 256 ^ (c.1 - i)) 0

/-- Keys strictly rising from above `lo`, no zero byte. -/
def Memory.wfFrom : Option Nat → Memory → Bool
  | _, [] => true
  | lo, (k, b) :: r => (match lo with | none => true | some l => l < k) && b != 0 && Memory.wfFrom (some k) r

/-- The canonical form of memory. -/
def Memory.wf (m : Memory) : Bool := Memory.wfFrom none m

/-! ## Keys -/

/-- The key of an address in a space: 0 LPDDR6, 1 HBM, 2 host, 3 partner box, 4 core windows, 5 island store. -/
def keyOf (space addr : Nat) : Nat := space * 2 ^ 52 + addr

/-- The key of an offset in a core's window (LM, tile file, scale areas, accumulators: R198). -/
def winKey (core off : Nat) : Nat := keyOf 4 (core * 2 ^ 24 + off)

/-- The key of a byte of the island store (R198). -/
def storeKey (n : Nat) : Nat := keyOf 5 n

/-- The key of a versioned region: the key of its physical block, the log2 size of its leaf, its tenant tag (R238, R241). The tag of the
island version block is state of its own, so its key holds 0 there. -/
def regionKey (base size tag : Nat) : Nat := (base * 64 + size) * 256 + tag

/-- The island version block (R240). -/
def islandRegion : Nat := regionKey (storeKey 0x5E0000) 14 0

/-- Key of byte `b` of row `i` of tile `t` (R153, Table 6-1). -/
def tileKey (core t i b : Nat) : Nat := winKey core (0x100000 + 4096 * t + 256 * i + b)

/-- Key of byte `b` of the scale area of tile `t` (R153). -/
def scaleKey (core t b : Nat) : Nat := winKey core (0x110000 + 256 * t + b)

/-- Key of element [i][j] of accumulator `n` (R153). -/
def accKey (core n i j : Nat) : Nat := winKey core (0x120000 + 1024 * n + 64 * i + 4 * j)

/-- The key under which word `n` of a thread's register file is known bad (R480), the words numbered as Table 21-7 numbers them: x0 to
x31, the eight words of v0 to v15, m0 to m7. Scalar and vector words lie at their window (Table 8-2); masks have no window, and
lie beyond it. -/
def regKey (tid n : Nat) : Nat :=
  winKey (tid / 8) (if n < 32 then 0x140000 + 256 * (tid % 8) + 8 * n
    else if n < 160 then 0x130000 + 1024 * (tid % 8) + 8 * (n - 32) else 0x148000 + 64 * (tid % 8) + 8 * (n - 160))

/-- Bad words of a thread's register file. -/
def badRegs (bad : List Nat) (tid : Nat) : List Nat := if bad.isEmpty then [] else (countFrom 0 168).filter fun n => bad.contains (regKey tid n / 8)

/-- Words of scalar register `n` of a register file: x0 is no storage. -/
def xregWords (n : Nat) : List Nat := if n = 0 then [] else [n]
/-- Words of vector register `n`. -/
def vregWords (n : Nat) : List Nat := countFrom (32 + 8 * n) 8

/-- Words of a thread's register file that have been written are good again: the file and its mirror are written together (R480). -/
def State.healRegs (s : State) (tid : Nat) (l : List Nat) : State :=
  if s.bad.isEmpty then s else { s with bad := s.bad.filter fun b => !l.any fun n => regKey tid n / 8 == b }

/-! ## Bad words (R482) -/

/-- The 8-byte words that `n` bytes from key `k` on touch. -/
def wordsOf (k n : Nat) : List Nat := if n = 0 then [] else countFrom (k / 8) ((k + n - 1) / 8 - k / 8 + 1)

/-- The lowest bad word among those touched, as a byte key. -/
def badIn (bad : List Nat) (k n : Nat) : Option Nat :=
  match (wordsOf k n).find? (fun w => bad.contains w) with
  | some w => some (8 * w)
  | none => none

/-- The lowest bad word that a store of these bytes would cover only in part. -/
def badPart (bad : List Nat) (k n : Nat) : Option Nat :=
  match (wordsOf k n).find? (fun w => bad.contains w && !(k ≤ 8 * w && 8 * w + 8 ≤ k + n)) with
  | some w => some (8 * w)
  | none => none

/-- Words wholly covered by a store are good again. -/
def heal (bad : List Nat) (k n : Nat) : List Nat := bad.filter fun w => !(k ≤ 8 * w && 8 * w + 8 ≤ k + n)

/-- Bad words that a store covers wholly, as byte keys: it replaces them (Table 22-4). -/
def badWhole (bad : List Nat) (k n : Nat) : List Nat :=
  if bad.isEmpty then [] else ((wordsOf k n).filter fun w => bad.contains w && (k ≤ 8 * w && 8 * w + 8 ≤ k + n)).map fun w => 8 * w

/-- Words all of whose bytes are written, each by itself, are good again. -/
def healKeys (bad keys : List Nat) : List Nat := bad.filter fun w => !((countFrom (8 * w) 8).all keys.contains)

/-! ## Parts of the state -/

/-- A thread slot. -/
def State.thr (s : State) (tid : Nat) : Thread := s.threads.get Thread.init tid

/-- Put a thread slot. -/
def State.setThr (s : State) (tid : Nat) (t : Thread) : State := { s with threads := s.threads.set tid t }

/-- Change a thread slot. -/
def State.modThr (s : State) (tid : Nat) (f : Thread → Thread) : State := s.setThr tid (f (s.thr tid))

/-- The thread whose turn it is. -/
def State.me (s : State) : Thread := s.thr s.cur

/-- Change the thread whose turn it is. -/
def State.modMe (s : State) (f : Thread → Thread) : State := s.modThr s.cur f

/-- Core number of a thread. -/
def coreOf (tid : Nat) : Nat := tid / 8

/-- Slot of a thread on its core. -/
def slotOf (tid : Nat) : Nat := tid % 8

/-- A core. -/
def State.core (s : State) (c : Nat) : Core := s.cores.get Core.init c

/-- Put a core. -/
def State.setCore (s : State) (c : Nat) (k : Core) : State := { s with cores := s.cores.set c k }

/-- Change a core. -/
def State.modCore (s : State) (c : Nat) (f : Core → Core) : State := s.setCore c (f (s.core c))

/-- The core of the thread whose turn it is. -/
def State.myCore (s : State) : Nat := coreOf s.cur

/-- Change a task that exists. -/
def State.modTask (s : State) (g : Nat) (f : Task → Task) : State :=
  match s.tasks.find g with
  | some t => { s with tasks := s.tasks.set g (f t) }
  | none => s

/-- A bind record; FREE with every field 0 where none is listed. -/
def State.bind (s : State) (tid : Nat) : BindRec := s.binds.get (Vector.replicate 5 0) tid

/-- Assigned core numbers (R19, Table 1-4). -/
def isCore (c : Nat) : Bool := decide (c < 0x800) || (decide (0xF00 ≤ c) && decide (c < 0xF08))

/-- Tabor cores (R19). -/
def isTabor (c : Nat) : Bool := decide (0xF00 ≤ c)

/-- Quadrant of a Cupola core: bits [10:9] (R19). -/
def quadOf (c : Nat) : Nat := c / 512 % 4

/-- Cluster of a core: quadrant, layer and cluster on Cupola, 128 for the Tabor island (R19, R217). -/
def clusterOf (c : Nat) : Nat := if isTabor c then 128 else c / 16

/-- The partner of a core: its bonded core, or Tabor core c xor 4 (R21, R187, R340). -/
def partnerOf (c : Nat) : Nat := if isTabor c then c ^^^ 4 else c ^^^ 0x100

/-- No core: what stands in a gang's list of cores for a rank whose team has ended (R128). -/
def noCore : Nat := 0xE00

/-- The cores that a gang holds. -/
def Task.held (t : Task) : List Nat := t.cores.filter (· != noCore)

/-- Those cores with their ranks. -/
def Task.ranks (t : Task) : List (Nat × Nat) := (t.cores.zip (countFrom 0 t.cores.length)).filter fun p => p.1 != noCore

/-- Cores of an island. -/
def islandCores (tabor : Bool) : List Nat := if tabor then countFrom 0xF00 8 else countFrom 0 2048

/-- Service cores (R22, R373). -/
def State.isService (s : State) (c : Nat) : Bool := s.boot.cfg.mask.contains c

/-- STATE of a bind record: 0 FREE, 1 PARKED, 2 RELEASED, 3 STOPPING (Table 15-9). -/
def BindRec.st (b : BindRec) : Nat := b[0].field 0 2
/-- TIDX. -/
def BindRec.tidx (b : BindRec) : Nat := b[0].field 3 3
/-- TSIZE + 1. -/
def BindRec.team (b : BindRec) : Nat := b[0].field 6 3 + 1
/-- TENANT. -/
def BindRec.tenant (b : BindRec) : Nat := b[0].field 12 8
/-- PASID. -/
def BindRec.pasid (b : BindRec) : Nat := b[0].field 20 20
/-- QIF. -/
def BindRec.qif (b : BindRec) : Nat := b[0].field 40 3
/-- GANG. -/
def BindRec.gang (b : BindRec) : Nat := b[1].field 0 32
/-- GRANK. -/
def BindRec.grank (b : BindRec) : Nat := b[1].field 32 11
/-- GSIZE. -/
def BindRec.gsize (b : BindRec) : Nat := b[1].field 43 12

/-- Set STATE of a bind record. -/
def BindRec.setSt (b : BindRec) (n : Nat) : BindRec :=
  b.set 0 (BitVec.ofNat 64 (b[0].toNat - b[0].toNat % 4 + n))

/-- The gang a thread is bound to; none on a service core or an unbound slot (R122, R509). -/
def State.gangOf (s : State) (tid : Nat) : Option Nat :=
  if s.isService (coreOf tid) || (s.bind tid).st < 2 then none
  else if (s.tasks.find (s.bind tid).gang).isSome then some (s.bind tid).gang else none

/-- The task a thread is bound to. -/
def State.taskOf (s : State) (tid : Nat) : Option Task :=
  match s.gangOf tid with
  | some g => s.tasks.find g
  | none => none

/-- Threads of a gang: every slot whose record is RELEASED or STOPPING and names it. -/
def State.gangThreads (s : State) (g : Nat) : List Nat :=
  s.binds.keys.filter fun tid => decide (2 ≤ (s.bind tid).st) && (s.bind tid).gang == g && !s.isService (coreOf tid)

/-- Threads of a gang on one core, the team of R296. -/
def State.team (s : State) (g c : Nat) : List Nat := (s.gangThreads g).filter fun tid => coreOf tid == c

/-- A core is bound when a record of it is RELEASED or STOPPING (R206). -/
def State.coreBound (s : State) (c : Nat) : Bool :=
  (countFrom (8 * c) 8).any fun tid => decide (2 ≤ (s.bind tid).st)

/-! ## Registers (R31, R34, R35) -/

/-- X(i): x0 reads zero. -/
def State.getX (s : State) (r : XReg) : Word := if r = 0 then 0 else s.me.x.get r

/-- X(i) := w: a write to x0 is discarded. -/
def State.setX (s : State) (r : XReg) (w : Word) : State :=
  if r = 0 then s else s.modMe fun t => { t with x := t.x.set r.val w r.isLt }

/-- A scalar register named by a 4-bit field (R46). -/
def lreg (r : LReg) : XReg := ⟨r.val, Nat.lt_trans r.isLt (by decide)⟩

/-- V(i). -/
def State.getV (s : State) (r : VReg) : Vec := s.me.v.get r

/-- V(i) := w. -/
def State.setV (s : State) (r : VReg) (w : Vec) : State :=
  s.modMe fun t => { t with v := t.v.set r.val w r.isLt }

/-- M(i) as a data operand. -/
def State.getM (s : State) (r : MReg) : Word := s.me.m.get r

/-- M(i) := w. -/
def State.setM (s : State) (r : MReg) (w : Word) : State :=
  s.modMe fun t => { t with m := t.m.set r.val w r.isLt }

/-- M used as a mask field: all ones for code 0 (R34). -/
def State.mask (s : State) (r : MReg) : Word := if r = 0 then BitVec.allOnes 64 else s.getM r

/-- Byte lane `i` of a mask is active. -/
def maskBit (m : Word) (i : Nat) : Bool := m.getLsbD i

/-! ## Counters and retirement (R123, R493) -/

/-- Counter `i` selects an event in the thread's present mode (R493). -/
def Thread.counts (t : Thread) (code : Nat) (i : Fin 16) : Bool :=
  (t.csr.evsel.get i).toNat % 256 == code && code != 0 &&
    (!t.status.priv || (t.csr.evsel.get i).getLsbD 8)

/-- A 48-bit saturating counter plus `n`. -/
def countUp (c : BitVec 48) (n : Nat) : BitVec 48 := BitVec.ofNat 48 (min (c.toNat + n) (2 ^ 48 - 1))

/-- The thread's counters after an event: every counter that selects it adds `n`, saturating; supervisor time counts with SUP
(R493). -/
def Thread.counted (t : Thread) (code n : Nat) : Vector (BitVec 48) 16 :=
  Vector.ofFn fun i => if t.counts code i then countUp (t.csr.evcnt.get i) n else t.csr.evcnt.get i

/-- Count an event. -/
def Thread.count (t : Thread) (code n : Nat) : Thread := { t with csr := { t.csr with evcnt := t.counted code n } }

/-- An instruction of `n` bytes retires: the PC advances, INSTRET counts it, a wait that it ended is over. -/
def Thread.retire (t : Thread) (n : Nat) : Thread :=
  { t with
    pc := t.pc + BitVec.ofNat 64 n
    csr := { t.csr with evcnt := t.counted 2 1, instret := t.csr.instret + 1 }
    slot := .active
    wait := none
    yielded := false
    status := { t.status with waiting := false } }

/-- Retire the instruction of the thread whose turn it is. -/
def State.retire (s : State) (n : Nat) : State := s.modMe (·.retire n)

/-- Draw a free value: a value the spec does not state (log entry 4). -/
def State.drawFree (s : State) : Word × State := (Config.freeWord s.free, { s with free := s.free + 1 })

end Sys2Proof.Machine
end

