-- ==== Sys2Proof/Machine/Float.lean ====
section
/-!
DEFINITION. Number formats, exact values and the one rounding procedure RND (spec/03, R73 to R94), with the special cases of
scalar arithmetic (spec/05, Tables 5-2, 5-3, 5-6).
-/
namespace Sys2Proof.Machine

/-! ## Formats and values -/

/-- What the top codes of a format stand for (Table 3-2). -/
inductive Tops where
  | ieee | e4m3 | finite
  deriving DecidableEq, Repr

/-- A floating-point format: exponent bits, mantissa bits, top codes (Table 3-2). -/
structure Fmt where
  eb : Nat
  mb : Nat
  tops : Tops
  deriving DecidableEq, Repr

def Fmt.f64 : Fmt := ⟨11, 52, .ieee⟩
def Fmt.f32 : Fmt := ⟨8, 23, .ieee⟩
def Fmt.f16 : Fmt := ⟨5, 10, .ieee⟩
def Fmt.bf16 : Fmt := ⟨8, 7, .ieee⟩
def Fmt.e5m2 : Fmt := ⟨5, 2, .ieee⟩
def Fmt.e4m3 : Fmt := ⟨4, 3, .e4m3⟩
def Fmt.e3m2 : Fmt := ⟨3, 2, .finite⟩
def Fmt.e2m3 : Fmt := ⟨2, 3, .finite⟩
def Fmt.e2m1 : Fmt := ⟨2, 1, .finite⟩

/-- Exponent bias. -/
def Fmt.bias (f : Fmt) : Nat := 2 ^ (f.eb - 1) - 1
/-- Bits of a code. -/
def Fmt.width (f : Fmt) : Nat := 1 + f.eb + f.mb
/-- Exponent of the smallest normal. -/
def Fmt.emin (f : Fmt) : Int := 1 - (f.bias : Int)

/-- A value: NaN, an infinity, or sign and magnitude (m + d) x 2^e, where d is 0, or lies strictly between 0 and 1 when
`inexact` (only for quotients, roots and powers; those have at least 120 significant bits). -/
inductive FV where
  | nan
  | inf (neg : Bool)
  | fin (neg : Bool) (m : Nat) (e : Int) (inexact : Bool)
  deriving DecidableEq, Repr

/-- Code of the largest finite magnitude. -/
def Fmt.maxCode (f : Fmt) : Nat :=
  match f.tops with
  | .ieee => (2 ^ f.eb - 1) * 2 ^ f.mb - 1
  | .e4m3 => 2 ^ (f.eb + f.mb) - 2
  | .finite => 2 ^ (f.eb + f.mb) - 1

/-- Canonical NaN (Table 3-3); the formats without NaN have none and are never asked. -/
def Fmt.nan (f : Fmt) : Nat :=
  match f.tops with
  | .ieee => (2 ^ f.eb - 1) * 2 ^ f.mb + 2 ^ (f.mb - 1)
  | .e4m3 => 2 ^ (f.eb + f.mb) - 1
  | .finite => 0

/-- Sign bit of a code. -/
def Fmt.signed (f : Fmt) (neg : Bool) (c : Nat) : Nat := if neg then c + 2 ^ (f.eb + f.mb) else c

/-- Code of an infinity. -/
def Fmt.inf (f : Fmt) (neg : Bool) : Nat := f.signed neg ((2 ^ f.eb - 1) * 2 ^ f.mb)

/-- Exact decode of a code (R73). -/
def Fmt.decode (f : Fmt) (c : Nat) : FV :=
  let neg := bit c (f.eb + f.mb)
  let e := bits c f.mb f.eb
  let m := c % 2 ^ f.mb
  if f.tops = .ieee ∧ e = 2 ^ f.eb - 1 then (if m = 0 then .inf neg else .nan)
  else if f.tops = .e4m3 ∧ e = 2 ^ f.eb - 1 ∧ m = 2 ^ f.mb - 1 then .nan
  else if e = 0 then .fin neg m (f.emin - f.mb) false
  else .fin neg (2 ^ f.mb + m) ((e : Int) - f.bias - f.mb) false

/-- An integer as a value; zero is +0. -/
def FV.ofInt (i : Int) : FV := .fin (decide (i < 0)) i.natAbs 0 false

/-- The value with its sign flipped. -/
def FV.neg : FV → FV
  | .nan => .nan
  | .inf s => .inf (!s)
  | .fin s m e i => .fin (!s) m e i

/-- Sign of a value; false for NaN. -/
def FV.isNeg : FV → Bool
  | .nan => false
  | .inf s => s
  | .fin s _ _ _ => s

def FV.isNan : FV → Bool
  | .nan => true
  | _ => false

def FV.isZero : FV → Bool
  | .fin _ m _ i => m == 0 && !i
  | _ => false

def FV.isInf : FV → Bool
  | .inf _ => true
  | _ => false

/-! ## Flags and the generator (R81, R86, R89) -/

def fNV : BitVec 5 := 1
def fDZ : BitVec 5 := 2
def fOF : BitVec 5 := 4
def fUF : BitVec 5 := 8
def fNX : BitVec 5 := 16

/-- What rounding carries along: the generator's state and the flags raised so far. -/
structure Fst where
  seed : Word
  flags : BitVec 5
  deriving DecidableEq, Repr

/-- Raise flags. -/
def Fst.raise (s : Fst) (f : BitVec 5) : Fst := { s with flags := s.flags ||| f }

/-- State after a draw (R89). -/
def drawState (s : Word) : Word :=
  let s := s ^^^ (s >>> 12)
  let s := s ^^^ (s <<< 25)
  s ^^^ (s >>> 27)

/-- Output of a draw, from the state after it (R89). -/
def drawOut (s : Word) : Word := s * 0x2545F4914F6CDD1D#64

/-- A value that stands for `DYN` is the mode of FRM (R83, R86); FRM never holds DYN. -/
def resolveRm (frm : BitVec 3) : Rm → Rm
  | .dyn =>
    match frm.toNat with
    | 1 => .rmm
    | 2 => .rup
    | 3 => .rdn
    | 4 => .rtz
    | 5 => .rsr
    | _ => .rne
  | r => r

/-- The draw of an RND call under RSR: 24 bits and the state after it (R86). -/
def Fst.draw (s : Fst) (mode : Rm) : Nat × Fst :=
  if mode = .rsr then ((drawOut (drawState s.seed)).toNat / 2 ^ 40, { s with seed := drawState s.seed }) else (0, s)

/-! ## RND (R86 to R88, R92, R93) -/

/-- A magnitude cut at a grid of exponent `qe`: floor, remainder below the grid, log2 of the remainder's range. -/
structure Cut where
  lo : Nat
  rem : Nat
  k : Nat
  inexact : Bool
  deriving DecidableEq, Repr

/-- Cut (m + d) x 2^e at the grid 2^qe. -/
def cut (m : Nat) (e : Int) (inexact : Bool) (qe : Int) : Cut :=
  if qe ≤ e then ⟨m * 2 ^ (e - qe).toNat, 0, 0, inexact⟩
  else
    let k := (qe - e).toNat
    ⟨m / 2 ^ k, m % 2 ^ k, k, inexact || m % 2 ^ k != 0⟩

/-- Table 3-11: is hi chosen for an inexact magnitude (R88 for RSR). -/
def Cut.up (c : Cut) (d : Bool) (neg : Bool) (mode : Rm) (draw : Nat) : Bool :=
  match mode with
  | .rne => decide (2 ^ c.k < 2 * c.rem) || (decide (2 * c.rem = 2 ^ c.k) && (d || c.lo % 2 == 1))
  | .dyn => decide (2 ^ c.k < 2 * c.rem) || (decide (2 * c.rem = 2 ^ c.k) && (d || c.lo % 2 == 1))
  | .rmm => decide (2 ^ c.k ≤ 2 * c.rem)
  | .rup => !neg
  | .rdn => neg
  | .rtz => false
  | .rsr => decide (draw * 2 ^ c.k < c.rem * 2 ^ 24) || (d && decide (draw * 2 ^ c.k = c.rem * 2 ^ 24))

/-- Overflow of a format (R87). -/
def Fmt.overflow (f : Fmt) (neg : Bool) (mode : Rm) (sat : Bool) : Nat :=
  if sat ∨ f.tops = .finite then f.signed neg f.maxCode
  else if f.tops = .e4m3 then f.nan
  else
    match mode with
    | .rtz => f.signed neg f.maxCode
    | .rdn => if neg then f.inf true else f.maxCode
    | .rup => if neg then f.signed true f.maxCode else f.inf false
    | _ => f.inf neg

/-- Table 3-12 for floating-point destinations. -/
def Fmt.special (f : Fmt) (x : FV) (sat : Bool) : Nat × BitVec 5 :=
  match x with
  | .inf neg =>
    if f.tops = .finite then (f.signed neg f.maxCode, fNV)
    else if sat then (f.signed neg f.maxCode, fNX)
    else if f.tops = .e4m3 then (f.nan, fNV)
    else (f.inf neg, 0)
  | _ => if f.tops = .finite then (0, fNV) else (f.nan, 0)

/-- RND into a floating-point format: the code delivered (R86). -/
def rnd (f : Fmt) (mode : Rm) (sat : Bool) (x : FV) (s : Fst) : Nat × Fst :=
  let (d, s) := s.draw mode
  match x with
  | .fin neg m e inexact =>
    if m = 0 then (f.signed neg 0, s)
    else
      let ex : Int := max ((Nat.log2 m : Int) + e) f.emin
      let c := cut m e inexact (ex - f.mb)
      let n := if c.inexact && c.up inexact neg mode d then c.lo + 1 else c.lo
      let code := (ex + f.bias - 1).toNat * 2 ^ f.mb + n
      if n ≠ 0 ∧ f.maxCode < code then (f.overflow neg mode sat, s.raise (fOF ||| fNX))
      else if c.inexact then
        let tiny := decide ((Nat.log2 m : Int) + e < f.emin)
        (f.signed neg (if n = 0 then 0 else code), s.raise (if tiny then fNX ||| fUF else fNX))
      else (f.signed neg code, s)
  | _ => let r := f.special x sat; (r.1, s.raise r.2)

/-- RND into an integer range on a grid 2^qe: the value delivered in units of the grid (R92, Table 3-12). -/
def rndInt (lo hi : Int) (qe : Int) (mode : Rm) (x : FV) (s : Fst) : Int × Fst :=
  let (d, s) := s.draw mode
  match x with
  | .nan => (0, s.raise fNV)
  | .inf neg => (if neg then lo else hi, s.raise fNV)
  | .fin neg m e inexact =>
    let c := cut m e inexact qe
    let n := if c.inexact && c.up inexact neg mode d then c.lo + 1 else c.lo
    let v : Int := if neg then -(n : Int) else n
    if v < lo then (lo, s.raise fNV)
    else if hi < v then (hi, s.raise fNV)
    else (v, if c.inexact then s.raise fNX else s)

/-! ## Exact operations -/

/-- The sum of two dyadic values on their common grid, as a signed integer and that grid's exponent. -/
def dyadicSum (na : Bool) (ma : Nat) (ea : Int) (nb : Bool) (mb : Nat) (eb : Int) : Int × Int :=
  let e := min ea eb
  let a : Int := ma * 2 ^ (ea - e).toNat
  let b : Int := mb * 2 ^ (eb - e).toNat
  ((if na then -a else a) + (if nb then -b else b), e)

/-- A sum with the zero rule of Table 5-2: an exact zero from operands of unlike sign is +0, or -0 under RDN. -/
def fAdd (mode : Rm) (a b : FV) : FV × BitVec 5 :=
  match a, b with
  | .nan, _ => (.nan, 0)
  | _, .nan => (.nan, 0)
  | .inf x, .inf y => if x = y then (.inf x, 0) else (.nan, fNV)
  | .inf x, _ => (.inf x, 0)
  | _, .inf y => (.inf y, 0)
  | .fin na ma ea _, .fin nb mb eb _ =>
    let r := dyadicSum na ma ea nb mb eb
    if r.1 = 0 then (.fin (if na = nb then na else decide (mode = .rdn)) 0 0 false, 0)
    else (.fin (decide (r.1 < 0)) r.1.natAbs r.2 false, 0)

/-- A product (Table 5-2). -/
def fMul (a b : FV) : FV × BitVec 5 :=
  match a, b with
  | .nan, _ => (.nan, 0)
  | _, .nan => (.nan, 0)
  | .inf x, .inf y => (.inf (x != y), 0)
  | .inf x, .fin y m _ _ => if m = 0 then (.nan, fNV) else (.inf (x != y), 0)
  | .fin x m _ _, .inf y => if m = 0 then (.nan, fNV) else (.inf (x != y), 0)
  | .fin na ma ea _, .fin nb mb eb _ => (.fin (na != nb) (ma * mb) (ea + eb) false, 0)

/-- The magnitude (ma x 2^ea) / (mb x 2^eb), to 160 bits and more. -/
def quotient (neg : Bool) (ma : Nat) (ea : Int) (mb : Nat) (eb : Int) : FV :=
  let k := 160 + Nat.log2 mb
  .fin neg (ma * 2 ^ k / mb) (ea - eb - k) (ma * 2 ^ k % mb != 0)

/-- A quotient (Table 5-2). -/
def fDiv (a b : FV) : FV × BitVec 5 :=
  match a, b with
  | .nan, _ => (.nan, 0)
  | _, .nan => (.nan, 0)
  | .inf _, .inf _ => (.nan, fNV)
  | .inf x, .fin y _ _ _ => (.inf (x != y), 0)
  | .fin x _ _ _, .inf y => (.fin (x != y) 0 0 false, 0)
  | .fin na ma ea _, .fin nb mb eb _ =>
    if mb = 0 then (if ma = 0 then (.nan, fNV) else (.inf (na != nb), fDZ))
    else if ma = 0 then (.fin (na != nb) 0 0 false, 0)
    else (quotient (na != nb) ma ea mb eb, 0)

/-- Integer square root, bit by bit from bit `n - 1` down, starting from `r`. -/
def isqrt (x : Nat) : Nat → Nat → Nat
  | 0, r => r
  | n + 1, r => if (r + 2 ^ n) * (r + 2 ^ n) ≤ x then isqrt x n (r + 2 ^ n) else isqrt x n r

/-- A square root (Table 5-2), to 128 bits. -/
def fSqrt (a : FV) : FV × BitVec 5 :=
  match a with
  | .nan => (.nan, 0)
  | .inf neg => if neg then (.nan, fNV) else (.inf false, 0)
  | .fin neg m e _ =>
    if m = 0 then (.fin neg 0 0 false, 0)
    else if neg then (.nan, fNV)
    else
      -- bring m to 256 or 257 bits with an even exponent
      let k := 256 - Nat.log2 m
      let k := if (e - k) % 2 = 0 then k else k + 1
      let x := m * 2 ^ k
      let r := isqrt x 130 0
      (.fin false r ((e - k) / 2) (r * r != x), 0)

/-- Numerical order of two numbers; none with a NaN. -/
def fLess (a b : FV) : Option Bool :=
  match a, b with
  | .nan, _ => none
  | _, .nan => none
  | .inf x, .inf y => some (x && !y)
  | .inf x, _ => some x
  | _, .inf y => some (!y)
  | .fin na ma ea _, .fin nb mb eb _ => some (decide ((dyadicSum na ma ea (!nb) mb eb).1 < 0))

/-- Numerical equality of two numbers; none with a NaN. -/
def fSame (a b : FV) : Option Bool :=
  match a, b with
  | .nan, _ => none
  | _, .nan => none
  | .inf x, .inf y => some (x == y)
  | .inf _, _ => some false
  | _, .inf _ => some false
  | .fin na ma ea _, .fin nb mb eb _ => some (decide ((dyadicSum na ma ea (!nb) mb eb).1 = 0))

/-- FMIN or FMAX (Table 5-3): the chosen operand, -0 below +0, NaN only if both are. -/
def fPick (max : Bool) (a b : FV) : FV :=
  if a.isNan then b
  else if b.isNan then a
  else
    let aLow := (fLess a b).getD false || (a.isZero && b.isZero && a.isNeg && !b.isNeg)
    if aLow == max then b else a

/-- FMAC (`sub` false) or FMSC: c ± a×b with one rounding (R138). -/
def fMulAdd (mode : Rm) (sub : Bool) (a b c : FV) : FV × BitVec 5 :=
  let p := fMul a b
  if p.2 ≠ 0 then (.nan, p.2)
  else fAdd mode c (if sub then p.1.neg else p.1)

/-! ## VFEXP2, VFRCP, VFRSQRT (R144, Table 5-6) -/

/-- floor(ln 2 x 2^320). -/
def ln2Bits : Nat := 0xb17217f7d1cf79abc9e3b39803f2f6af40f343267298b62d8a0d175b8baafa2be7b876206debac98

/-- Sum of t^k / k! from term `k` on, in units of 2^-320; `n` terms. -/
def expSeries (t : Nat) : Nat → Nat → Nat → Nat
  | 0, _, _ => 0
  | n + 1, k, term => term + expSeries t n (k + 1) (term * t / 2 ^ 320 / (k + 1))

/-- 2^a (Table 5-6): exact for an integer, else 2^floor(a) times the series of the fraction, to 256 bits (log entry 28). -/
def fExp2 (a : FV) : FV × BitVec 5 :=
  match a with
  | .nan => (.nan, 0)
  | .inf neg => (if neg then .fin false 0 0 false else .inf false, 0)
  | .fin neg m e _ =>
    if m = 0 then (.fin false 1 0 false, 0)
    else if 12 ≤ (Nat.log2 m : Int) + e then
      -- far outside every format: the sign decides
      (if neg then .fin false 1 (-4000) true else .fin false 1 4000 true, 0)
    else
      let k := (-e).toNat
      let v : Int := if neg then -(m * 2 ^ e.toNat : Nat) else (m * 2 ^ e.toNat : Nat)
      let n := v / 2 ^ k
      let f := (v % 2 ^ k).toNat
      if f = 0 then (.fin false 1 n false, 0)
      else (.fin false (expSeries (f * ln2Bits / 2 ^ k) 80 0 (2 ^ 320) / 2 ^ 64) (n - 256) true, 0)

/-- 1/a (Table 5-6). -/
def fRcp (a : FV) : FV × BitVec 5 :=
  match a with
  | .nan => (.nan, 0)
  | .inf neg => (.fin neg 0 0 false, 0)
  | .fin neg m e _ => if m = 0 then (.inf neg, fDZ) else (quotient neg 1 0 m e, 0)

/-- 1/√a (Table 5-6). -/
def fRsqrt (a : FV) : FV × BitVec 5 :=
  match a with
  | .nan => (.nan, 0)
  | .inf neg => if neg then (.nan, fNV) else (.fin false 0 0 false, 0)
  | .fin neg m e _ =>
    if m = 0 then (.inf neg, fDZ)
    else if neg then (.nan, fNV)
    else
      -- a = m' 2^e' with e' even; floor(2^k / √m') is the root of floor(2^2k / m')
      let m' := if e % 2 = 0 then m else 2 * m
      let e' := if e % 2 = 0 then e else e - 1
      let k := 130 + Nat.log2 m'
      let r := isqrt (2 ^ (2 * k) / m') (k + 1) 0
      (.fin false r (-e' / 2 - k) (r * r * m' != 2 ^ (2 * k)), 0)

end Sys2Proof.Machine
end

