-- ==== Sys2Proof/Machine/Flags.lean ====
section
/-!
DEFINITION. FFLAGS and the generator as instructions leave them (spec/03, R81, R82, R90): flags are ORed in, each flag an
instruction raises counts once in the event counters that select it (spec/22, Table 22-12).
-/
namespace Sys2Proof.Machine

/-- Count the flags an instruction raised: event 4 NX, 5 UF, 6 OF, 7 DZ, 8 NV (R82, Table 22-12). -/
def Thread.countFlags (t : Thread) (f : BitVec 5) : Thread :=
  (countFrom 0 5).foldl (fun t i => if f.getLsbD i then t.count (8 - i) 1 else t) t

/-- OR flags into FFLAGS (R81). -/
def Thread.raiseFlags (t : Thread) (f : BitVec 5) : Thread :=
  let t := t.countFlags f
  { t with csr := { t.csr with fflags := t.csr.fflags ||| f } }

/-- The flags and the generator state that an instruction's roundings leave. -/
def Thread.fpDone (t : Thread) (r : Fst) : Thread :=
  let t := t.raiseFlags r.flags
  { t with csr := { t.csr with srseed := r.seed } }

/-- What an instruction's roundings start from. -/
def Thread.fpStart (t : Thread) : Fst := ⟨t.csr.srseed, 0⟩

/-- A result in X(rd) with the flags and draws of its roundings. -/
def State.fpResult (s : State) (d : XReg) (code : Nat) (r : Fst) : State :=
  (s.modMe (·.fpDone r)).setX d (BitVec.ofNat 64 code)

end Sys2Proof.Machine
end

