-- ==== Sys2Proof/Machine/Operands.lean ====
section
/-!
DEFINITION. Operand forms: scalar floating-point operands (spec/02, R33), immediates and offsets (spec/02, R50, R55; spec/11,
R263), lanes of vector registers and their activity (spec/05, R130, R131).
-/
namespace Sys2Proof.Machine

/-! ## Scalar floating point -/

/-- The format of a precision code (R136). -/
def fmtOfPrec : Prec → Fmt
  | .d => .f64
  | .s => .f32
  | .h => .f16
  | .b => .bf16

/-- F(r, p): the low bits of a register as a value (R33, R136). -/
def State.getF (s : State) (p : Prec) (r : XReg) : FV :=
  (fmtOfPrec p).decode ((s.getX r).toNat % 2 ^ (fmtOfPrec p).width)

/-- The rounding mode of an instruction: its own, or FRM for DYN (R132). -/
def State.mode (s : State) (r : Rm) : Rm := resolveRm s.me.csr.frm r

/-! ## Immediates and offsets -/

/-- A signed immediate field. -/
def simm {n : Nat} (i : BitVec n) : Word := i.signExtend 64

/-- A short offset times the access unit (R263). -/
def shortOff (off : BitVec 5) (unit : Nat) : Word := simm off * BitVec.ofNat 64 unit

/-! ## Lanes -/

/-- Lane width of a type (R130). -/
def laneBits : Ty → Nat
  | .i8 => 8
  | .i16 => 16
  | .i32 => 32
  | .i64 => 64
  | .bf16 => 16
  | .fp16 => 16
  | .fp32 => 32

/-- Number of lanes of a width. -/
def laneCount (w : Nat) : Nat := 512 / w

/-- Lane `i` of width `w`, unsigned. -/
def lane (v : Vec) (w i : Nat) : Nat := bits v.toNat (w * i) w

/-- A number of `w` bits read as two's complement. -/
def signed (w n : Nat) : Int := if 2 ^ (w - 1) ≤ n % 2 ^ w then (n % 2 ^ w : Nat) - (2 ^ w : Nat) else (n % 2 ^ w : Nat)

/-- The low `w` bits of an integer. -/
def wrap (w : Nat) (i : Int) : Nat := (i % (2 ^ w : Nat)).toNat

/-- An integer clamped to a signed range of `w` bits. -/
def clampS (w : Nat) (i : Int) : Int := max (-(2 ^ (w - 1) : Nat) : Int) (min i ((2 ^ (w - 1) : Nat) - 1))

/-- Numbers of `w` bits packed from the lowest lane up. -/
def packLanes (w : Nat) : List Nat → Nat
  | [] => 0
  | a :: r => a % 2 ^ w + 2 ^ w * packLanes w r

/-- A vector of `n` lanes. -/
def ofLanes (w : Nat) (l : List Nat) : Vec := BitVec.ofNat 512 (packLanes w l)

/-- Lane `i` of width `w` is active (R131). -/
def activeLane (m : Word) (w i : Nat) : Bool := maskBit m (w / 8 * i)

/-- The destination of a lane-wise operation: active lanes computed, the others kept (R131). -/
def laneMap (w : Nat) (m : Word) (old : Vec) (f : Nat → Nat) : Vec :=
  ofLanes w ((countFrom 0 (laneCount w)).map fun i => if activeLane m w i then f i else lane old w i)

/-- The same with roundings, in ascending lane order (R133). -/
def laneFold (w : Nat) (m : Word) (old : Vec) (f : Nat → Fst → Nat × Fst) : List Nat → Fst → List Nat × Fst
  | [], s => ([], s)
  | i :: r, s =>
    let (a, s) := if activeLane m w i then f i s else (lane old w i, s)
    let (l, s) := laneFold w m old f r s
    (a :: l, s)

/-- Format of a float lane type; integer types are read nowhere as floats. -/
def fmtOfTy : Ty → Fmt
  | .bf16 => .bf16
  | .fp16 => .f16
  | _ => .f32

/-- A lane as a value of its type. -/
def laneVal (v : Vec) (ty : Ty) (i : Nat) : FV :=
  if ty.isInt then FV.ofInt (signed (laneBits ty) (lane v (laneBits ty) i))
  else (fmtOfTy ty).decode (lane v (laneBits ty) i)

/-- Bytes of a vector, lowest first. -/
def vecBytes (v : Vec) : List Byte := bytesOf 64 v.toNat

/-- A vector of bytes. -/
def vecOfBytes (l : List Byte) : Vec := BitVec.ofNat 512 (ofBytes l)

end Sys2Proof.Machine
end

