-- ==== Sys2Proof/Machine/Translate.lean ====
section
/-!
DEFINITION. The address map, page walks, TLBs, the on-chip window and the checks of Table 8-5 (spec/08, R196 to R213; spec/19,
R424 to R433; spec/20, R451). An access is first checked as a whole, on an unchanged state; what it changes besides its bytes
(A and D bits, TLB entries, the LM boundary) is applied by `State.admitAccess` once every check has passed (log entry 22).
-/
namespace Sys2Proof.Machine

/-! ## Cause codes (Table 21-5) -/

def Cause.illegal : Nat := 0x01
def Cause.priv : Nat := 0x02
def Cause.misalign : Nat := 0x03
def Cause.misalignAttr : Nat := 0x04
def Cause.fetchPage : Nat := 0x05
def Cause.loadPage : Nat := 0x06
def Cause.storePage : Nat := 0x07
def Cause.access : Nat := 0x08
def Cause.lease : Nat := 0x09
def Cause.windowKey : Nat := 0x0A
def Cause.verMissing : Nat := 0x10
def Cause.verDup : Nat := 0x11
def Cause.verStale : Nat := 0x12
def Cause.verWait : Nat := 0x13
def Cause.verFull : Nat := 0x14
def Cause.verLost : Nat := 0x15
def Cause.barGen : Nat := 0x18
def Cause.barStall : Nat := 0x19
def Cause.claveTimeout : Nat := 0x1A
def Cause.slDown : Nat := 0x1B
def Cause.waitTimeout : Nat := 0x1C
def Cause.engineFault : Nat := 0x20
def Cause.engineError : Nat := 0x21
def Cause.dataError : Nat := 0x28
def Cause.domainLoss : Nat := 0x29
def Cause.scall : Nat := 0x30
def Cause.brk : Nat := 0x31
def Cause.patch : Nat := 0x38
def Cause.gangStop : Nat := 0x3F

/-! ## Hub words -/

/-- Reset value of the hub word at a BAR0 offset: WEIGHT of each QIF 1 (Table 19-9), VMINMV all ones (Table 22-6), every
MSI-X vector masked as PCIe has it (log entry 27), the number of a QIF in its page (Table 19-10). -/
def hubReset (off : Nat) : Word :=
  if 0x100 ≤ off ∧ off < 0x300 ∧ off % 64 = 0 then 0x100000
  else if off = 0x1C38 then 0xFFFF
  else if 0x4000 ≤ off ∧ off < 0x5000 ∧ off % 16 = 8 then 0x100000000
  else if 0x10000 ≤ off ∧ off < 0x50000 ∧ off % 0x8000 = 0 then BitVec.ofNat 64 ((off - 0x10000) / 0x8000)
  else 0

/-- The stored hub word at a BAR0 offset. -/
def State.reg (s : State) (off : Nat) : Nat := (s.hub.get (hubReset off) off).toNat

/-- Put a hub word. -/
def State.setReg (s : State) (off v : Nat) : State := { s with hub := s.hub.set off (BitVec.ofNat 64 v) }

/-- Offset of QIF q's control block (Table 19-9). -/
def qcb (q : Nat) : Nat := 0x100 + 64 * q
/-- Offset of QIF q's register page (Table 19-8). -/
def qpage (q : Nat) : Nat := 0x10000 + 0x8000 * q
/-- Offset of the descriptor of queue `n` of QIF q (Table 19-11). -/
def qdesc (q n : Nat) : Nat := qpage q + 0x100 + 64 * n
/-- ENABLE of a QIF. -/
def State.qEnabled (s : State) (q : Nat) : Bool := bit (s.reg (qcb q)) 0
/-- TENANT of a QIF. -/
def State.qTenant (s : State) (q : Nat) : Nat := bits (s.reg (qcb q)) 8 8
/-- Word 0 of a tenant's table entry (Table 19-2). -/
def State.tenantWord (s : State) (t k : Nat) : Nat := s.reg (0x400 + 16 * t + 8 * k)

/-- A tenant whose entry admits payload of the bridge: VALID and BRIDGE (R450). -/
def State.tenantBridges (s : State) (t : Nat) : Bool := bit (s.tenantWord t 0) 16 && bit (s.tenantWord t 0) 17

/-! ## Power as an access sees it -/

/-- Depth of a quadrant for accesses and wakes: 0 Q-ON, 1 Q-RET, 2 Q-GATE, 3 Q-OFF; FALLING counts as the state entered,
RISING as the state left (R377). -/
def QuadState.level : QuadState → Nat
  | .on => 0
  | .ret => 1
  | .gate => 2
  | .off => 3
  | .rising src _ _ => src
  | .falling _ dst => dst

/-- A quadrant by number. -/
def State.quad (s : State) (q : Nat) : Quad := s.power.quads.get (Fin.ofNat 4 q)

/-- Put a quadrant. -/
def State.setQuad (s : State) (q : Nat) (v : Quad) : State :=
  { s with power := { s.power with quads := s.power.quads.set (q % 4) v (Nat.mod_lt _ (by decide)) } }

/-- A quadrant that cannot be woken (R384). -/
def Quad.lost (v : Quad) : Bool := v.dark || v.hot

/-- A quadrant in Q-ON. -/
def Quad.isOn (v : Quad) : Bool := v.st == .on

/-- A wake of this quadrant is running. -/
def Quad.waking (v : Quad) : Bool := match v.st with | .rising _ _ w => w | _ => false

/-- A voltage domain. -/
def State.domain (s : State) (d : Nat) : Domain := s.power.domains.get Domain.init d

/-- Put a voltage domain. -/
def State.setDomain (s : State) (d : Nat) (v : Domain) : State :=
  { s with power := { s.power with domains := s.power.domains.set d v } }

/-- Logic domain of a core (R392): 0x84 for Tabor. -/
def logicDomain (c : Nat) : Nat :=
  if isTabor c then 0x84 else 32 * (c / 512) + 8 * (c / 256 % 2) + c / 32 % 8

/-- SRAM domain of a core: one per quarter of the clusters, four clusters of each layer (log entry 23). -/
def sramDomain (c : Nat) : Nat := if isTabor c then 0x84 else 32 * (c / 512) + 16 + c / 64 % 4

/-- Domains that a quadrant switches on from one state to another (Table 16-4): all 28 from Q-OFF, but to Q-GATE only the fabric and
HBM PHY ones; the 20 logic and SRAM domains from Q-GATE. -/
def riseDomains (q src dst : Nat) : List Nat :=
  if src = 3 then (if dst ≤ 1 then countFrom (32 * q) 28 else if dst = 2 then countFrom (32 * q + 20) 8 else [])
  else if src = 2 ∧ dst ≤ 1 then countFrom (32 * q) 20
  else []

/-- Requests for switch-on enter the device-wide order (R393). -/
def State.askDomains (s : State) (l : List Nat) : State :=
  let new := l.filter fun d => !(s.domain d).powered && !(s.domain d).dark && !s.power.switchQueue.contains d
  { s with power := { s.power with switchQueue := s.power.switchQueue ++ new } }

/-- A quadrant begins to rise to a state, as a raise or as a wake; a fall is aborted (R379, R382, R384). -/
def State.beginRise (s : State) (q dst : Nat) (wake : Bool) : State :=
  let v := s.quad q
  (s.setQuad q { v with st := .rising v.st.level dst wake }).askDomains (riseDomains q v.st.level dst)

/-- A wake without a record of one quadrant (R378, R384, R511), unless one runs or the quadrant needs or admits none. -/
def State.accessWake (s : State) (q : Nat) : State :=
  let v := s.quad q
  if v.waking || v.isOn || v.lost then s
  else
    let w : Wake := ⟨s.power.nextWake, 2 ^ q, v.st.level - 1, s.time, none, false⟩
    { s.beginRise q 0 true with power := { (s.beginRise q 0 true).power with nextWake := s.power.nextWake + 1, wakes := s.power.wakes ++ [w] } }

/-- A phase failure caps a core's ratio at 28 (R400, R483). -/
def State.capped (s : State) (c : Nat) : Bool := !(s.domain (logicDomain c)).failed.isEmpty

/-- The clock ratio of a core outside near-threshold mode (R400). -/
def State.ratio (s : State) (c : Nat) : Nat := min (s.core c).ratio (if s.capped c then 28 else 32)

/-- A core is in C3: its logic domain is gated or dark, or its quadrant is at Q-GATE or Q-OFF (Table 8-3, Table 16-3). -/
def State.coreOff (s : State) (c : Nat) : Bool :=
  (s.core c).cstate == .c3 || (s.domain (logicDomain c)).dark || (s.domain (sramDomain c)).dark ||
    (!isTabor c && decide (2 ≤ (s.quad (quadOf c)).st.level))

/-- A core's retention state (Table 16-3): C3 without its domains, C2 while its quadrant is in Q-RET, else as its own slots have left it. -/
def State.retention (s : State) (c : Nat) : CoreState :=
  if s.coreOff c then .c3
  else if isTabor c then (s.core c).cstate
  else match (s.quad (quadOf c)).st with
    | .ret => .c2
    | .rising 1 _ _ => .c2
    | _ => (s.core c).cstate

/-- Quadrant of an HBM address: two stacks each (R377). -/
def hbmQuad (pa : Nat) : Nat := pa / Config.hbmStackBytes / 2

/-- HBM at an address cannot answer: its quadrant, PHY or a fabric domain is dark, or its stack is shut down (R397, R485). -/
def State.hbmDark (s : State) (pa : Nat) : Bool :=
  let stack := pa / Config.hbmStackBytes
  let q := hbmQuad pa
  (s.quad q).dark || (s.quad q).hot ||
    (countFrom (32 * q + 20) 4 ++ countFrom (32 * q + 24 + 2 * (stack % 2)) 2).any fun d => (s.domain d).dark

/-- A port of the bridge is up (R448, R449) and its PHY domain is not dark (R485). -/
def State.bridgeUp (s : State) : Bool :=
  !(s.domain 0x82).dark && s.ports.any fun p => p.2.up

/-! ## Accesses and what stops them -/

/-- Kinds of access: read, write (also versioned stores), read and write (atomics), fetch, patch store (R274). -/
inductive Acc where
  | read | write | rw | exec | patch
  deriving DecidableEq, Repr

/-- Who makes an access: the thread or, for an engine, the thread that submitted the command, with the privilege and the
address-space registers in force, and the engine's core and slot (slot 8 for the collective). -/
structure Who where
  tid : Nat
  user : Bool
  space : Space
  engine : Option (Nat × Nat)
  deriving DecidableEq, Repr

/-- What stops an access: a trap cause with its EVAL; an uncorrectable word (its key, and the EVAL); a serviced page fault
(Table 19-6), with the page, the address reported and the first failing byte; an access outside the leases under STRICT (R367); an HBM quadrant below Q-ON, which wakes first (R378). -/
inductive AFault where
  | trap (cause : Nat) (eval : Word)
  | poison (key : Nat) (eval : Word)
  | page (firmware : Bool) (entry : Nat) (page : Word) (addr : Word) (va : Word) (stage : Bool)
  | lease (addr : Word)
  | wake (quad : Nat)
  deriving DecidableEq, Repr

/-- Entry bits to set when an access is performed: (key of the entry, bits) (R427). -/
abbrev Marks := List (Nat × Nat)

/-- Where a part of an access lies: a memory byte by key, an offset of a core's window that is no memory (registers, inbox,
stack link), or a hub register. -/
inductive Loc where
  | mem (key : Nat)
  | win (core off : Nat)
  | hub (off : Nat)
  deriving DecidableEq, Repr

/-- A part of an access (R210): its address, length, place, and the CA and HOME of its page. -/
structure Span where
  va : Word
  n : Nat
  loc : Loc
  ca : Nat
  home : Nat
  deriving DecidableEq, Repr

/-- Page cause of an access (R430). -/
def Acc.pageCause : Acc → Nat
  | .read => Cause.loadPage
  | .exec => Cause.fetchPage
  | _ => Cause.storePage

/-- Permission bits an access needs of an entry: R is bit 1, W bit 2, X bit 3 (Table 19-4; R274 for a patch store). -/
def Acc.granted (a : Acc) (e : Nat) : Bool :=
  match a with
  | .read => bit e 1
  | .write => bit e 2
  | .rw => bit e 2
  | .exec => bit e 3
  | .patch => bit e 3

/-- An access that sets D: a store, an atomic, a patch store (R427). -/
def Acc.dirties : Acc → Bool
  | .read => false
  | .exec => false
  | _ => true

/-- A and D bits an access sets. -/
def Acc.adBits (a : Acc) : Nat := if a.dirties then 0xC0 else 0x40

/-- PPN field of an entry as an address. -/
def ppn (e : Nat) : Nat := bits e 14 38 * 2 ^ 14

/-- A physical address of the hub register aperture (R451). -/
def inAperture (pa : Nat) : Bool := decide (2 ^ 51 ≤ pa) && decide (pa < 2 ^ 51 + 2 ^ 20)

/-- Key of a physical address of a HOME; none outside the installed memory (log entry 24), and none in the aperture, which walks and rings do
not reach (R451). -/
def physKey (home pa : Nat) : Option Nat :=
  if inAperture pa then none
  else if home = 0 then (if pa < Config.lpddr6Bytes then some (keyOf 0 pa) else none)
  else if home = 1 then (if pa < Config.hbmBytes then some (keyOf 1 pa) else none)
  else if home ≤ 3 ∧ pa < 2 ^ 52 then some (keyOf home pa)
  else none

/-- What a walk found: the last entry, its key, the log2 size of the leaf (0 where V is 0), the marks made on the way. -/
structure Walked where
  key : Nat
  e : Nat
  size : Nat
  marks : Marks
  deriving DecidableEq, Repr

/-- Whose tables a walk reads: stage 1 in front of a stage 2 (MODE 0), stage 1 alone (MODE 1), stage 2. -/
inductive Tables where
  | first | only | second
  deriving DecidableEq, Repr

/-- HOME and FILE of an entry are used as the tables allow: in MODE 0 they are zero in every stage-1 entry, in MODE 1 in every pointer
(R425, R428). -/
def Tables.homeOk (t : Tables) (e : Nat) : Bool :=
  match t with
  | .first => bits e 11 3 == 0
  | .only => bits e 11 3 == 0 || bits e 1 3 != 0
  | .second => true

/-- PPN bits [51:47] of a MODE 0 stage-1 entry are zero, whether it is valid or not (R426). -/
def Tables.ppnOk (t : Tables) (e : Nat) : Bool := t != .first || decide (ppn e < 2 ^ 47)

/-- One walk (R424, R425) over the levels given: `rd` reads the entry at a table address; `t` tells which tables they are; `bad` is the
ACCESS fault of the access. -/
def walkLevels (rd : Nat → Except AFault (Nat × Nat × Marks)) (t : Tables) (bad : AFault) (a : Nat) :
    List Nat → Nat → Marks → Except AFault Walked
  | [], _, _ => .error bad
  | sh :: rest, base, marks =>
    match rd (base + 8 * bits a sh 11) with
    | .error f => .error f
    | .ok (k, e, mk) =>
      if t.ppnOk e = false then .error bad
      else if bit e 0 = false then .ok ⟨k, e, 0, marks ++ mk⟩
      else if bits e 52 12 ≠ 0 ∨ t.homeOk e = false then .error bad
      else if bits e 1 3 = 0 then walkLevels rd t bad a rest (ppn e) (marks ++ mk)
      else if (bit e 2 = true ∧ bit e 1 = false) ∨ ppn e % 2 ^ sh ≠ 0 then .error bad
      else .ok ⟨k, e, sh, marks ++ mk⟩

/-- Read a page-table entry; a bad word gives DATA_ERROR with the accessed address (Table 22-4). -/
def State.readEntry (s : State) (bad : AFault) (va : Word) (home pa : Nat) : Except AFault (Nat × Nat) :=
  match physKey home pa with
  | none => .error bad
  | some k =>
    match badIn s.bad k 8 with
    | some w => .error (.poison w va)
    | none => .ok (k, s.mem.num k 8)

/-- A stage-2 translation of an intermediate address: leaf entry, its key and log2 size, HOME and physical address. -/
structure S2 where
  key : Nat
  e : Nat
  size : Nat
  home : Nat
  pa : Nat
  deriving DecidableEq, Repr

/-- Stage 2 of a QIF (R426, Table 19-6). `va` is the address the access reports, `acc` what the leaf must grant. -/
def State.stage2 (s : State) (qif : Nat) (ia : Nat) (acc : Acc) (va : Word) : Except AFault S2 :=
  let bad := AFault.trap Cause.access va
  let r := s.reg (qcb qif + 8)
  let home := if bits r 0 2 = 2 then 2 else 0
  if 2 ^ 47 ≤ ia then .error bad
  else
    match walkLevels (fun a => (s.readEntry bad va home a).map fun p => (p.1, p.2, [])) .second bad ia [36, 25, 14]
        (bits r 14 33 * 2 ^ 14) [] with
    | .error f => .error f
    | .ok w =>
      if w.size = 0 then
        if bit w.e 13 then .error (.page false w.key (BitVec.ofNat 64 (ia / 2 ^ 14 * 2 ^ 14)) (BitVec.ofNat 64 ia) va true)
        else .error bad
      else if acc.granted w.e = false then .error bad
      else .ok ⟨w.key, w.e, w.size, bits w.e 11 2, ppn w.e + ia % 2 ^ w.size⟩

/-- What a stage-1 entry with V = 0 gives (Table 19-6). -/
def absent1 (w : Walked) (va : Word) (acc : Acc) : AFault :=
  if bit w.e 13 then .page false w.key (va &&& ~~~0x3FFF#64) va va false
  else if ppn w.e = 0 then .trap acc.pageCause va
  else .page true w.key (va &&& ~~~0x3FFF#64) va va false

/-- A translation with the marks it makes. -/
abbrev Xlated := TlbEntry × Marks

/-- A permission triple for a TLB entry: R, W, X bits of an entry. -/
def permBits (e : Nat) : Bool × Bool × Bool := (bit e 1, bit e 2, bit e 3)

/-- The translation of the 16 KiB page of `va` under MODE 1 (R428, R451): HOME 4 stands for the aperture as its own leaves reach it. -/
def State.walkOne (s : State) (w : Who) (va : Word) (acc : Acc) : Except AFault Xlated :=
  let bad := AFault.trap Cause.access va
  if w.user then .error bad
  else
    match walkLevels (fun a => (s.readEntry bad va 0 a).map fun p => (p.1, p.2, [])) .only bad va.toNat [36, 25, 14]
        (w.space.root.toNat * 2 ^ 14) [] with
    | .error f => .error f
    | .ok k =>
      if k.size = 0 then .error (absent1 k va acc)
      else if acc.granted k.e = false then .error bad
      else
        let pa := ppn k.e + va.toNat % 2 ^ k.size
        let home := bits k.e 11 2
        if 2 ^ 51 + 2 ^ 20 ≤ pa then .error bad
        else
          let base := ppn k.e
          .ok (⟨w.space.qif.toNat, w.space.pasid.toNat, true, bit k.e 5, va.toNat / 2 ^ 14, k.size, 0, 0,
            if inAperture pa && home == 0 && bits k.e 9 2 == 2 then 4 else home, pa / 2 ^ 14 * 2 ^ 14, bit k.e 1, bit k.e 2, bit k.e 3, true, bits k.e 9 2, bit k.e 8,
            acc.dirties || bit k.e 7, base, true⟩, [(k.key, acc.adBits)])

/-- What a home refuses or delays at a physical address: the bridge or the host link down, a tenant whose bridge payload this box or the partner
drops, HBM dark or asleep (R378, R448, R450, R485). -/
def State.placeFault (s : State) (qif home pa : Nat) (va : Word) : Option AFault :=
  if home = 1 then
    if s.hbmDark pa then some (.trap Cause.dataError va)
    else if (s.quad (hbmQuad pa)).st.level ≠ 0 then some (.wake (hbmQuad pa))
    else none
  else if home = 2 then (if (s.domain 0x81).dark then some (.trap Cause.access va) else none)
  else if home = 3 then
    if s.bridgeUp && s.tenantBridges (s.qTenant qif) && Config.bridgeAccepts (s.qTenant qif) pa then none else some (.trap Cause.access va)
  else none

/-- Reading a stage-1 table entry at an intermediate address, through stage 2 (R426): the leaf that maps it gets A. -/
def State.readStage1 (s : State) (qif : Nat) (va : Word) (ia : Nat) : Except AFault (Nat × Nat × Marks) :=
  match s.stage2 qif ia .read va with
  | .error f => .error f
  | .ok t =>
    match s.placeFault qif t.home t.pa va with
    | some f => .error f
    | none =>
      match s.readEntry (.trap Cause.access va) va t.home t.pa with
      | .error f => .error f
      | .ok (k, e) => .ok (k, e, [(t.key, 0x40)])

/-- The translation of the 16 KiB page of `va` under two stages (R426, R427). -/
def State.walkTwo (s : State) (w : Who) (va : Word) (acc : Acc) : Except AFault Xlated :=
  let bad := AFault.trap Cause.access va
  let qif := w.space.qif.toNat
  match walkLevels (s.readStage1 qif va) .first bad va.toNat [36, 25, 14] (w.space.root.toNat * 2 ^ 14) [] with
  | .error f => .error f
  | .ok k =>
    if k.size = 0 then .error (absent1 k va acc)
    else if acc.granted k.e = false ∨ (w.user = true ∧ bit k.e 4 = false) then .error bad
    else
      let ia := ppn k.e + va.toNat % 2 ^ k.size
      match s.stage2 qif ia acc va with
      | .error f => .error f
      | .ok t =>
        if bit t.e 8 != bit k.e 8 then .error bad
        else
          -- setting A or D in the stage-1 entry is a write of the device through the leaf that maps the entry
          let last := k.marks.getLast?
          let sets := decide (k.e &&& acc.adBits ≠ acc.adBits)
          let lastW := match last with
            | some (key, _) => bit (s.mem.num key 8) 2
            | none => true
          if sets && !lastW then .error bad
          else
            let extra := match last with
              | some (key, _) => if sets then [(key, 0xC0)] else []
              | none => []
            let ca2 := bits t.e 9 2
            let ca := if ca2 = 0 then bits k.e 9 2 else ca2
            let ibase := ppn k.e
            let vok := decide (ibase % (8 * 2 ^ k.size) = 0) && decide (ibase / 2 ^ t.size = (ibase + 8 * 2 ^ k.size - 1) / 2 ^ t.size)
            .ok (⟨qif, w.space.pasid.toNat, false, bit k.e 5, va.toNat / 2 ^ 14, k.size, ia / 2 ^ 14, t.size, t.home,
              t.pa / 2 ^ 14 * 2 ^ 14, bit k.e 1 && bit t.e 1, bit k.e 2 && bit t.e 2, bit k.e 3 && bit t.e 3, bit k.e 4, ca,
              bit k.e 8, acc.dirties || (bit k.e 7 && bit t.e 7), ppn t.e + ibase % 2 ^ t.size, vok⟩,
              k.marks ++ extra ++ [(k.key, acc.adBits), (t.key, acc.adBits)])

/-- A held translation serves an access (R429): same QIF, MODE and page, its PASID or a global leaf, permission and U
granted, and D already set for a store. -/
def TlbEntry.serves (e : TlbEntry) (w : Who) (page : Nat) (acc : Acc) : Bool :=
  e.page == page && e.qif == w.space.qif.toNat && e.mode == w.space.mode &&
    (e.global || e.pasid == w.space.pasid.toNat) && (!w.user || (e.u && !e.mode)) &&
    (match acc with | .read => e.r | .write => e.w | .rw => e.w | .exec => e.x | .patch => e.x) &&
    (!acc.dirties || e.dirty)

/-- The translations a thread may find without a walk: its core's TLB, then the one its cluster shares (R429; log entry 25: engines
walk). -/
def State.tlbsOf (s : State) (w : Who) : List TlbEntry :=
  if w.engine.isNone then (s.core (coreOf w.tid)).tlb ++ s.clusterTlbs.get [] (clusterOf (coreOf w.tid)) else []

/-- Translate the page of an address: an entry held in a TLB, else a walk. -/
def State.xlate (s : State) (w : Who) (va : Word) (acc : Acc) : Except AFault Xlated :=
  match (s.tlbsOf w).find? (·.serves w (va.toNat / 2 ^ 14) acc) with
  | some e => .ok (e, [])
  | none => if w.space.mode then s.walkOne w va acc else s.walkTwo w va acc

/-! ## The checks of Table 8-5 -/

/-- What an access asks: its kind, whether it is an atomic or a versioned instruction, the alignment required. -/
structure Ask where
  acc : Acc
  align : Nat
  atomic : Bool
  ver : Bool
  deriving DecidableEq, Repr

/-- An ordinary access. -/
def Ask.plain (a : Acc) : Ask := ⟨a, 1, false, false⟩

/-- First addresses of the parts at boundaries of `g` bytes: (address, length) pairs (R210). -/
def cutAt (g : Nat) (va : Nat) : Nat → Nat → List (Nat × Nat)
  | 0, _ => []
  | fuel + 1, n =>
    if n = 0 then []
    else
      let k := min n (g - va % g)
      (va, k) :: cutAt g (va + k) fuel (n - k)

/-- First byte outside every lease from `a` on, within `n` bytes (R367). -/
def outsideLeases (leases : List (Nat × Nat)) : Nat → Nat → Nat → Option Nat
  | 0, a, n => if n = 0 then none else some a
  | fuel + 1, a, n =>
    if n = 0 then none
    else
      match leases.find? (fun l => l.1 ≤ a && a < l.1 + l.2) with
      | none => some a
      | some l => if l.1 + l.2 - a ≥ n then none else outsideLeases leases fuel (l.1 + l.2) (n - (l.1 + l.2 - a))

/-- First byte outside the leases of a STRICT task (R367). -/
def State.leaseGap (s : State) (w : Who) (va : Word) (n : Nat) : Option Word :=
  match s.taskOf w.tid with
  | none => none
  | some t =>
    if t.launch.strict then (outsideLeases t.launch.leases (t.launch.leases.length + 1) va.toNat n).map (BitVec.ofNat 64) else none

/-- Areas of Table 8-2. -/
inductive Area where
  | lm | tile | scale | acc | vreg | xreg | inbox | slink | store
  deriving DecidableEq, Repr

/-- Area of a window offset. -/
def areaOf (off : Nat) : Option Area :=
  if off < 0x40000 then some .lm
  else if 0x100000 ≤ off ∧ off < 0x110000 then some .tile
  else if 0x110000 ≤ off ∧ off < 0x111000 then some .scale
  else if 0x120000 ≤ off ∧ off < 0x122000 then some .acc
  else if 0x130000 ≤ off ∧ off < 0x132000 then some .vreg
  else if 0x140000 ≤ off ∧ off < 0x140800 then some .xreg
  else if 0x150000 ≤ off ∧ off < 0x150100 then some .inbox
  else if 0x160000 ≤ off ∧ off < 0x160100 then some .slink
  else if 0x400000 ≤ off ∧ off < 0xA00000 then some .store
  else none

/-- LM bytes an access may reach: SPMAX x 16 KiB on a bound core, all of it otherwise (R206). -/
def State.lmLimit (s : State) (c : Nat) : Nat := if s.coreBound c then (s.core c).spmax * 2 ^ 14 else 2 ^ 18

/-- Step 5 for one part of a window access; a versioned instruction on the island block of a dark Tabor is not refused here, it traps VER_LOST
(Table 22-5) (R198, R199, R201 to R204, R206, R240, R283, R345, R441); true where refused. -/
def State.windowRefused (s : State) (w : Who) (ask : Ask) (core off : Nat) : Bool :=
  !isCore core || (s.coreOff core && !ask.ver) ||
  match areaOf off with
  | none => true
  | some .lm => ask.ver || decide (s.lmLimit core ≤ off) ||
      (ask.acc.dirties && w.user && decide (0x780 ≤ off) && decide (off < 0x800))
  | some .store => !isTabor core ||
      (if 0x9E0000 ≤ off then !ask.ver || decide (0x9E4000 ≤ off) else ask.ver) ||
      (decide (0x9C0000 ≤ off) && decide (off < 0x9E0000) && w.user)
  | some .vreg => ask.ver || ask.atomic ||
      (ask.acc.dirties && ((s.thr (core * 8 + (off - 0x130000) / 1024)).slot == .active
        || (s.thr (core * 8 + (off - 0x130000) / 1024)).slot == .asleep))
  | some .xreg => ask.ver || ask.atomic ||
      (ask.acc.dirties && ((s.thr (core * 8 + (off - 0x140000) / 256)).slot == .active
        || (s.thr (core * 8 + (off - 0x140000) / 256)).slot == .asleep))
  | some .inbox => ask.ver || ask.atomic || ask.acc.dirties
  | some .slink => ask.ver || ask.atomic || ask.acc.dirties
  | some _ => ask.ver || ask.atomic

/-- Step 6: the window key (R200). Granule addresses of the island version block are not checked. -/
def State.keyRefused (s : State) (w : Who) (ask : Ask) (core : Nat) : Bool :=
  !(core == coreOf w.tid || ask.ver || (!w.user && w.space.wkey == 0) || (s.core core).key == some w.space.wkey)

/-- Core number of a window address (R198). -/
def winCore (a : Nat) : Nat := bits a 24 12
/-- Offset of a window address. -/
def winOff (a : Nat) : Nat := a % 2 ^ 24

/-- Place of a window offset. -/
def winLoc (core off : Nat) : Loc :=
  match areaOf off with
  | some .store => .mem (storeKey (off - 0x400000))
  | some .vreg => .win core off
  | some .xreg => .win core off
  | some .inbox => .win core off
  | some .slink => .win core off
  | _ => .mem (winKey core off)

/-- HOME of a page as R211 compares it: the aperture's leaves have HOME 00. -/
def TlbEntry.attrHome (e : TlbEntry) : Nat := if e.home = 4 then 0 else e.home

/-- The page lies in the aperture, by whatever translation (R451). -/
def TlbEntry.aperture (e : TlbEntry) : Bool := inAperture e.pa

/-- Place of byte `a` of a translated page; none where no memory answers. -/
def TlbEntry.loc (e : TlbEntry) (a : Nat) : Option Loc :=
  if e.home = 4 then some (.hub (e.pa + a % 2 ^ 14 - 2 ^ 51)) else (physKey e.home (e.pa + a % 2 ^ 14)).map Loc.mem

/-- An access whose checks have passed: its parts, and the translations and marks it used. -/
structure Admitted where
  spans : List Span
  pages : List TlbEntry
  marks : Marks
  deriving DecidableEq, Repr

/-- Translate each page touched, ascending (Table 8-5 step 3). -/
def State.xlatePages (s : State) (w : Who) (acc : Acc) : List (Nat × Nat) → Except AFault (List TlbEntry × Marks)
  | [] => .ok ([], [])
  | (a, _) :: r =>
    match s.xlate w (BitVec.ofNat 64 a) acc with
    | .error f => .error f
    | .ok (e, m) =>
      match s.xlatePages w acc r with
      | .error f => .error f
      | .ok (es, ms) => .ok (e :: es, m ++ ms)

/-- What the home of a page delays or refuses an access. -/
def State.homeFault (s : State) (w : Who) (e : TlbEntry) (a : Nat) : Option AFault :=
  s.placeFault w.space.qif.toNat e.home (e.pa + a % 2 ^ 14) (BitVec.ofNat 64 a)

/-- Spans of a translated access, page by page, each cut at 64 bytes; none where no memory answers. -/
def spansOf : List (Nat × Nat) → List TlbEntry → Except AFault (List Span)
  | (a, n) :: r, e :: es =>
    let part := (cutAt 64 a (n + 1) n).map fun p => (p, e.loc p.1)
    match part.find? (fun q => q.2.isNone) with
    | some q => .error (.trap Cause.access (BitVec.ofNat 64 q.1.1))
    | none =>
      match spansOf r es with
      | .error f => .error f
      | .ok rest =>
        .ok ((part.filterMap fun q => q.2.map fun l => ⟨BitVec.ofNat 64 q.1.1, q.1.2, l, e.ca, e.home⟩) ++ rest)
  | _, _ => .ok []

/-- A translated access (Table 8-5 steps 3, 4 and 7). -/
def State.checkMapped (s : State) (w : Who) (ask : Ask) (va n : Nat) : Except AFault Admitted :=
  let gap := if ask.acc = .exec then none else s.leaseGap w (BitVec.ofNat 64 va) n
  let pages := cutAt (2 ^ 14) va (n + 1) n
  match s.xlatePages w ask.acc pages with
  | .error (.page fw k p a v st) =>
    match gap with
    | some g => .error (.lease g)
    | none => .error (.page fw k p a v st)
  | .error f => .error f
  | .ok (es, marks) =>
    match es with
    | [] => .ok ⟨[], [], []⟩
    | e0 :: _ =>
      match (pages.zip es).find? (fun q => q.2.ca != e0.ca || q.2.ver != e0.ver || q.2.attrHome != e0.attrHome) with
      | some q => .error (.trap Cause.misalignAttr (BitVec.ofNat 64 q.1.1))
      | none =>
        let first := BitVec.ofNat 64 va
        let plain := decide (e0.home = 4) && !w.user && w.engine.isNone && s.isService (coreOf w.tid) && n == 8 && va % 8 == 0 && ask.acc != .exec
        if e0.ver != ask.ver then .error (.trap Cause.access first)
        else if ask.atomic && decide (2 ≤ e0.ca) then .error (.trap Cause.access first)
        else if es.any TlbEntry.aperture && !plain then .error (.trap Cause.access first)
        else
          match gap with
          | some g => .error (.lease g)
          | none =>
            match (pages.zip es).findSome? (fun q => s.homeFault w q.2 q.1.1) with
            | some f => .error f
            | none =>
              match spansOf pages es with
              | .error f => .error f
              | .ok spans => .ok ⟨spans, es, marks⟩

/-- A window access (Table 8-5 steps 5 and 6). -/
def State.checkWindow (s : State) (w : Who) (ask : Ask) (va n : Nat) : Except AFault Admitted :=
  let parts := cutAt 64 va (n + 1) n
  match parts.find? (fun p => s.windowRefused w ask (winCore p.1) (winOff p.1)) with
  | some p => .error (.trap Cause.access (BitVec.ofNat 64 p.1))
  | none =>
    match parts.find? (fun p => s.keyRefused w ask (winCore p.1)) with
    | some p => .error (.trap Cause.windowKey (BitVec.ofNat 64 p.1))
    | none => .ok ⟨parts.map fun p => ⟨BitVec.ofNat 64 p.1, p.2, winLoc (winCore p.1) (winOff p.1), 0, 0⟩, [], []⟩

/-- First address of the on-chip window (R196). -/
def winBase : Nat := 0x7F0000000000
/-- First reserved address (R196). -/
def resBase : Nat := 0x7F1000000000

/-- The address range (R197, Table 8-5 step 1): what refuses `n` bytes at `a`. -/
def rangeFault (a n : Nat) : Option AFault :=
  if resBase < a + n then some (.trap Cause.access (BitVec.ofNat 64 (max a resBase)))
  else if a < winBase ∧ winBase < a + n then some (.trap Cause.access (BitVec.ofNat 64 winBase))
  else none

/-- The checks of Table 8-5 on `n` bytes at `va`. -/
def State.check (s : State) (w : Who) (ask : Ask) (va : Word) (n : Nat) : Except AFault Admitted :=
  let a := va.toNat
  if n = 0 then .ok ⟨[], [], []⟩
  else
    match rangeFault a n with
    | some f => .error f
    | none =>
      if a % ask.align ≠ 0 then .error (.trap Cause.misalign va)
      else if winBase ≤ a then s.checkWindow w ask a n
      else s.checkMapped w ask a n

/-! ## What an admitted access changes besides its bytes -/

/-- Set entry bits (R427). -/
def setMarks (m : Memory) : Marks → Memory
  | [] => m
  | (k, b) :: r => setMarks (m.put k (m.get k ||| BitVec.ofNat 8 b)) r

/-- Hold a translation in a TLB of `n` entries, newest first (R429). -/
def tlbFill (n : Nat) (tlb : List TlbEntry) (e : TlbEntry) : List TlbEntry :=
  if tlb.contains e then tlb
  else (e :: tlb.filter fun x => !(x.page == e.page && x.qif == e.qif && x.mode == e.mode && x.pasid == e.pasid)).take n

/-- Raise BOUND of a core over an LM offset that is reached (R208). -/
def State.raiseBound (s : State) (c off : Nat) : State :=
  if (s.core c).bound ≤ off / 2 ^ 14 then s.modCore c fun k => { k with bound := min (off / 2 ^ 14 + 1) (max k.bound k.spmax) }
  else s

/-- Apply `f` over a list, left to right. -/
def State.over {α : Type} (s : State) (l : List α) (f : State → α → State) : State := l.foldl f s

/-- A window access raises a core in C2 to C1 (R202). -/
def State.touchCore (s : State) (c : Nat) : State :=
  if (s.core c).cstate = .c2 then s.modCore c fun k => { k with cstate := .c1, idleSince := s.time } else s

/-- LPDDR6 has been accessed: its self-refresh ends (R380). -/
def State.wakesLpddr (s : State) : State := { s with power := { s.power with selfRefresh := false } }

/-- A thread, firmware or an engine has accessed LPDDR6: the 50 us of R380 begin again. -/
def State.usesLpddr (s : State) : State := { s with power := { s.power with selfRefresh := false, lpddrLast := s.time } }

/-- A part reached: a window part raises its core from C2, the island store behind it too (R202), an LM part its core's boundary
(R208); an LPDDR6 part ends self-refresh (R380). -/
def State.reach (s : State) (p : Span) : State :=
  match p.loc with
  | .mem k =>
    if k / 2 ^ 52 = 4 then
      let s := s.touchCore (bits k 24 12)
      if k % 2 ^ 24 < 2 ^ 18 then s.raiseBound (bits k 24 12) (k % 2 ^ 24) else s
    else if k / 2 ^ 52 = 5 then s.touchCore (winCore p.va.toNat)
    else if k / 2 ^ 52 = 0 then s.usesLpddr
    else s
  | .win c _ => s.touchCore c
  | .hub _ => s

/-- A thread's core and its cluster hold a translation (R429). -/
def State.holdTlb (s : State) (c : Nat) (e : TlbEntry) : State :=
  { s with clusterTlbs := s.clusterTlbs.set (clusterOf c) (tlbFill 4096 (s.clusterTlbs.get [] (clusterOf c)) e) }.modCore c fun k =>
    { k with tlb := tlbFill 64 k.tlb e }

/-- What an admitted access leaves of its translation: entry bits are set, in LPDDR6 as an access to it, a thread's misses are counted (Table
22-12; log entry 43), and translations are held. -/
def State.admitPages (s : State) (w : Who) (ad : Admitted) : State :=
  let s := { s with mem := setMarks s.mem ad.marks }
  let s := if ad.marks.any fun m => m.1 / 2 ^ 52 == 0 then s.usesLpddr else s
  if w.engine.isNone then
    let missed := ad.pages.countP fun e => !(s.tlbsOf w).contains e
    let s := if missed = 0 then s else s.modThr w.tid fun t => t.count 13 missed
    s.over ad.pages fun s e => s.holdTlb (coreOf w.tid) e
  else s

/-- An admitted access is performed: its translation is settled, boundaries raised. -/
def State.admitAccess (s : State) (w : Who) (ad : Admitted) : State := (s.admitPages w ad).over ad.spans State.reach

end Sys2Proof.Machine
end

