-- ==== Sys2Proof/Machine/Ram.lean ====
section
/-!
DEFINITION. Reading and writing the parts of an admitted access: memory bytes, register windows, inbox and stack-link words
(spec/08, R198 to R204; spec/11, R283; spec/14, R345), hub words as a load sees them (spec/19, Tables 19-8 to 19-12), the
write-combining buffer (spec/09, R226) and uncorrectable words (spec/22, R482).
-/
namespace Sys2Proof.Machine

/-! ## Plain bytes -/

/-- A key lies in the LM of a core. -/
def isLm (k : Nat) : Bool := k / 2 ^ 52 == 4 && decide (k % 2 ^ 24 < 2 ^ 18)

/-- LM offsets 0x7C8 to 0x7FF hold zero whatever is written (R203). -/
def constZero (k : Nat) : List Byte → List Byte
  | [] => []
  | b :: r => (if isLm k && decide (0x7C8 ≤ k % 2 ^ 24) && decide (k % 2 ^ 24 < 0x800) then 0 else b) :: constZero (k + 1) r

/-- Write consecutive bytes at a key: words covered whole are good again (Table 22-4), the LM step is touched (R208). -/
def State.poke (s : State) (k : Nat) (bs : List Byte) : State :=
  let s := { s with mem := s.mem.putBytes k (constZero k bs), bad := heal s.bad k bs.length }
  if isLm k then s.modCore (bits k 24 12) fun c => { c with touched := c.touched ||| BitVec.ofNat 16 (2 ^ (k % 2 ^ 24 / 2 ^ 14)) }
  else s

/-- Write a number of `n` bytes at a key. -/
def State.pokeNum (s : State) (k n v : Nat) : State := s.poke k (bytesOf n v)

/-- The held bytes that `out` picks leave the write-combining buffers for memory; a word that they cover whole has good check bits again (R482). -/
def State.landWc (s : State) (out : Nat × Nat × Byte × Nat → Bool) : State :=
  let es := s.wc.filter out
  let s : State := { s with wc := s.wc.filter (fun e => !out e), bad := healKeys s.bad (es.map fun e => e.2.1) }
  s.over es fun s e => s.poke e.2.1 [e.2.2.1]

/-- Flush a thread's write-combining bytes (R226). -/
def State.flushWc (s : State) (tid : Nat) : State := s.landWc fun e => e.1 == tid

/-- Hold bytes of a store to a CA 11 page; the 1 us of every byte of a granule begins again with it (R226). -/
def State.holdWc (s : State) (tid k : Nat) (bs : List Byte) : State :=
  let es := (bs.zip (countFrom k bs.length)).map fun p => (tid, p.2, p.1, s.time)
  let old := s.wc.filter fun e => !(e.1 == tid && k ≤ e.2.1 && e.2.1 < k + bs.length)
  { s with wc := (old.map fun e => if e.1 = tid ∧ e.2.1 / 64 = k / 64 then (e.1, e.2.1, e.2.2.1, s.time) else e) ++ es }

/-- Write-combined bytes leave 1 us after the last store to their granule (R226). -/
def State.expireWc (s : State) : State :=
  s.landWc fun e => decide (1000 ≤ s.time - e.2.2.2)

/-! ## Windows that are no memory -/

/-- The gang bound on a core: that of a slot whose record is RELEASED or STOPPING. -/
def State.gangAt (s : State) (c : Nat) : Option Nat := (countFrom (8 * c) 8).findSome? s.gangOf

/-- STATE of a core's stack link (Table 14-4): 0 UNLINKED, 1 UP, 2 DOWN. -/
def State.linkState (s : State) (c : Nat) : Nat :=
  match s.gangAt c with
  | none => 0
  | some g => if s.gangAt (partnerOf c) = some g then (if (s.core c).link.down then 2 else 1) else 0

/-- The 8-byte word at a window offset of the inbox or stack-link area. -/
def State.winWord (s : State) (c off : Nat) : Nat :=
  let k := s.core c
  if off = 0x150000 then k.inboxSize + k.inboxBase * 2 ^ 16
  else if off = 0x150008 then k.inboxHead.toNat
  else if off = 0x150010 then k.inboxTail.toNat
  else if off = 0x160000 then k.link.credits + k.link.fifo.length * 2 ^ 8 + s.linkState c * 2 ^ 16
  else if off = 0x160008 then k.link.pushed.toNat + k.link.popped.toNat * 2 ^ 32
  else 0

/-- One byte of a number. -/
def byteAt (v i : Nat) : Byte := BitVec.ofNat 8 (v / 2 ^ (8 * i))

/-- One byte of a window that is no memory (R198, R201). -/
def State.winByte (s : State) (c off : Nat) : Byte :=
  match areaOf off with
  | some .vreg =>
    let t := s.thr (c * 8 + (off - 0x130000) / 1024)
    byteAt (t.v.get (Fin.ofNat 16 (off % 1024 / 64))).toNat (off % 64)
  | some .xreg =>
    let t := s.thr (c * 8 + (off - 0x140000) / 256)
    if off % 256 < 8 then 0 else byteAt (t.x.get (Fin.ofNat 32 (off % 256 / 8))).toNat (off % 8)
  | _ => byteAt (s.winWord c (off / 8 * 8)) (off % 8)

/-- Replace byte `i` of a bit vector. -/
def setByte {w : Nat} (v : BitVec w) (i : Nat) (b : Byte) : BitVec w :=
  (v &&& ~~~(BitVec.ofNat w (0xFF * 2 ^ (8 * i)))) ||| BitVec.ofNat w (b.toNat * 2 ^ (8 * i))

/-- Replace one element of a vector, the index taken modulo its length. -/
def vset {α : Type} {n : Nat} [NeZero n] (v : Vector α n) (i : Nat) (a : α) : Vector α n := v.set (Fin.ofNat n i).val a (Fin.ofNat n i).isLt

/-- Write one byte of a register window; x0 is discarded (R198). -/
def State.setWinByte (s : State) (c off : Nat) (b : Byte) : State :=
  match areaOf off with
  | some .vreg => s.modThr (c * 8 + (off - 0x130000) / 1024) fun t =>
      { t with v := vset t.v (off % 1024 / 64) (setByte (t.v.get (Fin.ofNat 16 (off % 1024 / 64))) (off % 64) b) }
  | some .xreg =>
    if off % 256 < 8 then s
    else s.modThr (c * 8 + (off - 0x140000) / 256) fun t =>
      { t with x := vset t.x (off % 256 / 8) (setByte (t.x.get (Fin.ofNat 32 (off % 256 / 8))) (off % 8) b) }
  | _ => s

/-! ## Hub words as a load sees them -/

/-- BOOTSTAT (Table 22-8). -/
def State.bootstat (s : State) : Nat :=
  s.boot.kind + 4 * s.boot.fails + 16 * s.boot.lastStep + 4096 * b2n s.boot.recovery

/-- Ports up of the bridge, bit by port number, a dark PHY counting as down (R448, R485). -/
def State.portsUp (s : State) : Nat :=
  if (s.domain 0x82).dark then 0
  else b2n (s.ports.get Port.init 0).up + 2 * b2n (s.ports.get Port.init 1).up

/-- The ports-up bits of the bridge status show the ports again: a port has come up or gone down (R448, R485). -/
def State.showPorts (s : State) : State := s.setReg 0x1C08 (s.reg 0x1C08 - bits (s.reg 0x1C08) 1 2 * 2 + s.portsUp * 2)

/-- The word at a BAR0 offset as a load returns it: fields that mirror other state are computed here (Tables 19-8 to 19-12,
22-8, 22-9, R448), write-only fields read zero. -/
def State.hubWord (s : State) (off : Nat) : Nat :=
  if s.boot.recovery && decide (off < 0x80000) then 0
  else if off = 0x1C08 then s.bridgeBox % 2 + 2 * bits (s.reg 0x1C08) 1 3
  else if off = 0x1C48 then s.bootstat
  else if off = 0x80000 then s.boot.mailbox
  else if 0x10000 ≤ off ∧ off < 0x50000 ∧ (off - 0x10000) % 0x8000 = 0 then
    let q := (off - 0x10000) / 0x8000
    s.reg off % 8 + s.qTenant q * 2 ^ 8 + b2n (s.qEnabled q) * 2 ^ 16
  else s.reg off

/-- A load of a hub word: a read of VMINTIME clears the selected domain's live log. It starts again from the present voltage, which
the model does not know (a free value); a minimum that fell since the latch is carried into it (R487). -/
def State.hubRead (s : State) (off : Nat) : State :=
  if off = 0x1C40 && !s.boot.recovery then
    let d := s.reg 0x1C30 % 256
    if (s.domain d).vmin < s.reg 0x1C38 then s
    else
      let (v, s) := s.drawFree
      s.setDomain d { s.domain d with vmin := v.toNat % 2 ^ 16, vminTime := s.time }
  else s

/-! ## Parts of an admitted access -/

/-- The bytes of a part. -/
def State.spanBytes (s : State) (p : Span) : List Byte :=
  match p.loc with
  | .mem k => s.mem.getBytes k p.n
  | .win c off => (countFrom off p.n).map (s.winByte c)
  | .hub off => bytesOf p.n (s.hubWord off)

/-- The bytes of an access, part after part. -/
def State.bytesAt (s : State) (l : List Span) : List Byte := l.flatMap s.spanBytes

/-- First uncorrectable word among the parts: its key and the address of the word (R482). `part` asks only for words that a
store would cover in part. -/
def State.badSpan (s : State) (part : Bool) : List Span → Option (Nat × Word)
  | [] => none
  | p :: r =>
    match p.loc with
    | .mem k =>
      match (if part then badPart s.bad k p.n else badIn s.bad k p.n) with
      | some w => some (w, p.va + BitVec.ofNat 64 w - BitVec.ofNat 64 k)
      | none => s.badSpan part r
    | .win c off =>
      match (if part then badPart s.bad (winKey c off) p.n else badIn s.bad (winKey c off) p.n) with
      | some w => some (w, p.va + BitVec.ofNat 64 w - BitVec.ofNat 64 (winKey c off))
      | none => s.badSpan part r
    | .hub _ => s.badSpan part r

/-- Side effects of loading parts: hub reads, and the thread's own write-combining bytes leave first (R219, R226). -/
def State.loadEffect (s : State) (tid : Nat) (l : List Span) : State :=
  let s := if s.wc.any (fun e => e.1 == tid) then s.flushWc tid else s
  s.over l fun s p => match p.loc with | .hub off => s.hubRead off | _ => s

/-- Write the parts of an access; hub words are written by `hub`. -/
def State.writeSpans (s : State) (hub : State → Nat → Nat → State) (tid : Nat) (thread : Bool) :
    List Span → List Byte → State
  | [], _ => s
  | p :: r, bs =>
    let here := bs.take p.n
    let s' := match p.loc with
      | .mem k => if thread && decide (p.ca = 3) then s.holdWc tid k here
          else (if s.wc.any (fun e => e.1 == tid) then s.flushWc tid else s).poke k here
      | .win c off => { s with bad := heal s.bad (winKey c off) p.n }.over (here.zip (countFrom off p.n)) fun s q => s.setWinByte c q.2 q.1
      | .hub off => hub s off (ofBytes here)
    s'.writeSpans hub tid thread r (bs.drop p.n)

end Sys2Proof.Machine
end

