-- ==== Sys2Proof/Machine/Records.lean ====
section
/-!
DEFINITION. What the device writes for software: MSI-X messages (spec/19, R444), the error log (spec/22, R477, R478),
completion records (spec/15, R361; spec/19, R438, R515), fault records (R442), wake records (spec/16, R387) and trace records
(spec/22, R494, R495).
-/
namespace Sys2Proof.Machine

/-! ## Messages -/

/-- Send the message of an MSI-X entry, under its mask and pending bit (R444). -/
def State.msiSend (s : State) (i : Nat) : State :=
  let i := i % 256
  let ctl := s.reg (0x4000 + 16 * i + 8)
  if bit ctl 32 then s.setReg (0x5000 + 8 * (i / 64)) (s.reg (0x5000 + 8 * (i / 64)) ||| 2 ^ (i % 64))
  else { s with msi := s.msi ++ [⟨i, BitVec.ofNat 64 (s.reg (0x4000 + 16 * i)), BitVec.ofNat 32 ctl⟩] }

/-- Raise vector `v` of QIF q through the remap table (R444). -/
def State.raise (s : State) (q v : Nat) : State :=
  let e := s.reg (0x1400 + 8 * (32 * q + v % 32))
  if bit e 8 then s.msiSend (e % 256) else s.setReg 0x1C00 ((s.reg 0x1C00 + 1) % 2 ^ 64)

/-- Raise the error vector EVEC of a QIF. -/
def State.raiseErr (s : State) (q : Nat) : State := s.raise q (bits (s.reg (qpage q + 0x10)) 0 5)

/-! ## Error log -/

/-- The physical or window address that a memory key stands for (Table 22-2). -/
def addrOfKey (k : Nat) : Nat :=
  if k / 2 ^ 52 = 4 then winBase + k % 2 ^ 52
  else if k / 2 ^ 52 = 5 then winBase + 0xF00 * 2 ^ 24 + 0x400000 + k % 2 ^ 52
  else k % 2 ^ 52

/-- Write an error record, and send its message (R477, R478). -/
def State.logError (s : State) (kind domain unit tenant addr detail : Nat) : State :=
  let tail := s.reg 0x1C10
  if (tail + 2 ^ 64 - s.reg 0x1C18) % 2 ^ 64 = 256 then s.setReg 0x1C20 ((s.reg 0x1C20 + 1) % 2 ^ 64)
  else
    let at0 := 0x2000 + 32 * (tail % 256)
    let s := ((s.setReg at0 (kind + domain * 2 ^ 8 + unit * 2 ^ 16 + tenant * 2 ^ 28)).setReg (at0 + 8) addr).setReg (at0 + 16) detail
    let s := (s.setReg (at0 + 24) s.time).setReg 0x1C10 ((tail + 1) % 2 ^ 64)
    if bit (s.reg 0x1C28) 8 then s.msiSend (s.reg 0x1C28 % 256) else s

/-- Unit and domain of an error at a memory key (Table 22-2): the owning core of window state, else the home slice. -/
def unitOfKey (k : Nat) : Nat × Nat :=
  if k / 2 ^ 52 = 4 then (bits k 24 12, sramDomain (bits k 24 12))
  else if k / 2 ^ 52 = 5 then (0xFFF, 0x84)
  else if k / 2 ^ 52 = 1 then (0x800 + (Config.homeSlice k).val, 32 * hbmQuad (k % 2 ^ 52) + 24)
  else (0x800 + (Config.homeSlice k).val, 0x83)

/-- Tenant of a thread: that of its bind record. -/
def State.tenantOf (s : State) (tid : Nat) : Nat := if s.isService (coreOf tid) then 0 else (s.bind tid).tenant

/-- TENANT of a record about several tasks' tenants: theirs if they have one, else 0 (Table 22-2). -/
def soleTenant : List Nat → Nat
  | [] => 0
  | t :: r => if r.all (· == t) then t else 0

/-- UE_CONSUMED: an uncorrectable word met its consumer, who gets `code` (Table 22-4). -/
def State.logConsumed (s : State) (tid key code : Nat) : State :=
  s.logError 2 (unitOfKey key).2 (unitOfKey key).1 (s.tenantOf tid) (addrOfKey key) code

/-- The bad words that a store of `n` bytes at a key covers wholly: it is performed, each is good again, and a UE_CONSUMED record tells of
it (Table 22-4). The row gives the store no ECAUSE code: DETAIL is 0x28 (log entry 116). -/
def State.noteKey (s : State) (tenant k n : Nat) : State :=
  s.over (badWhole s.bad k n) fun s w => s.logError 2 (unitOfKey w).2 (unitOfKey w).1 tenant (addrOfKey w) Cause.dataError

/-- The same for the parts of a store. -/
def State.noteWhole (s : State) (tenant : Nat) (l : List Span) : State :=
  if s.bad.isEmpty then s
  else s.over l fun s p =>
    match p.loc with
    | .mem k => s.noteKey tenant k p.n
    | .win c off => s.noteKey tenant (winKey c off) p.n
    | .hub _ => s

/-! ## Memory of a QIF through its stage 2 (R438) -/

/-- Where `n` bytes at an intermediate address lie; the range must not cross a 16 KiB page. -/
def State.ringKey (s : State) (q ia : Nat) (acc : Acc) : Except AFault (Nat × Marks) :=
  match s.stage2 q ia acc (BitVec.ofNat 64 ia) with
  | .error f => .error f
  | .ok t =>
    match physKey t.home t.pa with
    | none => .error (.trap Cause.access (BitVec.ofNat 64 ia))
    | some k =>
      if (t.home = 3 ∧ s.bridgeUp = false) ∨ (t.home = 2 ∧ (s.domain 0x81).dark) then .error (.trap Cause.access (BitVec.ofNat 64 ia))
      else if t.home = 1 ∧ s.hbmDark t.pa then .error (.trap Cause.dataError (BitVec.ofNat 64 ia))
      else if t.home = 1 ∧ (s.quad (hbmQuad t.pa)).isOn = false then .error (.wake (hbmQuad t.pa))
      else .ok (k, [(t.key, acc.adBits)])

/-- A ring slot has been translated: entry bits are set, and an LPDDR6 entry or slot ends self-refresh (R380, R427). -/
def State.ringUsed (s : State) (k : Nat) (m : Marks) : State :=
  let s := { s with mem := setMarks s.mem m }
  if k / 2 ^ 52 = 0 ∨ (m.any fun p => p.1 / 2 ^ 52 == 0) = true then s.usesLpddr else s

/-- Little-endian bytes of words. -/
def wordBytesOf (l : List Word) : List Byte := l.flatMap fun w => bytesOf 8 w.toNat

/-- Write 8-byte words at an intermediate address of a QIF. -/
def State.ringWrite (s : State) (q ia : Nat) (l : List Word) : Except AFault State :=
  match s.ringKey q ia .write with
  | .error f => .error f
  | .ok (k, m) => .ok (((s.ringUsed k m).noteKey (s.qTenant q) k (8 * l.length)).poke k (wordBytesOf l))

/-- Word `i` of a list of words; 0 beyond its end. -/
def wordAt (l : List Word) (i : Nat) : Word := l.getD i 0

/-! ## Queues' registers -/

/-- Model state of a queue, keyed QIF x 64 + queue. -/
def State.queue (s : State) (q n : Nat) : Queue := s.queues.get Queue.init (64 * q + n)
/-- Put a queue's model state. -/
def State.setQueue (s : State) (q n : Nat) (v : Queue) : State := { s with queues := s.queues.set (64 * q + n) v }
/-- Model state of a QIF. -/
def State.qif (s : State) (q : Nat) : Qif := s.qifs.get Qif.init q
/-- Put a QIF's model state. -/
def State.setQif (s : State) (q : Nat) (v : Qif) : State := { s with qifs := s.qifs.set q v }

/-- Replace bits [lo+n-1:lo] of a number. -/
def putBits (w lo n v : Nat) : Nat := w - bits w lo n * 2 ^ lo + v % 2 ^ n * 2 ^ lo

/-- Stop a queue with a status code (R358, R513, R514, R515). -/
def State.stopQueue (s : State) (q n code : Nat) : State :=
  s.setReg (qdesc q n + 8) (putBits (putBits (s.reg (qdesc q n + 8)) 5 1 1) 16 8 code)

/-- RLOG or CLOG in its legal range. -/
def logOk (v : Nat) : Bool := decide (2 ≤ v) && decide (v ≤ 15)

/-- A queue that runs packets: QEN with both ring sizes legal, not STOPPED (Table 19-11). -/
def State.queueOn (s : State) (q n : Nat) : Bool :=
  let w := s.reg (qdesc q n + 8)
  bit w 4 && logOk (w % 16) && logOk (s.reg (qdesc q n + 0x28) % 16) && !bit w 5

/-! ## Fault records -/

/-- The next SEQ of a QIF: 24 bits, skipping 0 (Table 19-13). -/
def nextSeq (n : Nat) : Nat := if (n + 1) % 2 ^ 24 = 0 then 1 else (n + 1) % 2 ^ 24

/-- FEN with a legal FLOG (Table 19-12). -/
def State.faultRing (s : State) (q : Nat) : Bool :=
  bit (s.reg (qpage q + 0x1908)) 16 && logOk (s.reg (qpage q + 0x1908) % 16)

/-- The accesses that wait on held FILE_FAULT records take the response FAIL (Table 19-12, FEN). -/
def State.failHeld (s : State) (q : Nat) (l : List HeldRec) : State :=
  let seqs := (l.filter fun r => (wordAt r.words 0).toNat % 2 ^ 8 == 1).map fun r => bits (wordAt r.words 0).toNat 40 24
  { s with pageWaits := s.pageWaits.map fun w => if !w.firmware && w.qif == q && seqs.contains w.seq then { w with failed := true } else w }

/-- Try to write a fault record at FTAIL. -/
def State.putFault (s : State) (q : Nat) (r : HeldRec) : Option (Except AFault State) :=
  let size := 2 ^ (s.reg (qpage q + 0x1908) % 16)
  let tail := s.reg (qpage q + 0x1910)
  if (tail + 2 ^ 16 - s.reg (qpage q + 0x1918)) % 2 ^ 16 ≥ size then none
  else
    some (match s.ringWrite q (s.reg (qpage q + 0x1900) + 32 * (tail % size)) r.words with
    | .error f => .error f
    | .ok s =>
      .ok ((s.setReg (qpage q + 0x1910) ((tail + 1) % 2 ^ 16)).raise q (bits (s.reg (qpage q + 0x1908)) 8 5)))

/-- Write held fault records in order while there is room (R443, R515); a slot in HBM of a sleeping quadrant wakes it first (R378). -/
def State.writeFaults (s : State) (q : Nat) : List HeldRec → State
  | [] => s.setQif q { s.qif q with pend := [] }
  | r :: rest =>
    match s.putFault q r with
    | none => s.setQif q { s.qif q with pend := r :: rest }
    | some (.error (.wake h)) => (s.setQif q { s.qif q with pend := r :: rest }).accessWake h
    | some (.error _) => (s.setQif q { s.qif q with pend := r :: rest }).raiseErr q
    | some (.ok s) => s.writeFaults q rest

/-- The same while the ring is enabled; with FEN = 0, or FLOG out of range, held records are discarded unwritten and FILE faults take
the response FAIL (Table 19-12). -/
def State.flushFaults (s : State) (q : Nat) (l : List HeldRec) : State :=
  if s.faultRing q then s.writeFaults q l else (s.failHeld q l).setQif q { (s.failHeld q l).qif q with pend := [] }

/-- Post a fault record (Table 19-13); answers its SEQ, none with FEN = 0 (Table 19-12). -/
def State.postFault (s : State) (q kind queue pasid acc stage : Nat) (addr : Word) (index tag : Nat) : State × Option Nat :=
  if s.faultRing q then
    let seq := (s.qif q).seq
    let w0 := kind + queue * 2 ^ 8 + q * 2 ^ 14 + pasid * 2 ^ 17 + acc * 2 ^ 37 + stage * 2 ^ 39 + seq * 2 ^ 40
    let r : HeldRec := ⟨[BitVec.ofNat 64 w0, addr, BitVec.ofNat 64 (index + tag * 2 ^ 32), BitVec.ofNat 64 s.time], false, .fault⟩
    let s := s.setQif q { s.qif q with seq := nextSeq seq }
    if (s.qif q).pend.isEmpty then (s.flushFaults q [r], some seq)
    else (s.setQif q { s.qif q with pend := (s.qif q).pend ++ [r] }, some seq)
  else (s, none)

/-! ## Accesses that wait for a page (R430, R443) -/

/-- KINDACC of an access (Table 19-13). -/
def Acc.kindAcc : Acc → Nat
  | .read => 0
  | .exec => 2
  | _ => 1

/-- The access of a KINDACC code. -/
def accOf (n : Nat) : Acc := if n = 0 then .read else if n = 2 then .exec else .write

/-- Register an access that waits for a page; a FILE fault of a page already reported under its QIF shares the record (R443). `from_`
names the queue, index and TAG that a new record carries. -/
def State.addWait (s : State) (tid : Nat) (engine : Option (Nat × Nat)) (sp : Space) (from_ : Nat × Nat × Nat) (fw : Bool)
    (entry : Nat) (page addr va : Word) (acc : Acc) (stage : Bool) : State × Bool :=
  let q := sp.qif.toNat
  let s := if entry / 2 ^ 52 = 0 then s.usesLpddr else s
  let wait (seq : Nat) : PageWait := ⟨tid, engine, fw, entry, q, page, va, acc.kindAcc, stage, seq, s.time, false⟩
  if fw then ({ s with pageWaits := s.pageWaits ++ [wait 0] }, true)
  else
    match s.pageWaits.find? fun w => !w.firmware && !w.failed && w.entry == entry && w.page == page && w.qif == q with
    | some w => ({ s with pageWaits := s.pageWaits ++ [wait w.seq] }, true)
    | none =>
      match s.postFault q 1 from_.1 sp.pasid.toNat acc.kindAcc (b2n stage) addr from_.2.1 from_.2.2 with
      | (s, some seq) => ({ s with pageWaits := s.pageWaits ++ [wait seq] }, true)
      | (s, none) => (s, false)

/-- Whose work an access of firmware is: the marker under which it waits, and what a fault record names (queue, index, TAG). -/
structure FwJob where
  marker : Nat
  qif : Nat
  pasid : Nat
  from_ : Nat × Nat × Nat
  deriving DecidableEq, Repr

/-- The thread of service firmware that works for queues and tasks. -/
def fwTid : Nat := 0xF07 * 8

/-- The page wait of a job at an entry and page. -/
def State.jobWait (s : State) (j : FwJob) (entry : Nat) (page : Word) : Option PageWait :=
  s.pageWaits.find? fun w => w.engine == some (j.marker, 9) && w.entry == entry && w.page == page

/-- The page waits of a job are forgotten. -/
def State.dropJob (s : State) (marker : Nat) : State :=
  { s with pageWaits := s.pageWaits.filter fun w => w.engine != some (marker, 9) }

/-- The lowest valid entry of a QIF's allow list that names a PASID (R439). -/
def State.allowEntry (s : State) (q pasid : Nat) : Option Nat :=
  (countFrom 0 128).find? fun i =>
    bit (s.reg (qpage q + 0x1100 + 16 * i)) 63 && bits (s.reg (qpage q + 0x1100 + 16 * i)) 0 20 == pasid

/-- The stage-1 root of a PASID by the allow list; 0 where no entry allows it. -/
def State.allowRoot (s : State) (q pasid : Nat) : Nat :=
  match s.allowEntry q pasid with
  | some i => bits (s.reg (qpage q + 0x1108 + 16 * i)) 14 33
  | none => 0

/-- Service firmware as it reaches a tenant's addresses: two stages under the PASID, no U check, no lease check, no key. -/
def State.fwWho (s : State) (q pasid : Nat) : Who :=
  ⟨fwTid, false, ⟨BitVec.ofNat 3 q, false, BitVec.ofNat 33 (s.allowRoot q pasid), BitVec.ofNat 20 pasid, 0⟩, some (0xF07, 8)⟩

/-- What a failed access of firmware leads to: it waits for the host or for a wake, or the work fails with a cause and an address. -/
inductive FwFail where
  | later (s : State)
  | fail (s : State) (cause : Nat) (addr : Word)
  deriving DecidableEq, Repr

/-- UE_CONSUMED for an access of firmware on a QIF's behalf (Table 22-4). -/
def State.logFirmware (s : State) (q key : Nat) : State :=
  s.logError 2 (unitOfKey key).2 (unitOfKey key).1 (s.qTenant q) (addrOfKey key) Cause.dataError

/-- What a failed access of firmware leads to: a sleeping quadrant is woken and waited for (R378), a page served by the host is waited
for (R443). -/
def State.fwFailed (s : State) (j : FwJob) (acc : Acc) (f : AFault) : FwFail :=
  match f with
  | .trap c e => .fail s c e
  | .poison k e => .fail (s.logFirmware j.qif k) Cause.dataError e
  | .lease a => .fail s Cause.lease a
  | .wake q => .later (s.accessWake q)
  | .page fw entry page addr va stage =>
    match s.jobWait j entry page with
    | some w => if w.failed then .fail s acc.pageCause va else .later s
    | none =>
      match s.addWait fwTid (some (j.marker, 9)) (s.fwWho j.qif j.pasid).space j.from_ fw entry page addr va acc stage with
      | (s, true) => .later s
      | (s, false) => .fail s acc.pageCause va

/-! ## Completion and wake records -/

/-- Try to write a record at the completion ring's tail: none while the ring is full (R438); an error where the slot cannot be
written (R515). -/
def State.putRecord (s : State) (q n : Nat) (r : HeldRec) : Option (Except AFault State) :=
  let size := 2 ^ (s.reg (qdesc q n + 0x28) % 16)
  let tail := s.reg (qdesc q n + 0x30)
  if logOk (s.reg (qdesc q n + 0x28) % 16) = false ∨ (tail + 2 ^ 16 - s.reg (qdesc q n + 0x38)) % 2 ^ 16 ≥ size then none
  else
    some (match s.ringWrite q (s.reg (qdesc q n + 0x20) + 32 * (tail % size)) r.words with
    | .error f => .error f
    | .ok s =>
      let s := s.setReg (qdesc q n + 0x30) ((tail + 1) % 2 ^ 16)
      .ok (if r.irq then s.raise q (bits (s.reg (qdesc q n + 8)) 8 5) else s))

/-- A POSTED record has been written, or is discarded: its place frees (R386). -/
def State.freePlace (s : State) (tenant seq : Nat) : State :=
  let k := s.striker.get Striker.init tenant
  { s with striker := s.striker.set tenant { k with places := k.places.filter fun p => p.seq != seq } }

/-- What the writing of a record sets free. -/
def State.written (s : State) (r : HeldRec) : State :=
  match r.kind with
  | .posted tenant seq => s.freePlace tenant seq
  | .packet | .fault | .done => s

/-- The writing of a queue's records as firmware's accesses name it. -/
def ringJob (q n : Nat) : FwJob := ⟨0x1200 + 64 * q + n, q, 0, (n, 0, 0)⟩

/-- Write held records in order while there is room (R438). A slot that cannot be written stops the queue, the record held (R515); a
fault that can be serviced, or a sleeping quadrant, is waited for first. -/
def State.flushRecords (s : State) (q n : Nat) : List HeldRec → State
  | [] => s.setQueue q n { s.queue q n with pend := [] }
  | r :: rest =>
    match s.putRecord q n r with
    | none => s.setQueue q n { s.queue q n with pend := r :: rest }
    | some (.error f) =>
      let s := s.setQueue q n { s.queue q n with pend := r :: rest }
      (match s.fwFailed (ringJob q n) .write f with
      | .later s => s
      | .fail s _ _ => ((s.dropJob (ringJob q n).marker).stopQueue q n 0x02).raiseErr q)
    | some (.ok s) => ((s.dropJob (ringJob q n).marker).written r).flushRecords q n rest

/-- Write a completion or wake record, or hold it behind those already held. -/
def State.record (s : State) (q n : Nat) (r : HeldRec) : State :=
  if (s.queue q n).pend.isEmpty then s.flushRecords q n [r]
  else s.setQueue q n { s.queue q n with pend := (s.queue q n).pend ++ [r] }

/-- The queue has stopped on a record that could not be written, or on anything else. -/
def State.queueStopped (s : State) (q n : Nat) : Bool := bit (s.reg (qdesc q n + 8)) 5

/-- Held records are tried again: a page has been served, or a quadrant has come up. -/
def State.retryQueue (s : State) (q n : Nat) : State :=
  if s.queueStopped q n || (s.queue q n).pend.isEmpty then s else s.flushRecords q n (s.queue q n).pend

/-- A packet's completion record (Table 15-4). -/
def State.completion (s : State) (q n tag status sub index pass : Nat) (value : Word) : List Word :=
  [BitVec.ofNat 64 (tag + status * 2 ^ 16 + sub * 2 ^ 24 + n * 2 ^ 32 + q * 2 ^ 38),
   BitVec.ofNat 64 (index + pass * 2 ^ 32), value, BitVec.ofNat 64 s.time]

/-- First index not yet freed: HEAD moves past finished packets, up to the start of an open held region (R360). -/
def headFrom (finished : List Nat) (stop : Option Nat) : Nat → Nat → Nat
  | 0, h => h
  | fuel + 1, h => if finished.contains h && stop != some h then headFrom finished stop fuel ((h + 1) % 2 ^ 16) else h

/-- A packet has completed: it is no longer running, HEAD advances over what is finished and not held. -/
def State.finishPacket (s : State) (q n index : Nat) : State :=
  let v := s.queue q n
  let fin := if v.finished.contains index then v.finished else index :: v.finished
  let h := headFrom fin v.held.getLast? 65536 (s.reg (qdesc q n + 0x10))
  let freed := (h + 2 ^ 16 - s.reg (qdesc q n + 0x10)) % 2 ^ 16
  let fin := fin.filter fun i => !((i + 2 ^ 16 - s.reg (qdesc q n + 0x10)) % 2 ^ 16 < freed)
  (s.setQueue q n { v with running := v.running.filter (· != index), finished := fin }).setReg (qdesc q n + 0x10) h

/-- Ring index of a packet: its index modulo the ring size. -/
def State.ringIndex (s : State) (q n index : Nat) : Nat := index % 2 ^ (s.reg (qdesc q n + 8) % 16)

/-- A packet completes: PASS counts, the record where CREC or `force`, its interrupt, HEAD (R355, R361). -/
def State.completePacket (s : State) (q n index tag : Nat) (crec irq : Bool) (status sub : Nat) (value : Word) : State :=
  let v := s.queue q n
  let pass := (v.passes.get 0 index + 1) % 2 ^ 32
  let s := s.setQueue q n { v with passes := v.passes.set index pass }
  let s := if crec then s.record q n ⟨s.completion q n tag status sub index pass value, irq, .packet⟩ else s
  s.finishPacket q n index

/-! ## Addresses of a PASID, as service firmware reaches them (R357, R439) -/

/-- Firmware reads `n` bytes at a tenant's address. -/
def State.fwLoad (s : State) (q pasid : Nat) (va : Word) (n : Nat) : Except AFault (State × List Byte) :=
  let w := s.fwWho q pasid
  match s.check w (Ask.plain .read) va n with
  | .error f => .error f
  | .ok ad =>
    match s.badSpan false ad.spans with
    | some (k, a) => .error (.poison k a)
    | none => .ok (s.admitAccess w ad, s.bytesAt ad.spans)

/-- Firmware writes bytes at a tenant's address. A word of 8 bytes that is uncorrectable fails the store (R359, R391, R514); longer runs
cover such words whole. -/
def State.fwStore (s : State) (q pasid : Nat) (va : Word) (bs : List Byte) : Except AFault State :=
  let w := s.fwWho q pasid
  match s.check w (Ask.plain .write) va bs.length with
  | .error f => .error f
  | .ok ad =>
    match s.badSpan (bs.length != 8) ad.spans with
    | some (k, a) => .error (.poison k a)
    | none => .ok (((s.admitAccess w ad).noteWhole (s.qTenant q) ad.spans).writeSpans (fun s _ _ => s) 0 false ad.spans bs)

/-- Resolve what service firmware can resolve of its own access at once: a page it may make valid (R430; log entry 30). -/
def State.fwResolve (s : State) (f : AFault) : Option State :=
  match f with
  | .page true k _ _ _ _ => some { s with mem := s.mem.put k (s.mem.get k ||| 1) }
  | _ => none

/-- A firmware store, with what firmware can resolve resolved first. -/
def State.fwStoreR (s : State) (q pasid : Nat) (va : Word) (bs : List Byte) : Nat → Except AFault State
  | 0 => s.fwStore q pasid va bs
  | n + 1 =>
    match s.fwStore q pasid va bs with
    | .ok s => .ok s
    | .error f =>
      match s.fwResolve f with
      | some s => s.fwStoreR q pasid va bs n
      | none => .error f

/-- A firmware load, with what firmware can resolve resolved first. -/
def State.fwLoadR (s : State) (q pasid : Nat) (va : Word) (n : Nat) : Nat → Except AFault (State × List Byte)
  | 0 => s.fwLoad q pasid va n
  | k + 1 =>
    match s.fwLoad q pasid va n with
    | .ok r => .ok r
    | .error f =>
      match s.fwResolve f with
      | some s => s.fwLoadR q pasid va n k
      | none => .error f

/-! ## Trace records (R494, R495) -/

/-- Bytes before the first place of a buffer that is aligned to 64 bytes. -/
def traceBase (buffer : Word) : Nat := (64 - buffer.toNat % 64) % 64

/-- Write a record at the next place of a capture's buffer, or count it dropped; an error where the place's quadrant is asleep. -/
def State.tracePut (s : State) (c : Nat) (k : Capture) (bs : List Byte) : Except Nat State :=
  let drop (s : State) : State := { s with captures := s.captures.set c { k with dropped := k.dropped + 1 } }
  if k.size < k.used + bs.length then .ok (drop s)
  else
    match s.fwStoreR k.qif k.pasid.toNat (k.buffer + BitVec.ofNat 64 k.used) bs 16 with
    | .ok s => .ok { s with captures := s.captures.set c { k with used := k.used + bs.length } }
    | .error (.wake h) => .error h
    | .error _ => .ok (drop s)

/-- The records of a capture that wait are written in order while their places' quadrants serve; the first whose quadrant is asleep wakes it
and goes on waiting (R378). -/
def State.traceWrite (s : State) (c : Nat) : Nat → State
  | 0 => s
  | n + 1 =>
    match s.captures.find c with
    | none => s
    | some k =>
      match k.waits with
      | [] => s
      | bs :: rest =>
        match s.tracePut c { k with waits := rest } bs with
        | .ok s => s.traceWrite c n
        | .error h => s.accessWake h

/-- The records of a capture that wait are tried again. -/
def State.traceAgain (s : State) (c : Nat) : State :=
  match s.captures.find c with
  | some k => s.traceWrite c k.waits.length
  | none => s

/-- Write a trace record of `words` (a multiple of eight words) into a capture's buffer, after those that wait, or count it dropped. -/
def State.traceNext (s : State) (c : Nat) (words : List Word) : State :=
  match s.captures.find c with
  | none => s
  | some k =>
    let s : State := { s with captures := s.captures.set c { k with waits := k.waits ++ [wordBytesOf words] } }
    if k.waits.isEmpty then s.traceAgain c else s

/-- The same; a capture that replays writes nothing. -/
def State.trace (s : State) (c : Nat) (words : List Word) : State :=
  match s.captures.find c with
  | none => s
  | some k => if bit k.set 6 then s else s.traceNext c words

/-- Held records of every queue, held fault records whose slot can be written now, and trace records that wait are tried again. -/
def State.retryRings (s : State) : State :=
  let s := s.over s.queues fun s p => s.retryQueue (p.1 / 64) (p.1 % 64)
  let s := s.over s.qifs fun s p =>
    match (s.qif p.1).pend with
    | [] => s
    | r :: rest => (match s.putFault p.1 r with | some (.ok _) => s.flushFaults p.1 (r :: rest) | _ => s)
  s.over s.captures fun s p => s.traceAgain p.1

/-- Header words of a trace record (Table 22-14). -/
def State.traceHead (s : State) (kind len core slot gang : Nat) (sstep : Word) : List Word :=
  [BitVec.ofNat 64 (kind + len * 2 ^ 8 + core * 2 ^ 16 + slot * 2 ^ 28 + gang * 2 ^ 32), sstep, BitVec.ofNat 64 s.time]

/-- Fill a trace record to whole 64-byte units. -/
def padWords (l : List Word) : List Word := l ++ List.replicate ((8 - l.length % 8) % 8) 0

/-- A record of a gang in the capture that covers it, when the capture's set asks for it. -/
def State.traceGang (s : State) (g kind len core slot bitNo : Nat) (payload : List Word) : State :=
  match s.tasks.find g with
  | none => s
  | some t =>
    match t.capture with
    | none => s
    | some c =>
      match s.captures.find c with
      | none => s
      | some k => if bit k.set bitNo then s.trace c (padWords (s.traceHead kind len core slot g t.sstep ++ payload)) else s

end Sys2Proof.Machine
end

