-- ==== Sys2Proof/Machine/Matrix.lean ====
section
/-!
DEFINITION. The matrix unit (spec/06): tile formats and descriptors, block scales, the operations of queue entries and the
execution of the head entry (R161 to R173, R180 to R189).
-/
namespace Sys2Proof.Machine

/-! ## Descriptors and formats -/

/-- Classes of Table 6-2. -/
inductive TClass where
  | flt | int | mx | wb | fp32 | int32
  deriving DecidableEq, Repr

/-- FMT of a descriptor. -/
def dFmt (d : BitVec 23) : Nat := bits d.toNat 0 5
/-- Rows in use. -/
def dRows (d : BitVec 23) : Nat := bits d.toNat 5 4 + 1
/-- Elements per row. -/
def dCols (d : BitVec 23) : Nat := bits d.toNat 9 10 + 1
/-- RND. -/
def dRnd (d : BitVec 23) : Nat := bits d.toNat 19 3
/-- SAT. -/
def dSat (d : BitVec 23) : Bool := d.getLsbD 22

/-- Class of a format code. -/
def tClass (f : Nat) : TClass :=
  if f ≤ 3 then .flt else if f ≤ 6 then .int else if f ≤ 12 then .mx else if f ≤ 15 then .wb else if f = 16 then .fp32 else .int32

/-- Element bits of a format code. -/
def tBits (f : Nat) : Nat :=
  if f ≤ 1 then 16
  else if f = 6 ∨ f = 11 ∨ f = 15 then 4
  else if f = 9 ∨ f = 10 ∨ f = 14 then 6
  else if f = 16 ∨ f = 17 then 32
  else 8

/-- Largest COLS of a format. -/
def tMaxCols (f : Nat) : Nat := if f ≤ 1 then 128 else if tBits f = 4 then 512 else if tBits f = 32 then 64 else 256

/-- Multiple that COLS must be. -/
def tMultiple (f : Nat) : Nat := if f = 6 then 2 else if tClass f = .mx then 32 else if tClass f = .wb then 256 else 1

/-- Rounding group of a format. -/
def tGroup (f : Nat) : Nat := if f ≤ 1 then 8 else if tClass f = .wb then 256 else 32

/-- A valid descriptor (R155). -/
def descOk (d : BitVec 23) : Bool :=
  decide (dFmt d ≤ 17) && decide (dCols d ≤ tMaxCols (dFmt d)) && dCols d % tMultiple (dFmt d) == 0 && dRnd d != 7

/-- Bytes of a row in use. -/
def rowBytes (d : BitVec 23) : Nat := dCols d * tBits (dFmt d) / 8

/-- Scale blocks of a row and bytes of one (Table 6-10): none for unscaled formats. -/
def scaleBlocks (d : BitVec 23) : Nat × Nat :=
  match tClass (dFmt d) with
  | .mx => (dCols d / 32, 1)
  | .wb => (dCols d / 256, 4)
  | _ => (0, 1)

/-- Element format of a float, MX or WB code (Table 6-2). -/
def tElem (f : Nat) : Fmt :=
  if f = 0 then .bf16
  else if f = 1 then .f16
  else if f = 2 ∨ f = 7 ∨ f = 13 then .e4m3
  else if f = 3 ∨ f = 8 then .e5m2
  else if f = 9 then .e3m2
  else if f = 10 ∨ f = 14 then .e2m3
  else if f = 11 ∨ f = 15 then .e2m1
  else .f32

/-- Integer value of an element code of an integer or INT32 format (R71). -/
def tInt (f c : Nat) : Int := if f = 5 then (c : Int) else signed (tBits f) c

/-- Value of an element code without its block scale (R73, R71). -/
def tValue (f c : Nat) : FV :=
  if f = 12 then .fin (decide (signed 8 c < 0)) (signed 8 c).natAbs (-6) false
  else if tClass f = .int ∨ f = 17 then FV.ofInt (tInt f c)
  else (tElem f).decode c

/-- Rounding mode of a code of Table 3-11. -/
def rmOfCode (n : Nat) : Rm :=
  if n = 1 then .rmm else if n = 2 then .rup else if n = 3 then .rdn else if n = 4 then .rtz else if n = 5 then .rsr
  else if n = 6 then .dyn else .rne

/-! ## Tile state -/

/-- Descriptor of a tile. -/
def State.tdesc (s : State) (c : Nat) (t : TReg) : BitVec 23 := (s.core c).mx.tdesc.get t

/-- Change a core's matrix unit. -/
def State.modMx (s : State) (c : Nat) (f : Matrix → Matrix) : State := s.modCore c fun k => { k with mx := f k.mx }

/-- Row `i` of a tile as a number of 2,048 bits. -/
def State.tileRow (s : State) (c t i : Nat) : Nat := s.mem.longNum (tileKey c t i 0) 256

/-- Element `k` of a row. -/
def rowElem (row b k : Nat) : Nat := bits row (b * k) b

/-- Elements of a row. -/
def rowElems (row b n : Nat) : List Nat := (countFrom 0 n).map (rowElem row b)

/-- The scale of the block that holds element `k` of row `i` (R78 to R80); 1 for unscaled formats. -/
def State.blockScale (s : State) (c t i k : Nat) (f : Nat) : FV :=
  match tClass f with
  | .mx =>
    let e := (s.mem.get (scaleKey c t (16 * i + k / 32))).toNat
    if e = 255 then .nan else .fin false 1 ((e : Int) - 127) false
  | .wb => Fmt.f32.decode (s.mem.num (scaleKey c t (16 * i + 4 * (k / 256))) 4)
  | _ => .fin false 1 0 false

/-- Accumulator row `i`: 16 elements. -/
def State.accRow (s : State) (c n i : Nat) : List Nat :=
  let r := s.mem.longNum (accKey c n i 0) 64
  rowElems r 32 16

/-- Write the first elements of accumulator row `i`. -/
def State.putAccRow (s : State) (c n i : Nat) (l : List Nat) : State :=
  s.poke (accKey c n i 0) (bytesOf (4 * l.length) (packLanes 32 l))

/-! ## Flags of the unit -/

/-- Flags of entries: MXSTAT bits, and whether an accumulator's SAT is to be set. -/
structure MxFlags where
  f : Fst
  isat : Bool
  deriving DecidableEq, Repr

/-- MROUND (R162): binary32 under RNE, with no draw. -/
def mround (x : FV × BitVec 5) (st : MxFlags) : Nat × MxFlags :=
  let r := rnd .f32 .rne false x.1 (st.f.raise x.2)
  (r.1, { st with f := r.2 })

/-- An integer sum into an accumulator (R165). -/
def accInt (satint : Bool) (v : Int) (st : MxFlags) : Nat × MxFlags :=
  if satint ∧ clampS 32 v ≠ v then (wrap 32 (clampS 32 v), { st with isat := true }) else (wrap 32 v, st)

/-- Bounds of an integer format (Table 3-1). -/
def intBounds (f : Nat) : Int × Int :=
  if f = 5 then (0, 255) else (-(2 ^ (tBits f - 1) : Nat), (2 ^ (tBits f - 1) : Nat) - 1)

/-- Integer narrowing (R72); a clamp is recorded in ISAT. -/
def narrow (f : Nat) (sat : Bool) (v : Int) (st : MxFlags) : Nat × MxFlags :=
  let (lo, hi) := intBounds f
  if sat ∧ (v < lo ∨ hi < v) then (wrap (tBits f) (max lo (min hi v)), { st with isat := true }) else (wrap (tBits f) v, st)

/-- RND into a tile format (R86, R92). -/
def rndTile (f : Nat) (mode : Rm) (sat : Bool) (x : FV) (st : MxFlags) : Nat × MxFlags :=
  if f = 12 then
    let r := rndInt (-128) 127 (-6) mode x st.f
    (wrap 8 r.1, { st with f := r.2 })
  else if tClass f = .int ∨ f = 17 then
    let r := rndInt (intBounds f).1 (intBounds f).2 0 mode x st.f
    (wrap (tBits f) r.1, { st with f := r.2 })
  else
    let r := rnd (tElem f) mode sat x st.f
    (r.1, { st with f := r.2 })

/-- A value divided by a block scale; NaN where the scale is NaN, zero or infinite (R183). -/
def descale (x scale : FV) : FV :=
  if scale.isNan || scale.isZero || scale.isInf then .nan else (fDiv x scale).1

/-- RSR rounds this element, so it takes a draw (R168): `intPath` is integer narrowing. -/
def rsrDraws (mode : Rm) (intPath : Bool) : Bool := decide (mode = .rsr) && !intPath

/-! ## TMMA -/

/-- A pair of Table 6-7; the formats must be valid. -/
def pairOk (fa fb : Nat) (accInt32 : Bool) : Bool :=
  match tClass fa, tClass fb with
  | .int, .int => accInt32
  | .flt, .flt => !accInt32
  | .flt, .mx => !accInt32
  | .mx, .flt => !accInt32
  | .mx, .mx => !accInt32
  | .flt, .wb => !accInt32
  | .wb, .flt => !accInt32
  | .wb, .wb => !accInt32
  | _, _ => false

/-- Group size of a float pair (R161). -/
def pairGroup (fa fb : Nat) : Nat := max (tGroup fa) (tGroup fb)

/-- Exact sum of finite values on a common grid. -/
def exactSum : List FV → FV
  | [] => .fin false 0 0 false
  | .fin n m e _ :: r =>
    match exactSum r with
    | .fin n' m' e' _ =>
      if m = 0 then .fin n' m' e' false
      else if m' = 0 then .fin n m e false
      else let t := dyadicSum n m e n' m' e'; .fin (decide (t.1 < 0)) t.1.natAbs t.2 false
    | x => x
  | x :: _ => x

/-- group(i, j, g) of R163: elements of the group in the two rows, their scales; the value before MROUND, or as it stands. -/
def groupValue (a b : List FV) (sa sb : FV) : FV × BitVec 5 :=
  if a.any FV.isNan || b.any FV.isNan || sa.isNan || sb.isNan then (.nan, 0)
  else if (sa.isInf && sb.isZero) || (sb.isInf && sa.isZero) then (.nan, fNV)
  else
    let s := (fMul sa sb).1
    let ps := (a.zip b).map fun p => fMul p.1 p.2
    if ps.any (fun p => p.2 != 0) then (.nan, fNV)
    else
      let pos := ps.any fun p => p.1.isInf && !p.1.isNeg
      let neg := ps.any fun p => p.1.isInf && p.1.isNeg
      if pos && neg then (.nan, fNV)
      else if pos || neg then (if s.isZero then (.nan, fNV) else (.inf (neg != s.isNeg), 0))
      else
        let p := exactSum (ps.map Prod.fst)
        if s.isInf then (if p.isZero then (.nan, fNV) else (.inf (p.isNeg != s.isNeg), 0))
        else
          let x := (fMul p s).1
          (if x.isZero then .fin false 0 0 false else x, 0)

/-- One accumulator element of a float product, groups ascending (R164). -/
def floatElem (a b : List FV) (sa sb : Nat → FV) (g : Nat) : Nat → Nat → Nat → MxFlags → Nat × MxFlags
  | 0, _, c, st => (c, st)
  | fuel + 1, k, c, st =>
    let ga := (a.drop k).take g
    if ga.isEmpty then (c, st)
    else
      let (t, st) := mround (groupValue ga ((b.drop k).take g) (sa k) (sb k)) st
      let (c, st) := mround (fAdd .rne (Fmt.f32.decode c) (Fmt.f32.decode t)) st
      floatElem a b sa sb g fuel (k + g) c st

/-- Exact integer dot product. -/
def intDot : List Int → List Int → Int
  | a :: r, b :: q => a * b + intDot r q
  | _, _ => 0

/-- Fold over a list with flags, collecting results. -/
def mxMap {α : Type} (f : α → MxFlags → Nat × MxFlags) : List α → MxFlags → List Nat × MxFlags
  | [], st => ([], st)
  | a :: r, st =>
    let (v, st) := f a st
    let (l, st) := mxMap f r st
    (v :: l, st)

/-- Rows `i` of A with rows of B into accumulator row `i` (R180). -/
def State.tmmaRow (s : State) (c n ta tb : Nat) (da db : BitVec 23) (accd : BitVec 3) (i : Nat) (st : MxFlags) : State × MxFlags :=
  let fa := dFmt da
  let fb := dFmt db
  let k := dCols da
  let old := s.accRow c n i
  let ra := rowElems (s.tileRow c ta i) (tBits fa) k
  let (l, st) := mxMap (fun j st =>
      let prev := old.getD j 0
      let rb := rowElems (s.tileRow c tb j) (tBits fb) k
      if accd.getLsbD 0 then
        accInt (accd.getLsbD 1) (signed 32 prev + intDot (ra.map (tInt fa)) (rb.map (tInt fb))) st
      else
        floatElem (ra.map (tValue fa)) (rb.map (tValue fb)) (fun e => s.blockScale c ta i e fa) (fun e => s.blockScale c tb j e fb)
          (pairGroup fa fb) (k + 1) 0 prev st) (countFrom 0 (dRows db)) st
  (s.putAccRow c n i l, st)

/-- Fold rows with flags. -/
def State.mxRows (s : State) (f : State → Nat → MxFlags → State × MxFlags) : List Nat → MxFlags → State × MxFlags
  | [], st => (s, st)
  | i :: r, st =>
    let (s, st) := f s i st
    s.mxRows f r st

/-! ## TACCOUT, TACCADD, TCVT -/

/-- Integer narrowing is the path of a TACCOUT element (R181). -/
def accoutInt (accInt32 : Bool) (f : Nat) : Bool := accInt32 && (tClass f == .int || f == 17)

/-- One row of TACCOUT (R181). -/
def State.taccoutRow (s : State) (c t n cb : Nat) (d : BitVec 23) (accd : BitVec 3) (scale : Nat) (mode : Rm) (i : Nat)
    (st : MxFlags) : State × MxFlags :=
  let f := dFmt d
  let acc := s.accRow c n i
  let (l, st) := mxMap (fun j st =>
      let a := acc.getD j 0
      if accoutInt (accd.getLsbD 0) f then narrow f (dSat d) (signed 32 a) st
      else
        let v := if accd.getLsbD 0 then FV.ofInt (signed 32 a) else Fmt.f32.decode a
        let (y, st) := mround (fMul v (Fmt.f32.decode scale)) st
        rndTile f mode (dSat d) (descale (Fmt.f32.decode y) (s.blockScale c t i (16 * cb + j) f)) st) (countFrom 0 16) st
  (s.poke (tileKey c t i (2 * tBits f * cb)) (bytesOf (2 * tBits f) (packLanes (tBits f) l)), st)

/-- MROUND(tsA × tsB) is formed for every element; the flags of one are those of all (R181). -/
def tensorScale (a b : BitVec 32) (st : MxFlags) : Nat × MxFlags :=
  mround (fMul (Fmt.f32.decode a.toNat) (Fmt.f32.decode b.toNat)) st

/-- One row of TACCADD (R184). -/
def State.taccaddRow (s : State) (c d n : Nat) (accd : BitVec 3) (i : Nat) (st : MxFlags) : State × MxFlags :=
  let b := s.accRow c n i
  let (l, st) := mxMap (fun p st =>
      if accd.getLsbD 0 then accInt (accd.getLsbD 1) (signed 32 p.1 + signed 32 p.2) st
      else mround (fAdd .rne (Fmt.f32.decode p.1) (Fmt.f32.decode p.2)) st) ((s.accRow c d i).zip b) st
  (s.putAccRow c d i l, st)

/-- Integer narrowing is the path of a TCVT (R186). -/
def tcvtInt (fa fd : Nat) : Bool := (tClass fa == .int || fa == 17) && (tClass fd == .int || fd == 17)

/-- One row of TCVT: the source row is given, since every source element is read before any is written (R186). -/
def State.tcvtRow (s0 s : State) (c t ta : Nat) (da dd : BitVec 23) (mode : Rm) (i : Nat) (st : MxFlags) : State × MxFlags :=
  let fa := dFmt da
  let fd := dFmt dd
  let (l, st) := mxMap (fun p st =>
      if tcvtInt fa fd then narrow fd (dSat dd) (tInt fa p.1) st
      else
        let v := (fMul (tValue fa p.1) (s0.blockScale c ta i p.2 fa)).1
        rndTile fd mode (dSat dd) (descale v (s0.blockScale c t i p.2 fd)) st)
      ((rowElems (s0.tileRow c ta i) (tBits fa) (dCols da)).zip (countFrom 0 (dCols da))) st
  (s.poke (tileKey c t i 0) (bytesOf (rowBytes dd) (packLanes (tBits fd) l)), st)

/-! ## Entries -/

/-- Bad word among ranges (key, length): reads first, then partly covered destinations (Table 22-4). -/
def State.badRange (s : State) (reads parts : List (Nat × Nat)) : Option Nat :=
  match reads.findSome? (fun r => badIn s.bad r.1 r.2) with
  | some k => some k
  | none => parts.findSome? fun r => badPart s.bad r.1 r.2

/-- Rows of a tile in use, as ranges. -/
def tileRanges (c t : Nat) (d : BitVec 23) : List (Nat × Nat) :=
  (countFrom 0 (dRows d)).map fun i => (tileKey c t i 0, rowBytes d)

/-- Scale bytes of a tile in use, as ranges. -/
def scaleRanges (c t : Nat) (d : BitVec 23) : List (Nat × Nat) :=
  (countFrom 0 (dRows d)).map fun i => (scaleKey c t (16 * i), (scaleBlocks d).1 * (scaleBlocks d).2)

/-- The scale of the block that a 16-column block of a row lies in, by row. -/
def blockRanges (c t cb : Nat) (d : BitVec 23) : List (Nat × Nat) :=
  (countFrom 0 (dRows d)).map fun i =>
    match tClass (dFmt d) with
    | .mx => (scaleKey c t (16 * i + cb / 2), 1)
    | .wb => (scaleKey c t (16 * i + 4 * (cb / 16)), 4)
    | _ => (scaleKey c t (16 * i), 0)

/-- The first elements of accumulator rows, as ranges. -/
def accRanges (c n rows cols : Nat) : List (Nat × Nat) := (countFrom 0 rows).map fun i => (accKey c n i 0, 4 * cols)

/-- What an entry reads, and what it covers (R173). -/
def State.entryRanges (s : State) (c : Nat) (op : MxOp) : List (Nat × Nat) × List (Nat × Nat) :=
  match op with
  | .tmma n ta tb =>
    (tileRanges c ta (s.tdesc c ta) ++ tileRanges c tb (s.tdesc c tb) ++ scaleRanges c ta (s.tdesc c ta)
      ++ scaleRanges c tb (s.tdesc c tb) ++ accRanges c n (dRows (s.tdesc c ta)) (dRows (s.tdesc c tb)), [])
  | .taccout t n _ _ cb =>
    let d := s.tdesc c t
    let b := tBits (dFmt d)
    (accRanges c n (dRows d) 16 ++ blockRanges c t cb d,
      (countFrom 0 (dRows d)).map fun i => (tileKey c t i (2 * b * cb), 2 * b))
  | .taccadd d n => (accRanges c d 16 16 ++ accRanges c n 16 16, [])
  | .tzero _ => ([], [])
  | .taccz _ => ([], [])
  | .txch tp ta h =>
    let r := 8 * b2n h
    ([(tileKey c ta r 0, 2048), (scaleKey c ta (16 * r), 128), (tileKey (partnerOf c) tp r 0, 2048), (scaleKey (partnerOf c) tp (16 * r), 128)], [])
  | .tcvt t ta =>
    (tileRanges c ta (s.tdesc c ta) ++ scaleRanges c ta (s.tdesc c ta) ++ scaleRanges c t (s.tdesc c t),
      (countFrom 0 (dRows (s.tdesc c t))).map fun i => (tileKey c t i 0, rowBytes (s.tdesc c t)))

/-- Exchange `n` bytes at two keys. -/
def State.swapBytes (s : State) (a b n : Nat) : State :=
  let x := s.mem.longNum a n
  let y := s.mem.longNum b n
  (s.poke a (bytesOf n y)).poke b (bytesOf n x)

/-- The effect of an entry on tile state, with its flags and whether ACCD.SAT of an accumulator is set (R180 to R188). -/
def State.entryEffect (s : State) (c : Nat) (e : MxEntry) : State × MxFlags × Option AReg :=
  let st : MxFlags := ⟨⟨e.seed, 0⟩, false⟩
  let mx := (s.core c).mx
  match e.op with
  | .tmma n ta tb =>
    let da := s.tdesc c ta
    let r := s.mxRows (fun s i st => s.tmmaRow c n ta tb da (s.tdesc c tb) (mx.accd.get n) i st) (countFrom 0 (dRows da)) st
    (r.1, r.2, some n)
  | .taccout t n ta tb cb =>
    let d := s.tdesc c t
    let useScale := !accoutInt ((mx.accd.get n).getLsbD 0) (dFmt d)
    let (scale, st) := if useScale then tensorScale (mx.tscl.get ta) (mx.tscl.get tb) st else (0, st)
    let r := s.mxRows (fun s i st => s.taccoutRow c t n cb d (mx.accd.get n) scale (resolveRm e.frm (rmOfCode (dRnd d))) i st)
      (countFrom 0 (dRows d)) st
    (r.1, r.2, none)
  | .taccadd d n =>
    let r := s.mxRows (fun s i st => s.taccaddRow c d n (mx.accd.get d) i st) (countFrom 0 16) st
    (r.1, r.2, some d)
  | .tzero t =>
    ((s.poke (tileKey c t 0 0) (List.replicate 4096 0)).poke (scaleKey c t 0) (List.replicate 256 0), st, none)
  | .taccz n => (s.poke (accKey c n 0 0) (List.replicate 1024 0), st, none)
  | .txch tp ta h =>
    let r := 8 * b2n h
    ((s.swapBytes (tileKey c ta r 0) (tileKey (partnerOf c) tp r 0) 2048).swapBytes (scaleKey c ta (16 * r))
      (scaleKey (partnerOf c) tp (16 * r)) 128, st, none)
  | .tcvt t ta =>
    let da := s.tdesc c ta
    let dd := s.tdesc c t
    let r := s.mxRows (fun s' i st => State.tcvtRow s s' c t ta da dd (resolveRm e.frm (rmOfCode (dRnd dd))) i st)
      (countFrom 0 (dRows da)) st
    (r.1, r.2, none)

/-- Flags of an entry into MXSTAT, ACCD.SAT and the enqueuing thread's event counters (R159, R165, R493). -/
def State.entryFlags (s : State) (c : Nat) (e : MxEntry) (st : MxFlags) (sat : Option AReg) : State :=
  let s := s.modMx c fun m =>
    let accd := match sat with
      | some n => if st.isat then m.accd.set n.val (m.accd.get n ||| 4#3) n.isLt else m.accd
      | none => m.accd
    { m with mxstat := m.mxstat ||| BitVec.ofNat 6 (st.f.flags.toNat + 32 * b2n st.isat), accd := accd }
  s.modThr e.tid fun t => (t.countFlags st.f.flags).count 9 1

/-- A thread's deferred DATA_ERROR, before its handbacks (R460). -/
def Thread.deferData (t : Thread) (eval : Word) : Thread :=
  let d : Deferred := ⟨true, 0x28, eval, Vector.replicate 8 0⟩
  { t with deferred := (t.deferred.filter (·.isData)) ++ d :: t.deferred.filter fun x => !x.isData }

/-- Execute an entry taken from the head of a core's queue: DATA_ERROR discards the rest (R173). -/
def State.runEntry (s : State) (c : Nat) (e : MxEntry) (rest : List MxEntry) : State :=
  let r := s.entryRanges c e.op
  match s.badRange r.1 r.2 with
  | some k =>
    let s := (s.logConsumed e.tid k 0x28).modMx c fun m => { m with queue := [] }
    s.over ((e :: rest).map (·.tid)).eraseDups fun s tid => s.modThr tid (·.deferData (BitVec.ofNat 64 (addrOfKey k)))
  | none =>
    let s := s.modMx c fun m => { m with queue := rest }
    let (s, st, sat) := s.entryEffect c e
    s.entryFlags c e st sat

/-- Is the head entry a TXCH. -/
def headIsTxch : List MxEntry → Bool
  | ⟨.txch _ _ _, _, _, _⟩ :: _ => true
  | _ => false

/-- Execute the head entry of a core's own queue. -/
def State.mxHead (s : State) (c : Nat) : State :=
  match (s.core c).mx.queue with
  | [] => s
  | e :: rest => s.runEntry c e rest

/-- Execute the head entry of a core's queue; when the heads of a pair are both TXCH, both swaps execute, one after the other, the
lower-numbered core's first (R188). -/
def State.mxStep (s : State) (c : Nat) : State :=
  let p := partnerOf c
  if headIsTxch (s.core c).mx.queue && headIsTxch (s.core p).mx.queue then (s.mxHead (min c p)).mxHead (max c p) else s.mxHead c

/-- Let a core's queue drain (R172). -/
def State.mxDrain (s : State) (c : Nat) : Nat → State
  | 0 => s
  | n + 1 => if (s.core c).mx.queue.isEmpty then s else (s.mxStep c).mxDrain c n

/-- Put an entry at the tail of the queue of the thread's core, capturing FRM and the generator; `draws` are taken now (R168). -/
def drawN (seed : Word) : Nat → Word
  | 0 => seed
  | n + 1 => drawN (drawState seed) n

/-- Enqueue (R166, R167). -/
def State.enqueue (s : State) (op : MxOp) (draws : Nat) : State :=
  let t := s.me
  let s := s.modMx s.myCore fun m => { m with queue := m.queue ++ [⟨op, s.cur, t.csr.frm, t.csr.srseed⟩] }
  if draws = 0 then s else s.modMe fun t => { t with csr := { t.csr with srseed := drawN t.csr.srseed draws } }

end Sys2Proof.Machine
end

