-- ==== Sys2Proof/Machine/Tasks.lean ====
section
/-!
DEFINITION. What service firmware and dispatch hardware do to tasks and gangs: handbacks (spec/11, R280, R281), thread and team
images (spec/21, R471 to R475), gang stops (spec/13, R321), and the end of a task with its completion (spec/15, R359;
spec/21, R470).
-/
namespace Sys2Proof.Machine

/-! ## Handbacks -/

/-- EHB0 to EHB7 (Table 11-6). -/
def ehbWords (group fn cause whr : Nat) (resume dst src len caddr cval : Word) (arg ext : Nat) : Vector Word 8 :=
  ⟨#[BitVec.ofNat 64 (group + fn * 2 ^ 6 + cause * 2 ^ 12 + whr * 2 ^ 20), resume, dst, src, len, caddr, cval,
    BitVec.ofNat 64 (arg + ext * 2 ^ 32)], rfl⟩

/-- EHB words of a copy command. -/
def CopyCmd.ehb (c : CopyCmd) (cause whr : Nat) (resume : Word) : Vector Word 8 :=
  ehbWords 0x21 c.fn cause whr resume c.dst c.src c.len (if c.hasWord then c.caddr else 0) c.cval c.version 0

/-- Elements of a collective (R287). -/
def CollCmd.count (c : CollCmd) : Nat := c.len.toNat % 2 ^ 32

/-- EHB words of a collective. -/
def CollCmd.ehb (c : CollCmd) (cause whr : Nat) : Vector Word 8 :=
  ehbWords 0x22 c.fn cause whr 0 c.dst c.src c.len (if c.hasWord then c.caddr else 0)
    (BitVec.ofNat 64 c.ord) c.count c.ext.toNat

/-- Hand a command back: a deferred trap of the submitting thread (R280, R460). -/
def State.handBack (s : State) (tid code : Nat) (eval : Word) (ehb : Vector Word 8) : State :=
  s.modThr tid fun t => { t with deferred := t.deferred ++ [⟨false, BitVec.ofNat 8 code, eval, ehb⟩] }

/-! ## CSR words of a thread -/

/-- TSTATUS and its supervisor view (Tables 4-13, 21-4). -/
def tstatusWord (st : TStatus) (service : Bool) : Nat :=
  b2n st.apb + 2 * b2n st.waiting + 4 * b2n st.priv + 16 * b2n st.leaseMode + 32 * st.waitKind.toNat + 256 * b2n st.debug
    + 512 * b2n service

/-- ESTATUS (Table 21-3). -/
def estatusWord (t : TrapRegs) : Nat :=
  b2n t.trapped + 4 * b2n t.ppriv + 16 * b2n t.waitAbandon + 32 * t.pwaitKind.toNat

/-- ECAUSE. -/
def ecauseWord (t : TrapRegs) : Nat := t.code.toNat + 256 * b2n t.deferred
/-- ETVEC. -/
def etvecWord (t : TrapRegs) : Nat := b2n t.etvecEn + 4 * t.etvecBase.toNat
/-- STRIKETH (Table 14-5). -/
def strikethWord (c : Csrs) : Nat := c.thresh.toNat + b2n c.threshFmt * 2 ^ 32
/-- WAKECLASS (Table 14-6). -/
def wakeclassWord (c : Csrs) : Nat := c.wakeClass.toNat + 16 * c.wakeMask.toNat
/-- TRANSROOT (Table 19-5). -/
def transrootWord (a : Space) : Nat := a.qif.toNat + 8 * b2n a.mode + a.root.toNat * 2 ^ 14

/-! ## Images -/

/-- The deferred trap that an image holds: the first one pending, only while TRAPPED is 0 (R471). -/
def Thread.imaged (t : Thread) : List Deferred := if t.trap.trapped then [] else t.deferred.take 1

/-- SAVEINFO (Table 21-7): cause, SENSE, the handle recorded with APB, what is held. -/
def saveInfo (t : Thread) : Nat :=
  0x3F + t.sense.toNat * 2 ^ 8 + t.apbHandle.toNat * 2 ^ 20
    + (match t.imaged with | [] => 0 | d :: _ => if d.isData then 2 ^ 25 else 2 ^ 24)

/-- The thread image as words (Table 21-7); a deferred trap that is held stands in ECAUSE, EVAL and EHB0 to EHB7. -/
def threadImage (t : Thread) (service : Bool) : List Word :=
  let w (n : Nat) : Word := BitVec.ofNat 64 n
  let ec := match t.imaged with | [] => ecauseWord t.trap | d :: _ => d.code.toNat + 256
  let ev := match t.imaged with | [] => t.trap.eval | d :: _ => d.eval
  let eh := match t.imaged with | [] => t.trap.ehb | d :: _ => if d.isData then t.trap.ehb else d.ehb
  (0 :: (t.x.toList.drop 1)) ++
    (t.v.toList.flatMap fun v => (countFrom 0 8).map fun i => w (bits v.toNat (64 * i) 64)) ++ t.m.toList ++
    [t.pc, w (saveInfo t), w t.csr.fflags.toNat, w t.csr.frm.toNat, t.csr.srseed, t.csr.cycle, t.csr.instret,
      w (tstatusWord t.status service), w (strikethWord t.csr), w (wakeclassWord t.csr), w t.csr.vwaitlim.toNat,
      w (estatusWord t.trap), w t.trap.epc.toNat, w ec, ev, w (etvecWord t.trap), t.trap.escratch,
      w (transrootWord t.space), w t.space.pasid.toNat, w t.space.wkey.toNat] ++ eh.toList ++
    (t.csr.evcnt.toList.map fun c => w c.toNat) ++ (t.csr.evsel.toList.map fun c => w c.toNat) ++ List.replicate 28 0

/-- A vector of words read from a list. -/
def vecOf {n : Nat} (l : List Word) (from_ : Nat) : Vector Word n := Vector.ofFn fun i => l.getD (from_ + i.val) 0

/-- EHB0 to EHB7 of an image; the reserved bits of EHB0 read zero (R11, Table 11-6). -/
def ehbOf (l : List Word) : Vector Word 8 := (vecOf l 188).set 0 (l.getD 188 0 &&& 0x3FFFFF#64)

/-- A thread from its image (R475): SENSE, APB's handle, every register and CSR; WKEY is the bind record's. An FRM of 6 or 7 in the image,
which R83 says FRM never holds, leaves the field at 0 (log entry 114). -/
def threadOfImage (l : List Word) (key : BitVec 32) (more : List Deferred) : Thread :=
  let w (n : Nat) : Word := l.getD n 0
  let n (i : Nat) : Nat := (w i).toNat
  let info := n 169
  let ts := n 175
  let es := n 179
  let tr := n 185
  let held : List Deferred :=
    if bit info 24 then [⟨false, BitVec.ofNat 8 (n 181), w 182, ehbOf l⟩]
    else if bit info 25 then [⟨true, BitVec.ofNat 8 (n 181), w 182, Vector.replicate 8 0⟩] else []
  let pending := !held.isEmpty
  { Thread.init with
    x := vecOf l 0
    v := Vector.ofFn fun r => BitVec.ofNat 512 (ofBytes (wordBytesOf ((l.drop (32 + 8 * r.val)).take 8)))
    m := vecOf l 160
    pc := w 168
    slot := .active
    status := ⟨bit ts 0, false, bit ts 2, bit ts 4, BitVec.ofNat 3 (ts / 32), bit ts 8⟩
    trap := ⟨bit es 0, bit es 2, bit es 4, BitVec.ofNat 3 (es / 32), BitVec.ofNat 47 (n 180),
      if pending then 0 else BitVec.ofNat 8 (n 181), !pending && bit (n 181) 8, if pending then 0 else w 182,
      bit (n 183) 0, BitVec.ofNat 45 (n 183 / 4), w 184, if bit info 24 then Vector.replicate 8 0 else ehbOf l⟩
    csr := { Thread.init.csr with
      fflags := BitVec.ofNat 5 (n 170), frm := if n 171 % 8 < 6 then BitVec.ofNat 3 (n 171) else 0, srseed := w 172, cycle := w 173, instret := w 174,
      thresh := BitVec.ofNat 32 (n 176), threshFmt := bit (n 176) 32, wakeClass := BitVec.ofNat 2 (n 177),
      wakeMask := BitVec.ofNat 4 (n 177 / 16), vwaitlim := BitVec.ofNat 40 (n 178),
      evcnt := Vector.ofFn fun i => BitVec.ofNat 48 (n (196 + i.val)),
      evsel := Vector.ofFn fun i => BitVec.ofNat 9 (n (212 + i.val)) }
    space := ⟨BitVec.ofNat 3 tr, bit tr 3, BitVec.ofNat 33 (tr / 2 ^ 14), BitVec.ofNat 20 (n 186), key⟩
    sense := BitVec.ofNat 12 (info / 2 ^ 8)
    apbHandle := BitVec.ofNat 4 (info / 2 ^ 20)
    deferred := held ++ more }

/-- Bytes of a record's image: a UE_CONSUMED record for each bad word among those that a save takes (Table 22-4). The row gives its
consumer no ECAUSE code: DETAIL is 0x28 (log entry 116). -/
def State.noteSaved (s : State) (tid k n : Nat) : State :=
  if s.bad.isEmpty then s
  else s.over ((wordsOf k n).filter s.bad.contains) fun s w => s.logConsumed tid (8 * w) Cause.dataError

/-- Copy memory with the check bits of its words (Table 22-4, gang-stop save). Ranges and keys are multiples of 8. -/
def State.moveMem (s : State) (src dst n : Nat) : State :=
  let moved := (s.bad.filter fun w => decide (src / 8 ≤ w) && decide (w < (src + n) / 8)).map fun w => w - src / 8 + dst / 8
  { s with mem := s.mem.move src dst n, bad := heal s.bad dst n ++ moved }

/-- Top of the highest touched step of a core's LM, in bytes (R208). -/
def touchedTop (t : BitVec 16) : Nat := if t = 0 then 0 else (Nat.log2 t.toNat + 1) * 2 ^ 14

/-- A barrier word (R473). -/
def barrierWord (b : Barrier) : Nat := b.c + b.n * 2 ^ 16 + b2n b.g * 2 ^ 32

/-! ## Granules of a copy command (R277) -/

/-- Bytes of a run: ROWLEN, or the whole length of an unshaped command. -/
def CopyCmd.runLen (c : CopyCmd) : Nat := match c.shape with | some b => b.rowlen | none => c.len.toNat

/-- Payload bytes; CPY2 and CPYQ ignore N2 (R276). -/
def CopyCmd.total (c : CopyCmd) : Nat :=
  match c.shape with
  | some b => (if c.fn = 2 then b.n2 else 1) * b.n1 * b.rowlen
  | none => c.len.toNat

/-- The payload offset at which a command begins. -/
def CopyCmd.start (c : CopyCmd) : Nat := match c.shape with | some b => b.start | none => 0

/-- Plane, run and byte of a payload offset. -/
def CopyCmd.place (c : CopyCmd) (o : Nat) : Nat × Nat × Nat :=
  let r := o / c.runLen
  match c.shape with
  | some b => (r / b.n1, r % b.n1, o % c.runLen)
  | none => (0, 0, o)

/-- Destination of a payload offset. -/
def CopyCmd.dstAt (c : CopyCmd) (o : Nat) : Word :=
  let p := c.place o
  match c.shape with
  | some b => c.dst + BitVec.ofNat 64 p.1 * (if c.fn = 2 then b.dstr2 else 0) + BitVec.ofNat 64 p.2.1 * b.dstr1 + BitVec.ofNat 64 p.2.2
  | none => c.dst + BitVec.ofNat 64 o

/-- Bytes of the granule that begins at a payload offset: up to the next 64-byte boundary of destinations, within the run. -/
def CopyCmd.granLen (c : CopyCmd) (o : Nat) : Nat := min (64 - (c.dstAt o).toNat % 64) (c.runLen - o % c.runLen)

/-- Payload offsets of up to `n` granules from one on. -/
def CopyCmd.granules (c : CopyCmd) : Nat → Nat → List Nat
  | 0, _ => []
  | n + 1, o => if c.total ≤ o then [] else o :: c.granules n (o + c.granLen o)

/-- The lowest granule not performed, from one on that has been performed; `n` bounds the granules passed. -/
def CopyCmd.lowFrom (c : CopyCmd) : Nat → Nat → Nat
  | 0, o => o
  | n + 1, o => if o < c.total ∧ c.done.contains o then c.lowFrom n (o + c.granLen o) else o

/-- A granule has been performed. -/
def CopyCmd.perform (c : CopyCmd) (o : Nat) : CopyCmd :=
  let c := { c with done := o :: c.done, vwait := c.vwait.drop o }
  let low := c.lowFrom (c.done.length + 1) c.low
  { c with low := low, done := c.done.filter fun x => low < x }

/-- DONEMAP (R474): bit k for the k-th granule after the one at RESUME. -/
def CopyCmd.doneMap (c : CopyCmd) : Nat :=
  ((c.granules 257 c.low).tail.zip (countFrom 0 256)).foldl (fun a p => if c.done.contains p.1 then a + 2 ^ p.2 else a) 0

/-- A shape block from its 64 bytes (Table 11-5). -/
def shapeOf (bs : List Byte) : Shape :=
  let f (o n : Nat) : Nat := ofBytes ((bs.drop o).take n)
  let w (o : Nat) : Word := BitVec.ofNat 64 (f o 8)
  ⟨f 0 4, f 4 4, f 8 4, w 16, w 24, w 32, w 40, w 48, f 56 8, f 12 4⟩

/-- Members that read a shape block. -/
def shapedFn (fn : Nat) : Bool := fn == 1 || fn == 2 || fn == 4

/-- The shape block of a command as submitted. -/
def shapeWords : Option Shape → List Word
  | none => List.replicate 8 0
  | some b => [BitVec.ofNat 64 (b.rowlen + b.n1 * 2 ^ 32), BitVec.ofNat 64 (b.n2 + b.pad * 2 ^ 32), b.sstr1, b.sstr2, b.dstr1, b.dstr2, b.idx,
      BitVec.ofNat 64 b.start]

/-! ## Engine remainders and collective state (R472, R474; log entry 117) -/

/-- Who submitted a command, in a word: its slot, mode, whether it named a completion word, its address space. R474 gives bytes 104 to 111 of a
remainder record no contents, and R472 leaves the form of the collective state to the device (DESIGN CHOICE, log entry 117). -/
def ownerWord (slot : Nat) (user hasWord : Bool) (a : Space) : Word :=
  BitVec.ofNat 64 (slot % 8 + 2 ^ 3 * b2n user + 2 ^ 4 * b2n hasWord + 2 ^ 5 * a.qif.toNat + 2 ^ 8 * b2n a.mode + 2 ^ 9 * a.root.toNat +
    2 ^ 42 * a.pasid.toNat)

/-- The address space in an owner word, with the WKEY that the new binding gives. -/
def ownerSpace (w : Nat) (key : BitVec 32) : Space :=
  ⟨BitVec.ofNat 3 (w / 2 ^ 5), bit w 8, BitVec.ofNat 33 (w / 2 ^ 9), BitVec.ofNat 20 (w / 2 ^ 42), key⟩

/-- An engine remainder record of 192 bytes (R474). -/
def remainder (c : CopyCmd) : List Word :=
  (c.ehb 0 0 (BitVec.ofNat 64 c.low)).toList ++ [1#64] ++
    ((countFrom 0 4).map fun i => BitVec.ofNat 64 (bits c.doneMap (64 * i) 64)) ++
    [ownerWord (slotOf c.tid) c.user c.hasWord c.space, 0, 0] ++ shapeWords c.shape

/-- A command as the words of its remainder record say, on the core its team is bound to (R474): it goes on from RESUME, and skips the
granules set in DONEMAP. A CPYV granule's wait for room starts again. -/
def copyOfRemainder (l : List Word) (core : Nat) (key : BitVec 32) : CopyCmd :=
  let n (i : Nat) : Nat := (l.getD i 0).toNat
  let fn := bits (n 0) 6 6
  let c : CopyCmd := ⟨8 * core + n 13 % 8, fn, bit (n 13) 3, ownerSpace (n 13) key, l.getD 2 0, l.getD 3 0, l.getD 4 0,
    if shapedFn fn then some (shapeOf (wordBytesOf (l.drop 16))) else none, bit (n 13) 4, l.getD 5 0, l.getD 6 0, n 7 % 2 ^ 32, n 1, [], [], 0⟩
  let map := n 9 + 2 ^ 64 * n 10 + 2 ^ 128 * n 11 + 2 ^ 192 * n 12
  { c with done := (((c.granules 257 c.low).tail.zip (countFrom 0 256)).filter fun p => bit map p.2).map Prod.fst }

/-- A collective in eight words. -/
def collWords (c : CollCmd) : List Word :=
  [ownerWord (slotOf c.tid) c.user c.hasWord c.space,
    BitVec.ofNat 64 (c.ext.toNat + 2 ^ 32 * c.fn + 2 ^ 34 * (match c.root with | some r => 1 + 2 * r | none => 0)), c.len, c.dst, c.src, c.caddr,
    BitVec.ofNat 64 c.ord, 0]

/-- A collective as its eight words say, on the core its team is bound to. -/
def collOfWords (l : List Word) (core : Nat) (key : BitVec 32) : CollCmd :=
  let n (i : Nat) : Nat := (l.getD i 0).toNat
  let r := n 1 / 2 ^ 34
  ⟨8 * core + n 0 % 8, bits (n 1) 32 2, collOpOf (bits (n 1) 0 3), collFmtOf (bits (n 1) 3 4), bit (n 1) 7, l.getD 2 0,
    if r % 2 = 1 then some (r / 2) else none, bit (n 0) 3, ownerSpace (n 0) key, l.getD 3 0, l.getD 4 0, bit (n 0) 4, l.getD 5 0, n 6,
    BitVec.ofNat 32 (n 1)⟩

/-- Collectives that the 14 KiB of a team block hold behind two words (R472). -/
def collRoom : Nat := 223

/-! ## Team images (R472) -/

/-- SAVE of a record, aligned to 2 KiB (Table 15-9). -/
def BindRec.save (b : BindRec) : Nat := b[3].field 0 47 / 2 ^ 11 * 2 ^ 11

/-- The key of the team block of a record's thread, aligned to 64 KiB (R472). -/
def BindRec.block (b : BindRec) : Nat := keyOf 0 ((b.save - 2048 * b.tidx) / 2 ^ 16 * 2 ^ 16)

/-- Words of memory as an image is read: a bad word reads 0 here, and its consumer traps (Table 22-4). -/
def State.wordsAt (s : State) (k n : Nat) : List Word :=
  (countFrom 0 n).map fun i => if s.bad.contains (k / 8 + i) then 0 else BitVec.ofNat 64 (s.mem.num (k + 8 * i) 8)

/-- The first bad word among bytes that a restore takes into registers that hold no check bits. -/
def State.badImage (s : State) (k n : Nat) : Option Nat := if s.bad.isEmpty then none else badIn s.bad k n

/-- Save a team's image (Table 21-8) at a key, the threads' team having `team` members: LM up to the highest touched step, tile state, CSRs,
inbox, link, barriers with N the team size (Table 13-5, R473), engine remainders, collective state. -/
def State.saveTeam (s : State) (c base team : Nat) : State :=
  let k := s.core c
  let w (n : Nat) : Word := BitVec.ofNat 64 n
  let s := ((((s.noteSaved (8 * c) (winKey c 0) (touchedTop k.touched)).noteSaved (8 * c) (winKey c 0x100000) 0x10000).noteSaved (8 * c)
    (winKey c 0x110000) 0x1000).noteSaved (8 * c) (winKey c 0x120000) 0x2000)
  let s := s.usesLpddr.moveMem (winKey c 0) (base + 0x4000) (touchedTop k.touched)
  let s := s.moveMem (winKey c 0x100000) (base + 0x44000) 0x10000
  let s := s.moveMem (winKey c 0x110000) (base + 0x54000) 0x1000
  let s := s.moveMem (winKey c 0x120000) (base + 0x55000) 0x2000
  let csrs := (k.mx.tdesc.toList.map fun d => w d.toNat) ++ (k.mx.tscl.toList.map fun d => w d.toNat) ++
    (k.mx.accd.toList.map fun d => w d.toNat) ++ [w k.mx.mxstat.toNat]
  let s := s.poke (base + 0x57000) (wordBytesOf csrs)
  let s := s.poke (base + 0x57200) (wordBytesOf [w (s.winWord c 0x150000), w (s.winWord c 0x150008), w (s.winWord c 0x150010)])
  let fifo := k.link.fifo ++ k.link.transit
  let s := s.poke (base + 0x57240) (wordBytesOf [w fifo.length, w (s.winWord c 0x160008)])
  let s := s.poke (base + 0x57280) ((fifo.take 16).flatMap vecBytes)
  let s := s.poke (base + 0x57680) (wordBytesOf ([w k.touched.toNat] ++
    ((countFrom 0 4).map fun h => w (barrierWord { s.teamBars.get Barrier.init (4 * c + h) with n := team }))))
  let recs := (countFrom 0 8).flatMap fun i =>
    match k.copies.find i with
    | none => List.replicate 24 0#64
    | some cmd => remainder cmd
  let s := s.poke (base + 0x58000) (wordBytesOf recs)
  s.poke (base + 0x58800) (wordBytesOf ([w k.collCount, w (k.colls.take collRoom).length, 0, 0, 0, 0, 0, 0] ++ (k.colls.take collRoom).flatMap collWords))

/-- LM offsets 0x7C8 to 0x7FF of a core hold zero, whatever an image held (R203). -/
def State.clearConst (s : State) (c : Nat) : State :=
  { s with mem := s.mem.clear (winKey c 0x7C8) 56, bad := heal s.bad (winKey c 0x7C8) 56 }

/-- The engine remainders of a team block: the commands go on (R474). One whose record holds a bad word is handed back as the copy engine does
with a bad word that it reads (Table 22-4). -/
def State.restoreCopies (s : State) (c base : Nat) (key : BitVec 32) : State :=
  s.over (countFrom 0 8) fun s i =>
    let l := s.wordsAt (base + 0x58000 + 192 * i) 24
    let cmd := copyOfRemainder l c key
    match s.badImage (base + 0x58000 + 192 * i) 192 with
    | some k => (s.logConsumed cmd.tid k Cause.dataError).handBack cmd.tid Cause.engineError (BitVec.ofNat 64 (addrOfKey k))
        (cmd.ehb Cause.dataError 0 (BitVec.ofNat 64 cmd.low))
    | none => if bit (l.getD 8 0).toNat 0 then s.modCore c fun k => { k with copies := k.copies.set i cmd } else s

/-- The collective state of a team block, with the collectives kept beside it (R472). -/
def State.restoreColls (s : State) (c base : Nat) (key : BitVec 32) (more : List CollCmd) : State :=
  let head := s.wordsAt (base + 0x58800) 2
  let n := min collRoom (head.getD 1 0).toNat
  let l := (countFrom 0 n).map fun i => collOfWords (s.wordsAt (base + 0x58840 + 64 * i) 8) c key
  s.modCore c fun k => { k with collCount := (head.getD 0 0).toNat, colls := l ++ more.map fun q => { q with tid := 8 * c + slotOf q.tid } }

/-- Restore a team's image to a core (R475, R346): all but identity words, WKEY, credits and BOUND. LM above the steps saved reads zero (R208).
A barrier's watchdog starts from zero (Table 13-6). -/
def State.restoreTeam (s : State) (c base : Nat) (key : BitVec 32) (more : List CollCmd) : State :=
  let word (o : Nat) : Nat := ((s.wordsAt (base + o) 1).getD 0 0).toNat
  let touched := BitVec.ofNat 16 (word 0x57680)
  let n := word 0x57240 % 32
  let csr (i : Nat) : Nat := word (0x57000 + 8 * i)
  let barWord (h : Nat) : Barrier :=
    ⟨word (0x57688 + 8 * h) % 2 ^ 16, bit (word (0x57688 + 8 * h)) 32, bits (word (0x57688 + 8 * h)) 16 16,
      if word (0x57688 + 8 * h) % 2 ^ 16 = 0 then none else some s.time⟩
  let fifo := (countFrom 0 n).map fun i => vecOfBytes (wordBytesOf (s.wordsAt (base + 0x57280 + 64 * i) 8))
  let inbox := word 0x57200
  let counts := word 0x57248
  let top := touchedTop touched
  let s' := s.usesLpddr.moveMem (base + 0x4000) (winKey c 0) top
  let s' := { s' with mem := s'.mem.clear (winKey c top) (0x40000 - top), bad := heal s'.bad (winKey c top) (0x40000 - top) }.clearConst c
  let s' := s'.moveMem (base + 0x44000) (winKey c 0x100000) 0x10000
  let s' := s'.moveMem (base + 0x54000) (winKey c 0x110000) 0x1000
  let s' := s'.moveMem (base + 0x55000) (winKey c 0x120000) 0x2000
  let bars := (countFrom 0 4).foldl (fun m h => SMap.set m (4 * c + h) (barWord h)) s'.teamBars
  let s' := { s' with teamBars := bars }
  let s' := s'.modCore c fun k => { k with
    copies := []
    touched := touched
    bound := k.spmax
    inboxSize := inbox % 2 ^ 13
    inboxBase := bits inbox 16 12
    inboxHead := BitVec.ofNat 16 (word 0x57208)
    inboxTail := BitVec.ofNat 16 (word 0x57210)
    mx := ⟨Vector.ofFn fun i => BitVec.ofNat 23 (csr i.val), Vector.ofFn fun i => BitVec.ofNat 32 (csr (16 + i.val)),
      Vector.ofFn fun i => BitVec.ofNat 3 (csr (32 + i.val)), BitVec.ofNat 6 (csr 40) &&& 0x3D#6, []⟩
    link := { k.link with
      fifo := fifo, transit := [], creditTransit := 0
      pushed := BitVec.ofNat 32 counts, popped := BitVec.ofNat 32 (counts / 2 ^ 32) } }
  (s'.restoreCopies c base key).restoreColls c base key more

/-! ## The end of a task -/

/-- A slot whose record returns to FREE. -/
def State.freeSlot (s : State) (tid : Nat) : State :=
  { s with binds := s.binds.drop tid }.modThr tid fun t =>
    { t with slot := .unbound, wait := none, deferred := [], stopReq := false, pause := 0, migr := none,
             status := { t.status with waiting := false, apb := false } }

/-- A core that no bind record names any more: it holds no key and no commands (R200), and what its FIFO still held is discarded (R502). -/
def State.freeCore (s : State) (c : Nat) : State :=
  { s with teamBars := s.teamBars.filter fun p => p.1 / 4 != c }.modCore c fun k =>
    { k with key := none, copies := [], colls := [], collCount := 0, mx := { k.mx with queue := [] }, idleSince := s.time,
             link := { k.link with fifo := [], transit := [] } }

/-- Drop every region that carries a tenant's tag, and the island block's tag (R241, R257). -/
def State.dropTenant (s : State) (t : Nat) : State :=
  { s with regions := s.regions.filter fun p => !(p.2.tag == some t || (p.1 != islandRegion && p.1 % 256 == t)) }

/-- The logic and the SRAM domain of a core are powered. -/
def State.corePowered (s : State) (c : Nat) : Bool := (s.domain (logicDomain c)).powered && (s.domain (sramDomain c)).powered

/-- Status codes of completion records (Table 15-5). -/
def Status.ok : Nat := 0x00
def Status.refusedPasid : Nat := 0x01
def Status.badPacket : Nat := 0x02
def Status.badLaunch : Nat := 0x03
def Status.hashMismatch : Nat := 0x04
def Status.taskTrap : Nat := 0x05
def Status.lease : Nat := 0x06
def Status.domainLoss : Nat := 0x07
def Status.waitTimeout : Nat := 0x08
def Status.skipped : Nat := 0x09
def Status.argFault : Nat := 0x0A

/-- Threads whose records, in any state but FREE, name a gang. -/
def State.recordsOf (s : State) (g : Nat) : List Nat :=
  s.binds.keys.filter fun tid => (s.bind tid).gang == g && (s.bind tid).st != 0 && !s.isService (coreOf tid)

/-- The gang's threads and cores are freed, its waits, offers and images forgotten (R470). -/
def State.freeGang (s : State) (g : Nat) (t : Task) : State :=
  let ths := s.recordsOf g
  let s := s.over t.held fun s c => s.mxDrain c 32
  let s := s.over ths State.freeSlot
  let s := s.over t.held State.freeCore
  { s with offers := s.offers.filter (fun o => o.gid != g),
           wc := s.wc.filter (fun e => !ths.contains e.1),
           pageWaits := s.pageWaits.filter fun p => !ths.contains p.tid,
           slack := s.slack.drop g,
           tasks := s.tasks.drop g }

/-- The words of an ending are written, in order; one that waits leaves the rest. -/
def State.endStores (s : State) (e : Ending) : List (Word × Word × Bool) → State × Ending
  | [] => (s, { e with stores := [] })
  | (a, v, own) :: rest =>
    match s.fwStoreR e.qif e.pasid a (bytesOf 8 v.toNat) 16 with
    | .ok s => s.endStores e rest
    | .error f =>
      match s.fwFailed ⟨0x2000 + e.gid, e.qif, e.pasid, (e.queue, e.index, e.tag)⟩ .write f with
      | .later s => (s, { e with stores := (a, v, own) :: rest })
      | .fail s _ _ => s.endStores (if own then { e with failed := some a } else e) rest

/-- An ending: its words are written, then the LAUNCH completes (R359); one that waits for the host or for a wake is kept. -/
def State.finishEnd (s : State) (e : Ending) : State :=
  match s.endStores e e.stores with
  | (s, e) =>
    if !e.stores.isEmpty then { s with ends := s.ends ++ [e] }
    else
      let s := s.dropJob (0x2000 + e.gid)
      match e.failed with
      | some a =>
        if e.status = Status.ok then s.completePacket e.qif e.queue e.index e.tag true e.irq Status.argFault 0 a
        else s.completePacket e.qif e.queue e.index e.tag true e.irq e.status e.sub e.value
      | none => s.completePacket e.qif e.queue e.index e.tag e.crec e.irq e.status e.sub e.value

/-- Endings that wait are tried again. -/
def State.retryEnds (s : State) : State := { s with ends := [] }.over s.ends State.finishEnd

/-- A task ends, with a word that is to be written before its completion word, if any: its stores leave first (R359), the gang is freed,
the completion word is written, the LAUNCH completes. A gang that raw commands of the slot table released has no packet. -/
def State.endTaskWith (s : State) (g status sub : Nat) (value : Word) (first : List (Word × Word × Bool)) : State :=
  match s.tasks.find g with
  | none => s
  | some t =>
    let s := s.over (s.gangThreads g) State.flushWc
    let s := s.freeGang g t
    let s := if s.tasks.any (fun p => p.2.tenant == t.tenant) then s else { s with drops := s.drops ++ [t.tenant] }
    if 64 ≤ t.queue then s
    else
      s.finishEnd ⟨g, t.qif, t.queue, t.index, t.tag.toNat, t.pasid.toNat, t.crec, t.irq,
        first ++ (if t.cword = 0 then [] else [(t.cword, t.cval, true)]), none, status, sub, value⟩

/-- A task ends. -/
def State.endTask (s : State) (g status sub : Nat) (value : Word) : State := s.endTaskWith g status sub value []

/-! ## Gang stops -/

/-- Step 1 of a gang stop: every thread is to stop at its next boundary, its record is STOPPING (R321, R375). -/
def State.stopGang (s : State) (g : Nat) : State :=
  let ths := s.gangThreads g
  let s := s.over ths fun s tid =>
    if (s.bind tid).st = 2 then
      { s with binds := s.binds.set tid ((s.bind tid).setSt 3) }.modThr tid fun t => { t with stopReq := true }
    else s
  s.modTask g fun t => { t with state := .stopping }

/-- Write a thread's image to the SAVE of its record (R471); the image words of bad registers are bad (Table 22-4). -/
def State.saveThread (s : State) (tid : Nat) : State :=
  let k := keyOf 0 (s.bind tid).save
  let s := s.usesLpddr.poke k (wordBytesOf (threadImage (s.thr tid) (s.isService (coreOf tid))))
  { s with bad := s.bad ++ (badRegs s.bad tid).map fun n => k / 8 + n }

/-- Registers that a thread takes from the image at a key are bad where the image's words are. -/
def State.restoreRegs (s : State) (tid key : Nat) : State :=
  if s.bad.isEmpty then s
  else
    let mine := (countFrom 0 168).map fun n => regKey tid n / 8
    let from_ := (countFrom 0 168).filter fun n => s.bad.contains (key / 8 + n)
    { s with bad := s.bad.filter (fun w => !mine.contains w) ++ from_.map fun n => regKey tid n / 8 }

/-- A PC as a bind record holds it: 47 bits (Table 15-9). -/
def recordPc (pc : Word) : Word := pc &&& 0x7FFFFFFFFFFF#64

/-- A thread stops at its boundary (step 2 of Table 13-8): a wait is left with none of its effect, an unmatched offer is
withdrawn, and the image goes to SAVE; the record becomes PARKED with FRESH = 0 and the 47 bits of the PC that it holds (R321, R323, R374, R375). -/
def State.stopThread (s : State) (tid : Nat) : State :=
  let b := s.bind tid
  let s := { s.flushWc tid with offers := s.offers.filter (fun o => o.tid != tid),
                                pageWaits := s.pageWaits.filter fun p => !(p.tid == tid && p.engine.isNone) }
  let t := s.thr tid
  let s := s.over (badRegs s.bad tid) fun s n => s.logConsumed tid (regKey tid n) Cause.dataError
  let s := s.saveThread tid
  let b' := (b.set 0 (BitVec.ofNat 64 (b[0].toNat - b[0].toNat % 8 + 1))).set 2 (recordPc t.pc)
  { s with binds := s.binds.set tid b' }.setThr tid { t with slot := .stopped, wait := none, stopReq := false, pause := 0 }

/-- Every thread of a gang has stopped. -/
def State.allStopped (s : State) (g : Nat) : Bool :=
  s.binds.all fun p => !((s.bind p.1).gang == g && decide (2 ≤ (s.bind p.1).st))

/-- The lowest record of a gang on a core, by which its team block is found (R472). -/
def State.teamRec (s : State) (g c : Nat) : Option BindRec := ((s.recordsOf g).find? fun tid => coreOf tid == c).map s.bind

/-- Steps 3 to 6: queues drain, commands pause and are kept, team images are saved, the cores hold no key and no command; the records
stay PARKED, and the task re-enters waiting (R321, R346, R372, R375). -/
def State.saveGang (s : State) (g : Nat) : State :=
  match s.tasks.find g with
  | none => s
  | some t =>
    let ranks := t.ranks
    let s := s.over t.held fun s c => s.mxDrain c 32
    let s := s.over ranks fun s p => match s.teamRec g p.1 with | some b => s.saveTeam p.1 b.block b.team | none => s
    let recs := s.recordsOf g
    let s := s.over recs State.saveThread
    let keep (c : Nat) : Paused :=
      ⟨(recs.filter fun tid => coreOf tid == c).map fun tid => (slotOf tid, s.bind tid), (s.core c).colls.drop collRoom,
        (recs.filter fun tid => coreOf tid == c).map fun tid => ((s.bind tid).tidx, (s.thr tid).deferred.drop (s.thr tid).imaged.length)⟩
    let paused : SMap Paused := ranks.map fun p => (p.2, keep p.1)
    let s := s.over recs fun s tid => s.modThr tid fun t => { t with deferred := [] }
    let s := s.over t.held State.freeCore
    s.modTask g fun t => { t with state := if t.debugHeld then .debugStopped else .saved, savedCores := t.cores, cores := [], paused := paused, waitSince := s.time,
                                  level := t.launch.prio, rises := 0 }

end Sys2Proof.Machine
end

