-- ==== Sys2Proof/Machine/Hub.lean ====
section
/-!
DEFINITION. The hub's registers as a store to them acts (spec/19, R434 to R445; spec/20, R451; spec/22, R477, R487, R490, R492,
R496): field kinds per offset, what a write sets in motion, notifies, invalidations, fault responses and QIF resets.
-/
namespace Sys2Proof.Machine

/-! ## Invalidation (R432, R433, R435) -/

/-- Drop translations from every TLB, of cores and of clusters. -/
def State.dropTlb (s : State) (p : TlbEntry → Bool) : State :=
  { s with
    cores := s.cores.mapVals fun _ k => { k with tlb := k.tlb.filter fun e => !p e }
    clusterTlbs := s.clusterTlbs.mapVals fun _ l => l.filter fun e => !p e }

/-- The entries a TLBINV selector names (Table 19-7); `page` is a virtual or intermediate page number. -/
def selects (qif : Nat) (stage : Bool) (scope pasid page : Nat) (e : TlbEntry) : Bool :=
  if scope = 3 then true
  else if e.qif != qif then false
  else if scope = 2 then true
  else if scope = 1 then !e.global && e.pasid == pasid
  else if stage then !e.mode && decide (e.ipage / 2 ^ (e.isize - 14) = page / 2 ^ (e.isize - 14))
  else (e.global || e.pasid == pasid) && decide (e.page / 2 ^ (e.size - 14) = page / 2 ^ (e.size - 14))

/-- Wake a sleeping thread: it executes its instruction again at its next turn. -/
def Thread.wake (t : Thread) : Thread :=
  if t.slot = .asleep then { t with slot := .active, status := { t.status with waiting := false } } else t

/-- A sleeping WAITA watches its word (R333), or a sleeping versioned instruction its granule, through a translation that matches. -/
def Thread.waitsThrough (t : Thread) (p : TlbEntry → Bool) : Bool :=
  match t.wait with
  | some w => t.slot == .asleep && (w.why == .waita || w.why == .verLoad || w.why == .verStore) && w.leaf.any p
  | none => false

/-- Invalidate: matching translations leave every TLB. No access that used one is left outstanding (R432, R433): write-combined data leaves,
and the sleepers that watch through one wake and translate their address again. -/
def State.invalidate (s : State) (p : TlbEntry → Bool) : State :=
  let s := (s.landWc fun _ => true).dropTlb p
  { s with threads := s.threads.mapVals fun _ t => if t.waitsThrough p then t.wake else t }

/-! ## Fields of hub words -/

/-- A run of bits [hi:lo]. -/
def run (hi lo : Nat) : Nat := 2 ^ (hi + 1) - 2 ^ lo

/-- Field kinds of a word: RW, RO, W1C and WO bits; reserved bits are in none (Tables 19-2, 19-9 to 19-12, 22-1, 22-6, 22-9). -/
structure Fields where
  rw : Nat
  ro : Nat
  w1c : Nat
  wo : Nat
  deriving DecidableEq, Repr

/-- Fields of a QIF's register page, by offset in it. -/
def qifFields (o : Nat) : Fields :=
  if o = 0x0000 then ⟨0, 7, 0, 0⟩
  else if o = 0x0008 then ⟨0, 1, 2, 0⟩
  else if o = 0x0010 then ⟨run 4 0, 0, 0, 0⟩
  else if o = 0x0018 then ⟨0, 0, 0, 1⟩
  else if o = 0x0020 then ⟨run 46 14, 0, 0, 0⟩
  else if o = 0x0028 then ⟨0, 0, 0, run 25 0⟩
  else if o = 0x0030 then ⟨0, run 63 0, 0, 0⟩
  else if o = 0x0038 ∨ o = 0x0040 then ⟨0, 0, 0, run 31 0⟩
  else if 0x100 ≤ o ∧ o < 0x1100 then
    let k := o % 64
    if k = 0x00 then ⟨run 46 6, 0, 0, 0⟩
    else if k = 0x08 then ⟨run 3 0 + 16 + run 12 8, 32 + run 23 16, 0, 64⟩
    else if k = 0x10 ∨ k = 0x18 ∨ k = 0x30 then ⟨0, run 15 0, 0, 0⟩
    else if k = 0x20 then ⟨run 46 5, 0, 0, 0⟩
    else if k = 0x28 then ⟨run 3 0, 0, 0, 0⟩
    else ⟨run 15 0, 0, 0, 0⟩
  else if 0x1100 ≤ o ∧ o < 0x1900 then
    if o % 16 = 0 then ⟨run 19 0 + 2 ^ 63, 0, 0, 0⟩ else ⟨run 46 14, 0, 0, 0⟩
  else if o = 0x1900 then ⟨run 46 5, 0, 0, 0⟩
  else if o = 0x1908 then ⟨run 3 0 + run 12 8 + 2 ^ 16, 0, 0, 0⟩
  else if o = 0x1910 then ⟨0, run 15 0, 0, 0⟩
  else if o = 0x1918 then ⟨run 15 0, 0, 0, 0⟩
  else if o = 0x1920 then ⟨0, 0, 0, run 63 0⟩
  else ⟨0, 0, 0, 0⟩

/-- Fields of a hub word by BAR0 offset. -/
def hubFields (off : Nat) : Fields :=
  if 0x100 ≤ off ∧ off < 0x300 then
    let k := off % 64
    if k = 0x00 then ⟨1 + run 18 8 + run 27 20, 0, 4, 2⟩
    else if k = 0x08 then ⟨3 + run 46 14, 0, 0, 0⟩
    else if k = 0x10 then ⟨0, 0, 0, run 46 0⟩
    else if k = 0x18 then ⟨0, run 63 0, 0, 0⟩
    else if k = 0x20 then ⟨1 + run 46 2, 0, 0, 0⟩
    else ⟨0, 0, 0, 0⟩
  else if 0x410 ≤ off ∧ off < 0x1400 then
    if off % 16 = 0 then ⟨run 17 0 + run 63 32, 0, 0, 0⟩ else ⟨run 11 0 + run 51 25, 0, 0, 0⟩
  else if 0x1400 ≤ off ∧ off < 0x1C00 then ⟨run 8 0, 0, 0, 0⟩
  else if off = 0x1C00 ∨ off = 0x1C10 ∨ off = 0x1C20 ∨ off = 0x1C40 then ⟨0, run 63 0, 0, 0⟩
  else if off = 0x1C08 then ⟨0, 14, 0, 0⟩
  else if off = 0x1C18 ∨ off = 0x1C50 then ⟨run 63 0, 0, 0, 0⟩
  else if off = 0x1C28 then ⟨run 8 0, 0, 0, 0⟩
  else if off = 0x1C30 then ⟨run 7 0, 0, 0, 0⟩
  else if off = 0x1C38 then ⟨0, run 15 0, 0, 0⟩
  else if off = 0x1C58 then ⟨0, 0, 1, 0⟩
  else if 0x2000 ≤ off ∧ off < 0x4000 then (if off % 32 = 0 then ⟨0, run 35 0, 0, 0⟩ else ⟨0, run 63 0, 0, 0⟩)
  else if 0x4000 ≤ off ∧ off < 0x5000 then (if off % 16 = 0 then ⟨run 63 0, 0, 0, 0⟩ else ⟨run 32 0, 0, 0, 0⟩)
  else if 0x5000 ≤ off ∧ off < 0x5020 then ⟨0, run 63 0, 0, 0⟩
  else if 0x10000 ≤ off ∧ off < 0x50000 ∧ off % 0x8000 < 0x4000 then qifFields (off % 0x8000)
  else if off = 0x80008 then ⟨run 63 0, 0, 0, 0⟩
  else if off = 0x80010 then ⟨run 31 0, 0, 0, 0⟩
  else if off = 0x80018 then ⟨0, 0, 0, 3⟩
  else ⟨0, 0, 0, 0⟩

/-- A word after a store: RW bits as written, RO bits too through the aperture (R451), W1C bits cleared by ones. -/
def Fields.store (f : Fields) (old v : Nat) (aperture : Bool) : Nat :=
  ((if aperture then v &&& (f.rw ||| f.ro) else (v &&& f.rw) ||| (old &&& f.ro))) ||| (old &&& f.w1c &&& (2 ^ 64 - 1 - v))

/-! ## Notifies (R440, R441) -/

/-- Keys of NTAIL and NHEAD in the island store. -/
def ntailKey : Nat := storeKey 0x5D0000
def nheadKey : Nat := storeKey 0x5D0008

/-- Append a notify record; a full ring drops it and sets NLOST (R441). -/
def State.logNotify (s : State) (q : Nat) (w0 : Nat) : State :=
  let tail := s.mem.num ntailKey 8
  if (tail + 2 ^ 64 - s.mem.num nheadKey 8) % 2 ^ 64 = 4096 then s.setReg (qpage q + 8) (s.reg (qpage q + 8) ||| 2)
  else
    let s := s.poke (storeKey (0x5C0000 + 16 * (tail % 4096))) (bytesOf 8 w0 ++ bytesOf 8 s.time)
    s.pokeNum ntailKey 8 ((tail + 1) % 2 ^ 64)

/-- Service firmware reads the notify ring: NHEAD takes the count of records appended (R441). -/
def State.readNotifies (s : State) : State := s.pokeNum nheadKey 8 (s.mem.num ntailKey 8)

/-- RESETTING of a QIF. -/
def State.resetting (s : State) (q : Nat) : Bool := bit (s.reg (qpage q + 8)) 0

/-- A write to notify-page offset `o` of QIF q (R440): a good one sets TAIL, each is logged, a bad one is reported. -/
def State.notify (s : State) (q o v : Nat) : State :=
  if s.qEnabled q = false ∨ s.resetting q = true ∨ 512 ≤ o ∨ o % 8 ≠ 0 then s
  else
    let n := o / 8
    let tail := v % 2 ^ 16
    let pasid := bits v 16 20
    let head := s.reg (qdesc q n + 0x10)
    let ok := decide (v / 2 ^ 36 = 0) && (s.allowEntry q pasid).isSome &&
      decide ((tail + 2 ^ 16 - head) % 2 ^ 16 ≤ 2 ^ (s.reg (qdesc q n + 8) % 16))
    let s := if ok then s.setReg (qdesc q n + 0x18) tail else s
    let s := s.logNotify q (tail + pasid * 2 ^ 16 + n * 2 ^ 36 + q * 2 ^ 42)
    if ok then s else (s.postFault q 3 n pasid 0 0 0 tail 0).1

/-! ## Waits on pages (R430, R443) -/

/-- A page has been served: the thread that waited for it counts the fault (Table 22-12) and runs its access again. -/
def State.wakePage (s : State) (w : PageWait) : State :=
  match w.engine with
  | some _ => s
  | none => s.modThr w.tid fun t =>
      let t := t.count 17 1
      if t.slot = .asleep then { t with slot := .active, wait := none, status := { t.status with waiting := false } } else t

/-- FRESP (R443): the waiting accesses restart, or take their page cause with FAIL; an unknown SEQ does nothing. -/
def State.fresp (s : State) (q v : Nat) : State :=
  if bits v 24 39 ≠ 0 then s
  else
    let mine := fun (w : PageWait) => !w.firmware && w.qif == q && w.seq == v % 2 ^ 24 && v % 2 ^ 24 != 0
    if bit v 63 then ({ s with pageWaits := s.pageWaits.map fun w => if mine w then { w with failed := true } else w }).retryEnds.retryRings
    else
      let s' := s.over (s.pageWaits.filter mine) State.wakePage
      ({ s' with pageWaits := s'.pageWaits.filter fun w => !mine w }).retryEnds.retryRings

/-! ## Resetting a QIF (R445) -/

/-- Step 1: RESETTING is set; a reset requested while one runs joins it. -/
def State.qifResetStart (s : State) (q : Nat) : State :=
  (s.setReg (qpage q + 8) (s.reg (qpage q + 8) ||| 1)).setQif q { s.qif q with resetting := true }

/-- Steps 2 to 5: every gang of the QIF is stopped, so that its retired stores are performed (Table 13-8), and ends without a record; pending FILE
faults are discarded, held records that are no packet's stay held (log entry 94); queues are cleared, EVEC is raised. -/
def State.qifResetDone (s : State) (q : Nat) : State :=
  let mine := s.tasks.filter fun p => p.2.qif == q
  let s := s.over (mine.flatMap fun p => s.gangThreads p.1) State.flushWc
  let s := s.over mine fun s p => s.freeGang p.1 p.2
  let s := { s with pageWaits := s.pageWaits.filter fun w => w.qif != q, captures := s.captures.filter fun p => p.2.qif != q,
                    ends := s.ends.filter fun e => e.qif != q }
  let s := s.over (countFrom 0 64) fun s n =>
    let d := qdesc q n
    let s := s.setReg (d + 8) (s.reg (d + 8) - s.reg (d + 8) % 64 / 16 * 16)
    let s := ((s.setReg (d + 0x10) 0).setReg (d + 0x18) 0).setReg (d + 0x30) 0
    let kept := (s.queue q n).pend.filter fun r => r.kind != .packet
    let s := { s with queues := s.queues.drop (64 * q + n) }
    if kept.isEmpty then s else s.setQueue q n { Queue.init with pend := kept }
  let s := s.dropTlb fun e => e.qif == q
  let s := s.setQif q { s.qif q with
    pend := (s.qif q).pend.filter fun r => (wordAt r.words 0).toNat % 2 ^ 8 != 1, resetting := false }
  let s := s.setReg (qpage q + 8) (s.reg (qpage q + 8) / 2 * 2)
  let s := s.setReg (qcb q) (s.reg (qcb q) ||| 4)
  s.raiseErr q

/-! ## Debug stops (R320, R496) -/

/-- DBGRESUME: a gang of this QIF leaves its debug stop; one that a gang stop has saved since, or is saving, waits to be bound again, its age
counted from now (R371). -/
def State.debugResume (s : State) (q g : Nat) : State :=
  match s.tasks.find g with
  | some t =>
    if t.qif = q ∧ t.debugHeld = true then
      s.modTask g fun t => { t with
        state := if t.state = .debugStopped then .saved else t.state, waitSince := s.time, rises := 0, debugHeld := false }
    else if t.qif = q ∧ t.state = .debugStopped then
      let s := s.over (s.gangThreads g) fun s tid => s.modThr tid fun t => if t.slot = .stopped then { t with slot := .active } else t
      s.modTask g fun t => { t with state := .bound }
    else s
  | none => s

/-- DBGSTOP: a debug stop at the next firing of handle 0. -/
def State.debugStop (s : State) (q g : Nat) : State :=
  match s.tasks.find g with
  | some t => if t.qif = q then s.modTask g fun t => { t with debugReq := true } else s
  | none => s

/-! ## Side effects of a store -/

/-- A queue's second word: ring fields keep while QEN was 1; enabling starts at HEAD with PASS counts afresh; RESTART clears
STOPPED and writes held records first (Table 19-11, R515). -/
def State.queueCtl (s : State) (q n old v : Nat) : State :=
  let s := if bit old 4 then s.setReg (qdesc q n + 8) (putBits (s.reg (qdesc q n + 8)) 0 4 old)
    else if bit (s.reg (qdesc q n + 8)) 4 then
      s.setQueue q n { s.queue q n with next := s.reg (qdesc q n + 0x10), passes := [], finished := [], running := [], held := [],
                                        skipTo := none, watch := [] }
    else s
  if bit v 6 then
    let s := s.setReg (qdesc q n + 8) (putBits (s.reg (qdesc q n + 8)) 5 1 0)
    s.flushRecords q n (s.queue q n).pend
  else s

/-- What a store sets in motion, after the word has taken its new value. -/
def State.hubEffect (s : State) (off old v : Nat) : State :=
  if 0x100 ≤ off ∧ off < 0x300 then
    let q := (off - 0x100) / 64
    if off % 64 = 0 then
      -- TENANT is taken only with ENABLE 0 and no bound task or started packet (R436)
      let busy := s.tasks.any (fun p => p.2.qif == q) || (countFrom 0 64).any fun n => !(s.queue q n).running.isEmpty
      let s := if bit old 0 || busy then s.setReg off (putBits (s.reg off) 8 8 (bits old 8 8)) else s
      if bit v 1 then s.qifResetStart q else s
    else if off % 64 = 0x10 then
      let s := s.invalidate (if bit v 0 then fun e => e.qif == q && !e.mode else selects q true 0 0 (bits v 14 33))
      s.setReg (qcb q + 0x18) ((s.reg (qcb q + 0x18) + 1) % 2 ^ 64)
    else if off % 64 = 0x20 then (if bit (s.reg (qcb q)) 0 then s.setReg off old else s)
    else s
  else if 0x410 ≤ off ∧ off < 0x1400 ∧ off % 16 = 0 then
    let t := (off - 0x400) / 16
    if bit old 16 = false ∧ bit (s.reg off) 16 then
      { s with striker := s.striker.set t { s.striker.get Striker.init t with next := 1 } }
    else s
  else if off = 0x1C30 then
    let d := s.domain (v % 256)
    (s.setReg 0x1C38 d.vmin).setReg 0x1C40 d.vminTime
  else if off = 0x1C50 then
    match s.boot.quote with
    | none => { s with boot := { s.boot with quote := some (BitVec.ofNat 64 v) } }
    | some _ => s.setReg off old
  else if 0x4000 ≤ off ∧ off < 0x5000 ∧ off % 16 = 8 then
    let i := (off - 0x4000) / 16
    let p := 0x5000 + 8 * (i / 64)
    if bit (s.reg off) 32 = false ∧ bit (s.reg p) (i % 64) then (s.setReg p (s.reg p - 2 ^ (i % 64))).msiSend i else s
  else if off = 0x6000 then s.msiSend (v % 256)
  else if 0x10000 ≤ off ∧ off < 0x50000 then
    let q := (off - 0x10000) / 0x8000
    let o := off % 0x8000
    if 0x4000 ≤ o then s.notify q (o - 0x4000) v
    else if o = 0x18 then (if bit v 0 then s.qifResetStart q else s)
    else if o = 0x28 then
      let scope := if bits v 4 2 = 3 then 2 else bits v 4 2
      let page := s.reg (qpage q + 0x20) / 2 ^ 14
      let s := s.invalidate (selects q false scope (bits v 6 20) page)
      s.setReg (qpage q + 0x30) ((s.reg (qpage q + 0x30) + 1) % 2 ^ 64)
    else if o = 0x38 then s.debugResume q (v % 2 ^ 32)
    else if o = 0x40 then s.debugStop q (v % 2 ^ 32)
    else if 0x100 ≤ o ∧ o < 0x1100 then
      let n := (o - 0x100) / 64
      let k := o % 64
      if k = 0x08 then s.queueCtl q n old v
      else if k = 0x00 ∨ k = 0x20 ∨ k = 0x28 then (if bit (s.reg (qdesc q n + 8)) 4 then s.setReg off old else s)
      else if k = 0x10 ∧ s.reg off ≠ old then s.setQueue q n { s.queue q n with next := s.reg off }
      else if k = 0x38 then s.flushRecords q n (s.queue q n).pend
      else s
    else if o = 0x1900 ∨ o = 0x1908 ∨ o = 0x1918 then s.flushFaults q (s.qif q).pend
    else if o = 0x1920 then s.fresp q v
    else s
  else if off = 0x80018 then
    if s.boot.recovery && (s.boot.mailbox != 2) && (v % 4 == 1 || v % 4 == 2) then
      { s with boot := { s.boot with mailbox := 2, toFlash := v % 4 == 2 } }
    else s
  else s

/-- Fields that mirror other state, stored through the aperture: TENANT and ENABLED of a QIF page, BOOTSTAT, the mailbox's STATE,
the box number (R451). -/
def State.hubMirror (s : State) (off v : Nat) : State :=
  if 0x10000 ≤ off ∧ off < 0x50000 ∧ off % 0x8000 = 0 then
    let q := (off - 0x10000) / 0x8000
    s.setReg (qcb q) (putBits (putBits (s.reg (qcb q)) 8 8 (bits v 8 8)) 0 1 (bits v 16 1))
  else if off = 0x1C48 then
    { s with boot := { s.boot with kind := v % 4, fails := bits v 2 2, lastStep := bits v 4 8, recovery := bit v 12 } }
  else if off = 0x80000 then { s with boot := { s.boot with mailbox := v % 16 } }
  else if off = 0x1C08 then { s with bridgeBox := v % 2 }
  else s

/-- An 8-byte store to a hub word, from the host or through the aperture (R434, R451). While the recovery loader runs, only the
mailbox answers (R490); the mailbox answers always (Table 19-8), and its CMD acts while the loader runs. -/
def State.hubStore (s : State) (aperture : Bool) (off v : Nat) : State :=
  if s.boot.recovery && decide (off < 0x80000) then s
  else
    let old := s.reg off
    let f := hubFields off
    let s := if f.rw = 0 ∧ f.ro = 0 ∧ f.w1c = 0 then s else s.setReg off (f.store old v aperture)
    let s := if aperture then s.hubMirror off v else s
    if off = 0x6000 && !aperture then s else s.hubEffect off old v

end Sys2Proof.Machine
end

