-- ==== Sys2Proof/Machine/Start.lean ====
section
/-!
DEFINITION. Start-up and recovery (spec/22, R486 to R491), wake requests and wake records (spec/16, R382 to R387), and the
raise of a quadrant (R379).
-/
namespace Sys2Proof.Machine

/-! ## Starting (R488 to R491) -/

/-- Memory that a start leaves: host and partner memory always; on a warm start, whose always-on domain stays powered, LPDDR6 and
HBM with their training (Table 22-7), and the island store and Tabor's LM (R18). -/
def keptBy (warm : Bool) (key : Nat) : Bool :=
  let area := key / 2 ^ 52
  area == 2 || area == 3 ||
    (warm && (decide (area < 2) || area == 5 || (area == 4 && isTabor (bits key 24 12) && decide (key % 2 ^ 24 < 2 ^ 18))))

/-- Regions that a start leaves: those of the island version block while the always-on domain is powered (R240). -/
def keptRegion (warm : Bool) (rk : Nat) : Bool := warm && rk / 2 ^ 14 / 2 ^ 52 == 5

/-- Hub words a warm start keeps: the error log, which counts since cold start (Table 22-1). -/
def warmWord (off : Nat) : Bool :=
  (decide (0x1C10 ≤ off) && decide (off < 0x1C30)) || (decide (0x2000 ≤ off) && decide (off < 0x4000))

/-- A quadrant as a warm start finds it: a dark or hot one as it was, another afresh. -/
def Quad.restarted (v : Quad) : Quad :=
  if v.dark then { Quad.init with st := .off, dark := true }
  else if v.hot then { Quad.init with st := .gate, hot := true } else Quad.init

/-- The device with nothing running, after a start has begun: what the start keeps, everything else at its reset value. -/
def State.down (s : State) (warm : Bool) : State :=
  let t : State := { State.reset with
    agenda := s.agenda
    free := s.free
    time := if warm then s.time else 0
    threads := []
    cores := []
    binds := []
    mem := s.mem.filter fun c => keptBy warm c.1
    bad := s.bad.filter fun w => keptBy warm (8 * w)
    regions := s.regions.filter fun p => keptRegion warm p.1
    hub := if warm then s.hub.filter fun p => warmWord p.1 else []
    msi := s.msi
    ports := s.ports
    sent := s.sent
    bridgeBox := s.bridgeBox
    power := if warm then { Power.init with
        quads := #v[(s.quad 0).restarted, (s.quad 1).restarted, (s.quad 2).restarted, (s.quad 3).restarted]
        hbmTemp := s.power.hbmTemp
        hbmDouble := s.power.hbmDouble
        hbmHold := s.power.hbmHold
        misses := s.power.misses
        domains := s.power.domains.mapVals fun _ v => { Domain.init with
          powered := !v.dark, dark := v.dark, failed := v.failed, vmin := v.vmin, vminTime := v.vminTime }
        cooling := s.power.cooling }
      else { Power.init with cooling := s.power.cooling }
    striker := if warm then s.striker.map fun p => (p.1, { p.2 with places := [] }) else []
    boot := { s.boot with alive := false, fatal := false, quote := none, recovery := false, mailbox := 1 } }
  t.showPorts

/-- Step 9: the quadrants that the service mask allows, those with a service core (R373), come up to Q-ON as a WK2 wake leaves them (R383);
the others are off, a dark or hot one stays as it is. The wake is over when step 10 opens BAR0 (log entry 19). -/
def State.bringUp (s : State) (mask : List Nat) : State :=
  s.over (countFrom 0 4) fun s q =>
    if (s.quad q).lost then s
    else if mask.any fun c => !isTabor c && quadOf c == q then s.setQuad q Quad.init
    else (s.setQuad q { Quad.init with st := .off }).over (countFrom (32 * q) 28) fun s d => s.setDomain d { s.domain d with powered := false }

/-- Steps 7 to 10 with an image: its measurement is retained, its boot configuration is applied, the service cores run (log entry 12), the
quadrants come up, BAR0 opens. `kind` is what BOOTSTAT tells of this start. -/
def State.running (s : State) (kind : Nat) (image : Image) : State :=
  let mask := image.cfg.mask
  let s := s.bringUp mask
  { s with
    cur := mask.getLastD 0 * 8
    vspill := image.cfg.vspill
    threads := mask.map fun c => (c * 8, Thread.service)
    cores := mask.map fun c => (c, Core.running)
    binds := mask.map fun c => (c * 8, BindRec.service)
    boot := { s.boot with
      kind := kind, fails := 0, alive := true, recovery := false, mailbox := if kind = 2 then 5 else 1, cfg := image.cfg, sum := image.sum
      since := s.time } }

/-- A start that fails at a step: FAILS counts it, LASTSTEP names it; at the third failure the recovery loader runs (R488, R490). -/
def State.startFails (s : State) (step : Nat) : State :=
  let n := min 3 (s.boot.fails + 1)
  { s with boot := { s.boot with fails := n, lastStep := step, recovery := decide (n = 3), mailbox := 1 } }

/-- The step of Table 22-7 at which an attempt ends, 0 for none: the one named, which a warm start that skips it passes, or step 6, where the
image in the flash is not signed or, on a warm start, is not the one whose measurement is retained. -/
def State.failStep (s : State) (warm : Bool) (fail : Nat) : Nat :=
  let named := if fail ≤ 10 ∧ (warm && (fail == 3 || fail == 4)) = false then fail else 0
  let signed := s.boot.flash.good && (!warm || s.boot.sum == s.boot.flash.sum)
  if signed = false ∧ (named = 0 ∨ 6 < named) then 6 else named

/-- One start attempt; answers whether it has reached step 10. -/
def State.attempt (s : State) (warm : Bool) (fail : Nat) : State × Bool :=
  match s.failStep warm fail with
  | 0 => ((s.down warm).running (b2n warm) s.boot.flash, true)
  | k => ((s.down warm).startFails k, false)

/-- After an attempt that has failed the device starts again cold, until an attempt succeeds or the recovery loader runs; where such an attempt
fails is a free value (R488; log entry 127). -/
def State.startAgain (s : State) : Nat → State
  | 0 => s
  | n + 1 =>
    if s.boot.recovery then s
    else
      let (v, s) := s.drawFree
      match s.attempt false (v.toNat % 11) with
      | (s, true) => s
      | (s, false) => s.startAgain n

/-- A start whose first attempt fails at the step `fail` of Table 22-7, 0 for none. -/
def State.start (s : State) (warm : Bool) (fail : Nat) : State :=
  match s.attempt warm fail with
  | (s, true) => s
  | (s, false) => s.startAgain 3

/-- A service-core thread has stopped: FW_FAULT is logged; core 0xF07 makes the device take a warm start, counted in FAILS, and the
third leaves the recovery loader running (R490, R491). -/
def State.fwFault (s : State) (tid code : Nat) : State :=
  let s := s.logError 8 (logicDomain (coreOf tid)) (coreOf tid) 0 0 code
  if coreOf tid = 0xF07 then
    let fails := min 3 (s.boot.fails + 1)
    if fails = 3 then { s.down true with boot := { (s.down true).boot with fails := 3, recovery := true } }
    else
      match s.attempt true 0 with
      | (s, true) => { s with boot := { s.boot with fails := fails } }
      | (s, false) => s.startAgain 3
  else s

/-- A FATAL record of a domain stops the device: every QIF is reset, no packet starts (R486). -/
def State.fatal (s : State) (cause d tenant : Nat) : State :=
  let s := s.logError 7 d 0xFFF tenant 0 cause
  let s := s.over (countFrom 0 8) fun s q => (s.qifResetStart q).qifResetDone q
  { s with boot := { s.boot with fatal := true } }

/-! ## Wakes (R382 to R387) -/

/-- The quadrants a QMASK names; 0 names all four. -/
def expandMask (m : Nat) : Nat := if m = 0 then 15 else m

/-- Quadrants 0 to 3 that a mask names. -/
def quadsOf (mask : Nat) : List Nat := (countFrom 0 4).filter fun q => bit mask q

/-- The class a quadrant asks of a wake: that of the wake it joins, else of its depth (R382, R384). -/
def State.wakeClassOf (s : State) (q : Nat) : Nat :=
  if (s.quad q).waking then
    match s.power.wakes.find? fun w => bit w.mask q with
    | some w => w.cls
    | none => (s.quad q).st.level - 1
  else (s.quad q).st.level - 1

/-- Begin to wake one quadrant: a raise in progress turns into a wake, a fall is aborted (R384). -/
def State.beginWake (s : State) (q : Nat) : State :=
  if (s.quad q).isOn || (s.quad q).lost then s else s.beginRise q 0 true

/-- Contracted time of a class in ns (Table 16-4). -/
def contract (cls : Nat) : Nat := if cls = 0 then 15000 else if cls = 1 then 250000 else 2500000

/-- A 32-byte wake record (Table 16-5). -/
def wakeRecord (status cls : Nat) (miss failed : Bool) (mask q n seq core : Nat) (score : BitVec 32) (fmt : Bool) (time : Nat) :
    List Word :=
  [BitVec.ofNat 64 (status * 2 ^ 16 + cls * 2 ^ 24 + b2n miss * 2 ^ 26 + b2n failed * 2 ^ 27 + mask * 2 ^ 28 + n * 2 ^ 32 + q * 2 ^ 38),
   BitVec.ofNat 64 (seq + core * 2 ^ 32), BitVec.ofNat 64 (score.toNat + b2n fmt * 2 ^ 32), BitVec.ofNat 64 time]

/-- Service firmware takes a POSTED record: into the ring of its WAKEQ, where it keeps its place until it is written, or to nothing
where WAKEQ is not valid (R386). -/
def State.deliverStrike (s : State) (t : Nat) (r : StrikeRec) : State :=
  match r.wakeq with
  | some (q, n) =>
    let k := s.striker.get Striker.init t
    let mark (p : StrikeRec) : StrikeRec := if p.seq = r.seq then { p with taken := true } else p
    let s := { s with striker := s.striker.set t { k with places := k.places.map mark } }
    s.record q n ⟨wakeRecord 0x20 r.cls false false r.mask q n r.seq r.core r.score r.fmt r.time, true, .posted t r.seq⟩
  | none => s.freePlace t r.seq

/-- A DONE record follows its POSTED record: the tenant's records up to that one are delivered first (R387). -/
def State.deliverUpTo (s : State) (seq core : Nat) : State :=
  let it (r : StrikeRec) : Bool := r.seq == seq && r.core == core
  match s.striker.find? fun p => p.2.places.any it with
  | none => s
  | some (t, k) =>
    s.over ((k.places.takeWhile (fun r => !it r) ++ k.places.filter it).filter fun r => !r.taken) fun s r => s.deliverStrike t r

/-- A wake is over (R385): a miss is counted and reported, a DONE record goes to the WAKEQ of the striking task. `strike` of a
wake is (QIF and queue packed as 64 x QIF + queue + 512 when WAKEQ is valid, sequence number, core and QIF as core + 4096 x QIF). -/
def State.wakeDone (s : State) (w : Wake) : State :=
  let miss := decide (contract w.cls < s.time - w.request)
  let s := { s with power := { s.power with wakes := s.power.wakes.filter (·.id != w.id) } }
  let s := if miss then
      let s := { s with power := { s.power with misses := min 65535 (s.power.misses + 1) }, threads := s.threads.mapVals fun _ t => t.count 15 1 }
      s.logError 9 0x85 0xFFF 0 0 (s.time - w.request)
    else s
  match w.strike with
  | none => if miss then s.raiseErr 0 else s
  | some (wq, seq, from_) =>
    let s := s.deliverUpTo seq (from_ % 4096)
    if 512 ≤ wq then
      let q := wq % 512 / 64
      let n := wq % 64
      let s := s.record q n ⟨wakeRecord 0x21 w.cls miss w.failed w.mask q n seq (from_ % 4096) 0 false s.time, true, .done⟩
      if miss then s.raise q (bits (s.reg (qdesc q n + 8)) 8 5) else s
    else if miss then s.raiseErr (from_ / 4096) else s

/-- A wake is complete: every quadrant it names is in Q-ON with its lowest service core's first instruction issued, or cannot be woken
(R382, R384). -/
def State.wakeReady (s : State) (w : Wake) : Bool :=
  (quadsOf w.mask).all fun q => ((s.quad q).isOn && (s.quad q).awake) || (s.quad q).lost

/-- A quadrant has gone dark or is shut down: the wakes that name it have failed, and those with nothing left to raise end at once
(R384). -/
def State.wakesLose (s : State) (q : Nat) : State :=
  let hit (w : Wake) : Bool := bit w.mask q
  let s := { s with power := { s.power with wakes := s.power.wakes.map fun w => if hit w then { w with failed := true } else w } }
  s.over (s.power.wakes.filter fun w => hit w && s.wakeReady w) State.wakeDone

/-- Request a wake of the quadrants of `mask` (R382, R384). A quadrant that cannot be woken marks it FAILED; a wake with nothing
left to raise ends at once. -/
def State.wakeRequest (s : State) (mask : Nat) (strike : Option (Nat × Nat × Nat)) : State :=
  let qs := quadsOf mask
  let failed := qs.any fun q => (s.quad q).lost
  let cls := (qs.map s.wakeClassOf).foldl max 0
  let w : Wake := ⟨s.power.nextWake, mask, cls, s.time, strike, failed⟩
  let s := s.over qs State.beginWake
  let s := { s with power := { s.power with nextWake := s.power.nextWake + 1, wakes := s.power.wakes ++ [w] } }
  if s.wakeReady w then s.wakeDone w else s

/-! ## Limits of a quadrant (R379) -/

/-- No thread of any task is bound to a quadrant (R378 step 1). -/
def State.quadIdle (s : State) (q : Nat) : Bool :=
  !(s.binds.any fun p => decide (2 ≤ (s.bind p.1).st) && !isTabor (coreOf p.1) && quadOf (coreOf p.1) == q
      && !s.isService (coreOf p.1))

/-- The deepest state that FLOOR and the WAKECLASS of bound threads permit for a quadrant: WK0 Q-RET, WK1 Q-GATE, WK2 Q-OFF. -/
def State.quadLimit (s : State) (q : Nat) : Nat :=
  (s.binds.keys.filter fun tid => decide (2 ≤ (s.bind tid).st) && !s.isService (coreOf tid)).foldl
    (fun a tid =>
      let c := (s.thr tid).csr
      if bit (expandMask c.wakeMask.toNat) q then min a (c.wakeClass.toNat + 1) else a) (s.quad q).floor

/-- Raise quadrants deeper than their limit to it (R379): a raise is not a wake. -/
def State.raiseQuads (s : State) : State :=
  s.over (countFrom 0 4) fun s q =>
    let lim := s.quadLimit q
    match (s.quad q).st with
    | .rising _ _ _ => s
    | st => if lim < st.level ∧ (s.quad q).lost = false then s.beginRise q lim false else s

end Sys2Proof.Machine
end

