-- ==== Sys2Proof/Machine/Ops.lean ====
section
/-!
DEFINITION. The operations every meaning is written with: taking a trap and returning from one (spec/21, R457 to R470), a failed
access (spec/19, R430; spec/22, R482), loads and stores of a thread (spec/08, R213), sleeping waits and their watchdogs
(spec/13, R306 to R308).
-/
namespace Sys2Proof.Machine

/-- What a meaning answers. -/
abbrev Out := Host.Outcome State Fault Refusal

/-- The thread whose turn it is, as it accesses memory. -/
def State.meWho (s : State) : Who := ⟨s.cur, !s.me.status.priv, s.me.space, none⟩

/-- The thread runs on a service core. -/
def State.onService (s : State) : Bool := s.isService s.myCore

/-! ## Outstanding work -/

/-- Commands of the thread that are submitted and not yet done, on the copy-engine or the collective path. -/
def State.pendingOn (s : State) (p : Path) (tid : Nat) : Bool :=
  let k := s.core (coreOf tid)
  match p with
  | .ce => k.copies.any fun c => c.2.tid == tid
  | .co => k.colls.any fun c => c.tid == tid
  | _ => false

/-- Commands that the thread submitted are not all performed or handed back. -/
def State.busyWith (s : State) (tid : Nat) : Bool := s.pendingOn .ce tid || s.pendingOn .co tid

/-- Entries that the core has pushed and that have not landed (R340). -/
def State.pushing (s : State) : Bool := !(s.core (partnerOf s.myCore)).link.transit.isEmpty

/-! ## Traps -/

/-- The wait is one of the blocking waits (R306): not DONE's, a serviced fault's or a replay's. -/
def WaitRec.blocking (w : WaitRec) : Bool :=
  match w.why with
  | .done => false
  | .fault => false
  | .replay => false
  | .strike => false
  | _ => true

/-- Trap entry into the thread's handler (R459). -/
def Thread.enterTrap (t : Thread) (code : Nat) (deferred : Bool) (eval : Word) : Thread :=
  { t with
    pc := t.trap.etvecBase.setWidth 64 * 4
    slot := .active
    wait := none
    pause := 0
    yielded := false
    status := { t.status with waiting := false, priv := true }
    trap := { t.trap with
      trapped := true
      ppriv := t.status.priv
      waitAbandon := (t.wait.map WaitRec.blocking).getD false
      pwaitKind := t.status.waitKind
      epc := t.pc.setWidth 47
      code := BitVec.ofNat 8 code
      deferred := deferred
      eval := eval } }

/-- A thread's handler can be entered (Table 21-1). -/
def Thread.handles (t : Thread) : Bool := t.trap.etvecEn && !t.trap.trapped

/-- A thread no longer waits: its offer is withdrawn, its page wait forgotten (R318, R430). -/
def State.leaveWait (s : State) (tid : Nat) : State :=
  { s with
    offers := s.offers.filter fun o => o.tid != tid
    pageWaits := s.pageWaits.filter fun p => !(p.tid == tid && p.engine.isNone) }

/-- A service-core thread stops as HALT states: slot bound and STOPPED, FW_FAULT logged (R470, R491). -/
def State.stopService (s : State) (tid code : Nat) : State :=
  (s.modThr tid fun t => { t with slot := .stopped, wait := none, status := { t.status with waiting := false } }).fwFault tid code

/-- The cause with which a service thread is to stop once what it submitted is done; none for any other thread. -/
def Thread.halting (t : Thread) : Option Nat :=
  match t.wait with
  | some w => if w.why = .done ∧ w.key ≠ 0 then some (w.key - 1) else none
  | none => none

/-- A service thread whose trap finds no handler stops as HALT states (R457, R470): it waits as DONE waits for its commands and queue entries, and
its stores leave. -/
def State.endService (s : State) (tid code : Nat) : State :=
  if s.busyWith tid then
    s.modThr tid fun t => { t with
      slot := .asleep, wait := some ⟨.done, s.time, 0, code + 1, 0, 0, none⟩, status := { t.status with waiting := true } }
  else ((s.mxDrain (coreOf tid) 32).flushWc tid).stopService tid code

/-- A trap of a thread (R457, R459): its handler is entered, or the task ends, or the service thread stops (Table 21-1). `ehb`
gives the handback words that the trap sets (R281). -/
def State.trapOf (s : State) (tid code : Nat) (deferred : Bool) (eval : Word) (ehb : Option (Vector Word 8)) : State :=
  let s := s.leaveWait tid
  let t := s.thr tid
  if t.handles then
    let t := match ehb with | some h => { t with trap := { t.trap with ehb := h } } | none => t
    let t := t.enterTrap code deferred eval
    let s := s.setThr tid t
    match s.gangOf tid with
    | none => s
    | some g => s.traceGang g 4 1 (coreOf tid) (slotOf tid) 3 [BitVec.ofNat 64 (ecauseWord t.trap), eval, t.trap.epc.setWidth 64]
  else
    match s.gangOf tid with
    | some g => s.endTask g Status.taskTrap code eval
    | none => s.endService tid code

/-- A precise trap of the thread whose turn it is. -/
def State.trap (s : State) (code : Nat) (eval : Word) : State := s.trapOf s.cur code false eval none

/-- A precise trap, as an outcome. -/
def State.trapOut (s : State) (code : Nat) (eval : Word) : Out := .next (s.trap code eval)

/-- Take the first deferred trap of a thread (R460). -/
def State.takeDeferred (s : State) (tid : Nat) : State :=
  match (s.thr tid).deferred with
  | [] => s
  | d :: rest =>
    (s.modThr tid fun t => { t with deferred := rest }).trapOf tid d.code.toNat true d.eval (if d.isData then none else some d.ehb)

/-- The first bad word among some words of a thread's register file. -/
def State.badReg (s : State) (tid : Nat) (l : List Nat) : Option Nat := l.find? (badRegs s.bad tid).contains

/-- A bad word of a thread's register file is read: what reads it is not performed, the record names slot and register; a mask register's word has no
window address, so EVAL is a free value (R480). -/
def State.parityAt (s : State) (tid n : Nat) : State :=
  let reg := if n < 32 then n else if n < 160 then (n - 32) / 8 else n - 160
  let c := coreOf tid
  let s := s.logError 4 (logicDomain c) c (s.tenantOf tid) 0 (slotOf tid + 8 * reg)
  if n < 160 then s.trapOf tid Cause.dataError false (BitVec.ofNat 64 (addrOfKey (regKey tid n))) none
  else
    let (e, s) := s.drawFree
    s.trapOf tid Cause.dataError false e none

/-- Return from a trap (R469); the target is fetched, and may trap, at the next boundary. -/
def Thread.eret (t : Thread) : Thread :=
  { t.retire 0 with
    pc := t.trap.epc.setWidth 64
    status := { (t.retire 0).status with priv := t.trap.ppriv }
    trap := { t.trap with trapped := false, waitAbandon := false } }

/-- A deferred trap of the thread is to be taken before its next instruction (R460). -/
def State.due (s : State) : Bool := !s.me.trap.trapped && !s.me.deferred.isEmpty

/-- An instruction that waits until the matrix queue of its core is empty (R160): entries execute first, and a deferred trap
that one of them raises comes before the instruction. -/
def State.afterDrain (s : State) (wait : Bool) (k : State → Out) : Out :=
  if wait && !(s.core s.myCore).mx.queue.isEmpty then
    let s := s.mxDrain s.myCore 16
    if s.due then .next s else k s
  else k s

/-! ## Sleeping (R306, R308) -/

/-- WAITKIND of a wait (Table 4-13); a wait that is none of the table keeps the previous kind. -/
def WaitWhy.kind : WaitWhy → Option (BitVec 3)
  | .verLoad => some 1
  | .waita => some 2
  | .barrier => some 3
  | .superstep => some 3
  | .clave => some 4
  | .slPop => some 5
  | .slPush => some 6
  | .verStore => some 7
  | _ => none

/-- Fall asleep, or stay asleep with the watchdog running on from the first sleep of this execution. -/
def Thread.sleep (t : Thread) (why : WaitWhy) (now : Nat) (addr : Word) (key : Nat) (value : Word) (dest : Nat) : Thread :=
  let since := match t.wait with
    | some w => if w.why = why then w.since else now
    | none => now
  { t with
    slot := .asleep
    yielded := false
    wait := some ⟨why, since, addr, key, value, dest, none⟩
    status := { t.status with waiting := decide (why ≠ .fault) && decide (why ≠ .replay), waitKind := why.kind.getD t.status.waitKind } }

/-- The thread whose turn it is falls asleep. -/
def State.sleepMe (s : State) (why : WaitWhy) (addr : Word) (key : Nat) (value : Word) (dest : Nat) : State :=
  s.modMe fun t => t.sleep why s.time addr key value dest

/-- The wait limit of a thread's task, or the service wait limit (R307). -/
def State.waitLimit (s : State) (tid : Nat) : Nat :=
  match s.taskOf tid with
  | some t => if t.launch.waitLim = 0 then Config.defaultWaitLimit else t.launch.waitLim
  | none => if s.boot.cfg.waitLim = 0 then Config.defaultServiceWaitLimit else s.boot.cfg.waitLim

/-- The watchdog of a wait of this kind has expired: it counts TIME from the first sleep of this execution (R306). -/
def Thread.expired (t : Thread) (why : WaitWhy) (now limit : Nat) : Bool :=
  match t.wait with
  | some w => w.why == why && decide (limit ≤ now - w.since)
  | none => false

/-! ## Accesses that fail (R430, R443, R482) -/

/-- An access of a thread or of an engine that waits for a page: the record names its task's packet. -/
def State.addPageWait (s : State) (tid : Nat) (engine : Option (Nat × Nat)) (sp : Space) (fw : Bool) (entry : Nat) (page addr va : Word)
    (acc : Acc) (stage : Bool) : State × Bool :=
  let from_ := match s.taskOf tid with
    | some t => (t.queue, t.index, t.tag.toNat)
    | none => (0, 0, 0)
  s.addWait tid engine sp from_ fw entry page addr va acc stage

/-- What an access of a thread that could not be made leaves behind (Table 8-5, Table 19-6, R367, R378, R482). An uncorrectable LPDDR6 word that
a service core fetches is one in firmware: a FATAL record too (Table 22-3; log entry 89). -/
def State.failed (s : State) (acc : Acc) (f : AFault) : State :=
  match f with
  | .trap c e => s.trap c e
  | .poison k e =>
    let s := (s.logConsumed s.cur k Cause.dataError).trap Cause.dataError e
    if acc = .exec ∧ k / 2 ^ 52 = 0 ∧ s.isService s.myCore = true then s.fatal 3 0x83 0 else s
  | .lease a =>
    match s.gangOf s.cur with
    | some g => s.endTask g Status.lease 0 a
    | none => s.trap Cause.lease a
  | .wake q => s.accessWake q
  | .page fw entry page addr va stage =>
    match s.addPageWait s.cur none s.me.space fw entry page addr va acc stage with
    | (s, true) => s.sleepMe .fault va 0 0 0
    | (s, false) => s.trap acc.pageCause va

/-! ## Loads and stores -/

/-- Load `n` bytes for the thread whose turn it is. -/
def State.load (s : State) (ask : Ask) (va : Word) (n : Nat) : Except AFault (State × List Byte) :=
  match s.check s.meWho ask va n with
  | .error f => .error f
  | .ok ad =>
    match s.badSpan false ad.spans with
    | some (k, a) => .error (.poison k a)
    | none =>
      let s' := (s.admitAccess s.meWho ad).loadEffect s.cur ad.spans
      .ok (s', s'.bytesAt ad.spans)

/-- A store to MSISEND must have bits [63:8] zero (R451). -/
def msiRefused (spans : List Span) (bs : List Byte) : Bool :=
  spans.any fun p => p.loc == .hub 0x6000 && (bs.drop 1).any fun b => b != 0

/-- Store bytes for the thread whose turn it is. -/
def State.store (s : State) (ask : Ask) (va : Word) (bs : List Byte) : Except AFault State :=
  match s.check s.meWho ask va bs.length with
  | .error f => .error f
  | .ok ad =>
    if msiRefused ad.spans bs then .error (.trap Cause.access va)
    else
      match s.badSpan true ad.spans with
      | some (k, a) => .error (.poison k a)
      | none =>
        .ok (((s.admitAccess s.meWho ad).noteWhole (s.tenantOf s.cur) ad.spans).writeSpans (fun s o v => s.hubStore true o v) s.cur true
          ad.spans bs)

/-! ## Ordering suffixes -/

/-- A release, before which write-combined data leaves: at .SY as R226 says, and at any scope because its edges order the thread's
earlier stores for the parties of the scope (R221). -/
def releases (os : Os) : Bool :=
  match os with
  | .rel _ => true
  | .ar _ => true
  | _ => false

/-- Write-combined data of the thread leaves at a release. -/
def State.release (s : State) (os : Os) : State := if releases os then s.flushWc s.cur else s

/-! ## Common ends of a meaning -/

/-- The instruction of `n` bytes retires. -/
def State.fin (s : State) (n : Nat) : Out := .next (s.retire n)

/-- X(rd) := w and the instruction retires. -/
def State.putX (s : State) (d : XReg) (w : Word) (n : Nat) : Out := (s.setX d w).fin n

/-- A load into X(rd): `f` gives the result from the bytes. -/
def State.loadX (s : State) (ask : Ask) (va : Word) (k : Nat) (f : List Byte → Word) (d : XReg) (n : Nat) : Out :=
  match s.load ask va k with
  | .error e => .next (s.failed ask.acc e)
  | .ok (s, bs) => s.putX d (f bs) n

/-- A store of bytes. -/
def State.storeBytes (s : State) (ask : Ask) (va : Word) (bs : List Byte) (n : Nat) : Out :=
  match s.store ask va bs with
  | .error e => .next (s.failed ask.acc e)
  | .ok s => s.fin n

end Sys2Proof.Machine
end

