-- ==== Sys2Proof/Machine/Clock.lean ====
section
/-!
DEFINITION. Time passing: TIME in ns, core cycles at each core's clock ratio (spec/04, R123; spec/16, R380, R393, R400), PAUSE
intervals (spec/14, R330), the event counters of time (spec/22, R493), and what Bellows and the cores measure by time (spec/16,
R380, R381).
-/
namespace Sys2Proof.Machine

/-- Parts of 1/640 core cycle that a core's clock makes in one ns outside a stretch: RATIO/32 of 2.9 GHz, or of 800 MHz on Tabor,
RATIO 10 in near-threshold mode (R400). -/
def State.clockRate (s : State) (c : Nat) : Nat :=
  2 * if isTabor c then (if s.power.tnt then 10 else s.ratio c) * 8 else s.ratio c * 29

/-- Until when a core's clock is slow: gated by a change of Tabor's mode (R380), or stretched to half with its logic or its SRAM
domain (R393; log entry 99). -/
def State.slowTo (s : State) (c : Nat) : Nat :=
  if isTabor c then s.power.gatedTo else max (s.domain (logicDomain c)).stretchTo (s.domain (sramDomain c)).stretchTo

/-- Parts of 1/640 core cycle that a core's clock makes in the next `n` ns. -/
def State.clockParts (s : State) (c n : Nat) : Nat :=
  let slow := min n (s.slowTo c - s.time)
  (if isTabor c then 0 else s.clockRate c / 2 * slow) + s.clockRate c * (n - slow)

/-- The least ns in which a core's clock makes `parts`. -/
def State.nsFor (s : State) (c parts : Nat) : Nat :=
  let slow := s.slowTo c - s.time
  let rate := s.clockRate c
  let early := s.clockParts c slow
  if parts ≤ early then (parts + rate / 2 - 1) / (rate / 2) else slow + (parts - early + rate - 1) / rate

/-- `n` ns pass for a bound thread that is not stopped, whose core's clock makes `parts` of 1/640 cycle in them. -/
def Thread.pass (t : Thread) (parts n : Nat) : Thread :=
  let total := t.phase + parts
  let cycles := total / 640
  let blocked : Bool := match t.wait with
    | some w => w.blocking && decide (t.slot = .asleep)
    | none => false
  let t := t.count 1 cycles
  let t := if blocked then t.count 16 n else t
  { t with phase := total % 640, pause := t.pause - cycles, csr := { t.csr with cycle := t.csr.cycle + BitVec.ofNat 64 cycles } }

/-- Events of Table 22-12 that depend on the part's timing and caches: of a thread that issues, instructions of a fused fetch, LM cache hits and
misses and, while some HBM stack refreshes at the doubled rate (R397), accesses delayed by refresh; of one whose core's matrix queue is full,
cycles not ready. -/
def timingEvents (issues full doubled : Bool) : List Nat :=
  (if issues then [3, 11, 12] ++ (if doubled then [14] else []) else []) ++ if issues && full then [10] else []

/-- Some HBM stack refreshes at the doubled rate (R397). -/
def State.refreshDoubled (s : State) : Bool := s.power.hbmDouble.any fun p => p.2

/-- Such events that a thread may meet now. -/
def State.timingOf (s : State) (tid : Nat) : List Nat :=
  timingEvents ((s.thr tid).slot == .active) (decide (8 ≤ (s.core (coreOf tid)).mx.queue.length)) s.refreshDoubled

/-- Counter `i` counts such an event in the thread's present mode (R493). -/
def Thread.countsTiming (t : Thread) (events : List Nat) (i : Fin 16) : Bool := events.any fun e => t.counts e i

/-- Time has passed: the counters of timing events have advanced by amounts that the spec does not state (log entry 43). -/
def Thread.drift (t : Thread) (events : List Nat) (k : Nat) : Thread :=
  let up (i : Fin 16) : BitVec 48 :=
    if t.countsTiming events i = true then countUp (t.csr.evcnt.get i) (Config.freeWord (k + i.val)).toNat else t.csr.evcnt.get i
  { t with csr := { t.csr with evcnt := Vector.ofFn up } }

/-- Some counter of a thread counts such an event. -/
def Thread.drifts (t : Thread) (events : List Nat) : Bool := (List.finRange 16).any fun i => t.countsTiming events i

/-- A slot that is bound and not stopped (R123). -/
def Thread.counting (t : Thread) : Bool := t.slot == .active || t.slot == .asleep

/-- Every slot of a core is UNBOUND or ASLEEP (Table 16-3). -/
def State.coreQuiet (s : State) (c : Nat) : Bool :=
  (countFrom (8 * c) 8).all fun tid => (s.thr tid).slot == .unbound || (s.thr tid).slot == .asleep

/-- A Tabor thread is ready: ACTIVE, and not in a PAUSE interval. -/
def Thread.readyNow (t : Thread) : Bool := t.slot == .active && t.pause == 0

/-- Add a stretch [a, b) of readiness, keeping what lies within 10 ms before `b`. -/
def addStretch (l : List (Nat × Nat)) (a b : Nat) : List (Nat × Nat) :=
  let l := match l with
    | (x, y) :: r => if y = a then (x, b) :: r else (a, b) :: l
    | [] => [(a, b)]
  l.filter fun p => decide (b < p.2 + 10000000)

/-- Readiness of Tabor's threads over the next `n` ns, as Bellows measures it (R380). -/
def State.noteReady (s : State) (n : Nat) : SMap (List (Nat × Nat)) :=
  (s.threads.filter fun p => isTabor (coreOf p.1) && p.2.readyNow).foldl
    (fun m p => m.set p.1 (addStretch (m.get [] p.1) s.time (s.time + n))) s.power.tready

/-- `n` ns pass (R120, R123). Each counter of a timing event draws a free value of its own. -/
def State.pass (s : State) (n : Nat) : State :=
  { s with
    time := s.time + n
    free := s.free + if s.threads.any (fun p => p.2.drifts (s.timingOf p.1)) then 2 ^ 19 else 0
    power := { s.power with tready := s.noteReady n }
    cores := s.cores.mapVals fun c k => { k with quiet := if s.coreQuiet c then k.quiet + s.clockParts c n else 0 }
    threads := s.threads.mapVals fun tid t =>
      if t.counting then
        let t := t.pass (s.clockParts (coreOf tid) n) n
        if t.drifts (s.timingOf tid) then t.drift (s.timingOf tid) (s.free + 16 * tid) else t
      else t }.expireWc

end Sys2Proof.Machine
end

