-- ==== Sys2Proof/Machine/Fetch.lean ====
section
/-!
DEFINITION. Fetching an instruction (spec/02, R37, R39; spec/04, R116; spec/09, R234) and partly overlapped patch slots (spec/02, R59).
-/
namespace Sys2Proof.Machine

/-- Fetch `n` bytes of an instruction at `a` (R39, R116). Text is taken from the instruction caches, so a fetch ends no self-refresh of
LPDDR6, but a walk for it does (R380; log entry 100). -/
def State.fetchPart (s : State) (a : Word) (n : Nat) : Except AFault (State × Nat) :=
  if winBase ≤ a.toNat then .error (.trap Cause.access a)
  else
    match s.check s.meWho (Ask.plain .exec) a n with
    | .error f => .error f
    | .ok ad =>
      match s.badSpan false ad.spans with
      | some (k, _) => .error (.poison k a)
      | none => .ok (s.admitPages s.meWho ad, ofBytes (s.bytesAt ad.spans))

/-- Starts of the declared patch slots of the code bodies in the thread's own address space: what its fetches can meet (R59). -/
def State.ownSlots (s : State) (tid : Nat) : List Nat :=
  match s.taskOf tid with
  | none => []
  | some t => s.tasks.flatMap fun p =>
      if p.2.tenant == t.tenant && p.2.pasid == t.pasid then p.2.launch.patch.map fun o => p.2.launch.textBase.toNat + o else []

/-- The word at the PC as a unit holds it, where the unit's first word was the instruction before (R234). -/
def Thread.unitWord (t : Thread) : Option Nat :=
  match t.slotUnit with
  | some u => if u.addr = t.pc ∧ u.instret + 1 = t.csr.instret ∧ u.trapped = t.trap.trapped then some u.word else none
  | none => none

/-- What a fetch of word `w` at the start of a patch slot takes with it: the slot's second word, for the next instruction. IFENCE and ERET
discard what was fetched (R234, R273). -/
noncomputable def State.unitOf (s : State) (w : Nat) : Option SlotUnit :=
  let pc := s.me.pc
  if lenBytes w = 4 ∧ (s.ownSlots s.cur).contains pc.toNat = true ∧ decode w 0 0 ≠ .instr .ifence ∧ decode w 0 0 ≠ .instr .eret then
    match s.fetchPart (pc + 4) 4 with
    | .ok (_, v) => some ⟨pc + 4, v, s.me.csr.instret, s.me.trap.trapped⟩
    | .error _ => none
  else none

/-- Keep what a fetch took with it. -/
def State.keepUnit (s : State) (u : Option SlotUnit) : State :=
  if s.me.slotUnit = u then s else s.modMe fun t => { t with slotUnit := u }

/-- Fetch words of an instruction one after the other, each of four bytes (R37). -/
def State.fetchWords (s : State) (a : Word) : Nat → Except AFault (State × Nat)
  | 0 => .ok (s, 0)
  | n + 1 =>
    match s.fetchPart a 4 with
    | .error f => .error f
    | .ok (s, w) =>
      match s.fetchWords (a + 4) n with
      | .error f => .error f
      | .ok (s, r) => .ok (s, w + 2 ^ 32 * r)

/-- Fetch the instruction at the PC: word 0, then as many words as its LEN says. The 8 bytes of a patch slot are one unit (R234): the
second of two instructions in it is the one that was fetched with the first. -/
noncomputable def State.fetch (s : State) : Except AFault (State × Nat × Nat × Nat) :=
  let pc := s.me.pc
  if pc.toNat % 4 ≠ 0 then .error (.trap Cause.misalign pc)
  else
    match s.fetchPart pc 4 with
    | .error f => .error f
    | .ok (s, now) =>
      let w := s.me.unitWord.getD now
      match s.fetchWords (pc + 4) (lenBytes w / 4 - 1) with
      | .error f => .error f
      | .ok (s, x) => .ok (s.keepUnit (s.unitOf w), w, x % 2 ^ 64, x / 2 ^ 64)

/-! ## Patch slots (R59, R274) -/

/-- Starts of the declared patch slots of the code bodies loaded for a thread's tenant (R274). -/
def State.patchSlots (s : State) (tid : Nat) : List Nat :=
  match s.taskOf tid with
  | none => []
  | some t => s.tasks.flatMap fun p =>
      if p.2.tenant == t.tenant then p.2.launch.patch.map fun o => p.2.launch.textBase.toNat + o else []

/-- An instruction of `n` bytes at `a` overlaps a slot only in part: it neither lies in the slot nor has the slot as its two
literal words, which are its last where `lit` says that it has a literal (log entry 31). -/
def partOverlap (a n slot : Nat) (lit : Bool) : Bool :=
  decide (a < slot + 8) && decide (slot < a + n) && !(decide (slot ≤ a) && decide (a + n ≤ slot + 8)) && !(lit && slot == a + n - 8)

/-- An instruction of `n` bytes at the PC, with a literal or none, partly overlaps a patch slot. -/
def State.patchSplit (s : State) (n : Nat) (lit : Bool) : Bool :=
  (s.ownSlots s.cur).any fun a => partOverlap s.me.pc.toNat n a lit

/-- The LEN of a word 0 brings a literal (Table 2-3). -/
def hasLit (w : Nat) : Bool := w % 2 == 1

end Sys2Proof.Machine
end

