-- ==== Sys2Proof/Machine/Integer.lean ====
section
/-!
DEFINITION. Integer, address and control-flow instructions (spec/04, R95 to R116): register and immediate arithmetic, constant
window reads, multiply and divide, bit manipulation, literals, select and compare, branches and jumps.
-/
namespace Sys2Proof.Machine

/-! ## Results (Tables 4-2, 4-3, 4-5, 4-7) -/

namespace Alu

/-- Shift amount: the low six bits of B (R98). -/
def sh (b : Word) : Nat := b.toNat % 64
def add (a b : Word) : Word := a + b
def sub (a b : Word) : Word := a - b
def and (a b : Word) : Word := a &&& b
def or (a b : Word) : Word := a ||| b
def xor (a b : Word) : Word := a ^^^ b
def andn (a b : Word) : Word := a &&& ~~~b
def orn (a b : Word) : Word := a ||| ~~~b
def xnor (a b : Word) : Word := ~~~(a ^^^ b)
def sll (a b : Word) : Word := a <<< sh b
def srl (a b : Word) : Word := a >>> sh b
def sra (a b : Word) : Word := a.sshiftRight (sh b)
def rol (a b : Word) : Word := a <<< sh b ||| a >>> (64 - sh b)
def ror (a b : Word) : Word := a >>> sh b ||| a <<< (64 - sh b)
def slt (a b : Word) : Word := b2w (a.slt b)
def sltu (a b : Word) : Word := b2w (a.ult b)
def min (a b : Word) : Word := if a.slt b then a else b
def max (a b : Word) : Word := if a.slt b then b else a
def minu (a b : Word) : Word := if a.ult b then a else b
def maxu (a b : Word) : Word := if a.ult b then b else a
def addw (a b : Word) : Word := sext (a + b) 32
def subw (a b : Word) : Word := sext (a - b) 32

/-- High half of a 128-bit product, given the two operands as integers (R105). -/
def high (p q : Int) : Word := BitVec.ofInt 64 (p * q / 2 ^ 64)
def mul (a b : Word) : Word := a * b
def mulh (a b : Word) : Word := high a.toInt b.toInt
def mulhu (a b : Word) : Word := high a.toNat b.toNat
def mulhmx (a b : Word) : Word := high a.toInt b.toNat

/-- Quotient and remainder of R104, given the operands as integers: division truncates toward zero. -/
def div (a b : Word) : Word := if b = 0 then BitVec.allOnes 64 else BitVec.ofInt 64 (a.toInt.tdiv b.toInt)
def divu (a b : Word) : Word := if b = 0 then BitVec.allOnes 64 else BitVec.ofNat 64 (a.toNat / b.toNat)
def rem (a b : Word) : Word := if b = 0 then a else BitVec.ofInt 64 (a.toInt.tmod b.toInt)
def remu (a b : Word) : Word := if b = 0 then a else BitVec.ofNat 64 (a.toNat % b.toNat)

/-- Leading zero bits among the low `n` bits. -/
def lead (a : Word) : Nat → Nat
  | 0 => 0
  | n + 1 => if a.getLsbD n then 0 else lead a n + 1
/-- Trailing zero bits from bit `i` on, `n` bits left. -/
def trail (a : Word) (i : Nat) : Nat → Nat
  | 0 => 0
  | n + 1 => if a.getLsbD i then 0 else trail a (i + 1) n + 1
/-- Number of 1 bits among the low `n`. -/
def ones (a : Word) : Nat → Nat
  | 0 => 0
  | n + 1 => b2n (a.getLsbD n) + ones a n
def clz (a : Word) : Word := BitVec.ofNat 64 (lead a 64)
def ctz (a : Word) : Word := BitVec.ofNat 64 (trail a 0 64)
def popc (a : Word) : Word := BitVec.ofNat 64 (ones a 64)
def brev (a : Word) : Word := a.reverse
def bswap (a : Word) : Word := BitVec.ofNat 64 (ofBytes (bytesOf 8 a.toNat).reverse)
def sextb (a : Word) : Word := sext a 8
def sexth (a : Word) : Word := sext a 16
def zexth (a : Word) : Word := zext a 16
def zextw (a : Word) : Word := zext a 32

/-- Bits of `a` at the 1 positions of `b` from position `i` on, packed (R106). -/
def pack (a b : Word) (i : Nat) : Nat → Nat
  | 0 => 0
  | n + 1 => if b.getLsbD i then b2n (a.getLsbD i) + 2 * pack a b (i + 1) n else pack a b (i + 1) n
/-- Bits of `a` from bit `j` on, placed at the 1 positions of `b` from position `i` on (R106). -/
def spread (a b : Word) (i j : Nat) : Nat → Nat
  | 0 => 0
  | n + 1 => if b.getLsbD i then b2n (a.getLsbD j) * 2 ^ i + spread a b (i + 1) (j + 1) n else spread a b (i + 1) j n
def bext (a b : Word) : Word := BitVec.ofNat 64 (pack a b 0 64)
def bdep (a b : Word) : Word := BitVec.ofNat 64 (spread a b 0 0 64)
def seq (a b : Word) : Word := b2w (a == b)
def sne (a b : Word) : Word := b2w (a != b)

end Alu

/-! ## Shared forms -/

/-- X(rd) := f(X(rs1), b), and an instruction of `n` bytes retires (R97). -/
def State.alu (s : State) (f : Word → Word → Word) (d a : XReg) (b : Word) (n : Nat) : Out := s.putX d (f (s.getX a) b) n

/-- X(rd) := f(X(rs1)). -/
def State.alu1 (s : State) (f : Word → Word) (d a : XReg) : Out := s.putX d (f (s.getX a)) 4

/-- Entry k8 of the executing core's own constant window (R101, R102): no translation, key or lease is asked; an uncorrectable
word traps DATA_ERROR. -/
def State.kon (s : State) (k : BitVec 8) : Except AFault Word :=
  let key := winKey s.myCore (8 * k.toNat)
  match badIn s.bad key 8 with
  | some w => .error (.poison w (BitVec.ofNat 64 (addrOfKey w)))
  | none => .ok (BitVec.ofNat 64 (s.mem.num key 8))

/-- A control transfer to T: its effects stand, and T is fetched, and may trap, at the next boundary (R116). The link or the
next instruction's address is PC + n. -/
def State.jump (s : State) (d : XReg) (target : Word) (n : Nat) : Out :=
  let link := s.me.pc + BitVec.ofNat 64 n
  .next (((s.retire n).modMe fun t => { t with pc := target }).setX d link)

/-- PC as R108 and R112 read it. -/
def State.pc47 (s : State) : Word := zext s.me.pc 47

/-- A conditional branch (R112). -/
def State.branch (s : State) (taken : Bool) (off : Word) (n : Nat) : Out :=
  if taken then s.jump 0 (s.pc47 + off) n else s.fin n


/-! ## Register-register and literal forms (R97) -/

/-- ADD: writes the 64-bit wrapped sum of two registers (R97). -/
def execAdd (d : XReg) (a : XReg) (b : XReg) (s : State) : Out := s.alu Alu.add d a (s.getX b) 4
/-- SUB: writes the 64-bit wrapped difference of two registers (R97). -/
def execSub (d : XReg) (a : XReg) (b : XReg) (s : State) : Out := s.alu Alu.sub d a (s.getX b) 4
/-- AND: writes the bitwise AND of two registers (R97). -/
def execAnd (d : XReg) (a : XReg) (b : XReg) (s : State) : Out := s.alu Alu.and d a (s.getX b) 4
/-- OR: writes the bitwise OR of two registers (R97). -/
def execOr (d : XReg) (a : XReg) (b : XReg) (s : State) : Out := s.alu Alu.or d a (s.getX b) 4
/-- XOR: writes the bitwise XOR of two registers (R97). -/
def execXor (d : XReg) (a : XReg) (b : XReg) (s : State) : Out := s.alu Alu.xor d a (s.getX b) 4
/-- ANDN: writes A AND NOT B (R97). -/
def execAndn (d : XReg) (a : XReg) (b : XReg) (s : State) : Out := s.alu Alu.andn d a (s.getX b) 4
/-- ORN: writes A OR NOT B (R97). -/
def execOrn (d : XReg) (a : XReg) (b : XReg) (s : State) : Out := s.alu Alu.orn d a (s.getX b) 4
/-- XNOR: writes NOT (A XOR B) (R97). -/
def execXnor (d : XReg) (a : XReg) (b : XReg) (s : State) : Out := s.alu Alu.xnor d a (s.getX b) 4
/-- SLL: shifts left by B[5:0] (R97). -/
def execSll (d : XReg) (a : XReg) (b : XReg) (s : State) : Out := s.alu Alu.sll d a (s.getX b) 4
/-- SRL: shifts right logically by B[5:0] (R97). -/
def execSrl (d : XReg) (a : XReg) (b : XReg) (s : State) : Out := s.alu Alu.srl d a (s.getX b) 4
/-- SRA: shifts right arithmetically by B[5:0] (R97). -/
def execSra (d : XReg) (a : XReg) (b : XReg) (s : State) : Out := s.alu Alu.sra d a (s.getX b) 4
/-- ROL: rotates left by B[5:0] (R97). -/
def execRol (d : XReg) (a : XReg) (b : XReg) (s : State) : Out := s.alu Alu.rol d a (s.getX b) 4
/-- ROR: rotates right by B[5:0] (R97). -/
def execRor (d : XReg) (a : XReg) (b : XReg) (s : State) : Out := s.alu Alu.ror d a (s.getX b) 4
/-- SLT: writes 1 if A is less than B signed (R97). -/
def execSlt (d : XReg) (a : XReg) (b : XReg) (s : State) : Out := s.alu Alu.slt d a (s.getX b) 4
/-- SLTU: writes 1 if A is less than B unsigned (R97). -/
def execSltu (d : XReg) (a : XReg) (b : XReg) (s : State) : Out := s.alu Alu.sltu d a (s.getX b) 4
/-- MIN: writes the signed minimum (R97). -/
def execMin (d : XReg) (a : XReg) (b : XReg) (s : State) : Out := s.alu Alu.min d a (s.getX b) 4
/-- MAX: writes the signed maximum (R97). -/
def execMax (d : XReg) (a : XReg) (b : XReg) (s : State) : Out := s.alu Alu.max d a (s.getX b) 4
/-- MINU: writes the unsigned minimum (R97). -/
def execMinu (d : XReg) (a : XReg) (b : XReg) (s : State) : Out := s.alu Alu.minu d a (s.getX b) 4
/-- MAXU: writes the unsigned maximum (R97). -/
def execMaxu (d : XReg) (a : XReg) (b : XReg) (s : State) : Out := s.alu Alu.maxu d a (s.getX b) 4
/-- ADDW: writes the sign-extended 32-bit wrapped sum (R97). -/
def execAddw (d : XReg) (a : XReg) (b : XReg) (s : State) : Out := s.alu Alu.addw d a (s.getX b) 4
/-- SUBW: writes the sign-extended 32-bit wrapped difference (R97). -/
def execSubw (d : XReg) (a : XReg) (b : XReg) (s : State) : Out := s.alu Alu.subw d a (s.getX b) 4
/-- ADD_LIT: ADD with a 64-bit literal in place of rs2 (R97). -/
def execAddLit (d : XReg) (a : XReg) (lit : Word) (s : State) : Out := s.alu Alu.add d a lit 12
/-- SUB_LIT: SUB with a 64-bit literal (R97). -/
def execSubLit (d : XReg) (a : XReg) (lit : Word) (s : State) : Out := s.alu Alu.sub d a lit 12
/-- AND_LIT: AND with a 64-bit literal (R97). -/
def execAndLit (d : XReg) (a : XReg) (lit : Word) (s : State) : Out := s.alu Alu.and d a lit 12
/-- OR_LIT: OR with a 64-bit literal (R97). -/
def execOrLit (d : XReg) (a : XReg) (lit : Word) (s : State) : Out := s.alu Alu.or d a lit 12
/-- XOR_LIT: XOR with a 64-bit literal (R97). -/
def execXorLit (d : XReg) (a : XReg) (lit : Word) (s : State) : Out := s.alu Alu.xor d a lit 12
/-- ANDN_LIT: ANDN with a 64-bit literal (R97). -/
def execAndnLit (d : XReg) (a : XReg) (lit : Word) (s : State) : Out := s.alu Alu.andn d a lit 12
/-- ORN_LIT: ORN with a 64-bit literal (R97). -/
def execOrnLit (d : XReg) (a : XReg) (lit : Word) (s : State) : Out := s.alu Alu.orn d a lit 12
/-- XNOR_LIT: XNOR with a 64-bit literal (R97). -/
def execXnorLit (d : XReg) (a : XReg) (lit : Word) (s : State) : Out := s.alu Alu.xnor d a lit 12
/-- SLL_LIT: SLL with a 64-bit literal shift source (R97). -/
def execSllLit (d : XReg) (a : XReg) (lit : Word) (s : State) : Out := s.alu Alu.sll d a lit 12
/-- SRL_LIT: SRL with a 64-bit literal shift source (R97). -/
def execSrlLit (d : XReg) (a : XReg) (lit : Word) (s : State) : Out := s.alu Alu.srl d a lit 12
/-- SRA_LIT: SRA with a 64-bit literal shift source (R97). -/
def execSraLit (d : XReg) (a : XReg) (lit : Word) (s : State) : Out := s.alu Alu.sra d a lit 12
/-- ROL_LIT: ROL with a 64-bit literal (R97). -/
def execRolLit (d : XReg) (a : XReg) (lit : Word) (s : State) : Out := s.alu Alu.rol d a lit 12
/-- ROR_LIT: ROR with a 64-bit literal (R97). -/
def execRorLit (d : XReg) (a : XReg) (lit : Word) (s : State) : Out := s.alu Alu.ror d a lit 12
/-- SLT_LIT: SLT with a 64-bit literal (R97). -/
def execSltLit (d : XReg) (a : XReg) (lit : Word) (s : State) : Out := s.alu Alu.slt d a lit 12
/-- SLTU_LIT: SLTU with a 64-bit literal (R97). -/
def execSltuLit (d : XReg) (a : XReg) (lit : Word) (s : State) : Out := s.alu Alu.sltu d a lit 12
/-- MIN_LIT: MIN with a 64-bit literal (R97). -/
def execMinLit (d : XReg) (a : XReg) (lit : Word) (s : State) : Out := s.alu Alu.min d a lit 12
/-- MAX_LIT: MAX with a 64-bit literal (R97). -/
def execMaxLit (d : XReg) (a : XReg) (lit : Word) (s : State) : Out := s.alu Alu.max d a lit 12
/-- MINU_LIT: MINU with a 64-bit literal (R97). -/
def execMinuLit (d : XReg) (a : XReg) (lit : Word) (s : State) : Out := s.alu Alu.minu d a lit 12
/-- MAXU_LIT: MAXU with a 64-bit literal (R97). -/
def execMaxuLit (d : XReg) (a : XReg) (lit : Word) (s : State) : Out := s.alu Alu.maxu d a lit 12
/-- ADDW_LIT: ADDW with a 64-bit literal (R97). -/
def execAddwLit (d : XReg) (a : XReg) (lit : Word) (s : State) : Out := s.alu Alu.addw d a lit 12
/-- SUBW_LIT: SUBW with a 64-bit literal (R97). -/
def execSubwLit (d : XReg) (a : XReg) (lit : Word) (s : State) : Out := s.alu Alu.subw d a lit 12

/-! ## Immediate forms (R99, R100) -/

/-- ADDI: adds a sign-extended 10-bit immediate (R99). -/
def execAddi (d : XReg) (a : XReg) (imm : BitVec 10) (s : State) : Out := s.alu Alu.add d a (simm imm) 4
/-- ANDI: ANDs a sign-extended immediate (R99). -/
def execAndi (d : XReg) (a : XReg) (imm : BitVec 10) (s : State) : Out := s.alu Alu.and d a (simm imm) 4
/-- ORI: ORs a sign-extended immediate (R99). -/
def execOri (d : XReg) (a : XReg) (imm : BitVec 10) (s : State) : Out := s.alu Alu.or d a (simm imm) 4
/-- XORI: XORs a sign-extended immediate (R99). -/
def execXori (d : XReg) (a : XReg) (imm : BitVec 10) (s : State) : Out := s.alu Alu.xor d a (simm imm) 4
/-- SLTI: signed compare with an immediate (R99). -/
def execSlti (d : XReg) (a : XReg) (imm : BitVec 10) (s : State) : Out := s.alu Alu.slt d a (simm imm) 4
/-- SLTIU: unsigned compare with a sign-extended immediate (R99). -/
def execSltiu (d : XReg) (a : XReg) (imm : BitVec 10) (s : State) : Out := s.alu Alu.sltu d a (simm imm) 4
/-- ADDWI: 32-bit add of an immediate, sign-extended (R99). -/
def execAddwi (d : XReg) (a : XReg) (imm : BitVec 10) (s : State) : Out := s.alu Alu.addw d a (simm imm) 4
/-- SLLI: shifts left by an immediate amount (R100). -/
def execSlli (d : XReg) (a : XReg) (sh : BitVec 6) (s : State) : Out := s.alu Alu.sll d a (sh.setWidth 64) 4
/-- SRLI: shifts right logically by an immediate amount (R100). -/
def execSrli (d : XReg) (a : XReg) (sh : BitVec 6) (s : State) : Out := s.alu Alu.srl d a (sh.setWidth 64) 4
/-- SRAI: shifts right arithmetically by an immediate amount (R100). -/
def execSrai (d : XReg) (a : XReg) (sh : BitVec 6) (s : State) : Out := s.alu Alu.sra d a (sh.setWidth 64) 4
/-- ADDI_LIT: ADDI with a 64-bit literal (R99). -/
def execAddiLit (d : XReg) (a : XReg) (lit : Word) (s : State) : Out := s.alu Alu.add d a lit 12
/-- ANDI_LIT: ANDI with a 64-bit literal (R99). -/
def execAndiLit (d : XReg) (a : XReg) (lit : Word) (s : State) : Out := s.alu Alu.and d a lit 12
/-- ORI_LIT: ORI with a 64-bit literal (R99). -/
def execOriLit (d : XReg) (a : XReg) (lit : Word) (s : State) : Out := s.alu Alu.or d a lit 12
/-- XORI_LIT: XORI with a 64-bit literal (R99). -/
def execXoriLit (d : XReg) (a : XReg) (lit : Word) (s : State) : Out := s.alu Alu.xor d a lit 12
/-- SLTI_LIT: SLTI with a 64-bit literal (R99). -/
def execSltiLit (d : XReg) (a : XReg) (lit : Word) (s : State) : Out := s.alu Alu.slt d a lit 12
/-- SLTIU_LIT: SLTIU with a 64-bit literal (R99). -/
def execSltiuLit (d : XReg) (a : XReg) (lit : Word) (s : State) : Out := s.alu Alu.sltu d a lit 12
/-- ADDWI_LIT: ADDWI with a 64-bit literal (R99). -/
def execAddwiLit (d : XReg) (a : XReg) (lit : Word) (s : State) : Out := s.alu Alu.addw d a lit 12

/-! ## Constant window (R101) -/

/-- LDK (R101). -/
def execLdk (d : XReg) (k : BitVec 8) (s : State) : Out :=
  match s.kon k with
  | .error f => .next (s.failed .read f)
  | .ok c => s.putX d (c) 4
/-- ADDK (R101). -/
def execAddk (d : XReg) (a : XReg) (k : BitVec 8) (s : State) : Out :=
  match s.kon k with
  | .error f => .next (s.failed .read f)
  | .ok c => s.putX d (s.getX a + c) 4

/-! ## Multiply, divide, bits (R104, R106) -/

/-- MUL: writes the low 64 bits of the product (R104). -/
def execMul (d : XReg) (a : XReg) (b : XReg) (s : State) : Out := s.alu Alu.mul d a (s.getX b) 4
/-- MULH: writes the high half of the signed product (R104). -/
def execMulh (d : XReg) (a : XReg) (b : XReg) (s : State) : Out := s.alu Alu.mulh d a (s.getX b) 4
/-- MULHU: writes the high half of the unsigned product (R104). -/
def execMulhu (d : XReg) (a : XReg) (b : XReg) (s : State) : Out := s.alu Alu.mulhu d a (s.getX b) 4
/-- MULHMX: writes the high half of signed-by-unsigned product (R104). -/
def execMulhmx (d : XReg) (a : XReg) (b : XReg) (s : State) : Out := s.alu Alu.mulhmx d a (s.getX b) 4
/-- DIV: signed quotient truncated toward zero, defined for all operands (R104). -/
def execDiv (d : XReg) (a : XReg) (b : XReg) (s : State) : Out := s.alu Alu.div d a (s.getX b) 4
/-- DIVU: unsigned quotient, all ones on divide by zero (R104). -/
def execDivu (d : XReg) (a : XReg) (b : XReg) (s : State) : Out := s.alu Alu.divu d a (s.getX b) 4
/-- REM: signed remainder with the dividend's sign (R104). -/
def execRem (d : XReg) (a : XReg) (b : XReg) (s : State) : Out := s.alu Alu.rem d a (s.getX b) 4
/-- REMU: unsigned remainder (R104). -/
def execRemu (d : XReg) (a : XReg) (b : XReg) (s : State) : Out := s.alu Alu.remu d a (s.getX b) 4
/-- BEXT: extracts the bits of A at the one positions of B (R106). -/
def execBext (d : XReg) (a : XReg) (b : XReg) (s : State) : Out := s.alu Alu.bext d a (s.getX b) 4
/-- BDEP: deposits low bits of A at the one positions of B (R106). -/
def execBdep (d : XReg) (a : XReg) (b : XReg) (s : State) : Out := s.alu Alu.bdep d a (s.getX b) 4
/-- BEXT_LIT: BEXT with a literal mask (R107). -/
def execBextLit (d : XReg) (a : XReg) (lit : Word) (s : State) : Out := s.alu Alu.bext d a lit 12
/-- BDEP_LIT: BDEP with a literal mask (R107). -/
def execBdepLit (d : XReg) (a : XReg) (lit : Word) (s : State) : Out := s.alu Alu.bdep d a lit 12
/-- CLZ: counts leading zero bits (R106). -/
def execClz (d : XReg) (a : XReg) (s : State) : Out := s.alu1 Alu.clz d a
/-- CTZ: counts trailing zero bits (R106). -/
def execCtz (d : XReg) (a : XReg) (s : State) : Out := s.alu1 Alu.ctz d a
/-- POPC: counts one bits (R106). -/
def execPopc (d : XReg) (a : XReg) (s : State) : Out := s.alu1 Alu.popc d a
/-- BREV: reverses the bit order (R106). -/
def execBrev (d : XReg) (a : XReg) (s : State) : Out := s.alu1 Alu.brev d a
/-- BSWAP: reverses the byte order (R106). -/
def execBswap (d : XReg) (a : XReg) (s : State) : Out := s.alu1 Alu.bswap d a
/-- SEXTB: sign-extends the low byte (R106). -/
def execSextb (d : XReg) (a : XReg) (s : State) : Out := s.alu1 Alu.sextb d a
/-- SEXTH: sign-extends the low halfword (R106). -/
def execSexth (d : XReg) (a : XReg) (s : State) : Out := s.alu1 Alu.sexth d a
/-- ZEXTH: zero-extends the low halfword (R106). -/
def execZexth (d : XReg) (a : XReg) (s : State) : Out := s.alu1 Alu.zexth d a
/-- ZEXTW: zero-extends the low word (R106). -/
def execZextw (d : XReg) (a : XReg) (s : State) : Out := s.alu1 Alu.zextw d a

/-! ## Literals, select, compare (R108, R110) -/

/-- LI: loads a sign-extended 10-bit immediate (R108). -/
def execLi (d : XReg) (imm : BitVec 10) (s : State) : Out := s.putX d (simm imm) 4
/-- LI_LIT: loads a 64-bit literal (R108). -/
def execLiLit (d : XReg) (lit : Word) (s : State) : Out := s.putX d lit 12
/-- PCADD: writes PC plus a sign-extended immediate (R108). -/
def execPcadd (d : XReg) (imm : BitVec 10) (s : State) : Out := s.putX d (s.pc47 + simm imm) 4
/-- PCADD_LIT: writes PC plus a 64-bit literal (R108). -/
def execPcaddLit (d : XReg) (lit : Word) (s : State) : Out := s.putX d (s.pc47 + lit) 12
/-- SEL: reads rd as the condition and writes rs1 or rs2 into it (R110). -/
def execSel (d : XReg) (a : XReg) (b : XReg) (s : State) : Out := s.putX d (if s.getX d ≠ 0 then s.getX a else s.getX b) 4
/-- SEQ: writes 1 when the operands are equal (R110). -/
def execSeq (d : XReg) (a : XReg) (b : XReg) (s : State) : Out := s.alu Alu.seq d a (s.getX b) 4
/-- SEQ_LIT: SEQ against a 64-bit literal (R110). -/
def execSeqLit (d : XReg) (a : XReg) (lit : Word) (s : State) : Out := s.alu Alu.seq d a lit 12
/-- SNE: writes 1 when the operands differ (R110). -/
def execSne (d : XReg) (a : XReg) (b : XReg) (s : State) : Out := s.alu Alu.sne d a (s.getX b) 4
/-- SNE_LIT: SNE against a 64-bit literal (R110). -/
def execSneLit (d : XReg) (a : XReg) (lit : Word) (s : State) : Out := s.alu Alu.sne d a lit 12

/-! ## Branches and jumps (R112 to R116) -/

/-- BEQ: branches when equal (R112). -/
def execBeq (a : XReg) (b : XReg) (off : BitVec 11) (s : State) : Out := s.branch (s.getX a == s.getX b) (simm off * 4) 4
/-- BNE: branches when not equal (R112). -/
def execBne (a : XReg) (b : XReg) (off : BitVec 11) (s : State) : Out := s.branch (s.getX a != s.getX b) (simm off * 4) 4
/-- BLT: branches when less, signed (R112). -/
def execBlt (a : XReg) (b : XReg) (off : BitVec 11) (s : State) : Out := s.branch ((s.getX a).slt (s.getX b)) (simm off * 4) 4
/-- BGE: branches when greater or equal, signed (R112). -/
def execBge (a : XReg) (b : XReg) (off : BitVec 11) (s : State) : Out := s.branch (!(s.getX a).slt (s.getX b)) (simm off * 4) 4
/-- BLTU: branches when less, unsigned (R112). -/
def execBltu (a : XReg) (b : XReg) (off : BitVec 11) (s : State) : Out := s.branch ((s.getX a).ult (s.getX b)) (simm off * 4) 4
/-- BGEU: branches when greater or equal, unsigned (R112). -/
def execBgeu (a : XReg) (b : XReg) (off : BitVec 11) (s : State) : Out := s.branch (!(s.getX a).ult (s.getX b)) (simm off * 4) 4
/-- BEQ_EXT: BEQ with a 47-bit offset in E (R112). -/
def execBeqExt (a : XReg) (b : XReg) (off : BitVec 47) (s : State) : Out := s.branch (s.getX a == s.getX b) (simm off) 12
/-- BNE_EXT: BNE with a 47-bit offset in E (R112). -/
def execBneExt (a : XReg) (b : XReg) (off : BitVec 47) (s : State) : Out := s.branch (s.getX a != s.getX b) (simm off) 12
/-- BLT_EXT: BLT with a 47-bit offset in E (R112). -/
def execBltExt (a : XReg) (b : XReg) (off : BitVec 47) (s : State) : Out := s.branch ((s.getX a).slt (s.getX b)) (simm off) 12
/-- BGE_EXT: BGE with a 47-bit offset in E (R112). -/
def execBgeExt (a : XReg) (b : XReg) (off : BitVec 47) (s : State) : Out := s.branch (!(s.getX a).slt (s.getX b)) (simm off) 12
/-- BLTU_EXT: BLTU with a 47-bit offset in E (R112). -/
def execBltuExt (a : XReg) (b : XReg) (off : BitVec 47) (s : State) : Out := s.branch ((s.getX a).ult (s.getX b)) (simm off) 12
/-- BGEU_EXT: BGEU with a 47-bit offset in E (R112). -/
def execBgeuExt (a : XReg) (b : XReg) (off : BitVec 47) (s : State) : Out := s.branch (!(s.getX a).ult (s.getX b)) (simm off) 12
/-- JAL: jumps PC-relative and writes the link (R114). -/
def execJal (d : XReg) (off : BitVec 19) (s : State) : Out := s.jump d (s.pc47 + simm off * 4) 4
/-- JAL_EXT: JAL with a 47-bit offset in E (R114). -/
def execJalExt (d : XReg) (off : BitVec 47) (s : State) : Out := s.jump d (s.pc47 + simm off) 12
/-- JALR: jumps to register plus offset and writes the link (R115). -/
def execJalr (d : XReg) (a : XReg) (imm : BitVec 10) (s : State) : Out := s.jump d (s.getX a + simm imm) 4

end Sys2Proof.Machine
end

