-- ==== Sys2Proof/Machine/Scalar.lean ====
section
/-!
DEFINITION. Scalar floating-point instructions (spec/05, R132 to R141): each rounds once, through RND.
-/
namespace Sys2Proof.Machine

/-! ## Shared forms -/

/-- An exact value with the flags of its special case is rounded into precision p, and written (R136). -/
def State.fpRound (s : State) (p : Prec) (rm : Rm) (d : XReg) (x : FV × BitVec 5) (n : Nat) : Out :=
  let r := rnd (fmtOfPrec p) (s.mode rm) false x.1 (s.me.fpStart.raise x.2)
  (s.fpResult d r.1 r.2).fin n

/-- A result that takes no rounding and no draw, with its flags. -/
def State.fpFlat (s : State) (d : XReg) (code : Nat) (f : BitVec 5) : Out :=
  ((s.modMe (·.raiseFlags f)).setX d (BitVec.ofNat 64 code)).fin 4

/-- A value as a code of its own format: exact, no flag. -/
def Fmt.exact (f : Fmt) (x : FV) : Nat := (rnd f .rne false x ⟨0, 0⟩).1

/-- Low bits of a register at a precision. -/
def State.fcode (s : State) (p : Prec) (r : XReg) : Nat := (s.getX r).toNat % 2 ^ (fmtOfPrec p).width

/-- Bits of FCLASS (Table 5-4). -/
def fclass (f : Fmt) (c : Nat) : Nat :=
  let x := f.decode c
  let e := bits c f.mb f.eb
  (if x.isNan then 1 else if x.isZero then 2 else if x.isInf then 16 else if e = 0 then 4 else 8) + 256 * b2n x.isNeg

/-- Magnitude of a code with a sign; canonical NaN for a NaN (Table 5-3). -/
def withSign (f : Fmt) (c : Nat) (neg : Bool) : Nat :=
  if (f.decode c).isNan then f.nan else f.signed neg (c % 2 ^ (f.width - 1))

/-- NV where either operand is NaN (Table 5-3). -/
def nanFlag (a b : FV) : BitVec 5 := if a.isNan || b.isNan then fNV else 0

/-- FLE: less, or equal. -/
def fLessEq (a b : FV) : Bool := (fLess a b).getD false || (fSame a b).getD false

/-- The addend and the product of FMAC and FMSC (R138). -/
def State.fma (s : State) (sub : Bool) (p : Prec) (rm : Rm) (a b c : XReg) : FV × BitVec 5 :=
  fMulAdd (s.mode rm) sub (s.getF p a) (s.getF p b) (s.getF p c)

/-- Precision of a float code of FCVT. -/
def ncFmt : NumCode → Fmt
  | .d => .f64
  | .s => .f32
  | .h => .f16
  | _ => .bf16

/-- Bounds of an integer code of FCVT (Table 3-1). -/
def ncBounds : NumCode → Int × Int
  | .w => (-(2 ^ 31), 2 ^ 31 - 1)
  | .wu => (0, 2 ^ 32 - 1)
  | .lu => (0, 2 ^ 64 - 1)
  | _ => (-(2 ^ 63), 2 ^ 63 - 1)

/-- The source of FCVT as an exact value (R141). -/
def ncValue (c : NumCode) (x : Word) : FV :=
  match c with
  | .w => FV.ofInt (sext x 32).toInt
  | .wu => FV.ofInt (zext x 32).toNat
  | .l => FV.ofInt x.toInt
  | .lu => FV.ofInt x.toNat
  | _ => (ncFmt c).decode (x.toNat % 2 ^ (ncFmt c).width)

/-- FCVT's result (R141): one RND into the destination. -/
def cvt (dst src : NumCode) (mode : Rm) (x : Word) (st : Fst) : Word × Fst :=
  if dst.isInt then
    let r := rndInt (ncBounds dst).1 (ncBounds dst).2 0 mode (ncValue src x) st
    (BitVec.ofInt 64 r.1, r.2)
  else
    let r := rnd (ncFmt dst) mode false (ncValue src x) st
    (BitVec.ofNat 64 r.1, r.2)

/-! ## The instructions -/

/-- FADD: scalar floating-point add, rounded by RND (R136). -/
def execFadd (p : Prec) (rm : Rm) (d : XReg) (a : XReg) (b : XReg) (s : State) : Out :=
  s.fpRound p rm d (fAdd (s.mode rm) (s.getF p a) (s.getF p b)) 4

/-- FSUB: scalar floating-point subtract (R136). -/
def execFsub (p : Prec) (rm : Rm) (d : XReg) (a : XReg) (b : XReg) (s : State) : Out :=
  s.fpRound p rm d (fAdd (s.mode rm) (s.getF p a) (s.getF p b).neg) 4

/-- FMUL: scalar floating-point multiply (R136). -/
def execFmul (p : Prec) (rm : Rm) (d : XReg) (a : XReg) (b : XReg) (s : State) : Out :=
  s.fpRound p rm d (fMul (s.getF p a) (s.getF p b)) 4

/-- FDIV: scalar floating-point divide (R136). -/
def execFdiv (p : Prec) (rm : Rm) (d : XReg) (a : XReg) (b : XReg) (s : State) : Out :=
  s.fpRound p rm d (fDiv (s.getF p a) (s.getF p b)) 4

/-- FSQRT: scalar floating-point square root (R136). -/
def execFsqrt (p : Prec) (rm : Rm) (d : XReg) (a : XReg) (s : State) : Out := s.fpRound p rm d (fSqrt (s.getF p a)) 4

/-- FMIN: scalar floating-point minimum (R139). -/
def execFmin (p : Prec) (d : XReg) (a : XReg) (b : XReg) (s : State) : Out :=
  s.fpFlat d ((fmtOfPrec p).exact (fPick false (s.getF p a) (s.getF p b))) 0

/-- FMAX: scalar floating-point maximum (R139). -/
def execFmax (p : Prec) (d : XReg) (a : XReg) (b : XReg) (s : State) : Out :=
  s.fpFlat d ((fmtOfPrec p).exact (fPick true (s.getF p a) (s.getF p b))) 0

/-- FEQ: floating-point equality compare (R139). -/
def execFeq (p : Prec) (d : XReg) (a : XReg) (b : XReg) (s : State) : Out :=
  s.fpFlat d (b2n ((fSame (s.getF p a) (s.getF p b)).getD false)) 0

/-- FLT: floating-point less-than compare (R139). -/
def execFlt (p : Prec) (d : XReg) (a : XReg) (b : XReg) (s : State) : Out :=
  s.fpFlat d (b2n ((fLess (s.getF p a) (s.getF p b)).getD false)) (nanFlag (s.getF p a) (s.getF p b))

/-- FLE: floating-point less-or-equal compare (R139). -/
def execFle (p : Prec) (d : XReg) (a : XReg) (b : XReg) (s : State) : Out :=
  s.fpFlat d (b2n (fLessEq (s.getF p a) (s.getF p b))) (nanFlag (s.getF p a) (s.getF p b))

/-- FCLASS: writes the class and sign bits of a value (R140). -/
def execFclass (p : Prec) (d : XReg) (a : XReg) (s : State) : Out := s.fpFlat d (fclass (fmtOfPrec p) (s.fcode p a)) 0

/-- FSGNJ: magnitude of a with the sign of b (R139). -/
def execFsgnj (p : Prec) (d : XReg) (a : XReg) (b : XReg) (s : State) : Out :=
  s.fpFlat d (withSign (fmtOfPrec p) (s.fcode p a) (bit (s.fcode p b) ((fmtOfPrec p).width - 1))) 0

/-- FABS: floating-point absolute value (R139). -/
def execFabs (p : Prec) (d : XReg) (a : XReg) (s : State) : Out :=
  s.fpFlat d (withSign (fmtOfPrec p) (s.fcode p a) false) 0

/-- FMAC: fused multiply-add with addend rd, one rounding (R138). -/
def execFmac (p : Prec) (rm : Rm) (d : XReg) (a : XReg) (b : XReg) (s : State) : Out :=
  s.fpRound p rm d (s.fma false p rm a b d) 4

/-- FMSC: fused multiply-subtract with addend rd (R138). -/
def execFmsc (p : Prec) (rm : Rm) (d : XReg) (a : XReg) (b : XReg) (s : State) : Out :=
  s.fpRound p rm d (s.fma true p rm a b d) 4

/-- FMAC_EXT: FMAC with addend rs3 from E (R138). -/
def execFmacExt (p : Prec) (rm : Rm) (d : XReg) (a : XReg) (b : XReg) (c : XReg) (s : State) : Out :=
  s.fpRound p rm d (s.fma false p rm a b c) 12

/-- FMSC_EXT: FMSC with addend rs3 from E (R138). -/
def execFmscExt (p : Prec) (rm : Rm) (d : XReg) (a : XReg) (b : XReg) (c : XReg) (s : State) : Out :=
  s.fpRound p rm d (s.fma true p rm a b c) 12

/-- FCVT: converts between scalar float and integer formats with one rounding (R141). -/
def execFcvt (dst : NumCode) (src : NumCode) (rm : Rm) (d : XReg) (a : XReg) (s : State) : Out :=
  let r := cvt dst src (s.mode rm) (s.getX a) s.me.fpStart
  ((s.modMe (·.fpDone r.2)).setX d r.1).fin 4

end Sys2Proof.Machine
end

