-- ==== Sys2Proof/Machine/Vector.lean ====
section
/-!
DEFINITION. Vector and mask instructions (spec/05, R130 to R135, R142 to R152). Lanes of an instruction are computed from the
registers as they stood before it; roundings run in ascending lane order, or node order in a reduction.
-/
namespace Sys2Proof.Machine

/-! ## Integer lanes (Table 5-5) -/

namespace Lanes

/-- Shift amount of a lane: the low log2(w) bits of b. -/
def sh (w b : Nat) : Nat := b % w
def add (w a b : Nat) : Nat := (a + b) % 2 ^ w
def sub (w a b : Nat) : Nat := (a + 2 ^ w - b) % 2 ^ w
def mul (w a b : Nat) : Nat := a * b % 2 ^ w
def mulh (w a b : Nat) : Nat := wrap w (signed w a * signed w b / (2 ^ w : Nat))
def adds (w a b : Nat) : Nat := wrap w (clampS w (signed w a + signed w b))
def subs (w a b : Nat) : Nat := wrap w (clampS w (signed w a - signed w b))
def abs (w a : Nat) : Nat := (signed w a).natAbs % 2 ^ w
def min (w a b : Nat) : Nat := if signed w a < signed w b then a else b
def max (w a b : Nat) : Nat := if signed w a < signed w b then b else a
def and (_ a b : Nat) : Nat := a &&& b
def or (_ a b : Nat) : Nat := a ||| b
def xor (_ a b : Nat) : Nat := a ^^^ b
def sll (w a b : Nat) : Nat := a * 2 ^ sh w b % 2 ^ w
def srl (w a b : Nat) : Nat := a / 2 ^ sh w b
def sra (w a b : Nat) : Nat := wrap w (signed w a / (2 ^ sh w b : Nat))

end Lanes

/-- A lane-wise integer operation on two registers (R142). -/
def State.vint (s : State) (f : Nat → Nat → Nat → Nat) (ty : Ty) (d a b : VReg) (m : MReg) : Out :=
  let w := laneBits ty
  (s.setV d (laneMap w (s.mask m) (s.getV d) fun i => f w (lane (s.getV a) w i) (lane (s.getV b) w i))).fin 4

/-! ## Float lanes (R132, R133, R144) -/

/-- Write lanes that are computed with roundings, and their flags and draws. -/
def State.vround (s : State) (w : Nat) (d : VReg) (m : MReg) (f : Nat → Fst → Nat × Fst) : Out :=
  let r := laneFold w (s.mask m) (s.getV d) f (countFrom 0 (laneCount w)) s.me.fpStart
  ((s.modMe (·.fpDone r.2)).setV d (ofLanes w r.1)).fin 4

/-- A lane-wise float operation: exact value with the flags of its special case, rounded under `mode`. -/
def State.vflt (s : State) (ty : Ty) (d : VReg) (m : MReg) (mode : Rm) (f : Nat → FV × BitVec 5) : Out :=
  s.vround (laneBits ty) d m fun i st => rnd (fmtOfTy ty) mode false (f i).1 (st.raise (f i).2)

/-- A lane-wise float selection: exact, no draw (VFMIN, VFMAX). -/
def State.vpick (s : State) (max : Bool) (ty : Ty) (d a b : VReg) (m : MReg) : Out :=
  s.vround (laneBits ty) d m fun i st => ((fmtOfTy ty).exact (fPick max (laneVal (s.getV a) ty i) (laneVal (s.getV b) ty i)), st)

/-- The rounding mode of a vector instruction: FRM (R132). -/
def State.vmode (s : State) : Rm := s.mode .dyn

/-- VDOT4 of lane `i` (R145). -/
def dot4 (a b : Vec) (c i : Nat) : Nat :=
  wrap 32 (signed 32 c + intDot ((countFrom (4 * i) 4).map fun j => signed 8 (lane a 8 j))
    ((countFrom (4 * i) 4).map fun j => signed 8 (lane b 8 j)))

/-! ## Compares (R147) -/

/-- The comparisons of VCMP. -/
inductive Cmp where
  | eq | ne | lt | le | ltu | leu
  deriving DecidableEq, Repr

/-- A comparison of two integer lanes. -/
def cmpInt (c : Cmp) (w a b : Nat) : Bool :=
  match c with
  | .eq => a == b
  | .ne => a != b
  | .lt => decide (signed w a < signed w b)
  | .le => decide (signed w a ≤ signed w b)
  | .ltu => decide (a < b)
  | .leu => decide (a ≤ b)

/-- A comparison of two float lanes, with its flags. -/
def cmpFlt (c : Cmp) (a b : FV) : Bool × BitVec 5 :=
  match c with
  | .eq => ((fSame a b).getD false, 0)
  | .ne => (!(fSame a b).getD false, 0)
  | .lt => ((fLess a b).getD false, nanFlag a b)
  | .ltu => ((fLess a b).getD false, nanFlag a b)
  | _ => (fLessEq a b, nanFlag a b)

/-- Outcome of VCMP on lane `i`; an inactive lane is false and raises nothing. -/
def State.vcmpLane (s : State) (c : Cmp) (ty : Ty) (a b : VReg) (m : Word) (i : Nat) : Bool × BitVec 5 :=
  let w := laneBits ty
  if !activeLane m w i then (false, 0)
  else if ty.isInt then (cmpInt c w (lane (s.getV a) w i) (lane (s.getV b) w i), 0)
  else cmpFlt c (laneVal (s.getV a) ty i) (laneVal (s.getV b) ty i)

/-- VCMP: every bit of a lane's bytes in M(md) tells the outcome. -/
def State.vcmp (s : State) (c : Cmp) (ty : Ty) (md : MReg) (a b : VReg) (m : MReg) : Out :=
  let w := laneBits ty
  let r := (countFrom 0 (laneCount w)).map (s.vcmpLane c ty a b (s.mask m))
  let bits := packLanes (w / 8) (r.map fun p => if p.1 then 2 ^ (w / 8) - 1 else 0)
  let f := r.foldl (fun f p => f ||| p.2) 0
  ((s.modMe (·.raiseFlags f)).setM md (BitVec.ofNat 64 bits)).fin 4

/-! ## Moves (R147) -/

/-- Lanes written by index. -/
def State.vmap (s : State) (ty : Ty) (d : VReg) (m : MReg) (f : Nat → Nat) : Out :=
  (s.setV d (laneMap (laneBits ty) (s.mask m) (s.getV d) f)).fin 4

/-- X at a 4-bit field. -/
def State.getQ (s : State) (r : LReg) : Word := s.getX (lreg r)

/-- VEXT's result. -/
def extract (ty : Ty) (v : Vec) (k : Nat) : Word :=
  let w := laneBits ty
  if k < laneCount w then
    (if ty.isInt then BitVec.ofInt 64 (signed w (lane v w k)) else BitVec.ofNat 64 (lane v w k))
  else 0

/-- VINS's result. -/
def insert (ty : Ty) (v : Vec) (x : Word) (k : Nat) : Vec :=
  let w := laneBits ty
  ofLanes w ((countFrom 0 (laneCount w)).map fun i => if i = k then x.toNat % 2 ^ w else lane v w i)

/-- VSLIDE's source lane. -/
def slide (w : Nat) (v : Vec) (k : Int) (i : Nat) : Nat :=
  if 0 ≤ (i : Int) + k ∧ (i : Int) + k < laneCount w then lane v w ((i : Int) + k).toNat else 0

/-! ## Reductions (R148, R149) -/

/-- One level of the tree: pairs combine, in ascending order. -/
def treeLevel (op : FV → FV → Fst → FV × Fst) : List (Option FV) → Fst → List (Option FV) × Fst
  | a :: b :: r, st =>
    let (c, st) : Option FV × Fst := match a, b with
      | some x, some y => let p := op x y st; (some p.1, p.2)
      | some x, none => (some x, st)
      | none, y => (y, st)
    let (l, st) := treeLevel op r st
    (c :: l, st)
  | l, st => (l, st)

/-- Levels up to the root. -/
def tree (op : FV → FV → Fst → FV × Fst) : Nat → List (Option FV) → Fst → Option FV × Fst
  | 0, l, st => (l.headD none, st)
  | n + 1, l, st =>
    let (l, st) := treeLevel op l st
    tree op n l st

/-- Lanes that enter a float reduction. -/
def State.treeLanes (s : State) (ty : Ty) (a : VReg) (m : MReg) : List (Option FV) :=
  (countFrom 0 (laneCount (laneBits ty))).map fun i =>
    if activeLane (s.mask m) (laneBits ty) i then some (laneVal (s.getV a) ty i) else none

/-- Active lanes of an integer reduction, sign-extended. -/
def State.sumLanes (s : State) (ty : Ty) (a : VReg) (m : MReg) : List Int :=
  ((countFrom 0 (laneCount (laneBits ty))).filter (activeLane (s.mask m) (laneBits ty))).map fun i =>
    signed (laneBits ty) (lane (s.getV a) (laneBits ty) i)

/-- A node of a float VREDSUM. -/
def sumNode (mode : Rm) (a b : FV) (st : Fst) : FV × Fst :=
  let x := fAdd mode a b
  let r := rnd .f32 mode false x.1 (st.raise x.2)
  (Fmt.f32.decode r.1, r.2)

/-- A node of a float VREDMAX or VREDMIN. -/
def pickNode (max : Bool) (a b : FV) (st : Fst) : FV × Fst := (fPick max a b, st)

/-- A reduction: `f` on the integers of the active lanes, or the tree of `op`. -/
def State.vred (s : State) (ty : Ty) (xd : LReg) (a : VReg) (m : MReg) (f : List Int → Int) (op : FV → FV → Fst → FV × Fst) : Out :=
  if ty.isInt then s.putX (lreg xd) (BitVec.ofInt 64 (f (s.sumLanes ty a m))) 4
  else
    let r := tree op 6 (s.treeLanes ty a m) s.me.fpStart
    (s.fpResult (lreg xd) (match r.1 with | some x => Fmt.f32.exact x | none => 0) r.2).fin 4

/-- Greatest (or least) of a list of integers; 0 of none. -/
def extreme (max : Bool) : List Int → Int
  | [] => 0
  | a :: r => r.foldl (fun x y => if decide (x < y) == max then y else x) a

/-! ## VCVT (R150, R151) -/

/-- One element of VCVT. -/
def vcvtLane (dty sty : Ty) (mode : Rm) (v : Vec) (i : Nat) (st : Fst) : Nat × Fst :=
  let wd := laneBits dty
  if dty.isInt && sty.isInt then (wrap wd (clampS wd (signed (laneBits sty) (lane v (laneBits sty) i))), st)
  else if dty.isInt then
    let r := rndInt (-(2 ^ (wd - 1) : Nat)) ((2 ^ (wd - 1) : Nat) - 1) 0 mode (laneVal v sty i) st
    (wrap wd r.1, r.2)
  else rnd (fmtOfTy dty) mode false (laneVal v sty i) st

/-- VCVT: n = 512 / max(ws, wd) elements; the bits above them are zero when lanes shrink, and kept otherwise they do not exist. -/
def State.vcvt (s : State) (dty sty : Ty) (d a : VReg) (m : MReg) : Out :=
  let wd := laneBits dty
  let n := 512 / max (laneBits sty) wd
  let r := laneFold wd (s.mask m) (s.getV d) (vcvtLane dty sty s.vmode (s.getV a)) (countFrom 0 n) s.me.fpStart
  ((s.modMe (·.fpDone r.2)).setV d (ofLanes wd r.1)).fin 4

/-! ## Masks (Table 5-8) -/

/-- M(md) := w. -/
def State.putM (s : State) (md : MReg) (w : Word) : Out := (s.setM md w).fin 4

/-! ## The instructions -/

/-- VADD: lane-wise wrapping integer add (R142). -/
def execVadd (ty : Ty) (d : VReg) (a : VReg) (b : VReg) (m : MReg) (s : State) : Out := s.vint Lanes.add ty d a b m

/-- VSUB: lane-wise wrapping integer subtract (R142). -/
def execVsub (ty : Ty) (d : VReg) (a : VReg) (b : VReg) (m : MReg) (s : State) : Out := s.vint Lanes.sub ty d a b m

/-- VMUL: lane-wise integer multiply, low bits (R142). -/
def execVmul (ty : Ty) (d : VReg) (a : VReg) (b : VReg) (m : MReg) (s : State) : Out := s.vint Lanes.mul ty d a b m

/-- VMULH: lane-wise signed multiply, high bits (R142). -/
def execVmulh (ty : Ty) (d : VReg) (a : VReg) (b : VReg) (m : MReg) (s : State) : Out := s.vint Lanes.mulh ty d a b m

/-- VADDS: lane-wise saturating add (R142). -/
def execVadds (ty : Ty) (d : VReg) (a : VReg) (b : VReg) (m : MReg) (s : State) : Out := s.vint Lanes.adds ty d a b m

/-- VSUBS: lane-wise saturating subtract (R142). -/
def execVsubs (ty : Ty) (d : VReg) (a : VReg) (b : VReg) (m : MReg) (s : State) : Out := s.vint Lanes.subs ty d a b m

/-- VABS: lane-wise integer absolute value (R142). -/
def execVabs (ty : Ty) (d : VReg) (a : VReg) (m : MReg) (s : State) : Out :=
  s.vint (fun w x _ => Lanes.abs w x) ty d a a m

/-- VMIN: lane-wise signed minimum (R142). -/
def execVmin (ty : Ty) (d : VReg) (a : VReg) (b : VReg) (m : MReg) (s : State) : Out := s.vint Lanes.min ty d a b m

/-- VMAX: lane-wise signed maximum (R142). -/
def execVmax (ty : Ty) (d : VReg) (a : VReg) (b : VReg) (m : MReg) (s : State) : Out := s.vint Lanes.max ty d a b m

/-- VAND: lane-wise bitwise AND (R142). -/
def execVand (ty : Ty) (d : VReg) (a : VReg) (b : VReg) (m : MReg) (s : State) : Out := s.vint Lanes.and ty d a b m

/-- VOR: lane-wise bitwise OR (R142). -/
def execVor (ty : Ty) (d : VReg) (a : VReg) (b : VReg) (m : MReg) (s : State) : Out := s.vint Lanes.or ty d a b m

/-- VXOR: lane-wise bitwise XOR (R142). -/
def execVxor (ty : Ty) (d : VReg) (a : VReg) (b : VReg) (m : MReg) (s : State) : Out := s.vint Lanes.xor ty d a b m

/-- VSLL: lane-wise shift left (R142). -/
def execVsll (ty : Ty) (d : VReg) (a : VReg) (b : VReg) (m : MReg) (s : State) : Out := s.vint Lanes.sll ty d a b m

/-- VSRL: lane-wise logical shift right (R142). -/
def execVsrl (ty : Ty) (d : VReg) (a : VReg) (b : VReg) (m : MReg) (s : State) : Out := s.vint Lanes.srl ty d a b m

/-- VSRA: lane-wise arithmetic shift right (R142). -/
def execVsra (ty : Ty) (d : VReg) (a : VReg) (b : VReg) (m : MReg) (s : State) : Out := s.vint Lanes.sra ty d a b m

/-- VFADD: lane-wise float add under FRM (R144). -/
def execVfadd (ty : Ty) (d : VReg) (a : VReg) (b : VReg) (m : MReg) (s : State) : Out :=
  s.vflt ty d m s.vmode fun i => fAdd s.vmode (laneVal (s.getV a) ty i) (laneVal (s.getV b) ty i)

/-- VFSUB: lane-wise float subtract (R144). -/
def execVfsub (ty : Ty) (d : VReg) (a : VReg) (b : VReg) (m : MReg) (s : State) : Out :=
  s.vflt ty d m s.vmode fun i => fAdd s.vmode (laneVal (s.getV a) ty i) (laneVal (s.getV b) ty i).neg

/-- VFMUL: lane-wise float multiply (R144). -/
def execVfmul (ty : Ty) (d : VReg) (a : VReg) (b : VReg) (m : MReg) (s : State) : Out :=
  s.vflt ty d m s.vmode fun i => fMul (laneVal (s.getV a) ty i) (laneVal (s.getV b) ty i)

/-- VFDIV: lane-wise float divide (R144). -/
def execVfdiv (ty : Ty) (d : VReg) (a : VReg) (b : VReg) (m : MReg) (s : State) : Out :=
  s.vflt ty d m s.vmode fun i => fDiv (laneVal (s.getV a) ty i) (laneVal (s.getV b) ty i)

/-- VFSQRT: lane-wise float square root (R144). -/
def execVfsqrt (ty : Ty) (d : VReg) (a : VReg) (m : MReg) (s : State) : Out :=
  s.vflt ty d m s.vmode fun i => fSqrt (laneVal (s.getV a) ty i)

/-- VFMIN: lane-wise float minimum (R144). -/
def execVfmin (ty : Ty) (d : VReg) (a : VReg) (b : VReg) (m : MReg) (s : State) : Out := s.vpick false ty d a b m

/-- VFMAX: lane-wise float maximum (R144). -/
def execVfmax (ty : Ty) (d : VReg) (a : VReg) (b : VReg) (m : MReg) (s : State) : Out := s.vpick true ty d a b m

/-- VFEXP2: lane-wise correctly rounded 2^a under RNE (R144). -/
def execVfexp2 (ty : Ty) (d : VReg) (a : VReg) (m : MReg) (s : State) : Out :=
  s.vflt ty d m .rne fun i => fExp2 (laneVal (s.getV a) ty i)

/-- VFRCP: lane-wise correctly rounded reciprocal (R144). -/
def execVfrcp (ty : Ty) (d : VReg) (a : VReg) (m : MReg) (s : State) : Out :=
  s.vflt ty d m .rne fun i => fRcp (laneVal (s.getV a) ty i)

/-- VFRSQRT: lane-wise correctly rounded reciprocal square root (R144). -/
def execVfrsqrt (ty : Ty) (d : VReg) (a : VReg) (m : MReg) (s : State) : Out :=
  s.vflt ty d m .rne fun i => fRsqrt (laneVal (s.getV a) ty i)

/-- VCMP_EQ: sets mask lane bytes where lanes are equal (R147). -/
def execVcmpEq (ty : Ty) (md : MReg) (a : VReg) (b : VReg) (m : MReg) (s : State) : Out := s.vcmp .eq ty md a b m

/-- VCMP_NE: sets mask lane bytes where lanes differ (R147). -/
def execVcmpNe (ty : Ty) (md : MReg) (a : VReg) (b : VReg) (m : MReg) (s : State) : Out := s.vcmp .ne ty md a b m

/-- VCMP_LT: sets mask lane bytes where a is less than b (R147). -/
def execVcmpLt (ty : Ty) (md : MReg) (a : VReg) (b : VReg) (m : MReg) (s : State) : Out := s.vcmp .lt ty md a b m

/-- VCMP_LE: sets mask lane bytes where a is at most b (R147). -/
def execVcmpLe (ty : Ty) (md : MReg) (a : VReg) (b : VReg) (m : MReg) (s : State) : Out := s.vcmp .le ty md a b m

/-- VCMP_LTU: unsigned lane less-than into a mask (R147). -/
def execVcmpLtu (ty : Ty) (md : MReg) (a : VReg) (b : VReg) (m : MReg) (s : State) : Out := s.vcmp .ltu ty md a b m

/-- VCMP_LEU: unsigned lane less-or-equal into a mask (R147). -/
def execVcmpLeu (ty : Ty) (md : MReg) (a : VReg) (b : VReg) (m : MReg) (s : State) : Out := s.vcmp .leu ty md a b m

/-- VSEL: selects each lane from vs1 or vs2 by the mask (R147). -/
def execVsel (ty : Ty) (d : VReg) (a : VReg) (b : VReg) (m : MReg) (s : State) : Out :=
  let w := laneBits ty
  (s.setV d (laneMap w (s.mask m) (s.getV b) fun i => lane (s.getV a) w i)).fin 4

/-- VBCAST: broadcasts a scalar to active lanes (R147). -/
def execVbcast (ty : Ty) (d : VReg) (xs : LReg) (m : MReg) (s : State) : Out :=
  s.vmap ty d m fun _ => (s.getQ xs).toNat % 2 ^ laneBits ty

/-- VEXT: extracts lane k into a scalar register (R147). -/
def execVext (ty : Ty) (xd : LReg) (a : VReg) (xi : LReg) (s : State) : Out :=
  s.putX (lreg xd) (extract ty (s.getV a) (s.getQ xi).toNat) 4

/-- VINS: inserts a scalar into lane k (R147). -/
def execVins (ty : Ty) (d : VReg) (xs : LReg) (xi : LReg) (s : State) : Out :=
  (s.setV d (insert ty (s.getV d) (s.getQ xs) (s.getQ xi).toNat)).fin 4

/-- VPERM: permutes lanes by an index vector (R147). -/
def execVperm (ty : Ty) (d : VReg) (a : VReg) (b : VReg) (m : MReg) (s : State) : Out :=
  let w := laneBits ty
  s.vmap ty d m fun i => lane (s.getV a) w (lane (s.getV b) w i % laneCount w)

/-- VSLIDE: slides lanes by a signed scalar count (R147). -/
def execVslide (ty : Ty) (d : VReg) (a : VReg) (xk : LReg) (m : MReg) (s : State) : Out :=
  s.vmap ty d m (slide (laneBits ty) (s.getV a) (s.getQ xk).toInt)

/-- VREDSUM: sums active lanes in a fixed binary tree (R149). -/
def execVredsum (ty : Ty) (xd : LReg) (a : VReg) (m : MReg) (s : State) : Out :=
  s.vred ty xd a m (fun l => l.foldl (· + ·) 0) (sumNode s.vmode)

/-- VREDMAX: maximum of active lanes in a fixed tree (R149). -/
def execVredmax (ty : Ty) (xd : LReg) (a : VReg) (m : MReg) (s : State) : Out :=
  s.vred ty xd a m (extreme true) (pickNode true)

/-- VREDMIN: minimum of active lanes in a fixed tree (R149). -/
def execVredmin (ty : Ty) (xd : LReg) (a : VReg) (m : MReg) (s : State) : Out :=
  s.vred ty xd a m (extreme false) (pickNode false)

/-- VCVT: converts lanes between vector types (R151). -/
def execVcvt (dty : Ty) (sty : Ty) (d : VReg) (a : VReg) (m : MReg) (s : State) : Out := s.vcvt dty sty d a m

/-- VMOV: copies active lanes (R147). -/
def execVmov (ty : Ty) (d : VReg) (a : VReg) (m : MReg) (s : State) : Out :=
  s.vmap ty d m fun i => lane (s.getV a) (laneBits ty) i

/-- MAND: mask AND (R152). -/
def execMand (md : MReg) (a : MReg) (b : MReg) (s : State) : Out := s.putM md (s.getM a &&& s.getM b)

/-- MOR: mask OR (R152). -/
def execMor (md : MReg) (a : MReg) (b : MReg) (s : State) : Out := s.putM md (s.getM a ||| s.getM b)

/-- MXOR: mask XOR (R152). -/
def execMxor (md : MReg) (a : MReg) (b : MReg) (s : State) : Out := s.putM md (s.getM a ^^^ s.getM b)

/-- MNOT: mask NOT (R152). -/
def execMnot (md : MReg) (a : MReg) (s : State) : Out := s.putM md (~~~s.getM a)

/-- MPOP: counts one bits of a mask (R152). -/
def execMpop (d : XReg) (a : MReg) (s : State) : Out := s.putX d (Alu.popc (s.getM a)) 4

/-- MFIRST: index of the lowest one bit of a mask (R152). -/
def execMfirst (d : XReg) (a : MReg) (s : State) : Out := s.putX d (Alu.ctz (s.getM a)) 4

/-- MFROMX: moves a scalar into a mask (R152). -/
def execMfromx (md : MReg) (xs : XReg) (s : State) : Out := s.putM md (s.getX xs)

/-- MTOX: moves a mask into a scalar (R152). -/
def execMtox (d : XReg) (a : MReg) (s : State) : Out := s.putX d (s.getM a) 4

/-- VFMAC: lane-wise fused multiply-add into vd (R145). -/
def execVfmac (ty : Ty) (d : VReg) (a : VReg) (b : VReg) (m : MReg) (s : State) : Out :=
  s.vflt ty d m s.vmode fun i => fMulAdd s.vmode false (laneVal (s.getV a) ty i) (laneVal (s.getV b) ty i) (laneVal (s.getV d) ty i)

/-- VDOT4: four-way signed byte dot product into i32 lanes (R145). -/
def execVdot4 (d : VReg) (a : VReg) (b : VReg) (m : MReg) (s : State) : Out :=
  s.vmap .i32 d m fun i => dot4 (s.getV a) (s.getV b) (lane (s.getV d) 32 i) i

end Sys2Proof.Machine
end

