-- ==== Sys2Proof/Machine/Versions.lean ====
section
/-!
DEFINITION. Versioned regions (spec/10, R237 to R260): granules, lists, floors, reclamation, the sleepers that a change decides,
and the six versioned instructions. Every effect at a granule is one step at its home unit (R254).
-/
namespace Sys2Proof.Machine

/-! ## Regions and granules -/

/-- Key of the first byte of a region's block. -/
def regionBase (rk : Nat) : Nat := rk / 2 ^ 14
/-- Log2 size of a region's leaf. -/
def regionSize (rk : Nat) : Nat := rk / 256 % 64

/-- A granule as an instruction names it: region, page offset, the address given. -/
structure VPlace where
  rk : Nat
  off : Nat
  va : Word
  deriving DecidableEq, Repr

/-- A granule's own key, as sleepers hold it. -/
def VPlace.key (p : VPlace) : Nat := p.rk * 2 ^ 25 + p.off

/-- A region; empty with floor 0 where none is listed. -/
def State.region (s : State) (rk : Nat) : Region := s.regions.get { Region.init with size := 2 ^ regionSize rk } rk

/-- Put a region. -/
def State.setRegion (s : State) (rk : Nat) (r : Region) : State := { s with regions := s.regions.set rk r }

/-- The list of a granule. -/
def State.gran (s : State) (p : VPlace) : GranList := (s.region p.rk).grans.get GranList.init p.off

/-- Where slot `i` of a granule lies (R238). -/
def VPlace.slotKey (p : VPlace) (i : Nat) : Nat := regionBase p.rk + i * 2 ^ regionSize p.rk + p.off

/-- The island version block of a Tabor that is dark (Table 22-5). -/
def State.islandDark (s : State) (p : VPlace) : Bool := p.rk == islandRegion && (s.domain 0x84).dark

/-- The list or the region record is lost (R249), or its block is dark (R485). -/
def State.verLost (s : State) (p : VPlace) : Bool := (s.region p.rk).lost || (s.gran p).lost || s.islandDark p

/-! ## Entries (R242 to R244, R378) -/

/-- The slices of a quadrant serve until it leaves Q-ON (R378). -/
def QuadState.serves (q : QuadState) : Bool := q == .on

/-- The quadrants whose slices serve. -/
def State.serving (s : State) : List Nat := (countFrom 0 4).filter fun q => (s.quad q).st.serves

/-- Where the entries of a location are held: its own slice, or a slice of a quadrant in Q-ON while that slice is out of service; 64 is the
hub's home agent, which serves where no quadrant does (R242, R378; log entry 15). -/
def State.homeOf (s : State) (key : Nat) : Nat :=
  let k := (Config.homeSlice key).val
  if (s.quad (k / 16)).st.serves then k
  else if s.serving.isEmpty then 64
  else
    let m := (Config.movedHome (s.serving.foldl (fun a q => a + 2 ^ q) 0) key).val
    16 * s.serving.getD (m / 16 % s.serving.length) 0 + m % 16

/-- The home of a region record: that of the block's first byte (log entry 104). -/
def State.recordHome (s : State) (rk : Nat) : Nat := s.homeOf (regionBase rk)

/-- The home of a granule's list. -/
def State.listHome (s : State) (p : VPlace) : Nat := s.homeOf (regionBase p.rk + p.off)

/-- Homes of the entries that lie in slices, one for each entry of a leaf's region. -/
def State.residents (s : State) : List Nat :=
  s.regions.flatMap fun p =>
    if p.1 = islandRegion then []
    else
      (if p.2.hasRecord && !p.2.spilled then [s.recordHome p.1] else []) ++
        p.2.grans.flatMap fun g => List.replicate (g.2.vers.length - g.2.spilled) (s.listHome ⟨p.1, g.1, 0⟩)

/-- Entries that lie in the spill area. -/
def spilledEntries (rs : SMap Region) : Nat :=
  rs.foldl (fun n p => p.2.grans.foldl (fun n g => n + g.2.spilled) (n + b2n p.2.spilled)) 0

/-- Entries the spill area holds: 16 bytes each (R243). -/
def State.spillRoom (s : State) : Nat := s.vspill.toNat % 2 ^ 12 * 2 ^ 20

/-- Entries that a slice can still take; the hub's home agent holds none of its own. -/
def State.sliceRoom (s : State) (k : Nat) : Nat := if 64 ≤ k then 0 else Config.entriesPerSlice - s.residents.countP (· == k)

/-- Where one more entry of a home goes: its slice (false), the spill area (true), or nowhere (R242, R244). -/
def State.placeEntry (s : State) (k : Nat) : Option Bool :=
  if 0 < s.sliceRoom k then some false else if spilledEntries s.regions < s.spillRoom then some true else none

/-- A region has its record, or gets one where there is room; none where there is not (R244). The island block never spills. -/
def State.needRecord (s : State) (rk : Nat) : Option State :=
  let r := s.region rk
  if r.hasRecord then some s
  else if rk = islandRegion then some (s.setRegion rk { r with hasRecord := true })
  else (s.placeEntry (s.recordHome rk)).map fun sp => s.setRegion rk { r with hasRecord := true, spilled := sp }

/-- Room for one more entry of a granule: how many of its entries are then spilled; none where there is no room (R244). -/
def State.needEntry (s : State) (p : VPlace) : Option Nat :=
  if p.rk = islandRegion then some 0 else (s.placeEntry (s.listHome p)).map fun sp => (s.gran p).spilled + b2n sp

/-- A region whose granule has this list. -/
def State.setGran (s : State) (p : VPlace) (g : GranList) : State :=
  s.setRegion p.rk { s.region p.rk with grans := (s.region p.rk).grans.set p.off g }

/-- A list of versions of which `n` entries at most are spilled. -/
def GranList.with (vers : List (Nat × Nat)) (n : Nat) : GranList := ⟨vers, false, min n vers.length⟩

/-- A granule is named: its entries and its region's record come back from the spill area as far as their slices have room (R244). -/
def State.fetchEntries (s : State) (p : VPlace) : State :=
  let s := if (s.region p.rk).spilled && decide (0 < s.sliceRoom (s.recordHome p.rk)) then
    s.setRegion p.rk { s.region p.rk with spilled := false } else s
  let g := s.gran p
  if g.spilled = 0 then s else s.setGran p { g with spilled := g.spilled - s.sliceRoom (s.listHome p) }

/-- Some entries that a granule names lie in the spill area. -/
def State.fetches (s : State) (p : VPlace) : Bool := (s.region p.rk).spilled || (s.gran p).spilled != 0

/-- Entries held in the sixteen slices of a quadrant. -/
def State.quadEntries (s : State) (q : Nat) : Nat := s.residents.countP fun k => k / 16 == q

/-- The spill area can hold the version lists of a quadrant's slices besides those it holds (R378). -/
def State.spillHolds (s : State) (q : Nat) : Bool := decide (spilledEntries s.regions + s.quadEntries q ≤ s.spillRoom)

/-- The version lists and region records of a quadrant's slices move to the spill area (R378 step 3, R484 step 3). -/
def State.spillQuad (s : State) (q : Nat) : State :=
  { s with regions := s.regions.mapVals fun rk r =>
      if rk = islandRegion then r
      else
        { r with
          spilled := r.spilled || (r.hasRecord && s.recordHome rk / 16 == q)
          grans := r.grans.mapVals fun off g => if s.listHome ⟨rk, off, 0⟩ / 16 = q then { g with spilled := g.vers.length } else g } }

/-! ## Reclamation and Table 10-2 -/

/-- What reclamation leaves of a list under a floor: versions at or above it, else K, the greatest below it (R247). -/
def reclaim (floor : Nat) (l : List (Nat × Nat)) : List (Nat × Nat) :=
  let high := l.filter fun e => floor ≤ e.1
  if high.isEmpty then l.filter fun e => l.all fun x => x.1 ≤ e.1 else high

/-- Outcome of naming a version in a load (Table 10-2). -/
inductive VerGive where
  | give (u slot : Nat)
  | missing
  | notYet
  deriving DecidableEq, Repr

/-- Greatest live version at or below `v`. -/
def atOrBelow (l : List (Nat × Nat)) (v : Nat) : Option (Nat × Nat) :=
  l.foldl (fun a e => if e.1 ≤ v && (match a with | none => true | some b => decide (b.1 < e.1)) then some e else a) none

/-- Table 10-2 for VERLD, or VERLDLE with `le`. -/
def verFind (le : Bool) (l : List (Nat × Nat)) (floor v : Nat) : VerGive :=
  match l.find? fun e => e.1 == v with
  | some e => .give e.1 e.2
  | none =>
    match (if le then atOrBelow l v else none) with
    | some e => .give e.1 e.2
    | none => if v < floor then .missing else .notYet

/-! ## Effects at the home unit -/

/-- What a storing instruction meets: performed, a version cause, or a wait for room. -/
inductive VerOut where
  | done (s : State)
  | cause (c : Nat)
  | wait
  deriving DecidableEq, Repr

/-- Lowest slot that no live version occupies. -/
def freeSlotOf (l : List (Nat × Nat)) : Nat := ((countFrom 0 8).find? fun i => !l.any fun e => e.2 == i).getD 0

/-- Create version `v` of a granule (R254 VERST, R262). -/
def State.verCreate (s : State) (p : VPlace) (v : Nat) (data : List Byte) : VerOut :=
  let r := s.region p.rk
  let l := (s.gran p).vers
  if s.verLost p then .cause Cause.verLost
  else if v < r.floor then .cause Cause.verStale
  else if l.any fun e => e.1 == v then .cause Cause.verDup
  else if 8 ≤ l.length then .wait
  else
    let slot := freeSlotOf l
    match s.needRecord p.rk with
    | none => .wait
    | some s' =>
      match s'.needEntry p with
      | none => .wait
      | some n => .done ((s'.setGran p (GranList.with (reclaim r.floor (l ++ [(v, slot)])) n)).poke (p.slotKey slot) data)

/-- Raise the floor of a region (R256); a list that is lost stays so until a VERDROP (R249, R257). -/
def State.verRaise (s : State) (p : VPlace) (f : Nat) : VerOut :=
  let r := s.region p.rk
  if s.verLost p then .cause Cause.verLost
  else if f ≤ r.floor then .done s
  else
    match s.needRecord p.rk with
    | none => .wait
    | some s' =>
      .done (s'.setRegion p.rk { s'.region p.rk with
        floor := f, grans := r.grans.mapVals fun _ g => if g.lost then g else GranList.with (reclaim f g.vers) g.spilled })

/-- Empty a region (R257); the island block keeps its tag until service firmware clears it (R241). -/
def State.verEmpty (s : State) (rk : Nat) : State :=
  if rk = islandRegion then s.setRegion rk { Region.init with size := 2 ^ 14, tag := (s.region rk).tag }
  else { s with regions := s.regions.drop rk }

/-! ## The tag of the island block (R241) -/

/-- A thread as the accesses of its instructions name it. -/
def State.threadWho (s : State) (tid : Nat) : Who := ⟨tid, !(s.thr tid).status.priv, (s.thr tid).space, none⟩

/-- The tag check of the island block (R241). -/
def State.tagRefused (s : State) (w : Who) : Bool :=
  match (s.region islandRegion).tag with
  | none => false
  | some t => !(!w.user && w.space.wkey == 0) && t != s.tenantOf w.tid

/-- The first versioned instruction that a task's thread performs on the island block gives it its tag; a CPYV granule counts as its
thread's (R241; log entry 105). -/
def State.setTag (s : State) (w : Who) (p : VPlace) : State :=
  if p.rk = islandRegion ∧ (s.region islandRegion).tag = none ∧ (!w.user && w.space.wkey == 0) = false ∧ (s.taskOf w.tid).isSome = true then
    s.setRegion islandRegion { s.region islandRegion with size := 2 ^ 14, tag := some (s.tenantOf w.tid) }
  else s

/-- A sleeper at the island block meets another tenant's tag when it is looked at again (R241). -/
def State.tagLost (s : State) (tid : Nat) (p : VPlace) : Bool := p.rk == islandRegion && s.tagRefused (s.threadWho tid)

/-! ## Loads and sleepers -/

/-- A load retires with a version (VERLD, VERLDLE). -/
def Thread.takeVersion (t : Thread) (le : Bool) (vd xv : Nat) (data : Vec) (u : Nat) : Thread :=
  ({ t with
    v := vset t.v vd data
    x := if le && xv != 0 then vset t.x xv (BitVec.ofNat 64 u) else t.x }).retire 4

/-- Decide a load of a thread at the home unit: none while Table 10-2 says "not yet". -/
def State.verLoadNow (s : State) (tid : Nat) (p : VPlace) (le : Bool) (v vd xv : Nat) : Option State :=
  if s.verLost p then
    some ((s.logConsumed tid (regionBase p.rk + p.off) Cause.verLost).trapOf tid Cause.verLost false p.va none)
  else
    match verFind le (s.gran p).vers (s.region p.rk).floor v with
    | .notYet => none
    | .missing => some (s.trapOf tid Cause.verMissing false p.va none)
    | .give u slot =>
      let k := p.slotKey slot
      match badIn s.bad k 64 with
      | some w => some ((s.logConsumed tid w Cause.dataError).trapOf tid Cause.dataError false (p.va + BitVec.ofNat 64 (w - k)) none)
      | none =>
        some (((s.setTag (s.threadWho tid) p).modThr tid fun t => t.takeVersion le vd xv (vecOfBytes (s.mem.getBytes k 64)) u).healRegs tid
          (vregWords vd ++ if le then xregWords xv else []))

/-- The granule a sleeper waits at. -/
def WaitRec.place (w : WaitRec) : VPlace := ⟨w.key / 2 ^ 25, w.key % 2 ^ 25, w.addr⟩

/-- How a sleeping load names its registers: vd, xv, and whether it is VERLDLE. -/
def loadDest (vd xv : Nat) (le : Bool) : Nat := vd + 16 * xv + 512 * b2n le

/-- Loads that sleep on a granule of these keys wake where Table 10-2 now decides them (R250). -/
def State.settleLoads (s : State) (at_ : Nat → Bool) : State :=
  s.over s.threads.keys fun s tid =>
    match (s.thr tid).wait with
    | some w =>
      if (s.thr tid).slot = .asleep ∧ w.why = .verLoad ∧ at_ w.key then
        if s.tagLost tid w.place then s.trapOf tid Cause.access false w.addr none
        else (s.verLoadNow tid w.place (decide (512 ≤ w.dest)) w.value.toNat (w.dest % 16) (w.dest / 16 % 32)).getD s
      else s
    | none => s

/-- Put a pair into a list that rises by the first part. -/
def insertBy (a : Nat × Nat) : List (Nat × Nat) → List (Nat × Nat)
  | [] => [a]
  | b :: r => if a.1 < b.1 then a :: b :: r else b :: insertBy a r

/-- Threads that sleep for this reason, longest first. -/
def State.sleepers (s : State) (why : WaitWhy) : List Nat :=
  (s.threads.foldl (fun l p =>
    match p.2.wait with
    | some w => if p.2.slot = .asleep ∧ w.why = why then insertBy (w.since, p.1) l else l
    | none => l) []).map Prod.snd

/-- A bad word of the register that a sleeping VERST stores (R480). -/
def State.storeBad (s : State) (tid : Nat) (w : WaitRec) : Option Nat := if w.dest < 16 then s.badReg tid (vregWords w.dest) else none

/-- A sleeping VERST (dest below 16) or VERFLOOR runs again at the home unit. -/
def State.settleStore (s : State) (tid : Nat) (w : WaitRec) : State :=
  let p := w.place
  let floor := (s.region p.rk).floor
  let r := if w.dest < 16 then s.verCreate p w.value.toNat (vecBytes ((s.thr tid).v.get (Fin.ofNat 16 w.dest)))
    else s.verRaise p w.value.toNat
  match (if s.tagLost tid p then .cause Cause.access else r) with
  | .wait => s
  | .cause c =>
    (if c = Cause.verLost then s.logConsumed tid (regionBase p.rk + p.off) c else s).trapOf tid c false p.va none
  | .done s =>
    let s := (s.setTag (s.threadWho tid) p).modThr tid fun t =>
      ({ t with x := if 16 < w.dest then vset t.x (w.dest - 16) (BitVec.ofNat 64 floor) else t.x }).retire 4
    let s := if 16 < w.dest then s.healRegs tid (xregWords (w.dest - 16)) else s
    s.settleLoads fun k => if w.dest < 16 then k == w.key else k / 2 ^ 25 == p.rk

/-- Stores that sleep for room run again, longest sleeper first: R250 wakes them all, and the order is the model's choice (log entry
106). -/
def State.settleStores (s : State) : State :=
  s.over (s.sleepers .verStore) fun s tid =>
    match (s.thr tid).wait with
    | some w =>
      if (s.thr tid).slot = .asleep ∧ w.why = .verStore then
        (match s.storeBad tid w with | some n => s.parityAt tid n | none => s.settleStore tid w)
      else s
    | none => s

/-- Everything a change of a granule decides: loads that wait there, then stores for which room was freed. -/
def State.settleGran (s : State) (p : VPlace) (freed : Bool) : State :=
  let s := s.settleLoads (· == p.key)
  if freed then s.settleStores else s

/-- A version was reclaimed by this creation: K gives way to the first version at or above the floor. -/
def State.frees (s : State) (p : VPlace) : Bool := (s.gran p).vers.any fun e => decide (e.1 < (s.region p.rk).floor)

/-! ## Reaching a granule (R237 to R241) -/

/-- A leaf that cannot hold a region: 64 GiB, CA not 00, bridge peer, base not aligned or not mapped whole (R237, R238). -/
def TlbEntry.badRegion (e : TlbEntry) : Bool :=
  decide (25 < e.size) || e.ca != 0 || decide (2 < e.home) || !e.vok || e.vbase % (8 * 2 ^ e.size) != 0 ||
    (physKey e.home (e.vbase + 8 * 2 ^ e.size - 1)).isNone

/-- A granule's spilled entries come back (R244); where that has freed room, stores that sleep for it run again (R250). -/
def State.fetchGran (s : State) (p : VPlace) : State := if s.fetches p then (s.fetchEntries p).settleStores else s

/-- The granule at an address, with every check of Table 8-5 made, and after them those of R237 to R241 (log entry 107): its spilled
entries come back (R244), a Tabor core in C2 that its window names comes up (R202). -/
def State.versionAt (s : State) (w : Who) (acc : Acc) (g : Word) : Except AFault (State × VPlace) :=
  match s.check w ⟨acc, 64, false, true⟩ g 64 with
  | .error f => .error f
  | .ok ad =>
    match ad.pages with
    | [] =>
      if s.tagRefused w then .error (.trap Cause.access g)
      else .ok (s.touchCore (winCore g.toNat), ⟨islandRegion, winOff g.toNat - 0x9E0000, g⟩)
    | e :: _ =>
      if e.badRegion then .error (.trap Cause.access g)
      else
        let p : VPlace := ⟨regionKey (keyOf e.home e.vbase) e.size (s.qTenant e.qif), g.toNat % 2 ^ e.size, g⟩
        .ok ((s.admitAccess w ad).fetchGran p, p)

/-! ## The versioned instructions -/

/-- A version cause traps, with its error record where a list was lost (R249, Table 22-4). -/
def State.verTrap (s : State) (p : VPlace) (c : Nat) : Out :=
  let s := if c = Cause.verLost then s.logConsumed s.cur (regionBase p.rk + p.off) c else s
  s.trapOut c p.va

/-- The translation through which a versioned instruction reaches its granule; none for the island block. -/
def State.verLeaf (s : State) (acc : Acc) (va : Word) : Option TlbEntry :=
  match s.check s.meWho ⟨acc, 64, false, true⟩ va 64 with
  | .ok ad => ad.pages.head?
  | .error _ => none

/-- A versioned instruction sleeps, or its watchdog has expired (R250). -/
def State.verSleep (s : State) (p : VPlace) (why : WaitWhy) (code : Nat) (v : Word) (dest : Nat) : Out :=
  if s.me.expired why s.time s.me.csr.vwaitlim.toNat then s.trapOut code p.va
  else
    let leaf := s.verLeaf (if why = .verLoad then .read else .write) p.va
    .next ((s.sleepMe why p.va p.key v dest).modMe fun t => { t with wait := t.wait.map fun w => { w with leaf := leaf } })

/-- The version number in a register: its low 32 bits (R254). -/
def State.ver (s : State) (r : XReg) : Nat := (s.getX r).toNat % 2 ^ 32

/-- VERST: creates a version of a granule (R254). -/
def execVerst (v : VReg) (xa : XReg) (xv : XReg) (os : Os) (s : State) : Out :=
  match s.versionAt s.meWho .write (s.getX xa) with
  | .error f => .next (s.failed .write f)
  | .ok (s, p) =>
    let s := s.release os
    match s.verCreate p (s.ver xv) (vecBytes (s.getV v)) with
    | .done s' => .next (((s'.setTag s.meWho p).retire 4).settleGran p (s.frees p))
    | .cause c => s.verTrap p c
    | .wait => s.verSleep p .verStore Cause.verFull (BitVec.ofNat 64 (s.ver xv)) v.val

/-- A versioned load of either kind. -/
def State.verLoad (s : State) (le : Bool) (v : VReg) (xa xv : XReg) : Out :=
  match s.versionAt s.meWho .read (s.getX xa) with
  | .error f => .next (s.failed .read f)
  | .ok (s, p) =>
    match s.verLoadNow s.cur p le (s.ver xv) v.val xv.val with
    | some s' => .next s'
    | none => s.verSleep p .verLoad Cause.verWait (BitVec.ofNat 64 (s.ver xv)) (loadDest v.val xv.val le)

/-- VERLD: loads a version, sleeping until it exists (R254). -/
def execVerld (v : VReg) (xa : XReg) (xv : XReg) (_os : Os) (s : State) : Out := s.verLoad false v xa xv

/-- VERLDLE: loads the greatest version at or below the one named (R254). -/
def execVerldle (v : VReg) (xa : XReg) (xv : XReg) (_os : Os) (s : State) : Out := s.verLoad true v xa xv

/-- The result of a probe (Table 10-6). -/
def probeWord (l : List (Nat × Nat)) (floor v : Nat) : Word :=
  let hit := l.any fun e => e.1 == v
  BitVec.ofNat 64 (l.foldl (fun a e => max a e.1) 0 + b2n hit * 2 ^ 32 + b2n (!l.isEmpty) * 2 ^ 33 + l.length * 2 ^ 34
    + b2n (!hit && decide (v < floor)) * 2 ^ 38)

/-- VERPROBE: reports a granule's versions without sleeping (R255). -/
def execVerprobe (d : XReg) (xa : XReg) (xv : XReg) (s : State) : Out :=
  match s.versionAt s.meWho .read (s.getX xa) with
  | .error f => .next (s.failed .read f)
  | .ok (s, p) =>
    if s.verLost p then s.verTrap p Cause.verLost
    else (s.setTag s.meWho p).putX d (probeWord (s.gran p).vers (s.region p.rk).floor (s.ver xv)) 4

/-- VERFLOOR: raises a region's floor and reclaims (R256). -/
def execVerfloor (d : XReg) (xa : XReg) (xf : XReg) (os : Os) (s : State) : Out :=
  match s.versionAt s.meWho .write (s.getX xa) with
  | .error f => .next (s.failed .write f)
  | .ok (s, p) =>
    let s := s.release os
    match s.verRaise p (s.ver xf) with
    | .done s' =>
      let s' := ((s'.setTag s.meWho p).setX d (BitVec.ofNat 64 (s.region p.rk).floor)).retire 4
      .next ((s'.settleLoads fun k => k / 2 ^ 25 == p.rk).settleStores)
    | .cause c => s.verTrap p c
    | .wait => s.verSleep p .verStore Cause.verFull (BitVec.ofNat 64 (s.ver xf)) (16 + d.val)

/-- VERDROP: empties a region (R257); the block of a dark Tabor is lost (R485). -/
def execVerdrop (xa : XReg) (os : Os) (s : State) : Out :=
  match s.versionAt s.meWho .write (s.getX xa) with
  | .error f => .next (s.failed .write f)
  | .ok (s, p) =>
    if s.islandDark p then s.verTrap p Cause.verLost
    else
      let s := s.release os
      .next (((((s.verEmpty p.rk)).setTag s.meWho p).retire 4).settleStores)

/-! ## The end of a tenant's last task (R241, R257) -/

/-- Service firmware acts on the ends of tasks: where no task of the tenant is left, its regions are dropped (R416). -/
def State.dropWork (s : State) : State :=
  if s.drops.isEmpty then s
  else
    (({ s with drops := [] }).over s.drops fun s t => if s.tasks.any (fun p => p.2.tenant == t) then s else s.dropTenant t).settleStores

/-- A version list or a region record that exists is lost to an uncorrectable error, and the sleepers that this decides wake (R249, R250,
R479). -/
def State.upsetVer (s : State) (rk : Nat) (gran : Option Nat) : State :=
  let r := s.region rk
  let hit := match gran with | some off => !(r.grans.get GranList.init off).vers.isEmpty | none => r.hasRecord
  if hit then
    let s := match gran with
      | some off => s.setGran ⟨rk, off, 0⟩ { r.grans.get GranList.init off with lost := true }
      | none => s.setRegion rk { r with lost := true }
    (s.settleLoads fun k => k / 2 ^ 25 == rk).settleStores
  else s

end Sys2Proof.Machine
end

