-- ==== Sys2Proof/Machine/Memory.lean ====
section
/-!
DEFINITION. Loads, stores, vector memory, atomics, fences and patch stores (spec/11, R263 to R274; spec/05 for lanes; spec/22,
R498, R499 for the Rudiment log). Each access is checked as a whole by `State.check` and then performed.
-/
namespace Sys2Proof.Machine

/-! ## Addresses and suffixes -/

/-- A := (X(xa) + off)[63:0] (R263). -/
def State.ea (s : State) (a : XReg) (off : Word) : Word := s.getX a + off

/-- A store with an ordering suffix. -/
def State.storeOs (s : State) (os : Os) (ask : Ask) (va : Word) (bs : List Byte) (n : Nat) : Out :=
  match s.store ask va bs with
  | .error e => .next (s.failed ask.acc e)
  | .ok s => (s.release os).fin n

/-- A scalar load of `k` bytes (R264). -/
def State.scalarLoad (s : State) (a : Word) (k : Nat) (f : List Byte → Word) (d : XReg) (n : Nat) : Out :=
  s.loadX (Ask.plain .read) a k f d n

/-- A scalar store of the low `k` bytes of a register (R264). -/
def State.scalarStore (s : State) (a : Word) (k : Nat) (r : XReg) (os : Os) (n : Nat) : Out :=
  s.storeOs os (Ask.plain .write) a (bytesOf k (s.getX r).toNat) n

/-- Results of Table 11-1. -/
def signedBytes (n : Nat) (bs : List Byte) : Word := sext (BitVec.ofNat 64 (ofBytes bs)) n
def plainBytes (bs : List Byte) : Word := BitVec.ofNat 64 (ofBytes bs)

/-! ## Patch stores (R274) -/

/-- A patch store: the checks of Table 8-5, then a slot's start, then one 8-byte store. -/
def State.patchStore (s : State) (a : Word) (r : XReg) (n : Nat) : Out :=
  let ask : Ask := ⟨.patch, 8, false, false⟩
  match s.check s.meWho ask a 8 with
  | .error f => .next (s.failed .patch f)
  | .ok _ =>
    if (s.patchSlots s.cur).contains a.toNat then s.storeOs .rlx ask a (bytesOf 8 (s.getX r).toNat) n
    else s.trapOut Cause.patch a

/-! ## Vector loads and stores (R266 to R268) -/

/-- Active bytes of a mask, ascending. -/
def activeBytes (m : Word) : List Nat := (countFrom 0 64).filter (maskBit m)

/-- Maximal runs of active bytes, as (first, length). -/
def activeRuns (m : Word) : List (Nat × Nat) :=
  (activeBytes m).foldr (fun i l => match l with
    | (j, n) :: r => if i + 1 = j then (i, n + 1) :: r else (i, 1) :: (j, n) :: r
    | [] => [(i, 1)]) []

/-- An address reported for bytes from `a` on, moved to the first active byte at or after it (R267). -/
def firstActive (base : Word) (m : Word) (a : Word) : Word :=
  match (activeBytes m).find? fun i => (a - base).toNat ≤ i with
  | some i => base + BitVec.ofNat 64 i
  | none => a

/-- A failure of the span from the first to the last active byte, reported at an active byte. -/
def AFault.atActive (f : AFault) (base m : Word) : AFault :=
  match f with
  | .trap c e => .trap c (firstActive base m e)
  | .page fw k p a v st => .page fw k p (if st then a else firstActive base m a) (firstActive base m v) st
  | .lease a => .lease (firstActive base m a)
  | f => f

/-- The parts of runs of bytes at an address, each run checked as the access that it is: the aperture takes no other than one of eight bytes
(R451). -/
def State.runSpans (s : State) (ask : Ask) (a : Word) : List (Nat × Nat) → Except AFault (List Span)
  | [] => .ok []
  | r :: rest =>
    match s.check s.meWho ask (a + BitVec.ofNat 64 r.1) r.2 with
    | .error f => .error f
    | .ok x =>
      match s.runSpans ask a rest with
      | .error f => .error f
      | .ok l => .ok (x.spans ++ l)

/-- Check the active bytes of 64 at an address: the whole access, and its runs. A first active byte at or beyond 2^64 traps ACCESS, its address
modulo 2^64 as EVAL: R267 does not say whether A + i wraps (log entry 118). -/
def State.checkMasked (s : State) (ask : Ask) (a m : Word) : Except AFault (Admitted × List Span) :=
  let act := activeBytes m
  let lo := act.headD 0
  let hi := act.getLastD 0
  if 2 ^ 64 ≤ a.toNat + lo then .error (.trap Cause.access (a + BitVec.ofNat 64 lo))
  else
    match s.check s.meWho ask (a + BitVec.ofNat 64 lo) (hi + 1 - lo) with
    | .error f => .error (f.atActive a m)
    | .ok ad =>
      match s.runSpans ask a (activeRuns m) with
      | .error f => .error (f.atActive a m)
      | .ok l => .ok (ad, l)

/-- Bytes of a vector with the active ones taken, in order, from a list. -/
def mergeBytes (m : Word) : Nat → List Byte → List Byte → List Byte
  | _, [], _ => []
  | i, b :: r, new =>
    if maskBit m i then new.headD b :: mergeBytes m (i + 1) r new.tail else b :: mergeBytes m (i + 1) r new

/-- VLOAD (R267). -/
def State.vload (s : State) (v : VReg) (a : Word) (mr : MReg) (n : Nat) : Out :=
  let m := s.mask mr
  if m = 0 then s.fin n
  else
    match s.checkMasked (Ask.plain .read) a m with
    | .error f => .next (s.failed .read f)
    | .ok (ad, spans) =>
      match s.badSpan false spans with
      | some (k, e) => .next (s.failed .read (.poison k e))
      | none =>
        let s' := (s.admitAccess s.meWho ad).loadEffect s.cur spans
        (s'.setV v (vecOfBytes (mergeBytes m 0 (vecBytes (s.getV v)) (s'.bytesAt spans)))).fin n

/-- VSTORE (R267). -/
def State.vstore (s : State) (v : VReg) (a : Word) (mr : MReg) (n : Nat) : Out :=
  let m := s.mask mr
  if m = 0 then s.fin n
  else
    match s.checkMasked (Ask.plain .write) a m with
    | .error f => .next (s.failed .write f)
    | .ok (ad, spans) =>
      let bs := ((vecBytes (s.getV v)).zip (countFrom 0 64)).filterMap fun p => if maskBit m p.2 then some p.1 else none
      if msiRefused spans bs then s.trapOut Cause.access (firstActive a m a)
      else
        match s.badSpan true spans with
        | some (k, e) => .next (s.failed .write (.poison k e))
        | none =>
          (((s.admitAccess s.meWho ad).noteWhole (s.tenantOf s.cur) spans).writeSpans (fun s o v => s.hubStore true o v) s.cur true spans
            bs).fin n

/-- Bytes of an element size. -/
def esizeBytes (e : ESize) : Nat :=
  match e with
  | .b1 => 1
  | .b2 => 2
  | .b4 => 4
  | .b8 => 8

/-- VLOADB (R267): one access, every active lane. -/
def State.vloadb (s : State) (es : ESize) (v : VReg) (a : Word) (mr : MReg) (n : Nat) : Out :=
  let e := esizeBytes es
  let m := s.mask mr
  if !(countFrom 0 (64 / e)).any (activeLane m (8 * e)) then s.fin n
  else
    match s.load (Ask.plain .read) a e with
    | .error f => .next (s.failed .read f)
    | .ok (s', bs) => (s'.setV v (laneMap (8 * e) m (s.getV v) fun _ => ofBytes bs)).fin n

/-- Elements handled by gathers and scatters (R267). -/
def gatherCount (e : Nat) : Nat := if e = 8 then 8 else 16

/-- Active elements with their addresses, ascending (R267). -/
def State.elements (s : State) (e : Nat) (vi : VReg) (base : Word) (m : Word) : List (Nat × Word) :=
  ((countFrom 0 (gatherCount e)).filter (activeLane m (8 * e))).map fun i =>
    (i, base + (if e = 8 then BitVec.ofInt 64 (signed 64 (lane (s.getV vi) 64 i)) else BitVec.ofInt 64 (signed 32 (lane (s.getV vi) 32 i))))

/-- Check every element, `data` giving what a store puts there; the lowest lane's failure is the one reported (R268). -/
def State.checkElements (s : State) (acc : Acc) (e : Nat) (data : Nat → List Byte) : List (Nat × Word) → Except AFault (List (Nat × Admitted))
  | [] => .ok []
  | (i, a) :: r =>
    match s.check s.meWho (Ask.plain acc) a e with
    | .error f => .error f
    | .ok ad =>
      if msiRefused ad.spans (data i) then .error (.trap Cause.access a)
      else
        match s.badSpan acc.dirties ad.spans with
        | some (k, x) => .error (.poison k x)
        | none =>
          match s.checkElements acc e data r with
          | .error f => .error f
          | .ok l => .ok ((i, ad) :: l)

/-- Read elements, giving (lane, value) pairs. -/
def State.readElements (s : State) : List (Nat × Admitted) → State × SMap Nat
  | [] => (s, [])
  | (i, ad) :: r =>
    let s := (s.admitAccess s.meWho ad).loadEffect s.cur ad.spans
    let x := ofBytes (s.bytesAt ad.spans)
    let (s, l) := s.readElements r
    (s, (i, x) :: l)

/-- VGATHER (R267, R268). -/
def State.vgather (s : State) (es : ESize) (v vi : VReg) (a : XReg) (mr : MReg) : Out :=
  let e := esizeBytes es
  let m := s.mask mr
  match s.checkElements .read e (fun _ => []) (s.elements e vi (s.getX a) m) with
  | .error f => .next (s.failed .read f)
  | .ok l =>
    let old := s.getV v
    let (s, got) := s.readElements l
    (s.setV v (ofLanes (8 * e) ((countFrom 0 (gatherCount e)).map fun i => got.get (lane old (8 * e) i) i))).fin 4

/-- VSCATTER (R267, R268): ascending lanes, so that the higher lane's bytes remain. -/
def State.vscatter (s : State) (es : ESize) (v vi : VReg) (a : XReg) (mr : MReg) : Out :=
  let e := esizeBytes es
  let el := fun (i : Nat) => bytesOf e (lane (s.getV v) (8 * e) i)
  match s.checkElements .write e el (s.elements e vi (s.getX a) (s.mask mr)) with
  | .error f => .next (s.failed .write f)
  | .ok l =>
    (s.over l fun s p =>
      ((s.admitAccess s.meWho p.2).noteWhole (s.tenantOf s.cur) p.2.spans).writeSpans (fun s o v => s.hubStore true o v) s.cur true p.2.spans
        (el p.1)).fin 4

/-! ## The Rudiment log (R498, R499) -/

/-- A trace record whose core, slot, GANG and SSTEP the spec does not state: those are free values (log entry 33). -/
def State.traceFree (s : State) (c kind : Nat) (core : Option Nat) (payload : List Word) : State :=
  let (a, s) := s.drawFree
  let (b, s) := s.drawFree
  s.trace c (padWords (s.traceHead kind 1 (core.getD (bits a.toNat 32 12)) (bits a.toNat 44 3) (a.toNat % 2 ^ 32) b ++ payload))

/-- A log entry of 8 bytes. -/
def rudimentWord (r : Nat × Nat × Nat × Nat) : Word := BitVec.ofNat 64 (r.2.1 + r.2.2.1 * 2 ^ 16 + (r.2.2.2 - 1) * 2 ^ 30)

/-- Write up to five entries of a slice as one RUDIMENT record. -/
def State.rudimentRecord (s : State) (c slice : Nat) (l : List (Nat × Nat × Nat × Nat)) : State :=
  s.traceFree c 6 (some slice) (l.map rudimentWord)

/-- TAG of an atomic's address. -/
def rudimentTag (va : Word) : Nat := bits va.toNat 3 16 ^^^ bits va.toNat 19 16 ^^^ bits va.toNat 35 12

/-- REQ of a thread. -/
def State.rudimentReq (s : State) (tid : Nat) : Nat := (s.bind tid).grank * 8 + (s.bind tid).tidx

/-- The RUN of the first entry of a slice grows. -/
def runGrow (slice : Nat) : List (Nat × Nat × Nat × Nat) → List (Nat × Nat × Nat × Nat)
  | [] => []
  | r :: l => if r.1 = slice then (r.1, r.2.1, r.2.2.1, r.2.2.2 + 1) :: l else r :: runGrow slice l

/-- One more atomic at the end of a slice's entries: the last entry's RUN grows, or an entry is added. -/
def runsAdd (runs : List (Nat × Nat × Nat × Nat)) (slice tag req : Nat) : List (Nat × Nat × Nat × Nat) :=
  match (runs.filter fun r => r.1 == slice).getLast? with
  | some (_, t, q, n) =>
    if t = tag ∧ q = req ∧ n < 1024 then (runGrow slice runs.reverse).reverse else runs ++ [(slice, tag, req, 1)]
  | none => runs ++ [(slice, tag, req, 1)]

/-- Log an atomic at a slice; a sixth entry sends the five before it. -/
def State.rudimentLog (s : State) (c slice tag req : Nat) : State :=
  match s.captures.find c with
  | none => s
  | some k =>
    let runs := runsAdd k.runs slice tag req
    let mine := runs.filter fun r => r.1 == slice
    if mine.length ≤ 5 then { s with captures := s.captures.set c { k with runs := runs } }
    else
      let rest := runs.filter fun r => r.1 != slice
      let s : State := { s with captures := s.captures.set c { k with runs := rest ++ mine.drop 5 } }
      s.rudimentRecord c slice (mine.take 5)

/-- Whether replay holds an atomic: its TAG has entries left at its slice, and the first is another requester's. -/
def replayHolds (k : Capture) (slice tag req : Nat) : Bool :=
  bit k.set 6 && !k.replayOff &&
    match k.replay.find? fun r => r.1 == slice && r.2.1 == tag && r.2.2.2 != 0 with
    | some r => r.2.2.1 != req
    | none => false

/-- The first entry of a slice and TAG with atomics left is used once. -/
def replayUse (slice tag : Nat) : List (Nat × Nat × Nat × Nat) → List (Nat × Nat × Nat × Nat)
  | [] => []
  | r :: l => if r.1 == slice && r.2.1 == tag && r.2.2.2 != 0 then (r.1, r.2.1, r.2.2.1, r.2.2.2 - 1) :: l else r :: replayUse slice tag l

/-- The slice of an atomic: the home slice of its page's location, for LPDDR6, HBM and host pages (Table 8-6), where it has moved to while
its quadrant is out of service (R378); the hub's home agent is no slice. -/
def State.sliceOf (s : State) (spans : List Span) : Option Nat :=
  match spans with
  | p :: _ => match p.loc with
    | .mem k => if k / 2 ^ 52 ≤ 2 ∧ s.homeOf k < 64 then some (s.homeOf k) else none
    | _ => none
  | [] => none

/-- The capture that covers a thread's task. -/
def State.captureOf (s : State) (tid : Nat) : Option Nat := match s.taskOf tid with | some t => t.capture | none => none

/-- An atomic of a thread is held by replay. -/
def State.heldByReplay (s : State) (tid : Nat) (va : Word) (spans : List Span) : Bool :=
  match s.captureOf tid, s.sliceOf spans with
  | some c, some sl => match s.captures.find c with
    | some k => replayHolds k sl (rudimentTag va) (s.rudimentReq tid)
    | none => false
  | _, _ => false

/-- What capture and replay keep of an atomic that is performed. -/
def State.rudiment (s : State) (tid : Nat) (va : Word) (spans : List Span) : State :=
  match s.captureOf tid, s.sliceOf spans with
  | some c, some sl => match s.captures.find c with
    | some k =>
      if bit k.set 6 then
        if k.replayOff then s
        else { s with captures := s.captures.set c { k with replay := replayUse sl (rudimentTag va) k.replay } }
      else if bit k.set 5 then s.rudimentLog c sl (rudimentTag va) (s.rudimentReq tid)
      else s
    | none => s
  | _, _ => s

/-- Replay ends for a capture: its held atomics are released, a STOP record with reason 3 is written (R499; log entry 34). -/
def State.endReplay (s : State) (c gid : Nat) : State :=
  match s.captures.find c with
  | none => s
  | some k =>
    let s := { s with captures := s.captures.set c { k with replayOff := true } }
    let s := s.over s.threads.keys fun s tid =>
      match (s.thr tid).wait with
      | some w => if w.why = .replay ∧ s.captureOf tid = some c then s.modThr tid Thread.wake else s
      | none => s
    let (a, s) := s.drawFree
    let sstep : Word := match s.tasks.find gid with | some t => t.sstep | none => 0
    s.traceNext c (padWords (s.traceHead 5 1 (bits a.toNat 0 12) (bits a.toNat 12 3) gid sstep ++ [3#64, 0#64]))

/-! ## Atomics (R269 to R271) -/

/-- An atomic of `n` bytes at the unit: `f` gives what it stores, `fl` the flags it raises, `ext` the result. -/
def State.atomic (s : State) (os : Os) (a : Word) (n : Nat) (f : Nat → Option Nat) (fl : Nat → BitVec 5) (ext : Nat → Word)
    (d : XReg) : Out :=
  match s.check s.meWho ⟨.rw, n, true, false⟩ a n with
  | .error e => .next (s.failed .rw e)
  | .ok ad =>
    if s.heldByReplay s.cur a ad.spans then
      if s.me.expired .replay s.time (s.waitLimit s.cur) then
        match s.captureOf s.cur, s.gangOf s.cur with
        | some c, some g => .next ((s.sleepMe .replay a 0 0 0).endReplay c g)
        | _, _ => .next s
      else .next (s.sleepMe .replay a 0 0 0)
    else
      match s.badSpan false ad.spans with
      | some (k, e) => .next (s.failed .rw (.poison k e))
      | none =>
        let s := (s.admitAccess s.meWho ad).loadEffect s.cur ad.spans
        let old := ofBytes (s.bytesAt ad.spans)
        let s := match f old with
          | some v => s.writeSpans (fun s o v => s.hubStore true o v) s.cur true ad.spans (bytesOf n v)
          | none => s
        let s := (s.rudiment s.cur a ad.spans).release os
        let s := if fl old = 0 then s else s.modMe (·.raiseFlags (fl old))
        s.putX d (ext old) 4

/-- Bytes of a width. -/
def amoBytes (dbl : Bool) : Nat := if dbl then 8 else 4

/-- The result of an atomic other than AMOFADD: sign-extended for .W (R269). -/
def amoExt (dbl : Bool) (old : Nat) : Word := if dbl then BitVec.ofNat 64 old else sext (BitVec.ofNat 64 old) 32

/-- An atomic of Table 11-3 whose function is on the old value and the source. -/
def State.amo (s : State) (f : Nat → Nat → Nat → Nat) (d a b : XReg) (dbl : Bool) (os : Os) : Out :=
  let n := amoBytes dbl
  let src := (s.getX b).toNat % 2 ^ (8 * n)
  s.atomic os (s.getX a) n (fun old => some (f (8 * n) old src)) (fun _ => 0) (amoExt dbl) d

/-- Unsigned minimum and maximum of lanes. -/
def laneMinu (_ a b : Nat) : Nat := min a b
def laneMaxu (_ a b : Nat) : Nat := max a b

/-- old + s rounded under RNE (Table 11-3). -/
def fadd (dbl : Bool) (old src : Nat) : Nat × Fst :=
  let f := if dbl then Fmt.f64 else Fmt.f32
  let x := fAdd .rne (f.decode old) (f.decode src)
  rnd f .rne false x.1 (Fst.raise ⟨0, 0⟩ x.2)

/-- What ABUMP allocates (R271): none where it is refused. -/
def abump (base lim old n : Nat) : Option Nat := if old < base ∨ lim < old ∨ lim - old < n then none else some old

/-! ## Fences (R222, R272) -/

/-- A fence waits while something of the thread on a named path is not performed: commands (R222), and, where earlier stores are ordered,
entries that its core has pushed and that have not landed (R340). -/
def State.fenceWaits (s : State) (k : FenceKind) (p : Path) : Bool :=
  s.pendingOn p s.cur || (p == .sl && k != .acq && s.pushing)

/-- The write-combined data of a thread leaves at a fence of scope .SY (R226), and at one that orders earlier stores of the LS or the MX path:
tile stores to such pages are held as others are (R222, R224). -/
def fenceFlushes (sc : Scope) (k : FenceKind) (p1 p2 : Path) : Bool :=
  sc == .sy || (k != .acq && (p1 == .ls || p2 == .ls || p1 == .mx || p2 == .mx))

/-- A fence of one scope, kind and two paths (R222): it waits, lets the matrix queue drain for MX, and write-combined data leaves. -/
def State.fence (s : State) (sc : Scope) (k : FenceKind) (p1 p2 : Path) : Out :=
  if s.fenceWaits k p1 || s.fenceWaits k p2 then .next s
  else
    s.afterDrain (p1 == .mx || p2 == .mx) fun s => (if fenceFlushes sc k p1 p2 then s.flushWc s.cur else s).fin 4

/-! ## The instructions -/

/-- LB: loads a sign-extended byte (R264). -/
def execLb (d : XReg) (a : XReg) (off : BitVec 5) (_os : Os) (s : State) : Out :=
  s.scalarLoad (s.ea a (shortOff off 1)) 1 (signedBytes 8) d 4

/-- LBU: loads a zero-extended byte (R264). -/
def execLbu (d : XReg) (a : XReg) (off : BitVec 5) (_os : Os) (s : State) : Out :=
  s.scalarLoad (s.ea a (shortOff off 1)) 1 plainBytes d 4

/-- LH: loads a sign-extended halfword (R264). -/
def execLh (d : XReg) (a : XReg) (off : BitVec 5) (_os : Os) (s : State) : Out :=
  s.scalarLoad (s.ea a (shortOff off 2)) 2 (signedBytes 16) d 4

/-- LHU: loads a zero-extended halfword (R264). -/
def execLhu (d : XReg) (a : XReg) (off : BitVec 5) (_os : Os) (s : State) : Out :=
  s.scalarLoad (s.ea a (shortOff off 2)) 2 plainBytes d 4

/-- LW: loads a sign-extended word (R264). -/
def execLw (d : XReg) (a : XReg) (off : BitVec 5) (_os : Os) (s : State) : Out :=
  s.scalarLoad (s.ea a (shortOff off 4)) 4 (signedBytes 32) d 4

/-- LWU: loads a zero-extended word (R264). -/
def execLwu (d : XReg) (a : XReg) (off : BitVec 5) (_os : Os) (s : State) : Out :=
  s.scalarLoad (s.ea a (shortOff off 4)) 4 plainBytes d 4

/-- LD: loads a doubleword (R264). -/
def execLd (d : XReg) (a : XReg) (off : BitVec 5) (_os : Os) (s : State) : Out :=
  s.scalarLoad (s.ea a (shortOff off 8)) 8 plainBytes d 4

/-- LB_LIT: LB with a literal byte offset (R263). -/
def execLbLit (d : XReg) (a : XReg) (lit : Word) (_os : Os) (s : State) : Out :=
  s.scalarLoad (s.ea a lit) 1 (signedBytes 8) d 12

/-- LBU_LIT: LBU with a literal byte offset (R263). -/
def execLbuLit (d : XReg) (a : XReg) (lit : Word) (_os : Os) (s : State) : Out :=
  s.scalarLoad (s.ea a lit) 1 plainBytes d 12

/-- LH_LIT: LH with a literal byte offset (R263). -/
def execLhLit (d : XReg) (a : XReg) (lit : Word) (_os : Os) (s : State) : Out :=
  s.scalarLoad (s.ea a lit) 2 (signedBytes 16) d 12

/-- LHU_LIT: LHU with a literal byte offset (R263). -/
def execLhuLit (d : XReg) (a : XReg) (lit : Word) (_os : Os) (s : State) : Out :=
  s.scalarLoad (s.ea a lit) 2 plainBytes d 12

/-- LW_LIT: LW with a literal byte offset (R263). -/
def execLwLit (d : XReg) (a : XReg) (lit : Word) (_os : Os) (s : State) : Out :=
  s.scalarLoad (s.ea a lit) 4 (signedBytes 32) d 12

/-- LWU_LIT: LWU with a literal byte offset (R263). -/
def execLwuLit (d : XReg) (a : XReg) (lit : Word) (_os : Os) (s : State) : Out :=
  s.scalarLoad (s.ea a lit) 4 plainBytes d 12

/-- LD_LIT: LD with a literal byte offset (R263). -/
def execLdLit (d : XReg) (a : XReg) (lit : Word) (_os : Os) (s : State) : Out :=
  s.scalarLoad (s.ea a lit) 8 plainBytes d 12

/-- LB_EXT: LB with a 47-bit offset in E (R263). -/
def execLbExt (d : XReg) (a : XReg) (off : BitVec 47) (_os : Os) (s : State) : Out :=
  s.scalarLoad (s.ea a (simm off)) 1 (signedBytes 8) d 12

/-- LBU_EXT: LBU with a 47-bit offset in E (R263). -/
def execLbuExt (d : XReg) (a : XReg) (off : BitVec 47) (_os : Os) (s : State) : Out :=
  s.scalarLoad (s.ea a (simm off)) 1 plainBytes d 12

/-- LH_EXT: LH with a 47-bit offset in E (R263). -/
def execLhExt (d : XReg) (a : XReg) (off : BitVec 47) (_os : Os) (s : State) : Out :=
  s.scalarLoad (s.ea a (simm off)) 2 (signedBytes 16) d 12

/-- LHU_EXT: LHU with a 47-bit offset in E (R263). -/
def execLhuExt (d : XReg) (a : XReg) (off : BitVec 47) (_os : Os) (s : State) : Out :=
  s.scalarLoad (s.ea a (simm off)) 2 plainBytes d 12

/-- LW_EXT: LW with a 47-bit offset in E (R263). -/
def execLwExt (d : XReg) (a : XReg) (off : BitVec 47) (_os : Os) (s : State) : Out :=
  s.scalarLoad (s.ea a (simm off)) 4 (signedBytes 32) d 12

/-- LWU_EXT: LWU with a 47-bit offset in E (R263). -/
def execLwuExt (d : XReg) (a : XReg) (off : BitVec 47) (_os : Os) (s : State) : Out :=
  s.scalarLoad (s.ea a (simm off)) 4 plainBytes d 12

/-- LD_EXT: LD with a 47-bit offset in E (R263). -/
def execLdExt (d : XReg) (a : XReg) (off : BitVec 47) (_os : Os) (s : State) : Out :=
  s.scalarLoad (s.ea a (simm off)) 8 plainBytes d 12

/-- SB: stores a byte (R264). -/
def execSb (r : XReg) (a : XReg) (off : BitVec 5) (os : Os) (s : State) : Out :=
  s.scalarStore (s.ea a (shortOff off 1)) 1 r os 4

/-- SH: stores a halfword (R264). -/
def execSh (r : XReg) (a : XReg) (off : BitVec 5) (os : Os) (s : State) : Out :=
  s.scalarStore (s.ea a (shortOff off 2)) 2 r os 4

/-- SW: stores a word (R264). -/
def execSw (r : XReg) (a : XReg) (off : BitVec 5) (os : Os) (s : State) : Out :=
  s.scalarStore (s.ea a (shortOff off 4)) 4 r os 4

/-- SD: stores a doubleword (R264). -/
def execSd (r : XReg) (a : XReg) (off : BitVec 5) (os : Os) (s : State) : Out :=
  s.scalarStore (s.ea a (shortOff off 8)) 8 r os 4

/-- PSTORE: writes 8 bytes atomically into a declared patch slot of code (R274). -/
def execPstore (r : XReg) (a : XReg) (off : BitVec 5) (s : State) : Out := s.patchStore (s.ea a (shortOff off 8)) r 4

/-- SB_LIT: SB with a literal byte offset (R263). -/
def execSbLit (r : XReg) (a : XReg) (lit : Word) (os : Os) (s : State) : Out := s.scalarStore (s.ea a lit) 1 r os 12

/-- SH_LIT: SH with a literal byte offset (R263). -/
def execShLit (r : XReg) (a : XReg) (lit : Word) (os : Os) (s : State) : Out := s.scalarStore (s.ea a lit) 2 r os 12

/-- SW_LIT: SW with a literal byte offset (R263). -/
def execSwLit (r : XReg) (a : XReg) (lit : Word) (os : Os) (s : State) : Out := s.scalarStore (s.ea a lit) 4 r os 12

/-- SD_LIT: SD with a literal byte offset (R263). -/
def execSdLit (r : XReg) (a : XReg) (lit : Word) (os : Os) (s : State) : Out := s.scalarStore (s.ea a lit) 8 r os 12

/-- PSTORE_LIT: PSTORE with a literal byte offset (R274). -/
def execPstoreLit (r : XReg) (a : XReg) (lit : Word) (s : State) : Out := s.patchStore (s.ea a lit) r 12

/-- SB_EXT: SB with a 47-bit offset in E (R263). -/
def execSbExt (r : XReg) (a : XReg) (off : BitVec 47) (os : Os) (s : State) : Out :=
  s.scalarStore (s.ea a (simm off)) 1 r os 12

/-- SH_EXT: SH with a 47-bit offset in E (R263). -/
def execShExt (r : XReg) (a : XReg) (off : BitVec 47) (os : Os) (s : State) : Out :=
  s.scalarStore (s.ea a (simm off)) 2 r os 12

/-- SW_EXT: SW with a 47-bit offset in E (R263). -/
def execSwExt (r : XReg) (a : XReg) (off : BitVec 47) (os : Os) (s : State) : Out :=
  s.scalarStore (s.ea a (simm off)) 4 r os 12

/-- SD_EXT: SD with a 47-bit offset in E (R263). -/
def execSdExt (r : XReg) (a : XReg) (off : BitVec 47) (os : Os) (s : State) : Out :=
  s.scalarStore (s.ea a (simm off)) 8 r os 12

/-- PSTORE_EXT: PSTORE with a 47-bit offset in E (R274). -/
def execPstoreExt (r : XReg) (a : XReg) (off : BitVec 47) (s : State) : Out := s.patchStore (s.ea a (simm off)) r 12

/-- AMOADD: atomic add at the address's unit, returning the old value (R269). -/
def execAmoadd (d : XReg) (a : XReg) (b : XReg) (dbl : Bool) (os : Os) (s : State) : Out := s.amo Lanes.add d a b dbl os

/-- AMOAND: atomic AND (R269). -/
def execAmoand (d : XReg) (a : XReg) (b : XReg) (dbl : Bool) (os : Os) (s : State) : Out := s.amo Lanes.and d a b dbl os

/-- AMOOR: atomic OR (R269). -/
def execAmoor (d : XReg) (a : XReg) (b : XReg) (dbl : Bool) (os : Os) (s : State) : Out := s.amo Lanes.or d a b dbl os

/-- AMOXOR: atomic XOR (R269). -/
def execAmoxor (d : XReg) (a : XReg) (b : XReg) (dbl : Bool) (os : Os) (s : State) : Out := s.amo Lanes.xor d a b dbl os

/-- AMOMIN: atomic signed minimum (R269). -/
def execAmomin (d : XReg) (a : XReg) (b : XReg) (dbl : Bool) (os : Os) (s : State) : Out := s.amo Lanes.min d a b dbl os

/-- AMOMAX: atomic signed maximum (R269). -/
def execAmomax (d : XReg) (a : XReg) (b : XReg) (dbl : Bool) (os : Os) (s : State) : Out := s.amo Lanes.max d a b dbl os

/-- AMOMINU: atomic unsigned minimum (R269). -/
def execAmominu (d : XReg) (a : XReg) (b : XReg) (dbl : Bool) (os : Os) (s : State) : Out := s.amo laneMinu d a b dbl os

/-- AMOMAXU: atomic unsigned maximum (R269). -/
def execAmomaxu (d : XReg) (a : XReg) (b : XReg) (dbl : Bool) (os : Os) (s : State) : Out := s.amo laneMaxu d a b dbl os

/-- AMOSWAP: atomic swap (R269). -/
def execAmoswap (d : XReg) (a : XReg) (b : XReg) (dbl : Bool) (os : Os) (s : State) : Out :=
  s.amo (fun _ _ src => src) d a b dbl os

/-- AMOCAS: atomic compare-and-swap against X(rd) (R269). -/
def execAmocas (d : XReg) (a : XReg) (b : XReg) (dbl : Bool) (os : Os) (s : State) : Out :=
  let n := amoBytes dbl
  let cmp := (s.getX d).toNat % 2 ^ (8 * n)
  let src := (s.getX b).toNat % 2 ^ (8 * n)
  s.atomic os (s.getX a) n (fun old => if old = cmp then some src else none) (fun _ => 0) (amoExt dbl) d

/-- AMOFADD: atomic floating-point add under RNE, flags to FFLAGS (R270). -/
def execAmofadd (d : XReg) (a : XReg) (b : XReg) (dbl : Bool) (os : Os) (s : State) : Out :=
  let src := (s.getX b).toNat % 2 ^ (8 * amoBytes dbl)
  s.atomic os (s.getX a) (amoBytes dbl) (fun old => some (fadd dbl old src).1) (fun old => (fadd dbl old src).2.flags)
    (BitVec.ofNat 64) d

/-- ABUMP: atomically allocates from the task's arena by bumping a pointer (R271). -/
def execAbump (d : XReg) (a : XReg) (b : XReg) (os : Os) (s : State) : Out :=
  match s.kon 247, s.kon 248 with
  | .ok base, .ok lim =>
    let n := alignUp (s.getX b).toNat 16
    s.atomic os (s.getX a) 8 (fun old => if n = 0 then none else (abump base.toNat lim.toNat old n).map (· + n)) (fun _ => 0)
      (fun old => match abump base.toNat lim.toNat old n with | some v => BitVec.ofNat 64 v | none => BitVec.allOnes 64) d
  | .error e, _ => .next (s.failed .rw e)
  | _, .error e => .next (s.failed .rw e)

/-- FENCE: orders the thread's LS events of the chosen kind at a scope (R272). -/
def execFence (sc : Scope) (k : FenceKind) (s : State) : Out := s.fence sc k .ls .ls

/-- FENCEX: orders events across two named paths at a scope (R222). -/
def execFencex (sc : Scope) (k : FenceKind) (p1 : Path) (p2 : Path) (s : State) : Out := s.fence sc k p1 p2

/-- IFENCE: discards fetched but unissued instructions of the thread (R273). -/
def execIfence (s : State) : Out := s.fin 4

/-- VLOAD: loads the active bytes of a 64-byte vector (R266). -/
def execVload (v : VReg) (a : XReg) (off : BitVec 5) (m : MReg) (s : State) : Out :=
  s.vload v (s.ea a (shortOff off 64)) m 4

/-- VSTORE: stores the active bytes of a vector (R266). -/
def execVstore (v : VReg) (a : XReg) (off : BitVec 5) (m : MReg) (s : State) : Out :=
  s.vstore v (s.ea a (shortOff off 64)) m 4

/-- VGATHER: loads indexed elements into vector lanes (R267). -/
def execVgather (e : ESize) (v : VReg) (vi : VReg) (a : XReg) (m : MReg) (s : State) : Out := s.vgather e v vi a m

/-- VSCATTER: stores vector lanes to indexed addresses (R267). -/
def execVscatter (e : ESize) (v : VReg) (vi : VReg) (a : XReg) (m : MReg) (s : State) : Out := s.vscatter e v vi a m

/-- VLOADB: loads one element and broadcasts it to active lanes (R266). -/
def execVloadb (e : ESize) (v : VReg) (a : XReg) (off : BitVec 5) (m : MReg) (s : State) : Out :=
  s.vloadb e v (s.ea a (shortOff off 64)) m 4

/-- VLOAD_LIT: VLOAD with a literal byte offset (R263). -/
def execVloadLit (v : VReg) (a : XReg) (lit : Word) (m : MReg) (s : State) : Out := s.vload v (s.ea a lit) m 12

/-- VSTORE_LIT: VSTORE with a literal byte offset (R263). -/
def execVstoreLit (v : VReg) (a : XReg) (lit : Word) (m : MReg) (s : State) : Out := s.vstore v (s.ea a lit) m 12

/-- VLOADB_LIT: VLOADB with a literal byte offset (R263). -/
def execVloadbLit (e : ESize) (v : VReg) (a : XReg) (lit : Word) (m : MReg) (s : State) : Out :=
  s.vloadb e v (s.ea a lit) m 12

/-- VLOAD_EXT: VLOAD with a 47-bit offset in E (R263). -/
def execVloadExt (v : VReg) (a : XReg) (off : BitVec 47) (m : MReg) (s : State) : Out :=
  s.vload v (s.ea a (simm off)) m 12

/-- VSTORE_EXT: VSTORE with a 47-bit offset in E (R263). -/
def execVstoreExt (v : VReg) (a : XReg) (off : BitVec 47) (m : MReg) (s : State) : Out :=
  s.vstore v (s.ea a (simm off)) m 12

/-- VLOADB_EXT: VLOADB with a 47-bit offset in E (R263). -/
def execVloadbExt (e : ESize) (v : VReg) (a : XReg) (off : BitVec 47) (m : MReg) (s : State) : Out :=
  s.vloadb e v (s.ea a (simm off)) m 12

end Sys2Proof.Machine
end

