-- ==== Sys2Proof/Machine/Tiles.lean ====
section
/-!
DEFINITION. Tile memory instructions and the enqueue of matrix operations (spec/06, R155, R160, R161, R166 to R170, R175 to R188).
What an entry does when it executes stands in Machine/Matrix.lean.
-/
namespace Sys2Proof.Machine

/-! ## Waiting for the queue -/

/-- An entry reads or writes tile `t` or its scale area (R170). -/
def usesTile (t : TReg) (op : MxOp) : Bool :=
  match op with
  | .tmma _ a b => a == t || b == t
  | .taccout d _ _ _ _ => d == t
  | .tzero d => d == t
  | .txch _ a _ => a == t
  | .tcvt d a => d == t || a == t
  | .taccadd _ _ => false
  | .taccz _ => false

/-- An entry reads or writes accumulator `n`. -/
def usesAcc (n : AReg) (op : MxOp) : Bool :=
  match op with
  | .tmma a _ _ => a == n
  | .taccout _ a _ _ _ => a == n
  | .taccadd d a => d == n || a == n
  | .taccz a => a == n
  | .tzero _ => false
  | .txch _ _ _ => false
  | .tcvt _ _ => false

/-- An entry of the own core's queue stands against an instruction. -/
def State.queued (s : State) (p : MxOp → Bool) : Bool := (s.core s.myCore).mx.queue.any fun e => p e.op

/-- Entries execute until none stands against an instruction, at most `n` of them. -/
def State.drainFor (s : State) (p : MxOp → Bool) : Nat → State
  | 0 => s
  | n + 1 => if s.queued p then (s.mxStep s.myCore).drainFor p n else s

/-- An instruction that waits for queue entries: they execute first; a deferred trap that one of them raises comes before it. -/
def State.afterQueue (s : State) (p : MxOp → Bool) (k : State → Out) : Out :=
  if s.queued p then
    let s := s.drainFor p 16
    if s.due then .next s else k s
  else k s

/-- An entry is enqueued as soon as the queue has room (R166). -/
def State.enqueueOp (s : State) (op : MxOp) (draws : Nat) : Out :=
  if (s.core s.myCore).mx.queue.length < 8 then (s.enqueue op draws).fin 4
  else
    let s := s.mxStep s.myCore
    if s.due || decide (8 ≤ (s.core s.myCore).mx.queue.length) then .next s else (s.enqueue op draws).fin 4

/-! ## Descriptor conditions (TDESC_BAD) -/

/-- Formats of TLOADT (Table 6-10). -/
def transposable (f : Nat) : Bool := decide (f ≤ 5) || f == 7 || f == 8 || f == 12 || f == 13

/-- Formats with block scales. -/
def scaled (f : Nat) : Bool := tClass f == .mx || tClass f == .wb

/-- R161: the pair, the accumulator's type, equal COLS. -/
def State.tmmaOk (s : State) (n : AReg) (ta tb : TReg) : Bool :=
  let da := s.tdesc s.myCore ta
  let db := s.tdesc s.myCore tb
  descOk da && descOk db && pairOk (dFmt da) (dFmt db) (((s.core s.myCore).mx.accd.get n).getLsbD 0) && dCols da == dCols db

/-- R181: the descriptor, the column block, no crossing of FP32 and INT32. -/
def State.taccoutOk (s : State) (t : TReg) (n : AReg) (cb : Nat) : Bool :=
  let d := s.tdesc s.myCore t
  let int32 := ((s.core s.myCore).mx.accd.get n).getLsbD 0
  descOk d && decide (16 * cb + 16 ≤ dCols d) && !(int32 && dFmt d == 16) && !(!int32 && dFmt d == 17)

/-- R186: both descriptors, equal ROWS and COLS. -/
def State.tcvtOk (s : State) (t ta : TReg) : Bool :=
  let d := s.tdesc s.myCore t
  let a := s.tdesc s.myCore ta
  descOk d && descOk a && dRows d == dRows a && dCols d == dCols a

/-- Invalid or incompatible descriptors: ILLEGAL with EVAL 1. -/
def State.tdescBad (s : State) : Out := s.trapOut Cause.illegal 1

/-- An instruction with its descriptor condition. -/
def State.withDesc (s : State) (ok : Bool) (k : Out) : Out := if ok then k else s.tdescBad

/-! ## Pieces (R176 to R178) -/

/-- Addresses of `n` pieces of `size` bytes: the dense stride with xs = 0. -/
def State.pieces (s : State) (xa : XReg) (xs : LReg) (n size : Nat) : List (Nat × Word) :=
  let stride := if xs = 0 then BitVec.ofNat 64 size else s.getQ xs
  (countFrom 0 n).map fun i => (i, s.getX xa + BitVec.ofNat 64 i * stride)

/-- Bytes of pieces, read in order. -/
def State.readPieces (s : State) : List (Nat × Admitted) → State × List (List Byte)
  | [] => (s, [])
  | (_, ad) :: r =>
    let s := (s.admitAccess s.meWho ad).loadEffect s.cur ad.spans
    let b := s.bytesAt ad.spans
    let (s, l) := s.readPieces r
    (s, b :: l)

/-- A tile load: every piece is checked, then `put` places the bytes. -/
def State.tileLoad (s : State) (xa : XReg) (xs : LReg) (n size : Nat) (put : State → List (List Byte) → State) : Out :=
  match s.checkElements .read size (fun _ => []) (s.pieces xa xs n size) with
  | .error f => .next (s.failed .read f)
  | .ok l =>
    let (s, bs) := s.readPieces l
    (put s bs).fin 4

/-- A tile store: every piece is checked, then the bytes at the keys given are written, later pieces over earlier ones. -/
def State.tileStore (s : State) (xa : XReg) (xs : LReg) (n size : Nat) (src : Nat → Nat) : Out :=
  match s.checkElements .write size (fun i => s.mem.getBytes (src i) size) (s.pieces xa xs n size) with
  | .error f => .next (s.failed .write f)
  | .ok l =>
    match (countFrom 0 n).findSome? fun i => badIn s.bad (src i) size with
    | some k => .next (s.failed .write (.poison k (BitVec.ofNat 64 (addrOfKey k))))
    | none =>
      let data := (countFrom 0 n).map fun i => s.mem.getBytes (src i) size
      (s.over (l.zip data) fun s p =>
        ((s.admitAccess s.meWho p.1.2).noteWhole (s.tenantOf s.cur) p.1.2.spans).writeSpans (fun s o v => s.hubStore true o v) s.cur true
          p.1.2.spans p.2).fin 4

/-- Bytes filled with zeros to a length. -/
def padTo (n : Nat) (l : List Byte) : List Byte := l.take n ++ List.replicate (n - l.length) 0

/-- Put rows into a tile: what the pieces do not cover is zero (Table 6-10). -/
def State.putTile (s : State) (c : Nat) (t : TReg) (rows : List (List Byte)) : State :=
  s.poke (tileKey c t 0 0) ((countFrom 0 16).flatMap fun i => padTo 256 (rows.getD i []))

/-- Put rows into a scale area. -/
def State.putScales (s : State) (c : Nat) (t : TReg) (rows : List (List Byte)) : State :=
  s.poke (scaleKey c t 0) ((countFrom 0 16).flatMap fun i => padTo 16 (rows.getD i []))

/-- Element `i` of every memory row: row `i` of the transposed tile. -/
def column (es i : Nat) (cols : List (List Byte)) : List Byte := cols.flatMap fun c => padTo es ((c.drop (es * i)).take es)

/-! ## Draws at enqueue (R168) -/

/-- The rounding mode of a destination, DYN taken from FRM now. -/
def State.tileMode (s : State) (d : BitVec 23) : Rm := resolveRm s.me.csr.frm (rmOfCode (dRnd d))

/-- Draws of a TACCOUT. -/
def State.taccoutDraws (s : State) (t : TReg) (n : AReg) : Nat :=
  let d := s.tdesc s.myCore t
  if rsrDraws (s.tileMode d) (accoutInt (((s.core s.myCore).mx.accd.get n).getLsbD 0) (dFmt d)) then 16 * dRows d else 0

/-- Draws of a TCVT. -/
def State.tcvtDraws (s : State) (t ta : TReg) : Nat :=
  let d := s.tdesc s.myCore t
  if rsrDraws (s.tileMode d) (tcvtInt (dFmt (s.tdesc s.myCore ta)) (dFmt d)) then dRows d * dCols d else 0

/-- The mirrored core is bound to the thread's gang (R188). -/
def State.mirrorBound (s : State) : Bool :=
  match s.gangOf s.cur with
  | some g => s.gangAt (partnerOf s.myCore) == some g
  | none => false

/-! ## The instructions -/

/-- TLOAD: loads tile rows from memory and zeroes the rest (R177). -/
def execTload (t : TReg) (xa : XReg) (xs : LReg) (s : State) : Out :=
  let d := s.tdesc s.myCore t
  s.withDesc (descOk d) (s.afterQueue (usesTile t) fun s => s.tileLoad xa xs (dRows d) (rowBytes d) fun s l => s.putTile s.myCore t l)

/-- TLOADT: loads a tile transposed (R177). -/
def execTloadt (t : TReg) (xa : XReg) (xs : LReg) (s : State) : Out :=
  let d := s.tdesc s.myCore t
  let es := tBits (dFmt d) / 8
  s.withDesc (descOk d && transposable (dFmt d)) (s.afterQueue (usesTile t) fun s =>
    s.tileLoad xa xs (dCols d) (dRows d * es) fun s l =>
      s.putTile s.myCore t ((countFrom 0 (dRows d)).map fun i => column es i l))

/-- TLOADS: loads a tile's scale area (R177). -/
def execTloads (t : TReg) (xa : XReg) (xs : LReg) (s : State) : Out :=
  let d := s.tdesc s.myCore t
  s.withDesc (descOk d && scaled (dFmt d)) (s.afterQueue (usesTile t) fun s =>
    s.tileLoad xa xs (dRows d) ((scaleBlocks d).1 * (scaleBlocks d).2) fun s l => s.putScales s.myCore t l)

/-- TSTORE: stores tile rows to memory (R177). -/
def execTstore (t : TReg) (xa : XReg) (xs : LReg) (s : State) : Out :=
  let d := s.tdesc s.myCore t
  s.withDesc (descOk d) (s.afterQueue (usesTile t) fun s =>
    s.tileStore xa xs (dRows d) (rowBytes d) fun i => tileKey s.myCore t i 0)

/-- TACCLD: loads an accumulator from memory (R177). -/
def execTaccld (acc : AReg) (xa : XReg) (xs : LReg) (s : State) : Out :=
  s.afterQueue (usesAcc acc) fun s =>
    s.tileLoad xa xs 16 64 fun s l => s.poke (accKey s.myCore acc 0 0) (l.flatMap (padTo 64))

/-- TACCST: stores an accumulator to memory (R177). -/
def execTaccst (acc : AReg) (xa : XReg) (xs : LReg) (s : State) : Out :=
  s.afterQueue (usesAcc acc) fun s => s.tileStore xa xs 16 64 fun i => accKey s.myCore acc i 0

/-- TMMA: enqueues a scaled matrix product into an accumulator (R180). -/
def execTmma (acc : AReg) (ta : TReg) (tb : TReg) (s : State) : Out :=
  s.withDesc (s.tmmaOk acc ta tb) (s.enqueueOp (.tmma acc ta tb) 0)

/-- TACCOUT: enqueues conversion of an accumulator block into a tile (R181). -/
def execTaccout (td : TReg) (acc : AReg) (ta : TReg) (tb : TReg) (cb : BitVec 5) (s : State) : Out :=
  s.withDesc (s.taccoutOk td acc cb.toNat) (s.enqueueOp (.taccout td acc ta tb cb.toNat) (s.taccoutDraws td acc))

/-- TACCADD: enqueues an element-wise accumulator add (R184). -/
def execTaccadd (accd : AReg) (accs : AReg) (s : State) : Out :=
  let m := (s.core s.myCore).mx
  s.withDesc ((m.accd.get accd).getLsbD 0 == (m.accd.get accs).getLsbD 0) (s.enqueueOp (.taccadd accd accs) 0)

/-- TZERO: enqueues zeroing of a tile and its scale area (R185). -/
def execTzero (td : TReg) (s : State) : Out := s.enqueueOp (.tzero td) 0

/-- TACCZ: enqueues zeroing of an accumulator (R185). -/
def execTaccz (acc : AReg) (s : State) : Out := s.enqueueOp (.taccz acc) 0

/-- TXCH: enqueues a half-tile swap with the mirrored core (R188). -/
def execTxch (tp : TReg) (ta : TReg) (h : Bool) (s : State) : Out :=
  if s.mirrorBound then s.enqueueOp (.txch tp ta h) 0
  else s.trapOut Cause.access (BitVec.ofNat 64 (winBase + partnerOf s.myCore * 2 ^ 24 + 0x100000 + 4096 * tp.val + 2048 * b2n h))

/-- TCVT: enqueues conversion of a tile into another tile format (R186). -/
def execTcvt (td : TReg) (ta : TReg) (s : State) : Out :=
  s.withDesc (s.tcvtOk td ta) (s.enqueueOp (.tcvt td ta) (s.tcvtDraws td ta))

end Sys2Proof.Machine
end

