-- ==== Sys2Proof/Machine/Engines.lean ====
section
/-!
DEFINITION. The copy engine, messages and collectives (spec/11, R275 to R290; spec/10, R262; spec/20, R448 to R450): submission by
a thread, granules as the engine performs them, completion words, handbacks.
-/
namespace Sys2Proof.Machine

/-! ## Submission of copies (R276, R278) -/

/-- The lowest free command slot of a core: R278 says only that a free one takes the command (DESIGN CHOICE, log entry 130). -/
def State.freeCopySlot (s : State) (c : Nat) : Option Nat := (countFrom 0 8).find? fun i => ((s.core c).copies.find i).isNone

/-- An engine as it accesses memory for a command. -/
def CopyCmd.who (c : CopyCmd) (core slot : Nat) : Who := ⟨c.tid, c.user, c.space, some (core, slot)⟩

/-- Put a command into a slot. -/
def State.setCopy (s : State) (core slot : Nat) (c : CopyCmd) : State :=
  s.modCore core fun k => { k with copies := k.copies.set slot c }

/-- A slot is free again. -/
def State.dropCopy (s : State) (core slot : Nat) : State := s.modCore core fun k => { k with copies := k.copies.drop slot }

/-! ## Failures of an engine access (R280, R430) -/

/-- What an engine access that failed asks for: nothing yet, the end of the task, or a handback (code, cause, EVAL). -/
inductive EngineFail where
  | later (s : State)
  | lease (s : State) (addr : Word)
  | back (s : State) (code cause : Nat) (eval : Word)
  deriving DecidableEq, Repr

/-- The page wait of an engine command at an entry and page. -/
def State.engineWait (s : State) (who : Who) (entry : Nat) (page : Word) : Option PageWait :=
  s.pageWaits.find? fun w => w.engine == who.engine && w.tid == who.tid && w.entry == entry && w.page == page

/-- Page waits of an engine command are forgotten. -/
def State.dropEngineWaits (s : State) (core slot : Nat) : State :=
  { s with pageWaits := s.pageWaits.filter fun w => w.engine != some (core, slot) }

/-- What a failed engine access leads to: a serviced fault waits, a page cause is one that was not serviced. -/
def State.engineFailed (s : State) (who : Who) (acc : Acc) (f : AFault) : EngineFail :=
  match f with
  | .trap c e => .back s Cause.engineFault c e
  | .poison k e => .back (s.logConsumed who.tid k Cause.dataError) Cause.engineError Cause.dataError e
  | .lease a => .lease s a
  | .wake q => .later (s.accessWake q)
  | .page fw entry page addr va stage =>
    match s.engineWait who entry page with
    | some w => if w.failed then .back s Cause.engineFault acc.pageCause va else .later s
    | none =>
      match s.addPageWait who.tid who.engine who.space fw entry page addr va acc stage with
      | (s, true) => .later s
      | (s, false) => .back s Cause.engineFault acc.pageCause va

/-- Read for an engine. -/
def State.engineRead (s : State) (who : Who) (va : Word) (n : Nat) : Except AFault (State × List Byte) :=
  match s.check who (Ask.plain .read) va n with
  | .error f => .error f
  | .ok ad =>
    match s.badSpan false ad.spans with
    | some (k, e) => .error (.poison k e)
    | none =>
      let s := (s.admitAccess who ad).loadEffect who.tid ad.spans
      .ok (s, s.bytesAt ad.spans)

/-- Check a write of an engine. -/
def State.engineCheck (s : State) (who : Who) (va : Word) (n : Nat) : Except AFault Admitted :=
  match s.check who (Ask.plain .write) va n with
  | .error f => .error f
  | .ok ad =>
    match s.badSpan true ad.spans with
    | some (k, e) => .error (.poison k e)
    | none => .ok ad

/-- Write for an engine. -/
def State.engineWrite (s : State) (who : Who) (va : Word) (bs : List Byte) : Except AFault State :=
  match s.engineCheck who va bs.length with
  | .error f => .error f
  | .ok ad =>
    .ok (((s.admitAccess who ad).noteWhole (s.tenantOf who.tid) ad.spans).writeSpans (fun s _ _ => s) who.tid false ad.spans bs)

/-- Where a command failed (EHB0.WHERE). -/
inductive CopyStop where
  | fail (whr : Nat) (acc : Acc) (f : AFault)
  | waits
  deriving DecidableEq, Repr

/-! ## One granule (R277, R279) -/

/-- The source address of a payload offset; CPYQ reads its index from the list. -/
def State.copySrc (s : State) (who : Who) (c : CopyCmd) (o : Nat) : Except CopyStop (State × Word) :=
  let p := c.place o
  match c.shape with
  | none => .ok (s, c.src + BitVec.ofNat 64 o)
  | some b =>
    if c.fn = 4 then
      match s.engineRead who (b.idx + BitVec.ofNat 64 (4 * p.2.1)) 4 with
      | .error f => .error (.fail 3 .read f)
      | .ok (s, i) => .ok (s, c.src + BitVec.ofNat 64 (ofBytes i) * b.sstr1 + BitVec.ofNat 64 p.2.2)
    else
      .ok (s, c.src + BitVec.ofNat 64 p.1 * (if c.fn = 2 then b.sstr2 else 0) + BitVec.ofNat 64 p.2.1 * b.sstr1
        + BitVec.ofNat 64 p.2.2)

/-- The bytes of a granule. -/
def State.copyData (s : State) (who : Who) (c : CopyCmd) (o n : Nat) : Except CopyStop (State × List Byte) :=
  if c.fn = 5 then .ok (s, (countFrom o n).map fun b => byteAt c.src.toNat (b % 8))
  else
    match s.copySrc who c o with
    | .error f => .error f
    | .ok (s, a) =>
      match s.engineRead who a n with
      | .error f => .error (.fail 0 .read f)
      | .ok r => .ok r

/-- A granule of CPYV creates its version (R262). -/
def State.copyVersion (s : State) (who : Who) (c : CopyCmd) (d : Word) (bs : List Byte) : Except CopyStop State :=
  match s.versionAt who .write d with
  | .error f => .error (.fail 1 .write f)
  | .ok (s, p) =>
    if bs.length < 64 then .error (.fail 1 .write (.trap Cause.misalign d))
    else
      match s.verCreate p c.version bs with
      | .cause k => .error (.fail 1 .write (.trap k d))
      | .wait => .error .waits
      | .done s' => .ok ((s'.setTag who p).settleGran p (s.frees p))

/-- What refuses the destination of a CPYV granule before anything is read: the address range, then the alignment of its 64 bytes (Table 8-5,
R262). -/
def verPlaceFault (d : Word) (n : Nat) : Option AFault :=
  match rangeFault d.toNat n with
  | some f => some f
  | none => if d.toNat % 64 ≠ 0 ∨ n < 64 then some (.trap Cause.misalign d) else none

/-- Perform the granule at a payload offset: its write follows the read of its source bytes. -/
def State.copyGranule (s : State) (who : Who) (c : CopyCmd) (o : Nat) : Except CopyStop State :=
  let n := c.granLen o
  let d := c.dstAt o
  match (if c.fn = 3 then verPlaceFault d n else none) with
  | some f => .error (.fail 1 .write f)
  | none =>
    match s.copyData who c o n with
    | .error f => .error f
    | .ok (s, bs) =>
      if c.fn = 3 then s.copyVersion who c d bs
      else
        match s.engineWrite who d bs with
        | .error f => .error (.fail 1 .write f)
        | .ok s => .ok s

/-! ## Completion and handback (R227, R280) -/

/-- Hand a copy command back with a resume offset: its slot is free. -/
def State.copyBack (s : State) (core slot : Nat) (c : CopyCmd) (code cause whr resume : Nat) (eval : Word) : State :=
  ((s.dropCopy core slot).dropEngineWaits core slot).handBack c.tid code eval (c.ehb cause whr (BitVec.ofNat 64 resume))

/-- A failure of a command at a resume offset; nothing happens yet unless every granule below has been performed. -/
def State.copyFailed (s : State) (core slot : Nat) (c : CopyCmd) (o whr : Nat) (acc : Acc) (f : AFault) : State :=
  match s.engineFailed (c.who core slot) acc f with
  | .later s => s
  | .lease s' a =>
    match s'.gangOf c.tid with
    | some g => s'.endTask g Status.lease 0 a
    | none => s'.copyBack core slot c Cause.engineFault Cause.lease whr o a
  | .back s' code cause eval => if o = c.low then s'.copyBack core slot c code cause whr o eval else s

/-- Every granule is performed: the completion word is written, and the slot is free. -/
def State.copyFinish (s : State) (core slot : Nat) (c : CopyCmd) : State :=
  if c.hasWord then
    match s.engineWrite (c.who core slot) c.caddr (bytesOf 8 c.cval.toNat) with
    | .error f => s.copyFailed core slot { c with low := c.total } c.total 2 .write f
    | .ok s => (s.dropCopy core slot).dropEngineWaits core slot
  else (s.dropCopy core slot).dropEngineWaits core slot

/-- After a granule: the command goes on, or is complete. -/
def State.copyAdvance (s : State) (core slot : Nat) (c : CopyCmd) : State :=
  if c.total ≤ c.low then (s.setCopy core slot c).copyFinish core slot c else s.setCopy core slot c

/-- A payload offset at which a granule not yet performed begins, within 256 granules of the lowest (R474). -/
def CopyCmd.canDo (c : CopyCmd) (o : Nat) : Bool := (c.granules 257 c.low).contains o && !c.done.contains o

/-- Some other command of the cluster has waited for more turns of their engine than this one (R278). -/
def State.copyLater (s : State) (core slot : Nat) (c : CopyCmd) : Bool :=
  s.cores.any fun k => clusterOf k.1 == clusterOf core &&
    k.2.copies.any fun p => (k.1 != core || p.1 != slot) && decide (c.passed < p.2.passed)

/-- The engine of a core's cluster has given a turn to a command: round-robin, so that every other one moves up (R278). -/
def State.copyServed (s : State) (core slot : Nat) : State :=
  { s with cores := s.cores.mapVals fun k v =>
      if clusterOf k = clusterOf core then
        { v with copies := v.copies.mapVals fun i c => { c with passed := if k = core ∧ i = slot then 0 else c.passed + 1 } }
      else v }

/-- The engine's turn on a command: the granule at a payload offset, or the completion word once all are performed. -/
def State.copyServe (s : State) (core slot o : Nat) (c : CopyCmd) : State :=
  if c.total ≤ c.low then (s.copyServed core slot).copyFinish core slot c
  else
    match s.copyGranule (c.who core slot) c o with
    | .ok s => (s.copyServed core slot).copyAdvance core slot (c.perform o)
    | .error .waits => (s.copyServed core slot).setCopy core slot { c with vwait := c.vwait.set o (c.vwait.get s.time o) }
    | .error (.fail whr acc f) => (s.copyServed core slot).copyFailed core slot c o whr acc f

/-- A turn of the engine, if it is this command's: commands of a cluster are served in round-robin order (R278; log entry 108). -/
def State.copyTurn (s : State) (core slot o : Nat) : State :=
  match (s.core core).copies.find slot with
  | none => s
  | some c =>
    if s.copyLater core slot c || !(decide (c.total ≤ c.low) || c.canDo o) then s
    else s.copyServe core slot o { c with passed := 0 }

/-- A CPYV granule has waited for a free version beyond the submitting thread's VWAITLIM: VER_FULL (R262). -/
def State.copyVerExpired (s : State) (core slot o : Nat) : State :=
  match (s.core core).copies.find slot with
  | none => s
  | some c =>
    match c.vwait.find o with
    | none => s
    | some t =>
      if o = c.low ∧ (s.thr c.tid).csr.vwaitlim.toNat ≤ s.time - t then
        match s.copyGranule (c.who core slot) c o with
        | .error .waits => s.copyBack core slot c Cause.engineFault Cause.verFull 1 o (c.dstAt o)
        | _ => s.copyTurn core slot o
      else s

/-! ## Submission -/

/-- Steps 3 to 5 of R278: completion address, value, a free slot; then the instruction retires. -/
def State.submitCopy (s : State) (c : CopyCmd) (n : Nat) (s0 : State) : Out :=
  if c.hasWord && c.caddr.toNat % 8 != 0 then s.trapOut Cause.misalign c.caddr
  else
    match s.freeCopySlot s.myCore with
    | none => .next s0
    | some i =>
      let s := (s.setCopy s.myCore i { c with low := c.start }).retire n
      .next (if c.total ≤ c.start then s.copyFinish (coreOf c.tid) i { c with low := c.start } else s)

/-- A copy instruction (R275 to R278): `ver` its version, `v` its completion value. -/
def State.copyOp (s : State) (fn : Nat) (xd xs xn : XReg) (ver : Nat) (xc : XReg) (v : Word) (n : Nat) : Out :=
  let c : CopyCmd := ⟨s.cur, fn, !s.me.status.priv, s.me.space, s.getX xd, s.getX xs, s.getX xn, none, decide (xc ≠ 0), s.getX xc, v,
    ver, 0, [], [], 0⟩
  if shapedFn fn then
    if (s.getX xn).toNat % 64 ≠ 0 then s.trapOut Cause.misalign (s.getX xn)
    else
      match s.load (Ask.plain .read) (s.getX xn) 64 with
      | .error f => .next (s.failed .read f)
      | .ok (s', bs) => s'.submitCopy { c with shape := some (shapeOf bs) } n s
  else s.submitCopy c n s

/-! ## Messages (R283 to R286) -/

/-- Entries in a core's inbox. -/
def Core.inboxCount (k : Core) : Nat := (k.inboxTail - k.inboxHead).toNat

/-- The key of an inbox entry: 64 x BASE + 64 x (k mod SIZE) of the core's LM. -/
def inboxKey (c : Nat) (k : Core) (n : Nat) : Nat := winKey c ((64 * k.inboxBase + 64 * (n % k.inboxSize)) % 2 ^ 18)

/-- Append to the inbox of a core in this box. -/
def State.append (s : State) (d : XReg) (v : VReg) (c : Nat) : Out :=
  let k := s.core c
  let data := vecBytes (s.getV v)
  let s := s.touchCore c
  if k.inboxSize ≤ k.inboxCount then s.putX d (BitVec.allOnes 64) 4
  else
    let key := inboxKey c k k.inboxTail.toNat
    let s := (((s.raiseBound c (key % 2 ^ 18)).noteKey (s.tenantOf s.cur) key 64).poke key data).modCore c fun k => { k with inboxTail := k.inboxTail + 1 }
    s.putX d (BitVec.ofNat 64 (k.inboxSize - k.inboxCount - 1)) 4

/-- CRC-64 with the ECMA-182 polynomial, most significant bit first, initial value 0 (R449; log entry 35). -/
def crcByte (crc : Word) (b : Byte) : Word :=
  (countFrom 0 8).foldl (fun c _ => if c.getLsbD 63 then (c <<< 1) ^^^ 0x42F0E1EBA9EA3693#64 else c <<< 1)
    (crc ^^^ (b.setWidth 64 <<< 56))

/-- CRC of bytes. -/
def crc64 (bs : List Byte) : Word := bs.foldl crcByte 0

/-- The 8-byte header of a flit (Table 19-15). -/
def flitHead (typ seq ack vc tenant count : Nat) : Nat :=
  typ + seq * 2 ^ 4 + ack * 2 ^ 16 + vc * 2 ^ 28 + tenant * 2 ^ 32 + count * 2 ^ 40

/-- Ports of the bridge that are up. -/
def State.upPort (s : State) : Option Nat := (countFrom 0 2).find? fun p => (s.ports.get Port.init p).up

/-- Flits that wait are sent while the replay buffer has room for them: 512 (R449). -/
def State.fillPort (s : State) (p : Nat) : State :=
  let v := s.ports.get Port.init p
  let n := 512 - v.replay.length
  { s with ports := s.ports.set p { v with replay := v.replay ++ v.waiting.take n, waiting := v.waiting.drop n },
           sent := s.sent ++ v.waiting.take n }

/-- Send a flit of 256 bytes on a port, kept for replay until it is acknowledged (R449). -/
def State.sendFlit (s : State) (p typ vc tenant count : Nat) (content : List Byte) : State :=
  let port := s.ports.get Port.init p
  let body := bytesOf 8 (flitHead typ port.txSeq port.rxSeq vc tenant count) ++ (countFrom 0 240).map (Config.bridgePayload content)
  let flit := body ++ bytesOf 8 (crc64 body).toNat
  { s with ports := s.ports.set p { port with txSeq := (port.txSeq + 1) % 4096, waiting := port.waiting ++ [flit] } }.fillPort p

/-- What keeps a thread's payload from the partner box, as this box knows it: ACCESS for a tenant whose entry lacks VALID or BRIDGE, WINDOW_KEY for
a thread whose gang its launch record pairs with none (R450). -/
def State.bridgeRefused (s : State) (tid : Nat) : Option Nat :=
  if !s.tenantBridges (s.tenantOf tid) then some Cause.access
  else
    match s.taskOf tid with
    | some t => if t.launch.bridge then none else some Cause.windowKey
    | none => some Cause.windowKey

/-- MSEND to the partner box: its answer comes from there, so which of the outcomes of R450 it is, and the free count, are free
values (log entry 36). EVAL of WINDOW_KEY is X(xt), as R285 gives for ACCESS: the spec names no EVAL for it across the bridge (log entry 119). -/
def State.sendAcross (s : State) (d : XReg) (v : VReg) (t : Word) : Out :=
  match (if s.bridgeUp && isCore (t.toNat % 4096) then s.upPort else none), s.bridgeRefused s.cur with
  | none, _ => s.trapOut Cause.access t
  | some _, some c => s.trapOut c t
  | some p, none =>
    let (a, s) := s.drawFree
    let (b, s) := s.drawFree
    if a.toNat % 4 = 0 then s.trapOut Cause.access t
    else if a.toNat % 4 = 1 then s.trapOut Cause.windowKey t
    else (s.sendFlit p 1 2 (s.tenantOf s.cur) 4 (bytesOf 2 (t.toNat % 4096) ++ vecBytes (s.getV v))).putX d b 4

/-- The target of an MSEND in this box is refused (R285). -/
def State.inboxRefused (s : State) (c : Nat) : Bool := !isCore c || (s.core c).inboxSize == 0 || s.coreOff c

/-- MSEND (R284, R285). -/
def State.msend (s : State) (d : XReg) (v : VReg) (xt : XReg) : Out :=
  let t := s.getX xt
  let c := t.toNat % 4096
  if 2 ^ 13 ≤ t.toNat then s.trapOut Cause.access t
  else if bit t.toNat 12 then s.sendAcross d v t
  else if s.inboxRefused c then s.trapOut Cause.access t
  else if s.keyRefused s.meWho (Ask.plain .write) c then
    s.trapOut Cause.windowKey (BitVec.ofNat 64 (winBase + c * 2 ^ 24 + 0x150000))
  else s.append d v c

/-- MRECV (R284): the entry at HEAD, or all ones. -/
def State.mrecv (s : State) (d : XReg) (v : VReg) : Out :=
  let c := s.myCore
  let k := s.core c
  if k.inboxSize = 0 ∨ k.inboxCount = 0 then s.putX d (BitVec.allOnes 64) 4
  else
    let key := inboxKey c k k.inboxHead.toNat
    match badIn s.bad key 64 with
    | some w => .next (s.failed .read (.poison w (BitVec.ofNat 64 (addrOfKey w))))
    | none =>
      let data := vecOfBytes (s.mem.getBytes key 64)
      let s := s.modCore c fun k => { k with inboxHead := k.inboxHead + 1 }
      (s.setV v data).putX d (BitVec.ofNat 64 (k.inboxCount - 1)) 4

/-! ## Collectives (R287 to R290) -/

/-- Bytes of an element. -/
def collBytes (f : CollFmt) : Nat :=
  match f with
  | .int64 => 8
  | .uint64 => 8
  | .fp64 => 8
  | .bf16 => 2
  | .fp16 => 2
  | _ => 4

/-- Element format of a float code. -/
def collFmt (f : CollFmt) : Fmt :=
  match f with
  | .fp64 => .f64
  | .bf16 => .bf16
  | .fp16 => .f16
  | _ => .f32

/-- The format each node rounds to (R290). -/
def nodeFmt (f : CollFmt) : Fmt := if f = .fp64 then .f64 else .f32

/-- A node of a float reduction. -/
def collNode (op : CollOp) (f : CollFmt) (a b : FV) (st : Fst) : FV × Fst :=
  match op with
  | .max => (fPick true a b, st)
  | .min => (fPick false a b, st)
  | _ =>
    let x := fAdd .rne a b
    let r := rnd (nodeFmt f) .rne false x.1 st
    ((nodeFmt f).decode r.1, r.2)

/-- A node of an integer reduction on codes of `w` bits. -/
def collInt (op : CollOp) (sgn : Bool) (w a b : Nat) : Nat :=
  match op with
  | .sum => (a + b) % 2 ^ w
  | .max => if sgn then Lanes.max w a b else max a b
  | .min => if sgn then Lanes.min w a b else min a b
  | .and => a &&& b
  | .or => a ||| b
  | .xor => a ^^^ b

/-- The reduction of one element over the leaves, in rank order (R290). -/
def collElem (op : CollOp) (f : CollFmt) (l : List Nat) : Nat :=
  if f.isFloat then
    match (tree (collNode op f) 13 (l.map fun c => some ((collFmt f).decode c)) ⟨0, 0⟩).1 with
    | some x => (collFmt f).exact x
    | none => 0
  else
    match l with
    | [] => 0
    | a :: r => r.foldl (collInt op (decide (f = .int32) || decide (f = .int64)) (8 * collBytes f)) a

/-- Element `j` of a leaf's source. -/
def leafElem (f : CollFmt) (bs : List Byte) (j : Nat) : Nat := ofBytes ((bs.drop (j * collBytes f)).take (collBytes f))

/-- The result of a reduction. -/
def reduceLeaves (op : CollOp) (f : CollFmt) (count : Nat) (leaves : List (List Byte)) : List Byte :=
  (countFrom 0 count).flatMap fun j => bytesOf (collBytes f) (collElem op f (leaves.map fun b => leafElem f b j))

/-- E[31:0] of a collective (Table 2-6). -/
def collExt (op : CollOp) (f : CollFmt) (br : Bool) (xc xr : XReg) : BitVec 32 :=
  BitVec.ofNat 32 (op.code + f.code * 2 ^ 3 + b2n br * 2 ^ 7 + xc.val * 2 ^ 8 + xr.val * 2 ^ 13)

/-- What refuses a collective over the bridge of a thread's gang: R450 names the cause of a gang without a partner, and no EVAL: a free value (log
entry 119). -/
def State.collRefused (s : State) (br : Bool) : Option Nat := if br then s.bridgeRefused s.cur else none

/-- A collective instruction (R287, R288). -/
def State.collective (s : State) (fn : Nat) (op : CollOp) (fmt : CollFmt) (br : Bool) (xd xs xn xc xr : XReg) : Out :=
  let b := s.bind s.cur
  if (s.gangOf s.cur).isSome && b.tidx != 0 then s.trapOut Cause.access (BitVec.ofNat 64 b.tidx)
  else if xc ≠ 0 ∧ (s.getX xc).toNat % 8 ≠ 0 then s.trapOut Cause.misalign (s.getX xc)
  else if (s.collRefused br).isSome then s.drawFree.2.trapOut ((s.collRefused br).getD 0) s.drawFree.1
  else
    let leaves := (if br then 2 else 1) * max 1 b.gsize
    let k := s.core s.myCore
    let c : CollCmd := ⟨s.cur, fn, op, fmt, br, s.getX xn, if xr = 0 then none else some ((s.getX xr).toNat % leaves),
      !s.me.status.priv, s.me.space, s.getX xd, s.getX xs, decide (xc ≠ 0), s.getX xc, k.collCount + 1, collExt op fmt br xc xr⟩
    ((s.modCore s.myCore fun k => { k with colls := k.colls ++ [c], collCount := k.collCount + 1 })).fin 12

/-- A participant: its core, its rank, its command. -/
abbrev Part := Nat × Nat × CollCmd

/-- How an engine accesses memory for a collective. -/
def Part.who (p : Part) : Who := ⟨p.2.2.tid, p.2.2.user, p.2.2.space, some (p.1, 8)⟩

/-- Bytes a participant reads. -/
def Part.bytes (p : Part) : Nat := p.2.2.count * collBytes p.2.2.fmt

/-- The leaf that is the root. -/
def CollCmd.rootLeaf (c : CollCmd) : Nat := c.root.getD 0

/-- A participant's command as the partner box would see it. -/
def CollCmd.shown (c : CollCmd) : PeerColl := ⟨c.fn, c.op, c.fmt, c.br, c.count, c.root⟩

/-- A participant of the partner box agrees: the root is rank 0 where xr is x0 (R288). -/
def CollCmd.agreesWith (a : CollCmd) (b : PeerColl) : Bool :=
  a.fn == b.fn && a.op == b.op && a.fmt == b.fmt && a.br == b.br && a.count == b.count &&
    a.rootLeaf == b.root.getD 0

/-- Two participants' commands agree (R288). -/
def CollCmd.agrees (a b : CollCmd) : Bool := a.agreesWith b.shown

/-- A participant's command leaves its core. -/
def State.dropColl (s : State) (p : Part) : State :=
  (s.modCore p.1 fun k => { k with colls := k.colls.filter fun c => c.ord != p.2.2.ord }).dropEngineWaits p.1 8

/-- Hand back every participant's command: `at_` failed with `code`, `cause`, `whr`, `eval`; the others see CAUSE 0x20, WHERE 3. -/
def State.collBack (s : State) (ps : List Part) (at_ : Option Part) (code cause whr : Nat) (eval : Word) : State :=
  s.over ps fun s p =>
    let s := s.dropColl p
    if at_.isNone ∨ at_ = some p then s.handBack p.2.2.tid code eval (p.2.2.ehb cause whr)
    else
      let (e, s) := s.drawFree
      s.handBack p.2.2.tid Cause.engineError e (p.2.2.ehb 0x20 3)

/-- A participant's access failed. -/
def State.collFailed (s : State) (ps : List Part) (p : Part) (whr : Nat) (acc : Acc) (f : AFault) : State :=
  match s.engineFailed p.who acc f with
  | .later s => s
  | .lease s a =>
    match s.gangOf p.2.2.tid with
    | some g => s.endTask g Status.lease 0 a
    | none => s
  | .back s code cause eval => s.collBack ps (some p) code cause whr eval

/-- Read the sources of all participants, in rank order, each source as one access: the spec does not say in what units a collective reads and
writes its buffers, so a buffer over pages that differ in CA, VER or HOME is handed back with MISALIGN_ATTR (R211; log entry 120). -/
def State.collRead (s : State) : List Part → Except (Part × AFault) (State × List (List Byte))
  | [] => .ok (s, [])
  | p :: r =>
    match s.engineRead p.who p.2.2.src p.bytes with
    | .error f => .error (p, f)
    | .ok (s, b) =>
      match s.collRead r with
      | .error e => .error e
      | .ok (s, l) => .ok (s, b :: l)

/-- The leaf number of a rank: box number x P + rank over the bridge. -/
def State.leafOf (s : State) (br : Bool) (width rank : Nat) : Nat := if br then s.bridgeBox * width + rank else rank

/-- What a participant receives: the bytes for its destination, none if it receives nothing (Table 11-10). -/
def collResult (c : CollCmd) (leaf : Nat) (leaves : List (List Byte)) : Option (List Byte) :=
  if c.fn = 2 then some (leaves.getD c.rootLeaf [])
  else if c.root.isNone ∨ c.root = some leaf then
    some (if c.fn = 0 then reduceLeaves c.op c.fmt c.count leaves else leaves.flatten)
  else none

/-- What a participant writes: destination, then completion word. -/
def Part.writes (p : Part) (res : Option (List Byte)) : List (Nat × Word × List Byte) :=
  (match res with | some b => [(1, p.2.2.dst, b)] | none => []) ++
    (if p.2.2.hasWord then [(2, p.2.2.caddr, bytesOf 8 p.2.2.ord)] else [])

/-- The first write that fails, its WHERE and failure. -/
def State.collBad (s : State) (all : List (Part × Nat × Word × List Byte)) : Option (Part × Nat × AFault) :=
  all.findSome? fun q =>
    match s.engineCheck q.1.who q.2.2.1 q.2.2.2.length with
    | .error f => some (q.1, q.2.1, f)
    | .ok _ => none

/-- Perform writes whose checks have passed. -/
def State.collWrite (s : State) (all : List (Part × Nat × Word × List Byte)) : State :=
  s.over all fun s q => match s.engineWrite q.1.who q.2.2.1 q.2.2.2 with | .ok s => s | .error _ => s

/-- Every participant has joined, the parameters agree: read all sources, check and write all results, payload before completion
words. -/
def State.collRun (s : State) (ps : List Part) (peer : List (List Byte)) (width : Nat) (c0 : CollCmd) : State :=
  match s.collRead ps with
  | .error (p, f) => s.collFailed ps p 0 .read f
  | .ok (s', own) =>
    let leaves := if !c0.br then own else if s.bridgeBox = 0 then own ++ peer else peer ++ own
    let all := ps.flatMap fun p =>
      (p.writes (collResult p.2.2 (s.leafOf c0.br width p.2.1) leaves)).map fun w => (p, w)
    match s'.collBad all with
    | some (p, whr, f) => s'.collFailed ps p whr .write f
    | none =>
      let s := (s'.collWrite (all.filter fun q => q.2.1 == 1)).collWrite (all.filter fun q => q.2.1 == 2)
      s.over ps fun s p => s.dropColl p

/-- The head of each core's list that is the gang's lowest ordinal not yet over, by rank (R288). -/
def State.collHeads (s : State) (t : Task) : List Part :=
  let heads : List Part := (t.cores.zip (countFrom 0 t.cores.length)).filterMap fun p => ((s.core p.1).colls.head?).map fun c => (p.1, p.2, c)
  heads.filter fun p => heads.all fun q => decide (p.2.2.ord ≤ q.2.2.ord)

/-- COLLECTIVE_EXECUTE: the collective of a gang, once every rank has joined it. `peer` holds the commands and sources of the partner
gang's leaves by rank, as they arrived over the bridge; none arrived means that the peer failed. WHERE of a mismatch is 3, like that
of a failure at a peer (log entry 49). -/
def State.collTurn (s : State) (gid : Nat) (peer : List (PeerColl × List Byte)) : State :=
  match s.tasks.find gid with
  | none => s
  | some t =>
    if t.state ≠ .bound then s
    else
      let ps := s.collHeads t
      match ps with
      | [] => s
      | p0 :: _ =>
        let c0 := p0.2.2
        if ps.length < t.cores.length then s
        else if c0.br && (!s.bridgeUp || peer.isEmpty) then
          let (e, s) := s.drawFree
          s.collBack ps none Cause.engineError 0x20 3 e
        else if !(ps.all fun p => p.2.2.agrees c0) || !(peer.all fun p => c0.agreesWith p.1) ||
            (c0.br && peer.length != t.cores.length) then
          let (e, s) := s.drawFree
          s.collBack ps none Cause.engineError 0x01 3 e
        else s.collRun ps (peer.map Prod.snd) t.cores.length c0

/-! ## The instructions -/

/-- CPY1: submits a linear copy to the cluster's copy engine (R275). -/
def execCpy1 (xd : XReg) (xs : XReg) (xn : XReg) (xc : XReg) (xv : XReg) (s : State) : Out :=
  s.copyOp 0 xd xs xn 0 xc (s.getX xv) 12

/-- CPY2: submits a 2-D shaped copy (R275). -/
def execCpy2 (xd : XReg) (xs : XReg) (xn : XReg) (xc : XReg) (xv : XReg) (s : State) : Out :=
  s.copyOp 1 xd xs xn 0 xc (s.getX xv) 12

/-- CPY3: submits a 3-D shaped copy (R275). -/
def execCpy3 (xd : XReg) (xs : XReg) (xn : XReg) (xc : XReg) (xv : XReg) (s : State) : Out :=
  s.copyOp 2 xd xs xn 0 xc (s.getX xv) 12

/-- CPYV: submits a copy whose granules become new versions (R275). -/
def execCpyv (xd : XReg) (xs : XReg) (xn : XReg) (xver : XReg) (xc : XReg) (xv : XReg) (s : State) : Out :=
  s.copyOp 3 xd xs xn (s.ver xver) xc (s.getX xv) 12

/-- CPYQ: submits an index-list gather copy (R275). -/
def execCpyq (xd : XReg) (xs : XReg) (xn : XReg) (xc : XReg) (xv : XReg) (s : State) : Out :=
  s.copyOp 4 xd xs xn 0 xc (s.getX xv) 12

/-- CPYX: submits a pattern fill (R275). -/
def execCpyx (xd : XReg) (xs : XReg) (xn : XReg) (xc : XReg) (xv : XReg) (s : State) : Out :=
  s.copyOp 5 xd xs xn 0 xc (s.getX xv) 12

/-- CPY1_LIT: CPY1 with a literal completion value (R275). -/
def execCpy1Lit (xd : XReg) (xs : XReg) (xn : XReg) (xc : XReg) (lit : Word) (s : State) : Out :=
  s.copyOp 0 xd xs xn 0 xc lit 20

/-- CPY2_LIT: CPY2 with a literal completion value (R275). -/
def execCpy2Lit (xd : XReg) (xs : XReg) (xn : XReg) (xc : XReg) (lit : Word) (s : State) : Out :=
  s.copyOp 1 xd xs xn 0 xc lit 20

/-- CPY3_LIT: CPY3 with a literal completion value (R275). -/
def execCpy3Lit (xd : XReg) (xs : XReg) (xn : XReg) (xc : XReg) (lit : Word) (s : State) : Out :=
  s.copyOp 2 xd xs xn 0 xc lit 20

/-- CPYV_LIT: CPYV with a literal completion value (R275). -/
def execCpyvLit (xd : XReg) (xs : XReg) (xn : XReg) (xver : XReg) (xc : XReg) (lit : Word) (s : State) : Out :=
  s.copyOp 3 xd xs xn (s.ver xver) xc lit 20

/-- CPYQ_LIT: CPYQ with a literal completion value (R275). -/
def execCpyqLit (xd : XReg) (xs : XReg) (xn : XReg) (xc : XReg) (lit : Word) (s : State) : Out :=
  s.copyOp 4 xd xs xn 0 xc lit 20

/-- CPYX_LIT: CPYX with a literal completion value (R275). -/
def execCpyxLit (xd : XReg) (xs : XReg) (xn : XReg) (xc : XReg) (lit : Word) (s : State) : Out :=
  s.copyOp 5 xd xs xn 0 xc lit 20

/-- COLLRED: joins the gang's n-th collective as a reduction (R287). -/
def execCollred (op : CollOp) (fmt : CollFmt) (br : Bool) (xd : XReg) (xs : XReg) (xn : XReg) (xc : XReg) (xr : XReg) (s : State) : Out :=
  s.collective 0 op fmt br xd xs xn xc xr

/-- COLLGATH: joins the gang's n-th collective as a gather (R287). -/
def execCollgath (fmt : CollFmt) (br : Bool) (xd : XReg) (xs : XReg) (xn : XReg) (xc : XReg) (xr : XReg) (s : State) : Out :=
  s.collective 1 .sum fmt br xd xs xn xc xr

/-- COLLBCAST: joins the gang's n-th collective as a broadcast (R287). -/
def execCollbcast (fmt : CollFmt) (br : Bool) (xd : XReg) (xs : XReg) (xn : XReg) (xc : XReg) (xr : XReg) (s : State) : Out :=
  s.collective 2 .sum fmt br xd xs xn xc xr

/-- MSEND: appends a 64-byte message to a target inbox and returns the free count (R285). -/
def execMsend (d : XReg) (v : VReg) (xt : XReg) (s : State) : Out := s.msend d v xt

/-- MRECV: takes the head entry of the own inbox (R284). -/
def execMrecv (d : XReg) (v : VReg) (s : State) : Out := s.mrecv d v

/-- MPOLL: returns the number of entries in the own inbox (R284). -/
def execMpoll (d : XReg) (s : State) : Out := s.putX d (BitVec.ofNat 64 (s.core s.myCore).inboxCount) 4

end Sys2Proof.Machine
end

