-- ==== Sys2Proof/Machine/Sync.lean ====
section
/-!
DEFINITION. Synchronisation (spec/13, R309 to R320; spec/14, R328 to R347), STRIKE (R348 to R351) and MIGR (R352 to R354; spec/16,
R388): barriers, Clave, WAITA, the stack link, the Striker and the commitment of a migration.
-/
namespace Sys2Proof.Machine

/-! ## Threads other than the one whose turn it is -/

/-- X(i) := w of a thread. -/
def Thread.setX (t : Thread) (r : Nat) (w : Word) : Thread := if r % 32 = 0 then t else { t with x := vset t.x r w }

/-- V(i) := w of a thread. -/
def Thread.setV (t : Thread) (r : Nat) (w : Vec) : Thread := { t with v := vset t.v r w }

/-- A thread sleeps for this reason. -/
def Thread.sleeps (t : Thread) (why : WaitWhy) : Bool :=
  t.slot == .asleep && (match t.wait with | some w => w.why == why | none => false)

/-- The thread of a gang with a rank and index. -/
def State.threadAt (s : State) (g rank idx : Nat) : Option Nat :=
  (s.gangThreads g).find? fun tid => (s.bind tid).grank == rank && (s.bind tid).tidx == idx

/-! ## Trace records of a gang (R495) -/

/-- A capture of the gang's task asks for records of this bit. -/
def State.wants (s : State) (g b : Nat) : Bool :=
  match s.tasks.find g with
  | some t => (match t.capture with
    | some c => (match s.captures.find c with | some k => bit k.set b | none => false)
    | none => false)
  | none => false

/-- A STOP record: its core and slot are not stated (log entry 33). -/
def State.traceStop (s : State) (g reason : Nat) (pc : Word) : State :=
  if s.wants g 4 then
    let (a, s) := s.drawFree
    s.traceGang g 5 1 (a.toNat % 2 ^ 12) (a.toNat / 2 ^ 12 % 8) 4 [BitVec.ofNat 64 reason, pc]
  else s

/-- PC of rank 0, TIDX 0 of a gang; a free value once that thread has executed DONE (log entry 33). -/
def State.firstPc (s : State) (g : Nat) : Word × State :=
  match (s.recordsOf g).find? fun tid => (s.bind tid).grank == 0 && (s.bind tid).tidx == 0 with
  | some tid => ((s.thr tid).pc, s)
  | none => s.drawFree

/-- EVENT bytes of the selects of rank 0, TIDX 0 (Table 22-15); free values once that thread has executed DONE. -/
def State.eventBytes (s : State) (g : Nat) : List Word × State :=
  match s.threadAt g 0 0 with
  | some tid =>
    let l := (s.thr tid).csr.evsel.toList.map fun e => BitVec.ofNat 8 e.toNat
    ([BitVec.ofNat 64 (ofBytes (l.take 8)), BitVec.ofNat 64 (ofBytes (l.drop 8))], s)
  | none =>
    let (a, s) := s.drawFree
    let (b, s) := s.drawFree
    ([a, b], s)

/-- IMBALANCE and COUNTERSUM of a firing of handle 0 (R495); their slot is not stated (log entry 33). -/
def State.traceFiring (s : State) (g : Nat) (a : Arrivals) : State :=
  let s := if s.wants g 0 then
      let (r, s) := s.drawFree
      s.traceGang g 1 1 a.core (r.toNat % 8) 0
        [BitVec.ofNat 64 a.first, BitVec.ofNat 64 a.last, BitVec.ofNat 64 a.sum, BitVec.ofNat 64 (a.count + a.core * 2 ^ 16)]
    else s
  if s.wants g 1 then
    let (r, s) := s.drawFree
    let (ev, s) := s.eventBytes g
    let sums := (countFrom 0 16).map fun i => BitVec.ofNat 64 (a.events.getD i 0)
    s.traceGang g 2 3 a.core (r.toNat % 8) 1 (sums ++ ev)
  else s

/-! ## Barriers (R309 to R315) -/

/-- A gang barrier is declared: handle 0 always, 1 to 7 by BARN (R309). -/
def Task.bar (t : Task) (h : Nat) : Barrier := t.bars.getD h Barrier.init

/-- Barrier `h` as a thread of gang `g` on core `c` names it. -/
def State.barrier (s : State) (g c h : Nat) : Barrier :=
  if 8 ≤ h then s.teamBars.get Barrier.init (4 * c + (h - 8))
  else match s.tasks.find g with | some t => t.bar h | none => Barrier.init

/-- Put a barrier. -/
def State.setBarrier (s : State) (g c h : Nat) (b : Barrier) : State :=
  if 8 ≤ h then { s with teamBars := s.teamBars.set (4 * c + (h - 8)) b }
  else s.modTask g fun t => { t with bars := t.bars.set h b }

/-- N of a barrier: the team size for handles 8 to 11 (Table 13-5). -/
def State.expected (s : State) (g tid h : Nat) : Nat :=
  if 8 ≤ h then (s.bind tid).team else (s.barrier g (coreOf tid) h).n

/-- A handle that the gang's task declares. -/
def State.declared (s : State) (g h : Nat) : Bool :=
  h == 0 || decide (8 ≤ h) || (s.barrier g 0 h).n != 0

/-- SENSE[h] of a thread. -/
def Thread.senseOf (t : Thread) (h : Nat) : Bool := t.sense.getLsbD h

/-- Flip SENSE[h]. -/
def Thread.flipSense (t : Thread) (h : Nat) : Thread := { t with sense := t.sense ^^^ BitVec.ofNat 12 (2 ^ h) }

/-- Threads that sleep on a barrier: of the gang, and of the core for a team handle. -/
def State.waitersAt (s : State) (g c h : Nat) : List Nat :=
  (s.gangThreads g).filter fun tid =>
    (decide (h < 8) || coreOf tid == c) && (s.thr tid).sleeps .barrier && (s.thr tid).apbHandle.toNat == h

/-- A waiter wakes, clears APB and retires its 4-byte instruction (R313). -/
def Thread.passBarrier (t : Thread) : Thread :=
  let t := t.retire 4
  { t with status := { t.status with apb := false } }

/-- A gang enters its debug stop: every thread is stopped with its PC behind the instruction that arrived (R320). A thread that is not among the
waiters, such as one in its handler after BAR_STALL, stops where it stands and keeps APB; a wait that it is in is left with none of its
effect, and an offer of it is withdrawn, as in a gang stop (log entry 121). -/
def State.debugPark (s : State) (g : Nat) : State :=
  let s := s.over (s.gangThreads g) fun s tid => (s.leaveWait tid).modThr tid fun t =>
    { t with slot := .stopped, wait := none, status := { t.status with waiting := false } }
  let (pc, s) := s.firstPc g
  (s.modTask g fun t => { t with state := .debugStopped, debugReq := false }).traceStop g 2 pc

/-- The busy time of a superstep of a BRIDGE task is kept and sent to the partner box, under its number since launch (R403). -/
def State.slackRecord (s : State) (g : Nat) (t : Task) (b : Nat) : State :=
  if t.launch.bridge then
    let n := t.sstepBase.toNat + t.sstep.toNat
    let k := s.slack.get Slack.init g
    let s := { s with slack := s.slack.set g { k with own := k.own ++ [(n, b)] } }
    match (if s.bridgeUp then s.upPort else none) with
    | some p => s.sendFlit p 5 4 0 2 (bytesOf 8 t.launch.partner.toNat ++ bytesOf 8 n ++ bytesOf 8 b)
    | none => s
  else s

/-- What a firing of handle 0 does before its waiters wake: SSTEP counts, the records are made (R122, R495, R403). -/
def State.superstep (s : State) (g : Nat) : State :=
  match s.tasks.find g with
  | none => s
  | some t =>
    let b := t.arrivals.last - t.arrivals.prevFire
    ((s.modTask g fun t => { t with sstep := t.sstep + 1, arrivals := Arrivals.init s.time b }).slackRecord g t b).traceFiring g t.arrivals

/-- A barrier fires (Table 13-6): C := 0, G flips, every waiter of the generation wakes. -/
def State.fire (s : State) (g c h : Nat) : State :=
  let s := if h = 0 then s.superstep g else s
  let b := s.barrier g c h
  let ws := s.waitersAt g c h
  (s.setBarrier g c h { b with c := 0, g := !b.g, since := none }).over ws fun s tid => s.modThr tid Thread.passBarrier

/-- A debug stop that was requested is taken once a firing of handle 0 is complete (R320). -/
def State.afterFire (s : State) (g h : Nat) : State :=
  match s.tasks.find g with
  | some t => if h = 0 ∧ t.debugReq then s.debugPark g else s
  | none => s

/-- Carillon records an arrival at handle 0 (R495). -/
def Arrivals.add (a : Arrivals) (time core : Nat) (ev : List Nat) : Arrivals :=
  { a with
    first := if a.count = 0 then time else a.first
    last := time
    sum := (a.sum + time) % 2 ^ 64
    count := a.count + 1
    core := core
    events := (countFrom 0 16).map fun i => min (a.events.getD i 0 + ev.getD i 0) (2 ^ 64 - 1) }

/-- An arrival at a barrier by the thread whose turn it is: none with SENSE[h] ≠ G; else whether it fired (Table 13-6). -/
def State.arrive (s : State) (g h : Nat) : Option (State × Bool) :=
  let c := s.myCore
  let b := s.barrier g c h
  if s.me.senseOf h != b.g then none
  else
    let ev := s.me.csr.evcnt.toList.map (·.toNat)
    let s := if h = 0 then s.modTask g fun t => { t with arrivals := t.arrivals.add s.time c ev } else s
    let s := s.modMe (·.flipSense h)
    if s.expected g s.cur h ≤ b.c + 1 then some (s.fire g c h, true)
    else some (s.setBarrier g c h { b with c := b.c + 1, since := if b.c = 0 then some s.time else b.since }, false)

/-- The watchdog of a barrier as a waiter that falls asleep finds it: an expiry without a waiter has started it again, one that
is not running starts (Table 13-6). It is the barrier's: one that runs is not started again by a BARW that executes again after a handback, though
R308 lets the watchdog of a wait start from zero (log entry 122). -/
def Barrier.watched (b : Barrier) (alone : Bool) (now limit : Nat) : Barrier :=
  match b.since with
  | none => { b with since := some now }
  | some t => if alone ∧ 0 < limit then { b with since := some (t + (now - t) / limit * limit) } else b

/-- Sleep on a barrier at which the thread has arrived. -/
def State.sleepBarrier (s : State) (g h : Nat) : State :=
  let c := s.myCore
  let others := (s.waitersAt g c h).filter (· != s.cur)
  let s := if s.me.sleeps .barrier then s
    else s.setBarrier g c h ((s.barrier g c h).watched others.isEmpty s.time (s.waitLimit s.cur))
  (s.modMe fun t => { t with status := { t.status with apb := true }, apbHandle := BitVec.ofNat 4 h }).sleepMe .barrier 0 h 0 0

/-- BARW with APB set does not arrive (R314). -/
def State.barwAgain (s : State) (g h : Nat) : Out :=
  let r := s.me.apbHandle.toNat
  if r ≠ h then s.trapOut Cause.barGen (BitVec.ofNat 64 r)
  else if (s.barrier g s.myCore h).g == s.me.senseOf h then .next (s.modMe Thread.passBarrier)
  else .next (s.sleepBarrier g h)

/-- Earlier LS and MX events of the thread are performed before it meets others: its queue drains, its write-combined data leaves
(R230). -/
def State.meet (s : State) (k : State → Out) : Out := s.afterDrain true fun s => k (s.flushWc s.cur)

/-- Steps 4 and 5 of R334. -/
def State.barwArrive (s : State) (g h : Nat) : Out :=
  match s.arrive g h with
  | none => s.trapOut Cause.barGen (BitVec.ofNat 64 h)
  | some (s, true) => .next ((s.retire 4).afterFire g h)
  | some (s, false) => .next (s.sleepBarrier g h)

/-- A thread's barrier instruction: its gang, with the handle declared (R309, R329). -/
def State.withHandle (s : State) (h : Nat) (k : Nat → Out) : Out :=
  match s.gangOf s.cur with
  | none => s.trapOut Cause.access (BitVec.ofNat 64 h)
  | some g => if s.declared g h then k g else s.trapOut Cause.access (BitVec.ofNat 64 h)

/-- BARW, and BARW.SS with `ss` (R334): the latter orders the six paths of Table 9-4, so it waits for commands and for entries that have not
landed (R230, R319). -/
def State.barw (s : State) (h : Nat) (ss : Bool) : Out :=
  s.withHandle h fun g =>
    if s.me.status.apb then s.barwAgain g h
    else if ss && (s.busyWith s.cur || s.pushing) then .next (s.sleepMe .superstep 0 0 0 0)
    else s.meet fun s => s.barwArrive g h

/-- The watchdog of a barrier has expired with a waiter asleep: every waiter traps BAR_STALL and keeps APB (Table 13-6). -/
def State.barStall (s : State) (tid : Nat) : State :=
  match s.gangOf tid with
  | none => s
  | some g =>
    let t := s.thr tid
    let h := t.apbHandle.toNat
    let c := coreOf tid
    let b := s.barrier g c h
    match b.since with
    | none => s
    | some from_ =>
      if t.sleeps .barrier && decide (s.waitLimit tid ≤ s.time - from_) then
        (s.setBarrier g c h { b with since := none }).over (s.waitersAt g c h) fun s w =>
          if s.gangOf w = some g then s.trapOf w Cause.barStall false (BitVec.ofNat 64 h) none else s
      else s

/-! ## WAITA (R331 to R333) -/

/-- The key of the word that a WAITA names. -/
def spanKey (l : List Span) : Nat :=
  match l with
  | p :: _ => (match p.loc with | .mem k => k | .win _ _ => 0 | .hub _ => 0)
  | [] => 0

/-- WAITA. -/
def State.waita (s : State) (d : XReg) (v a : Word) : Out :=
  let ask : Ask := ⟨.read, 8, true, false⟩
  match s.check s.meWho ask a 8 with
  | .error f => .next (s.failed .read f)
  | .ok ad =>
    match s.load ask a 8 with
    | .error f => .next (s.failed .read f)
    | .ok (s, bs) =>
      if BitVec.ofNat 64 (ofBytes bs) = v then s.putX d v 4
      else if s.me.expired .waita s.time (s.waitLimit s.cur) then s.trapOut Cause.waitTimeout a
      else .next ((s.sleepMe .waita a (spanKey ad.spans) v d.val).modMe fun t =>
        { t with wait := t.wait.map fun w => { w with leaf := ad.pages.head? } })

/-- The monitor re-reads the word of a sleeping WAITA: on a match the thread wakes with the value (R332). -/
def State.monitor (s : State) (tid : Nat) : State :=
  match (s.thr tid).wait with
  | some w =>
    if (s.thr tid).sleeps .waita && (badIn s.bad w.key 8).isNone && s.mem.num w.key 8 == w.value.toNat then
      (s.modThr tid fun t => (t.setX w.dest w.value).retire 4).healRegs tid (xregWords w.dest)
    else s
  | none => s

/-! ## Clave (R316 to R318, R337 to R339) -/

/-- The gang of an offer; a thread without one shares its offers with nobody. -/
def State.offerGang (s : State) (tid : Nat) : Nat := (s.gangOf tid).getD (2 ^ 32 + tid)

/-- Order of parties: by (GRANK, TIDX) (R338). -/
def State.partyRank (s : State) (o : Offer) : Nat := (s.bind o.tid).grank * 8 + (s.bind o.tid).tidx

/-- Put an offer into a list in party order. -/
def State.partyInsert (s : State) (o : Offer) : List Offer → List Offer
  | [] => [o]
  | p :: r => if s.partyRank o < s.partyRank p then o :: p :: r else p :: s.partyInsert o r

/-- What party `o` of a match receives (Table 14-2). -/
def clavePay (o : Offer) (group : List Offer) (t : Thread) : Thread :=
  let other : Vec := match group.find? (fun p => p.tid != o.tid) with | some p => p.payload | none => o.payload
  if o.kind = 0 then t.setX o.dest (other.setWidth 64)
  else if o.kind = 1 then t.setV o.dest other
  else t.setV o.dest (ofLanes 64 (group.map fun p => p.payload.toNat))

/-- A match: every party receives the payloads and retires, the acting thread first. -/
def State.claveMatch (s : State) (group : List Offer) : State :=
  let sorted := group.foldl (fun l o => s.partyInsert o l) []
  let s := { s with offers := s.offers.filter fun o => !group.any fun p => p.tid == o.tid }
  s.over (group.filter (·.tid == s.cur) ++ group.filter (·.tid != s.cur)) fun s o =>
    (s.modThr o.tid fun t => (clavePay o sorted t).retire 4).healRegs o.tid (if o.kind = 0 then xregWords o.dest else vregWords o.dest)

/-- EVAL of a watchdog's CLAVE_TIMEOUT: the key. -/
def claveEval (key : BitVec 16) (mismatch : Bool) : Word := BitVec.ofNat 64 (key.toNat + b2n mismatch * 2 ^ 63)

/-- Post an offer, or wait on with the one posted (R316, R317). -/
def State.clave (s : State) (kind k : Nat) (key : BitVec 16) (payload : Vec) (dest : Nat) : Out :=
  if s.offers.any fun o => o.tid == s.cur then
    if s.me.expired .clave s.time (s.waitLimit s.cur) then s.trapOut Cause.claveTimeout (claveEval key false) else .next s
  else s.meet fun s =>
    let g := s.offerGang s.cur
    let here := s.offers.filter fun o => o.gid == g && o.key == key
    if here.any fun o => o.kind != kind || o.k != k then s.trapOut Cause.claveTimeout (claveEval key true)
    else
      let o : Offer := ⟨s.cur, g, key, kind, k, payload, dest⟩
      if k ≤ here.length + 1 then .next ({ s with offers := s.offers ++ [o] }.claveMatch (here ++ [o]))
      else .next ({ s with offers := s.offers ++ [o] }.sleepMe .clave 0 key.toNat 0 dest)

/-- A posted offer has waited for the limit: it is withdrawn and its thread traps (R318). -/
def State.claveExpire (s : State) (tid : Nat) : State :=
  match s.offers.find? fun o => o.tid == tid with
  | some o =>
    if (s.thr tid).sleeps .clave && (s.thr tid).expired .clave s.time (s.waitLimit tid) then
      s.trapOf tid Cause.claveTimeout false (claveEval o.key false) none
    else s
  | none => s

/-! ## The stack link (R340 to R347) -/

/-- Change a core's link. -/
def State.modLink (s : State) (c : Nat) (f : Link → Link) : State := s.modCore c fun k => { k with link := f k.link }

/-- EVAL of SL_DOWN. -/
def slEval (down : Bool) (partner : Nat) : Word := BitVec.ofNat 64 (b2n down * 2 ^ 63 + partner)

/-- The checks of R342, then the instruction. -/
def State.withLink (s : State) (k : Nat → Out) : Out :=
  let c := s.myCore
  let p := partnerOf c
  match s.gangOf s.cur with
  | none => s.trapOut Cause.access (BitVec.ofNat 64 (winBase + p * 2 ^ 24 + 0x160000))
  | some g =>
    if s.gangAt p != some g then s.trapOut Cause.access (BitVec.ofNat 64 (winBase + p * 2 ^ 24 + 0x160000))
    else if (s.core c).link.down then s.trapOut Cause.slDown (slEval true p)
    else k p

/-- A push by a thread with a credit at hand (R343): it enters transit to the partner, and the thread retires. -/
def State.slPushNow (s : State) (tid vs : Nat) : State :=
  let c := coreOf tid
  let v := (s.thr tid).v.get (Fin.ofNat 16 vs)
  let s := s.modLink c fun l => { l with credits := l.credits - 1, pushed := l.pushed + 1 }
  (s.modLink (partnerOf c) fun l => { l with transit := l.transit ++ [v] }).modThr tid (·.retire 4)

/-- A pop by a thread with an entry at hand: its credit starts back to the partner, and the thread retires. -/
def State.slPopNow (s : State) (tid vd : Nat) : State :=
  let c := coreOf tid
  match (s.core c).link.fifo with
  | [] => s
  | v :: r =>
    let s := s.modLink c fun l => { l with fifo := r, popped := l.popped + 1 }
    ((s.modLink (partnerOf c) fun l => { l with creditTransit := l.creditTransit + 1 }).modThr tid fun t =>
      (t.setV vd v).retire 4).healRegs tid (vregWords vd)

/-- The thread of a core that has slept longest for this reason, with its register. -/
def State.longest (s : State) (why : WaitWhy) (c : Nat) : Option (Nat × Nat) :=
  match (s.sleepers why).find? fun tid => coreOf tid == c with
  | some tid => (match (s.thr tid).wait with | some w => some (tid, w.dest) | none => none)
  | none => none

/-- The link of a core joins it to a core bound to the same gang (R342). -/
def State.linked (s : State) (c : Nat) : Bool := s.linkState c != 0

/-- An entry in transit reaches the pop side of a core, and goes to the SLPOP that has slept longest (R340, R344), while the link stands
(R502). -/
def State.slEntry (s : State) (c : Nat) : State :=
  match (s.core c).link.transit with
  | [] => s
  | v :: r =>
    let s := s.modLink c fun l => { l with transit := r, fifo := l.fifo ++ [v] }
    match (if s.linked c then s.longest .slPop c else none) with
    | some (tid, vd) => s.slPopNow tid vd
    | none => s

/-- A credit is at hand at a core: it goes to the SLPUSH that has slept longest; one whose register has gone bad traps instead (R341, R344,
R480). -/
def State.slPushNext (s : State) (c : Nat) : Nat → State
  | 0 => s
  | n + 1 =>
    match (if s.linked c then s.longest .slPush c else none) with
    | none => s
    | some (tid, vs) =>
      match s.badReg tid (vregWords vs) with
      | some w => (s.parityAt tid w).slPushNext c n
      | none => s.slPushNow tid vs

/-- A credit in transit reaches the push side of a core, and goes to a sleeping SLPUSH (R341, R344). -/
def State.slCredit (s : State) (c : Nat) : State :=
  if (s.core c).link.creditTransit = 0 then s
  else (s.modLink c fun l => { l with creditTransit := l.creditTransit - 1, credits := l.credits + 1 }).slPushNext c 8

/-- A link wait of a thread has reached the wait limit (R342). -/
def State.slExpire (s : State) (tid : Nat) : State :=
  let t := s.thr tid
  let lim := s.waitLimit tid
  if (t.sleeps .slPop && t.expired .slPop s.time lim) || (t.sleeps .slPush && t.expired .slPush s.time lim) then
    s.trapOf tid Cause.slDown false (slEval false (partnerOf (coreOf tid))) none
  else s

/-- A core's team has ended while its partner's stays bound: threads that sleep on the link there trap ACCESS, as their instructions do from then
on (R342, R502; log entry 123). -/
def State.unlink (s : State) (g c : Nat) : State :=
  s.over (s.team g (partnerOf c)) fun s tid =>
    if (s.thr tid).sleeps .slPop || (s.thr tid).sleeps .slPush then
      s.trapOf tid Cause.access false (BitVec.ofNat 64 (winBase + c * 2 ^ 24 + 0x160000)) none
    else s

/-- A link goes DOWN at a core: every thread that sleeps on it traps (R342). -/
def State.linkDown (s : State) (c : Nat) : State :=
  let s := s.modLink c fun l => { l with down := true }
  s.over (countFrom (8 * c) 8) fun s tid =>
    if (s.thr tid).sleeps .slPop || (s.thr tid).sleeps .slPush then
      s.trapOf tid Cause.slDown false (slEval true (partnerOf c)) none
    else s

/-! ## STRIKE (R349 to R351) -/

/-- The score reaches the threshold. -/
def strikeHit (c : Csrs) (score : Nat) : Bool :=
  if c.threshFmt then
    let a := Fmt.f32.decode score
    let b := Fmt.f32.decode c.thresh.toNat
    match fLess a b with
    | some lt => !lt
    | none => false
  else decide (c.thresh.toInt ≤ (BitVec.ofNat 32 score).toInt)

/-- A sequence number's successor: 32 bits, skipping 0 (R351). -/
def strikeNext (n : Nat) : Nat := if (n + 1) % 2 ^ 32 = 0 then 1 else (n + 1) % 2 ^ 32

/-- A named quadrant is neither powered nor waking. -/
def State.needsWake (s : State) (mask : Nat) : Bool :=
  (quadsOf mask).any fun q => !(s.quad q).waking && (!(s.quad q).isOn || (s.quad q).lost)

/-- A hit: a record is posted where a place is free, and a wake of the quadrants named may start. -/
def State.strikePost (s : State) (d : XReg) (score : Nat) : Out :=
  let t := s.me
  let tenant := s.tenantOf s.cur
  let k := s.striker.get Striker.init tenant
  if 16 ≤ k.places.length then s.putX d 5 4
  else
    let mask := expandMask t.csr.wakeMask.toNat
    let (wq, qif) := match s.taskOf s.cur with
      | some k => (k.launch.wakeq, k.qif)
      | none => (none, 0)
    let r : StrikeRec := ⟨k.next, s.myCore, BitVec.ofNat 32 score, t.csr.threshFmt, t.csr.wakeClass.toNat, mask, s.time, wq, false⟩
    let s := { s with striker := s.striker.set tenant { places := k.places ++ [r], next := strikeNext k.next } }
    if s.needsWake mask then
      let packed := match wq with | some (q, n) => 512 + 64 * q + n | none => 0
      (s.wakeRequest mask (some (packed, k.next, s.myCore + 4096 * qif))).putX d (BitVec.ofNat 64 (k.next * 2 ^ 32 + 3)) 4
    else s.putX d (BitVec.ofNat 64 (k.next * 2 ^ 32 + 1)) 4

/-- STRIKE: on a hit it waits, ACTIVE, for the thread's engine commands and queue entries, and write-combined stores leave; a gang stop
lets it finish (R351). -/
def State.strike (s : State) (d a : XReg) : Out :=
  let score := (s.getX a).toNat % 2 ^ 32
  if strikeHit s.me.csr score then
    if s.busyWith s.cur then .next (s.modMe fun t => { t with wait := some ⟨.strike, s.time, 0, 0, 0, 0, none⟩ })
    else s.meet fun s => s.strikePost d score
  else s.putX d 0 4

/-! ## MIGR (R353, R354, R388) -/

/-- A number in `n` bytes of a record. -/
def recNum (bs : List Byte) (o n : Nat) : Nat := ofBytes ((bs.drop o).take n)

/-- A word of a record. -/
def recWord (bs : List Byte) (o : Nat) : Word := BitVec.ofNat 64 (recNum bs o 8)

/-- The key-value entries of a list: SRC, DST, SIZE, COPY. -/
def kvEntries (bs : List Byte) : Nat → List (Word × Word × Nat × Nat)
  | 0 => []
  | n + 1 => (recWord bs 0, recWord bs 8, recNum bs 16 8, recNum bs 24 8) :: kvEntries (bs.drop 32) n

/-- The translations of the pages of a range of the thread's addresses below the windows. -/
def State.rangePages (s : State) (w : Who) (a n : Nat) : Except AFault (List TlbEntry × Marks) :=
  if winBase < a + n then .error (.trap Cause.access (BitVec.ofNat 64 a)) else s.xlatePages w .read (cutAt (2 ^ 14) a (n / 2 ^ 14 + 2) n)

/-- Every page of a range of the thread's addresses lies in LPDDR6 that the device has. -/
def State.onLpddr6 (s : State) (w : Who) (a n : Nat) : Bool :=
  match s.rangePages w a n with
  | .ok (es, _) => es.all fun e => e.home == 0 && (physKey 0 e.pa).isSome
  | .error _ => false

/-- What a walk over a range of the thread's addresses waits for: a quadrant to wake (R378), a page to become valid (R388, R430). -/
def State.rangeWaits (s : State) (w : Who) (a n : Nat) : Option AFault :=
  match s.rangePages w a n with
  | .error (.wake q) => some (.wake q)
  | .error (.page fw entry page addr va stage) => some (.page fw entry page addr va stage)
  | _ => none

/-- A range of island-store bytes through the window of a Tabor core (Table 8-2). -/
def islandRange (a n : Nat) : Bool :=
  decide (winBase ≤ a) && isTabor (winCore a) && isCore (winCore a) && decide (0x400000 ≤ winOff a) && decide (winOff a + n ≤ 0x9E0000)

/-- The offsets of an entry's fields that fail their limits. -/
def State.kvBad (s : State) (e : Word × Word × Nat × Nat) : List Nat :=
  let (src, dst, size, flags) := e
  let srcOk := if flags % 2 = 1 then islandRange src.toNat size else s.onLpddr6 s.meWho src.toNat size
  let dstOk := if flags % 2 = 1 then s.onLpddr6 s.meWho dst.toNat size else dst == 0
  (if srcOk then [] else [0]) ++ (if dstOk then [] else [8]) ++ (if size % 64 = 0 then [] else [16]) ++ (if flags < 2 then [] else [24])

/-- Bytes that the LM images of the ranks below both widths need (R390). -/
def State.imageNeeds (s : State) (t : Task) (w : Nat) : Nat :=
  (t.cores.take w).foldl (fun a c => max a (touchedTop (s.core c).touched)) 0

/-- A range lies inside one lease of the task. -/
def Task.inLease (t : Task) (a n : Nat) : Bool := t.launch.leases.any fun l => decide (l.1 ≤ a) && decide (a + n ≤ l.1 + l.2)

/-- The offsets of the context record's fields that fail their limits (Table 16-7). -/
def State.contextBad (s : State) (t : Task) (w : Nat) (r : List Byte) : List Nat :=
  let n (o k : Nat) : Nat := recNum r o k
  let image := n 0x10 8
  let need := 0x80000 * t.cores.length + 0x10000
  let ok : List (Nat × Bool) :=
    [(0x00, n 0 2 == 1), (0x02, decide (1 ≤ n 2 1) && decide (n 2 1 ≤ 8)), (0x03, decide (1 ≤ n 3 1) && decide (n 3 1 ≤ 16)),
     (0x04, decide (n 3 1 ≤ n 4 1) && decide (n 4 1 ≤ 16) && decide (s.imageNeeds t w ≤ n 4 1 * 2 ^ 14)), (0x05, decide (n 5 1 ≤ 64)),
     (0x06, n 6 2 == 0), (0x08, n 8 8 % 4 == 0 && decide (n 8 8 < t.launch.textLen)),
     (0x10, image % 0x10000 == 0 && t.inLease image need && s.onLpddr6 s.meWho image need), (0x18, decide (need ≤ n 0x18 8)),
     (0x20, n 0x20 8 % 8 == 0), (0x28, decide (n 0x28 4 ≤ 240)), (0x2C, n 0x2C 4 == 0), (0x30, n 0x30 8 % 8 == 0),
     (0x38, n 0x38 8 % 32 == 0), (0x40, (r.drop 0x40).all (· == 0))]
  (ok.filter fun p => !p.2).map Prod.fst

/-- Addresses of the entries' fields that fail. -/
def State.listBad (s : State) : List (Word × Word × Nat × Nat) → Word → List Word
  | [], _ => []
  | e :: r, a => ((s.kvBad e).map fun o => a + BitVec.ofNat 64 o) ++ s.listBad r (a + 32)

/-- What the checks of a record and its list wait for: the ranges that name pages are those of the image, of SRC with COPY = 0, of DST else. -/
def State.contextWaits (s : State) (t : Task) (r : List Byte) (kv : List (Word × Word × Nat × Nat)) : Option AFault :=
  ((recNum r 0x10 8, 0x80000 * t.cores.length + 0x10000) ::
    kv.map fun e => if e.2.2.2 % 2 = 1 then (e.2.1.toNat, e.2.2.1) else (e.1.toNat, e.2.2.1)).findSome? fun p => s.rangeWaits s.meWho p.1 p.2

/-- The lowest of some addresses. -/
def lowest : List Word → Option Word
  | [] => none
  | a :: r => match lowest r with | some b => some (if a.toNat ≤ b.toNat then a else b) | none => some a

/-- Cores of an island outside the service mask. -/
def State.usable (s : State) (tabor : Bool) : Nat := ((islandCores tabor).filter fun c => !s.isService c).length

/-- The lowest core of a gang with an entry in its pop FIFO or in transit to it. -/
def State.linkBusy (s : State) (t : Task) : Option Nat :=
  (countFrom 0 0x1000).find? fun c => t.cores.contains c && (!(s.core c).link.fifo.isEmpty || !(s.core c).link.transit.isEmpty)

/-- What the Ladle keeps of a record and its list. -/
def migrationOf (c : Word) (r : List Byte) (kv : List (Word × Word × Nat × Nat)) (isl : Bool) (w control mask : Nat) : Migration where
  record := c
  tabor := isl
  width := w
  team := recNum r 2 1
  spmin := recNum r 3 1
  spmax := recNum r 4 1
  entry := recWord r 8
  image := recWord r 0x10
  args := recWord r 0x20
  argn := recNum r 0x28 4
  statusw := recWord r 0x30
  kv := kv.map fun e => (e.1, e.2.1, e.2.2.1, e.2.2.2 % 2 == 1)
  control := control
  quadMask := mask
  wake := none

/-- The commitment: handle 0 fires, the Ladle takes the context, the thread's slot is released (R354). -/
def State.migrCommit (s : State) (g : Nat) (m : Migration) : State :=
  let ev := s.me.csr.evcnt.toList.map (·.toNat)
  let s := (s.flushWc s.cur).modTask g fun t => { t with arrivals := t.arrivals.add s.time s.myCore ev }
  let s := (s.modMe (·.retire 12)).fire g s.myCore 0
  let tid := s.cur
  let base := match s.tasks.find g with | some t => t.launch.textBase | none => 0
  let s := s.traceStop g 1 (base + m.entry)
  (s.modTask g fun t => { t with migr := some m, state := .migrating, waitSince := s.time }).freeSlot tid

/-- The record and its list as they are read: the list's bytes only where NKV is legal. -/
def State.readContext (s : State) (c : Word) : Except AFault (State × List Byte × List (Word × Word × Nat × Nat)) :=
  match s.load (Ask.plain .read) c 128 with
  | .error f => .error f
  | .ok (s, r) =>
    let n := recNum r 5 1
    if n = 0 ∨ 64 < n then .ok (s, r, [])
    else
      match s.load (Ask.plain .read) (recWord r 0x38) (32 * n) with
      | .error f => .error f
      | .ok (s, l) => .ok (s, r, kvEntries l n)

/-- The final wait of a MIGR, then its commitment; what it has read stays with the thread (R353, R354). -/
def State.migrGo (s : State) (g : Nat) (m : Migration) : Out :=
  if s.busyWith s.cur then .next ((s.sleepMe .superstep 0 0 0 0).modMe fun t => { t with migr := some m })
  else s.afterDrain true fun s => .next (s.migrCommit g m)

/-- What a MIGR in its final wait has read (R353). -/
def Thread.inMigr (t : Thread) : Option Migration :=
  match t.wait with
  | some w => if w.why = .superstep then t.migr else none
  | none => none

/-- The checks of a MIGR in the order of R353, then its final wait. -/
def State.migrCheck (s : State) (g : Nat) (t : Task) (c : Word) (r : List Byte) (kv : List (Word × Word × Nat × Nat)) (isl : Bool)
    (w : Nat) : Out :=
  match lowest (((s.contextBad t w r).map fun o => c + BitVec.ofNat 64 o) ++ s.listBad kv (recWord r 0x38)) with
  | some a => s.trapOut Cause.access a
  | none =>
    if s.usable isl < w then s.trapOut Cause.access (BitVec.ofNat 64 w)
    else if (t.bar 0).n ≠ 1 then s.trapOut Cause.barGen 0x8000000000000000
    else
      match s.linkBusy t with
      | some k => s.trapOut Cause.slDown (slEval true k)
      | none => s.migrGo g (migrationOf c r kv isl w s.cur (expandMask s.me.csr.wakeMask.toNat))

/-- MIGR before its final wait: the record and its list are read and checked (R353). -/
def State.migrRead (s : State) (g : Nat) (xc : XReg) (isl : Bool) (w : Nat) : Out :=
  match s.tasks.find g with
  | none => s.trapOut Cause.access 0
  | some t =>
    let c := s.getX xc
    if c.toNat % 64 ≠ 0 then s.trapOut Cause.misalign c
    else
      match s.readContext c with
      | .error f => .next (s.failed .read f)
      | .ok (s, r, kv) =>
        match s.contextWaits t r kv with
        | some f => .next (s.failed .read f)
        | none => s.migrCheck g t c r kv isl w

/-- MIGR (R353). -/
def State.migr (s : State) (xc : XReg) (isl : Bool) (w : Nat) : Out :=
  match s.gangOf s.cur with
  | none => s.trapOut Cause.access 0
  | some g =>
    match s.me.inMigr with
    | some m => s.migrGo g m
    | none => s.migrRead g xc isl w

/-! ## The instructions -/

/-- PAUSE: starts a PAUSE interval of n core cycles (R330). -/
def execPause (n : BitVec 16) (s : State) : Out := .next ((s.retire 4).modMe fun t => { t with pause := n.toNat })

/-- WAITA: sleeps until an aligned word equals a value, then acquires it (R331). -/
def execWaita (d : XReg) (xv : XReg) (xa : XReg) (s : State) : Out := s.waita d (s.getX xv) (s.getX xa)

/-- CLAVE: posts a two-party scalar rendezvous offer (R337). -/
def execClave (d : XReg) (xs : XReg) (xk : XReg) (s : State) : Out :=
  s.clave 0 2 ((s.getX xk).setWidth 16) ((s.getX xs).setWidth 512) d.val

/-- CLAVEV: posts a two-party vector rendezvous offer (R337). -/
def execClavev (vd : VReg) (vs : VReg) (xk : XReg) (s : State) : Out :=
  s.clave 1 2 ((s.getX xk).setWidth 16) (s.getV vs) vd.val

/-- CLAVEG: posts a group rendezvous offer of k parties (R338). -/
def execClaveg (vd : VReg) (xs : XReg) (xk : XReg) (s : State) : Out :=
  s.clave 2 ((s.getX xk).field 16 3 + 1) ((s.getX xk).setWidth 16) ((s.getX xs).setWidth 512) vd.val

/-- BARA: arrives at a barrier without waiting (R335). -/
def execBara (h : Handle) (s : State) : Out :=
  s.withHandle h.val fun g =>
    s.meet fun s =>
      match s.arrive g h.val with
      | none => s.trapOut Cause.barGen (BitVec.ofNat 64 h.val)
      | some (s, fired) => .next (if fired then (s.retire 4).afterFire g h.val else s.retire 4)

/-- BARW: arrives at a barrier and sleeps until it fires (R334). -/
def execBarw (h : Handle) (s : State) : Out := s.barw h.val false

/-- BARW_SS: superstep arrival at handle 0 after outstanding commands complete (R334). -/
def execBarwSs (s : State) : Out := s.barw 0 true

/-- BARQ: returns a barrier's CLEAR bit and arrival count (R336). -/
def execBarq (d : XReg) (h : Handle) (s : State) : Out :=
  s.withHandle h.val fun g =>
    let b := s.barrier g s.myCore h.val
    s.putX d (BitVec.ofNat 64 (b2n (b.g == s.me.senseOf h.val) + 2 * (b.c % 2 ^ 15))) 4

/-- SLPUSH: pushes a vector onto the stack-link FIFO, sleeping without credit (R343). -/
def execSlpush (v : VReg) (s : State) : Out :=
  s.withLink fun p =>
    if (s.core s.myCore).link.credits ≠ 0 then .next (s.slPushNow s.cur v.val)
    else if s.me.expired .slPush s.time (s.waitLimit s.cur) then s.trapOut Cause.slDown (slEval false p)
    else .next (s.sleepMe .slPush 0 0 0 v.val)

/-- SLPOP: pops the head of the pop FIFO, sleeping while empty (R343). -/
def execSlpop (v : VReg) (s : State) : Out :=
  s.withLink fun p =>
    if !(s.core s.myCore).link.fifo.isEmpty then .next (s.slPopNow s.cur v.val)
    else if s.me.expired .slPop s.time (s.waitLimit s.cur) then s.trapOut Cause.slDown (slEval false p)
    else .next (s.sleepMe .slPop 0 0 0 v.val)

/-- SLFREE: returns the push side's credit count (R343). -/
def execSlfree (d : XReg) (s : State) : Out :=
  s.withLink fun _ => s.putX d (BitVec.ofNat 64 (s.core s.myCore).link.credits) 4

/-- SLPEEK: returns pop FIFO count and copies the head without removing it (R343). -/
def execSlpeek (d : XReg) (v : VReg) (s : State) : Out :=
  s.withLink fun _ =>
    match (s.core s.myCore).link.fifo with
    | [] => s.putX d 0 4
    | e :: r => (s.setV v e).putX d (BitVec.ofNat 64 (r.length + 1)) 4

/-- STRIKE: compares a score with STRIKETH and on a hit posts a wake record and may start a wake (R350). -/
def execStrike (d : XReg) (xs : XReg) (s : State) : Out := s.strike d xs

/-- MIGR: commits the gang's context to migrate to an island and width (R353). -/
def execMigr (xc : XReg) (isl : Bool) (w1 : BitVec 12) (s : State) : Out := s.migr xc isl (w1.toNat + 1)

end Sys2Proof.Machine
end

