-- ==== Sys2Proof/Machine/System.lean ====
section
/-!
DEFINITION. The end of a thread and of a task, traps by instruction, return, invalidation and MARK (spec/04, R125 to R129, R510;
spec/19, R432, R433; spec/21, R466 to R470; spec/22, R497).
-/
namespace Sys2Proof.Machine

/-! ## DONE and HALT -/

/-- A finished team's LM image, tile file, scale areas and accumulators are discarded (R128; log entry 57). -/
def State.discardTeam (s : State) (c : Nat) : State :=
  let drop (s : State) (o n : Nat) : State := { s with mem := s.mem.clear (winKey c o) n, bad := heal s.bad (winKey c o) n }
  (drop (drop (drop s 0 0x40000) 0x100000 0x11000) 0x120000 0x2000).modCore c fun k => { k with touched := 0 }

/-- A thread of a gang has completed DONE: its slot is free, handle 0 expects one arrival less, the last thread of a team frees
the core, the last of the gang ends the task (R126, R128, Table 13-6). -/
def State.threadDone (s : State) (tid g : Nat) : State :=
  let c := coreOf tid
  let s := (s.modThr tid (·.retire 4)).freeSlot tid
  let s := s.modTask g fun t =>
    { t with doneCount := t.doneCount + 1, bars := t.bars.set 0 { t.bar 0 with n := (t.bar 0).n - 1 } }
  let s := if (s.team g c).isEmpty then ((s.freeCore c).discardTeam c).modTask g fun t => { t with cores := t.cores.map fun k => if k = c then noCore else k }
    else s
  let b := s.barrier g c 0
  let s := if b.c = b.n ∧ 0 < b.c then (s.fire g c 0).afterFire g 0 else s
  let s := if (s.team g c).isEmpty then s.unlink g c else s
  if (s.gangThreads g).isEmpty then s.endTask g Status.ok 0 0 else s

/-- DONE waits for the thread's commands and queue entries, its stores leave, and the slot is released (R126, R510). A handback or a queue
error that is held raises its trap first, in a thread with TRAPPED set too, whose task then ends (Table 21-1). -/
def State.done (s : State) : Out :=
  if s.busyWith s.cur then .next (s.sleepMe .done 0 0 0 0)
  else
    s.afterDrain true fun s =>
      let s := s.flushWc s.cur
      if !s.me.deferred.isEmpty then .next (s.takeDeferred s.cur)
      else
        match s.gangOf s.cur with
        | some g => .next (s.threadDone s.cur g)
        | none => .next ((s.retire 4).freeSlot s.cur)

/-- A service-core thread that executes HALT waits as DONE does, then stops with its PC behind the instruction (R470, R491). -/
def State.haltService (s : State) : Out :=
  if s.busyWith s.cur then .next (s.sleepMe .done 0 0 0 0)
  else
    s.afterDrain true fun s =>
      let code := s.me.trap.code.toNat
      .next (((s.flushWc s.cur).retire 4).stopService s.cur code)

/-- HALT in supervisor mode (R470): a task ends with the trap that its handler saw. -/
def State.halt (s : State) : Out :=
  match s.gangOf s.cur with
  | some g => .next (s.endTask g Status.taskTrap s.me.trap.code.toNat s.me.trap.eval)
  | none => s.haltService

/-! ## Privileged instructions -/

/-- Supervisor mode, or PRIV with EVAL 0 (R57). -/
def State.privileged (s : State) (k : Out) : Out := if s.me.status.priv then k else s.trapOut Cause.priv 0

/-- ERET in supervisor mode (R469). -/
def State.eret (s : State) : Out := if s.me.trap.trapped then .next (s.modMe Thread.eret) else s.trapOut Cause.illegal 0

/-! ## TLBINV (R432, R433) -/

/-- TLBINV on a service core in supervisor mode. -/
def State.tlbinv (s : State) (a sel : Word) : Out :=
  let v := sel.toNat
  let scope := bits v 4 2
  if v / 2 ^ 26 ≠ 0 ∨ (bit v 3 = true ∧ scope = 1) ∨ s.qEnabled (v % 8) = false then s.trapOut Cause.access sel
  else if scope = 0 ∧ winBase ≤ a.toNat then s.trapOut Cause.access a
  else (s.invalidate (selects (v % 8) (bit v 3) scope (bits v 6 20) (a.toNat / 2 ^ 14))).fin 4

/-! ## MARK (R497) -/

/-- MARK: a record where a capture with bit 2 covers the task. -/
def State.mark (s : State) (d a b : XReg) : Out :=
  match s.gangOf s.cur with
  | some g =>
    if s.wants g 2 then
      (s.traceGang g 3 1 s.myCore (slotOf s.cur) 2 [s.getX a, s.getX b, s.me.pc]).putX d 1 4
    else s.putX d 0 4
  | none => s.putX d 0 4

/-! ## The instructions -/

/-- SCALL: traps SCALL to the thread's handler (R467). -/
def execScall (s : State) : Out := s.trapOut Cause.scall 0

/-- BREAK: traps BREAK, or requests a debug stop at the next superstep (R468). -/
def execBrk (s : State) : Out :=
  if s.me.status.debug then
    match s.gangOf s.cur with
    | some g => (s.modTask g fun t => { t with debugReq := true }).barw 0 true
    | none => s.barw 0 true
  else s.trapOut Cause.brk 0

/-- DONE: waits for the thread's outstanding work and releases its slot (R126). -/
def execThreadDone (s : State) : Out := s.done

/-- YIELD: places the thread last for the next issue decision (R129). -/
def execYieldTurn (s : State) : Out := .next ((s.retire 4).modMe fun t => { t with yielded := true })

/-- ERET: returns from a trap to EPC with the saved privilege (R469). -/
def execEret (s : State) : Out := s.privileged s.eret

/-- HALT: ends the task, or stops a service-core thread (R470). -/
def execHalt (s : State) : Out := s.privileged s.halt

/-- TLBINV: drops matching translations in every TLB and walk cache (R432). -/
def execTlbinv (xa : XReg) (xs : XReg) (s : State) : Out :=
  s.privileged (if s.onService then s.tlbinv (s.getX xa) (s.getX xs) else s.trapOut Cause.priv 0)

/-- MARK: emits a MARK trace record when the task is captured (R497). -/
def execMark (d : XReg) (a : XReg) (b : XReg) (s : State) : Out := s.mark d a b

end Sys2Proof.Machine
end

