-- ==== Sys2Proof/Machine/Waits.lean ====
section
/-!
DEFINITION. What ends a wait without an instruction of the waiting thread: deferred traps (spec/21, R460), watchdogs (spec/13,
R306, R311; spec/14, R331, R342; spec/10, R250, R262), serviced pages (spec/19, R430, R443), the monitor (R332), arrivals on
the stack link (R340, R341), queue entries of the matrix unit (spec/06), granules and collectives of the engines (spec/11),
replay (spec/22, R499).
-/
namespace Sys2Proof.Machine

/-! ## Deferred traps -/

/-- A thread whose slot executes: ACTIVE or ASLEEP. -/
def Thread.live (t : Thread) : Bool := t.slot == .active || t.slot == .asleep

/-- A boundary at which a deferred trap is taken (R460, R476): the thread is live, no gang stop comes first, TRAPPED is 0; a service thread that is
stopping executes no more. -/
def Thread.dueDeferred (t : Thread) : Bool := t.live && !t.stopReq && !t.trap.trapped && !t.deferred.isEmpty && t.halting.isNone

/-! ## Pages (R430, R443) -/

/-- The page wait at a place of the list. -/
def State.pageWaitAt (s : State) (i : Nat) : Option PageWait := s.pageWaits[i]?

/-- Service firmware makes the page of a wait valid: it sets V of the stage-1 entry. -/
def State.validatePage (s : State) (w : PageWait) : State :=
  if w.firmware then { s with mem := s.mem.put w.entry (s.mem.get w.entry ||| 1) } else s

/-- An access that waits on a page that is valid now runs again. -/
def State.restartPage (s : State) (w : PageWait) : State :=
  if w.firmware && (s.mem.get w.entry).getLsbD 0 then
    { s.wakePage w with pageWaits := s.pageWaits.filter (· != w) }
  else s

/-- The wait belongs to a WAITQ, which waits within its TIMEOUT (R514). -/
def State.ofWaitq (s : State) (w : PageWait) : Bool :=
  match w.engine with
  | some (m, 9) =>
    decide (2 ^ 40 ≤ m) && (s.queues.get Queue.init ((m - 2 ^ 40) / 2 ^ 16)).watch.any fun k => k.index == m % 2 ^ 16 && k.pkt.headD 0 == 3
  | _ => false

/-- An access has waited on a FILE fault for its task's limit: a thread takes its page cause, an engine or a packet finds the wait
failed. -/
def State.pageExpired (s : State) (w : PageWait) : State :=
  if w.firmware || decide (s.time - w.since < s.waitLimit w.tid) || s.ofWaitq w then s
  else
    match w.engine with
    | none => s.trapOf w.tid (accOf w.acc).pageCause false w.addr none
    | some _ => { s with pageWaits := s.pageWaits.map fun v => if v = w then { v with failed := true } else v }

/-- Do something with the page wait at a place of the list. -/
def State.onPageWait (s : State) (i : Nat) (f : State → PageWait → State) : State :=
  match s.pageWaitAt i with
  | some w => f s w
  | none => s

/-! ## Watchdogs of a thread -/

/-- A sleep of this kind has lasted for the limit: the thread traps with the address it waits at. -/
def State.expire (s : State) (tid : Nat) (why : WaitWhy) (limit code : Nat) : State :=
  let t := s.thr tid
  match t.wait with
  | some w => if t.sleeps why && t.expired why s.time limit then s.trapOf tid code false w.addr none else s
  | none => s

/-- A versioned load or store has slept for VWAITLIM (R250). -/
def State.verExpire (s : State) (tid : Nat) (why : WaitWhy) (code : Nat) : State :=
  s.expire tid why (s.thr tid).csr.vwaitlim.toNat code

/-- A PAUSE interval ends: the core cycles that it still has pass (R330). -/
def State.pauseEnd (s : State) (tid : Nat) : State :=
  let t := s.thr tid
  if t.pause = 0 then s
  else (s.pass (s.nsFor (coreOf tid) (t.pause * 640 - t.phase))).modThr tid fun t => { t with pause := 0 }

/-! ## Replay (R499) -/

/-- The thread that an atomic holds acts as itself. -/
def State.whoOf (s : State) (tid : Nat) : Who := ⟨tid, !(s.thr tid).status.priv, (s.thr tid).space, none⟩

/-- The atomic that a thread sleeps on is still held by replay. -/
def State.stillHeld (s : State) (tid : Nat) : Bool :=
  match (s.thr tid).wait with
  | some w =>
    (match s.check (s.whoOf tid) ⟨.rw, 4, true, false⟩ w.addr 4 with
    | .ok ad => s.heldByReplay tid w.addr ad.spans
    | .error _ => false)
  | none => false

/-- A held atomic is next in its order: its thread wakes and performs it. -/
def State.replayRelease (s : State) (tid : Nat) : State :=
  if (s.thr tid).sleeps .replay && !s.stillHeld tid then s.modThr tid Thread.wake else s

/-- A held atomic has waited for the task's limit: replay ends for the whole capture. -/
def State.replayExpire (s : State) (tid : Nat) : State :=
  if (s.thr tid).sleeps .replay && (s.thr tid).expired .replay s.time (s.waitLimit tid) then
    match s.captureOf tid, s.gangOf tid with
    | some c, some g => s.endReplay c g
    | _, _ => s
  else s

/-! ## Queue entries (R166) -/

/-- The head of a core's matrix queue executes if it is of this kind. -/
def State.mqTurn (s : State) (core : Nat) (p : MxOp → Bool) : State :=
  match (s.core core).mx.queue with
  | e :: _ => if p e.op then s.mxStep core else s
  | [] => s

/-- Kinds of queue entries. -/
def MxOp.kind : MxOp → Nat
  | .tmma _ _ _ => 0
  | .taccout _ _ _ _ _ => 1
  | .taccadd _ _ => 2
  | .tzero _ => 3
  | .taccz _ => 4
  | .txch _ _ _ => 5
  | .tcvt _ _ => 6

/-! ## The events -/

/-- DEFERRED_TRAP_TAKE: A pending deferred trap is taken at the next instruction boundary (R460). -/
def execEvDeferredTrapTake (tid : Nat) (s : State) : Out :=
  .next (if (s.thr tid).dueDeferred then s.takeDeferred tid else s)

/-- FIRMWARE_PAGE_VALIDATE: service firmware sets V on a stage-1 entry with nonzero PPN (R430). -/
def execEvFirmwarePageValidate (i : Nat) (s : State) : Out := .next (s.onPageWait i State.validatePage)

/-- SERVICED_FAULT_RESTART: A sleeping access restarts once its page is valid (R430). -/
def execEvServicedFaultRestart (i : Nat) (s : State) : Out := .next (s.onPageWait i State.restartPage)

/-- WAITA_MONITOR_MATCH: the monitor re-reads the word after a store and wakes the waiter on a match (R332). -/
def execEvWaitaMonitorMatch (tid : Nat) (s : State) : Out := .next (s.monitor tid)

/-- WAIT_TIMEOUT: A WAITA reaching the task's wait limit traps (R331). -/
def execEvWaitTimeout (tid : Nat) (s : State) : Out := .next (s.expire tid .waita (s.waitLimit tid) Cause.waitTimeout)

/-- VER_WAIT: A version load sleeping for VWAITLIM traps (R250). -/
def execEvVerWait (tid : Nat) (s : State) : Out := .next (s.verExpire tid .verLoad Cause.verWait)

/-- VER_FULL: A VERST or VERFLOOR waiting for a slot or entry for VWAITLIM traps (R250). -/
def execEvVerFull (tid : Nat) (s : State) : Out := .next (s.verExpire tid .verStore Cause.verFull)

/-- BAR_STALL: A barrier watchdog expiry traps every waiter (R311). -/
def execEvBarStall (tid : Nat) (s : State) : Out := .next (s.barStall tid)

/-- CLAVE_TIMEOUT: A rendezvous offer reaching the wait limit is withdrawn and traps (R306). -/
def execEvClaveTimeout (tid : Nat) (s : State) : Out := .next (s.claveExpire tid)

/-- SL_DOWN: A stack-link wait reaching the wait limit traps (R342). -/
def execEvSlDown (tid : Nat) (s : State) : Out := .next (s.slExpire tid)

/-- SL_ENTRY_ARRIVE: A pushed entry reaches the pop side and may wake a sleeping SLPOP (R340). -/
def execEvSlEntryArrive (core : Nat) (s : State) : Out := .next (s.slEntry core)

/-- SL_CREDIT_ARRIVE: A returned credit reaches the push side and may wake a sleeping SLPUSH (R341). -/
def execEvSlCreditArrive (core : Nat) (s : State) : Out := .next (s.slCredit core)

/-- PAUSE_INTERVAL_END: A thread's PAUSE interval ends after n core cycles (R330). -/
def execEvPauseIntervalEnd (tid : Nat) (s : State) : Out := .next (s.pauseEnd tid)

/-- MQ_TMMA_EXECUTE: A queued TMMA computes its grouped scaled product (R180). -/
def execEvMqTmmaExecute (core : Nat) (s : State) : Out := .next (s.mqTurn core fun op => op.kind == 0)

/-- MQ_TACCOUT_EXECUTE: A queued TACCOUT scales and rounds accumulator elements into a tile (R181). -/
def execEvMqTaccoutExecute (core : Nat) (s : State) : Out := .next (s.mqTurn core fun op => op.kind == 1)

/-- MQ_TACCADD_EXECUTE: A queued TACCADD adds accumulators element-wise (R184). -/
def execEvMqTaccaddExecute (core : Nat) (s : State) : Out := .next (s.mqTurn core fun op => op.kind == 2)

/-- MQ_TZERO_EXECUTE: A queued TZERO zeroes a tile and scale area (R185). -/
def execEvMqTzeroExecute (core : Nat) (s : State) : Out := .next (s.mqTurn core fun op => op.kind == 3)

/-- MQ_TACCZ_EXECUTE: A queued TACCZ zeroes an accumulator (R185). -/
def execEvMqTacczExecute (core : Nat) (s : State) : Out := .next (s.mqTurn core fun op => op.kind == 4)

/-- MQ_TXCH_EXECUTE: A queued TXCH swaps half-tiles once the mirrored queue lies between entries (R188). -/
def execEvMqTxchExecute (core : Nat) (s : State) : Out := .next (s.mqTurn core fun op => op.kind == 5)

/-- MQ_TCVT_EXECUTE: A queued TCVT converts a tile's elements (R186). -/
def execEvMqTcvtExecute (core : Nat) (s : State) : Out := .next (s.mqTurn core fun op => op.kind == 6)

/-- CE_GRANULE_TRANSFER: the copy engine reads and writes one payload granule of a command (R279). -/
def execEvCeGranuleTransfer (core : Nat) (slot : Nat) (off : Nat) (s : State) : Out := .next (s.copyTurn core slot off)

/-- COLLECTIVE_EXECUTE: once every participant has joined, the collective computes and writes results (R290). -/
def execEvCollectiveExecute (gid : Nat) (peer : List (PeerColl × List Byte)) (s : State) : Out := .next (s.collTurn gid peer)

/-- FILE_FAULT_WAIT_LIMIT: an access waiting on a FILE fault for the wait limit takes its page cause (R443). -/
def execEvFileFaultWaitLimit (i : Nat) (s : State) : Out := .next (s.onPageWait i State.pageExpired)

/-- RUDIMENT_HELD_RELEASE: A held atomic is performed when it is next in its TAG's logged order (R499). -/
def execEvRudimentHeldRelease (tid : Nat) (s : State) : Out := .next (s.replayRelease tid)

/-- REPLAY_WAIT_EXPIRY: A held atomic reaching the wait limit ends replay for the capture (R499). -/
def execEvReplayWaitExpiry (tid : Nat) (s : State) : Out := .next (s.replayExpire tid)

/-- CPYV_VERSION_WAIT_LIMIT: A CPYV granule waiting for a free version beyond the submitting thread's VWAITLIM stops the command, which is handed back as ENGINE_FAULT (R262). -/
def execEvCpyvVersionWaitLimit (core : Nat) (slot : Nat) (off : Nat) (s : State) : Out :=
  .next (s.copyVerExpired core slot off)

end Sys2Proof.Machine
end

