-- ==== Sys2Proof/Machine/Firmware.lean ====
section
/-!
DEFINITION. Service firmware as it reaches a tenant's memory for a packet, a bind or a migration: what it resolves itself, what it
waits for, what fails (spec/19, R430, R443; spec/15, R366, R514; spec/16, R390), and moving blocks between physical memory and
a tenant's pages.
-/
namespace Sys2Proof.Machine

/-! ## Pages made resident (R366) -/

/-- Make the page of an address resident, resolving what firmware can: some permission must admitAccess it. -/
def State.pageIn (s : State) (q pasid : Nat) (va : Word) : Nat → Except AFault State
  | 0 => .error (.trap Cause.access va)
  | n + 1 =>
    match s.check (s.fwWho q pasid) (Ask.plain .read) va 1 with
    | .ok _ => .ok s
    | .error (.trap c e) =>
      match s.check (s.fwWho q pasid) (Ask.plain .exec) va 1 with
      | .ok _ => .ok s
      | .error _ => .error (.trap c e)
    | .error f =>
      match s.fwResolve f with
      | some s => s.pageIn q pasid va n
      | none => .error f

/-- Make pages resident, in order: the first that fails, with its address. -/
def State.pagesIn (s : State) (q pasid : Nat) : List Nat → Except (Word × AFault) State
  | [] => .ok s
  | a :: r =>
    match s.pageIn q pasid (BitVec.ofNat 64 a) 16 with
    | .ok s => s.pagesIn q pasid r
    | .error f => .error (BitVec.ofNat 64 a, f)

/-- The 16 KiB pages of ranges. -/
def pagesOf (l : List (Nat × Nat)) : List Nat := l.flatMap fun r => (countFrom 0 (r.2 / 2 ^ 14)).map fun i => r.1 + 2 ^ 14 * i

/-! ## Blocks -/

/-- Key of an address that firmware may write, with what it can resolve resolved. -/
def State.fwKey (s : State) (q pasid : Nat) (acc : Acc) (va : Word) (n : Nat) : Nat → Except AFault (State × Nat)
  | 0 => .error (.trap Cause.access va)
  | k + 1 =>
    match s.check (s.fwWho q pasid) (Ask.plain acc) va n with
    | .ok ad => .ok (s.admitAccess (s.fwWho q pasid) ad, spanKey ad.spans)
    | .error f =>
      match s.fwResolve f with
      | some s => s.fwKey q pasid acc va n k
      | none => .error f

/-- Work of firmware that may stop at a failed access, with what it has done so far. -/
abbrev FwRun := State × Option AFault

/-- Go on with work that has not stopped. -/
def FwRun.next (r : FwRun) (f : State → FwRun) : FwRun :=
  match r with
  | (s, none) => f s
  | (s, some e) => (s, some e)

/-- Work that leaves nothing behind where it fails. -/
def fwTry (s : State) (r : Except AFault State) : FwRun :=
  match r with
  | .ok s => (s, none)
  | .error f => (s, some f)

/-- Do something with each part of a range that lies in one page: the key of the part, its offset in the range, its length. -/
def State.fwParts (s : State) (q pasid : Nat) (acc : Acc) (f : State → Nat → Nat → Nat → Except AFault State) :
    List (Nat × Nat) → Nat → FwRun
  | [], _ => (s, none)
  | (a, n) :: r, o =>
    match s.fwKey q pasid acc (BitVec.ofNat 64 a) n 16 with
    | .error e => (s, some e)
    | .ok (s', k) =>
      match f s' k o n with
      | .error e => (s', some e)
      | .ok s => s.fwParts q pasid acc f r (o + n)

/-- Page parts of a range. -/
def pageParts (va n : Nat) : List (Nat × Nat) := cutAt (2 ^ 14) va (n / 2 ^ 14 + 2) n

/-- Zero a range of a tenant's addresses. -/
def State.fwZero (s : State) (q pasid va n : Nat) : FwRun :=
  s.fwParts q pasid .write (fun s k _ n => .ok { s with mem := s.mem.clear k n, bad := heal s.bad k n }) (pageParts va n) 0

/-- The uncorrectable word that stops a copy, if any: a copy of images keeps the bad check bits instead (Table 22-4). -/
def State.copyStops (s : State) (keep : Bool) (k n : Nat) : Option Nat := if keep then none else badIn s.bad k n

/-- Copy physical memory from a key on to a tenant's addresses; an uncorrectable word stops it, or its copy is as bad. -/
def State.fwOut (s : State) (keep : Bool) (q pasid src va n : Nat) : FwRun :=
  s.fwParts q pasid .write (fun s k o n =>
    match s.copyStops keep (src + o) n with
    | some w => .error (.poison w (BitVec.ofNat 64 (addrOfKey w)))
    | none => .ok (s.moveMem (src + o) k n)) (pageParts va n) 0

/-- Copy a tenant's addresses to physical memory from a key on; an uncorrectable word's copy is as bad (Table 22-4). -/
def State.fwIn (s : State) (q pasid va dst n : Nat) : FwRun :=
  s.fwParts q pasid .read (fun s k o n => .ok (s.moveMem k (dst + o) n)) (pageParts va n) 0

end Sys2Proof.Machine
end

