-- ==== Sys2Proof/Machine/Binding.lean ====
section
/-!
DEFINITION. Binding gangs to cores: the slot table's commands (spec/15, R373 to R376; spec/19, R421), binding and rebinding by service
firmware (R364 to R366, R370, R512; spec/13, R324, R325; spec/21, R475), aging and pre-emption (R371, R372), gang stops (spec/13,
R321), power gates of single domains (spec/14, R347) and the Ladle (spec/16, R388 to R391).
-/
namespace Sys2Proof.Machine

/-! ## Zeroing (R160, R421) -/

/-- A link with empty FIFOs and all credits. -/
def Link.fresh : Link := ⟨[], [], 16, 0, 0, 0, false⟩

/-- A core is zeroed for a new gang: LM, tile file, scale areas, accumulators, the registers of its slots, the inbox words, both
FIFOs of its pair, and its matrix CSRs. -/
def State.zeroCore (s : State) (c : Nat) : State :=
  let good := fun (s : State) (k n : Nat) => { s with mem := s.mem.clear k n, bad := heal s.bad k n }
  let s := good (good (good (good s (winKey c 0) 0x40000) (winKey c 0x100000) 0x11000) (winKey c 0x120000) 0x2000) (winKey c 0x130000) 0x19000
  let s := s.over (countFrom (8 * c) 8) fun s tid => s.modThr tid fun t =>
    { t with x := Vector.replicate 32 0, v := Vector.replicate 16 0, m := Vector.replicate 8 0 }
  let s := s.modCore c fun k => { k with
    touched := 0, inboxSize := 0, inboxBase := 0, inboxHead := 0, inboxTail := 0, mx := Core.init.mx, link := Link.fresh }
  s.modCore (partnerOf c) fun k => { k with link := { k.link with fifo := [], transit := [] } }

/-- Zero a core whose last gang was another one. -/
def State.claimCore (s : State) (g c : Nat) : State :=
  if (s.core c).lastGang = some g then s else (s.zeroCore c).modCore c fun k => { k with lastGang := some g }

/-! ## Bind records (Table 15-9) -/

/-- Word 0 of a record. -/
def bindHead (st : Nat) (fresh : Bool) (tidx team level tenant pasid qif : Nat) : Word :=
  BitVec.ofNat 64 (st + b2n fresh * 4 + tidx * 2 ^ 3 + (team - 1) * 2 ^ 6 + level * 2 ^ 9 + tenant * 2 ^ 12 + pasid * 2 ^ 20 + qif * 2 ^ 40)

/-- Word 1 of a record. -/
def bindGang (g rank size : Nat) : Word := BitVec.ofNat 64 (g + rank * 2 ^ 32 + size * 2 ^ 43)

/-- A RELEASED record of a task's thread. -/
def bindRecOf (t : Task) (g rank size tidx team : Nat) (fresh : Bool) (pc : Word) (save : Nat) : BindRec :=
  ⟨#[bindHead 2 fresh tidx team t.level t.tenant t.pasid.toNat t.qif, bindGang g rank size, recordPc pc, BitVec.ofNat 64 save,
    t.key.setWidth 64], rfl⟩

/-- FRESH of a record. -/
def BindRec.fresh (b : BindRec) : Bool := b[0].getLsbD 2

/-! ## Threads as dispatch starts them (R376) -/

/-- The generator's first state (R89). -/
def firstSeed (l : Word) (rank idx : Nat) : Word :=
  let s := l ^^^ (BitVec.ofNat 64 (8 * rank + idx) * Config.srSeedReset)
  if s = 0 then Config.srSeedReset else s

/-- DEBUG of a thread that binds: bit 7 of the capture that covers its task (Table 22-13). -/
def State.bindsDebug (s : State) (t : Task) : Bool :=
  match t.capture with
  | some c => (match s.captures.find c with | some k => bit k.set 7 | none => false)
  | none => false

/-- A thread with first-bind state: registers 0, CSRs at their first-bind values, ETVEC from HVEC (R458), the address space of its
PASID (R428), KEY as WKEY (R422). -/
def State.freshThread (s : State) (t : Task) (rank idx : Nat) (pc : Word) (key : BitVec 32) : Thread :=
  let hvec := s.reg (qcb t.qif + 0x20)
  { Thread.init with
    pc := pc
    slot := .active
    status := { Thread.init.status with leaseMode := t.launch.strict, debug := s.bindsDebug t }
    trap := { Thread.init.trap with etvecEn := bit hvec 0, etvecBase := BitVec.ofNat 45 (hvec / 4) }
    csr := { Thread.init.csr with srseed := firstSeed t.launch.seed rank idx }
    space := ⟨BitVec.ofNat 3 t.qif, false, BitVec.ofNat 33 (s.allowRoot t.qif t.pasid.toNat), t.pasid, key⟩ }

/-- A thread from the image at SAVE. -/
def State.savedThread (s : State) (save : Nat) (key : BitVec 32) (more : List Deferred) : Thread :=
  threadOfImage (s.wordsAt (keyOf 0 save) 256) key more

/-- The identity entries 240 to 248 of a core's constant window (Table 2-14, R103, R204). -/
def State.identityEntries (s : State) (t : Task) (c rank size team : Nat) : State :=
  s.poke (winKey c 0x780) (wordBytesOf [BitVec.ofNat 64 c, BitVec.ofNat 64 rank, BitVec.ofNat 64 size, BitVec.ofNat 64 team,
    BitVec.ofNat 64 (winBase + c * 2 ^ 24 + 0x800), t.sstepBase, BitVec.ofNat 64 t.tenant, t.launch.arenaBase, t.launch.arenaLimit])

/-- A thread that a restore has given a bad word without check bits among the n bytes at k takes the consumer's trap (Table 22-4; log entry 116). -/
def State.trapBadImage (s : State) (tid k n : Nat) : Option State :=
  (s.badImage k n).map fun k => (s.logConsumed tid k Cause.dataError).trapOf tid Cause.dataError false (BitVec.ofNat 64 (addrOfKey k)) none

/-- The bad words of what a restore has taken into registers without check bits meet their consumers: a thread whose image holds one traps, and
so do the threads of a team whose CSR, inbox, link or barrier words hold one (Table 22-4; log entry 116). -/
def State.imageTrap (s : State) (tid : Nat) : State :=
  let b := s.bind tid
  match s.trapBadImage tid (keyOf 0 b.save + 0x540) 0x1E0, s.trapBadImage tid (b.block + 0x57000) 0x6A8, s.trapBadImage tid (b.block + 0x58800) 0x3800 with
  | some s, _, _ => s
  | none, some s, _ => s
  | none, none, some s => s
  | none, none, none => s

/-- The threads that a restore has started meet the bad words of their images. -/
def State.imageTraps (s : State) (g : Nat) (ths : List Nat) : State :=
  if s.bad.isEmpty then s else s.over ths fun s tid => if s.gangOf tid = some g then s.imageTrap tid else s

/-- A core as it is bound: LMSPLIT, key, link with its counts at 0. BOUND starts at SPMAX: after a restore R208 says so, at a first bind
and after a migration that is the model's choice (log entry 101). -/
def State.openCore (s : State) (t : Task) (c spmin spmax : Nat) : State :=
  s.modCore c fun k => { k with
    spmin := spmin, spmax := spmax, bound := spmax, key := some t.key, link := Link.fresh, copies := [], colls := [], collCount := 0,
    cstate := .c0 }

/-- The inbox of a launch record (R283). -/
def State.openInbox (s : State) (l : LaunchRec) (c : Nat) : State :=
  s.modCore c fun k => { k with inboxSize := l.inboxSize, inboxBase := l.inboxBase, inboxHead := 0, inboxTail := 0 }

/-- The argument image and zeros in entries 0 to 239 (R365). -/
def State.broadcast (s : State) (c : Nat) (image : List Byte) : State :=
  s.poke (winKey c 0) (image ++ List.replicate (1920 - image.length) 0)

/-- Barriers of a gang at its first bind: N of handle 0 is the thread count, N of the others is BARN (R309, R310). -/
def firstBars (threads : Nat) (barn : List Nat) : List Barrier :=
  ⟨0, false, threads, none⟩ :: (countFrom 0 7).map fun i => ⟨0, false, barn.getD i 0, none⟩

/-- Team barriers of a core at a first bind. -/
def State.freshTeamBars (s : State) (c : Nat) : State := { s with teamBars := s.teamBars.filter fun p => p.1 / 4 != c }

/-- Where service firmware keeps the images of a gang: aligned as a team block is (R472). -/
def saveAreaOf (g : Nat) : Nat := Config.saveArea g / 2 ^ 16 * 2 ^ 16

/-- A barrier as a resume finds it: its watchdog starts from zero (Table 13-6). -/
def Barrier.resumed (b : Barrier) (now : Nat) : Barrier := { b with since := if b.c = 0 then none else some now }

/-- Threads of a new team start: fresh, each with its RELEASED record. -/
def State.startTeam (s : State) (t : Task) (g c rank size team : Nat) (pc : Word) : State :=
  s.over (countFrom 0 team) fun s i =>
    let save := t.saveBase + 0x80000 * rank + 0x800 * i
    { s with binds := s.binds.set (8 * c + i) (bindRecOf t g rank size i team true pc save) }.setThr (8 * c + i)
      (s.freshThread t rank i (recordPc pc) t.key)

/-! ## Which cores are free (R364, R370, R511) -/

/-- A record that names no bound thread: FREE, or PARKED for a gang that is saved. -/
def State.recordFree (s : State) (tid : Nat) : Bool :=
  let b := s.bind tid
  b.st == 0 || (b.st == 1 && match s.tasks.find b.gang with | some t => t.state == .saved || (t.state == .debugStopped && t.cores.isEmpty) | none => false)

/-- A core of an island, or of a quadrant, that has a service core and so runs tasks, not a service core itself (R373). -/
def State.taskCore (s : State) (c : Nat) : Bool :=
  isCore c && !s.isService c && s.boot.cfg.mask.any fun m => isTabor m == isTabor c && (isTabor c || quadOf m == quadOf c)

/-- A core that no gang holds: no record and no task names it. A core of a bound task whose own team has ended is free (R128). -/
def State.unheld (s : State) (c : Nat) : Bool :=
  ((countFrom (8 * c) 8).all s.recordFree) && !(s.tasks.any fun p => p.2.cores.contains c)

/-- A core that service firmware may bind: powered, in a quadrant in Q-ON, held by nothing. -/
def State.coreFree (s : State) (c : Nat) : Bool :=
  s.taskCore c && !s.coreOff c && (isTabor c || ((s.quad (quadOf c)).isOn && !(s.quad (quadOf c)).lost)) && s.unheld c

/-- A core that a wake of its quadrant would let service firmware bind (R511). -/
def State.coreAsleep (s : State) (c : Nat) : Bool :=
  s.taskCore c && !isTabor c && !(s.quad (quadOf c)).isOn && !(s.quad (quadOf c)).lost && !(s.domain (logicDomain c)).dark &&
    !(s.domain (sramDomain c)).dark && s.unheld c

/-- The free cores of an island. -/
def State.freeCores (s : State) (tabor : Bool) : List Nat := (islandCores tabor).filter s.coreFree

/-- The lower core of a pair: layer 0 on Cupola, bit [2] = 0 on Tabor. -/
def lowerCore (c : Nat) : Bool := if isTabor c then !bit c 2 else !bit c 8

/-- Pairs among cores. -/
def pairsIn (l : List Nat) : Nat := (l.filter fun c => lowerCore c && l.contains (partnerOf c)).length

/-- What a waiting task needs: its island, the least and the greatest width, bonded pairs. -/
structure Need where
  tabor : Bool
  least : Nat
  most : Nat
  pairs : Nat
  deriving DecidableEq, Repr

/-- Island of a launch. -/
def Task.island (t : Task) : Bool := t.launch.tabor

/-- The need of a task that waits to bind: a launch, a saved gang, a migration whose sources are released; none otherwise. -/
def Task.need (t : Task) : Option Need :=
  match t.state with
  | .waiting => some ⟨t.island, t.launch.gmin, t.launch.gmax, 0⟩
  | .saved =>
    let old := t.savedCores.filter (· != noCore)
    some ⟨old.any isTabor, old.length, old.length, pairsIn old⟩
  | .migrating =>
    (match t.migr with
    | some m => if t.cores.isEmpty then some ⟨m.tabor, m.width, m.width, 0⟩ else none
    | none => none)
  | _ => none

/-- A task holds gang barriers of Carillon: bound, stopping, stopped for a debugger, or with a migration committed. -/
def Task.holdsBars (t : Task) : Bool :=
  match t.state with
  | .bound => true
  | .stopping => true
  | .debugStopped => !t.cores.isEmpty
  | .migrating => !t.cores.isEmpty
  | _ => false

/-- Gang barriers that a launch takes (R309). -/
def LaunchRec.bars (l : LaunchRec) : Nat := 1 + (l.barn.filter (· != 0)).length

/-- Pages that a task's leases pin: those that each range touches (R388). -/
def LaunchRec.pins (l : LaunchRec) : Nat := (l.leases.map fun r => (r.1 % 2 ^ 14 + r.2 + 2 ^ 14 - 1) / 2 ^ 14).foldl (· + ·) 0

/-- Pages pinned for a tenant: leases of tasks that have been bound or whose pages are being made resident for a bind, and capture
buffers (R366, R512). -/
def State.pinned (s : State) (tenant : Nat) : Nat :=
  ((s.tasks.filter fun p => p.2.tenant == tenant && (!p.2.fresh || p.2.pinning)).map fun p => p.2.launch.pins).foldl (· + ·) 0 +
    ((s.captures.filter fun p => s.qTenant p.2.qif == tenant).map fun p =>
      ((p.2.buffer.toNat % 2 ^ 14 + p.2.size + 2 ^ 14 - 1) / 2 ^ 14)).foldl (· + ·) 0

/-- PINQUOTA of a tenant (Table 19-2). -/
def State.pinQuota (s : State) (tenant : Nat) : Nat := bits (s.tenantWord tenant 0) 32 32

/-- Cores that are enough for a need. -/
def Need.cores (n : Need) (free : List Nat) : Bool := decide (n.least ≤ free.length) && (n.pairs == 0 || decide (n.pairs ≤ pairsIn free))

/-- A task fits what is free beside cores: gang barriers and pins; a BRIDGE task needs the partner box. -/
def State.fitsRest (s : State) (t : Task) : Bool :=
  let used := ((s.tasks.filter fun p => p.2.holdsBars).map fun p => p.2.launch.bars).foldl (· + ·) 0
  decide (used + t.launch.bars ≤ 256) &&
    (!t.fresh || t.pinning || decide (s.pinned t.tenant + t.launch.pins ≤ s.pinQuota t.tenant)) &&
    (!t.launch.bridge || !t.fresh || s.bridgeUp)

/-- A task fits the resources that are free. -/
def State.fits (s : State) (t : Task) : Bool :=
  match t.need with
  | none => false
  | some n => n.cores (s.freeCores n.tabor) && s.fitsRest t

/-- Waking a quadrant would let a task bind that the cores in Q-ON do not fit: everything else is there, the quadrant has a core for it,
and with the cores of every quadrant that can be woken it fits (R511; log entry 102). -/
def State.wakeLets (s : State) (t : Task) (q : Nat) : Bool :=
  match t.need with
  | none => false
  | some n =>
    let asleep := (islandCores false).filter s.coreAsleep
    !n.tabor && s.fitsRest t && !n.cores (s.freeCores false) && (asleep.any fun c => quadOf c == q) &&
      n.cores ((islandCores false).filter fun c => s.coreFree c || s.coreAsleep c)

/-- WEIGHT of a QIF; 0 acts as 1 (Table 19-9). -/
def State.qifWeight (s : State) (q : Nat) : Nat := max 1 (bits (s.reg (qcb q)) 20 8)

/-- A QIF has taken its weight of binds in the present round of a level (R370). -/
def State.spent (s : State) (level q : Nat) : Bool := decide (s.qifWeight q ≤ s.rounds.get 0 (8 * level + q))

/-- The round of a level is over: every QIF with a task that waits there has taken its weight. -/
def State.roundOver (s : State) (level : Nat) : Bool :=
  s.tasks.all fun p => p.2.state != .waiting || p.2.level != level || s.spent level p.2.qif

/-- A QIF still has a turn in the round of a level, or a new round begins. -/
def State.inRound (s : State) (level q : Nat) : Bool := s.roundOver level || !s.spent level q

/-- A first bind of a QIF's task at a level counts in its round, or begins a new one. -/
def State.countBind (s : State) (level q : Nat) : State :=
  let r := if s.roundOver level then s.rounds.filter fun p => p.1 / 8 != level else s.rounds
  { s with rounds := SMap.set r (8 * level + q) (SMap.get 0 r (8 * level + q) + 1) }

/-- Task `u` comes before task `t`: by level, then stopped gangs at the head of it, the last one first (R347, R372), a gang behind the task
that it was pre-empted for, then weighted round-robin among QIFs and packet order within a queue (R370; log entry 60). -/
def State.before (s : State) (gu : Nat) (u : Task) (gt : Nat) (t : Task) : Bool :=
  decide (u.level < t.level) ||
    (u.level == t.level &&
      (if t.state = .saved ∧ t.forTask = some gu then true
      else if u.state = .saved ∧ u.forTask = some gt then false
      else if u.state = .saved then t.state != .saved || decide (t.waitSince < u.waitSince)
      else if t.state = .saved then false
      else if u.qif = t.qif then u.queue == t.queue && decide (gu < gt)
      else if s.inRound u.level u.qif = s.inRound t.level t.qif then decide (u.qif < t.qif)
      else s.inRound u.level u.qif))

/-- A task may bind now: it waits, and no task before it fits. -/
def State.mayBind (s : State) (g : Nat) (t : Task) : Bool :=
  t.need.isSome && !(s.tasks.any fun p => p.1 != g && s.before p.1 p.2 g t && s.fits p.2)

/-- No two cores of a list are the same. -/
def distinct : List Nat → Bool
  | [] => true
  | c :: r => !r.contains c && distinct r

/-- Ranks that stood on a pair stand on a pair again, the same side up (R325). -/
def pairsKept (old new : List Nat) : Bool :=
  (old.zip new).all fun p =>
    !old.contains (partnerOf p.1) ||
      (lowerCore p.1 == lowerCore p.2 && (old.zip new).any fun q => q.1 == partnerOf p.1 && q.2 == partnerOf p.2)

/-- A choice of cores that a bind of a task may make: free cores of the island, the width that R364 fixes. -/
def State.coresOk (s : State) (t : Task) (cores : List Nat) : Bool :=
  match t.need with
  | none => false
  | some n =>
    let free := s.freeCores n.tabor
    distinct cores && (cores.all fun c => isTabor c == n.tabor && s.coreFree c) && decide (n.least ≤ cores.length) &&
      (if t.state = .waiting ∧ t.launch.bridge then decide (cores.length ≤ n.most) else cores.length == min n.most free.length) &&
      (t.state != .saved || pairsKept (t.savedCores.filter (· != noCore)) cores)

/-! ## Binding a task (R364 to R366, R376) -/

/-- A gang of this box, or a gang of the partner box that is paired with one, holds a key; which keys the partner's gangs hold is not in
this box (R423; log entry 103). -/
def State.keyHeld (s : State) (k : BitVec 32) : Bool :=
  s.tasks.any (fun p => p.2.key == k) || (s.tasks.any (fun p => p.2.launch.bridge) && Config.partnerKey s.time k)

/-- A window key: the device-wide counter, skipping 0 and keys still held (R423). -/
def State.freshKey (s : State) : Nat → BitVec 32 → BitVec 32
  | 0, k => k
  | n + 1, k => if k = 0 ∨ s.keyHeld k = true then s.freshKey n (k + 1) else k

/-- Records of saved gangs on a core return to FREE: service firmware takes them over. -/
def State.clearRecords (s : State) (c : Nat) : State :=
  s.over (countFrom (8 * c) 8) fun s tid => if (s.bind tid).st = 1 then s.freeSlot tid else s

/-- First bind of a task on cores by rank: arguments, identity, threads fresh at ENTRY, all released in one step. -/
def State.bindFresh (s : State) (g : Nat) (t : Task) (cores : List Nat) (image : List Byte) : State :=
  let w := cores.length
  let key := s.freshKey 4096 s.nextKey
  let s := s.countBind t.level t.qif
  let t := { t with key := key, saveBase := saveAreaOf g, state := .bound, fresh := false, pinning := false, cores := cores,
                    bars := firstBars (w * t.launch.team) t.launch.barn, boundSince := s.time,
                    arrivals := Arrivals.init s.time 0 }
  let s := { s with nextKey := key + 1 }
  let s := s.over cores State.clearRecords
  let s := s.over cores fun s c => s.claimCore g c
  let s := s.over (cores.zip (countFrom 0 w)) fun s p =>
    let s := (((s.openCore t p.1 t.launch.spmin t.launch.spmax).openInbox t.launch p.1).freshTeamBars p.1).broadcast p.1 image
    (s.identityEntries t p.1 p.2 w t.launch.team).startTeam t g p.1 p.2 w t.launch.team (t.launch.textBase + t.launch.entry)
  { s with tasks := s.tasks.set g t }

/-- Push credits of a core as the entries that wait on its partner leave them (R346). -/
def State.credit (s : State) (c : Nat) : State :=
  s.modCore c fun k => { k with link := { k.link with credits := 16 - (s.core (partnerOf c)).link.fifo.length } }

/-- The cores of a saved gang by rank: `cores` for the ranks that have one. -/
def seat : List Nat → List Nat → List Nat
  | [], _ => []
  | o :: old, cores =>
    if o = noCore then noCore :: seat old cores
    else match cores with
      | c :: r => c :: seat old r
      | [] => noCore :: seat old []

/-- Resume of a saved gang on cores by rank: team images with their paused commands, link credits, threads from their images (R324, R346,
R474, R475). -/
def State.bindSaved (s : State) (g : Nat) (t : Task) (cores : List Nat) : State :=
  let recs : SMap BindRec := t.paused.flatMap fun p => p.2.recs
  let held := t.paused
  let t := { t with state := .bound, cores := seat t.savedCores cores, savedCores := [], paused := [], boundSince := s.time, forTask := none,
                    bars := t.bars.map (·.resumed s.time) }
  let s := s.over (s.recordsOf g) State.freeSlot
  let s := s.over cores State.clearRecords
  let s := s.over cores fun s c => s.claimCore g c
  let s := s.over t.ranks fun s p =>
    let s := s.openCore t p.1 t.launch.spmin t.launch.spmax
    match held.find p.2 with
    | some h => (match h.recs.head? with | some b => s.restoreTeam p.1 b.2.block t.key h.colls | none => s)
    | none => s
  let s := s.over cores State.credit
  let s := s.over recs fun s (p : Nat × BindRec) =>
    let b := p.2
    let c := t.cores.getD b.grank noCore
    let tid := 8 * c + p.1
    let more := match held.find b.grank with | some h => h.deferred.get [] b.tidx | none => []
    let save := b.save
    let s := s.identityEntries t c b.grank t.cores.length b.team
    ({ s with binds := s.binds.set tid (bindRecOf t g b.grank t.cores.length b.tidx b.team false b[2] save) }.setThr tid
      (s.savedThread save t.key more)).restoreRegs tid (keyOf 0 save)
  let s : State := { s with tasks := s.tasks.set g t }
  s.imageTraps g (recs.map fun p => 8 * t.cores.getD p.2.grank noCore + p.1)

/-- The work of binding a task, as firmware's accesses name it. -/
def Task.job (t : Task) (g : Nat) : FwJob := ⟨0x2000 + g, t.qif, t.pasid.toNat, (t.queue, t.index, t.tag.toNat)⟩

/-- A task that has not run completes without its completion word. -/
def State.refuseTask (s : State) (g : Nat) (t : Task) (status sub : Nat) (value : Word) : State :=
  ((s.freeGang g t).dropJob (0x2000 + g)).completePacket t.qif t.queue t.index t.tag.toNat t.crec t.irq status sub value

/-- A first bind: leases made resident, the argument image read, then the gang is bound. -/
def State.bindFirst (s : State) (g : Nat) (t : Task) (cores : List Nat) : State :=
  let q := t.qif
  let p := t.pasid.toNat
  let s := s.dropWork
  match s.pagesIn q p (pagesOf t.launch.leases) with
  | .error (a, f) =>
    (match s.fwFailed (t.job g) .read f with
    | .later s => s.modTask g fun t => { t with pinning := true }
    | .fail s _ _ => s.refuseTask g t Status.badLaunch 12 a)
  | .ok s =>
    match s.fwLoadR q p t.launch.argAddr (8 * t.launch.argN) 16 with
    | .error f =>
      (match s.fwFailed (t.job g) .read f with
      | .later s => s.modTask g fun t => { t with pinning := true }
      | .fail s _ a => s.refuseTask g t Status.argFault 0 a)
    | .ok (s, image) => (s.dropJob (0x2000 + g)).bindFresh g t cores image

/-- TASK_BIND: a waiting task that may bind is bound to a choice of cores. -/
def State.taskBind (s : State) (g : Nat) (cores : List Nat) : State :=
  match s.tasks.find g with
  | none => s
  | some t =>
    if s.boot.fatal || s.resetting t.qif || !s.mayBind g t || !s.coresOk t cores || !s.fits t then s
    else
      match t.state with
      | .waiting => s.bindFirst g t cores
      | .saved => s.bindSaved g t cores
      | _ => s

/-! ## Aging and pre-emption (R371, R372) -/

/-- A task that waits rises one level for every 10 ms since it entered waiting, up to level 1; a migrating task that kept a raised level rises
from there. -/
def State.age (s : State) (g : Nat) : State :=
  match s.tasks.find g with
  | none => s
  | some t =>
    if t.need.isSome && decide (1 < t.level) && decide ((t.rises + 1) * 10000000 ≤ s.time - t.waitSince) then
      s.modTask g fun t => { t with level := t.level - 1, rises := t.rises + 1 }
    else s

/-- A bound gang that a waiting task T may pre-empt: a lower level at once for level 0, else after a quantum; its own level after
a quantum. -/
def State.preemptable (s : State) (t u : Task) : Bool :=
  let ran := decide ((if s.boot.cfg.quantum = 0 then Config.defaultQuantum else s.boot.cfg.quantum) ≤ s.time - u.boundSince)
  u.state == .bound && (if t.level < u.level then t.level == 0 || ran else t.level == u.level && ran)

/-- The island that a task's cores lie on. -/
def Task.onTabor (t : Task) : Bool := t.held.any isTabor

/-- QUANTUM_PREEMPT: a bound gang is stopped for a waiting task that does not fit; the lowest level goes first, then the gang bound
longest. The room it leaves is that task's: it does not bind again before it (R372). -/
def State.preempt (s : State) (g waiting : Nat) : State :=
  match s.tasks.find g, s.tasks.find waiting with
  | some u, some t =>
    (match t.need with
    | some n =>
      let worse (v : Task) : Bool := decide (u.level < v.level) || (u.level == v.level && decide (v.boundSince < u.boundSince))
      if g != waiting && u.onTabor == n.tabor && s.preemptable t u && !s.fits t &&
          !(s.tasks.any fun p => p.2.onTabor == n.tabor && s.preemptable t p.2 && worse p.2) then (s.stopGang g).modTask g fun u => { u with forTask := some waiting }
      else s
    | none => s)
  | _, _ => s

/-- A STRIKE that has hit waits: a gang stop lets it finish (R351). -/
def Thread.striking (t : Thread) : Bool := t.slot == .active && match t.wait with | some w => w.why == .strike | none => false

/-- THREAD_STOP: a thread asked to stop does so. -/
def State.threadStop (s : State) (tid : Nat) : State := if (s.thr tid).stopReq && !(s.thr tid).striking then s.stopThread tid else s

/-- GANG_STOP_SAVE_COMPLETE: every thread has stopped, the STOP record is made (R495), the gang is saved. -/
def State.stopComplete (s : State) (g : Nat) : State :=
  match s.tasks.find g with
  | some t =>
    if t.state = .stopping ∧ s.allStopped g then
      let (pc, s) := if s.wants g 4 then s.firstPc g else (0, s)
      (s.traceStop g 0 pc).saveGang g
    else s
  | none => s

/-! ## Commands of the slot table (R375) -/

/-- No command zeroes a core at present: commands are performed one at a time. -/
def State.tableFree (s : State) : Bool := !s.threads.any fun p => p.2.bind.pending == 5

/-- A thread has this command pending, and the table is free. -/
def State.pends (s : State) (tid cmd : Nat) : Bool := (s.thr tid).bind.pending == cmd && s.tableFree

/-- The slot that BINDSEL names. -/
def BindCsrs.sel (b : BindCsrs) : Nat := 8 * b.core.toNat + b.slot.toNat

/-- The last command of a thread is over. -/
def State.bindOver (s : State) (tid : Nat) (err : Bool) : State :=
  s.modThr tid fun t => { t with bind := { t.bind with busy := false, err := err, pending := 0 } }

/-- A record as it is stored: reserved bits are zero. -/
def bindMask (w : Vector Word 5) : BindRec :=
  ⟨#[w[0] &&& 0x7FFFFFFFFFF#64, w[1] &&& 0x7FFFFFFFFFFFFF#64, w[2] &&& 0x7FFFFFFFFFFF#64, w[3] &&& 0x7FFFFFFFFFFF#64,
    w[4] &&& 0xFFFFFFFF#64], rfl⟩

/-- READ. -/
def State.bindRead (s : State) (tid : Nat) : State :=
  if !s.pends tid 1 then s
  else
    let b := (s.thr tid).bind
    if isCore b.core.toNat then
      (s.modThr tid fun t => { t with bind := { t.bind with words := s.bind b.sel } }).bindOver tid false
    else s.bindOver tid true

/-- A WRITE is refused unless the record is FREE and STATE is 1, or PARKED and STATE is 0 or 1; one that was given while the record was
FREE is refused if another has taken the record first (R375). -/
def State.writeOk (s : State) (b : BindCsrs) : Bool :=
  let old := (s.bind b.sel).st
  let new := b.words[0].field 0 2
  isCore b.core.toNat && ((old == 0 && new == 1) || (old == 1 && !b.sawFree && decide (new ≤ 1)))

/-- The record is stored; with STATE 1 its core holds the record's key, with STATE 0 its slot is UNBOUND, and a core with no record left
holds no key (R200, R423). -/
def State.bindStore (s : State) (tid : Nat) : State :=
  let b := (s.thr tid).bind
  let r := bindMask b.words
  let s := { s with binds := s.binds.set b.sel r }
  let s := if r.st = 1 then
      s.modCore b.core.toNat fun k => { k with key := some (BitVec.ofNat 32 (r[4].field 0 32)), lastGang := some r.gang }
    else
      let s := s.modThr b.sel fun t => { t with slot := .unbound }
      if (countFrom (8 * b.core.toNat) 8).all fun i => (s.bind i).st == 0 then s.modCore b.core.toNat fun k => { k with key := none } else s
  s.bindOver tid false

/-- WRITE: a record of a new gang zeroes its core first, and BUSY stays until that is done (R421). -/
def State.bindWrite (s : State) (tid : Nat) : State :=
  if !s.pends tid 2 then s
  else
    let b := (s.thr tid).bind
    if !s.writeOk b then s.bindOver tid true
    else if b.words[0].field 0 2 = 1 ∧ (s.core b.core.toNat).lastGang ≠ some ((bindMask b.words).gang) then
      s.modThr tid fun t => { t with bind := { t.bind with pending := 5 } }
    else s.bindStore tid

/-- BIND_ZEROING_DONE. -/
def State.bindZeroed (s : State) (tid : Nat) : State :=
  let b := (s.thr tid).bind
  if b.pending = 5 then (s.zeroCore b.core.toNat).bindStore tid else s

/-- A launch record that names nothing: what a gang has that only raw commands of the slot table bound. -/
def LaunchRec.bare (team : Nat) : LaunchRec where
  strict := false
  bridge := false
  tabor := false
  prio := 0
  team := team
  spmin := 1
  spmax := 1
  gmin := 1
  gmax := 1
  textBase := 0
  textLen := 0
  entry := 0
  seed := 0
  waitLim := 0
  arenaBase := 0
  arenaLimit := 0
  inboxSize := 0
  inboxBase := 0
  wakeq := none
  barn := []
  partner := 0
  leases := []
  argAddr := 0
  argN := 0
  patch := []

/-- The task of a gang that only raw commands bound: it has no packet (queue 64). -/
def Task.bare (b : BindRec) (now : Nat) : Task where
  qif := b.qif
  queue := 64
  index := 0
  tag := 0
  crec := false
  irq := false
  pasid := BitVec.ofNat 20 b.pasid
  tenant := b.tenant
  launch := LaunchRec.bare b.team
  cword := 0
  cval := 0
  state := .waiting
  fresh := true
  cores := []
  key := BitVec.ofNat 32 (b[4].field 0 32)
  bars := []
  sstep := 0
  sstepBase := 0
  level := b[0].field 9 3
  waitSince := now
  boundSince := now
  rises := 0
  forTask := none
  doneCount := 0
  arrivals := Arrivals.init now 0
  debugReq := false
  capture := none
  migr := none
  saveBase := b.save
  savedCores := []
  paused := []
  pinning := false
  debugHeld := false
  collCounts := []

/-- A PARKED record is released: its thread starts fresh at PC, or from its image with the deferred traps kept beside it (R376); the identity
entries, and a fresh thread's address space, are the record's. Its core holds the record's key (R200) and the SPMIN and SPMAX of the launch (R207);
BOUND restarts at SPMAX after a restore (R208), and at a first bind (log entry 101). -/
def State.release1 (s : State) (t : Task) (tid : Nat) (more : List Deferred) : State :=
  let b := s.bind tid
  let key := BitVec.ofNat 32 (b[4].field 0 32)
  let t := { t with qif := b.qif, pasid := BitVec.ofNat 20 b.pasid, tenant := b.tenant }
  let thr := if b.fresh then s.freshThread t b.grank b.tidx b[2] key else s.savedThread b.save key more
  let s := s.identityEntries t (coreOf tid) b.grank b.gsize b.team
  let s := s.modCore (coreOf tid) fun k =>
    { k with cstate := .c0, key := some key, spmin := t.launch.spmin, spmax := t.launch.spmax, bound := t.launch.spmax }
  let s := { s with binds := s.binds.set tid (b.setSt 2) }.setThr tid thr
  if b.fresh then s else s.restoreRegs tid (keyOf 0 b.save)

/-- The team image of a rank that a gang stop saved is put back on the core of its record: what no window reaches, and the commands that were
paused (R282, R376, R472, R475). -/
def State.regain (s : State) (b : BindRec) (c : Nat) (h : Paused) : State :=
  (s.restoreTeam c b.block (BitVec.ofNat 32 (b[4].field 0 32)) h.colls).modCore c fun k => { k with link := { k.link with down := false } }

/-- GO: every PARKED record of the gang becomes RELEASED in one step. -/
def State.bindGo (s : State) (tid : Nat) : State :=
  if !s.pends tid 3 then s
  else
    let b := (s.thr tid).bind
    if !isCore b.core.toNat then s.bindOver tid true
    else
      let g := b.words[1].field 0 32
      let s := s.bindOver tid false
      let parked := (s.recordsOf g).filter fun i => (s.bind i).st == 1
      match parked with
      | [] => s
      | i :: _ =>
        let t := match s.tasks.find g with | some t => t | none => Task.bare (s.bind i) s.time
        let cores := (countFrom 0 (s.bind i).gsize).map fun r =>
          ((parked.find? fun j => (s.bind j).grank == r).map coreOf).getD noCore
        let t := { t with
          state := .bound, cores := cores, boundSince := s.time,
          bars := if t.fresh then firstBars parked.length t.launch.barn else t.bars.map (fun (b : Barrier) => b.resumed s.time), fresh := false, forTask := none }
        let held := t.paused
        let s := { s with tasks := s.tasks.set g { t with paused := [], savedCores := [] } }
        let back := parked.filterMap fun j => (held.find (s.bind j).grank).map fun h => (j, h)
        let s := s.over back fun s p => s.regain (s.bind p.1) (coreOf p.1) p.2
        let s := s.over back fun s p => s.credit (coreOf p.1)
        let s := s.over parked fun s j =>
          s.release1 t j (match held.find (s.bind j).grank with | some h => h.deferred.get [] (s.bind j).tidx | none => [])
        s.imageTraps g (parked.filter fun j => !(s.bind j).fresh)

/-- STOP: a gang stop of the gang, where a record of it is RELEASED; one that a debug stop holds stays held (R320, R375). -/
def State.bindStop (s : State) (tid : Nat) : State :=
  if !s.pends tid 4 then s
  else
    let b := (s.thr tid).bind
    let g := b.words[1].field 0 32
    let s' := s.bindOver tid false
    if !isCore b.core.toNat then s.bindOver tid true
    else if !((s.gangThreads g).any fun i => (s.bind i).st == 2) then s'
    else
      (s'.stopGang g).modTask g fun t => { t with debugHeld := t.debugHeld || (match s.tasks.find g with | some u => u.state == .debugStopped | none => false) }

/-! ## Power gates of one domain (R347) -/

/-- The cores of a logic domain. -/
def domainCores (d : Nat) : List Nat := (islandCores false).filter fun c => logicDomain c == d

/-- A domain of cores is gated: its cores hold nothing (C3). -/
def State.gateDomain (s : State) (d : Nat) : State :=
  let cs := domainCores d
  let s := s.setDomain d { s.domain d with powered := false }
  s.over cs fun s c => (s.zeroCore c).modCore c fun k => { k with cstate := .c3, lastGang := none }

/-- DOMAIN_POWER_GATE: gangs with a team on the domain are stopped first, one in a debug stop too; the domain is gated once none has. A
gang that is stopping or migrates leaves its cores by itself. A request for a domain that holds a service core changes nothing: R347 names no
exception for it and does not say what it does (DESIGN CHOICE, log entry 128). -/
def State.powerGate (s : State) (d : Nat) : State :=
  let cs := domainCores d
  if cs.isEmpty || cs.any s.isService || !(s.domain d).powered then s
  else
    let gangs := (s.tasks.filter fun p => p.2.cores.any cs.contains).map Prod.fst
    if gangs.isEmpty then s.gateDomain d
    else s.over gangs fun s g =>
      match s.tasks.find g with
      | some t =>
        if t.state = .bound then s.stopGang g
        else if t.state = .debugStopped then (s.stopGang g).modTask g fun t => { t with debugHeld := true }
        else s
      | none => s

/-! ## The Ladle (R388 to R391) -/

/-- The first failing address and code of a migration's failure: ENGINE_ERROR for an uncorrectable word, else ENGINE_FAULT. -/
def ladleCode (cause : Nat) : Nat := if cause = Cause.dataError then Cause.engineError else Cause.engineFault

/-- The Ladle has failed: STATUSW takes the cause where it can be written, the task ends (R391). -/
def State.ladleFails (s : State) (g : Nat) (m : Migration) (cause : Nat) (addr : Word) (status : Bool) : State :=
  (s.dropJob (0x2000 + g)).endTaskWith g Status.taskTrap (ladleCode cause) addr
    (if status && m.statusw != 0 then [(m.statusw, BitVec.ofNat 64 (cause + 0x100), false)] else [])

/-- What a failed access of the Ladle leads to; what it has written so far stays. -/
def State.ladleFault (s : State) (g : Nat) (t : Task) (m : Migration) (acc : Acc) (f : AFault) : State :=
  match s.fwFailed (t.job g) acc f with
  | .later s => s
  | .fail s c a => s.ladleFails g m c a true

/-- The bytes of a slot of the context image besides LM, tiles, scales and accumulators (Table 16-8). -/
def State.slotWords (s : State) (c : Nat) : List Byte × List Byte :=
  let k := s.core c
  let w (n : Nat) : Word := BitVec.ofNat 64 n
  (wordBytesOf ((k.mx.tdesc.toList.map fun d => w d.toNat) ++ (k.mx.tscl.toList.map fun d => w d.toNat) ++
      (k.mx.accd.toList.map fun d => w d.toNat) ++ [w k.mx.mxstat.toNat]),
    wordBytesOf [w (s.winWord c 0x150000), w (s.winWord c 0x150008), w (s.winWord c 0x150010), w k.inboxCount])

/-- Step 1 for one rank: its slot is written, read through the window. -/
def State.writeSlot (s : State) (q p c at_ : Nat) : FwRun :=
  let top := touchedTop (s.core c).touched
  let other := s.slotWords c
  (s.fwZero q p at_ 0x80000).next fun s =>
  (s.fwOut true q p (winKey c 0x800) (at_ + 0x800) (top - 0x800)).next fun s =>
  (s.fwOut true q p (winKey c 0x100000) (at_ + 0x40000) 0x11000).next fun s =>
  (s.fwOut true q p (winKey c 0x120000) (at_ + 0x51000) 0x2000).next fun s =>
  (fwTry s (s.fwStoreR q p (BitVec.ofNat 64 (at_ + 0x53000)) other.1 16)).next fun s =>
  fwTry s (s.fwStoreR q p (BitVec.ofNat 64 (at_ + 0x53200)) other.2 16)

/-- Step 1 for all ranks. -/
def State.writeSlots (s : State) (q p : Nat) : List (Nat × Nat) → Nat → FwRun
  | [], _ => (s, none)
  | (c, r) :: l, base => (s.writeSlot q p c (base + 0x80000 * r)).next fun s => s.writeSlots q p l base

/-- Step 2: COPY entries go from the island store to LPDDR6. -/
def State.copyKvs (s : State) (q p : Nat) : List (Word × Word × Nat × Bool) → FwRun
  | [] => (s, none)
  | e :: r =>
    if e.2.2.2 then
      (s.fwOut false q p (storeKey (winOff e.1.toNat - 0x400000)) e.2.1.toNat e.2.2.1).next fun s => s.copyKvs q p r
    else s.copyKvs q p r

/-- Leases that the entries without COPY add. -/
def Migration.leases (m : Migration) : List (Nat × Nat) := (m.kv.filter fun e => !e.2.2.2).map fun e => (e.1.toNat, e.2.2.1)

/-- Pages of ranges that need not begin at a page. -/
def coverPages (l : List (Nat × Nat)) : List Nat :=
  pagesOf (l.map fun r => (r.1 / 2 ^ 14 * 2 ^ 14, alignUp (r.1 % 2 ^ 14 + r.2) (2 ^ 14)))

/-- The image words of a thread's bad registers are bad, at a tenant's address (Table 22-4). -/
def State.fwKeepBad (s : State) (q p va : Nat) (regs : List Nat) : FwRun :=
  if regs.isEmpty then (s, none)
  else s.fwParts q p .write (fun s k _ _ => .ok { s with bad := s.bad ++ regs.map fun n => k / 8 + n }) [(va, 2048)] 0

/-- Steps 1 and 2: the context is written, the copies are made. -/
def State.ladleWrite (s : State) (t : Task) (m : Migration) : FwRun :=
  let q := t.qif
  let p := t.pasid.toNat
  let base := m.image.toNat
  let tail := base + 0x80000 * t.cores.length
  (s.writeSlots q p (t.cores.zip (countFrom 0 t.cores.length)) base).next fun s =>
  (fwTry s (s.fwStoreR q p (BitVec.ofNat 64 tail) (wordBytesOf (threadImage (s.thr m.control) false)) 16)).next fun s =>
  (s.fwKeepBad q p tail (badRegs s.bad m.control)).next fun s =>
  s.copyKvs q p m.kv

/-- Steps 3 and 4 after the leases are resident: the source cores are free, and a wake of the Cupola quadrants begins that the
destination waits for. -/
def State.ladleRelease (s : State) (g : Nat) (t : Task) (m : Migration) : State :=
  let counts : SMap Nat := (countFrom 0 t.cores.length).zip (t.cores.map fun c => (s.core c).collCount)
  let s := s.over t.held State.freeCore
  let l := { t.launch with leases := t.launch.leases ++ m.leases }
  let down := (quadsOf m.quadMask).filter fun k => !(s.quad k).isOn
  let wakes := !m.tabor && !down.isEmpty
  let m' := { m with wake := if wakes then some s.power.nextWake else none }
  let s := s.modTask g fun t => { t with savedCores := t.cores, cores := [], launch := l, collCounts := counts, migr := some m' }
  if wakes then s.wakeRequest (down.foldl (fun a k => a + 2 ^ k) 0) none else s

/-- Steps 1 to 4. A fault leaves the images that are written where they are (R391). -/
def State.ladleSave (s : State) (g : Nat) (t : Task) (m : Migration) : State :=
  match s.ladleWrite t m with
  | (s, some f) => s.ladleFault g t m .write f
  | (s, none) =>
    match s.pagesIn t.qif t.pasid.toNat (pagesOf t.launch.leases ++ coverPages m.leases) with
    | .error (_, f) => s.ladleFault g t m .read f
    | .ok s => (s.dropJob (0x2000 + g)).ladleRelease g t m

/-- Step 5 for one rank below both widths: its slot is restored, and its steps up to the highest that holds data count as
restored, so as touched (R208; log entry 66). -/
def State.readSlot (s : State) (q p c at_ spmax : Nat) : FwRun :=
  (s.fwIn q p (at_ + 0x800) (winKey c 0x800) (spmax * 2 ^ 14 - 0x800)).next fun s =>
  (s.fwIn q p (at_ + 0x40000) (winKey c 0x100000) 0x11000).next fun s =>
  (s.fwIn q p (at_ + 0x51000) (winKey c 0x120000) 0x2000).next fun s =>
        match s.fwLoadR q p (BitVec.ofNat 64 (at_ + 0x53000)) 0x218 16 with
        | .error f => (s, some f)
        | .ok (s, bs) =>
          let n (o : Nat) : Nat := ofBytes ((bs.drop o).take 8)
          let steps := (countFrom 0 16).filter fun i => decide (s.mem.longNum (winKey c (i * 2 ^ 14)) (2 ^ 14) ≠ 0)
          (s.modCore c fun k => { k with
            touched := BitVec.ofNat 16 (2 ^ steps.foldl (fun a i => max a (i + 1)) 0 - 1)
            mx := ⟨Vector.ofFn fun i => BitVec.ofNat 23 (n (8 * i.val)), Vector.ofFn fun i => BitVec.ofNat 32 (n (128 + 8 * i.val)),
              Vector.ofFn fun i => BitVec.ofNat 3 (n (256 + 8 * i.val)), BitVec.ofNat 6 (n 320) &&& 0x3D#6, []⟩
            inboxSize := n 0x200 % 2 ^ 13
            inboxBase := bits (n 0x200) 16 12
            inboxHead := BitVec.ofNat 16 (n 0x208)
            inboxTail := BitVec.ofNat 16 (n 0x210) }, none)

/-- Step 5 for all ranks below both widths. -/
def State.readSlots (s : State) (q p base spmax : Nat) : List (Nat × Nat) → FwRun
  | [] => (s, none)
  | (c, r) :: l => (s.readSlot q p c (base + 0x80000 * r) spmax).next fun s => s.readSlots q p base spmax l

/-- Steps 5 to 8: the destination gang is bound, its threads start at ENTRY, rank 0's first thread with the control thread's state. -/
def State.ladleBind (s : State) (g : Nat) (t : Task) (m : Migration) (cores : List Nat) : State :=
  let q := t.qif
  let p := t.pasid.toNat
  let w := cores.length
  let base := m.image.toNat
  let old := t.savedCores.length
  let pc := t.launch.textBase + m.entry
  let l := { t.launch with team := m.team, spmin := m.spmin, spmax := m.spmax }
  let t' := { t with launch := l, state := .bound, cores := cores, savedCores := [], sstepBase := t.sstepBase + t.sstep, sstep := 0,
                     bars := firstBars (w * m.team) l.barn, boundSince := s.time, arrivals := Arrivals.init s.time 0, migr := none,
                     collCounts := [] }
  let s' := (s.over cores State.clearRecords).over cores fun s c =>
    let s := (((s.zeroCore c).modCore c fun k => { k with lastGang := some g }).openCore t' c m.spmin m.spmax).openInbox l c
    -- collectives count since launch (R287): every rank goes on where the gang stood
    s.modCore c fun k => { k with collCount := (t.collCounts.map (·.2)).foldl max 0 }
  match s'.readSlots q p base m.spmax ((cores.zip (countFrom 0 w)).take old) with
  | (_, some f) => s.ladleFault g t m .read f
  | (s', none) =>
    match s'.fwLoadR q p m.args (8 * m.argn) 16 with
    | .error f => s.ladleFault g t m .read f
    | .ok (s', image) =>
      match s'.fwKey q p .read (BitVec.ofNat 64 (base + 0x80000 * old)) 2048 16 with
      | .error f => s.ladleFault g t m .read f
      | .ok (s', key) =>
        let words := s'.wordsAt key 256
        let s' := s'.over (cores.zip (countFrom 0 w)) fun s c =>
          (((s.freshTeamBars c.1).broadcast c.1 image).identityEntries t' c.1 c.2 w m.team).startTeam t' g c.1 c.2 w m.team pc
        let first := 8 * cores.getD 0 0
        let s' := (s'.modThr first fun f =>
          let c := threadOfImage words t'.key []
          { c with pc := recordPc pc, sense := 0, apbHandle := 0, status := { c.status with apb := false }, space := f.space }).restoreRegs first key
        let s' := ({ s' with tasks := s'.tasks.set g t' }).dropJob (0x2000 + g)
        let s' := (s'.trapBadImage first (key + 0x540) 0x1E0).getD s'
        if m.statusw = 0 then s'
        else
          match s'.fwStoreR q p m.statusw (bytesOf 8 1) 16 with
          | .ok s' => s'
          | .error f =>
            (match s'.fwFailed (t'.job g) .write f with
            | .later _ =>
              (match s.fwFailed (t.job g) .write f with | .later s => s | .fail s c a => s.ladleFails g m c a false)
            | .fail s' c a => s'.ladleFails g m c a false)

/-- LADLE_MIGRATION: the sources are saved first; the destination is bound once the wake of step 4 is complete and its cores are free. -/
def State.ladle (s : State) (g : Nat) (cores : List Nat) : State :=
  match s.tasks.find g with
  | none => s
  | some t =>
    match t.state, t.migr with
    | .migrating, some m =>
      if !t.cores.isEmpty then s.ladleSave g t m
      else if m.wake.any fun id => s.power.wakes.any fun w => w.id == id then s
      else if s.mayBind g t && s.fits t && s.coresOk t cores then s.ladleBind g t m cores
      else s
    | _, _ => s

/-! ## The events -/

/-- BINDCMD_READ: copies the selected bind record into BINDD0-BINDD4 (R375). -/
def execEvBindcmdRead (tid : Nat) (s : State) : Out := .next (s.bindRead tid)

/-- BINDCMD_WRITE: stores BINDD0-BINDD4 into the selected bind record, zeroing state for a new gang (R375). -/
def execEvBindcmdWrite (tid : Nat) (s : State) : Out := .next (s.bindWrite tid)

/-- BIND_ZEROING_DONE: the zeroing of a core for a new gang completes and BUSY clears (R421). -/
def execEvBindZeroingDone (tid : Nat) (s : State) : Out := .next (s.bindZeroed tid)

/-- BINDCMD_GO: releases every parked record of a gang and starts its threads (R376). -/
def execEvBindcmdGo (tid : Nat) (s : State) : Out := .next (s.bindGo tid)

/-- BINDCMD_STOP: broadcasts a gang stop to every released record of a gang (R375). -/
def execEvBindcmdStop (tid : Nat) (s : State) : Out := .next (s.bindStop tid)

/-- THREAD_STOP: A thread stops at its next instruction boundary after the stop broadcast (R321). -/
def execEvThreadStop (tid : Nat) (s : State) : Out := .next (s.threadStop tid)

/-- GANG_STOP_SAVE_COMPLETE: the gang's images are saved and its records become PARKED (R321). -/
def execEvGangStopSaveComplete (gid : Nat) (s : State) : Out := .next (s.stopComplete gid)

/-- TASK_BIND: service firmware binds a waiting task when cores, barriers and pins fit (R370). -/
def execEvTaskBind (gid : Nat) (cores : List Nat) (s : State) : Out := .next (s.taskBind gid cores)

/-- PRIORITY_AGING: A waiting task rises one level every 10 ms, up to level 1 (R371). -/
def execEvPriorityAging (gid : Nat) (s : State) : Out := .next (s.age gid)

/-- QUANTUM_PREEMPT: A gang that has run its quantum is pre-empted for a waiting task (R372). -/
def execEvQuantumPreempt (gid : Nat) (waiting : Nat) (s : State) : Out := .next (s.preempt gid waiting)

/-- LADLE_MIGRATION: after commitment the Ladle saves, copies, binds and starts the destination gang (R390). -/
def execEvLadleMigration (gid : Nat) (cores : List Nat) (s : State) : Out := .next (s.ladle gid cores)

/-- DOMAIN_POWER_GATE: bellows requests that a single voltage domain holding cores of a bound gang be power-gated, which is carried out through a gang stop before the domain is gated (R347). -/
def execEvDomainPowerGate (d : Nat) (s : State) : Out := .next (s.powerGate d)

end Sys2Proof.Machine
end

