-- ==== Sys2Proof/Machine/Packets.lean ====
section
/-!
DEFINITION. Packets (spec/15, R355 to R369, R513, R514; spec/19, R439): how a queue's next packet is read, checked and started, what
each type does and how it completes; captures (spec/22, R494, R495, R499).
-/
namespace Sys2Proof.Machine

/-! ## A packet's fields (Tables 15-1, 15-2) -/

/-- Number in `n` bytes of a packet or record. -/
def pk (b : List Byte) (o n : Nat) : Nat := recNum b o n

/-- TYPE. -/
def pkType (b : List Byte) : Nat := pk b 0 1
/-- PASID. -/
def pkPasid (b : List Byte) : Nat := bits (pk b 0 8) 16 20
/-- TAG. -/
def pkTag (b : List Byte) : Nat := pk b 6 2
/-- CREC. -/
def pkCrec (b : List Byte) : Bool := bit (pk b 1 1) 1
/-- IRQ. -/
def pkIrq (b : List Byte) : Bool := bit (pk b 1 1) 2
/-- HOLD. -/
def pkHold (b : List Byte) : Bool := bit (pk b 1 1) 3
/-- A TYPE of Table 15-2. -/
def pkListed (b : List Byte) : Bool := decide (1 ≤ pkType b) && decide (pkType b ≤ 6)
/-- The packet waits for every earlier one (R355). -/
def pkBar (b : List Byte) : Bool := bit (pk b 1 1) 0 || pkType b == 2 || (decide (4 ≤ pkType b) && decide (pkType b ≤ 6))
/-- The word address of a SIGNAL, WAITQ or CONTROL, the launch record's or a buffer's. -/
def pkAddr (b : List Byte) : Word := BitVec.ofNat 64 (pk b 8 8)

/-- Bytes [o, o + n) are zero. -/
def zeroAt (b : List Byte) (o n : Nat) : Bool := ((b.drop o).take n).all (· == 0)

/-- TARGET0 to TARGET7 of a CONTROL, ring indices all (Table 15-2). -/
def pkTargets (b : List Byte) : List Nat := (countFrom 0 8).map fun i => pk b (32 + 2 * i) 2

/-- The header's reserved bits are zero. -/
def headOk (b : List Byte) : Bool := bits (pk b 0 8) 12 4 == 0 && bits (pk b 0 8) 36 12 == 0

/-- The body's fields are within the values of their row (R357). -/
def bodyOk (b : List Byte) : Bool :=
  match pkType b with
  | 1 => pk b 8 8 % 64 == 0 && pk b 16 8 % 8 == 0 && decide (pk b 24 4 ≤ 240) && zeroAt b 28 4 && pk b 32 8 % 8 == 0 && zeroAt b 48 16
  | 2 => pk b 8 8 % 8 == 0 && decide (pk b 24 1 ≤ 1) && zeroAt b 25 39
  | 3 => pk b 8 8 % 8 == 0 && decide (pk b 24 1 ≤ 2) && zeroAt b 25 7 && decide (pk b 32 8 < 2 ^ 48) && zeroAt b 40 24
  | 4 => pk b 8 8 % 8 == 0 && decide (pk b 16 1 ≤ 2) && zeroAt b 18 6 && zeroAt b 48 16
  | 5 => zeroAt b 25 7 && zeroAt b 32 32
  | 6 => zeroAt b 8 56
  | _ => false

/-- The N and TARGET checks of a CONTROL (R360). -/
def controlOk (b : List Byte) (size : Nat) : Bool :=
  (pk b 16 1 != 2 || (decide (1 ≤ pk b 17 1) && decide (pk b 17 1 ≤ 8))) && (pkTargets b).all fun t => t < size

/-! ## A queue as its packets move it -/

/-- Change a queue's model state. -/
def State.modQueue (s : State) (q n : Nat) (f : Queue → Queue) : State := s.setQueue q n (f (s.queue q n))

/-- Packets of a queue's ring. -/
def State.ringSize (s : State) (q n : Nat) : Nat := 2 ^ (s.reg (qdesc q n + 8) % 16)

/-- Distance of an index from HEAD. -/
def State.ahead (s : State) (q n i : Nat) : Nat := (i + 2 ^ 16 - s.reg (qdesc q n + 0x10)) % 2 ^ 16

/-- A queue stops, and the error vector is raised. -/
def State.haltQueue (s : State) (q n code : Nat) : State := (s.stopQueue q n code).raiseErr q

/-- The marker under which the read of a ring slot waits. -/
def slotMarker (q n : Nat) : Nat := 0x1000 + 64 * q + n

/-- The marker under which a packet's accesses wait. -/
def packetMarker (q n i : Nat) : Nat := 2 ^ 40 + (64 * q + n) * 2 ^ 16 + i % 2 ^ 16

/-- A packet's work, as firmware's accesses name it. -/
def packetJob (q n i : Nat) (b : List Byte) : FwJob := ⟨packetMarker q n i, q, pkPasid b, (n, i, pkTag b)⟩

/-- A packet of a queue waits no more. -/
def State.unwatch (s : State) (q n i : Nat) : State :=
  (s.modQueue q n fun v => { v with watch := v.watch.filter fun w => w.index != i }).dropJob (packetMarker q n i)

/-- A packet completes; `crec` and `irq` decide its record, a status that stops the queue does so. -/
def State.packetEnd (s : State) (q n i : Nat) (b : List Byte) (crec irq : Bool) (status : Nat) (value : Word) (stop : Bool) : State :=
  let s := (s.unwatch q n i).completePacket q n i (pkTag b) crec irq status 0 value
  if stop then s.haltQueue q n status else s

/-- A packet completes with its own CREC and IRQ. -/
def State.packetDone (s : State) (q n i : Nat) (b : List Byte) (status : Nat) (value : Word) (stop : Bool) : State :=
  s.packetEnd q n i b (pkCrec b) (pkIrq b) status value stop

/-- BAD_PACKET: the queue stops. -/
def State.packetBad (s : State) (q n i : Nat) (b : List Byte) : State := s.packetDone q n i b Status.badPacket 0 true

/-- ARG_FAULT: the record is written whatever CREC holds (R514). -/
def State.packetArg (s : State) (q n i : Nat) (b : List Byte) (addr : Word) (stop : Bool) : State :=
  s.packetEnd q n i b true (pkIrq b) Status.argFault addr stop

/-- A started packet waits. -/
def State.waits (s : State) (q n : Nat) (w : Watch) : State :=
  s.modQueue q n fun v => { v with watch := w :: v.watch.filter fun x => x.index != w.index }

/-- A started packet that is no LAUNCH waits. -/
def State.packetWaits (s : State) (q n i : Nat) (b : List Byte) (since : Nat) : State := s.waits q n ⟨i, b, since, 0, []⟩

/-! ## Reading the ring (R513) -/

/-- The key of a packet's slot, resolving what firmware can. -/
def State.slotKey (s : State) (q ia : Nat) : Nat → Except AFault (State × Nat)
  | 0 => .error (.trap Cause.access (BitVec.ofNat 64 ia))
  | k + 1 =>
    match s.ringKey q ia .read with
    | .ok (key, m) => .ok (s.ringUsed key m, key)
    | .error f =>
      match s.fwResolve f with
      | some s => s.slotKey q ia k
      | none => .error f

/-- The 64 bytes of a packet. -/
def State.readSlotBytes (s : State) (q n i : Nat) : Except AFault (State × List Byte) :=
  let ia := s.reg (qdesc q n) + 64 * (i % s.ringSize q n)
  match s.slotKey q ia 16 with
  | .error f => .error f
  | .ok (s, k) =>
    match badIn s.bad k 64 with
    | some w => .error (.poison w (BitVec.ofNat 64 (ia + (w - k))))
    | none => .ok (s, s.mem.getBytes k 64)

/-- A slot that cannot be read: waited for, or the queue stops with HEAD at the packet. -/
def State.slotFailed (s : State) (q n i : Nat) (f : AFault) : State :=
  match s.fwFailed ⟨slotMarker q n, q, 0, (n, i, 0)⟩ .read f with
  | .later s => s
  | .fail s _ _ => (s.dropJob (slotMarker q n)).haltQueue q n Status.badPacket

/-! ## Forward jumps (R360) -/

/-- Packets passed over by a forward jump complete as they are notified, their bodies unread. -/
def State.skipOver (s : State) (q n : Nat) : Nat → State
  | 0 => s
  | k + 1 =>
    let v := s.queue q n
    match v.skipTo with
    | none => s
    | some t =>
      if v.next = t then s.modQueue q n fun v => { v with skipTo := none }
      else if v.next = s.reg (qdesc q n + 0x18) ∨ s.queueOn q n = false then s
      else
        match s.readSlotBytes q n v.next with
        | .error f => s.slotFailed q n v.next f
        | .ok (s, b) =>
          let s := s.modQueue q n fun v => { v with next := (v.next + 1) % 2 ^ 16 }
          (s.completePacket q n v.next (pkTag b) (pkCrec b) (pkIrq b) Status.skipped 0 0).skipOver q n k

/-- Everything that a jump passes over and that has been notified. -/
def State.settleSkip (s : State) (q n : Nat) : State := s.skipOver q n 65536

/-! ## SIGNAL, WAITQ (R358, R514) -/

/-- Read a word for a packet. -/
def State.packetWord (s : State) (q : Nat) (b : List Byte) : Except AFault (State × Nat) :=
  match s.fwLoadR q (pkPasid b) (pkAddr b) 8 16 with
  | .error f => .error f
  | .ok (s, bs) => .ok (s, ofBytes bs)

/-- The place of a SIGNAL's word: writable, and its word good. -/
def State.signalAt (s : State) (q : Nat) (b : List Byte) : Nat → Except AFault (State × Admitted)
  | 0 => .error (.trap Cause.access (pkAddr b))
  | k + 1 =>
    let w := s.fwWho q (pkPasid b)
    match s.check w ⟨if pk b 24 1 = 1 then .rw else .write, 8, pk b 24 1 == 1, false⟩ (pkAddr b) 8 with
    | .ok ad =>
      (match s.badSpan false ad.spans with
      | some (key, a) => .error (.poison key a)
      | none => .ok (s.admitAccess w ad, ad))
    | .error f =>
      match s.fwResolve f with
      | some s => s.signalAt q b k
      | none => .error f

/-- SIGNAL: a store or an atomic add, as a release at .SY. -/
def State.signal (s : State) (q n i : Nat) (b : List Byte) (since : Nat) : State :=
  match s.signalAt q b 16 with
  | .error f =>
    (match s.fwFailed (packetJob q n i b) .write f with
    | .later s => s.packetWaits q n i b since
    | .fail s _ _ => s.packetArg q n i b (pkAddr b) false)
  | .ok (s, ad) =>
    let v := pk b 16 8 + (if pk b 24 1 = 1 then ofBytes (s.bytesAt ad.spans) else 0)
    (s.writeSpans (fun s _ _ => s) 0 false ad.spans (bytesOf 8 v)).packetDone q n i b Status.ok 0 false

/-- COND of a WAITQ holds for a word. -/
def waitqHolds (b : List Byte) (w : Nat) : Bool :=
  let v := pk b 16 8
  match pk b 24 1 with
  | 0 => w == v
  | 1 => decide (v ≤ w)
  | _ => w != v

/-- TIMEOUT of a WAITQ in ns. -/
def waitqTime (b : List Byte) : Nat := if pk b 32 8 = 0 then 1000000000 else pk b 32 8

/-- A WAITQ reads its word; with `decide_` it completes where COND holds. -/
def State.waitq (s : State) (q n i : Nat) (b : List Byte) (since : Nat) (decide_ : Bool) : State :=
  match s.packetWord q b with
  | .error f =>
    (match s.fwFailed (packetJob q n i b) .read f with
    | .later s => s.packetWaits q n i b since
    | .fail s _ _ => s.packetArg q n i b (pkAddr b) true)
  | .ok (s, w) =>
    if decide_ && waitqHolds b w then s.packetDone q n i b Status.ok 0 false
    else (s.dropJob (packetMarker q n i)).packetWaits q n i b since

/-- A WAITQ whose TIMEOUT has passed: its word is read once more; where COND does not hold it completes WAIT_TIMEOUT, and the queue
stops. -/
def State.waitqOver (s : State) (q n i : Nat) (b : List Byte) : State :=
  match s.packetWord q b with
  | .ok (s, w) =>
    if waitqHolds b w then s.packetDone q n i b Status.ok 0 false else s.packetDone q n i b Status.waitTimeout 0 true
  | .error f =>
    match s.fwFailed (packetJob q n i b) .read f with
    | .later _ => s.packetDone q n i b Status.waitTimeout 0 true
    | .fail s _ _ => s.packetArg q n i b (pkAddr b) true

/-! ## CONTROL (R360) -/

/-- The index a CONTROL chooses, none for the next one. -/
def controlTarget (b : List Byte) (w : Nat) : Option Nat :=
  match pk b 16 1 with
  | 0 => if w = 0 then some (pk b 32 2) else none
  | 1 => if w < pk b 24 8 then some (pk b 32 2) else none
  | _ => if w < pk b 17 1 then some (pk b (32 + 2 * w) 2) else none

/-- CONTROL: a TARGET whose packet stands in the open held region, at or before the CONTROL, is a backward jump: its packets run again.
A TARGET at a later ring index, or whose packet has been notified already, is a forward jump. Any other names an index that is no
longer held: BAD_PACKET (log entry 37). -/
def State.controlJump (s : State) (q n i : Nat) (b : List Byte) (t : Nat) : State :=
  let size := s.ringSize q n
  let ahead := (t + size - i % size) % size
  let back := (i + 2 ^ 16 - (i + 2 ^ 16 - t) % size) % 2 ^ 16
  let inside := match (s.queue q n).held.getLast? with
    | some h => decide (s.ahead q n h ≤ s.ahead q n back) && decide (s.ahead q n back ≤ s.ahead q n i)
    | none => false
  if inside then
    let s := s.packetDone q n i b Status.ok 0 false
    let span := (i + 2 ^ 16 - back) % 2 ^ 16
    s.modQueue q n fun v => { v with
      next := back, skipTo := none, finished := v.finished.filter fun x => !((x + 2 ^ 16 - back) % 2 ^ 16 ≤ span) }
  else if i % size < t ∨ (0 < ahead ∧ ahead < (s.reg (qdesc q n + 0x18) + 2 ^ 16 - i) % 2 ^ 16) then
    let s := s.packetDone q n i b Status.ok 0 false
    (s.modQueue q n fun v => { v with skipTo := some ((i + ahead) % 2 ^ 16) }).settleSkip q n
  else s.packetBad q n i b

/-- CONTROL reads its word once and decides. -/
def State.control (s : State) (q n i : Nat) (b : List Byte) (since : Nat) : State :=
  match s.packetWord q b with
  | .error f =>
    (match s.fwFailed (packetJob q n i b) .read f with
    | .later s => s.packetWaits q n i b since
    | .fail s _ _ => s.packetArg q n i b (pkAddr b) true)
  | .ok (s, w) =>
    match controlTarget b w with
    | some t => s.controlJump q n i b t
    | none =>
      let s := if pk b 16 1 = 1 then s.modQueue q n fun v => { v with held := v.held.drop 1 } else s
      s.packetDone q n i b Status.ok 0 false

/-! ## LAUNCH (R362 to R369) -/

/-- Ranges do not overlap and stay within a length. -/
def rangesOk (len : Nat) : List (Nat × Nat) → Bool
  | [] => true
  | r :: rest => decide (r.1 + r.2 ≤ len) && (rest.all fun x => x.2 == 0 || r.2 == 0 || decide (r.1 + r.2 ≤ x.1) || decide (x.1 + x.2 ≤ r.1)) &&
      rangesOk len rest

/-- The code-body header's ranges (R368). -/
def bodyRanges (h : List Byte) : List (Nat × Nat) :=
  [(0, 64), (pk h 0x10 8, pk h 0x18 8), (pk h 0x30 8, 8 * (pk h 0x38 4 + pk h 0x3C 4))] ++
    (if pk h 0x20 8 = 0 then [] else [(pk h 0x20 8, pk h 0x28 8)])

/-- The body was built for this device and holds text (R369). -/
def bodyRuns (h : List Byte) : Bool := pk h 0 8 == Config.deviceHash.toNat && pk h 0x18 8 != 0

/-- Check 10 on a header that was read: its ranges; of a body that runs, the text's place and length and ENTRY too (R368, R369). -/
def headerOk (h : List Byte) (entry : Nat) : Bool :=
  rangesOk (pk h 8 8) (bodyRanges h) &&
    (!bodyRuns h || (pk h 0x10 8 % 64 == 0 && pk h 0x18 8 % 4 == 0 && entry % 4 == 0 && decide (entry < pk h 0x18 8)))

/-- Leases of a launch record. -/
def recLeases (r : List Byte) : List (Nat × Nat) :=
  ((countFrom 0 8).map fun i => (pk r (0x80 + 16 * i) 8, pk r (0x88 + 16 * i) 8)).filter fun l => l.2 != 0

/-- The non-service cores of an island (Table 15-6). -/
def State.taskCores (s : State) (tabor : Bool) : Nat := ((islandCores tabor).filter fun c => !s.isService c).length

/-- A power of two from 4 to 4,096. -/
def inboxSizeOk (n : Nat) : Bool := [4, 8, 16, 32, 64, 128, 256, 512, 1024, 2048, 4096].contains n

/-- Checks 1 to 9 of Table 15-7 on a launch record: each SUB with whether it passes. -/
def State.recordChecks (s : State) (r : List Byte) : List (Nat × Bool) :=
  let n (o k : Nat) : Nat := pk r o k
  let team := n 6 1
  let gmin := n 0x0C 2
  let inbox := n 0x40 2
  let base := n 0x42 2
  [(1, n 0 2 == 1),
   (2, n 2 2 / 4 == 0 && n 0x0B 1 == 0 && bits (n 0x44 2) 9 6 == 0 && n 0x46 2 == 0 && n 0x56 2 == 0 && zeroAt r 0x60 32),
   (3, decide (n 4 1 ≤ 1) && decide (1 ≤ team) && decide (team ≤ 8) && decide (1 ≤ gmin) && decide (gmin ≤ s.taskCores (n 4 1 == 1)) &&
      decide (gmin ≤ n 0x0E 2) && decide (n 0x0E 2 ≤ 2048)),
   (4, decide (n 7 1 ≤ 16) && decide (n 8 1 ≤ 8)),
   (5, decide (1 ≤ n 9 1) && decide (n 9 1 ≤ 16) && decide (n 9 1 ≤ n 0x0A 1) && decide (n 0x0A 1 ≤ 16)),
   (6, inbox == 0 || (inboxSizeOk inbox && decide (32 ≤ base) && decide (base ≤ 4095) && decide (64 * (base + inbox) ≤ n 9 1 * 2 ^ 14))),
   (7, (countFrom 0 7).all fun i => decide (n (0x48 + 2 * i) 2 ≤ team * gmin)),
   (8, n 0x28 8 == 0 || (decide (1000 ≤ n 0x28 8) && decide (n 0x28 8 < 2 ^ 40))),
   (9, (n 0x30 8 == 0 && n 0x38 8 == 0) || (n 0x30 8 % 16 == 0 && n 0x38 8 % 16 == 0 && decide (n 0x30 8 ≤ n 0x38 8)))]

/-- Checks 11 to 14. -/
def State.recordLate (s : State) (q : Nat) (r : List Byte) : List (Nat × Bool) :=
  let wq := pk r 0x44 2
  let leases := recLeases r
  [(11, !bit wq 15 || s.qTenant (bits wq 6 3) == s.qTenant q),
   (12, leases.all fun l => l.1 % 2 ^ 14 == 0 && l.2 % 2 ^ 14 == 0 && decide (l.1 + l.2 ≤ winBase)),
   (13, decide ((leases.map fun l => l.2 / 2 ^ 14).foldl (· + ·) 0 ≤ s.pinQuota (s.qTenant q))),
   (14, !bit (pk r 2 2) 1 || s.bridgeUp)]

/-- The first check that fails. -/
def firstBad (l : List (Nat × Bool)) : Option Nat := (l.find? fun c => !c.2).map Prod.fst

/-- What a launch record and a header give a task (R362, R368). -/
def launchOf (r h : List Byte) (b : List Byte) (code prio : Nat) (patch : List Nat) : LaunchRec where
  strict := bit (pk r 2 2) 0
  bridge := bit (pk r 2 2) 1
  tabor := pk r 4 1 == 1
  prio := prio
  team := pk r 6 1
  spmin := pk r 9 1
  spmax := pk r 0x0A 1
  gmin := pk r 0x0C 2
  gmax := pk r 0x0E 2
  textBase := BitVec.ofNat 64 (code + pk h 0x10 8)
  textLen := pk h 0x18 8
  entry := BitVec.ofNat 64 (pk r 0x18 8)
  seed := BitVec.ofNat 64 (pk r 0x20 8)
  waitLim := pk r 0x28 8
  arenaBase := BitVec.ofNat 64 (pk r 0x30 8)
  arenaLimit := BitVec.ofNat 64 (pk r 0x38 8)
  inboxSize := pk r 0x40 2
  inboxBase := if pk r 0x40 2 = 0 then 0 else pk r 0x42 2
  wakeq := if bit (pk r 0x44 2) 15 then some (bits (pk r 0x44 2) 6 3, pk r 0x44 2 % 64) else none
  barn := (countFrom 0 7).map fun i => pk r (0x48 + 2 * i) 2
  partner := BitVec.ofNat 64 (pk r 0x58 8)
  leases := recLeases r
  argAddr := BitVec.ofNat 64 (pk b 16 8)
  argN := pk b 24 4
  patch := patch

/-- A gang identifier that no live gang has (R122). -/
def State.freshGang (s : State) : Nat → Nat → Nat
  | 0, g => g
  | k + 1, g => if g = 0 ∨ (s.tasks.find g).isSome then s.freshGang k ((g + 1) % 2 ^ 32) else g

/-- The level of a task: PRIO raised to the QIF's MINLEVEL (R370); a PRIO above 7 has no stated level (log entry 38). -/
def State.levelOf (s : State) (q prio : Nat) : Nat × State :=
  if prio ≤ 7 then (max prio (bits (s.reg (qcb q)) 16 3), s)
  else
    let (a, s) := s.drawFree
    (a.toNat % 8, s)

/-- The launch's task waits to bind, as gang `g`. -/
def State.queueTask (s : State) (q n i g : Nat) (b : List Byte) (l : LaunchRec) : State :=
  let t : Task := {
    qif := q, queue := n, index := i, tag := BitVec.ofNat 16 (pkTag b), crec := pkCrec b, irq := pkIrq b
    pasid := BitVec.ofNat 20 (pkPasid b), tenant := s.qTenant q, launch := l, cword := BitVec.ofNat 64 (pk b 32 8)
    cval := BitVec.ofNat 64 (pk b 40 8), state := .waiting, fresh := true, cores := [], key := 0, bars := [], sstep := 0
    sstepBase := 0, level := l.prio, waitSince := s.time, boundSince := s.time, rises := 0, forTask := none, doneCount := 0
    arrivals := Arrivals.init s.time 0, debugReq := false, capture := (s.queue q n).capture, migr := none, saveBase := 0
    savedCores := [], paused := [], pinning := false, debugHeld := false, collCounts := [] }
  { s with tasks := s.tasks.set g t }

/-- A LAUNCH ends at once with BAD_LAUNCH. -/
def State.launchBad (s : State) (q n i : Nat) (b : List Byte) (sub : Nat) (value : Word) : State :=
  (s.unwatch q n i).completePacket q n i (pkTag b) (pkCrec b) (pkIrq b) Status.badLaunch sub value

/-- What a LAUNCH holds between its reads: its start, its gang number, whether that is taken already, and the bytes read so far. -/
structure Launching where
  since : Nat
  gid : Nat
  taken : Bool
  read : List Byte
  deriving DecidableEq, Repr

/-- A LAUNCH that runs: what it holds where it has waited, or the next gang number, which it takes when it waits or queues its task. -/
def State.launching (s : State) (q n i since : Nat) : Launching :=
  match (s.queue q n).watch.find? fun w => w.index == i with
  | some w => ⟨w.since, if (s.tasks.find w.gid).isSome then s.freshGang 65536 s.nextGang else w.gid, true, w.read⟩
  | none => ⟨since, s.freshGang 65536 s.nextGang, false, []⟩

/-- The gang number is taken: later launches have later ones. -/
def State.takeGang (s : State) (l : Launching) : State := if l.taken then s else { s with nextGang := (l.gid + 1) % 2 ^ 32 }

/-- A read that a launch check makes: waited for, with what has been read so far, or the check fails with the failing address. -/
def State.launchFault (s : State) (q n i : Nat) (b : List Byte) (l : Launching) (sub : Nat) (f : AFault) : State :=
  match s.fwFailed (packetJob q n i b) .read f with
  | .later s => (s.takeGang l).waits q n ⟨i, b, l.since, l.gid, l.read⟩
  | .fail s _ a => s.launchBad q n i b sub a

/-- A read of the launch, or its bytes where it was made before a wait. -/
def State.launchRead (s : State) (q pasid : Nat) (va : Word) (n : Nat) (got : List Byte) : Except AFault (State × List Byte) :=
  if n ≤ got.length then .ok (s, got.take n) else s.fwLoadR q pasid va n 16

/-- Checks 11 to 15, the device hash (R369), then the task waits to bind. Whether the partner's ranges overlap comes from the partner
box: a free value (log entry 39). -/
def State.launchEnd (s : State) (q n i : Nat) (l : Launching) (b r h : List Byte) (patch : List Nat) : State :=
  match firstBad (s.recordLate q r) with
  | some sub => s.launchBad q n i b sub 0
  | none =>
    let (apart, s) := if bit (pk r 2 2) 1 then s.drawFree else (0, s)
    if apart.getLsbD 0 then s.launchBad q n i b 15 0
    else
      let s := s.unwatch q n i
      if bodyRuns h then
        let (lev, s) := s.levelOf q (pk r 5 1)
        (s.takeGang l).queueTask q n i l.gid b (launchOf r h b (pk r 0x10 8) lev patch)
      else s.completePacket q n i (pkTag b) (pkCrec b) (pkIrq b) Status.hashMismatch 0 0

/-- LAUNCH: the launch record and the header are read once and checked (R363); one that has waited goes on with what it has read. Table 15-7
names the readability of the header only: a patch table that cannot be read ends the packet with the header's SUB 10 too, the model's
choice (log entry 124). -/
def State.launch (s : State) (q n i : Nat) (b : List Byte) (since : Nat) : State :=
  let p := pkPasid b
  let l := s.launching q n i since
  match s.launchRead q p (pkAddr b) 256 l.read with
  | .error f => s.launchFault q n i b l 16 f
  | .ok (s, r) =>
    match firstBad (s.recordChecks r) with
    | some sub => s.launchBad q n i b sub 0
    | none =>
      if pk r 0x10 8 % 64 ≠ 0 then s.launchBad q n i b 10 0
      else
        match s.launchRead q p (BitVec.ofNat 64 (pk r 0x10 8)) 64 (l.read.drop 256) with
        | .error f => s.launchFault q n i b { l with read := r } 10 f
        | .ok (s, h) =>
          if headerOk h (pk r 0x18 8) = false then s.launchBad q n i b 10 0
          else if bodyRuns h = false then s.launchEnd q n i l b r h []
          else
            match s.fwLoadR q p (BitVec.ofNat 64 (pk r 0x10 8 + pk h 0x30 8)) (8 * pk h 0x38 4) 16 with
            | .error f => s.launchFault q n i b { l with read := r ++ h } 10 f
            | .ok (s, t) => s.launchEnd q n i l b r h ((countFrom 0 (pk h 0x38 4)).map fun k => pk t (8 * k) 8)

/-! ## Captures (R494, R495, R498, R499) -/

/-- The capture set of a CAPSTART. -/
def capSet (b : List Byte) : Nat := pk b 24 8

/-- A capture may open: none open on the queue, fewer than eight on the device, at most one with bit 5 or 6. -/
def State.captureOk (s : State) (q n : Nat) (b : List Byte) : Bool :=
  (s.queue q n).capture.isNone && decide (s.captures.length < 8) && capSet b / 256 == 0 &&
    !((bit (capSet b) 5 || bit (capSet b) 6) && s.captures.any fun p => bit p.2.set 5 || bit p.2.set 6)

/-- The RUDIMENT records of the log in a buffer, each as its slice and five words, and the bytes up to its END record or its end. -/
def readLog (buf : List Byte) : Nat → Nat → List (Nat × List Nat) × Nat
  | 0, o => ([], o)
  | k + 1, o =>
    let r := (buf.drop o).take 64
    if r.length < 64 ∨ pk r 0 1 = 0 ∨ pk r 1 1 = 0 then ([], o)
    else if pk r 0 1 = 7 then ([], o + 64)
    else
      let rest := readLog buf k (o + 64 * pk r 1 1)
      ((if pk r 0 1 = 6 then [(bits (pk r 0 4) 16 12, (countFrom 0 5).map fun k => pk r (24 + 8 * k) 8)] else []) ++ rest.1, rest.2)

/-- The words of a slice's last record that are entries: those up to the last that is not 0, and one at least; words of zeros fill a record
(log entry 40). -/
def lastEntries (l : List Nat) : List Nat :=
  match (l.reverse.dropWhile (· == 0)).reverse with
  | [] => l.take 1
  | l => l

/-- The entries of the records: slice, TAG, REQ, RUN. A slice writes five per record (R498), so every record of it but the last is full. -/
def logEntries : List (Nat × List Nat) → List (Nat × Nat × Nat × Nat)
  | [] => []
  | r :: l =>
    ((if l.any (fun x => x.1 == r.1) then r.2 else lastEntries r.2).map fun v => (r.1, v % 2 ^ 16, bits v 16 14, bits v 30 10 + 1)) ++ logEntries l

/-- CAPSTART: the buffer is pinned, the capture opens on its queue; with bit 6 the buffer is read as a log. One that has waited is held to the
limits of R494 again. -/
def State.capStart (s : State) (q n i : Nat) (b : List Byte) (since : Nat) : State :=
  let p := pkPasid b
  let size := pk b 16 8
  let pages := coverPages [(pk b 8 8, size)]
  if s.captureOk q n b = false then s.packetBad q n i b
  else if s.pinQuota (s.qTenant q) < s.pinned (s.qTenant q) + pages.length then s.packetDone q n i b Status.argFault (pkAddr b) false
  else
    match s.pagesIn q p pages with
    | .error (_, f) =>
      (match s.fwFailed (packetJob q n i b) .read f with
      | .later s => s.packetWaits q n i b since
      | .fail s _ a => s.packetDone q n i b Status.argFault a false)
    | .ok s =>
      match (if bit (capSet b) 6 then s.fwLoadR q p (pkAddr b) size 16 else .ok (s, [])) with
      | .error f =>
        (match s.fwFailed (packetJob q n i b) .read f with
        | .later s => s.packetWaits q n i b since
        | .fail s _ a => s.packetDone q n i b Status.argFault a false)
      | .ok (s, buf) =>
        let base := traceBase (pkAddr b)
        let log := if bit (capSet b) 6 then readLog buf (size / 64 + 1) base else ([], base)
        let id := ((countFrom 0 8).find? fun k => (s.captures.find k).isNone).getD 0
        let c : Capture := ⟨q, n, capSet b, BitVec.ofNat 20 p, pkAddr b, size, log.2, 0, [], logEntries log.1, false, []⟩
        let s := { s with captures := s.captures.set id c }
        (s.modQueue q n fun v => { v with capture := some id }).packetDone q n i b Status.ok 0 false

/-- The last RUDIMENT records of a capture: each slice's entries, five a record. -/
def State.flushRuns (s : State) (id : Nat) (l : List (Nat × Nat × Nat × Nat)) : List Nat → State
  | [] => s
  | sl :: r =>
    let mine := l.filter fun e => e.1 == sl
    (if mine.isEmpty then s else s.rudimentRecord id sl mine).flushRuns id l r

/-- The place of END: the end of what is written, or the buffer's last 64 bytes that are aligned to 64 (log entry 126); none in a buffer that
holds no such 64 bytes. -/
def Capture.endAt (k : Capture) : Option Nat :=
  let last := (k.buffer.toNat + k.size) / 64 * 64 - k.buffer.toNat
  if k.used + 64 ≤ k.size then some k.used else if traceBase k.buffer + 64 ≤ k.size then some (last - 64) else none

/-- END: the count of records dropped; an error where its place's quadrant is asleep. -/
def State.endRecord (s : State) (id : Nat) : Except Nat State :=
  match s.captures.find id with
  | none => .ok s
  | some k =>
    match k.endAt with
    | none => .ok s
    | some at_ =>
      let (a, s) := s.drawFree
      let (b, s) := s.drawFree
      let words := padWords (s.traceHead 7 1 (bits a.toNat 32 12) (bits a.toNat 44 3) (a.toNat % 2 ^ 32) b ++ [BitVec.ofNat 64 k.dropped])
      match s.fwStoreR k.qif k.pasid.toNat (k.buffer + BitVec.ofNat 64 at_) (wordBytesOf words) 16 with
      | .ok s => .ok s
      | .error (.wake h) => .error h
      | .error _ => .ok s

/-- A capture closes: its queue has none open. -/
def State.closeCapture (s : State) (q n i : Nat) (b : List Byte) (id : Nat) : State :=
  let s : State := { s with captures := s.captures.drop id }
  (s.modQueue q n fun v => { v with capture := none }).packetDone q n i b Status.ok 0 false

/-- CAPSTOP closes the queue's capture, after its records and END, which wait for the quadrants of their places (R378); without one it has
nothing to close (log entry 41). -/
def State.capStop (s : State) (q n i : Nat) (b : List Byte) (since : Nat) : State :=
  match (s.queue q n).capture with
  | none => s.packetDone q n i b Status.ok 0 false
  | some id =>
    match s.captures.find id with
    | none => (s.modQueue q n fun v => { v with capture := none }).packetDone q n i b Status.ok 0 false
    | some k =>
      let s : State := if bit k.set 6 then s
        else ({ s with captures := s.captures.set id { k with runs := [] } } : State).flushRuns id k.runs (countFrom 0 64)
      let waiting := match s.captures.find id with | some k => !k.waits.isEmpty | none => false
      if waiting then s.packetWaits q n i b since
      else if bit k.set 6 then s.closeCapture q n i b id
      else
        match s.endRecord id with
        | .error h => (s.accessWake h).packetWaits q n i b since
        | .ok s => s.closeCapture q n i b id

/-! ## Starting (R355 to R357, R439) -/

/-- The action of a started packet. -/
def State.packetRun (s : State) (q n i : Nat) (b : List Byte) (since : Nat) : State :=
  match pkType b with
  | 1 => s.launch q n i b since
  | 2 => s.signal q n i b since
  | 3 => s.waitq q n i b since false
  | 4 => s.control q n i b since
  | 5 => s.capStart q n i b since
  | _ => s.capStop q n i b since

/-- A refused packet (R439): its record whatever CREC holds and without its interrupt, the fault record, the error vector. -/
def State.packetRefused (s : State) (q n i : Nat) (b : List Byte) : State :=
  let s := s.packetEnd q n i b true false Status.refusedPasid (BitVec.ofNat 64 (pkPasid b)) false
  (s.postFault q 2 n (pkPasid b) 0 0 0 i (pkTag b)).1.raiseErr q

/-- What is checked of a packet when it starts, before any other effect: its header, its body, a CONTROL's N and TARGETs (R357, R360), a
CAPSTART's place among the captures (R494). -/
def State.packetOk (s : State) (q n : Nat) (b : List Byte) : Bool :=
  pkListed b && headOk b && bodyOk b && (pkType b != 4 || controlOk b (s.ringSize q n)) && (pkType b != 5 || s.captureOk q n b)

/-- A packet that is read and may start: service firmware has read the notify ring so far, the packet is running; its PASID and then its
fields are checked, a HOLD opens its region, and it acts. -/
def State.packetStart (s : State) (q n i : Nat) (b : List Byte) : State :=
  let s := s.readNotifies.dropJob (slotMarker q n)
  let s := s.modQueue q n fun v => { v with next := (i + 1) % 2 ^ 16, running := i :: v.running }
  if (s.allowEntry q (pkPasid b)).isNone then s.packetRefused q n i b
  else if s.packetOk q n b = false then s.packetBad q n i b
  else
    let s := if pkHold b then s.modQueue q n fun v => { v with held := if v.held.contains i then v.held else i :: v.held } else s
    s.packetRun q n i b s.time

/-- Service firmware runs, and the QIF is not in a reset. -/
def State.serves (s : State) (q : Nat) : Bool := s.boot.alive && !s.boot.fatal && !s.boot.recovery && !s.resetting q

/-- A packet that lets no later one start while it waits: a WAITQ (R355), a CONTROL, which chooses the next (R360), a CAPSTART or CAPSTOP,
since no task is ever only partly covered (R494; log entry 125). -/
def Watch.blocks (w : Watch) : Bool := decide (3 ≤ pkType w.pkt)

/-- A tenant to whom QIFs may belong: 1 to 255 with VALID in its entry (R418, R419). -/
def State.tenantSet (s : State) (t : Nat) : Bool := t != 0 && bit (s.tenantWord t 0) 16

/-- A packet of a queue may start: the QIF has a tenant, it and the queue are enabled, no packet holds the queue, one has been notified that is
not running. -/
def State.mayStart (s : State) (q n : Nat) : Bool :=
  let v := s.queue q n
  decide (q < 8) && decide (n < 64) && s.serves q && s.qEnabled q && s.tenantSet (s.qTenant q) && s.queueOn q n &&
    !(v.watch.any Watch.blocks) && v.skipTo.isNone && v.next != s.reg (qdesc q n + 0x18) && !v.running.contains v.next

/-- The packets of this type that wait go on. -/
def State.packetsAgain (s : State) (typ q n : Nat) : State :=
  if s.serves q then
    s.over ((s.queue q n).watch.filter fun w => pkType w.pkt == typ) fun s w => s.packetRun q n w.index w.pkt w.since
  else s

/-- The next packet of a queue starts if it is of this type (one that is refused or bad may have any); otherwise started packets of this
type that wait go on. -/
def State.packetTurn (s : State) (typ q n : Nat) : State :=
  let s := if decide (q < 8) && decide (n < 64) && s.serves q && s.qEnabled q then s.settleSkip q n else s
  if !s.mayStart q n then s.packetsAgain typ q n
  else
    let i := (s.queue q n).next
    match s.readSlotBytes q n i with
    | .error f => (s.slotFailed q n i f).packetsAgain typ q n
    | .ok (s', b) =>
      if (pkListed b ∧ pkType b ≠ typ) ∨ (pkBar b && !(s'.queue q n).running.isEmpty) = true then s.packetsAgain typ q n
      else s'.packetStart q n i b

/-- The WAITQ in force on a queue. -/
def State.waitqOf (s : State) (q n : Nat) : Option Watch := (s.queue q n).watch.find? fun w => pkType w.pkt == 3

/-- WAITQ_SATISFIED: the word is read again. -/
def State.waitqAgain (s : State) (q n : Nat) : State :=
  match s.waitqOf q n with
  | some w => if s.serves q then s.waitq q n w.index w.pkt w.since true else s
  | none => s

/-- WAITQ_TIMEOUT: TIMEOUT has passed. -/
def State.waitqLate (s : State) (q n : Nat) : State :=
  match s.waitqOf q n with
  | some w => if s.serves q && decide (waitqTime w.pkt ≤ s.time - w.since) then s.waitqOver q n w.index w.pkt else s
  | none => s

/-- A SIGNAL or CONTROL waits (R514): no two of a queue do at once, each starts behind every earlier packet's completion. -/
def Watch.acts (w : Watch) : Bool := pkType w.pkt == 2 || pkType w.pkt == 4

/-- SERVICE_WAIT_LIMIT: a SIGNAL or CONTROL has waited on a serviced fault for the service wait limit (R514). -/
def State.packetLate (s : State) (q n : Nat) : State :=
  match (s.queue q n).watch.find? Watch.acts with
  | some w =>
    if s.serves q && decide (s.waitLimit fwTid ≤ s.time - w.since) then
      s.packetArg q n w.index w.pkt (pkAddr w.pkt) (pkType w.pkt == 4)
    else s
  | none => s

/-! ## The events -/

/-- LAUNCH: A LAUNCH packet starts: checks the launch record and body, pins leases and queues the task (R363). -/
def execEvLaunch (qif : Nat) (queue : Nat) (s : State) : Out := .next (s.packetTurn 1 qif queue)

/-- SIGNAL: A SIGNAL packet stores or atomically adds to a word as a release at .SY (R358). -/
def execEvSignal (qif : Nat) (queue : Nat) (s : State) : Out := .next (s.packetTurn 2 qif queue)

/-- WAITQ: A WAITQ packet starts watching its word (R358). -/
def execEvWaitq (qif : Nat) (queue : Nat) (s : State) : Out := .next (s.packetTurn 3 qif queue)

/-- WAITQ_SATISFIED: A WAITQ completes when its condition holds (R358). -/
def execEvWaitqSatisfied (qif : Nat) (queue : Nat) (s : State) : Out := .next (s.waitqAgain qif queue)

/-- WAITQ_TIMEOUT: A WAITQ whose TIMEOUT passes completes WAIT_TIMEOUT and stops the queue (R358). -/
def execEvWaitqTimeout (qif : Nat) (queue : Nat) (s : State) : Out := .next (s.waitqLate qif queue)

/-- CONTROL: A CONTROL packet reads its word and chooses the next packet (R360). -/
def execEvControl (qif : Nat) (queue : Nat) (s : State) : Out := .next (s.packetTurn 4 qif queue)

/-- CAPSTART: opens a capture on the queue and pins its buffer (R494). -/
def execEvCapstart (qif : Nat) (queue : Nat) (s : State) : Out := .next (s.packetTurn 5 qif queue)

/-- CAPSTOP: closes the capture and writes the END record (R495). -/
def execEvCapstop (qif : Nat) (queue : Nat) (s : State) : Out := .next (s.packetTurn 6 qif queue)

/-- SERVICE_WAIT_LIMIT: A SIGNAL or CONTROL packet waiting on a serviced fault of its word reaches the service wait limit and completes ARG_FAULT (R514). -/
def execEvServiceWaitLimit (qif : Nat) (queue : Nat) (s : State) : Out := .next (s.packetLate qif queue)

end Sys2Proof.Machine
end

