-- ==== Sys2Proof/Machine/HostEvents.lean ====
section
/-!
DEFINITION. What the host, the partner box and the security controller do: register writes (spec/19, R434 to R445), CXL accesses
(R447), interrupts (R444), the bridge (R448 to R450), the recovery mailbox and attestation (spec/22, R487, R490, R492).
-/
namespace Sys2Proof.Machine

/-! ## Host accesses to BAR0 (R434) -/

/-- The host reaches BAR0: the device has started or its recovery loader runs, the link is up, no FATAL stop (R485, R486, R490). -/
def State.barOpen (s : State) : Bool := (s.boot.alive || s.boot.recovery) && !s.boot.fatal && !(s.domain 0x81).dark

/-- An 8-byte write of the host at a BAR0 offset; any other alignment is ignored (R434). -/
def State.hostWrite (s : State) (off v : Nat) : State :=
  if s.barOpen && off % 8 == 0 && decide (off < 2 ^ 20) then s.hubStore false off (v % 2 ^ 64) else s

/-- A 4-byte write to the MSI-X table or pending-bit array keeps the other half of the word (R434). -/
def State.hostWrite4 (s : State) (off v : Nat) : State :=
  if off % 4 = 0 ∧ 0x4000 ≤ off ∧ off < 0x6000 then s.hostWrite (off / 8 * 8) (putBits (s.reg (off / 8 * 8)) (8 * (off % 8)) 32 v)
  else s

/-- A write to a register: 8 bytes, or 4 in the MSI-X table's upper halves. -/
def State.registerWrite (s : State) (off v : Nat) : State := if off % 8 = 4 then s.hostWrite4 off v else s.hostWrite off v

/-- QUEUE_NOTIFY: the queue takes its TAIL, the notify is logged (R440); packets that a forward jump passes over complete as they
are notified (R360). -/
def State.ring (s : State) (q o v : Nat) : State :=
  if q < 8 ∧ o < 0x4000 then
    let s := s.hostWrite (0x14000 + 0x8000 * q + o) v
    if s.serves q && s.qEnabled q then s.settleSkip q (o / 8 % 64) else s
  else s

/-- A write to a word of QIF q's register page. -/
def State.pageWrite (s : State) (q o v : Nat) : State := if q < 8 ∧ o < 0x4000 then s.hostWrite (qpage q + o) v else s

/-- A write to a word of QIF q's control block. -/
def State.blockWrite (s : State) (q o v : Nat) : State := if q < 8 ∧ o < 64 then s.hostWrite (qcb q + o) v else s

/-- The host reads VMINTIME (R487). -/
def State.vminRead (s : State) : State := if s.barOpen then s.hubRead 0x1C40 else s

/-! ## CXL accesses to device memory (R447) -/

/-- An uncorrectable word met a host access: a record is written; its DETAIL has no code to name, as the host takes no trap (R482). -/
def State.hostPoison (s : State) (key : Nat) : State :=
  let (d, s) := s.drawFree
  s.logError 2 (unitOfKey key).2 (unitOfKey key).1 0 (addrOfKey key) d.toNat

/-- A host load or store of device memory at its home: HBM below Q-ON is woken and the access waits (R378); poison is reported;
a store of part of an uncorrectable word writes nothing (R482). -/
def State.hostCxl (s : State) (hbm store : Bool) (addr : Nat) (data : List Byte) : State :=
  let size := if hbm then Config.hbmBytes else Config.lpddr6Bytes
  let key := keyOf (b2n hbm) addr
  if !s.boot.alive || s.boot.fatal || (s.domain 0x81).dark || data.isEmpty || decide (size < addr + data.length) then s
  else if hbm && s.hbmDark addr then s
  else if hbm && !(s.quad (hbmQuad addr)).isOn then
    { s.accessWake (hbmQuad addr) with hostWaits := s.hostWaits ++ [(store, addr, data)] }
  else
    let s := if hbm then s else s.wakesLpddr
    match (if store then badPart s.bad key data.length else badIn s.bad key data.length) with
    | some w => s.hostPoison w
    | none => if store then (s.noteKey 0 key data.length).poke key data else s

/-- Host accesses that waited for a quadrant are made in their order; those of another quadrant wait on (R378). -/
def State.hostRetry (s : State) : State :=
  ({ s with hostWaits := [] }).over s.hostWaits fun s w => s.hostCxl true w.1 w.2.1 w.2.2

/-- Host software writes its own memory, which the device reaches as space 2 (R233, R447). -/
def State.hostMemory (s : State) (addr : Nat) (data : List Byte) : State :=
  if data.isEmpty || decide (2 ^ 52 < addr + data.length) then s else s.poke (keyOf 2 addr) data

/-! ## The Vusan Bridge (R448 to R450) -/

/-- A port by number. -/
def State.port (s : State) (p : Nat) : Port := s.ports.get Port.init p
/-- Put a port. -/
def State.setPort (s : State) (p : Nat) (v : Port) : State := { s with ports := s.ports.set p v }

/-- BRIDGE_LINK_UP: the port has its partner's serial; a serial other than the other port's holds it down and sets mismatch (R448). -/
def State.linkUp (s : State) (p : Nat) (serial : Word) : State :=
  if 2 ≤ p ∨ (s.domain 0x82).dark then s
  else
    let other := s.port (1 - p)
    let clash := other.up && other.serial != serial
    let s := s.setReg 0x1C08 (putBits (s.reg 0x1C08) 3 1 (b2n clash))
    if clash then (s.setPort p { s.port p with up := false, serial := serial }).showPorts
    else { (s.setPort p { Port.init with up := true, serial := serial, lastGood := s.time }).showPorts with
           bridgeBox := if Config.serial.toNat < serial.toNat then 0 else 1 }

/-- Flits acknowledged by ACK leave the replay buffer (R449). -/
def Port.acked (v : Port) (ack : Nat) : Port :=
  let first := (v.txSeq + 4096 - (v.replay.length + v.waiting.length) % 4096) % 4096
  let n := (ack + 1 + 4096 - first) % 4096
  if n ≤ v.replay.length then { v with replay := v.replay.drop n } else v

/-- A flit with a good length and CRC, a TYPE and a VC that are not reserved (R449). -/
def flitOk (f : List Byte) : Bool :=
  f.length == 256 && ofBytes (f.drop 248) == (crc64 (f.take 248)).toNat && decide (recNum f 0 8 % 16 ≤ 6) &&
    decide (bits (recNum f 0 8) 28 4 ≤ 4)

/-- Bytes [a, a + n) lie in the range that a tenant exports (Table 19-2). -/
def State.exported (s : State) (t a n : Nat) : Bool :=
  let w := s.tenantWord t 1
  let base := bits w 25 27 * 2 ^ 25
  decide (base ≤ a) && decide (a + n ≤ base + w % 2 ^ 12 * 2 ^ 25) && decide (a + n ≤ Config.lpddr6Bytes)

/-- A memory request of the partner box: performed inside the exported range, a load answered by a response flit (R450). One that meets an
uncorrectable word is reported as a host access is: a store writes nothing, a response carries no data (R482; log entry 76). -/
def State.serveRequest (s : State) (p t : Nat) (store : Bool) (a : Nat) (bs : List Byte) : State :=
  if s.exported t a bs.length then
    let s := s.wakesLpddr
    match (if store then badPart s.bad (keyOf 0 a) bs.length else badIn s.bad (keyOf 0 a) bs.length) with
    | some w => (s.hostPoison w).sendFlit p 3 1 t 0 []
    | none =>
      if store then ((s.noteKey t (keyOf 0 a) bs.length).poke (keyOf 0 a) bs).sendFlit p 3 1 t 0 []
      else s.sendFlit p 3 1 t (bs.length / 16 % 16) (s.mem.getBytes (keyOf 0 a) bs.length)
  else s

/-- The request that a payload holds, if any (log entry 35). -/
def State.bridgeRequest (s : State) (p t : Nat) (pay : List Byte) : State :=
  match Config.bridgeRequest pay with
  | none => s
  | some (store, a, bs) => s.serveRequest p t store a bs

/-- A message of the partner box under a tenant: appended to the inbox of a core that is bound to the gang of that tenant that PARTNER pairs
with the sender's, while the inbox has room (R284, R450). -/
def State.bridgeMessage (s : State) (tenant : Nat) (m : Nat × Word × List Byte) : State :=
  let paired := match s.gangAt m.1 with
    | some g => (match s.tasks.find g with
      | some t => t.launch.bridge && t.launch.partner == m.2.1 && t.tenant == tenant
      | none => false)
    | none => false
  let k := s.core m.1
  if s.inboxRefused m.1 || !paired || decide (k.inboxSize ≤ k.inboxCount) || decide (m.2.2.length ≠ 64) then s
  else
    let key := inboxKey m.1 k k.inboxTail.toNat
    (((s.touchCore m.1).raiseBound m.1 (key % 2 ^ 18)).poke key m.2.2).modCore m.1 fun k => { k with inboxTail := k.inboxTail + 1 }

/-- A slack record of the partner box: B of a superstep of the gang paired with the sender's (R403). -/
def State.bridgeSlack (s : State) (pay : List Byte) : State :=
  match Config.bridgeSlack pay with
  | none => s
  | some (tag, n, b) =>
    { s with slack := s.tasks.foldl (fun m p => if p.2.launch.bridge && p.2.launch.partner == tag then
        let k := m.get Slack.init p.1
        m.set p.1 { k with peer := k.peer ++ [(n, b)] } else m) s.slack }

/-- A port sends again from its first flit not acknowledged (R449). -/
def State.replayPort (s : State) (p : Nat) : State := { s with sent := s.sent ++ (s.port p).replay }

/-- Payload that a box accepts: memory requests, messages and slack records act here, a link flit may ask for a replay; responses and
collectives reach their consumers as operands of the rows that use them. -/
def State.bridgePayload (s : State) (p : Nat) (f : List Byte) : State :=
  let h := recNum f 0 8
  let t := bits h 32 8
  let pay := (f.drop 8).take 240
  if h % 16 = 2 ∧ s.tenantBridges t then s.bridgeRequest p t pay
  else if h % 16 = 1 ∧ s.tenantBridges t then s.over (Config.bridgeMessages pay) fun s m => s.bridgeMessage t m
  else if h % 16 = 5 then s.bridgeSlack pay
  else if h % 16 = 6 ∧ Config.linkReplay pay = true then s.replayPort p
  else s

/-- BRIDGE_FLIT_RECEIVE: a bad flit is discarded and the partner asked for a replay, the sixteenth in a row makes the port retrain; a
flit in order is accepted, any other waits for the replay (R449; log entry 35). -/
def State.flitIn (s : State) (p : Nat) (f : List Byte) : State :=
  let v := s.port p
  let h := recNum f 0 8
  if 2 ≤ p ∨ v.up = false ∨ v.retraining = true ∨ (s.domain 0x82).dark = true then s
  else if flitOk f = false then
    (s.setPort p { v with discards := v.discards + 1, retraining := decide (16 ≤ v.discards + 1) }).sendFlit p 6 4 0 0 []
  else
    let s := (s.setPort p (v.acked (bits h 16 12))).fillPort p
    let v := s.port p
    if bits h 4 12 ≠ (v.rxSeq + 1) % 4096 then s
    else (s.setPort p { v with rxSeq := (v.rxSeq + 1) % 4096, discards := 0, lastGood := s.time }).bridgePayload p f

/-- BRIDGE_RETRAIN: the port is trained again and replays from the first flit not acknowledged (R449). -/
def State.retrain (s : State) (p : Nat) : State :=
  let v := s.port p
  if v.up && v.retraining then (s.setPort p { v with retraining := false, discards := 0 }).replayPort p else s

/-- BRIDGE_PORT_DOWN: 100 ms have passed without success (R449). -/
def State.portDown (s : State) (p : Nat) : State :=
  let v := s.port p
  if v.up && decide (100000000 ≤ s.time - v.lastGood) then (s.setPort p { v with up := false, retraining := false, replay := [], waiting := [] }).showPorts
  else s

/-! ## Recovery (R490) and attestation (R492) -/

/-- LEN of at most 64 MiB and an ADDR aligned to 4 KiB (Table 22-9). -/
def State.imagePlace (s : State) : Bool := decide (s.reg 0x80010 ≤ 2 ^ 26) && s.reg 0x80008 % 4096 == 0

/-- The image that the mailbox names: LEN bytes at ADDR of host memory. -/
def State.mailImage (s : State) : List Byte := s.mem.getBytes (keyOf 2 (s.reg 0x80008)) (s.reg 0x80010)

/-- An image from its bytes. Its service mask holds 0xF07, whose scheduling firmware step 8 starts (log entry 79). -/
def imageOf (bs : List Byte) (good : Bool) : Image :=
  ⟨⟨(countFrom 0 0x1000).filter fun c => isCore c && (c == 0xF07 || Config.imageMask bs c), Config.imageQuantum bs, Config.imageWaitLimit bs,
    Config.imageVspill bs⟩, some ((countFrom 0 48).map (Config.imageHash bs)), good⟩

/-- A LOAD comes to its end: `verdict` tells what the loader found (3 signature refused, 4 fetch failed, else the image runs from
step 7, with its measurement stored and its boot configuration applied); an image out of its limits cannot be fetched; one that is fetched
for the flash is written there first. -/
def State.loadEnd (s : State) (flash : Bool) (verdict : Nat) : State :=
  if !s.boot.recovery || s.boot.mailbox != 2 || s.boot.toFlash != flash then s
  else if !s.imagePlace || verdict = 4 then { s with boot := { s.boot with mailbox := 4 } }
  else
    let m := imageOf s.mailImage (verdict != 3)
    let s : State := if flash then { s with boot := { s.boot with flash := m } } else s
    if verdict = 3 then { s with boot := { s.boot with mailbox := 3 } } else s.running 2 m

/-- Bytes of an attestation quote before its signature (Table 22-10). -/
def State.quoteBody (s : State) (nonce : List Byte) : List Byte :=
  bytesOf 8 1 ++ bytesOf 8 Config.serial.toNat ++ (countFrom 0 48).map Config.romHash ++ nonce ++
    s.boot.sum.getD ((countFrom 0 48).map Config.measurement) ++ bytesOf 8 s.bootstat ++ (countFrom 0 97).map Config.publicKey ++ List.replicate 7 0

/-- ATTESTATION_DONE: the host buffer is filled and ATTDONE is set. -/
def State.attest (s : State) : State :=
  match s.boot.quote with
  | none => s
  | some a =>
    let s := { s with boot := { s.boot with quote := none } }
    let s := s.setReg 0x1C58 (s.reg 0x1C58 ||| 1)
    match physKey 2 a.toNat with
    | none => s
    | some k =>
      let body := s.quoteBody (s.mem.getBytes (k + 0x40) 48)
      s.poke k (body ++ (countFrom 0 96).map (Config.signature body))

/-! ## The events -/

/-- QUEUE_NOTIFY: A host write to the notify page sets TAIL and appends a notify record (R440). -/
def execEvQueueNotify (qif : Nat) (off : Nat) (data : Word) (s : State) : Out := .next (s.ring qif off data.toNat)

/-- QIF_ENABLE_WRITE: setting or clearing ENABLE starts or stops new work of the QIF (R436). -/
def execEvQifEnableWrite (qif : Nat) (data : Word) (s : State) : Out := .next (s.blockWrite qif 0 data.toNat)

/-- QIF_RESET: RESET or RESETREQ begins a reset of the QIF (R445). -/
def execEvQifReset (qif : Nat) (s : State) : Out := .next (s.pageWrite qif 0x18 1)

/-- QIF_RESET_COMPLETE: the reset finishes, sets RESETDONE and raises EVEC (R445). -/
def execEvQifResetComplete (qif : Nat) (s : State) : Out :=
  .next (if (s.qif qif).resetting then s.qifResetDone qif else s)

/-- S2INV: writing S2INV invalidates stage 2 of the QIF (R435). -/
def execEvS2inv (qif : Nat) (data : Word) (s : State) : Out := .next (s.blockWrite qif 0x10 data.toNat)

/-- INVREQ: writing INVREQ requests a stage-1 invalidation of this QIF (R437). -/
def execEvInvreq (qif : Nat) (data : Word) (s : State) : Out := .next (s.pageWrite qif 0x28 data.toNat)

/-- DBGRESUME: resumes a gang of this QIF from its debug stop (R496). -/
def execEvDbgresume (qif : Nat) (data : Word) (s : State) : Out := .next (s.pageWrite qif 0x38 data.toNat)

/-- DBGSTOP: requests a debug stop of a gang at its next handle-0 firing (R496). -/
def execEvDbgstop (qif : Nat) (data : Word) (s : State) : Out := .next (s.pageWrite qif 0x40 data.toNat)

/-- RESTART: clears STOPPED, writes held records and lets the next packet start (R438). -/
def execEvRestart (qif : Nat) (queue : Nat) (s : State) : Out :=
  .next (if queue < 64 then s.pageWrite qif (0x108 + 64 * queue) (s.reg (qdesc qif queue + 8) ||| 64) else s)

/-- CHEAD_WRITE: A host write to CHEAD frees completion-ring room for held records (R438). -/
def execEvCheadWrite (qif : Nat) (queue : Nat) (data : Word) (s : State) : Out :=
  .next (if queue < 64 then s.pageWrite qif (0x138 + 64 * queue) data.toNat else s)

/-- FAULT_RING_WRITE: A write of FBASE, FLOG or FHEAD retries held fault records (R515). -/
def execEvFaultRingWrite (qif : Nat) (off : Nat) (data : Word) (s : State) : Out :=
  .next (if off = 0x1900 ∨ off = 0x1908 ∨ off = 0x1918 then s.pageWrite qif off data.toNat else s)

/-- FRESP: the host answers a FILE fault, restarting or failing its waiters (R443). -/
def execEvFresp (qif : Nat) (data : Word) (s : State) : Out := .next (s.pageWrite qif 0x1920 data.toNat)

/-- TENANT_TABLE_WRITE: A tenant entry write; a lost way is written back before the new mask applies (R420). -/
def execEvTenantTableWrite (t : Nat) (word : Nat) (data : Word) (s : State) : Out :=
  .next (if t < 256 ∧ word < 2 then s.hostWrite (0x400 + 16 * t + 8 * word) data.toNat else s)

/-- MSISEND: an aperture store sends the named MSI-X entry's message (R451). -/
def execEvMsisend (data : Word) (s : State) : Out :=
  .next (if data.toNat < 256 then s.hubStore true 0x6000 data.toNat else s)

/-- ATTBUF: writing ATTBUF requests an attestation quote (R492). -/
def execEvAttbuf (data : Word) (s : State) : Out := .next (s.hostWrite 0x1C50 data.toNat)

/-- ATTESTATION_DONE: the security controller fills the quote buffer and sets ATTDONE (R492). -/
def execEvAttestationDone (s : State) : Out := .next s.attest

/-- VMINSEL: writing a domain number latches its minimum-voltage log (R487). -/
def execEvVminsel (data : Word) (s : State) : Out := .next (s.hostWrite 0x1C30 data.toNat)

/-- VMINTIME_READ: reading VMINTIME clears the live minimum-voltage log (R487). -/
def execEvVmintimeRead (s : State) : Out := .next s.vminRead

/-- RECOVERY_LOAD: mailbox LOAD fetches, verifies and runs a firmware image (R490). -/
def execEvRecoveryLoad (verdict : Nat) (s : State) : Out := .next (s.loadEnd false verdict)

/-- RECOVERY_LOAD_FLASH: mailbox LOAD that writes the image to board flash first (R490). -/
def execEvRecoveryLoadFlash (verdict : Nat) (s : State) : Out := .next (s.loadEnd true verdict)

/-- REGISTER_WRITE: A write to a register with no behaviour of its own (R9). -/
def execEvRegisterWrite (off : Nat) (data : Word) (s : State) : Out := .next (s.registerWrite off data.toNat)

/-- HOST_CXL_ACCESS: A host CXL.mem or CXL.cache request is served at the home agent (R447). -/
def execEvHostCxlAccess (hbm : Bool) (store : Bool) (addr : Nat) (data : List Byte) (s : State) : Out :=
  .next (s.hostCxl hbm store addr data)

/-- BRIDGE_LINK_UP: at link-up the ports exchange serials and fix the box number (R448). -/
def execEvBridgeLinkUp (port : Nat) (serial : Word) (s : State) : Out := .next (s.linkUp port serial)

/-- BRIDGE_FLIT_RECEIVE: A received flit is checked, accepted or discarded for replay (R449). -/
def execEvBridgeFlitReceive (port : Nat) (flit : List Byte) (s : State) : Out := .next (s.flitIn port flit)

/-- BRIDGE_RETRAIN: after 16 consecutive discards the port retrains (R449). -/
def execEvBridgeRetrain (port : Nat) (s : State) : Out := .next (s.retrain port)

/-- BRIDGE_PORT_DOWN: after 100 ms without success the port is down (R449). -/
def execEvBridgePortDown (port : Nat) (s : State) : Out := .next (s.portDown port)

/-- MSIX_VECTOR_UNMASK: A host write that clears the mask of an MSI-X entry whose pending bit is set sends the held message under PCIe rules (R444). -/
def execEvMsixVectorUnmask (entry : Nat) (data : Word) (s : State) : Out :=
  .next (if entry < 256 then s.hostWrite4 (0x400C + 16 * entry) data.toNat else s)

end Sys2Proof.Machine
end

