-- ==== Sys2Proof/Machine/Bellows.lean ====
section
/-!
DEFINITION. Bellows and the clocks of time: quadrant states, wakes and raises (spec/16, R377 to R387, R511), voltage domains (R392 to
R394), cooling and temperature (R395 to R397), limits, power estimates and clock ratios (R398 to R403), and the ticks of spec/08
(R208) and spec/09 (R226).
-/
namespace Sys2Proof.Machine

/-! ## Small ticks -/

/-- WC_FLUSH: write-combined bytes of a granule leave (R226). -/
def State.flushGranule (s : State) (g : Nat) : State :=
  s.landWc fun e => e.2.1 / 64 == g

/-- LM_BOUNDARY_TICK: BOUND moves by one step within SPMIN to SPMAX, down only over a step not touched (R208). -/
def State.boundTick (s : State) (c : Nat) (up : Bool) : State :=
  s.modCore c fun k =>
    if up then (if k.bound < k.spmax then { k with bound := k.bound + 1 } else k)
    else if k.spmin < k.bound && !k.touched.getLsbD (k.bound - 1) then { k with bound := k.bound - 1 } else k

/-! ## Domains and what they hold (R392, R394, R484, R485) -/

/-- Numbers of Table 16-10. -/
def isDomain (d : Nat) : Bool := (decide (d < 128) && decide (d % 32 < 28)) || (decide (0x80 ≤ d) && decide (d ≤ 0x85))

/-- Neighbours of a domain (R394). -/
def neighbours (d : Nat) : List Nat :=
  let r := d % 32
  if 128 ≤ d then []
  else if r < 16 then
    (if r % 8 = 0 then [] else [d - 1]) ++ (if r % 8 = 7 then [] else [d + 1]) ++ [if r < 8 then d + 8 else d - 8]
  else (countFrom (d - r % 4) 4).filter (· != d)

/-- A core lies in a domain: its logic or its SRAM domain. -/
def coreIn (d c : Nat) : Bool := logicDomain c == d || sramDomain c == d

/-- A core of a quadrant. -/
def inQuad (q c : Nat) : Bool := !isTabor c && quadOf c == q

/-- Tasks with a team on some of these cores end with DOMAIN_LOSS and the domain's number; answers their tenants (R484). -/
def State.loseTasks (s : State) (p : Nat → Bool) (d : Nat) : State × List Nat :=
  let gone := s.tasks.filter fun t => t.2.held.any p
  (s.over gone fun s t => s.endTask t.1 Status.domainLoss 0 (BitVec.ofNat 64 d), gone.map fun t => t.2.tenant)

/-- Cores of `p` hold nothing any more: LM, tiles, registers; a service core starts again as the start sequence leaves it (log entry 92). -/
def State.wipeCores (s : State) (p : Nat → Bool) : State :=
  let lost (k : Nat) : Bool := k / 2 ^ 52 == 4 && p (bits k 24 12)
  { s with
    mem := s.mem.filter fun c => !lost c.1
    bad := s.bad.filter fun w => !lost (8 * w)
    threads := s.threads.mapVals fun tid t =>
      if !p (coreOf tid) then t
      else if s.isService (coreOf tid) && slotOf tid == 0 then Thread.service
      else { t with x := Vector.replicate 32 0, v := Vector.replicate 16 0, m := Vector.replicate 8 0 }
    cores := s.cores.mapVals fun c k => if p c then
        { Core.init with allow := k.allow, tj := k.tj, ratio := k.ratio, idleSince := k.idleSince } else k }

/-- What some cores' own slots leave of their retention state; a core that is not listed has been in no other state than C1 (`State.retention`
adds what its domains and its quadrant do). -/
def State.setCores (s : State) (p : Nat → Bool) (st : CoreState) : State :=
  { s with cores := s.cores.mapVals fun c k => if p c then { k with cstate := if s.isService c && st == .c1 then .c0 else st } else k }

/-- HBM contents of a quadrant's two stacks are lost. -/
def State.loseHbm (s : State) (q : Nat) : State :=
  let k := keyOf 1 (2 * q * Config.hbmStackBytes)
  { s with mem := s.mem.clear k (2 * Config.hbmStackBytes), bad := heal s.bad k (2 * Config.hbmStackBytes) }

/-- Domains lose their power, and their switch-on if one is asked for or under way. -/
def State.powerOff (s : State) (l : List Nat) : State :=
  let s := s.over l fun s d => s.setDomain d { s.domain d with powered := false, rampFrom := none, waitFrom := none }
  { s with power := { s.power with switchQueue := s.power.switchQueue.filter fun d => !l.contains d } }

/-! ## Quadrants down (R378, R379) -/

/-- A stage-2 table names HBM of a quadrant in some valid leaf. -/
def State.tableNames (s : State) (q home : Nat) : List Nat → Nat → Bool
  | [], _ => false
  | sh :: rest, base =>
    (countFrom 0 2048).any fun i =>
      match s.readEntry (.trap 0 0) 0 home (base + 8 * i) with
      | .error _ => false
      | .ok (_, e) =>
        if bit e 0 = false then false
        else if bits e 1 3 = 0 then s.tableNames q home rest (ppn e)
        else bits e 11 2 == 1 && decide (hbmQuad (ppn e) ≤ q) && decide (q ≤ hbmQuad (ppn e + 2 ^ sh - 1))

/-- Some tenant's page tables name HBM of a quadrant (R378). -/
def State.hbmNamed (s : State) (q : Nat) : Bool :=
  (countFrom 0 8).any fun i =>
    let r := s.reg (qcb i + 8)
    s.qTenant i != 0 && s.tableNames q (if bits r 0 2 = 2 then 2 else 0) [36, 25, 14] (bits r 14 33 * 2 ^ 14)

/-- Idle delay of a target state in ns. -/
def idleDelay (n : Nat) : Nat := if n = 1 then 1000000 else if n = 2 then 100000000 else 10000000000

/-- A quadrant has held no bound thread for a time; none was bound when the device started. -/
def State.quadIdleFor (s : State) (q ns : Nat) : Bool :=
  s.quadIdle q && decide (ns ≤ s.time - s.boot.since) && s.cores.all fun p => !inQuad q p.1 || s.isService p.1 || decide (ns ≤ s.time - p.2.idleSince)

/-- A state by depth. -/
def quadAt (n : Nat) : QuadState := match n with | 0 => .on | 1 => .ret | 2 => .gate | _ => .off

/-- What entering a state leaves: Q-RET holds its cores in C2 (`State.retention`), Q-GATE loses them and gates their 20 domains, Q-OFF all 28 and
the HBM stacks' contents (Table 16-1). -/
def State.enterQuad (s : State) (q n : Nat) : State :=
  let s := s.setQuad q { s.quad q with st := quadAt n }
  if 2 ≤ n then
    let s := ((s.wipeCores (inQuad q)).setCores (inQuad q) .c3).powerOff (countFrom (32 * q) (if n = 3 then 28 else 20))
    if n = 3 then s.loseHbm q else s
  else s

/-- A fall reaches its end: Q-OFF only while no table names the quadrant's HBM, else Q-GATE (R378). -/
def State.fallInto (s : State) (q n : Nat) : State := s.enterQuad q (if n = 3 ∧ s.hbmNamed q = true then 2 else n)

/-- QUADRANT_IDLE_DOWN: begin to fall to a deeper state, and be in it the next time. A quadrant that leaves Q-ON holds no thread, and its slices'
lists move to the spill area, or it stays in Q-ON where they do not fit (R378). -/
def State.quadDown (s : State) (q n : Nat) : State :=
  let v := s.quad q
  if 4 ≤ q ∨ v.lost then s
  else
    match v.st with
    | .rising _ _ _ => s
    | .falling _ n => if s.quadLimit q < n then s else s.fallInto q n
    | st =>
      if st.level < n ∧ n ≤ min 3 (s.quadLimit q) ∧ s.quadIdleFor q (idleDelay n) = true ∧ (st.level ≠ 0 ∨ s.spillHolds q = true) ∧
          (n ≠ 3 ∨ s.hbmNamed q = false) then
        (if st.level = 0 then s.spillQuad q else s).setQuad q { v with st := .falling st.level n }
      else s

/-! ## Quadrants up (R379, R382 to R385, R511) -/

/-- The domains that a rise switches on are powered, or dark for good (Table 16-4, R393). -/
def State.risen (s : State) (q src dst : Nat) : Bool := (riseDomains q src dst).all fun d => (s.domain d).powered || (s.domain d).dark

/-- Some service core lies in a quadrant. -/
def State.quadServed (s : State) (q : Nat) : Bool := s.boot.cfg.mask.any fun c => inQuad q c

/-- Cores of a cluster: 128 is the Tabor island. -/
def clusterCores (cl : Nat) : List Nat := if cl = 128 then countFrom 0xF00 8 else if cl < 128 then countFrom (16 * cl) 16 else []

/-- The ratio a cluster runs at or is about to. -/
def State.ratioOf (s : State) (cl : Nat) : Nat := s.power.want.get (s.ratio ((clusterCores cl).headD 0)) cl

/-- The highest ratio of a cluster: 28 while a phase failure caps it. -/
def State.topRatio (s : State) (cl : Nat) : Nat := if (clusterCores cl).any s.capped then 28 else 32

/-- A limit holds a cluster of a quadrant below its highest ratio: it is throttled, a stack of the quadrant is hot, or its junction has no
allowance left (R397, R398). -/
def State.limited (s : State) (q cl : Nat) : Bool :=
  s.power.throttled.contains cl || s.power.hbmHold.any (fun k => k / 2 == q) || (clusterCores cl).any fun c => (s.core c).allow == 0

/-- A woken quadrant's cores, but for service cores, hold zeros, and run at the highest ratio that the limits allow: the one that a limit has
brought a cluster to, else its highest (R383). -/
def State.freshCores (s : State) (q : Nat) : State :=
  let cls := countFrom (32 * q) 32
  let held := (cls.filter (s.limited q)).map fun cl => (cl, s.ratioOf cl)
  let s := s.wipeCores fun c => inQuad q c && !s.isService c
  let s : State := { s with
    cores := s.cores.mapVals fun c k => if inQuad q c then { k with ratio := if s.capped c then 28 else 32 } else k
    power := { s.power with
      want := s.power.want.filter fun p => !cls.contains p.1
      urgent := s.power.urgent.filter fun cl => !cls.contains cl } }
  s.over held fun s p => s.over (clusterCores p.1) fun s c => s.modCore c fun k => { k with ratio := p.2 }

/-- What waited for HBM of a quadrant goes on when it is in Q-ON (R378), and stores that slept for room in its slices (R250). -/
def State.quadServes (s : State) : State := s.hostRetry.retryRings.retryEnds.settleStores

/-- A rising quadrant arrives at a state once its domains are switched on: power and clocks back, service firmware of a woken quadrant
yet to issue (R382). -/
def State.quadUp (s : State) (q n : Nat) : State :=
  match (s.quad q).st with
  | .rising src _ wake =>
    if s.risen q src n = false then s
    else
      let s := s.setQuad q { s.quad q with st := quadAt n, awake := !(wake && s.quadServed q) }
      let s := if wake then s.freshCores q else s
      let cores (c : Nat) : Bool := inQuad q c && s.corePowered c
      if n = 0 then (s.setCores cores .c1).quadServes else if n = 1 then s.setCores cores .c1 else s
  | _ => s

/-- QUADRANT_RAISE: a raise ends at its limit; a quadrant deeper than its limit begins one. -/
def State.quadRaise (s : State) (q : Nat) : State :=
  match (s.quad q).st with
  | .rising _ n false => s.quadUp q n
  | _ => s.raiseQuads

/-- A step of a wake in a quadrant that it names: a rising one arrives, one that has fallen again rises again (R382, R384). -/
def State.wakeQuad (s : State) (q : Nat) : State := if (s.quad q).waking then s.quadUp q 0 else s.beginWake q

/-- WAKE_COMPLETE: the quadrants that a wake names come up as their domains are switched on; the wake is over once each is in Q-ON and its
lowest service core has issued, or cannot be woken (R382). -/
def State.wakeComplete (s : State) (id : Nat) : State :=
  match s.power.wakes.find? fun w => w.id == id with
  | none => s
  | some w =>
    let s := s.over (quadsOf w.mask) State.wakeQuad
    match s.power.wakes.find? fun w => w.id == id with
    | none => s
    | some w => if s.wakeReady w then s.wakeDone w else s

/-- Every stack of a quadrant reads below 90 degrees (Table 16-13). -/
def State.cooled (s : State) (q : Nat) : Bool := (countFrom (2 * q) 2).all fun k => decide (s.power.hbmTemp.get 0 k < 90)

/-- A quadrant shut down for heat may be woken again once it has cooled (R397). -/
def State.coolQuad (s : State) (q : Nat) : State :=
  if (s.quad q).hot && s.cooled q then s.setQuad q { s.quad q with hot := false } else s

/-- BIND_WAKE_REQUEST: a task that waits does not fit the quadrants in Q-ON, and one below it would let it bind: it is woken (R511). -/
def State.bindWake (s : State) (g q : Nat) : State :=
  match s.tasks.find g with
  | none => s
  | some t =>
    let s' := s.coolQuad q
    let v := s'.quad q
    if 4 ≤ q || s.fits t || v.isOn || v.waking || v.lost || !s'.wakeLets t q then s else s'.wakeRequest (2 ^ q) none

/-- STRIKER_RECORD_DELIVERY: the oldest record of a tenant that is not taken yet. -/
def State.strikerTurn (s : State) (t : Nat) : State :=
  match (s.striker.get Striker.init t).places.find? fun r => !r.taken with
  | some r => s.deliverStrike t r
  | none => s

/-! ## Tabor, LPDDR6 and core states (R380, R381) -/

/-- How long of the last 10 ms a thread was ready. -/
def readyTime (l : List (Nat × Nat)) (now : Nat) : Nat := (l.map fun p => p.2 - max p.1 (now - 10000000)).foldl (· + ·) 0

/-- Some Tabor thread has been ready in more than a quarter of the last 10 ms (R380). -/
def State.taborBusy (s : State) : Bool := s.power.tready.any fun p => decide (2500000 < readyTime p.2 s.time)

/-- TABOR_MODE_SWITCH: NT while no thread has been ready for more than that share, RUN else; a change takes 20 us with the cores' clocks
gated. -/
def State.taborSwitch (s : State) : State :=
  if s.time < s.power.gatedTo ∨ s.power.tnt = !s.taborBusy then s
  else { s with power := { s.power with tnt := !s.power.tnt, gatedTo := s.time + 20000 } }

/-- LPDDR6_SELF_REFRESH_ENTRY. -/
def State.selfRefresh (s : State) : State :=
  let deep := (countFrom 0 4).all fun q => match (s.quad q).st with | .gate => true | .off => true | _ => false
  if deep && decide (50000 ≤ s.time - s.power.lpddrLast) then { s with power := { s.power with selfRefresh := true } } else s

/-- CORE_C1_ENTRY: every slot UNBOUND or ASLEEP for 64 core cycles (Table 16-3). -/
def State.coreC1 (s : State) (c : Nat) : State :=
  if (s.core c).cstate = .c0 ∧ s.coreQuiet c = true ∧ 64 * 640 ≤ (s.core c).quiet then s.modCore c fun k => { k with cstate := .c1 }
  else s

/-- CORE_C2_ENTRY: no slot bound for 100 us. -/
def State.coreC2 (s : State) (c : Nat) : State :=
  let k := s.core c
  if (k.cstate = .c0 ∨ k.cstate = .c1) ∧ s.coreBound c = false ∧ s.isService c = false ∧ 100000 ≤ s.time - k.idleSince then
    s.modCore c fun k => { k with cstate := .c2 }
  else s

/-! ## Switch-on of one domain (R393) -/

/-- The ramp starts: neighbours above 85 % of their limit are stretched for it and 0.5 us beyond. -/
def State.rampStart (s : State) (d : Nat) : State :=
  let s := s.setDomain d { s.domain d with rampFrom := some s.time, waitFrom := none }
  s.over (neighbours d) fun s n => if (s.domain n).heavy then s.setDomain n { s.domain n with stretchTo := s.time + 2500 } else s

/-- DOMAIN_SWITCH_ON: a request enters the order, or the domain at its head is checked; `busy` lists the domains that draw more than
85 % of their limit. -/
def State.switchOn (s : State) (d : Nat) (busy : List Nat) : State :=
  let v := s.domain d
  if isDomain d = false ∨ v.powered = true ∨ v.dark = true ∨ v.rampFrom.isSome = true then s
  else
    let s := if s.power.switchQueue.contains d then s else { s with power := { s.power with switchQueue := s.power.switchQueue ++ [d] } }
    if s.power.switchQueue.head? ≠ some d then s
    else
      let s := s.over (neighbours d) fun s n => s.setDomain n { s.domain n with heavy := busy.contains n }
      if (neighbours d).any busy.contains then
        s.setDomain d { s.domain d with waitFrom := match v.waitFrom with | some t => some t | none => some s.time }
      else s.rampStart d

/-- SWITCH_ON_NEIGHBOUR_TIMEOUT: after 5 us the switch-on proceeds. -/
def State.switchLate (s : State) (d : Nat) : State :=
  match (s.domain d).waitFrom with
  | some t => if 5000 ≤ s.time - t then s.rampStart d else s
  | none => s

/-- SWITCH_ON_RAMP_COMPLETE: the domain is powered; its cores may be bound again, holding zeros. -/
def State.rampDone (s : State) (d : Nat) : State :=
  match (s.domain d).rampFrom with
  | some t =>
    if s.time - t < 2000 ∨ (s.domain d).dark = true then s
    else
      let s := s.setDomain d { s.domain d with powered := true, rampFrom := none }
      let s := { s with power := { s.power with switchQueue := s.power.switchQueue.filter (· != d) } }
      s.setCores (fun c => coreIn d c && (s.core c).cstate == .c3 && s.corePowered c &&
        (isTabor c || (s.quad (quadOf c)).isOn)) .c1
  | none => s

/-! ## Cooling and temperature (R395 to R397) -/

/-- A row of Table 16-11: package limit in W, junction limit in degrees C, current limit of a logic domain in A, highest inlet for the full
limit, least flow in 0.1 L/min (air: 1 for a valid report). -/
structure LimitRow where
  package : Nat
  junction : Int
  current : Nat
  inlet : Option Int
  flow : Nat
  deriving DecidableEq, Repr

/-- The row of a medium; none for a medium without a table. -/
def limitRow (medium : Nat) : Option LimitRow :=
  match medium with
  | 1 => some ⟨650, 100, 180, some 35, 1⟩
  | 2 => some ⟨1000, 105, 260, some 40, 10⟩
  | 3 => some ⟨1150, 105, 290, some 45, 40⟩
  | _ => none

/-- The fallback row. -/
def fallbackRow : LimitRow := ⟨300, 95, 100, none, 0⟩

/-- The row in force (R395). -/
def Cooling.row (c : Cooling) : LimitRow := if c.fallback then fallbackRow else (limitRow c.medium).getD fallbackRow

/-- Least flow of a medium. -/
def leastFlow (medium : Nat) : Option Nat := (limitRow medium).map fun r => r.flow

/-- Package limit in force in W: 2 % less for each degree of inlet above the row's (R395). -/
def Cooling.package (c : Cooling) : Rat :=
  match c.row.inlet with
  | none => c.row.package
  | some top => if c.inlet ≤ top then c.row.package else c.row.package * (max 0 (100 - 2 * (c.inlet - top)) : Int) / 100

/-- A cooling report at a TIME: the fallback row until a medium with a table is reported; after a low flow or a silent sensor, whatever is
reported between, until readings have been in range for 10 s. -/
def Cooling.report (c : Cooling) (medium : Nat) (inlet : Int) (flow now : Nat) : Cooling :=
  let c' : Cooling := { c with medium := medium, inlet := inlet, flow := flow, lastReport := now }
  match leastFlow medium with
  | none => { c' with fallback := true, goodSince := none }
  | some least =>
    if flow < least then { c' with fallback := true, goodSince := none, flawed := true }
    else if c.flawed = false then { c' with fallback := false, goodSince := none }
    else
      match c.goodSince with
      | none => { c' with goodSince := some now }
      | some t => if 10000000000 ≤ now - t then { c' with fallback := false, goodSince := none, flawed := false } else c'

/-- COOLING_SENSOR_TIMEOUT: a sensor silent for 1 s. -/
def Cooling.silent (c : Cooling) (now : Nat) : Cooling :=
  if 1000000000 ≤ now - c.lastReport then { c with fallback := true, goodSince := none, flawed := true } else c

/-- Junction limit in force, in degrees C (Table 16-11). -/
def Cooling.junction (c : Cooling) : Int := c.row.junction

/-- ALLOW for a temperature in 1/16 degrees C under a limit (R396). -/
def allowOf (limit : Int) (tj : Nat) : Nat := min 1024 (Int.toNat (1024 * (16 * limit - tj) / 320))

/-- Every reading stands below 95 % of its limit, and no stack's response to 95 degrees holds (R397, R398; log entry 109). -/
def State.calm (s : State) : Bool :=
  (s.cores.all fun p => decide ((100 * p.2.tj : Int) < 95 * 16 * s.power.cooling.junction)) &&
    (s.power.amps.all fun p => decide (100 * p.2 < 95 * (s.power.cooling.row.current : Rat))) && s.power.hbmHold.isEmpty &&
    decide (100 * s.power.watts < 95 * s.power.cooling.package)

/-- A reading has come in: since when all have been calm (R398). -/
def State.noteCalm (s : State) : State :=
  { s with power := { s.power with calmSince := if s.calm then some (s.power.calmSince.getD s.time) else none } }

/-- Readings of the domain currents in A and of the package power in W. -/
def State.shunts (s : State) (amps : SMap Rat) (watts : Rat) : State :=
  { s with power := { s.power with amps := amps, watts := watts } }.noteCalm

/-- COOLING_REPORT. -/
def State.cool (s : State) (medium : Nat) (inlet : Int) (flow : Nat) : State :=
  { s with power := { s.power with cooling := s.power.cooling.report medium inlet flow s.time } }.noteCalm

/-- TALLOW_UPDATE. -/
def State.tallow (s : State) (cl tj : Nat) : State :=
  let a := allowOf s.power.cooling.junction (tj % 4096)
  (s.over (clusterCores cl) fun s c => s.modCore c fun k => { k with tj := tj % 4096, allow := a }).noteCalm

/-- A stack and its quadrant are shut down: its tasks end, HBM_SHUTDOWN is written, wakes of it fail (Table 16-13). What its stacks hold
stays, as in Q-GATE (R408; log entry 84). -/
def State.hbmShutdown (s : State) (stack : Nat) : State :=
  let q := stack / 2
  let d := 32 * q + 24 + 2 * (stack % 2)
  let (s, l) := s.loseTasks (inQuad q) d
  let s := (if (s.quad q).st.serves then s.spillQuad q else s).enterQuad q 2
  ((s.setQuad q { s.quad q with hot := true }).wakesLose q).logError 10 d 0xFFF (soleTenant l) 0 stack

/-- HBM_TEMP_THRESHOLD: a reading of a stack, in degrees C. -/
def State.hbmReading (s : State) (stack : Nat) (temp : Int) : State :=
  if 8 ≤ stack then s
  else
    let hold := s.power.hbmHold.filter (· != stack)
    let s := { s with power := { s.power with
      hbmTemp := s.power.hbmTemp.set stack temp
      hbmDouble := s.power.hbmDouble.set stack (if 85 < temp then true else if temp ≤ 82 then false else s.power.hbmDouble.get false stack)
      hbmHold := if 95 < temp then hold ++ [stack] else if temp ≤ 92 then hold else s.power.hbmHold } }.noteCalm
    if 105 < temp ∧ (s.quad (stack / 2)).lost = false then s.hbmShutdown stack else s

/-! ## Clock ratios (R398, R400 to R403) -/

/-- Ask for a ratio; the handshake applies it. -/
def State.askRatio (s : State) (cl n : Nat) : State :=
  { s with power := { s.power with want := s.power.want.set cl n, lastChange := s.power.lastChange.set cl s.time } }

/-- One step down, not below 1. -/
def State.lowerRatio (s : State) (cl : Nat) : State := if 1 < s.ratioOf cl then s.askRatio cl (s.ratioOf cl - 1) else s

/-- One step up, within the cap. -/
def State.raiseRatio (s : State) (cl : Nat) : State := if s.ratioOf cl < s.topRatio cl then s.askRatio cl (s.ratioOf cl + 1) else s

/-- A step of a cluster's ratio is due after an interval. -/
def State.stepDue (s : State) (cl ns : Nat) : Bool :=
  match s.power.lastChange.find cl with | some t => decide (ns ≤ s.time - t) | none => true

/-- HBM_THERMAL_STEP: above 95 degrees every cluster of the quadrant goes one step down each 100 us. -/
def State.hbmStep (s : State) (stack : Nat) : State :=
  let due := match s.power.hbmStep.find stack with | some t => decide (100000 ≤ s.time - t) | none => true
  if 8 ≤ stack ∨ s.power.hbmTemp.get 0 stack ≤ 95 ∨ due = false then s
  else
    let cls := countFrom (32 * (stack / 2)) 32
    let s := { s with power := { s.power with
      hbmStep := s.power.hbmStep.set stack s.time
      throttled := s.power.throttled.filter (fun c => !cls.contains c) ++ cls } }
    s.over cls State.lowerRatio

/-- A limit that a cluster exceeds (R398). -/
inductive Limit where
  | junction | current | package
  deriving DecidableEq, Repr

/-- The domain of a cluster draws more than its current limit (Table 16-11 limits logic domains). -/
def State.overCurrent (s : State) (cl : Nat) : Bool :=
  decide (cl < 128) && decide ((s.power.cooling.row.current : Rat) < s.power.amps.get 0 (logicDomain ((clusterCores cl).headD 0)))

/-- The first limit, in the order of R398, of an excess that a cluster causes; which clusters cause an excess of the package limit is not
stated, and `named` says so (log entry 109). The response to a hot stack has its own pace (R397). -/
def State.limitOf (s : State) (named : List Nat) (cl : Nat) : Option Limit :=
  if (clusterCores cl).any fun c => (s.core c).allow == 0 then some .junction
  else if s.overCurrent cl then some .current
  else if named.contains cl && decide (s.power.cooling.package < s.power.watts) then some .package
  else none

/-- A cluster that causes an excess goes one step down, every 10 us, and counts as throttled; a current above its limit is urgent (R402). -/
def State.limitOne (s : State) (named : List Nat) (cl : Nat) : State :=
  if (s.limitOf named cl).isNone || !s.stepDue cl 10000 then s
  else
    { s with power := { s.power with
        throttled := s.power.throttled.filter (· != cl) ++ [cl]
        urgent := if s.overCurrent cl then s.power.urgent.filter (· != cl) ++ [cl] else s.power.urgent } }.lowerRatio cl

/-- BELLOWS_LIMIT_STEP. -/
def State.limitStep (s : State) (named : List Nat) : State := s.over (countFrom 0 129) fun s cl => s.limitOne named cl

/-- Every reading has been calm for 1 ms (R398). -/
def State.calmFor (s : State) : Bool :=
  match s.power.calmSince with
  | some t => decide (1000000 ≤ s.time - t)
  | none => false

/-- A throttled cluster goes one step up per ms of calm; at its highest ratio it is throttled no longer. -/
def State.raiseOne (s : State) (cl : Nat) : State :=
  if !s.power.throttled.contains cl || !s.stepDue cl 1000000 then s
  else
    let s := s.raiseRatio cl
    if s.ratioOf cl < s.topRatio cl then s
    else { s with power := { s.power with throttled := s.power.throttled.filter (· != cl) } }

/-- BELLOWS_RAISE_STEP of the clusters named. -/
def State.raiseStep (s : State) (cls : List Nat) : State := if s.calmFor then s.over cls State.raiseOne else s

/-- A cluster holds a core of a gang whose stop is being delivered (R402). -/
def State.stopsAt (s : State) (cl : Nat) : Bool :=
  s.tasks.any fun p => p.2.state == .stopping && p.2.held.any fun c => clusterOf c == cl

/-- CLOCK_RATIO_HANDSHAKE: the ratio asked for is in force; it waits for a gang stop's delivery unless a current above its limit asked
(R402). -/
def State.handshake (s : State) (cl : Nat) : State :=
  match s.power.want.find cl with
  | none => s
  | some n =>
    if s.stopsAt cl && !s.power.urgent.contains cl then s
    else
      { s.over (clusterCores cl) fun s c => s.modCore c fun k => { k with ratio := n } with
        power := { s.power with want := s.power.want.drop cl, urgent := s.power.urgent.filter (· != cl) } }

/-- The busy times of a superstep that no decision has used yet, this box's and the partner's, once both are known (R403). -/
def Slack.ready (k : Slack) (n : Nat) : Option (Nat × Nat) :=
  match k.own.find? (·.1 == n), k.peer.find? (·.1 == n) with
  | some p, some r => some (p.2, r.2)
  | _, _ => none

/-- The busy times of a superstep are used: one decision is made for each. -/
def Slack.used (k : Slack) (n : Nat) : Slack := { k with own := k.own.filter (·.1 != n), peer := k.peer.filter (·.1 != n) }

/-- The clusters of a gang. -/
def Task.clusters (t : Task) : List Nat := (countFrom 0 129).filter fun cl => t.held.any fun c => clusterOf c == cl

/-- BRIDGE_SLACK_DECISION for the superstep of an SSTEP number: at least 4 supersteps after the last change, one step by the partner's busy time, outside the 3 % band. -/
def State.slackStep (s : State) (g n : Nat) : State :=
  match s.tasks.find g, (s.slack.get Slack.init g).ready n with
  | some t, some (own, peer) =>
    let k := (s.slack.get Slack.init g).used n
    let cls := t.clusters
    let soon := match k.last with | some m => decide (n < m + 4) | none => false
    let s := { s with slack := s.slack.set g k }
    if soon || cls.any s.power.throttled.contains then s
    else if 100 * own < 97 * peer ∧ cls.any (fun cl => 1 < s.ratioOf cl) = true then
      { s.over cls State.lowerRatio with slack := s.slack.set g { k with last := some n } }
    else if 103 * peer < 100 * own ∧ cls.any (fun cl => s.ratioOf cl < s.topRatio cl) = true then
      { s.over cls State.raiseRatio with slack := s.slack.set g { k with last := some n } }
    else s
  | _, _ => s

/-! ## Power estimates (R399) -/

/-- A weight of a quadrant. -/
def State.weight (s : State) (q k : Nat) : Rat := s.power.weights.get (Config.factoryWeight q k) (8 * q + k)

/-- An element of a quadrant's matrix P. -/
def State.cov (s : State) (q i j : Nat) : Rat := s.power.covar.get (Config.initialCovariance i j) (64 * q + 8 * i + j)

/-- Sum over the eight event classes. -/
def sum8 (f : Nat → Rat) : Rat := (countFrom 0 8).foldl (fun a k => a + f k) 0

/-- Event counts of a cluster in the last 10 us: the spec does not say which events the classes hold (free values). -/
def State.drawCounts (s : State) : Nat → State × List Nat
  | 0 => (s, [])
  | n + 1 =>
    let (v, s) := s.drawFree
    let (s, l) := s.drawCounts n
    (s, v.toNat :: l)

/-- POWER_ESTIMATE_TICK of a cluster of Cupola. -/
def State.estimateTick (s : State) (cl volt temp : Nat) : State :=
  if 128 ≤ cl then s
  else
    let q := cl / 32
    let (s, e) := s.drawCounts 8
    let p := sum8 (fun k => s.weight q k * (e.getD k 0 : Nat)) * 100000 + Config.staticPower cl volt temp
    let sums := (countFrom 0 8).foldl (fun m k => SMap.set m (8 * q + k) (m.get 0 (8 * q + k) + e.getD k 0)) s.power.counts
    { s with power := { s.power with estimate := s.power.estimate.set cl p, counts := sums } }

/-- Clamp to a range. -/
def clampRat (x lo hi : Rat) : Rat := if x < lo then lo else if hi < x then hi else x

/-- POWER_WEIGHT_REFIT of a quadrant; `y` is its shunt energy less its static energy. -/
def State.refit (s : State) (q : Nat) (y : Rat) : State :=
  if 4 ≤ q then s
  else
    let lambda : Rat := 98 / 100
    let x (k : Nat) : Rat := (s.power.counts.get 0 (8 * q + k) : Nat)
    let px (i : Nat) : Rat := sum8 fun j => s.cov q i j * x j
    let xp (j : Nat) : Rat := sum8 fun i => x i * s.cov q i j
    let den := lambda + sum8 fun i => x i * px i
    let gain (i : Nat) : Rat := px i / den
    let err := y - sum8 fun k => x k * s.weight q k
    let w' (k : Nat) : Rat :=
      clampRat (s.weight q k + gain k * err) (Config.factoryWeight q k / 2) (2 * Config.factoryWeight q k)
    let ws := (countFrom 0 8).foldl (fun m k => SMap.set m (8 * q + k) (w' k)) s.power.weights
    let ps := (countFrom 0 64).foldl
      (fun m n => SMap.set m (64 * q + n) ((s.cov q (n / 8) (n % 8) - gain (n / 8) * xp (n % 8)) / lambda)) s.power.covar
    { s with power := { s.power with weights := ws, covar := ps, counts := s.power.counts.filter fun p => p.1 / 8 != q } }

/-! ## The events -/

/-- BRIDGE_SLACK_DECISION: once per superstep Bellows moves the ratio one step by the partner's busy time (R403). -/
def execEvBridgeSlackDecision (gid sstep : Nat) (s : State) : Out := .next (s.slackStep gid sstep)

/-- WC_FLUSH: write-combined data leaves 1 µs after the last store to the granule (R226). -/
def execEvWcFlush (granule : Nat) (s : State) : Out := .next (s.flushGranule granule)

/-- LM_BOUNDARY_TICK: every 64 µs the core moves the LM boundary by at most one step (R208). -/
def execEvLmBoundaryTick (core : Nat) (up : Bool) (s : State) : Out :=
  .next (if isCore core then s.boundTick core up else s)

/-- QUADRANT_IDLE_DOWN: A quadrant idle for its delay moves to a deeper power state (R379). -/
def execEvQuadrantIdleDown (q : Nat) (target : Nat) (s : State) : Out := .next (s.quadDown q target)

/-- QUADRANT_RAISE: bellows raises a quadrant to a new limit without a wake (R379). -/
def execEvQuadrantRaise (q : Nat) (s : State) : Out := .next (if q < 4 then s.quadRaise q else s)

/-- BIND_WAKE_REQUEST: service firmware requests a wake so a waiting task can bind (R511). -/
def execEvBindWakeRequest (gid : Nat) (q : Nat) (s : State) : Out := .next (s.bindWake gid q)

/-- WAKE_COMPLETE: A wake completes, writing DONE and counting a contract miss (R385). -/
def execEvWakeComplete (w : Nat) (s : State) : Out := .next (s.wakeComplete w)

/-- STRIKER_RECORD_DELIVERY: service firmware writes a pending POSTED record into the wake queue (R386). -/
def execEvStrikerRecordDelivery (t : Nat) (s : State) : Out := .next (s.strikerTurn t)

/-- TABOR_MODE_SWITCH: bellows switches Tabor between RUN and NT (R380). -/
def execEvTaborModeSwitch (s : State) : Out := .next s.taborSwitch

/-- LPDDR6_SELF_REFRESH_ENTRY: LPDDR6 enters self-refresh after 50 µs idle with conditions met (R380). -/
def execEvLpddr6SelfRefreshEntry (s : State) : Out := .next s.selfRefresh

/-- CORE_C1_ENTRY: A core with no slot active for 64 core cycles gates its clocks (R381). -/
def execEvCoreC1Entry (core : Nat) (s : State) : Out := .next (s.coreC1 core)

/-- CORE_C2_ENTRY: A core with no slot bound for 100 µs enters retention (R381). -/
def execEvCoreC2Entry (core : Nat) (s : State) : Out := .next (s.coreC2 core)

/-- DOMAIN_SWITCH_ON: bellows grants switch-on to one domain after the neighbour check (R393). -/
def execEvDomainSwitchOn (d : Nat) (busy : List Nat) (s : State) : Out := .next (s.switchOn d busy)

/-- SWITCH_ON_NEIGHBOUR_TIMEOUT: after 5 µs of waiting on neighbours the switch-on proceeds (R393). -/
def execEvSwitchOnNeighbourTimeout (d : Nat) (s : State) : Out := .next (s.switchLate d)

/-- SWITCH_ON_RAMP_COMPLETE: the 2 µs header ramp ends and neighbour stretching stops after 0.5 µs (R393). -/
def execEvSwitchOnRampComplete (d : Nat) (s : State) : Out := .next (s.rampDone d)

/-- COOLING_REPORT: A board cooling report selects the limit table (R395). -/
def execEvCoolingReport (medium : Nat) (inlet : Int) (flow : Nat) (s : State) : Out :=
  .next (s.cool medium inlet flow)

/-- COOLING_SENSOR_TIMEOUT: A sensor silent for 1 s selects the fallback table (R395). -/
def execEvCoolingSensorTimeout (s : State) : Out :=
  .next { s with power := { s.power with cooling := s.power.cooling.silent s.time } }.noteCalm

/-- TALLOW_UPDATE: every 10 µs Bellows updates TALLOW from the hottest cluster sensor (R396). -/
def execEvTallowUpdate (cluster : Nat) (tj : Nat) (s : State) : Out := .next (s.tallow cluster tj)

/-- HBM_TEMP_THRESHOLD: an HBM stack reading crosses a temperature threshold (R397). -/
def execEvHbmTempThreshold (stack : Nat) (temp : Int) (s : State) : Out := .next (s.hbmReading stack temp)

/-- HBM_THERMAL_STEP: above 95 °C the quadrant ratio drops one step each 100 µs (R397). -/
def execEvHbmThermalStep (stack : Nat) (s : State) : Out := .next (s.hbmStep stack)

/-- BELLOWS_LIMIT_STEP: every 10 µs an exceeded limit lowers the causing clusters' ratio (R398). -/
def execEvBellowsLimitStep (clusters : List Nat) (s : State) : Out := .next (s.limitStep clusters)

/-- BELLOWS_RAISE_STEP: after 1 ms below 95 % Bellows raises ratios one step per ms (R398). -/
def execEvBellowsRaiseStep (clusters : List Nat) (s : State) : Out := .next (s.raiseStep clusters)

/-- POWER_ESTIMATE_TICK: every 10 µs each cluster's power is estimated from event counts (R399). -/
def execEvPowerEstimateTick (cluster : Nat) (volt : Nat) (temp : Nat) (s : State) : Out :=
  .next (s.estimateTick cluster volt temp)

/-- POWER_WEIGHT_REFIT: every second each quadrant's weights are refitted to its shunt (R399). -/
def execEvPowerWeightRefit (q : Nat) (energy : Rat) (s : State) : Out := .next (s.refit q energy)

/-- CLOCK_RATIO_HANDSHAKE: A cluster's clock ratio changes through the 250 ns handshake (R401). -/
def execEvClockRatioHandshake (cluster : Nat) (s : State) : Out := .next (s.handshake cluster)

end Sys2Proof.Machine
end

