-- ==== Sys2Proof/Machine/Csr.lean ====
section
/-!
DEFINITION. CSR instructions (spec/04, R117 to R124, R508, R509; spec/02, R57; spec/21, R461 to R463; spec/15, R375): which
numbers exist, what each reads, what a write leaves.
-/
namespace Sys2Proof.Machine

/-! ## Numbers -/

/-- A number of Table 4-10 or of R508. -/
def csrExists (n : Nat) : Bool :=
  n == 0x000 || n == 0x001 || n == 0x003 || (decide (0x010 ≤ n) && decide (n ≤ 0x018)) || (decide (0x020 ≤ n) && decide (n ≤ 0x022)) ||
  n == 0x030 || n == 0x031 || (decide (0x040 ≤ n) && decide (n ≤ 0x060)) || n == 0x070 || n == 0x071 || n == 0x080 ||
  (decide (0x100 ≤ n) && decide (n ≤ 0x128)) || n == 0x130 || (decide (0x800 ≤ n) && decide (n ≤ 0x812) && n != 0x807) ||
  n == 0x820 || (decide (0x840 ≤ n) && decide (n ≤ 0x846)) || n == 0x850

/-- A CSR that no instruction writes (Table 4-10, R463, R281). -/
def csrReadOnly (n : Nat) : Bool :=
  (decide (0x010 ≤ n) && decide (n ≤ 0x031)) || n == 0x060 || n == 0x080 || n == 0x806 || (decide (0x808 ≤ n) && decide (n ≤ 0x80F))

/-- A CSR that task supervisor mode does not write (R461). -/
def csrServiceOnly (n : Nat) : Bool :=
  n == 0x800 || n == 0x806 || (decide (0x810 ≤ n) && decide (n ≤ 0x812)) || n == 0x820 || (decide (0x840 ≤ n) && decide (n ≤ 0x845)) ||
  n == 0x850

/-- A CSR of the core's matrix unit (R160). -/
def csrMatrix (n : Nat) : Bool := decide (0x100 ≤ n) && decide (n ≤ 0x128)

/-! ## Reading -/

/-- STATE of a quadrant in QPWR (Table 16-2). -/
def QuadState.code : QuadState → Nat
  | .on => 0
  | .ret => 1
  | .gate => 2
  | .off => 3
  | .rising _ _ _ => 4
  | .falling _ _ => 5

/-- QPWR. -/
def State.qpwr (s : State) : Nat :=
  (countFrom 0 4).foldl (fun a q => a + ((s.quad q).st.code + 8 * (s.quad q).floor) * 2 ^ (8 * q)) 0
    + s.power.misses * 2 ^ 32 + b2n s.power.tnt * 2 ^ 48

/-- CLKRATIO of a core (Table 16-14). DOMAIN is the core's domain number at every time, also right after a cold start, where the table's Reset
column has 0 (DESIGN CHOICE, log entry 129). -/
def State.clkratio (s : State) (c : Nat) : Nat :=
  let nt := isTabor c && s.power.tnt
  (if nt then 10 else s.ratio c) + 64 * b2n nt + 128 * b2n (s.capped c) + 256 * logicDomain c

/-- The identity CSRs of a thread (Table 4-11, R509): those that a task gives read 0 without one. -/
def State.identity (s : State) (tid n : Nat) : Nat :=
  let c := coreOf tid
  let b := s.bind tid
  if n = 0x011 then c
  else if n = 0x016 then b2n (isTabor c)
  else
    match s.taskOf tid with
    | none => if n = 0x010 then slotOf tid else 0
    | some t =>
      if n = 0x010 then slotOf tid + 8 * b.tidx
      else if n = 0x012 then b.team
      else if n = 0x013 then b.gang
      else if n = 0x014 then b.grank
      else if n = 0x015 then b.gsize
      else if n = 0x017 then b.tenant
      else t.sstep.toNat

/-- A CSR of the matrix unit. -/
def mxRead (m : Matrix) (n : Nat) : Nat :=
  if n < 0x110 then (m.tdesc.get (Fin.ofNat 16 n)).toNat
  else if n < 0x120 then (m.tscl.get (Fin.ofNat 16 n)).toNat
  else if n < 0x128 then (m.accd.get (Fin.ofNat 8 n)).toNat
  else m.mxstat.toNat

/-- A thread's CSR below 0x800 that is its own. -/
def Csrs.read (c : Csrs) (n : Nat) : Nat :=
  if n = 0x000 then c.fflags.toNat
  else if n = 0x001 then c.frm.toNat
  else if n = 0x003 then c.srseed.toNat
  else if n = 0x021 then c.cycle.toNat
  else if n = 0x022 then c.instret.toNat
  else if n < 0x050 then (c.evcnt.get (Fin.ofNat 16 n)).toNat
  else if n < 0x060 then (c.evsel.get (Fin.ofNat 16 n)).toNat
  else if n = 0x070 then strikethWord c
  else if n = 0x071 then wakeclassWord c
  else c.vwaitlim.toNat

/-- A supervisor CSR (Tables 11-6, 15-10, 19-3, 19-5, 21-3, 21-4). -/
def State.readSuper (s : State) (t : Thread) (n : Nat) : Nat :=
  if n = 0x800 then estatusWord t.trap
  else if n = 0x801 then t.trap.epc.toNat
  else if n = 0x802 then ecauseWord t.trap
  else if n = 0x803 then t.trap.eval.toNat
  else if n = 0x804 then etvecWord t.trap
  else if n = 0x805 then t.trap.escratch.toNat
  else if n = 0x806 then tstatusWord t.status s.onService
  else if n < 0x810 then (t.trap.ehb.get (Fin.ofNat 8 n)).toNat
  else if n = 0x810 then transrootWord t.space
  else if n = 0x811 then t.space.pasid.toNat
  else if n = 0x812 then t.space.wkey.toNat
  else if n = 0x820 then s.vspill.toNat
  else if n = 0x840 then t.bind.core.toNat + 2 ^ 12 * t.bind.slot.toNat
  else if n < 0x846 then (t.bind.words.get (Fin.ofNat 5 (n - 0x841))).toNat
  else if n = 0x846 then 256 * b2n t.bind.busy + 512 * b2n t.bind.err
  else s.qpwr

/-- What a CSR reads for the thread whose turn it is. -/
def State.csrRead (s : State) (n : Nat) : Word :=
  let t := s.me
  let k := s.core s.myCore
  BitVec.ofNat 64 <|
    if 0x010 ≤ n ∧ n ≤ 0x018 then s.identity s.cur n
    else if n = 0x020 then s.time
    else if n = 0x030 then k.allow + k.tj * 2 ^ 16
    else if n = 0x031 then s.clkratio s.myCore
    else if n = 0x060 then tstatusWord t.status s.onService % 256
    else if n = 0x080 then k.spmin + k.spmax * 2 ^ 8 + k.bound * 2 ^ 16
    else if csrMatrix n then mxRead k.mx n
    else if n < 0x800 then t.csr.read n
    else s.readSuper t n

/-! ## Writing -/

/-- A CSR of the matrix unit takes the writable bits of `v`. -/
def mxWrite (m : Matrix) (n v : Nat) : Matrix :=
  if n < 0x110 then { m with tdesc := vset m.tdesc n (BitVec.ofNat 23 v) }
  else if n < 0x120 then { m with tscl := vset m.tscl n (BitVec.ofNat 32 v) }
  else if n < 0x128 then { m with accd := vset m.accd n (BitVec.ofNat 3 v) }
  else { m with mxstat := BitVec.ofNat 6 v &&& 0x3D#6 }

/-- A thread's own CSR below 0x800 takes `v` (R81, R83, R84, R252, R349, R493). -/
def Csrs.write (c : Csrs) (n v : Nat) : Csrs :=
  if n = 0x000 then { c with fflags := BitVec.ofNat 5 v }
  else if n = 0x001 then (if v % 8 < 6 then { c with frm := BitVec.ofNat 3 v } else c)
  else if n = 0x003 then { c with srseed := if v = 0 then Config.srSeedReset else BitVec.ofNat 64 v }
  else if n < 0x050 then { c with evcnt := vset c.evcnt n (BitVec.ofNat 48 v) }
  else if n < 0x060 then { c with evsel := vset c.evsel n (BitVec.ofNat 9 (if v % 256 ≤ 17 then v else v / 256 * 256)) }
  else if n = 0x070 then { c with thresh := BitVec.ofNat 32 v, threshFmt := bit v 32 }
  else if n = 0x071 then
    { c with wakeClass := if v % 4 = 3 then c.wakeClass else BitVec.ofNat 2 v, wakeMask := BitVec.ofNat 4 (v / 16) }
  else { c with vwaitlim := if v % 2 ^ 40 = 0 then 10000000#40 else BitVec.ofNat 40 v }

/-- BINDCMD: a reserved command is refused at once, another waits for the slot table (R375). -/
def BindCsrs.command (b : BindCsrs) (cmd : Nat) : BindCsrs :=
  if 1 ≤ cmd ∧ cmd ≤ 4 then { b with busy := true, err := false, pending := cmd } else { b with err := true }

/-- A thread's supervisor CSR takes `v` (Tables 15-10, 19-3, 19-5, 21-3). -/
def Thread.writeSuper (t : Thread) (n v : Nat) : Thread :=
  if n = 0x800 then
    { t with trap := { t.trap with trapped := bit v 0, ppriv := if bit v 3 then t.trap.ppriv else bit v 2 } }
  else if n = 0x801 then { t with trap := { t.trap with epc := BitVec.ofNat 47 v } }
  else if n = 0x802 then { t with trap := { t.trap with code := BitVec.ofNat 8 v, deferred := bit v 8 } }
  else if n = 0x803 then { t with trap := { t.trap with eval := BitVec.ofNat 64 v } }
  else if n = 0x804 then { t with trap := { t.trap with etvecEn := bit v 0, etvecBase := BitVec.ofNat 45 (v / 4) } }
  else if n = 0x805 then { t with trap := { t.trap with escratch := BitVec.ofNat 64 v } }
  else if n = 0x810 then
    { t with space := { t.space with qif := BitVec.ofNat 3 v, mode := bit v 3, root := BitVec.ofNat 33 (v / 2 ^ 14) } }
  else if n = 0x811 then { t with space := { t.space with pasid := BitVec.ofNat 20 v } }
  else if n = 0x812 then { t with space := { t.space with wkey := BitVec.ofNat 32 v } }
  else if n = 0x840 then { t with bind := { t.bind with core := BitVec.ofNat 12 v, slot := BitVec.ofNat 3 (v / 2 ^ 12) } }
  else if n < 0x846 then { t with bind := { t.bind with words := vset t.bind.words (n - 0x841) (BitVec.ofNat 64 v) } }
  else { t with bind := t.bind.command (v % 8) }

/-- FLOOR of the four quadrants (Table 16-2). -/
def State.writeQpwr (s : State) (v : Nat) : State :=
  (s.over (countFrom 0 4) fun s q => s.setQuad q { s.quad q with floor := bits v (8 * q + 3) 2 }).raiseQuads

/-- VSPILL (Table 10-1); a write while an entry lies in the spill area is ignored (R243): `spilled` says so. -/
def State.writeVspill (s : State) (spilled : Bool) (v : Nat) : State :=
  if spilled then s else { s with vspill := BitVec.ofNat 64 (bits v 0 12 + bits v 24 28 * 2 ^ 24) }.settleStores

/-- A CSR takes `v`, of which the RO and reserved bits are discarded (R11, R117). -/
def State.csrWrite (s : State) (n : Nat) (w : Word) : State :=
  let v := w.toNat
  if csrMatrix n then s.modMx s.myCore fun m => mxWrite m n v
  else if n = 0x071 then (s.modMe fun t => { t with csr := t.csr.write n v }).raiseQuads
  else if n < 0x800 then s.modMe fun t => { t with csr := t.csr.write n v }
  else if n = 0x820 then s.writeVspill (decide (0 < spilledEntries s.regions)) v
  else if n = 0x850 then s.writeQpwr v
  else if n = 0x846 then s.modMe fun t =>
    let b := (t.writeSuper n v).bind
    { t with bind := { b with sawFree := (s.bind (8 * b.core.toNat + b.slot.toNat)).st == 0 } }
  else s.modMe fun t => t.writeSuper n v

/-! ## The instructions -/

/-- The checks of R57, R118, R373, R461 on CSR number `n`, `w` saying whether the instruction writes: the cause and EVAL. -/
def State.csrFault (s : State) (n : Nat) (w : Bool) : Option (Nat × Nat) :=
  if !csrExists n then some (Cause.illegal, 2)
  else if w && csrReadOnly n then some (Cause.illegal, 3)
  else if decide (0x800 ≤ n) && !s.me.status.priv then some (Cause.priv, n)
  else if w && !s.onService && csrServiceOnly n then some (Cause.illegal, 3)
  else if w && !s.onService && n == 0x846 then some (Cause.access, 0x846)
  else none

/-- The slot table still performs the last command of this thread: a second one waits (log entry 32). -/
def State.csrBusy (s : State) (n : Nat) : Bool := n == 0x846 && s.me.bind.busy

/-- Read CSR `n` into X(rd), and write `f old` into it (R117); a CSR of the matrix unit waits for the queue (R160). -/
def State.csrOp (s : State) (d : XReg) (n : Nat) (w : Bool) (f : Word → Word) : Out :=
  match s.csrFault n w with
  | some c => s.trapOut c.1 (BitVec.ofNat 64 c.2)
  | none =>
    if w && s.csrBusy n then .next s
    else
      s.afterDrain (csrMatrix n) fun s =>
        let old := s.csrRead n
        (if w then s.csrWrite n (f old) else s).putX d old 4

/-- CSRR: reads a CSR (R117). -/
def execCsrr (d : XReg) (csr : BitVec 12) (s : State) : Out := s.csrOp d csr.toNat false id

/-- CSRW: reads a CSR and writes a register into it (R117). -/
def execCsrw (d : XReg) (csr : BitVec 12) (a : XReg) (s : State) : Out := s.csrOp d csr.toNat true fun _ => s.getX a

/-- CSRS: reads a CSR and sets the bits that are 1 in a register (R117). -/
def execCsrs (d : XReg) (csr : BitVec 12) (a : XReg) (s : State) : Out :=
  s.csrOp d csr.toNat (decide (a ≠ 0)) fun old => old ||| s.getX a

/-- CSRC: reads a CSR and clears the bits that are 1 in a register (R117). -/
def execCsrc (d : XReg) (csr : BitVec 12) (a : XReg) (s : State) : Out :=
  s.csrOp d csr.toNat (decide (a ≠ 0)) fun old => old &&& ~~~s.getX a

end Sys2Proof.Machine
end

