-- ==== Sys2Proof/Machine/Errors.lean ====
section
/-!
DEFINITION. Errors and starts as events: corrected and uncorrectable words (spec/22, R479, R481), regulator phases and dark domains
(R483 to R487), cold and warm starts and the loss of always-on power (R488 to R490).
-/
namespace Sys2Proof.Machine

/-! ## Words (R479, R481) -/

/-- A register word's key: a parity failure of it is repaired from the mirror and corrects no SECDED word (R480). -/
def isRegKey (key : Nat) : Bool :=
  let o := key % 2 ^ 24
  key / 2 ^ 52 == 4 && ((decide (0x130000 ≤ o) && decide (o < 0x132000)) || (decide (0x140000 ≤ o) && decide (o < 0x140800)) ||
    (decide (0x148000 ≤ o) && decide (o < 0x148200)))

/-- A soft error: a corrected one is counted for its domain, an uncorrectable one leaves the word bad. -/
def State.upset (s : State) (key : Nat) (double : Bool) : State :=
  if double then { s with bad := if s.bad.contains (key / 8) then s.bad else s.bad ++ [key / 8] }
  else if isRegKey key then s
  else
    let d := (unitOfKey key).2
    s.setDomain d { s.domain d with corrected := (s.domain d).corrected + 1 }

/-- A single-bit error corrected in an array of a domain: TLBs, caches, version lists, queue state (R479). -/
def State.correctedIn (s : State) (d : Nat) : State :=
  if isDomain d then s.setDomain d { s.domain d with corrected := (s.domain d).corrected + 1 } else s

/-- CE_SUMMARY_TICK: a second after the last records, one for each domain that has corrected errors in it. -/
def State.ceSummary (s : State) : State :=
  if s.time - s.power.ceLast < 1000000000 then s
  else
  let l := s.power.domains.filter fun p => p.2.corrected != 0
  let s : State := { s with power := { s.power with ceLast := s.time } }
  s.over l fun s p => (s.setDomain p.1 { p.2 with corrected := 0 }).logError 1 p.1 0xFFF 0 0 p.2.corrected

/-- Patrol reaches a word: DRAM that is not in self-refresh or off, host memory that an LLC slice in service holds. -/
def State.patrolled (s : State) (key : Nat) : Bool :=
  (key / 2 ^ 52 == 0 && !s.power.selfRefresh) ||
    (key / 2 ^ 52 == 1 && (s.quad (hbmQuad (key % 2 ^ 52))).isOn && !s.hbmDark (key % 2 ^ 52)) ||
    (key / 2 ^ 52 == 2 && decide (s.homeOf key < 64))

/-- The memory whose patrol reaches a word: LPDDR6, an HBM stack, an LLC slice (R481). -/
def State.patrolOf (s : State) (key : Nat) : Nat :=
  if key / 2 ^ 52 = 0 then 0 else if key / 2 ^ 52 = 1 then 1 + key % 2 ^ 52 / Config.hbmStackBytes else 16 + s.homeOf key

/-- Patrol that stands at word `a` has read word `w` once it has come to word `b`; it goes round. -/
def patrolPasses (a b w : Nat) : Bool := if a ≤ b then decide (a ≤ w) && decide (w ≤ b) else decide (a ≤ w) || decide (w ≤ b)

/-- PATROL_SCRUB up to the word at a key: patrol has gone on from where it stood, also where it had stopped while the memory was in self-refresh or
off; each uncorrectable word on its way stays bad and is reported (R481). -/
def State.patrol (s : State) (key : Nat) : State :=
  if s.patrolled key = false then s
  else
    let m := s.patrolOf key
    let stood := s.power.patrol.get 0 m
    let found := s.bad.filter fun w => s.patrolOf (8 * w) == m && s.patrolled (8 * w) && patrolPasses stood (key / 8) w
    let s : State := { s with power := { s.power with patrol := s.power.patrol.set m (key / 8 + 1) } }
    s.over found fun s w => s.logError 3 (unitOfKey (8 * w)).2 (unitOfKey (8 * w)).1 0 (addrOfKey (8 * w)) 0

/-! ## Phases and dark domains (R483 to R486) -/

/-- The hub domains whose loss stops the device (Table 22-5). -/
def hubDomain (d : Nat) : Bool := d == 0x80 || d == 0x83 || d == 0x85

/-- A fabric and LLC domain. -/
def fabricDomain (d : Nat) : Bool := decide (d < 128) && decide (20 ≤ d % 32) && decide (d % 32 < 24)

/-- Stack links to cores of a domain go DOWN (R342). -/
def State.linksDown (s : State) (d : Nat) : State :=
  s.over (s.cores.keys.filter fun c => coreIn d c) fun s c => s.linkDown (partnerOf c)

/-- Whether a fabric domain drained in time: the spec leaves it to the hardware (a free value), and it cannot where the spill area does not
hold the quadrant's lists (R484). -/
def State.drained (s : State) (d : Nat) : State × Bool :=
  if fabricDomain d then
    let (v, s) := s.drawFree
    (s, v.toNat % 2 == 0 && ((s.quad (d / 32)).st.serves == false || s.spillHolds (d / 32)))
  else (s, true)

/-- Which cores' tasks end with a domain: its own, or those of the whole quadrant for a fabric domain. -/
def lostWith (d c : Nat) : Bool := if fabricDomain d then inQuad (d / 32) c else coreIn d c

/-- Clusters of a domain: those of its logic, or under its SRAM arrays; Tabor's. -/
def clustersIn (d : Nat) : List Nat := (countFrom 0 129).filter fun cl => coreIn d ((clusterCores cl).headD 0)

/-- The clocks of a domain drop to RATIO 1, at once (R484 step 1). -/
def State.dropClocks (s : State) (d : Nat) : State :=
  let cls := clustersIn d
  let s := s.over cls fun s cl => s.over (clusterCores cl) fun s c => s.modCore c fun k => { k with ratio := 1 }
  { s with power := { s.power with want := s.power.want.filter fun p => !cls.contains p.1 } }

/-- A domain is gated for good: what its loss reaches (Table 22-5). -/
def State.gateDark (s : State) (d : Nat) : State :=
  let s := s.powerOff [d]
  let s := s.setDomain d { s.domain d with dark := true }
  if fabricDomain d then
    let q := d / 32
    let s := (if (s.quad q).st.serves then s.spillQuad q else s).enterQuad q 3
    (s.setQuad q { s.quad q with dark := true }).wakesLose q
  else
    let s := (s.linksDown d).wipeCores (coreIn d)
    let s := s.setCores (coreIn d) .c3
    if d = 0x84 then
      ((s.setRegion islandRegion { s.region islandRegion with lost := true }).settleLoads fun k => k / 2 ^ 25 == islandRegion).settleStores
    else if d = 0x82 then s.showPorts
    else s

/-- The third failed phase: the domain goes dark, or the device stops (R484, R486). -/
def State.darken (s : State) (d : Nat) : State :=
  let s := s.dropClocks d
  if hubDomain d then s.fatal 1 d (soleTenant (s.tasks.map fun t => t.2.tenant))
  else
    let (s, l) := s.loseTasks (lostWith d) d
    match s.drained d with
    | (s, false) => s.fatal 2 d (soleTenant l)
    | (s, true) => (s.gateDark d).logError 6 d 0xFFF (soleTenant l) 0 (l.length % 256)

/-- PHASE_FAILURE. -/
def State.phaseFails (s : State) (d phase : Nat) : State :=
  let v := s.domain d
  if isDomain d = false ∨ 24 ≤ phase ∨ v.failed.contains phase = true ∨ v.dark = true then s
  else
    let n := v.failed.length + 1
    let s := s.setDomain d { v with failed := v.failed ++ [phase] }
    if n ≤ 2 then s.logError 5 d 0xFFF 0 0 (phase + 32 * n) else s.darken d

/-- SUPPLY_VOLTAGE_MINIMUM: a reading in mV below the live log's minimum (R487). -/
def State.vminReading (s : State) (d mv : Nat) : State :=
  if isDomain d && decide (mv < (s.domain d).vmin) then s.setDomain d { s.domain d with vmin := mv, vminTime := s.time } else s

/-! ## Starts (R488 to R490) -/

/-- COLD_START: power of the always-on domain returns, or the start is tried again; not while the recovery loader runs. -/
def State.coldStart (s : State) (fail : Nat) : State := if s.boot.recovery then s else s.start false fail

/-- WARM_START: a reset from the host or a FATAL, with the always-on domain powered. -/
def State.warmStart (s : State) (fail : Nat) : State := if s.boot.recovery || !s.boot.alive then s else s.start true fail

/-- ALWAYS_ON_POWER_LOSS: what the domain retains is lost, nothing runs until the next start. -/
def State.powerLoss (s : State) : State :=
  let s' : State := { s.down false with
    boot := { State.reset.boot with alive := false, cfg := s.boot.cfg, flash := s.boot.flash }, ports := [], sent := s.sent, bridgeBox := 0 }
  s'.showPorts

/-! ## The events -/

/-- CE_SUMMARY_TICK: once per second a CE_SUMMARY record is written per domain with corrections (R479). -/
def execEvCeSummaryTick (s : State) : Out := .next s.ceSummary

/-- PATROL_SCRUB: patrol reads memory and logs UE_SCRUB for uncorrectable words (R481). -/
def execEvPatrolScrub (key : Nat) (s : State) : Out := .next (s.patrol key)

/-- PHASE_FAILURE: A regulator phase fails; the domain is capped and logged (R483). -/
def execEvPhaseFailure (d : Nat) (phase : Nat) (s : State) : Out := .next (s.phaseFails d phase)

/-- COLD_START: power of the always-on domain returns and the start sequence runs cold (R488). -/
def execEvColdStart (failStep : Nat) (s : State) : Out := .next (s.coldStart failStep)

/-- WARM_START: A PCIe reset, FLR or FATAL runs the warm start sequence (R488). -/
def execEvWarmStart (failStep : Nat) (s : State) : Out := .next (s.warmStart failStep)

/-- ALWAYS_ON_POWER_LOSS: the hub always-on domain loses power, losing every retained state so that the next start is cold (R488). -/
def execEvAlwaysOnPowerLoss (s : State) : Out := .next s.powerLoss

/-- SUPPLY_VOLTAGE_MINIMUM: A domain's supply falls below its logged minimum, and the live log records the new minimum and its TIME (R487). -/
def execEvSupplyVoltageMinimum (d : Nat) (mv : Nat) (s : State) : Out := .next (s.vminReading d mv)

end Sys2Proof.Machine
end

