-- ==== Sys2Proof/Machine/Dispatch.lean ====
section
/-!
DEFINITION. The dispatch of instructions and events: one arm per constructor of Instr, one direct call of its meaning each.
-/
namespace Sys2Proof.Machine

def exec (i : Instr) (s : State) : Host.Outcome State Fault Refusal :=
  match i with
  | .add d a b => Sys2Proof.Machine.execAdd d a b s
  | .sub d a b => Sys2Proof.Machine.execSub d a b s
  | .and d a b => Sys2Proof.Machine.execAnd d a b s
  | .or d a b => Sys2Proof.Machine.execOr d a b s
  | .xor d a b => Sys2Proof.Machine.execXor d a b s
  | .andn d a b => Sys2Proof.Machine.execAndn d a b s
  | .orn d a b => Sys2Proof.Machine.execOrn d a b s
  | .xnor d a b => Sys2Proof.Machine.execXnor d a b s
  | .sll d a b => Sys2Proof.Machine.execSll d a b s
  | .srl d a b => Sys2Proof.Machine.execSrl d a b s
  | .sra d a b => Sys2Proof.Machine.execSra d a b s
  | .rol d a b => Sys2Proof.Machine.execRol d a b s
  | .ror d a b => Sys2Proof.Machine.execRor d a b s
  | .slt d a b => Sys2Proof.Machine.execSlt d a b s
  | .sltu d a b => Sys2Proof.Machine.execSltu d a b s
  | .min d a b => Sys2Proof.Machine.execMin d a b s
  | .max d a b => Sys2Proof.Machine.execMax d a b s
  | .minu d a b => Sys2Proof.Machine.execMinu d a b s
  | .maxu d a b => Sys2Proof.Machine.execMaxu d a b s
  | .addw d a b => Sys2Proof.Machine.execAddw d a b s
  | .subw d a b => Sys2Proof.Machine.execSubw d a b s
  | .addLit d a lit => Sys2Proof.Machine.execAddLit d a lit s
  | .subLit d a lit => Sys2Proof.Machine.execSubLit d a lit s
  | .andLit d a lit => Sys2Proof.Machine.execAndLit d a lit s
  | .orLit d a lit => Sys2Proof.Machine.execOrLit d a lit s
  | .xorLit d a lit => Sys2Proof.Machine.execXorLit d a lit s
  | .andnLit d a lit => Sys2Proof.Machine.execAndnLit d a lit s
  | .ornLit d a lit => Sys2Proof.Machine.execOrnLit d a lit s
  | .xnorLit d a lit => Sys2Proof.Machine.execXnorLit d a lit s
  | .sllLit d a lit => Sys2Proof.Machine.execSllLit d a lit s
  | .srlLit d a lit => Sys2Proof.Machine.execSrlLit d a lit s
  | .sraLit d a lit => Sys2Proof.Machine.execSraLit d a lit s
  | .rolLit d a lit => Sys2Proof.Machine.execRolLit d a lit s
  | .rorLit d a lit => Sys2Proof.Machine.execRorLit d a lit s
  | .sltLit d a lit => Sys2Proof.Machine.execSltLit d a lit s
  | .sltuLit d a lit => Sys2Proof.Machine.execSltuLit d a lit s
  | .minLit d a lit => Sys2Proof.Machine.execMinLit d a lit s
  | .maxLit d a lit => Sys2Proof.Machine.execMaxLit d a lit s
  | .minuLit d a lit => Sys2Proof.Machine.execMinuLit d a lit s
  | .maxuLit d a lit => Sys2Proof.Machine.execMaxuLit d a lit s
  | .addwLit d a lit => Sys2Proof.Machine.execAddwLit d a lit s
  | .subwLit d a lit => Sys2Proof.Machine.execSubwLit d a lit s
  | .addi d a imm => Sys2Proof.Machine.execAddi d a imm s
  | .andi d a imm => Sys2Proof.Machine.execAndi d a imm s
  | .ori d a imm => Sys2Proof.Machine.execOri d a imm s
  | .xori d a imm => Sys2Proof.Machine.execXori d a imm s
  | .slli d a sh => Sys2Proof.Machine.execSlli d a sh s
  | .srli d a sh => Sys2Proof.Machine.execSrli d a sh s
  | .srai d a sh => Sys2Proof.Machine.execSrai d a sh s
  | .slti d a imm => Sys2Proof.Machine.execSlti d a imm s
  | .sltiu d a imm => Sys2Proof.Machine.execSltiu d a imm s
  | .addwi d a imm => Sys2Proof.Machine.execAddwi d a imm s
  | .addiLit d a lit => Sys2Proof.Machine.execAddiLit d a lit s
  | .andiLit d a lit => Sys2Proof.Machine.execAndiLit d a lit s
  | .oriLit d a lit => Sys2Proof.Machine.execOriLit d a lit s
  | .xoriLit d a lit => Sys2Proof.Machine.execXoriLit d a lit s
  | .sltiLit d a lit => Sys2Proof.Machine.execSltiLit d a lit s
  | .sltiuLit d a lit => Sys2Proof.Machine.execSltiuLit d a lit s
  | .addwiLit d a lit => Sys2Proof.Machine.execAddwiLit d a lit s
  | .ldk d k => Sys2Proof.Machine.execLdk d k s
  | .addk d a k => Sys2Proof.Machine.execAddk d a k s
  | .mul d a b => Sys2Proof.Machine.execMul d a b s
  | .mulh d a b => Sys2Proof.Machine.execMulh d a b s
  | .mulhu d a b => Sys2Proof.Machine.execMulhu d a b s
  | .mulhmx d a b => Sys2Proof.Machine.execMulhmx d a b s
  | .div d a b => Sys2Proof.Machine.execDiv d a b s
  | .divu d a b => Sys2Proof.Machine.execDivu d a b s
  | .rem d a b => Sys2Proof.Machine.execRem d a b s
  | .remu d a b => Sys2Proof.Machine.execRemu d a b s
  | .clz d a => Sys2Proof.Machine.execClz d a s
  | .ctz d a => Sys2Proof.Machine.execCtz d a s
  | .popc d a => Sys2Proof.Machine.execPopc d a s
  | .brev d a => Sys2Proof.Machine.execBrev d a s
  | .bswap d a => Sys2Proof.Machine.execBswap d a s
  | .sextb d a => Sys2Proof.Machine.execSextb d a s
  | .sexth d a => Sys2Proof.Machine.execSexth d a s
  | .zexth d a => Sys2Proof.Machine.execZexth d a s
  | .zextw d a => Sys2Proof.Machine.execZextw d a s
  | .bext d a b => Sys2Proof.Machine.execBext d a b s
  | .bdep d a b => Sys2Proof.Machine.execBdep d a b s
  | .bextLit d a lit => Sys2Proof.Machine.execBextLit d a lit s
  | .bdepLit d a lit => Sys2Proof.Machine.execBdepLit d a lit s
  | .li d imm => Sys2Proof.Machine.execLi d imm s
  | .liLit d lit => Sys2Proof.Machine.execLiLit d lit s
  | .pcadd d imm => Sys2Proof.Machine.execPcadd d imm s
  | .pcaddLit d lit => Sys2Proof.Machine.execPcaddLit d lit s
  | .sel d a b => Sys2Proof.Machine.execSel d a b s
  | .seq d a b => Sys2Proof.Machine.execSeq d a b s
  | .sne d a b => Sys2Proof.Machine.execSne d a b s
  | .seqLit d a lit => Sys2Proof.Machine.execSeqLit d a lit s
  | .sneLit d a lit => Sys2Proof.Machine.execSneLit d a lit s
  | .beq a b off => Sys2Proof.Machine.execBeq a b off s
  | .bne a b off => Sys2Proof.Machine.execBne a b off s
  | .blt a b off => Sys2Proof.Machine.execBlt a b off s
  | .bge a b off => Sys2Proof.Machine.execBge a b off s
  | .bltu a b off => Sys2Proof.Machine.execBltu a b off s
  | .bgeu a b off => Sys2Proof.Machine.execBgeu a b off s
  | .beqExt a b off => Sys2Proof.Machine.execBeqExt a b off s
  | .bneExt a b off => Sys2Proof.Machine.execBneExt a b off s
  | .bltExt a b off => Sys2Proof.Machine.execBltExt a b off s
  | .bgeExt a b off => Sys2Proof.Machine.execBgeExt a b off s
  | .bltuExt a b off => Sys2Proof.Machine.execBltuExt a b off s
  | .bgeuExt a b off => Sys2Proof.Machine.execBgeuExt a b off s
  | .jal d off => Sys2Proof.Machine.execJal d off s
  | .jalExt d off => Sys2Proof.Machine.execJalExt d off s
  | .jalr d a imm => Sys2Proof.Machine.execJalr d a imm s
  | .lb d a off os => Sys2Proof.Machine.execLb d a off os s
  | .lbu d a off os => Sys2Proof.Machine.execLbu d a off os s
  | .lh d a off os => Sys2Proof.Machine.execLh d a off os s
  | .lhu d a off os => Sys2Proof.Machine.execLhu d a off os s
  | .lw d a off os => Sys2Proof.Machine.execLw d a off os s
  | .lwu d a off os => Sys2Proof.Machine.execLwu d a off os s
  | .ld d a off os => Sys2Proof.Machine.execLd d a off os s
  | .lbLit d a lit os => Sys2Proof.Machine.execLbLit d a lit os s
  | .lbuLit d a lit os => Sys2Proof.Machine.execLbuLit d a lit os s
  | .lhLit d a lit os => Sys2Proof.Machine.execLhLit d a lit os s
  | .lhuLit d a lit os => Sys2Proof.Machine.execLhuLit d a lit os s
  | .lwLit d a lit os => Sys2Proof.Machine.execLwLit d a lit os s
  | .lwuLit d a lit os => Sys2Proof.Machine.execLwuLit d a lit os s
  | .ldLit d a lit os => Sys2Proof.Machine.execLdLit d a lit os s
  | .lbExt d a off os => Sys2Proof.Machine.execLbExt d a off os s
  | .lbuExt d a off os => Sys2Proof.Machine.execLbuExt d a off os s
  | .lhExt d a off os => Sys2Proof.Machine.execLhExt d a off os s
  | .lhuExt d a off os => Sys2Proof.Machine.execLhuExt d a off os s
  | .lwExt d a off os => Sys2Proof.Machine.execLwExt d a off os s
  | .lwuExt d a off os => Sys2Proof.Machine.execLwuExt d a off os s
  | .ldExt d a off os => Sys2Proof.Machine.execLdExt d a off os s
  | .sb r a off os => Sys2Proof.Machine.execSb r a off os s
  | .sh r a off os => Sys2Proof.Machine.execSh r a off os s
  | .sw r a off os => Sys2Proof.Machine.execSw r a off os s
  | .sd r a off os => Sys2Proof.Machine.execSd r a off os s
  | .pstore r a off => Sys2Proof.Machine.execPstore r a off s
  | .sbLit r a lit os => Sys2Proof.Machine.execSbLit r a lit os s
  | .shLit r a lit os => Sys2Proof.Machine.execShLit r a lit os s
  | .swLit r a lit os => Sys2Proof.Machine.execSwLit r a lit os s
  | .sdLit r a lit os => Sys2Proof.Machine.execSdLit r a lit os s
  | .pstoreLit r a lit => Sys2Proof.Machine.execPstoreLit r a lit s
  | .sbExt r a off os => Sys2Proof.Machine.execSbExt r a off os s
  | .shExt r a off os => Sys2Proof.Machine.execShExt r a off os s
  | .swExt r a off os => Sys2Proof.Machine.execSwExt r a off os s
  | .sdExt r a off os => Sys2Proof.Machine.execSdExt r a off os s
  | .pstoreExt r a off => Sys2Proof.Machine.execPstoreExt r a off s
  | .amoadd d a b dbl os => Sys2Proof.Machine.execAmoadd d a b dbl os s
  | .amoand d a b dbl os => Sys2Proof.Machine.execAmoand d a b dbl os s
  | .amoor d a b dbl os => Sys2Proof.Machine.execAmoor d a b dbl os s
  | .amoxor d a b dbl os => Sys2Proof.Machine.execAmoxor d a b dbl os s
  | .amomin d a b dbl os => Sys2Proof.Machine.execAmomin d a b dbl os s
  | .amomax d a b dbl os => Sys2Proof.Machine.execAmomax d a b dbl os s
  | .amominu d a b dbl os => Sys2Proof.Machine.execAmominu d a b dbl os s
  | .amomaxu d a b dbl os => Sys2Proof.Machine.execAmomaxu d a b dbl os s
  | .amoswap d a b dbl os => Sys2Proof.Machine.execAmoswap d a b dbl os s
  | .amocas d a b dbl os => Sys2Proof.Machine.execAmocas d a b dbl os s
  | .amofadd d a b dbl os => Sys2Proof.Machine.execAmofadd d a b dbl os s
  | .abump d a b os => Sys2Proof.Machine.execAbump d a b os s
  | .fence sc k => Sys2Proof.Machine.execFence sc k s
  | .fencex sc k p1 p2 => Sys2Proof.Machine.execFencex sc k p1 p2 s
  | .ifence => Sys2Proof.Machine.execIfence s
  | .fadd p rm d a b => Sys2Proof.Machine.execFadd p rm d a b s
  | .fsub p rm d a b => Sys2Proof.Machine.execFsub p rm d a b s
  | .fmul p rm d a b => Sys2Proof.Machine.execFmul p rm d a b s
  | .fdiv p rm d a b => Sys2Proof.Machine.execFdiv p rm d a b s
  | .fsqrt p rm d a => Sys2Proof.Machine.execFsqrt p rm d a s
  | .fmin p d a b => Sys2Proof.Machine.execFmin p d a b s
  | .fmax p d a b => Sys2Proof.Machine.execFmax p d a b s
  | .feq p d a b => Sys2Proof.Machine.execFeq p d a b s
  | .flt p d a b => Sys2Proof.Machine.execFlt p d a b s
  | .fle p d a b => Sys2Proof.Machine.execFle p d a b s
  | .fclass p d a => Sys2Proof.Machine.execFclass p d a s
  | .fsgnj p d a b => Sys2Proof.Machine.execFsgnj p d a b s
  | .fabs p d a => Sys2Proof.Machine.execFabs p d a s
  | .fmac p rm d a b => Sys2Proof.Machine.execFmac p rm d a b s
  | .fmsc p rm d a b => Sys2Proof.Machine.execFmsc p rm d a b s
  | .fmacExt p rm d a b c => Sys2Proof.Machine.execFmacExt p rm d a b c s
  | .fmscExt p rm d a b c => Sys2Proof.Machine.execFmscExt p rm d a b c s
  | .fcvt dst src rm d a => Sys2Proof.Machine.execFcvt dst src rm d a s
  | .vadd ty d a b m => Sys2Proof.Machine.execVadd ty d a b m s
  | .vsub ty d a b m => Sys2Proof.Machine.execVsub ty d a b m s
  | .vmul ty d a b m => Sys2Proof.Machine.execVmul ty d a b m s
  | .vmulh ty d a b m => Sys2Proof.Machine.execVmulh ty d a b m s
  | .vadds ty d a b m => Sys2Proof.Machine.execVadds ty d a b m s
  | .vsubs ty d a b m => Sys2Proof.Machine.execVsubs ty d a b m s
  | .vabs ty d a m => Sys2Proof.Machine.execVabs ty d a m s
  | .vmin ty d a b m => Sys2Proof.Machine.execVmin ty d a b m s
  | .vmax ty d a b m => Sys2Proof.Machine.execVmax ty d a b m s
  | .vand ty d a b m => Sys2Proof.Machine.execVand ty d a b m s
  | .vor ty d a b m => Sys2Proof.Machine.execVor ty d a b m s
  | .vxor ty d a b m => Sys2Proof.Machine.execVxor ty d a b m s
  | .vsll ty d a b m => Sys2Proof.Machine.execVsll ty d a b m s
  | .vsrl ty d a b m => Sys2Proof.Machine.execVsrl ty d a b m s
  | .vsra ty d a b m => Sys2Proof.Machine.execVsra ty d a b m s
  | .vfadd ty d a b m => Sys2Proof.Machine.execVfadd ty d a b m s
  | .vfsub ty d a b m => Sys2Proof.Machine.execVfsub ty d a b m s
  | .vfmul ty d a b m => Sys2Proof.Machine.execVfmul ty d a b m s
  | .vfdiv ty d a b m => Sys2Proof.Machine.execVfdiv ty d a b m s
  | .vfsqrt ty d a m => Sys2Proof.Machine.execVfsqrt ty d a m s
  | .vfmin ty d a b m => Sys2Proof.Machine.execVfmin ty d a b m s
  | .vfmax ty d a b m => Sys2Proof.Machine.execVfmax ty d a b m s
  | .vfexp2 ty d a m => Sys2Proof.Machine.execVfexp2 ty d a m s
  | .vfrcp ty d a m => Sys2Proof.Machine.execVfrcp ty d a m s
  | .vfrsqrt ty d a m => Sys2Proof.Machine.execVfrsqrt ty d a m s
  | .vload v a off m => Sys2Proof.Machine.execVload v a off m s
  | .vstore v a off m => Sys2Proof.Machine.execVstore v a off m s
  | .vgather e v vi a m => Sys2Proof.Machine.execVgather e v vi a m s
  | .vscatter e v vi a m => Sys2Proof.Machine.execVscatter e v vi a m s
  | .vloadb e v a off m => Sys2Proof.Machine.execVloadb e v a off m s
  | .vloadLit v a lit m => Sys2Proof.Machine.execVloadLit v a lit m s
  | .vstoreLit v a lit m => Sys2Proof.Machine.execVstoreLit v a lit m s
  | .vloadbLit e v a lit m => Sys2Proof.Machine.execVloadbLit e v a lit m s
  | .vloadExt v a off m => Sys2Proof.Machine.execVloadExt v a off m s
  | .vstoreExt v a off m => Sys2Proof.Machine.execVstoreExt v a off m s
  | .vloadbExt e v a off m => Sys2Proof.Machine.execVloadbExt e v a off m s
  | .vcmpEq ty md a b m => Sys2Proof.Machine.execVcmpEq ty md a b m s
  | .vcmpNe ty md a b m => Sys2Proof.Machine.execVcmpNe ty md a b m s
  | .vcmpLt ty md a b m => Sys2Proof.Machine.execVcmpLt ty md a b m s
  | .vcmpLe ty md a b m => Sys2Proof.Machine.execVcmpLe ty md a b m s
  | .vcmpLtu ty md a b m => Sys2Proof.Machine.execVcmpLtu ty md a b m s
  | .vcmpLeu ty md a b m => Sys2Proof.Machine.execVcmpLeu ty md a b m s
  | .vsel ty d a b m => Sys2Proof.Machine.execVsel ty d a b m s
  | .vbcast ty d xs m => Sys2Proof.Machine.execVbcast ty d xs m s
  | .vext ty xd a xi => Sys2Proof.Machine.execVext ty xd a xi s
  | .vins ty d xs xi => Sys2Proof.Machine.execVins ty d xs xi s
  | .vperm ty d a b m => Sys2Proof.Machine.execVperm ty d a b m s
  | .vslide ty d a xk m => Sys2Proof.Machine.execVslide ty d a xk m s
  | .vredsum ty xd a m => Sys2Proof.Machine.execVredsum ty xd a m s
  | .vredmax ty xd a m => Sys2Proof.Machine.execVredmax ty xd a m s
  | .vredmin ty xd a m => Sys2Proof.Machine.execVredmin ty xd a m s
  | .vcvt dty sty d a m => Sys2Proof.Machine.execVcvt dty sty d a m s
  | .vmov ty d a m => Sys2Proof.Machine.execVmov ty d a m s
  | .mand md a b => Sys2Proof.Machine.execMand md a b s
  | .mor md a b => Sys2Proof.Machine.execMor md a b s
  | .mxor md a b => Sys2Proof.Machine.execMxor md a b s
  | .mnot md a => Sys2Proof.Machine.execMnot md a s
  | .mpop d a => Sys2Proof.Machine.execMpop d a s
  | .mfirst d a => Sys2Proof.Machine.execMfirst d a s
  | .mfromx md xs => Sys2Proof.Machine.execMfromx md xs s
  | .mtox d a => Sys2Proof.Machine.execMtox d a s
  | .vfmac ty d a b m => Sys2Proof.Machine.execVfmac ty d a b m s
  | .vdot4 d a b m => Sys2Proof.Machine.execVdot4 d a b m s
  | .tload t xa xs => Sys2Proof.Machine.execTload t xa xs s
  | .tloadt t xa xs => Sys2Proof.Machine.execTloadt t xa xs s
  | .tloads t xa xs => Sys2Proof.Machine.execTloads t xa xs s
  | .tstore t xa xs => Sys2Proof.Machine.execTstore t xa xs s
  | .taccld acc xa xs => Sys2Proof.Machine.execTaccld acc xa xs s
  | .taccst acc xa xs => Sys2Proof.Machine.execTaccst acc xa xs s
  | .tmma acc ta tb => Sys2Proof.Machine.execTmma acc ta tb s
  | .taccout td acc ta tb cb => Sys2Proof.Machine.execTaccout td acc ta tb cb s
  | .taccadd accd accs => Sys2Proof.Machine.execTaccadd accd accs s
  | .tzero td => Sys2Proof.Machine.execTzero td s
  | .taccz acc => Sys2Proof.Machine.execTaccz acc s
  | .txch tp ta h => Sys2Proof.Machine.execTxch tp ta h s
  | .tcvt td ta => Sys2Proof.Machine.execTcvt td ta s
  | .verst v xa xv os => Sys2Proof.Machine.execVerst v xa xv os s
  | .verld v xa xv os => Sys2Proof.Machine.execVerld v xa xv os s
  | .verldle v xa xv os => Sys2Proof.Machine.execVerldle v xa xv os s
  | .verprobe d xa xv => Sys2Proof.Machine.execVerprobe d xa xv s
  | .verfloor d xa xf os => Sys2Proof.Machine.execVerfloor d xa xf os s
  | .verdrop xa os => Sys2Proof.Machine.execVerdrop xa os s
  | .cpy1 xd xs xn xc xv => Sys2Proof.Machine.execCpy1 xd xs xn xc xv s
  | .cpy2 xd xs xn xc xv => Sys2Proof.Machine.execCpy2 xd xs xn xc xv s
  | .cpy3 xd xs xn xc xv => Sys2Proof.Machine.execCpy3 xd xs xn xc xv s
  | .cpyv xd xs xn xver xc xv => Sys2Proof.Machine.execCpyv xd xs xn xver xc xv s
  | .cpyq xd xs xn xc xv => Sys2Proof.Machine.execCpyq xd xs xn xc xv s
  | .cpyx xd xs xn xc xv => Sys2Proof.Machine.execCpyx xd xs xn xc xv s
  | .cpy1Lit xd xs xn xc lit => Sys2Proof.Machine.execCpy1Lit xd xs xn xc lit s
  | .cpy2Lit xd xs xn xc lit => Sys2Proof.Machine.execCpy2Lit xd xs xn xc lit s
  | .cpy3Lit xd xs xn xc lit => Sys2Proof.Machine.execCpy3Lit xd xs xn xc lit s
  | .cpyvLit xd xs xn xver xc lit => Sys2Proof.Machine.execCpyvLit xd xs xn xver xc lit s
  | .cpyqLit xd xs xn xc lit => Sys2Proof.Machine.execCpyqLit xd xs xn xc lit s
  | .cpyxLit xd xs xn xc lit => Sys2Proof.Machine.execCpyxLit xd xs xn xc lit s
  | .collred op fmt br xd xs xn xc xr => Sys2Proof.Machine.execCollred op fmt br xd xs xn xc xr s
  | .collgath fmt br xd xs xn xc xr => Sys2Proof.Machine.execCollgath fmt br xd xs xn xc xr s
  | .collbcast fmt br xd xs xn xc xr => Sys2Proof.Machine.execCollbcast fmt br xd xs xn xc xr s
  | .msend d v xt => Sys2Proof.Machine.execMsend d v xt s
  | .mrecv d v => Sys2Proof.Machine.execMrecv d v s
  | .mpoll d => Sys2Proof.Machine.execMpoll d s
  | .pause n => Sys2Proof.Machine.execPause n s
  | .waita d xv xa => Sys2Proof.Machine.execWaita d xv xa s
  | .clave d xs xk => Sys2Proof.Machine.execClave d xs xk s
  | .clavev vd vs xk => Sys2Proof.Machine.execClavev vd vs xk s
  | .claveg vd xs xk => Sys2Proof.Machine.execClaveg vd xs xk s
  | .bara h => Sys2Proof.Machine.execBara h s
  | .barw h => Sys2Proof.Machine.execBarw h s
  | .barwSs => Sys2Proof.Machine.execBarwSs s
  | .barq d h => Sys2Proof.Machine.execBarq d h s
  | .slpush v => Sys2Proof.Machine.execSlpush v s
  | .slpop v => Sys2Proof.Machine.execSlpop v s
  | .slfree d => Sys2Proof.Machine.execSlfree d s
  | .slpeek d v => Sys2Proof.Machine.execSlpeek d v s
  | .strike d xs => Sys2Proof.Machine.execStrike d xs s
  | .migr xc isl w1 => Sys2Proof.Machine.execMigr xc isl w1 s
  | .csrr d csr => Sys2Proof.Machine.execCsrr d csr s
  | .csrw d csr a => Sys2Proof.Machine.execCsrw d csr a s
  | .csrs d csr a => Sys2Proof.Machine.execCsrs d csr a s
  | .csrc d csr a => Sys2Proof.Machine.execCsrc d csr a s
  | .scall => Sys2Proof.Machine.execScall s
  | .brk => Sys2Proof.Machine.execBrk s
  | .threadDone => Sys2Proof.Machine.execThreadDone s
  | .yieldTurn => Sys2Proof.Machine.execYieldTurn s
  | .eret => Sys2Proof.Machine.execEret s
  | .halt => Sys2Proof.Machine.execHalt s
  | .tlbinv xa xs => Sys2Proof.Machine.execTlbinv xa xs s
  | .mark d a b => Sys2Proof.Machine.execMark d a b s
  | .evDeferredTrapTake tid => Sys2Proof.Machine.execEvDeferredTrapTake tid s
  | .evFirmwarePageValidate ix => Sys2Proof.Machine.execEvFirmwarePageValidate ix s
  | .evServicedFaultRestart ix => Sys2Proof.Machine.execEvServicedFaultRestart ix s
  | .evWaitaMonitorMatch tid => Sys2Proof.Machine.execEvWaitaMonitorMatch tid s
  | .evWaitTimeout tid => Sys2Proof.Machine.execEvWaitTimeout tid s
  | .evVerWait tid => Sys2Proof.Machine.execEvVerWait tid s
  | .evVerFull tid => Sys2Proof.Machine.execEvVerFull tid s
  | .evBarStall tid => Sys2Proof.Machine.execEvBarStall tid s
  | .evClaveTimeout tid => Sys2Proof.Machine.execEvClaveTimeout tid s
  | .evSlDown tid => Sys2Proof.Machine.execEvSlDown tid s
  | .evSlEntryArrive core => Sys2Proof.Machine.execEvSlEntryArrive core s
  | .evSlCreditArrive core => Sys2Proof.Machine.execEvSlCreditArrive core s
  | .evPauseIntervalEnd tid => Sys2Proof.Machine.execEvPauseIntervalEnd tid s
  | .evMqTmmaExecute core => Sys2Proof.Machine.execEvMqTmmaExecute core s
  | .evMqTaccoutExecute core => Sys2Proof.Machine.execEvMqTaccoutExecute core s
  | .evMqTaccaddExecute core => Sys2Proof.Machine.execEvMqTaccaddExecute core s
  | .evMqTzeroExecute core => Sys2Proof.Machine.execEvMqTzeroExecute core s
  | .evMqTacczExecute core => Sys2Proof.Machine.execEvMqTacczExecute core s
  | .evMqTxchExecute core => Sys2Proof.Machine.execEvMqTxchExecute core s
  | .evMqTcvtExecute core => Sys2Proof.Machine.execEvMqTcvtExecute core s
  | .evCeGranuleTransfer core slot off => Sys2Proof.Machine.execEvCeGranuleTransfer core slot off s
  | .evCollectiveExecute gid peer => Sys2Proof.Machine.execEvCollectiveExecute gid peer s
  | .evBindcmdRead tid => Sys2Proof.Machine.execEvBindcmdRead tid s
  | .evBindcmdWrite tid => Sys2Proof.Machine.execEvBindcmdWrite tid s
  | .evBindZeroingDone tid => Sys2Proof.Machine.execEvBindZeroingDone tid s
  | .evBindcmdGo tid => Sys2Proof.Machine.execEvBindcmdGo tid s
  | .evBindcmdStop tid => Sys2Proof.Machine.execEvBindcmdStop tid s
  | .evThreadStop tid => Sys2Proof.Machine.execEvThreadStop tid s
  | .evGangStopSaveComplete gid => Sys2Proof.Machine.execEvGangStopSaveComplete gid s
  | .evTaskBind gid cores => Sys2Proof.Machine.execEvTaskBind gid cores s
  | .evPriorityAging gid => Sys2Proof.Machine.execEvPriorityAging gid s
  | .evQuantumPreempt gid waiting => Sys2Proof.Machine.execEvQuantumPreempt gid waiting s
  | .evLaunch qif queue => Sys2Proof.Machine.execEvLaunch qif queue s
  | .evSignal qif queue => Sys2Proof.Machine.execEvSignal qif queue s
  | .evWaitq qif queue => Sys2Proof.Machine.execEvWaitq qif queue s
  | .evWaitqSatisfied qif queue => Sys2Proof.Machine.execEvWaitqSatisfied qif queue s
  | .evWaitqTimeout qif queue => Sys2Proof.Machine.execEvWaitqTimeout qif queue s
  | .evControl qif queue => Sys2Proof.Machine.execEvControl qif queue s
  | .evCapstart qif queue => Sys2Proof.Machine.execEvCapstart qif queue s
  | .evCapstop qif queue => Sys2Proof.Machine.execEvCapstop qif queue s
  | .evQueueNotify qif off data => Sys2Proof.Machine.execEvQueueNotify qif off data s
  | .evQifEnableWrite qif data => Sys2Proof.Machine.execEvQifEnableWrite qif data s
  | .evQifReset qif => Sys2Proof.Machine.execEvQifReset qif s
  | .evQifResetComplete qif => Sys2Proof.Machine.execEvQifResetComplete qif s
  | .evS2inv qif data => Sys2Proof.Machine.execEvS2inv qif data s
  | .evInvreq qif data => Sys2Proof.Machine.execEvInvreq qif data s
  | .evDbgresume qif data => Sys2Proof.Machine.execEvDbgresume qif data s
  | .evDbgstop qif data => Sys2Proof.Machine.execEvDbgstop qif data s
  | .evRestart qif queue => Sys2Proof.Machine.execEvRestart qif queue s
  | .evCheadWrite qif queue data => Sys2Proof.Machine.execEvCheadWrite qif queue data s
  | .evFaultRingWrite qif off data => Sys2Proof.Machine.execEvFaultRingWrite qif off data s
  | .evFresp qif data => Sys2Proof.Machine.execEvFresp qif data s
  | .evFileFaultWaitLimit ix => Sys2Proof.Machine.execEvFileFaultWaitLimit ix s
  | .evTenantTableWrite t word data => Sys2Proof.Machine.execEvTenantTableWrite t word data s
  | .evMsisend data => Sys2Proof.Machine.execEvMsisend data s
  | .evAttbuf data => Sys2Proof.Machine.execEvAttbuf data s
  | .evAttestationDone => Sys2Proof.Machine.execEvAttestationDone s
  | .evVminsel data => Sys2Proof.Machine.execEvVminsel data s
  | .evVmintimeRead => Sys2Proof.Machine.execEvVmintimeRead s
  | .evRecoveryLoad verdict => Sys2Proof.Machine.execEvRecoveryLoad verdict s
  | .evRecoveryLoadFlash verdict => Sys2Proof.Machine.execEvRecoveryLoadFlash verdict s
  | .evRegisterWrite off data => Sys2Proof.Machine.execEvRegisterWrite off data s
  | .evHostCxlAccess hbm store addr data => Sys2Proof.Machine.execEvHostCxlAccess hbm store addr data s
  | .evBridgeLinkUp port serial => Sys2Proof.Machine.execEvBridgeLinkUp port serial s
  | .evBridgeFlitReceive port flit => Sys2Proof.Machine.execEvBridgeFlitReceive port flit s
  | .evBridgeRetrain port => Sys2Proof.Machine.execEvBridgeRetrain port s
  | .evBridgePortDown port => Sys2Proof.Machine.execEvBridgePortDown port s
  | .evBridgeSlackDecision gid sstep => Sys2Proof.Machine.execEvBridgeSlackDecision gid sstep s
  | .evWcFlush granule => Sys2Proof.Machine.execEvWcFlush granule s
  | .evLmBoundaryTick core up => Sys2Proof.Machine.execEvLmBoundaryTick core up s
  | .evQuadrantIdleDown q target => Sys2Proof.Machine.execEvQuadrantIdleDown q target s
  | .evQuadrantRaise q => Sys2Proof.Machine.execEvQuadrantRaise q s
  | .evBindWakeRequest gid q => Sys2Proof.Machine.execEvBindWakeRequest gid q s
  | .evWakeComplete w => Sys2Proof.Machine.execEvWakeComplete w s
  | .evStrikerRecordDelivery t => Sys2Proof.Machine.execEvStrikerRecordDelivery t s
  | .evTaborModeSwitch => Sys2Proof.Machine.execEvTaborModeSwitch s
  | .evLpddr6SelfRefreshEntry => Sys2Proof.Machine.execEvLpddr6SelfRefreshEntry s
  | .evCoreC1Entry core => Sys2Proof.Machine.execEvCoreC1Entry core s
  | .evCoreC2Entry core => Sys2Proof.Machine.execEvCoreC2Entry core s
  | .evDomainSwitchOn d busy => Sys2Proof.Machine.execEvDomainSwitchOn d busy s
  | .evSwitchOnNeighbourTimeout d => Sys2Proof.Machine.execEvSwitchOnNeighbourTimeout d s
  | .evSwitchOnRampComplete d => Sys2Proof.Machine.execEvSwitchOnRampComplete d s
  | .evCoolingReport medium inlet flow => Sys2Proof.Machine.execEvCoolingReport medium inlet flow s
  | .evCoolingSensorTimeout => Sys2Proof.Machine.execEvCoolingSensorTimeout s
  | .evTallowUpdate cluster tj => Sys2Proof.Machine.execEvTallowUpdate cluster tj s
  | .evHbmTempThreshold stack temp => Sys2Proof.Machine.execEvHbmTempThreshold stack temp s
  | .evHbmThermalStep stack => Sys2Proof.Machine.execEvHbmThermalStep stack s
  | .evBellowsLimitStep clusters => Sys2Proof.Machine.execEvBellowsLimitStep clusters s
  | .evBellowsRaiseStep clusters => Sys2Proof.Machine.execEvBellowsRaiseStep clusters s
  | .evPowerEstimateTick cluster volt temp => Sys2Proof.Machine.execEvPowerEstimateTick cluster volt temp s
  | .evPowerWeightRefit q energy => Sys2Proof.Machine.execEvPowerWeightRefit q energy s
  | .evClockRatioHandshake cluster => Sys2Proof.Machine.execEvClockRatioHandshake cluster s
  | .evLadleMigration gid cores => Sys2Proof.Machine.execEvLadleMigration gid cores s
  | .evCeSummaryTick => Sys2Proof.Machine.execEvCeSummaryTick s
  | .evPatrolScrub key => Sys2Proof.Machine.execEvPatrolScrub key s
  | .evPhaseFailure d phase => Sys2Proof.Machine.execEvPhaseFailure d phase s
  | .evColdStart failStep => Sys2Proof.Machine.execEvColdStart failStep s
  | .evWarmStart failStep => Sys2Proof.Machine.execEvWarmStart failStep s
  | .evRudimentHeldRelease tid => Sys2Proof.Machine.execEvRudimentHeldRelease tid s
  | .evReplayWaitExpiry tid => Sys2Proof.Machine.execEvReplayWaitExpiry tid s
  | .evDomainPowerGate d => Sys2Proof.Machine.execEvDomainPowerGate d s
  | .evServiceWaitLimit qif queue => Sys2Proof.Machine.execEvServiceWaitLimit qif queue s
  | .evCpyvVersionWaitLimit core slot off => Sys2Proof.Machine.execEvCpyvVersionWaitLimit core slot off s
  | .evMsixVectorUnmask entry data => Sys2Proof.Machine.execEvMsixVectorUnmask entry data s
  | .evAlwaysOnPowerLoss => Sys2Proof.Machine.execEvAlwaysOnPowerLoss s
  | .evSupplyVoltageMinimum d mv => Sys2Proof.Machine.execEvSupplyVoltageMinimum d mv s

end Sys2Proof.Machine
end

