-- ==== Sys2Proof/Machine/Parity.lean ====
section
/-!
DEFINITION. Parity of the register files (spec/22, R480): which register words an instruction reads and writes, a bad word read, a
word written good again.
-/
namespace Sys2Proof.Machine

/-- Words of a scalar register: x0 is no storage. -/
def xWords (r : XReg) : List Nat := if r = 0 then [] else [r.val]
/-- Words of a scalar register named by four bits. -/
def lWords (r : LReg) : List Nat := xWords (lreg r)
/-- Words of a vector register. -/
def vWords (r : VReg) : List Nat := countFrom (32 + 8 * r.val) 8
/-- The word of a mask register. -/
def mWords (r : MReg) : List Nat := [160 + r.val]
/-- The word of a mask field: code 0 reads no register (R34). -/
def maskWords (r : MReg) : List Nat := if r = 0 then [] else mWords r
/-- A masked destination keeps its inactive lanes, so it is read. -/
def oldWords (v : VReg) (m : MReg) : List Nat := if m = 0 then [] else vWords v

/-- Register words that an instruction reads. -/
def regReads (i : Instr) : List Nat :=
  match i with
  | .add _ a b => xWords a ++ xWords b
  | .sub _ a b => xWords a ++ xWords b
  | .and _ a b => xWords a ++ xWords b
  | .or _ a b => xWords a ++ xWords b
  | .xor _ a b => xWords a ++ xWords b
  | .andn _ a b => xWords a ++ xWords b
  | .orn _ a b => xWords a ++ xWords b
  | .xnor _ a b => xWords a ++ xWords b
  | .sll _ a b => xWords a ++ xWords b
  | .srl _ a b => xWords a ++ xWords b
  | .sra _ a b => xWords a ++ xWords b
  | .rol _ a b => xWords a ++ xWords b
  | .ror _ a b => xWords a ++ xWords b
  | .slt _ a b => xWords a ++ xWords b
  | .sltu _ a b => xWords a ++ xWords b
  | .min _ a b => xWords a ++ xWords b
  | .max _ a b => xWords a ++ xWords b
  | .minu _ a b => xWords a ++ xWords b
  | .maxu _ a b => xWords a ++ xWords b
  | .addw _ a b => xWords a ++ xWords b
  | .subw _ a b => xWords a ++ xWords b
  | .addLit _ a _ => xWords a
  | .subLit _ a _ => xWords a
  | .andLit _ a _ => xWords a
  | .orLit _ a _ => xWords a
  | .xorLit _ a _ => xWords a
  | .andnLit _ a _ => xWords a
  | .ornLit _ a _ => xWords a
  | .xnorLit _ a _ => xWords a
  | .sllLit _ a _ => xWords a
  | .srlLit _ a _ => xWords a
  | .sraLit _ a _ => xWords a
  | .rolLit _ a _ => xWords a
  | .rorLit _ a _ => xWords a
  | .sltLit _ a _ => xWords a
  | .sltuLit _ a _ => xWords a
  | .minLit _ a _ => xWords a
  | .maxLit _ a _ => xWords a
  | .minuLit _ a _ => xWords a
  | .maxuLit _ a _ => xWords a
  | .addwLit _ a _ => xWords a
  | .subwLit _ a _ => xWords a
  | .addi _ a _ => xWords a
  | .andi _ a _ => xWords a
  | .ori _ a _ => xWords a
  | .xori _ a _ => xWords a
  | .slli _ a _ => xWords a
  | .srli _ a _ => xWords a
  | .srai _ a _ => xWords a
  | .slti _ a _ => xWords a
  | .sltiu _ a _ => xWords a
  | .addwi _ a _ => xWords a
  | .addiLit _ a _ => xWords a
  | .andiLit _ a _ => xWords a
  | .oriLit _ a _ => xWords a
  | .xoriLit _ a _ => xWords a
  | .sltiLit _ a _ => xWords a
  | .sltiuLit _ a _ => xWords a
  | .addwiLit _ a _ => xWords a
  | .ldk _ _ => []
  | .addk _ a _ => xWords a
  | .mul _ a b => xWords a ++ xWords b
  | .mulh _ a b => xWords a ++ xWords b
  | .mulhu _ a b => xWords a ++ xWords b
  | .mulhmx _ a b => xWords a ++ xWords b
  | .div _ a b => xWords a ++ xWords b
  | .divu _ a b => xWords a ++ xWords b
  | .rem _ a b => xWords a ++ xWords b
  | .remu _ a b => xWords a ++ xWords b
  | .clz _ a => xWords a
  | .ctz _ a => xWords a
  | .popc _ a => xWords a
  | .brev _ a => xWords a
  | .bswap _ a => xWords a
  | .sextb _ a => xWords a
  | .sexth _ a => xWords a
  | .zexth _ a => xWords a
  | .zextw _ a => xWords a
  | .bext _ a b => xWords a ++ xWords b
  | .bdep _ a b => xWords a ++ xWords b
  | .bextLit _ a _ => xWords a
  | .bdepLit _ a _ => xWords a
  | .li _ _ => []
  | .liLit _ _ => []
  | .pcadd _ _ => []
  | .pcaddLit _ _ => []
  | .sel d a b => xWords d ++ xWords a ++ xWords b
  | .seq _ a b => xWords a ++ xWords b
  | .sne _ a b => xWords a ++ xWords b
  | .seqLit _ a _ => xWords a
  | .sneLit _ a _ => xWords a
  | .beq a b _ => xWords a ++ xWords b
  | .bne a b _ => xWords a ++ xWords b
  | .blt a b _ => xWords a ++ xWords b
  | .bge a b _ => xWords a ++ xWords b
  | .bltu a b _ => xWords a ++ xWords b
  | .bgeu a b _ => xWords a ++ xWords b
  | .beqExt a b _ => xWords a ++ xWords b
  | .bneExt a b _ => xWords a ++ xWords b
  | .bltExt a b _ => xWords a ++ xWords b
  | .bgeExt a b _ => xWords a ++ xWords b
  | .bltuExt a b _ => xWords a ++ xWords b
  | .bgeuExt a b _ => xWords a ++ xWords b
  | .jal _ _ => []
  | .jalExt _ _ => []
  | .jalr _ a _ => xWords a
  | .lb _ a _ _ => xWords a
  | .lbu _ a _ _ => xWords a
  | .lh _ a _ _ => xWords a
  | .lhu _ a _ _ => xWords a
  | .lw _ a _ _ => xWords a
  | .lwu _ a _ _ => xWords a
  | .ld _ a _ _ => xWords a
  | .lbLit _ a _ _ => xWords a
  | .lbuLit _ a _ _ => xWords a
  | .lhLit _ a _ _ => xWords a
  | .lhuLit _ a _ _ => xWords a
  | .lwLit _ a _ _ => xWords a
  | .lwuLit _ a _ _ => xWords a
  | .ldLit _ a _ _ => xWords a
  | .lbExt _ a _ _ => xWords a
  | .lbuExt _ a _ _ => xWords a
  | .lhExt _ a _ _ => xWords a
  | .lhuExt _ a _ _ => xWords a
  | .lwExt _ a _ _ => xWords a
  | .lwuExt _ a _ _ => xWords a
  | .ldExt _ a _ _ => xWords a
  | .sb s a _ _ => xWords s ++ xWords a
  | .sh s a _ _ => xWords s ++ xWords a
  | .sw s a _ _ => xWords s ++ xWords a
  | .sd s a _ _ => xWords s ++ xWords a
  | .pstore s a _ => xWords s ++ xWords a
  | .sbLit s a _ _ => xWords s ++ xWords a
  | .shLit s a _ _ => xWords s ++ xWords a
  | .swLit s a _ _ => xWords s ++ xWords a
  | .sdLit s a _ _ => xWords s ++ xWords a
  | .pstoreLit s a _ => xWords s ++ xWords a
  | .sbExt s a _ _ => xWords s ++ xWords a
  | .shExt s a _ _ => xWords s ++ xWords a
  | .swExt s a _ _ => xWords s ++ xWords a
  | .sdExt s a _ _ => xWords s ++ xWords a
  | .pstoreExt s a _ => xWords s ++ xWords a
  | .amoadd _ a b _ _ => xWords a ++ xWords b
  | .amoand _ a b _ _ => xWords a ++ xWords b
  | .amoor _ a b _ _ => xWords a ++ xWords b
  | .amoxor _ a b _ _ => xWords a ++ xWords b
  | .amomin _ a b _ _ => xWords a ++ xWords b
  | .amomax _ a b _ _ => xWords a ++ xWords b
  | .amominu _ a b _ _ => xWords a ++ xWords b
  | .amomaxu _ a b _ _ => xWords a ++ xWords b
  | .amoswap _ a b _ _ => xWords a ++ xWords b
  | .amocas d a b _ _ => xWords d ++ xWords a ++ xWords b
  | .amofadd _ a b _ _ => xWords a ++ xWords b
  | .abump _ a b _ => xWords a ++ xWords b
  | .fence _ _ => []
  | .fencex _ _ _ _ => []
  | .ifence => []
  | .fadd _ _ _ a b => xWords a ++ xWords b
  | .fsub _ _ _ a b => xWords a ++ xWords b
  | .fmul _ _ _ a b => xWords a ++ xWords b
  | .fdiv _ _ _ a b => xWords a ++ xWords b
  | .fsqrt _ _ _ a => xWords a
  | .fmin _ _ a b => xWords a ++ xWords b
  | .fmax _ _ a b => xWords a ++ xWords b
  | .feq _ _ a b => xWords a ++ xWords b
  | .flt _ _ a b => xWords a ++ xWords b
  | .fle _ _ a b => xWords a ++ xWords b
  | .fclass _ _ a => xWords a
  | .fsgnj _ _ a b => xWords a ++ xWords b
  | .fabs _ _ a => xWords a
  | .fmac _ _ d a b => xWords d ++ xWords a ++ xWords b
  | .fmsc _ _ d a b => xWords d ++ xWords a ++ xWords b
  | .fmacExt _ _ _ a b c => xWords a ++ xWords b ++ xWords c
  | .fmscExt _ _ _ a b c => xWords a ++ xWords b ++ xWords c
  | .fcvt _ _ _ _ a => xWords a
  | .vadd _ d a b m => oldWords d m ++ vWords a ++ vWords b ++ maskWords m
  | .vsub _ d a b m => oldWords d m ++ vWords a ++ vWords b ++ maskWords m
  | .vmul _ d a b m => oldWords d m ++ vWords a ++ vWords b ++ maskWords m
  | .vmulh _ d a b m => oldWords d m ++ vWords a ++ vWords b ++ maskWords m
  | .vadds _ d a b m => oldWords d m ++ vWords a ++ vWords b ++ maskWords m
  | .vsubs _ d a b m => oldWords d m ++ vWords a ++ vWords b ++ maskWords m
  | .vabs _ d a m => oldWords d m ++ vWords a ++ maskWords m
  | .vmin _ d a b m => oldWords d m ++ vWords a ++ vWords b ++ maskWords m
  | .vmax _ d a b m => oldWords d m ++ vWords a ++ vWords b ++ maskWords m
  | .vand _ d a b m => oldWords d m ++ vWords a ++ vWords b ++ maskWords m
  | .vor _ d a b m => oldWords d m ++ vWords a ++ vWords b ++ maskWords m
  | .vxor _ d a b m => oldWords d m ++ vWords a ++ vWords b ++ maskWords m
  | .vsll _ d a b m => oldWords d m ++ vWords a ++ vWords b ++ maskWords m
  | .vsrl _ d a b m => oldWords d m ++ vWords a ++ vWords b ++ maskWords m
  | .vsra _ d a b m => oldWords d m ++ vWords a ++ vWords b ++ maskWords m
  | .vfadd _ d a b m => oldWords d m ++ vWords a ++ vWords b ++ maskWords m
  | .vfsub _ d a b m => oldWords d m ++ vWords a ++ vWords b ++ maskWords m
  | .vfmul _ d a b m => oldWords d m ++ vWords a ++ vWords b ++ maskWords m
  | .vfdiv _ d a b m => oldWords d m ++ vWords a ++ vWords b ++ maskWords m
  | .vfsqrt _ d a m => oldWords d m ++ vWords a ++ maskWords m
  | .vfmin _ d a b m => oldWords d m ++ vWords a ++ vWords b ++ maskWords m
  | .vfmax _ d a b m => oldWords d m ++ vWords a ++ vWords b ++ maskWords m
  | .vfexp2 _ d a m => oldWords d m ++ vWords a ++ maskWords m
  | .vfrcp _ d a m => oldWords d m ++ vWords a ++ maskWords m
  | .vfrsqrt _ d a m => oldWords d m ++ vWords a ++ maskWords m
  | .vload v a _ m => oldWords v m ++ xWords a ++ maskWords m
  | .vstore v a _ m => vWords v ++ xWords a ++ maskWords m
  | .vgather _ v vi a m => oldWords v m ++ vWords vi ++ xWords a ++ maskWords m
  | .vscatter _ v vi a m => vWords v ++ vWords vi ++ xWords a ++ maskWords m
  | .vloadb _ v a _ m => oldWords v m ++ xWords a ++ maskWords m
  | .vloadLit v a _ m => oldWords v m ++ xWords a ++ maskWords m
  | .vstoreLit v a _ m => vWords v ++ xWords a ++ maskWords m
  | .vloadbLit _ v a _ m => oldWords v m ++ xWords a ++ maskWords m
  | .vloadExt v a _ m => oldWords v m ++ xWords a ++ maskWords m
  | .vstoreExt v a _ m => vWords v ++ xWords a ++ maskWords m
  | .vloadbExt _ v a _ m => oldWords v m ++ xWords a ++ maskWords m
  | .vcmpEq _ _ a b m => vWords a ++ vWords b ++ maskWords m
  | .vcmpNe _ _ a b m => vWords a ++ vWords b ++ maskWords m
  | .vcmpLt _ _ a b m => vWords a ++ vWords b ++ maskWords m
  | .vcmpLe _ _ a b m => vWords a ++ vWords b ++ maskWords m
  | .vcmpLtu _ _ a b m => vWords a ++ vWords b ++ maskWords m
  | .vcmpLeu _ _ a b m => vWords a ++ vWords b ++ maskWords m
  | .vsel _ _ a b m => vWords a ++ vWords b ++ maskWords m
  | .vbcast _ d xs m => oldWords d m ++ lWords xs ++ maskWords m
  | .vext _ _ a xi => vWords a ++ lWords xi
  | .vins _ d xs xi => vWords d ++ lWords xs ++ lWords xi
  | .vperm _ d a b m => oldWords d m ++ vWords a ++ vWords b ++ maskWords m
  | .vslide _ d a xk m => oldWords d m ++ vWords a ++ lWords xk ++ maskWords m
  | .vredsum _ _ a m => vWords a ++ maskWords m
  | .vredmax _ _ a m => vWords a ++ maskWords m
  | .vredmin _ _ a m => vWords a ++ maskWords m
  | .vcvt _ _ d a m => oldWords d m ++ vWords a ++ maskWords m
  | .vmov _ d a m => oldWords d m ++ vWords a ++ maskWords m
  | .mand _ a b => mWords a ++ mWords b
  | .mor _ a b => mWords a ++ mWords b
  | .mxor _ a b => mWords a ++ mWords b
  | .mnot _ a => mWords a
  | .mpop _ a => mWords a
  | .mfirst _ a => mWords a
  | .mfromx _ xs => xWords xs
  | .mtox _ a => mWords a
  | .vfmac _ d a b m => vWords d ++ vWords a ++ vWords b ++ maskWords m
  | .vdot4 d a b m => vWords d ++ vWords a ++ vWords b ++ maskWords m
  | .tload _ xa xs => xWords xa ++ lWords xs
  | .tloadt _ xa xs => xWords xa ++ lWords xs
  | .tloads _ xa xs => xWords xa ++ lWords xs
  | .tstore _ xa xs => xWords xa ++ lWords xs
  | .taccld _ xa xs => xWords xa ++ lWords xs
  | .taccst _ xa xs => xWords xa ++ lWords xs
  | .tmma _ _ _ => []
  | .taccout _ _ _ _ _ => []
  | .taccadd _ _ => []
  | .tzero _ => []
  | .taccz _ => []
  | .txch _ _ _ => []
  | .tcvt _ _ => []
  | .verst v xa xv _ => vWords v ++ xWords xa ++ xWords xv
  | .verld _ xa xv _ => xWords xa ++ xWords xv
  | .verldle _ xa xv _ => xWords xa ++ xWords xv
  | .verprobe _ xa xv => xWords xa ++ xWords xv
  | .verfloor _ xa xf _ => xWords xa ++ xWords xf
  | .verdrop xa _ => xWords xa
  | .cpy1 xd xs xn xc xv => xWords xd ++ xWords xs ++ xWords xn ++ xWords xc ++ xWords xv
  | .cpy2 xd xs xn xc xv => xWords xd ++ xWords xs ++ xWords xn ++ xWords xc ++ xWords xv
  | .cpy3 xd xs xn xc xv => xWords xd ++ xWords xs ++ xWords xn ++ xWords xc ++ xWords xv
  | .cpyv xd xs xn xver xc xv => xWords xd ++ xWords xs ++ xWords xn ++ xWords xver ++ xWords xc ++ xWords xv
  | .cpyq xd xs xn xc xv => xWords xd ++ xWords xs ++ xWords xn ++ xWords xc ++ xWords xv
  | .cpyx xd xs xn xc xv => xWords xd ++ xWords xs ++ xWords xn ++ xWords xc ++ xWords xv
  | .cpy1Lit xd xs xn xc _ => xWords xd ++ xWords xs ++ xWords xn ++ xWords xc
  | .cpy2Lit xd xs xn xc _ => xWords xd ++ xWords xs ++ xWords xn ++ xWords xc
  | .cpy3Lit xd xs xn xc _ => xWords xd ++ xWords xs ++ xWords xn ++ xWords xc
  | .cpyvLit xd xs xn xver xc _ => xWords xd ++ xWords xs ++ xWords xn ++ xWords xver ++ xWords xc
  | .cpyqLit xd xs xn xc _ => xWords xd ++ xWords xs ++ xWords xn ++ xWords xc
  | .cpyxLit xd xs xn xc _ => xWords xd ++ xWords xs ++ xWords xn ++ xWords xc
  | .collred _ _ _ xd xs xn xc xr => xWords xd ++ xWords xs ++ xWords xn ++ xWords xc ++ xWords xr
  | .collgath _ _ xd xs xn xc xr => xWords xd ++ xWords xs ++ xWords xn ++ xWords xc ++ xWords xr
  | .collbcast _ _ xd xs xn xc xr => xWords xd ++ xWords xs ++ xWords xn ++ xWords xc ++ xWords xr
  | .msend _ v xt => vWords v ++ xWords xt
  | .mrecv _ _ => []
  | .mpoll _ => []
  | .pause _ => []
  | .waita _ xv xa => xWords xv ++ xWords xa
  | .clave _ xs xk => xWords xs ++ xWords xk
  | .clavev _ vs xk => vWords vs ++ xWords xk
  | .claveg _ xs xk => xWords xs ++ xWords xk
  | .bara _ => []
  | .barw _ => []
  | .barwSs => []
  | .barq _ _ => []
  | .slpush v => vWords v
  | .slpop _ => []
  | .slfree _ => []
  | .slpeek _ _ => []
  | .strike _ xs => xWords xs
  | .migr xc _ _ => xWords xc
  | .csrr _ _ => []
  | .csrw _ _ a => xWords a
  | .csrs _ _ a => xWords a
  | .csrc _ _ a => xWords a
  | .scall => []
  | .brk => []
  | .threadDone => []
  | .yieldTurn => []
  | .eret => []
  | .halt => []
  | .tlbinv xa xs => xWords xa ++ xWords xs
  | .mark _ a b => xWords a ++ xWords b
  | .evDeferredTrapTake _ => []
  | .evFirmwarePageValidate _ => []
  | .evServicedFaultRestart _ => []
  | .evWaitaMonitorMatch _ => []
  | .evWaitTimeout _ => []
  | .evVerWait _ => []
  | .evVerFull _ => []
  | .evBarStall _ => []
  | .evClaveTimeout _ => []
  | .evSlDown _ => []
  | .evSlEntryArrive _ => []
  | .evSlCreditArrive _ => []
  | .evPauseIntervalEnd _ => []
  | .evMqTmmaExecute _ => []
  | .evMqTaccoutExecute _ => []
  | .evMqTaccaddExecute _ => []
  | .evMqTzeroExecute _ => []
  | .evMqTacczExecute _ => []
  | .evMqTxchExecute _ => []
  | .evMqTcvtExecute _ => []
  | .evCeGranuleTransfer _ _ _ => []
  | .evCollectiveExecute _ _ => []
  | .evBindcmdRead _ => []
  | .evBindcmdWrite _ => []
  | .evBindZeroingDone _ => []
  | .evBindcmdGo _ => []
  | .evBindcmdStop _ => []
  | .evThreadStop _ => []
  | .evGangStopSaveComplete _ => []
  | .evTaskBind _ _ => []
  | .evPriorityAging _ => []
  | .evQuantumPreempt _ _ => []
  | .evLaunch _ _ => []
  | .evSignal _ _ => []
  | .evWaitq _ _ => []
  | .evWaitqSatisfied _ _ => []
  | .evWaitqTimeout _ _ => []
  | .evControl _ _ => []
  | .evCapstart _ _ => []
  | .evCapstop _ _ => []
  | .evQueueNotify _ _ _ => []
  | .evQifEnableWrite _ _ => []
  | .evQifReset _ => []
  | .evQifResetComplete _ => []
  | .evS2inv _ _ => []
  | .evInvreq _ _ => []
  | .evDbgresume _ _ => []
  | .evDbgstop _ _ => []
  | .evRestart _ _ => []
  | .evCheadWrite _ _ _ => []
  | .evFaultRingWrite _ _ _ => []
  | .evFresp _ _ => []
  | .evFileFaultWaitLimit _ => []
  | .evTenantTableWrite _ _ _ => []
  | .evMsisend _ => []
  | .evAttbuf _ => []
  | .evAttestationDone => []
  | .evVminsel _ => []
  | .evVmintimeRead => []
  | .evRecoveryLoad _ => []
  | .evRecoveryLoadFlash _ => []
  | .evRegisterWrite _ _ => []
  | .evHostCxlAccess _ _ _ _ => []
  | .evBridgeLinkUp _ _ => []
  | .evBridgeFlitReceive _ _ => []
  | .evBridgeRetrain _ => []
  | .evBridgePortDown _ => []
  | .evBridgeSlackDecision _ _ => []
  | .evWcFlush _ => []
  | .evLmBoundaryTick _ _ => []
  | .evQuadrantIdleDown _ _ => []
  | .evQuadrantRaise _ => []
  | .evBindWakeRequest _ _ => []
  | .evWakeComplete _ => []
  | .evStrikerRecordDelivery _ => []
  | .evTaborModeSwitch => []
  | .evLpddr6SelfRefreshEntry => []
  | .evCoreC1Entry _ => []
  | .evCoreC2Entry _ => []
  | .evDomainSwitchOn _ _ => []
  | .evSwitchOnNeighbourTimeout _ => []
  | .evSwitchOnRampComplete _ => []
  | .evCoolingReport _ _ _ => []
  | .evCoolingSensorTimeout => []
  | .evTallowUpdate _ _ => []
  | .evHbmTempThreshold _ _ => []
  | .evHbmThermalStep _ => []
  | .evBellowsLimitStep _ => []
  | .evBellowsRaiseStep _ => []
  | .evPowerEstimateTick _ _ _ => []
  | .evPowerWeightRefit _ _ => []
  | .evClockRatioHandshake _ => []
  | .evLadleMigration _ _ => []
  | .evCeSummaryTick => []
  | .evPatrolScrub _ => []
  | .evPhaseFailure _ _ => []
  | .evColdStart _ => []
  | .evWarmStart _ => []
  | .evRudimentHeldRelease _ => []
  | .evReplayWaitExpiry _ => []
  | .evDomainPowerGate _ => []
  | .evServiceWaitLimit _ _ => []
  | .evCpyvVersionWaitLimit _ _ _ => []
  | .evMsixVectorUnmask _ _ => []
  | .evAlwaysOnPowerLoss => []
  | .evSupplyVoltageMinimum _ _ => []

/-- Register words that an instruction writes. -/
def regWrites (i : Instr) : List Nat :=
  match i with
  | .add d _ _ => xWords d
  | .sub d _ _ => xWords d
  | .and d _ _ => xWords d
  | .or d _ _ => xWords d
  | .xor d _ _ => xWords d
  | .andn d _ _ => xWords d
  | .orn d _ _ => xWords d
  | .xnor d _ _ => xWords d
  | .sll d _ _ => xWords d
  | .srl d _ _ => xWords d
  | .sra d _ _ => xWords d
  | .rol d _ _ => xWords d
  | .ror d _ _ => xWords d
  | .slt d _ _ => xWords d
  | .sltu d _ _ => xWords d
  | .min d _ _ => xWords d
  | .max d _ _ => xWords d
  | .minu d _ _ => xWords d
  | .maxu d _ _ => xWords d
  | .addw d _ _ => xWords d
  | .subw d _ _ => xWords d
  | .addLit d _ _ => xWords d
  | .subLit d _ _ => xWords d
  | .andLit d _ _ => xWords d
  | .orLit d _ _ => xWords d
  | .xorLit d _ _ => xWords d
  | .andnLit d _ _ => xWords d
  | .ornLit d _ _ => xWords d
  | .xnorLit d _ _ => xWords d
  | .sllLit d _ _ => xWords d
  | .srlLit d _ _ => xWords d
  | .sraLit d _ _ => xWords d
  | .rolLit d _ _ => xWords d
  | .rorLit d _ _ => xWords d
  | .sltLit d _ _ => xWords d
  | .sltuLit d _ _ => xWords d
  | .minLit d _ _ => xWords d
  | .maxLit d _ _ => xWords d
  | .minuLit d _ _ => xWords d
  | .maxuLit d _ _ => xWords d
  | .addwLit d _ _ => xWords d
  | .subwLit d _ _ => xWords d
  | .addi d _ _ => xWords d
  | .andi d _ _ => xWords d
  | .ori d _ _ => xWords d
  | .xori d _ _ => xWords d
  | .slli d _ _ => xWords d
  | .srli d _ _ => xWords d
  | .srai d _ _ => xWords d
  | .slti d _ _ => xWords d
  | .sltiu d _ _ => xWords d
  | .addwi d _ _ => xWords d
  | .addiLit d _ _ => xWords d
  | .andiLit d _ _ => xWords d
  | .oriLit d _ _ => xWords d
  | .xoriLit d _ _ => xWords d
  | .sltiLit d _ _ => xWords d
  | .sltiuLit d _ _ => xWords d
  | .addwiLit d _ _ => xWords d
  | .ldk d _ => xWords d
  | .addk d _ _ => xWords d
  | .mul d _ _ => xWords d
  | .mulh d _ _ => xWords d
  | .mulhu d _ _ => xWords d
  | .mulhmx d _ _ => xWords d
  | .div d _ _ => xWords d
  | .divu d _ _ => xWords d
  | .rem d _ _ => xWords d
  | .remu d _ _ => xWords d
  | .clz d _ => xWords d
  | .ctz d _ => xWords d
  | .popc d _ => xWords d
  | .brev d _ => xWords d
  | .bswap d _ => xWords d
  | .sextb d _ => xWords d
  | .sexth d _ => xWords d
  | .zexth d _ => xWords d
  | .zextw d _ => xWords d
  | .bext d _ _ => xWords d
  | .bdep d _ _ => xWords d
  | .bextLit d _ _ => xWords d
  | .bdepLit d _ _ => xWords d
  | .li d _ => xWords d
  | .liLit d _ => xWords d
  | .pcadd d _ => xWords d
  | .pcaddLit d _ => xWords d
  | .sel d _ _ => xWords d
  | .seq d _ _ => xWords d
  | .sne d _ _ => xWords d
  | .seqLit d _ _ => xWords d
  | .sneLit d _ _ => xWords d
  | .beq _ _ _ => []
  | .bne _ _ _ => []
  | .blt _ _ _ => []
  | .bge _ _ _ => []
  | .bltu _ _ _ => []
  | .bgeu _ _ _ => []
  | .beqExt _ _ _ => []
  | .bneExt _ _ _ => []
  | .bltExt _ _ _ => []
  | .bgeExt _ _ _ => []
  | .bltuExt _ _ _ => []
  | .bgeuExt _ _ _ => []
  | .jal d _ => xWords d
  | .jalExt d _ => xWords d
  | .jalr d _ _ => xWords d
  | .lb d _ _ _ => xWords d
  | .lbu d _ _ _ => xWords d
  | .lh d _ _ _ => xWords d
  | .lhu d _ _ _ => xWords d
  | .lw d _ _ _ => xWords d
  | .lwu d _ _ _ => xWords d
  | .ld d _ _ _ => xWords d
  | .lbLit d _ _ _ => xWords d
  | .lbuLit d _ _ _ => xWords d
  | .lhLit d _ _ _ => xWords d
  | .lhuLit d _ _ _ => xWords d
  | .lwLit d _ _ _ => xWords d
  | .lwuLit d _ _ _ => xWords d
  | .ldLit d _ _ _ => xWords d
  | .lbExt d _ _ _ => xWords d
  | .lbuExt d _ _ _ => xWords d
  | .lhExt d _ _ _ => xWords d
  | .lhuExt d _ _ _ => xWords d
  | .lwExt d _ _ _ => xWords d
  | .lwuExt d _ _ _ => xWords d
  | .ldExt d _ _ _ => xWords d
  | .sb _ _ _ _ => []
  | .sh _ _ _ _ => []
  | .sw _ _ _ _ => []
  | .sd _ _ _ _ => []
  | .pstore _ _ _ => []
  | .sbLit _ _ _ _ => []
  | .shLit _ _ _ _ => []
  | .swLit _ _ _ _ => []
  | .sdLit _ _ _ _ => []
  | .pstoreLit _ _ _ => []
  | .sbExt _ _ _ _ => []
  | .shExt _ _ _ _ => []
  | .swExt _ _ _ _ => []
  | .sdExt _ _ _ _ => []
  | .pstoreExt _ _ _ => []
  | .amoadd d _ _ _ _ => xWords d
  | .amoand d _ _ _ _ => xWords d
  | .amoor d _ _ _ _ => xWords d
  | .amoxor d _ _ _ _ => xWords d
  | .amomin d _ _ _ _ => xWords d
  | .amomax d _ _ _ _ => xWords d
  | .amominu d _ _ _ _ => xWords d
  | .amomaxu d _ _ _ _ => xWords d
  | .amoswap d _ _ _ _ => xWords d
  | .amocas d _ _ _ _ => xWords d
  | .amofadd d _ _ _ _ => xWords d
  | .abump d _ _ _ => xWords d
  | .fence _ _ => []
  | .fencex _ _ _ _ => []
  | .ifence => []
  | .fadd _ _ d _ _ => xWords d
  | .fsub _ _ d _ _ => xWords d
  | .fmul _ _ d _ _ => xWords d
  | .fdiv _ _ d _ _ => xWords d
  | .fsqrt _ _ d _ => xWords d
  | .fmin _ d _ _ => xWords d
  | .fmax _ d _ _ => xWords d
  | .feq _ d _ _ => xWords d
  | .flt _ d _ _ => xWords d
  | .fle _ d _ _ => xWords d
  | .fclass _ d _ => xWords d
  | .fsgnj _ d _ _ => xWords d
  | .fabs _ d _ => xWords d
  | .fmac _ _ d _ _ => xWords d
  | .fmsc _ _ d _ _ => xWords d
  | .fmacExt _ _ d _ _ _ => xWords d
  | .fmscExt _ _ d _ _ _ => xWords d
  | .fcvt _ _ _ d _ => xWords d
  | .vadd _ d _ _ _ => vWords d
  | .vsub _ d _ _ _ => vWords d
  | .vmul _ d _ _ _ => vWords d
  | .vmulh _ d _ _ _ => vWords d
  | .vadds _ d _ _ _ => vWords d
  | .vsubs _ d _ _ _ => vWords d
  | .vabs _ d _ _ => vWords d
  | .vmin _ d _ _ _ => vWords d
  | .vmax _ d _ _ _ => vWords d
  | .vand _ d _ _ _ => vWords d
  | .vor _ d _ _ _ => vWords d
  | .vxor _ d _ _ _ => vWords d
  | .vsll _ d _ _ _ => vWords d
  | .vsrl _ d _ _ _ => vWords d
  | .vsra _ d _ _ _ => vWords d
  | .vfadd _ d _ _ _ => vWords d
  | .vfsub _ d _ _ _ => vWords d
  | .vfmul _ d _ _ _ => vWords d
  | .vfdiv _ d _ _ _ => vWords d
  | .vfsqrt _ d _ _ => vWords d
  | .vfmin _ d _ _ _ => vWords d
  | .vfmax _ d _ _ _ => vWords d
  | .vfexp2 _ d _ _ => vWords d
  | .vfrcp _ d _ _ => vWords d
  | .vfrsqrt _ d _ _ => vWords d
  | .vload v _ _ _ => vWords v
  | .vstore _ _ _ _ => []
  | .vgather _ v _ _ _ => vWords v
  | .vscatter _ _ _ _ _ => []
  | .vloadb _ v _ _ _ => vWords v
  | .vloadLit v _ _ _ => vWords v
  | .vstoreLit _ _ _ _ => []
  | .vloadbLit _ v _ _ _ => vWords v
  | .vloadExt v _ _ _ => vWords v
  | .vstoreExt _ _ _ _ => []
  | .vloadbExt _ v _ _ _ => vWords v
  | .vcmpEq _ md _ _ _ => mWords md
  | .vcmpNe _ md _ _ _ => mWords md
  | .vcmpLt _ md _ _ _ => mWords md
  | .vcmpLe _ md _ _ _ => mWords md
  | .vcmpLtu _ md _ _ _ => mWords md
  | .vcmpLeu _ md _ _ _ => mWords md
  | .vsel _ d _ _ _ => vWords d
  | .vbcast _ d _ _ => vWords d
  | .vext _ xd _ _ => lWords xd
  | .vins _ d _ _ => vWords d
  | .vperm _ d _ _ _ => vWords d
  | .vslide _ d _ _ _ => vWords d
  | .vredsum _ xd _ _ => lWords xd
  | .vredmax _ xd _ _ => lWords xd
  | .vredmin _ xd _ _ => lWords xd
  | .vcvt _ _ d _ _ => vWords d
  | .vmov _ d _ _ => vWords d
  | .mand md _ _ => mWords md
  | .mor md _ _ => mWords md
  | .mxor md _ _ => mWords md
  | .mnot md _ => mWords md
  | .mpop d _ => xWords d
  | .mfirst d _ => xWords d
  | .mfromx md _ => mWords md
  | .mtox d _ => xWords d
  | .vfmac _ d _ _ _ => vWords d
  | .vdot4 d _ _ _ => vWords d
  | .tload _ _ _ => []
  | .tloadt _ _ _ => []
  | .tloads _ _ _ => []
  | .tstore _ _ _ => []
  | .taccld _ _ _ => []
  | .taccst _ _ _ => []
  | .tmma _ _ _ => []
  | .taccout _ _ _ _ _ => []
  | .taccadd _ _ => []
  | .tzero _ => []
  | .taccz _ => []
  | .txch _ _ _ => []
  | .tcvt _ _ => []
  | .verst _ _ _ _ => []
  | .verld v _ _ _ => vWords v
  | .verldle v _ xv _ => vWords v ++ xWords xv
  | .verprobe d _ _ => xWords d
  | .verfloor d _ _ _ => xWords d
  | .verdrop _ _ => []
  | .cpy1 _ _ _ _ _ => []
  | .cpy2 _ _ _ _ _ => []
  | .cpy3 _ _ _ _ _ => []
  | .cpyv _ _ _ _ _ _ => []
  | .cpyq _ _ _ _ _ => []
  | .cpyx _ _ _ _ _ => []
  | .cpy1Lit _ _ _ _ _ => []
  | .cpy2Lit _ _ _ _ _ => []
  | .cpy3Lit _ _ _ _ _ => []
  | .cpyvLit _ _ _ _ _ _ => []
  | .cpyqLit _ _ _ _ _ => []
  | .cpyxLit _ _ _ _ _ => []
  | .collred _ _ _ _ _ _ _ _ => []
  | .collgath _ _ _ _ _ _ _ => []
  | .collbcast _ _ _ _ _ _ _ => []
  | .msend d _ _ => xWords d
  | .mrecv d v => xWords d ++ vWords v
  | .mpoll d => xWords d
  | .pause _ => []
  | .waita d _ _ => xWords d
  | .clave d _ _ => xWords d
  | .clavev vd _ _ => vWords vd
  | .claveg vd _ _ => vWords vd
  | .bara _ => []
  | .barw _ => []
  | .barwSs => []
  | .barq d _ => xWords d
  | .slpush _ => []
  | .slpop v => vWords v
  | .slfree d => xWords d
  | .slpeek d v => xWords d ++ vWords v
  | .strike d _ => xWords d
  | .migr _ _ _ => []
  | .csrr d _ => xWords d
  | .csrw d _ _ => xWords d
  | .csrs d _ _ => xWords d
  | .csrc d _ _ => xWords d
  | .scall => []
  | .brk => []
  | .threadDone => []
  | .yieldTurn => []
  | .eret => []
  | .halt => []
  | .tlbinv _ _ => []
  | .mark d _ _ => xWords d
  | .evDeferredTrapTake _ => []
  | .evFirmwarePageValidate _ => []
  | .evServicedFaultRestart _ => []
  | .evWaitaMonitorMatch _ => []
  | .evWaitTimeout _ => []
  | .evVerWait _ => []
  | .evVerFull _ => []
  | .evBarStall _ => []
  | .evClaveTimeout _ => []
  | .evSlDown _ => []
  | .evSlEntryArrive _ => []
  | .evSlCreditArrive _ => []
  | .evPauseIntervalEnd _ => []
  | .evMqTmmaExecute _ => []
  | .evMqTaccoutExecute _ => []
  | .evMqTaccaddExecute _ => []
  | .evMqTzeroExecute _ => []
  | .evMqTacczExecute _ => []
  | .evMqTxchExecute _ => []
  | .evMqTcvtExecute _ => []
  | .evCeGranuleTransfer _ _ _ => []
  | .evCollectiveExecute _ _ => []
  | .evBindcmdRead _ => []
  | .evBindcmdWrite _ => []
  | .evBindZeroingDone _ => []
  | .evBindcmdGo _ => []
  | .evBindcmdStop _ => []
  | .evThreadStop _ => []
  | .evGangStopSaveComplete _ => []
  | .evTaskBind _ _ => []
  | .evPriorityAging _ => []
  | .evQuantumPreempt _ _ => []
  | .evLaunch _ _ => []
  | .evSignal _ _ => []
  | .evWaitq _ _ => []
  | .evWaitqSatisfied _ _ => []
  | .evWaitqTimeout _ _ => []
  | .evControl _ _ => []
  | .evCapstart _ _ => []
  | .evCapstop _ _ => []
  | .evQueueNotify _ _ _ => []
  | .evQifEnableWrite _ _ => []
  | .evQifReset _ => []
  | .evQifResetComplete _ => []
  | .evS2inv _ _ => []
  | .evInvreq _ _ => []
  | .evDbgresume _ _ => []
  | .evDbgstop _ _ => []
  | .evRestart _ _ => []
  | .evCheadWrite _ _ _ => []
  | .evFaultRingWrite _ _ _ => []
  | .evFresp _ _ => []
  | .evFileFaultWaitLimit _ => []
  | .evTenantTableWrite _ _ _ => []
  | .evMsisend _ => []
  | .evAttbuf _ => []
  | .evAttestationDone => []
  | .evVminsel _ => []
  | .evVmintimeRead => []
  | .evRecoveryLoad _ => []
  | .evRecoveryLoadFlash _ => []
  | .evRegisterWrite _ _ => []
  | .evHostCxlAccess _ _ _ _ => []
  | .evBridgeLinkUp _ _ => []
  | .evBridgeFlitReceive _ _ => []
  | .evBridgeRetrain _ => []
  | .evBridgePortDown _ => []
  | .evBridgeSlackDecision _ _ => []
  | .evWcFlush _ => []
  | .evLmBoundaryTick _ _ => []
  | .evQuadrantIdleDown _ _ => []
  | .evQuadrantRaise _ => []
  | .evBindWakeRequest _ _ => []
  | .evWakeComplete _ => []
  | .evStrikerRecordDelivery _ => []
  | .evTaborModeSwitch => []
  | .evLpddr6SelfRefreshEntry => []
  | .evCoreC1Entry _ => []
  | .evCoreC2Entry _ => []
  | .evDomainSwitchOn _ _ => []
  | .evSwitchOnNeighbourTimeout _ => []
  | .evSwitchOnRampComplete _ => []
  | .evCoolingReport _ _ _ => []
  | .evCoolingSensorTimeout => []
  | .evTallowUpdate _ _ => []
  | .evHbmTempThreshold _ _ => []
  | .evHbmThermalStep _ => []
  | .evBellowsLimitStep _ => []
  | .evBellowsRaiseStep _ => []
  | .evPowerEstimateTick _ _ _ => []
  | .evPowerWeightRefit _ _ => []
  | .evClockRatioHandshake _ => []
  | .evLadleMigration _ _ => []
  | .evCeSummaryTick => []
  | .evPatrolScrub _ => []
  | .evPhaseFailure _ _ => []
  | .evColdStart _ => []
  | .evWarmStart _ => []
  | .evRudimentHeldRelease _ => []
  | .evReplayWaitExpiry _ => []
  | .evDomainPowerGate _ => []
  | .evServiceWaitLimit _ _ => []
  | .evCpyvVersionWaitLimit _ _ _ => []
  | .evMsixVectorUnmask _ _ => []
  | .evAlwaysOnPowerLoss => []
  | .evSupplyVoltageMinimum _ _ => []

/-- Register words that an instruction writes in this state: an MRECV or SLPEEK that finds nothing writes no vector register (R286, R343). -/
def State.regsWritten (s : State) (i : Instr) : List Nat :=
  match i with
  | .mrecv d v => xWords d ++ if (s.core s.myCore).inboxCount = 0 then [] else vWords v
  | .slpeek d v => xWords d ++ if (s.core s.myCore).link.fifo.isEmpty then [] else vWords v
  | i => regWrites i

/-- Execute an instruction where some word of the machine is bad. -/
def State.runParity (s : State) (i : Instr) : Out :=
  let bad := badRegs s.bad s.cur
  match (regReads i).find? bad.contains with
  | some n => .next (s.parityAt s.cur n)
  | none =>
    match exec i s with
    | .next s' =>
      if (s'.thr s.cur).csr.instret = (s.thr s.cur).csr.instret then .next s'
      else .next (s'.healRegs s.cur ((s.regsWritten i).filter bad.contains))
    | o => o

/-- The CSR that an instruction names, and whether it writes it. -/
def csrUse (i : Instr) : Option (Nat × Bool) :=
  match i with
  | .csrr _ c => some (c.toNat, false)
  | .csrw _ c _ => some (c.toNat, true)
  | .csrs _ c a => some (c.toNat, a != 0)
  | .csrc _ c a => some (c.toNat, a != 0)
  | _ => none

/-- The tile descriptors that an instruction checks are valid and fit (R161, R177, R181, R184, R186). -/
def State.descsOk (s : State) (i : Instr) : Bool :=
  let d (t : TReg) : BitVec 23 := s.tdesc s.myCore t
  let m := (s.core s.myCore).mx
  match i with
  | .tload t _ _ => descOk (d t)
  | .tloadt t _ _ => descOk (d t) && transposable (dFmt (d t))
  | .tloads t _ _ => descOk (d t) && scaled (dFmt (d t))
  | .tstore t _ _ => descOk (d t)
  | .tmma n ta tb => s.tmmaOk n ta tb
  | .taccout t n _ _ cb => s.taccoutOk t n cb.toNat
  | .taccadd a b => (m.accd.get a).getLsbD 0 == (m.accd.get b).getLsbD 0
  | .tcvt t ta => s.tcvtOk t ta
  | _ => true

/-- An instruction fails an ILLEGAL or PRIV check made when it executes: these come before the faults of execution (R41). -/
def State.checksFail (s : State) (i : Instr) : Bool :=
  match i with
  | .eret => !s.me.status.priv || !s.me.trap.trapped
  | .halt => !s.me.status.priv
  | .tlbinv _ _ => !s.me.status.priv || !s.onService
  | _ => !s.descsOk i || (csrUse i).any fun p => (s.csrFault p.1 p.2).any fun c => c.1 != Cause.access

/-- Execute an instruction of the thread whose turn it is; its registers are read once its checks have passed. -/
def State.run (s : State) (i : Instr) : Out := if s.bad.isEmpty || s.checksFail i then exec i s else s.runParity i

end Sys2Proof.Machine
end

