-- ==== Sys2Proof/Machine/Turn.lean ====
section
/-!
DEFINITION. A turn of the machine: what happens at a thread's instruction boundary (spec/13, R299, R306, R321; spec/21, R460, R476),
the order of the late ILLEGAL checks (spec/02, R505), what moves when the agenda names nothing (log entry 1), and how an
instruction is put where the next one is fetched.
-/
namespace Sys2Proof.Machine

/-! ## Issue -/

/-- A core issues: the device runs, the core's domains are powered, its quadrant is in Q-ON, Tabor's clocks are not gated for a
change of mode (R378, R380, R381, R486). -/
def State.issues (s : State) (c : Nat) : Bool :=
  s.boot.alive && !s.boot.fatal && !s.coreOff c && (isTabor c || (s.quad (quadOf c)).isOn) &&
    !(isTabor c && decide (s.time < s.power.gatedTo))

/-- EVAL of an instruction that only partly overlaps a patch slot: checks 7 and 8 of R505 come before check 9. -/
def State.splitEval (s : State) (i : Instr) : Nat :=
  let csr := match csrUse i with
    | some (n, w) => (match s.csrFault n w with | some (c, e) => if c = Cause.illegal then some e else none | none => none)
    | none => none
  match csr with
  | some e => e
  | none => if s.descsOk i then 7 else 1

/-- The lowest-numbered service core of a quadrant. -/
def State.leads (s : State) (c : Nat) : Bool :=
  !isTabor c && s.isService c && s.boot.cfg.mask.all fun m => isTabor m || quadOf m != quadOf c || decide (c ≤ m)

/-- An ACTIVE slot takes its core out of C1 and keeps it from there (R381); the first instruction of a quadrant's lowest service core ends
its part of a wake (R382). -/
def State.clockCore (s : State) : State :=
  let c := s.myCore
  let s := if s.leads c && !(s.quad (quadOf c)).awake then s.setQuad (quadOf c) { s.quad (quadOf c) with awake := true } else s
  if (s.core c).cstate = .c1 ∨ (s.core c).quiet ≠ 0 then
    s.modCore c fun k => { k with cstate := if k.cstate = .c1 then .c0 else k.cstate, quiet := 0 }
  else s

/-- What a fetched instruction of `n` bytes, with a literal or none, leads to. -/
def State.perform (s : State) (d : Decoded) (n : Nat) (lit : Bool) : Out :=
  match d with
  | .illegal e => s.trapOut Cause.illegal (BitVec.ofNat 64 e)
  | .instr i => if s.patchSplit n lit then s.trapOut Cause.illegal (BitVec.ofNat 64 (s.splitEval i)) else s.run i

/-- Fetch and execute the instruction at the PC. -/
noncomputable def State.issue (s : State) : Out :=
  let s := s.clockCore
  match s.fetch with
  | .error f => .next (s.failed .exec f)
  | .ok (s, w, x1, x2) => s.perform (decode w x1 x2) (lenBytes w) (hasLit w)

/-! ## A boundary -/

/-- A sleeper's turn: its event or its watchdog is looked at. -/
noncomputable def State.sleepTurn (s : State) : Out :=
  let wake := s.modMe Thread.wake
  match s.me.wait with
  | none => wake.issue
  | some w =>
    match w.why with
    | .waita =>
      let s' := s.monitor s.cur
      .next (if s'.me.slot = .asleep then s'.expire s.cur .waita (s.waitLimit s.cur) Cause.waitTimeout else s')
    | .verLoad => .next (s.verExpire s.cur .verLoad Cause.verWait)
    | .verStore => .next (s.verExpire s.cur .verStore Cause.verFull)
    | .barrier => .next (s.barStall s.cur)
    | .clave => .next (s.claveExpire s.cur)
    | .slPop => .next (s.slExpire s.cur)
    | .slPush => .next (s.slExpire s.cur)
    | .replay => if s.stillHeld s.cur then .next (s.replayExpire s.cur) else wake.issue
    | .superstep => if s.busyWith s.cur then .next s else wake.issue
    | .done =>
      (match s.me.halting with
      | some code => .next (if s.busyWith s.cur then s else s.endService s.cur code)
      | none => if s.busyWith s.cur then .next s else wake.issue)
    | .fault => wake.issue
    | .strike => wake.issue

/-- The page wait of a thread's own access. -/
def State.myPage (s : State) : Option PageWait := s.pageWaits.find? fun p => p.tid == s.cur && p.engine.isNone

/-- A page that failed gives its cause; one that is not valid yet keeps the thread asleep until its limit (R430, R443). -/
def State.pageTurn (s : State) (w : PageWait) : State :=
  if w.failed then s.trapOf s.cur (accOf w.acc).pageCause false w.addr none else s.pageExpired w

/-- The instruction boundary of the thread whose turn it is. -/
noncomputable def State.boundary (s : State) : Out :=
  let t := s.me
  if t.slot = .unbound then .next s
  else if t.stopReq && !t.striking then .next (s.stopThread s.cur)
  else if t.slot = .stopped || !s.issues s.myCore then .next s
  else if t.dueDeferred then .next (s.takeDeferred s.cur)
  else
    match s.myPage with
    | some w => .next (s.pageTurn w)
    | none => if t.slot = .asleep then s.sleepTurn else s.issue

/-! ## What moves by itself when the agenda is empty (log entry 1) -/

/-- One unit of the engines of a core: a queue entry, an entry and a credit of the stack link, a granule of each command. -/
def State.coreWork (s : State) (c : Nat) : State :=
  let s := if (s.core c).mx.queue.isEmpty then s else s.mxStep c
  let s := if (s.core c).link.transit.isEmpty then s else s.slEntry c
  let s := if (s.core c).link.creditTransit = 0 then s else s.slCredit c
  s.over (s.core c).copies fun s p => s.copyTurn c p.1 p.2.low

/-- The slot table performs its commands. -/
def State.tableWork (s : State) (tid : Nat) : State :=
  match (s.thr tid).bind.pending with
  | 1 => s.bindRead tid
  | 2 => s.bindWrite tid
  | 3 => s.bindGo tid
  | 4 => s.bindStop tid
  | 5 => s.bindZeroed tid
  | _ => s

/-- Collectives inside the box. -/
def State.collWork (s : State) (g : Nat) (t : Task) : State :=
  if t.launch.bridge then s else s.collTurn g []

/-- Service firmware makes the pages it may make valid, and their accesses run again (R430). -/
def State.pageWork (s : State) : State :=
  s.over (s.pageWaits.filter (·.firmware)) fun s w => (s.validatePage w).restartPage w

/-- A unit of work for every engine. -/
def State.engines (s : State) : State :=
  let s := s.over (s.cores.keys) State.coreWork
  let s := s.over (s.threads.keys) State.tableWork
  let s := s.over s.tasks fun s p => s.collWork p.1 p.2
  s.pageWork.retryEnds.dropWork

/-- A thread that a turn may be given. -/
def State.ready (s : State) (tid : Nat) : Bool := (s.thr tid).live && s.issues (coreOf tid)

/-- The next thread after `cur` in number, first among those outside a PAUSE interval (R304, R330). -/
def State.nextThread (s : State) : Option Nat :=
  let l := s.threads.keys.filter s.ready
  let l := l.filter (fun t => s.cur < t) ++ l.filter (fun t => t ≤ s.cur)
  match l.find? fun t => (s.thr t).pause == 0 with
  | some t => some t
  | none => l.head?

/-- An issue decision of a core: a YIELD of one of its threads counted for this one only (R129). -/
def State.decided (s : State) (c : Nat) : State :=
  s.over ((countFrom (8 * c) 8).filter fun u => (s.thr u).yielded) fun s u => s.modThr u fun t => { t with yielded := false }

/-- A thread's turn is an issue decision of its core: after a YIELD the first other thread of the core that is ready has it instead, this
once (R129). -/
def State.giveTurn (s : State) (tid : Nat) : State :=
  let other (u : Nat) : Bool := u != tid && (s.thr u).readyNow && !(s.thr u).yielded && s.issues (coreOf u)
  if (s.thr tid).yielded then
    match (countFrom (8 * coreOf tid) 8).find? other with
    | some u => { s.decided (coreOf tid) with cur := u }
    | none => { s with cur := tid }
  else if (s.thr tid).readyNow then { s.decided (coreOf tid) with cur := tid }
  else { s with cur := tid }

/-- Nothing on the agenda: 1 ns passes, the engines work, the next thread has its turn. -/
noncomputable def State.idle (s : State) : Out :=
  let s := (s.pass 1).engines
  match s.nextThread with
  | some t => (s.giveTurn t).boundary
  | none => .next s

/-! ## A turn of the agenda -/

/-- An event of the part, as against an instruction: it has no encoding. -/
def isEvent (i : Instr) : Bool := (encode i).1 == 0

/-- What a device stopped by a FATAL record still takes (R486). -/
def restarts (i : Instr) : Bool :=
  match i with
  | .evColdStart _ => true
  | .evWarmStart _ => true
  | .evAlwaysOnPowerLoss => true
  | _ => false

/-- One turn. -/
noncomputable def State.takeTurn (s : State) (t : Turn) : Out :=
  match t with
  | .thread tid => (s.giveTurn tid).boundary
  | .event i => if isEvent i && (!s.boot.fatal || restarts i) then exec i s else .next s
  | .tick n => .next (s.pass n)
  | .tlbDrop c n =>
    if c < 0x1000 then .next (s.modCore c fun k => { k with tlb := k.tlb.eraseIdx n })
    else .next { s with clusterTlbs := s.clusterTlbs.set (c - 0x1000) ((s.clusterTlbs.get [] (c - 0x1000)).eraseIdx n) }
  | .upset key double => .next (s.upset key double)
  | .corrected d => .next (s.correctedIn d)
  | .upsetVer r g => .next (s.upsetVer r g)
  | .shunts amps watts => .next (s.shunts amps watts)
  | .hostWrite4 off v => .next (s.hostWrite4 off v)
  | .hostMemory a bs => .next (s.hostMemory a bs)

/-! ## Placing an instruction -/

/-- The thread `cur` about to fetch: live, with nothing that comes before its next instruction. -/
def Thread.aboutToFetch (t : Thread) : Thread :=
  { t with slot := .active, stopReq := false, deferred := [], wait := none, yielded := false, slotUnit := none }

/-- Keys of the 20 bytes at the PC where the thread may fetch them. -/
def State.codeKeys (s : State) : Option (List (Nat × Nat)) :=
  match s.check s.meWho (Ask.plain .exec) s.me.pc 20 with
  | .error _ => none
  | .ok ad => ad.spans.mapM fun p => match p.loc with | .mem k => some (k, p.n) | _ => none

/-- Write bytes over runs of keys. -/
def putRuns (m : Memory) : List (Nat × Nat) → List Byte → Memory
  | [], _ => m
  | (k, n) :: r, bs => putRuns (m.putBytes k (bs.take n)) r (bs.drop n)

/-- A 64 GiB block of LPDDR6 for the code, one that does not hold the table. -/
def codeBlock (root : Nat) : Nat := if root / 2 ^ 36 = 7 then 6 else 7

/-- A stage-1 mapping of the PC for a supervisor thread under MODE 1: one level-1 leaf (V, R, W, X, A, D). -/
def State.mapCode (s : State) (bs : List Byte) : State :=
  let root := s.me.space.root.toNat % 2 ^ 25 * 2 ^ 14
  let pc := s.me.pc.toNat
  let s := s.modMe fun t => { t with
    status := { t.status with priv := true }
    space := { t.space with mode := true, root := BitVec.ofNat 33 (root / 2 ^ 14) } }
  let block := codeBlock root * 2 ^ 36
  let m := s.mem.putBytes (keyOf 0 (root + 8 * bits pc 36 11)) (bytesOf 8 (0xCF + block))
  { s with mem := m.putBytes (keyOf 0 (block + pc % 2 ^ 36)) bs }

/-- The instruction in `w`, numbered as the opcode table numbers it, stands where the thread `cur` fetches next, and the next step is
that thread's turn (log entry 1). -/
def State.placeWord (s : State) (nbits w : Nat) : State :=
  let bs := bytesOf 20 (w % 2 ^ nbits)
  let s := { s with agenda := [.thread s.cur], pageWaits := s.pageWaits.filter fun p => p.tid != s.cur || p.engine.isSome }
  let s := s.modMe Thread.aboutToFetch
  match s.codeKeys with
  | some l => { s with mem := putRuns s.mem l bs }
  | none => s.mapCode bs

end Sys2Proof.Machine
end

