-- ==== Sys2Proof/Machine/Step.lean ====
section
/-!
DEFINITION. One step of the machine: the first turn of the agenda, or, with an empty agenda, what moves by itself; a device that a
FATAL record has stopped does not move (spec/22, R486).
-/
namespace Sys2Proof.Machine

/-- One step. -/
noncomputable def step (s : State) : Host.Outcome State Fault Refusal :=
  match s.agenda with
  | t :: rest => { s with agenda := rest }.takeTurn t
  | [] => if s.boot.fatal then .fault .fatalStop else s.idle

/-- `s` with an instruction stored where the next step fetches it. -/
def State.withFetchWord (s : State) (nbits w : Nat) : State := s.placeWord nbits w

end Sys2Proof.Machine
end

