-- ==== Sys2Proof/Safety.lean ====
section
/-!
DEFINITION. What counts as a safe run: memory keeps its canonical form at every state a run reaches, and the machine stops only when
a FATAL record has stopped the device (spec/22, R486).
-/
namespace Sys2Proof

/-- A state in good form: memory is canonical. -/
def Safe (s : Machine.State) : Prop := s.mem.wf = true

/-- `n` steps lead from one state to another. -/
def Reaches : Nat → Machine.State → Machine.State → Prop
  | 0, s, t => s = t
  | n + 1, s, t => ∃ u, Machine.step s = .next u ∧ Reaches n u t

end Sys2Proof
end

