-- ==== Sys2Proof/Certificates/Slice0/Obligations.lean ====
section
/-!
DEFINITION. The statements. Sys2Proof.Claims holds the words they are written in: what an instruction leaves alone, and results
as spec/ words them, written apart from the model's own operations.
-/
open Sys2Proof Sys2Proof.Machine


namespace Sys2Proof.Claims

/-! ## What a statement says of a next state -/

/-- The meaning answers a next state, of which `p` holds. -/
def Gives (o : Out) (p : State → Prop) : Prop := ∃ t, o = .next t ∧ p t

/-- The thread whose turn it is has retired an instruction, with its PC at `pc`: INSTRET counts it, a wait is over; its trap
registers, its address space and slot-table registers, its CSRs but FFLAGS, SRSEED and the counters, and the fields of the
status but WAITING are as they were. -/
structure Stepped (s t : State) (pc : Word) : Prop where
  pc : t.me.pc = pc
  instret : t.me.csr.instret = s.me.csr.instret + 1
  awake : t.me.slot = .active ∧ t.me.wait = none
  status : t.me.status = { s.me.status with waiting := false }
  trap : t.me.trap = s.me.trap
  csrs : t.me.csr.frm = s.me.csr.frm ∧ t.me.csr.cycle = s.me.csr.cycle ∧ t.me.csr.thresh = s.me.csr.thresh ∧
    t.me.csr.threshFmt = s.me.csr.threshFmt ∧ t.me.csr.wakeClass = s.me.csr.wakeClass ∧ t.me.csr.wakeMask = s.me.csr.wakeMask ∧
    t.me.csr.vwaitlim = s.me.csr.vwaitlim ∧ t.me.csr.evsel = s.me.csr.evsel
  space : t.me.space = s.me.space ∧ t.me.bind = s.me.bind
  cur : t.cur = s.cur

/-- The next state of an ordinary instruction, whatever it writes to x, v and m and to FFLAGS, SRSEED and the counters: the thread
has retired it, its barrier senses and what waits for it stand; every other thread, every byte of memory and every other part of
the machine is as it was. -/
structure Retired (s t : State) (pc : Word) : Prop extends Stepped s t pc where
  sync : t.me.sense = s.me.sense ∧ t.me.apbHandle = s.me.apbHandle ∧ t.me.deferred = s.me.deferred ∧ t.me.stopReq = s.me.stopReq
  others : ∀ j, j ≠ s.cur → t.thr j = s.thr j
  bytes : ∀ k, t.mem.get k = s.mem.get k
  rest : t = { s with threads := t.threads }

/-- The address behind an instruction of `n` bytes. -/
def nextPc (s : State) (n : Nat) : Word := s.me.pc + BitVec.ofNat 64 n

/-- The x registers are as they were, but for rd, which holds `w`; x0 reads zero and a write to it is discarded. -/
def OnlyX (s t : State) (d : XReg) (w : Word) : Prop :=
  ∀ r, t.getX r = if r = 0 then 0 else if r = d then w else s.getX r

/-- Every x register is as it was. -/
def SameX (s t : State) : Prop := ∀ r, t.getX r = s.getX r

/-- Every v register but `d`, which holds `w`, is as it was. -/
def OnlyV (s t : State) (d : VReg) (w : Vec) : Prop := ∀ r, t.getV r = if r = d then w else s.getV r

/-- Every m register but `d`, which holds `w`, is as it was. -/
def OnlyM (s t : State) (d : MReg) (w : Word) : Prop := ∀ r, t.getM r = if r = d then w else s.getM r

/-- Every v register is as it was. -/
def SameV (s t : State) : Prop := ∀ r, t.getV r = s.getV r

/-- Every m register is as it was. -/
def SameM (s t : State) : Prop := ∀ r, t.getM r = s.getM r

/-- FFLAGS and SRSEED are as they were. -/
def SameF (s t : State) : Prop := t.me.csr.fflags = s.me.csr.fflags ∧ t.me.csr.srseed = s.me.csr.srseed

/-- FFLAGS has the bits of `f` ORed in, SRSEED holds `seed`. -/
def Raised (s t : State) (f : BitVec 5) (seed : Word) : Prop :=
  t.me.csr.fflags = s.me.csr.fflags ||| f ∧ t.me.csr.srseed = seed

/-- No x, v or m register, no flag and no draw changes: what is left of an ordinary instruction is its PC and its count. -/
def Quiet (s t : State) : Prop := SameX s t ∧ SameV s t ∧ SameM s t ∧ SameF s t

/-- The instruction writes `w` to rd and does nothing else. -/
def WritesX (s : State) (o : Out) (n : Nat) (d : XReg) (w : Word) : Prop :=
  Gives o fun t => Retired s t (nextPc s n) ∧ OnlyX s t d w ∧ SameV s t ∧ SameM s t ∧ SameF s t

/-! ## Results of integer instructions as Tables 4-2, 4-3, 4-5 and 4-7 word them -/

/-- The low 64 bits of an integer. -/
def low (n : Int) : Word := BitVec.ofInt 64 n

/-- The low 32 bits of an integer, sign-extended. -/
def low32 (n : Int) : Word := low (n.bmod (2 ^ 32))

/-- Both forms of an ALU-REG member: B is X(rs2), or the literal. -/
def AluReg (reg : XReg → XReg → XReg → Instr) (lit : XReg → XReg → Word → Instr) (f : Word → Word → Word) : Prop :=
  ∀ s d a b l, WritesX s (exec (reg d a b) s) 4 d (f (s.getX a) (s.getX b)) ∧
    WritesX s (exec (lit d a l) s) 12 d (f (s.getX a) l)

/-- Both forms of an ALU-IMM member: I is sext(imm10), or the literal. -/
def AluImm (imm : XReg → XReg → BitVec 10 → Instr) (lit : XReg → XReg → Word → Instr) (f : Word → Word → Word) : Prop :=
  ∀ s d a i l, WritesX s (exec (imm d a i) s) 4 d (f (s.getX a) (low i.toInt)) ∧
    WritesX s (exec (lit d a l) s) 12 d (f (s.getX a) l)

/-- A member with two registers. -/
def Alu2 (reg : XReg → XReg → XReg → Instr) (f : Word → Word → Word) : Prop :=
  ∀ s d a b, WritesX s (exec (reg d a b) s) 4 d (f (s.getX a) (s.getX b))

/-- A member with one register: its result is the one word that `p` holds of. -/
def Alu1 (reg : XReg → XReg → Instr) (p : Word → Word → Prop) : Prop :=
  ∀ s d a, ∃ w, p (s.getX a) w ∧ WritesX s (exec (reg d a) s) 4 d w

/-- The number of 1 bits of `b` below bit `i`. -/
def onesBelow (b : Word) (i : Nat) : Nat := ((List.range i).filter fun j => b.getLsbD j).length

/-- `w` holds the bits of `a` at the 1 positions of `b`, packed from bit 0. -/
def Packed (a b w : Word) : Prop :=
  (∀ i, i < 64 → b.getLsbD i = true → w.getLsbD (onesBelow b i) = a.getLsbD i) ∧
    ∀ j, onesBelow b 64 ≤ j → w.getLsbD j = false

/-- `w` holds the low bits of `a`, placed at the 1 positions of `b`. -/
def Placed (a b w : Word) : Prop := ∀ i, i < 64 → w.getLsbD i = (b.getLsbD i && a.getLsbD (onesBelow b i))

/-- A member of BIT with a mask, in both forms. -/
def BitMask (reg : XReg → XReg → XReg → Instr) (lit : XReg → XReg → Word → Instr) (p : Word → Word → Word → Prop) : Prop :=
  ∀ s d a b l, (∃ w, p (s.getX a) (s.getX b) w ∧ WritesX s (exec (reg d a b) s) 4 d w) ∧
    ∃ w, p (s.getX a) l w ∧ WritesX s (exec (lit d a l) s) 12 d w

end Sys2Proof.Claims

open Sys2Proof.Claims

/-- ADD, SUB, SLL, SRL, SRA, SLT, SLTU, MIN, MAX, MINU, MAXU, ADDW and SUBW, with a register or the literal as B, write to rd the
result that Table 4-2 gives for A and B as integers, sliced to 64 bits; a shift takes B modulo 64; AND, OR, XOR, ANDN, ORN, XNOR,
ROL and ROR write the word whose every bit is the one that the table gives; a write to x0 is discarded. ADDI, ANDI, ORI, XORI,
SLTI, SLTIU and ADDWI, with sext(imm10) or the literal as I, and SLLI, SRLI and SRAI with their shift amount 0 to 63, write to rd
the result that Table 4-3 gives. Nothing else changes but the PC, INSTRET and the event counters. -/
def Obligations.AluOperations : Prop :=
  AluReg .add .addLit (fun a b => low (a.toNat + b.toNat)) ∧
  AluReg .sub .subLit (fun a b => low (a.toInt - b.toInt)) ∧
  AluReg .sll .sllLit (fun a b => low (a.toNat * 2 ^ (b.toNat % 64))) ∧
  AluReg .srl .srlLit (fun a b => low (a.toNat / 2 ^ (b.toNat % 64))) ∧
  AluReg .sra .sraLit (fun a b => low (a.toInt / 2 ^ (b.toNat % 64))) ∧
  AluReg .slt .sltLit (fun a b => if a.toInt < b.toInt then 1 else 0) ∧
  AluReg .sltu .sltuLit (fun a b => if a.toNat < b.toNat then 1 else 0) ∧
  AluReg .min .minLit (fun a b => low (min a.toInt b.toInt)) ∧
  AluReg .max .maxLit (fun a b => low (max a.toInt b.toInt)) ∧
  AluReg .minu .minuLit (fun a b => low (min a.toNat b.toNat)) ∧
  AluReg .maxu .maxuLit (fun a b => low (max a.toNat b.toNat)) ∧
  AluReg .addw .addwLit (fun a b => low32 (a.toNat + b.toNat)) ∧
  AluReg .subw .subwLit (fun a b => low32 (a.toInt - b.toInt)) ∧
  AluReg .and .andLit (fun a b => BitVec.ofFnLE fun i : Fin 64 => a.getLsbD i && b.getLsbD i) ∧
  AluReg .or .orLit (fun a b => BitVec.ofFnLE fun i : Fin 64 => a.getLsbD i || b.getLsbD i) ∧
  AluReg .xor .xorLit (fun a b => BitVec.ofFnLE fun i : Fin 64 => a.getLsbD i != b.getLsbD i) ∧
  AluReg .andn .andnLit (fun a b => BitVec.ofFnLE fun i : Fin 64 => a.getLsbD i && !b.getLsbD i) ∧
  AluReg .orn .ornLit (fun a b => BitVec.ofFnLE fun i : Fin 64 => a.getLsbD i || !b.getLsbD i) ∧
  AluReg .xnor .xnorLit (fun a b => BitVec.ofFnLE fun i : Fin 64 => a.getLsbD i == b.getLsbD i) ∧
  AluReg .rol .rolLit (fun a b => BitVec.ofFnLE fun i : Fin 64 => a.getLsbD ((i.val + 64 - b.toNat % 64) % 64)) ∧
  AluReg .ror .rorLit (fun a b => BitVec.ofFnLE fun i : Fin 64 => a.getLsbD ((i.val + b.toNat % 64) % 64)) ∧
  AluImm .addi .addiLit (fun a i => low (a.toInt + i.toInt)) ∧
  AluImm .andi .andiLit (fun a i => BitVec.ofFnLE fun j : Fin 64 => a.getLsbD j && i.getLsbD j) ∧
  AluImm .ori .oriLit (fun a i => BitVec.ofFnLE fun j : Fin 64 => a.getLsbD j || i.getLsbD j) ∧
  AluImm .xori .xoriLit (fun a i => BitVec.ofFnLE fun j : Fin 64 => a.getLsbD j != i.getLsbD j) ∧
  AluImm .slti .sltiLit (fun a i => if a.toInt < i.toInt then 1 else 0) ∧
  AluImm .sltiu .sltiuLit (fun a i => if a.toNat < i.toNat then 1 else 0) ∧
  AluImm .addwi .addwiLit (fun a i => low32 (a.toInt + i.toInt)) ∧
  ∀ (s : State) (d a : XReg) (n : BitVec 6),
    WritesX s (exec (.slli d a n) s) 4 d (low ((s.getX a).toNat * 2 ^ n.toNat)) ∧
    WritesX s (exec (.srli d a n) s) 4 d (low ((s.getX a).toNat / 2 ^ n.toNat)) ∧
    WritesX s (exec (.srai d a n) s) 4 d (low ((s.getX a).toInt / 2 ^ n.toNat))

/-- MUL, MULH, MULHU and MULHMX write the slices of the exact product of R104; DIV, DIVU, REM and REMU write the quotient truncated
toward zero and the remainder with the sign of the dividend; a divisor of 0 gives all ones and the dividend, and -2^63 divided by
-1 gives -2^63 and 0; no flag is set and no trap is taken. -/
def Obligations.MultiplyDivide : Prop :=
  Alu2 .mul (fun a b => low (a.toInt * b.toInt)) ∧
  Alu2 .mulh (fun a b => low (a.toInt * b.toInt / 2 ^ 64)) ∧
  Alu2 .mulhu (fun a b => low ((a.toNat : Int) * b.toNat / 2 ^ 64)) ∧
  Alu2 .mulhmx (fun a b => low (a.toInt * b.toNat / 2 ^ 64)) ∧
  Alu2 .div (fun a b => if b = 0 then low (-1) else if a.toInt = -2 ^ 63 ∧ b.toInt = -1 then low (-2 ^ 63)
    else low (a.toInt.tdiv b.toInt)) ∧
  Alu2 .rem (fun a b => if b = 0 then a else if a.toInt = -2 ^ 63 ∧ b.toInt = -1 then 0
    else low (a.toInt - a.toInt.tdiv b.toInt * b.toInt)) ∧
  Alu2 .divu (fun a b => if b = 0 then low (-1) else low (a.toNat / b.toNat)) ∧
  Alu2 .remu (fun a b => if b = 0 then a else low (a.toNat - a.toNat / b.toNat * b.toNat))

/-- CLZ, CTZ, POPC, BREV, BSWAP, SEXTB, SEXTH, ZEXTH and ZEXTW write the word that Table 4-7 describes (CLZ and CTZ give 64 for 0),
and BEXT and BDEP, with a register or the literal as mask, the bits of A packed from, or placed at, the 1 positions of B; nothing
else changes but the PC, INSTRET and the event counters. -/
def Obligations.BitManipulation : Prop :=
  Alu1 .clz (fun a w => (a = 0 ∧ w = 64) ∨ (2 ^ (63 - w.toNat) ≤ a.toNat ∧ a.toNat < 2 ^ (64 - w.toNat) ∧ w.toNat < 64)) ∧
  Alu1 .ctz (fun a w => (a = 0 ∧ w = 64) ∨ (a.getLsbD w.toNat = true ∧ ∀ i, i < w.toNat → a.getLsbD i = false)) ∧
  Alu1 .popc (fun a w => w.toNat = onesBelow a 64) ∧
  Alu1 .brev (fun a w => ∀ i, i < 64 → w.getLsbD i = a.getLsbD (63 - i)) ∧
  Alu1 .bswap (fun a w => ∀ i k, i < 8 → k < 8 → w.getLsbD (8 * k + i) = a.getLsbD (8 * (7 - k) + i)) ∧
  Alu1 .sextb (fun a w => w = low ((a.toInt).bmod (2 ^ 8))) ∧
  Alu1 .sexth (fun a w => w = low ((a.toInt).bmod (2 ^ 16))) ∧
  Alu1 .zexth (fun a w => w.toNat = a.toNat % 2 ^ 16) ∧
  Alu1 .zextw (fun a w => w.toNat = a.toNat % 2 ^ 32) ∧
  BitMask .bext .bextLit Packed ∧ BitMask .bdep .bdepLit Placed

/-- In the group of MAJ 0x07 a literal on SEL (FN 0) decodes to ILLEGAL with EVAL 4 and FN 3 to 63 to ILLEGAL with EVAL 0, and such a
word traps so where it is performed; SEL tests its own rd, as it stood before and over all 64 bits, and writes X(rs1) where it is
not 0, else X(rs2); with rd = x0 the condition is 0 and the result is discarded. -/
def Obligations.SelectRule : Prop :=
  (∀ w x1 x2 : Nat, w / 4 % 64 = 7 →
    (w % 4 = 1 ∧ w / 2 ^ 23 % 64 = 0 → decode w x1 x2 = .illegal 4) ∧
    (w % 4 ≤ 1 ∧ 3 ≤ w / 2 ^ 23 % 64 → decode w x1 x2 = .illegal 0)) ∧
  (∀ (s : State) (e n : Nat) (lit : Bool), s.perform (.illegal e) n lit = .next (s.trap 0x01 (BitVec.ofNat 64 e))) ∧
  ∀ (s : State) (d a b : XReg),
    ((∃ k, k < 64 ∧ (s.getX d).getLsbD k = true) → WritesX s (exec (.sel d a b) s) 4 d (s.getX a)) ∧
    ((∀ k, k < 64 → (s.getX d).getLsbD k = false) → WritesX s (exec (.sel d a b) s) 4 d (s.getX b)) ∧
    Gives (exec (.sel 0 a b) s) fun t => Retired s t (nextPc s 4) ∧ SameX s t

namespace Sys2Proof.Claims

/-! ## Control transfers -/

/-- A control transfer: PC holds the target, rd the link, and nothing else changes. -/
def Jumps (s : State) (o : Out) (target : Word) (d : XReg) (link : Word) : Prop :=
  Gives o fun t => Retired s t target ∧ OnlyX s t d link ∧ SameV s t ∧ SameM s t ∧ SameF s t

/-- Both forms of a branch: taken where the condition holds, the target zext(PC, 47) plus the offset; else the next instruction. -/
def BranchBoth (short : XReg → XReg → BitVec 11 → Instr) (ext : XReg → XReg → BitVec 47 → Instr) (c : Word → Word → Prop) : Prop :=
  ∀ (s : State) (a b : XReg) (i : BitVec 11) (e : BitVec 47),
    let base : Int := s.me.pc.toNat % 2 ^ 47
    (c (s.getX a) (s.getX b) → Jumps s (exec (short a b i) s) (low (base + 4 * i.toInt)) 0 0 ∧
      Jumps s (exec (ext a b e) s) (low (base + e.toInt)) 0 0) ∧
    (¬c (s.getX a) (s.getX b) → Jumps s (exec (short a b i) s) (nextPc s 4) 0 0 ∧
      Jumps s (exec (ext a b e) s) (nextPc s 12) 0 0)

/-! ## Scalar floating point -/

/-- The instruction writes a code to rd, ORs flags into FFLAGS and leaves SRSEED at `seed`; nothing else changes. -/
def WritesF (s : State) (o : Out) (n : Nat) (d : XReg) (code : Nat) (f : BitVec 5) (seed : Word) : Prop :=
  Gives o fun t => Retired s t (nextPc s n) ∧ OnlyX s t d (BitVec.ofNat 64 code) ∧ SameV s t ∧ SameM s t ∧ Raised s t f seed

/-- An exact value with the flags of its special case goes through RND once: FLAGS and SRSEED as the rounding leaves them. -/
def RoundsX (s : State) (o : Out) (n : Nat) (d : XReg) (p : Prec) (m : Rm) (x : FV × BitVec 5) : Prop :=
  let r := rnd (fmtOfPrec p) m false x.1 ⟨s.me.csr.srseed, 0⟩
  WritesF s o n d r.1 (x.2 ||| r.2.flags) r.2.seed

/-- The rounding mode in force: FRM for DYN. -/
def modeOf (s : State) (m : Rm) : Rm := if m = .dyn then [Rm.rne, .rmm, .rup, .rdn, .rtz, .rsr].getD s.me.csr.frm.toNat .rne else m

/-- F(r, p). -/
def regF (s : State) (p : Prec) (r : XReg) : FV := (fmtOfPrec p).decode ((s.getX r).toNat % 2 ^ (fmtOfPrec p).width)

/-- The rational number of a finite value. -/
def ratOf : FV → Option Rat
  | .fin neg m e false => some ((if neg then -1 else 1) * (m : Rat) * (2 : Rat) ^ e)
  | _ => none

/-- A significand as short as every format's. -/
def Short : FV → Prop
  | .fin _ m _ _ => m < 2 ^ 200
  | _ => True

/-- The magnitude (m + d) x 2^e: d is 0 for an exact one, and between 0 and 1 for one that is cut off, which has 120 bits. -/
def MagOf (m : Nat) (e : Int) (b : Bool) (a : ℝ) : Prop :=
  ∃ d : ℝ, a = (m + d) * (2 : ℝ) ^ e ∧ ((b = false ∧ d = 0) ∨ (b = true ∧ 0 < d ∧ d < 1 ∧ 2 ^ 119 ≤ m))

/-- A value stands for a real number, exactly or cut off. -/
def StandsFor (x : FV) (r : ℝ) : Prop :=
  ∃ neg m e b a, x = .fin neg m e b ∧ MagOf m e b a ∧ r = if neg then -a else a

/-- Tables 3-2 and 3-3: mantissa bits, exponent of the smallest normal, largest finite, the code that a NaN gives (+0 without one). -/
def Table32 (f : Fmt) (mb : Nat) (emin : Int) (top : ℝ) (nan : Nat) : Prop :=
  (f = .f64 ∧ mb = 52 ∧ emin = -1022 ∧ top = (2 - (2 : ℝ) ^ (-52 : Int)) * 2 ^ 1023 ∧ nan = 0x7FF8000000000000) ∨
  (f = .f32 ∧ mb = 23 ∧ emin = -126 ∧ top = (2 - (2 : ℝ) ^ (-23 : Int)) * 2 ^ 127 ∧ nan = 0x7FC00000) ∨
  (f = .f16 ∧ mb = 10 ∧ emin = -14 ∧ top = 65504 ∧ nan = 0x7E00) ∨
  (f = .bf16 ∧ mb = 7 ∧ emin = -126 ∧ top = (2 - (2 : ℝ) ^ (-7 : Int)) * 2 ^ 127 ∧ nan = 0x7FC0) ∨
  (f = .e5m2 ∧ mb = 2 ∧ emin = -14 ∧ top = 57344 ∧ nan = 0x7E) ∨ (f = .e4m3 ∧ mb = 3 ∧ emin = -6 ∧ top = 448 ∧ nan = 0x7F) ∨
  (f = .e3m2 ∧ mb = 2 ∧ emin = -2 ∧ top = 28 ∧ nan = 0) ∨ (f = .e2m3 ∧ mb = 3 ∧ emin = 0 ∧ top = 7.5 ∧ nan = 0) ∨
  (f = .e2m1 ∧ mb = 1 ∧ emin = 0 ∧ top = 6 ∧ nan = 0)

/-- FP6 and FP4, which have no specials. -/
def Narrow (f : Fmt) : Bool := f == .e3m2 || f == .e2m3 || f == .e2m1

/-- A code of the format stands for r with this sign. -/
def CodeOf (f : Fmt) (neg : Bool) (r : ℝ) (c : Nat) : Prop :=
  c < 2 ^ f.width ∧ ∃ m e, f.decode c = .fin neg m e false ∧ r = m * (2 : ℝ) ^ e

/-- The generator's state after a draw (R89). -/
def stepped (s : Word) : Word :=
  let a := s ^^^ s >>> 12
  let b := a ^^^ a <<< 25
  b ^^^ b >>> 27

/-- The 24 bits [63:40] of the draw. -/
def drawn (s : Word) : Nat := (stepped s * 0x2545F4914F6CDD1D).toNat / 2 ^ 40

/-- Table 3-11 and R88: of lo = n q and hi, for a between them, hi is taken. -/
def TakesHi (mode : Rm) (neg : Bool) (a q : ℝ) (n d : Nat) : Prop :=
  match mode with
  | .rne => n * q + q / 2 < a ∨ (a = n * q + q / 2 ∧ n % 2 = 1)
  | .rmm => n * q + q / 2 ≤ a
  | .rup => neg = false
  | .rdn => neg = true
  | .rtz => False
  | .rsr => d * q < (a - n * q) * 2 ^ 24
  | .dyn => False

/-- The results of R87. -/
def Overflowed (f : Fmt) (top : ℝ) (mode : Rm) (sat neg : Bool) (c : Nat) : Prop :=
  let most := CodeOf f neg top c
  let inf := f.decode c = .inf neg ∧ c < 2 ^ f.width
  (sat = true ∨ Narrow f = true → most) ∧ (sat = false → f = .e4m3 → c = 0x7F) ∧
  (sat = false → Narrow f = false → f ≠ .e4m3 →
    (mode = .rne ∨ mode = .rmm ∨ mode = .rsr → inf) ∧ (mode = .rtz → most) ∧
    (mode = .rdn → neg = false → most) ∧ (mode = .rdn → neg = true → inf) ∧
    (mode = .rup → neg = false → inf) ∧ (mode = .rup → neg = true → most))

/-- A comparison of two F values by their numbers. -/
def Compares (mk : Prec → XReg → XReg → XReg → Instr) (sig : Bool) (c : FV → FV → Prop) : Prop :=
  ∀ (s : State) (p : Prec) (d a b : XReg),
    let x := regF s p a
    let y := regF s p b
    let nv : BitVec 5 := if sig ∧ (x = .nan ∨ y = .nan) then 1 else 0
    (c x y → WritesF s (exec (mk p d a b) s) 4 d 1 nv s.me.csr.srseed) ∧
    (¬c x y → WritesF s (exec (mk p d a b) s) 4 d 0 nv s.me.csr.srseed)

/-- Numerical order: negative infinity below every number, every number below positive infinity; false with a NaN. -/
def NumLt (x y : FV) : Prop :=
  match x, y with
  | .nan, _ => False
  | _, .nan => False
  | .inf a, .inf b => a = true ∧ b = false
  | .inf a, _ => a = true
  | _, .inf b => b = false
  | a, b => ∃ u v, ratOf a = some u ∧ ratOf b = some v ∧ u < v

/-- Numerical equality; the two zeros are equal, a NaN equals nothing. -/
def NumEq (x y : FV) : Prop :=
  match x, y with
  | .nan, _ => False
  | _, .nan => False
  | .inf a, .inf b => a = b
  | .inf _, _ => False
  | _, .inf _ => False
  | a, b => ∃ u, ratOf a = some u ∧ ratOf b = some u

end Sys2Proof.Claims

/-- LI writes sext(imm10) or the literal, PCADD zext(PC, 47) plus it; SEQ and SNE write 1 or 0 as X(rs1) equals B or not, B being
X(rs2) or the literal. LDK writes entry k8 of the constant window in the executing core's own LM (8 bytes from LM offset 8 x k8,
lowest first) and ADDK adds it to X(rs1), with no translation, key or lease asked, where the word is not known bad. Nothing else
changes but the PC, INSTRET and the event counters. -/
def Obligations.LiteralsConstants : Prop :=
  (∀ (s : State) (d a b : XReg) (i : BitVec 10) (l : Word),
     WritesX s (exec (.li d i) s) 4 d (low i.toInt) ∧
     WritesX s (exec (.liLit d l) s) 12 d l ∧
     WritesX s (exec (.pcadd d i) s) 4 d (low (s.me.pc.toNat % 2 ^ 47 + i.toInt)) ∧
     WritesX s (exec (.pcaddLit d l) s) 12 d (low (s.me.pc.toNat % 2 ^ 47 + l.toInt)) ∧
     WritesX s (exec (.seq d a b) s) 4 d (if s.getX a = s.getX b then 1 else 0) ∧
     WritesX s (exec (.sne d a b) s) 4 d (if s.getX a = s.getX b then 0 else 1) ∧
     WritesX s (exec (.seqLit d a l) s) 12 d (if s.getX a = l then 1 else 0) ∧
     WritesX s (exec (.sneLit d a l) s) 12 d (if s.getX a = l then 0 else 1)) ∧
  ∀ (s : State) (d a : XReg) (k : BitVec 8),
    badIn s.bad (winKey s.myCore (8 * k.toNat)) 8 = none →
    let c : Nat := ((List.range 8).map fun j => (s.mem.get (winKey (s.cur / 8) (8 * k.toNat + j))).toNat * 256 ^ j).sum
    WritesX s (exec (.ldk d k) s) 4 d (low c) ∧ WritesX s (exec (.addk d a k) s) 4 d (low ((s.getX a).toNat + c))

/-- BEQ, BNE, BLT, BGE, BLTU and BGEU, short (4 times the sign-extended off11) or extended (the sign-extended 47-bit offset of E), set
PC to zext(PC, 47) plus the offset where their condition holds, else to the next instruction; no register, flag or byte of memory
changes. JAL and JAL_EXT set PC to zext(PC, 47) plus 4 x off19 or the 47-bit offset, JALR to X(rs1), read before the link is
written, plus imm10; rd takes the address of the next instruction; nothing else changes. -/
def Obligations.BranchesJumps : Prop :=
  BranchBoth .beq .beqExt (fun a b => a = b) ∧ BranchBoth .bne .bneExt (fun a b => a ≠ b) ∧
  BranchBoth .blt .bltExt (fun a b => a.toInt < b.toInt) ∧ BranchBoth .bge .bgeExt (fun a b => b.toInt ≤ a.toInt) ∧
  BranchBoth .bltu .bltuExt (fun a b => a.toNat < b.toNat) ∧ BranchBoth .bgeu .bgeuExt (fun a b => b.toNat ≤ a.toNat) ∧
  ∀ (s : State) (d a : XReg) (i : BitVec 19) (e : BitVec 47) (j : BitVec 10),
    let base : Int := s.me.pc.toNat % 2 ^ 47
    Jumps s (exec (.jal d i) s) (low (base + 4 * i.toInt)) d (nextPc s 4) ∧
    Jumps s (exec (.jalExt d e) s) (low (base + e.toInt)) d (nextPc s 12) ∧
    Jumps s (exec (.jalr d a j) s) (low ((s.getX a).toInt + j.toInt)) d (nextPc s 4)

/-- FADD, FSUB, FMUL, FDIV, FSQRT, FMAC, FMSC and the two extended forms write the one rounding of the exact result of their operands,
read from the low bits at the precision, under the instruction's rounding mode or FRM; the addend is rd, or rs3 in the extended
forms, and a product is not rounded before the addition; FFLAGS has the flags of the special case and of the rounding ORed in,
SRSEED is as the rounding leaves it, and nothing else changes. -/
def Obligations.ScalarArithmetic : Prop :=
  ∀ (s : State) (p : Prec) (m : Rm) (d a b c : XReg),
    let x := regF s p a
    let y := regF s p b
    let M := modeOf s m
    RoundsX s (exec (.fadd p m d a b) s) 4 d p M (fAdd M x y) ∧
    RoundsX s (exec (.fsub p m d a b) s) 4 d p M (fAdd M x y.neg) ∧
    RoundsX s (exec (.fmul p m d a b) s) 4 d p M (fMul x y) ∧
    RoundsX s (exec (.fdiv p m d a b) s) 4 d p M (fDiv x y) ∧
    RoundsX s (exec (.fsqrt p m d a) s) 4 d p M (fSqrt x) ∧
    RoundsX s (exec (.fmac p m d a b) s) 4 d p M (fMulAdd M false x y (regF s p d)) ∧
    RoundsX s (exec (.fmsc p m d a b) s) 4 d p M (fMulAdd M true x y (regF s p d)) ∧
    RoundsX s (exec (.fmacExt p m d a b c) s) 12 d p M (fMulAdd M false x y (regF s p c)) ∧
    RoundsX s (exec (.fmscExt p m d a b c) s) 12 d p M (fMulAdd M true x y (regF s p c))

/-- The value that goes into RND, with the flags of Table 5-2. For operands that are numbers it is the rational sum, difference or
product, or the sum of addend and product, with no flag of its own, and the real quotient and square root, to so many bits that
what lies beneath cannot change a rounding; an exact zero sum of operands of unlike effective sign is +0, or -0 under round-down,
one of like sign keeps it, and a product, quotient or root has the sign that the table gives. A number divided by 0 is an infinity
with DZ; 0 divided by 0, infinity by infinity, 0 times infinity, the effective subtraction of equal infinities and the root of a
number below 0 are NaN with NV; other infinities follow IEEE 754 with no flag; an operand NaN gives NaN with no flag, but a fused
0 times infinity NV even then. -/
def Obligations.ExactResults : Prop :=
  (∀ (m : Rm) (x y z : FV) (u v w : Rat), ratOf x = some u → ratOf y = some v → ratOf z = some w →
    (ratOf (fAdd m x y).1 = some (u + v) ∧ (fAdd m x y).2 = 0) ∧
    (ratOf (fAdd m x y.neg).1 = some (u - v) ∧ (fAdd m x y.neg).2 = 0) ∧
    (ratOf (fMul x y).1 = some (u * v) ∧ (fMul x y).2 = 0 ∧ (fMul x y).1.isNeg = (x.isNeg != y.isNeg)) ∧
    (ratOf (fMulAdd m false x y z).1 = some (w + u * v) ∧ ratOf (fMulAdd m true x y z).1 = some (w - u * v) ∧
      (fMulAdd m false x y z).2 = 0 ∧ (fMulAdd m true x y z).2 = 0) ∧
    (u + v = 0 → x.isNeg ≠ y.isNeg → (fAdd m x y).1.isNeg = decide (m = .rdn)) ∧
    (u - v = 0 → x.isNeg = y.isNeg → (fAdd m x y.neg).1.isNeg = decide (m = .rdn)) ∧
    (u = 0 → v = 0 → (x.isNeg = y.isNeg → (fAdd m x y).1.isNeg = x.isNeg) ∧
      (x.isNeg ≠ y.isNeg → (fAdd m x y.neg).1.isNeg = x.isNeg)) ∧
    (w + u * v = 0 → z.isNeg ≠ (x.isNeg != y.isNeg) → (fMulAdd m false x y z).1.isNeg = decide (m = .rdn)) ∧
    (v ≠ 0 → StandsFor (fDiv x y).1 ((u : ℝ) / v) ∧ (fDiv x y).1.isNeg = (x.isNeg != y.isNeg) ∧ (fDiv x y).2 = 0) ∧
    (v = 0 → u ≠ 0 → fDiv x y = (.inf (x.isNeg != y.isNeg), 2)) ∧
    (v = 0 → u = 0 → fDiv x y = (.nan, 1)) ∧
    (Short x → 0 < u → StandsFor (fSqrt x).1 (Real.sqrt u) ∧ (fSqrt x).1.isNeg = false ∧ (fSqrt x).2 = 0) ∧
    (u < 0 → fSqrt x = (.nan, 1)) ∧
    (u = 0 → ratOf (fSqrt x).1 = some 0 ∧ (fSqrt x).1.isNeg = x.isNeg ∧ (fSqrt x).2 = 0)) ∧
  (∀ (m : Rm) (x : FV) (u : Rat) (a b : Bool), ratOf x = some u →
    fAdd m (.inf a) x = (.inf a, 0) ∧ fAdd m x (.inf a) = (.inf a, 0) ∧ (FV.inf a).neg = .inf (!a) ∧
    (u ≠ 0 → fMul x (.inf a) = (.inf (x.isNeg != a), 0) ∧ fMul (.inf a) x = (.inf (x.isNeg != a), 0)) ∧
    (u = 0 → fMul x (.inf a) = (.nan, 1) ∧ fMul (.inf a) x = (.nan, 1) ∧
      ∀ y sub, fMulAdd m sub x (.inf a) y = (.nan, 1) ∧ fMulAdd m sub (.inf a) x y = (.nan, 1)) ∧
    (u ≠ 0 → fMulAdd m b x (.inf a) (.inf (b != (x.isNeg == a))) = (.nan, 1) ∧
      fMulAdd m b x (.inf a) (.inf (b != (x.isNeg != a))) = (.inf (b != (x.isNeg != a)), 0)) ∧
    fDiv (.inf a) x = (.inf (a != x.isNeg), 0) ∧
    (ratOf (fDiv x (.inf a)).1 = some 0 ∧ (fDiv x (.inf a)).1.isNeg = (x.isNeg != a) ∧ (fDiv x (.inf a)).2 = 0) ∧
    fAdd m (.inf a) (.inf (!a)) = (.nan, 1) ∧ fAdd m (.inf a) (.inf a) = (.inf a, 0) ∧ fMul (.inf a) (.inf b) = (.inf (a != b), 0) ∧
    fDiv (.inf a) (.inf b) = (.nan, 1) ∧ fSqrt (.inf false) = (.inf false, 0) ∧ fSqrt (.inf true) = (.nan, 1)) ∧
  ∀ (m : Rm) (x : FV), fAdd m .nan x = (.nan, 0) ∧ fAdd m x .nan = (.nan, 0) ∧ FV.nan.neg = .nan ∧ fMul .nan x = (.nan, 0) ∧
    fMul x .nan = (.nan, 0) ∧ fDiv .nan x = (.nan, 0) ∧ fDiv x .nan = (.nan, 0) ∧ fSqrt .nan = (.nan, 0)

/-- RND as R86 to R89, R92 and Table 3-12 have it, for every format of Table 3-2, every mode and both settings of SAT: a magnitude a is
placed on the grid q of its binade, or of the smallest normal's, between lo = n q and hi; r is lo where a is lo, and else the one that
Table 3-11 chooses, under stochastic rounding hi where (a - lo) x 2^24 is above d q for the draw d; r above the largest finite gives
R87's result with OF and NX; otherwise the code stands for r with the sign of the value, NX is raised where r is not a, and UF too
where a lies below the smallest normal. A zero keeps its sign; NaN and infinities go as Table 3-12 has them. Into an integer range
the grid is fixed, a value outside it gives the nearer bound with NV alone, and NaN gives 0. A call under stochastic rounding
advances the generator once, whatever the value, and no other call does. -/
def Obligations.Rounding : Prop :=
  (∀ (f : Fmt) (mb : Nat) (emin : Int) (top : ℝ) (nan : Nat) (mode : Rm) (sat : Bool) (st : Fst),
    Table32 f mb emin top nan → mode ≠ .dyn →
    let seed := if mode = .rsr then stepped st.seed else st.seed
    (∀ (neg : Bool) (m : Nat) (e : Int) (b : Bool) (a r : ℝ) (k : Int) (n : Nat), MagOf m e b a → m ≠ 0 →
      (2 : ℝ) ^ k ≤ a → a < (2 : ℝ) ^ (k + 1) →
      let q : ℝ := (2 : ℝ) ^ (max k emin - mb)
      n * q ≤ a → a < (n + 1) * q →
      (a = n * q → r = n * q) → (a ≠ n * q → (TakesHi mode neg a q n (drawn st.seed) → r = (n + 1) * q) ∧
        (¬ TakesHi mode neg a q n (drawn st.seed) → r = n * q)) →
      let out := rnd f mode sat (.fin neg m e b) st
      out.2.seed = seed ∧
      (top < r → out.2.flags = st.flags ||| 0x14 ∧ Overflowed f top mode sat neg out.1) ∧
      (r ≤ top → CodeOf f neg r out.1 ∧ (r = a → out.2.flags = st.flags) ∧
        (r ≠ a → a < (2 : ℝ) ^ emin → out.2.flags = st.flags ||| 0x18) ∧
        (r ≠ a → (2 : ℝ) ^ emin ≤ a → out.2.flags = st.flags ||| 0x10))) ∧
    (∀ (neg : Bool) (e : Int), CodeOf f neg 0 (rnd f mode sat (.fin neg 0 e false) st).1 ∧
      (rnd f mode sat (.fin neg 0 e false) st).2 = ⟨seed, st.flags⟩) ∧
    rnd f mode sat .nan st = (nan, ⟨seed, if Narrow f then st.flags ||| 1 else st.flags⟩) ∧
    ∀ neg : Bool,
      let out := rnd f mode sat (.inf neg) st
      out.2.seed = seed ∧
      (Narrow f → CodeOf f neg top out.1 ∧ out.2.flags = st.flags ||| 1) ∧
      (¬ Narrow f → sat = true → CodeOf f neg top out.1 ∧ out.2.flags = st.flags ||| 0x10) ∧
      (f = .e4m3 → sat = false → out.1 = 0x7F ∧ out.2.flags = st.flags ||| 1) ∧
      (¬ Narrow f → f ≠ .e4m3 → sat = false → f.decode out.1 = .inf neg ∧ out.1 < 2 ^ f.width ∧ out.2.flags = st.flags)) ∧
  ∀ (lo hi qe : Int) (mode : Rm) (st : Fst), lo ≤ hi → mode ≠ .dyn →
    let seed := if mode = .rsr then stepped st.seed else st.seed
    let q : ℝ := (2 : ℝ) ^ qe
    (∀ (neg : Bool) (m : Nat) (e : Int) (a : ℝ) (n j : Nat), MagOf m e false a → n * q ≤ a → a < (n + 1) * q →
      (a = n * q → j = n) → (a ≠ n * q → (TakesHi mode neg a q n (drawn st.seed) → j = n + 1) ∧
        (¬ TakesHi mode neg a q n (drawn st.seed) → j = n)) →
      let v : Int := if neg then -j else j
      let out := rndInt lo hi qe mode (.fin neg m e false) st
      out.2.seed = seed ∧
      (v < lo → out.1 = lo ∧ out.2.flags = st.flags ||| 1) ∧ (hi < v → out.1 = hi ∧ out.2.flags = st.flags ||| 1) ∧
      (lo ≤ v → v ≤ hi → out.1 = v ∧ (j * q = a → out.2.flags = st.flags) ∧ (j * q ≠ a → out.2.flags = st.flags ||| 0x10))) ∧
    rndInt lo hi qe mode .nan st = (0, ⟨seed, st.flags ||| 1⟩) ∧
    rndInt lo hi qe mode (.inf false) st = (hi, ⟨seed, st.flags ||| 1⟩) ∧
    rndInt lo hi qe mode (.inf true) st = (lo, ⟨seed, st.flags ||| 1⟩)

/-- The values of VFEXP2, VFRCP and VFRSQRT before their one rounding, by the rows of Table 5-6: 2^a exactly for an integer a, else
within 2^-30 of itself (the bits beyond are log entry 28), and beyond every format +Inf with OF and NX, or +0 with UF and NX, in
BF16 and FP32; 1/a and 1/sqrt(a) to so many bits that what lies beneath cannot change a rounding; a zero gives 1, or an infinity of
its sign with DZ; a number below 0 has no inverse root: NaN with NV. -/
def Obligations.PowersReciprocals : Prop :=
  (∀ (x : FV) (u : Rat), ratOf x = some u → Short x →
    (∀ i : Int, u = i → i.natAbs < 4096 → fExp2 x = (.fin false 1 i false, 0)) ∧
    ((∀ i : Int, u ≠ i) → |u| < 4096 → ∃ m e, fExp2 x = (.fin false m e true, 0) ∧ 2 ^ 119 ≤ m ∧
      |(m : ℝ) * (2 : ℝ) ^ e - (2 : ℝ) ^ (u : ℝ)| ≤ (2 : ℝ) ^ (u : ℝ) * (2 : ℝ) ^ (-30 : Int)) ∧
    (∀ (f : Fmt) (st : Fst), f = .f32 ∨ f = .bf16 →
      (4096 ≤ u → rnd f .rne false (fExp2 x).1 st = (if f = .f32 then 0x7F800000 else 0x7F80, ⟨st.seed, st.flags ||| 0x14⟩)) ∧
      (u ≤ -4096 → rnd f .rne false (fExp2 x).1 st = (0, ⟨st.seed, st.flags ||| 0x18⟩))) ∧
    (fExp2 x).2 = 0 ∧
    (u ≠ 0 → StandsFor (fRcp x).1 (1 / u) ∧ (fRcp x).1.isNeg = x.isNeg ∧ (fRcp x).2 = 0) ∧
    (u = 0 → fRcp x = (.inf x.isNeg, 2) ∧ fRsqrt x = (.inf x.isNeg, 2)) ∧
    (0 < u → StandsFor (fRsqrt x).1 (1 / Real.sqrt u) ∧ (fRsqrt x).1.isNeg = false ∧ (fRsqrt x).2 = 0) ∧
    (u < 0 → fRsqrt x = (.nan, 1))) ∧
  fExp2 .nan = (.nan, 0) ∧ fRcp .nan = (.nan, 0) ∧ fRsqrt .nan = (.nan, 0) ∧ fExp2 (.inf false) = (.inf false, 0) ∧
  (ratOf (fExp2 (.inf true)).1 = some 0 ∧ (fExp2 (.inf true)).1.isNeg = false ∧ (fExp2 (.inf true)).2 = 0) ∧
  (∀ b, ratOf (fRcp (.inf b)).1 = some 0 ∧ (fRcp (.inf b)).1.isNeg = b ∧ (fRcp (.inf b)).2 = 0) ∧
  (ratOf (fRsqrt (.inf false)).1 = some 0 ∧ (fRsqrt (.inf false)).1.isNeg = false ∧ (fRsqrt (.inf false)).2 = 0) ∧
  fRsqrt (.inf true) = (.nan, 1)

/-- FMIN and FMAX write the code of the operand that Table 5-3 chooses (the other one beside a NaN, the canonical NaN for two, -0
below +0); FSGNJ writes the magnitude of rs1 with the sign bit of rs2, FABS that with sign 0, and both the canonical NaN for a
NaN; these raise nothing. FEQ, FLT and FLE write 1 where the numbers compare so and 0 where they do not or one is NaN, FLT and FLE
then raising NV and FEQ nothing; FCLASS writes bit 0 for NaN, 1 for a zero, 2 for a subnormal, 3 for a normal, 4 for an infinity,
with bit 8 the sign of a value that is no NaN, and raises nothing. SRSEED stays, and nothing else changes. -/
def Obligations.ScalarSelectCompare : Prop :=
  (∀ (s : State) (p : Prec) (d a b : XReg),
    let f := fmtOfPrec p
    let x := regF s p a
    let y := regF s p b
    let ca := (s.getX a).toNat % 2 ^ f.width
    let cb := (s.getX b).toNat % 2 ^ f.width
    let seed := s.me.csr.srseed
    let mag := ca % 2 ^ (f.width - 1)
    let sign := cb / 2 ^ (f.width - 1) * 2 ^ (f.width - 1)
    let pick (less : Prop) (k : Nat) : Prop :=
      (x = .nan ∧ y = .nan ∧ k = f.nan) ∨ (x = .nan ∧ y ≠ .nan ∧ k = cb) ∨ (x ≠ .nan ∧ y = .nan ∧ k = ca) ∨
        (x ≠ .nan ∧ y ≠ .nan ∧ ((less ∧ k = ca) ∨ (¬less ∧ k = cb)))
    let zeros := x.isZero = true ∧ y.isZero = true
    (∃ k, pick (NumLt x y ∨ (zeros ∧ x.isNeg = true)) k ∧ WritesF s (exec (.fmin p d a b) s) 4 d k 0 seed) ∧
    (∃ k, pick (NumLt y x ∨ (zeros ∧ y.isNeg = true)) k ∧ WritesF s (exec (.fmax p d a b) s) 4 d k 0 seed) ∧
    (x = .nan → WritesF s (exec (.fsgnj p d a b) s) 4 d f.nan 0 seed ∧ WritesF s (exec (.fabs p d a) s) 4 d f.nan 0 seed) ∧
    (x ≠ .nan → WritesF s (exec (.fsgnj p d a b) s) 4 d (mag + sign) 0 seed ∧ WritesF s (exec (.fabs p d a) s) 4 d mag 0 seed)) ∧
  Compares .feq false NumEq ∧ Compares .flt true NumLt ∧ Compares .fle true (fun x y => NumLt x y ∨ NumEq x y) ∧
  ∀ (s : State) (p : Prec) (d a : XReg),
    let f := fmtOfPrec p
    let c := (s.getX a).toNat % 2 ^ f.width
    let e := c / 2 ^ f.mb % 2 ^ f.eb
    let m := c % 2 ^ f.mb
    let top := 2 ^ f.eb - 1
    let sign := if c / 2 ^ (f.eb + f.mb) = 1 then 256 else 0
    let k := if e = top ∧ m ≠ 0 then 1 else if e = top then 16 + sign else if e ≠ 0 then 8 + sign else if m ≠ 0 then 4 + sign
      else 2 + sign
    WritesF s (exec (.fclass p d a) s) 4 d k 0 s.me.csr.srseed

/-- FCVT completes in every state, for every operand. It reads the source at its width (W and S codes take the low 32 bits), rounds
its exact value once and writes the code of a float destination, or the integer as a 64-bit number; an integer destination takes a
NaN to 0 and a value outside its range to the nearer bound, with NV; nothing else changes. -/
def Obligations.Conversions : Prop :=
  ∀ (s : State) (dst src : NumCode) (m : Rm) (d a : XReg),
    let x := s.getX a
    let M := modeOf s m
    let value : FV := match src with
      | .w => FV.ofInt ((x.toInt).bmod (2 ^ 32))
      | .wu => FV.ofInt (x.toNat % 2 ^ 32 : Nat)
      | .l => FV.ofInt x.toInt
      | .lu => FV.ofInt x.toNat
      | .d => Fmt.f64.decode x.toNat
      | .s => Fmt.f32.decode (x.toNat % 2 ^ 32)
      | .h => Fmt.f16.decode (x.toNat % 2 ^ 16)
      | .b => Fmt.bf16.decode (x.toNat % 2 ^ 16)
    let start : Fst := ⟨s.me.csr.srseed, 0⟩
    let toInt (lo hi : Int) : Prop :=
      let r := rndInt lo hi 0 M value start
      Gives (exec (.fcvt dst src m d a) s) (fun t => Retired s t (nextPc s 4) ∧ OnlyX s t d (low r.1) ∧ SameV s t ∧ SameM s t ∧
        Raised s t r.2.flags r.2.seed) ∧ lo ≤ r.1 ∧ r.1 ≤ hi ∧ (value = .nan → r.1 = 0 ∧ r.2.flags = 1) ∧
        (∀ u : Rat, ratOf value = some u → (u < lo - 1 → r.1 = lo ∧ r.2.flags = 1) ∧ ((hi : Rat) + 1 < u → r.1 = hi ∧ r.2.flags = 1))
    (∃ t, exec (.fcvt dst src m d a) s = .next t ∧ Retired s t (nextPc s 4) ∧ SameV s t ∧ SameM s t) ∧
    match dst with
      | .w => toInt (-2 ^ 31) (2 ^ 31 - 1)
      | .wu => toInt 0 (2 ^ 32 - 1)
      | .l => toInt (-2 ^ 63) (2 ^ 63 - 1)
      | .lu => toInt 0 (2 ^ 64 - 1)
      | .d => WritesF s (exec (.fcvt dst src m d a) s) 4 d (rnd .f64 M false value start).1 (rnd .f64 M false value start).2.flags
          (rnd .f64 M false value start).2.seed
      | .s => WritesF s (exec (.fcvt dst src m d a) s) 4 d (rnd .f32 M false value start).1 (rnd .f32 M false value start).2.flags
          (rnd .f32 M false value start).2.seed
      | .h => WritesF s (exec (.fcvt dst src m d a) s) 4 d (rnd .f16 M false value start).1 (rnd .f16 M false value start).2.flags
          (rnd .f16 M false value start).2.seed
      | .b => WritesF s (exec (.fcvt dst src m d a) s) 4 d (rnd .bf16 M false value start).1 (rnd .bf16 M false value start).2.flags
          (rnd .bf16 M false value start).2.seed

namespace Sys2Proof.Claims

/-! ## Vectors -/

/-- Lane `i` of width `w`, unsigned. -/
def L (v : Vec) (w i : Nat) : Nat := v.toNat / 2 ^ (w * i) % 2 ^ w

/-- A number of `w` bits as two's complement. -/
def Sg (w n : Nat) : Int := if n < 2 ^ (w - 1) then (n : Int) else n - 2 ^ w

/-- Lane `i` of width `w` is active under mask register `m`; m0 as a mask is all ones. -/
def Act (s : State) (m : MReg) (w i : Nat) : Prop := m = 0 ∨ (s.getM m).getLsbD (w / 8 * i) = true

/-- The instruction writes `w` to vd and does nothing else. -/
def WritesV (s : State) (o : Out) (d : VReg) (w : Vec) : Prop :=
  Gives o fun t => Retired s t (nextPc s 4) ∧ SameX s t ∧ OnlyV s t d w ∧ SameM s t ∧ SameF s t

/-- Active lanes take `f`, modulo 2^w; the others keep what `old` has; nothing else changes. -/
def Lanewise (s : State) (o : Out) (d : VReg) (m : MReg) (w : Nat) (old : Vec) (f : Nat → Int) : Prop :=
  ∃ v, (∀ i, i < 512 / w → (Act s m w i → (L v w i : Int) = f i % 2 ^ w) ∧ (¬Act s m w i → L v w i = L old w i)) ∧ WritesV s o d v

/-- An integer member on two registers: `g` takes the lane width and both lanes, unsigned. -/
def VInt (mk : Ty → VReg → VReg → VReg → MReg → Instr) (g : Nat → Nat → Nat → Int) : Prop :=
  ∀ (s : State) (ty : Ty) (d a b : VReg) (m : MReg), ty.isInt = true →
    Lanewise s (exec (mk ty d a b m) s) d m (laneBits ty) (s.getV d) fun i =>
      g (laneBits ty) (L (s.getV a) (laneBits ty) i) (L (s.getV b) (laneBits ty) i)

/-- Clamped to the signed range of `w` bits. -/
def clamped (w : Nat) (x : Int) : Int := max (-2 ^ (w - 1)) (min x (2 ^ (w - 1) - 1))

/-- Active lanes take the result of `f` in ascending order, each from the generator state and flags that the lane before it left;
inactive lanes keep what vd has, take no draw and raise nothing; nothing else changes. -/
def InOrder (s : State) (o : Out) (d : VReg) (m : MReg) (w : Nat) (f : Nat → Fst → Nat × Fst) : Prop :=
  ∃ (v : Vec) (st : Nat → Fst), st 0 = ⟨s.me.csr.srseed, 0⟩ ∧
    (∀ i, i < 512 / w → (Act s m w i → (L v w i, st (i + 1)) = f i (st i)) ∧
      (¬Act s m w i → L v w i = L (s.getV d) w i ∧ st (i + 1) = st i)) ∧
    Gives o fun t => Retired s t (nextPc s 4) ∧ SameX s t ∧ OnlyV s t d v ∧ SameM s t ∧
      Raised s t (st (512 / w)).flags (st (512 / w)).seed

/-- Lane `i` of a register as a value of its float type. -/
def LF (ty : Ty) (v : Vec) (i : Nat) : FV := (fmtOfTy ty).decode (L v (laneBits ty) i)

/-- A float member that rounds each lane once, under FRM or under `fixed`. -/
def VFlt (ex : Ty → VReg → VReg → VReg → MReg → Instr) (fixed : Option Rm) (g : Rm → FV → FV → FV → FV × BitVec 5) : Prop :=
  ∀ (s : State) (ty : Ty) (d a b : VReg) (m : MReg), ty.isInt = false →
    let M := fixed.getD (modeOf s .dyn)
    InOrder s (exec (ex ty d a b m) s) d m (laneBits ty) fun i st =>
      let x := g M (LF ty (s.getV a) i) (LF ty (s.getV b) i) (LF ty (s.getV d) i)
      rnd (fmtOfTy ty) M false x.1 ⟨st.seed, st.flags ||| x.2⟩

/-- A comparison: all w/8 mask bits of a lane tell its outcome, an inactive lane's are 0; the flags are those of the active lanes. -/
def VCompares (mk : Ty → MReg → VReg → VReg → MReg → Instr) (ty : Ty) (c : Nat → Nat → Prop) (nv : Nat → Nat → Prop) : Prop :=
  ∀ (s : State) (d : MReg) (a b : VReg) (m : MReg),
    let w := laneBits ty
    let x := fun i => L (s.getV a) w i
    let y := fun i => L (s.getV b) w i
    ∃ (v : Word) (f : BitVec 5),
      (∀ i k, i < 512 / w → k < w / 8 → (v.getLsbD (w / 8 * i + k) = true ↔ Act s m w i ∧ c (x i) (y i))) ∧
      ((f = 1 ∧ ∃ i, i < 512 / w ∧ Act s m w i ∧ nv (x i) (y i)) ∨ (f = 0 ∧ ∀ i, i < 512 / w → Act s m w i → ¬nv (x i) (y i))) ∧
      Gives (exec (mk ty d a b m) s) fun t => Retired s t (nextPc s 4) ∧ SameX s t ∧ SameV s t ∧ OnlyM s t d v ∧
        Raised s t f s.me.csr.srseed

/-- The instruction writes `w` to md and does nothing else. -/
def WritesM (s : State) (o : Out) (d : MReg) (w : Word) : Prop :=
  Gives o fun t => Retired s t (nextPc s 4) ∧ SameX s t ∧ SameV s t ∧ OnlyM s t d w ∧ SameF s t

end Sys2Proof.Claims

/-- VADD to VSRA write, in every active lane, the w-bit result of Table 5-5 for the lanes of vs1 and vs2 (wrapping, clamped, signed
minimum and maximum, bitwise, shifts by b modulo w), the most negative value staying under VABS; inactive lanes keep their value,
no flag is raised, and no x, m or other v register changes. -/
def Obligations.VectorInteger : Prop :=
  VInt .vadd (fun _ a b => a + b) ∧ VInt .vsub (fun _ a b => (a : Int) - b) ∧ VInt .vmul (fun _ a b => a * b) ∧
  VInt .vmulh (fun w a b => Sg w a * Sg w b / 2 ^ w) ∧
  VInt .vadds (fun w a b => clamped w (Sg w a + Sg w b)) ∧ VInt .vsubs (fun w a b => clamped w (Sg w a - Sg w b)) ∧
  VInt (fun ty d a _ m => .vabs ty d a m) (fun w a _ => |Sg w a|) ∧
  VInt .vmin (fun w a b => min (Sg w a) (Sg w b)) ∧ VInt .vmax (fun w a b => max (Sg w a) (Sg w b)) ∧
  VInt .vand (fun _ a b => (a &&& b : Nat)) ∧ VInt .vor (fun _ a b => (a ||| b : Nat)) ∧ VInt .vxor (fun _ a b => (a ^^^ b : Nat)) ∧
  VInt .vsll (fun w a b => a * 2 ^ (b % w)) ∧ VInt .vsrl (fun w a b => (a / 2 ^ (b % w) : Nat)) ∧
  VInt .vsra (fun w a b => Sg w a / 2 ^ (b % w))

/-- VFADD, VFSUB, VFMUL, VFDIV, VFSQRT and VFMAC round in every active lane, under FRM, the exact result that the scalar member has;
VFEXP2, VFRCP and VFRSQRT round their result under round-to-nearest-even; the lanes follow one another in ascending order, each
drawing from the generator state that the lane before it left; inactive lanes keep their value, draw nothing and raise nothing,
and nothing else changes. -/
def Obligations.VectorFloat : Prop :=
  VFlt .vfadd none (fun M x y _ => fAdd M x y) ∧ VFlt .vfsub none (fun M x y _ => fAdd M x y.neg) ∧
  VFlt .vfmul none (fun _ x y _ => fMul x y) ∧ VFlt .vfdiv none (fun _ x y _ => fDiv x y) ∧
  VFlt (fun ty d a _ m => .vfsqrt ty d a m) none (fun _ x _ _ => fSqrt x) ∧
  VFlt .vfmac none (fun M x y z => fMulAdd M false x y z) ∧
  VFlt (fun ty d a _ m => .vfexp2 ty d a m) (some .rne) (fun _ x _ _ => fExp2 x) ∧
  VFlt (fun ty d a _ m => .vfrcp ty d a m) (some .rne) (fun _ x _ _ => fRcp x) ∧
  VFlt (fun ty d a _ m => .vfrsqrt ty d a m) (some .rne) (fun _ x _ _ => fRsqrt x)

/-- VFMIN and VFMAX write in every active lane the code of the lane that Table 5-3 chooses for the scalar member (beside a NaN the
other one, for two NaN the canonical NaN, -0 below +0); inactive lanes keep their value, FFLAGS and SRSEED stay. VCMP sets all w/8
bits of a lane in M(md) to 1 where the lane is active and the comparison holds and to 0 elsewhere, no bit keeping its value;
integer EQ, NE, LT and LE compare signed and LTU and LEU unsigned; float EQ, LT and LE are false with a NaN and NE true, LT and LE
raising NV for an active lane with a NaN. No other register changes. -/
def Obligations.VectorMinMaxCompare : Prop :=
  (∀ ty : Ty, ty.isInt = true →
    let w := laneBits ty
    VCompares .vcmpEq ty (fun a b => a = b) (fun _ _ => False) ∧ VCompares .vcmpNe ty (fun a b => a ≠ b) (fun _ _ => False) ∧
    VCompares .vcmpLt ty (fun a b => Sg w a < Sg w b) (fun _ _ => False) ∧
    VCompares .vcmpLe ty (fun a b => Sg w a ≤ Sg w b) (fun _ _ => False) ∧
    VCompares .vcmpLtu ty (fun a b => a < b) (fun _ _ => False) ∧ VCompares .vcmpLeu ty (fun a b => a ≤ b) (fun _ _ => False)) ∧
  (∀ ty : Ty, ty.isInt = false →
    let x := (fmtOfTy ty).decode
    let nan := fun a b => x a = .nan ∨ x b = .nan
    VCompares .vcmpEq ty (fun a b => NumEq (x a) (x b)) (fun _ _ => False) ∧
    VCompares .vcmpNe ty (fun a b => ¬NumEq (x a) (x b)) (fun _ _ => False) ∧
    VCompares .vcmpLt ty (fun a b => NumLt (x a) (x b)) nan ∧
    VCompares .vcmpLe ty (fun a b => NumLt (x a) (x b) ∨ NumEq (x a) (x b)) nan) ∧
  ∀ (s : State) (ty : Ty) (d a b : VReg) (m : MReg), ty.isInt = false →
    let w := laneBits ty
    let x := LF ty (s.getV a)
    let y := LF ty (s.getV b)
    let zeros := fun i => (x i).isZero = true ∧ (y i).isZero = true
    let pick (less : Nat → Prop) (v : Vec) : Prop := ∀ i, i < 512 / w →
      (¬Act s m w i → L v w i = L (s.getV d) w i) ∧ (Act s m w i →
        (x i = .nan ∧ y i = .nan → L v w i = (fmtOfTy ty).nan) ∧ (x i = .nan ∧ y i ≠ .nan → L v w i = L (s.getV b) w i) ∧
        (x i ≠ .nan ∧ y i = .nan → L v w i = L (s.getV a) w i) ∧
        (x i ≠ .nan ∧ y i ≠ .nan ∧ less i → L v w i = L (s.getV a) w i) ∧
        (x i ≠ .nan ∧ y i ≠ .nan ∧ ¬less i → L v w i = L (s.getV b) w i))
    (∃ v, pick (fun i => NumLt (x i) (y i) ∨ (zeros i ∧ (x i).isNeg = true)) v ∧ WritesV s (exec (.vfmin ty d a b m) s) d v) ∧
    (∃ v, pick (fun i => NumLt (y i) (x i) ∨ (zeros i ∧ (y i).isNeg = true)) v ∧ WritesV s (exec (.vfmax ty d a b m) s) d v)

/-- For an integer type VREDSUM writes to xd the sum of the sign-extended active lanes modulo 2^64, VREDMAX and VREDMIN the greatest
and the least of them, sign-extended, and 0 where no lane is active; no flag is raised and nothing else changes. For a float type
the nodes of level 0 are the active lanes' exact values, node j of each further level combines nodes 2j and 2j + 1 in ascending
order (an absent one gives the other, unrounded, two absent ones none), VREDSUM rounding each sum into binary32 under FRM and
VREDMAX and VREDMIN choosing as the scalar members do with no draw; xd takes the binary32 code of the root, +0 where it is absent;
the flags of the nodes are ORed in and nothing else changes. -/
def Obligations.VectorReduce : Prop :=
  (∀ (s : State) (ty : Ty) (xd : LReg) (a : VReg) (m : MReg), ty.isInt = true →
    let w := laneBits ty
    let x := fun i => Sg w (L (s.getV a) w i)
    let none := ∀ i, i < 512 / w → ¬Act s m w i
    (∃ f : Nat → Int, (∀ i, (Act s m w i → f i = x i) ∧ (¬Act s m w i → f i = 0)) ∧
      WritesX s (exec (.vredsum ty xd a m) s) 4 (lreg xd) (low ((List.range (512 / w)).map f).sum)) ∧
    (none → WritesX s (exec (.vredmax ty xd a m) s) 4 (lreg xd) 0 ∧ WritesX s (exec (.vredmin ty xd a m) s) 4 (lreg xd) 0) ∧
    (¬none → (∃ k, k < 512 / w ∧ Act s m w k ∧ (∀ i, i < 512 / w → Act s m w i → x i ≤ x k) ∧
        WritesX s (exec (.vredmax ty xd a m) s) 4 (lreg xd) (low (x k))) ∧
      ∃ k, k < 512 / w ∧ Act s m w k ∧ (∀ i, i < 512 / w → Act s m w i → x k ≤ x i) ∧
        WritesX s (exec (.vredmin ty xd a m) s) 4 (lreg xd) (low (x k)))) ∧
  (∀ (s : State) (ty : Ty) (xd : LReg) (a : VReg) (m : MReg), ty.isInt = false →
    let M := modeOf s .dyn
    let add : FV → FV → Fst → FV × Fst := fun x y st =>
      let r := rnd .f32 M false (fAdd M x y).1 ⟨st.seed, st.flags ||| (fAdd M x y).2⟩
      (Fmt.f32.decode r.1, r.2)
    let runs (o : Out) (op : FV → FV → Fst → FV × Fst) : Prop :=
      ∃ (node : Nat → Nat → Option FV) (st : Nat → Nat → Fst),
        let n := 512 / laneBits ty
        (∀ i, i < n → (Act s m (laneBits ty) i → node 0 i = some (LF ty (s.getV a) i)) ∧ (¬Act s m (laneBits ty) i → node 0 i = none)) ∧
        st 0 0 = ⟨s.me.csr.srseed, 0⟩ ∧
        (∀ l, l < Nat.log2 n → st l (n / 2 ^ (l + 1)) = st (l + 1) 0 ∧ ∀ j, j < n / 2 ^ (l + 1) →
          match node l (2 * j), node l (2 * j + 1) with
          | some x, some y => (node (l + 1) j, st l (j + 1)) = (some (op x y (st l j)).1, (op x y (st l j)).2)
          | some x, none => node (l + 1) j = some x ∧ st l (j + 1) = st l j
          | none, y => node (l + 1) j = y ∧ st l (j + 1) = st l j) ∧
        let root := node (Nat.log2 n) 0
        let last := st (Nat.log2 n) 0
        WritesF s o 4 (lreg xd) (match root with | some x => (rnd .f32 .rne false x ⟨0, 0⟩).1 | none => 0) last.flags last.seed
    runs (exec (.vredsum ty xd a m) s) add ∧ runs (exec (.vredmax ty xd a m) s) (fun x y st => (fPick true x y, st)) ∧
    runs (exec (.vredmin ty xd a m) s) (fun x y st => (fPick false x y, st)))

/-- VCVT converts n = 512 / max(ws, wd) elements, in ascending order: integer to integer clamps the sign-extended source with no flag,
anything else rounds the source's exact value once under FRM; inactive elements keep vd's lane, the bits above element n - 1 are
zero, FFLAGS and SRSEED are as the roundings leave them, and nothing else changes. -/
def Obligations.VectorConvert : Prop :=
  ∀ (s : State) (dty sty : Ty) (d a : VReg) (m : MReg),
    let ws := laneBits sty
    let wd := laneBits dty
    let n := 512 / max ws wd
    let M := modeOf s .dyn
    let x := fun i => L (s.getV a) ws i
    let value := fun i => if sty.isInt then FV.ofInt (Sg ws (x i)) else (fmtOfTy sty).decode (x i)
    let elem : Nat → Fst → Int × Fst := fun i st =>
      if dty.isInt ∧ sty.isInt then (clamped wd (Sg ws (x i)), st)
      else if dty.isInt then rndInt (-2 ^ (wd - 1)) (2 ^ (wd - 1) - 1) 0 M (value i) st
      else ((rnd (fmtOfTy dty) M false (value i) st).1, (rnd (fmtOfTy dty) M false (value i) st).2)
    ∃ (v : Vec) (st : Nat → Fst), st 0 = ⟨s.me.csr.srseed, 0⟩ ∧ v.toNat < 2 ^ (n * wd) ∧
      (∀ i, i < n → (Act s m wd i → (L v wd i : Int) = (elem i (st i)).1 % 2 ^ wd ∧ st (i + 1) = (elem i (st i)).2) ∧
        (¬Act s m wd i → L v wd i = L (s.getV d) wd i ∧ st (i + 1) = st i)) ∧
      Gives (exec (.vcvt dty sty d a m) s) fun t => Retired s t (nextPc s 4) ∧ SameX s t ∧ OnlyV s t d v ∧ SameM s t ∧
        Raised s t (st n).flags (st n).seed

/-- VSEL takes vs1's lane where active and vs2's elsewhere; VBCAST, VPERM (index modulo L, sources read first), VSLIDE (0 from
outside) and VMOV write active lanes; VEXT writes lane k to xd, sign-extended for integer types and zero-extended for float types,
or 0 where k is no lane; VINS writes lane k, if it is one; VDOT4 adds the four signed byte products to an active 32-bit lane,
wrapping. MAND, MOR, MXOR and MNOT write the bitwise result, MFROMX X(xs), to md; MPOP writes the number of 1 bits, MFIRST the
index of the lowest 1 bit or 64, MTOX the mask to xd; m0 as a data operand is its own contents. No flag is raised and nothing else
changes. -/
def Obligations.VectorMovesMasks : Prop :=
  (∀ (s : State) (ty : Ty) (d a b : VReg) (m : MReg) (xd xs xi : LReg),
     let w := laneBits ty
     let n := 512 / w
     let va := s.getV a
     let vb := s.getV b
     let vd := s.getV d
     let k := (s.getX (lreg xi)).toNat
     let sl := (s.getX (lreg xi)).toInt
     Lanewise s (exec (.vsel ty d a b m) s) d m w vb (fun i => L va w i) ∧
     Lanewise s (exec (.vbcast ty d xs m) s) d m w vd (fun _ => (s.getX (lreg xs)).toNat) ∧
     Lanewise s (exec (.vperm ty d a b m) s) d m w vd (fun i => L va w (L vb w i % n)) ∧
     Lanewise s (exec (.vslide ty d a xi m) s) d m w vd
       (fun i => if 0 ≤ (i : Int) + sl ∧ (i : Int) + sl < n then L va w ((i : Int) + sl).toNat else 0) ∧
     Lanewise s (exec (.vmov ty d a m) s) d m w vd (fun i => L va w i) ∧
     WritesX s (exec (.vext ty xd a xi) s) 4 (lreg xd)
       (if k < n then (if ty.isInt then low (Sg w (L va w k)) else low (L va w k)) else 0) ∧
     (∃ v, (∀ i, i < n → L v w i = if i = k then (s.getX (lreg xs)).toNat % 2 ^ w else L vd w i) ∧
       WritesV s (exec (.vins ty d xs xi) s) d v) ∧
     Lanewise s (exec (.vdot4 d a b m) s) d m 32 vd (fun i => Sg 32 (L vd 32 i) + Sg 8 (L va 8 (4 * i)) * Sg 8 (L vb 8 (4 * i)) +
       Sg 8 (L va 8 (4 * i + 1)) * Sg 8 (L vb 8 (4 * i + 1)) + Sg 8 (L va 8 (4 * i + 2)) * Sg 8 (L vb 8 (4 * i + 2)) +
       Sg 8 (L va 8 (4 * i + 3)) * Sg 8 (L vb 8 (4 * i + 3)))) ∧
  ∀ (s : State) (d a b : MReg) (x : XReg),
    let p := s.me.m.get a
    let q := s.me.m.get b
    WritesM s (exec (.mand d a b) s) d (BitVec.ofFnLE fun i : Fin 64 => p.getLsbD i && q.getLsbD i) ∧
    WritesM s (exec (.mor d a b) s) d (BitVec.ofFnLE fun i : Fin 64 => p.getLsbD i || q.getLsbD i) ∧
    WritesM s (exec (.mxor d a b) s) d (BitVec.ofFnLE fun i : Fin 64 => p.getLsbD i != q.getLsbD i) ∧
    WritesM s (exec (.mnot d a) s) d (BitVec.ofFnLE fun i : Fin 64 => !p.getLsbD i) ∧
    WritesM s (exec (.mfromx d x) s) d (s.getX x) ∧
    WritesX s (exec (.mpop x a) s) 4 x (low (onesBelow p 64)) ∧
    (∃ w : Word, ((p = 0 ∧ w = 64) ∨ (p.getLsbD w.toNat = true ∧ ∀ i, i < w.toNat → p.getLsbD i = false)) ∧
      WritesX s (exec (.mfirst x a) s) 4 x w) ∧
    WritesX s (exec (.mtox x a) s) 4 x p

namespace Sys2Proof.Claims

/-! ## Memory -/

/-- The number that bytes stand for, lowest first. -/
def numOf : List Byte → Nat
  | [] => 0
  | b :: r => b.toNat + 256 * numOf r

/-- The state after an admitted load has been performed: A bits set, translations held, its side effects done. -/
def Reached (s : State) (ad : Admitted) : State := (s.admitAccess s.meWho ad).loadEffect s.cur ad.spans

/-- The state after an admitted store of `bs` has been performed, an uncorrectable word that it covers whole recorded before. -/
def Stored (s : State) (ad : Admitted) (bs : List Byte) : State :=
  ((s.admitAccess s.meWho ad).noteWhole (s.tenantOf s.cur) ad.spans).writeSpans (fun s o v => s.hubStore true o v) s.cur true ad.spans bs

/-- A release lets write-combined data leave. -/
def Released (s : State) (os : Os) : State :=
  match os with
  | .rel _ => s.flushWc s.cur
  | .ar _ => s.flushWc s.cur
  | .rlx => s
  | .acq _ => s

/-- Every part of an access is memory. -/
def AllMemory (ad : Admitted) : Prop := ∀ p ∈ ad.spans, ∃ k, p.loc = .mem k

/-- A byte whose entry an access does not mark (A or D bits, R427), and of which the thread holds no write-combined copy. -/
def Unmarked (s : State) (ad : Admitted) (k : Nat) : Prop :=
  (∀ q ∈ ad.marks, q.1 ≠ k) ∧ ∀ e ∈ s.wc, e.1 = s.cur → e.2.1 ≠ k

/-- A byte outside every part of an access. -/
def Outside (ad : Admitted) (k : Nat) : Prop := ∀ p ∈ ad.spans, ∀ b, p.loc = .mem b → k < b ∨ b + p.n ≤ k

/-- A load of `k` bytes at `va` into rd that the checks admit and that meets no bad word: `f` of the bytes read goes to rd; what
else changes is what performing the access does, and every byte of memory stands but the page-table bytes that it marks and
the thread's own write-combined bytes, which leave first. -/
def LoadsX (s : State) (o : Out) (n : Nat) (va : Word) (k : Nat) (f : Nat → Int) (d : XReg) : Prop :=
  ∀ ad, s.check s.meWho ⟨.read, 1, false, false⟩ va k = .ok ad → s.badSpan false ad.spans = none →
    Gives o fun t => Retired (Reached s ad) t (nextPc s n) ∧ OnlyX s t d (low (f (numOf ((Reached s ad).bytesAt ad.spans)))) ∧
      SameV s t ∧ SameM s t ∧ SameF s t ∧ (∀ j, j ≠ s.cur → t.thr j = s.thr j) ∧
      ∀ key, Unmarked s ad key → t.mem.get key = s.mem.get key

/-- The three forms of a load: offset in units, literal, 47-bit offset. -/
def Loads (short : XReg → XReg → BitVec 5 → Os → Instr) (lit : XReg → XReg → Word → Os → Instr)
    (ext : XReg → XReg → BitVec 47 → Os → Instr) (k : Nat) (f : Nat → Int) : Prop :=
  ∀ (s : State) (d a : XReg) (i : BitVec 5) (l : Word) (e : BitVec 47) (os : Os),
    let base := (s.getX a).toInt
    LoadsX s (exec (short d a i os) s) 4 (low (base + k * i.toInt)) k f d ∧
    LoadsX s (exec (lit d a l os) s) 12 (low (base + l.toInt)) k f d ∧
    LoadsX s (exec (ext d a e os) s) 12 (low (base + e.toInt)) k f d

/-- A store of `bs` at `va` that the checks admit, that meets no word bad in part and is no refused message: what changes is
what performing the store does. Where all its parts are memory, no register changes and every byte outside its parts stands,
but those it marks and those the thread had write-combined; where it is one part and not write-combined, the part then reads
as `bs` (R203 keeps LM offsets 0x7C8 to 0x7FF zero). -/
def StoresB (s : State) (o : Out) (n : Nat) (ask : Ask) (va : Word) (bs : List Byte) (os : Os) : Prop :=
  ∀ ad, s.check s.meWho ask va bs.length = .ok ad → msiRefused ad.spans bs = false → s.badSpan true ad.spans = none →
    Gives o fun t => let u := Released (Stored s ad bs) os
      Retired u t (u.me.pc + BitVec.ofNat 64 n) ∧ Quiet u t ∧
      (AllMemory ad → Quiet s t ∧ t.me.pc = nextPc s n ∧ (∀ j, j ≠ s.cur → t.thr j = s.thr j) ∧
        (∀ key, Unmarked s ad key → Outside ad key → t.mem.get key = s.mem.get key) ∧
        ∀ p k, ad.spans = [p] → p.loc = .mem k → p.n = bs.length → p.ca ≠ 3 → ∀ j, j < bs.length →
          t.mem.get (k + j) = if isLm (k + j) = true ∧ 0x7C8 ≤ (k + j) % 2 ^ 24 ∧ (k + j) % 2 ^ 24 < 0x800 then 0 else bs.getD j 0)

/-- The low `k` bytes of a word. -/
def bytesOfWord (w : Word) (k : Nat) : List Byte := (List.range k).map fun j => BitVec.ofNat 8 (w.toNat / 256 ^ j)

/-- The three forms of a store. -/
def Stores (short : XReg → XReg → BitVec 5 → Os → Instr) (lit : XReg → XReg → Word → Os → Instr)
    (ext : XReg → XReg → BitVec 47 → Os → Instr) (k : Nat) : Prop :=
  ∀ (s : State) (r a : XReg) (i : BitVec 5) (l : Word) (e : BitVec 47) (os : Os),
    let base := (s.getX a).toInt
    let bs := bytesOfWord (s.getX r) k
    StoresB s (exec (short r a i os) s) 4 ⟨.write, 1, false, false⟩ (low (base + k * i.toInt)) bs os ∧
    StoresB s (exec (lit r a l os) s) 12 ⟨.write, 1, false, false⟩ (low (base + l.toInt)) bs os ∧
    StoresB s (exec (ext r a e os) s) 12 ⟨.write, 1, false, false⟩ (low (base + e.toInt)) bs os

/-- Byte `i` of a vector register under a mask is active. -/
def ActB (s : State) (m : MReg) (i : Nat) : Prop := m = 0 ∨ (s.getM m).getLsbD i = true

/-- The active bytes under a mask, ascending. -/
def actBytes (s : State) (m : MReg) : List Nat := (List.range 64).filter fun i => m == 0 || (s.getM m).getLsbD i

/-- A masked vector load at `va`: each active byte takes the byte read for it, the others stay; with no active byte nothing is
accessed. -/
def VLoads (s : State) (o : Out) (n : Nat) (va : Word) (v : VReg) (m : MReg) : Prop :=
  (actBytes s m = [] → Gives o fun t => Retired s t (nextPc s n) ∧ Quiet s t) ∧
  ∀ ad spans, s.checkMasked ⟨.read, 1, false, false⟩ va (s.mask m) = .ok (ad, spans) → s.badSpan false spans = none →
    actBytes s m ≠ [] →
    let u := (s.admitAccess s.meWho ad).loadEffect s.cur spans
    ∃ w, (∀ i, i < 64 → (¬ActB s m i → L w 8 i = L (s.getV v) 8 i) ∧
        (ActB s m i → L w 8 i = ((u.bytesAt spans).getD ((actBytes s m).idxOf i) (BitVec.ofNat 8 (L (s.getV v) 8 i))).toNat)) ∧
      Gives o fun t => Retired u t (nextPc s n) ∧ SameX s t ∧ OnlyV s t v w ∧ SameM s t ∧ SameF s t ∧
        ∀ key, Unmarked s ad key → t.mem.get key = s.mem.get key

/-- A masked vector store at `va` of the active bytes of a register. -/
def VStores (s : State) (o : Out) (n : Nat) (va : Word) (v : VReg) (m : MReg) : Prop :=
  (actBytes s m = [] → Gives o fun t => Retired s t (nextPc s n) ∧ Quiet s t) ∧
  ∀ ad spans, s.checkMasked ⟨.write, 1, false, false⟩ va (s.mask m) = .ok (ad, spans) → actBytes s m ≠ [] →
    let bs := (actBytes s m).map fun i => BitVec.ofNat 8 (L (s.getV v) 8 i)
    msiRefused spans bs = false → s.badSpan true spans = none →
    Gives o fun t =>
      let u := ((s.admitAccess s.meWho ad).noteWhole (s.tenantOf s.cur) spans).writeSpans (fun s o v => s.hubStore true o v) s.cur true spans bs
      Retired u t (u.me.pc + BitVec.ofNat 64 n) ∧ Quiet u t ∧
      ((∀ p ∈ spans, ∃ k, p.loc = .mem k) → Quiet s t ∧ t.me.pc = nextPc s n ∧ (∀ j, j ≠ s.cur → t.thr j = s.thr j) ∧
        ∀ key, Unmarked s ad key → Outside { ad with spans := spans } key → t.mem.get key = s.mem.get key)

/-- A broadcasting load at `va`: every active lane of width 8e takes the element. -/
def VLoadsB (s : State) (o : Out) (n : Nat) (va : Word) (e : Nat) (v : VReg) (m : MReg) : Prop :=
  ((∀ i, i < 64 / e → ¬Act s m (8 * e) i) → Gives o fun t => Retired s t (nextPc s n) ∧ Quiet s t) ∧
  ∀ ad, s.check s.meWho ⟨.read, 1, false, false⟩ va e = .ok ad → s.badSpan false ad.spans = none →
    (∃ i, i < 64 / e ∧ Act s m (8 * e) i) →
    ∃ w, (∀ i, i < 64 / e → (Act s m (8 * e) i → L w (8 * e) i = numOf ((Reached s ad).bytesAt ad.spans) % 2 ^ (8 * e)) ∧
        (¬Act s m (8 * e) i → L w (8 * e) i = L (s.getV v) (8 * e) i)) ∧
      Gives o fun t => Retired (Reached s ad) t (nextPc s n) ∧ SameX s t ∧ OnlyV s t v w ∧ SameM s t ∧ SameF s t ∧
        ∀ key, Unmarked s ad key → t.mem.get key = s.mem.get key

/-- Element sizes in bytes. -/
def eBytes : ESize → Nat
  | .b1 => 1
  | .b2 => 2
  | .b4 => 4
  | .b8 => 8

/-- The address of element `i` of a gather or scatter. -/
def elemAt (s : State) (e : Nat) (vi : VReg) (a : XReg) (i : Nat) : Word :=
  low ((s.getX a).toInt + (if e = 8 then Sg 64 (L (s.getV vi) 64 i) else Sg 32 (L (s.getV vi) 32 i)))

/-- Active elements of a gather or scatter with their addresses, ascending. -/
def elems (s : State) (e : Nat) (vi : VReg) (a : XReg) (m : MReg) : List (Nat × Word) :=
  ((List.range (if e = 8 then 8 else 16)).filter fun i => m == 0 || (s.getM m).getLsbD (e * i)).map fun i => (i, elemAt s e vi a i)

/-- The admitted elements stand in the order of the list, each for its own lane and address, and none meets a bad word. -/
def Admits (s : State) (acc : Acc) (e : Nat) (l : List (Nat × Word)) (r : List (Nat × Admitted)) : Prop :=
  List.Forall₂ (fun p q => q.1 = p.1 ∧ s.check s.meWho ⟨acc, 1, false, false⟩ p.2 e = .ok q.2 ∧ s.badSpan acc.dirties q.2.spans = none) l r

/-- Elements read one after the other: the state behind the last, and the numbers read. -/
def readAll (s : State) : List (Nat × Admitted) → State × List (Nat × Nat)
  | [] => (s, [])
  | q :: r =>
    let u := Reached s q.2
    ((readAll u r).1, (q.1, numOf (u.bytesAt q.2.spans)) :: (readAll u r).2)

/-- Elements written one after the other. -/
def writeAll (s : State) (el : Nat → List Byte) : List (Nat × Admitted) → State
  | [] => s
  | q :: r => writeAll (Stored s q.2 (el q.1)) el r

end Sys2Proof.Claims

/-- LB, LBU, LH, LHU, LW, LWU and LD, with an offset in access units, a literal or a 47-bit byte offset, complete for every address
that the checks of Table 8-5 admit and that meets no uncorrectable word: rd takes the bytes read, lowest first, sign- or zero-
extended; no other register changes, and no byte of memory but the page-table bytes that the access marks and the thread's own
write-combined bytes, which leave before the load. -/
def Obligations.ScalarLoads : Prop :=
  Loads .lb .lbLit .lbExt 1 (fun n => Sg 8 (n % 2 ^ 8)) ∧ Loads .lbu .lbuLit .lbuExt 1 (fun n => n) ∧
  Loads .lh .lhLit .lhExt 2 (fun n => Sg 16 (n % 2 ^ 16)) ∧ Loads .lhu .lhuLit .lhuExt 2 (fun n => n) ∧
  Loads .lw .lwLit .lwExt 4 (fun n => Sg 32 (n % 2 ^ 32)) ∧ Loads .lwu .lwuLit .lwuExt 4 (fun n => n) ∧
  Loads .ld .ldLit .ldExt 8 (fun n => n)

/-- SB, SH, SW and SD, in their three forms, complete for every address that the checks admit: the low bytes of the data register go,
lowest first, to the address that the form computes from X(xa) and its offset; where that is memory, no register changes and every
byte outside the stored ones stands but the page-table bytes marked and the thread's write-combined bytes; a store in one part to
a page that is not write-combined then reads back as the data (the reserved LM offsets stay zero). PSTORE does so at the start of
a declared patch slot that the checks of a patch store admit, and traps PATCH elsewhere. -/
def Obligations.ScalarStores : Prop :=
  Stores .sb .sbLit .sbExt 1 ∧ Stores .sh .shLit .shExt 2 ∧ Stores .sw .swLit .swExt 4 ∧ Stores .sd .sdLit .sdExt 8 ∧
  ∀ (s : State) (r a : XReg) (i : BitVec 5) (l : Word) (e : BitVec 47),
    let base := (s.getX a).toInt
    let bs := bytesOfWord (s.getX r) 8
    let ask : Ask := ⟨.patch, 8, false, false⟩
    let at_ (o : Out) (n : Nat) (va : Word) : Prop :=
      (va.toNat ∈ s.patchSlots s.cur → StoresB s o n ask va bs .rlx) ∧
      (va.toNat ∉ s.patchSlots s.cur → ∀ ad, s.check s.meWho ask va 8 = .ok ad → o = .next (s.trap 0x38 va))
    at_ (exec (.pstore r a i) s) 4 (low (base + 8 * i.toInt)) ∧
    at_ (exec (.pstoreLit r a l) s) 12 (low (base + l.toInt)) ∧
    at_ (exec (.pstoreExt r a e) s) 12 (low (base + e.toInt))

/-- VLOAD writes each active byte of vd from the byte at the address plus its number and keeps the others, VSTORE stores the active
bytes, VLOADB writes the element read into every active lane; offsets count units of 64 bytes, or are the literal or 47-bit byte
offset; with nothing active the instruction accesses nothing; no x or m register changes, and no byte outside those stored but
page-table bytes marked and the thread's write-combined bytes. -/
def Obligations.VectorLoadsStores : Prop :=
  ∀ (s : State) (v : VReg) (a : XReg) (m : MReg) (i : BitVec 5) (l : Word) (e : BitVec 47) (es : ESize),
    let base := (s.getX a).toInt
    let va := low (base + 64 * i.toInt)
    let vl := low (base + l.toInt)
    let ve := low (base + e.toInt)
    VLoads s (exec (.vload v a i m) s) 4 va v m ∧ VLoads s (exec (.vloadLit v a l m) s) 12 vl v m ∧
    VLoads s (exec (.vloadExt v a e m) s) 12 ve v m ∧
    VStores s (exec (.vstore v a i m) s) 4 va v m ∧ VStores s (exec (.vstoreLit v a l m) s) 12 vl v m ∧
    VStores s (exec (.vstoreExt v a e m) s) 12 ve v m ∧
    VLoadsB s (exec (.vloadb es v a i m) s) 4 va (eBytes es) v m ∧ VLoadsB s (exec (.vloadbLit es v a l m) s) 12 vl (eBytes es) v m ∧
    VLoadsB s (exec (.vloadbExt es v a e m) s) 12 ve (eBytes es) v m

/-- Where every active element's access is admitted and meets no bad word, VGATHER writes each active lane below nl with the element
at X(xa) plus its signed index, keeps inactive lanes below nl and writes zero above, and VSCATTER stores each active lane at its
element's address, in ascending order, so that of two that overlap the higher lane's bytes remain; no x or m register changes
under VGATHER. -/
def Obligations.GatherScatter : Prop :=
  ∀ (s : State) (es : ESize) (v vi : VReg) (a : XReg) (m : MReg),
    let e := eBytes es
    let nl := if e = 8 then 8 else 16
    let l := elems s e vi a m
    (∀ r, Admits s .read e l r →
      ∃ w, (∀ i, i < 64 / e → (nl ≤ i → L w (8 * e) i = 0) ∧ (i < nl → ¬Act s m (8 * e) i → L w (8 * e) i = L (s.getV v) (8 * e) i) ∧
          (i < nl → Act s m (8 * e) i → ∃ x, (i, x) ∈ (readAll s r).2 ∧ L w (8 * e) i = x % 2 ^ (8 * e))) ∧
        Gives (exec (.vgather es v vi a m) s) fun t => Retired (readAll s r).1 t (nextPc s 4) ∧ SameX s t ∧ OnlyV s t v w ∧
          SameM s t ∧ SameF s t) ∧
    (∀ r, Admits s .write e l r →
      let el := fun i => bytesOfWord (BitVec.ofNat 64 (L (s.getV v) (8 * e) i)) e
      (∀ q ∈ r, msiRefused q.2.spans (el q.1) = false) →
      Gives (exec (.vscatter es v vi a m) s) fun t => let u := writeAll s el r
        Retired u t (u.me.pc + 4) ∧ Quiet u t ∧
        ((∀ q ∈ r, AllMemory q.2) → Quiet s t ∧ t.me.pc = nextPc s 4 ∧ (∀ j, j ≠ s.cur → t.thr j = s.thr j) ∧
          ∀ key, (∀ q ∈ r, Unmarked s q.2 key ∧ Outside q.2 key) → t.mem.get key = s.mem.get key))

namespace Sys2Proof.Claims

/-! ## Atomics -/

/-- The low `n` bytes of a number. -/
def bytesLE (n v : Nat) : List Byte := (List.range n).map fun j => BitVec.ofNat 8 (v / 256 ^ j)

/-- An atomic of `n` bytes at `a` that the checks admit, that replay does not hold and that meets no bad word: `new` of the old value,
if any, is stored at its place, rd takes `res` of it, FFLAGS the flags. Where the place is memory and no capture covers the task,
no other register and no byte outside the place changes but those marked or write-combined before. -/
def AtomicAt (s : State) (o : Out) (os : Os) (a : Word) (n : Nat) (new : Nat → Option Nat) (fl : Nat → BitVec 5) (res : Nat → Int)
    (d : XReg) : Prop :=
  ∀ ad, s.check s.meWho ⟨.rw, n, true, false⟩ a n = .ok ad → s.heldByReplay s.cur a ad.spans = false →
    s.badSpan false ad.spans = none →
    let u := Reached s ad
    let old := numOf (u.bytesAt ad.spans)
    let w := match new old with
      | some v => u.writeSpans (fun s o v => s.hubStore true o v) s.cur true ad.spans (bytesLE n v)
      | none => u
    let z := Released (w.rudiment s.cur a ad.spans) os
    Gives o fun t => Retired z t (z.me.pc + 4) ∧ OnlyX z t d (low (res old)) ∧ SameV z t ∧ SameM z t ∧ Raised z t (fl old) z.me.csr.srseed ∧
      (AllMemory ad → s.captureOf s.cur = none →
        OnlyX s t d (low (res old)) ∧ SameV s t ∧ SameM s t ∧ Raised s t (fl old) s.me.csr.srseed ∧ t.me.pc = nextPc s 4 ∧
        (∀ j, j ≠ s.cur → t.thr j = s.thr j) ∧
        (∀ key, Unmarked s ad key → new old = none ∨ Outside ad key → t.mem.get key = s.mem.get key) ∧
        ∀ p k v, ad.spans = [p] → p.loc = .mem k → p.n = n → p.ca ≠ 3 → new old = some v → ∀ j, j < n →
          t.mem.get (k + j) = if isLm (k + j) = true ∧ 0x7C8 ≤ (k + j) % 2 ^ 24 ∧ (k + j) % 2 ^ 24 < 0x800 then 0
            else BitVec.ofNat 8 (v / 256 ^ j))

/-- Both widths of an atomic of Table 11-3: `f` takes the width in bits, the old value and the source; rd takes the old value,
sign-extended for .W. -/
def Amo (mk : XReg → XReg → XReg → Bool → Os → Instr) (f : Nat → Nat → Nat → Nat) : Prop :=
  ∀ (s : State) (d a b : XReg) (dbl : Bool) (os : Os),
    let n := if dbl then 8 else 4
    AtomicAt s (exec (mk d a b dbl os) s) os (s.getX a) n
      (fun old => some (f (8 * n) old ((s.getX b).toNat % 2 ^ (8 * n)))) (fun _ => 0)
      (fun old => if dbl then old else Sg 32 (old % 2 ^ 32)) d

/-- An atomic whose address is not aligned to its width, below the reserved addresses and not across the window's base, traps
MISALIGN with the address. -/
def Misaligns (mk : XReg → XReg → XReg → Bool → Os → Instr) : Prop :=
  ∀ (s : State) (d a b : XReg) (dbl : Bool) (os : Os),
    let n := if dbl then 8 else 4
    let x := (s.getX a).toNat
    x % n ≠ 0 → x + n ≤ 0x7F1000000000 → (x + n ≤ 0x7F0000000000 ∨ 0x7F0000000000 ≤ x) →
    exec (mk d a b dbl os) s = .next (s.trap 0x03 (s.getX a))

/-- Entry `k` of the own core's constant window. -/
def window (s : State) (k : Nat) : Nat :=
  ((List.range 8).map fun j => (s.mem.get (winKey (s.cur / 8) (8 * k + j))).toNat * 256 ^ j).sum

/-! ## Traps -/

/-- Trap entry of the thread whose turn it is, into its handler: R459's assignments, nothing else of the thread changed; offers and
page waits of the thread are withdrawn, and nothing else of the machine changes. -/
def Trapped (s t : State) (code : Nat) (deferred : Bool) (eval : Word) : Prop :=
  t.me = { s.me with
    pc := BitVec.ofNat 64 (s.me.trap.etvecBase.toNat * 4)
    slot := .active
    wait := none
    pause := 0
    yielded := false
    status := { s.me.status with waiting := false, priv := true }
    trap := { s.me.trap with
      trapped := true
      ppriv := s.me.status.priv
      waitAbandon := match s.me.wait with
        | some w => !(w.why == .done || w.why == .fault || w.why == .replay || w.why == .strike)
        | none => false
      pwaitKind := s.me.status.waitKind
      epc := BitVec.ofNat 47 s.me.pc.toNat
      code := BitVec.ofNat 8 code
      deferred := deferred
      eval := eval } } ∧
  (∀ j, j ≠ s.cur → t.thr j = s.thr j) ∧
  t = { s with threads := t.threads, offers := s.offers.filter fun o => o.tid != s.cur,
               pageWaits := s.pageWaits.filter fun p => !(p.tid == s.cur && p.engine.isNone) }

/-- The thread's handler may be entered, and no capture records the trap. -/
def CanTrap (s : State) : Prop := s.me.trap.trapped = false ∧ s.me.trap.etvecEn = true ∧ s.captureOf s.cur = none

/-- The instruction takes a precise trap and has no effect of its own. -/
def Traps (s : State) (o : Out) (code : Nat) (eval : Word) : Prop := Gives o fun t => Trapped s t code false eval

/-- The machine as it was but for the threads, and every thread but this one as it was. -/
def ThreadOnly (s t : State) : Prop := t = { s with threads := t.threads } ∧ ∀ j, j ≠ s.cur → t.thr j = s.thr j

/-! ## CSRs -/

/-- Readable and writable CSRs whose write leaves its writable bits, given by a mask: FFLAGS, TDESC0 to 15, TSCL0 to 15,
ACCD0 to 7, EPC, ECAUSE, EVAL, ETVEC, ESCRATCH, PASID, WKEY. -/
def csrMask (n : Nat) : Option Nat :=
  if n = 0x000 then some 0x1F
  else if 0x100 ≤ n ∧ n < 0x110 then some (2 ^ 23 - 1)
  else if 0x110 ≤ n ∧ n < 0x120 then some (2 ^ 32 - 1)
  else if 0x120 ≤ n ∧ n < 0x128 then some 7
  else if n = 0x801 then some (2 ^ 47 - 1)
  else if n = 0x802 then some 0x1FF
  else if n = 0x803 ∨ n = 0x805 then some (2 ^ 64 - 1)
  else if n = 0x804 then some (2 ^ 47 - 3)
  else if n = 0x811 then some (2 ^ 20 - 1)
  else if n = 0x812 then some (2 ^ 32 - 1)
  else none

/-- What such a CSR, or FRM, SRSEED, EVSEL0 to 15, STRIKETH, MXSTAT, VWAITLIM, ESTATUS, TRANSROOT, BINDSEL or BINDD0 to 4, reads after a
write of `w` where it read `old`. -/
def csrAfter (n old w : Nat) : Option Nat :=
  match csrMask n with
  | some m => some (w &&& m)
  | none =>
    if n = 0x001 then some (if w % 8 < 6 then w % 8 else old)
    else if n = 0x003 then some (if w = 0 then 0x9E3779B97F4A7C15 else w)
    else if 0x050 ≤ n ∧ n < 0x060 then some (if w % 256 ≤ 17 then w % 512 else w / 256 % 2 * 256)
    else if n = 0x070 then some (w % 2 ^ 33)
    else if n = 0x128 then some (w &&& 0x3D)
    else if n = 0x130 then some (if w % 2 ^ 40 = 0 then 10000000 else w % 2 ^ 40)
    else if n = 0x800 then some (w % 2 + (if w / 8 % 2 = 0 then w / 4 % 2 else old / 4 % 2) * 4 + old / 16 % 16 * 16)
    else if n = 0x810 then some (w % 16 + w / 2 ^ 14 % 2 ^ 33 * 2 ^ 14)
    else if n = 0x840 then some (w % 2 ^ 15)
    else if 0x841 ≤ n ∧ n < 0x846 then some w
    else none

/-- The thread may read CSR `n`: supervisor mode from 0x800 on. -/
def CsrReads (s : State) (n : Nat) : Prop := 0x800 ≤ n → s.me.status.priv = true

/-- The thread may write CSR `n`: also on a service core, where R461 asks for one. -/
def CsrWrites (s : State) (n : Nat) : Prop :=
  CsrReads s n ∧ (n = 0x800 ∨ (0x810 ≤ n ∧ n ≤ 0x820) ∨ 0x840 ≤ n → s.isService (s.cur / 8) = true)

/-- No thread waits for room of a versioned region. -/
def NoRoomWait (s : State) : Prop := ∀ j w, (s.thr j).wait = some w → w.why ≠ .verStore

/-- No entry of any version list lies in the spill area. -/
def NothingSpilled (s : State) : Prop := ∀ p ∈ s.regions, p.2.spilled = false ∧ ∀ g ∈ p.2.grans, g.2.spilled = 0

/-- A Boolean as a bit. -/
def bitOf (b : Bool) : Nat := if b then 1 else 0

/-- TSTATUS as Tables 4-13 and 21-4 lay it out. -/
def tstatusOf (t : TStatus) (service : Bool) : Nat :=
  bitOf t.apb + 2 * bitOf t.waiting + 4 * bitOf t.priv + 16 * bitOf t.leaseMode + 32 * t.waitKind.toNat + 256 * bitOf t.debug +
    512 * bitOf service

/-- What the read-only CSRs read: identity (Table 4-11, R509), time and counts (Table 4-12), TALLOW, CLKRATIO, TSTATUS, LMSPLIT, EHB0 to 7. -/
structure ReadOnlyCsrs (s : State) : Prop where
  core : s.csrRead 0x011 = low (s.cur / 8 : Nat) ∧ s.csrRead 0x016 = low (bitOf (isTabor (s.cur / 8)))
  firmware : s.taskOf s.cur = none → s.csrRead 0x010 = low (s.cur % 8 : Nat) ∧ s.csrRead 0x012 = 0 ∧ s.csrRead 0x013 = 0 ∧
    s.csrRead 0x014 = 0 ∧ s.csrRead 0x015 = 0 ∧ s.csrRead 0x017 = 0 ∧ s.csrRead 0x018 = 0
  task : ∀ k, s.taskOf s.cur = some k →
    let b := (s.bind s.cur).map BitVec.toNat
    s.csrRead 0x010 = low (s.cur % 8 + 8 * (b[0] / 2 ^ 3 % 8) : Nat) ∧ s.csrRead 0x012 = low (b[0] / 2 ^ 6 % 8 + 1 : Nat) ∧
    s.csrRead 0x013 = low (b[1] % 2 ^ 32 : Nat) ∧ s.csrRead 0x014 = low (b[1] / 2 ^ 32 % 2 ^ 11 : Nat) ∧
    s.csrRead 0x015 = low (b[1] / 2 ^ 43 % 2 ^ 12 : Nat) ∧ s.csrRead 0x017 = low (b[0] / 2 ^ 12 % 2 ^ 8 : Nat) ∧
    s.csrRead 0x018 = k.sstep
  counts : s.csrRead 0x020 = low s.time ∧ s.csrRead 0x021 = s.me.csr.cycle ∧ s.csrRead 0x022 = s.me.csr.instret
  tallow : s.csrRead 0x030 = low ((s.core (s.cur / 8)).allow + (s.core (s.cur / 8)).tj * 2 ^ 16 : Nat)
  clkratio : let nt := isTabor (s.cur / 8) && s.power.tnt
    s.csrRead 0x031 = low ((if nt then 10 else s.ratio (s.cur / 8)) + 64 * bitOf nt + 128 * bitOf (s.capped (s.cur / 8)) +
      256 * logicDomain (s.cur / 8) : Nat)
  tstatus : s.csrRead 0x060 = low (tstatusOf s.me.status false % 256 : Nat) ∧
    s.csrRead 0x806 = low (tstatusOf s.me.status (s.isService (s.cur / 8)) : Nat)
  lmsplit : s.csrRead 0x080 =
    low ((s.core (s.cur / 8)).spmin + (s.core (s.cur / 8)).spmax * 2 ^ 8 + (s.core (s.cur / 8)).bound * 2 ^ 16 : Nat)
  handback : ∀ k, k < 8 → s.csrRead (0x808 + k) = s.me.trap.ehb.get (Fin.ofNat 8 k)

/-- The matrix queue of the thread's core is empty. -/
def QueueEmpty (s : State) : Prop := (s.core (s.cur / 8)).mx.queue = []

/-- No copy command and no collective of the thread is under way. -/
def NoCommands (s : State) : Prop :=
  (∀ p ∈ (s.core (s.cur / 8)).copies, p.2.tid ≠ s.cur) ∧ ∀ c ∈ (s.core (s.cur / 8)).colls, c.tid ≠ s.cur

end Sys2Proof.Claims

/-- AMOADD, AMOAND, AMOOR, AMOXOR, AMOMIN, AMOMAX, AMOMINU, AMOMAXU and AMOSWAP, of 4 or 8 bytes at X(rs1), read the old value and
store f(old, X(rs2)) in one step where the checks admit the access, and write the old value to rd, sign-extended for .W; no other
register changes, and no byte of memory outside the place but those marked or write-combined before; each of these, AMOCAS and
AMOFADD at an address not aligned to its width trap MISALIGN with the address. -/
def Obligations.Atomics : Prop :=
  Amo .amoadd (fun w a b => (a + b) % 2 ^ w) ∧ Amo .amoand (fun _ a b => a &&& b) ∧ Amo .amoor (fun _ a b => a ||| b) ∧
  Amo .amoxor (fun _ a b => a ^^^ b) ∧ Amo .amomin (fun w a b => if Sg w (a % 2 ^ w) < Sg w (b % 2 ^ w) then a else b) ∧
  Amo .amomax (fun w a b => if Sg w (a % 2 ^ w) < Sg w (b % 2 ^ w) then b else a) ∧
  Amo .amominu (fun _ a b => min a b) ∧ Amo .amomaxu (fun _ a b => max a b) ∧ Amo .amoswap (fun _ _ b => b) ∧
  Misaligns .amoadd ∧ Misaligns .amoand ∧ Misaligns .amoor ∧ Misaligns .amoxor ∧ Misaligns .amomin ∧ Misaligns .amomax ∧
  Misaligns .amominu ∧ Misaligns .amomaxu ∧ Misaligns .amoswap ∧ Misaligns .amocas ∧ Misaligns .amofadd

/-- AMOCAS stores X(rs2) only where the old value equals the low bytes of X(rd), which is then read as the compare value; AMOFADD
stores the sum rounded to nearest even, ORs its flags into FFLAGS and writes the old value zero-extended; ABUMP takes 16 x
ceil(X(rs2)/16) bytes between entries 247 and 248 of the constant window, storing old + n where n is not 0, or writes all ones and
stores nothing where it is refused. -/
def Obligations.AtomicsConditional : Prop :=
  ∀ (s : State) (d a b : XReg) (dbl : Bool) (os : Os),
    let n := if dbl then 8 else 4
    let src := (s.getX b).toNat % 2 ^ (8 * n)
    let cmp := (s.getX d).toNat % 2 ^ (8 * n)
    let f : Fmt := if dbl then .f64 else .f32
    let sum := fun old => rnd f .rne false (fAdd .rne (f.decode old) (f.decode src)).1 ⟨0, (fAdd .rne (f.decode old) (f.decode src)).2⟩
    let base := window s 247
    let lim := window s 248
    let k := ((s.getX b).toNat + 15) / 16 * 16
    let refused := fun old => old < base ∨ lim < old ∨ lim < old + k
    AtomicAt s (exec (.amocas d a b dbl os) s) os (s.getX a) n (fun old => if old = cmp then some src else none) (fun _ => 0)
      (fun old => if dbl then old else Sg 32 (old % 2 ^ 32)) d ∧
    AtomicAt s (exec (.amofadd d a b dbl os) s) os (s.getX a) n (fun old => some (sum old).1) (fun old => (sum old).2.flags)
      (fun old => old) d ∧
    (badIn s.bad (winKey s.myCore 1976) 8 = none → badIn s.bad (winKey s.myCore 1984) 8 = none →
      AtomicAt s (exec (.abump d a b os) s) os (s.getX a) 8
        (fun old => if refused old ∨ k = 0 then none else some (old + k)) (fun _ => 0)
        (fun old => if refused old then -1 else old) d)

/-- FENCE and IFENCE complete in every state, FENCEX once no command of the thread is under way on an engine path that it names, where
it names MX the core's matrix queue is empty, and where it names SL and orders earlier stores no entry that its core has pushed is
in transit; no register, flag or byte of memory changes, except that the thread's write-combined data leaves at SY and where
earlier stores of the LS or the MX path are ordered. -/
def Obligations.Fences : Prop :=
  ∀ (s : State) (sc : Scope) (k : FenceKind) (p q : Path),
    let out (ls : Prop) (u : State) : Prop := ((sc = .sy ∨ (k ≠ .acq ∧ ls)) ∧ u = s.flushWc s.cur) ∨ (¬(sc = .sy ∨ (k ≠ .acq ∧ ls)) ∧ u = s)
    (Gives (exec (.fence sc k) s) fun t => ∃ u, out True u ∧ Retired u t (nextPc s 4) ∧ Quiet s t) ∧
    (Gives (exec .ifence s) fun t => Retired s t (nextPc s 4) ∧ Quiet s t) ∧
    ((∀ c ∈ (s.core (s.cur / 8)).copies, c.2.tid = s.cur → p ≠ .ce ∧ q ≠ .ce) →
      (∀ c ∈ (s.core (s.cur / 8)).colls, c.tid = s.cur → p ≠ .co ∧ q ≠ .co) → (QueueEmpty s ∨ (p ≠ .mx ∧ q ≠ .mx)) →
      (k = .acq ∨ (s.core (partnerOf (s.cur / 8))).link.transit = [] ∨ (p ≠ .sl ∧ q ≠ .sl)) →
      Gives (exec (.fencex sc k p q) s) fun t => ∃ u, out (p = .ls ∨ q = .ls ∨ p = .mx ∨ q = .mx) u ∧ Retired u t (nextPc s 4) ∧ Quiet s t)

/-- A trap of a thread whose handler may be entered saves PC, cause, EVAL, privilege, WAITABANDON and WAITKIND, sets TRAPPED, clears
WAITING, enters supervisor mode and puts PC to 4 times ETVEC.BASE, with APB, WAITKIND, LEASEMODE and every x, v and m register,
flag, generator state and other CSR as it was; a deferred trap does the same with DEFERRED 1; no byte of memory changes. -/
def Obligations.TrapEntry : Prop :=
  ∀ (s : State), CanTrap s →
    (∀ (code : Nat) (eval : Word), Trapped s (s.trap code eval) code false eval) ∧
    (∀ (d : Deferred) (r : List Deferred), s.me.deferred = d :: r → d.isData = true →
      Trapped (s.modMe fun t => { t with deferred := r }) (s.takeDeferred s.cur) d.code.toNat true d.eval) ∧
    (∀ (d : Deferred) (r : List Deferred), s.me.deferred = d :: r → d.isData = false →
      Trapped (s.modMe fun t => { t with deferred := r, trap := { t.trap with ehb := d.ehb } }) (s.takeDeferred s.cur) d.code.toNat true
        d.eval)

/-- SCALL traps SCALL (0x30) into the thread's handler with EPC its own address and EVAL 0, with every register as it was and INSTRET
not counted; on a service core with TRAPPED = 1 it is a double trap: with no command and no queue entry outstanding the thread
stops as HALT states, with FW_FAULT logged under the cause of the SCALL, and with a command under way it sleeps until that is done.
That the stop is that of HALT and which cause its record has is the model's reading (log entry 13). -/
def Obligations.ScallRule : Prop :=
  ∀ (s : State),
    (CanTrap s → Traps s (exec .scall s) 0x30 0 ∧
      Gives (exec .scall s) fun t => t.me.trap.epc = BitVec.ofNat 47 s.me.pc.toNat ∧ t.me.trap.eval = 0 ∧ t.me.trap.code = 0x30 ∧
        t.me.csr.instret = s.me.csr.instret ∧ SameX s t) ∧
    (s.isService (s.cur / 8) = true → s.me.trap.trapped = true →
      (NoCommands s → QueueEmpty s → exec .scall s = .next (((s.leaveWait s.cur).flushWc s.cur).stopService s.cur 0x30)) ∧
      (¬ NoCommands s → Gives (exec .scall s) fun t => t.me.slot = .asleep ∧ t.me.status.waiting = true ∧ t.me.pc = s.me.pc ∧
        t.me.trap = s.me.trap ∧ Quiet s t ∧ (∀ j, j ≠ s.cur → t.thr j = s.thr j) ∧ ∀ k, t.mem.get k = s.mem.get k))

/-- ERET in supervisor mode with TRAPPED = 1 restores PRIV from PPRIV, clears TRAPPED and WAITABANDON and puts PC to zext(EPC, 47);
EPC, ECAUSE, EVAL, PPRIV, PWAITKIND and every other register stand, INSTRET counts it, and nothing else of the machine changes. -/
def Obligations.ReturnFromTrap : Prop :=
  ∀ (s : State), s.me.status.priv = true → s.me.trap.trapped = true →
    Gives (exec .eret s) fun t => ThreadOnly s t ∧ Quiet s t ∧ t.me.pc = BitVec.ofNat 64 s.me.trap.epc.toNat ∧
      t.me.trap = { s.me.trap with trapped := false, waitAbandon := false } ∧
      t.me.status = { s.me.status with priv := s.me.trap.ppriv, waiting := false } ∧
      t.me.csr.instret = s.me.csr.instret + 1 ∧ t.me.space = s.me.space ∧ t.me.sense = s.me.sense ∧ t.me.deferred = s.me.deferred

/-- BREAK with DEBUG 0 traps BREAK (0x31) with EVAL 0; with DEBUG 1 it requests a debug stop of its gang and does what BARW.SS of
handle 0 does; YIELD changes no architectural state but the PC, which advances by 4, and marks the thread as yielding its next
turn. With no command of its own under way and the matrix queue empty, DONE of a thread that holds a deferred trap raises it; with
none it frees the thread's slot and its record, and for a thread of a gang with another thread left in its team and a handle 0 that
does not become complete, counts it done and lowers N of handle 0 by one; HALT in supervisor mode ends the task of a task thread, whose identifier then names nothing, and leaves a service
thread of a core other than the firmware's own STOPPED behind the instruction. -/
def Obligations.BreakYieldDoneHalt : Prop :=
  (∀ (s : State),
    (CanTrap s → s.me.status.debug = false → Traps s (exec .brk s) 0x31 0) ∧
    (∀ g k, s.me.status.debug = true → s.gangOf s.cur = some g → s.tasks.find g = some k →
      exec .brk s = exec .barwSs { s with tasks := s.tasks.set g { k with debugReq := true } }) ∧
    Gives (exec .yieldTurn s) fun t => Retired s t (nextPc s 4) ∧ Quiet s t ∧ t.me.yielded = true) ∧
  (∀ (s : State), NoCommands s → QueueEmpty s →
    (s.me.deferred ≠ [] → exec .threadDone s = .next ((s.flushWc s.cur).takeDeferred s.cur)) ∧
    (s.gangOf s.cur = none → s.me.deferred = [] → Gives (exec .threadDone s) fun t =>
      t.me.slot = .unbound ∧ t.binds.find s.cur = none ∧ t.me.pc = nextPc s 4 ∧ (∀ j, j ≠ s.cur → t.thr j = s.thr j) ∧ t.tasks = s.tasks) ∧
    (∀ g k b, s.gangOf s.cur = some g → s.tasks.find g = some k → k.bars[0]? = some b → (b.c = 0 ∨ b.c + 1 ≠ b.n) →
      s.me.deferred = [] → (∃ j, j ≠ s.cur ∧ j ∈ s.team g (s.cur / 8)) →
      Gives (exec .threadDone s) fun t => t.me.slot = .unbound ∧ t.binds.find s.cur = none ∧ (∀ j, j ≠ s.cur → t.thr j = s.thr j) ∧
        t.tasks.find g = some { k with doneCount := k.doneCount + 1, bars := k.bars.set 0 { b with n := b.n - 1 } }) ∧
    (∀ g, s.me.status.priv = true → s.gangOf s.cur = some g → Gives (exec .halt s) fun t => t.tasks.find g = none) ∧
    (s.me.status.priv = true → s.gangOf s.cur = none → s.cur / 8 ≠ 0xF07 → Gives (exec .halt s) fun t =>
      t.me.slot = .stopped ∧ t.me.pc = nextPc s 4 ∧ t.me.trap = s.me.trap ∧ ∀ j, j ≠ s.cur → t.thr j = s.thr j))

/-- TLBINV in supervisor mode on a service core, with a selector that names an enabled QIF, leaves no TLB of any core or cluster with an
entry of that QIF that the selector names (all of it under scope 2 or 3, a PASID's that are not global under scope 1, under scope 0 those
of the page at the address that are global or the PASID's; in the stage-2 form all of both stages, or under scope 0 those that stage 2
maps through the page at the address) and retires; MARK writes 1 to rd where a capture of the task asks for marks and 0 elsewhere, then
changing nothing else. -/
def Obligations.InvalidateAndMark : Prop :=
  (∀ (s : State) (a b : XReg) (c : Nat) (e : TlbEntry), s.me.status.priv = true → s.isService (s.cur / 8) = true →
    let v := (s.getX b).toNat
    let page := (s.getX a).toNat / 2 ^ 14
    let drops (p : Prop) : Prop := Gives (exec (.tlbinv a b) s) fun t => t.me.pc = nextPc s 4 ∧ SameX s t ∧ SameV s t ∧ SameM s t ∧
      (e ∈ (t.core c).tlb → e ∈ (s.core c).tlb) ∧ (e ∈ (t.core c).tlb ∨ e ∈ t.clusterTlbs.get [] c → ¬ p)
    v < 2 ^ 26 → s.qEnabled (v % 8) = true →
    (v / 16 % 4 = 3 → drops True) ∧ (v / 16 % 4 = 2 → drops (e.qif = v % 8)) ∧
    (v / 8 % 2 = 0 → v / 16 % 4 = 1 → drops (e.global = false ∧ e.qif = v % 8 ∧ e.pasid = v / 64 % 2 ^ 20)) ∧
    (v / 8 % 2 = 0 → v / 16 % 4 = 0 → (s.getX a).toNat < 0x7F0000000000 →
      drops (e.qif = v % 8 ∧ (e.global = true ∨ e.pasid = v / 64 % 2 ^ 20) ∧ e.page / 2 ^ (e.size - 14) = page / 2 ^ (e.size - 14))) ∧
    (v / 8 % 2 = 1 → v / 16 % 4 = 0 → (s.getX a).toNat < 0x7F0000000000 →
      drops (e.qif = v % 8 ∧ e.mode = false ∧ e.ipage / 2 ^ (e.isize - 14) = page / 2 ^ (e.isize - 14)))) ∧
  ∀ (s : State) (d a b : XReg),
    (s.captureOf s.cur = none → WritesX s (exec (.mark d a b) s) 4 d 0) ∧
    (∀ g, s.gangOf s.cur = some g → s.wants g 2 = false → WritesX s (exec (.mark d a b) s) 4 d 0) ∧
    ∀ g, s.gangOf s.cur = some g → s.wants g 2 = true → Gives (exec (.mark d a b) s) fun t => t.getX d = if d = 0 then 0 else 1

/-- CSRR, and CSRS or CSRC with rs1 = x0, write to rd what a CSR reads and change nothing else. CSRW, CSRS and CSRC on a writable CSR write
the old value to rd and leave the CSR reading what its table lets the new value (the register, the old value with its bits set, or
with its bits cleared) put into it: FFLAGS, FRM (the codes 6 and 7 leave it), SRSEED (0 gives the default), EVCNT, EVSEL (an event not
assigned gives 0), STRIKETH, WAKECLASS (class 3 leaves it), the descriptor, scale and accumulator registers, MXSTAT, VWAITLIM (0 gives
the default), ESTATUS, EPC, ECAUSE, EVAL, ETVEC, ESCRATCH, TRANSROOT, PASID, WKEY, VSPILL (kept while an entry is spilled), BINDSEL,
BINDD0 to 4, BINDCMD (1 to 4 sets BUSY, another ERR) and QPWR; the other registers stand, and nothing else of the machine changes. The
read-only CSRs read what their tables say (that CLKRATIO.DOMAIN reads the domain right after reset is log entry 129). -/
def Obligations.CsrAccess : Prop :=
  (∀ (s : State) (d a : XReg) (n : BitVec 12),
    let k := n.toNat
    (csrExists k = true → CsrReads s k → QueueEmpty s → WritesX s (exec (.csrr d n) s) 4 d (s.csrRead k) ∧
      WritesX s (exec (.csrs d n 0) s) 4 d (s.csrRead k) ∧ WritesX s (exec (.csrc d n 0) s) 4 d (s.csrRead k)) ∧
    (CsrWrites s k → QueueEmpty s →
      let old := s.csrRead k
      let all (p : Word → State → Prop) : Prop :=
        let writes (o : Out) (w : Word) : Prop := Gives o fun t =>
          OnlyX s t d old ∧ SameV s t ∧ SameM s t ∧ t.me.pc = nextPc s 4 ∧ (∀ j, j ≠ s.cur → t.thr j = s.thr j) ∧ p w t
        writes (exec (.csrw d n a) s) (s.getX a) ∧
        (a ≠ 0 → writes (exec (.csrs d n a) s) (old ||| s.getX a) ∧ writes (exec (.csrc d n a) s) (old &&& ~~~s.getX a))
      ((csrAfter k old.toNat 0).isSome = true → all fun w t => some (t.csrRead k).toNat = csrAfter k old.toNat w.toNat ∧
        t = { s with threads := t.threads, cores := t.cores }) ∧
      (0x040 ≤ k → k < 0x050 → (s.me.csr.evsel.get (Fin.ofNat 16 k)).toNat % 256 ≠ 2 →
        all fun w t => (t.csrRead k).toNat = w.toNat % 2 ^ 48 ∧ t = { s with threads := t.threads }) ∧
      (k = 0x071 → (∀ q, q < 4 → (s.quad q).st = .on) → all fun w t =>
        (t.csrRead k).toNat = (if w.toNat % 4 = 3 then old.toNat % 4 else w.toNat % 4) + w.toNat / 16 % 16 * 16 ∧
        t = { s with threads := t.threads }) ∧
      (k = 0x820 → NoRoomWait s → all fun w t => t = { s with threads := t.threads, vspill := t.vspill } ∧
        (NothingSpilled s → (t.csrRead k).toNat = w.toNat % 2 ^ 12 + w.toNat / 2 ^ 24 % 2 ^ 28 * 2 ^ 24) ∧
        (¬ NothingSpilled s → t.csrRead k = old)) ∧
      (k = 0x846 → s.me.bind.busy = false → all fun w t => t = { s with threads := t.threads } ∧
        t.csrRead k = if 1 ≤ w.toNat % 8 ∧ w.toNat % 8 ≤ 4 then 0x100 else 0x200) ∧
      (k = 0x850 → (∀ q, q < 4 → (s.quad q).st = .on) → all fun w t => t = { s with threads := t.threads, power := t.power } ∧
        ∀ q, q < 4 → (t.csrRead k).toNat / 2 ^ (8 * q) % 2 ^ 8 = 8 * (w.toNat / 2 ^ (8 * q + 3) % 4) ∧
          t.quad q = { s.quad q with floor := w.toNat / 2 ^ (8 * q + 3) % 4 }))) ∧
  ∀ s, ReadOnlyCsrs s

/-- A CSR number that does not exist traps ILLEGAL with EVAL 2; a write to a read-only CSR traps ILLEGAL with EVAL 3, unless it is
CSRS or CSRC with rs1 = x0, which only read; a CSR from 0x800 on traps PRIV with EVAL its number in user mode; off a service core
a write to a CSR of service firmware traps ILLEGAL with EVAL 3 and a write to BINDCMD traps ACCESS; ERET, HALT and TLBINV trap
PRIV in user mode, TLBINV also off a service core, and ERET with TRAPPED = 0 traps ILLEGAL with EVAL 0; nothing of the instruction
takes effect. -/
def Obligations.PrivilegeChecks : Prop :=
  ∀ (s : State) (d a b : XReg) (n : BitVec 12), CanTrap s →
    (s.me.status.priv = false → Traps s (exec .eret s) 0x02 0 ∧ Traps s (exec .halt s) 0x02 0 ∧ Traps s (exec (.tlbinv a b) s) 0x02 0) ∧
    (s.me.status.priv = true → s.isService (s.cur / 8) = false → Traps s (exec (.tlbinv a b) s) 0x02 0) ∧
    (s.me.status.priv = true → Traps s (exec .eret s) 0x01 0) ∧
    let k := n.toNat
    let all (c : Nat) (e : Word) : Prop := Traps s (exec (.csrr d n) s) c e ∧ Traps s (exec (.csrw d n a) s) c e ∧
      Traps s (exec (.csrs d n a) s) c e ∧ Traps s (exec (.csrc d n a) s) c e
    let writes (c : Nat) (e : Word) : Prop := Traps s (exec (.csrw d n a) s) c e ∧
      (a ≠ 0 → Traps s (exec (.csrs d n a) s) c e ∧ Traps s (exec (.csrc d n a) s) c e)
    (csrExists k = false → all 0x01 2) ∧
    (csrExists k = true → csrReadOnly k = true → writes 0x01 3) ∧
    (csrExists k = true → csrReadOnly k = false → 0x800 ≤ k → s.me.status.priv = false → all 0x02 (BitVec.ofNat 64 k)) ∧
    (csrExists k = true → csrReadOnly k = true → 0x800 ≤ k → s.me.status.priv = false →
      Traps s (exec (.csrr d n) s) 0x02 (BitVec.ofNat 64 k)) ∧
    (s.me.status.priv = true → s.isService (s.cur / 8) = false →
      (k = 0x800 ∨ (0x810 ≤ k ∧ k ≤ 0x812) ∨ k = 0x820 ∨ (0x840 ≤ k ∧ k ≤ 0x845) ∨ k = 0x850 → writes 0x01 3) ∧
      (k = 0x846 → writes 0x08 0x846))

namespace Sys2Proof.Claims

/-! ## Tiles -/

/-- The address of piece `i`: the dense stride with xs = 0. -/
def pieceAt (s : State) (xa : XReg) (xs : LReg) (size i : Nat) : Word :=
  low ((s.getX xa).toInt + i * (if xs = 0 then (size : Int) else (s.getX (lreg xs)).toInt))

/-- The pieces of a tile access with their addresses, ascending. -/
def piecesOf (s : State) (xa : XReg) (xs : LReg) (n size : Nat) : List (Nat × Word) :=
  (List.range n).map fun i => (i, pieceAt s xa xs size i)

/-- No entry of the core's queue that `p` names. -/
def NoEntry (s : State) (p : MxOp → Bool) : Prop := ∀ e ∈ (s.core (s.cur / 8)).mx.queue, p e.op = false

/-- Byte `b` of a number. -/
def byteIn (x b : Nat) : Nat := x / 256 ^ b % 256

/-- The bytes of piece `i` among those read, as a number. -/
def pieceNum (r : List (Nat × Nat)) (i : Nat) : Nat := (r.getD i (0, 0)).2

/-- A tile load whose pieces are admitted and meet no bad word: byte `b` of the area from key `base` on, `len` bytes long, becomes
`f x b`, where `x i` are the bytes read for piece `i`; no register changes, and no other byte but those that reading changes. -/
def FillsArea (s : State) (o : Out) (pieces : List (Nat × Word)) (size base len : Nat) (f : (Nat → Nat) → Nat → Nat) : Prop :=
  ∀ r, Admits s .read size pieces r →
    let u := (readAll s r).1
    Gives o fun t => Stepped u t (u.me.pc + 4) ∧ Quiet u t ∧ (∀ j, j ≠ s.cur → t.thr j = u.thr j) ∧
      (∀ b, b < len → (t.mem.get (base + b)).toNat = f (pieceNum (readAll s r).2) b) ∧
      ∀ k, (k < base ∨ base + len ≤ k) → t.mem.get k = u.mem.get k

/-- A tile store whose pieces are admitted, of rows that stand at `src` and meet no bad word: every piece takes its row, one after the
other; where all of them are memory no register changes, and no byte outside the pieces but those marked or write-combined before. -/
def StoresArea (s : State) (o : Out) (pieces : List (Nat × Word)) (size : Nat) (src : Nat → Nat) : Prop :=
  ∀ r, Admits s .write size pieces r →
    let row := fun i => (List.range size).map fun b => s.mem.get (src i + b)
    (∀ q ∈ r, badIn s.bad (src q.1) size = none ∧ msiRefused q.2.spans (row q.1) = false) →
    Gives o fun t => let u := writeAll s row r
      Retired u t (u.me.pc + 4) ∧ Quiet u t ∧
      ((∀ q ∈ r, AllMemory q.2) → Quiet s t ∧ t.me.pc = nextPc s 4 ∧ (∀ j, j ≠ s.cur → t.thr j = s.thr j) ∧
        ∀ key, (∀ q ∈ r, Unmarked s q.2 key ∧ Outside q.2 key) → t.mem.get key = s.mem.get key)

/-- An operation enters the matrix queue of the core while it has room, with the FRM value and the generator state of this moment;
the generator advances by `draws`; nothing else changes. -/
def Enqueues (s : State) (o : Out) (op : MxOp) (draws : Nat) : Prop :=
  (s.core (s.cur / 8)).mx.queue.length < 8 →
  Gives o fun t => Stepped s t (nextPc s 4) ∧ SameX s t ∧ SameV s t ∧ SameM s t ∧ t.me.csr.fflags = s.me.csr.fflags ∧
    t.me.csr.srseed = Nat.rec (motive := fun _ => Word) s.me.csr.srseed (fun _ w => drawState w) draws ∧
    (∀ j, j ≠ s.cur → t.thr j = s.thr j) ∧ t = { s with threads := t.threads, cores := t.cores } ∧
    t.core (s.cur / 8) = { s.core (s.cur / 8) with mx := { (s.core (s.cur / 8)).mx with
      queue := (s.core (s.cur / 8)).mx.queue ++ [⟨op, s.cur, s.me.csr.frm, s.me.csr.srseed⟩] } } ∧
    ∀ c, c ≠ s.cur / 8 → t.core c = s.core c

/-- ACC_TYPE of an accumulator: 1 for INT32. -/
def accIsInt (s : State) (n : AReg) : Bool := ((s.core (s.cur / 8)).mx.accd.get n).getLsbD 0

/-! ## Versions -/

/-- No thread waits for anything. -/
def Calm (s : State) : Prop := ∀ j, (s.thr j).wait = none

/-- A versioned instruction that meets a lost list or a dark block: a UE_CONSUMED record with the cause, and VER_LOST at the granule. -/
def LostAt (s u : State) (p : VPlace) (o : Out) : Prop :=
  let z := u.logConsumed s.cur (regionBase p.rk + p.off) 0x15
  CanTrap z → Gives o fun t => Trapped z t 0x15 false p.va

/-- The low 32 bits of a register. -/
def verOf (s : State) (r : XReg) : Nat := (s.getX r).toNat % 2 ^ 32

/-- What a versioned instruction leaves of its thread and of the other threads. -/
def VerDone (s t : State) : Prop := Stepped s t (nextPc s 4) ∧ SameV s t ∧ SameM s t ∧ SameF s t ∧ ∀ j, j ≠ s.cur → t.thr j = s.thr j

/-- No region's floor and no granule's list changes; outside the island version block nothing of the regions does. -/
def SameVersions (s t : State) (p : VPlace) : Prop :=
  (∀ q : VPlace, (t.region q.rk).floor = (s.region q.rk).floor ∧ t.gran q = s.gran q ∧ t.verLost q = s.verLost q) ∧
    (p.rk ≠ islandRegion → t.regions = s.regions)

/-- A versioned load of the version in `e`: vd takes the 64 bytes of its slot, and `x` says what the x registers hold. -/
def LoadsVersion (s u : State) (p : VPlace) (o : Out) (vd : VReg) (e : Nat × Nat) (x : State → Prop) : Prop :=
  badIn u.bad (p.slotKey e.2) 64 = none →
  Gives o fun t => Stepped s t (nextPc s 4) ∧ SameM s t ∧ SameF s t ∧ (∀ j, j ≠ s.cur → t.thr j = s.thr j) ∧ x t ∧
    (∀ r, r ≠ vd → t.getV r = s.getV r) ∧ (∀ j, j < 64 → L (t.getV vd) 8 j = (u.mem.get (p.slotKey e.2 + j)).toNat) ∧
    (∀ k, t.mem.get k = u.mem.get k) ∧ SameVersions u t p

/-! ## Commands and messages -/

/-- Slot `i` is the lowest free command slot of the core. -/
def LowestFree (s : State) (i : Nat) : Prop :=
  i < 8 ∧ (s.core (s.cur / 8)).copies.find i = none ∧ ∀ k, k < i → ((s.core (s.cur / 8)).copies.find k).isSome = true

/-- A copy instruction of `n` bytes puts its command into the lowest free slot; no register and no byte changes but by the read of
the shape block. One of no bytes keeps no slot: its completion word, if any, is written at once as the engine writes it. -/
def Submits (s : State) (o : Out) (n fn : Nat) (xd xs xn xc : XReg) (ver : Nat) (val : Word) : Prop :=
  (xc ≠ 0 → (s.getX xc).toNat % 8 = 0) →
  let cmd (sh : Option Shape) : CopyCmd := {
    tid := s.cur, fn := fn, user := !s.me.status.priv, space := s.me.space, dst := s.getX xd, src := s.getX xs, len := s.getX xn
    shape := sh, hasWord := decide (xc ≠ 0), caddr := s.getX xc, cval := val, version := ver
    low := match sh with | some b => b.start | none => 0
    done := [], vwait := [], passed := 0 }
  let puts (u : State) (c : CopyCmd) : Prop := ∀ i, LowestFree u i →
    (c.low < c.total →
      Gives o fun t => Stepped u t (nextPc s n) ∧ Quiet u t ∧ (∀ j, j ≠ s.cur → t.thr j = u.thr j) ∧ (∀ k, t.mem.get k = u.mem.get k) ∧
        t = { u with threads := t.threads, cores := t.cores } ∧ (∀ k, k ≠ s.cur / 8 → t.core k = u.core k) ∧
        (t.core (s.cur / 8)).copies.find i = some c ∧ ∀ k, k ≠ i → (t.core (s.cur / 8)).copies.find k = (u.core (s.cur / 8)).copies.find k) ∧
    (c.total ≤ c.low →
      let kept (t : State) : Prop := ∀ k, (t.core (s.cur / 8)).copies.find k = (u.core (s.cur / 8)).copies.find k
      (xc = 0 → Gives o fun t => Stepped u t (nextPc s n) ∧ Quiet u t ∧ (∀ j, j ≠ s.cur → t.thr j = u.thr j) ∧
        (∀ k, t.mem.get k = u.mem.get k) ∧ kept t) ∧
      (xc ≠ 0 → ∀ w, ((u.setCopy (s.cur / 8) i c).retire n).engineWrite (c.who (s.cur / 8) i) (s.getX xc)
          ((List.range 8).map fun j => BitVec.ofNat 8 (val.toNat / 256 ^ j)) = .ok w →
        Gives o fun t => t.mem = w.mem ∧ t.threads = w.threads ∧ kept t))
  if fn = 1 ∨ fn = 2 ∨ fn = 4 then
    ∀ ad, (s.getX xn).toNat % 64 = 0 → s.check s.meWho ⟨.read, 1, false, false⟩ (s.getX xn) 64 = .ok ad → s.badSpan false ad.spans = none →
      let u := Reached s ad
      let f (a n : Nat) : Nat := numOf (u.bytesAt ad.spans) / 256 ^ a % 256 ^ n
      let w (a : Nat) : Word := BitVec.ofNat 64 (f a 8)
      puts u (cmd (some ⟨f 0 4, f 4 4, f 8 4, w 16, w 24, w 32, w 40, w 48, f 56 8, f 12 4⟩))
  else puts s (cmd none)

/-- Both forms of a copy instruction without a version. -/
def CopyForms (reg : XReg → XReg → XReg → XReg → XReg → Instr) (lit : XReg → XReg → XReg → XReg → Word → Instr) (fn : Nat) : Prop :=
  ∀ s xd xs xn xc xv l, Submits s (exec (reg xd xs xn xc xv) s) 12 fn xd xs xn xc 0 (s.getX xv) ∧
    Submits s (exec (lit xd xs xn xc l) s) 20 fn xd xs xn xc 0 l

/-- The launch record of the thread's gang pairs it with one of the partner box. -/
def Paired (s : State) : Prop := ∃ k, s.taskOf s.cur = some k ∧ k.launch.bridge = true

/-- A collective instruction joins its core's list with the next ordinal; over the bridge it needs a tenant that bridges and a pair. Of a
thread with another TIDX it traps ACCESS with TIDX. -/
def Joins (s : State) (o : Out) (fn : Nat) (op : CollOp) (fmt : CollFmt) (br : Bool) (xd xs xn xc xr : XReg) : Prop :=
  (∀ g, s.gangOf s.cur = some g → (s.bind s.cur).tidx ≠ 0 → CanTrap s → Traps s o 0x08 (BitVec.ofNat 64 (s.bind s.cur).tidx)) ∧
  ((s.gangOf s.cur = none ∨ (s.bind s.cur).tidx = 0) → (xc ≠ 0 → (s.getX xc).toNat % 8 = 0) → br = true → CanTrap s.drawFree.2 →
    (s.tenantBridges (s.tenantOf s.cur) = false → Gives o fun t => ∃ e, Trapped s.drawFree.2 t 0x08 false e) ∧
    (s.tenantBridges (s.tenantOf s.cur) = true → ¬ Paired s → Gives o fun t => ∃ e, Trapped s.drawFree.2 t 0x0A false e)) ∧
  ((s.gangOf s.cur = none ∨ (s.bind s.cur).tidx = 0) → (xc ≠ 0 → (s.getX xc).toNat % 8 = 0) →
    (br = true → s.tenantBridges (s.tenantOf s.cur) = true ∧ Paired s) →
  Gives o fun t => Stepped s t (nextPc s 12) ∧ Quiet s t ∧ (∀ j, j ≠ s.cur → t.thr j = s.thr j) ∧
    t = { s with threads := t.threads, cores := t.cores } ∧ (∀ k, k ≠ s.cur / 8 → t.core k = s.core k) ∧
    ∃ c : CollCmd, t.core (s.cur / 8) = { s.core (s.cur / 8) with
        colls := (s.core (s.cur / 8)).colls ++ [c], collCount := (s.core (s.cur / 8)).collCount + 1 } ∧
      c.tid = s.cur ∧ c.fn = fn ∧ c.op = op ∧ c.fmt = fmt ∧ c.br = br ∧ c.count = (s.getX xn).toNat % 2 ^ 32 ∧ c.len = s.getX xn ∧ c.dst = s.getX xd ∧
      c.src = s.getX xs ∧ c.hasWord = decide (xc ≠ 0) ∧ c.caddr = s.getX xc ∧ c.ord = (s.core (s.cur / 8)).collCount + 1 ∧
      c.root = (if xr = 0 then none else
        some ((s.getX xr).toNat % ((if br then 2 else 1) * max 1 (s.bind s.cur).gsize))))

/-- Entries in the inbox of a core. -/
def inboxHolds (s : State) (c : Nat) : Nat := ((s.core c).inboxTail.toNat + 2 ^ 16 - (s.core c).inboxHead.toNat) % 2 ^ 16

/-- The offset in LM of inbox entry `k` of a core. -/
def inboxAt (s : State) (c k : Nat) : Nat := (64 * (s.core c).inboxBase + 64 * (k % (s.core c).inboxSize)) % 2 ^ 18

end Sys2Proof.Claims

/-- With no queue entry against them, a valid descriptor and every piece admitted, TLOAD fills the rows of its tile from pieces a
stride apart (the dense stride where xs is 0), TLOADT puts element i of piece j at row i, column j, TLOADS fills the scale area
and TACCLD an accumulator; what no piece covers becomes zero; no register changes, and outside the area only what reading the
pieces changes. -/
def Obligations.TileLoads : Prop :=
  ∀ (s : State) (t : TReg) (acc : AReg) (xa : XReg) (xs : LReg),
    let c := s.cur / 8
    let d := s.tdesc c t
    let es := tBits (dFmt d) / 8
    let blocks := (scaleBlocks d).1 * (scaleBlocks d).2
    (NoEntry s (usesTile t) → descOk d = true →
      FillsArea s (exec (.tload t xa xs) s) (piecesOf s xa xs (dRows d) (rowBytes d)) (rowBytes d) (tileKey c t 0 0) 4096
        (fun x b => if b / 256 < dRows d then byteIn (x (b / 256)) (b % 256) else 0) ∧
      (transposable (dFmt d) = true →
        FillsArea s (exec (.tloadt t xa xs) s) (piecesOf s xa xs (dCols d) (dRows d * es)) (dRows d * es) (tileKey c t 0 0) 4096
          (fun x b => if b / 256 < dRows d ∧ b % 256 / es < dCols d then byteIn (x (b % 256 / es)) (es * (b / 256) + b % es) else 0)) ∧
      (scaled (dFmt d) = true →
        FillsArea s (exec (.tloads t xa xs) s) (piecesOf s xa xs (dRows d) blocks) blocks (scaleKey c t 0) 256
          (fun x b => if b / 16 < dRows d then byteIn (x (b / 16)) (b % 16) else 0))) ∧
    (NoEntry s (usesAcc acc) →
      FillsArea s (exec (.taccld acc xa xs) s) (piecesOf s xa xs 16 64) 64 (accKey c acc 0 0) 1024
        (fun x b => byteIn (x (b / 64)) (b % 64)))

/-- With no queue entry against them, a valid descriptor for TSTORE, every piece admitted and no uncorrectable word in the rows,
TSTORE stores the rows in use of its tile and TACCST the 16 rows of its accumulator to pieces a stride apart, in ascending order;
where all are memory, no register and no byte outside the pieces changes but those marked or write-combined before. -/
def Obligations.TileStores : Prop :=
  ∀ (s : State) (t : TReg) (acc : AReg) (xa : XReg) (xs : LReg),
    let c := s.cur / 8
    let d := s.tdesc c t
    (NoEntry s (usesTile t) → descOk d = true →
      StoresArea s (exec (.tstore t xa xs) s) (piecesOf s xa xs (dRows d) (rowBytes d)) (rowBytes d) fun i => tileKey c t i 0) ∧
    (NoEntry s (usesAcc acc) → StoresArea s (exec (.taccst acc xa xs) s) (piecesOf s xa xs 16 64) 64 fun i => accKey c acc i 0)

/-- TMMA, TACCOUT, TACCADD, TZERO, TACCZ, TXCH and TCVT, where their descriptors are valid and compatible (TXCH: the mirrored core is
bound to the thread's gang), enter the core's queue while it has fewer than 8 entries, with the FRM value and generator state of
that moment, TACCOUT and TCVT advancing the generator by the draws of R168; no other register changes. Where the descriptors are
not so, the instruction, like a tile load or store, traps ILLEGAL with EVAL 1; TXCH traps ACCESS with the address of the half-
tile. -/
def Obligations.MatrixQueue : Prop :=
  ∀ (s : State) (n n2 : AReg) (t ta tb : TReg) (cb : BitVec 5) (h : Bool) (xa : XReg) (xs : LReg),
    let d := s.tdesc (s.cur / 8) t
    (s.tmmaOk n ta tb = true → Enqueues s (exec (.tmma n ta tb) s) (.tmma n ta tb) 0) ∧
    (s.taccoutOk t n cb.toNat = true →
      Enqueues s (exec (.taccout t n ta tb cb) s) (.taccout t n ta tb cb.toNat) (s.taccoutDraws t n)) ∧
    (accIsInt s n = accIsInt s n2 → Enqueues s (exec (.taccadd n n2) s) (.taccadd n n2) 0) ∧
    Enqueues s (exec (.tzero t) s) (.tzero t) 0 ∧ Enqueues s (exec (.taccz n) s) (.taccz n) 0 ∧
    (s.mirrorBound = true → Enqueues s (exec (.txch t ta h) s) (.txch t ta h) 0) ∧
    (s.tcvtOk t ta = true → Enqueues s (exec (.tcvt t ta) s) (.tcvt t ta) (s.tcvtDraws t ta)) ∧
    (CanTrap s →
      (s.tmmaOk n ta tb = false → Traps s (exec (.tmma n ta tb) s) 0x01 1) ∧
      (s.taccoutOk t n cb.toNat = false → Traps s (exec (.taccout t n ta tb cb) s) 0x01 1) ∧
      (accIsInt s n ≠ accIsInt s n2 → Traps s (exec (.taccadd n n2) s) 0x01 1) ∧
      (s.tcvtOk t ta = false → Traps s (exec (.tcvt t ta) s) 0x01 1) ∧
      (descOk d = false → Traps s (exec (.tload t xa xs) s) 0x01 1 ∧ Traps s (exec (.tloadt t xa xs) s) 0x01 1 ∧
        Traps s (exec (.tloads t xa xs) s) 0x01 1 ∧ Traps s (exec (.tstore t xa xs) s) 0x01 1) ∧
      (s.mirrorBound = false → Traps s (exec (.txch t ta h) s) 0x08
        (low (0x7F0000000000 + partnerOf (s.cur / 8) * 2 ^ 24 + 0x100000 + 4096 * t.val + if h then 2048 else 0))))

/-- With no sleeper to decide, VERST of a version that is not below the floor and not live, where there is room, puts it into the
lowest free slot (which free slot the device takes is the model's choice, log entry 21), stores the 64 bytes of its register there
and leaves exactly the versions at or above the floor; below the floor it traps VER_STALE, of a live version VER_DUP; VERFLOOR writes
the old floor to rd and raises it, each granule whose list is not lost keeping its versions at or above it or else its greatest below;
VERDROP empties the region with floor 0. No other register changes. A lost list makes VERST and VERFLOOR trap VER_LOST, the dark island
block VERDROP too. -/
def Obligations.VersionStores : Prop :=
  ∀ (s u : State) (p : VPlace) (v : VReg) (d xa xv : XReg) (os : Os), s.versionAt s.meWho .write (s.getX xa) = .ok (u, p) →
    let z := Released u os
    let vs := (u.gran p).vers
    let n := verOf s xv
    let f := (u.region p.rk).floor
    let r := z.verRaise p n
    (NoRoomWait s → u.verLost p = true → LostAt s z p (exec (.verst v xa xv os) s) ∧ LostAt s z p (exec (.verfloor d xa xv os) s)) ∧
    (NoRoomWait s → u.islandDark p = true → LostAt s u p (exec (.verdrop xa os) s)) ∧
    (NoRoomWait s → CanTrap z → u.verLost p = false →
      (n < f → Gives (exec (.verst v xa xv os) s) fun t => Trapped z t 0x12 false p.va) ∧
      (f ≤ n → (∃ e ∈ vs, e.1 = n) → Gives (exec (.verst v xa xv os) s) fun t => Trapped z t 0x11 false p.va)) ∧
    (Calm s →
      (u.verLost p = false → f ≤ n → (∀ e ∈ vs, e.1 ≠ n) → z.verCreate p n (vecBytes (s.getV v)) ≠ .wait →
        Gives (exec (.verst v xa xv os) s) fun t => VerDone s t ∧ SameX s t ∧
          ∃ i, i < 8 ∧ (∀ e ∈ vs, e.2 ≠ i) ∧ (∀ k, k < i → ∃ e ∈ vs, e.2 = k) ∧
            (∀ e, e ∈ (t.gran p).vers ↔ (e ∈ vs ∨ e = (n, i)) ∧ f ≤ e.1) ∧ (t.region p.rk).floor = f ∧
            (∀ j, j < 64 → isLm (p.slotKey i + j) = false → (t.mem.get (p.slotKey i + j)).toNat = L (s.getV v) 8 j) ∧
            ∀ k, (k < p.slotKey i ∨ p.slotKey i + 64 ≤ k) → t.mem.get k = z.mem.get k) ∧
      (u.verLost p = false → r ≠ .wait →
        Gives (exec (.verfloor d xa xv os) s) fun t => VerDone s t ∧ OnlyX s t d (low f) ∧ (∀ k, t.mem.get k = z.mem.get k) ∧
          (t.region p.rk).floor = max f n ∧
          ∀ off e, u.verLost ⟨p.rk, off, p.va⟩ = false → (e ∈ (t.gran ⟨p.rk, off, p.va⟩).vers ↔ e ∈ (u.gran ⟨p.rk, off, p.va⟩).vers ∧ (n ≤ f ∨ n ≤ e.1 ∨
            ∀ x ∈ (u.gran ⟨p.rk, off, p.va⟩).vers, x.1 < n ∧ x.1 ≤ e.1))) ∧
      (u.islandDark p = false → Gives (exec (.verdrop xa os) s) fun t => VerDone s t ∧ SameX s t ∧ (∀ k, t.mem.get k = z.mem.get k) ∧
        (t.region p.rk).floor = 0 ∧ t.verLost p = false ∧ ∀ off, (t.gran ⟨p.rk, off, p.va⟩).vers = []))

/-- Of a list that is not lost and holds no version twice, VERLD loads the version that it names and VERLDLE the greatest at or below
it, writing its number to X(xv), from the 64 bytes of its slot where they are good; a VERLD of a version that is not live, and a VERLDLE
with none live at or below, sleeps from the floor on and traps VER_MISSING below it; VERPROBE writes the fields of Table 10-6 to rd and
changes nothing else; at a lost list all three trap VER_LOST. -/
def Obligations.VersionLoads : Prop :=
  ∀ (s u : State) (p : VPlace) (vd : VReg) (d xa xv : XReg) (os : Os), s.versionAt s.meWho .read (s.getX xa) = .ok (u, p) → NoRoomWait s →
    (u.verLost p = true → LostAt s u p (exec (.verld vd xa xv os) s) ∧ LostAt s u p (exec (.verldle vd xa xv os) s) ∧
      LostAt s u p (exec (.verprobe d xa xv) s)) ∧
    (u.verLost p = false →
    let vs := (u.gran p).vers
    let n := verOf s xv
    let f := (u.region p.rk).floor
    let absent (o : Out) : Prop :=
      (f ≤ n → s.me.wait = none → Gives o fun t => t.me.slot = .asleep ∧ t.me.pc = s.me.pc ∧
        t.me.status.waitKind = 1 ∧ t.me.status.waiting = true ∧ Quiet s t ∧ t.me.csr.instret = s.me.csr.instret ∧
        ∀ j, j ≠ s.cur → t.thr j = s.thr j) ∧
      (n < f → CanTrap u → Gives o fun t => Trapped u t 0x10 false p.va)
    ((vs.map Prod.fst).Nodup → ∀ e ∈ vs,
      (e.1 = n → LoadsVersion s u p (exec (.verld vd xa xv os) s) vd e (SameX s)) ∧
      (e.1 ≤ n → (∀ x ∈ vs, x.1 ≤ n → x.1 ≤ e.1) →
        LoadsVersion s u p (exec (.verldle vd xa xv os) s) vd e fun t => OnlyX s t xv (low e.1))) ∧
    ((∀ e ∈ vs, e.1 ≠ n) → absent (exec (.verld vd xa xv os) s)) ∧
    ((∀ e ∈ vs, n < e.1) → absent (exec (.verldle vd xa xv os) s)) ∧
    Gives (exec (.verprobe d xa xv) s) fun t => VerDone s t ∧ (∀ k, t.mem.get k = u.mem.get k) ∧ SameVersions u t p ∧
      OnlyX s t d (low (((vs.map Prod.fst).foldr max 0 : Nat) + (if ∃ e ∈ vs, e.1 = n then 2 ^ 32 else 0) + (if vs = [] then 0 else 2 ^ 33) +
        vs.length * 2 ^ 34 + if (∀ e ∈ vs, e.1 ≠ n) ∧ n < f then 2 ^ 38 else 0)))

/-- CPY1, CPY2, CPY3, CPYV, CPYQ and CPYX, with a register or a literal as completion value, with an aligned completion address, for
CPY2, CPY3 and CPYQ an aligned shape block that the checks admit, and a free command slot, put a command that has something to copy,
with its operands, shape and version, into the lowest free slot (R278 says only that a free one takes it: which one is the model's
choice, log entry 130) and retire; no register changes, and memory only as reading the shape block changes it. A command of no bytes
leaves the slots as they are; its completion word, where it has one that may be written, is written. -/
def Obligations.Copies : Prop :=
  CopyForms .cpy1 .cpy1Lit 0 ∧ CopyForms .cpy2 .cpy2Lit 1 ∧ CopyForms .cpy3 .cpy3Lit 2 ∧ CopyForms .cpyq .cpyqLit 4 ∧
  CopyForms .cpyx .cpyxLit 5 ∧
  ∀ (s : State) (xd xs xn xver xc xv : XReg) (l : Word),
    Submits s (exec (.cpyv xd xs xn xver xc xv) s) 12 3 xd xs xn xc (verOf s xver) (s.getX xv) ∧
    Submits s (exec (.cpyvLit xd xs xn xver xc l) s) 20 3 xd xs xn xc (verOf s xver) l

/-- A collective of a thread 0 with an aligned completion address, over the bridge one of a gang that is paired and whose tenant bridges,
joins its core's list with the next ordinal and its operands; from another TIDX it traps ACCESS with TIDX, over the bridge without the
bridge ACCESS and without a pair WINDOW_KEY, their EVAL open (log entry 119). MSEND to a core of this box that takes it appends 64
bytes to its inbox and writes the free entries left, or all ones where it is full; to the partner box it traps ACCESS with X(xt) where
no port is up, the number is no core or the tenant does not bridge, WINDOW_KEY where its gang has no pair (EVAL X(xt): log entry 119),
and else ends in one of the three ways that R450 gives, which of them the partner box decides (a free value, log entry 36). MRECV takes
the entry at HEAD and writes the count left, or all ones where the inbox is empty; MPOLL writes the count. No other register changes,
and of memory only the entry written. -/
def Obligations.CollectivesMessages : Prop :=
  ∀ (s : State) (op : CollOp) (fmt : CollFmt) (br : Bool) (xd xs xn xc xr d xt : XReg) (v : VReg),
    let c := (s.getX xt).toNat
    let m := s.cur / 8
    Joins s (exec (.collred op fmt br xd xs xn xc xr) s) 0 op fmt br xd xs xn xc xr ∧
    Joins s (exec (.collgath fmt br xd xs xn xc xr) s) 1 .sum fmt br xd xs xn xc xr ∧
    Joins s (exec (.collbcast fmt br xd xs xn xc xr) s) 2 .sum fmt br xd xs xn xc xr ∧
    (c < 2 ^ 12 → isCore c = true → (s.core c).inboxSize ≠ 0 → s.coreOff c = false →
      s.keyRefused s.meWho ⟨.write, 1, false, false⟩ c = false →
      Gives (exec (.msend d v xt) s) fun t => Stepped s t (nextPc s 4) ∧ SameV s t ∧ SameM s t ∧ SameF s t ∧
        (∀ j, j ≠ s.cur → t.thr j = s.thr j) ∧
        ((s.core c).inboxSize ≤ inboxHolds s c → OnlyX s t d (low (-1)) ∧ (∀ k, t.mem.get k = s.mem.get k) ∧
          (t.core c).inboxTail = (s.core c).inboxTail) ∧
        (∀ o, inboxHolds s c < (s.core c).inboxSize → o = inboxAt s c (s.core c).inboxTail.toNat →
          OnlyX s t d (low ((s.core c).inboxSize - inboxHolds s c - 1)) ∧ (t.core c).inboxTail = (s.core c).inboxTail + 1 ∧
          (∀ j, j < 64 → (t.mem.get (winKey c (o + j))).toNat = if 0x7C8 ≤ o + j ∧ o + j < 0x800 then 0 else L (s.getV v) 8 j) ∧
          ∀ k, (k < winKey c o ∨ winKey c o + 64 ≤ k) → t.mem.get k = s.mem.get k)) ∧
    (2 ^ 12 ≤ c → c < 2 ^ 13 →
      let far := isCore (c % 4096) = true ∧ s.bridgeUp = true ∧ s.upPort.isSome = true
      let bridges := s.tenantBridges (s.tenantOf s.cur) = true
      let z := s.drawFree.2.drawFree.2
      (CanTrap s → (¬ far → Traps s (exec (.msend d v xt) s) 0x08 (s.getX xt)) ∧
        (far → ¬ bridges → Traps s (exec (.msend d v xt) s) 0x08 (s.getX xt)) ∧
        (far → bridges → ¬ Paired s → Traps s (exec (.msend d v xt) s) 0x0A (s.getX xt))) ∧
      (CanTrap z → far → bridges → Paired s → Gives (exec (.msend d v xt) s) fun t =>
        Trapped z t 0x08 false (s.getX xt) ∨ Trapped z t 0x0A false (s.getX xt) ∨
          (Stepped s t (nextPc s 4) ∧ SameV s t ∧ SameM s t ∧ SameF s t ∧ (∃ w, OnlyX s t d w) ∧ (∀ k, t.mem.get k = s.mem.get k) ∧
            ∀ j, j ≠ s.cur → t.thr j = s.thr j))) ∧
    (((s.core m).inboxSize = 0 ∨ inboxHolds s m = 0 → WritesX s (exec (.mrecv d v) s) 4 d (low (-1))) ∧
      ((s.core m).inboxSize ≠ 0 → inboxHolds s m ≠ 0 →
        let o := inboxAt s m (s.core m).inboxHead.toNat
        badIn s.bad (winKey m o) 64 = none →
        Gives (exec (.mrecv d v) s) fun t => Stepped s t (nextPc s 4) ∧ OnlyX s t d (low (inboxHolds s m - 1)) ∧ SameM s t ∧ SameF s t ∧
          (∀ j, j ≠ s.cur → t.thr j = s.thr j) ∧ (∀ r, r ≠ v → t.getV r = s.getV r) ∧
          (∀ j, j < 64 → L (t.getV v) 8 j = (s.mem.get (winKey m (o + j))).toNat) ∧ (∀ k, t.mem.get k = s.mem.get k) ∧
          (t.core m).inboxHead = (s.core m).inboxHead + 1 ∧ (t.core m).inboxTail = (s.core m).inboxTail) ∧
      WritesX s (exec (.mpoll d) s) 4 d (low (inboxHolds s m)))

namespace Sys2Proof.Claims

/-! ## Waits -/

/-- The thread falls asleep in its instruction, with WAITKIND `kind` and WAITING set; the instruction has not retired, and every other
register and every other thread stand. -/
def Sleeps (s t : State) (kind : BitVec 3) : Prop :=
  t.me.slot = .asleep ∧ t.me.pc = s.me.pc ∧ t.me.status.waiting = true ∧ t.me.status.waitKind = kind ∧
    t.me.csr = s.me.csr ∧ t.me.trap = s.me.trap ∧ t.me.status.priv = s.me.status.priv ∧ Quiet s t ∧ ∀ j, j ≠ s.cur → t.thr j = s.thr j

/-- Thread `j` retires an instruction of 4 bytes, awake again. -/
def Retires (s t : State) (j : Nat) : Prop :=
  (t.thr j).pc = (s.thr j).pc + 4 ∧ (t.thr j).slot = .active ∧ (t.thr j).wait = none ∧ (t.thr j).csr.instret = (s.thr j).csr.instret + 1 ∧
    (t.thr j).status.waiting = false

/-- Offers of the thread's gang under a key. -/
def offersAt (s : State) (key : BitVec 16) : List Offer := s.offers.filter fun o => o.gid == s.offerGang s.cur && o.key == key

/-- Key in bits [15:0] of a register. -/
def keyOf16 (s : State) (r : XReg) : BitVec 16 := BitVec.ofNat 16 (s.getX r).toNat

/-- The thread, its core's matrix queue empty, posts an offer of `kind` for `k` parties that completes nothing: its write-combined data
leaves and it sleeps with WAITKIND 4. -/
def Posts (s : State) (o : Out) (kind k : Nat) (key : BitVec 16) (payload : Vec) (dest : Nat) : Prop :=
  QueueEmpty s → (∀ p ∈ s.offers, p.tid ≠ s.cur) → (∀ p ∈ offersAt s key, p.kind = kind ∧ p.k = k) →
  (offersAt s key).length + 1 < k →
  Gives o fun t => Sleeps s t 4 ∧ t.offers = s.offers ++ [⟨s.cur, s.offerGang s.cur, key, kind, k, payload, dest⟩] ∧
    t = { s.flushWc s.cur with threads := t.threads, offers := t.offers }

/-- The thread's offer meets the one other of its kind: both retire, `r` says what the two receive; the offer met is withdrawn. -/
def Meets (s : State) (o : Out) (kind : Nat) (key : BitVec 16) (r : Offer → State → Prop) : Prop :=
  ∀ q, QueueEmpty s → (∀ p ∈ s.offers, p.tid ≠ s.cur) → offersAt s key = [q] → q.kind = kind → q.k = 2 → q.tid ≠ s.cur →
    Gives o fun t => Retires s t s.cur ∧ Retires s t q.tid ∧ r q t ∧ (∀ j, j ≠ s.cur → j ≠ q.tid → t.thr j = s.thr j) ∧
      t.offers = s.offers.filter (fun p => p.tid != q.tid) ∧ (∀ w ∈ t.bad, w ∈ s.bad) ∧
      t = { s.flushWc s.cur with threads := t.threads, offers := t.offers, bad := t.bad }

/-! ## Barriers -/

/-- Barrier `h` that the thread names: its gang, the gang's task, the barrier itself; the handle is declared, and no binding of a
thread is listed twice. -/
structure Names (s : State) (h g : Nat) (k : Task) (b : Barrier) : Prop where
  gang : s.gangOf s.cur = some g
  task : s.tasks.find g = some k
  bar : b = s.barrier g (s.cur / 8) h
  declared : h = 0 ∨ 8 ≤ h ∨ b.n ≠ 0
  size : h < 8 → h < k.bars.length
  top : h < 12
  once : (s.binds.map Prod.fst).Nodup

/-- N of the barrier: the team's size for handles 8 to 11. -/
def barN (s : State) (h : Nat) (b : Barrier) : Nat := if 8 ≤ h then (s.bind s.cur).team else b.n

/-- The thread may arrive, the matrix queue is empty, and its arrival is not the last. -/
def NotLast (s : State) (h : Nat) (b : Barrier) : Prop := QueueEmpty s ∧ s.me.sense.getLsbD h = b.g ∧ b.c + 1 < barN s h b

/-- The thread may arrive, the matrix queue is empty, its arrival is the last, and no capture records the superstep, no debug stop is asked for. -/
def Last (s : State) (h : Nat) (k : Task) (b : Barrier) : Prop :=
  QueueEmpty s ∧ s.me.sense.getLsbD h = b.g ∧ barN s h b ≤ b.c + 1 ∧ k.capture = none ∧ k.debugReq = false ∧ s.me.slot = .active

/-- The arrival is counted, SENSE[h] flips; `w` tells whether the watchdog of a first arrival is running. -/
def Counted (s t : State) (h g : Nat) (b : Barrier) : Prop :=
  (t.barrier g (s.cur / 8) h).c = b.c + 1 ∧ (t.barrier g (s.cur / 8) h).g = b.g ∧ (t.barrier g (s.cur / 8) h).n = b.n ∧
    t.me.sense = s.me.sense ^^^ BitVec.ofNat 12 (2 ^ h)

/-- The barrier fires: its count is 0, its generation flips, every waiter retires with APB clear, no other thread changes; SSTEP
counts a firing of handle 0. -/
def Fires (s t : State) (h g : Nat) (k : Task) (b : Barrier) : Prop :=
  t.barrier g (s.cur / 8) h = { b with c := 0, g := !b.g, since := none } ∧ t.me.sense = s.me.sense ^^^ BitVec.ofNat 12 (2 ^ h) ∧
    (∀ j, j ≠ s.cur → (j ∈ s.waitersAt g (s.cur / 8) h → Retires s t j ∧ (t.thr j).status.apb = false) ∧
      (j ∉ s.waitersAt g (s.cur / 8) h → t.thr j = s.thr j)) ∧
    ∃ k', t.tasks.find g = some k' ∧ k'.sstep = k.sstep + (if h = 0 then 1 else 0) ∧ k'.state = k.state ∧ k'.cores = k.cores

/-! ## The stack link -/

/-- The link of the thread's core may be used: the thread and its partner core are of one gang, the link is up. -/
def LinkOpen (s : State) : Prop :=
  (∃ g, s.gangOf s.cur = some g ∧ s.gangAt (partnerOf (s.cur / 8)) = some g) ∧ (s.core (s.cur / 8)).link.down = false

/-- Only the links of the thread's core and of its partner change, to these; register words written have good check bits again. -/
def OnlyLinks (s t : State) (mine its : Link) : Prop :=
  t = { s with threads := t.threads, cores := t.cores, bad := t.bad } ∧ (∀ w ∈ t.bad, w ∈ s.bad) ∧ (∀ j, j ≠ s.cur → t.thr j = s.thr j) ∧
    t.core (s.cur / 8) = { s.core (s.cur / 8) with link := mine } ∧
    t.core (partnerOf (s.cur / 8)) = { s.core (partnerOf (s.cur / 8)) with link := its } ∧
    ∀ c, c ≠ s.cur / 8 → c ≠ partnerOf (s.cur / 8) → t.core c = s.core c

/-! ## STRIKE -/

/-- The score in the low 32 bits reaches the threshold: as signed integers, or as binary32 numbers with FMT 1, no NaN. -/
def Hits (s : State) (a : XReg) : Prop :=
  let score := (s.getX a).toNat % 2 ^ 32
  if s.me.csr.threshFmt then
    let x := Fmt.f32.decode score
    let y := Fmt.f32.decode s.me.csr.thresh.toNat
    x ≠ .nan ∧ y ≠ .nan ∧ ¬NumLt x y
  else s.me.csr.thresh.toInt ≤ Sg 32 score

end Sys2Proof.Claims

/-- PAUSE retires with its interval; WAITA of an admitted aligned word retires with the value where the word equals it, and otherwise
sleeps with WAITKIND 2; with the matrix queue empty, a Clave offer that completes no match sleeps with WAITKIND 4; a CLAVE or CLAVEV offer that meets one of
its kind, gang and key gives each of the two the other's payload, and both retire; a CLAVEG that completes its group writes lane i
with the payload of the i-th party by rank to the thread, with zeros above. -/
def Obligations.PauseWaitClave : Prop :=
  ∀ (s : State) (n : BitVec 16) (d a b : XReg) (v w : VReg),
    let pay := BitVec.ofNat 512 (s.getX a).toNat
    (Gives (exec (.pause n) s) fun t => Retired s t (nextPc s 4) ∧ Quiet s t ∧ t.me.pause = n.toNat) ∧
    (∀ ad, s.check s.meWho ⟨.read, 8, true, false⟩ (s.getX b) 8 = .ok ad → s.badSpan false ad.spans = none →
      let u := Reached s ad
      (numOf (u.bytesAt ad.spans) % 2 ^ 64 = (s.getX a).toNat → WritesX u (exec (.waita d a b) s) 4 d (s.getX a)) ∧
      (numOf (u.bytesAt ad.spans) % 2 ^ 64 ≠ (s.getX a).toNat → s.me.wait = none → Gives (exec (.waita d a b) s) fun t => Sleeps u t 2)) ∧
    Posts s (exec (.clave d a b) s) 0 2 (keyOf16 s b) pay d ∧ Posts s (exec (.clavev v w b) s) 1 2 (keyOf16 s b) (s.getV w) v ∧
    Posts s (exec (.claveg v a b) s) 2 ((s.getX b).toNat / 2 ^ 16 % 8 + 1) (keyOf16 s b) pay v ∧
    Meets s (exec (.clave d a b) s) 0 (keyOf16 s b) (fun q t => OnlyX s t d (BitVec.ofNat 64 q.payload.toNat) ∧ SameV s t ∧ SameM s t ∧
      (t.thr q.tid).x = (if q.dest % 32 = 0 then (s.thr q.tid).x else vset (s.thr q.tid).x q.dest (s.getX a))) ∧
    Meets s (exec (.clavev v w b) s) 1 (keyOf16 s b) (fun q t => OnlyV s t v q.payload ∧ SameX s t ∧ SameM s t ∧
      (t.thr q.tid).v = vset (s.thr q.tid).v q.dest (s.getV w)) ∧
    (let group := offersAt s (keyOf16 s b) ++ [⟨s.cur, s.offerGang s.cur, keyOf16 s b, 2, (offersAt s (keyOf16 s b)).length + 1, pay, v⟩];
      QueueEmpty s → (∀ p ∈ s.offers, p.tid ≠ s.cur) → (∀ p ∈ offersAt s (keyOf16 s b), p.kind = 2 ∧ p.k = group.length) →
      (s.getX b).toNat / 2 ^ 16 % 8 + 1 = group.length → (group.map (·.tid)).Nodup → (group.map fun p => s.partyRank p).Nodup →
      Gives (exec (.claveg v a b) s) fun t => (∀ p ∈ group, Retires s t p.tid) ∧ SameX s t ∧ SameM s t ∧ (∀ r, r ≠ v → t.getV r = s.getV r) ∧
        (∀ p ∈ group, L (t.getV v) 64 ((group.filter fun q => s.partyRank q < s.partyRank p).length) = p.payload.toNat % 2 ^ 64) ∧
        ∀ i, group.length ≤ i → L (t.getV v) 64 i = 0)

/-- On a declared barrier of its gang, with SENSE equal to G, no queue entries and, for BARW.SS, no commands and no pushed entry in transit, an arrival that is not
the last counts and flips SENSE, BARA retiring and BARW and BARW.SS sleeping with APB set and WAITKIND 3; the last one fires the
barrier: the count is 0, G flips, every waiter retires with APB clear, SSTEP counts for handle 0, and the thread retires. With
SENSE unlike G the arrival traps BAR_GEN with the handle; write-combined data leaves before the arrival; BARQ writes CLEAR and the count and changes nothing. -/
def Obligations.Barriers : Prop :=
  ∀ (s : State) (h : Handle) (d : XReg) (g : Nat) (k : Task) (b : Barrier), Names s h.val g k b →
    let ss := h.val = 0 ∧ NoCommands s ∧ (s.core (partnerOf (s.cur / 8))).link.transit = []
    let z := s.flushWc s.cur
    let waits (t : State) : Prop := Sleeps s t 3 ∧ Counted s t h.val g b ∧ t.me.status.apb = true ∧ t.me.apbHandle.toNat = h.val
    let fires (t : State) : Prop := Stepped s t (nextPc s 4) ∧ Quiet s t ∧ Fires s t h.val g k b
    (NotLast s h.val b → Gives (exec (.bara h) s) fun t => Stepped s t (nextPc s 4) ∧ Quiet s t ∧ Counted s t h.val g b ∧
      ∀ j, j ≠ s.cur → t.thr j = s.thr j) ∧
    (NotLast s h.val b → s.me.status.apb = false → s.me.slot = .active → s.me.wait = none →
      Gives (exec (.barw h) s) waits ∧ (ss → Gives (exec .barwSs s) waits)) ∧
    (QueueEmpty s → NotLast s h.val b → Gives (exec (.bara h) s) fun t => ∀ k, t.mem.get k = z.mem.get k) ∧
    (Last s h.val k b → Gives (exec (.bara h) s) fires) ∧
    (Last s h.val k b → s.me.status.apb = false → Gives (exec (.barw h) s) fires ∧ (ss → Gives (exec .barwSs s) fires)) ∧
    (QueueEmpty s → s.me.sense.getLsbD h.val ≠ b.g → CanTrap s → Traps z (exec (.bara h) s) 0x18 (BitVec.ofNat 64 h.val) ∧
      (s.me.status.apb = false → Traps z (exec (.barw h) s) 0x18 (BitVec.ofNat 64 h.val))) ∧
    WritesX s (exec (.barq d h) s) 4 d (low ((if b.g = s.me.sense.getLsbD h.val then 1 else 0) + 2 * (b.c % 2 ^ 15 : Nat)))

/-- On an open link SLPUSH with a credit sends its vector towards the partner's pop side and spends the credit, SLPOP takes the head
of the FIFO and starts a credit back, each counting it and retiring; without credit or entry they sleep with WAITKIND 6 and 5;
SLFREE writes the credits, SLPEEK the number of entries and the head without removing it; with the link DOWN all four trap SL_DOWN
with bit 63 and the partner. -/
def Obligations.StackLink : Prop :=
  ∀ (s : State) (v : VReg) (d : XReg),
    let c := s.cur / 8
    let p := partnerOf c
    let mine := (s.core c).link
    let its := (s.core p).link
    (LinkOpen s →
      (mine.credits ≠ 0 → Gives (exec (.slpush v) s) fun t => Stepped s t (nextPc s 4) ∧ Quiet s t ∧
        OnlyLinks s t { mine with credits := mine.credits - 1, pushed := mine.pushed + 1 } { its with transit := its.transit ++ [s.getV v] }) ∧
      (mine.credits = 0 → s.me.wait = none → Gives (exec (.slpush v) s) fun t => Sleeps s t 6 ∧ t = { s with threads := t.threads }) ∧
      (∀ w r, mine.fifo = w :: r → Gives (exec (.slpop v) s) fun t => Stepped s t (nextPc s 4) ∧ SameX s t ∧ OnlyV s t v w ∧ SameM s t ∧
        SameF s t ∧ OnlyLinks s t { mine with fifo := r, popped := mine.popped + 1 } { its with creditTransit := its.creditTransit + 1 }) ∧
      (mine.fifo = [] → s.me.wait = none → Gives (exec (.slpop v) s) fun t => Sleeps s t 5 ∧ t = { s with threads := t.threads }) ∧
      WritesX s (exec (.slfree d) s) 4 d (low mine.credits) ∧
      (mine.fifo = [] → WritesX s (exec (.slpeek d v) s) 4 d 0) ∧
      (∀ w r, mine.fifo = w :: r → Gives (exec (.slpeek d v) s) fun t => Retired s t (nextPc s 4) ∧ OnlyX s t d (low mine.fifo.length) ∧
        OnlyV s t v w ∧ SameM s t ∧ SameF s t)) ∧
    ((∃ g, s.gangOf s.cur = some g ∧ s.gangAt p = some g) → mine.down = true → CanTrap s →
      let e := BitVec.ofNat 64 (2 ^ 63 + p)
      Traps s (exec (.slpush v) s) 0x1B e ∧ Traps s (exec (.slpop v) s) 0x1B e ∧ Traps s (exec (.slfree d) s) 0x1B e ∧
        Traps s (exec (.slpeek d v) s) 0x1B e)

/-- A STRIKE whose score does not reach the threshold writes 0 and does nothing else; a hit, with no command or queue entry
outstanding, writes 5 where the tenant's 16 places are full, else posts a record under the next sequence number and writes it with
code 1, or with code 3 where a wake starts; MIGR, with every check passed and nothing outstanding, fires handle 0, hands the task
to the Ladle with the record's fields and the island and width named, and frees the thread's slot; from its final wait it goes on
with what it has read, whatever the record holds then. -/
def Obligations.StrikeMigrate : Prop :=
  (∀ (s : State) (d a : XReg),
    let k := s.striker.get Striker.init (s.tenantOf s.cur)
    let mask := if s.me.csr.wakeMask = 0 then 15 else s.me.csr.wakeMask.toNat
    let z := s.flushWc s.cur
    (¬Hits s a → WritesX s (exec (.strike d a) s) 4 d 0) ∧
    (Hits s a → NoCommands s → QueueEmpty s →
      (16 ≤ k.places.length → WritesX z (exec (.strike d a) s) 4 d 5) ∧
      (k.places.length < 16 → s.needsWake mask = false → Gives (exec (.strike d a) s) fun t =>
        Stepped s t (nextPc s 4) ∧ OnlyX s t d (low (k.next * 2 ^ 32 + 1)) ∧ SameV s t ∧ SameM s t ∧ SameF s t ∧
        (∀ j, j ≠ s.cur → t.thr j = s.thr j) ∧ t = { z with threads := t.threads, striker := t.striker } ∧
        ∃ r : StrikeRec, t.striker.get Striker.init (s.tenantOf s.cur) = ⟨k.places ++ [r], if (k.next + 1) % 2 ^ 32 = 0 then 1 else (k.next + 1) % 2 ^ 32⟩ ∧
          r.seq = k.next ∧ r.core = s.cur / 8 ∧ r.score.toNat = (s.getX a).toNat % 2 ^ 32 ∧ r.fmt = s.me.csr.threshFmt ∧
          r.cls = s.me.csr.wakeClass.toNat ∧ r.mask = mask ∧ r.time = s.time) ∧
      (k.places.length < 16 → s.needsWake mask = true →
        Gives (exec (.strike d a) s) fun t => t.getX d = (if d = 0 then 0 else low (k.next * 2 ^ 32 + 3)) ∧ t.me.pc = nextPc s 4))) ∧
  ∀ (s u : State) (xc : XReg) (isl : Bool) (w1 : BitVec 12) (g : Nat) (k : Task) (r : List Byte) (kv : List (Word × Word × Nat × Nat)),
    s.gangOf s.cur = some g → s.tasks.find g = some k → k.capture = none →
    (∀ m, s.me.inMigr = some m → NoCommands s → QueueEmpty s → Gives (exec (.migr xc isl w1) s) fun t => t.me.slot = .unbound ∧
      t.me.pc = nextPc s 12 ∧ ∃ k', t.tasks.find g = some k' ∧ k'.state = .migrating ∧ k'.sstep = k.sstep + 1 ∧ k'.migr = some m) ∧
    (s.me.inMigr = none → (s.getX xc).toNat % 64 = 0 → s.readContext (s.getX xc) = .ok (u, r, kv) →
    u.contextWaits k r kv = none → u.contextBad k (w1.toNat + 1) r = [] → u.listBad kv (recWord r 0x38) = [] → w1.toNat + 1 ≤ u.usable isl → (k.bar 0).n = 1 →
    u.linkBusy k = none → NoCommands u → QueueEmpty u →
    Gives (exec (.migr xc isl w1) s) fun t => t.me.slot = .unbound ∧ t.binds.find s.cur = none ∧ t.me.pc = nextPc s 12 ∧
      t.me.csr.instret = s.me.csr.instret + 1 ∧
      ∃ k' m, t.tasks.find g = some k' ∧ k'.state = .migrating ∧ k'.sstep = k.sstep + 1 ∧ k'.migr = some m ∧ m.record = s.getX xc ∧
        m.tabor = isl ∧ m.width = w1.toNat + 1 ∧ m.team = recNum r 2 1 ∧ m.entry = recWord r 8 ∧ m.image = recWord r 0x10 ∧
        m.statusw = recWord r 0x30 ∧ m.control = s.cur)

namespace Sys2Proof.Claims

/-! ## Events -/

/-- The machine with another thread's turn. -/
def onTurn (s : State) (tid : Nat) : State := { s with cur := tid }

/-- Thread `tid` sleeps for this reason, with this record of its wait. -/
def SleepsOn (s : State) (tid : Nat) (w : WaitRec) (why : WaitWhy) : Prop :=
  (s.thr tid).slot = .asleep ∧ (s.thr tid).wait = some w ∧ w.why = why

/-- Thread `tid` traps, where its handler may be entered. -/
def TrapsAt (s : State) (o : Out) (tid code : Nat) (eval : Word) : Prop :=
  CanTrap (onTurn s tid) → Gives o fun t => Trapped (onTurn s tid) (onTurn t tid) code false eval

/-- The thread keeps its registers and its place. -/
def Keeps (s t : State) (tid : Nat) : Prop :=
  (t.thr tid).x = (s.thr tid).x ∧ (t.thr tid).v = (s.thr tid).v ∧ (t.thr tid).m = (s.thr tid).m ∧ (t.thr tid).pc = (s.thr tid).pc

/-- No byte of memory changes. -/
def SameBytes (s t : State) : Prop := ∀ k, t.mem.get k = s.mem.get k

end Sys2Proof.Claims

/-- A due deferred trap is taken with DEFERRED 1; a WAITA sleeper whose word matches retires with the value; a WAITA, versioned
access, barrier, Clave offer or link wait that has slept for its limit traps WAIT_TIMEOUT, VER_WAIT, VER_FULL, BAR_STALL,
CLAVE_TIMEOUT or SL_DOWN with the values of its table; a PAUSE interval ends with the thread's registers as they were and no byte
changed that no thread held write-combined; a held atomic released wakes, one held for the limit ends replay; a thread asked to
stop stops with its record PARKED at its PC, but for one whose STRIKE has hit and waits, which goes on. -/
def Obligations.ThreadEvents : Prop :=
  ∀ (s : State) (tid : Nat) (w : WaitRec),
    let late (n : Nat) : Prop := n ≤ s.time - w.since
    (∀ d r, (s.thr tid).deferred = d :: r → d.isData = true → (s.thr tid).live = true → (s.thr tid).stopReq = false →
      (s.thr tid).halting = none →
      let u := onTurn (s.modThr tid fun t => { t with deferred := r }) tid
      CanTrap u → Gives (exec (.evDeferredTrapTake tid) s) fun t => Trapped u (onTurn t tid) d.code.toNat true d.eval) ∧
    (SleepsOn s tid w .waita → badIn s.bad w.key 8 = none → s.mem.num w.key 8 = w.value.toNat →
      Gives (exec (.evWaitaMonitorMatch tid) s) fun t => Retires s t tid ∧ SameBytes s t ∧ (∀ j, j ≠ tid → t.thr j = s.thr j) ∧
        (t.thr tid).x = if w.dest % 32 = 0 then (s.thr tid).x else vset (s.thr tid).x w.dest w.value) ∧
    (SleepsOn s tid w .waita → late (s.waitLimit tid) → TrapsAt s (exec (.evWaitTimeout tid) s) tid 0x1C w.addr) ∧
    (SleepsOn s tid w .verLoad → late (s.thr tid).csr.vwaitlim.toNat → TrapsAt s (exec (.evVerWait tid) s) tid 0x13 w.addr) ∧
    (SleepsOn s tid w .verStore → late (s.thr tid).csr.vwaitlim.toNat → TrapsAt s (exec (.evVerFull tid) s) tid 0x14 w.addr) ∧
    (∀ o, s.offers.find? (fun o => o.tid == tid) = some o → SleepsOn s tid w .clave → late (s.waitLimit tid) →
      TrapsAt s (exec (.evClaveTimeout tid) s) tid 0x1A (BitVec.ofNat 64 o.key.toNat)) ∧
    (SleepsOn s tid w .slPop ∨ SleepsOn s tid w .slPush → late (s.waitLimit tid) →
      TrapsAt s (exec (.evSlDown tid) s) tid 0x1B (BitVec.ofNat 64 (partnerOf (tid / 8)))) ∧
    (∀ g f, s.gangOf tid = some g → SleepsOn s tid w .barrier →
      let h := (s.thr tid).apbHandle.toNat
      let b := s.barrier g (tid / 8) h
      let u := onTurn (s.setBarrier g (tid / 8) h { b with since := none }) tid
      b.since = some f → s.waitLimit tid ≤ s.time - f → s.waitersAt g (tid / 8) h = [tid] → CanTrap u →
      Gives (exec (.evBarStall tid) s) fun t => Trapped u (onTurn t tid) 0x19 false (BitVec.ofNat 64 h)) ∧
    ((s.thr tid).pause ≠ 0 → Gives (exec (.evPauseIntervalEnd tid) s) fun t =>
      (t.thr tid).pause = 0 ∧ Keeps s t tid ∧ s.time ≤ t.time ∧ ∀ k, (∀ e ∈ s.wc, e.2.1 ≠ k) → t.mem.get k = s.mem.get k) ∧
    (SleepsOn s tid w .replay → s.stillHeld tid = false → Gives (exec (.evRudimentHeldRelease tid) s) fun t =>
      (t.thr tid).slot = .active ∧ Keeps s t tid ∧ SameBytes s t ∧ ∀ j, j ≠ tid → t.thr j = s.thr j) ∧
    (∀ c k, SleepsOn s tid w .replay → late (s.waitLimit tid) → s.captureOf tid = some c → s.captures.find c = some k →
      Gives (exec (.evReplayWaitExpiry tid) s) fun t => ∃ k', t.captures.find c = some k' ∧ k'.replayOff = true) ∧
    ((s.thr tid).striking = true → exec (.evThreadStop tid) s = .next s) ∧
    ((s.thr tid).stopReq = true → (s.thr tid).striking = false → Gives (exec (.evThreadStop tid) s) fun t => (t.thr tid).slot = .stopped ∧ (t.thr tid).wait = none ∧
      (t.thr tid).stopReq = false ∧ Keeps s t tid ∧ (t.bind tid).st = 1 ∧ (t.bind tid)[2].toNat = (s.thr tid).pc.toNat % 2 ^ 47 ∧
      t.offers = s.offers.filter fun o => o.tid != tid)

/-- Service firmware sets V of a stage-1 entry that an access waits on, the access runs again once it is set, and takes its page cause
after the limit of a FILE fault; an entry or a credit of the stack link arrives in order, or wakes the pop that sleeps for it; the
copy engine performs a granule of a command that no other one of its cluster has waited longer than, the command going on or leaving
its slot, and none of one whose turn it is not (the round-robin order that R278 asks for, as log entry 108 reads it); a CPYV granule that has waited for VWAITLIM is handed
back; a collective whose participants agree writes its results and leaves every core. -/
def Obligations.PageEvents : Prop :=
  ∀ (s u : State) (c i off : Nat),
    (∀ p : PageWait, s.pageWaits[i]? = some p →
      (p.firmware = true → Gives (exec (.evFirmwarePageValidate i) s) fun t => t.mem.get p.entry = s.mem.get p.entry ||| 1 ∧
        (∀ k, k ≠ p.entry → t.mem.get k = s.mem.get k) ∧ t = { s with mem := t.mem }) ∧
      (p.firmware = true → (s.mem.get p.entry).getLsbD 0 = true → p.engine = none → (s.thr p.tid).slot = .asleep →
        Gives (exec (.evServicedFaultRestart i) s) fun t => (t.thr p.tid).slot = .active ∧ (t.thr p.tid).wait = none ∧ Keeps s t p.tid ∧
          SameBytes s t ∧ t.pageWaits = s.pageWaits.filter (· != p)) ∧
      (p.firmware = false → p.engine = none → s.waitLimit p.tid ≤ s.time - p.since →
        TrapsAt s (exec (.evFileFaultWaitLimit i) s) p.tid (if p.acc = 0 then 0x06 else if p.acc = 2 then 0x05 else 0x07) p.addr)) ∧
    (∀ v r, (s.core c).link.transit = v :: r →
      (s.longest .slPop c = none ∨ s.linkState c = 0 → Gives (exec (.evSlEntryArrive c) s) fun t => t = { s with cores := t.cores } ∧
        (t.core c).link = { (s.core c).link with transit := r, fifo := (s.core c).link.fifo ++ [v] } ∧
        ∀ k, k ≠ c → t.core k = s.core k) ∧
      (∀ tid, s.longest .slPop c = some (8 * c + tid, i) → tid < 8 → (s.core c).link.fifo = [] → s.linkState c ≠ 0 →
        Gives (exec (.evSlEntryArrive c) s) fun t => Retires s t (8 * c + tid) ∧ (t.thr (8 * c + tid)).v = vset (s.thr (8 * c + tid)).v i v ∧
          (t.core c).link.fifo = [] ∧ (t.core c).link.transit = r ∧
          (t.core (partnerOf c)).link.creditTransit = (s.core (partnerOf c)).link.creditTransit + 1)) ∧
    ((s.core c).link.creditTransit ≠ 0 → s.longest .slPush c = none ∨ s.linkState c = 0 → Gives (exec (.evSlCreditArrive c) s) fun t =>
      t = { s with cores := t.cores } ∧ (∀ k, k ≠ c → t.core k = s.core k) ∧
      (t.core c).link = { (s.core c).link with
        creditTransit := (s.core c).link.creditTransit - 1, credits := (s.core c).link.credits + 1 }) ∧
    (∀ cmd : CopyCmd, (s.core c).copies.find i = some cmd → cmd.low < cmd.total →
      let now : CopyCmd := { cmd with passed := 0 }
      let done := now.perform off
      (s.copyLater c i cmd = true → exec (.evCeGranuleTransfer c i off) s = .next s) ∧
      (cmd.canDo off = true → s.copyLater c i cmd = false → s.copyGranule (now.who c i) now off = .ok u →
        (u.core c).copies.find i = some cmd →
        (done.low < done.total → Gives (exec (.evCeGranuleTransfer c i off) s) fun t => t = { u with cores := t.cores } ∧
          (t.core c).copies.find i = some done) ∧
        (done.total ≤ done.low → cmd.hasWord = false → Gives (exec (.evCeGranuleTransfer c i off) s) fun t => SameBytes u t ∧
          (t.core c).copies.find i = none ∧ t.threads = u.threads)) ∧
      (∀ t0, cmd.vwait.find off = some t0 → off = cmd.low → (s.thr cmd.tid).csr.vwaitlim.toNat ≤ s.time - t0 →
        s.copyGranule (cmd.who c i) cmd off = .error .waits →
        Gives (exec (.evCpyvVersionWaitLimit c i off) s) fun t => SameBytes s t ∧ (t.core c).copies.find i = none ∧
          ∃ d, (t.thr cmd.tid).deferred = (s.thr cmd.tid).deferred ++ [d] ∧ d.isData = false ∧ d.code = 0x20 ∧ d.eval = cmd.dstAt off)) ∧
    (∀ (g : Nat) (k : Task) (ps : List Part) (p0 : Part) (rest : List Part) (own : List (List Byte)), s.tasks.find g = some k →
      k.state = .bound → ps = p0 :: rest → ps.map (fun p => (p.1, p.2.1)) = k.cores.zip (List.range k.cores.length) →
      (∀ p ∈ ps, (s.core p.1).colls.head? = some p.2.2 ∧ p.2.2.agrees p0.2.2 = true ∧ p.2.2.ord = p0.2.2.ord) → p0.2.2.br = false →
      s.collRead ps = .ok (u, own) →
      let all := ps.flatMap fun p => (p.writes (collResult p.2.2 p.2.1 own)).map fun w => (p, w)
      u.collBad all = none →
      let z := (u.collWrite (all.filter fun q => q.2.1 == 1)).collWrite (all.filter fun q => q.2.1 == 2)
      Gives (exec (.evCollectiveExecute g []) s) fun t => SameBytes z t ∧ t.threads = z.threads ∧
        ∀ p ∈ ps, ∀ x ∈ (t.core p.1).colls, x.ord ≠ p.2.2.ord)

/-- The head of a core's matrix queue that meets no uncorrectable word executes and leaves the queue: TMMA writes only its accumulator
(an integer product without saturation adds to element [i][j] the sum of products of row i of A and row j of B, modulo 2^32),
TACCOUT and TCVT only their tile, TACCADD only its accumulator (an integer one without saturation the sums modulo 2^32), TZERO
makes tile and scale area zero, TACCZ the accumulator, TXCH exchanges the half-tiles and their scales; every other byte of memory
and every thread's registers stand. Where the heads of both cores of a pair are TXCH, both execute. -/
def Obligations.QueueEntryEvents : Prop :=
  ∀ (s : State) (c : Nat) (e : MxEntry) (rest : List MxEntry) (n n2 : AReg) (t ta tb : TReg) (cb : Nat) (h : Bool),
    (s.core c).mx.queue = e :: rest →
    s.badRange (s.entryRanges c e.op).1 (s.entryRanges c e.op).2 = none →
    let p := partnerOf c
    (∀ e' rest' t' ta' h', (s.core p).mx.queue = e' :: rest' → c < 2 ^ 12 → e.op = .txch t ta h → e'.op = .txch t' ta' h' →
      s.badRange (s.entryRanges p e'.op).1 (s.entryRanges p e'.op).2 = none →
      Gives (exec (.evMqTxchExecute c) s) fun z => (z.core c).mx.queue = rest ∧ (z.core p).mx.queue = rest') ∧
    (headIsTxch (s.core p).mx.queue = false →
    let accd (a : AReg) : BitVec 3 := (s.core c).mx.accd.get a
    let elem (z : State) (a : AReg) (i j : Nat) : Nat := z.mem.num (accKey c a i j) 4
    let code (r : TReg) (i k : Nat) : Int := tInt (dFmt (s.tdesc c r)) (rowElem (s.tileRow c r i) (tBits (dFmt (s.tdesc c r))) k)
    let done (z : State) (areas : List (Nat × Nat)) : Prop :=
      (z.core c).mx.queue = rest ∧ (z.core c).mx.tdesc = (s.core c).mx.tdesc ∧ (z.core c).mx.tscl = (s.core c).mx.tscl ∧
        (∀ j, Keeps s z j ∧ (j ≠ e.tid → z.thr j = s.thr j)) ∧
        ∀ k, (∀ a ∈ areas, k < a.1 ∨ a.1 + a.2 ≤ k) → z.mem.get k = s.mem.get k
    (e.op = .tmma n ta tb → Gives (exec (.evMqTmmaExecute c) s) fun z => done z [(accKey c n 0 0, 1024)] ∧
      ((accd n).getLsbD 0 = true → (accd n).getLsbD 1 = false → ∀ i j, i < dRows (s.tdesc c ta) → j < dRows (s.tdesc c tb) →
        (elem z n i j : Int) = (Sg 32 (elem s n i j) + ((List.range (dCols (s.tdesc c ta))).map fun k =>
          if k < dCols (s.tdesc c ta) then code ta i k * tInt (dFmt (s.tdesc c tb))
            (rowElem (s.tileRow c tb j) (tBits (dFmt (s.tdesc c tb))) k) else 0).sum) % 2 ^ 32)) ∧
    (e.op = .taccout t n ta tb cb → cb < 32 → s.taccoutOk t n cb = true → c = s.cur / 8 →
      Gives (exec (.evMqTaccoutExecute c) s) fun z => done z [(tileKey c t 0 0, 4096)]) ∧
    (e.op = .taccadd n n2 → Gives (exec (.evMqTaccaddExecute c) s) fun z => done z [(accKey c n 0 0, 1024)] ∧
      ((accd n).getLsbD 0 = true → (accd n).getLsbD 1 = false → ∀ i j, i < 16 → j < 16 →
        elem z n i j = (elem s n i j + elem s n2 i j) % 2 ^ 32)) ∧
    (e.op = .tzero t → Gives (exec (.evMqTzeroExecute c) s) fun z => done z [(tileKey c t 0 0, 4096), (scaleKey c t 0, 256)] ∧
      (∀ b, b < 4096 → z.mem.get (tileKey c t 0 b) = 0) ∧ ∀ b, b < 256 → z.mem.get (scaleKey c t b) = 0) ∧
    (e.op = .taccz n → Gives (exec (.evMqTacczExecute c) s) fun z => done z [(accKey c n 0 0, 1024)] ∧
      ∀ b, b < 1024 → z.mem.get (accKey c n 0 0 + b) = 0) ∧
    (e.op = .txch t ta h → c < 2 ^ 12 →
      let r := if h then 8 else 0
      Gives (exec (.evMqTxchExecute c) s) fun z =>
        done z [(tileKey c ta r 0, 2048), (tileKey p t r 0, 2048), (scaleKey c ta (16 * r), 128), (scaleKey p t (16 * r), 128)] ∧
        (∀ b, b < 2048 → z.mem.get (tileKey c ta r b) = s.mem.get (tileKey p t r b) ∧
          z.mem.get (tileKey p t r b) = s.mem.get (tileKey c ta r b)) ∧
        ∀ b, b < 128 → z.mem.get (scaleKey c ta (16 * r + b)) = s.mem.get (scaleKey p t (16 * r + b)) ∧
          z.mem.get (scaleKey p t (16 * r + b)) = s.mem.get (scaleKey c ta (16 * r + b))) ∧
    (e.op = .tcvt t ta → descOk (s.tdesc c t) = true → dCols (s.tdesc c t) = dCols (s.tdesc c ta) → dRows (s.tdesc c t) = dRows (s.tdesc c ta) →
      Gives (exec (.evMqTcvtExecute c) s) fun z => done z [(tileKey c t 0 0, 4096)]))

namespace Sys2Proof.Claims

/-- Bytes outside the windows of these cores do not change. -/
def OutsideWindows (s t : State) (cs : List Nat) : Prop :=
  ∀ k, (∀ c ∈ cs, k < winKey c 0 ∨ winKey (c + 1) 0 ≤ k) → t.mem.get k = s.mem.get k

/-- LM, tile file, scale areas and accumulators of a core read zero, and its threads' registers are zero. -/
def Zeroed (t : State) (c : Nat) : Prop :=
  (∀ o, o < 0x40000 ∨ 0x100000 ≤ o ∧ o < 0x111000 ∨ 0x120000 ≤ o ∧ o < 0x122000 → t.mem.get (winKey c o) = 0) ∧
  ∀ i, i < 8 → (t.thr (8 * c + i)).x = Vector.replicate 32 0 ∧ (t.thr (8 * c + i)).v = Vector.replicate 16 0 ∧
    (t.thr (8 * c + i)).m = Vector.replicate 8 0

/-- The released threads of a gang are to stop at their next boundary; their registers stand, and memory. -/
def StopsGang (s t : State) (g : Nat) (k : Task) : Prop :=
  t.tasks.find g = some { k with state := .stopping } ∧ (∀ h, h ≠ g → t.tasks.find h = s.tasks.find h) ∧ SameBytes s t ∧
  (∀ j, j ∈ s.gangThreads g → (s.bind j).st = 2 → (t.bind j).st = 3 ∧ (t.thr j).stopReq = true) ∧
  (∀ j, Keeps s t j) ∧ ∀ j, j ∉ s.gangThreads g → t.bind j = s.bind j ∧ (t.thr j).stopReq = (s.thr j).stopReq

/-- The record of the command in BINDSEL. -/
def selOf (b : BindCsrs) : Nat := 8 * b.core.toNat + b.slot.toNat

/-- The last command of a thread is over: BUSY 0, ERR as given. -/
def CommandOver (s t : State) (tid : Nat) (err : Bool) (words : Vector Word 5) : Prop :=
  (t.thr tid).bind = { (s.thr tid).bind with words := words, busy := false, err := err, pending := 0 }

end Sys2Proof.Claims

/-- READ takes the selected record into BINDD0 to BINDD4; WRITE stores them, less reserved bits, where the record is FREE and STATE is
1 or it is PARKED, was not FREE when the command was given, and STATE is 0 or 1, with STATE 1 the core holding the record's key and
with STATE 0 the slot unbound and a core left with no record holding no key, and stands BUSY while the core of a new gang is zeroed,
after which the record is stored; a WRITE that may not be, and a command on a core that is none, sets ERR; GO releases every PARKED
record of the gang, a FRESH thread starting at the record's PC with registers 0; STOP makes every RELEASED record STOPPING and, where
none is, only clears BUSY. A WRITE with STATE 0 that stores the other words and a core without a key are log entry 73, a WRITE given
while the record was FREE log entry 32. -/
def Obligations.SlotTableEvents : Prop :=
  ∀ (s : State) (tid : Nat),
    let b := (s.thr tid).bind
    let r := s.bind (selOf b)
    let core := b.core.toNat
    let isC : Prop := core < 0x800 ∨ 0xF00 ≤ core ∧ core < 0xF08
    let new := b.words[0].toNat % 4
    let g := b.words[1].toNat % 2 ^ 32
    let stored : BindRec := #v[b.words[0] % 0x80000000000#64, b.words[1] % 0x80000000000000#64, b.words[2] % 0x800000000000#64,
      b.words[3] % 0x800000000000#64, b.words[4] % 0x100000000#64]
    let legal : Prop := r[0].toNat % 4 = 0 ∧ new = 1 ∨ r[0].toNat % 4 = 1 ∧ b.sawFree = false ∧ new ≤ 1
    let Stores (t : State) : Prop := t.bind (selOf b) = stored ∧ CommandOver s t tid false b.words ∧
      (∀ j, j ≠ selOf b → t.bind j = s.bind j) ∧ (new = 1 → (t.core core).key = some (BitVec.ofNat 32 b.words[4].toNat)) ∧
      (new = 0 → (t.thr (selOf b)).slot = .unbound ∧ ((∀ j, j < 8 → (t.bind (8 * core + j)).st = 0) → (t.core core).key = none))
    s.tableFree = true →
    (b.pending = 1 → (isC → Gives (exec (.evBindcmdRead tid) s) fun t => CommandOver s t tid false r ∧ t = { s with threads := t.threads } ∧
        Keeps s t tid ∧ ∀ j, j ≠ tid → t.thr j = s.thr j) ∧
      (¬ isC → Gives (exec (.evBindcmdRead tid) s) fun t => CommandOver s t tid true b.words ∧ t = { s with threads := t.threads })) ∧
    (b.pending = 2 → (¬ (isC ∧ legal) → Gives (exec (.evBindcmdWrite tid) s) fun t =>
        CommandOver s t tid true b.words ∧ t = { s with threads := t.threads }) ∧
      (isC → legal → new = 0 ∨ (s.core core).lastGang = some g → Gives (exec (.evBindcmdWrite tid) s) fun t =>
        Stores t ∧ SameBytes s t ∧ ∀ j, Keeps s t j) ∧
      (isC → legal → new = 1 → (s.core core).lastGang ≠ some g → Gives (exec (.evBindcmdWrite tid) s) fun t =>
        (t.thr tid).bind = { b with pending := 5 } ∧ t = { s with threads := t.threads })) ∧
    (b.pending = 3 → isC → s.bad = [] → Gives (exec (.evBindcmdGo tid) s) fun t =>
      OutsideWindows s t ((s.recordsOf g).map (· / 8)) ∧
      (∀ j, j ∈ s.recordsOf g → (s.bind j)[0].toNat % 4 = 1 → (t.bind j)[0].toNat % 4 = 2 ∧
        (∀ n, n < 5 → n ≠ 0 → (t.bind j).toList[n]? = (s.bind j).toList[n]?) ∧ (t.thr j).slot = .active ∧
        (∃ w : BitVec 32, (t.core (j / 8)).key = some w) ∧
        ((s.bind j)[0].getLsbD 2 = true → (t.thr j).pc = (s.bind j)[2] ∧ (t.thr j).x = Vector.replicate 32 0)) ∧
      (∀ j, j ∉ s.recordsOf g ∨ (s.bind j)[0].toNat % 4 ≠ 1 → t.bind j = s.bind j ∧ (j ≠ tid → t.thr j = s.thr j)) ∧
      (tid ∉ s.recordsOf g → CommandOver s t tid false b.words)) ∧
    (b.pending = 4 → isC →
      (∀ k, s.tasks.find g = some k → (∃ j ∈ s.gangThreads g, (s.bind j).st = 2) → Gives (exec (.evBindcmdStop tid) s) fun t =>
        StopsGang s t g { k with debugHeld := k.debugHeld || k.state == .debugStopped } ∧ CommandOver s t tid false b.words) ∧
      ((∀ j ∈ s.gangThreads g, (s.bind j).st ≠ 2) → Gives (exec (.evBindcmdStop tid) s) fun t =>
        t = { s with threads := t.threads } ∧ CommandOver s t tid false b.words ∧ ∀ j, Keeps s t j ∧ (t.thr j).stopReq = (s.thr j).stopReq))

/-- Zeroing ends with the record stored and the core zero; a waiting task whose pages and arguments can be read is bound: its threads
start at ENTRY with registers 0, the argument image (read at the bind, log entry 69) and zeros stand in entries 0 to 239 and the core,
rank and width in 240 to 242; a saved gang is bound with its cores again; a task that waits ages one level; a gang that may be
pre-empted is stopped, for the task that its room is; a
gang all of whose threads stopped is saved and its cores hold no key; a domain that no gang holds is gated and its cores are in
C3, and the gangs that hold it are stopped first; the Ladle frees the source cores once their context is written, asks for a wake
where a Cupola quadrant named is not in Q-ON, leaves what it has written where a write waits, and once that wake is over starts the
destination's threads at the record's entry, the gang's barriers afresh, its arrivals from the bind and its collectives counted as the
model reads R389 and R390 (log entries 55 and 67). -/
def Obligations.BindingEvents : Prop :=
  ∀ (s u : State) (tid g d : Nat) (k : Task) (cores : List Nat) (image : List Byte),
    (∀ b, (s.thr tid).bind = b → b.pending = 5 → Gives (exec (.evBindZeroingDone tid) s) fun t =>
      Zeroed t b.core.toNat ∧ OutsideWindows s t [b.core.toNat] ∧ CommandOver s t tid false b.words ∧
        (t.bind (selOf b)).st = b.words[0].toNat % 4 ∧ (t.bind (selOf b)).gang = b.words[1].toNat % 2 ^ 32) ∧
    (s.tasks.find g = some k → s.boot.fatal = false → s.resetting k.qif = false →
      (s.mayBind g k = true → s.fits k = true → s.coresOk k cores = true →
        (k.state = .waiting → s.dropWork.pagesIn k.qif k.pasid.toNat (pagesOf k.launch.leases) = .ok u → k.launch.team ≤ 8 → image.length ≤ 1920 →
          ∀ v, u.fwLoadR k.qif k.pasid.toNat k.launch.argAddr (8 * k.launch.argN) 16 = .ok (v, image) →
          Gives (exec (.evTaskBind g cores) s) fun t =>
            (∃ k', t.tasks.find g = some k' ∧ k'.state = .bound ∧ k'.cores = cores ∧ k'.fresh = false) ∧ OutsideWindows v t cores ∧
            ∀ r c, cores[r]? = some c →
              (∀ i, i < k.launch.team → (t.thr (8 * c + i)).slot = .active ∧ (t.thr (8 * c + i)).pc.toNat = (k.launch.textBase + k.launch.entry).toNat % 2 ^ 47 ∧
                (t.thr (8 * c + i)).x = Vector.replicate 32 0 ∧ (t.bind (8 * c + i)).st = 2) ∧
              t.mem.getBytes (winKey c 0) 1920 = image ++ List.replicate (1920 - image.length) 0 ∧
              t.mem.num (winKey c 0x780) 8 = c ∧ t.mem.num (winKey c 0x788) 8 = r % 2 ^ 64 ∧ t.mem.num (winKey c 0x790) 8 = cores.length % 2 ^ 64) ∧
        (k.state = .saved → s.bad = [] → Gives (exec (.evTaskBind g cores) s) fun t =>
          (∃ k', t.tasks.find g = some k' ∧ k'.state = .bound ∧ k'.cores = seat k.savedCores cores ∧ k'.savedCores = []) ∧
            ∀ c ∈ cores, (t.core c).key = some k.key)) ∧
      (k.need.isSome = true → 1 < k.level → (k.rises + 1) * 10000000 ≤ s.time - k.waitSince →
        Gives (exec (.evPriorityAging g) s) fun t => t = { s with tasks := t.tasks } ∧
          t.tasks.find g = some { k with level := k.level - 1, rises := k.rises + 1 } ∧ ∀ h, h ≠ g → t.tasks.find h = s.tasks.find h) ∧
      (∀ h w n, h ≠ g → s.tasks.find h = some w → w.need = some n → k.onTabor = n.tabor → s.preemptable w k = true → s.fits w = false →
        (∀ p ∈ s.tasks, p.2.onTabor = n.tabor → s.preemptable w p.2 = true →
          p.2.level < k.level ∨ p.2.level = k.level ∧ k.boundSince ≤ p.2.boundSince) →
        Gives (exec (.evQuantumPreempt g h) s) fun t => StopsGang s t g { k with forTask := some h }) ∧
      (k.state = .stopping → k.capture = none → s.allStopped g = true → Gives (exec (.evGangStopSaveComplete g) s) fun t =>
        (∃ p, t.tasks.find g = some { k with state := if k.debugHeld then .debugStopped else .saved, savedCores := k.cores, cores := [], paused := p, waitSince := s.time,
                                             level := k.launch.prio, rises := 0 }) ∧
        (∀ c ∈ k.held, (t.core c).key = none ∧ (t.core c).copies = [] ∧ (t.core c).colls = []) ∧
        ∀ j, (t.bind j) = s.bind j) ∧
      (∀ m, k.state = .migrating → k.migr = some m →
        (k.cores ≠ [] →
          (∀ v, s.ladleWrite k m = (u, none) →
            u.pagesIn k.qif k.pasid.toNat (pagesOf k.launch.leases ++ coverPages m.leases) = .ok v → v.tasks.find g = some k →
            Gives (exec (.evLadleMigration g cores) s) fun t => SameBytes v t ∧
              (∀ c ∈ k.held, (t.core c).key = none ∧ (t.core c).copies = [] ∧ (t.core c).colls = []) ∧
              ∃ k' m', t.tasks.find g = some k' ∧ k'.cores = [] ∧ k'.savedCores = k.cores ∧ k'.migr = some m' ∧
                k'.launch.leases = k.launch.leases ++ m.leases ∧ m' = { m with wake := m'.wake } ∧
                (m'.wake.isSome = true ↔ m.tabor = false ∧ ∃ q, q < 4 ∧ bit m.quadMask q = true ∧ (v.quad q).isOn = false)) ∧
          (∀ f v, s.ladleWrite k m = (u, some f) → u.fwFailed (k.job g) .write f = .later v →
            exec (.evLadleMigration g cores) s = .next v)) ∧
        (k.cores = [] → (∀ id w, m.wake = some id → w ∈ s.power.wakes → w.id ≠ id) → m.statusw = 0 → m.team ≤ 8 → s.mayBind g k = true → s.fits k = true → s.coresOk k cores = true →
          let k1 : Task := { k with
            launch := { k.launch with team := m.team, spmin := m.spmin, spmax := m.spmax }
            state := .bound
            cores := cores
            savedCores := []
            sstepBase := k.sstepBase + k.sstep
            sstep := 0
            bars := firstBars (cores.length * m.team) k.launch.barn
            boundSince := s.time
            arrivals := Arrivals.init s.time 0
            migr := none
            collCounts := [] }
          let s1 := (s.over cores State.clearRecords).over cores fun s c =>
            ((((s.zeroCore c).modCore c fun k => { k with lastGang := some g }).openCore k1 c m.spmin m.spmax).openInbox k1.launch c).modCore c
              fun v => { v with collCount := (k.collCounts.map (·.2)).foldl max 0 }
          s1.readSlots k.qif k.pasid.toNat m.image.toNat m.spmax ((cores.zip (countFrom 0 cores.length)).take k.savedCores.length) = (u, none) →
          ∀ v w key, u.fwLoadR k.qif k.pasid.toNat m.args (8 * m.argn) 16 = .ok (v, image) →
          v.fwKey k.qif k.pasid.toNat .read (BitVec.ofNat 64 (m.image.toNat + 0x80000 * k.savedCores.length)) 2048 16 = .ok (w, key) → w.bad = [] →
          Gives (exec (.evLadleMigration g cores) s) fun t => t.tasks.find g = some k1 ∧
            ∀ c ∈ cores, ∀ i, i < m.team → (t.thr (8 * c + i)).slot = .active ∧ (t.thr (8 * c + i)).pc.toNat = (k.launch.textBase + m.entry).toNat % 2 ^ 47))) ∧
    (domainCores d ≠ [] → (∀ c ∈ domainCores d, s.isService c = false) → (s.domain d).powered = true →
      ((∀ p ∈ s.tasks, ∀ c ∈ p.2.cores, c ∉ domainCores d) → Gives (exec (.evDomainPowerGate d) s) fun t =>
        (t.domain d).powered = false ∧ OutsideWindows s t (domainCores d) ∧
          ∀ c ∈ domainCores d, Zeroed t c ∧ (t.core c).cstate = .c3) ∧
      (∀ c ∈ k.cores, c ∈ domainCores d → s.tasks = [(g, k)] → k.state = .bound →
        Gives (exec (.evDomainPowerGate d) s) fun t => StopsGang s t g k))

namespace Sys2Proof.Claims

/-- The next packet of a queue, index `i` and bytes `b` read with state `u`, may start: notified, the queue free for it, its PASID on
the allow list, no HOLD, header and body within their rows. -/
def PacketReady (s u : State) (q n : Nat) (b : List Byte) (typ : Nat) : Prop :=
  s.mayStart q n = true ∧ s.readSlotBytes q n (s.queue q n).next = .ok (u, b) ∧ pkType b = typ ∧ (u.queue q n).running = [] ∧
    (u.allowEntry q (pkPasid b)).isSome = true ∧ pkHold b = false ∧ headOk b = true ∧ bodyOk b = true

/-- The machine with that packet started: service firmware has read the notify ring, the packet is running, the next index follows it. -/
def startedPacket (s u : State) (q n : Nat) : State :=
  let i := (s.queue q n).next
  (u.readNotifies.dropJob (slotMarker q n)).modQueue q n fun v => { v with next := (i + 1) % 2 ^ 16, running := i :: v.running }

/-- Packet `i` of a queue has completed: it runs and waits no more, and its passes count one more. -/
def PacketOver (s t : State) (q n i : Nat) : Prop :=
  (∀ w ∈ (t.queue q n).watch, w.index ≠ i) ∧ i ∉ (t.queue q n).running ∧
    (t.queue q n).passes.get 0 i = ((s.queue q n).passes.get 0 i + 1) % 2 ^ 32

/-- The queue is STOPPED with this code. -/
def StoppedWith (t : State) (q n code : Nat) : Prop :=
  bit (t.reg (qdesc q n + 8)) 5 = true ∧ bits (t.reg (qdesc q n + 8)) 16 8 = code

end Sys2Proof.Claims

/-- A SIGNAL that may start stores its value, or adds it, to its word and completes; a WAITQ watches its word, completes where its
condition holds, and with TIMEOUT passed and the condition still false completes WAIT_TIMEOUT (the record in the completion ring)
with the queue STOPPED; a CONTROL that chooses the next packet completes, one that chooses a TARGET jumps forward to a later ring
index, or back within an open held region, and stops the queue with BAD_PACKET where the index is no longer held (which ones those
are is the model's reading, log entry 37);
CAPSTART opens a capture on the queue, CAPSTOP closes it; a SIGNAL or CONTROL that has waited for the service wait limit
completes, a CONTROL's queue STOPPED with ARG_FAULT; a LAUNCH whose checks pass leaves a task waiting to bind at its level, with
the fields of its record, its header and its packet. -/
def Obligations.PacketEvents : Prop :=
  ∀ (s u : State) (q n : Nat) (b : List Byte), q < 8 → n < 64 →
    let i := (s.queue q n).next
    let z := startedPacket s u q n
    (PacketReady s u q n b 2 → ∀ v ad, z.signalAt q b 16 = .ok (v, ad) → Gives (exec (.evSignal q n) s) fun t => PacketOver z t q n i ∧
      ∀ p k, ad.spans = [p] → p.loc = .mem k → p.n = 8 → isLm k = false → pkCrec b = false →
        t.mem.num k 8 = (recNum b 16 8 + if recNum b 24 1 = 1 then numOf (v.bytesAt [p]) else 0) % 2 ^ 64) ∧
    (PacketReady s u q n b 3 → ∀ v w, z.packetWord q b = .ok (v, w) → Gives (exec (.evWaitq q n) s) fun t =>
      ⟨i, b, s.time, 0, []⟩ ∈ (t.queue q n).watch ∧ i ∈ (t.queue q n).running) ∧
    (∀ w, s.waitqOf q n = some w → s.serves q = true →
      let holds (x : Nat) : Prop := recNum w.pkt 24 1 = 0 ∧ x = recNum w.pkt 16 8 ∨ recNum w.pkt 24 1 = 1 ∧ recNum w.pkt 16 8 ≤ x ∨
        2 ≤ recNum w.pkt 24 1 ∧ x ≠ recNum w.pkt 16 8
      let late : Prop := (if recNum w.pkt 32 8 = 0 then 1000000000 else recNum w.pkt 32 8) ≤ s.time - w.since
      (∀ v x, s.packetWord q w.pkt = .ok (v, x) →
        holds x → Gives (exec (.evWaitqSatisfied q n) s) (fun t => PacketOver s t q n w.index) ∧
          (late → Gives (exec (.evWaitqTimeout q n) s) fun t => PacketOver s t q n w.index)) ∧
      (late → ∀ v x, s.packetWord q w.pkt = .ok (v, x) → ¬holds x →
        Gives (exec (.evWaitqTimeout q n) s) fun t => PacketOver s t q n w.index ∧ StoppedWith t q n 0x08 ∧
          (pkCrec w.pkt = false → SameBytes v t) ∧
          (pkCrec w.pkt = true → (v.queue q n).pend = [] →
            let size := 2 ^ (v.reg (qdesc q n + 0x28) % 16)
            let tail := v.reg (qdesc q n + 0x30)
            2 ≤ v.reg (qdesc q n + 0x28) % 16 → (tail + 2 ^ 16 - v.reg (qdesc q n + 0x38)) % 2 ^ 16 < size →
            ∀ k m, v.ringKey q (v.reg (qdesc q n + 0x20) + 32 * (tail % size)) .write = .ok (k, m) → v.reg (qdesc q n + 0x28) % 16 ≤ 15 →
              isLm k = false → t.reg (qdesc q n + 0x30) = (tail + 1) % 2 ^ 16 ∧
                t.mem.getBytes k 32 = bytesLE 8 (pkTag w.pkt + 8 * 2 ^ 16 + n * 2 ^ 32 + q * 2 ^ 38) ++
                  bytesLE 8 (w.index + ((v.queue q n).passes.get 0 w.index + 1) % 2 ^ 32 * 2 ^ 32) ++ bytesLE 8 0 ++ bytesLE 8 v.time))) ∧
    (PacketReady s u q n b 4 → controlOk b (z.ringSize q n) = true → ∀ v w, z.packetWord q b = .ok (v, w) →
      let size := z.ringSize q n
      let choice : Option Nat := if recNum b 16 1 = 0 then (if w = 0 then some (recNum b 32 2) else none)
        else if recNum b 16 1 = 1 then (if w < recNum b 24 8 then some (recNum b 32 2) else none)
        else if w < recNum b 17 1 then some (recNum b (32 + 2 * w) 2) else none
      (choice = none → Gives (exec (.evControl q n) s) fun t => PacketOver z t q n i ∧ (t.queue q n).next = (i + 1) % 2 ^ 16 ∧
        (t.queue q n).skipTo = none) ∧
      (∀ g, choice = some g → (z.queue q n).held = [] → g ≤ i % size → (i + 1) % 2 ^ 16 = z.reg (qdesc q n + 0x18) →
        Gives (exec (.evControl q n) s) fun t => PacketOver z t q n i ∧ StoppedWith t q n 0x02) ∧
      (∀ g, choice = some g → (z.queue q n).held = [] → i % size < g → (i + 1) % 2 ^ 16 = z.reg (qdesc q n + 0x18) →
        Gives (exec (.evControl q n) s) fun t => PacketOver z t q n i ∧ (t.queue q n).next = (i + 1) % 2 ^ 16 ∧
          (t.queue q n).skipTo = if (g + size - i % size) % size = 1 then none
            else some ((i + (g + size - i % size) % size) % 2 ^ 16)) ∧
      (∀ g h, choice = some g → (z.queue q n).held.getLast? = some h →
        let back := (i + 2 ^ 16 - (i + 2 ^ 16 - g) % size) % 2 ^ 16
        z.ahead q n h ≤ z.ahead q n back → z.ahead q n back ≤ z.ahead q n i →
        Gives (exec (.evControl q n) s) fun t => PacketOver z t q n i ∧ (t.queue q n).next = back)) ∧
    (PacketReady s u q n b 5 → z.captureOk q n b = true → bit (capSet b) 6 = false →
      z.pinned (z.qTenant q) + (coverPages [(recNum b 8 8, recNum b 16 8)]).length ≤ z.pinQuota (z.qTenant q) →
      ∀ v, z.pagesIn q (pkPasid b) (coverPages [(recNum b 8 8, recNum b 16 8)]) = .ok v →
      Gives (exec (.evCapstart q n) s) fun t => PacketOver z t q n i ∧ ∃ id, z.captures.find id = none ∧
        (t.queue q n).capture = some id ∧ t.captures.find id = some ⟨q, n, capSet b, BitVec.ofNat 20 (pkPasid b), pkAddr b, recNum b 16 8,
          (64 - (pkAddr b).toNat % 64) % 64, 0, [], [], false, []⟩) ∧
    (PacketReady s u q n b 6 → ∀ id, (z.queue q n).capture = some id → (∀ k, (z.quad k).isOn = true) →
      (∀ k, z.captures.find id = some k → k.waits = []) → Gives (exec (.evCapstop q n) s) fun t =>
      PacketOver z t q n i ∧ (t.queue q n).capture = none ∧ ((z.captures.find id).isSome = true → t.captures.find id = none)) ∧
    (∀ w, (s.queue q n).watch.find? Watch.acts = some w → s.serves q = true →
      s.waitLimit (8 * 0xF07) ≤ s.time - w.since → Gives (exec (.evServiceWaitLimit q n) s) fun t => PacketOver s t q n w.index ∧
        (pkType w.pkt = 4 → StoppedWith t q n 0x0A)) ∧
    (PacketReady s u q n b 1 → (∀ w ∈ (z.queue q n).watch, w.index ≠ i) → ∀ v1 v2 v3 r h pt, z.fwLoadR q (pkPasid b) (pkAddr b) 256 16 = .ok (v1, r) →
      firstBad (v1.recordChecks r) = none → recNum r 0x10 8 % 64 = 0 →
      v1.fwLoadR q (pkPasid b) (BitVec.ofNat 64 (recNum r 0x10 8)) 64 16 = .ok (v2, h) → headerOk h (recNum r 0x18 8) = true →
      bodyRuns h = true →
      v2.fwLoadR q (pkPasid b) (BitVec.ofNat 64 (recNum r 0x10 8 + recNum h 0x30 8)) (8 * recNum h 0x38 4) 16 = .ok (v3, pt) →
      firstBad (v3.recordLate q r) = none → bit (recNum r 2 2) 1 = false → recNum r 5 1 ≤ 7 → s.tasks.length < 60000 →
      Gives (exec (.evLaunch q n) s) fun t => (∀ w ∈ (t.queue q n).watch, w.index ≠ i) ∧ i ∈ (t.queue q n).running ∧
        ∃ g k, g ≠ 0 ∧ s.tasks.find g = none ∧ t.tasks.find g = some k ∧ k.state = .waiting ∧ k.fresh = true ∧ k.qif = q ∧ k.queue = n ∧
          k.index = i ∧ k.tag = BitVec.ofNat 16 (pkTag b) ∧ k.pasid = BitVec.ofNat 20 (pkPasid b) ∧
          k.level = max (recNum r 5 1) (bits (v3.reg (qcb q)) 16 3) ∧ k.waitSince = s.time ∧
          k.launch.team = recNum r 6 1 ∧ k.launch.gmin = recNum r 0x0C 2 ∧ k.launch.gmax = recNum r 0x0E 2 ∧
          k.launch.spmin = recNum r 9 1 ∧ k.launch.spmax = recNum r 0x0A 1 ∧ k.launch.waitLim = recNum r 0x28 8 ∧
          k.launch.textBase = BitVec.ofNat 64 (recNum r 0x10 8 + recNum h 0x10 8) ∧ k.launch.entry = BitVec.ofNat 64 (recNum r 0x18 8) ∧
          k.cword = BitVec.ofNat 64 (recNum b 32 8) ∧ k.cval = BitVec.ofNat 64 (recNum b 40 8) ∧
          ∀ j, j ≠ g → t.tasks.find j = s.tasks.find j)

namespace Sys2Proof.Claims

/-- The host reaches BAR0, and no recovery loader runs. -/
def HostOpen (s : State) : Prop := s.barOpen = true ∧ s.boot.recovery = false

/-- The machine as it was but for hub words. -/
def HubOnly (s t : State) : Prop := t = { s with hub := t.hub }

end Sys2Proof.Claims

/-- A notify in good form sets TAIL and is logged; a QIF's control word takes ENABLE, MINLEVEL and WEIGHT, and TENANT only while
ENABLE was 0 and nothing of the QIF runs; RESETREQ begins a reset, whose end empties the QIF's tasks, queues and FILE faults (held records of other kinds
stay, log entry 94); S2INV and INVREQ take the named translations from every TLB of a core or a cluster, let write-combined data land,
and count; DBGRESUME and DBGSTOP act on a gang of the QIF;
RESTART clears STOPPED; CHEAD, the fault ring's words, the tenant table, the MSI-X table, the remap table and the mailbox's ADDR
and LEN take the bits written; FRESP restarts or fails its waiters; MSISEND sends or pends; ATTBUF requests a quote; VMINSEL latches a domain's log, which a read of
VMINTIME clears: it starts again from a free value below 2^16 (log entry 81). -/
def Obligations.HostWrites : Prop :=
  ∀ (s : State) (q n i : Nat) (d : Word), q < 8 → n < 64 → i < 256 → HostOpen s →
    let v := d.toNat
    let ctl := s.reg (qdesc q n + 8)
    let empty (t : State) (p : TlbEntry → Prop) : Prop := ∀ c e, (e ∈ (t.core c).tlb → e ∈ (s.core c).tlb ∧ ¬ p e) ∧
      (e ∈ t.clusterTlbs.get [] c → e ∈ s.clusterTlbs.get [] c ∧ ¬ p e)
    let pageOf (p page size : Nat) : Prop := p / 2 ^ (size - 14) = page / 2 ^ (size - 14)
    (s.qEnabled q = true → s.resetting q = false → v < 2 ^ 36 → (s.allowEntry q (bits v 16 20)).isSome = true → (s.queue q n).skipTo = none →
      (v % 2 ^ 16 + 2 ^ 16 - s.reg (qdesc q n + 0x10)) % 2 ^ 16 ≤ 2 ^ (ctl % 16) →
      let tail := s.mem.num (storeKey 0x5D0000) 8
      (tail + 2 ^ 64 - s.mem.num (storeKey 0x5D0008) 8) % 2 ^ 64 ≠ 4096 →
      Gives (exec (.evQueueNotify q (8 * n) d) s) fun t => t.reg (qdesc q n + 0x18) = v % 2 ^ 16 ∧
        t.mem.num (storeKey 0x5D0000) 8 = (tail + 1) % 2 ^ 64 ∧
        t.mem.getBytes (storeKey (0x5C0000 + 16 * (tail % 4096))) 16 = bytesLE 8 (v + n * 2 ^ 36 + q * 2 ^ 42) ++ bytesLE 8 s.time ∧
        t.threads = s.threads ∧ t.queues = s.queues) ∧
    (v % 4 < 2 → Gives (exec (.evQifEnableWrite q d) s) fun t => HubOnly s t ∧ bit (t.reg (qcb q)) 0 = d.getLsbD 0 ∧
      bits (t.reg (qcb q)) 16 3 = bits v 16 3 ∧ bits (t.reg (qcb q)) 20 8 = bits v 20 8 ∧
      (s.qEnabled q = false → (∀ p ∈ s.tasks, p.2.qif ≠ q) → (∀ m, m < 64 → (s.queue q m).running = []) → t.qTenant q = bits v 8 8) ∧
      (s.qEnabled q = true ∨ (∃ p ∈ s.tasks, p.2.qif = q) → t.qTenant q = s.qTenant q)) ∧
    (Gives (exec (.evQifReset q) s) fun t => t.resetting q = true ∧ (t.qif q).resetting = true ∧ t = { s with hub := t.hub, qifs := t.qifs }) ∧
    ((s.qif q).resetting = true → Gives (exec (.evQifResetComplete q) s) fun t => t.resetting q = false ∧ bit (t.reg (qcb q)) 2 = true ∧
      (∀ g k, s.tasks.find g = some k → k.qif = q → t.tasks.find g = none) ∧ (∀ p ∈ t.pageWaits, p.qif ≠ q) ∧
      (t.qif q).pend = (s.qif q).pend.filter (fun r => decide ((r.words.getD 0 0).toNat % 256 ≠ 1)) ∧
      (∀ m, m < 64 → t.queue q m = { Queue.init with pend := (s.queue q m).pend.filter fun r => decide (r.kind ≠ .packet) } ∧ t.reg (qdesc q m + 0x10) = 0 ∧
        t.reg (qdesc q m + 0x18) = 0 ∧ t.reg (qdesc q m + 0x30) = 0 ∧ bits (t.reg (qdesc q m + 8)) 4 2 = 0) ∧
      empty t fun e => e.qif = q) ∧
    (Gives (exec (.evS2inv q d) s) fun t => (∀ a, (∀ e ∈ s.wc, e.2.1 ≠ a) → t.mem.get a = s.mem.get a) ∧ t.wc = [] ∧ t.reg (qcb q + 0x18) = (s.reg (qcb q + 0x18) + 1) % 2 ^ 64 ∧
      (empty t fun e => e.qif = q ∧ e.mode = false ∧ (d.getLsbD 0 = true ∨ pageOf e.ipage (bits v 14 33) e.isize)) ∧
      ∀ c e, e ∈ (s.core c).tlb → e.qif ≠ q → e ∈ (t.core c).tlb) ∧
    (Gives (exec (.evInvreq q d) s) fun t => (∀ a, (∀ e ∈ s.wc, e.2.1 ≠ a) → t.mem.get a = s.mem.get a) ∧ t.wc = [] ∧ t.reg (qpage q + 0x30) = (s.reg (qpage q + 0x30) + 1) % 2 ^ 64 ∧
      (empty t fun e => e.qif = q ∧ (2 ≤ bits v 4 2 ∨ bits v 4 2 = 1 ∧ e.global = false ∧ e.pasid = bits v 6 20 ∨
        bits v 4 2 = 0 ∧ (e.global = true ∨ e.pasid = bits v 6 20) ∧ pageOf e.page (s.reg (qpage q + 0x20) / 2 ^ 14) e.size)) ∧
      ∀ c e, e ∈ (s.core c).tlb → e.qif ≠ q → e ∈ (t.core c).tlb) ∧
    (∀ k, s.tasks.find (v % 2 ^ 32) = some k → k.qif = q →
      (k.debugHeld = true → Gives (exec (.evDbgresume q d) s) fun t => t = { s with tasks := t.tasks } ∧ t.tasks.find (v % 2 ^ 32) =
        some { k with state := if k.state = .debugStopped then .saved else k.state, waitSince := s.time, rises := 0, debugHeld := false }) ∧
      (k.debugHeld = false → k.state = .debugStopped → Gives (exec (.evDbgresume q d) s) fun t => t = { s with tasks := t.tasks, threads := t.threads } ∧
        t.tasks.find (v % 2 ^ 32) = some { k with state := .bound } ∧
        ∀ j, Keeps s t j ∧ (t.thr j).slot = if j ∈ s.gangThreads (v % 2 ^ 32) ∧ (s.thr j).slot = .stopped then .active else (s.thr j).slot) ∧
      Gives (exec (.evDbgstop q d) s) fun t => t = { s with tasks := t.tasks } ∧
        t.tasks.find (v % 2 ^ 32) = some { k with debugReq := true } ∧ ∀ h, h ≠ v % 2 ^ 32 → t.tasks.find h = s.tasks.find h) ∧
    ((s.queue q n).pend = [] →
      (Gives (exec (.evRestart q n) s) fun t => bits (t.reg (qdesc q n + 8)) 0 5 = bits ctl 0 5 ∧ bit (t.reg (qdesc q n + 8)) 5 = false ∧
        bits (t.reg (qdesc q n + 8)) 8 5 = bits ctl 8 5 ∧ t.queue q n = s.queue q n ∧ t = { s with hub := t.hub, queues := t.queues }) ∧
      Gives (exec (.evCheadWrite q n d) s) fun t => t.reg (qdesc q n + 0x38) = v % 2 ^ 16 ∧ t.queue q n = s.queue q n ∧
        t = { s with hub := t.hub, queues := t.queues }) ∧
    ((s.qif q).pend = [] → ∀ o m, (o = 0x1900 ∧ m = 0x7FFFFFFFFFE0 ∨ o = 0x1908 ∧ m = 0x11F0F ∨ o = 0x1918 ∧ m = 0xFFFF) →
      Gives (exec (.evFaultRingWrite q o d) s) fun t => t.reg (qpage q + o) = v &&& m ∧ t = { s with hub := t.hub, qifs := t.qifs }) ∧
    (bits v 24 39 = 0 → v % 2 ^ 24 ≠ 0 → s.ends = [] → (∀ x ∈ s.queues, (s.queue (x.1 / 64) (x.1 % 64)).pend = []) →
      (∀ x ∈ s.qifs, (s.qif x.1).pend = []) → (∀ x ∈ s.captures, ∀ k, s.captures.find x.1 = some k → k.waits = []) →
      let mine (w : PageWait) : Bool := !w.firmware && w.qif == q && w.seq == v % 2 ^ 24
      Gives (exec (.evFresp q d) s) fun t => SameBytes s t ∧ (∀ j, Keeps s t j) ∧
        (d.getLsbD 63 = true → t = { s with pageWaits := s.pageWaits.map fun w => if mine w then { w with failed := true } else w }) ∧
        (d.getLsbD 63 = false → t.pageWaits = s.pageWaits.filter (fun w => !mine w) ∧
          ∀ w ∈ s.pageWaits, mine w = true → w.engine = none → (t.thr w.tid).slot ≠ .asleep)) ∧
    ((1 ≤ i → Gives (exec (.evTenantTableWrite i 0 d) s) fun t => t.reg (0x400 + 16 * i) = v &&& 0xFFFFFFFF0003FFFF ∧
        t = { s with hub := t.hub, striker := t.striker }) ∧
      (1 ≤ i → Gives (exec (.evTenantTableWrite i 1 d) s) fun t => HubOnly s t ∧ t.reg (0x408 + 16 * i) = v &&& 0xFFFFFFE000FFF) ∧
      Gives (exec (.evTenantTableWrite 0 0 d) s) fun t => t = s) ∧
    (v = i → Gives (exec (.evMsisend d) s) fun t =>
      (bit (s.reg (0x4000 + 16 * i + 8)) 32 = false →
        t = { s with msi := s.msi ++ [⟨i, BitVec.ofNat 64 (s.reg (0x4000 + 16 * i)), BitVec.ofNat 32 (s.reg (0x4000 + 16 * i + 8))⟩] }) ∧
      (bit (s.reg (0x4000 + 16 * i + 8)) 32 = true → HubOnly s t ∧ bit (t.reg (0x5000 + 8 * (i / 64))) (i % 64) = true)) ∧
    (Gives (exec (.evAttbuf d) s) fun t => t = { s with hub := t.hub, boot := t.boot } ∧
      t.boot.quote = (if s.boot.quote = none then some d else s.boot.quote) ∧
      t.reg 0x1C50 = if s.boot.quote = none then v else s.reg 0x1C50) ∧
    (Gives (exec (.evVminsel d) s) fun t => HubOnly s t ∧ t.reg 0x1C30 = v % 256 ∧ t.reg 0x1C38 = (s.domain (v % 256)).vmin % 2 ^ 64 ∧
      t.reg 0x1C40 = (s.domain (v % 256)).vminTime % 2 ^ 64) ∧
    (∀ e, e = s.reg 0x1C30 % 256 →
      Gives (exec .evVmintimeRead s) fun t => t = { s with free := t.free, power := t.power } ∧ (∀ f, f ≠ e → t.domain f = s.domain f) ∧
        ((s.domain e).vmin < s.reg 0x1C38 → t = s) ∧
        (s.reg 0x1C38 ≤ (s.domain e).vmin → (t.domain e).vminTime = s.time ∧ (t.domain e).vmin < 2 ^ 16)) ∧
    (∀ o m, (0x1400 ≤ o ∧ o < 0x1C00 ∧ m = 0x1FF ∨ o = 0x1C18 ∧ m = 0xFFFFFFFFFFFFFFFF ∨ o = 0x1C28 ∧ m = 0x1FF ∨
        0x4000 ≤ o ∧ o < 0x5000 ∧ o % 16 = 0 ∧ m = 0xFFFFFFFFFFFFFFFF ∨ o = 0x80008 ∧ m = 0xFFFFFFFFFFFFFFFF ∨
        o = 0x80010 ∧ m = 0xFFFFFFFF) → o % 8 = 0 →
      Gives (exec (.evRegisterWrite o d) s) fun t => HubOnly s t ∧ t.reg o = v &&& m ∧ ∀ p, p ≠ o → t.reg p = s.reg p) ∧
    (∀ word pend, word = s.reg (0x4008 + 16 * i) → pend = s.reg (0x5000 + 8 * (i / 64)) →
      v % 2 = 0 → bit pend (i % 64) = true → Gives (exec (.evMsixVectorUnmask i d) s) fun t => t = { s with hub := t.hub, msi := t.msi } ∧
        t.reg (0x4008 + 16 * i) = word % 2 ^ 32 ∧ t.reg (0x5000 + 8 * (i / 64)) = pend - 2 ^ (i % 64) ∧
        t.msi = s.msi ++ [⟨i, BitVec.ofNat 64 (s.reg (0x4000 + 16 * i)), BitVec.ofNat 32 word⟩])

/-- A host access of device memory at its home stores its bytes, or changes no byte, one of HBM of a quadrant that is not in Q-ON
waiting for it; a quote is written to the host buffer with its
parts in order and its signature, and ATTDONE is set; the end of a LOAD sets the mailbox's STATE, or runs the image with KIND 2, its
measurement and its boot configuration, the flash written first (which bytes of the image hold them is log entry 79); a
port comes up with its partner's serial and fixes the box number, the mismatch bit clear (log entry 77), or stays down with mismatch
set where the other port has another; a bad flit (its CRC over the bytes that log entry 35 presumes) is discarded and a link flit sent
for it, the sixteenth in a row makes the port retrain; a flit out of order leaves the sequence (log entry 78); a flit in order is
accepted, the memory request that it holds (the payload's layout is open: log entry 35) is served for a tenant that bridges, a store
inside the exported range that covers no uncorrectable word in part being performed, and a request for a replay answered
with every flit not acknowledged; a port trained again replays; a port without success for 100 ms is down and its status bit clear. -/
def Obligations.LinkEvents : Prop :=
  ∀ (s : State) (a p : Nat) (hbm : Bool) (bs : List Byte) (w : Word),
    let key := (if hbm then 1 else 0) * 2 ^ 52 + a
    let port := s.port p
    let h := recNum bs 0 8
    let dark := (s.domain 0x82).dark
    (s.boot.alive = true → s.boot.fatal = false → (s.domain 0x81).dark = false → bs ≠ [] →
      a + bs.length ≤ (if hbm then Config.hbmBytes else Config.lpddr6Bytes) → (hbm = true → s.hbmDark a = false) →
      (∀ st, hbm = true → (s.quad (hbmQuad a)).isOn = false → Gives (exec (.evHostCxlAccess hbm st a bs) s) fun t =>
        SameBytes s t ∧ t.hostWaits = s.hostWaits ++ [(st, a, bs)] ∧ t.threads = s.threads) ∧
      ((hbm = true → (s.quad (hbmQuad a)).isOn = true) →
      (badPart s.bad key bs.length = none → Gives (exec (.evHostCxlAccess hbm true a bs) s) fun t => t.mem.getBytes key bs.length = bs ∧
        (∀ k, k < key ∨ key + bs.length ≤ k → t.mem.get k = s.mem.get k) ∧ t.threads = s.threads ∧ (badIn s.bad key bs.length = none → t.hub = s.hub)) ∧
      (badIn s.bad key bs.length = none → Gives (exec (.evHostCxlAccess hbm false a bs) s) fun t =>
        t = { s with power := t.power } ∧ (hbm = true → t = s) ∧ (hbm = false → t.power.selfRefresh = false)))) ∧
    (∀ b, s.boot.quote = some b → b.toNat < 2 ^ 52 → Gives (exec .evAttestationDone s) fun t => t.boot = { s.boot with quote := none } ∧
      bit (t.reg 0x1C58) 0 = true ∧
      let k := 2 * 2 ^ 52 + b.toNat
      let sum := s.boot.sum.getD ((List.range 48).map Config.measurement)
      let body := bytesLE 8 1 ++ bytesLE 8 Config.serial.toNat ++ (List.range 48).map Config.romHash ++ s.mem.getBytes (k + 0x40) 48 ++
        sum ++ bytesLE 8 s.bootstat ++ (List.range 97).map Config.publicKey ++ List.replicate 7 0
      let n := 0xE0 + sum.length
      t.mem.getBytes k n = body ∧ t.mem.getBytes (k + n) 96 = (List.range 96).map (Config.signature body) ∧
        (sum.length = 48 → n = 0x110) ∧ ∀ j, j < k ∨ k + n + 96 ≤ j → t.mem.get j = s.mem.get j) ∧
    (∀ flash : Bool, s.boot.recovery = true → s.boot.mailbox = 2 → s.boot.toFlash = flash → s.reg 0x80010 ≤ 2 ^ 26 → s.reg 0x80008 % 4096 = 0 →
      let o (k : Nat) : Out := exec (if flash then .evRecoveryLoadFlash k else .evRecoveryLoad k) s
      let bytes := s.mem.getBytes (2 * 2 ^ 52 + s.reg 0x80008) (s.reg 0x80010)
      let written (good : Bool) : Boot := if flash then { s.boot with flash := imageOf bytes good } else s.boot
      let cfg := (imageOf bytes true).cfg
      (Gives (o 3) fun t => t = { s with boot := { written false with mailbox := 3 } }) ∧
      (Gives (o 4) fun t => t = { s with boot := { s.boot with mailbox := 4 } }) ∧
      Gives (o 0) fun t => t.boot = { written true with
          kind := 2, fails := 0, alive := true, recovery := false, mailbox := 5, cfg := cfg, sum := (imageOf bytes true).sum, since := s.time } ∧
        t.vspill = cfg.vspill ∧ ∀ c ∈ cfg.mask, (t.thr (8 * c)).slot = .active) ∧
    (p < 2 → dark = false →
      let other := s.port (1 - p)
      Gives (exec (.evBridgeLinkUp p w) s) fun t => (∀ r, r ≠ p → t.port r = s.port r) ∧ SameBytes s t ∧
        (other.up = true ∧ other.serial ≠ w → (t.port p).up = false ∧ bit (t.reg 0x1C08) 3 = true ∧ t.bridgeBox = s.bridgeBox) ∧
        (other.up = false ∨ other.serial = w → (t.port p).up = true ∧ (t.port p).serial = w ∧ bit (t.reg 0x1C08) 3 = false ∧
          (Config.serial.toNat < w.toNat → t.bridgeBox = 0) ∧ (w.toNat < Config.serial.toNat → t.bridgeBox = 1))) ∧
    (p < 2 → dark = false → port.up = true → port.retraining = false →
      (flitOk bs = false → Gives (exec (.evBridgeFlitReceive p bs) s) fun t => t = { s with ports := t.ports, sent := t.sent } ∧
        (t.port p).discards = port.discards + 1 ∧ (t.port p).retraining = decide (15 ≤ port.discards) ∧ (t.port p).rxSeq = port.rxSeq ∧
        (port.waiting = [] → port.replay.length < 512 → ∃ f, t.sent = s.sent ++ [f] ∧ (t.port p).replay = port.replay ++ [f] ∧
          recNum f 0 8 % 16 = 6)) ∧
      (flitOk bs = true → bits h 4 12 ≠ (port.rxSeq + 1) % 4096 → Gives (exec (.evBridgeFlitReceive p bs) s) fun t =>
        t = { s with ports := t.ports, sent := t.sent } ∧ (t.port p).rxSeq = port.rxSeq) ∧
      (flitOk bs = true → bits h 4 12 = (port.rxSeq + 1) % 4096 → Gives (exec (.evBridgeFlitReceive p bs) s) fun t =>
        (t.port p).rxSeq = (port.rxSeq + 1) % 4096 ∧ (t.port p).discards = 0 ∧ (t.port p).lastGood = s.time ∧
        (h % 16 = 0 ∨ h % 16 = 3 ∨ h % 16 = 4 → t = { s with ports := t.ports, sent := t.sent }) ∧
        (h % 16 = 5 → t = { s with ports := t.ports, sent := t.sent, slack := t.slack }) ∧
        (h % 16 = 6 → ∃ l, t.sent = s.sent ++ l ++ if Config.linkReplay ((bs.drop 8).take 240) = true then (t.port p).replay else []) ∧
        (h % 16 = 2 → ∃ u : State, u = { s with ports := u.ports, sent := u.sent } ∧
          t = match Config.bridgeRequest ((bs.drop 8).take 240) with
            | some (store, x, data) => if s.tenantBridges (bits h 32 8) = true then u.serveRequest p (bits h 32 8) store x data else u
            | none => u))) ∧
    (∀ n x data, s.exported n x data.length = false → ∀ store, s.serveRequest p n store x data = s) ∧
    (∀ n x data, s.exported n x data.length = true →
      (badPart s.bad x data.length = none → (s.serveRequest p n true x data).mem.getBytes x data.length = data ∧
        ∀ k, k < x ∨ x + data.length ≤ k → (s.serveRequest p n true x data).mem.get k = s.mem.get k) ∧
      SameBytes s (s.serveRequest p n false x data)) ∧
    (port.up = true → port.retraining = true → Gives (exec (.evBridgeRetrain p) s) fun t => t = { s with ports := t.ports, sent := t.sent } ∧
      t.sent = s.sent ++ port.replay ∧ t.port p = { port with retraining := false, discards := 0 }) ∧
    (port.up = true → 100000000 ≤ s.time - port.lastGood → Gives (exec (.evBridgePortDown p) s) fun t => t = { s with ports := t.ports, hub := t.hub } ∧
      (p < 2 → dark = false → bit (t.reg 0x1C08) (p + 1) = false) ∧ (t.port p).up = false ∧ (t.port p).replay = [] ∧ (t.port p).waiting = [] ∧ ∀ r, r ≠ p → t.port r = s.port r)

namespace Sys2Proof.Claims

/-- A record reaches the completion ring of a queue that holds none back and has room: its bytes stand at the slot of CTAIL, and CTAIL
moves on. -/
def RecordLands (s t : State) (q n : Nat) (words : List Nat) : Prop :=
  let size := 2 ^ (s.reg (qdesc q n + 0x28) % 16)
  let tail := s.reg (qdesc q n + 0x30)
  (s.queue q n).pend = [] → 2 ≤ s.reg (qdesc q n + 0x28) % 16 → s.reg (qdesc q n + 0x28) % 16 ≤ 15 →
    (tail + 2 ^ 16 - s.reg (qdesc q n + 0x38)) % 2 ^ 16 < size →
    ∀ k m, s.ringKey q (s.reg (qdesc q n + 0x20) + 32 * (tail % size)) .write = .ok (k, m) → isLm k = false →
      t.reg (qdesc q n + 0x30) = (tail + 1) % 2 ^ 16 ∧ t.mem.getBytes k (8 * words.length) = words.flatMap (bytesLE 8)

/-- No access of the host, no record of a queue, no fault record, no trace record and no ending task waits for a quadrant or a page, and no
versioned store for room. -/
def NothingWaits (s : State) : Prop :=
  s.hostWaits = [] ∧ s.ends = [] ∧ (∀ x ∈ s.queues, (s.queue (x.1 / 64) (x.1 % 64)).pend = []) ∧ (∀ x ∈ s.qifs, (s.qif x.1).pend = []) ∧
    (∀ x ∈ s.captures, ∀ k, s.captures.find x.1 = some k → k.waits = []) ∧ ∀ j, (s.thr j).sleeps .verStore = false

/-- Domains of a rise that are off and not dark stand in the order of switch-on (R393). -/
def Asked (s t : State) (l : List Nat) : Prop :=
  ∀ e ∈ l, (s.domain e).powered = false → (s.domain e).dark = false → e ∈ t.power.switchQueue

/-- Every core but this one is as it was, and nothing else changes. -/
def OnlyCore (s t : State) (c : Nat) : Prop := t = { s with cores := t.cores } ∧ ∀ k, k ≠ c → t.core k = s.core k

/-- Since when all readings have been calm follows the readings that have come in (R398). -/
def Noted (s t : State) : Prop := t.power.calmSince = if t.calm then some (s.power.calmSince.getD s.time) else none

/-- A ratio one step lower, not below 1. -/
def stepDown (r : Nat) : Nat := if 1 < r then r - 1 else r

/-- A ratio one step higher, up to a limit. -/
def stepUp (r top : Nat) : Nat := if r < top then r + 1 else r

end Sys2Proof.Claims

/-- An idle quadrant whose limit permits begins to fall, from Q-ON with its lists spilled and not where the spill area does not hold them
(a fall is two events, log entry 83); in Q-RET its cores are in C2, in Q-GATE their windows hold zero and its domains are off, in Q-OFF,
which a table that names its HBM bars, its HBM is lost too; a quadrant deeper than its limit asks for its domains and rises once they
are on; a task that does not fit wakes a quadrant that would let it bind (as log entry 102 reads it); a wake brings up its quadrants as their domains come on, stays until their lowest service core has
issued, and ends with its misses counted; a Striker record goes to its ring and keeps its place until then; Tabor changes mode by
its threads' readiness, LPDDR6 enters self-refresh, cores enter C1 and C2 under their conditions; a domain's switch-on waits for
neighbours or ramps, proceeds after 5 us, and ends powered after 2 us; write-combined data reaches memory; BOUND moves one step. -/
def Obligations.PowerEvents : Prop :=
  ∀ (s : State) (q n c d g : Nat), q < 4 →
    let v := s.quad q
    let dom := s.domain d
    (v.lost = false →
      (v.st = .on ∨ v.st = .ret ∨ v.st = .gate → v.st.level < n → n ≤ 3 → n ≤ s.quadLimit q →
        s.quadIdleFor q (if n = 1 then 1000000 else if n = 2 then 100000000 else 10000000000) = true →
        (v.st = .on → s.spillHolds q = true) → (n = 3 → s.hbmNamed q = false) →
        Gives (exec (.evQuadrantIdleDown q n) s) fun t => t = { s with power := t.power, regions := t.regions } ∧
          t.regions = (if v.st = .on then (s.spillQuad q).regions else s.regions) ∧ (t.quad q).st = .falling v.st.level n ∧
          ∀ p, p < 4 → p ≠ q → t.quad p = s.quad p) ∧
      (v.st = .on → s.spillHolds q = false → Gives (exec (.evQuadrantIdleDown q n) s) fun t => t = s) ∧
      (∀ a m, v.st = .falling a m → m ≤ s.quadLimit q →
        let off := m == 3 && !s.hbmNamed q
        (Gives (exec (.evQuadrantIdleDown q n) s) fun t => t.regions = s.regions ∧
          (m = 1 → (t.quad q).st = .ret ∧ SameBytes s t ∧ t.threads = s.threads ∧
            ∀ k, k < 2048 → k / 512 = q → s.coreOff k = false → t.retention k = .c2) ∧
          (m = 2 ∨ m = 3 → (t.quad q).st = (if off then .off else .gate) ∧
            (∀ e, e < (if off then 28 else 20) → (t.domain (32 * q + e)).powered = false) ∧
            (∀ k o, k < 2048 → k / 512 = q → o < 2 ^ 24 → t.mem.get (winKey k o) = 0) ∧
            (off = true → ∀ o, o < 2 * 48 * 2 ^ 30 → t.mem.get (2 ^ 52 + 2 * q * 48 * 2 ^ 30 + o) = 0) ∧
            ∀ k, k < 2 ^ 54 → (off = true → k < 2 ^ 52) → t.mem.get k = s.mem.get k))) ∧
      (v.st = .on ∨ v.st = .ret ∨ v.st = .gate ∨ v.st = .off → s.quadLimit q < v.st.level → Gives (exec (.evQuadrantRaise q) s) fun t =>
        t = { s with power := t.power } ∧ (t.quad q).st = .rising v.st.level (s.quadLimit q) false ∧
          Asked s t (riseDomains q v.st.level (s.quadLimit q))) ∧
      (∀ k w, s.tasks.find g = some k → k.need = some w → w.tabor = false → s.wakeLets k q = true → v.st ≠ .on → v.waking = false →
        Gives (exec (.evBindWakeRequest g q) s) fun t => t = { s with power := t.power } ∧ (t.quad q).st = .rising v.st.level 0 true ∧
          Asked s t (riseDomains q v.st.level 0) ∧
          t.power.wakes = s.power.wakes ++ [⟨s.power.nextWake, 2 ^ q, v.st.level - 1, s.time, none, false⟩])) ∧
    (∀ a m, v.st = .rising a m false → m ≤ 3 →
      (s.risen q a m = true → NothingWaits s → Gives (exec (.evQuadrantRaise q) s) fun t => SameBytes s t ∧ (t.quad q).st.level = m ∧
        (t.quad q).waking = false) ∧
      (s.risen q a m = false → Gives (exec (.evQuadrantRaise q) s) fun t => t = s)) ∧
    (∀ w, (s.power.wakes.find? fun x => x.id == n) = some w →
      let out := exec (.evWakeComplete n) s
      (∀ a m, w.mask = 2 ^ q → v.lost = false → v.st = .rising a m true →
        (s.risen q a 0 = false → Gives out fun t => t = s) ∧
        (s.risen q a 0 = true → NothingWaits s → s.quadServed q = true → Gives out fun t => (t.quad q).st = .on ∧
          (t.quad q).awake = false ∧ w ∈ t.power.wakes ∧
          ∀ k o, k < 2048 → k / 512 = q → s.isService k = false → o < 2 ^ 24 → t.mem.get (winKey k o) = 0)) ∧
      (n < s.power.nextWake → (∀ p, p < 4 → bit w.mask p = true →
          (s.quad p).isOn = true ∧ (s.quad p).awake = true ∨ (s.quad p).lost = true ∧ (s.quad p).waking = false) →
        Gives out fun t => (∀ x ∈ t.power.wakes, x.id ≠ n) ∧
          t.power.misses = if (if w.cls = 0 then 15000 else if w.cls = 1 then 250000 else 2500000) < s.time - w.request
            then min 65535 (s.power.misses + 1) else s.power.misses)) ∧
    (∀ r rest, (s.striker.get Striker.init n).places = r :: rest → r.taken = false → Gives (exec (.evStrikerRecordDelivery n) s) fun t =>
      let places := (t.striker.get Striker.init n).places
      let freed := places = (r :: rest).filter fun x => x.seq != r.seq
      (∀ x ∈ rest, x.seq ≠ r.seq → x ∈ places) ∧ (r.wakeq = none → SameBytes s t ∧ freed) ∧
      ∀ p m, r.wakeq = some (p, m) → (freed ∨ ∃ h ∈ (t.queue p m).pend, h.kind = .posted n r.seq) ∧
        RecordLands s t p m [0x200000 + r.cls * 2 ^ 24 + r.mask * 2 ^ 28 + m * 2 ^ 32 + p * 2 ^ 38, r.seq + r.core * 2 ^ 32, r.score.toNat + (if r.fmt then 2 ^ 32 else 0), r.time]) ∧
    (s.power.gatedTo ≤ s.time → Gives (exec .evTaborModeSwitch s) fun t => if s.power.tnt = s.taborBusy
      then t = { s with power := { s.power with tnt := !s.power.tnt, gatedTo := s.time + 20000 } } else t = s) ∧
    ((∀ p, p < 4 → (s.quad p).st = .gate ∨ (s.quad p).st = .off) → 50000 ≤ s.time - s.power.lpddrLast →
      Gives (exec .evLpddr6SelfRefreshEntry s) fun t => t = { s with power := { s.power with selfRefresh := true } }) ∧
    ((s.core c).cstate = .c0 → (∀ i, i < 8 → (s.thr (8 * c + i)).slot = .unbound ∨ (s.thr (8 * c + i)).slot = .asleep) →
      64 * 640 ≤ (s.core c).quiet → Gives (exec (.evCoreC1Entry c) s) fun t =>
      OnlyCore s t c ∧ t.core c = { s.core c with cstate := .c1 }) ∧
    ((s.core c).cstate = .c0 ∨ (s.core c).cstate = .c1 → (∀ i, i < 8 → (s.bind (8 * c + i)).st < 2) → s.isService c = false →
      100000 ≤ s.time - (s.core c).idleSince → Gives (exec (.evCoreC2Entry c) s) fun t =>
        OnlyCore s t c ∧ t.core c = { s.core c with cstate := .c2 }) ∧
    (isDomain d = true → dom.powered = false → dom.dark = false → dom.rampFrom = none → s.power.switchQueue = [] → ∀ busy,
      Gives (exec (.evDomainSwitchOn d busy) s) fun t => t = { s with power := t.power } ∧ t.power.switchQueue = [d] ∧
        ((∀ p ∈ neighbours d, p ∉ busy) → (t.domain d).rampFrom = some s.time) ∧
        ((∃ p ∈ neighbours d, p ∈ busy) → (t.domain d).rampFrom = none ∧ (dom.waitFrom = none → (t.domain d).waitFrom = some s.time))) ∧
    (∀ x, dom.waitFrom = some x → 5000 ≤ s.time - x → Gives (exec (.evSwitchOnNeighbourTimeout d) s) fun t =>
      t = { s with power := t.power } ∧ (t.domain d).rampFrom = some s.time ∧ (t.domain d).waitFrom = none ∧
        ∀ p ∈ neighbours d, (s.domain p).heavy = true → (t.domain p).stretchTo = s.time + 2500) ∧
    (∀ x, dom.rampFrom = some x → dom.dark = false → 2000 ≤ s.time - x → Gives (exec (.evSwitchOnRampComplete d) s) fun t => SameBytes s t ∧
      (t.domain d).powered = true ∧ (t.domain d).rampFrom = none ∧ d ∉ t.power.switchQueue) ∧
    (Gives (exec (.evWcFlush g) s) fun t => (∀ e ∈ t.wc, e.2.1 / 64 ≠ g) ∧ (∀ e ∈ s.wc, e.2.1 / 64 ≠ g → e ∈ t.wc) ∧
      (∀ k, (∀ e ∈ s.wc, e.2.1 = k → k / 64 ≠ g) → t.mem.get k = s.mem.get k) ∧
      ∀ i k b τ, (s.wc.filter fun e => e.2.1 / 64 == g) = [(i, k, b, τ)] → isLm k = false → t.mem.get k = b) ∧
    (c < 0x800 ∨ 0xF00 ≤ c ∧ c < 0xF08 → ∀ up, Gives (exec (.evLmBoundaryTick c up) s) fun t => OnlyCore s t c ∧
      t.core c = { s.core c with bound := if up then (if (s.core c).bound < (s.core c).spmax then (s.core c).bound + 1 else (s.core c).bound)
        else if (s.core c).spmin < (s.core c).bound ∧ (s.core c).touched.getLsbD ((s.core c).bound - 1) = false then (s.core c).bound - 1
        else (s.core c).bound })

/-- A report in range selects its medium, one of a medium without a table the fallback row, low flow too, which ten seconds in range end;
a silent sensor selects it likewise;
TALLOW takes the hottest reading and the headroom to the junction limit; a stack's reading doubles its refresh above 85 and ends
it at 82, holds its throttling from 95 down to 92, and above 105 shuts the quadrant down to Q-GATE with its tasks ended, its HBM kept
(log entry 84); a cluster without
headroom, above its current limit or named for an excess of the package limit goes one step down each 10 us, and a throttled one,
after 1 ms of calm readings, one step up each ms; the handshake applies the ratio asked for; the slack decision moves one step by
the busy times of a superstep that both boxes have; the estimate is the weighted sum of free event counts and static power; the refit is
the recursive least squares of R399. That limits move wanted ratios is log entry 86, that the event names the superstep 87, which readings
count as calm, the end at 92 degrees and the clusters named by the event 109. -/
def Obligations.ThermalEvents : Prop :=
  ∀ (s : State) (cl tj stack : Nat) (cls : List Nat),
    let co := s.power.cooling
    let least (m : Nat) : Nat := if m = 1 then 1 else if m = 2 then 10 else 40
    let known (m : Nat) : Prop := m = 1 ∨ m = 2 ∨ m = 3
    let quad := stack / 2
    let limit : Int := if co.fallback then 95 else if co.medium = 1 then 100 else if co.medium = 2 ∨ co.medium = 3 then 105 else 95
    let current : Rat := if co.fallback then 100 else if co.medium = 1 then 180 else if co.medium = 2 then 260
      else if co.medium = 3 then 290 else 100
    let due (k ns : Nat) : Prop := ∀ x, s.power.lastChange.find k = some x → ns ≤ s.time - x
    (∀ m inlet flow, known m →
      let base : Cooling := { co with medium := m, inlet := inlet, flow := flow, lastReport := s.time }
      let res (c : Cooling) : Prop :=
        Gives (exec (.evCoolingReport m inlet flow) s) fun t => Noted s t ∧
          t = { s with power := { s.power with cooling := c, calmSince := t.power.calmSince } }
      (flow < least m → res { base with fallback := true, goodSince := none, flawed := true }) ∧
      (least m ≤ flow → co.flawed = false → res { base with fallback := false, goodSince := none }) ∧
      (least m ≤ flow → co.flawed = true → co.goodSince = none → res { base with goodSince := some s.time }) ∧
      (∀ x, least m ≤ flow → co.flawed = true → co.goodSince = some x →
        (s.time - x < 10000000000 → res base) ∧
        (10000000000 ≤ s.time - x → res { base with fallback := false, goodSince := none, flawed := false }))) ∧
    (∀ m inlet flow, ¬ known m → Gives (exec (.evCoolingReport m inlet flow) s) fun t => Noted s t ∧
      t = { s with power := { s.power with calmSince := t.power.calmSince, cooling :=
        { co with medium := m, inlet := inlet, flow := flow, lastReport := s.time, fallback := true, goodSince := none } } }) ∧
    (1000000000 ≤ s.time - co.lastReport → Gives (exec .evCoolingSensorTimeout s) fun t =>
      Noted s t ∧
        t = { s with power := { s.power with
          cooling := { co with fallback := true, goodSince := none, flawed := true }, calmSince := t.power.calmSince } }) ∧
    (cl < 128 → tj < 4096 → Gives (exec (.evTallowUpdate cl tj) s) fun t => Noted s t ∧
      t = { s with cores := t.cores, power := { s.power with calmSince := t.power.calmSince } } ∧
      (∀ c, c / 16 ≠ cl → t.core c = s.core c) ∧
      ∀ c, c / 16 = cl → (t.core c).tj = tj ∧
        ((t.core c).allow : Int) = if 16 * limit ≤ tj then 0 else min 1024 (1024 * (16 * limit - tj) / 320)) ∧
    (stack < 8 → ∀ temp : Int,
      (temp ≤ 105 → Gives (exec (.evHbmTempThreshold stack temp) s) fun t => t = { s with power := t.power } ∧
        Noted s t ∧ (95 < temp → stack ∈ t.power.hbmHold) ∧ (temp ≤ 92 → stack ∉ t.power.hbmHold) ∧
        t.power.hbmTemp.get 0 stack = temp ∧ t.power.hbmDouble.get false stack =
          (if 85 < temp then true else if temp ≤ 82 then false else s.power.hbmDouble.get false stack)) ∧
      (105 < temp → (s.quad quad).lost = false → Gives (exec (.evHbmTempThreshold stack temp) s) fun t =>
        (t.quad quad).hot = true ∧ (t.quad quad).st = .gate ∧ (∀ g, g ∈ s.tasks.map Prod.fst → (∃ k, s.tasks.find g = some k ∧
          ∃ c ∈ k.held, c < 0x800 ∧ c / 512 = quad) → t.tasks.find g = none) ∧
        ((∀ p ∈ s.tasks, ∀ c ∈ p.2.held, inQuad quad c = false) → s.power.wakes = [] →
          ∀ k, k < 2 ^ 54 → t.mem.get k = s.mem.get k)) ∧
      (95 < s.power.hbmTemp.get 0 stack → (∀ x, s.power.hbmStep.find stack = some x → 100000 ≤ s.time - x) →
        Gives (exec (.evHbmThermalStep stack) s) fun t => t = { s with power := t.power } ∧
          ∀ k, k < 128 → (k / 32 = quad → t.ratioOf k = stepDown (s.ratioOf k) ∧ k ∈ t.power.throttled) ∧
            (k / 32 ≠ quad → t.ratioOf k = s.ratioOf k))) ∧
    (Gives (exec (.evBellowsLimitStep cls) s) fun t => t = { s with power := t.power } ∧
      ∀ k, k ≤ 128 →
        let excess : Prop := (∃ c ∈ clusterCores k, (s.core c).allow = 0) ∨
          k < 128 ∧ current < s.power.amps.get 0 (logicDomain (16 * k)) ∨ k ∈ cls ∧ co.package < s.power.watts
        (excess → due k 10000 → t.ratioOf k = stepDown (s.ratioOf k) ∧ k ∈ t.power.throttled) ∧
          (¬ excess ∨ ¬ due k 10000 → t.ratioOf k = s.ratioOf k ∧ (k ∈ t.power.throttled ↔ k ∈ s.power.throttled))) ∧
    ((∀ x, s.power.calmSince = some x → s.time - x < 1000000) → Gives (exec (.evBellowsRaiseStep cls) s) fun t => t = s) ∧
    (∀ x, s.power.calmSince = some x → 1000000 ≤ s.time - x → Gives (exec (.evBellowsRaiseStep cls) s) fun t =>
      t = { s with power := t.power } ∧
      ∀ k, (k ∈ cls → k ≤ 128 → k ∈ s.power.throttled → due k 1000000 → t.ratioOf k = stepUp (s.ratioOf k) (s.topRatio k) ∧
          (s.topRatio k ≤ t.ratioOf k → k ∉ t.power.throttled)) ∧
        (k ∉ cls ∨ k ∉ s.power.throttled → t.ratioOf k = s.ratioOf k)) ∧
    (∀ n, s.power.want.find cl = some n →
      cl ∈ s.power.urgent ∨ (∀ p ∈ s.tasks, p.2.state = .stopping → ∀ c ∈ p.2.held, clusterOf c ≠ cl) →
      Gives (exec (.evClockRatioHandshake cl) s) fun t => t = { s with cores := t.cores, power := t.power } ∧ t.power.want.find cl = none ∧
        cl ∉ t.power.urgent ∧
        ∀ c, (c ∈ clusterCores cl → t.core c = { s.core c with ratio := n }) ∧ (c ∉ clusterCores cl → t.core c = s.core c)) ∧
    (∀ g k n own partner, s.tasks.find g = some k → (s.slack.get Slack.init g).ready n = some (own, partner) →
      (∀ c ∈ k.held, clusterOf c ≤ 128 ∧ clusterOf c ∉ s.power.throttled) →
      let last := (s.slack.get Slack.init g).last
      let out := exec (.evBridgeSlackDecision g n) s
      let moved (t : State) : Prop := t = { s with power := t.power, slack := t.slack } ∧ (t.slack.get Slack.init g).last = some n
      (∀ x, last = some x → n < x + 4 → Gives out fun t => t = { s with slack := t.slack } ∧ (t.slack.get Slack.init g).last = last) ∧
      ((∀ x, last = some x → x + 4 ≤ n) →
      (100 * own < 97 * partner → (∃ c ∈ k.held, 1 < s.ratioOf (clusterOf c)) → Gives out fun t => moved t ∧
        ∀ c ∈ k.held, t.ratioOf (clusterOf c) = stepDown (s.ratioOf (clusterOf c))) ∧
      (103 * partner < 100 * own → (∃ c ∈ k.held, s.ratioOf (clusterOf c) < s.topRatio (clusterOf c)) → Gives out fun t =>
        moved t ∧ ∀ c ∈ k.held, t.ratioOf (clusterOf c) = stepUp (s.ratioOf (clusterOf c)) (s.topRatio (clusterOf c))) ∧
      (97 * partner ≤ 100 * own → 100 * own ≤ 103 * partner → Gives out fun t =>
        t = { s with slack := t.slack } ∧ (t.slack.get Slack.init g).last = last))) ∧
    (cl < 128 → ∀ volt temp, Gives (exec (.evPowerEstimateTick cl volt temp) s) fun t => t = { s with free := t.free, power := t.power } ∧
      ∃ e : Nat → Nat, (∀ k, k < 8 → t.power.counts.get 0 (8 * (cl / 32) + k) = s.power.counts.get 0 (8 * (cl / 32) + k) + e k) ∧
        t.power.estimate.get 0 cl =
          ((List.range 8).map fun k => s.weight (cl / 32) k * (e k : Rat)).sum * 100000 + Config.staticPower cl volt temp) ∧
    (∀ q (y : Rat), q < 4 →
      let sum (f : Nat → Rat) : Rat := ((List.range 8).map f).sum
      let x (k : Nat) : Rat := (s.power.counts.get 0 (8 * q + k) : Nat)
      let gain (i : Nat) : Rat := sum (fun j => s.cov q i j * x j) / (98 / 100 + sum fun i => x i * sum fun j => s.cov q i j * x j)
      let clamp (a lo hi : Rat) : Rat := if a < lo then lo else if hi < a then hi else a
      Gives (exec (.evPowerWeightRefit q y) s) fun t => t = { s with power := t.power } ∧ ∀ k, k < 8 →
        t.weight q k = clamp (s.weight q k + gain k * (y - sum fun j => x j * s.weight q j)) (Config.factoryWeight q k / 2)
          (2 * Config.factoryWeight q k) ∧
        t.power.counts.get 0 (8 * q + k) = 0 ∧
        ∀ j, j < 8 → t.cov q k j = (s.cov q k j - gain k * sum fun i => x i * s.cov q i j) / (98 / 100))

namespace Sys2Proof.Claims

/-- An error record with these fields stands at TAIL of the error log, or is dropped and counted while the log is full (R477, R478). -/
def LogsError (s t : State) (kind domain unit tenant addr detail : Nat) : Prop :=
  let tail := s.reg 0x1C10
  let at_ := 0x2000 + 32 * (tail % 256)
  ((tail + 2 ^ 64 - s.reg 0x1C18) % 2 ^ 64 = 256 → t.reg 0x1C20 = (s.reg 0x1C20 + 1) % 2 ^ 64 ∧ t.reg 0x1C10 = tail) ∧
  ((tail + 2 ^ 64 - s.reg 0x1C18) % 2 ^ 64 ≠ 256 → t.reg 0x1C10 = (tail + 1) % 2 ^ 64 ∧
    t.reg at_ = (kind + domain * 2 ^ 8 + unit * 2 ^ 16 + tenant * 2 ^ 28) % 2 ^ 64 ∧ t.reg (at_ + 8) = addr % 2 ^ 64 ∧
    t.reg (at_ + 16) = detail % 2 ^ 64 ∧ t.reg (at_ + 24) = s.time % 2 ^ 64)

/-- Bytes of host and partner memory. -/
def keptAlways (k : Nat) : Prop := k / 2 ^ 52 = 2 ∨ k / 2 ^ 52 = 3

end Sys2Proof.Claims

/-- Once a second each domain with corrections writes its summary and counts afresh; patrol goes on from where it stood, reports an
uncorrectable word on its way and leaves it bad; a first or second failed phase is recorded, the third (which writes no record of its
own, log entry 89) makes the domain dark with its clocks at ratio 1, its tasks ended, or stops the device in a hub domain; a voltage below the minimum is logged with its TIME; a cold start that
succeeds leaves TIME 0, memory of the device zero (log entry 11), KIND 0, the image's boot configuration and its service threads active
(log entry 12), a warm start keeps DRAM, the island store and its version block, Tabor's LM, the error log and TIME with KIND 1 (log
entry 19), passes over steps 3 and 4 and refuses an image that is not the one whose measurement is retained; one that fails at a step
ends in the recovery loader at the third failure in a row, or in a later cold start that succeeds; the loss of the always-on domain
stops everything. -/
def Obligations.ErrorEvents : Prop :=
  ∀ (s : State) (d phase mv key fail : Nat),
    let dom := s.domain d
    let hub : Prop := d = 0x80 ∨ d = 0x83 ∨ d = 0x85
    let fabric : Prop := d < 128 ∧ 20 ≤ d % 32 ∧ d % 32 < 24
    let image := s.boot.flash
    let recovers (t : State) : Prop := t.boot.fails = 3 ∧ t.boot.alive = false ∧ t.boot.recovery = true ∧ t.boot.mailbox = 1 ∧ t.threads = []
    let runs (t : State) (kind : Nat) : Prop := t.boot.alive = true ∧ t.boot.kind = kind ∧ t.boot.fails = 0 ∧ t.boot.recovery = false ∧
      t.boot.mailbox = 1 ∧ t.boot.fatal = false ∧ t.boot.cfg = image.cfg ∧ t.boot.sum = image.sum ∧ t.tasks = [] ∧
      ∀ c ∈ image.cfg.mask, (t.thr (8 * c)).slot = .active ∧ (t.thr (8 * c)).status.priv = true
    let failed (step : Nat) (t : State) : Prop := (2 ≤ s.boot.fails → recovers t ∧ t.boot.lastStep = step) ∧ (recovers t ∨ runs t 0 ∧ t.time = 0)
    ((s.power.domains.map Prod.fst).Nodup → 1000000000 ≤ s.time - s.power.ceLast → Gives (exec .evCeSummaryTick s) fun t =>
      t = { s with hub := t.hub, msi := t.msi, power := t.power } ∧ t.power.ceLast = s.time ∧
        (∀ e, t.domain e = { s.domain e with corrected := 0 }) ∧
        ∀ v, (s.power.domains.filter fun p => p.2.corrected != 0) = [(d, v)] → LogsError s t 1 d 0xFFF 0 0 v.corrected) ∧
    (s.time - s.power.ceLast < 1000000000 → Gives (exec .evCeSummaryTick s) fun t => t = s) ∧
    (let m := s.patrolOf key
      let stood := s.power.patrol.get 0 m
      let passed (w : Nat) : Prop := s.patrolOf (8 * w) = m ∧ s.patrolled (8 * w) = true ∧
        if stood ≤ key / 8 then stood ≤ w ∧ w ≤ key / 8 else stood ≤ w ∨ w ≤ key / 8
      (s.patrolled key = true → Gives (exec (.evPatrolScrub key) s) fun t =>
        t = { s with hub := t.hub, msi := t.msi, power := { s.power with patrol := s.power.patrol.set m (key / 8 + 1) } } ∧
          ((∀ w ∈ s.bad, ¬ passed w) → t.hub = s.hub ∧ t.msi = s.msi) ∧
          ∀ w ∈ s.bad, passed w → (∀ x ∈ s.bad, passed x → x = w) → s.bad.Nodup →
            LogsError s t 3 (unitOfKey (8 * w)).2 (unitOfKey (8 * w)).1 0 (addrOfKey (8 * w)) 0) ∧
      (s.patrolled key = false → Gives (exec (.evPatrolScrub key) s) fun t => t = s)) ∧
    (isDomain d = true → phase < 24 → phase ∉ dom.failed → dom.dark = false →
      (dom.failed.length < 2 → Gives (exec (.evPhaseFailure d phase) s) fun t => t = { s with hub := t.hub, msi := t.msi, power := t.power } ∧
        t.domain d = { dom with failed := dom.failed ++ [phase] } ∧
        LogsError s t 5 d 0xFFF 0 0 (phase + 32 * (dom.failed.length + 1))) ∧
      (2 ≤ dom.failed.length → hub → Gives (exec (.evPhaseFailure d phase) s) fun t => t.boot.fatal = true ∧
        (s.tasks = [] → LogsError s t 7 d 0xFFF 0 0 1) ∧ ∀ q, q < 8 → t.resetting q = false ∧ bit (t.reg (qcb q)) 2 = true) ∧
      (2 ≤ dom.failed.length → ¬ hub → ¬ fabric → (∀ j w, (s.thr j).wait = some w →
          w.why ≠ .slPop ∧ w.why ≠ .slPush ∧ w.why ≠ .verLoad ∧ w.why ≠ .verStore) →
        Gives (exec (.evPhaseFailure d phase) s) fun t => (t.domain d).dark = true ∧
        (t.domain d).powered = false ∧ (t.domain d).failed = dom.failed ++ [phase] ∧ t.boot = s.boot ∧
        (s.tasks = [] → LogsError s t 6 d 0xFFF 0 0 0) ∧ (∀ k, k < 128 → logicDomain (16 * k) = d → (t.core (16 * k)).ratio = 1) ∧
        (∀ g k, s.tasks.find g = some k → (∃ c ∈ k.held, logicDomain c = d ∨ sramDomain c = d) → t.tasks.find g = none) ∧
        ∀ c o, c < 2 ^ 12 → logicDomain c = d ∨ sramDomain c = d → o < 2 ^ 24 → t.mem.get (winKey c o) = 0)) ∧
    (isDomain d = true → (mv < dom.vmin → Gives (exec (.evSupplyVoltageMinimum d mv) s) fun t => t = { s with power := t.power } ∧
        t.domain d = { dom with vmin := mv, vminTime := s.time } ∧ ∀ e, e ≠ d → t.domain e = s.domain e) ∧
      (dom.vmin ≤ mv → Gives (exec (.evSupplyVoltageMinimum d mv) s) fun t => t = s)) ∧
    (s.boot.recovery = false →
      (fail = 0 → image.good = true → Gives (exec (.evColdStart fail) s) fun t => runs t 0 ∧ t.time = 0 ∧
        ∀ k, (keptAlways k → t.mem.get k = s.mem.get k) ∧ (¬ keptAlways k → t.mem.get k = 0)) ∧
      (1 ≤ fail → fail ≤ 10 → image.good = true → Gives (exec (.evColdStart fail) s) (failed fail)) ∧
      (fail = 0 → image.good = false → Gives (exec (.evColdStart fail) s) (failed 6)) ∧
      (s.boot.alive = true → let same : Prop := image.good = true ∧ s.boot.sum = image.sum
        (fail = 0 ∨ fail = 3 ∨ fail = 4 → same → Gives (exec (.evWarmStart fail) s) fun t => runs t 1 ∧ t.time = s.time ∧
          (∀ k, (k < 2 ^ 54 ∨ k / 2 ^ 52 = 5 → t.mem.get k = s.mem.get k) ∧ (6 ≤ k / 2 ^ 52 → t.mem.get k = 0)) ∧
          (∀ c o, c < 0x1000 → o < 2 ^ 24 → t.mem.get (winKey c o) = if 0xF00 ≤ c ∧ o < 2 ^ 18 then s.mem.get (winKey c o) else 0) ∧
          t.region islandRegion = s.region islandRegion ∧
          ∀ o, 0x2000 ≤ o → o < 0x4000 → t.reg o = s.reg o) ∧
        (1 ≤ fail → fail ≤ 10 → fail ≠ 3 → fail ≠ 4 → same → Gives (exec (.evWarmStart fail) s) (failed fail)) ∧
        (fail = 0 → ¬ same → Gives (exec (.evWarmStart fail) s) (failed 6)))) ∧
    (Gives (exec .evAlwaysOnPowerLoss s) fun t => t.boot.alive = false ∧ t.threads = [] ∧ t.tasks = [] ∧ t.time = 0 ∧ t.power.misses = 0 ∧
      ∀ k, (keptAlways k → t.mem.get k = s.mem.get k) ∧ (¬ keptAlways k → t.mem.get k = 0))

/-- For every well-formed instruction, with every operand at every value its encoding admits, the words that encode gives it, laid out
as bytes in memory, decode to that instruction and to its length. -/
def Obligations.RoundTrip : Prop :=
  ∀ i : Instr, i.wellFormed = true →
    decodeBytes (wordBytes (encode i).1 (encode i).2.1 (encode i).2.2) = some (.instr i, encBytes i)

namespace Sys2Proof.Claims

/-- The turn of an ACTIVE thread whose core issues: no thread of the core has just yielded; it is not asked to stop, has no deferred trap
due and waits on no page. -/
def Issuing (s : State) (tid : Nat) (rest : List Turn) : Prop :=
  s.agenda = .thread tid :: rest ∧ (s.thr tid).slot = .active ∧ (s.thr tid).stopReq = false ∧
  (∀ j, j / 8 = tid / 8 → (s.thr j).yielded = false) ∧ ((s.thr tid).deferred = [] ∨ (s.thr tid).trap.trapped = true) ∧
  { s with agenda := rest, cur := tid }.issues (tid / 8) = true ∧ ∀ p ∈ s.pageWaits, p.tid = tid → p.engine.isSome = true

/-- The state in which the thread fetches: its turn, its core out of C1. -/
def fetching (s : State) (tid : Nat) (rest : List Turn) : State := State.clockCore { s with agenda := rest, cur := tid }

/-- What a fetch of a word asks of its bytes. -/
def fetchAsk : Ask := ⟨.exec, 1, false, false⟩

/-- A MAJ that Table 2-7 assigns. -/
def assigned : List Nat := [1, 2, 3, 4, 5, 6, 7, 8, 9, 10, 12, 13, 14, 15, 16, 17, 18, 20, 21, 22, 23, 24, 25, 28, 29, 30, 32, 33, 34, 35, 36,
  37, 38, 48, 49, 50, 51]

/-- Groups none of whose members has a longer form, groups whose only longer form is a literal's, groups whose only longer form is the
extended one, and the two of loads and stores with both. -/
def plainOnly : List Nat := [3, 4, 10, 14, 15, 16, 18, 20, 21, 23, 24, 25, 28, 29, 30, 32, 35, 36, 37, 48, 49, 50, 51]
def literalOnly : List Nat := [1, 2, 5, 6, 7]
def extendedOnly : List Nat := [8, 9, 17]

end Sys2Proof.Claims

/-- At the turn of an ACTIVE thread whose core issues, with no thread of the core having just yielded, that is not asked to stop, has no
deferred trap due and waits on no page, with no uncorrectable word known, the step is exec of the instruction fetched: for any length
as fetch reads its words, and for one word written out, with the four bytes at the aligned PC below the windows, outside the patch
slots of its code. What the step adds is the core's leaving C1, the note that a woken quadrant's service core has issued and the marks
of the walk; a patch slot overlapped in part is excluded. -/
def Obligations.StepRunsDecoded : Prop :=
  ∀ (s : State) (tid : Nat) (rest : List Turn) (i : Instr),
    let b := { s with agenda := rest, cur := tid }
    let u := fetching s tid rest
    u.core (tid / 8) = { s.core (tid / 8) with cstate := if (s.core (tid / 8)).cstate = .c1 then .c0 else (s.core (tid / 8)).cstate, quiet := 0 } ∧
    u = { b with cores := u.cores, power := u.power } ∧ (b.leads (tid / 8) = false → u.power = s.power) ∧
    (Issuing s tid rest → s.bad = [] →
    (∀ v w x1 x2, u.fetch = .ok (v, w, x1, x2) → decode w x1 x2 = .instr i → v.patchSplit (lenBytes w) (hasLit w) = false → v.bad = [] →
      step s = exec i v) ∧
    ∀ ad, (s.thr tid).pc.toNat % 4 = 0 → (s.thr tid).pc.toNat < 0x7F0000000000 → (s.thr tid).slotUnit = none →
      (s.thr tid).pc.toNat ∉ s.ownSlots tid → u.check u.meWho fetchAsk (s.thr tid).pc 4 = .ok ad → (u.bytesAt ad.spans).length = 4 →
      decodeBytes (u.bytesAt ad.spans) = some (.instr i, 4) →
      let v := u.admitPages u.meWho ad
      v.patchSplit 4 false = false → v.bad = [] → step s = exec i v)

/-- What decode refuses and how a step traps it. A MAJ that is not assigned is ILLEGAL with EVAL 0 at any length; a length that no member of
the group takes has EVAL 5, or 4 where it is a literal that none takes; with a nonzero field that TRAP or PRIV leaves unused, or a
selector of theirs that names no member, EVAL 0; decode gives no other EVAL than 0, 4, 5 and 6, and what it accepts is well formed and
encodes to the words it was read from. At the turn of an issuing thread such a word traps ILLEGAL with its EVAL; before that, a PC not
aligned to 4 traps MISALIGN, one in the windows or beyond ACCESS, each with the PC as EVAL; whatever trap the fetch of a word finds is
taken, as the checks of the first word or of the one behind it give cause and EVAL, a second word at the windows' base ACCESS with its
address; nothing of an instruction takes effect. -/
def Obligations.DecodeRefusals : Prop :=
  (∀ w x1 x2 : Nat,
    let maj := w / 4 % 64
    let len := w % 4
    let gives (e : Nat) : Prop := decode w x1 x2 = .illegal e
    (maj ∉ assigned → gives 0) ∧
    (maj ∈ plainOnly → (len = 1 → gives 4) ∧ (2 ≤ len → gives 5)) ∧ (maj ∈ literalOnly → 2 ≤ len → gives 5) ∧
    (maj ∈ extendedOnly → len % 2 = 1 → gives 4) ∧ (maj = 12 ∨ maj = 13 → len = 3 → gives 4) ∧
    (maj = 33 ∨ maj = 34 → len ≤ 1 → gives 5) ∧ (maj = 34 → len = 3 → gives 4) ∧
    (len = 0 → maj = 49 → w / 2 ^ 29 % 8 ≠ 0 ∨ 4 ≤ w / 2 ^ 23 % 64 ∨ w / 2 ^ 8 % 2 ^ 15 ≠ 0 → gives 0) ∧
    (len = 0 → maj = 50 → w / 2 ^ 29 % 8 ≠ 0 ∨ 3 ≤ w / 2 ^ 23 % 64 ∨ (w / 2 ^ 23 % 64 ≤ 1 ∧ w / 2 ^ 8 % 2 ^ 15 ≠ 0) → gives 0) ∧
    (∀ e, gives e → e = 0 ∨ e = 4 ∨ e = 5 ∨ e = 6) ∧
    (∀ i, w < 2 ^ 32 → x1 < 2 ^ 64 → x2 < 2 ^ 64 → decode w x1 x2 = .instr i →
      i.wellFormed = true ∧ encode i = (w, if len = 0 then 0 else x1, if len = 3 then x2 else 0))) ∧
  ∀ (s : State) (tid : Nat) (rest : List Turn), Issuing s tid rest → s.bad = [] →
    let u := fetching s tid rest
    let pc := (s.thr tid).pc
    let open4 : Prop := pc.toNat % 4 = 0 ∧ pc.toNat < 0x7F0000000000
    (CanTrap u → pc.toNat % 4 ≠ 0 → Traps u (step s) 0x03 pc) ∧
    (CanTrap u → pc.toNat % 4 = 0 → 0x7F0000000000 ≤ pc.toNat → Traps u (step s) 0x08 pc) ∧
    (∀ c e, CanTrap u → u.fetch = .error (.trap c e) → Traps u (step s) c e) ∧
    (∀ c e, CanTrap u → open4 → u.check u.meWho fetchAsk pc 4 = .error (.trap c e) → Traps u (step s) c e) ∧
    (∀ ad, CanTrap u → open4 → (s.thr tid).slotUnit = none → u.check u.meWho fetchAsk pc 4 = .ok ad → numOf (u.bytesAt ad.spans) % 4 ≠ 0 →
      let v := u.admitPages u.meWho ad
      (v.bad = [] → pc.toNat + 4 = 0x7F0000000000 → Traps u (step s) 0x08 (pc + 4)) ∧
      (∀ c e, v.bad = [] → pc.toNat + 4 < 0x7F0000000000 → v.check v.meWho fetchAsk (pc + 4) 4 = .error (.trap c e) → Traps u (step s) c e)) ∧
    ∀ v w x1 x2 e, u.fetch = .ok (v, w, x1, x2) → decode w x1 x2 = .illegal e → CanTrap v → Traps v (step s) 0x01 (BitVec.ofNat 64 e)

/-- The worked words of spec/, among them ADD a0, a1, a2 as 0x00316A04, LD.ACQ.DV a0, 8(sp) as 0x46044A30, BNE a0, zero, .-16 as
0xFF840A20, FMAC.S a0, a1, a2, a3 as 0xC0B16A46 with 0xD, VERST.REL.DV v3, a1, 0(a0) as 0x80AD4380, CPY1 a0, a1, a2, a3, a4 as
0x00016A86 with 0x39AC and MIGR a0, #0, #64 as 0x0080009A with 0x1407E, decode to these instructions. -/
def Obligations.DecodedWords : Prop :=
  decode 0x00316A04 0 0 = .instr (.add 10 11 12) ∧ decode 0x46044A30 0 0 = .instr (.ld 10 2 1 (.acq .dv)) ∧
  decode 0x600D6A08 0 0 = .instr (.srai 10 11 3) ∧ decode 0xFF840A20 0 0 = .instr (.bne 10 0 (-4)) ∧
  decode 0x00002028 0 0 = .instr (.jalr 0 1 0) ∧ decode 0x00800AC0 0 0 = .instr (.csrr 10 0x020) ∧
  decode 0x00040B0C 0 0 = .instr (.ldk 11 1) ∧ decode 0x00000A19 0x7F0125100000 0 = .instr (.liLit 10 0x7F0125100000) ∧
  decode 0xD8816A48 0 0 = .instr (.fcvt .s .l .dyn 10 11) ∧ decode 0xC0B16A46 0xD 0 = .instr (.fmacExt .s .dyn 10 11 12 13) ∧
  decode 0x03232154 0 0 = .instr (.vfadd .fp32 1 2 3 2) ∧ decode 0x04CF0170 0 0 = .instr (.tloads 1 12 15) ∧
  decode 0x02251674 0 0 = .instr (.taccout 6 2 1 5 0) ∧ decode 0x80AD4380 0 0 = .instr (.verst 3 10 11 (.rel .dv)) ∧
  decode 0xF32D8A38 0 0 = .instr (.amocas 10 12 11 true (.ar .dv)) ∧ decode 0x0084123C 0 0 = .instr (.fencex .dv .ar .ls .mx) ∧
  decode 0x00016A86 0x39AC 0 = .instr (.cpy1 10 11 12 13 14) ∧ decode 0x00316A8A 0xD20 0 = .instr (.collred .sum .fp32 false 10 11 12 13 0) ∧
  decode 0x000D6A8C 0 0 = .instr (.msend 10 3 11) ∧ decode 0x00AD8090 0 0 = .instr (.waita 0 11 12) ∧
  decode 0x00800494 0 0 = .instr (.slpop 4) ∧ decode 0x0080009A 0x1407E 0 = .instr (.migr 10 false 63) ∧
  decode 0x010000C4 0 0 = .instr .threadDone ∧ decode 0x012D40C8 0 0 = .instr (.tlbinv 10 11)

/-- After a cold start: no task, gang, packet, capture, fault or wait stands and no word is listed in memory, whose form is canonical. Of
all thread slots those numbered 0 of the service cores are ACTIVE in supervisor mode and every other is UNBOUND; every CSR of every
slot reads the reset value of its table (but TID, CORE and ISLAND, which R509 fixes, and CLKRATIO.DOMAIN, log entry 129). Every core
has no key, no in-box, empty queues, links with 16 credits and an LM boundary of one step; every bind record but the service threads' is
FREE; every quadrant is in Q-ON and every domain powered; every hub word reads the reset value of its table. The service threads and
their records are log entry 12, VMIN 0xFFFF is log entry 81, the masked MSI-X vectors are log entry 27. The zeros of x, v, m and the PC of
a service thread, and what unlisted memory reads as, are the model's choices (log entries 10, 11 and 12) and are not stated here. -/
def Obligations.ResetState : Prop :=
  let s := State.reset
  let service : List Nat := [0x000, 0x200, 0x400, 0x600, 0xF07]
  s.mem.wf = true ∧ s.mem = [] ∧ s.tasks = [] ∧ s.offers = [] ∧ s.pageWaits = [] ∧ s.captures = [] ∧ s.bad = [] ∧ s.wc = [] ∧ s.ends = [] ∧
  s.hostWaits = [] ∧ s.drops = [] ∧ s.msi = [] ∧ s.sent = [] ∧ s.time = 0 ∧
  (∀ c, s.isService c = true ↔ c ∈ service) ∧
  (∀ tid, (s.thr tid).slot = if tid % 8 = 0 ∧ tid / 8 ∈ service then .active else .unbound) ∧
  (∀ tid, (s.thr tid).deferred = [] ∧ (s.thr tid).wait = none ∧ (s.thr tid).stopReq = false ∧ (s.thr tid).sense = 0) ∧
  (∀ tid n, csrExists n = true →
    let u : State := { s with cur := tid }
    let runs := tid % 8 = 0 ∧ tid / 8 ∈ service
    u.csrRead n =
      if n = 0x003 then 0x9E3779B97F4A7C15
      else if n = 0x010 then low (tid % 8 : Nat)
      else if n = 0x011 then low (tid / 8 : Nat)
      else if n = 0x016 then low (bitOf (isTabor (tid / 8)))
      else if n = 0x030 then 1024
      else if n = 0x031 then low (32 + 256 * logicDomain (tid / 8) : Nat)
      else if n = 0x060 then (if runs then 4 else 0)
      else if n = 0x070 then 0x7FFFFFFF
      else if n = 0x071 then 2
      else if n = 0x080 then 0x10101
      else if 0x110 ≤ n ∧ n < 0x120 then 0x3F800000
      else if n = 0x130 then 10000000
      else if n = 0x806 then (if runs then 4 else 0) + if tid / 8 ∈ service then 512 else 0
      else if n = 0x810 then 8
      else if n = 0x850 then 0x18181818
      else 0) ∧
  (∀ c, (s.core c).key = none ∧ (s.core c).inboxSize = 0 ∧ (s.core c).inboxHead = 0 ∧ (s.core c).inboxTail = 0 ∧ (s.core c).mx.queue = [] ∧
    (s.core c).copies = [] ∧ (s.core c).colls = [] ∧ (s.core c).touched = 0 ∧ (s.core c).tlb = [] ∧ s.clusterTlbs.get [] c = [] ∧
    (s.core c).link = ⟨[], [], 16, 0, 0, 0, false⟩) ∧
  (∀ tid, s.bind tid = if tid % 8 = 0 ∧ tid / 8 ∈ service then Vector.ofFn fun i => if i = 0 then 2 else 0 else Vector.replicate 5 0) ∧
  (∀ r, (s.region r).grans = [] ∧ (s.region r).floor = 0 ∧ (s.region r).tag = none) ∧
  (∀ q n, (s.queue q n).next = 0 ∧ (s.queue q n).running = [] ∧ (s.queue q n).finished = [] ∧ (s.queue q n).watch = [] ∧
    (s.queue q n).pend = [] ∧ (s.queue q n).capture = none) ∧
  (∀ q, (s.qif q).seq = 1 ∧ (s.qif q).pend = [] ∧ (s.qif q).resetting = false) ∧
  (∀ t, (s.striker.get Striker.init t).places = [] ∧ (s.striker.get Striker.init t).next = 1) ∧
  (∀ p, (s.port p).up = false ∧ (s.port p).replay = [] ∧ (s.port p).waiting = []) ∧
  (∀ q, q < 4 → (s.quad q).st = .on ∧ (s.quad q).floor = 3 ∧ (s.quad q).dark = false) ∧
  (∀ d, (s.domain d).powered = true ∧ (s.domain d).dark = false ∧ (s.domain d).failed = []) ∧
  (∀ off, s.hubWord off =
    if 0x100 ≤ off ∧ off < 0x300 ∧ off % 64 = 0 then 0x100000
    else if off = 0x1C38 then 0xFFFF
    else if 0x4000 ≤ off ∧ off < 0x5000 ∧ off % 16 = 8 then 2 ^ 32
    else if 0x10000 ≤ off ∧ off < 0x50000 ∧ off % 0x8000 = 0 then (off - 0x10000) / 0x8000
    else if off = 0x80000 then 1
    else 0) ∧
  s.boot.kind = 0 ∧ s.boot.fails = 0 ∧ s.boot.recovery = false ∧ s.boot.fatal = false ∧ s.power.misses = 0 ∧ s.power.tnt = false ∧
  s.power.wakes = []

/-- Every step keeps memory in its canonical form, whatever the turn of the agenda is (an instruction, an event of the part, time, the host,
a soft error): cells in rising order of their keys, no byte that reads as an unlisted one does. That State.reset has the form is in
ResetState. -/
def Obligations.StepKeepsMemory : Prop :=
  ∀ s t : State, s.mem.wf = true → step s = .next t → t.mem.wf = true
end

