-- ==== Sys2Proof/Laws/Encode.lean ====
section
/-!
SUPPORT. What the decoder's field readers give on a word that the encoder lays out, once per layout, and the code of every named
operand read back.
-/
namespace Sys2Proof

/-! ## Codes of named operands -/

@[simp] theorem scopeOf_code (s : Scope) : scopeOf s.code = s := by cases s <;> rfl
@[simp] theorem rmOf_code (r : Rm) : rmOf r.code = r := by cases r <;> rfl
@[simp] theorem precOf_code (p : Prec) : precOf p.code = p := by cases p <;> rfl
@[simp] theorem tyOf_code (t : Ty) : tyOf t.code = t := by cases t <;> rfl
@[simp] theorem esizeOf_code (e : ESize) : esizeOf e.code = e := by cases e <;> rfl
@[simp] theorem numOf_code (n : NumCode) : numOf n.code = n := by cases n <;> rfl
@[simp] theorem pathOf_code (p : Path) : pathOf p.code = p := by cases p <;> rfl
@[simp] theorem kindOf_code (k : FenceKind) : kindOf k.code = k := by cases k <;> rfl
@[simp] theorem collOpOf_code (o : CollOp) : collOpOf o.code = o := by cases o <;> rfl
@[simp] theorem collFmtOf_code (f : CollFmt) : collFmtOf f.code = f := by cases f <;> rfl
@[simp] theorem osOf_code (o : Os) : osOf o.code = o := by
  cases o with
  | rlx => rfl
  | acq s => cases s <;> rfl
  | rel s => cases s <;> rfl
  | ar s => cases s <;> rfl

theorem Scope.code_lt (s : Scope) : s.code < 5 := by cases s <;> decide
theorem Rm.code_lt (r : Rm) : r.code < 7 := by cases r <;> decide
theorem Prec.code_lt (p : Prec) : p.code < 4 := by cases p <;> decide
theorem Ty.code_lt (t : Ty) : t.code < 7 := by cases t <;> decide
theorem ESize.code_lt (e : ESize) : e.code < 4 := by cases e <;> decide
theorem NumCode.code_lt (n : NumCode) : n.code < 8 := by cases n <;> decide
theorem Path.code_lt (p : Path) : p.code < 6 := by cases p <;> decide
theorem FenceKind.code_lt (k : FenceKind) : k.code < 4 := by cases k <;> decide
theorem CollOp.code_lt (o : CollOp) : o.code < 6 := by cases o <;> decide
theorem CollFmt.code_lt (f : CollFmt) : f.code < 8 := by cases f <;> decide
theorem b2n_lt (b : Bool) : b2n b < 2 := by cases b <;> decide
theorem Os.code_lt (o : Os) : o.code < 16 := by
  cases o with
  | rlx => decide
  | acq s => cases s <;> decide
  | rel s => cases s <;> decide
  | ar s => cases s <;> decide

theorem Os.code_of_loadOk {o : Os} (h : o.loadOk = true) : o.code ≤ 5 := by
  cases o with
  | rlx => decide
  | acq s => cases s <;> decide
  | rel s => cases h
  | ar s => cases h

theorem Os.code_of_storeOk {o : Os} (h : o.storeOk = true) : o.code = 0 ∨ (6 ≤ o.code ∧ o.code ≤ 10) := by
  cases o with
  | rlx => decide
  | acq s => cases h
  | rel s => cases s <;> decide
  | ar s => cases h

theorem Ty.code_of_isInt {t : Ty} (h : t.isInt = true) : t.code ≤ 3 := by cases t <;> first | decide | cases h
theorem Ty.code_of_float {t : Ty} (h : (!t.isInt) = true) : 4 ≤ t.code := by cases t <;> first | decide | cases h
theorem Ty.code_of_wide {t : Ty} (h : (t == .bf16 || t == .fp32) = true) : t.code = 4 ∨ t.code = 6 := by
  cases t <;> first | decide | cases h
theorem Ty.code_ne {t u : Ty} (h : (t != u) = true) : u.code ≠ t.code := by
  cases t <;> cases u <;> first | decide | cases h
theorem Path.code_ne {p q : Path} (h : (p != q) = true) : p.code ≠ q.code := by
  cases p <;> cases q <;> first | decide | cases h
theorem NumCode.code_ne {d s : NumCode} (h : (d != s && !(d.isInt && s.isInt)) = true) :
    d.code ≠ s.code ∧ ¬ (4 ≤ d.code ∧ 4 ≤ s.code) := by
  cases d <;> cases s <;> first | decide | cases h
theorem CollOp.code_fmt {o : CollOp} {f : CollFmt} (h : (!(o.isBitwise && f.isFloat)) = true) : o.code ≤ 2 ∨ f.code ≤ 3 := by
  cases o <;> cases f <;> first | decide | cases h

/-! ## Conditions on operands -/

theorem fin_ne {n : Nat} {x : Fin (n + 1)} (h : (x != 0) = true) : x.val ≠ 0 := by
  intro e
  have : x = 0 := Fin.ext e
  simp [this] at h

theorem bv_ne {n : Nat} {x : BitVec n} (h : (x != 0) = true) : x.toNat ≠ 0 := by
  intro e
  have : x = 0 := BitVec.eq_of_toNat_eq e
  simp [this] at h

theorem reg_or {x y : XReg} (h : (x != 0 || y == 0) = true) : x.val ≠ 0 ∨ y.val = 0 := by
  rcases Bool.or_eq_true _ _ ▸ h with h | h
  · exact .inl (fin_ne h)
  · exact .inr (by simp only [beq_iff_eq] at h; rw [h]; rfl)

theorem migr_ok {x : XReg} {b : Bool} {n : Nat} (h : (x != 0 && decide (n + 1 ≤ (if b then 8 else 2048))) = true) :
    x.val ≠ 0 ∧ n + 1 ≤ (if b then 8 else 2048) := by
  rw [Bool.and_eq_true, decide_eq_true_iff] at h
  exact ⟨fin_ne h.1, h.2⟩

/-! ## Reading one bit -/

theorem bit_true {w i : Nat} (h : w / 2 ^ i % 2 = 1) : bit w i = true := by simp [bit, h]
theorem bit_false {w i : Nat} (h : w / 2 ^ i % 2 = 0) : bit w i = false := by simp [bit, h]
theorem bit_of {w i : Nat} {b : Bool} (h : w / 2 ^ i % 2 = b2n b) : bit w i = b := by cases b <;> simp_all [bit, b2n]
theorem fin_ofNat {n : Nat} (x : Fin (n + 1)) : Fin.ofNat (n + 1) x.val = x := Fin.ext (Nat.mod_eq_of_lt x.isLt)
theorem bv_ofNat {n : Nat} (x : BitVec n) : BitVec.ofNat n x.toNat = x := by simp
theorem lt_lit {n m : Nat} (h : Nat.ble (n + 1) m = true) : n < m := Nat.le_of_ble_eq_true h
theorem beq_true {n : Nat} (h : n = 1) : (n == 1) = true := by simp [h]
theorem beq_false {n : Nat} (h : n = 0) : (n == 1) = false := by simp [h]
theorem beq_b2n {n : Nat} {b : Bool} (h : n = b2n b) : (n == 1) = b := by cases b <;> simp_all [b2n]

end Sys2Proof
end

