-- ==== Sys2Proof/Laws/Memory.lean ====
section
/-!
SUPPORT. Memory: what each operation does to a byte, and that each keeps the canonical form.
-/
namespace Sys2Proof.Machine

/-! ## Reading a byte -/

@[simp] theorem Memory.get_nil (k : Nat) : Memory.get [] k = 0 := rfl

@[simp] theorem Memory.get_cons (c : Nat × Byte) (m : Memory) (k : Nat) :
    Memory.get (c :: m) k = if c.1 = k then c.2 else Memory.get m k := rfl

theorem Memory.get_absent {m : Memory} {k : Nat} (h : ∀ c ∈ m, c.1 ≠ k) : Memory.get m k = 0 := by
  induction m with
  | nil => rfl
  | cons c m ih =>
    rw [Memory.get_cons, if_neg (h c (by simp))]
    exact ih fun d hd => h d (by simp [hd])

theorem Memory.get_append_right {m m' : Memory} {k : Nat} (h : ∀ c ∈ m, c.1 ≠ k) :
    Memory.get (m ++ m') k = Memory.get m' k := by
  induction m with
  | nil => rfl
  | cons c m ih =>
    rw [List.cons_append, Memory.get_cons, if_neg (h c (by simp))]
    exact ih fun d hd => h d (by simp [hd])

theorem Memory.get_append_left {m m' : Memory} {k : Nat} (h : ∀ c ∈ m', c.1 ≠ k) :
    Memory.get (m ++ m') k = Memory.get m k := by
  induction m with
  | nil => exact Memory.get_absent h
  | cons c m ih =>
    rw [List.cons_append, Memory.get_cons, Memory.get_cons, ih]

/-- A filter by key keeps the bytes of the keys it keeps. -/
theorem Memory.get_filter (m : Memory) (p : Nat → Bool) (k : Nat) :
    Memory.get (m.filter fun c => p c.1) k = if p k then Memory.get m k else 0 := by
  induction m with
  | nil => simp
  | cons c m ih =>
    rw [List.filter_cons]
    by_cases hc : c.1 = k
    · subst hc
      cases hp : p c.1 <;> simp [hp, ih]
    · cases hp : p c.1 <;> simp [hc, ih]

theorem cellsOf_keys (bs : List Byte) (i : Nat) : ∀ c ∈ cellsOf i bs, i ≤ c.1 ∧ c.1 < i + bs.length := by
  induction bs generalizing i with
  | nil => simp [cellsOf]
  | cons b bs ih =>
    intro c hc
    simp only [cellsOf] at hc
    split at hc
    · have := ih (i + 1) c hc
      simp only [List.length_cons]
      omega
    · rcases List.mem_cons.mp hc with rfl | hc
      · simp
      · have := ih (i + 1) c hc
        simp only [List.length_cons]
        omega

theorem Memory.get_cellsOf (bs : List Byte) (i k : Nat) :
    Memory.get (cellsOf i bs) k = if i ≤ k ∧ k < i + bs.length then bs.getD (k - i) 0 else 0 := by
  by_cases h : i ≤ k ∧ k < i + bs.length
  · rw [if_pos h]
    induction bs generalizing i with
    | nil => simp at h; omega
    | cons b bs ih =>
      have hlen : (b :: bs).length = bs.length + 1 := rfl
      by_cases hk : i = k
      · subst hk
        simp only [cellsOf, Nat.sub_self, List.getD_cons_zero]
        split
        · rename_i hb
          rw [hb]
          exact Memory.get_absent fun c hc => by have := cellsOf_keys bs (i + 1) c hc; omega
        · simp
      · have h' : i + 1 ≤ k ∧ k < i + 1 + bs.length := by omega
        have hs : k - i = (k - (i + 1)) + 1 := by omega
        rw [hs, List.getD_cons_succ, ← ih (i + 1) h']
        simp only [cellsOf]
        split
        · rfl
        · simp [hk]
  · rw [if_neg h]
    exact Memory.get_absent fun c hc => by have := cellsOf_keys bs i c hc; omega

/-- A write stores its bytes and leaves every other byte. -/
theorem Memory.get_putBytes (m : Memory) (i : Nat) (bs : List Byte) (k : Nat) :
    (m.putBytes i bs).get k = if i ≤ k ∧ k < i + bs.length then bs.getD (k - i) 0 else m.get k := by
  unfold Memory.putBytes
  by_cases h1 : k < i
  · rw [if_neg (by omega), Memory.get_append_left, Memory.get_filter m (fun n => decide (n < i)) k]
    · simp [h1]
    · intro c hc
      rcases List.mem_append.mp hc with hc | hc
      · have := cellsOf_keys bs i c hc
        omega
      · have := (List.mem_filter.mp hc).2
        simp at this
        omega
  · rw [Memory.get_append_right (fun c hc => by have := (List.mem_filter.mp hc).2; simp at this; omega)]
    by_cases h2 : k < i + bs.length
    · rw [if_pos (by omega), Memory.get_append_left, Memory.get_cellsOf, if_pos (by omega)]
      intro c hc
      have := (List.mem_filter.mp hc).2
      simp at this
      omega
    · rw [if_neg (by omega), Memory.get_append_right
        (fun c hc => by have := cellsOf_keys bs i c hc; omega),
        Memory.get_filter m (fun n => decide (i + bs.length ≤ n)) k]
      simp [show i + bs.length ≤ k by omega]

theorem Memory.get_putBytes_out {m : Memory} {i : Nat} {bs : List Byte} {k : Nat} (h : k < i ∨ i + bs.length ≤ k) :
    (m.putBytes i bs).get k = m.get k := by
  rw [Memory.get_putBytes, if_neg (by omega)]

@[simp] theorem Memory.getBytes_length (m : Memory) (i n : Nat) : (m.getBytes i n).length = n := by
  induction n generalizing i with
  | zero => rfl
  | succ n ih => simp [Memory.getBytes, ih]

/-- Reading back what was written. -/
theorem Memory.getBytes_putBytes (m : Memory) (i : Nat) (bs : List Byte) : (m.putBytes i bs).getBytes i bs.length = bs := by
  have h : ∀ (n j : Nat), j + n ≤ bs.length →
      (m.putBytes i bs).getBytes (i + j) n = (bs.drop j).take n := by
    intro n
    induction n with
    | zero => simp [Memory.getBytes]
    | succ n ih =>
      intro j hj
      have hj' : j < bs.length := by omega
      rw [Memory.getBytes, Memory.get_putBytes, if_pos (by omega), Nat.add_assoc, ih (j + 1) (by omega),
        List.drop_eq_getElem_cons hj', List.take_succ_cons]
      simp [hj']
  simpa using h bs.length 0 (by omega)

theorem Memory.getBytes_congr {m m' : Memory} {i n : Nat} (h : ∀ k, i ≤ k → k < i + n → m'.get k = m.get k) :
    m'.getBytes i n = m.getBytes i n := by
  induction n generalizing i with
  | zero => rfl
  | succ n ih =>
    rw [Memory.getBytes, Memory.getBytes, h i (by omega) (by omega), ih fun k h1 h2 => h k (by omega) (by omega)]

/-! ## The canonical form -/

theorem Memory.wfFrom_iff (lo : Option Nat) (m : Memory) :
    Memory.wfFrom lo m = true ↔
      (∀ l ∈ lo, ∀ c ∈ m, l < c.1) ∧ m.Pairwise (fun a b => a.1 < b.1) ∧ ∀ c ∈ m, c.2 ≠ 0 := by
  induction m generalizing lo with
  | nil => simp [Memory.wfFrom]
  | cons c m ih =>
    obtain ⟨k, b⟩ := c
    simp only [Memory.wfFrom, Bool.and_eq_true, ih, List.pairwise_cons, bne_iff_ne]
    constructor
    · rintro ⟨⟨h1, hb⟩, h2, h3, h4⟩
      refine ⟨?_, ⟨fun a ha => h2 k rfl a ha, h3⟩, ?_⟩
      · intro l hl a ha
        cases hl
        simp only [decide_eq_true_eq] at h1
        rcases List.mem_cons.mp ha with rfl | ha
        · exact h1
        · exact lt_trans h1 (h2 k rfl a ha)
      · intro a ha
        rcases List.mem_cons.mp ha with rfl | ha
        · exact hb
        · exact h4 a ha
    · rintro ⟨h1, ⟨h2, h3⟩, h4⟩
      refine ⟨⟨?_, h4 (k, b) (by simp)⟩, ?_, h3, fun a ha => h4 a (by simp [ha])⟩
      · cases lo with
        | none => rfl
        | some l => simpa using h1 l rfl (k, b) (by simp)
      · intro l hl a ha
        cases hl
        exact h2 a ha

theorem Memory.wf_iff (m : Memory) :
    m.wf = true ↔ m.Pairwise (fun a b => a.1 < b.1) ∧ ∀ c ∈ m, c.2 ≠ 0 := by
  rw [Memory.wf, Memory.wfFrom_iff]
  simp

@[simp] theorem Memory.wf_nil : Memory.wf [] = true := rfl

theorem Memory.wf_filter {m : Memory} (h : m.wf = true) (p : Nat × Byte → Bool) : Memory.wf (m.filter p) = true := by
  rw [Memory.wf_iff] at *
  exact ⟨h.1.filter p, fun c hc => h.2 c (List.mem_filter.mp hc).1⟩

theorem cellsOf_wf (bs : List Byte) (i : Nat) : Memory.wf (cellsOf i bs) = true := by
  rw [Memory.wf_iff]
  induction bs generalizing i with
  | nil => simp [cellsOf]
  | cons b bs ih =>
    simp only [cellsOf]
    split
    · exact ih (i + 1)
    · rename_i hb
      refine ⟨List.pairwise_cons.mpr ⟨fun c hc => ?_, (ih (i + 1)).1⟩, ?_⟩
      · have := cellsOf_keys bs (i + 1) c hc
        show i < c.1
        omega
      · intro c hc
        rcases List.mem_cons.mp hc with rfl | hc
        · exact hb
        · exact (ih (i + 1)).2 c hc

/-- Three canonical runs of keys one above the other. -/
theorem Memory.wf_three {a b c : Memory} {i j : Nat} (ha : a.wf = true) (hb : b.wf = true) (hc : c.wf = true)
    (h1 : ∀ x ∈ a, x.1 < i) (h2 : ∀ x ∈ b, i ≤ x.1 ∧ x.1 < j) (h3 : ∀ x ∈ c, j ≤ x.1) (hij : i ≤ j) :
    Memory.wf (a ++ (b ++ c)) = true := by
  rw [Memory.wf_iff] at *
  refine ⟨?_, ?_⟩
  · rw [List.pairwise_append, List.pairwise_append]
    refine ⟨ha.1, ⟨hb.1, hc.1, ?_⟩, ?_⟩
    · intro x hx y hy
      have := h2 x hx
      have := h3 y hy
      omega
    · intro x hx y hy
      have := h1 x hx
      rcases List.mem_append.mp hy with hy | hy
      · have := h2 y hy
        omega
      · have := h3 y hy
        omega
  · intro x hx
    rcases List.mem_append.mp hx with hx | hx
    · exact ha.2 x hx
    · rcases List.mem_append.mp hx with hx | hx
      · exact hb.2 x hx
      · exact hc.2 x hx

/-- A write keeps the canonical form. -/
theorem Memory.wf_putBytes {m : Memory} (h : m.wf = true) (i : Nat) (bs : List Byte) : (m.putBytes i bs).wf = true := by
  refine Memory.wf_three (i := i) (j := i + bs.length) (Memory.wf_filter h _) (cellsOf_wf bs i) (Memory.wf_filter h _) ?_
    (cellsOf_keys bs i) ?_ (by omega)
  · intro x hx
    simpa using (List.mem_filter.mp hx).2
  · intro x hx
    simpa using (List.mem_filter.mp hx).2

theorem Memory.wf_put {m : Memory} (h : m.wf = true) (i : Nat) (b : Byte) : (m.put i b).wf = true :=
  Memory.wf_putBytes h i [b]

theorem Memory.wf_clear {m : Memory} (h : m.wf = true) (i n : Nat) : (m.clear i n).wf = true := Memory.wf_filter h _

/-- A copy of a range keeps the canonical form. -/
theorem Memory.wf_move {m : Memory} (h : m.wf = true) (src dst n : Nat) : (m.move src dst n).wf = true := by
  refine Memory.wf_three (i := dst) (j := dst + n) (Memory.wf_filter h _) ?_ (Memory.wf_filter h _) ?_ ?_ ?_ (by omega)
  · have hf := Memory.wf_filter h fun c => decide (src ≤ c.1) && decide (c.1 < src + n)
    rw [Memory.wf_iff] at hf ⊢
    refine ⟨?_, ?_⟩
    · rw [List.pairwise_map]
      refine hf.1.imp_of_mem ?_
      intro a b ha hb hab
      have h1 := (List.mem_filter.mp ha).2
      have h2 := (List.mem_filter.mp hb).2
      simp at h1 h2
      show a.1 - src + dst < b.1 - src + dst
      omega
    · intro x hx
      obtain ⟨c, hc, rfl⟩ := List.mem_map.mp hx
      exact hf.2 c hc
  · intro x hx
    simpa using (List.mem_filter.mp hx).2
  · intro x hx
    obtain ⟨c, hc, rfl⟩ := List.mem_map.mp hx
    have := (List.mem_filter.mp hc).2
    simp at this
    show dst ≤ c.1 - src + dst ∧ c.1 - src + dst < dst + n
    omega
  · intro x hx
    simpa using (List.mem_filter.mp hx).2

end Sys2Proof.Machine
end

