-- ==== Sys2Proof/Laws/State.lean ====
section
/-!
SUPPORT. One lemma for each field of the state under each named update, so that no later proof unfolds a record update.
-/
namespace Sys2Proof.Machine

/-! ## Sparse tables -/

@[simp] theorem SMap.get_set_same {α : Type} (d : α) (m : SMap α) (i : Nat) (a : α) : (m.set i a).get d i = a := by
  induction m with
  | nil => simp [SMap.set, SMap.get]
  | cons p m ih =>
    obtain ⟨k, b⟩ := p
    simp only [SMap.set]
    split
    · simp [SMap.get]
    · split
      · simp [SMap.get]
      · rename_i h1 h2
        simp [SMap.get, Ne.symm h2, ih]

theorem SMap.get_set_other {α : Type} (d : α) (m : SMap α) {i j : Nat} (a : α) (h : j ≠ i) :
    (m.set i a).get d j = m.get d j := by
  induction m with
  | nil => simp [SMap.set, SMap.get, h.symm]
  | cons p m ih =>
    obtain ⟨k, b⟩ := p
    simp only [SMap.set]
    split
    · simp [SMap.get, h.symm]
    · split
      · rename_i h1 h2
        subst h2
        simp [SMap.get, h.symm]
      · simp only [SMap.get, ih]

@[simp] theorem SMap.find_set_same {α : Type} (m : SMap α) (i : Nat) (a : α) : (m.set i a).find i = some a := by
  induction m with
  | nil => simp [SMap.set, SMap.find]
  | cons p m ih =>
    obtain ⟨k, b⟩ := p
    simp only [SMap.set]
    split
    · simp [SMap.find]
    · split
      · simp [SMap.find]
      · rename_i h1 h2
        simp [SMap.find, Ne.symm h2, ih]

theorem SMap.find_set_other {α : Type} (m : SMap α) {i j : Nat} (a : α) (h : j ≠ i) : (m.set i a).find j = m.find j := by
  induction m with
  | nil => simp [SMap.set, SMap.find, h.symm]
  | cons p m ih =>
    obtain ⟨k, b⟩ := p
    simp only [SMap.set]
    split
    · simp [SMap.find, h.symm]
    · split
      · rename_i h1 h2
        subst h2
        simp [SMap.find, h.symm]
      · simp only [SMap.find, ih]

/-! ## Named updates of the state -/

@[simp] theorem State.setThr_agenda (s : State) (i : Nat) (t : Thread) : (s.setThr i t).agenda = s.agenda := rfl
@[simp] theorem State.setThr_cur (s : State) (i : Nat) (t : Thread) : (s.setThr i t).cur = s.cur := rfl
@[simp] theorem State.setThr_free (s : State) (i : Nat) (t : Thread) : (s.setThr i t).free = s.free := rfl
@[simp] theorem State.setThr_time (s : State) (i : Nat) (t : Thread) : (s.setThr i t).time = s.time := rfl
@[simp] theorem State.setThr_cores (s : State) (i : Nat) (t : Thread) : (s.setThr i t).cores = s.cores := rfl
@[simp] theorem State.setThr_tasks (s : State) (i : Nat) (t : Thread) : (s.setThr i t).tasks = s.tasks := rfl
@[simp] theorem State.setThr_teamBars (s : State) (i : Nat) (t : Thread) : (s.setThr i t).teamBars = s.teamBars := rfl
@[simp] theorem State.setThr_offers (s : State) (i : Nat) (t : Thread) : (s.setThr i t).offers = s.offers := rfl
@[simp] theorem State.setThr_nextGang (s : State) (i : Nat) (t : Thread) : (s.setThr i t).nextGang = s.nextGang := rfl
@[simp] theorem State.setThr_nextKey (s : State) (i : Nat) (t : Thread) : (s.setThr i t).nextKey = s.nextKey := rfl
@[simp] theorem State.setThr_binds (s : State) (i : Nat) (t : Thread) : (s.setThr i t).binds = s.binds := rfl
@[simp] theorem State.setThr_mem (s : State) (i : Nat) (t : Thread) : (s.setThr i t).mem = s.mem := rfl
@[simp] theorem State.setThr_bad (s : State) (i : Nat) (t : Thread) : (s.setThr i t).bad = s.bad := rfl
@[simp] theorem State.setThr_wc (s : State) (i : Nat) (t : Thread) : (s.setThr i t).wc = s.wc := rfl
@[simp] theorem State.setThr_regions (s : State) (i : Nat) (t : Thread) : (s.setThr i t).regions = s.regions := rfl
@[simp] theorem State.setThr_vspill (s : State) (i : Nat) (t : Thread) : (s.setThr i t).vspill = s.vspill := rfl
@[simp] theorem State.setThr_pageWaits (s : State) (i : Nat) (t : Thread) : (s.setThr i t).pageWaits = s.pageWaits := rfl
@[simp] theorem State.setThr_hub (s : State) (i : Nat) (t : Thread) : (s.setThr i t).hub = s.hub := rfl
@[simp] theorem State.setThr_queues (s : State) (i : Nat) (t : Thread) : (s.setThr i t).queues = s.queues := rfl
@[simp] theorem State.setThr_qifs (s : State) (i : Nat) (t : Thread) : (s.setThr i t).qifs = s.qifs := rfl
@[simp] theorem State.setThr_captures (s : State) (i : Nat) (t : Thread) : (s.setThr i t).captures = s.captures := rfl
@[simp] theorem State.setThr_msi (s : State) (i : Nat) (t : Thread) : (s.setThr i t).msi = s.msi := rfl
@[simp] theorem State.setThr_ports (s : State) (i : Nat) (t : Thread) : (s.setThr i t).ports = s.ports := rfl
@[simp] theorem State.setThr_sent (s : State) (i : Nat) (t : Thread) : (s.setThr i t).sent = s.sent := rfl
@[simp] theorem State.setThr_bridgeBox (s : State) (i : Nat) (t : Thread) : (s.setThr i t).bridgeBox = s.bridgeBox := rfl
@[simp] theorem State.setThr_slack (s : State) (i : Nat) (t : Thread) : (s.setThr i t).slack = s.slack := rfl
@[simp] theorem State.setThr_rounds (s : State) (i : Nat) (t : Thread) : (s.setThr i t).rounds = s.rounds := rfl
@[simp] theorem State.setThr_ends (s : State) (i : Nat) (t : Thread) : (s.setThr i t).ends = s.ends := rfl
@[simp] theorem State.setThr_hostWaits (s : State) (i : Nat) (t : Thread) : (s.setThr i t).hostWaits = s.hostWaits := rfl
@[simp] theorem State.setThr_drops (s : State) (i : Nat) (t : Thread) : (s.setThr i t).drops = s.drops := rfl
@[simp] theorem State.setThr_clusterTlbs (s : State) (i : Nat) (t : Thread) : (s.setThr i t).clusterTlbs = s.clusterTlbs := rfl
@[simp] theorem State.setThr_power (s : State) (i : Nat) (t : Thread) : (s.setThr i t).power = s.power := rfl
@[simp] theorem State.setThr_striker (s : State) (i : Nat) (t : Thread) : (s.setThr i t).striker = s.striker := rfl
@[simp] theorem State.setThr_boot (s : State) (i : Nat) (t : Thread) : (s.setThr i t).boot = s.boot := rfl

@[simp] theorem State.modThr_agenda (s : State) (i : Nat) (f : Thread → Thread) : (s.modThr i f).agenda = s.agenda := rfl
@[simp] theorem State.modThr_cur (s : State) (i : Nat) (f : Thread → Thread) : (s.modThr i f).cur = s.cur := rfl
@[simp] theorem State.modThr_free (s : State) (i : Nat) (f : Thread → Thread) : (s.modThr i f).free = s.free := rfl
@[simp] theorem State.modThr_time (s : State) (i : Nat) (f : Thread → Thread) : (s.modThr i f).time = s.time := rfl
@[simp] theorem State.modThr_cores (s : State) (i : Nat) (f : Thread → Thread) : (s.modThr i f).cores = s.cores := rfl
@[simp] theorem State.modThr_tasks (s : State) (i : Nat) (f : Thread → Thread) : (s.modThr i f).tasks = s.tasks := rfl
@[simp] theorem State.modThr_teamBars (s : State) (i : Nat) (f : Thread → Thread) : (s.modThr i f).teamBars = s.teamBars := rfl
@[simp] theorem State.modThr_offers (s : State) (i : Nat) (f : Thread → Thread) : (s.modThr i f).offers = s.offers := rfl
@[simp] theorem State.modThr_nextGang (s : State) (i : Nat) (f : Thread → Thread) : (s.modThr i f).nextGang = s.nextGang := rfl
@[simp] theorem State.modThr_nextKey (s : State) (i : Nat) (f : Thread → Thread) : (s.modThr i f).nextKey = s.nextKey := rfl
@[simp] theorem State.modThr_binds (s : State) (i : Nat) (f : Thread → Thread) : (s.modThr i f).binds = s.binds := rfl
@[simp] theorem State.modThr_mem (s : State) (i : Nat) (f : Thread → Thread) : (s.modThr i f).mem = s.mem := rfl
@[simp] theorem State.modThr_bad (s : State) (i : Nat) (f : Thread → Thread) : (s.modThr i f).bad = s.bad := rfl
@[simp] theorem State.modThr_wc (s : State) (i : Nat) (f : Thread → Thread) : (s.modThr i f).wc = s.wc := rfl
@[simp] theorem State.modThr_regions (s : State) (i : Nat) (f : Thread → Thread) : (s.modThr i f).regions = s.regions := rfl
@[simp] theorem State.modThr_vspill (s : State) (i : Nat) (f : Thread → Thread) : (s.modThr i f).vspill = s.vspill := rfl
@[simp] theorem State.modThr_pageWaits (s : State) (i : Nat) (f : Thread → Thread) : (s.modThr i f).pageWaits = s.pageWaits := rfl
@[simp] theorem State.modThr_hub (s : State) (i : Nat) (f : Thread → Thread) : (s.modThr i f).hub = s.hub := rfl
@[simp] theorem State.modThr_queues (s : State) (i : Nat) (f : Thread → Thread) : (s.modThr i f).queues = s.queues := rfl
@[simp] theorem State.modThr_qifs (s : State) (i : Nat) (f : Thread → Thread) : (s.modThr i f).qifs = s.qifs := rfl
@[simp] theorem State.modThr_captures (s : State) (i : Nat) (f : Thread → Thread) : (s.modThr i f).captures = s.captures := rfl
@[simp] theorem State.modThr_msi (s : State) (i : Nat) (f : Thread → Thread) : (s.modThr i f).msi = s.msi := rfl
@[simp] theorem State.modThr_ports (s : State) (i : Nat) (f : Thread → Thread) : (s.modThr i f).ports = s.ports := rfl
@[simp] theorem State.modThr_sent (s : State) (i : Nat) (f : Thread → Thread) : (s.modThr i f).sent = s.sent := rfl
@[simp] theorem State.modThr_bridgeBox (s : State) (i : Nat) (f : Thread → Thread) : (s.modThr i f).bridgeBox = s.bridgeBox := rfl
@[simp] theorem State.modThr_slack (s : State) (i : Nat) (f : Thread → Thread) : (s.modThr i f).slack = s.slack := rfl
@[simp] theorem State.modThr_rounds (s : State) (i : Nat) (f : Thread → Thread) : (s.modThr i f).rounds = s.rounds := rfl
@[simp] theorem State.modThr_ends (s : State) (i : Nat) (f : Thread → Thread) : (s.modThr i f).ends = s.ends := rfl
@[simp] theorem State.modThr_hostWaits (s : State) (i : Nat) (f : Thread → Thread) : (s.modThr i f).hostWaits = s.hostWaits := rfl
@[simp] theorem State.modThr_drops (s : State) (i : Nat) (f : Thread → Thread) : (s.modThr i f).drops = s.drops := rfl
@[simp] theorem State.modThr_clusterTlbs (s : State) (i : Nat) (f : Thread → Thread) : (s.modThr i f).clusterTlbs = s.clusterTlbs := rfl
@[simp] theorem State.modThr_power (s : State) (i : Nat) (f : Thread → Thread) : (s.modThr i f).power = s.power := rfl
@[simp] theorem State.modThr_striker (s : State) (i : Nat) (f : Thread → Thread) : (s.modThr i f).striker = s.striker := rfl
@[simp] theorem State.modThr_boot (s : State) (i : Nat) (f : Thread → Thread) : (s.modThr i f).boot = s.boot := rfl

@[simp] theorem State.modMe_agenda (s : State) (f : Thread → Thread) : (s.modMe f).agenda = s.agenda := rfl
@[simp] theorem State.modMe_cur (s : State) (f : Thread → Thread) : (s.modMe f).cur = s.cur := rfl
@[simp] theorem State.modMe_free (s : State) (f : Thread → Thread) : (s.modMe f).free = s.free := rfl
@[simp] theorem State.modMe_time (s : State) (f : Thread → Thread) : (s.modMe f).time = s.time := rfl
@[simp] theorem State.modMe_cores (s : State) (f : Thread → Thread) : (s.modMe f).cores = s.cores := rfl
@[simp] theorem State.modMe_tasks (s : State) (f : Thread → Thread) : (s.modMe f).tasks = s.tasks := rfl
@[simp] theorem State.modMe_teamBars (s : State) (f : Thread → Thread) : (s.modMe f).teamBars = s.teamBars := rfl
@[simp] theorem State.modMe_offers (s : State) (f : Thread → Thread) : (s.modMe f).offers = s.offers := rfl
@[simp] theorem State.modMe_nextGang (s : State) (f : Thread → Thread) : (s.modMe f).nextGang = s.nextGang := rfl
@[simp] theorem State.modMe_nextKey (s : State) (f : Thread → Thread) : (s.modMe f).nextKey = s.nextKey := rfl
@[simp] theorem State.modMe_binds (s : State) (f : Thread → Thread) : (s.modMe f).binds = s.binds := rfl
@[simp] theorem State.modMe_mem (s : State) (f : Thread → Thread) : (s.modMe f).mem = s.mem := rfl
@[simp] theorem State.modMe_bad (s : State) (f : Thread → Thread) : (s.modMe f).bad = s.bad := rfl
@[simp] theorem State.modMe_wc (s : State) (f : Thread → Thread) : (s.modMe f).wc = s.wc := rfl
@[simp] theorem State.modMe_regions (s : State) (f : Thread → Thread) : (s.modMe f).regions = s.regions := rfl
@[simp] theorem State.modMe_vspill (s : State) (f : Thread → Thread) : (s.modMe f).vspill = s.vspill := rfl
@[simp] theorem State.modMe_pageWaits (s : State) (f : Thread → Thread) : (s.modMe f).pageWaits = s.pageWaits := rfl
@[simp] theorem State.modMe_hub (s : State) (f : Thread → Thread) : (s.modMe f).hub = s.hub := rfl
@[simp] theorem State.modMe_queues (s : State) (f : Thread → Thread) : (s.modMe f).queues = s.queues := rfl
@[simp] theorem State.modMe_qifs (s : State) (f : Thread → Thread) : (s.modMe f).qifs = s.qifs := rfl
@[simp] theorem State.modMe_captures (s : State) (f : Thread → Thread) : (s.modMe f).captures = s.captures := rfl
@[simp] theorem State.modMe_msi (s : State) (f : Thread → Thread) : (s.modMe f).msi = s.msi := rfl
@[simp] theorem State.modMe_ports (s : State) (f : Thread → Thread) : (s.modMe f).ports = s.ports := rfl
@[simp] theorem State.modMe_sent (s : State) (f : Thread → Thread) : (s.modMe f).sent = s.sent := rfl
@[simp] theorem State.modMe_bridgeBox (s : State) (f : Thread → Thread) : (s.modMe f).bridgeBox = s.bridgeBox := rfl
@[simp] theorem State.modMe_slack (s : State) (f : Thread → Thread) : (s.modMe f).slack = s.slack := rfl
@[simp] theorem State.modMe_rounds (s : State) (f : Thread → Thread) : (s.modMe f).rounds = s.rounds := rfl
@[simp] theorem State.modMe_ends (s : State) (f : Thread → Thread) : (s.modMe f).ends = s.ends := rfl
@[simp] theorem State.modMe_hostWaits (s : State) (f : Thread → Thread) : (s.modMe f).hostWaits = s.hostWaits := rfl
@[simp] theorem State.modMe_drops (s : State) (f : Thread → Thread) : (s.modMe f).drops = s.drops := rfl
@[simp] theorem State.modMe_clusterTlbs (s : State) (f : Thread → Thread) : (s.modMe f).clusterTlbs = s.clusterTlbs := rfl
@[simp] theorem State.modMe_power (s : State) (f : Thread → Thread) : (s.modMe f).power = s.power := rfl
@[simp] theorem State.modMe_striker (s : State) (f : Thread → Thread) : (s.modMe f).striker = s.striker := rfl
@[simp] theorem State.modMe_boot (s : State) (f : Thread → Thread) : (s.modMe f).boot = s.boot := rfl

@[simp] theorem State.setX_agenda (s : State) (r : XReg) (w : Word) : (s.setX r w).agenda = s.agenda := by unfold State.setX; split <;> rfl
@[simp] theorem State.setX_cur (s : State) (r : XReg) (w : Word) : (s.setX r w).cur = s.cur := by unfold State.setX; split <;> rfl
@[simp] theorem State.setX_free (s : State) (r : XReg) (w : Word) : (s.setX r w).free = s.free := by unfold State.setX; split <;> rfl
@[simp] theorem State.setX_time (s : State) (r : XReg) (w : Word) : (s.setX r w).time = s.time := by unfold State.setX; split <;> rfl
@[simp] theorem State.setX_cores (s : State) (r : XReg) (w : Word) : (s.setX r w).cores = s.cores := by unfold State.setX; split <;> rfl
@[simp] theorem State.setX_tasks (s : State) (r : XReg) (w : Word) : (s.setX r w).tasks = s.tasks := by unfold State.setX; split <;> rfl
@[simp] theorem State.setX_teamBars (s : State) (r : XReg) (w : Word) : (s.setX r w).teamBars = s.teamBars := by unfold State.setX; split <;> rfl
@[simp] theorem State.setX_offers (s : State) (r : XReg) (w : Word) : (s.setX r w).offers = s.offers := by unfold State.setX; split <;> rfl
@[simp] theorem State.setX_nextGang (s : State) (r : XReg) (w : Word) : (s.setX r w).nextGang = s.nextGang := by unfold State.setX; split <;> rfl
@[simp] theorem State.setX_nextKey (s : State) (r : XReg) (w : Word) : (s.setX r w).nextKey = s.nextKey := by unfold State.setX; split <;> rfl
@[simp] theorem State.setX_binds (s : State) (r : XReg) (w : Word) : (s.setX r w).binds = s.binds := by unfold State.setX; split <;> rfl
@[simp] theorem State.setX_mem (s : State) (r : XReg) (w : Word) : (s.setX r w).mem = s.mem := by unfold State.setX; split <;> rfl
@[simp] theorem State.setX_bad (s : State) (r : XReg) (w : Word) : (s.setX r w).bad = s.bad := by unfold State.setX; split <;> rfl
@[simp] theorem State.setX_wc (s : State) (r : XReg) (w : Word) : (s.setX r w).wc = s.wc := by unfold State.setX; split <;> rfl
@[simp] theorem State.setX_regions (s : State) (r : XReg) (w : Word) : (s.setX r w).regions = s.regions := by unfold State.setX; split <;> rfl
@[simp] theorem State.setX_vspill (s : State) (r : XReg) (w : Word) : (s.setX r w).vspill = s.vspill := by unfold State.setX; split <;> rfl
@[simp] theorem State.setX_pageWaits (s : State) (r : XReg) (w : Word) : (s.setX r w).pageWaits = s.pageWaits := by unfold State.setX; split <;> rfl
@[simp] theorem State.setX_hub (s : State) (r : XReg) (w : Word) : (s.setX r w).hub = s.hub := by unfold State.setX; split <;> rfl
@[simp] theorem State.setX_queues (s : State) (r : XReg) (w : Word) : (s.setX r w).queues = s.queues := by unfold State.setX; split <;> rfl
@[simp] theorem State.setX_qifs (s : State) (r : XReg) (w : Word) : (s.setX r w).qifs = s.qifs := by unfold State.setX; split <;> rfl
@[simp] theorem State.setX_captures (s : State) (r : XReg) (w : Word) : (s.setX r w).captures = s.captures := by unfold State.setX; split <;> rfl
@[simp] theorem State.setX_msi (s : State) (r : XReg) (w : Word) : (s.setX r w).msi = s.msi := by unfold State.setX; split <;> rfl
@[simp] theorem State.setX_ports (s : State) (r : XReg) (w : Word) : (s.setX r w).ports = s.ports := by unfold State.setX; split <;> rfl
@[simp] theorem State.setX_sent (s : State) (r : XReg) (w : Word) : (s.setX r w).sent = s.sent := by unfold State.setX; split <;> rfl
@[simp] theorem State.setX_bridgeBox (s : State) (r : XReg) (w : Word) : (s.setX r w).bridgeBox = s.bridgeBox := by unfold State.setX; split <;> rfl
@[simp] theorem State.setX_slack (s : State) (r : XReg) (w : Word) : (s.setX r w).slack = s.slack := by unfold State.setX; split <;> rfl
@[simp] theorem State.setX_rounds (s : State) (r : XReg) (w : Word) : (s.setX r w).rounds = s.rounds := by unfold State.setX; split <;> rfl
@[simp] theorem State.setX_ends (s : State) (r : XReg) (w : Word) : (s.setX r w).ends = s.ends := by unfold State.setX; split <;> rfl
@[simp] theorem State.setX_hostWaits (s : State) (r : XReg) (w : Word) : (s.setX r w).hostWaits = s.hostWaits := by unfold State.setX; split <;> rfl
@[simp] theorem State.setX_drops (s : State) (r : XReg) (w : Word) : (s.setX r w).drops = s.drops := by unfold State.setX; split <;> rfl
@[simp] theorem State.setX_clusterTlbs (s : State) (r : XReg) (w : Word) : (s.setX r w).clusterTlbs = s.clusterTlbs := by unfold State.setX; split <;> rfl
@[simp] theorem State.setX_power (s : State) (r : XReg) (w : Word) : (s.setX r w).power = s.power := by unfold State.setX; split <;> rfl
@[simp] theorem State.setX_striker (s : State) (r : XReg) (w : Word) : (s.setX r w).striker = s.striker := by unfold State.setX; split <;> rfl
@[simp] theorem State.setX_boot (s : State) (r : XReg) (w : Word) : (s.setX r w).boot = s.boot := by unfold State.setX; split <;> rfl

@[simp] theorem State.setV_agenda (s : State) (r : VReg) (v : Vec) : (s.setV r v).agenda = s.agenda := rfl
@[simp] theorem State.setV_cur (s : State) (r : VReg) (v : Vec) : (s.setV r v).cur = s.cur := rfl
@[simp] theorem State.setV_free (s : State) (r : VReg) (v : Vec) : (s.setV r v).free = s.free := rfl
@[simp] theorem State.setV_time (s : State) (r : VReg) (v : Vec) : (s.setV r v).time = s.time := rfl
@[simp] theorem State.setV_cores (s : State) (r : VReg) (v : Vec) : (s.setV r v).cores = s.cores := rfl
@[simp] theorem State.setV_tasks (s : State) (r : VReg) (v : Vec) : (s.setV r v).tasks = s.tasks := rfl
@[simp] theorem State.setV_teamBars (s : State) (r : VReg) (v : Vec) : (s.setV r v).teamBars = s.teamBars := rfl
@[simp] theorem State.setV_offers (s : State) (r : VReg) (v : Vec) : (s.setV r v).offers = s.offers := rfl
@[simp] theorem State.setV_nextGang (s : State) (r : VReg) (v : Vec) : (s.setV r v).nextGang = s.nextGang := rfl
@[simp] theorem State.setV_nextKey (s : State) (r : VReg) (v : Vec) : (s.setV r v).nextKey = s.nextKey := rfl
@[simp] theorem State.setV_binds (s : State) (r : VReg) (v : Vec) : (s.setV r v).binds = s.binds := rfl
@[simp] theorem State.setV_mem (s : State) (r : VReg) (v : Vec) : (s.setV r v).mem = s.mem := rfl
@[simp] theorem State.setV_bad (s : State) (r : VReg) (v : Vec) : (s.setV r v).bad = s.bad := rfl
@[simp] theorem State.setV_wc (s : State) (r : VReg) (v : Vec) : (s.setV r v).wc = s.wc := rfl
@[simp] theorem State.setV_regions (s : State) (r : VReg) (v : Vec) : (s.setV r v).regions = s.regions := rfl
@[simp] theorem State.setV_vspill (s : State) (r : VReg) (v : Vec) : (s.setV r v).vspill = s.vspill := rfl
@[simp] theorem State.setV_pageWaits (s : State) (r : VReg) (v : Vec) : (s.setV r v).pageWaits = s.pageWaits := rfl
@[simp] theorem State.setV_hub (s : State) (r : VReg) (v : Vec) : (s.setV r v).hub = s.hub := rfl
@[simp] theorem State.setV_queues (s : State) (r : VReg) (v : Vec) : (s.setV r v).queues = s.queues := rfl
@[simp] theorem State.setV_qifs (s : State) (r : VReg) (v : Vec) : (s.setV r v).qifs = s.qifs := rfl
@[simp] theorem State.setV_captures (s : State) (r : VReg) (v : Vec) : (s.setV r v).captures = s.captures := rfl
@[simp] theorem State.setV_msi (s : State) (r : VReg) (v : Vec) : (s.setV r v).msi = s.msi := rfl
@[simp] theorem State.setV_ports (s : State) (r : VReg) (v : Vec) : (s.setV r v).ports = s.ports := rfl
@[simp] theorem State.setV_sent (s : State) (r : VReg) (v : Vec) : (s.setV r v).sent = s.sent := rfl
@[simp] theorem State.setV_bridgeBox (s : State) (r : VReg) (v : Vec) : (s.setV r v).bridgeBox = s.bridgeBox := rfl
@[simp] theorem State.setV_slack (s : State) (r : VReg) (v : Vec) : (s.setV r v).slack = s.slack := rfl
@[simp] theorem State.setV_rounds (s : State) (r : VReg) (v : Vec) : (s.setV r v).rounds = s.rounds := rfl
@[simp] theorem State.setV_ends (s : State) (r : VReg) (v : Vec) : (s.setV r v).ends = s.ends := rfl
@[simp] theorem State.setV_hostWaits (s : State) (r : VReg) (v : Vec) : (s.setV r v).hostWaits = s.hostWaits := rfl
@[simp] theorem State.setV_drops (s : State) (r : VReg) (v : Vec) : (s.setV r v).drops = s.drops := rfl
@[simp] theorem State.setV_clusterTlbs (s : State) (r : VReg) (v : Vec) : (s.setV r v).clusterTlbs = s.clusterTlbs := rfl
@[simp] theorem State.setV_power (s : State) (r : VReg) (v : Vec) : (s.setV r v).power = s.power := rfl
@[simp] theorem State.setV_striker (s : State) (r : VReg) (v : Vec) : (s.setV r v).striker = s.striker := rfl
@[simp] theorem State.setV_boot (s : State) (r : VReg) (v : Vec) : (s.setV r v).boot = s.boot := rfl

@[simp] theorem State.setM_agenda (s : State) (r : MReg) (w : Word) : (s.setM r w).agenda = s.agenda := rfl
@[simp] theorem State.setM_cur (s : State) (r : MReg) (w : Word) : (s.setM r w).cur = s.cur := rfl
@[simp] theorem State.setM_free (s : State) (r : MReg) (w : Word) : (s.setM r w).free = s.free := rfl
@[simp] theorem State.setM_time (s : State) (r : MReg) (w : Word) : (s.setM r w).time = s.time := rfl
@[simp] theorem State.setM_cores (s : State) (r : MReg) (w : Word) : (s.setM r w).cores = s.cores := rfl
@[simp] theorem State.setM_tasks (s : State) (r : MReg) (w : Word) : (s.setM r w).tasks = s.tasks := rfl
@[simp] theorem State.setM_teamBars (s : State) (r : MReg) (w : Word) : (s.setM r w).teamBars = s.teamBars := rfl
@[simp] theorem State.setM_offers (s : State) (r : MReg) (w : Word) : (s.setM r w).offers = s.offers := rfl
@[simp] theorem State.setM_nextGang (s : State) (r : MReg) (w : Word) : (s.setM r w).nextGang = s.nextGang := rfl
@[simp] theorem State.setM_nextKey (s : State) (r : MReg) (w : Word) : (s.setM r w).nextKey = s.nextKey := rfl
@[simp] theorem State.setM_binds (s : State) (r : MReg) (w : Word) : (s.setM r w).binds = s.binds := rfl
@[simp] theorem State.setM_mem (s : State) (r : MReg) (w : Word) : (s.setM r w).mem = s.mem := rfl
@[simp] theorem State.setM_bad (s : State) (r : MReg) (w : Word) : (s.setM r w).bad = s.bad := rfl
@[simp] theorem State.setM_wc (s : State) (r : MReg) (w : Word) : (s.setM r w).wc = s.wc := rfl
@[simp] theorem State.setM_regions (s : State) (r : MReg) (w : Word) : (s.setM r w).regions = s.regions := rfl
@[simp] theorem State.setM_vspill (s : State) (r : MReg) (w : Word) : (s.setM r w).vspill = s.vspill := rfl
@[simp] theorem State.setM_pageWaits (s : State) (r : MReg) (w : Word) : (s.setM r w).pageWaits = s.pageWaits := rfl
@[simp] theorem State.setM_hub (s : State) (r : MReg) (w : Word) : (s.setM r w).hub = s.hub := rfl
@[simp] theorem State.setM_queues (s : State) (r : MReg) (w : Word) : (s.setM r w).queues = s.queues := rfl
@[simp] theorem State.setM_qifs (s : State) (r : MReg) (w : Word) : (s.setM r w).qifs = s.qifs := rfl
@[simp] theorem State.setM_captures (s : State) (r : MReg) (w : Word) : (s.setM r w).captures = s.captures := rfl
@[simp] theorem State.setM_msi (s : State) (r : MReg) (w : Word) : (s.setM r w).msi = s.msi := rfl
@[simp] theorem State.setM_ports (s : State) (r : MReg) (w : Word) : (s.setM r w).ports = s.ports := rfl
@[simp] theorem State.setM_sent (s : State) (r : MReg) (w : Word) : (s.setM r w).sent = s.sent := rfl
@[simp] theorem State.setM_bridgeBox (s : State) (r : MReg) (w : Word) : (s.setM r w).bridgeBox = s.bridgeBox := rfl
@[simp] theorem State.setM_slack (s : State) (r : MReg) (w : Word) : (s.setM r w).slack = s.slack := rfl
@[simp] theorem State.setM_rounds (s : State) (r : MReg) (w : Word) : (s.setM r w).rounds = s.rounds := rfl
@[simp] theorem State.setM_ends (s : State) (r : MReg) (w : Word) : (s.setM r w).ends = s.ends := rfl
@[simp] theorem State.setM_hostWaits (s : State) (r : MReg) (w : Word) : (s.setM r w).hostWaits = s.hostWaits := rfl
@[simp] theorem State.setM_drops (s : State) (r : MReg) (w : Word) : (s.setM r w).drops = s.drops := rfl
@[simp] theorem State.setM_clusterTlbs (s : State) (r : MReg) (w : Word) : (s.setM r w).clusterTlbs = s.clusterTlbs := rfl
@[simp] theorem State.setM_power (s : State) (r : MReg) (w : Word) : (s.setM r w).power = s.power := rfl
@[simp] theorem State.setM_striker (s : State) (r : MReg) (w : Word) : (s.setM r w).striker = s.striker := rfl
@[simp] theorem State.setM_boot (s : State) (r : MReg) (w : Word) : (s.setM r w).boot = s.boot := rfl

@[simp] theorem State.retire_agenda (s : State) (n : Nat) : (s.retire n).agenda = s.agenda := rfl
@[simp] theorem State.retire_cur (s : State) (n : Nat) : (s.retire n).cur = s.cur := rfl
@[simp] theorem State.retire_free (s : State) (n : Nat) : (s.retire n).free = s.free := rfl
@[simp] theorem State.retire_time (s : State) (n : Nat) : (s.retire n).time = s.time := rfl
@[simp] theorem State.retire_cores (s : State) (n : Nat) : (s.retire n).cores = s.cores := rfl
@[simp] theorem State.retire_tasks (s : State) (n : Nat) : (s.retire n).tasks = s.tasks := rfl
@[simp] theorem State.retire_teamBars (s : State) (n : Nat) : (s.retire n).teamBars = s.teamBars := rfl
@[simp] theorem State.retire_offers (s : State) (n : Nat) : (s.retire n).offers = s.offers := rfl
@[simp] theorem State.retire_nextGang (s : State) (n : Nat) : (s.retire n).nextGang = s.nextGang := rfl
@[simp] theorem State.retire_nextKey (s : State) (n : Nat) : (s.retire n).nextKey = s.nextKey := rfl
@[simp] theorem State.retire_binds (s : State) (n : Nat) : (s.retire n).binds = s.binds := rfl
@[simp] theorem State.retire_mem (s : State) (n : Nat) : (s.retire n).mem = s.mem := rfl
@[simp] theorem State.retire_bad (s : State) (n : Nat) : (s.retire n).bad = s.bad := rfl
@[simp] theorem State.retire_wc (s : State) (n : Nat) : (s.retire n).wc = s.wc := rfl
@[simp] theorem State.retire_regions (s : State) (n : Nat) : (s.retire n).regions = s.regions := rfl
@[simp] theorem State.retire_vspill (s : State) (n : Nat) : (s.retire n).vspill = s.vspill := rfl
@[simp] theorem State.retire_pageWaits (s : State) (n : Nat) : (s.retire n).pageWaits = s.pageWaits := rfl
@[simp] theorem State.retire_hub (s : State) (n : Nat) : (s.retire n).hub = s.hub := rfl
@[simp] theorem State.retire_queues (s : State) (n : Nat) : (s.retire n).queues = s.queues := rfl
@[simp] theorem State.retire_qifs (s : State) (n : Nat) : (s.retire n).qifs = s.qifs := rfl
@[simp] theorem State.retire_captures (s : State) (n : Nat) : (s.retire n).captures = s.captures := rfl
@[simp] theorem State.retire_msi (s : State) (n : Nat) : (s.retire n).msi = s.msi := rfl
@[simp] theorem State.retire_ports (s : State) (n : Nat) : (s.retire n).ports = s.ports := rfl
@[simp] theorem State.retire_sent (s : State) (n : Nat) : (s.retire n).sent = s.sent := rfl
@[simp] theorem State.retire_bridgeBox (s : State) (n : Nat) : (s.retire n).bridgeBox = s.bridgeBox := rfl
@[simp] theorem State.retire_slack (s : State) (n : Nat) : (s.retire n).slack = s.slack := rfl
@[simp] theorem State.retire_rounds (s : State) (n : Nat) : (s.retire n).rounds = s.rounds := rfl
@[simp] theorem State.retire_ends (s : State) (n : Nat) : (s.retire n).ends = s.ends := rfl
@[simp] theorem State.retire_hostWaits (s : State) (n : Nat) : (s.retire n).hostWaits = s.hostWaits := rfl
@[simp] theorem State.retire_drops (s : State) (n : Nat) : (s.retire n).drops = s.drops := rfl
@[simp] theorem State.retire_clusterTlbs (s : State) (n : Nat) : (s.retire n).clusterTlbs = s.clusterTlbs := rfl
@[simp] theorem State.retire_power (s : State) (n : Nat) : (s.retire n).power = s.power := rfl
@[simp] theorem State.retire_striker (s : State) (n : Nat) : (s.retire n).striker = s.striker := rfl
@[simp] theorem State.retire_boot (s : State) (n : Nat) : (s.retire n).boot = s.boot := rfl

@[simp] theorem State.setCore_agenda (s : State) (c : Nat) (k : Core) : (s.setCore c k).agenda = s.agenda := rfl
@[simp] theorem State.setCore_cur (s : State) (c : Nat) (k : Core) : (s.setCore c k).cur = s.cur := rfl
@[simp] theorem State.setCore_free (s : State) (c : Nat) (k : Core) : (s.setCore c k).free = s.free := rfl
@[simp] theorem State.setCore_time (s : State) (c : Nat) (k : Core) : (s.setCore c k).time = s.time := rfl
@[simp] theorem State.setCore_threads (s : State) (c : Nat) (k : Core) : (s.setCore c k).threads = s.threads := rfl
@[simp] theorem State.setCore_tasks (s : State) (c : Nat) (k : Core) : (s.setCore c k).tasks = s.tasks := rfl
@[simp] theorem State.setCore_teamBars (s : State) (c : Nat) (k : Core) : (s.setCore c k).teamBars = s.teamBars := rfl
@[simp] theorem State.setCore_offers (s : State) (c : Nat) (k : Core) : (s.setCore c k).offers = s.offers := rfl
@[simp] theorem State.setCore_nextGang (s : State) (c : Nat) (k : Core) : (s.setCore c k).nextGang = s.nextGang := rfl
@[simp] theorem State.setCore_nextKey (s : State) (c : Nat) (k : Core) : (s.setCore c k).nextKey = s.nextKey := rfl
@[simp] theorem State.setCore_binds (s : State) (c : Nat) (k : Core) : (s.setCore c k).binds = s.binds := rfl
@[simp] theorem State.setCore_mem (s : State) (c : Nat) (k : Core) : (s.setCore c k).mem = s.mem := rfl
@[simp] theorem State.setCore_bad (s : State) (c : Nat) (k : Core) : (s.setCore c k).bad = s.bad := rfl
@[simp] theorem State.setCore_wc (s : State) (c : Nat) (k : Core) : (s.setCore c k).wc = s.wc := rfl
@[simp] theorem State.setCore_regions (s : State) (c : Nat) (k : Core) : (s.setCore c k).regions = s.regions := rfl
@[simp] theorem State.setCore_vspill (s : State) (c : Nat) (k : Core) : (s.setCore c k).vspill = s.vspill := rfl
@[simp] theorem State.setCore_pageWaits (s : State) (c : Nat) (k : Core) : (s.setCore c k).pageWaits = s.pageWaits := rfl
@[simp] theorem State.setCore_hub (s : State) (c : Nat) (k : Core) : (s.setCore c k).hub = s.hub := rfl
@[simp] theorem State.setCore_queues (s : State) (c : Nat) (k : Core) : (s.setCore c k).queues = s.queues := rfl
@[simp] theorem State.setCore_qifs (s : State) (c : Nat) (k : Core) : (s.setCore c k).qifs = s.qifs := rfl
@[simp] theorem State.setCore_captures (s : State) (c : Nat) (k : Core) : (s.setCore c k).captures = s.captures := rfl
@[simp] theorem State.setCore_msi (s : State) (c : Nat) (k : Core) : (s.setCore c k).msi = s.msi := rfl
@[simp] theorem State.setCore_ports (s : State) (c : Nat) (k : Core) : (s.setCore c k).ports = s.ports := rfl
@[simp] theorem State.setCore_sent (s : State) (c : Nat) (k : Core) : (s.setCore c k).sent = s.sent := rfl
@[simp] theorem State.setCore_bridgeBox (s : State) (c : Nat) (k : Core) : (s.setCore c k).bridgeBox = s.bridgeBox := rfl
@[simp] theorem State.setCore_slack (s : State) (c : Nat) (k : Core) : (s.setCore c k).slack = s.slack := rfl
@[simp] theorem State.setCore_rounds (s : State) (c : Nat) (k : Core) : (s.setCore c k).rounds = s.rounds := rfl
@[simp] theorem State.setCore_ends (s : State) (c : Nat) (k : Core) : (s.setCore c k).ends = s.ends := rfl
@[simp] theorem State.setCore_hostWaits (s : State) (c : Nat) (k : Core) : (s.setCore c k).hostWaits = s.hostWaits := rfl
@[simp] theorem State.setCore_drops (s : State) (c : Nat) (k : Core) : (s.setCore c k).drops = s.drops := rfl
@[simp] theorem State.setCore_clusterTlbs (s : State) (c : Nat) (k : Core) : (s.setCore c k).clusterTlbs = s.clusterTlbs := rfl
@[simp] theorem State.setCore_power (s : State) (c : Nat) (k : Core) : (s.setCore c k).power = s.power := rfl
@[simp] theorem State.setCore_striker (s : State) (c : Nat) (k : Core) : (s.setCore c k).striker = s.striker := rfl
@[simp] theorem State.setCore_boot (s : State) (c : Nat) (k : Core) : (s.setCore c k).boot = s.boot := rfl

@[simp] theorem State.modCore_agenda (s : State) (c : Nat) (f : Core → Core) : (s.modCore c f).agenda = s.agenda := rfl
@[simp] theorem State.modCore_cur (s : State) (c : Nat) (f : Core → Core) : (s.modCore c f).cur = s.cur := rfl
@[simp] theorem State.modCore_free (s : State) (c : Nat) (f : Core → Core) : (s.modCore c f).free = s.free := rfl
@[simp] theorem State.modCore_time (s : State) (c : Nat) (f : Core → Core) : (s.modCore c f).time = s.time := rfl
@[simp] theorem State.modCore_threads (s : State) (c : Nat) (f : Core → Core) : (s.modCore c f).threads = s.threads := rfl
@[simp] theorem State.modCore_tasks (s : State) (c : Nat) (f : Core → Core) : (s.modCore c f).tasks = s.tasks := rfl
@[simp] theorem State.modCore_teamBars (s : State) (c : Nat) (f : Core → Core) : (s.modCore c f).teamBars = s.teamBars := rfl
@[simp] theorem State.modCore_offers (s : State) (c : Nat) (f : Core → Core) : (s.modCore c f).offers = s.offers := rfl
@[simp] theorem State.modCore_nextGang (s : State) (c : Nat) (f : Core → Core) : (s.modCore c f).nextGang = s.nextGang := rfl
@[simp] theorem State.modCore_nextKey (s : State) (c : Nat) (f : Core → Core) : (s.modCore c f).nextKey = s.nextKey := rfl
@[simp] theorem State.modCore_binds (s : State) (c : Nat) (f : Core → Core) : (s.modCore c f).binds = s.binds := rfl
@[simp] theorem State.modCore_mem (s : State) (c : Nat) (f : Core → Core) : (s.modCore c f).mem = s.mem := rfl
@[simp] theorem State.modCore_bad (s : State) (c : Nat) (f : Core → Core) : (s.modCore c f).bad = s.bad := rfl
@[simp] theorem State.modCore_wc (s : State) (c : Nat) (f : Core → Core) : (s.modCore c f).wc = s.wc := rfl
@[simp] theorem State.modCore_regions (s : State) (c : Nat) (f : Core → Core) : (s.modCore c f).regions = s.regions := rfl
@[simp] theorem State.modCore_vspill (s : State) (c : Nat) (f : Core → Core) : (s.modCore c f).vspill = s.vspill := rfl
@[simp] theorem State.modCore_pageWaits (s : State) (c : Nat) (f : Core → Core) : (s.modCore c f).pageWaits = s.pageWaits := rfl
@[simp] theorem State.modCore_hub (s : State) (c : Nat) (f : Core → Core) : (s.modCore c f).hub = s.hub := rfl
@[simp] theorem State.modCore_queues (s : State) (c : Nat) (f : Core → Core) : (s.modCore c f).queues = s.queues := rfl
@[simp] theorem State.modCore_qifs (s : State) (c : Nat) (f : Core → Core) : (s.modCore c f).qifs = s.qifs := rfl
@[simp] theorem State.modCore_captures (s : State) (c : Nat) (f : Core → Core) : (s.modCore c f).captures = s.captures := rfl
@[simp] theorem State.modCore_msi (s : State) (c : Nat) (f : Core → Core) : (s.modCore c f).msi = s.msi := rfl
@[simp] theorem State.modCore_ports (s : State) (c : Nat) (f : Core → Core) : (s.modCore c f).ports = s.ports := rfl
@[simp] theorem State.modCore_sent (s : State) (c : Nat) (f : Core → Core) : (s.modCore c f).sent = s.sent := rfl
@[simp] theorem State.modCore_bridgeBox (s : State) (c : Nat) (f : Core → Core) : (s.modCore c f).bridgeBox = s.bridgeBox := rfl
@[simp] theorem State.modCore_slack (s : State) (c : Nat) (f : Core → Core) : (s.modCore c f).slack = s.slack := rfl
@[simp] theorem State.modCore_rounds (s : State) (c : Nat) (f : Core → Core) : (s.modCore c f).rounds = s.rounds := rfl
@[simp] theorem State.modCore_ends (s : State) (c : Nat) (f : Core → Core) : (s.modCore c f).ends = s.ends := rfl
@[simp] theorem State.modCore_hostWaits (s : State) (c : Nat) (f : Core → Core) : (s.modCore c f).hostWaits = s.hostWaits := rfl
@[simp] theorem State.modCore_drops (s : State) (c : Nat) (f : Core → Core) : (s.modCore c f).drops = s.drops := rfl
@[simp] theorem State.modCore_clusterTlbs (s : State) (c : Nat) (f : Core → Core) : (s.modCore c f).clusterTlbs = s.clusterTlbs := rfl
@[simp] theorem State.modCore_power (s : State) (c : Nat) (f : Core → Core) : (s.modCore c f).power = s.power := rfl
@[simp] theorem State.modCore_striker (s : State) (c : Nat) (f : Core → Core) : (s.modCore c f).striker = s.striker := rfl
@[simp] theorem State.modCore_boot (s : State) (c : Nat) (f : Core → Core) : (s.modCore c f).boot = s.boot := rfl

@[simp] theorem State.setReg_agenda (s : State) (o v : Nat) : (s.setReg o v).agenda = s.agenda := rfl
@[simp] theorem State.setReg_cur (s : State) (o v : Nat) : (s.setReg o v).cur = s.cur := rfl
@[simp] theorem State.setReg_free (s : State) (o v : Nat) : (s.setReg o v).free = s.free := rfl
@[simp] theorem State.setReg_time (s : State) (o v : Nat) : (s.setReg o v).time = s.time := rfl
@[simp] theorem State.setReg_threads (s : State) (o v : Nat) : (s.setReg o v).threads = s.threads := rfl
@[simp] theorem State.setReg_cores (s : State) (o v : Nat) : (s.setReg o v).cores = s.cores := rfl
@[simp] theorem State.setReg_tasks (s : State) (o v : Nat) : (s.setReg o v).tasks = s.tasks := rfl
@[simp] theorem State.setReg_teamBars (s : State) (o v : Nat) : (s.setReg o v).teamBars = s.teamBars := rfl
@[simp] theorem State.setReg_offers (s : State) (o v : Nat) : (s.setReg o v).offers = s.offers := rfl
@[simp] theorem State.setReg_nextGang (s : State) (o v : Nat) : (s.setReg o v).nextGang = s.nextGang := rfl
@[simp] theorem State.setReg_nextKey (s : State) (o v : Nat) : (s.setReg o v).nextKey = s.nextKey := rfl
@[simp] theorem State.setReg_binds (s : State) (o v : Nat) : (s.setReg o v).binds = s.binds := rfl
@[simp] theorem State.setReg_mem (s : State) (o v : Nat) : (s.setReg o v).mem = s.mem := rfl
@[simp] theorem State.setReg_bad (s : State) (o v : Nat) : (s.setReg o v).bad = s.bad := rfl
@[simp] theorem State.setReg_wc (s : State) (o v : Nat) : (s.setReg o v).wc = s.wc := rfl
@[simp] theorem State.setReg_regions (s : State) (o v : Nat) : (s.setReg o v).regions = s.regions := rfl
@[simp] theorem State.setReg_vspill (s : State) (o v : Nat) : (s.setReg o v).vspill = s.vspill := rfl
@[simp] theorem State.setReg_pageWaits (s : State) (o v : Nat) : (s.setReg o v).pageWaits = s.pageWaits := rfl
@[simp] theorem State.setReg_queues (s : State) (o v : Nat) : (s.setReg o v).queues = s.queues := rfl
@[simp] theorem State.setReg_qifs (s : State) (o v : Nat) : (s.setReg o v).qifs = s.qifs := rfl
@[simp] theorem State.setReg_captures (s : State) (o v : Nat) : (s.setReg o v).captures = s.captures := rfl
@[simp] theorem State.setReg_msi (s : State) (o v : Nat) : (s.setReg o v).msi = s.msi := rfl
@[simp] theorem State.setReg_ports (s : State) (o v : Nat) : (s.setReg o v).ports = s.ports := rfl
@[simp] theorem State.setReg_sent (s : State) (o v : Nat) : (s.setReg o v).sent = s.sent := rfl
@[simp] theorem State.setReg_bridgeBox (s : State) (o v : Nat) : (s.setReg o v).bridgeBox = s.bridgeBox := rfl
@[simp] theorem State.setReg_slack (s : State) (o v : Nat) : (s.setReg o v).slack = s.slack := rfl
@[simp] theorem State.setReg_rounds (s : State) (o v : Nat) : (s.setReg o v).rounds = s.rounds := rfl
@[simp] theorem State.setReg_ends (s : State) (o v : Nat) : (s.setReg o v).ends = s.ends := rfl
@[simp] theorem State.setReg_hostWaits (s : State) (o v : Nat) : (s.setReg o v).hostWaits = s.hostWaits := rfl
@[simp] theorem State.setReg_drops (s : State) (o v : Nat) : (s.setReg o v).drops = s.drops := rfl
@[simp] theorem State.setReg_clusterTlbs (s : State) (o v : Nat) : (s.setReg o v).clusterTlbs = s.clusterTlbs := rfl
@[simp] theorem State.setReg_power (s : State) (o v : Nat) : (s.setReg o v).power = s.power := rfl
@[simp] theorem State.setReg_striker (s : State) (o v : Nat) : (s.setReg o v).striker = s.striker := rfl
@[simp] theorem State.setReg_boot (s : State) (o v : Nat) : (s.setReg o v).boot = s.boot := rfl

@[simp] theorem State.setQuad_agenda (s : State) (q : Nat) (v : Quad) : (s.setQuad q v).agenda = s.agenda := rfl
@[simp] theorem State.setQuad_cur (s : State) (q : Nat) (v : Quad) : (s.setQuad q v).cur = s.cur := rfl
@[simp] theorem State.setQuad_free (s : State) (q : Nat) (v : Quad) : (s.setQuad q v).free = s.free := rfl
@[simp] theorem State.setQuad_time (s : State) (q : Nat) (v : Quad) : (s.setQuad q v).time = s.time := rfl
@[simp] theorem State.setQuad_threads (s : State) (q : Nat) (v : Quad) : (s.setQuad q v).threads = s.threads := rfl
@[simp] theorem State.setQuad_cores (s : State) (q : Nat) (v : Quad) : (s.setQuad q v).cores = s.cores := rfl
@[simp] theorem State.setQuad_tasks (s : State) (q : Nat) (v : Quad) : (s.setQuad q v).tasks = s.tasks := rfl
@[simp] theorem State.setQuad_teamBars (s : State) (q : Nat) (v : Quad) : (s.setQuad q v).teamBars = s.teamBars := rfl
@[simp] theorem State.setQuad_offers (s : State) (q : Nat) (v : Quad) : (s.setQuad q v).offers = s.offers := rfl
@[simp] theorem State.setQuad_nextGang (s : State) (q : Nat) (v : Quad) : (s.setQuad q v).nextGang = s.nextGang := rfl
@[simp] theorem State.setQuad_nextKey (s : State) (q : Nat) (v : Quad) : (s.setQuad q v).nextKey = s.nextKey := rfl
@[simp] theorem State.setQuad_binds (s : State) (q : Nat) (v : Quad) : (s.setQuad q v).binds = s.binds := rfl
@[simp] theorem State.setQuad_mem (s : State) (q : Nat) (v : Quad) : (s.setQuad q v).mem = s.mem := rfl
@[simp] theorem State.setQuad_bad (s : State) (q : Nat) (v : Quad) : (s.setQuad q v).bad = s.bad := rfl
@[simp] theorem State.setQuad_wc (s : State) (q : Nat) (v : Quad) : (s.setQuad q v).wc = s.wc := rfl
@[simp] theorem State.setQuad_regions (s : State) (q : Nat) (v : Quad) : (s.setQuad q v).regions = s.regions := rfl
@[simp] theorem State.setQuad_vspill (s : State) (q : Nat) (v : Quad) : (s.setQuad q v).vspill = s.vspill := rfl
@[simp] theorem State.setQuad_pageWaits (s : State) (q : Nat) (v : Quad) : (s.setQuad q v).pageWaits = s.pageWaits := rfl
@[simp] theorem State.setQuad_hub (s : State) (q : Nat) (v : Quad) : (s.setQuad q v).hub = s.hub := rfl
@[simp] theorem State.setQuad_queues (s : State) (q : Nat) (v : Quad) : (s.setQuad q v).queues = s.queues := rfl
@[simp] theorem State.setQuad_qifs (s : State) (q : Nat) (v : Quad) : (s.setQuad q v).qifs = s.qifs := rfl
@[simp] theorem State.setQuad_captures (s : State) (q : Nat) (v : Quad) : (s.setQuad q v).captures = s.captures := rfl
@[simp] theorem State.setQuad_msi (s : State) (q : Nat) (v : Quad) : (s.setQuad q v).msi = s.msi := rfl
@[simp] theorem State.setQuad_ports (s : State) (q : Nat) (v : Quad) : (s.setQuad q v).ports = s.ports := rfl
@[simp] theorem State.setQuad_sent (s : State) (q : Nat) (v : Quad) : (s.setQuad q v).sent = s.sent := rfl
@[simp] theorem State.setQuad_bridgeBox (s : State) (q : Nat) (v : Quad) : (s.setQuad q v).bridgeBox = s.bridgeBox := rfl
@[simp] theorem State.setQuad_slack (s : State) (q : Nat) (v : Quad) : (s.setQuad q v).slack = s.slack := rfl
@[simp] theorem State.setQuad_rounds (s : State) (q : Nat) (v : Quad) : (s.setQuad q v).rounds = s.rounds := rfl
@[simp] theorem State.setQuad_ends (s : State) (q : Nat) (v : Quad) : (s.setQuad q v).ends = s.ends := rfl
@[simp] theorem State.setQuad_hostWaits (s : State) (q : Nat) (v : Quad) : (s.setQuad q v).hostWaits = s.hostWaits := rfl
@[simp] theorem State.setQuad_drops (s : State) (q : Nat) (v : Quad) : (s.setQuad q v).drops = s.drops := rfl
@[simp] theorem State.setQuad_clusterTlbs (s : State) (q : Nat) (v : Quad) : (s.setQuad q v).clusterTlbs = s.clusterTlbs := rfl
@[simp] theorem State.setQuad_striker (s : State) (q : Nat) (v : Quad) : (s.setQuad q v).striker = s.striker := rfl
@[simp] theorem State.setQuad_boot (s : State) (q : Nat) (v : Quad) : (s.setQuad q v).boot = s.boot := rfl

@[simp] theorem State.setDomain_agenda (s : State) (d : Nat) (v : Domain) : (s.setDomain d v).agenda = s.agenda := rfl
@[simp] theorem State.setDomain_cur (s : State) (d : Nat) (v : Domain) : (s.setDomain d v).cur = s.cur := rfl
@[simp] theorem State.setDomain_free (s : State) (d : Nat) (v : Domain) : (s.setDomain d v).free = s.free := rfl
@[simp] theorem State.setDomain_time (s : State) (d : Nat) (v : Domain) : (s.setDomain d v).time = s.time := rfl
@[simp] theorem State.setDomain_threads (s : State) (d : Nat) (v : Domain) : (s.setDomain d v).threads = s.threads := rfl
@[simp] theorem State.setDomain_cores (s : State) (d : Nat) (v : Domain) : (s.setDomain d v).cores = s.cores := rfl
@[simp] theorem State.setDomain_tasks (s : State) (d : Nat) (v : Domain) : (s.setDomain d v).tasks = s.tasks := rfl
@[simp] theorem State.setDomain_teamBars (s : State) (d : Nat) (v : Domain) : (s.setDomain d v).teamBars = s.teamBars := rfl
@[simp] theorem State.setDomain_offers (s : State) (d : Nat) (v : Domain) : (s.setDomain d v).offers = s.offers := rfl
@[simp] theorem State.setDomain_nextGang (s : State) (d : Nat) (v : Domain) : (s.setDomain d v).nextGang = s.nextGang := rfl
@[simp] theorem State.setDomain_nextKey (s : State) (d : Nat) (v : Domain) : (s.setDomain d v).nextKey = s.nextKey := rfl
@[simp] theorem State.setDomain_binds (s : State) (d : Nat) (v : Domain) : (s.setDomain d v).binds = s.binds := rfl
@[simp] theorem State.setDomain_mem (s : State) (d : Nat) (v : Domain) : (s.setDomain d v).mem = s.mem := rfl
@[simp] theorem State.setDomain_bad (s : State) (d : Nat) (v : Domain) : (s.setDomain d v).bad = s.bad := rfl
@[simp] theorem State.setDomain_wc (s : State) (d : Nat) (v : Domain) : (s.setDomain d v).wc = s.wc := rfl
@[simp] theorem State.setDomain_regions (s : State) (d : Nat) (v : Domain) : (s.setDomain d v).regions = s.regions := rfl
@[simp] theorem State.setDomain_vspill (s : State) (d : Nat) (v : Domain) : (s.setDomain d v).vspill = s.vspill := rfl
@[simp] theorem State.setDomain_pageWaits (s : State) (d : Nat) (v : Domain) : (s.setDomain d v).pageWaits = s.pageWaits := rfl
@[simp] theorem State.setDomain_hub (s : State) (d : Nat) (v : Domain) : (s.setDomain d v).hub = s.hub := rfl
@[simp] theorem State.setDomain_queues (s : State) (d : Nat) (v : Domain) : (s.setDomain d v).queues = s.queues := rfl
@[simp] theorem State.setDomain_qifs (s : State) (d : Nat) (v : Domain) : (s.setDomain d v).qifs = s.qifs := rfl
@[simp] theorem State.setDomain_captures (s : State) (d : Nat) (v : Domain) : (s.setDomain d v).captures = s.captures := rfl
@[simp] theorem State.setDomain_msi (s : State) (d : Nat) (v : Domain) : (s.setDomain d v).msi = s.msi := rfl
@[simp] theorem State.setDomain_ports (s : State) (d : Nat) (v : Domain) : (s.setDomain d v).ports = s.ports := rfl
@[simp] theorem State.setDomain_sent (s : State) (d : Nat) (v : Domain) : (s.setDomain d v).sent = s.sent := rfl
@[simp] theorem State.setDomain_bridgeBox (s : State) (d : Nat) (v : Domain) : (s.setDomain d v).bridgeBox = s.bridgeBox := rfl
@[simp] theorem State.setDomain_slack (s : State) (d : Nat) (v : Domain) : (s.setDomain d v).slack = s.slack := rfl
@[simp] theorem State.setDomain_rounds (s : State) (d : Nat) (v : Domain) : (s.setDomain d v).rounds = s.rounds := rfl
@[simp] theorem State.setDomain_ends (s : State) (d : Nat) (v : Domain) : (s.setDomain d v).ends = s.ends := rfl
@[simp] theorem State.setDomain_hostWaits (s : State) (d : Nat) (v : Domain) : (s.setDomain d v).hostWaits = s.hostWaits := rfl
@[simp] theorem State.setDomain_drops (s : State) (d : Nat) (v : Domain) : (s.setDomain d v).drops = s.drops := rfl
@[simp] theorem State.setDomain_clusterTlbs (s : State) (d : Nat) (v : Domain) : (s.setDomain d v).clusterTlbs = s.clusterTlbs := rfl
@[simp] theorem State.setDomain_striker (s : State) (d : Nat) (v : Domain) : (s.setDomain d v).striker = s.striker := rfl
@[simp] theorem State.setDomain_boot (s : State) (d : Nat) (v : Domain) : (s.setDomain d v).boot = s.boot := rfl

/-! ## Reading a thread, a core or a hub word after an update -/

@[simp] theorem State.thr_setThr (s : State) (i : Nat) (t : Thread) : (s.setThr i t).thr i = t := SMap.get_set_same _ _ _ _

theorem State.thr_setThr_other (s : State) {i j : Nat} (t : Thread) (h : j ≠ i) : (s.setThr i t).thr j = s.thr j :=
  SMap.get_set_other _ _ _ h

@[simp] theorem State.thr_modThr (s : State) (i : Nat) (f : Thread → Thread) : (s.modThr i f).thr i = f (s.thr i) := State.thr_setThr _ _ _

theorem State.thr_modThr_other (s : State) {i j : Nat} (f : Thread → Thread) (h : j ≠ i) : (s.modThr i f).thr j = s.thr j :=
  State.thr_setThr_other s _ h

@[simp] theorem State.me_modMe (s : State) (f : Thread → Thread) : (s.modMe f).me = f s.me := State.thr_setThr _ _ _

theorem State.thr_modMe_other (s : State) {j : Nat} (f : Thread → Thread) (h : j ≠ s.cur) : (s.modMe f).thr j = s.thr j :=
  State.thr_setThr_other s _ h

@[simp] theorem State.core_setCore (s : State) (c : Nat) (k : Core) : (s.setCore c k).core c = k := SMap.get_set_same _ _ _ _

theorem State.core_setCore_other (s : State) {c d : Nat} (k : Core) (h : d ≠ c) : (s.setCore c k).core d = s.core d :=
  SMap.get_set_other _ _ _ h

@[simp] theorem State.core_modCore (s : State) (c : Nat) (f : Core → Core) : (s.modCore c f).core c = f (s.core c) :=
  State.core_setCore _ _ _

theorem State.core_modCore_other (s : State) {c d : Nat} (f : Core → Core) (h : d ≠ c) : (s.modCore c f).core d = s.core d :=
  State.core_setCore_other s _ h

theorem State.reg_setReg (s : State) (o v : Nat) : (s.setReg o v).reg o = v % 2 ^ 64 := by
  simp [State.reg, State.setReg]

theorem State.reg_setReg_other (s : State) {o p : Nat} (v : Nat) (h : p ≠ o) : (s.setReg o v).reg p = s.reg p := by
  simp [State.reg, State.setReg, SMap.get_set_other _ _ _ h]

/-! ## Vectors -/

theorem vecGet_set_same {α : Type} {n : Nat} (v : Vector α n) (i : Fin n) (a : α) : (v.set i.val a i.isLt).get i = a := by
  show (v.set i.val a i.isLt)[i.val] = a
  simp

theorem vecGet_set_other {α : Type} {n : Nat} (v : Vector α n) {i j : Fin n} (a : α) (h : j ≠ i) :
    (v.set i.val a i.isLt).get j = v.get j := by
  have h' : i.val ≠ j.val := fun e => h (Fin.ext e.symm)
  show (v.set i.val a i.isLt)[j.val] = v[j.val]
  simp [h']

/-! ## Registers of the thread whose turn it is (R31, R34, R35) -/

@[simp] theorem State.getX_zero (s : State) : s.getX 0 = 0 := rfl

@[simp] theorem State.setX_zero (s : State) (w : Word) : s.setX 0 w = s := rfl

theorem State.getX_setX (s : State) (d r : XReg) (w : Word) :
    (s.setX d w).getX r = if r = 0 then 0 else if r = d then w else s.getX r := by
  unfold State.getX State.setX
  by_cases hr : r = 0
  · simp [hr]
  · by_cases hd : d = 0
    · subst hd
      simp [hr]
    · rw [if_neg hr, if_neg hr, if_neg hd, State.me_modMe]
      by_cases h : r = d
      · subst h
        exact (if_pos rfl).symm ▸ vecGet_set_same _ _ _
      · rw [if_neg h, if_neg hr]
        exact vecGet_set_other _ _ h

theorem State.getV_setV (s : State) (d r : VReg) (v : Vec) : (s.setV d v).getV r = if r = d then v else s.getV r := by
  unfold State.getV State.setV
  rw [State.me_modMe]
  by_cases h : r = d
  · subst h
    rw [if_pos rfl]
    exact vecGet_set_same _ _ _
  · rw [if_neg h]
    exact vecGet_set_other _ _ h

theorem State.getM_setM (s : State) (d r : MReg) (w : Word) : (s.setM d w).getM r = if r = d then w else s.getM r := by
  unfold State.getM State.setM
  rw [State.me_modMe]
  by_cases h : r = d
  · subst h
    rw [if_pos rfl]
    exact vecGet_set_same _ _ _
  · rw [if_neg h]
    exact vecGet_set_other _ _ h

@[simp] theorem State.me_setX_v (s : State) (d : XReg) (w : Word) : (s.setX d w).me.v = s.me.v := by
  unfold State.setX; split
  · rfl
  · rw [State.me_modMe]
@[simp] theorem State.me_setX_m (s : State) (d : XReg) (w : Word) : (s.setX d w).me.m = s.me.m := by
  unfold State.setX; split
  · rfl
  · rw [State.me_modMe]
@[simp] theorem State.me_setX_pc (s : State) (d : XReg) (w : Word) : (s.setX d w).me.pc = s.me.pc := by
  unfold State.setX; split
  · rfl
  · rw [State.me_modMe]
@[simp] theorem State.me_setX_slot (s : State) (d : XReg) (w : Word) : (s.setX d w).me.slot = s.me.slot := by
  unfold State.setX; split
  · rfl
  · rw [State.me_modMe]
@[simp] theorem State.me_setX_status (s : State) (d : XReg) (w : Word) : (s.setX d w).me.status = s.me.status := by
  unfold State.setX; split
  · rfl
  · rw [State.me_modMe]
@[simp] theorem State.me_setX_trap (s : State) (d : XReg) (w : Word) : (s.setX d w).me.trap = s.me.trap := by
  unfold State.setX; split
  · rfl
  · rw [State.me_modMe]
@[simp] theorem State.me_setX_csr (s : State) (d : XReg) (w : Word) : (s.setX d w).me.csr = s.me.csr := by
  unfold State.setX; split
  · rfl
  · rw [State.me_modMe]
@[simp] theorem State.me_setX_space (s : State) (d : XReg) (w : Word) : (s.setX d w).me.space = s.me.space := by
  unfold State.setX; split
  · rfl
  · rw [State.me_modMe]
@[simp] theorem State.me_setX_bind (s : State) (d : XReg) (w : Word) : (s.setX d w).me.bind = s.me.bind := by
  unfold State.setX; split
  · rfl
  · rw [State.me_modMe]
@[simp] theorem State.me_setX_sense (s : State) (d : XReg) (w : Word) : (s.setX d w).me.sense = s.me.sense := by
  unfold State.setX; split
  · rfl
  · rw [State.me_modMe]
@[simp] theorem State.me_setX_apbHandle (s : State) (d : XReg) (w : Word) : (s.setX d w).me.apbHandle = s.me.apbHandle := by
  unfold State.setX; split
  · rfl
  · rw [State.me_modMe]
@[simp] theorem State.me_setX_pause (s : State) (d : XReg) (w : Word) : (s.setX d w).me.pause = s.me.pause := by
  unfold State.setX; split
  · rfl
  · rw [State.me_modMe]
@[simp] theorem State.me_setX_yielded (s : State) (d : XReg) (w : Word) : (s.setX d w).me.yielded = s.me.yielded := by
  unfold State.setX; split
  · rfl
  · rw [State.me_modMe]
@[simp] theorem State.me_setX_wait (s : State) (d : XReg) (w : Word) : (s.setX d w).me.wait = s.me.wait := by
  unfold State.setX; split
  · rfl
  · rw [State.me_modMe]
@[simp] theorem State.me_setX_deferred (s : State) (d : XReg) (w : Word) : (s.setX d w).me.deferred = s.me.deferred := by
  unfold State.setX; split
  · rfl
  · rw [State.me_modMe]
@[simp] theorem State.me_setX_stopReq (s : State) (d : XReg) (w : Word) : (s.setX d w).me.stopReq = s.me.stopReq := by
  unfold State.setX; split
  · rfl
  · rw [State.me_modMe]
@[simp] theorem State.me_setX_phase (s : State) (d : XReg) (w : Word) : (s.setX d w).me.phase = s.me.phase := by
  unfold State.setX; split
  · rfl
  · rw [State.me_modMe]
@[simp] theorem State.me_setX_slotUnit (s : State) (d : XReg) (w : Word) : (s.setX d w).me.slotUnit = s.me.slotUnit := by
  unfold State.setX; split
  · rfl
  · rw [State.me_modMe]
@[simp] theorem State.me_setV_x (s : State) (d : VReg) (w : Vec) : (s.setV d w).me.x = s.me.x := by
  unfold State.setV; rw [State.me_modMe]
@[simp] theorem State.me_setV_m (s : State) (d : VReg) (w : Vec) : (s.setV d w).me.m = s.me.m := by
  unfold State.setV; rw [State.me_modMe]
@[simp] theorem State.me_setV_pc (s : State) (d : VReg) (w : Vec) : (s.setV d w).me.pc = s.me.pc := by
  unfold State.setV; rw [State.me_modMe]
@[simp] theorem State.me_setV_slot (s : State) (d : VReg) (w : Vec) : (s.setV d w).me.slot = s.me.slot := by
  unfold State.setV; rw [State.me_modMe]
@[simp] theorem State.me_setV_status (s : State) (d : VReg) (w : Vec) : (s.setV d w).me.status = s.me.status := by
  unfold State.setV; rw [State.me_modMe]
@[simp] theorem State.me_setV_trap (s : State) (d : VReg) (w : Vec) : (s.setV d w).me.trap = s.me.trap := by
  unfold State.setV; rw [State.me_modMe]
@[simp] theorem State.me_setV_csr (s : State) (d : VReg) (w : Vec) : (s.setV d w).me.csr = s.me.csr := by
  unfold State.setV; rw [State.me_modMe]
@[simp] theorem State.me_setV_space (s : State) (d : VReg) (w : Vec) : (s.setV d w).me.space = s.me.space := by
  unfold State.setV; rw [State.me_modMe]
@[simp] theorem State.me_setV_bind (s : State) (d : VReg) (w : Vec) : (s.setV d w).me.bind = s.me.bind := by
  unfold State.setV; rw [State.me_modMe]
@[simp] theorem State.me_setV_sense (s : State) (d : VReg) (w : Vec) : (s.setV d w).me.sense = s.me.sense := by
  unfold State.setV; rw [State.me_modMe]
@[simp] theorem State.me_setV_apbHandle (s : State) (d : VReg) (w : Vec) : (s.setV d w).me.apbHandle = s.me.apbHandle := by
  unfold State.setV; rw [State.me_modMe]
@[simp] theorem State.me_setV_pause (s : State) (d : VReg) (w : Vec) : (s.setV d w).me.pause = s.me.pause := by
  unfold State.setV; rw [State.me_modMe]
@[simp] theorem State.me_setV_yielded (s : State) (d : VReg) (w : Vec) : (s.setV d w).me.yielded = s.me.yielded := by
  unfold State.setV; rw [State.me_modMe]
@[simp] theorem State.me_setV_wait (s : State) (d : VReg) (w : Vec) : (s.setV d w).me.wait = s.me.wait := by
  unfold State.setV; rw [State.me_modMe]
@[simp] theorem State.me_setV_deferred (s : State) (d : VReg) (w : Vec) : (s.setV d w).me.deferred = s.me.deferred := by
  unfold State.setV; rw [State.me_modMe]
@[simp] theorem State.me_setV_stopReq (s : State) (d : VReg) (w : Vec) : (s.setV d w).me.stopReq = s.me.stopReq := by
  unfold State.setV; rw [State.me_modMe]
@[simp] theorem State.me_setV_phase (s : State) (d : VReg) (w : Vec) : (s.setV d w).me.phase = s.me.phase := by
  unfold State.setV; rw [State.me_modMe]
@[simp] theorem State.me_setV_slotUnit (s : State) (d : VReg) (w : Vec) : (s.setV d w).me.slotUnit = s.me.slotUnit := by
  unfold State.setV; rw [State.me_modMe]
@[simp] theorem State.me_setM_x (s : State) (d : MReg) (w : Word) : (s.setM d w).me.x = s.me.x := by
  unfold State.setM; rw [State.me_modMe]
@[simp] theorem State.me_setM_v (s : State) (d : MReg) (w : Word) : (s.setM d w).me.v = s.me.v := by
  unfold State.setM; rw [State.me_modMe]
@[simp] theorem State.me_setM_pc (s : State) (d : MReg) (w : Word) : (s.setM d w).me.pc = s.me.pc := by
  unfold State.setM; rw [State.me_modMe]
@[simp] theorem State.me_setM_slot (s : State) (d : MReg) (w : Word) : (s.setM d w).me.slot = s.me.slot := by
  unfold State.setM; rw [State.me_modMe]
@[simp] theorem State.me_setM_status (s : State) (d : MReg) (w : Word) : (s.setM d w).me.status = s.me.status := by
  unfold State.setM; rw [State.me_modMe]
@[simp] theorem State.me_setM_trap (s : State) (d : MReg) (w : Word) : (s.setM d w).me.trap = s.me.trap := by
  unfold State.setM; rw [State.me_modMe]
@[simp] theorem State.me_setM_csr (s : State) (d : MReg) (w : Word) : (s.setM d w).me.csr = s.me.csr := by
  unfold State.setM; rw [State.me_modMe]
@[simp] theorem State.me_setM_space (s : State) (d : MReg) (w : Word) : (s.setM d w).me.space = s.me.space := by
  unfold State.setM; rw [State.me_modMe]
@[simp] theorem State.me_setM_bind (s : State) (d : MReg) (w : Word) : (s.setM d w).me.bind = s.me.bind := by
  unfold State.setM; rw [State.me_modMe]
@[simp] theorem State.me_setM_sense (s : State) (d : MReg) (w : Word) : (s.setM d w).me.sense = s.me.sense := by
  unfold State.setM; rw [State.me_modMe]
@[simp] theorem State.me_setM_apbHandle (s : State) (d : MReg) (w : Word) : (s.setM d w).me.apbHandle = s.me.apbHandle := by
  unfold State.setM; rw [State.me_modMe]
@[simp] theorem State.me_setM_pause (s : State) (d : MReg) (w : Word) : (s.setM d w).me.pause = s.me.pause := by
  unfold State.setM; rw [State.me_modMe]
@[simp] theorem State.me_setM_yielded (s : State) (d : MReg) (w : Word) : (s.setM d w).me.yielded = s.me.yielded := by
  unfold State.setM; rw [State.me_modMe]
@[simp] theorem State.me_setM_wait (s : State) (d : MReg) (w : Word) : (s.setM d w).me.wait = s.me.wait := by
  unfold State.setM; rw [State.me_modMe]
@[simp] theorem State.me_setM_deferred (s : State) (d : MReg) (w : Word) : (s.setM d w).me.deferred = s.me.deferred := by
  unfold State.setM; rw [State.me_modMe]
@[simp] theorem State.me_setM_stopReq (s : State) (d : MReg) (w : Word) : (s.setM d w).me.stopReq = s.me.stopReq := by
  unfold State.setM; rw [State.me_modMe]
@[simp] theorem State.me_setM_phase (s : State) (d : MReg) (w : Word) : (s.setM d w).me.phase = s.me.phase := by
  unfold State.setM; rw [State.me_modMe]
@[simp] theorem State.me_setM_slotUnit (s : State) (d : MReg) (w : Word) : (s.setM d w).me.slotUnit = s.me.slotUnit := by
  unfold State.setM; rw [State.me_modMe]

theorem State.thr_setX_other (s : State) {j : Nat} (d : XReg) (w : Word) (h : j ≠ s.cur) : (s.setX d w).thr j = s.thr j := by
  unfold State.setX
  split
  · rfl
  · exact State.thr_modMe_other s _ h

theorem State.thr_setV_other (s : State) {j : Nat} (d : VReg) (w : Vec) (h : j ≠ s.cur) : (s.setV d w).thr j = s.thr j :=
  State.thr_modMe_other s _ h

theorem State.thr_setM_other (s : State) {j : Nat} (d : MReg) (w : Word) (h : j ≠ s.cur) : (s.setM d w).thr j = s.thr j :=
  State.thr_modMe_other s _ h

theorem State.thr_retire_other (s : State) {j : Nat} (n : Nat) (h : j ≠ s.cur) : (s.retire n).thr j = s.thr j :=
  State.thr_modMe_other s _ h

/-! ## Retirement -/

@[simp] theorem State.me_retire (s : State) (n : Nat) : (s.retire n).me = s.me.retire n := State.me_modMe _ _

@[simp] theorem Thread.retire_x (t : Thread) (n : Nat) : (t.retire n).x = t.x := rfl
@[simp] theorem Thread.count_x (t : Thread) (c n : Nat) : (t.count c n).x = t.x := by unfold Thread.count; rfl
@[simp] theorem Thread.retire_v (t : Thread) (n : Nat) : (t.retire n).v = t.v := rfl
@[simp] theorem Thread.count_v (t : Thread) (c n : Nat) : (t.count c n).v = t.v := by unfold Thread.count; rfl
@[simp] theorem Thread.retire_m (t : Thread) (n : Nat) : (t.retire n).m = t.m := rfl
@[simp] theorem Thread.count_m (t : Thread) (c n : Nat) : (t.count c n).m = t.m := by unfold Thread.count; rfl
@[simp] theorem Thread.retire_trap (t : Thread) (n : Nat) : (t.retire n).trap = t.trap := rfl
@[simp] theorem Thread.count_trap (t : Thread) (c n : Nat) : (t.count c n).trap = t.trap := by unfold Thread.count; rfl
@[simp] theorem Thread.retire_space (t : Thread) (n : Nat) : (t.retire n).space = t.space := rfl
@[simp] theorem Thread.count_space (t : Thread) (c n : Nat) : (t.count c n).space = t.space := by unfold Thread.count; rfl
@[simp] theorem Thread.retire_bind (t : Thread) (n : Nat) : (t.retire n).bind = t.bind := rfl
@[simp] theorem Thread.count_bind (t : Thread) (c n : Nat) : (t.count c n).bind = t.bind := by unfold Thread.count; rfl
@[simp] theorem Thread.retire_sense (t : Thread) (n : Nat) : (t.retire n).sense = t.sense := rfl
@[simp] theorem Thread.count_sense (t : Thread) (c n : Nat) : (t.count c n).sense = t.sense := by unfold Thread.count; rfl
@[simp] theorem Thread.retire_apbHandle (t : Thread) (n : Nat) : (t.retire n).apbHandle = t.apbHandle := rfl
@[simp] theorem Thread.count_apbHandle (t : Thread) (c n : Nat) : (t.count c n).apbHandle = t.apbHandle := by unfold Thread.count; rfl
@[simp] theorem Thread.retire_pause (t : Thread) (n : Nat) : (t.retire n).pause = t.pause := rfl
@[simp] theorem Thread.count_pause (t : Thread) (c n : Nat) : (t.count c n).pause = t.pause := by unfold Thread.count; rfl
@[simp] theorem Thread.retire_deferred (t : Thread) (n : Nat) : (t.retire n).deferred = t.deferred := rfl
@[simp] theorem Thread.count_deferred (t : Thread) (c n : Nat) : (t.count c n).deferred = t.deferred := by unfold Thread.count; rfl
@[simp] theorem Thread.retire_stopReq (t : Thread) (n : Nat) : (t.retire n).stopReq = t.stopReq := rfl
@[simp] theorem Thread.count_stopReq (t : Thread) (c n : Nat) : (t.count c n).stopReq = t.stopReq := by unfold Thread.count; rfl
@[simp] theorem Thread.retire_phase (t : Thread) (n : Nat) : (t.retire n).phase = t.phase := rfl
@[simp] theorem Thread.retire_slotUnit (t : Thread) (n : Nat) : (t.retire n).slotUnit = t.slotUnit := rfl
@[simp] theorem Thread.count_phase (t : Thread) (c n : Nat) : (t.count c n).phase = t.phase := by unfold Thread.count; rfl
@[simp] theorem Thread.count_slotUnit (t : Thread) (c n : Nat) : (t.count c n).slotUnit = t.slotUnit := by unfold Thread.count; rfl
@[simp] theorem Thread.count_pc (t : Thread) (c n : Nat) : (t.count c n).pc = t.pc := by unfold Thread.count; rfl
@[simp] theorem Thread.count_slot (t : Thread) (c n : Nat) : (t.count c n).slot = t.slot := by unfold Thread.count; rfl
@[simp] theorem Thread.count_wait (t : Thread) (c n : Nat) : (t.count c n).wait = t.wait := by unfold Thread.count; rfl
@[simp] theorem Thread.count_yielded (t : Thread) (c n : Nat) : (t.count c n).yielded = t.yielded := by unfold Thread.count; rfl
@[simp] theorem Thread.count_status (t : Thread) (c n : Nat) : (t.count c n).status = t.status := by unfold Thread.count; rfl
@[simp] theorem Thread.retire_pc (t : Thread) (n : Nat) : (t.retire n).pc = t.pc + BitVec.ofNat 64 n := rfl
@[simp] theorem Thread.retire_slot (t : Thread) (n : Nat) : (t.retire n).slot = .active := rfl
@[simp] theorem Thread.retire_wait (t : Thread) (n : Nat) : (t.retire n).wait = none := rfl
@[simp] theorem Thread.retire_yielded (t : Thread) (n : Nat) : (t.retire n).yielded = false := rfl
@[simp] theorem Thread.retire_status (t : Thread) (n : Nat) : (t.retire n).status = { t.status with waiting := false } := rfl
@[simp] theorem Thread.retire_instret (t : Thread) (n : Nat) : (t.retire n).csr.instret = t.csr.instret + 1 := rfl
@[simp] theorem Thread.retire_fflags (t : Thread) (n : Nat) : (t.retire n).csr.fflags = t.csr.fflags := rfl
@[simp] theorem Thread.count_fflags (t : Thread) (c n : Nat) : (t.count c n).csr.fflags = t.csr.fflags := by unfold Thread.count; rfl
@[simp] theorem Thread.retire_frm (t : Thread) (n : Nat) : (t.retire n).csr.frm = t.csr.frm := rfl
@[simp] theorem Thread.count_frm (t : Thread) (c n : Nat) : (t.count c n).csr.frm = t.csr.frm := by unfold Thread.count; rfl
@[simp] theorem Thread.retire_srseed (t : Thread) (n : Nat) : (t.retire n).csr.srseed = t.csr.srseed := rfl
@[simp] theorem Thread.count_srseed (t : Thread) (c n : Nat) : (t.count c n).csr.srseed = t.csr.srseed := by unfold Thread.count; rfl
@[simp] theorem Thread.retire_cycle (t : Thread) (n : Nat) : (t.retire n).csr.cycle = t.csr.cycle := rfl
@[simp] theorem Thread.count_cycle (t : Thread) (c n : Nat) : (t.count c n).csr.cycle = t.csr.cycle := by unfold Thread.count; rfl
@[simp] theorem Thread.count_instret (t : Thread) (c n : Nat) : (t.count c n).csr.instret = t.csr.instret := by unfold Thread.count; rfl
@[simp] theorem Thread.retire_thresh (t : Thread) (n : Nat) : (t.retire n).csr.thresh = t.csr.thresh := rfl
@[simp] theorem Thread.count_thresh (t : Thread) (c n : Nat) : (t.count c n).csr.thresh = t.csr.thresh := by unfold Thread.count; rfl
@[simp] theorem Thread.retire_threshFmt (t : Thread) (n : Nat) : (t.retire n).csr.threshFmt = t.csr.threshFmt := rfl
@[simp] theorem Thread.count_threshFmt (t : Thread) (c n : Nat) : (t.count c n).csr.threshFmt = t.csr.threshFmt := by unfold Thread.count; rfl
@[simp] theorem Thread.retire_wakeClass (t : Thread) (n : Nat) : (t.retire n).csr.wakeClass = t.csr.wakeClass := rfl
@[simp] theorem Thread.count_wakeClass (t : Thread) (c n : Nat) : (t.count c n).csr.wakeClass = t.csr.wakeClass := by unfold Thread.count; rfl
@[simp] theorem Thread.retire_wakeMask (t : Thread) (n : Nat) : (t.retire n).csr.wakeMask = t.csr.wakeMask := rfl
@[simp] theorem Thread.count_wakeMask (t : Thread) (c n : Nat) : (t.count c n).csr.wakeMask = t.csr.wakeMask := by unfold Thread.count; rfl
@[simp] theorem Thread.retire_vwaitlim (t : Thread) (n : Nat) : (t.retire n).csr.vwaitlim = t.csr.vwaitlim := rfl
@[simp] theorem Thread.count_vwaitlim (t : Thread) (c n : Nat) : (t.count c n).csr.vwaitlim = t.csr.vwaitlim := by unfold Thread.count; rfl
@[simp] theorem Thread.retire_evsel (t : Thread) (n : Nat) : (t.retire n).csr.evsel = t.csr.evsel := rfl
@[simp] theorem Thread.count_evsel (t : Thread) (c n : Nat) : (t.count c n).csr.evsel = t.csr.evsel := by unfold Thread.count; rfl

@[simp] theorem State.getX_retire (s : State) (n : Nat) (r : XReg) : (s.retire n).getX r = s.getX r := by
  unfold State.getX
  rw [State.me_retire]
  rfl

@[simp] theorem State.getV_retire (s : State) (n : Nat) (r : VReg) : (s.retire n).getV r = s.getV r := by
  unfold State.getV
  rw [State.me_retire]
  rfl

@[simp] theorem State.getM_retire (s : State) (n : Nat) (r : MReg) : (s.retire n).getM r = s.getM r := by
  unfold State.getM
  rw [State.me_retire]
  rfl

end Sys2Proof.Machine
end

