-- ==== Sys2Proof/Laws/Ops.lean ====
section
/-!
SUPPORT. What each shared operation of Machine/Ops can do, said once: the callers' proofs cite these and unfold nothing.
-/
namespace Sys2Proof.Machine

/-! ## Ends of a meaning -/

theorem State.fin_eq (s : State) (n : Nat) : s.fin n = .next (s.retire n) := rfl

theorem State.putX_eq (s : State) (d : XReg) (w : Word) (n : Nat) : s.putX d w n = .next ((s.setX d w).retire n) := rfl

theorem State.trapOut_eq (s : State) (code : Nat) (eval : Word) : s.trapOut code eval = .next (s.trap code eval) := rfl

/-- A load into a register answers a next state, of two kinds. -/
theorem State.loadX_cases (s : State) (ask : Ask) (va : Word) (k : Nat) (f : List Byte → Word) (d : XReg) (n : Nat) :
    (∃ u bs, s.load ask va k = .ok (u, bs) ∧ s.loadX ask va k f d n = .next ((u.setX d (f bs)).retire n)) ∨
    ∃ e, s.load ask va k = .error e ∧ s.loadX ask va k f d n = .next (s.failed ask.acc e) := by
  unfold State.loadX
  cases h : s.load ask va k with
  | ok r => exact .inl ⟨r.1, r.2, rfl, rfl⟩
  | error e => exact .inr ⟨e, rfl, rfl⟩

/-- A store answers a next state, of two kinds. -/
theorem State.storeBytes_cases (s : State) (ask : Ask) (va : Word) (bs : List Byte) (n : Nat) :
    (∃ u, s.store ask va bs = .ok u ∧ s.storeBytes ask va bs n = .next (u.retire n)) ∨
    ∃ e, s.store ask va bs = .error e ∧ s.storeBytes ask va bs n = .next (s.failed ask.acc e) := by
  unfold State.storeBytes
  cases h : s.store ask va bs with
  | ok r => exact .inl ⟨r, rfl, rfl⟩
  | error e => exact .inr ⟨e, rfl, rfl⟩

/-! ## Accesses -/

/-- A load that succeeds has passed every check, met no bad word, and reads the spans as they stand after its side effects. -/
theorem State.load_ok {s u : State} {ask : Ask} {va : Word} {n : Nat} {bs : List Byte} (h : s.load ask va n = .ok (u, bs)) :
    ∃ ad, s.check s.meWho ask va n = .ok ad ∧ s.badSpan false ad.spans = none ∧
      u = (s.admitAccess s.meWho ad).loadEffect s.cur ad.spans ∧ bs = u.bytesAt ad.spans := by
  unfold State.load at h
  split at h
  · cases h
  · rename_i ad hc
    split at h
    · cases h
    · rename_i hb
      cases h
      exact ⟨ad, hc, hb, rfl, rfl⟩

/-- A load that fails has failed a check or met a bad word. -/
theorem State.load_error {s : State} {ask : Ask} {va : Word} {n : Nat} {f : AFault} (h : s.load ask va n = .error f) :
    s.check s.meWho ask va n = .error f ∨
      ∃ ad k a, s.check s.meWho ask va n = .ok ad ∧ s.badSpan false ad.spans = some (k, a) ∧ f = .poison k a := by
  unfold State.load at h
  split at h
  · rename_i e hc
    cases h
    exact .inl hc
  · rename_i ad hc
    split at h
    · rename_i k a hb
      cases h
      exact .inr ⟨ad, k, a, hc, hb, rfl⟩
    · cases h

/-- A store that succeeds has passed every check, met no bad word it does not replace, notes those it replaces whole, and writes the spans. -/
theorem State.store_ok {s u : State} {ask : Ask} {va : Word} {bs : List Byte} (h : s.store ask va bs = .ok u) :
    ∃ ad, s.check s.meWho ask va bs.length = .ok ad ∧ msiRefused ad.spans bs = false ∧ s.badSpan true ad.spans = none ∧
      u = ((s.admitAccess s.meWho ad).noteWhole (s.tenantOf s.cur) ad.spans).writeSpans (fun s o v => s.hubStore true o v) s.cur true ad.spans bs := by
  unfold State.store at h
  split at h
  · cases h
  · rename_i ad hc
    split at h
    · cases h
    · rename_i hm
      split at h
      · cases h
      · rename_i hb
        cases h
        exact ⟨ad, hc, by simpa using hm, hb, rfl⟩

/-! ## Traps -/

@[simp] theorem Thread.enterTrap_pc (t : Thread) (c : Nat) (d : Bool) (e : Word) :
    (t.enterTrap c d e).pc = t.trap.etvecBase.setWidth 64 * 4 := rfl

@[simp] theorem Thread.enterTrap_slot (t : Thread) (c : Nat) (d : Bool) (e : Word) : (t.enterTrap c d e).slot = .active := rfl

@[simp] theorem Thread.enterTrap_wait (t : Thread) (c : Nat) (d : Bool) (e : Word) : (t.enterTrap c d e).wait = none := rfl

@[simp] theorem Thread.enterTrap_priv (t : Thread) (c : Nat) (d : Bool) (e : Word) : (t.enterTrap c d e).status.priv = true := rfl

@[simp] theorem Thread.enterTrap_ppriv (t : Thread) (c : Nat) (d : Bool) (e : Word) : (t.enterTrap c d e).trap.ppriv = t.status.priv := rfl

@[simp] theorem Thread.enterTrap_epc (t : Thread) (c : Nat) (d : Bool) (e : Word) : (t.enterTrap c d e).trap.epc = t.pc.setWidth 47 := rfl

@[simp] theorem Thread.enterTrap_code (t : Thread) (c : Nat) (d : Bool) (e : Word) :
    (t.enterTrap c d e).trap.code = BitVec.ofNat 8 c := rfl

@[simp] theorem Thread.enterTrap_eval (t : Thread) (c : Nat) (d : Bool) (e : Word) : (t.enterTrap c d e).trap.eval = e := rfl

@[simp] theorem Thread.enterTrap_trapped (t : Thread) (c : Nat) (d : Bool) (e : Word) : (t.enterTrap c d e).trap.trapped = true := rfl

/-- A return brings back the saved pc and privilege, and the handler may trap again. -/
theorem Thread.eret_restores (t : Thread) :
    t.eret.pc = t.trap.epc.setWidth 64 ∧ t.eret.status.priv = t.trap.ppriv ∧ t.eret.trap.trapped = false ∧ t.eret.trap.waitAbandon = false :=
  ⟨rfl, rfl, rfl, rfl⟩

/-- A return right after an entry stands at the trapped instruction, where its pc lies in the address range, with the privilege it had. -/
theorem Thread.eret_enterTrap (t : Thread) (c : Nat) (d : Bool) (e : Word) (h : t.pc.toNat < 2 ^ 47) :
    (t.enterTrap c d e).eret.pc = t.pc ∧ (t.enterTrap c d e).eret.status.priv = t.status.priv := by
  refine ⟨?_, rfl⟩
  show (t.pc.setWidth 47).setWidth 64 = t.pc
  apply BitVec.eq_of_toNat_eq
  simp only [BitVec.toNat_setWidth]
  omega

/-- With the handler ready and no gang, a trap changes the thread alone, and takes it out of what it waited for. -/
theorem State.trapOf_handler {s : State} {tid : Nat} (h : (s.thr tid).handles = true) (g : s.gangOf tid = none) (code : Nat)
    (deferred : Bool) (eval : Word) :
    s.trapOf tid code deferred eval none = (s.leaveWait tid).setThr tid ((s.thr tid).enterTrap code deferred eval) := by
  have e : (s.leaveWait tid).thr tid = s.thr tid := rfl
  have g' : ((s.leaveWait tid).setThr tid ((s.thr tid).enterTrap code deferred eval)).gangOf tid = none := g
  unfold State.trapOf
  simp only [e, h, if_true, g']

/-- A trap whose handler cannot be entered ends the task, or the service thread as HALT does (Table 21-1). -/
theorem State.trapOf_cases (s : State) (tid code : Nat) (deferred : Bool) (eval : Word) (ehb : Option (Vector Word 8)) :
    (s.thr tid).handles = true ∨
    (∃ g, s.gangOf tid = some g ∧ s.trapOf tid code deferred eval ehb = (s.leaveWait tid).endTask g Status.taskTrap code eval) ∨
    s.trapOf tid code deferred eval ehb = (s.leaveWait tid).endService tid code := by
  by_cases h : (s.thr tid).handles = true
  · exact .inl h
  · have e : (s.leaveWait tid).thr tid = s.thr tid := rfl
    have g : (s.leaveWait tid).gangOf tid = s.gangOf tid := rfl
    unfold State.trapOf
    simp only [e, h, Bool.false_eq_true, if_false, g]
    cases hg : s.gangOf tid with
    | none => exact .inr (.inr rfl)
    | some x => exact .inr (.inl ⟨x, rfl, rfl⟩)

/-! ## Waiting -/

/-- An instruction that waits for the matrix queue runs on the drained state, or a deferred trap comes before it. -/
theorem State.afterDrain_cases (s : State) (wait : Bool) (k : State → Out) :
    s.afterDrain wait k = k s ∨ s.afterDrain wait k = .next (s.mxDrain s.myCore 16) ∨ s.afterDrain wait k = k (s.mxDrain s.myCore 16) := by
  unfold State.afterDrain
  split
  · dsimp only
    split
    · exact .inr (.inl rfl)
    · exact .inr (.inr rfl)
  · exact .inl rfl

@[simp] theorem Thread.sleep_slot (t : Thread) (why : WaitWhy) (now : Nat) (a : Word) (k : Nat) (v : Word) (d : Nat) :
    (t.sleep why now a k v d).slot = .asleep := rfl

@[simp] theorem Thread.sleep_pc (t : Thread) (why : WaitWhy) (now : Nat) (a : Word) (k : Nat) (v : Word) (d : Nat) :
    (t.sleep why now a k v d).pc = t.pc := rfl

/-- The watchdog of a wait runs on from the first sleep of the same execution (R306). -/
theorem Thread.sleep_again (t : Thread) (why : WaitWhy) (now : Nat) (a : Word) (k : Nat) (v : Word) (d : Nat) (w : WaitRec)
    (h : t.wait = some w) (e : w.why = why) : (t.sleep why now a k v d).wait = some ⟨why, w.since, a, k, v, d, none⟩ := by
  simp [Thread.sleep, h, e]

/-- A first sleep counts from now. -/
theorem Thread.sleep_first (t : Thread) (why : WaitWhy) (now : Nat) (a : Word) (k : Nat) (v : Word) (d : Nat) (h : t.wait = none) :
    (t.sleep why now a k v d).wait = some ⟨why, now, a, k, v, d, none⟩ := by
  simp [Thread.sleep, h]

end Sys2Proof.Machine
end

