-- ==== Sys2Proof/Laws/PerInstr.lean ====
section
/-!
SUPPORT. The encoder and the decoder agree, one lemma per instruction (R36 to R57): the words of a well-formed instruction decode
to it, with every operand at every value. An event has no words.
-/
set_option Elab.async false

namespace Sys2Proof.Laws.RoundTrip

/-- The words of a well-formed instruction fit and decode to it. -/
def Statement (i : Instr) : Prop :=
  i.wellFormed = true →
    (encode i).1 < 2 ^ 32 ∧ (encode i).2.1 < 2 ^ 64 ∧ (encode i).2.2 < 2 ^ 64 ∧
      decode (encode i).1 (encode i).2.1 (encode i).2.2 = .instr i

theorem of_words {i : Instr} {w0 y1 y2 : Nat} (he : encode i = (w0, y1, y2))
    (k : ∀ w x1 x2, w = w0 → x1 = y1 → x2 = y2 → i.wellFormed = true →
      w < 2 ^ 32 ∧ x1 < 2 ^ 64 ∧ x2 < 2 ^ 64 ∧ decode w x1 x2 = .instr i) : Statement i := by
  intro h
  rw [he]
  exact k w0 y1 y2 rfl rfl rfl h

section
variable {w len maj d a b fn opt imm k cond off m ty rs : Nat}

/-- The operands of the layout eReg fit their fields. -/
def RegOk (len maj d a b fn opt : Nat) : Prop := len < 4 ∧ maj < 64 ∧ d < 32 ∧ a < 32 ∧ b < 32 ∧ fn < 64 ∧ opt < 8

theorem eReg_lt (hw : w = eReg len maj d a b fn opt) (hk : RegOk len maj d a b fn opt) : w < 2 ^ 32 := by
  subst hw
  obtain ⟨_, _, _, _, _, _, _⟩ := hk
  simp only [eReg]; omega

/-- The operands of the layout eImm fit their fields. -/
def ImmOk (len maj d a imm fn : Nat) : Prop := len < 4 ∧ maj < 64 ∧ d < 32 ∧ a < 32 ∧ imm < 1024 ∧ fn < 16

theorem eImm_lt (hw : w = eImm len maj d a imm fn) (hk : ImmOk len maj d a imm fn) : w < 2 ^ 32 := by
  subst hw
  obtain ⟨_, _, _, _, _, _⟩ := hk
  simp only [eImm]; omega

/-- The operands of the layout eKon fit their fields. -/
def KonOk (maj d a k fn : Nat) : Prop := maj < 64 ∧ d < 32 ∧ a < 32 ∧ k < 256 ∧ fn < 64

theorem eKon_lt (hw : w = eKon maj d a k fn) (hk : KonOk maj d a k fn) : w < 2 ^ 32 := by
  subst hw
  obtain ⟨_, _, _, _, _⟩ := hk
  simp only [eKon]; omega

/-- The operands of the layout eBr fit their fields. -/
def BrOk (len a b cond off : Nat) : Prop := len < 4 ∧ a < 32 ∧ b < 32 ∧ cond < 8 ∧ off < 2048

theorem eBr_lt (hw : w = eBr len a b cond off) (hk : BrOk len a b cond off) : w < 2 ^ 32 := by
  subst hw
  obtain ⟨_, _, _, _, _⟩ := hk
  simp only [eBr]; omega

/-- The operands of the layout eVec fit their fields. -/
def VecOk (maj d a b m ty fn : Nat) : Prop := maj < 64 ∧ d < 16 ∧ a < 16 ∧ b < 16 ∧ m < 8 ∧ ty < 8 ∧ fn < 64

theorem eVec_lt (hw : w = eVec maj d a b m ty fn) (hk : VecOk maj d a b m ty fn) : w < 2 ^ 32 := by
  subst hw
  obtain ⟨_, _, _, _, _, _, _⟩ := hk
  simp only [eVec]; omega

/-- The operands of the layout eTil fit their fields. -/
def TilOk (maj d a b rs fn opt : Nat) : Prop := maj < 64 ∧ d < 16 ∧ a < 16 ∧ b < 16 ∧ rs < 32 ∧ fn < 16 ∧ opt < 8

theorem eTil_lt (hw : w = eTil maj d a b rs fn opt) (hk : TilOk maj d a b rs fn opt) : w < 2 ^ 32 := by
  subst hw
  obtain ⟨_, _, _, _, _, _, _⟩ := hk
  simp only [eTil]; omega

theorem eReg_bits_2_6 (hw : w = eReg len maj d a b fn opt) (hk : RegOk len maj d a b fn opt) : bits w 2 6 = maj := by
  subst hw
  obtain ⟨_, _, _, _, _, _, _⟩ := hk
  exact by simp only [bits, eReg]; omega

theorem eReg_fRd (hw : w = eReg len maj d a b fn opt) (hk : RegOk len maj d a b fn opt) : fRd w = Fin.ofNat 32 (d) := by
  subst hw
  obtain ⟨_, _, _, _, _, _, _⟩ := hk
  exact Fin.ext (by simp only [fRd, Fin.ofNat, eReg]; omega)

theorem eReg_fRs1 (hw : w = eReg len maj d a b fn opt) (hk : RegOk len maj d a b fn opt) : fRs1 w = Fin.ofNat 32 (a) := by
  subst hw
  obtain ⟨_, _, _, _, _, _, _⟩ := hk
  exact Fin.ext (by simp only [fRs1, Fin.ofNat, eReg]; omega)

theorem eReg_fRs2 (hw : w = eReg len maj d a b fn opt) (hk : RegOk len maj d a b fn opt) : fRs2 w = Fin.ofNat 32 (b) := by
  subst hw
  obtain ⟨_, _, _, _, _, _, _⟩ := hk
  exact Fin.ext (by simp only [fRs2, Fin.ofNat, eReg]; omega)

theorem eReg_fFn (hw : w = eReg len maj d a b fn opt) (hk : RegOk len maj d a b fn opt) : fFn w = fn := by
  subst hw
  obtain ⟨_, _, _, _, _, _, _⟩ := hk
  exact by simp only [fFn, bits, eReg]; omega

theorem eReg_fOpt (hw : w = eReg len maj d a b fn opt) (hk : RegOk len maj d a b fn opt) : fOpt w = opt := by
  subst hw
  obtain ⟨_, _, _, _, _, _, _⟩ := hk
  exact by simp only [fOpt, bits, eReg]; omega

theorem eReg_4 (hw : w = eReg len maj d a b fn opt) (hk : RegOk len maj d a b fn opt) : w % 4 = len := by
  subst hw
  obtain ⟨_, _, _, _, _, _, _⟩ := hk
  exact by simp only [eReg]; omega

theorem eImm_bits_2_6 (hw : w = eImm len maj d a imm fn) (hk : ImmOk len maj d a imm fn) : bits w 2 6 = maj := by
  subst hw
  obtain ⟨_, _, _, _, _, _⟩ := hk
  exact by simp only [bits, eImm]; omega

theorem eImm_fRd (hw : w = eImm len maj d a imm fn) (hk : ImmOk len maj d a imm fn) : fRd w = Fin.ofNat 32 (d) := by
  subst hw
  obtain ⟨_, _, _, _, _, _⟩ := hk
  exact Fin.ext (by simp only [fRd, Fin.ofNat, eImm]; omega)

theorem eImm_fRs1 (hw : w = eImm len maj d a imm fn) (hk : ImmOk len maj d a imm fn) : fRs1 w = Fin.ofNat 32 (a) := by
  subst hw
  obtain ⟨_, _, _, _, _, _⟩ := hk
  exact Fin.ext (by simp only [fRs1, Fin.ofNat, eImm]; omega)

theorem eImm_fImm (hw : w = eImm len maj d a imm fn) (hk : ImmOk len maj d a imm fn) : fImm w = BitVec.ofNat 10 (imm) := by
  subst hw
  obtain ⟨_, _, _, _, _, _⟩ := hk
  exact BitVec.eq_of_toNat_eq (by simp only [fImm, BitVec.toNat_ofNat, eImm]; omega)

theorem eImm_bits_28_4 (hw : w = eImm len maj d a imm fn) (hk : ImmOk len maj d a imm fn) : bits w 28 4 = fn := by
  subst hw
  obtain ⟨_, _, _, _, _, _⟩ := hk
  exact by simp only [bits, eImm]; omega

theorem eImm_4 (hw : w = eImm len maj d a imm fn) (hk : ImmOk len maj d a imm fn) : w % 4 = len := by
  subst hw
  obtain ⟨_, _, _, _, _, _⟩ := hk
  exact by simp only [eImm]; omega

theorem eImm_BitVec_ofNat_6_2_18 (hw : w = eImm len maj d a imm fn) (hk : ImmOk len maj d a imm fn) : BitVec.ofNat 6 (w / 2 ^ 18) = BitVec.ofNat 6 (imm % 64) := by
  subst hw
  obtain ⟨_, _, _, _, _, _⟩ := hk
  exact BitVec.eq_of_toNat_eq (by simp only [BitVec.toNat_ofNat, eImm]; omega)

theorem eImm_bits_24_4 (hw : w = eImm len maj d a imm fn) (hk : ImmOk len maj d a imm fn) : bits w 24 4 = imm / 64 := by
  subst hw
  obtain ⟨_, _, _, _, _, _⟩ := hk
  exact by simp only [bits, eImm]; omega

theorem eKon_bits_2_6 (hw : w = eKon maj d a k fn) (hk : KonOk maj d a k fn) : bits w 2 6 = maj := by
  subst hw
  obtain ⟨_, _, _, _, _⟩ := hk
  exact by simp only [bits, eKon]; omega

theorem eKon_fRd (hw : w = eKon maj d a k fn) (hk : KonOk maj d a k fn) : fRd w = Fin.ofNat 32 (d) := by
  subst hw
  obtain ⟨_, _, _, _, _⟩ := hk
  exact Fin.ext (by simp only [fRd, Fin.ofNat, eKon]; omega)

theorem eKon_fRs1 (hw : w = eKon maj d a k fn) (hk : KonOk maj d a k fn) : fRs1 w = Fin.ofNat 32 (a) := by
  subst hw
  obtain ⟨_, _, _, _, _⟩ := hk
  exact Fin.ext (by simp only [fRs1, Fin.ofNat, eKon]; omega)

theorem eKon_BitVec_ofNat_8_2_18 (hw : w = eKon maj d a k fn) (hk : KonOk maj d a k fn) : BitVec.ofNat 8 (w / 2 ^ 18) = BitVec.ofNat 8 (k) := by
  subst hw
  obtain ⟨_, _, _, _, _⟩ := hk
  exact BitVec.eq_of_toNat_eq (by simp only [BitVec.toNat_ofNat, eKon]; omega)

theorem eKon_bits_26_6 (hw : w = eKon maj d a k fn) (hk : KonOk maj d a k fn) : bits w 26 6 = fn := by
  subst hw
  obtain ⟨_, _, _, _, _⟩ := hk
  exact by simp only [bits, eKon]; omega

theorem eKon_4 (hw : w = eKon maj d a k fn) (hk : KonOk maj d a k fn) : w % 4 = 0 := by
  subst hw
  obtain ⟨_, _, _, _, _⟩ := hk
  exact by simp only [eKon]; omega

theorem eBr_bits_2_6 (hw : w = eBr len a b cond off) (hk : BrOk len a b cond off) : bits w 2 6 = 8 := by
  subst hw
  obtain ⟨_, _, _, _, _⟩ := hk
  exact by simp only [bits, eBr]; omega

theorem eBr_fRd (hw : w = eBr len a b cond off) (hk : BrOk len a b cond off) : fRd w = Fin.ofNat 32 (a) := by
  subst hw
  obtain ⟨_, _, _, _, _⟩ := hk
  exact Fin.ext (by simp only [fRd, Fin.ofNat, eBr]; omega)

theorem eBr_fRs1 (hw : w = eBr len a b cond off) (hk : BrOk len a b cond off) : fRs1 w = Fin.ofNat 32 (b) := by
  subst hw
  obtain ⟨_, _, _, _, _⟩ := hk
  exact Fin.ext (by simp only [fRs1, Fin.ofNat, eBr]; omega)

theorem eBr_BitVec_ofNat_11_2_21 (hw : w = eBr len a b cond off) (hk : BrOk len a b cond off) : BitVec.ofNat 11 (w / 2 ^ 21) = BitVec.ofNat 11 (off) := by
  subst hw
  obtain ⟨_, _, _, _, _⟩ := hk
  exact BitVec.eq_of_toNat_eq (by simp only [BitVec.toNat_ofNat, eBr]; omega)

theorem eBr_bits_18_3 (hw : w = eBr len a b cond off) (hk : BrOk len a b cond off) : bits w 18 3 = cond := by
  subst hw
  obtain ⟨_, _, _, _, _⟩ := hk
  exact by simp only [bits, eBr]; omega

theorem eBr_bits_21_11 (hw : w = eBr len a b cond off) (hk : BrOk len a b cond off) : bits w 21 11 = off := by
  subst hw
  obtain ⟨_, _, _, _, _⟩ := hk
  exact by simp only [bits, eBr]; omega

theorem eBr_2 (hw : w = eBr len a b cond off) (hk : BrOk len a b cond off) : w % 2 = len % 2 := by
  subst hw
  obtain ⟨_, _, _, _, _⟩ := hk
  exact by simp only [eBr]; omega

theorem eBr_4 (hw : w = eBr len a b cond off) (hk : BrOk len a b cond off) : w % 4 = len := by
  subst hw
  obtain ⟨_, _, _, _, _⟩ := hk
  exact by simp only [eBr]; omega

theorem eReg_fOff5 (hw : w = eReg len maj d a b fn opt) (hk : RegOk len maj d a b fn opt) : fOff5 w = BitVec.ofNat 5 (b) := by
  subst hw
  obtain ⟨_, _, _, _, _, _, _⟩ := hk
  exact BitVec.eq_of_toNat_eq (by simp only [fOff5, BitVec.toNat_ofNat, eReg]; omega)

theorem eReg_fOs (hw : w = eReg len maj d a b fn opt) (hk : RegOk len maj d a b fn opt) : fOs w = 2 * opt + fn % 2 := by
  subst hw
  obtain ⟨_, _, _, _, _, _, _⟩ := hk
  exact by simp only [fOs, bits, eReg]; omega

theorem eReg_bits_24_3 (hw : w = eReg len maj d a b fn opt) (hk : RegOk len maj d a b fn opt) : bits w 24 3 = fn / 2 % 8 := by
  subst hw
  obtain ⟨_, _, _, _, _, _, _⟩ := hk
  exact by simp only [bits, eReg]; omega

theorem eReg_bits_27_2 (hw : w = eReg len maj d a b fn opt) (hk : RegOk len maj d a b fn opt) : bits w 27 2 = fn / 16 := by
  subst hw
  obtain ⟨_, _, _, _, _, _, _⟩ := hk
  exact by simp only [bits, eReg]; omega

theorem eReg_bits_25_4 (hw : w = eReg len maj d a b fn opt) (hk : RegOk len maj d a b fn opt) : bits w 25 4 = fn / 4 := by
  subst hw
  obtain ⟨_, _, _, _, _, _, _⟩ := hk
  exact by simp only [bits, eReg]; omega

theorem eReg_bit_24 (hw : w = eReg len maj d a b fn opt) (hk : RegOk len maj d a b fn opt) : bit w 24 = (fn / 2 % 2 == 1) := by
  subst hw
  obtain ⟨_, _, _, _, _, _, _⟩ := hk
  exact congrArg (· == 1) (by simp only [eReg]; omega)

theorem eReg_bits_13_10 (hw : w = eReg len maj d a b fn opt) (hk : RegOk len maj d a b fn opt) : bits w 13 10 = a + 32 * b := by
  subst hw
  obtain ⟨_, _, _, _, _, _, _⟩ := hk
  exact by simp only [bits, eReg]; omega

theorem eReg_bits_10_3 (hw : w = eReg len maj d a b fn opt) (hk : RegOk len maj d a b fn opt) : bits w 10 3 = d / 4 := by
  subst hw
  obtain ⟨_, _, _, _, _, _, _⟩ := hk
  exact by simp only [bits, eReg]; omega

theorem eReg_bits_8_2 (hw : w = eReg len maj d a b fn opt) (hk : RegOk len maj d a b fn opt) : bits w 8 2 = d % 4 := by
  subst hw
  obtain ⟨_, _, _, _, _, _, _⟩ := hk
  exact by simp only [bits, eReg]; omega

theorem eReg_bits_16_2 (hw : w = eReg len maj d a b fn opt) (hk : RegOk len maj d a b fn opt) : bits w 16 2 = a / 8 := by
  subst hw
  obtain ⟨_, _, _, _, _, _, _⟩ := hk
  exact by simp only [bits, eReg]; omega

theorem eReg_bits_21_2 (hw : w = eReg len maj d a b fn opt) (hk : RegOk len maj d a b fn opt) : bits w 21 2 = b / 8 := by
  subst hw
  obtain ⟨_, _, _, _, _, _, _⟩ := hk
  exact by simp only [bits, eReg]; omega

theorem eReg_bits_13_3 (hw : w = eReg len maj d a b fn opt) (hk : RegOk len maj d a b fn opt) : bits w 13 3 = a % 8 := by
  subst hw
  obtain ⟨_, _, _, _, _, _, _⟩ := hk
  exact by simp only [bits, eReg]; omega

theorem eReg_bits_18_3 (hw : w = eReg len maj d a b fn opt) (hk : RegOk len maj d a b fn opt) : bits w 18 3 = b % 8 := by
  subst hw
  obtain ⟨_, _, _, _, _, _, _⟩ := hk
  exact by simp only [bits, eReg]; omega

theorem eReg_bits_8_15 (hw : w = eReg len maj d a b fn opt) (hk : RegOk len maj d a b fn opt) : bits w 8 15 = d + 32 * a + 1024 * b := by
  subst hw
  obtain ⟨_, _, _, _, _, _, _⟩ := hk
  exact by simp only [bits, eReg]; omega

theorem eReg_bits_23_2 (hw : w = eReg len maj d a b fn opt) (hk : RegOk len maj d a b fn opt) : bits w 23 2 = fn % 4 := by
  subst hw
  obtain ⟨_, _, _, _, _, _, _⟩ := hk
  exact by simp only [bits, eReg]; omega

theorem eReg_bits_26_3 (hw : w = eReg len maj d a b fn opt) (hk : RegOk len maj d a b fn opt) : bits w 26 3 = fn / 8 := by
  subst hw
  obtain ⟨_, _, _, _, _, _, _⟩ := hk
  exact by simp only [bits, eReg]; omega

theorem eReg_bit_25 (hw : w = eReg len maj d a b fn opt) (hk : RegOk len maj d a b fn opt) : bit w 25 = (fn / 4 % 2 == 1) := by
  subst hw
  obtain ⟨_, _, _, _, _, _, _⟩ := hk
  exact congrArg (· == 1) (by simp only [eReg]; omega)

theorem eReg_2 (hw : w = eReg len maj d a b fn opt) (hk : RegOk len maj d a b fn opt) : w % 2 = len % 2 := by
  subst hw
  obtain ⟨_, _, _, _, _, _, _⟩ := hk
  exact by simp only [eReg]; omega

theorem eReg_bits_23_3 (hw : w = eReg len maj d a b fn opt) (hk : RegOk len maj d a b fn opt) : bits w 23 3 = fn % 8 := by
  subst hw
  obtain ⟨_, _, _, _, _, _, _⟩ := hk
  exact by simp only [bits, eReg]; omega

theorem eVec_bits_2_6 (hw : w = eVec maj d a b m ty fn) (hk : VecOk maj d a b m ty fn) : bits w 2 6 = maj := by
  subst hw
  obtain ⟨_, _, _, _, _, _, _⟩ := hk
  exact by simp only [bits, eVec]; omega

theorem eVec_fVd (hw : w = eVec maj d a b m ty fn) (hk : VecOk maj d a b m ty fn) : fVd w = Fin.ofNat 16 (d) := by
  subst hw
  obtain ⟨_, _, _, _, _, _, _⟩ := hk
  exact Fin.ext (by simp only [fVd, Fin.ofNat, eVec]; omega)

theorem eVec_fVs1 (hw : w = eVec maj d a b m ty fn) (hk : VecOk maj d a b m ty fn) : fVs1 w = Fin.ofNat 16 (a) := by
  subst hw
  obtain ⟨_, _, _, _, _, _, _⟩ := hk
  exact Fin.ext (by simp only [fVs1, Fin.ofNat, eVec]; omega)

theorem eVec_fVs2 (hw : w = eVec maj d a b m ty fn) (hk : VecOk maj d a b m ty fn) : fVs2 w = Fin.ofNat 16 (b) := by
  subst hw
  obtain ⟨_, _, _, _, _, _, _⟩ := hk
  exact Fin.ext (by simp only [fVs2, Fin.ofNat, eVec]; omega)

theorem eVec_fVm (hw : w = eVec maj d a b m ty fn) (hk : VecOk maj d a b m ty fn) : fVm w = Fin.ofNat 8 (m) := by
  subst hw
  obtain ⟨_, _, _, _, _, _, _⟩ := hk
  exact Fin.ext (by simp only [fVm, Fin.ofNat, eVec]; omega)

theorem eVec_bits_23_3 (hw : w = eVec maj d a b m ty fn) (hk : VecOk maj d a b m ty fn) : bits w 23 3 = ty := by
  subst hw
  obtain ⟨_, _, _, _, _, _, _⟩ := hk
  exact by simp only [bits, eVec]; omega

theorem eVec_bits_26_6 (hw : w = eVec maj d a b m ty fn) (hk : VecOk maj d a b m ty fn) : bits w 26 6 = fn := by
  subst hw
  obtain ⟨_, _, _, _, _, _, _⟩ := hk
  exact by simp only [bits, eVec]; omega

theorem eVec_4 (hw : w = eVec maj d a b m ty fn) (hk : VecOk maj d a b m ty fn) : w % 4 = 0 := by
  subst hw
  obtain ⟨_, _, _, _, _, _, _⟩ := hk
  exact by simp only [eVec]; omega

theorem eReg_fVd (hw : w = eReg len maj d a b fn opt) (hk : RegOk len maj d a b fn opt) : fVd w = Fin.ofNat 16 (d % 16) := by
  subst hw
  obtain ⟨_, _, _, _, _, _, _⟩ := hk
  exact Fin.ext (by simp only [fVd, Fin.ofNat, eReg]; omega)

theorem eReg_Fin_ofNat_8_2_26 (hw : w = eReg len maj d a b fn opt) (hk : RegOk len maj d a b fn opt) : Fin.ofNat 8 (w / 2 ^ 26) = Fin.ofNat 8 (fn / 8) := by
  subst hw
  obtain ⟨_, _, _, _, _, _, _⟩ := hk
  exact Fin.ext (by simp only [Fin.ofNat, eReg]; omega)

theorem eReg_bit_12 (hw : w = eReg len maj d a b fn opt) (hk : RegOk len maj d a b fn opt) : bit w 12 = (d / 16 == 1) := by
  subst hw
  obtain ⟨_, _, _, _, _, _, _⟩ := hk
  exact congrArg (· == 1) (by simp only [eReg]; omega)

theorem eReg_fV2 (hw : w = eReg len maj d a b fn opt) (hk : RegOk len maj d a b fn opt) : fV2 w = Fin.ofNat 16 (b % 16) := by
  subst hw
  obtain ⟨_, _, _, _, _, _, _⟩ := hk
  exact Fin.ext (by simp only [fV2, Fin.ofNat, eReg]; omega)

theorem eReg_bit_22 (hw : w = eReg len maj d a b fn opt) (hk : RegOk len maj d a b fn opt) : bit w 22 = (b / 16 == 1) := by
  subst hw
  obtain ⟨_, _, _, _, _, _, _⟩ := hk
  exact congrArg (· == 1) (by simp only [eReg]; omega)

theorem eVec_fMd (hw : w = eVec maj d a b m ty fn) (hk : VecOk maj d a b m ty fn) : fMd w = Fin.ofNat 8 (d % 8) := by
  subst hw
  obtain ⟨_, _, _, _, _, _, _⟩ := hk
  exact Fin.ext (by simp only [fMd, Fin.ofNat, eVec]; omega)

theorem eVec_bit_11 (hw : w = eVec maj d a b m ty fn) (hk : VecOk maj d a b m ty fn) : bit w 11 = (d / 8 == 1) := by
  subst hw
  obtain ⟨_, _, _, _, _, _, _⟩ := hk
  exact congrArg (· == 1) (by simp only [eVec]; omega)

theorem eVec_bits_16_3 (hw : w = eVec maj d a b m ty fn) (hk : VecOk maj d a b m ty fn) : bits w 16 3 = b % 8 := by
  subst hw
  obtain ⟨_, _, _, _, _, _, _⟩ := hk
  exact by simp only [bits, eVec]; omega

theorem eVec_bit_19 (hw : w = eVec maj d a b m ty fn) (hk : VecOk maj d a b m ty fn) : bit w 19 = (b / 8 == 1) := by
  subst hw
  obtain ⟨_, _, _, _, _, _, _⟩ := hk
  exact congrArg (· == 1) (by simp only [eVec]; omega)

theorem eReg_fMd (hw : w = eReg len maj d a b fn opt) (hk : RegOk len maj d a b fn opt) : fMd w = Fin.ofNat 8 (d % 8) := by
  subst hw
  obtain ⟨_, _, _, _, _, _, _⟩ := hk
  exact Fin.ext (by simp only [fMd, Fin.ofNat, eReg]; omega)

theorem eReg_Fin_ofNat_8_2_13 (hw : w = eReg len maj d a b fn opt) (hk : RegOk len maj d a b fn opt) : Fin.ofNat 8 (w / 2 ^ 13) = Fin.ofNat 8 (a % 8) := by
  subst hw
  obtain ⟨_, _, _, _, _, _, _⟩ := hk
  exact Fin.ext (by simp only [Fin.ofNat, eReg]; omega)

theorem eReg_Fin_ofNat_8_2_18 (hw : w = eReg len maj d a b fn opt) (hk : RegOk len maj d a b fn opt) : Fin.ofNat 8 (w / 2 ^ 18) = Fin.ofNat 8 (b % 8) := by
  subst hw
  obtain ⟨_, _, _, _, _, _, _⟩ := hk
  exact Fin.ext (by simp only [Fin.ofNat, eReg]; omega)

theorem eReg_bits_8_5 (hw : w = eReg len maj d a b fn opt) (hk : RegOk len maj d a b fn opt) : bits w 8 5 = d := by
  subst hw
  obtain ⟨_, _, _, _, _, _, _⟩ := hk
  exact by simp only [bits, eReg]; omega

theorem eReg_bits_13_5 (hw : w = eReg len maj d a b fn opt) (hk : RegOk len maj d a b fn opt) : bits w 13 5 = a := by
  subst hw
  obtain ⟨_, _, _, _, _, _, _⟩ := hk
  exact by simp only [bits, eReg]; omega

theorem eReg_bits_18_5 (hw : w = eReg len maj d a b fn opt) (hk : RegOk len maj d a b fn opt) : bits w 18 5 = b := by
  subst hw
  obtain ⟨_, _, _, _, _, _, _⟩ := hk
  exact by simp only [bits, eReg]; omega

theorem eTil_bits_2_6 (hw : w = eTil maj d a b rs fn opt) (hk : TilOk maj d a b rs fn opt) : bits w 2 6 = maj := by
  subst hw
  obtain ⟨_, _, _, _, _, _, _⟩ := hk
  exact by simp only [bits, eTil]; omega

theorem eTil_fVd (hw : w = eTil maj d a b rs fn opt) (hk : TilOk maj d a b rs fn opt) : fVd w = Fin.ofNat 16 (d) := by
  subst hw
  obtain ⟨_, _, _, _, _, _, _⟩ := hk
  exact Fin.ext (by simp only [fVd, Fin.ofNat, eTil]; omega)

theorem eTil_fVs1 (hw : w = eTil maj d a b rs fn opt) (hk : TilOk maj d a b rs fn opt) : fVs1 w = Fin.ofNat 16 (a) := by
  subst hw
  obtain ⟨_, _, _, _, _, _, _⟩ := hk
  exact Fin.ext (by simp only [fVs1, Fin.ofNat, eTil]; omega)

theorem eTil_fVs2 (hw : w = eTil maj d a b rs fn opt) (hk : TilOk maj d a b rs fn opt) : fVs2 w = Fin.ofNat 16 (b) := by
  subst hw
  obtain ⟨_, _, _, _, _, _, _⟩ := hk
  exact Fin.ext (by simp only [fVs2, Fin.ofNat, eTil]; omega)

theorem eTil_Fin_ofNat_32_2_20 (hw : w = eTil maj d a b rs fn opt) (hk : TilOk maj d a b rs fn opt) : Fin.ofNat 32 (w / 2 ^ 20) = Fin.ofNat 32 (rs) := by
  subst hw
  obtain ⟨_, _, _, _, _, _, _⟩ := hk
  exact Fin.ext (by simp only [Fin.ofNat, eTil]; omega)

theorem eTil_fOpt (hw : w = eTil maj d a b rs fn opt) (hk : TilOk maj d a b rs fn opt) : fOpt w = opt := by
  subst hw
  obtain ⟨_, _, _, _, _, _, _⟩ := hk
  exact by simp only [fOpt, bits, eTil]; omega

theorem eTil_bits_25_4 (hw : w = eTil maj d a b rs fn opt) (hk : TilOk maj d a b rs fn opt) : bits w 25 4 = fn := by
  subst hw
  obtain ⟨_, _, _, _, _, _, _⟩ := hk
  exact by simp only [bits, eTil]; omega

theorem eTil_4 (hw : w = eTil maj d a b rs fn opt) (hk : TilOk maj d a b rs fn opt) : w % 4 = 0 := by
  subst hw
  obtain ⟨_, _, _, _, _, _, _⟩ := hk
  exact by simp only [eTil]; omega

theorem eTil_Fin_ofNat_8_2_8 (hw : w = eTil maj d a b rs fn opt) (hk : TilOk maj d a b rs fn opt) : Fin.ofNat 8 (w / 2 ^ 8) = Fin.ofNat 8 (d % 8) := by
  subst hw
  obtain ⟨_, _, _, _, _, _, _⟩ := hk
  exact Fin.ext (by simp only [Fin.ofNat, eTil]; omega)

theorem eTil_bit_11 (hw : w = eTil maj d a b rs fn opt) (hk : TilOk maj d a b rs fn opt) : bit w 11 = (d / 8 == 1) := by
  subst hw
  obtain ⟨_, _, _, _, _, _, _⟩ := hk
  exact congrArg (· == 1) (by simp only [eTil]; omega)

theorem eTil_bits_20_5 (hw : w = eTil maj d a b rs fn opt) (hk : TilOk maj d a b rs fn opt) : bits w 20 5 = rs := by
  subst hw
  obtain ⟨_, _, _, _, _, _, _⟩ := hk
  exact by simp only [bits, eTil]; omega

theorem eTil_Fin_ofNat_8_2_20 (hw : w = eTil maj d a b rs fn opt) (hk : TilOk maj d a b rs fn opt) : Fin.ofNat 8 (w / 2 ^ 20) = Fin.ofNat 8 (rs % 8) := by
  subst hw
  obtain ⟨_, _, _, _, _, _, _⟩ := hk
  exact Fin.ext (by simp only [Fin.ofNat, eTil]; omega)

theorem eTil_bits_23_2 (hw : w = eTil maj d a b rs fn opt) (hk : TilOk maj d a b rs fn opt) : bits w 23 2 = rs / 8 := by
  subst hw
  obtain ⟨_, _, _, _, _, _, _⟩ := hk
  exact by simp only [bits, eTil]; omega

theorem eTil_bits_29_3 (hw : w = eTil maj d a b rs fn opt) (hk : TilOk maj d a b rs fn opt) : bits w 29 3 = opt := by
  subst hw
  obtain ⟨_, _, _, _, _, _, _⟩ := hk
  exact by simp only [bits, eTil]; omega

theorem eTil_Fin_ofNat_8_2_12 (hw : w = eTil maj d a b rs fn opt) (hk : TilOk maj d a b rs fn opt) : Fin.ofNat 8 (w / 2 ^ 12) = Fin.ofNat 8 (a % 8) := by
  subst hw
  obtain ⟨_, _, _, _, _, _, _⟩ := hk
  exact Fin.ext (by simp only [Fin.ofNat, eTil]; omega)

theorem eTil_bit_15 (hw : w = eTil maj d a b rs fn opt) (hk : TilOk maj d a b rs fn opt) : bit w 15 = (a / 8 == 1) := by
  subst hw
  obtain ⟨_, _, _, _, _, _, _⟩ := hk
  exact congrArg (· == 1) (by simp only [eTil]; omega)

theorem eTil_bits_12_13 (hw : w = eTil maj d a b rs fn opt) (hk : TilOk maj d a b rs fn opt) : bits w 12 13 = a + 16 * b + 256 * rs := by
  subst hw
  obtain ⟨_, _, _, _, _, _, _⟩ := hk
  exact by simp only [bits, eTil]; omega

theorem eTil_bits_16_9 (hw : w = eTil maj d a b rs fn opt) (hk : TilOk maj d a b rs fn opt) : bits w 16 9 = b + 16 * rs := by
  subst hw
  obtain ⟨_, _, _, _, _, _, _⟩ := hk
  exact by simp only [bits, eTil]; omega

theorem eTil_bits_30_2 (hw : w = eTil maj d a b rs fn opt) (hk : TilOk maj d a b rs fn opt) : bits w 30 2 = opt / 2 := by
  subst hw
  obtain ⟨_, _, _, _, _, _, _⟩ := hk
  exact by simp only [bits, eTil]; omega

theorem eTil_bit_29 (hw : w = eTil maj d a b rs fn opt) (hk : TilOk maj d a b rs fn opt) : bit w 29 = (opt % 2 == 1) := by
  subst hw
  obtain ⟨_, _, _, _, _, _, _⟩ := hk
  exact congrArg (· == 1) (by simp only [eTil]; omega)

theorem eReg_bits_24_5 (hw : w = eReg len maj d a b fn opt) (hk : RegOk len maj d a b fn opt) : bits w 24 5 = fn / 2 := by
  subst hw
  obtain ⟨_, _, _, _, _, _, _⟩ := hk
  exact by simp only [bits, eReg]; omega

theorem eReg_Fin_ofNat_12_bits_18_5 (hw : w = eReg len maj d a b fn opt) (hk : RegOk len maj d a b fn opt) : Fin.ofNat 12 (bits w 18 5) = Fin.ofNat 12 (b) := by
  subst hw
  obtain ⟨_, _, _, _, _, _, _⟩ := hk
  exact Fin.ext (by simp only [bits, Fin.ofNat, eReg]; omega)

theorem eReg_bits_8_10 (hw : w = eReg len maj d a b fn opt) (hk : RegOk len maj d a b fn opt) : bits w 8 10 = d + 32 * a := by
  subst hw
  obtain ⟨_, _, _, _, _, _, _⟩ := hk
  exact by simp only [bits, eReg]; omega

theorem eReg_bits_30_2 (hw : w = eReg len maj d a b fn opt) (hk : RegOk len maj d a b fn opt) : bits w 30 2 = opt / 2 := by
  subst hw
  obtain ⟨_, _, _, _, _, _, _⟩ := hk
  exact by simp only [bits, eReg]; omega

theorem eReg_bit_29 (hw : w = eReg len maj d a b fn opt) (hk : RegOk len maj d a b fn opt) : bit w 29 = (opt % 2 == 1) := by
  subst hw
  obtain ⟨_, _, _, _, _, _, _⟩ := hk
  exact congrArg (· == 1) (by simp only [eReg]; omega)

end

theorem decode_1 {w x1 x2 : Nat} (h : bits w 2 6 = 1) : decode w x1 x2 = decAluReg w x1 := by simp only [decode, h]

theorem decode_2 {w x1 x2 : Nat} (h : bits w 2 6 = 2) : decode w x1 x2 = decAluImm w x1 := by simp only [decode, h]

theorem decode_3 {w x1 x2 : Nat} (h : bits w 2 6 = 3) : decode w x1 x2 = decKon w := by simp only [decode, h]

theorem decode_4 {w x1 x2 : Nat} (h : bits w 2 6 = 4) : decode w x1 x2 = decMul w := by simp only [decode, h]

theorem decode_5 {w x1 x2 : Nat} (h : bits w 2 6 = 5) : decode w x1 x2 = decBit w x1 := by simp only [decode, h]

theorem decode_6 {w x1 x2 : Nat} (h : bits w 2 6 = 6) : decode w x1 x2 = decLi w x1 := by simp only [decode, h]

theorem decode_7 {w x1 x2 : Nat} (h : bits w 2 6 = 7) : decode w x1 x2 = decSel w x1 := by simp only [decode, h]

theorem decode_8 {w x1 x2 : Nat} (h : bits w 2 6 = 8) : decode w x1 x2 = decBr w x1 := by simp only [decode, h]

theorem decode_9 {w x1 x2 : Nat} (h : bits w 2 6 = 9) : decode w x1 x2 = decJal w x1 := by simp only [decode, h]

theorem decode_10 {w x1 x2 : Nat} (h : bits w 2 6 = 10) : decode w x1 x2 = decJalr w := by simp only [decode, h]

theorem decode_12 {w x1 x2 : Nat} (h : bits w 2 6 = 12) : decode w x1 x2 = decLoad w x1 := by simp only [decode, h]

theorem decode_13 {w x1 x2 : Nat} (h : bits w 2 6 = 13) : decode w x1 x2 = decStore w x1 := by simp only [decode, h]

theorem decode_14 {w x1 x2 : Nat} (h : bits w 2 6 = 14) : decode w x1 x2 = decAtomic w := by simp only [decode, h]

theorem decode_15 {w x1 x2 : Nat} (h : bits w 2 6 = 15) : decode w x1 x2 = decFence w := by simp only [decode, h]

theorem decode_16 {w x1 x2 : Nat} (h : bits w 2 6 = 16) : decode w x1 x2 = decFp w := by simp only [decode, h]

theorem decode_17 {w x1 x2 : Nat} (h : bits w 2 6 = 17) : decode w x1 x2 = decFma w x1 := by simp only [decode, h]

theorem decode_18 {w x1 x2 : Nat} (h : bits w 2 6 = 18) : decode w x1 x2 = decCvt w := by simp only [decode, h]

theorem decode_20 {w x1 x2 : Nat} (h : bits w 2 6 = 20) : decode w x1 x2 = decVecInt w := by simp only [decode, h]

theorem decode_21 {w x1 x2 : Nat} (h : bits w 2 6 = 21) : decode w x1 x2 = decVecFloat w := by simp only [decode, h]

theorem decode_22 {w x1 x2 : Nat} (h : bits w 2 6 = 22) : decode w x1 x2 = decVecMem w x1 := by simp only [decode, h]

theorem decode_23 {w x1 x2 : Nat} (h : bits w 2 6 = 23) : decode w x1 x2 = decVecPerm w := by simp only [decode, h]

theorem decode_24 {w x1 x2 : Nat} (h : bits w 2 6 = 24) : decode w x1 x2 = decMask w := by simp only [decode, h]

theorem decode_25 {w x1 x2 : Nat} (h : bits w 2 6 = 25) : decode w x1 x2 = decVecFma w := by simp only [decode, h]

theorem decode_28 {w x1 x2 : Nat} (h : bits w 2 6 = 28) : decode w x1 x2 = decTileMem w := by simp only [decode, h]

theorem decode_29 {w x1 x2 : Nat} (h : bits w 2 6 = 29) : decode w x1 x2 = decTileComp w := by simp only [decode, h]

theorem decode_30 {w x1 x2 : Nat} (h : bits w 2 6 = 30) : decode w x1 x2 = decTileMisc w := by simp only [decode, h]

theorem decode_32 {w x1 x2 : Nat} (h : bits w 2 6 = 32) : decode w x1 x2 = decVersion w := by simp only [decode, h]

theorem decode_33 {w x1 x2 : Nat} (h : bits w 2 6 = 33) : decode w x1 x2 = decCopy w x1 x2 := by simp only [decode, h]

theorem decode_34 {w x1 x2 : Nat} (h : bits w 2 6 = 34) : decode w x1 x2 = decColl w x1 := by simp only [decode, h]

theorem decode_35 {w x1 x2 : Nat} (h : bits w 2 6 = 35) : decode w x1 x2 = decMsg w := by simp only [decode, h]

theorem decode_36 {w x1 x2 : Nat} (h : bits w 2 6 = 36) : decode w x1 x2 = decSync w := by simp only [decode, h]

theorem decode_37 {w x1 x2 : Nat} (h : bits w 2 6 = 37) : decode w x1 x2 = decLink w := by simp only [decode, h]

theorem decode_38 {w x1 x2 : Nat} (h : bits w 2 6 = 38) : decode w x1 x2 = decIsland w x1 := by simp only [decode, h]

theorem decode_48 {w x1 x2 : Nat} (h : bits w 2 6 = 48) : decode w x1 x2 = decCsr w := by simp only [decode, h]

theorem decode_49 {w x1 x2 : Nat} (h : bits w 2 6 = 49) : decode w x1 x2 = decTrap w := by simp only [decode, h]

theorem decode_50 {w x1 x2 : Nat} (h : bits w 2 6 = 50) : decode w x1 x2 = decPriv w := by simp only [decode, h]

theorem decode_51 {w x1 x2 : Nat} (h : bits w 2 6 = 51) : decode w x1 x2 = decDebug w := by simp only [decode, h]

theorem add (d : XReg) (a : XReg) (b : XReg) : Statement (.add d a b) :=
  of_words rfl fun w x1 x2 hw hx hy hwf => by
    have hk : RegOk 0 1 d.val a.val b.val 0 0 := ⟨lt_lit rfl, lt_lit rfl, d.isLt, a.isLt, b.isLt, lt_lit rfl, lt_lit rfl⟩
    have h0 : bits w 2 6 = 1 := (eReg_bits_2_6 hw hk).trans rfl
    have h1 : fRd w = d := (eReg_fRd hw hk).trans (fin_ofNat _)
    have h2 : fRs1 w = a := (eReg_fRs1 hw hk).trans (fin_ofNat _)
    have h3 : fRs2 w = b := (eReg_fRs2 hw hk).trans (fin_ofNat _)
    have h4 : fFn w = 0 := (eReg_fFn hw hk).trans rfl
    have h5 : fOpt w = 0 := (eReg_fOpt hw hk).trans rfl
    have h6 : w % 4 = 0 := (eReg_4 hw hk).trans rfl
    refine ⟨eReg_lt hw hk, hx ▸ lt_lit rfl, hy ▸ lt_lit rfl, ?_⟩
    rw [decode_1 h0]
    simp only [decAluReg0, decAluReg, chk, h1, h2, h3, h4, h5, h6] <;>
      simp <;> omega

theorem sub (d : XReg) (a : XReg) (b : XReg) : Statement (.sub d a b) :=
  of_words rfl fun w x1 x2 hw hx hy hwf => by
    have hk : RegOk 0 1 d.val a.val b.val 1 0 := ⟨lt_lit rfl, lt_lit rfl, d.isLt, a.isLt, b.isLt, lt_lit rfl, lt_lit rfl⟩
    have h0 : bits w 2 6 = 1 := (eReg_bits_2_6 hw hk).trans rfl
    have h1 : fRd w = d := (eReg_fRd hw hk).trans (fin_ofNat _)
    have h2 : fRs1 w = a := (eReg_fRs1 hw hk).trans (fin_ofNat _)
    have h3 : fRs2 w = b := (eReg_fRs2 hw hk).trans (fin_ofNat _)
    have h4 : fFn w = 1 := (eReg_fFn hw hk).trans rfl
    have h5 : fOpt w = 0 := (eReg_fOpt hw hk).trans rfl
    have h6 : w % 4 = 0 := (eReg_4 hw hk).trans rfl
    refine ⟨eReg_lt hw hk, hx ▸ lt_lit rfl, hy ▸ lt_lit rfl, ?_⟩
    rw [decode_1 h0]
    simp only [decAluReg0, decAluReg, chk, h1, h2, h3, h4, h5, h6] <;>
      simp <;> omega

theorem and (d : XReg) (a : XReg) (b : XReg) : Statement (.and d a b) :=
  of_words rfl fun w x1 x2 hw hx hy hwf => by
    have hk : RegOk 0 1 d.val a.val b.val 2 0 := ⟨lt_lit rfl, lt_lit rfl, d.isLt, a.isLt, b.isLt, lt_lit rfl, lt_lit rfl⟩
    have h0 : bits w 2 6 = 1 := (eReg_bits_2_6 hw hk).trans rfl
    have h1 : fRd w = d := (eReg_fRd hw hk).trans (fin_ofNat _)
    have h2 : fRs1 w = a := (eReg_fRs1 hw hk).trans (fin_ofNat _)
    have h3 : fRs2 w = b := (eReg_fRs2 hw hk).trans (fin_ofNat _)
    have h4 : fFn w = 2 := (eReg_fFn hw hk).trans rfl
    have h5 : fOpt w = 0 := (eReg_fOpt hw hk).trans rfl
    have h6 : w % 4 = 0 := (eReg_4 hw hk).trans rfl
    refine ⟨eReg_lt hw hk, hx ▸ lt_lit rfl, hy ▸ lt_lit rfl, ?_⟩
    rw [decode_1 h0]
    simp only [decAluReg0, decAluReg, chk, h1, h2, h3, h4, h5, h6] <;>
      simp <;> omega

theorem or (d : XReg) (a : XReg) (b : XReg) : Statement (.or d a b) :=
  of_words rfl fun w x1 x2 hw hx hy hwf => by
    have hk : RegOk 0 1 d.val a.val b.val 3 0 := ⟨lt_lit rfl, lt_lit rfl, d.isLt, a.isLt, b.isLt, lt_lit rfl, lt_lit rfl⟩
    have h0 : bits w 2 6 = 1 := (eReg_bits_2_6 hw hk).trans rfl
    have h1 : fRd w = d := (eReg_fRd hw hk).trans (fin_ofNat _)
    have h2 : fRs1 w = a := (eReg_fRs1 hw hk).trans (fin_ofNat _)
    have h3 : fRs2 w = b := (eReg_fRs2 hw hk).trans (fin_ofNat _)
    have h4 : fFn w = 3 := (eReg_fFn hw hk).trans rfl
    have h5 : fOpt w = 0 := (eReg_fOpt hw hk).trans rfl
    have h6 : w % 4 = 0 := (eReg_4 hw hk).trans rfl
    refine ⟨eReg_lt hw hk, hx ▸ lt_lit rfl, hy ▸ lt_lit rfl, ?_⟩
    rw [decode_1 h0]
    simp only [decAluReg0, decAluReg, chk, h1, h2, h3, h4, h5, h6] <;>
      simp <;> omega

theorem xor (d : XReg) (a : XReg) (b : XReg) : Statement (.xor d a b) :=
  of_words rfl fun w x1 x2 hw hx hy hwf => by
    have hk : RegOk 0 1 d.val a.val b.val 4 0 := ⟨lt_lit rfl, lt_lit rfl, d.isLt, a.isLt, b.isLt, lt_lit rfl, lt_lit rfl⟩
    have h0 : bits w 2 6 = 1 := (eReg_bits_2_6 hw hk).trans rfl
    have h1 : fRd w = d := (eReg_fRd hw hk).trans (fin_ofNat _)
    have h2 : fRs1 w = a := (eReg_fRs1 hw hk).trans (fin_ofNat _)
    have h3 : fRs2 w = b := (eReg_fRs2 hw hk).trans (fin_ofNat _)
    have h4 : fFn w = 4 := (eReg_fFn hw hk).trans rfl
    have h5 : fOpt w = 0 := (eReg_fOpt hw hk).trans rfl
    have h6 : w % 4 = 0 := (eReg_4 hw hk).trans rfl
    refine ⟨eReg_lt hw hk, hx ▸ lt_lit rfl, hy ▸ lt_lit rfl, ?_⟩
    rw [decode_1 h0]
    simp only [decAluReg0, decAluReg, chk, h1, h2, h3, h4, h5, h6] <;>
      simp <;> omega

theorem andn (d : XReg) (a : XReg) (b : XReg) : Statement (.andn d a b) :=
  of_words rfl fun w x1 x2 hw hx hy hwf => by
    have hk : RegOk 0 1 d.val a.val b.val 5 0 := ⟨lt_lit rfl, lt_lit rfl, d.isLt, a.isLt, b.isLt, lt_lit rfl, lt_lit rfl⟩
    have h0 : bits w 2 6 = 1 := (eReg_bits_2_6 hw hk).trans rfl
    have h1 : fRd w = d := (eReg_fRd hw hk).trans (fin_ofNat _)
    have h2 : fRs1 w = a := (eReg_fRs1 hw hk).trans (fin_ofNat _)
    have h3 : fRs2 w = b := (eReg_fRs2 hw hk).trans (fin_ofNat _)
    have h4 : fFn w = 5 := (eReg_fFn hw hk).trans rfl
    have h5 : fOpt w = 0 := (eReg_fOpt hw hk).trans rfl
    have h6 : w % 4 = 0 := (eReg_4 hw hk).trans rfl
    refine ⟨eReg_lt hw hk, hx ▸ lt_lit rfl, hy ▸ lt_lit rfl, ?_⟩
    rw [decode_1 h0]
    simp only [decAluReg0, decAluReg, chk, h1, h2, h3, h4, h5, h6] <;>
      simp <;> omega

theorem orn (d : XReg) (a : XReg) (b : XReg) : Statement (.orn d a b) :=
  of_words rfl fun w x1 x2 hw hx hy hwf => by
    have hk : RegOk 0 1 d.val a.val b.val 6 0 := ⟨lt_lit rfl, lt_lit rfl, d.isLt, a.isLt, b.isLt, lt_lit rfl, lt_lit rfl⟩
    have h0 : bits w 2 6 = 1 := (eReg_bits_2_6 hw hk).trans rfl
    have h1 : fRd w = d := (eReg_fRd hw hk).trans (fin_ofNat _)
    have h2 : fRs1 w = a := (eReg_fRs1 hw hk).trans (fin_ofNat _)
    have h3 : fRs2 w = b := (eReg_fRs2 hw hk).trans (fin_ofNat _)
    have h4 : fFn w = 6 := (eReg_fFn hw hk).trans rfl
    have h5 : fOpt w = 0 := (eReg_fOpt hw hk).trans rfl
    have h6 : w % 4 = 0 := (eReg_4 hw hk).trans rfl
    refine ⟨eReg_lt hw hk, hx ▸ lt_lit rfl, hy ▸ lt_lit rfl, ?_⟩
    rw [decode_1 h0]
    simp only [decAluReg0, decAluReg, chk, h1, h2, h3, h4, h5, h6] <;>
      simp <;> omega

theorem xnor (d : XReg) (a : XReg) (b : XReg) : Statement (.xnor d a b) :=
  of_words rfl fun w x1 x2 hw hx hy hwf => by
    have hk : RegOk 0 1 d.val a.val b.val 7 0 := ⟨lt_lit rfl, lt_lit rfl, d.isLt, a.isLt, b.isLt, lt_lit rfl, lt_lit rfl⟩
    have h0 : bits w 2 6 = 1 := (eReg_bits_2_6 hw hk).trans rfl
    have h1 : fRd w = d := (eReg_fRd hw hk).trans (fin_ofNat _)
    have h2 : fRs1 w = a := (eReg_fRs1 hw hk).trans (fin_ofNat _)
    have h3 : fRs2 w = b := (eReg_fRs2 hw hk).trans (fin_ofNat _)
    have h4 : fFn w = 7 := (eReg_fFn hw hk).trans rfl
    have h5 : fOpt w = 0 := (eReg_fOpt hw hk).trans rfl
    have h6 : w % 4 = 0 := (eReg_4 hw hk).trans rfl
    refine ⟨eReg_lt hw hk, hx ▸ lt_lit rfl, hy ▸ lt_lit rfl, ?_⟩
    rw [decode_1 h0]
    simp only [decAluReg0, decAluReg, chk, h1, h2, h3, h4, h5, h6] <;>
      simp <;> omega

theorem sll (d : XReg) (a : XReg) (b : XReg) : Statement (.sll d a b) :=
  of_words rfl fun w x1 x2 hw hx hy hwf => by
    have hk : RegOk 0 1 d.val a.val b.val 8 0 := ⟨lt_lit rfl, lt_lit rfl, d.isLt, a.isLt, b.isLt, lt_lit rfl, lt_lit rfl⟩
    have h0 : bits w 2 6 = 1 := (eReg_bits_2_6 hw hk).trans rfl
    have h1 : fRd w = d := (eReg_fRd hw hk).trans (fin_ofNat _)
    have h2 : fRs1 w = a := (eReg_fRs1 hw hk).trans (fin_ofNat _)
    have h3 : fRs2 w = b := (eReg_fRs2 hw hk).trans (fin_ofNat _)
    have h4 : fFn w = 8 := (eReg_fFn hw hk).trans rfl
    have h5 : fOpt w = 0 := (eReg_fOpt hw hk).trans rfl
    have h6 : w % 4 = 0 := (eReg_4 hw hk).trans rfl
    refine ⟨eReg_lt hw hk, hx ▸ lt_lit rfl, hy ▸ lt_lit rfl, ?_⟩
    rw [decode_1 h0]
    simp only [decAluReg0, decAluReg, chk, h1, h2, h3, h4, h5, h6] <;>
      simp <;> omega

theorem srl (d : XReg) (a : XReg) (b : XReg) : Statement (.srl d a b) :=
  of_words rfl fun w x1 x2 hw hx hy hwf => by
    have hk : RegOk 0 1 d.val a.val b.val 9 0 := ⟨lt_lit rfl, lt_lit rfl, d.isLt, a.isLt, b.isLt, lt_lit rfl, lt_lit rfl⟩
    have h0 : bits w 2 6 = 1 := (eReg_bits_2_6 hw hk).trans rfl
    have h1 : fRd w = d := (eReg_fRd hw hk).trans (fin_ofNat _)
    have h2 : fRs1 w = a := (eReg_fRs1 hw hk).trans (fin_ofNat _)
    have h3 : fRs2 w = b := (eReg_fRs2 hw hk).trans (fin_ofNat _)
    have h4 : fFn w = 9 := (eReg_fFn hw hk).trans rfl
    have h5 : fOpt w = 0 := (eReg_fOpt hw hk).trans rfl
    have h6 : w % 4 = 0 := (eReg_4 hw hk).trans rfl
    refine ⟨eReg_lt hw hk, hx ▸ lt_lit rfl, hy ▸ lt_lit rfl, ?_⟩
    rw [decode_1 h0]
    simp only [decAluReg0, decAluReg, chk, h1, h2, h3, h4, h5, h6] <;>
      simp <;> omega

theorem sra (d : XReg) (a : XReg) (b : XReg) : Statement (.sra d a b) :=
  of_words rfl fun w x1 x2 hw hx hy hwf => by
    have hk : RegOk 0 1 d.val a.val b.val 10 0 := ⟨lt_lit rfl, lt_lit rfl, d.isLt, a.isLt, b.isLt, lt_lit rfl, lt_lit rfl⟩
    have h0 : bits w 2 6 = 1 := (eReg_bits_2_6 hw hk).trans rfl
    have h1 : fRd w = d := (eReg_fRd hw hk).trans (fin_ofNat _)
    have h2 : fRs1 w = a := (eReg_fRs1 hw hk).trans (fin_ofNat _)
    have h3 : fRs2 w = b := (eReg_fRs2 hw hk).trans (fin_ofNat _)
    have h4 : fFn w = 10 := (eReg_fFn hw hk).trans rfl
    have h5 : fOpt w = 0 := (eReg_fOpt hw hk).trans rfl
    have h6 : w % 4 = 0 := (eReg_4 hw hk).trans rfl
    refine ⟨eReg_lt hw hk, hx ▸ lt_lit rfl, hy ▸ lt_lit rfl, ?_⟩
    rw [decode_1 h0]
    simp only [decAluReg0, decAluReg, chk, h1, h2, h3, h4, h5, h6] <;>
      simp <;> omega

theorem rol (d : XReg) (a : XReg) (b : XReg) : Statement (.rol d a b) :=
  of_words rfl fun w x1 x2 hw hx hy hwf => by
    have hk : RegOk 0 1 d.val a.val b.val 11 0 := ⟨lt_lit rfl, lt_lit rfl, d.isLt, a.isLt, b.isLt, lt_lit rfl, lt_lit rfl⟩
    have h0 : bits w 2 6 = 1 := (eReg_bits_2_6 hw hk).trans rfl
    have h1 : fRd w = d := (eReg_fRd hw hk).trans (fin_ofNat _)
    have h2 : fRs1 w = a := (eReg_fRs1 hw hk).trans (fin_ofNat _)
    have h3 : fRs2 w = b := (eReg_fRs2 hw hk).trans (fin_ofNat _)
    have h4 : fFn w = 11 := (eReg_fFn hw hk).trans rfl
    have h5 : fOpt w = 0 := (eReg_fOpt hw hk).trans rfl
    have h6 : w % 4 = 0 := (eReg_4 hw hk).trans rfl
    refine ⟨eReg_lt hw hk, hx ▸ lt_lit rfl, hy ▸ lt_lit rfl, ?_⟩
    rw [decode_1 h0]
    simp only [decAluReg0, decAluReg, chk, h1, h2, h3, h4, h5, h6] <;>
      simp <;> omega

theorem ror (d : XReg) (a : XReg) (b : XReg) : Statement (.ror d a b) :=
  of_words rfl fun w x1 x2 hw hx hy hwf => by
    have hk : RegOk 0 1 d.val a.val b.val 12 0 := ⟨lt_lit rfl, lt_lit rfl, d.isLt, a.isLt, b.isLt, lt_lit rfl, lt_lit rfl⟩
    have h0 : bits w 2 6 = 1 := (eReg_bits_2_6 hw hk).trans rfl
    have h1 : fRd w = d := (eReg_fRd hw hk).trans (fin_ofNat _)
    have h2 : fRs1 w = a := (eReg_fRs1 hw hk).trans (fin_ofNat _)
    have h3 : fRs2 w = b := (eReg_fRs2 hw hk).trans (fin_ofNat _)
    have h4 : fFn w = 12 := (eReg_fFn hw hk).trans rfl
    have h5 : fOpt w = 0 := (eReg_fOpt hw hk).trans rfl
    have h6 : w % 4 = 0 := (eReg_4 hw hk).trans rfl
    refine ⟨eReg_lt hw hk, hx ▸ lt_lit rfl, hy ▸ lt_lit rfl, ?_⟩
    rw [decode_1 h0]
    simp only [decAluReg0, decAluReg, chk, h1, h2, h3, h4, h5, h6] <;>
      simp <;> omega

theorem slt (d : XReg) (a : XReg) (b : XReg) : Statement (.slt d a b) :=
  of_words rfl fun w x1 x2 hw hx hy hwf => by
    have hk : RegOk 0 1 d.val a.val b.val 13 0 := ⟨lt_lit rfl, lt_lit rfl, d.isLt, a.isLt, b.isLt, lt_lit rfl, lt_lit rfl⟩
    have h0 : bits w 2 6 = 1 := (eReg_bits_2_6 hw hk).trans rfl
    have h1 : fRd w = d := (eReg_fRd hw hk).trans (fin_ofNat _)
    have h2 : fRs1 w = a := (eReg_fRs1 hw hk).trans (fin_ofNat _)
    have h3 : fRs2 w = b := (eReg_fRs2 hw hk).trans (fin_ofNat _)
    have h4 : fFn w = 13 := (eReg_fFn hw hk).trans rfl
    have h5 : fOpt w = 0 := (eReg_fOpt hw hk).trans rfl
    have h6 : w % 4 = 0 := (eReg_4 hw hk).trans rfl
    refine ⟨eReg_lt hw hk, hx ▸ lt_lit rfl, hy ▸ lt_lit rfl, ?_⟩
    rw [decode_1 h0]
    simp only [decAluReg0, decAluReg, chk, h1, h2, h3, h4, h5, h6] <;>
      simp <;> omega

theorem sltu (d : XReg) (a : XReg) (b : XReg) : Statement (.sltu d a b) :=
  of_words rfl fun w x1 x2 hw hx hy hwf => by
    have hk : RegOk 0 1 d.val a.val b.val 14 0 := ⟨lt_lit rfl, lt_lit rfl, d.isLt, a.isLt, b.isLt, lt_lit rfl, lt_lit rfl⟩
    have h0 : bits w 2 6 = 1 := (eReg_bits_2_6 hw hk).trans rfl
    have h1 : fRd w = d := (eReg_fRd hw hk).trans (fin_ofNat _)
    have h2 : fRs1 w = a := (eReg_fRs1 hw hk).trans (fin_ofNat _)
    have h3 : fRs2 w = b := (eReg_fRs2 hw hk).trans (fin_ofNat _)
    have h4 : fFn w = 14 := (eReg_fFn hw hk).trans rfl
    have h5 : fOpt w = 0 := (eReg_fOpt hw hk).trans rfl
    have h6 : w % 4 = 0 := (eReg_4 hw hk).trans rfl
    refine ⟨eReg_lt hw hk, hx ▸ lt_lit rfl, hy ▸ lt_lit rfl, ?_⟩
    rw [decode_1 h0]
    simp only [decAluReg0, decAluReg, chk, h1, h2, h3, h4, h5, h6] <;>
      simp <;> omega

theorem min (d : XReg) (a : XReg) (b : XReg) : Statement (.min d a b) :=
  of_words rfl fun w x1 x2 hw hx hy hwf => by
    have hk : RegOk 0 1 d.val a.val b.val 15 0 := ⟨lt_lit rfl, lt_lit rfl, d.isLt, a.isLt, b.isLt, lt_lit rfl, lt_lit rfl⟩
    have h0 : bits w 2 6 = 1 := (eReg_bits_2_6 hw hk).trans rfl
    have h1 : fRd w = d := (eReg_fRd hw hk).trans (fin_ofNat _)
    have h2 : fRs1 w = a := (eReg_fRs1 hw hk).trans (fin_ofNat _)
    have h3 : fRs2 w = b := (eReg_fRs2 hw hk).trans (fin_ofNat _)
    have h4 : fFn w = 15 := (eReg_fFn hw hk).trans rfl
    have h5 : fOpt w = 0 := (eReg_fOpt hw hk).trans rfl
    have h6 : w % 4 = 0 := (eReg_4 hw hk).trans rfl
    refine ⟨eReg_lt hw hk, hx ▸ lt_lit rfl, hy ▸ lt_lit rfl, ?_⟩
    rw [decode_1 h0]
    simp only [decAluReg0, decAluReg, chk, h1, h2, h3, h4, h5, h6] <;>
      simp <;> omega

theorem max (d : XReg) (a : XReg) (b : XReg) : Statement (.max d a b) :=
  of_words rfl fun w x1 x2 hw hx hy hwf => by
    have hk : RegOk 0 1 d.val a.val b.val 16 0 := ⟨lt_lit rfl, lt_lit rfl, d.isLt, a.isLt, b.isLt, lt_lit rfl, lt_lit rfl⟩
    have h0 : bits w 2 6 = 1 := (eReg_bits_2_6 hw hk).trans rfl
    have h1 : fRd w = d := (eReg_fRd hw hk).trans (fin_ofNat _)
    have h2 : fRs1 w = a := (eReg_fRs1 hw hk).trans (fin_ofNat _)
    have h3 : fRs2 w = b := (eReg_fRs2 hw hk).trans (fin_ofNat _)
    have h4 : fFn w = 16 := (eReg_fFn hw hk).trans rfl
    have h5 : fOpt w = 0 := (eReg_fOpt hw hk).trans rfl
    have h6 : w % 4 = 0 := (eReg_4 hw hk).trans rfl
    refine ⟨eReg_lt hw hk, hx ▸ lt_lit rfl, hy ▸ lt_lit rfl, ?_⟩
    rw [decode_1 h0]
    simp only [decAluReg0, decAluReg, chk, h1, h2, h3, h4, h5, h6] <;>
      simp <;> omega

theorem minu (d : XReg) (a : XReg) (b : XReg) : Statement (.minu d a b) :=
  of_words rfl fun w x1 x2 hw hx hy hwf => by
    have hk : RegOk 0 1 d.val a.val b.val 17 0 := ⟨lt_lit rfl, lt_lit rfl, d.isLt, a.isLt, b.isLt, lt_lit rfl, lt_lit rfl⟩
    have h0 : bits w 2 6 = 1 := (eReg_bits_2_6 hw hk).trans rfl
    have h1 : fRd w = d := (eReg_fRd hw hk).trans (fin_ofNat _)
    have h2 : fRs1 w = a := (eReg_fRs1 hw hk).trans (fin_ofNat _)
    have h3 : fRs2 w = b := (eReg_fRs2 hw hk).trans (fin_ofNat _)
    have h4 : fFn w = 17 := (eReg_fFn hw hk).trans rfl
    have h5 : fOpt w = 0 := (eReg_fOpt hw hk).trans rfl
    have h6 : w % 4 = 0 := (eReg_4 hw hk).trans rfl
    refine ⟨eReg_lt hw hk, hx ▸ lt_lit rfl, hy ▸ lt_lit rfl, ?_⟩
    rw [decode_1 h0]
    simp only [decAluReg0, decAluReg, chk, h1, h2, h3, h4, h5, h6] <;>
      simp <;> omega

theorem maxu (d : XReg) (a : XReg) (b : XReg) : Statement (.maxu d a b) :=
  of_words rfl fun w x1 x2 hw hx hy hwf => by
    have hk : RegOk 0 1 d.val a.val b.val 18 0 := ⟨lt_lit rfl, lt_lit rfl, d.isLt, a.isLt, b.isLt, lt_lit rfl, lt_lit rfl⟩
    have h0 : bits w 2 6 = 1 := (eReg_bits_2_6 hw hk).trans rfl
    have h1 : fRd w = d := (eReg_fRd hw hk).trans (fin_ofNat _)
    have h2 : fRs1 w = a := (eReg_fRs1 hw hk).trans (fin_ofNat _)
    have h3 : fRs2 w = b := (eReg_fRs2 hw hk).trans (fin_ofNat _)
    have h4 : fFn w = 18 := (eReg_fFn hw hk).trans rfl
    have h5 : fOpt w = 0 := (eReg_fOpt hw hk).trans rfl
    have h6 : w % 4 = 0 := (eReg_4 hw hk).trans rfl
    refine ⟨eReg_lt hw hk, hx ▸ lt_lit rfl, hy ▸ lt_lit rfl, ?_⟩
    rw [decode_1 h0]
    simp only [decAluReg0, decAluReg, chk, h1, h2, h3, h4, h5, h6] <;>
      simp <;> omega

theorem addw (d : XReg) (a : XReg) (b : XReg) : Statement (.addw d a b) :=
  of_words rfl fun w x1 x2 hw hx hy hwf => by
    have hk : RegOk 0 1 d.val a.val b.val 19 0 := ⟨lt_lit rfl, lt_lit rfl, d.isLt, a.isLt, b.isLt, lt_lit rfl, lt_lit rfl⟩
    have h0 : bits w 2 6 = 1 := (eReg_bits_2_6 hw hk).trans rfl
    have h1 : fRd w = d := (eReg_fRd hw hk).trans (fin_ofNat _)
    have h2 : fRs1 w = a := (eReg_fRs1 hw hk).trans (fin_ofNat _)
    have h3 : fRs2 w = b := (eReg_fRs2 hw hk).trans (fin_ofNat _)
    have h4 : fFn w = 19 := (eReg_fFn hw hk).trans rfl
    have h5 : fOpt w = 0 := (eReg_fOpt hw hk).trans rfl
    have h6 : w % 4 = 0 := (eReg_4 hw hk).trans rfl
    refine ⟨eReg_lt hw hk, hx ▸ lt_lit rfl, hy ▸ lt_lit rfl, ?_⟩
    rw [decode_1 h0]
    simp only [decAluReg0, decAluReg, chk, h1, h2, h3, h4, h5, h6] <;>
      simp <;> omega

theorem subw (d : XReg) (a : XReg) (b : XReg) : Statement (.subw d a b) :=
  of_words rfl fun w x1 x2 hw hx hy hwf => by
    have hk : RegOk 0 1 d.val a.val b.val 20 0 := ⟨lt_lit rfl, lt_lit rfl, d.isLt, a.isLt, b.isLt, lt_lit rfl, lt_lit rfl⟩
    have h0 : bits w 2 6 = 1 := (eReg_bits_2_6 hw hk).trans rfl
    have h1 : fRd w = d := (eReg_fRd hw hk).trans (fin_ofNat _)
    have h2 : fRs1 w = a := (eReg_fRs1 hw hk).trans (fin_ofNat _)
    have h3 : fRs2 w = b := (eReg_fRs2 hw hk).trans (fin_ofNat _)
    have h4 : fFn w = 20 := (eReg_fFn hw hk).trans rfl
    have h5 : fOpt w = 0 := (eReg_fOpt hw hk).trans rfl
    have h6 : w % 4 = 0 := (eReg_4 hw hk).trans rfl
    refine ⟨eReg_lt hw hk, hx ▸ lt_lit rfl, hy ▸ lt_lit rfl, ?_⟩
    rw [decode_1 h0]
    simp only [decAluReg0, decAluReg, chk, h1, h2, h3, h4, h5, h6] <;>
      simp <;> omega

theorem addLit (d : XReg) (a : XReg) (lit : Word) : Statement (.addLit d a lit) :=
  of_words rfl fun w x1 x2 hw hx hy hwf => by
    have hk : RegOk 1 1 d.val a.val 0 0 0 := ⟨lt_lit rfl, lt_lit rfl, d.isLt, a.isLt, lt_lit rfl, lt_lit rfl, lt_lit rfl⟩
    have h0 : bits w 2 6 = 1 := (eReg_bits_2_6 hw hk).trans rfl
    have h1 : fRd w = d := (eReg_fRd hw hk).trans (fin_ofNat _)
    have h2 : fRs1 w = a := (eReg_fRs1 hw hk).trans (fin_ofNat _)
    have h3 : fRs2 w = 0 := (eReg_fRs2 hw hk).trans rfl
    have h4 : fLit x1 = lit := BitVec.eq_of_toNat_eq (by simp only [fLit, BitVec.toNat_ofNat]; omega)
    have h5 : fFn w = 0 := (eReg_fFn hw hk).trans rfl
    have h6 : fOpt w = 0 := (eReg_fOpt hw hk).trans rfl
    have h7 : w % 4 = 1 := (eReg_4 hw hk).trans rfl
    refine ⟨eReg_lt hw hk, by omega, hy ▸ lt_lit rfl, ?_⟩
    rw [decode_1 h0]
    simp only [decAluReg1, decAluReg, chk, h1, h2, h3, h4, h5, h6, h7] <;>
      simp <;> omega

theorem subLit (d : XReg) (a : XReg) (lit : Word) : Statement (.subLit d a lit) :=
  of_words rfl fun w x1 x2 hw hx hy hwf => by
    have hk : RegOk 1 1 d.val a.val 0 1 0 := ⟨lt_lit rfl, lt_lit rfl, d.isLt, a.isLt, lt_lit rfl, lt_lit rfl, lt_lit rfl⟩
    have h0 : bits w 2 6 = 1 := (eReg_bits_2_6 hw hk).trans rfl
    have h1 : fRd w = d := (eReg_fRd hw hk).trans (fin_ofNat _)
    have h2 : fRs1 w = a := (eReg_fRs1 hw hk).trans (fin_ofNat _)
    have h3 : fRs2 w = 0 := (eReg_fRs2 hw hk).trans rfl
    have h4 : fLit x1 = lit := BitVec.eq_of_toNat_eq (by simp only [fLit, BitVec.toNat_ofNat]; omega)
    have h5 : fFn w = 1 := (eReg_fFn hw hk).trans rfl
    have h6 : fOpt w = 0 := (eReg_fOpt hw hk).trans rfl
    have h7 : w % 4 = 1 := (eReg_4 hw hk).trans rfl
    refine ⟨eReg_lt hw hk, by omega, hy ▸ lt_lit rfl, ?_⟩
    rw [decode_1 h0]
    simp only [decAluReg1, decAluReg, chk, h1, h2, h3, h4, h5, h6, h7] <;>
      simp <;> omega

theorem andLit (d : XReg) (a : XReg) (lit : Word) : Statement (.andLit d a lit) :=
  of_words rfl fun w x1 x2 hw hx hy hwf => by
    have hk : RegOk 1 1 d.val a.val 0 2 0 := ⟨lt_lit rfl, lt_lit rfl, d.isLt, a.isLt, lt_lit rfl, lt_lit rfl, lt_lit rfl⟩
    have h0 : bits w 2 6 = 1 := (eReg_bits_2_6 hw hk).trans rfl
    have h1 : fRd w = d := (eReg_fRd hw hk).trans (fin_ofNat _)
    have h2 : fRs1 w = a := (eReg_fRs1 hw hk).trans (fin_ofNat _)
    have h3 : fRs2 w = 0 := (eReg_fRs2 hw hk).trans rfl
    have h4 : fLit x1 = lit := BitVec.eq_of_toNat_eq (by simp only [fLit, BitVec.toNat_ofNat]; omega)
    have h5 : fFn w = 2 := (eReg_fFn hw hk).trans rfl
    have h6 : fOpt w = 0 := (eReg_fOpt hw hk).trans rfl
    have h7 : w % 4 = 1 := (eReg_4 hw hk).trans rfl
    refine ⟨eReg_lt hw hk, by omega, hy ▸ lt_lit rfl, ?_⟩
    rw [decode_1 h0]
    simp only [decAluReg1, decAluReg, chk, h1, h2, h3, h4, h5, h6, h7] <;>
      simp <;> omega

theorem orLit (d : XReg) (a : XReg) (lit : Word) : Statement (.orLit d a lit) :=
  of_words rfl fun w x1 x2 hw hx hy hwf => by
    have hk : RegOk 1 1 d.val a.val 0 3 0 := ⟨lt_lit rfl, lt_lit rfl, d.isLt, a.isLt, lt_lit rfl, lt_lit rfl, lt_lit rfl⟩
    have h0 : bits w 2 6 = 1 := (eReg_bits_2_6 hw hk).trans rfl
    have h1 : fRd w = d := (eReg_fRd hw hk).trans (fin_ofNat _)
    have h2 : fRs1 w = a := (eReg_fRs1 hw hk).trans (fin_ofNat _)
    have h3 : fRs2 w = 0 := (eReg_fRs2 hw hk).trans rfl
    have h4 : fLit x1 = lit := BitVec.eq_of_toNat_eq (by simp only [fLit, BitVec.toNat_ofNat]; omega)
    have h5 : fFn w = 3 := (eReg_fFn hw hk).trans rfl
    have h6 : fOpt w = 0 := (eReg_fOpt hw hk).trans rfl
    have h7 : w % 4 = 1 := (eReg_4 hw hk).trans rfl
    refine ⟨eReg_lt hw hk, by omega, hy ▸ lt_lit rfl, ?_⟩
    rw [decode_1 h0]
    simp only [decAluReg1, decAluReg, chk, h1, h2, h3, h4, h5, h6, h7] <;>
      simp <;> omega

theorem xorLit (d : XReg) (a : XReg) (lit : Word) : Statement (.xorLit d a lit) :=
  of_words rfl fun w x1 x2 hw hx hy hwf => by
    have hk : RegOk 1 1 d.val a.val 0 4 0 := ⟨lt_lit rfl, lt_lit rfl, d.isLt, a.isLt, lt_lit rfl, lt_lit rfl, lt_lit rfl⟩
    have h0 : bits w 2 6 = 1 := (eReg_bits_2_6 hw hk).trans rfl
    have h1 : fRd w = d := (eReg_fRd hw hk).trans (fin_ofNat _)
    have h2 : fRs1 w = a := (eReg_fRs1 hw hk).trans (fin_ofNat _)
    have h3 : fRs2 w = 0 := (eReg_fRs2 hw hk).trans rfl
    have h4 : fLit x1 = lit := BitVec.eq_of_toNat_eq (by simp only [fLit, BitVec.toNat_ofNat]; omega)
    have h5 : fFn w = 4 := (eReg_fFn hw hk).trans rfl
    have h6 : fOpt w = 0 := (eReg_fOpt hw hk).trans rfl
    have h7 : w % 4 = 1 := (eReg_4 hw hk).trans rfl
    refine ⟨eReg_lt hw hk, by omega, hy ▸ lt_lit rfl, ?_⟩
    rw [decode_1 h0]
    simp only [decAluReg1, decAluReg, chk, h1, h2, h3, h4, h5, h6, h7] <;>
      simp <;> omega

theorem andnLit (d : XReg) (a : XReg) (lit : Word) : Statement (.andnLit d a lit) :=
  of_words rfl fun w x1 x2 hw hx hy hwf => by
    have hk : RegOk 1 1 d.val a.val 0 5 0 := ⟨lt_lit rfl, lt_lit rfl, d.isLt, a.isLt, lt_lit rfl, lt_lit rfl, lt_lit rfl⟩
    have h0 : bits w 2 6 = 1 := (eReg_bits_2_6 hw hk).trans rfl
    have h1 : fRd w = d := (eReg_fRd hw hk).trans (fin_ofNat _)
    have h2 : fRs1 w = a := (eReg_fRs1 hw hk).trans (fin_ofNat _)
    have h3 : fRs2 w = 0 := (eReg_fRs2 hw hk).trans rfl
    have h4 : fLit x1 = lit := BitVec.eq_of_toNat_eq (by simp only [fLit, BitVec.toNat_ofNat]; omega)
    have h5 : fFn w = 5 := (eReg_fFn hw hk).trans rfl
    have h6 : fOpt w = 0 := (eReg_fOpt hw hk).trans rfl
    have h7 : w % 4 = 1 := (eReg_4 hw hk).trans rfl
    refine ⟨eReg_lt hw hk, by omega, hy ▸ lt_lit rfl, ?_⟩
    rw [decode_1 h0]
    simp only [decAluReg1, decAluReg, chk, h1, h2, h3, h4, h5, h6, h7] <;>
      simp <;> omega

theorem ornLit (d : XReg) (a : XReg) (lit : Word) : Statement (.ornLit d a lit) :=
  of_words rfl fun w x1 x2 hw hx hy hwf => by
    have hk : RegOk 1 1 d.val a.val 0 6 0 := ⟨lt_lit rfl, lt_lit rfl, d.isLt, a.isLt, lt_lit rfl, lt_lit rfl, lt_lit rfl⟩
    have h0 : bits w 2 6 = 1 := (eReg_bits_2_6 hw hk).trans rfl
    have h1 : fRd w = d := (eReg_fRd hw hk).trans (fin_ofNat _)
    have h2 : fRs1 w = a := (eReg_fRs1 hw hk).trans (fin_ofNat _)
    have h3 : fRs2 w = 0 := (eReg_fRs2 hw hk).trans rfl
    have h4 : fLit x1 = lit := BitVec.eq_of_toNat_eq (by simp only [fLit, BitVec.toNat_ofNat]; omega)
    have h5 : fFn w = 6 := (eReg_fFn hw hk).trans rfl
    have h6 : fOpt w = 0 := (eReg_fOpt hw hk).trans rfl
    have h7 : w % 4 = 1 := (eReg_4 hw hk).trans rfl
    refine ⟨eReg_lt hw hk, by omega, hy ▸ lt_lit rfl, ?_⟩
    rw [decode_1 h0]
    simp only [decAluReg1, decAluReg, chk, h1, h2, h3, h4, h5, h6, h7] <;>
      simp <;> omega

theorem xnorLit (d : XReg) (a : XReg) (lit : Word) : Statement (.xnorLit d a lit) :=
  of_words rfl fun w x1 x2 hw hx hy hwf => by
    have hk : RegOk 1 1 d.val a.val 0 7 0 := ⟨lt_lit rfl, lt_lit rfl, d.isLt, a.isLt, lt_lit rfl, lt_lit rfl, lt_lit rfl⟩
    have h0 : bits w 2 6 = 1 := (eReg_bits_2_6 hw hk).trans rfl
    have h1 : fRd w = d := (eReg_fRd hw hk).trans (fin_ofNat _)
    have h2 : fRs1 w = a := (eReg_fRs1 hw hk).trans (fin_ofNat _)
    have h3 : fRs2 w = 0 := (eReg_fRs2 hw hk).trans rfl
    have h4 : fLit x1 = lit := BitVec.eq_of_toNat_eq (by simp only [fLit, BitVec.toNat_ofNat]; omega)
    have h5 : fFn w = 7 := (eReg_fFn hw hk).trans rfl
    have h6 : fOpt w = 0 := (eReg_fOpt hw hk).trans rfl
    have h7 : w % 4 = 1 := (eReg_4 hw hk).trans rfl
    refine ⟨eReg_lt hw hk, by omega, hy ▸ lt_lit rfl, ?_⟩
    rw [decode_1 h0]
    simp only [decAluReg1, decAluReg, chk, h1, h2, h3, h4, h5, h6, h7] <;>
      simp <;> omega

theorem sllLit (d : XReg) (a : XReg) (lit : Word) : Statement (.sllLit d a lit) :=
  of_words rfl fun w x1 x2 hw hx hy hwf => by
    have hk : RegOk 1 1 d.val a.val 0 8 0 := ⟨lt_lit rfl, lt_lit rfl, d.isLt, a.isLt, lt_lit rfl, lt_lit rfl, lt_lit rfl⟩
    have h0 : bits w 2 6 = 1 := (eReg_bits_2_6 hw hk).trans rfl
    have h1 : fRd w = d := (eReg_fRd hw hk).trans (fin_ofNat _)
    have h2 : fRs1 w = a := (eReg_fRs1 hw hk).trans (fin_ofNat _)
    have h3 : fRs2 w = 0 := (eReg_fRs2 hw hk).trans rfl
    have h4 : fLit x1 = lit := BitVec.eq_of_toNat_eq (by simp only [fLit, BitVec.toNat_ofNat]; omega)
    have h5 : fFn w = 8 := (eReg_fFn hw hk).trans rfl
    have h6 : fOpt w = 0 := (eReg_fOpt hw hk).trans rfl
    have h7 : w % 4 = 1 := (eReg_4 hw hk).trans rfl
    refine ⟨eReg_lt hw hk, by omega, hy ▸ lt_lit rfl, ?_⟩
    rw [decode_1 h0]
    simp only [decAluReg1, decAluReg, chk, h1, h2, h3, h4, h5, h6, h7] <;>
      simp <;> omega

theorem srlLit (d : XReg) (a : XReg) (lit : Word) : Statement (.srlLit d a lit) :=
  of_words rfl fun w x1 x2 hw hx hy hwf => by
    have hk : RegOk 1 1 d.val a.val 0 9 0 := ⟨lt_lit rfl, lt_lit rfl, d.isLt, a.isLt, lt_lit rfl, lt_lit rfl, lt_lit rfl⟩
    have h0 : bits w 2 6 = 1 := (eReg_bits_2_6 hw hk).trans rfl
    have h1 : fRd w = d := (eReg_fRd hw hk).trans (fin_ofNat _)
    have h2 : fRs1 w = a := (eReg_fRs1 hw hk).trans (fin_ofNat _)
    have h3 : fRs2 w = 0 := (eReg_fRs2 hw hk).trans rfl
    have h4 : fLit x1 = lit := BitVec.eq_of_toNat_eq (by simp only [fLit, BitVec.toNat_ofNat]; omega)
    have h5 : fFn w = 9 := (eReg_fFn hw hk).trans rfl
    have h6 : fOpt w = 0 := (eReg_fOpt hw hk).trans rfl
    have h7 : w % 4 = 1 := (eReg_4 hw hk).trans rfl
    refine ⟨eReg_lt hw hk, by omega, hy ▸ lt_lit rfl, ?_⟩
    rw [decode_1 h0]
    simp only [decAluReg1, decAluReg, chk, h1, h2, h3, h4, h5, h6, h7] <;>
      simp <;> omega

theorem sraLit (d : XReg) (a : XReg) (lit : Word) : Statement (.sraLit d a lit) :=
  of_words rfl fun w x1 x2 hw hx hy hwf => by
    have hk : RegOk 1 1 d.val a.val 0 10 0 := ⟨lt_lit rfl, lt_lit rfl, d.isLt, a.isLt, lt_lit rfl, lt_lit rfl, lt_lit rfl⟩
    have h0 : bits w 2 6 = 1 := (eReg_bits_2_6 hw hk).trans rfl
    have h1 : fRd w = d := (eReg_fRd hw hk).trans (fin_ofNat _)
    have h2 : fRs1 w = a := (eReg_fRs1 hw hk).trans (fin_ofNat _)
    have h3 : fRs2 w = 0 := (eReg_fRs2 hw hk).trans rfl
    have h4 : fLit x1 = lit := BitVec.eq_of_toNat_eq (by simp only [fLit, BitVec.toNat_ofNat]; omega)
    have h5 : fFn w = 10 := (eReg_fFn hw hk).trans rfl
    have h6 : fOpt w = 0 := (eReg_fOpt hw hk).trans rfl
    have h7 : w % 4 = 1 := (eReg_4 hw hk).trans rfl
    refine ⟨eReg_lt hw hk, by omega, hy ▸ lt_lit rfl, ?_⟩
    rw [decode_1 h0]
    simp only [decAluReg1, decAluReg, chk, h1, h2, h3, h4, h5, h6, h7] <;>
      simp <;> omega

theorem rolLit (d : XReg) (a : XReg) (lit : Word) : Statement (.rolLit d a lit) :=
  of_words rfl fun w x1 x2 hw hx hy hwf => by
    have hk : RegOk 1 1 d.val a.val 0 11 0 := ⟨lt_lit rfl, lt_lit rfl, d.isLt, a.isLt, lt_lit rfl, lt_lit rfl, lt_lit rfl⟩
    have h0 : bits w 2 6 = 1 := (eReg_bits_2_6 hw hk).trans rfl
    have h1 : fRd w = d := (eReg_fRd hw hk).trans (fin_ofNat _)
    have h2 : fRs1 w = a := (eReg_fRs1 hw hk).trans (fin_ofNat _)
    have h3 : fRs2 w = 0 := (eReg_fRs2 hw hk).trans rfl
    have h4 : fLit x1 = lit := BitVec.eq_of_toNat_eq (by simp only [fLit, BitVec.toNat_ofNat]; omega)
    have h5 : fFn w = 11 := (eReg_fFn hw hk).trans rfl
    have h6 : fOpt w = 0 := (eReg_fOpt hw hk).trans rfl
    have h7 : w % 4 = 1 := (eReg_4 hw hk).trans rfl
    refine ⟨eReg_lt hw hk, by omega, hy ▸ lt_lit rfl, ?_⟩
    rw [decode_1 h0]
    simp only [decAluReg1, decAluReg, chk, h1, h2, h3, h4, h5, h6, h7] <;>
      simp <;> omega

theorem rorLit (d : XReg) (a : XReg) (lit : Word) : Statement (.rorLit d a lit) :=
  of_words rfl fun w x1 x2 hw hx hy hwf => by
    have hk : RegOk 1 1 d.val a.val 0 12 0 := ⟨lt_lit rfl, lt_lit rfl, d.isLt, a.isLt, lt_lit rfl, lt_lit rfl, lt_lit rfl⟩
    have h0 : bits w 2 6 = 1 := (eReg_bits_2_6 hw hk).trans rfl
    have h1 : fRd w = d := (eReg_fRd hw hk).trans (fin_ofNat _)
    have h2 : fRs1 w = a := (eReg_fRs1 hw hk).trans (fin_ofNat _)
    have h3 : fRs2 w = 0 := (eReg_fRs2 hw hk).trans rfl
    have h4 : fLit x1 = lit := BitVec.eq_of_toNat_eq (by simp only [fLit, BitVec.toNat_ofNat]; omega)
    have h5 : fFn w = 12 := (eReg_fFn hw hk).trans rfl
    have h6 : fOpt w = 0 := (eReg_fOpt hw hk).trans rfl
    have h7 : w % 4 = 1 := (eReg_4 hw hk).trans rfl
    refine ⟨eReg_lt hw hk, by omega, hy ▸ lt_lit rfl, ?_⟩
    rw [decode_1 h0]
    simp only [decAluReg1, decAluReg, chk, h1, h2, h3, h4, h5, h6, h7] <;>
      simp <;> omega

theorem sltLit (d : XReg) (a : XReg) (lit : Word) : Statement (.sltLit d a lit) :=
  of_words rfl fun w x1 x2 hw hx hy hwf => by
    have hk : RegOk 1 1 d.val a.val 0 13 0 := ⟨lt_lit rfl, lt_lit rfl, d.isLt, a.isLt, lt_lit rfl, lt_lit rfl, lt_lit rfl⟩
    have h0 : bits w 2 6 = 1 := (eReg_bits_2_6 hw hk).trans rfl
    have h1 : fRd w = d := (eReg_fRd hw hk).trans (fin_ofNat _)
    have h2 : fRs1 w = a := (eReg_fRs1 hw hk).trans (fin_ofNat _)
    have h3 : fRs2 w = 0 := (eReg_fRs2 hw hk).trans rfl
    have h4 : fLit x1 = lit := BitVec.eq_of_toNat_eq (by simp only [fLit, BitVec.toNat_ofNat]; omega)
    have h5 : fFn w = 13 := (eReg_fFn hw hk).trans rfl
    have h6 : fOpt w = 0 := (eReg_fOpt hw hk).trans rfl
    have h7 : w % 4 = 1 := (eReg_4 hw hk).trans rfl
    refine ⟨eReg_lt hw hk, by omega, hy ▸ lt_lit rfl, ?_⟩
    rw [decode_1 h0]
    simp only [decAluReg1, decAluReg, chk, h1, h2, h3, h4, h5, h6, h7] <;>
      simp <;> omega

theorem sltuLit (d : XReg) (a : XReg) (lit : Word) : Statement (.sltuLit d a lit) :=
  of_words rfl fun w x1 x2 hw hx hy hwf => by
    have hk : RegOk 1 1 d.val a.val 0 14 0 := ⟨lt_lit rfl, lt_lit rfl, d.isLt, a.isLt, lt_lit rfl, lt_lit rfl, lt_lit rfl⟩
    have h0 : bits w 2 6 = 1 := (eReg_bits_2_6 hw hk).trans rfl
    have h1 : fRd w = d := (eReg_fRd hw hk).trans (fin_ofNat _)
    have h2 : fRs1 w = a := (eReg_fRs1 hw hk).trans (fin_ofNat _)
    have h3 : fRs2 w = 0 := (eReg_fRs2 hw hk).trans rfl
    have h4 : fLit x1 = lit := BitVec.eq_of_toNat_eq (by simp only [fLit, BitVec.toNat_ofNat]; omega)
    have h5 : fFn w = 14 := (eReg_fFn hw hk).trans rfl
    have h6 : fOpt w = 0 := (eReg_fOpt hw hk).trans rfl
    have h7 : w % 4 = 1 := (eReg_4 hw hk).trans rfl
    refine ⟨eReg_lt hw hk, by omega, hy ▸ lt_lit rfl, ?_⟩
    rw [decode_1 h0]
    simp only [decAluReg1, decAluReg, chk, h1, h2, h3, h4, h5, h6, h7] <;>
      simp <;> omega

theorem minLit (d : XReg) (a : XReg) (lit : Word) : Statement (.minLit d a lit) :=
  of_words rfl fun w x1 x2 hw hx hy hwf => by
    have hk : RegOk 1 1 d.val a.val 0 15 0 := ⟨lt_lit rfl, lt_lit rfl, d.isLt, a.isLt, lt_lit rfl, lt_lit rfl, lt_lit rfl⟩
    have h0 : bits w 2 6 = 1 := (eReg_bits_2_6 hw hk).trans rfl
    have h1 : fRd w = d := (eReg_fRd hw hk).trans (fin_ofNat _)
    have h2 : fRs1 w = a := (eReg_fRs1 hw hk).trans (fin_ofNat _)
    have h3 : fRs2 w = 0 := (eReg_fRs2 hw hk).trans rfl
    have h4 : fLit x1 = lit := BitVec.eq_of_toNat_eq (by simp only [fLit, BitVec.toNat_ofNat]; omega)
    have h5 : fFn w = 15 := (eReg_fFn hw hk).trans rfl
    have h6 : fOpt w = 0 := (eReg_fOpt hw hk).trans rfl
    have h7 : w % 4 = 1 := (eReg_4 hw hk).trans rfl
    refine ⟨eReg_lt hw hk, by omega, hy ▸ lt_lit rfl, ?_⟩
    rw [decode_1 h0]
    simp only [decAluReg1, decAluReg, chk, h1, h2, h3, h4, h5, h6, h7] <;>
      simp <;> omega

theorem maxLit (d : XReg) (a : XReg) (lit : Word) : Statement (.maxLit d a lit) :=
  of_words rfl fun w x1 x2 hw hx hy hwf => by
    have hk : RegOk 1 1 d.val a.val 0 16 0 := ⟨lt_lit rfl, lt_lit rfl, d.isLt, a.isLt, lt_lit rfl, lt_lit rfl, lt_lit rfl⟩
    have h0 : bits w 2 6 = 1 := (eReg_bits_2_6 hw hk).trans rfl
    have h1 : fRd w = d := (eReg_fRd hw hk).trans (fin_ofNat _)
    have h2 : fRs1 w = a := (eReg_fRs1 hw hk).trans (fin_ofNat _)
    have h3 : fRs2 w = 0 := (eReg_fRs2 hw hk).trans rfl
    have h4 : fLit x1 = lit := BitVec.eq_of_toNat_eq (by simp only [fLit, BitVec.toNat_ofNat]; omega)
    have h5 : fFn w = 16 := (eReg_fFn hw hk).trans rfl
    have h6 : fOpt w = 0 := (eReg_fOpt hw hk).trans rfl
    have h7 : w % 4 = 1 := (eReg_4 hw hk).trans rfl
    refine ⟨eReg_lt hw hk, by omega, hy ▸ lt_lit rfl, ?_⟩
    rw [decode_1 h0]
    simp only [decAluReg1, decAluReg, chk, h1, h2, h3, h4, h5, h6, h7] <;>
      simp <;> omega

theorem minuLit (d : XReg) (a : XReg) (lit : Word) : Statement (.minuLit d a lit) :=
  of_words rfl fun w x1 x2 hw hx hy hwf => by
    have hk : RegOk 1 1 d.val a.val 0 17 0 := ⟨lt_lit rfl, lt_lit rfl, d.isLt, a.isLt, lt_lit rfl, lt_lit rfl, lt_lit rfl⟩
    have h0 : bits w 2 6 = 1 := (eReg_bits_2_6 hw hk).trans rfl
    have h1 : fRd w = d := (eReg_fRd hw hk).trans (fin_ofNat _)
    have h2 : fRs1 w = a := (eReg_fRs1 hw hk).trans (fin_ofNat _)
    have h3 : fRs2 w = 0 := (eReg_fRs2 hw hk).trans rfl
    have h4 : fLit x1 = lit := BitVec.eq_of_toNat_eq (by simp only [fLit, BitVec.toNat_ofNat]; omega)
    have h5 : fFn w = 17 := (eReg_fFn hw hk).trans rfl
    have h6 : fOpt w = 0 := (eReg_fOpt hw hk).trans rfl
    have h7 : w % 4 = 1 := (eReg_4 hw hk).trans rfl
    refine ⟨eReg_lt hw hk, by omega, hy ▸ lt_lit rfl, ?_⟩
    rw [decode_1 h0]
    simp only [decAluReg1, decAluReg, chk, h1, h2, h3, h4, h5, h6, h7] <;>
      simp <;> omega

theorem maxuLit (d : XReg) (a : XReg) (lit : Word) : Statement (.maxuLit d a lit) :=
  of_words rfl fun w x1 x2 hw hx hy hwf => by
    have hk : RegOk 1 1 d.val a.val 0 18 0 := ⟨lt_lit rfl, lt_lit rfl, d.isLt, a.isLt, lt_lit rfl, lt_lit rfl, lt_lit rfl⟩
    have h0 : bits w 2 6 = 1 := (eReg_bits_2_6 hw hk).trans rfl
    have h1 : fRd w = d := (eReg_fRd hw hk).trans (fin_ofNat _)
    have h2 : fRs1 w = a := (eReg_fRs1 hw hk).trans (fin_ofNat _)
    have h3 : fRs2 w = 0 := (eReg_fRs2 hw hk).trans rfl
    have h4 : fLit x1 = lit := BitVec.eq_of_toNat_eq (by simp only [fLit, BitVec.toNat_ofNat]; omega)
    have h5 : fFn w = 18 := (eReg_fFn hw hk).trans rfl
    have h6 : fOpt w = 0 := (eReg_fOpt hw hk).trans rfl
    have h7 : w % 4 = 1 := (eReg_4 hw hk).trans rfl
    refine ⟨eReg_lt hw hk, by omega, hy ▸ lt_lit rfl, ?_⟩
    rw [decode_1 h0]
    simp only [decAluReg1, decAluReg, chk, h1, h2, h3, h4, h5, h6, h7] <;>
      simp <;> omega

theorem addwLit (d : XReg) (a : XReg) (lit : Word) : Statement (.addwLit d a lit) :=
  of_words rfl fun w x1 x2 hw hx hy hwf => by
    have hk : RegOk 1 1 d.val a.val 0 19 0 := ⟨lt_lit rfl, lt_lit rfl, d.isLt, a.isLt, lt_lit rfl, lt_lit rfl, lt_lit rfl⟩
    have h0 : bits w 2 6 = 1 := (eReg_bits_2_6 hw hk).trans rfl
    have h1 : fRd w = d := (eReg_fRd hw hk).trans (fin_ofNat _)
    have h2 : fRs1 w = a := (eReg_fRs1 hw hk).trans (fin_ofNat _)
    have h3 : fRs2 w = 0 := (eReg_fRs2 hw hk).trans rfl
    have h4 : fLit x1 = lit := BitVec.eq_of_toNat_eq (by simp only [fLit, BitVec.toNat_ofNat]; omega)
    have h5 : fFn w = 19 := (eReg_fFn hw hk).trans rfl
    have h6 : fOpt w = 0 := (eReg_fOpt hw hk).trans rfl
    have h7 : w % 4 = 1 := (eReg_4 hw hk).trans rfl
    refine ⟨eReg_lt hw hk, by omega, hy ▸ lt_lit rfl, ?_⟩
    rw [decode_1 h0]
    simp only [decAluReg1, decAluReg, chk, h1, h2, h3, h4, h5, h6, h7] <;>
      simp <;> omega

theorem subwLit (d : XReg) (a : XReg) (lit : Word) : Statement (.subwLit d a lit) :=
  of_words rfl fun w x1 x2 hw hx hy hwf => by
    have hk : RegOk 1 1 d.val a.val 0 20 0 := ⟨lt_lit rfl, lt_lit rfl, d.isLt, a.isLt, lt_lit rfl, lt_lit rfl, lt_lit rfl⟩
    have h0 : bits w 2 6 = 1 := (eReg_bits_2_6 hw hk).trans rfl
    have h1 : fRd w = d := (eReg_fRd hw hk).trans (fin_ofNat _)
    have h2 : fRs1 w = a := (eReg_fRs1 hw hk).trans (fin_ofNat _)
    have h3 : fRs2 w = 0 := (eReg_fRs2 hw hk).trans rfl
    have h4 : fLit x1 = lit := BitVec.eq_of_toNat_eq (by simp only [fLit, BitVec.toNat_ofNat]; omega)
    have h5 : fFn w = 20 := (eReg_fFn hw hk).trans rfl
    have h6 : fOpt w = 0 := (eReg_fOpt hw hk).trans rfl
    have h7 : w % 4 = 1 := (eReg_4 hw hk).trans rfl
    refine ⟨eReg_lt hw hk, by omega, hy ▸ lt_lit rfl, ?_⟩
    rw [decode_1 h0]
    simp only [decAluReg1, decAluReg, chk, h1, h2, h3, h4, h5, h6, h7] <;>
      simp <;> omega

theorem addi (d : XReg) (a : XReg) (imm : BitVec 10) : Statement (.addi d a imm) :=
  of_words rfl fun w x1 x2 hw hx hy hwf => by
    have hk : ImmOk 0 2 d.val a.val imm.toNat 0 := ⟨lt_lit rfl, lt_lit rfl, d.isLt, a.isLt, imm.isLt, lt_lit rfl⟩
    have h0 : bits w 2 6 = 2 := (eImm_bits_2_6 hw hk).trans rfl
    have h1 : fRd w = d := (eImm_fRd hw hk).trans (fin_ofNat _)
    have h2 : fRs1 w = a := (eImm_fRs1 hw hk).trans (fin_ofNat _)
    have h3 : fImm w = imm := (eImm_fImm hw hk).trans (bv_ofNat _)
    have h4 : bits w 28 4 = 0 := (eImm_bits_28_4 hw hk).trans rfl
    have h5 : w % 4 = 0 := (eImm_4 hw hk).trans rfl
    refine ⟨eImm_lt hw hk, hx ▸ lt_lit rfl, hy ▸ lt_lit rfl, ?_⟩
    rw [decode_2 h0]
    simp only [decAluImm0, decAluImm, chk, h1, h2, h3, h4, h5] <;>
      simp <;> omega

theorem andi (d : XReg) (a : XReg) (imm : BitVec 10) : Statement (.andi d a imm) :=
  of_words rfl fun w x1 x2 hw hx hy hwf => by
    have hk : ImmOk 0 2 d.val a.val imm.toNat 1 := ⟨lt_lit rfl, lt_lit rfl, d.isLt, a.isLt, imm.isLt, lt_lit rfl⟩
    have h0 : bits w 2 6 = 2 := (eImm_bits_2_6 hw hk).trans rfl
    have h1 : fRd w = d := (eImm_fRd hw hk).trans (fin_ofNat _)
    have h2 : fRs1 w = a := (eImm_fRs1 hw hk).trans (fin_ofNat _)
    have h3 : fImm w = imm := (eImm_fImm hw hk).trans (bv_ofNat _)
    have h4 : bits w 28 4 = 1 := (eImm_bits_28_4 hw hk).trans rfl
    have h5 : w % 4 = 0 := (eImm_4 hw hk).trans rfl
    refine ⟨eImm_lt hw hk, hx ▸ lt_lit rfl, hy ▸ lt_lit rfl, ?_⟩
    rw [decode_2 h0]
    simp only [decAluImm0, decAluImm, chk, h1, h2, h3, h4, h5] <;>
      simp <;> omega

theorem ori (d : XReg) (a : XReg) (imm : BitVec 10) : Statement (.ori d a imm) :=
  of_words rfl fun w x1 x2 hw hx hy hwf => by
    have hk : ImmOk 0 2 d.val a.val imm.toNat 2 := ⟨lt_lit rfl, lt_lit rfl, d.isLt, a.isLt, imm.isLt, lt_lit rfl⟩
    have h0 : bits w 2 6 = 2 := (eImm_bits_2_6 hw hk).trans rfl
    have h1 : fRd w = d := (eImm_fRd hw hk).trans (fin_ofNat _)
    have h2 : fRs1 w = a := (eImm_fRs1 hw hk).trans (fin_ofNat _)
    have h3 : fImm w = imm := (eImm_fImm hw hk).trans (bv_ofNat _)
    have h4 : bits w 28 4 = 2 := (eImm_bits_28_4 hw hk).trans rfl
    have h5 : w % 4 = 0 := (eImm_4 hw hk).trans rfl
    refine ⟨eImm_lt hw hk, hx ▸ lt_lit rfl, hy ▸ lt_lit rfl, ?_⟩
    rw [decode_2 h0]
    simp only [decAluImm0, decAluImm, chk, h1, h2, h3, h4, h5] <;>
      simp <;> omega

theorem xori (d : XReg) (a : XReg) (imm : BitVec 10) : Statement (.xori d a imm) :=
  of_words rfl fun w x1 x2 hw hx hy hwf => by
    have hk : ImmOk 0 2 d.val a.val imm.toNat 3 := ⟨lt_lit rfl, lt_lit rfl, d.isLt, a.isLt, imm.isLt, lt_lit rfl⟩
    have h0 : bits w 2 6 = 2 := (eImm_bits_2_6 hw hk).trans rfl
    have h1 : fRd w = d := (eImm_fRd hw hk).trans (fin_ofNat _)
    have h2 : fRs1 w = a := (eImm_fRs1 hw hk).trans (fin_ofNat _)
    have h3 : fImm w = imm := (eImm_fImm hw hk).trans (bv_ofNat _)
    have h4 : bits w 28 4 = 3 := (eImm_bits_28_4 hw hk).trans rfl
    have h5 : w % 4 = 0 := (eImm_4 hw hk).trans rfl
    refine ⟨eImm_lt hw hk, hx ▸ lt_lit rfl, hy ▸ lt_lit rfl, ?_⟩
    rw [decode_2 h0]
    simp only [decAluImm0, decAluImm, chk, h1, h2, h3, h4, h5] <;>
      simp <;> omega

theorem slli (d : XReg) (a : XReg) (sh : BitVec 6) : Statement (.slli d a sh) :=
  of_words rfl fun w x1 x2 hw hx hy hwf => by
    have hk : ImmOk 0 2 d.val a.val sh.toNat 4 := ⟨lt_lit rfl, lt_lit rfl, d.isLt, a.isLt, by omega, lt_lit rfl⟩
    have h0 : bits w 2 6 = 2 := (eImm_bits_2_6 hw hk).trans rfl
    have h1 : fRd w = d := (eImm_fRd hw hk).trans (fin_ofNat _)
    have h2 : fRs1 w = a := (eImm_fRs1 hw hk).trans (fin_ofNat _)
    have h3 : BitVec.ofNat 6 (w / 2 ^ 18) = sh := (eImm_BitVec_ofNat_6_2_18 hw hk).trans (BitVec.eq_of_toNat_eq (by simp only [BitVec.toNat_ofNat]; omega))
    have h4 : bits w 28 4 = 4 := (eImm_bits_28_4 hw hk).trans rfl
    have h5 : bits w 24 4 = 0 := (eImm_bits_24_4 hw hk).trans (by omega)
    have h6 : w % 4 = 0 := (eImm_4 hw hk).trans rfl
    refine ⟨eImm_lt hw hk, hx ▸ lt_lit rfl, hy ▸ lt_lit rfl, ?_⟩
    rw [decode_2 h0]
    simp only [decAluImm0, decAluImm, chk, h1, h2, h3, h4, h5, h6] <;>
      simp <;> omega

theorem srli (d : XReg) (a : XReg) (sh : BitVec 6) : Statement (.srli d a sh) :=
  of_words rfl fun w x1 x2 hw hx hy hwf => by
    have hk : ImmOk 0 2 d.val a.val sh.toNat 5 := ⟨lt_lit rfl, lt_lit rfl, d.isLt, a.isLt, by omega, lt_lit rfl⟩
    have h0 : bits w 2 6 = 2 := (eImm_bits_2_6 hw hk).trans rfl
    have h1 : fRd w = d := (eImm_fRd hw hk).trans (fin_ofNat _)
    have h2 : fRs1 w = a := (eImm_fRs1 hw hk).trans (fin_ofNat _)
    have h3 : BitVec.ofNat 6 (w / 2 ^ 18) = sh := (eImm_BitVec_ofNat_6_2_18 hw hk).trans (BitVec.eq_of_toNat_eq (by simp only [BitVec.toNat_ofNat]; omega))
    have h4 : bits w 28 4 = 5 := (eImm_bits_28_4 hw hk).trans rfl
    have h5 : bits w 24 4 = 0 := (eImm_bits_24_4 hw hk).trans (by omega)
    have h6 : w % 4 = 0 := (eImm_4 hw hk).trans rfl
    refine ⟨eImm_lt hw hk, hx ▸ lt_lit rfl, hy ▸ lt_lit rfl, ?_⟩
    rw [decode_2 h0]
    simp only [decAluImm0, decAluImm, chk, h1, h2, h3, h4, h5, h6] <;>
      simp <;> omega

theorem srai (d : XReg) (a : XReg) (sh : BitVec 6) : Statement (.srai d a sh) :=
  of_words rfl fun w x1 x2 hw hx hy hwf => by
    have hk : ImmOk 0 2 d.val a.val sh.toNat 6 := ⟨lt_lit rfl, lt_lit rfl, d.isLt, a.isLt, by omega, lt_lit rfl⟩
    have h0 : bits w 2 6 = 2 := (eImm_bits_2_6 hw hk).trans rfl
    have h1 : fRd w = d := (eImm_fRd hw hk).trans (fin_ofNat _)
    have h2 : fRs1 w = a := (eImm_fRs1 hw hk).trans (fin_ofNat _)
    have h3 : BitVec.ofNat 6 (w / 2 ^ 18) = sh := (eImm_BitVec_ofNat_6_2_18 hw hk).trans (BitVec.eq_of_toNat_eq (by simp only [BitVec.toNat_ofNat]; omega))
    have h4 : bits w 28 4 = 6 := (eImm_bits_28_4 hw hk).trans rfl
    have h5 : bits w 24 4 = 0 := (eImm_bits_24_4 hw hk).trans (by omega)
    have h6 : w % 4 = 0 := (eImm_4 hw hk).trans rfl
    refine ⟨eImm_lt hw hk, hx ▸ lt_lit rfl, hy ▸ lt_lit rfl, ?_⟩
    rw [decode_2 h0]
    simp only [decAluImm0, decAluImm, chk, h1, h2, h3, h4, h5, h6] <;>
      simp <;> omega

theorem slti (d : XReg) (a : XReg) (imm : BitVec 10) : Statement (.slti d a imm) :=
  of_words rfl fun w x1 x2 hw hx hy hwf => by
    have hk : ImmOk 0 2 d.val a.val imm.toNat 7 := ⟨lt_lit rfl, lt_lit rfl, d.isLt, a.isLt, imm.isLt, lt_lit rfl⟩
    have h0 : bits w 2 6 = 2 := (eImm_bits_2_6 hw hk).trans rfl
    have h1 : fRd w = d := (eImm_fRd hw hk).trans (fin_ofNat _)
    have h2 : fRs1 w = a := (eImm_fRs1 hw hk).trans (fin_ofNat _)
    have h3 : fImm w = imm := (eImm_fImm hw hk).trans (bv_ofNat _)
    have h4 : bits w 28 4 = 7 := (eImm_bits_28_4 hw hk).trans rfl
    have h5 : w % 4 = 0 := (eImm_4 hw hk).trans rfl
    refine ⟨eImm_lt hw hk, hx ▸ lt_lit rfl, hy ▸ lt_lit rfl, ?_⟩
    rw [decode_2 h0]
    simp only [decAluImm0, decAluImm, chk, h1, h2, h3, h4, h5] <;>
      simp <;> omega

theorem sltiu (d : XReg) (a : XReg) (imm : BitVec 10) : Statement (.sltiu d a imm) :=
  of_words rfl fun w x1 x2 hw hx hy hwf => by
    have hk : ImmOk 0 2 d.val a.val imm.toNat 8 := ⟨lt_lit rfl, lt_lit rfl, d.isLt, a.isLt, imm.isLt, lt_lit rfl⟩
    have h0 : bits w 2 6 = 2 := (eImm_bits_2_6 hw hk).trans rfl
    have h1 : fRd w = d := (eImm_fRd hw hk).trans (fin_ofNat _)
    have h2 : fRs1 w = a := (eImm_fRs1 hw hk).trans (fin_ofNat _)
    have h3 : fImm w = imm := (eImm_fImm hw hk).trans (bv_ofNat _)
    have h4 : bits w 28 4 = 8 := (eImm_bits_28_4 hw hk).trans rfl
    have h5 : w % 4 = 0 := (eImm_4 hw hk).trans rfl
    refine ⟨eImm_lt hw hk, hx ▸ lt_lit rfl, hy ▸ lt_lit rfl, ?_⟩
    rw [decode_2 h0]
    simp only [decAluImm0, decAluImm, chk, h1, h2, h3, h4, h5] <;>
      simp <;> omega

theorem addwi (d : XReg) (a : XReg) (imm : BitVec 10) : Statement (.addwi d a imm) :=
  of_words rfl fun w x1 x2 hw hx hy hwf => by
    have hk : ImmOk 0 2 d.val a.val imm.toNat 9 := ⟨lt_lit rfl, lt_lit rfl, d.isLt, a.isLt, imm.isLt, lt_lit rfl⟩
    have h0 : bits w 2 6 = 2 := (eImm_bits_2_6 hw hk).trans rfl
    have h1 : fRd w = d := (eImm_fRd hw hk).trans (fin_ofNat _)
    have h2 : fRs1 w = a := (eImm_fRs1 hw hk).trans (fin_ofNat _)
    have h3 : fImm w = imm := (eImm_fImm hw hk).trans (bv_ofNat _)
    have h4 : bits w 28 4 = 9 := (eImm_bits_28_4 hw hk).trans rfl
    have h5 : w % 4 = 0 := (eImm_4 hw hk).trans rfl
    refine ⟨eImm_lt hw hk, hx ▸ lt_lit rfl, hy ▸ lt_lit rfl, ?_⟩
    rw [decode_2 h0]
    simp only [decAluImm0, decAluImm, chk, h1, h2, h3, h4, h5] <;>
      simp <;> omega

theorem addiLit (d : XReg) (a : XReg) (lit : Word) : Statement (.addiLit d a lit) :=
  of_words rfl fun w x1 x2 hw hx hy hwf => by
    have hk : ImmOk 1 2 d.val a.val 0 0 := ⟨lt_lit rfl, lt_lit rfl, d.isLt, a.isLt, lt_lit rfl, lt_lit rfl⟩
    have h0 : bits w 2 6 = 2 := (eImm_bits_2_6 hw hk).trans rfl
    have h1 : fRd w = d := (eImm_fRd hw hk).trans (fin_ofNat _)
    have h2 : fRs1 w = a := (eImm_fRs1 hw hk).trans (fin_ofNat _)
    have h3 : fImm w = 0 := (eImm_fImm hw hk).trans rfl
    have h4 : fLit x1 = lit := BitVec.eq_of_toNat_eq (by simp only [fLit, BitVec.toNat_ofNat]; omega)
    have h5 : bits w 28 4 = 0 := (eImm_bits_28_4 hw hk).trans rfl
    have h6 : w % 4 = 1 := (eImm_4 hw hk).trans rfl
    refine ⟨eImm_lt hw hk, by omega, hy ▸ lt_lit rfl, ?_⟩
    rw [decode_2 h0]
    simp only [decAluImm1, decAluImm, chk, h1, h2, h3, h4, h5, h6] <;>
      simp <;> omega

theorem andiLit (d : XReg) (a : XReg) (lit : Word) : Statement (.andiLit d a lit) :=
  of_words rfl fun w x1 x2 hw hx hy hwf => by
    have hk : ImmOk 1 2 d.val a.val 0 1 := ⟨lt_lit rfl, lt_lit rfl, d.isLt, a.isLt, lt_lit rfl, lt_lit rfl⟩
    have h0 : bits w 2 6 = 2 := (eImm_bits_2_6 hw hk).trans rfl
    have h1 : fRd w = d := (eImm_fRd hw hk).trans (fin_ofNat _)
    have h2 : fRs1 w = a := (eImm_fRs1 hw hk).trans (fin_ofNat _)
    have h3 : fImm w = 0 := (eImm_fImm hw hk).trans rfl
    have h4 : fLit x1 = lit := BitVec.eq_of_toNat_eq (by simp only [fLit, BitVec.toNat_ofNat]; omega)
    have h5 : bits w 28 4 = 1 := (eImm_bits_28_4 hw hk).trans rfl
    have h6 : w % 4 = 1 := (eImm_4 hw hk).trans rfl
    refine ⟨eImm_lt hw hk, by omega, hy ▸ lt_lit rfl, ?_⟩
    rw [decode_2 h0]
    simp only [decAluImm1, decAluImm, chk, h1, h2, h3, h4, h5, h6] <;>
      simp <;> omega

theorem oriLit (d : XReg) (a : XReg) (lit : Word) : Statement (.oriLit d a lit) :=
  of_words rfl fun w x1 x2 hw hx hy hwf => by
    have hk : ImmOk 1 2 d.val a.val 0 2 := ⟨lt_lit rfl, lt_lit rfl, d.isLt, a.isLt, lt_lit rfl, lt_lit rfl⟩
    have h0 : bits w 2 6 = 2 := (eImm_bits_2_6 hw hk).trans rfl
    have h1 : fRd w = d := (eImm_fRd hw hk).trans (fin_ofNat _)
    have h2 : fRs1 w = a := (eImm_fRs1 hw hk).trans (fin_ofNat _)
    have h3 : fImm w = 0 := (eImm_fImm hw hk).trans rfl
    have h4 : fLit x1 = lit := BitVec.eq_of_toNat_eq (by simp only [fLit, BitVec.toNat_ofNat]; omega)
    have h5 : bits w 28 4 = 2 := (eImm_bits_28_4 hw hk).trans rfl
    have h6 : w % 4 = 1 := (eImm_4 hw hk).trans rfl
    refine ⟨eImm_lt hw hk, by omega, hy ▸ lt_lit rfl, ?_⟩
    rw [decode_2 h0]
    simp only [decAluImm1, decAluImm, chk, h1, h2, h3, h4, h5, h6] <;>
      simp <;> omega

theorem xoriLit (d : XReg) (a : XReg) (lit : Word) : Statement (.xoriLit d a lit) :=
  of_words rfl fun w x1 x2 hw hx hy hwf => by
    have hk : ImmOk 1 2 d.val a.val 0 3 := ⟨lt_lit rfl, lt_lit rfl, d.isLt, a.isLt, lt_lit rfl, lt_lit rfl⟩
    have h0 : bits w 2 6 = 2 := (eImm_bits_2_6 hw hk).trans rfl
    have h1 : fRd w = d := (eImm_fRd hw hk).trans (fin_ofNat _)
    have h2 : fRs1 w = a := (eImm_fRs1 hw hk).trans (fin_ofNat _)
    have h3 : fImm w = 0 := (eImm_fImm hw hk).trans rfl
    have h4 : fLit x1 = lit := BitVec.eq_of_toNat_eq (by simp only [fLit, BitVec.toNat_ofNat]; omega)
    have h5 : bits w 28 4 = 3 := (eImm_bits_28_4 hw hk).trans rfl
    have h6 : w % 4 = 1 := (eImm_4 hw hk).trans rfl
    refine ⟨eImm_lt hw hk, by omega, hy ▸ lt_lit rfl, ?_⟩
    rw [decode_2 h0]
    simp only [decAluImm1, decAluImm, chk, h1, h2, h3, h4, h5, h6] <;>
      simp <;> omega

theorem sltiLit (d : XReg) (a : XReg) (lit : Word) : Statement (.sltiLit d a lit) :=
  of_words rfl fun w x1 x2 hw hx hy hwf => by
    have hk : ImmOk 1 2 d.val a.val 0 7 := ⟨lt_lit rfl, lt_lit rfl, d.isLt, a.isLt, lt_lit rfl, lt_lit rfl⟩
    have h0 : bits w 2 6 = 2 := (eImm_bits_2_6 hw hk).trans rfl
    have h1 : fRd w = d := (eImm_fRd hw hk).trans (fin_ofNat _)
    have h2 : fRs1 w = a := (eImm_fRs1 hw hk).trans (fin_ofNat _)
    have h3 : fImm w = 0 := (eImm_fImm hw hk).trans rfl
    have h4 : fLit x1 = lit := BitVec.eq_of_toNat_eq (by simp only [fLit, BitVec.toNat_ofNat]; omega)
    have h5 : bits w 28 4 = 7 := (eImm_bits_28_4 hw hk).trans rfl
    have h6 : w % 4 = 1 := (eImm_4 hw hk).trans rfl
    refine ⟨eImm_lt hw hk, by omega, hy ▸ lt_lit rfl, ?_⟩
    rw [decode_2 h0]
    simp only [decAluImm1, decAluImm, chk, h1, h2, h3, h4, h5, h6] <;>
      simp <;> omega

theorem sltiuLit (d : XReg) (a : XReg) (lit : Word) : Statement (.sltiuLit d a lit) :=
  of_words rfl fun w x1 x2 hw hx hy hwf => by
    have hk : ImmOk 1 2 d.val a.val 0 8 := ⟨lt_lit rfl, lt_lit rfl, d.isLt, a.isLt, lt_lit rfl, lt_lit rfl⟩
    have h0 : bits w 2 6 = 2 := (eImm_bits_2_6 hw hk).trans rfl
    have h1 : fRd w = d := (eImm_fRd hw hk).trans (fin_ofNat _)
    have h2 : fRs1 w = a := (eImm_fRs1 hw hk).trans (fin_ofNat _)
    have h3 : fImm w = 0 := (eImm_fImm hw hk).trans rfl
    have h4 : fLit x1 = lit := BitVec.eq_of_toNat_eq (by simp only [fLit, BitVec.toNat_ofNat]; omega)
    have h5 : bits w 28 4 = 8 := (eImm_bits_28_4 hw hk).trans rfl
    have h6 : w % 4 = 1 := (eImm_4 hw hk).trans rfl
    refine ⟨eImm_lt hw hk, by omega, hy ▸ lt_lit rfl, ?_⟩
    rw [decode_2 h0]
    simp only [decAluImm1, decAluImm, chk, h1, h2, h3, h4, h5, h6] <;>
      simp <;> omega

theorem addwiLit (d : XReg) (a : XReg) (lit : Word) : Statement (.addwiLit d a lit) :=
  of_words rfl fun w x1 x2 hw hx hy hwf => by
    have hk : ImmOk 1 2 d.val a.val 0 9 := ⟨lt_lit rfl, lt_lit rfl, d.isLt, a.isLt, lt_lit rfl, lt_lit rfl⟩
    have h0 : bits w 2 6 = 2 := (eImm_bits_2_6 hw hk).trans rfl
    have h1 : fRd w = d := (eImm_fRd hw hk).trans (fin_ofNat _)
    have h2 : fRs1 w = a := (eImm_fRs1 hw hk).trans (fin_ofNat _)
    have h3 : fImm w = 0 := (eImm_fImm hw hk).trans rfl
    have h4 : fLit x1 = lit := BitVec.eq_of_toNat_eq (by simp only [fLit, BitVec.toNat_ofNat]; omega)
    have h5 : bits w 28 4 = 9 := (eImm_bits_28_4 hw hk).trans rfl
    have h6 : w % 4 = 1 := (eImm_4 hw hk).trans rfl
    refine ⟨eImm_lt hw hk, by omega, hy ▸ lt_lit rfl, ?_⟩
    rw [decode_2 h0]
    simp only [decAluImm1, decAluImm, chk, h1, h2, h3, h4, h5, h6] <;>
      simp <;> omega

theorem ldk (d : XReg) (k : BitVec 8) : Statement (.ldk d k) :=
  of_words rfl fun w x1 x2 hw hx hy hwf => by
    have hk : KonOk 3 d.val 0 k.toNat 0 := ⟨lt_lit rfl, d.isLt, lt_lit rfl, k.isLt, lt_lit rfl⟩
    have h0 : bits w 2 6 = 3 := (eKon_bits_2_6 hw hk).trans rfl
    have h1 : fRd w = d := (eKon_fRd hw hk).trans (fin_ofNat _)
    have h2 : fRs1 w = 0 := (eKon_fRs1 hw hk).trans rfl
    have h3 : BitVec.ofNat 8 (w / 2 ^ 18) = k := (eKon_BitVec_ofNat_8_2_18 hw hk).trans (bv_ofNat _)
    have h4 : bits w 26 6 = 0 := (eKon_bits_26_6 hw hk).trans rfl
    have h5 : w % 4 = 0 := (eKon_4 hw hk).trans rfl
    refine ⟨eKon_lt hw hk, hx ▸ lt_lit rfl, hy ▸ lt_lit rfl, ?_⟩
    rw [decode_3 h0]
    simp only [decKon, chk, only00, h1, h2, h3, h4, h5] <;>
      simp <;> omega

theorem addk (d : XReg) (a : XReg) (k : BitVec 8) : Statement (.addk d a k) :=
  of_words rfl fun w x1 x2 hw hx hy hwf => by
    have hk : KonOk 3 d.val a.val k.toNat 1 := ⟨lt_lit rfl, d.isLt, a.isLt, k.isLt, lt_lit rfl⟩
    have h0 : bits w 2 6 = 3 := (eKon_bits_2_6 hw hk).trans rfl
    have h1 : fRd w = d := (eKon_fRd hw hk).trans (fin_ofNat _)
    have h2 : fRs1 w = a := (eKon_fRs1 hw hk).trans (fin_ofNat _)
    have h3 : BitVec.ofNat 8 (w / 2 ^ 18) = k := (eKon_BitVec_ofNat_8_2_18 hw hk).trans (bv_ofNat _)
    have h4 : bits w 26 6 = 1 := (eKon_bits_26_6 hw hk).trans rfl
    have h5 : w % 4 = 0 := (eKon_4 hw hk).trans rfl
    refine ⟨eKon_lt hw hk, hx ▸ lt_lit rfl, hy ▸ lt_lit rfl, ?_⟩
    rw [decode_3 h0]
    simp only [decKon, chk, only00, h1, h2, h3, h4, h5] <;>
      simp <;> omega

theorem mul (d : XReg) (a : XReg) (b : XReg) : Statement (.mul d a b) :=
  of_words rfl fun w x1 x2 hw hx hy hwf => by
    have hk : RegOk 0 4 d.val a.val b.val 0 0 := ⟨lt_lit rfl, lt_lit rfl, d.isLt, a.isLt, b.isLt, lt_lit rfl, lt_lit rfl⟩
    have h0 : bits w 2 6 = 4 := (eReg_bits_2_6 hw hk).trans rfl
    have h1 : fRd w = d := (eReg_fRd hw hk).trans (fin_ofNat _)
    have h2 : fRs1 w = a := (eReg_fRs1 hw hk).trans (fin_ofNat _)
    have h3 : fRs2 w = b := (eReg_fRs2 hw hk).trans (fin_ofNat _)
    have h4 : fFn w = 0 := (eReg_fFn hw hk).trans rfl
    have h5 : fOpt w = 0 := (eReg_fOpt hw hk).trans rfl
    have h6 : w % 4 = 0 := (eReg_4 hw hk).trans rfl
    refine ⟨eReg_lt hw hk, hx ▸ lt_lit rfl, hy ▸ lt_lit rfl, ?_⟩
    rw [decode_4 h0]
    simp only [decMul, chk, only00, h1, h2, h3, h4, h5, h6] <;>
      simp <;> omega

theorem mulh (d : XReg) (a : XReg) (b : XReg) : Statement (.mulh d a b) :=
  of_words rfl fun w x1 x2 hw hx hy hwf => by
    have hk : RegOk 0 4 d.val a.val b.val 1 0 := ⟨lt_lit rfl, lt_lit rfl, d.isLt, a.isLt, b.isLt, lt_lit rfl, lt_lit rfl⟩
    have h0 : bits w 2 6 = 4 := (eReg_bits_2_6 hw hk).trans rfl
    have h1 : fRd w = d := (eReg_fRd hw hk).trans (fin_ofNat _)
    have h2 : fRs1 w = a := (eReg_fRs1 hw hk).trans (fin_ofNat _)
    have h3 : fRs2 w = b := (eReg_fRs2 hw hk).trans (fin_ofNat _)
    have h4 : fFn w = 1 := (eReg_fFn hw hk).trans rfl
    have h5 : fOpt w = 0 := (eReg_fOpt hw hk).trans rfl
    have h6 : w % 4 = 0 := (eReg_4 hw hk).trans rfl
    refine ⟨eReg_lt hw hk, hx ▸ lt_lit rfl, hy ▸ lt_lit rfl, ?_⟩
    rw [decode_4 h0]
    simp only [decMul, chk, only00, h1, h2, h3, h4, h5, h6] <;>
      simp <;> omega

theorem mulhu (d : XReg) (a : XReg) (b : XReg) : Statement (.mulhu d a b) :=
  of_words rfl fun w x1 x2 hw hx hy hwf => by
    have hk : RegOk 0 4 d.val a.val b.val 2 0 := ⟨lt_lit rfl, lt_lit rfl, d.isLt, a.isLt, b.isLt, lt_lit rfl, lt_lit rfl⟩
    have h0 : bits w 2 6 = 4 := (eReg_bits_2_6 hw hk).trans rfl
    have h1 : fRd w = d := (eReg_fRd hw hk).trans (fin_ofNat _)
    have h2 : fRs1 w = a := (eReg_fRs1 hw hk).trans (fin_ofNat _)
    have h3 : fRs2 w = b := (eReg_fRs2 hw hk).trans (fin_ofNat _)
    have h4 : fFn w = 2 := (eReg_fFn hw hk).trans rfl
    have h5 : fOpt w = 0 := (eReg_fOpt hw hk).trans rfl
    have h6 : w % 4 = 0 := (eReg_4 hw hk).trans rfl
    refine ⟨eReg_lt hw hk, hx ▸ lt_lit rfl, hy ▸ lt_lit rfl, ?_⟩
    rw [decode_4 h0]
    simp only [decMul, chk, only00, h1, h2, h3, h4, h5, h6] <;>
      simp <;> omega

theorem mulhmx (d : XReg) (a : XReg) (b : XReg) : Statement (.mulhmx d a b) :=
  of_words rfl fun w x1 x2 hw hx hy hwf => by
    have hk : RegOk 0 4 d.val a.val b.val 3 0 := ⟨lt_lit rfl, lt_lit rfl, d.isLt, a.isLt, b.isLt, lt_lit rfl, lt_lit rfl⟩
    have h0 : bits w 2 6 = 4 := (eReg_bits_2_6 hw hk).trans rfl
    have h1 : fRd w = d := (eReg_fRd hw hk).trans (fin_ofNat _)
    have h2 : fRs1 w = a := (eReg_fRs1 hw hk).trans (fin_ofNat _)
    have h3 : fRs2 w = b := (eReg_fRs2 hw hk).trans (fin_ofNat _)
    have h4 : fFn w = 3 := (eReg_fFn hw hk).trans rfl
    have h5 : fOpt w = 0 := (eReg_fOpt hw hk).trans rfl
    have h6 : w % 4 = 0 := (eReg_4 hw hk).trans rfl
    refine ⟨eReg_lt hw hk, hx ▸ lt_lit rfl, hy ▸ lt_lit rfl, ?_⟩
    rw [decode_4 h0]
    simp only [decMul, chk, only00, h1, h2, h3, h4, h5, h6] <;>
      simp <;> omega

theorem div (d : XReg) (a : XReg) (b : XReg) : Statement (.div d a b) :=
  of_words rfl fun w x1 x2 hw hx hy hwf => by
    have hk : RegOk 0 4 d.val a.val b.val 4 0 := ⟨lt_lit rfl, lt_lit rfl, d.isLt, a.isLt, b.isLt, lt_lit rfl, lt_lit rfl⟩
    have h0 : bits w 2 6 = 4 := (eReg_bits_2_6 hw hk).trans rfl
    have h1 : fRd w = d := (eReg_fRd hw hk).trans (fin_ofNat _)
    have h2 : fRs1 w = a := (eReg_fRs1 hw hk).trans (fin_ofNat _)
    have h3 : fRs2 w = b := (eReg_fRs2 hw hk).trans (fin_ofNat _)
    have h4 : fFn w = 4 := (eReg_fFn hw hk).trans rfl
    have h5 : fOpt w = 0 := (eReg_fOpt hw hk).trans rfl
    have h6 : w % 4 = 0 := (eReg_4 hw hk).trans rfl
    refine ⟨eReg_lt hw hk, hx ▸ lt_lit rfl, hy ▸ lt_lit rfl, ?_⟩
    rw [decode_4 h0]
    simp only [decMul, chk, only00, h1, h2, h3, h4, h5, h6] <;>
      simp <;> omega

theorem divu (d : XReg) (a : XReg) (b : XReg) : Statement (.divu d a b) :=
  of_words rfl fun w x1 x2 hw hx hy hwf => by
    have hk : RegOk 0 4 d.val a.val b.val 5 0 := ⟨lt_lit rfl, lt_lit rfl, d.isLt, a.isLt, b.isLt, lt_lit rfl, lt_lit rfl⟩
    have h0 : bits w 2 6 = 4 := (eReg_bits_2_6 hw hk).trans rfl
    have h1 : fRd w = d := (eReg_fRd hw hk).trans (fin_ofNat _)
    have h2 : fRs1 w = a := (eReg_fRs1 hw hk).trans (fin_ofNat _)
    have h3 : fRs2 w = b := (eReg_fRs2 hw hk).trans (fin_ofNat _)
    have h4 : fFn w = 5 := (eReg_fFn hw hk).trans rfl
    have h5 : fOpt w = 0 := (eReg_fOpt hw hk).trans rfl
    have h6 : w % 4 = 0 := (eReg_4 hw hk).trans rfl
    refine ⟨eReg_lt hw hk, hx ▸ lt_lit rfl, hy ▸ lt_lit rfl, ?_⟩
    rw [decode_4 h0]
    simp only [decMul, chk, only00, h1, h2, h3, h4, h5, h6] <;>
      simp <;> omega

theorem rem (d : XReg) (a : XReg) (b : XReg) : Statement (.rem d a b) :=
  of_words rfl fun w x1 x2 hw hx hy hwf => by
    have hk : RegOk 0 4 d.val a.val b.val 6 0 := ⟨lt_lit rfl, lt_lit rfl, d.isLt, a.isLt, b.isLt, lt_lit rfl, lt_lit rfl⟩
    have h0 : bits w 2 6 = 4 := (eReg_bits_2_6 hw hk).trans rfl
    have h1 : fRd w = d := (eReg_fRd hw hk).trans (fin_ofNat _)
    have h2 : fRs1 w = a := (eReg_fRs1 hw hk).trans (fin_ofNat _)
    have h3 : fRs2 w = b := (eReg_fRs2 hw hk).trans (fin_ofNat _)
    have h4 : fFn w = 6 := (eReg_fFn hw hk).trans rfl
    have h5 : fOpt w = 0 := (eReg_fOpt hw hk).trans rfl
    have h6 : w % 4 = 0 := (eReg_4 hw hk).trans rfl
    refine ⟨eReg_lt hw hk, hx ▸ lt_lit rfl, hy ▸ lt_lit rfl, ?_⟩
    rw [decode_4 h0]
    simp only [decMul, chk, only00, h1, h2, h3, h4, h5, h6] <;>
      simp <;> omega

theorem remu (d : XReg) (a : XReg) (b : XReg) : Statement (.remu d a b) :=
  of_words rfl fun w x1 x2 hw hx hy hwf => by
    have hk : RegOk 0 4 d.val a.val b.val 7 0 := ⟨lt_lit rfl, lt_lit rfl, d.isLt, a.isLt, b.isLt, lt_lit rfl, lt_lit rfl⟩
    have h0 : bits w 2 6 = 4 := (eReg_bits_2_6 hw hk).trans rfl
    have h1 : fRd w = d := (eReg_fRd hw hk).trans (fin_ofNat _)
    have h2 : fRs1 w = a := (eReg_fRs1 hw hk).trans (fin_ofNat _)
    have h3 : fRs2 w = b := (eReg_fRs2 hw hk).trans (fin_ofNat _)
    have h4 : fFn w = 7 := (eReg_fFn hw hk).trans rfl
    have h5 : fOpt w = 0 := (eReg_fOpt hw hk).trans rfl
    have h6 : w % 4 = 0 := (eReg_4 hw hk).trans rfl
    refine ⟨eReg_lt hw hk, hx ▸ lt_lit rfl, hy ▸ lt_lit rfl, ?_⟩
    rw [decode_4 h0]
    simp only [decMul, chk, only00, h1, h2, h3, h4, h5, h6] <;>
      simp <;> omega

theorem clz (d : XReg) (a : XReg) : Statement (.clz d a) :=
  of_words rfl fun w x1 x2 hw hx hy hwf => by
    have hk : RegOk 0 5 d.val a.val 0 0 0 := ⟨lt_lit rfl, lt_lit rfl, d.isLt, a.isLt, lt_lit rfl, lt_lit rfl, lt_lit rfl⟩
    have h0 : bits w 2 6 = 5 := (eReg_bits_2_6 hw hk).trans rfl
    have h1 : fRd w = d := (eReg_fRd hw hk).trans (fin_ofNat _)
    have h2 : fRs1 w = a := (eReg_fRs1 hw hk).trans (fin_ofNat _)
    have h3 : fRs2 w = 0 := (eReg_fRs2 hw hk).trans rfl
    have h4 : fFn w = 0 := (eReg_fFn hw hk).trans rfl
    have h5 : fOpt w = 0 := (eReg_fOpt hw hk).trans rfl
    have h6 : w % 4 = 0 := (eReg_4 hw hk).trans rfl
    refine ⟨eReg_lt hw hk, hx ▸ lt_lit rfl, hy ▸ lt_lit rfl, ?_⟩
    rw [decode_5 h0]
    simp only [decBit0, decBit, chk, h1, h2, h3, h4, h5, h6] <;>
      simp <;> omega

theorem ctz (d : XReg) (a : XReg) : Statement (.ctz d a) :=
  of_words rfl fun w x1 x2 hw hx hy hwf => by
    have hk : RegOk 0 5 d.val a.val 0 1 0 := ⟨lt_lit rfl, lt_lit rfl, d.isLt, a.isLt, lt_lit rfl, lt_lit rfl, lt_lit rfl⟩
    have h0 : bits w 2 6 = 5 := (eReg_bits_2_6 hw hk).trans rfl
    have h1 : fRd w = d := (eReg_fRd hw hk).trans (fin_ofNat _)
    have h2 : fRs1 w = a := (eReg_fRs1 hw hk).trans (fin_ofNat _)
    have h3 : fRs2 w = 0 := (eReg_fRs2 hw hk).trans rfl
    have h4 : fFn w = 1 := (eReg_fFn hw hk).trans rfl
    have h5 : fOpt w = 0 := (eReg_fOpt hw hk).trans rfl
    have h6 : w % 4 = 0 := (eReg_4 hw hk).trans rfl
    refine ⟨eReg_lt hw hk, hx ▸ lt_lit rfl, hy ▸ lt_lit rfl, ?_⟩
    rw [decode_5 h0]
    simp only [decBit0, decBit, chk, h1, h2, h3, h4, h5, h6] <;>
      simp <;> omega

theorem popc (d : XReg) (a : XReg) : Statement (.popc d a) :=
  of_words rfl fun w x1 x2 hw hx hy hwf => by
    have hk : RegOk 0 5 d.val a.val 0 2 0 := ⟨lt_lit rfl, lt_lit rfl, d.isLt, a.isLt, lt_lit rfl, lt_lit rfl, lt_lit rfl⟩
    have h0 : bits w 2 6 = 5 := (eReg_bits_2_6 hw hk).trans rfl
    have h1 : fRd w = d := (eReg_fRd hw hk).trans (fin_ofNat _)
    have h2 : fRs1 w = a := (eReg_fRs1 hw hk).trans (fin_ofNat _)
    have h3 : fRs2 w = 0 := (eReg_fRs2 hw hk).trans rfl
    have h4 : fFn w = 2 := (eReg_fFn hw hk).trans rfl
    have h5 : fOpt w = 0 := (eReg_fOpt hw hk).trans rfl
    have h6 : w % 4 = 0 := (eReg_4 hw hk).trans rfl
    refine ⟨eReg_lt hw hk, hx ▸ lt_lit rfl, hy ▸ lt_lit rfl, ?_⟩
    rw [decode_5 h0]
    simp only [decBit0, decBit, chk, h1, h2, h3, h4, h5, h6] <;>
      simp <;> omega

theorem brev (d : XReg) (a : XReg) : Statement (.brev d a) :=
  of_words rfl fun w x1 x2 hw hx hy hwf => by
    have hk : RegOk 0 5 d.val a.val 0 3 0 := ⟨lt_lit rfl, lt_lit rfl, d.isLt, a.isLt, lt_lit rfl, lt_lit rfl, lt_lit rfl⟩
    have h0 : bits w 2 6 = 5 := (eReg_bits_2_6 hw hk).trans rfl
    have h1 : fRd w = d := (eReg_fRd hw hk).trans (fin_ofNat _)
    have h2 : fRs1 w = a := (eReg_fRs1 hw hk).trans (fin_ofNat _)
    have h3 : fRs2 w = 0 := (eReg_fRs2 hw hk).trans rfl
    have h4 : fFn w = 3 := (eReg_fFn hw hk).trans rfl
    have h5 : fOpt w = 0 := (eReg_fOpt hw hk).trans rfl
    have h6 : w % 4 = 0 := (eReg_4 hw hk).trans rfl
    refine ⟨eReg_lt hw hk, hx ▸ lt_lit rfl, hy ▸ lt_lit rfl, ?_⟩
    rw [decode_5 h0]
    simp only [decBit0, decBit, chk, h1, h2, h3, h4, h5, h6] <;>
      simp <;> omega

theorem bswap (d : XReg) (a : XReg) : Statement (.bswap d a) :=
  of_words rfl fun w x1 x2 hw hx hy hwf => by
    have hk : RegOk 0 5 d.val a.val 0 4 0 := ⟨lt_lit rfl, lt_lit rfl, d.isLt, a.isLt, lt_lit rfl, lt_lit rfl, lt_lit rfl⟩
    have h0 : bits w 2 6 = 5 := (eReg_bits_2_6 hw hk).trans rfl
    have h1 : fRd w = d := (eReg_fRd hw hk).trans (fin_ofNat _)
    have h2 : fRs1 w = a := (eReg_fRs1 hw hk).trans (fin_ofNat _)
    have h3 : fRs2 w = 0 := (eReg_fRs2 hw hk).trans rfl
    have h4 : fFn w = 4 := (eReg_fFn hw hk).trans rfl
    have h5 : fOpt w = 0 := (eReg_fOpt hw hk).trans rfl
    have h6 : w % 4 = 0 := (eReg_4 hw hk).trans rfl
    refine ⟨eReg_lt hw hk, hx ▸ lt_lit rfl, hy ▸ lt_lit rfl, ?_⟩
    rw [decode_5 h0]
    simp only [decBit0, decBit, chk, h1, h2, h3, h4, h5, h6] <;>
      simp <;> omega

theorem sextb (d : XReg) (a : XReg) : Statement (.sextb d a) :=
  of_words rfl fun w x1 x2 hw hx hy hwf => by
    have hk : RegOk 0 5 d.val a.val 0 5 0 := ⟨lt_lit rfl, lt_lit rfl, d.isLt, a.isLt, lt_lit rfl, lt_lit rfl, lt_lit rfl⟩
    have h0 : bits w 2 6 = 5 := (eReg_bits_2_6 hw hk).trans rfl
    have h1 : fRd w = d := (eReg_fRd hw hk).trans (fin_ofNat _)
    have h2 : fRs1 w = a := (eReg_fRs1 hw hk).trans (fin_ofNat _)
    have h3 : fRs2 w = 0 := (eReg_fRs2 hw hk).trans rfl
    have h4 : fFn w = 5 := (eReg_fFn hw hk).trans rfl
    have h5 : fOpt w = 0 := (eReg_fOpt hw hk).trans rfl
    have h6 : w % 4 = 0 := (eReg_4 hw hk).trans rfl
    refine ⟨eReg_lt hw hk, hx ▸ lt_lit rfl, hy ▸ lt_lit rfl, ?_⟩
    rw [decode_5 h0]
    simp only [decBit0, decBit, chk, h1, h2, h3, h4, h5, h6] <;>
      simp <;> omega

theorem sexth (d : XReg) (a : XReg) : Statement (.sexth d a) :=
  of_words rfl fun w x1 x2 hw hx hy hwf => by
    have hk : RegOk 0 5 d.val a.val 0 6 0 := ⟨lt_lit rfl, lt_lit rfl, d.isLt, a.isLt, lt_lit rfl, lt_lit rfl, lt_lit rfl⟩
    have h0 : bits w 2 6 = 5 := (eReg_bits_2_6 hw hk).trans rfl
    have h1 : fRd w = d := (eReg_fRd hw hk).trans (fin_ofNat _)
    have h2 : fRs1 w = a := (eReg_fRs1 hw hk).trans (fin_ofNat _)
    have h3 : fRs2 w = 0 := (eReg_fRs2 hw hk).trans rfl
    have h4 : fFn w = 6 := (eReg_fFn hw hk).trans rfl
    have h5 : fOpt w = 0 := (eReg_fOpt hw hk).trans rfl
    have h6 : w % 4 = 0 := (eReg_4 hw hk).trans rfl
    refine ⟨eReg_lt hw hk, hx ▸ lt_lit rfl, hy ▸ lt_lit rfl, ?_⟩
    rw [decode_5 h0]
    simp only [decBit0, decBit, chk, h1, h2, h3, h4, h5, h6] <;>
      simp <;> omega

theorem zexth (d : XReg) (a : XReg) : Statement (.zexth d a) :=
  of_words rfl fun w x1 x2 hw hx hy hwf => by
    have hk : RegOk 0 5 d.val a.val 0 7 0 := ⟨lt_lit rfl, lt_lit rfl, d.isLt, a.isLt, lt_lit rfl, lt_lit rfl, lt_lit rfl⟩
    have h0 : bits w 2 6 = 5 := (eReg_bits_2_6 hw hk).trans rfl
    have h1 : fRd w = d := (eReg_fRd hw hk).trans (fin_ofNat _)
    have h2 : fRs1 w = a := (eReg_fRs1 hw hk).trans (fin_ofNat _)
    have h3 : fRs2 w = 0 := (eReg_fRs2 hw hk).trans rfl
    have h4 : fFn w = 7 := (eReg_fFn hw hk).trans rfl
    have h5 : fOpt w = 0 := (eReg_fOpt hw hk).trans rfl
    have h6 : w % 4 = 0 := (eReg_4 hw hk).trans rfl
    refine ⟨eReg_lt hw hk, hx ▸ lt_lit rfl, hy ▸ lt_lit rfl, ?_⟩
    rw [decode_5 h0]
    simp only [decBit0, decBit, chk, h1, h2, h3, h4, h5, h6] <;>
      simp <;> omega

theorem zextw (d : XReg) (a : XReg) : Statement (.zextw d a) :=
  of_words rfl fun w x1 x2 hw hx hy hwf => by
    have hk : RegOk 0 5 d.val a.val 0 8 0 := ⟨lt_lit rfl, lt_lit rfl, d.isLt, a.isLt, lt_lit rfl, lt_lit rfl, lt_lit rfl⟩
    have h0 : bits w 2 6 = 5 := (eReg_bits_2_6 hw hk).trans rfl
    have h1 : fRd w = d := (eReg_fRd hw hk).trans (fin_ofNat _)
    have h2 : fRs1 w = a := (eReg_fRs1 hw hk).trans (fin_ofNat _)
    have h3 : fRs2 w = 0 := (eReg_fRs2 hw hk).trans rfl
    have h4 : fFn w = 8 := (eReg_fFn hw hk).trans rfl
    have h5 : fOpt w = 0 := (eReg_fOpt hw hk).trans rfl
    have h6 : w % 4 = 0 := (eReg_4 hw hk).trans rfl
    refine ⟨eReg_lt hw hk, hx ▸ lt_lit rfl, hy ▸ lt_lit rfl, ?_⟩
    rw [decode_5 h0]
    simp only [decBit0, decBit, chk, h1, h2, h3, h4, h5, h6] <;>
      simp <;> omega

theorem bext (d : XReg) (a : XReg) (b : XReg) : Statement (.bext d a b) :=
  of_words rfl fun w x1 x2 hw hx hy hwf => by
    have hk : RegOk 0 5 d.val a.val b.val 9 0 := ⟨lt_lit rfl, lt_lit rfl, d.isLt, a.isLt, b.isLt, lt_lit rfl, lt_lit rfl⟩
    have h0 : bits w 2 6 = 5 := (eReg_bits_2_6 hw hk).trans rfl
    have h1 : fRd w = d := (eReg_fRd hw hk).trans (fin_ofNat _)
    have h2 : fRs1 w = a := (eReg_fRs1 hw hk).trans (fin_ofNat _)
    have h3 : fRs2 w = b := (eReg_fRs2 hw hk).trans (fin_ofNat _)
    have h4 : fFn w = 9 := (eReg_fFn hw hk).trans rfl
    have h5 : fOpt w = 0 := (eReg_fOpt hw hk).trans rfl
    have h6 : w % 4 = 0 := (eReg_4 hw hk).trans rfl
    refine ⟨eReg_lt hw hk, hx ▸ lt_lit rfl, hy ▸ lt_lit rfl, ?_⟩
    rw [decode_5 h0]
    simp only [decBit0, decBit, chk, h1, h2, h3, h4, h5, h6] <;>
      simp <;> omega

theorem bdep (d : XReg) (a : XReg) (b : XReg) : Statement (.bdep d a b) :=
  of_words rfl fun w x1 x2 hw hx hy hwf => by
    have hk : RegOk 0 5 d.val a.val b.val 10 0 := ⟨lt_lit rfl, lt_lit rfl, d.isLt, a.isLt, b.isLt, lt_lit rfl, lt_lit rfl⟩
    have h0 : bits w 2 6 = 5 := (eReg_bits_2_6 hw hk).trans rfl
    have h1 : fRd w = d := (eReg_fRd hw hk).trans (fin_ofNat _)
    have h2 : fRs1 w = a := (eReg_fRs1 hw hk).trans (fin_ofNat _)
    have h3 : fRs2 w = b := (eReg_fRs2 hw hk).trans (fin_ofNat _)
    have h4 : fFn w = 10 := (eReg_fFn hw hk).trans rfl
    have h5 : fOpt w = 0 := (eReg_fOpt hw hk).trans rfl
    have h6 : w % 4 = 0 := (eReg_4 hw hk).trans rfl
    refine ⟨eReg_lt hw hk, hx ▸ lt_lit rfl, hy ▸ lt_lit rfl, ?_⟩
    rw [decode_5 h0]
    simp only [decBit0, decBit, chk, h1, h2, h3, h4, h5, h6] <;>
      simp <;> omega

theorem bextLit (d : XReg) (a : XReg) (lit : Word) : Statement (.bextLit d a lit) :=
  of_words rfl fun w x1 x2 hw hx hy hwf => by
    have hk : RegOk 1 5 d.val a.val 0 9 0 := ⟨lt_lit rfl, lt_lit rfl, d.isLt, a.isLt, lt_lit rfl, lt_lit rfl, lt_lit rfl⟩
    have h0 : bits w 2 6 = 5 := (eReg_bits_2_6 hw hk).trans rfl
    have h1 : fRd w = d := (eReg_fRd hw hk).trans (fin_ofNat _)
    have h2 : fRs1 w = a := (eReg_fRs1 hw hk).trans (fin_ofNat _)
    have h3 : fRs2 w = 0 := (eReg_fRs2 hw hk).trans rfl
    have h4 : fLit x1 = lit := BitVec.eq_of_toNat_eq (by simp only [fLit, BitVec.toNat_ofNat]; omega)
    have h5 : fFn w = 9 := (eReg_fFn hw hk).trans rfl
    have h6 : fOpt w = 0 := (eReg_fOpt hw hk).trans rfl
    have h7 : w % 4 = 1 := (eReg_4 hw hk).trans rfl
    refine ⟨eReg_lt hw hk, by omega, hy ▸ lt_lit rfl, ?_⟩
    rw [decode_5 h0]
    simp only [decBit1, decBit, chk, h1, h2, h3, h4, h5, h6, h7] <;>
      simp <;> omega

theorem bdepLit (d : XReg) (a : XReg) (lit : Word) : Statement (.bdepLit d a lit) :=
  of_words rfl fun w x1 x2 hw hx hy hwf => by
    have hk : RegOk 1 5 d.val a.val 0 10 0 := ⟨lt_lit rfl, lt_lit rfl, d.isLt, a.isLt, lt_lit rfl, lt_lit rfl, lt_lit rfl⟩
    have h0 : bits w 2 6 = 5 := (eReg_bits_2_6 hw hk).trans rfl
    have h1 : fRd w = d := (eReg_fRd hw hk).trans (fin_ofNat _)
    have h2 : fRs1 w = a := (eReg_fRs1 hw hk).trans (fin_ofNat _)
    have h3 : fRs2 w = 0 := (eReg_fRs2 hw hk).trans rfl
    have h4 : fLit x1 = lit := BitVec.eq_of_toNat_eq (by simp only [fLit, BitVec.toNat_ofNat]; omega)
    have h5 : fFn w = 10 := (eReg_fFn hw hk).trans rfl
    have h6 : fOpt w = 0 := (eReg_fOpt hw hk).trans rfl
    have h7 : w % 4 = 1 := (eReg_4 hw hk).trans rfl
    refine ⟨eReg_lt hw hk, by omega, hy ▸ lt_lit rfl, ?_⟩
    rw [decode_5 h0]
    simp only [decBit1, decBit, chk, h1, h2, h3, h4, h5, h6, h7] <;>
      simp <;> omega

theorem li (d : XReg) (imm : BitVec 10) : Statement (.li d imm) :=
  of_words rfl fun w x1 x2 hw hx hy hwf => by
    have hk : ImmOk 0 6 d.val 0 imm.toNat 0 := ⟨lt_lit rfl, lt_lit rfl, d.isLt, lt_lit rfl, imm.isLt, lt_lit rfl⟩
    have h0 : bits w 2 6 = 6 := (eImm_bits_2_6 hw hk).trans rfl
    have h1 : fRd w = d := (eImm_fRd hw hk).trans (fin_ofNat _)
    have h2 : fRs1 w = 0 := (eImm_fRs1 hw hk).trans rfl
    have h3 : fImm w = imm := (eImm_fImm hw hk).trans (bv_ofNat _)
    have h4 : bits w 28 4 = 0 := (eImm_bits_28_4 hw hk).trans rfl
    have h5 : w % 4 = 0 := (eImm_4 hw hk).trans rfl
    refine ⟨eImm_lt hw hk, hx ▸ lt_lit rfl, hy ▸ lt_lit rfl, ?_⟩
    rw [decode_6 h0]
    simp only [decLi, chk, h1, h2, h3, h4, h5] <;>
      simp <;> omega

theorem liLit (d : XReg) (lit : Word) : Statement (.liLit d lit) :=
  of_words rfl fun w x1 x2 hw hx hy hwf => by
    have hk : ImmOk 1 6 d.val 0 0 0 := ⟨lt_lit rfl, lt_lit rfl, d.isLt, lt_lit rfl, lt_lit rfl, lt_lit rfl⟩
    have h0 : bits w 2 6 = 6 := (eImm_bits_2_6 hw hk).trans rfl
    have h1 : fRd w = d := (eImm_fRd hw hk).trans (fin_ofNat _)
    have h2 : fRs1 w = 0 := (eImm_fRs1 hw hk).trans rfl
    have h3 : fImm w = 0 := (eImm_fImm hw hk).trans rfl
    have h4 : fLit x1 = lit := BitVec.eq_of_toNat_eq (by simp only [fLit, BitVec.toNat_ofNat]; omega)
    have h5 : bits w 28 4 = 0 := (eImm_bits_28_4 hw hk).trans rfl
    have h6 : w % 4 = 1 := (eImm_4 hw hk).trans rfl
    refine ⟨eImm_lt hw hk, by omega, hy ▸ lt_lit rfl, ?_⟩
    rw [decode_6 h0]
    simp only [decLi, chk, h1, h2, h3, h4, h5, h6] <;>
      simp <;> omega

theorem pcadd (d : XReg) (imm : BitVec 10) : Statement (.pcadd d imm) :=
  of_words rfl fun w x1 x2 hw hx hy hwf => by
    have hk : ImmOk 0 6 d.val 0 imm.toNat 1 := ⟨lt_lit rfl, lt_lit rfl, d.isLt, lt_lit rfl, imm.isLt, lt_lit rfl⟩
    have h0 : bits w 2 6 = 6 := (eImm_bits_2_6 hw hk).trans rfl
    have h1 : fRd w = d := (eImm_fRd hw hk).trans (fin_ofNat _)
    have h2 : fRs1 w = 0 := (eImm_fRs1 hw hk).trans rfl
    have h3 : fImm w = imm := (eImm_fImm hw hk).trans (bv_ofNat _)
    have h4 : bits w 28 4 = 1 := (eImm_bits_28_4 hw hk).trans rfl
    have h5 : w % 4 = 0 := (eImm_4 hw hk).trans rfl
    refine ⟨eImm_lt hw hk, hx ▸ lt_lit rfl, hy ▸ lt_lit rfl, ?_⟩
    rw [decode_6 h0]
    simp only [decLi, chk, h1, h2, h3, h4, h5] <;>
      simp <;> omega

theorem pcaddLit (d : XReg) (lit : Word) : Statement (.pcaddLit d lit) :=
  of_words rfl fun w x1 x2 hw hx hy hwf => by
    have hk : ImmOk 1 6 d.val 0 0 1 := ⟨lt_lit rfl, lt_lit rfl, d.isLt, lt_lit rfl, lt_lit rfl, lt_lit rfl⟩
    have h0 : bits w 2 6 = 6 := (eImm_bits_2_6 hw hk).trans rfl
    have h1 : fRd w = d := (eImm_fRd hw hk).trans (fin_ofNat _)
    have h2 : fRs1 w = 0 := (eImm_fRs1 hw hk).trans rfl
    have h3 : fImm w = 0 := (eImm_fImm hw hk).trans rfl
    have h4 : fLit x1 = lit := BitVec.eq_of_toNat_eq (by simp only [fLit, BitVec.toNat_ofNat]; omega)
    have h5 : bits w 28 4 = 1 := (eImm_bits_28_4 hw hk).trans rfl
    have h6 : w % 4 = 1 := (eImm_4 hw hk).trans rfl
    refine ⟨eImm_lt hw hk, by omega, hy ▸ lt_lit rfl, ?_⟩
    rw [decode_6 h0]
    simp only [decLi, chk, h1, h2, h3, h4, h5, h6] <;>
      simp <;> omega

theorem sel (d : XReg) (a : XReg) (b : XReg) : Statement (.sel d a b) :=
  of_words rfl fun w x1 x2 hw hx hy hwf => by
    have hk : RegOk 0 7 d.val a.val b.val 0 0 := ⟨lt_lit rfl, lt_lit rfl, d.isLt, a.isLt, b.isLt, lt_lit rfl, lt_lit rfl⟩
    have h0 : bits w 2 6 = 7 := (eReg_bits_2_6 hw hk).trans rfl
    have h1 : fRd w = d := (eReg_fRd hw hk).trans (fin_ofNat _)
    have h2 : fRs1 w = a := (eReg_fRs1 hw hk).trans (fin_ofNat _)
    have h3 : fRs2 w = b := (eReg_fRs2 hw hk).trans (fin_ofNat _)
    have h4 : fFn w = 0 := (eReg_fFn hw hk).trans rfl
    have h5 : fOpt w = 0 := (eReg_fOpt hw hk).trans rfl
    have h6 : w % 4 = 0 := (eReg_4 hw hk).trans rfl
    refine ⟨eReg_lt hw hk, hx ▸ lt_lit rfl, hy ▸ lt_lit rfl, ?_⟩
    rw [decode_7 h0]
    simp only [decSel, chk, h1, h2, h3, h4, h5, h6] <;>
      simp <;> omega

theorem seq (d : XReg) (a : XReg) (b : XReg) : Statement (.seq d a b) :=
  of_words rfl fun w x1 x2 hw hx hy hwf => by
    have hk : RegOk 0 7 d.val a.val b.val 1 0 := ⟨lt_lit rfl, lt_lit rfl, d.isLt, a.isLt, b.isLt, lt_lit rfl, lt_lit rfl⟩
    have h0 : bits w 2 6 = 7 := (eReg_bits_2_6 hw hk).trans rfl
    have h1 : fRd w = d := (eReg_fRd hw hk).trans (fin_ofNat _)
    have h2 : fRs1 w = a := (eReg_fRs1 hw hk).trans (fin_ofNat _)
    have h3 : fRs2 w = b := (eReg_fRs2 hw hk).trans (fin_ofNat _)
    have h4 : fFn w = 1 := (eReg_fFn hw hk).trans rfl
    have h5 : fOpt w = 0 := (eReg_fOpt hw hk).trans rfl
    have h6 : w % 4 = 0 := (eReg_4 hw hk).trans rfl
    refine ⟨eReg_lt hw hk, hx ▸ lt_lit rfl, hy ▸ lt_lit rfl, ?_⟩
    rw [decode_7 h0]
    simp only [decSel, chk, h1, h2, h3, h4, h5, h6] <;>
      simp <;> omega

theorem sne (d : XReg) (a : XReg) (b : XReg) : Statement (.sne d a b) :=
  of_words rfl fun w x1 x2 hw hx hy hwf => by
    have hk : RegOk 0 7 d.val a.val b.val 2 0 := ⟨lt_lit rfl, lt_lit rfl, d.isLt, a.isLt, b.isLt, lt_lit rfl, lt_lit rfl⟩
    have h0 : bits w 2 6 = 7 := (eReg_bits_2_6 hw hk).trans rfl
    have h1 : fRd w = d := (eReg_fRd hw hk).trans (fin_ofNat _)
    have h2 : fRs1 w = a := (eReg_fRs1 hw hk).trans (fin_ofNat _)
    have h3 : fRs2 w = b := (eReg_fRs2 hw hk).trans (fin_ofNat _)
    have h4 : fFn w = 2 := (eReg_fFn hw hk).trans rfl
    have h5 : fOpt w = 0 := (eReg_fOpt hw hk).trans rfl
    have h6 : w % 4 = 0 := (eReg_4 hw hk).trans rfl
    refine ⟨eReg_lt hw hk, hx ▸ lt_lit rfl, hy ▸ lt_lit rfl, ?_⟩
    rw [decode_7 h0]
    simp only [decSel, chk, h1, h2, h3, h4, h5, h6] <;>
      simp <;> omega

theorem seqLit (d : XReg) (a : XReg) (lit : Word) : Statement (.seqLit d a lit) :=
  of_words rfl fun w x1 x2 hw hx hy hwf => by
    have hk : RegOk 1 7 d.val a.val 0 1 0 := ⟨lt_lit rfl, lt_lit rfl, d.isLt, a.isLt, lt_lit rfl, lt_lit rfl, lt_lit rfl⟩
    have h0 : bits w 2 6 = 7 := (eReg_bits_2_6 hw hk).trans rfl
    have h1 : fRd w = d := (eReg_fRd hw hk).trans (fin_ofNat _)
    have h2 : fRs1 w = a := (eReg_fRs1 hw hk).trans (fin_ofNat _)
    have h3 : fRs2 w = 0 := (eReg_fRs2 hw hk).trans rfl
    have h4 : fLit x1 = lit := BitVec.eq_of_toNat_eq (by simp only [fLit, BitVec.toNat_ofNat]; omega)
    have h5 : fFn w = 1 := (eReg_fFn hw hk).trans rfl
    have h6 : fOpt w = 0 := (eReg_fOpt hw hk).trans rfl
    have h7 : w % 4 = 1 := (eReg_4 hw hk).trans rfl
    refine ⟨eReg_lt hw hk, by omega, hy ▸ lt_lit rfl, ?_⟩
    rw [decode_7 h0]
    simp only [decSel, chk, h1, h2, h3, h4, h5, h6, h7] <;>
      simp <;> omega

theorem sneLit (d : XReg) (a : XReg) (lit : Word) : Statement (.sneLit d a lit) :=
  of_words rfl fun w x1 x2 hw hx hy hwf => by
    have hk : RegOk 1 7 d.val a.val 0 2 0 := ⟨lt_lit rfl, lt_lit rfl, d.isLt, a.isLt, lt_lit rfl, lt_lit rfl, lt_lit rfl⟩
    have h0 : bits w 2 6 = 7 := (eReg_bits_2_6 hw hk).trans rfl
    have h1 : fRd w = d := (eReg_fRd hw hk).trans (fin_ofNat _)
    have h2 : fRs1 w = a := (eReg_fRs1 hw hk).trans (fin_ofNat _)
    have h3 : fRs2 w = 0 := (eReg_fRs2 hw hk).trans rfl
    have h4 : fLit x1 = lit := BitVec.eq_of_toNat_eq (by simp only [fLit, BitVec.toNat_ofNat]; omega)
    have h5 : fFn w = 2 := (eReg_fFn hw hk).trans rfl
    have h6 : fOpt w = 0 := (eReg_fOpt hw hk).trans rfl
    have h7 : w % 4 = 1 := (eReg_4 hw hk).trans rfl
    refine ⟨eReg_lt hw hk, by omega, hy ▸ lt_lit rfl, ?_⟩
    rw [decode_7 h0]
    simp only [decSel, chk, h1, h2, h3, h4, h5, h6, h7] <;>
      simp <;> omega

theorem beq (a : XReg) (b : XReg) (off : BitVec 11) : Statement (.beq a b off) :=
  of_words rfl fun w x1 x2 hw hx hy hwf => by
    have hk : BrOk 0 a.val b.val 0 off.toNat := ⟨lt_lit rfl, a.isLt, b.isLt, lt_lit rfl, off.isLt⟩
    have h0 : bits w 2 6 = 8 := (eBr_bits_2_6 hw hk).trans rfl
    have h1 : fRd w = a := (eBr_fRd hw hk).trans (fin_ofNat _)
    have h2 : fRs1 w = b := (eBr_fRs1 hw hk).trans (fin_ofNat _)
    have h3 : BitVec.ofNat 11 (w / 2 ^ 21) = off := (eBr_BitVec_ofNat_11_2_21 hw hk).trans (bv_ofNat _)
    have h4 : bits w 18 3 = 0 := (eBr_bits_18_3 hw hk).trans rfl
    have h5 : bits w 21 11 = off.toNat := eBr_bits_21_11 hw hk
    have h6 : w % 2 = 0 := (eBr_2 hw hk).trans rfl
    have h7 : w % 4 = 0 := (eBr_4 hw hk).trans rfl
    refine ⟨eBr_lt hw hk, hx ▸ lt_lit rfl, hy ▸ lt_lit rfl, ?_⟩
    rw [decode_8 h0]
    simp only [decBr, chk, h1, h2, h3, h4, h5, h6, h7] <;>
      simp <;> omega

theorem bne (a : XReg) (b : XReg) (off : BitVec 11) : Statement (.bne a b off) :=
  of_words rfl fun w x1 x2 hw hx hy hwf => by
    have hk : BrOk 0 a.val b.val 1 off.toNat := ⟨lt_lit rfl, a.isLt, b.isLt, lt_lit rfl, off.isLt⟩
    have h0 : bits w 2 6 = 8 := (eBr_bits_2_6 hw hk).trans rfl
    have h1 : fRd w = a := (eBr_fRd hw hk).trans (fin_ofNat _)
    have h2 : fRs1 w = b := (eBr_fRs1 hw hk).trans (fin_ofNat _)
    have h3 : BitVec.ofNat 11 (w / 2 ^ 21) = off := (eBr_BitVec_ofNat_11_2_21 hw hk).trans (bv_ofNat _)
    have h4 : bits w 18 3 = 1 := (eBr_bits_18_3 hw hk).trans rfl
    have h5 : bits w 21 11 = off.toNat := eBr_bits_21_11 hw hk
    have h6 : w % 2 = 0 := (eBr_2 hw hk).trans rfl
    have h7 : w % 4 = 0 := (eBr_4 hw hk).trans rfl
    refine ⟨eBr_lt hw hk, hx ▸ lt_lit rfl, hy ▸ lt_lit rfl, ?_⟩
    rw [decode_8 h0]
    simp only [decBr, chk, h1, h2, h3, h4, h5, h6, h7] <;>
      simp <;> omega

theorem blt (a : XReg) (b : XReg) (off : BitVec 11) : Statement (.blt a b off) :=
  of_words rfl fun w x1 x2 hw hx hy hwf => by
    have hk : BrOk 0 a.val b.val 2 off.toNat := ⟨lt_lit rfl, a.isLt, b.isLt, lt_lit rfl, off.isLt⟩
    have h0 : bits w 2 6 = 8 := (eBr_bits_2_6 hw hk).trans rfl
    have h1 : fRd w = a := (eBr_fRd hw hk).trans (fin_ofNat _)
    have h2 : fRs1 w = b := (eBr_fRs1 hw hk).trans (fin_ofNat _)
    have h3 : BitVec.ofNat 11 (w / 2 ^ 21) = off := (eBr_BitVec_ofNat_11_2_21 hw hk).trans (bv_ofNat _)
    have h4 : bits w 18 3 = 2 := (eBr_bits_18_3 hw hk).trans rfl
    have h5 : bits w 21 11 = off.toNat := eBr_bits_21_11 hw hk
    have h6 : w % 2 = 0 := (eBr_2 hw hk).trans rfl
    have h7 : w % 4 = 0 := (eBr_4 hw hk).trans rfl
    refine ⟨eBr_lt hw hk, hx ▸ lt_lit rfl, hy ▸ lt_lit rfl, ?_⟩
    rw [decode_8 h0]
    simp only [decBr, chk, h1, h2, h3, h4, h5, h6, h7] <;>
      simp <;> omega

theorem bge (a : XReg) (b : XReg) (off : BitVec 11) : Statement (.bge a b off) :=
  of_words rfl fun w x1 x2 hw hx hy hwf => by
    have hk : BrOk 0 a.val b.val 3 off.toNat := ⟨lt_lit rfl, a.isLt, b.isLt, lt_lit rfl, off.isLt⟩
    have h0 : bits w 2 6 = 8 := (eBr_bits_2_6 hw hk).trans rfl
    have h1 : fRd w = a := (eBr_fRd hw hk).trans (fin_ofNat _)
    have h2 : fRs1 w = b := (eBr_fRs1 hw hk).trans (fin_ofNat _)
    have h3 : BitVec.ofNat 11 (w / 2 ^ 21) = off := (eBr_BitVec_ofNat_11_2_21 hw hk).trans (bv_ofNat _)
    have h4 : bits w 18 3 = 3 := (eBr_bits_18_3 hw hk).trans rfl
    have h5 : bits w 21 11 = off.toNat := eBr_bits_21_11 hw hk
    have h6 : w % 2 = 0 := (eBr_2 hw hk).trans rfl
    have h7 : w % 4 = 0 := (eBr_4 hw hk).trans rfl
    refine ⟨eBr_lt hw hk, hx ▸ lt_lit rfl, hy ▸ lt_lit rfl, ?_⟩
    rw [decode_8 h0]
    simp only [decBr, chk, h1, h2, h3, h4, h5, h6, h7] <;>
      simp <;> omega

theorem bltu (a : XReg) (b : XReg) (off : BitVec 11) : Statement (.bltu a b off) :=
  of_words rfl fun w x1 x2 hw hx hy hwf => by
    have hk : BrOk 0 a.val b.val 4 off.toNat := ⟨lt_lit rfl, a.isLt, b.isLt, lt_lit rfl, off.isLt⟩
    have h0 : bits w 2 6 = 8 := (eBr_bits_2_6 hw hk).trans rfl
    have h1 : fRd w = a := (eBr_fRd hw hk).trans (fin_ofNat _)
    have h2 : fRs1 w = b := (eBr_fRs1 hw hk).trans (fin_ofNat _)
    have h3 : BitVec.ofNat 11 (w / 2 ^ 21) = off := (eBr_BitVec_ofNat_11_2_21 hw hk).trans (bv_ofNat _)
    have h4 : bits w 18 3 = 4 := (eBr_bits_18_3 hw hk).trans rfl
    have h5 : bits w 21 11 = off.toNat := eBr_bits_21_11 hw hk
    have h6 : w % 2 = 0 := (eBr_2 hw hk).trans rfl
    have h7 : w % 4 = 0 := (eBr_4 hw hk).trans rfl
    refine ⟨eBr_lt hw hk, hx ▸ lt_lit rfl, hy ▸ lt_lit rfl, ?_⟩
    rw [decode_8 h0]
    simp only [decBr, chk, h1, h2, h3, h4, h5, h6, h7] <;>
      simp <;> omega

theorem bgeu (a : XReg) (b : XReg) (off : BitVec 11) : Statement (.bgeu a b off) :=
  of_words rfl fun w x1 x2 hw hx hy hwf => by
    have hk : BrOk 0 a.val b.val 5 off.toNat := ⟨lt_lit rfl, a.isLt, b.isLt, lt_lit rfl, off.isLt⟩
    have h0 : bits w 2 6 = 8 := (eBr_bits_2_6 hw hk).trans rfl
    have h1 : fRd w = a := (eBr_fRd hw hk).trans (fin_ofNat _)
    have h2 : fRs1 w = b := (eBr_fRs1 hw hk).trans (fin_ofNat _)
    have h3 : BitVec.ofNat 11 (w / 2 ^ 21) = off := (eBr_BitVec_ofNat_11_2_21 hw hk).trans (bv_ofNat _)
    have h4 : bits w 18 3 = 5 := (eBr_bits_18_3 hw hk).trans rfl
    have h5 : bits w 21 11 = off.toNat := eBr_bits_21_11 hw hk
    have h6 : w % 2 = 0 := (eBr_2 hw hk).trans rfl
    have h7 : w % 4 = 0 := (eBr_4 hw hk).trans rfl
    refine ⟨eBr_lt hw hk, hx ▸ lt_lit rfl, hy ▸ lt_lit rfl, ?_⟩
    rw [decode_8 h0]
    simp only [decBr, chk, h1, h2, h3, h4, h5, h6, h7] <;>
      simp <;> omega

theorem beqExt (a : XReg) (b : XReg) (off : BitVec 47) : Statement (.beqExt a b off) :=
  of_words rfl fun w x1 x2 hw hx hy hwf => by
    have n_off : off.toNat % 4 = 0 := beq_iff_eq.mp hwf
    have hk : BrOk 2 a.val b.val 0 0 := ⟨lt_lit rfl, a.isLt, b.isLt, lt_lit rfl, lt_lit rfl⟩
    have h0 : bits w 2 6 = 8 := (eBr_bits_2_6 hw hk).trans rfl
    have h1 : fRd w = a := (eBr_fRd hw hk).trans (fin_ofNat _)
    have h2 : fRs1 w = b := (eBr_fRs1 hw hk).trans (fin_ofNat _)
    have h3 : fOff47 x1 = off := BitVec.eq_of_toNat_eq (by simp only [fOff47, BitVec.toNat_ofNat]; omega)
    have h4 : bits w 18 3 = 0 := (eBr_bits_18_3 hw hk).trans rfl
    have h5 : bits w 21 11 = 0 := (eBr_bits_21_11 hw hk).trans rfl
    have h6 : w % 2 = 0 := (eBr_2 hw hk).trans rfl
    have h7 : w % 4 = 2 := (eBr_4 hw hk).trans rfl
    have h8 : x1 % 4 = 0 := by omega
    have h9 : x1 / 2 ^ 47 = 0 := by omega
    refine ⟨eBr_lt hw hk, by omega, hy ▸ lt_lit rfl, ?_⟩
    rw [decode_8 h0]
    simp only [decBr, chk, h1, h2, h3, h4, h5, h6, h7, h8, h9] <;>
      simp <;> omega

theorem bneExt (a : XReg) (b : XReg) (off : BitVec 47) : Statement (.bneExt a b off) :=
  of_words rfl fun w x1 x2 hw hx hy hwf => by
    have n_off : off.toNat % 4 = 0 := beq_iff_eq.mp hwf
    have hk : BrOk 2 a.val b.val 1 0 := ⟨lt_lit rfl, a.isLt, b.isLt, lt_lit rfl, lt_lit rfl⟩
    have h0 : bits w 2 6 = 8 := (eBr_bits_2_6 hw hk).trans rfl
    have h1 : fRd w = a := (eBr_fRd hw hk).trans (fin_ofNat _)
    have h2 : fRs1 w = b := (eBr_fRs1 hw hk).trans (fin_ofNat _)
    have h3 : fOff47 x1 = off := BitVec.eq_of_toNat_eq (by simp only [fOff47, BitVec.toNat_ofNat]; omega)
    have h4 : bits w 18 3 = 1 := (eBr_bits_18_3 hw hk).trans rfl
    have h5 : bits w 21 11 = 0 := (eBr_bits_21_11 hw hk).trans rfl
    have h6 : w % 2 = 0 := (eBr_2 hw hk).trans rfl
    have h7 : w % 4 = 2 := (eBr_4 hw hk).trans rfl
    have h8 : x1 % 4 = 0 := by omega
    have h9 : x1 / 2 ^ 47 = 0 := by omega
    refine ⟨eBr_lt hw hk, by omega, hy ▸ lt_lit rfl, ?_⟩
    rw [decode_8 h0]
    simp only [decBr, chk, h1, h2, h3, h4, h5, h6, h7, h8, h9] <;>
      simp <;> omega

theorem bltExt (a : XReg) (b : XReg) (off : BitVec 47) : Statement (.bltExt a b off) :=
  of_words rfl fun w x1 x2 hw hx hy hwf => by
    have n_off : off.toNat % 4 = 0 := beq_iff_eq.mp hwf
    have hk : BrOk 2 a.val b.val 2 0 := ⟨lt_lit rfl, a.isLt, b.isLt, lt_lit rfl, lt_lit rfl⟩
    have h0 : bits w 2 6 = 8 := (eBr_bits_2_6 hw hk).trans rfl
    have h1 : fRd w = a := (eBr_fRd hw hk).trans (fin_ofNat _)
    have h2 : fRs1 w = b := (eBr_fRs1 hw hk).trans (fin_ofNat _)
    have h3 : fOff47 x1 = off := BitVec.eq_of_toNat_eq (by simp only [fOff47, BitVec.toNat_ofNat]; omega)
    have h4 : bits w 18 3 = 2 := (eBr_bits_18_3 hw hk).trans rfl
    have h5 : bits w 21 11 = 0 := (eBr_bits_21_11 hw hk).trans rfl
    have h6 : w % 2 = 0 := (eBr_2 hw hk).trans rfl
    have h7 : w % 4 = 2 := (eBr_4 hw hk).trans rfl
    have h8 : x1 % 4 = 0 := by omega
    have h9 : x1 / 2 ^ 47 = 0 := by omega
    refine ⟨eBr_lt hw hk, by omega, hy ▸ lt_lit rfl, ?_⟩
    rw [decode_8 h0]
    simp only [decBr, chk, h1, h2, h3, h4, h5, h6, h7, h8, h9] <;>
      simp <;> omega

theorem bgeExt (a : XReg) (b : XReg) (off : BitVec 47) : Statement (.bgeExt a b off) :=
  of_words rfl fun w x1 x2 hw hx hy hwf => by
    have n_off : off.toNat % 4 = 0 := beq_iff_eq.mp hwf
    have hk : BrOk 2 a.val b.val 3 0 := ⟨lt_lit rfl, a.isLt, b.isLt, lt_lit rfl, lt_lit rfl⟩
    have h0 : bits w 2 6 = 8 := (eBr_bits_2_6 hw hk).trans rfl
    have h1 : fRd w = a := (eBr_fRd hw hk).trans (fin_ofNat _)
    have h2 : fRs1 w = b := (eBr_fRs1 hw hk).trans (fin_ofNat _)
    have h3 : fOff47 x1 = off := BitVec.eq_of_toNat_eq (by simp only [fOff47, BitVec.toNat_ofNat]; omega)
    have h4 : bits w 18 3 = 3 := (eBr_bits_18_3 hw hk).trans rfl
    have h5 : bits w 21 11 = 0 := (eBr_bits_21_11 hw hk).trans rfl
    have h6 : w % 2 = 0 := (eBr_2 hw hk).trans rfl
    have h7 : w % 4 = 2 := (eBr_4 hw hk).trans rfl
    have h8 : x1 % 4 = 0 := by omega
    have h9 : x1 / 2 ^ 47 = 0 := by omega
    refine ⟨eBr_lt hw hk, by omega, hy ▸ lt_lit rfl, ?_⟩
    rw [decode_8 h0]
    simp only [decBr, chk, h1, h2, h3, h4, h5, h6, h7, h8, h9] <;>
      simp <;> omega

theorem bltuExt (a : XReg) (b : XReg) (off : BitVec 47) : Statement (.bltuExt a b off) :=
  of_words rfl fun w x1 x2 hw hx hy hwf => by
    have n_off : off.toNat % 4 = 0 := beq_iff_eq.mp hwf
    have hk : BrOk 2 a.val b.val 4 0 := ⟨lt_lit rfl, a.isLt, b.isLt, lt_lit rfl, lt_lit rfl⟩
    have h0 : bits w 2 6 = 8 := (eBr_bits_2_6 hw hk).trans rfl
    have h1 : fRd w = a := (eBr_fRd hw hk).trans (fin_ofNat _)
    have h2 : fRs1 w = b := (eBr_fRs1 hw hk).trans (fin_ofNat _)
    have h3 : fOff47 x1 = off := BitVec.eq_of_toNat_eq (by simp only [fOff47, BitVec.toNat_ofNat]; omega)
    have h4 : bits w 18 3 = 4 := (eBr_bits_18_3 hw hk).trans rfl
    have h5 : bits w 21 11 = 0 := (eBr_bits_21_11 hw hk).trans rfl
    have h6 : w % 2 = 0 := (eBr_2 hw hk).trans rfl
    have h7 : w % 4 = 2 := (eBr_4 hw hk).trans rfl
    have h8 : x1 % 4 = 0 := by omega
    have h9 : x1 / 2 ^ 47 = 0 := by omega
    refine ⟨eBr_lt hw hk, by omega, hy ▸ lt_lit rfl, ?_⟩
    rw [decode_8 h0]
    simp only [decBr, chk, h1, h2, h3, h4, h5, h6, h7, h8, h9] <;>
      simp <;> omega

theorem bgeuExt (a : XReg) (b : XReg) (off : BitVec 47) : Statement (.bgeuExt a b off) :=
  of_words rfl fun w x1 x2 hw hx hy hwf => by
    have n_off : off.toNat % 4 = 0 := beq_iff_eq.mp hwf
    have hk : BrOk 2 a.val b.val 5 0 := ⟨lt_lit rfl, a.isLt, b.isLt, lt_lit rfl, lt_lit rfl⟩
    have h0 : bits w 2 6 = 8 := (eBr_bits_2_6 hw hk).trans rfl
    have h1 : fRd w = a := (eBr_fRd hw hk).trans (fin_ofNat _)
    have h2 : fRs1 w = b := (eBr_fRs1 hw hk).trans (fin_ofNat _)
    have h3 : fOff47 x1 = off := BitVec.eq_of_toNat_eq (by simp only [fOff47, BitVec.toNat_ofNat]; omega)
    have h4 : bits w 18 3 = 5 := (eBr_bits_18_3 hw hk).trans rfl
    have h5 : bits w 21 11 = 0 := (eBr_bits_21_11 hw hk).trans rfl
    have h6 : w % 2 = 0 := (eBr_2 hw hk).trans rfl
    have h7 : w % 4 = 2 := (eBr_4 hw hk).trans rfl
    have h8 : x1 % 4 = 0 := by omega
    have h9 : x1 / 2 ^ 47 = 0 := by omega
    refine ⟨eBr_lt hw hk, by omega, hy ▸ lt_lit rfl, ?_⟩
    rw [decode_8 h0]
    simp only [decBr, chk, h1, h2, h3, h4, h5, h6, h7, h8, h9] <;>
      simp <;> omega

theorem jal (d : XReg) (off : BitVec 19) : Statement (.jal d off) :=
  of_words rfl fun w x1 x2 hw hx hy hwf => by
    have h0 : bits w 2 6 = 9 := by simp only [bits]; omega
    have h1 : fRd w = d := Fin.ext (by simp only [fRd, Fin.ofNat]; omega)
    have h2 : BitVec.ofNat 19 (w / 2 ^ 13) = off := BitVec.eq_of_toNat_eq (by simp only [BitVec.toNat_ofNat]; omega)
    have h3 : w % 2 = 0 := by omega
    have h4 : w % 4 = 0 := by omega
    refine ⟨by omega, hx ▸ lt_lit rfl, hy ▸ lt_lit rfl, ?_⟩
    rw [decode_9 h0]
    simp only [decJal, chk, h1, h2, h3, h4] <;>
      simp <;> omega

theorem jalExt (d : XReg) (off : BitVec 47) : Statement (.jalExt d off) :=
  of_words rfl fun w x1 x2 hw hx hy hwf => by
    have n_off : off.toNat % 4 = 0 := beq_iff_eq.mp hwf
    have h0 : bits w 2 6 = 9 := by simp only [bits]; omega
    have h1 : fRd w = d := Fin.ext (by simp only [fRd, Fin.ofNat]; omega)
    have h2 : fOff47 x1 = off := BitVec.eq_of_toNat_eq (by simp only [fOff47, BitVec.toNat_ofNat]; omega)
    have h3 : bits w 13 19 = 0 := by simp only [bits]; omega
    have h4 : w % 2 = 0 := by omega
    have h5 : w % 4 = 2 := by omega
    have h6 : x1 % 4 = 0 := by omega
    have h7 : x1 / 2 ^ 47 = 0 := by omega
    refine ⟨by omega, by omega, hy ▸ lt_lit rfl, ?_⟩
    rw [decode_9 h0]
    simp only [decJal, chk, h1, h2, h3, h4, h5, h6, h7] <;>
      simp <;> omega

theorem jalr (d : XReg) (a : XReg) (imm : BitVec 10) : Statement (.jalr d a imm) :=
  of_words rfl fun w x1 x2 hw hx hy hwf => by
    have hk : ImmOk 0 10 d.val a.val imm.toNat 0 := ⟨lt_lit rfl, lt_lit rfl, d.isLt, a.isLt, imm.isLt, lt_lit rfl⟩
    have h0 : bits w 2 6 = 10 := (eImm_bits_2_6 hw hk).trans rfl
    have h1 : fRd w = d := (eImm_fRd hw hk).trans (fin_ofNat _)
    have h2 : fRs1 w = a := (eImm_fRs1 hw hk).trans (fin_ofNat _)
    have h3 : fImm w = imm := (eImm_fImm hw hk).trans (bv_ofNat _)
    have h4 : bits w 28 4 = 0 := (eImm_bits_28_4 hw hk).trans rfl
    have h5 : w % 4 = 0 := (eImm_4 hw hk).trans rfl
    refine ⟨eImm_lt hw hk, hx ▸ lt_lit rfl, hy ▸ lt_lit rfl, ?_⟩
    rw [decode_10 h0]
    simp only [decJalr, chk, only00, h1, h2, h3, h4, h5] <;>
      simp <;> omega

theorem lb (d : XReg) (a : XReg) (off : BitVec 5) (os : Os) : Statement (.lb d a off os) :=
  of_words rfl fun w x1 x2 hw hx hy hwf => by
    have b_os := Os.code_lt os
    have n_os := Os.code_of_loadOk hwf
    have hk : RegOk 0 12 d.val a.val off.toNat (os.code % 2 + 2 * 0) (os.code / 2) := ⟨lt_lit rfl, lt_lit rfl, d.isLt, a.isLt, off.isLt, by omega, by omega⟩
    have h0 : bits w 2 6 = 12 := (eReg_bits_2_6 hw hk).trans rfl
    have h1 : fRd w = d := (eReg_fRd hw hk).trans (fin_ofNat _)
    have h2 : fRs1 w = a := (eReg_fRs1 hw hk).trans (fin_ofNat _)
    have h3 : fOff5 w = off := (eReg_fOff5 hw hk).trans (bv_ofNat _)
    have h4 : fOs w = os.code := (eReg_fOs hw hk).trans (by omega)
    have h5 : bits w 24 3 = 0 := (eReg_bits_24_3 hw hk).trans (by omega)
    have h6 : bits w 27 2 = 0 := (eReg_bits_27_2 hw hk).trans (by omega)
    have h7 : w % 4 = 0 := (eReg_4 hw hk).trans rfl
    refine ⟨eReg_lt hw hk, hx ▸ lt_lit rfl, hy ▸ lt_lit rfl, ?_⟩
    rw [decode_12 h0]
    simp only [decLoad0, decLoad, chk, h1, h2, h3, h4, h5, h6, h7, osOf_code] <;>
      simp <;> omega

theorem lbu (d : XReg) (a : XReg) (off : BitVec 5) (os : Os) : Statement (.lbu d a off os) :=
  of_words rfl fun w x1 x2 hw hx hy hwf => by
    have b_os := Os.code_lt os
    have n_os := Os.code_of_loadOk hwf
    have hk : RegOk 0 12 d.val a.val off.toNat (os.code % 2 + 2 * 1) (os.code / 2) := ⟨lt_lit rfl, lt_lit rfl, d.isLt, a.isLt, off.isLt, by omega, by omega⟩
    have h0 : bits w 2 6 = 12 := (eReg_bits_2_6 hw hk).trans rfl
    have h1 : fRd w = d := (eReg_fRd hw hk).trans (fin_ofNat _)
    have h2 : fRs1 w = a := (eReg_fRs1 hw hk).trans (fin_ofNat _)
    have h3 : fOff5 w = off := (eReg_fOff5 hw hk).trans (bv_ofNat _)
    have h4 : fOs w = os.code := (eReg_fOs hw hk).trans (by omega)
    have h5 : bits w 24 3 = 1 := (eReg_bits_24_3 hw hk).trans (by omega)
    have h6 : bits w 27 2 = 0 := (eReg_bits_27_2 hw hk).trans (by omega)
    have h7 : w % 4 = 0 := (eReg_4 hw hk).trans rfl
    refine ⟨eReg_lt hw hk, hx ▸ lt_lit rfl, hy ▸ lt_lit rfl, ?_⟩
    rw [decode_12 h0]
    simp only [decLoad0, decLoad, chk, h1, h2, h3, h4, h5, h6, h7, osOf_code] <;>
      simp <;> omega

theorem lh (d : XReg) (a : XReg) (off : BitVec 5) (os : Os) : Statement (.lh d a off os) :=
  of_words rfl fun w x1 x2 hw hx hy hwf => by
    have b_os := Os.code_lt os
    have n_os := Os.code_of_loadOk hwf
    have hk : RegOk 0 12 d.val a.val off.toNat (os.code % 2 + 2 * 2) (os.code / 2) := ⟨lt_lit rfl, lt_lit rfl, d.isLt, a.isLt, off.isLt, by omega, by omega⟩
    have h0 : bits w 2 6 = 12 := (eReg_bits_2_6 hw hk).trans rfl
    have h1 : fRd w = d := (eReg_fRd hw hk).trans (fin_ofNat _)
    have h2 : fRs1 w = a := (eReg_fRs1 hw hk).trans (fin_ofNat _)
    have h3 : fOff5 w = off := (eReg_fOff5 hw hk).trans (bv_ofNat _)
    have h4 : fOs w = os.code := (eReg_fOs hw hk).trans (by omega)
    have h5 : bits w 24 3 = 2 := (eReg_bits_24_3 hw hk).trans (by omega)
    have h6 : bits w 27 2 = 0 := (eReg_bits_27_2 hw hk).trans (by omega)
    have h7 : w % 4 = 0 := (eReg_4 hw hk).trans rfl
    refine ⟨eReg_lt hw hk, hx ▸ lt_lit rfl, hy ▸ lt_lit rfl, ?_⟩
    rw [decode_12 h0]
    simp only [decLoad0, decLoad, chk, h1, h2, h3, h4, h5, h6, h7, osOf_code] <;>
      simp <;> omega

theorem lhu (d : XReg) (a : XReg) (off : BitVec 5) (os : Os) : Statement (.lhu d a off os) :=
  of_words rfl fun w x1 x2 hw hx hy hwf => by
    have b_os := Os.code_lt os
    have n_os := Os.code_of_loadOk hwf
    have hk : RegOk 0 12 d.val a.val off.toNat (os.code % 2 + 2 * 3) (os.code / 2) := ⟨lt_lit rfl, lt_lit rfl, d.isLt, a.isLt, off.isLt, by omega, by omega⟩
    have h0 : bits w 2 6 = 12 := (eReg_bits_2_6 hw hk).trans rfl
    have h1 : fRd w = d := (eReg_fRd hw hk).trans (fin_ofNat _)
    have h2 : fRs1 w = a := (eReg_fRs1 hw hk).trans (fin_ofNat _)
    have h3 : fOff5 w = off := (eReg_fOff5 hw hk).trans (bv_ofNat _)
    have h4 : fOs w = os.code := (eReg_fOs hw hk).trans (by omega)
    have h5 : bits w 24 3 = 3 := (eReg_bits_24_3 hw hk).trans (by omega)
    have h6 : bits w 27 2 = 0 := (eReg_bits_27_2 hw hk).trans (by omega)
    have h7 : w % 4 = 0 := (eReg_4 hw hk).trans rfl
    refine ⟨eReg_lt hw hk, hx ▸ lt_lit rfl, hy ▸ lt_lit rfl, ?_⟩
    rw [decode_12 h0]
    simp only [decLoad0, decLoad, chk, h1, h2, h3, h4, h5, h6, h7, osOf_code] <;>
      simp <;> omega

theorem lw (d : XReg) (a : XReg) (off : BitVec 5) (os : Os) : Statement (.lw d a off os) :=
  of_words rfl fun w x1 x2 hw hx hy hwf => by
    have b_os := Os.code_lt os
    have n_os := Os.code_of_loadOk hwf
    have hk : RegOk 0 12 d.val a.val off.toNat (os.code % 2 + 2 * 4) (os.code / 2) := ⟨lt_lit rfl, lt_lit rfl, d.isLt, a.isLt, off.isLt, by omega, by omega⟩
    have h0 : bits w 2 6 = 12 := (eReg_bits_2_6 hw hk).trans rfl
    have h1 : fRd w = d := (eReg_fRd hw hk).trans (fin_ofNat _)
    have h2 : fRs1 w = a := (eReg_fRs1 hw hk).trans (fin_ofNat _)
    have h3 : fOff5 w = off := (eReg_fOff5 hw hk).trans (bv_ofNat _)
    have h4 : fOs w = os.code := (eReg_fOs hw hk).trans (by omega)
    have h5 : bits w 24 3 = 4 := (eReg_bits_24_3 hw hk).trans (by omega)
    have h6 : bits w 27 2 = 0 := (eReg_bits_27_2 hw hk).trans (by omega)
    have h7 : w % 4 = 0 := (eReg_4 hw hk).trans rfl
    refine ⟨eReg_lt hw hk, hx ▸ lt_lit rfl, hy ▸ lt_lit rfl, ?_⟩
    rw [decode_12 h0]
    simp only [decLoad0, decLoad, chk, h1, h2, h3, h4, h5, h6, h7, osOf_code] <;>
      simp <;> omega

theorem lwu (d : XReg) (a : XReg) (off : BitVec 5) (os : Os) : Statement (.lwu d a off os) :=
  of_words rfl fun w x1 x2 hw hx hy hwf => by
    have b_os := Os.code_lt os
    have n_os := Os.code_of_loadOk hwf
    have hk : RegOk 0 12 d.val a.val off.toNat (os.code % 2 + 2 * 5) (os.code / 2) := ⟨lt_lit rfl, lt_lit rfl, d.isLt, a.isLt, off.isLt, by omega, by omega⟩
    have h0 : bits w 2 6 = 12 := (eReg_bits_2_6 hw hk).trans rfl
    have h1 : fRd w = d := (eReg_fRd hw hk).trans (fin_ofNat _)
    have h2 : fRs1 w = a := (eReg_fRs1 hw hk).trans (fin_ofNat _)
    have h3 : fOff5 w = off := (eReg_fOff5 hw hk).trans (bv_ofNat _)
    have h4 : fOs w = os.code := (eReg_fOs hw hk).trans (by omega)
    have h5 : bits w 24 3 = 5 := (eReg_bits_24_3 hw hk).trans (by omega)
    have h6 : bits w 27 2 = 0 := (eReg_bits_27_2 hw hk).trans (by omega)
    have h7 : w % 4 = 0 := (eReg_4 hw hk).trans rfl
    refine ⟨eReg_lt hw hk, hx ▸ lt_lit rfl, hy ▸ lt_lit rfl, ?_⟩
    rw [decode_12 h0]
    simp only [decLoad0, decLoad, chk, h1, h2, h3, h4, h5, h6, h7, osOf_code] <;>
      simp <;> omega

theorem ld (d : XReg) (a : XReg) (off : BitVec 5) (os : Os) : Statement (.ld d a off os) :=
  of_words rfl fun w x1 x2 hw hx hy hwf => by
    have b_os := Os.code_lt os
    have n_os := Os.code_of_loadOk hwf
    have hk : RegOk 0 12 d.val a.val off.toNat (os.code % 2 + 2 * 6) (os.code / 2) := ⟨lt_lit rfl, lt_lit rfl, d.isLt, a.isLt, off.isLt, by omega, by omega⟩
    have h0 : bits w 2 6 = 12 := (eReg_bits_2_6 hw hk).trans rfl
    have h1 : fRd w = d := (eReg_fRd hw hk).trans (fin_ofNat _)
    have h2 : fRs1 w = a := (eReg_fRs1 hw hk).trans (fin_ofNat _)
    have h3 : fOff5 w = off := (eReg_fOff5 hw hk).trans (bv_ofNat _)
    have h4 : fOs w = os.code := (eReg_fOs hw hk).trans (by omega)
    have h5 : bits w 24 3 = 6 := (eReg_bits_24_3 hw hk).trans (by omega)
    have h6 : bits w 27 2 = 0 := (eReg_bits_27_2 hw hk).trans (by omega)
    have h7 : w % 4 = 0 := (eReg_4 hw hk).trans rfl
    refine ⟨eReg_lt hw hk, hx ▸ lt_lit rfl, hy ▸ lt_lit rfl, ?_⟩
    rw [decode_12 h0]
    simp only [decLoad0, decLoad, chk, h1, h2, h3, h4, h5, h6, h7, osOf_code] <;>
      simp <;> omega

theorem lbLit (d : XReg) (a : XReg) (lit : Word) (os : Os) : Statement (.lbLit d a lit os) :=
  of_words rfl fun w x1 x2 hw hx hy hwf => by
    have b_os := Os.code_lt os
    have n_os := Os.code_of_loadOk hwf
    have hk : RegOk 1 12 d.val a.val 0 (os.code % 2 + 2 * 0) (os.code / 2) := ⟨lt_lit rfl, lt_lit rfl, d.isLt, a.isLt, lt_lit rfl, by omega, by omega⟩
    have h0 : bits w 2 6 = 12 := (eReg_bits_2_6 hw hk).trans rfl
    have h1 : fRd w = d := (eReg_fRd hw hk).trans (fin_ofNat _)
    have h2 : fRs1 w = a := (eReg_fRs1 hw hk).trans (fin_ofNat _)
    have h3 : fRs2 w = 0 := (eReg_fRs2 hw hk).trans rfl
    have h4 : fLit x1 = lit := BitVec.eq_of_toNat_eq (by simp only [fLit, BitVec.toNat_ofNat]; omega)
    have h5 : fOs w = os.code := (eReg_fOs hw hk).trans (by omega)
    have h6 : bits w 24 3 = 0 := (eReg_bits_24_3 hw hk).trans (by omega)
    have h7 : bits w 27 2 = 0 := (eReg_bits_27_2 hw hk).trans (by omega)
    have h8 : w % 4 = 1 := (eReg_4 hw hk).trans rfl
    refine ⟨eReg_lt hw hk, by omega, hy ▸ lt_lit rfl, ?_⟩
    rw [decode_12 h0]
    simp only [decLoad1, decLoad, chk, h1, h2, h3, h4, h5, h6, h7, h8, osOf_code] <;>
      simp <;> omega

theorem lbuLit (d : XReg) (a : XReg) (lit : Word) (os : Os) : Statement (.lbuLit d a lit os) :=
  of_words rfl fun w x1 x2 hw hx hy hwf => by
    have b_os := Os.code_lt os
    have n_os := Os.code_of_loadOk hwf
    have hk : RegOk 1 12 d.val a.val 0 (os.code % 2 + 2 * 1) (os.code / 2) := ⟨lt_lit rfl, lt_lit rfl, d.isLt, a.isLt, lt_lit rfl, by omega, by omega⟩
    have h0 : bits w 2 6 = 12 := (eReg_bits_2_6 hw hk).trans rfl
    have h1 : fRd w = d := (eReg_fRd hw hk).trans (fin_ofNat _)
    have h2 : fRs1 w = a := (eReg_fRs1 hw hk).trans (fin_ofNat _)
    have h3 : fRs2 w = 0 := (eReg_fRs2 hw hk).trans rfl
    have h4 : fLit x1 = lit := BitVec.eq_of_toNat_eq (by simp only [fLit, BitVec.toNat_ofNat]; omega)
    have h5 : fOs w = os.code := (eReg_fOs hw hk).trans (by omega)
    have h6 : bits w 24 3 = 1 := (eReg_bits_24_3 hw hk).trans (by omega)
    have h7 : bits w 27 2 = 0 := (eReg_bits_27_2 hw hk).trans (by omega)
    have h8 : w % 4 = 1 := (eReg_4 hw hk).trans rfl
    refine ⟨eReg_lt hw hk, by omega, hy ▸ lt_lit rfl, ?_⟩
    rw [decode_12 h0]
    simp only [decLoad1, decLoad, chk, h1, h2, h3, h4, h5, h6, h7, h8, osOf_code] <;>
      simp <;> omega

theorem lhLit (d : XReg) (a : XReg) (lit : Word) (os : Os) : Statement (.lhLit d a lit os) :=
  of_words rfl fun w x1 x2 hw hx hy hwf => by
    have b_os := Os.code_lt os
    have n_os := Os.code_of_loadOk hwf
    have hk : RegOk 1 12 d.val a.val 0 (os.code % 2 + 2 * 2) (os.code / 2) := ⟨lt_lit rfl, lt_lit rfl, d.isLt, a.isLt, lt_lit rfl, by omega, by omega⟩
    have h0 : bits w 2 6 = 12 := (eReg_bits_2_6 hw hk).trans rfl
    have h1 : fRd w = d := (eReg_fRd hw hk).trans (fin_ofNat _)
    have h2 : fRs1 w = a := (eReg_fRs1 hw hk).trans (fin_ofNat _)
    have h3 : fRs2 w = 0 := (eReg_fRs2 hw hk).trans rfl
    have h4 : fLit x1 = lit := BitVec.eq_of_toNat_eq (by simp only [fLit, BitVec.toNat_ofNat]; omega)
    have h5 : fOs w = os.code := (eReg_fOs hw hk).trans (by omega)
    have h6 : bits w 24 3 = 2 := (eReg_bits_24_3 hw hk).trans (by omega)
    have h7 : bits w 27 2 = 0 := (eReg_bits_27_2 hw hk).trans (by omega)
    have h8 : w % 4 = 1 := (eReg_4 hw hk).trans rfl
    refine ⟨eReg_lt hw hk, by omega, hy ▸ lt_lit rfl, ?_⟩
    rw [decode_12 h0]
    simp only [decLoad1, decLoad, chk, h1, h2, h3, h4, h5, h6, h7, h8, osOf_code] <;>
      simp <;> omega

theorem lhuLit (d : XReg) (a : XReg) (lit : Word) (os : Os) : Statement (.lhuLit d a lit os) :=
  of_words rfl fun w x1 x2 hw hx hy hwf => by
    have b_os := Os.code_lt os
    have n_os := Os.code_of_loadOk hwf
    have hk : RegOk 1 12 d.val a.val 0 (os.code % 2 + 2 * 3) (os.code / 2) := ⟨lt_lit rfl, lt_lit rfl, d.isLt, a.isLt, lt_lit rfl, by omega, by omega⟩
    have h0 : bits w 2 6 = 12 := (eReg_bits_2_6 hw hk).trans rfl
    have h1 : fRd w = d := (eReg_fRd hw hk).trans (fin_ofNat _)
    have h2 : fRs1 w = a := (eReg_fRs1 hw hk).trans (fin_ofNat _)
    have h3 : fRs2 w = 0 := (eReg_fRs2 hw hk).trans rfl
    have h4 : fLit x1 = lit := BitVec.eq_of_toNat_eq (by simp only [fLit, BitVec.toNat_ofNat]; omega)
    have h5 : fOs w = os.code := (eReg_fOs hw hk).trans (by omega)
    have h6 : bits w 24 3 = 3 := (eReg_bits_24_3 hw hk).trans (by omega)
    have h7 : bits w 27 2 = 0 := (eReg_bits_27_2 hw hk).trans (by omega)
    have h8 : w % 4 = 1 := (eReg_4 hw hk).trans rfl
    refine ⟨eReg_lt hw hk, by omega, hy ▸ lt_lit rfl, ?_⟩
    rw [decode_12 h0]
    simp only [decLoad1, decLoad, chk, h1, h2, h3, h4, h5, h6, h7, h8, osOf_code] <;>
      simp <;> omega

theorem lwLit (d : XReg) (a : XReg) (lit : Word) (os : Os) : Statement (.lwLit d a lit os) :=
  of_words rfl fun w x1 x2 hw hx hy hwf => by
    have b_os := Os.code_lt os
    have n_os := Os.code_of_loadOk hwf
    have hk : RegOk 1 12 d.val a.val 0 (os.code % 2 + 2 * 4) (os.code / 2) := ⟨lt_lit rfl, lt_lit rfl, d.isLt, a.isLt, lt_lit rfl, by omega, by omega⟩
    have h0 : bits w 2 6 = 12 := (eReg_bits_2_6 hw hk).trans rfl
    have h1 : fRd w = d := (eReg_fRd hw hk).trans (fin_ofNat _)
    have h2 : fRs1 w = a := (eReg_fRs1 hw hk).trans (fin_ofNat _)
    have h3 : fRs2 w = 0 := (eReg_fRs2 hw hk).trans rfl
    have h4 : fLit x1 = lit := BitVec.eq_of_toNat_eq (by simp only [fLit, BitVec.toNat_ofNat]; omega)
    have h5 : fOs w = os.code := (eReg_fOs hw hk).trans (by omega)
    have h6 : bits w 24 3 = 4 := (eReg_bits_24_3 hw hk).trans (by omega)
    have h7 : bits w 27 2 = 0 := (eReg_bits_27_2 hw hk).trans (by omega)
    have h8 : w % 4 = 1 := (eReg_4 hw hk).trans rfl
    refine ⟨eReg_lt hw hk, by omega, hy ▸ lt_lit rfl, ?_⟩
    rw [decode_12 h0]
    simp only [decLoad1, decLoad, chk, h1, h2, h3, h4, h5, h6, h7, h8, osOf_code] <;>
      simp <;> omega

theorem lwuLit (d : XReg) (a : XReg) (lit : Word) (os : Os) : Statement (.lwuLit d a lit os) :=
  of_words rfl fun w x1 x2 hw hx hy hwf => by
    have b_os := Os.code_lt os
    have n_os := Os.code_of_loadOk hwf
    have hk : RegOk 1 12 d.val a.val 0 (os.code % 2 + 2 * 5) (os.code / 2) := ⟨lt_lit rfl, lt_lit rfl, d.isLt, a.isLt, lt_lit rfl, by omega, by omega⟩
    have h0 : bits w 2 6 = 12 := (eReg_bits_2_6 hw hk).trans rfl
    have h1 : fRd w = d := (eReg_fRd hw hk).trans (fin_ofNat _)
    have h2 : fRs1 w = a := (eReg_fRs1 hw hk).trans (fin_ofNat _)
    have h3 : fRs2 w = 0 := (eReg_fRs2 hw hk).trans rfl
    have h4 : fLit x1 = lit := BitVec.eq_of_toNat_eq (by simp only [fLit, BitVec.toNat_ofNat]; omega)
    have h5 : fOs w = os.code := (eReg_fOs hw hk).trans (by omega)
    have h6 : bits w 24 3 = 5 := (eReg_bits_24_3 hw hk).trans (by omega)
    have h7 : bits w 27 2 = 0 := (eReg_bits_27_2 hw hk).trans (by omega)
    have h8 : w % 4 = 1 := (eReg_4 hw hk).trans rfl
    refine ⟨eReg_lt hw hk, by omega, hy ▸ lt_lit rfl, ?_⟩
    rw [decode_12 h0]
    simp only [decLoad1, decLoad, chk, h1, h2, h3, h4, h5, h6, h7, h8, osOf_code] <;>
      simp <;> omega

theorem ldLit (d : XReg) (a : XReg) (lit : Word) (os : Os) : Statement (.ldLit d a lit os) :=
  of_words rfl fun w x1 x2 hw hx hy hwf => by
    have b_os := Os.code_lt os
    have n_os := Os.code_of_loadOk hwf
    have hk : RegOk 1 12 d.val a.val 0 (os.code % 2 + 2 * 6) (os.code / 2) := ⟨lt_lit rfl, lt_lit rfl, d.isLt, a.isLt, lt_lit rfl, by omega, by omega⟩
    have h0 : bits w 2 6 = 12 := (eReg_bits_2_6 hw hk).trans rfl
    have h1 : fRd w = d := (eReg_fRd hw hk).trans (fin_ofNat _)
    have h2 : fRs1 w = a := (eReg_fRs1 hw hk).trans (fin_ofNat _)
    have h3 : fRs2 w = 0 := (eReg_fRs2 hw hk).trans rfl
    have h4 : fLit x1 = lit := BitVec.eq_of_toNat_eq (by simp only [fLit, BitVec.toNat_ofNat]; omega)
    have h5 : fOs w = os.code := (eReg_fOs hw hk).trans (by omega)
    have h6 : bits w 24 3 = 6 := (eReg_bits_24_3 hw hk).trans (by omega)
    have h7 : bits w 27 2 = 0 := (eReg_bits_27_2 hw hk).trans (by omega)
    have h8 : w % 4 = 1 := (eReg_4 hw hk).trans rfl
    refine ⟨eReg_lt hw hk, by omega, hy ▸ lt_lit rfl, ?_⟩
    rw [decode_12 h0]
    simp only [decLoad1, decLoad, chk, h1, h2, h3, h4, h5, h6, h7, h8, osOf_code] <;>
      simp <;> omega

theorem lbExt (d : XReg) (a : XReg) (off : BitVec 47) (os : Os) : Statement (.lbExt d a off os) :=
  of_words rfl fun w x1 x2 hw hx hy hwf => by
    have b_os := Os.code_lt os
    have n_os := Os.code_of_loadOk hwf
    have hk : RegOk 2 12 d.val a.val 0 (os.code % 2 + 2 * 0) (os.code / 2) := ⟨lt_lit rfl, lt_lit rfl, d.isLt, a.isLt, lt_lit rfl, by omega, by omega⟩
    have h0 : bits w 2 6 = 12 := (eReg_bits_2_6 hw hk).trans rfl
    have h1 : fRd w = d := (eReg_fRd hw hk).trans (fin_ofNat _)
    have h2 : fRs1 w = a := (eReg_fRs1 hw hk).trans (fin_ofNat _)
    have h3 : fRs2 w = 0 := (eReg_fRs2 hw hk).trans rfl
    have h4 : fOff47 x1 = off := BitVec.eq_of_toNat_eq (by simp only [fOff47, BitVec.toNat_ofNat]; omega)
    have h5 : fOs w = os.code := (eReg_fOs hw hk).trans (by omega)
    have h6 : bits w 24 3 = 0 := (eReg_bits_24_3 hw hk).trans (by omega)
    have h7 : bits w 27 2 = 0 := (eReg_bits_27_2 hw hk).trans (by omega)
    have h8 : w % 4 = 2 := (eReg_4 hw hk).trans rfl
    have h9 : x1 / 2 ^ 47 = 0 := by omega
    refine ⟨eReg_lt hw hk, by omega, hy ▸ lt_lit rfl, ?_⟩
    rw [decode_12 h0]
    simp only [decLoad2, decLoad, chk, h1, h2, h3, h4, h5, h6, h7, h8, h9, osOf_code] <;>
      simp <;> omega

theorem lbuExt (d : XReg) (a : XReg) (off : BitVec 47) (os : Os) : Statement (.lbuExt d a off os) :=
  of_words rfl fun w x1 x2 hw hx hy hwf => by
    have b_os := Os.code_lt os
    have n_os := Os.code_of_loadOk hwf
    have hk : RegOk 2 12 d.val a.val 0 (os.code % 2 + 2 * 1) (os.code / 2) := ⟨lt_lit rfl, lt_lit rfl, d.isLt, a.isLt, lt_lit rfl, by omega, by omega⟩
    have h0 : bits w 2 6 = 12 := (eReg_bits_2_6 hw hk).trans rfl
    have h1 : fRd w = d := (eReg_fRd hw hk).trans (fin_ofNat _)
    have h2 : fRs1 w = a := (eReg_fRs1 hw hk).trans (fin_ofNat _)
    have h3 : fRs2 w = 0 := (eReg_fRs2 hw hk).trans rfl
    have h4 : fOff47 x1 = off := BitVec.eq_of_toNat_eq (by simp only [fOff47, BitVec.toNat_ofNat]; omega)
    have h5 : fOs w = os.code := (eReg_fOs hw hk).trans (by omega)
    have h6 : bits w 24 3 = 1 := (eReg_bits_24_3 hw hk).trans (by omega)
    have h7 : bits w 27 2 = 0 := (eReg_bits_27_2 hw hk).trans (by omega)
    have h8 : w % 4 = 2 := (eReg_4 hw hk).trans rfl
    have h9 : x1 / 2 ^ 47 = 0 := by omega
    refine ⟨eReg_lt hw hk, by omega, hy ▸ lt_lit rfl, ?_⟩
    rw [decode_12 h0]
    simp only [decLoad2, decLoad, chk, h1, h2, h3, h4, h5, h6, h7, h8, h9, osOf_code] <;>
      simp <;> omega

theorem lhExt (d : XReg) (a : XReg) (off : BitVec 47) (os : Os) : Statement (.lhExt d a off os) :=
  of_words rfl fun w x1 x2 hw hx hy hwf => by
    have b_os := Os.code_lt os
    have n_os := Os.code_of_loadOk hwf
    have hk : RegOk 2 12 d.val a.val 0 (os.code % 2 + 2 * 2) (os.code / 2) := ⟨lt_lit rfl, lt_lit rfl, d.isLt, a.isLt, lt_lit rfl, by omega, by omega⟩
    have h0 : bits w 2 6 = 12 := (eReg_bits_2_6 hw hk).trans rfl
    have h1 : fRd w = d := (eReg_fRd hw hk).trans (fin_ofNat _)
    have h2 : fRs1 w = a := (eReg_fRs1 hw hk).trans (fin_ofNat _)
    have h3 : fRs2 w = 0 := (eReg_fRs2 hw hk).trans rfl
    have h4 : fOff47 x1 = off := BitVec.eq_of_toNat_eq (by simp only [fOff47, BitVec.toNat_ofNat]; omega)
    have h5 : fOs w = os.code := (eReg_fOs hw hk).trans (by omega)
    have h6 : bits w 24 3 = 2 := (eReg_bits_24_3 hw hk).trans (by omega)
    have h7 : bits w 27 2 = 0 := (eReg_bits_27_2 hw hk).trans (by omega)
    have h8 : w % 4 = 2 := (eReg_4 hw hk).trans rfl
    have h9 : x1 / 2 ^ 47 = 0 := by omega
    refine ⟨eReg_lt hw hk, by omega, hy ▸ lt_lit rfl, ?_⟩
    rw [decode_12 h0]
    simp only [decLoad2, decLoad, chk, h1, h2, h3, h4, h5, h6, h7, h8, h9, osOf_code] <;>
      simp <;> omega

theorem lhuExt (d : XReg) (a : XReg) (off : BitVec 47) (os : Os) : Statement (.lhuExt d a off os) :=
  of_words rfl fun w x1 x2 hw hx hy hwf => by
    have b_os := Os.code_lt os
    have n_os := Os.code_of_loadOk hwf
    have hk : RegOk 2 12 d.val a.val 0 (os.code % 2 + 2 * 3) (os.code / 2) := ⟨lt_lit rfl, lt_lit rfl, d.isLt, a.isLt, lt_lit rfl, by omega, by omega⟩
    have h0 : bits w 2 6 = 12 := (eReg_bits_2_6 hw hk).trans rfl
    have h1 : fRd w = d := (eReg_fRd hw hk).trans (fin_ofNat _)
    have h2 : fRs1 w = a := (eReg_fRs1 hw hk).trans (fin_ofNat _)
    have h3 : fRs2 w = 0 := (eReg_fRs2 hw hk).trans rfl
    have h4 : fOff47 x1 = off := BitVec.eq_of_toNat_eq (by simp only [fOff47, BitVec.toNat_ofNat]; omega)
    have h5 : fOs w = os.code := (eReg_fOs hw hk).trans (by omega)
    have h6 : bits w 24 3 = 3 := (eReg_bits_24_3 hw hk).trans (by omega)
    have h7 : bits w 27 2 = 0 := (eReg_bits_27_2 hw hk).trans (by omega)
    have h8 : w % 4 = 2 := (eReg_4 hw hk).trans rfl
    have h9 : x1 / 2 ^ 47 = 0 := by omega
    refine ⟨eReg_lt hw hk, by omega, hy ▸ lt_lit rfl, ?_⟩
    rw [decode_12 h0]
    simp only [decLoad2, decLoad, chk, h1, h2, h3, h4, h5, h6, h7, h8, h9, osOf_code] <;>
      simp <;> omega

theorem lwExt (d : XReg) (a : XReg) (off : BitVec 47) (os : Os) : Statement (.lwExt d a off os) :=
  of_words rfl fun w x1 x2 hw hx hy hwf => by
    have b_os := Os.code_lt os
    have n_os := Os.code_of_loadOk hwf
    have hk : RegOk 2 12 d.val a.val 0 (os.code % 2 + 2 * 4) (os.code / 2) := ⟨lt_lit rfl, lt_lit rfl, d.isLt, a.isLt, lt_lit rfl, by omega, by omega⟩
    have h0 : bits w 2 6 = 12 := (eReg_bits_2_6 hw hk).trans rfl
    have h1 : fRd w = d := (eReg_fRd hw hk).trans (fin_ofNat _)
    have h2 : fRs1 w = a := (eReg_fRs1 hw hk).trans (fin_ofNat _)
    have h3 : fRs2 w = 0 := (eReg_fRs2 hw hk).trans rfl
    have h4 : fOff47 x1 = off := BitVec.eq_of_toNat_eq (by simp only [fOff47, BitVec.toNat_ofNat]; omega)
    have h5 : fOs w = os.code := (eReg_fOs hw hk).trans (by omega)
    have h6 : bits w 24 3 = 4 := (eReg_bits_24_3 hw hk).trans (by omega)
    have h7 : bits w 27 2 = 0 := (eReg_bits_27_2 hw hk).trans (by omega)
    have h8 : w % 4 = 2 := (eReg_4 hw hk).trans rfl
    have h9 : x1 / 2 ^ 47 = 0 := by omega
    refine ⟨eReg_lt hw hk, by omega, hy ▸ lt_lit rfl, ?_⟩
    rw [decode_12 h0]
    simp only [decLoad2, decLoad, chk, h1, h2, h3, h4, h5, h6, h7, h8, h9, osOf_code] <;>
      simp <;> omega

theorem lwuExt (d : XReg) (a : XReg) (off : BitVec 47) (os : Os) : Statement (.lwuExt d a off os) :=
  of_words rfl fun w x1 x2 hw hx hy hwf => by
    have b_os := Os.code_lt os
    have n_os := Os.code_of_loadOk hwf
    have hk : RegOk 2 12 d.val a.val 0 (os.code % 2 + 2 * 5) (os.code / 2) := ⟨lt_lit rfl, lt_lit rfl, d.isLt, a.isLt, lt_lit rfl, by omega, by omega⟩
    have h0 : bits w 2 6 = 12 := (eReg_bits_2_6 hw hk).trans rfl
    have h1 : fRd w = d := (eReg_fRd hw hk).trans (fin_ofNat _)
    have h2 : fRs1 w = a := (eReg_fRs1 hw hk).trans (fin_ofNat _)
    have h3 : fRs2 w = 0 := (eReg_fRs2 hw hk).trans rfl
    have h4 : fOff47 x1 = off := BitVec.eq_of_toNat_eq (by simp only [fOff47, BitVec.toNat_ofNat]; omega)
    have h5 : fOs w = os.code := (eReg_fOs hw hk).trans (by omega)
    have h6 : bits w 24 3 = 5 := (eReg_bits_24_3 hw hk).trans (by omega)
    have h7 : bits w 27 2 = 0 := (eReg_bits_27_2 hw hk).trans (by omega)
    have h8 : w % 4 = 2 := (eReg_4 hw hk).trans rfl
    have h9 : x1 / 2 ^ 47 = 0 := by omega
    refine ⟨eReg_lt hw hk, by omega, hy ▸ lt_lit rfl, ?_⟩
    rw [decode_12 h0]
    simp only [decLoad2, decLoad, chk, h1, h2, h3, h4, h5, h6, h7, h8, h9, osOf_code] <;>
      simp <;> omega

theorem ldExt (d : XReg) (a : XReg) (off : BitVec 47) (os : Os) : Statement (.ldExt d a off os) :=
  of_words rfl fun w x1 x2 hw hx hy hwf => by
    have b_os := Os.code_lt os
    have n_os := Os.code_of_loadOk hwf
    have hk : RegOk 2 12 d.val a.val 0 (os.code % 2 + 2 * 6) (os.code / 2) := ⟨lt_lit rfl, lt_lit rfl, d.isLt, a.isLt, lt_lit rfl, by omega, by omega⟩
    have h0 : bits w 2 6 = 12 := (eReg_bits_2_6 hw hk).trans rfl
    have h1 : fRd w = d := (eReg_fRd hw hk).trans (fin_ofNat _)
    have h2 : fRs1 w = a := (eReg_fRs1 hw hk).trans (fin_ofNat _)
    have h3 : fRs2 w = 0 := (eReg_fRs2 hw hk).trans rfl
    have h4 : fOff47 x1 = off := BitVec.eq_of_toNat_eq (by simp only [fOff47, BitVec.toNat_ofNat]; omega)
    have h5 : fOs w = os.code := (eReg_fOs hw hk).trans (by omega)
    have h6 : bits w 24 3 = 6 := (eReg_bits_24_3 hw hk).trans (by omega)
    have h7 : bits w 27 2 = 0 := (eReg_bits_27_2 hw hk).trans (by omega)
    have h8 : w % 4 = 2 := (eReg_4 hw hk).trans rfl
    have h9 : x1 / 2 ^ 47 = 0 := by omega
    refine ⟨eReg_lt hw hk, by omega, hy ▸ lt_lit rfl, ?_⟩
    rw [decode_12 h0]
    simp only [decLoad2, decLoad, chk, h1, h2, h3, h4, h5, h6, h7, h8, h9, osOf_code] <;>
      simp <;> omega

theorem sb (s : XReg) (a : XReg) (off : BitVec 5) (os : Os) : Statement (.sb s a off os) :=
  of_words rfl fun w x1 x2 hw hx hy hwf => by
    have b_os := Os.code_lt os
    have n_os := Os.code_of_storeOk hwf
    have hk : RegOk 0 13 s.val a.val off.toNat (os.code % 2 + 2 * 0) (os.code / 2) := ⟨lt_lit rfl, lt_lit rfl, s.isLt, a.isLt, off.isLt, by omega, by omega⟩
    have h0 : bits w 2 6 = 13 := (eReg_bits_2_6 hw hk).trans rfl
    have h1 : fRd w = s := (eReg_fRd hw hk).trans (fin_ofNat _)
    have h2 : fRs1 w = a := (eReg_fRs1 hw hk).trans (fin_ofNat _)
    have h3 : fOff5 w = off := (eReg_fOff5 hw hk).trans (bv_ofNat _)
    have h4 : fOs w = os.code := (eReg_fOs hw hk).trans (by omega)
    have h5 : bits w 24 3 = 0 := (eReg_bits_24_3 hw hk).trans (by omega)
    have h6 : bits w 27 2 = 0 := (eReg_bits_27_2 hw hk).trans (by omega)
    have h7 : w % 4 = 0 := (eReg_4 hw hk).trans rfl
    refine ⟨eReg_lt hw hk, hx ▸ lt_lit rfl, hy ▸ lt_lit rfl, ?_⟩
    rw [decode_13 h0]
    simp only [decStore0, decStore, chk, h1, h2, h3, h4, h5, h6, h7, osOf_code] <;>
      simp <;> omega

theorem sh (s : XReg) (a : XReg) (off : BitVec 5) (os : Os) : Statement (.sh s a off os) :=
  of_words rfl fun w x1 x2 hw hx hy hwf => by
    have b_os := Os.code_lt os
    have n_os := Os.code_of_storeOk hwf
    have hk : RegOk 0 13 s.val a.val off.toNat (os.code % 2 + 2 * 2) (os.code / 2) := ⟨lt_lit rfl, lt_lit rfl, s.isLt, a.isLt, off.isLt, by omega, by omega⟩
    have h0 : bits w 2 6 = 13 := (eReg_bits_2_6 hw hk).trans rfl
    have h1 : fRd w = s := (eReg_fRd hw hk).trans (fin_ofNat _)
    have h2 : fRs1 w = a := (eReg_fRs1 hw hk).trans (fin_ofNat _)
    have h3 : fOff5 w = off := (eReg_fOff5 hw hk).trans (bv_ofNat _)
    have h4 : fOs w = os.code := (eReg_fOs hw hk).trans (by omega)
    have h5 : bits w 24 3 = 2 := (eReg_bits_24_3 hw hk).trans (by omega)
    have h6 : bits w 27 2 = 0 := (eReg_bits_27_2 hw hk).trans (by omega)
    have h7 : w % 4 = 0 := (eReg_4 hw hk).trans rfl
    refine ⟨eReg_lt hw hk, hx ▸ lt_lit rfl, hy ▸ lt_lit rfl, ?_⟩
    rw [decode_13 h0]
    simp only [decStore0, decStore, chk, h1, h2, h3, h4, h5, h6, h7, osOf_code] <;>
      simp <;> omega

theorem sw (s : XReg) (a : XReg) (off : BitVec 5) (os : Os) : Statement (.sw s a off os) :=
  of_words rfl fun w x1 x2 hw hx hy hwf => by
    have b_os := Os.code_lt os
    have n_os := Os.code_of_storeOk hwf
    have hk : RegOk 0 13 s.val a.val off.toNat (os.code % 2 + 2 * 4) (os.code / 2) := ⟨lt_lit rfl, lt_lit rfl, s.isLt, a.isLt, off.isLt, by omega, by omega⟩
    have h0 : bits w 2 6 = 13 := (eReg_bits_2_6 hw hk).trans rfl
    have h1 : fRd w = s := (eReg_fRd hw hk).trans (fin_ofNat _)
    have h2 : fRs1 w = a := (eReg_fRs1 hw hk).trans (fin_ofNat _)
    have h3 : fOff5 w = off := (eReg_fOff5 hw hk).trans (bv_ofNat _)
    have h4 : fOs w = os.code := (eReg_fOs hw hk).trans (by omega)
    have h5 : bits w 24 3 = 4 := (eReg_bits_24_3 hw hk).trans (by omega)
    have h6 : bits w 27 2 = 0 := (eReg_bits_27_2 hw hk).trans (by omega)
    have h7 : w % 4 = 0 := (eReg_4 hw hk).trans rfl
    refine ⟨eReg_lt hw hk, hx ▸ lt_lit rfl, hy ▸ lt_lit rfl, ?_⟩
    rw [decode_13 h0]
    simp only [decStore0, decStore, chk, h1, h2, h3, h4, h5, h6, h7, osOf_code] <;>
      simp <;> omega

theorem sd (s : XReg) (a : XReg) (off : BitVec 5) (os : Os) : Statement (.sd s a off os) :=
  of_words rfl fun w x1 x2 hw hx hy hwf => by
    have b_os := Os.code_lt os
    have n_os := Os.code_of_storeOk hwf
    have hk : RegOk 0 13 s.val a.val off.toNat (os.code % 2 + 2 * 6) (os.code / 2) := ⟨lt_lit rfl, lt_lit rfl, s.isLt, a.isLt, off.isLt, by omega, by omega⟩
    have h0 : bits w 2 6 = 13 := (eReg_bits_2_6 hw hk).trans rfl
    have h1 : fRd w = s := (eReg_fRd hw hk).trans (fin_ofNat _)
    have h2 : fRs1 w = a := (eReg_fRs1 hw hk).trans (fin_ofNat _)
    have h3 : fOff5 w = off := (eReg_fOff5 hw hk).trans (bv_ofNat _)
    have h4 : fOs w = os.code := (eReg_fOs hw hk).trans (by omega)
    have h5 : bits w 24 3 = 6 := (eReg_bits_24_3 hw hk).trans (by omega)
    have h6 : bits w 27 2 = 0 := (eReg_bits_27_2 hw hk).trans (by omega)
    have h7 : w % 4 = 0 := (eReg_4 hw hk).trans rfl
    refine ⟨eReg_lt hw hk, hx ▸ lt_lit rfl, hy ▸ lt_lit rfl, ?_⟩
    rw [decode_13 h0]
    simp only [decStore0, decStore, chk, h1, h2, h3, h4, h5, h6, h7, osOf_code] <;>
      simp <;> omega

theorem pstore (s : XReg) (a : XReg) (off : BitVec 5) : Statement (.pstore s a off) :=
  of_words rfl fun w x1 x2 hw hx hy hwf => by
    have hk : RegOk 0 13 s.val a.val off.toNat 14 0 := ⟨lt_lit rfl, lt_lit rfl, s.isLt, a.isLt, off.isLt, lt_lit rfl, lt_lit rfl⟩
    have h0 : bits w 2 6 = 13 := (eReg_bits_2_6 hw hk).trans rfl
    have h1 : fRd w = s := (eReg_fRd hw hk).trans (fin_ofNat _)
    have h2 : fRs1 w = a := (eReg_fRs1 hw hk).trans (fin_ofNat _)
    have h3 : fOff5 w = off := (eReg_fOff5 hw hk).trans (bv_ofNat _)
    have h4 : fOs w = 0 := (eReg_fOs hw hk).trans rfl
    have h5 : bits w 24 3 = 7 := (eReg_bits_24_3 hw hk).trans rfl
    have h6 : bits w 27 2 = 0 := (eReg_bits_27_2 hw hk).trans rfl
    have h7 : w % 4 = 0 := (eReg_4 hw hk).trans rfl
    refine ⟨eReg_lt hw hk, hx ▸ lt_lit rfl, hy ▸ lt_lit rfl, ?_⟩
    rw [decode_13 h0]
    simp only [decStore0, decStore, chk, h1, h2, h3, h4, h5, h6, h7] <;>
      simp <;> omega

theorem sbLit (s : XReg) (a : XReg) (lit : Word) (os : Os) : Statement (.sbLit s a lit os) :=
  of_words rfl fun w x1 x2 hw hx hy hwf => by
    have b_os := Os.code_lt os
    have n_os := Os.code_of_storeOk hwf
    have hk : RegOk 1 13 s.val a.val 0 (os.code % 2 + 2 * 0) (os.code / 2) := ⟨lt_lit rfl, lt_lit rfl, s.isLt, a.isLt, lt_lit rfl, by omega, by omega⟩
    have h0 : bits w 2 6 = 13 := (eReg_bits_2_6 hw hk).trans rfl
    have h1 : fRd w = s := (eReg_fRd hw hk).trans (fin_ofNat _)
    have h2 : fRs1 w = a := (eReg_fRs1 hw hk).trans (fin_ofNat _)
    have h3 : fRs2 w = 0 := (eReg_fRs2 hw hk).trans rfl
    have h4 : fLit x1 = lit := BitVec.eq_of_toNat_eq (by simp only [fLit, BitVec.toNat_ofNat]; omega)
    have h5 : fOs w = os.code := (eReg_fOs hw hk).trans (by omega)
    have h6 : bits w 24 3 = 0 := (eReg_bits_24_3 hw hk).trans (by omega)
    have h7 : bits w 27 2 = 0 := (eReg_bits_27_2 hw hk).trans (by omega)
    have h8 : w % 4 = 1 := (eReg_4 hw hk).trans rfl
    refine ⟨eReg_lt hw hk, by omega, hy ▸ lt_lit rfl, ?_⟩
    rw [decode_13 h0]
    simp only [decStore1, decStore, chk, h1, h2, h3, h4, h5, h6, h7, h8, osOf_code] <;>
      simp <;> omega

theorem shLit (s : XReg) (a : XReg) (lit : Word) (os : Os) : Statement (.shLit s a lit os) :=
  of_words rfl fun w x1 x2 hw hx hy hwf => by
    have b_os := Os.code_lt os
    have n_os := Os.code_of_storeOk hwf
    have hk : RegOk 1 13 s.val a.val 0 (os.code % 2 + 2 * 2) (os.code / 2) := ⟨lt_lit rfl, lt_lit rfl, s.isLt, a.isLt, lt_lit rfl, by omega, by omega⟩
    have h0 : bits w 2 6 = 13 := (eReg_bits_2_6 hw hk).trans rfl
    have h1 : fRd w = s := (eReg_fRd hw hk).trans (fin_ofNat _)
    have h2 : fRs1 w = a := (eReg_fRs1 hw hk).trans (fin_ofNat _)
    have h3 : fRs2 w = 0 := (eReg_fRs2 hw hk).trans rfl
    have h4 : fLit x1 = lit := BitVec.eq_of_toNat_eq (by simp only [fLit, BitVec.toNat_ofNat]; omega)
    have h5 : fOs w = os.code := (eReg_fOs hw hk).trans (by omega)
    have h6 : bits w 24 3 = 2 := (eReg_bits_24_3 hw hk).trans (by omega)
    have h7 : bits w 27 2 = 0 := (eReg_bits_27_2 hw hk).trans (by omega)
    have h8 : w % 4 = 1 := (eReg_4 hw hk).trans rfl
    refine ⟨eReg_lt hw hk, by omega, hy ▸ lt_lit rfl, ?_⟩
    rw [decode_13 h0]
    simp only [decStore1, decStore, chk, h1, h2, h3, h4, h5, h6, h7, h8, osOf_code] <;>
      simp <;> omega

theorem swLit (s : XReg) (a : XReg) (lit : Word) (os : Os) : Statement (.swLit s a lit os) :=
  of_words rfl fun w x1 x2 hw hx hy hwf => by
    have b_os := Os.code_lt os
    have n_os := Os.code_of_storeOk hwf
    have hk : RegOk 1 13 s.val a.val 0 (os.code % 2 + 2 * 4) (os.code / 2) := ⟨lt_lit rfl, lt_lit rfl, s.isLt, a.isLt, lt_lit rfl, by omega, by omega⟩
    have h0 : bits w 2 6 = 13 := (eReg_bits_2_6 hw hk).trans rfl
    have h1 : fRd w = s := (eReg_fRd hw hk).trans (fin_ofNat _)
    have h2 : fRs1 w = a := (eReg_fRs1 hw hk).trans (fin_ofNat _)
    have h3 : fRs2 w = 0 := (eReg_fRs2 hw hk).trans rfl
    have h4 : fLit x1 = lit := BitVec.eq_of_toNat_eq (by simp only [fLit, BitVec.toNat_ofNat]; omega)
    have h5 : fOs w = os.code := (eReg_fOs hw hk).trans (by omega)
    have h6 : bits w 24 3 = 4 := (eReg_bits_24_3 hw hk).trans (by omega)
    have h7 : bits w 27 2 = 0 := (eReg_bits_27_2 hw hk).trans (by omega)
    have h8 : w % 4 = 1 := (eReg_4 hw hk).trans rfl
    refine ⟨eReg_lt hw hk, by omega, hy ▸ lt_lit rfl, ?_⟩
    rw [decode_13 h0]
    simp only [decStore1, decStore, chk, h1, h2, h3, h4, h5, h6, h7, h8, osOf_code] <;>
      simp <;> omega

theorem sdLit (s : XReg) (a : XReg) (lit : Word) (os : Os) : Statement (.sdLit s a lit os) :=
  of_words rfl fun w x1 x2 hw hx hy hwf => by
    have b_os := Os.code_lt os
    have n_os := Os.code_of_storeOk hwf
    have hk : RegOk 1 13 s.val a.val 0 (os.code % 2 + 2 * 6) (os.code / 2) := ⟨lt_lit rfl, lt_lit rfl, s.isLt, a.isLt, lt_lit rfl, by omega, by omega⟩
    have h0 : bits w 2 6 = 13 := (eReg_bits_2_6 hw hk).trans rfl
    have h1 : fRd w = s := (eReg_fRd hw hk).trans (fin_ofNat _)
    have h2 : fRs1 w = a := (eReg_fRs1 hw hk).trans (fin_ofNat _)
    have h3 : fRs2 w = 0 := (eReg_fRs2 hw hk).trans rfl
    have h4 : fLit x1 = lit := BitVec.eq_of_toNat_eq (by simp only [fLit, BitVec.toNat_ofNat]; omega)
    have h5 : fOs w = os.code := (eReg_fOs hw hk).trans (by omega)
    have h6 : bits w 24 3 = 6 := (eReg_bits_24_3 hw hk).trans (by omega)
    have h7 : bits w 27 2 = 0 := (eReg_bits_27_2 hw hk).trans (by omega)
    have h8 : w % 4 = 1 := (eReg_4 hw hk).trans rfl
    refine ⟨eReg_lt hw hk, by omega, hy ▸ lt_lit rfl, ?_⟩
    rw [decode_13 h0]
    simp only [decStore1, decStore, chk, h1, h2, h3, h4, h5, h6, h7, h8, osOf_code] <;>
      simp <;> omega

theorem pstoreLit (s : XReg) (a : XReg) (lit : Word) : Statement (.pstoreLit s a lit) :=
  of_words rfl fun w x1 x2 hw hx hy hwf => by
    have hk : RegOk 1 13 s.val a.val 0 14 0 := ⟨lt_lit rfl, lt_lit rfl, s.isLt, a.isLt, lt_lit rfl, lt_lit rfl, lt_lit rfl⟩
    have h0 : bits w 2 6 = 13 := (eReg_bits_2_6 hw hk).trans rfl
    have h1 : fRd w = s := (eReg_fRd hw hk).trans (fin_ofNat _)
    have h2 : fRs1 w = a := (eReg_fRs1 hw hk).trans (fin_ofNat _)
    have h3 : fRs2 w = 0 := (eReg_fRs2 hw hk).trans rfl
    have h4 : fLit x1 = lit := BitVec.eq_of_toNat_eq (by simp only [fLit, BitVec.toNat_ofNat]; omega)
    have h5 : fOs w = 0 := (eReg_fOs hw hk).trans rfl
    have h6 : bits w 24 3 = 7 := (eReg_bits_24_3 hw hk).trans rfl
    have h7 : bits w 27 2 = 0 := (eReg_bits_27_2 hw hk).trans rfl
    have h8 : w % 4 = 1 := (eReg_4 hw hk).trans rfl
    refine ⟨eReg_lt hw hk, by omega, hy ▸ lt_lit rfl, ?_⟩
    rw [decode_13 h0]
    simp only [decStore1, decStore, chk, h1, h2, h3, h4, h5, h6, h7, h8] <;>
      simp <;> omega

theorem sbExt (s : XReg) (a : XReg) (off : BitVec 47) (os : Os) : Statement (.sbExt s a off os) :=
  of_words rfl fun w x1 x2 hw hx hy hwf => by
    have b_os := Os.code_lt os
    have n_os := Os.code_of_storeOk hwf
    have hk : RegOk 2 13 s.val a.val 0 (os.code % 2 + 2 * 0) (os.code / 2) := ⟨lt_lit rfl, lt_lit rfl, s.isLt, a.isLt, lt_lit rfl, by omega, by omega⟩
    have h0 : bits w 2 6 = 13 := (eReg_bits_2_6 hw hk).trans rfl
    have h1 : fRd w = s := (eReg_fRd hw hk).trans (fin_ofNat _)
    have h2 : fRs1 w = a := (eReg_fRs1 hw hk).trans (fin_ofNat _)
    have h3 : fRs2 w = 0 := (eReg_fRs2 hw hk).trans rfl
    have h4 : fOff47 x1 = off := BitVec.eq_of_toNat_eq (by simp only [fOff47, BitVec.toNat_ofNat]; omega)
    have h5 : fOs w = os.code := (eReg_fOs hw hk).trans (by omega)
    have h6 : bits w 24 3 = 0 := (eReg_bits_24_3 hw hk).trans (by omega)
    have h7 : bits w 27 2 = 0 := (eReg_bits_27_2 hw hk).trans (by omega)
    have h8 : w % 4 = 2 := (eReg_4 hw hk).trans rfl
    have h9 : x1 / 2 ^ 47 = 0 := by omega
    refine ⟨eReg_lt hw hk, by omega, hy ▸ lt_lit rfl, ?_⟩
    rw [decode_13 h0]
    simp only [decStore2, decStore, chk, h1, h2, h3, h4, h5, h6, h7, h8, h9, osOf_code] <;>
      simp <;> omega

theorem shExt (s : XReg) (a : XReg) (off : BitVec 47) (os : Os) : Statement (.shExt s a off os) :=
  of_words rfl fun w x1 x2 hw hx hy hwf => by
    have b_os := Os.code_lt os
    have n_os := Os.code_of_storeOk hwf
    have hk : RegOk 2 13 s.val a.val 0 (os.code % 2 + 2 * 2) (os.code / 2) := ⟨lt_lit rfl, lt_lit rfl, s.isLt, a.isLt, lt_lit rfl, by omega, by omega⟩
    have h0 : bits w 2 6 = 13 := (eReg_bits_2_6 hw hk).trans rfl
    have h1 : fRd w = s := (eReg_fRd hw hk).trans (fin_ofNat _)
    have h2 : fRs1 w = a := (eReg_fRs1 hw hk).trans (fin_ofNat _)
    have h3 : fRs2 w = 0 := (eReg_fRs2 hw hk).trans rfl
    have h4 : fOff47 x1 = off := BitVec.eq_of_toNat_eq (by simp only [fOff47, BitVec.toNat_ofNat]; omega)
    have h5 : fOs w = os.code := (eReg_fOs hw hk).trans (by omega)
    have h6 : bits w 24 3 = 2 := (eReg_bits_24_3 hw hk).trans (by omega)
    have h7 : bits w 27 2 = 0 := (eReg_bits_27_2 hw hk).trans (by omega)
    have h8 : w % 4 = 2 := (eReg_4 hw hk).trans rfl
    have h9 : x1 / 2 ^ 47 = 0 := by omega
    refine ⟨eReg_lt hw hk, by omega, hy ▸ lt_lit rfl, ?_⟩
    rw [decode_13 h0]
    simp only [decStore2, decStore, chk, h1, h2, h3, h4, h5, h6, h7, h8, h9, osOf_code] <;>
      simp <;> omega

theorem swExt (s : XReg) (a : XReg) (off : BitVec 47) (os : Os) : Statement (.swExt s a off os) :=
  of_words rfl fun w x1 x2 hw hx hy hwf => by
    have b_os := Os.code_lt os
    have n_os := Os.code_of_storeOk hwf
    have hk : RegOk 2 13 s.val a.val 0 (os.code % 2 + 2 * 4) (os.code / 2) := ⟨lt_lit rfl, lt_lit rfl, s.isLt, a.isLt, lt_lit rfl, by omega, by omega⟩
    have h0 : bits w 2 6 = 13 := (eReg_bits_2_6 hw hk).trans rfl
    have h1 : fRd w = s := (eReg_fRd hw hk).trans (fin_ofNat _)
    have h2 : fRs1 w = a := (eReg_fRs1 hw hk).trans (fin_ofNat _)
    have h3 : fRs2 w = 0 := (eReg_fRs2 hw hk).trans rfl
    have h4 : fOff47 x1 = off := BitVec.eq_of_toNat_eq (by simp only [fOff47, BitVec.toNat_ofNat]; omega)
    have h5 : fOs w = os.code := (eReg_fOs hw hk).trans (by omega)
    have h6 : bits w 24 3 = 4 := (eReg_bits_24_3 hw hk).trans (by omega)
    have h7 : bits w 27 2 = 0 := (eReg_bits_27_2 hw hk).trans (by omega)
    have h8 : w % 4 = 2 := (eReg_4 hw hk).trans rfl
    have h9 : x1 / 2 ^ 47 = 0 := by omega
    refine ⟨eReg_lt hw hk, by omega, hy ▸ lt_lit rfl, ?_⟩
    rw [decode_13 h0]
    simp only [decStore2, decStore, chk, h1, h2, h3, h4, h5, h6, h7, h8, h9, osOf_code] <;>
      simp <;> omega

theorem sdExt (s : XReg) (a : XReg) (off : BitVec 47) (os : Os) : Statement (.sdExt s a off os) :=
  of_words rfl fun w x1 x2 hw hx hy hwf => by
    have b_os := Os.code_lt os
    have n_os := Os.code_of_storeOk hwf
    have hk : RegOk 2 13 s.val a.val 0 (os.code % 2 + 2 * 6) (os.code / 2) := ⟨lt_lit rfl, lt_lit rfl, s.isLt, a.isLt, lt_lit rfl, by omega, by omega⟩
    have h0 : bits w 2 6 = 13 := (eReg_bits_2_6 hw hk).trans rfl
    have h1 : fRd w = s := (eReg_fRd hw hk).trans (fin_ofNat _)
    have h2 : fRs1 w = a := (eReg_fRs1 hw hk).trans (fin_ofNat _)
    have h3 : fRs2 w = 0 := (eReg_fRs2 hw hk).trans rfl
    have h4 : fOff47 x1 = off := BitVec.eq_of_toNat_eq (by simp only [fOff47, BitVec.toNat_ofNat]; omega)
    have h5 : fOs w = os.code := (eReg_fOs hw hk).trans (by omega)
    have h6 : bits w 24 3 = 6 := (eReg_bits_24_3 hw hk).trans (by omega)
    have h7 : bits w 27 2 = 0 := (eReg_bits_27_2 hw hk).trans (by omega)
    have h8 : w % 4 = 2 := (eReg_4 hw hk).trans rfl
    have h9 : x1 / 2 ^ 47 = 0 := by omega
    refine ⟨eReg_lt hw hk, by omega, hy ▸ lt_lit rfl, ?_⟩
    rw [decode_13 h0]
    simp only [decStore2, decStore, chk, h1, h2, h3, h4, h5, h6, h7, h8, h9, osOf_code] <;>
      simp <;> omega

theorem pstoreExt (s : XReg) (a : XReg) (off : BitVec 47) : Statement (.pstoreExt s a off) :=
  of_words rfl fun w x1 x2 hw hx hy hwf => by
    have hk : RegOk 2 13 s.val a.val 0 14 0 := ⟨lt_lit rfl, lt_lit rfl, s.isLt, a.isLt, lt_lit rfl, lt_lit rfl, lt_lit rfl⟩
    have h0 : bits w 2 6 = 13 := (eReg_bits_2_6 hw hk).trans rfl
    have h1 : fRd w = s := (eReg_fRd hw hk).trans (fin_ofNat _)
    have h2 : fRs1 w = a := (eReg_fRs1 hw hk).trans (fin_ofNat _)
    have h3 : fRs2 w = 0 := (eReg_fRs2 hw hk).trans rfl
    have h4 : fOff47 x1 = off := BitVec.eq_of_toNat_eq (by simp only [fOff47, BitVec.toNat_ofNat]; omega)
    have h5 : fOs w = 0 := (eReg_fOs hw hk).trans rfl
    have h6 : bits w 24 3 = 7 := (eReg_bits_24_3 hw hk).trans rfl
    have h7 : bits w 27 2 = 0 := (eReg_bits_27_2 hw hk).trans rfl
    have h8 : w % 4 = 2 := (eReg_4 hw hk).trans rfl
    have h9 : x1 / 2 ^ 47 = 0 := by omega
    refine ⟨eReg_lt hw hk, by omega, hy ▸ lt_lit rfl, ?_⟩
    rw [decode_13 h0]
    simp only [decStore2, decStore, chk, h1, h2, h3, h4, h5, h6, h7, h8, h9] <;>
      simp <;> omega

theorem amoadd (d : XReg) (a : XReg) (b : XReg) (dbl : Bool) (os : Os) : Statement (.amoadd d a b dbl os) :=
  of_words rfl fun w x1 x2 hw hx hy hwf => by
    have b_dbl := b2n_lt dbl
    have b_os := Os.code_lt os
    have hk : RegOk 0 14 d.val a.val b.val (os.code % 2 + 2 * b2n dbl + 4 * 0) (os.code / 2) := ⟨lt_lit rfl, lt_lit rfl, d.isLt, a.isLt, b.isLt, by omega, by omega⟩
    have h0 : bits w 2 6 = 14 := (eReg_bits_2_6 hw hk).trans rfl
    have h1 : fRd w = d := (eReg_fRd hw hk).trans (fin_ofNat _)
    have h2 : fRs1 w = a := (eReg_fRs1 hw hk).trans (fin_ofNat _)
    have h3 : fRs2 w = b := (eReg_fRs2 hw hk).trans (fin_ofNat _)
    have h4 : fOs w = os.code := (eReg_fOs hw hk).trans (by omega)
    have h5 : bits w 25 4 = 0 := (eReg_bits_25_4 hw hk).trans (by omega)
    have h6 : bit w 24 = dbl := (eReg_bit_24 hw hk).trans (beq_b2n (by omega))
    have h7 : w % 4 = 0 := (eReg_4 hw hk).trans rfl
    refine ⟨eReg_lt hw hk, hx ▸ lt_lit rfl, hy ▸ lt_lit rfl, ?_⟩
    rw [decode_14 h0]
    simp only [decAtomic, chk, only00, h1, h2, h3, h4, h5, h6, h7, osOf_code] <;>
      simp <;> omega

theorem amoand (d : XReg) (a : XReg) (b : XReg) (dbl : Bool) (os : Os) : Statement (.amoand d a b dbl os) :=
  of_words rfl fun w x1 x2 hw hx hy hwf => by
    have b_dbl := b2n_lt dbl
    have b_os := Os.code_lt os
    have hk : RegOk 0 14 d.val a.val b.val (os.code % 2 + 2 * b2n dbl + 4 * 1) (os.code / 2) := ⟨lt_lit rfl, lt_lit rfl, d.isLt, a.isLt, b.isLt, by omega, by omega⟩
    have h0 : bits w 2 6 = 14 := (eReg_bits_2_6 hw hk).trans rfl
    have h1 : fRd w = d := (eReg_fRd hw hk).trans (fin_ofNat _)
    have h2 : fRs1 w = a := (eReg_fRs1 hw hk).trans (fin_ofNat _)
    have h3 : fRs2 w = b := (eReg_fRs2 hw hk).trans (fin_ofNat _)
    have h4 : fOs w = os.code := (eReg_fOs hw hk).trans (by omega)
    have h5 : bits w 25 4 = 1 := (eReg_bits_25_4 hw hk).trans (by omega)
    have h6 : bit w 24 = dbl := (eReg_bit_24 hw hk).trans (beq_b2n (by omega))
    have h7 : w % 4 = 0 := (eReg_4 hw hk).trans rfl
    refine ⟨eReg_lt hw hk, hx ▸ lt_lit rfl, hy ▸ lt_lit rfl, ?_⟩
    rw [decode_14 h0]
    simp only [decAtomic, chk, only00, h1, h2, h3, h4, h5, h6, h7, osOf_code] <;>
      simp <;> omega

theorem amoor (d : XReg) (a : XReg) (b : XReg) (dbl : Bool) (os : Os) : Statement (.amoor d a b dbl os) :=
  of_words rfl fun w x1 x2 hw hx hy hwf => by
    have b_dbl := b2n_lt dbl
    have b_os := Os.code_lt os
    have hk : RegOk 0 14 d.val a.val b.val (os.code % 2 + 2 * b2n dbl + 4 * 2) (os.code / 2) := ⟨lt_lit rfl, lt_lit rfl, d.isLt, a.isLt, b.isLt, by omega, by omega⟩
    have h0 : bits w 2 6 = 14 := (eReg_bits_2_6 hw hk).trans rfl
    have h1 : fRd w = d := (eReg_fRd hw hk).trans (fin_ofNat _)
    have h2 : fRs1 w = a := (eReg_fRs1 hw hk).trans (fin_ofNat _)
    have h3 : fRs2 w = b := (eReg_fRs2 hw hk).trans (fin_ofNat _)
    have h4 : fOs w = os.code := (eReg_fOs hw hk).trans (by omega)
    have h5 : bits w 25 4 = 2 := (eReg_bits_25_4 hw hk).trans (by omega)
    have h6 : bit w 24 = dbl := (eReg_bit_24 hw hk).trans (beq_b2n (by omega))
    have h7 : w % 4 = 0 := (eReg_4 hw hk).trans rfl
    refine ⟨eReg_lt hw hk, hx ▸ lt_lit rfl, hy ▸ lt_lit rfl, ?_⟩
    rw [decode_14 h0]
    simp only [decAtomic, chk, only00, h1, h2, h3, h4, h5, h6, h7, osOf_code] <;>
      simp <;> omega

theorem amoxor (d : XReg) (a : XReg) (b : XReg) (dbl : Bool) (os : Os) : Statement (.amoxor d a b dbl os) :=
  of_words rfl fun w x1 x2 hw hx hy hwf => by
    have b_dbl := b2n_lt dbl
    have b_os := Os.code_lt os
    have hk : RegOk 0 14 d.val a.val b.val (os.code % 2 + 2 * b2n dbl + 4 * 3) (os.code / 2) := ⟨lt_lit rfl, lt_lit rfl, d.isLt, a.isLt, b.isLt, by omega, by omega⟩
    have h0 : bits w 2 6 = 14 := (eReg_bits_2_6 hw hk).trans rfl
    have h1 : fRd w = d := (eReg_fRd hw hk).trans (fin_ofNat _)
    have h2 : fRs1 w = a := (eReg_fRs1 hw hk).trans (fin_ofNat _)
    have h3 : fRs2 w = b := (eReg_fRs2 hw hk).trans (fin_ofNat _)
    have h4 : fOs w = os.code := (eReg_fOs hw hk).trans (by omega)
    have h5 : bits w 25 4 = 3 := (eReg_bits_25_4 hw hk).trans (by omega)
    have h6 : bit w 24 = dbl := (eReg_bit_24 hw hk).trans (beq_b2n (by omega))
    have h7 : w % 4 = 0 := (eReg_4 hw hk).trans rfl
    refine ⟨eReg_lt hw hk, hx ▸ lt_lit rfl, hy ▸ lt_lit rfl, ?_⟩
    rw [decode_14 h0]
    simp only [decAtomic, chk, only00, h1, h2, h3, h4, h5, h6, h7, osOf_code] <;>
      simp <;> omega

theorem amomin (d : XReg) (a : XReg) (b : XReg) (dbl : Bool) (os : Os) : Statement (.amomin d a b dbl os) :=
  of_words rfl fun w x1 x2 hw hx hy hwf => by
    have b_dbl := b2n_lt dbl
    have b_os := Os.code_lt os
    have hk : RegOk 0 14 d.val a.val b.val (os.code % 2 + 2 * b2n dbl + 4 * 4) (os.code / 2) := ⟨lt_lit rfl, lt_lit rfl, d.isLt, a.isLt, b.isLt, by omega, by omega⟩
    have h0 : bits w 2 6 = 14 := (eReg_bits_2_6 hw hk).trans rfl
    have h1 : fRd w = d := (eReg_fRd hw hk).trans (fin_ofNat _)
    have h2 : fRs1 w = a := (eReg_fRs1 hw hk).trans (fin_ofNat _)
    have h3 : fRs2 w = b := (eReg_fRs2 hw hk).trans (fin_ofNat _)
    have h4 : fOs w = os.code := (eReg_fOs hw hk).trans (by omega)
    have h5 : bits w 25 4 = 4 := (eReg_bits_25_4 hw hk).trans (by omega)
    have h6 : bit w 24 = dbl := (eReg_bit_24 hw hk).trans (beq_b2n (by omega))
    have h7 : w % 4 = 0 := (eReg_4 hw hk).trans rfl
    refine ⟨eReg_lt hw hk, hx ▸ lt_lit rfl, hy ▸ lt_lit rfl, ?_⟩
    rw [decode_14 h0]
    simp only [decAtomic, chk, only00, h1, h2, h3, h4, h5, h6, h7, osOf_code] <;>
      simp <;> omega

theorem amomax (d : XReg) (a : XReg) (b : XReg) (dbl : Bool) (os : Os) : Statement (.amomax d a b dbl os) :=
  of_words rfl fun w x1 x2 hw hx hy hwf => by
    have b_dbl := b2n_lt dbl
    have b_os := Os.code_lt os
    have hk : RegOk 0 14 d.val a.val b.val (os.code % 2 + 2 * b2n dbl + 4 * 5) (os.code / 2) := ⟨lt_lit rfl, lt_lit rfl, d.isLt, a.isLt, b.isLt, by omega, by omega⟩
    have h0 : bits w 2 6 = 14 := (eReg_bits_2_6 hw hk).trans rfl
    have h1 : fRd w = d := (eReg_fRd hw hk).trans (fin_ofNat _)
    have h2 : fRs1 w = a := (eReg_fRs1 hw hk).trans (fin_ofNat _)
    have h3 : fRs2 w = b := (eReg_fRs2 hw hk).trans (fin_ofNat _)
    have h4 : fOs w = os.code := (eReg_fOs hw hk).trans (by omega)
    have h5 : bits w 25 4 = 5 := (eReg_bits_25_4 hw hk).trans (by omega)
    have h6 : bit w 24 = dbl := (eReg_bit_24 hw hk).trans (beq_b2n (by omega))
    have h7 : w % 4 = 0 := (eReg_4 hw hk).trans rfl
    refine ⟨eReg_lt hw hk, hx ▸ lt_lit rfl, hy ▸ lt_lit rfl, ?_⟩
    rw [decode_14 h0]
    simp only [decAtomic, chk, only00, h1, h2, h3, h4, h5, h6, h7, osOf_code] <;>
      simp <;> omega

theorem amominu (d : XReg) (a : XReg) (b : XReg) (dbl : Bool) (os : Os) : Statement (.amominu d a b dbl os) :=
  of_words rfl fun w x1 x2 hw hx hy hwf => by
    have b_dbl := b2n_lt dbl
    have b_os := Os.code_lt os
    have hk : RegOk 0 14 d.val a.val b.val (os.code % 2 + 2 * b2n dbl + 4 * 6) (os.code / 2) := ⟨lt_lit rfl, lt_lit rfl, d.isLt, a.isLt, b.isLt, by omega, by omega⟩
    have h0 : bits w 2 6 = 14 := (eReg_bits_2_6 hw hk).trans rfl
    have h1 : fRd w = d := (eReg_fRd hw hk).trans (fin_ofNat _)
    have h2 : fRs1 w = a := (eReg_fRs1 hw hk).trans (fin_ofNat _)
    have h3 : fRs2 w = b := (eReg_fRs2 hw hk).trans (fin_ofNat _)
    have h4 : fOs w = os.code := (eReg_fOs hw hk).trans (by omega)
    have h5 : bits w 25 4 = 6 := (eReg_bits_25_4 hw hk).trans (by omega)
    have h6 : bit w 24 = dbl := (eReg_bit_24 hw hk).trans (beq_b2n (by omega))
    have h7 : w % 4 = 0 := (eReg_4 hw hk).trans rfl
    refine ⟨eReg_lt hw hk, hx ▸ lt_lit rfl, hy ▸ lt_lit rfl, ?_⟩
    rw [decode_14 h0]
    simp only [decAtomic, chk, only00, h1, h2, h3, h4, h5, h6, h7, osOf_code] <;>
      simp <;> omega

theorem amomaxu (d : XReg) (a : XReg) (b : XReg) (dbl : Bool) (os : Os) : Statement (.amomaxu d a b dbl os) :=
  of_words rfl fun w x1 x2 hw hx hy hwf => by
    have b_dbl := b2n_lt dbl
    have b_os := Os.code_lt os
    have hk : RegOk 0 14 d.val a.val b.val (os.code % 2 + 2 * b2n dbl + 4 * 7) (os.code / 2) := ⟨lt_lit rfl, lt_lit rfl, d.isLt, a.isLt, b.isLt, by omega, by omega⟩
    have h0 : bits w 2 6 = 14 := (eReg_bits_2_6 hw hk).trans rfl
    have h1 : fRd w = d := (eReg_fRd hw hk).trans (fin_ofNat _)
    have h2 : fRs1 w = a := (eReg_fRs1 hw hk).trans (fin_ofNat _)
    have h3 : fRs2 w = b := (eReg_fRs2 hw hk).trans (fin_ofNat _)
    have h4 : fOs w = os.code := (eReg_fOs hw hk).trans (by omega)
    have h5 : bits w 25 4 = 7 := (eReg_bits_25_4 hw hk).trans (by omega)
    have h6 : bit w 24 = dbl := (eReg_bit_24 hw hk).trans (beq_b2n (by omega))
    have h7 : w % 4 = 0 := (eReg_4 hw hk).trans rfl
    refine ⟨eReg_lt hw hk, hx ▸ lt_lit rfl, hy ▸ lt_lit rfl, ?_⟩
    rw [decode_14 h0]
    simp only [decAtomic, chk, only00, h1, h2, h3, h4, h5, h6, h7, osOf_code] <;>
      simp <;> omega

theorem amoswap (d : XReg) (a : XReg) (b : XReg) (dbl : Bool) (os : Os) : Statement (.amoswap d a b dbl os) :=
  of_words rfl fun w x1 x2 hw hx hy hwf => by
    have b_dbl := b2n_lt dbl
    have b_os := Os.code_lt os
    have hk : RegOk 0 14 d.val a.val b.val (os.code % 2 + 2 * b2n dbl + 4 * 8) (os.code / 2) := ⟨lt_lit rfl, lt_lit rfl, d.isLt, a.isLt, b.isLt, by omega, by omega⟩
    have h0 : bits w 2 6 = 14 := (eReg_bits_2_6 hw hk).trans rfl
    have h1 : fRd w = d := (eReg_fRd hw hk).trans (fin_ofNat _)
    have h2 : fRs1 w = a := (eReg_fRs1 hw hk).trans (fin_ofNat _)
    have h3 : fRs2 w = b := (eReg_fRs2 hw hk).trans (fin_ofNat _)
    have h4 : fOs w = os.code := (eReg_fOs hw hk).trans (by omega)
    have h5 : bits w 25 4 = 8 := (eReg_bits_25_4 hw hk).trans (by omega)
    have h6 : bit w 24 = dbl := (eReg_bit_24 hw hk).trans (beq_b2n (by omega))
    have h7 : w % 4 = 0 := (eReg_4 hw hk).trans rfl
    refine ⟨eReg_lt hw hk, hx ▸ lt_lit rfl, hy ▸ lt_lit rfl, ?_⟩
    rw [decode_14 h0]
    simp only [decAtomic, chk, only00, h1, h2, h3, h4, h5, h6, h7, osOf_code] <;>
      simp <;> omega

theorem amocas (d : XReg) (a : XReg) (b : XReg) (dbl : Bool) (os : Os) : Statement (.amocas d a b dbl os) :=
  of_words rfl fun w x1 x2 hw hx hy hwf => by
    have b_dbl := b2n_lt dbl
    have b_os := Os.code_lt os
    have hk : RegOk 0 14 d.val a.val b.val (os.code % 2 + 2 * b2n dbl + 4 * 9) (os.code / 2) := ⟨lt_lit rfl, lt_lit rfl, d.isLt, a.isLt, b.isLt, by omega, by omega⟩
    have h0 : bits w 2 6 = 14 := (eReg_bits_2_6 hw hk).trans rfl
    have h1 : fRd w = d := (eReg_fRd hw hk).trans (fin_ofNat _)
    have h2 : fRs1 w = a := (eReg_fRs1 hw hk).trans (fin_ofNat _)
    have h3 : fRs2 w = b := (eReg_fRs2 hw hk).trans (fin_ofNat _)
    have h4 : fOs w = os.code := (eReg_fOs hw hk).trans (by omega)
    have h5 : bits w 25 4 = 9 := (eReg_bits_25_4 hw hk).trans (by omega)
    have h6 : bit w 24 = dbl := (eReg_bit_24 hw hk).trans (beq_b2n (by omega))
    have h7 : w % 4 = 0 := (eReg_4 hw hk).trans rfl
    refine ⟨eReg_lt hw hk, hx ▸ lt_lit rfl, hy ▸ lt_lit rfl, ?_⟩
    rw [decode_14 h0]
    simp only [decAtomic, chk, only00, h1, h2, h3, h4, h5, h6, h7, osOf_code] <;>
      simp <;> omega

theorem amofadd (d : XReg) (a : XReg) (b : XReg) (dbl : Bool) (os : Os) : Statement (.amofadd d a b dbl os) :=
  of_words rfl fun w x1 x2 hw hx hy hwf => by
    have b_dbl := b2n_lt dbl
    have b_os := Os.code_lt os
    have hk : RegOk 0 14 d.val a.val b.val (os.code % 2 + 2 * b2n dbl + 4 * 10) (os.code / 2) := ⟨lt_lit rfl, lt_lit rfl, d.isLt, a.isLt, b.isLt, by omega, by omega⟩
    have h0 : bits w 2 6 = 14 := (eReg_bits_2_6 hw hk).trans rfl
    have h1 : fRd w = d := (eReg_fRd hw hk).trans (fin_ofNat _)
    have h2 : fRs1 w = a := (eReg_fRs1 hw hk).trans (fin_ofNat _)
    have h3 : fRs2 w = b := (eReg_fRs2 hw hk).trans (fin_ofNat _)
    have h4 : fOs w = os.code := (eReg_fOs hw hk).trans (by omega)
    have h5 : bits w 25 4 = 10 := (eReg_bits_25_4 hw hk).trans (by omega)
    have h6 : bit w 24 = dbl := (eReg_bit_24 hw hk).trans (beq_b2n (by omega))
    have h7 : w % 4 = 0 := (eReg_4 hw hk).trans rfl
    refine ⟨eReg_lt hw hk, hx ▸ lt_lit rfl, hy ▸ lt_lit rfl, ?_⟩
    rw [decode_14 h0]
    simp only [decAtomic, chk, only00, h1, h2, h3, h4, h5, h6, h7, osOf_code] <;>
      simp <;> omega

theorem abump (d : XReg) (a : XReg) (b : XReg) (os : Os) : Statement (.abump d a b os) :=
  of_words rfl fun w x1 x2 hw hx hy hwf => by
    have b_os := Os.code_lt os
    have hk : RegOk 0 14 d.val a.val b.val (os.code % 2 + 2 * 1 + 4 * 11) (os.code / 2) := ⟨lt_lit rfl, lt_lit rfl, d.isLt, a.isLt, b.isLt, by omega, by omega⟩
    have h0 : bits w 2 6 = 14 := (eReg_bits_2_6 hw hk).trans rfl
    have h1 : fRd w = d := (eReg_fRd hw hk).trans (fin_ofNat _)
    have h2 : fRs1 w = a := (eReg_fRs1 hw hk).trans (fin_ofNat _)
    have h3 : fRs2 w = b := (eReg_fRs2 hw hk).trans (fin_ofNat _)
    have h4 : fOs w = os.code := (eReg_fOs hw hk).trans (by omega)
    have h5 : bits w 25 4 = 11 := (eReg_bits_25_4 hw hk).trans (by omega)
    have h6 : bit w 24 = true := (eReg_bit_24 hw hk).trans (beq_true (by omega))
    have h7 : w % 4 = 0 := (eReg_4 hw hk).trans rfl
    refine ⟨eReg_lt hw hk, hx ▸ lt_lit rfl, hy ▸ lt_lit rfl, ?_⟩
    rw [decode_14 h0]
    simp only [decAtomic, chk, only00, h1, h2, h3, h4, h5, h6, h7, osOf_code] <;>
      simp <;> omega

theorem fence (sc : Scope) (k : FenceKind) : Statement (.fence sc k) :=
  of_words rfl fun w x1 x2 hw hx hy hwf => by
    have b_sc := Scope.code_lt sc
    have b_k := FenceKind.code_lt k
    have hk : RegOk 0 15 (k.code + 4 * (sc.code + 1)) 0 0 0 0 := ⟨lt_lit rfl, lt_lit rfl, by omega, lt_lit rfl, lt_lit rfl, lt_lit rfl, lt_lit rfl⟩
    have h0 : bits w 2 6 = 15 := (eReg_bits_2_6 hw hk).trans rfl
    have h1 : fFn w = 0 := (eReg_fFn hw hk).trans rfl
    have h2 : fOpt w = 0 := (eReg_fOpt hw hk).trans rfl
    have h3 : bits w 13 10 = 0 := (eReg_bits_13_10 hw hk).trans rfl
    have h4 : bits w 10 3 = (sc.code + 1) := (eReg_bits_10_3 hw hk).trans (by omega)
    have h5 : bits w 8 2 = k.code := (eReg_bits_8_2 hw hk).trans (by omega)
    have h6 : w % 4 = 0 := (eReg_4 hw hk).trans rfl
    refine ⟨eReg_lt hw hk, hx ▸ lt_lit rfl, hy ▸ lt_lit rfl, ?_⟩
    rw [decode_15 h0]
    simp only [decFence, chk, only00, badScope, h1, h2, h3, h4, h5, h6, kindOf_code, scopeOf_code] <;>
      simp <;> omega

theorem fencex (sc : Scope) (k : FenceKind) (p1 : Path) (p2 : Path) : Statement (.fencex sc k p1 p2) :=
  of_words rfl fun w x1 x2 hw hx hy hwf => by
    have b_sc := Scope.code_lt sc
    have b_k := FenceKind.code_lt k
    have b_p1 := Path.code_lt p1
    have b_p2 := Path.code_lt p2
    have n_p := Path.code_ne hwf
    have hk : RegOk 0 15 (k.code + 4 * (sc.code + 1)) p1.code p2.code 1 0 := ⟨lt_lit rfl, lt_lit rfl, by omega, by omega, by omega, lt_lit rfl, lt_lit rfl⟩
    have h0 : bits w 2 6 = 15 := (eReg_bits_2_6 hw hk).trans rfl
    have h1 : fFn w = 1 := (eReg_fFn hw hk).trans rfl
    have h2 : fOpt w = 0 := (eReg_fOpt hw hk).trans rfl
    have h3 : bits w 16 2 = 0 := (eReg_bits_16_2 hw hk).trans (by omega)
    have h4 : bits w 21 2 = 0 := (eReg_bits_21_2 hw hk).trans (by omega)
    have h5 : bits w 10 3 = (sc.code + 1) := (eReg_bits_10_3 hw hk).trans (by omega)
    have h6 : bits w 13 3 = p1.code := (eReg_bits_13_3 hw hk).trans (by omega)
    have h7 : bits w 18 3 = p2.code := (eReg_bits_18_3 hw hk).trans (by omega)
    have h8 : bits w 8 2 = k.code := (eReg_bits_8_2 hw hk).trans (by omega)
    have h9 : w % 4 = 0 := (eReg_4 hw hk).trans rfl
    refine ⟨eReg_lt hw hk, hx ▸ lt_lit rfl, hy ▸ lt_lit rfl, ?_⟩
    rw [decode_15 h0]
    simp only [decFence, chk, only00, badScope, h1, h2, h3, h4, h5, h6, h7, h8, h9, kindOf_code, pathOf_code, scopeOf_code] <;>
      simp <;> omega

theorem ifence : Statement .ifence :=
  of_words rfl fun w x1 x2 hw hx hy hwf => by
    have hk : RegOk 0 15 0 0 0 2 0 := ⟨lt_lit rfl, lt_lit rfl, lt_lit rfl, lt_lit rfl, lt_lit rfl, lt_lit rfl, lt_lit rfl⟩
    have h0 : bits w 2 6 = 15 := (eReg_bits_2_6 hw hk).trans rfl
    have h1 : fFn w = 2 := (eReg_fFn hw hk).trans rfl
    have h2 : fOpt w = 0 := (eReg_fOpt hw hk).trans rfl
    have h3 : bits w 8 15 = 0 := (eReg_bits_8_15 hw hk).trans rfl
    have h4 : w % 4 = 0 := (eReg_4 hw hk).trans rfl
    refine ⟨eReg_lt hw hk, hx ▸ lt_lit rfl, hy ▸ lt_lit rfl, ?_⟩
    rw [decode_15 h0]
    simp only [decFence, chk, only00, h1, h2, h3, h4] <;>
      simp <;> omega

theorem fadd (p : Prec) (rm : Rm) (d : XReg) (a : XReg) (b : XReg) : Statement (.fadd p rm d a b) :=
  of_words rfl fun w x1 x2 hw hx hy hwf => by
    have b_p := Prec.code_lt p
    have b_rm := Rm.code_lt rm
    have hk : RegOk 0 16 d.val a.val b.val (p.code + 4 * 0) rm.code := ⟨lt_lit rfl, lt_lit rfl, d.isLt, a.isLt, b.isLt, by omega, by omega⟩
    have h0 : bits w 2 6 = 16 := (eReg_bits_2_6 hw hk).trans rfl
    have h1 : fRd w = d := (eReg_fRd hw hk).trans (fin_ofNat _)
    have h2 : fRs1 w = a := (eReg_fRs1 hw hk).trans (fin_ofNat _)
    have h3 : fRs2 w = b := (eReg_fRs2 hw hk).trans (fin_ofNat _)
    have h4 : fOpt w = rm.code := eReg_fOpt hw hk
    have h5 : bits w 25 4 = 0 := (eReg_bits_25_4 hw hk).trans (by omega)
    have h6 : bits w 23 2 = p.code := (eReg_bits_23_2 hw hk).trans (by omega)
    have h7 : w % 4 = 0 := (eReg_4 hw hk).trans rfl
    refine ⟨eReg_lt hw hk, hx ▸ lt_lit rfl, hy ▸ lt_lit rfl, ?_⟩
    rw [decode_16 h0]
    simp only [decFp, chk, only00, h1, h2, h3, h4, h5, h6, h7, precOf_code, rmOf_code] <;>
      simp <;> omega

theorem fsub (p : Prec) (rm : Rm) (d : XReg) (a : XReg) (b : XReg) : Statement (.fsub p rm d a b) :=
  of_words rfl fun w x1 x2 hw hx hy hwf => by
    have b_p := Prec.code_lt p
    have b_rm := Rm.code_lt rm
    have hk : RegOk 0 16 d.val a.val b.val (p.code + 4 * 1) rm.code := ⟨lt_lit rfl, lt_lit rfl, d.isLt, a.isLt, b.isLt, by omega, by omega⟩
    have h0 : bits w 2 6 = 16 := (eReg_bits_2_6 hw hk).trans rfl
    have h1 : fRd w = d := (eReg_fRd hw hk).trans (fin_ofNat _)
    have h2 : fRs1 w = a := (eReg_fRs1 hw hk).trans (fin_ofNat _)
    have h3 : fRs2 w = b := (eReg_fRs2 hw hk).trans (fin_ofNat _)
    have h4 : fOpt w = rm.code := eReg_fOpt hw hk
    have h5 : bits w 25 4 = 1 := (eReg_bits_25_4 hw hk).trans (by omega)
    have h6 : bits w 23 2 = p.code := (eReg_bits_23_2 hw hk).trans (by omega)
    have h7 : w % 4 = 0 := (eReg_4 hw hk).trans rfl
    refine ⟨eReg_lt hw hk, hx ▸ lt_lit rfl, hy ▸ lt_lit rfl, ?_⟩
    rw [decode_16 h0]
    simp only [decFp, chk, only00, h1, h2, h3, h4, h5, h6, h7, precOf_code, rmOf_code] <;>
      simp <;> omega

theorem fmul (p : Prec) (rm : Rm) (d : XReg) (a : XReg) (b : XReg) : Statement (.fmul p rm d a b) :=
  of_words rfl fun w x1 x2 hw hx hy hwf => by
    have b_p := Prec.code_lt p
    have b_rm := Rm.code_lt rm
    have hk : RegOk 0 16 d.val a.val b.val (p.code + 4 * 2) rm.code := ⟨lt_lit rfl, lt_lit rfl, d.isLt, a.isLt, b.isLt, by omega, by omega⟩
    have h0 : bits w 2 6 = 16 := (eReg_bits_2_6 hw hk).trans rfl
    have h1 : fRd w = d := (eReg_fRd hw hk).trans (fin_ofNat _)
    have h2 : fRs1 w = a := (eReg_fRs1 hw hk).trans (fin_ofNat _)
    have h3 : fRs2 w = b := (eReg_fRs2 hw hk).trans (fin_ofNat _)
    have h4 : fOpt w = rm.code := eReg_fOpt hw hk
    have h5 : bits w 25 4 = 2 := (eReg_bits_25_4 hw hk).trans (by omega)
    have h6 : bits w 23 2 = p.code := (eReg_bits_23_2 hw hk).trans (by omega)
    have h7 : w % 4 = 0 := (eReg_4 hw hk).trans rfl
    refine ⟨eReg_lt hw hk, hx ▸ lt_lit rfl, hy ▸ lt_lit rfl, ?_⟩
    rw [decode_16 h0]
    simp only [decFp, chk, only00, h1, h2, h3, h4, h5, h6, h7, precOf_code, rmOf_code] <;>
      simp <;> omega

theorem fdiv (p : Prec) (rm : Rm) (d : XReg) (a : XReg) (b : XReg) : Statement (.fdiv p rm d a b) :=
  of_words rfl fun w x1 x2 hw hx hy hwf => by
    have b_p := Prec.code_lt p
    have b_rm := Rm.code_lt rm
    have hk : RegOk 0 16 d.val a.val b.val (p.code + 4 * 3) rm.code := ⟨lt_lit rfl, lt_lit rfl, d.isLt, a.isLt, b.isLt, by omega, by omega⟩
    have h0 : bits w 2 6 = 16 := (eReg_bits_2_6 hw hk).trans rfl
    have h1 : fRd w = d := (eReg_fRd hw hk).trans (fin_ofNat _)
    have h2 : fRs1 w = a := (eReg_fRs1 hw hk).trans (fin_ofNat _)
    have h3 : fRs2 w = b := (eReg_fRs2 hw hk).trans (fin_ofNat _)
    have h4 : fOpt w = rm.code := eReg_fOpt hw hk
    have h5 : bits w 25 4 = 3 := (eReg_bits_25_4 hw hk).trans (by omega)
    have h6 : bits w 23 2 = p.code := (eReg_bits_23_2 hw hk).trans (by omega)
    have h7 : w % 4 = 0 := (eReg_4 hw hk).trans rfl
    refine ⟨eReg_lt hw hk, hx ▸ lt_lit rfl, hy ▸ lt_lit rfl, ?_⟩
    rw [decode_16 h0]
    simp only [decFp, chk, only00, h1, h2, h3, h4, h5, h6, h7, precOf_code, rmOf_code] <;>
      simp <;> omega

theorem fsqrt (p : Prec) (rm : Rm) (d : XReg) (a : XReg) : Statement (.fsqrt p rm d a) :=
  of_words rfl fun w x1 x2 hw hx hy hwf => by
    have b_p := Prec.code_lt p
    have b_rm := Rm.code_lt rm
    have hk : RegOk 0 16 d.val a.val 0 (p.code + 4 * 4) rm.code := ⟨lt_lit rfl, lt_lit rfl, d.isLt, a.isLt, lt_lit rfl, by omega, by omega⟩
    have h0 : bits w 2 6 = 16 := (eReg_bits_2_6 hw hk).trans rfl
    have h1 : fRd w = d := (eReg_fRd hw hk).trans (fin_ofNat _)
    have h2 : fRs1 w = a := (eReg_fRs1 hw hk).trans (fin_ofNat _)
    have h3 : fRs2 w = 0 := (eReg_fRs2 hw hk).trans rfl
    have h4 : fOpt w = rm.code := eReg_fOpt hw hk
    have h5 : bits w 25 4 = 4 := (eReg_bits_25_4 hw hk).trans (by omega)
    have h6 : bits w 23 2 = p.code := (eReg_bits_23_2 hw hk).trans (by omega)
    have h7 : w % 4 = 0 := (eReg_4 hw hk).trans rfl
    refine ⟨eReg_lt hw hk, hx ▸ lt_lit rfl, hy ▸ lt_lit rfl, ?_⟩
    rw [decode_16 h0]
    simp only [decFp, chk, only00, h1, h2, h3, h4, h5, h6, h7, precOf_code, rmOf_code] <;>
      simp <;> omega

theorem fmin (p : Prec) (d : XReg) (a : XReg) (b : XReg) : Statement (.fmin p d a b) :=
  of_words rfl fun w x1 x2 hw hx hy hwf => by
    have b_p := Prec.code_lt p
    have hk : RegOk 0 16 d.val a.val b.val (p.code + 4 * 5) 0 := ⟨lt_lit rfl, lt_lit rfl, d.isLt, a.isLt, b.isLt, by omega, lt_lit rfl⟩
    have h0 : bits w 2 6 = 16 := (eReg_bits_2_6 hw hk).trans rfl
    have h1 : fRd w = d := (eReg_fRd hw hk).trans (fin_ofNat _)
    have h2 : fRs1 w = a := (eReg_fRs1 hw hk).trans (fin_ofNat _)
    have h3 : fRs2 w = b := (eReg_fRs2 hw hk).trans (fin_ofNat _)
    have h4 : fOpt w = 0 := (eReg_fOpt hw hk).trans rfl
    have h5 : bits w 25 4 = 5 := (eReg_bits_25_4 hw hk).trans (by omega)
    have h6 : bits w 23 2 = p.code := (eReg_bits_23_2 hw hk).trans (by omega)
    have h7 : w % 4 = 0 := (eReg_4 hw hk).trans rfl
    refine ⟨eReg_lt hw hk, hx ▸ lt_lit rfl, hy ▸ lt_lit rfl, ?_⟩
    rw [decode_16 h0]
    simp only [decFp, chk, only00, h1, h2, h3, h4, h5, h6, h7, precOf_code] <;>
      simp <;> omega

theorem fmax (p : Prec) (d : XReg) (a : XReg) (b : XReg) : Statement (.fmax p d a b) :=
  of_words rfl fun w x1 x2 hw hx hy hwf => by
    have b_p := Prec.code_lt p
    have hk : RegOk 0 16 d.val a.val b.val (p.code + 4 * 6) 0 := ⟨lt_lit rfl, lt_lit rfl, d.isLt, a.isLt, b.isLt, by omega, lt_lit rfl⟩
    have h0 : bits w 2 6 = 16 := (eReg_bits_2_6 hw hk).trans rfl
    have h1 : fRd w = d := (eReg_fRd hw hk).trans (fin_ofNat _)
    have h2 : fRs1 w = a := (eReg_fRs1 hw hk).trans (fin_ofNat _)
    have h3 : fRs2 w = b := (eReg_fRs2 hw hk).trans (fin_ofNat _)
    have h4 : fOpt w = 0 := (eReg_fOpt hw hk).trans rfl
    have h5 : bits w 25 4 = 6 := (eReg_bits_25_4 hw hk).trans (by omega)
    have h6 : bits w 23 2 = p.code := (eReg_bits_23_2 hw hk).trans (by omega)
    have h7 : w % 4 = 0 := (eReg_4 hw hk).trans rfl
    refine ⟨eReg_lt hw hk, hx ▸ lt_lit rfl, hy ▸ lt_lit rfl, ?_⟩
    rw [decode_16 h0]
    simp only [decFp, chk, only00, h1, h2, h3, h4, h5, h6, h7, precOf_code] <;>
      simp <;> omega

theorem feq (p : Prec) (d : XReg) (a : XReg) (b : XReg) : Statement (.feq p d a b) :=
  of_words rfl fun w x1 x2 hw hx hy hwf => by
    have b_p := Prec.code_lt p
    have hk : RegOk 0 16 d.val a.val b.val (p.code + 4 * 7) 0 := ⟨lt_lit rfl, lt_lit rfl, d.isLt, a.isLt, b.isLt, by omega, lt_lit rfl⟩
    have h0 : bits w 2 6 = 16 := (eReg_bits_2_6 hw hk).trans rfl
    have h1 : fRd w = d := (eReg_fRd hw hk).trans (fin_ofNat _)
    have h2 : fRs1 w = a := (eReg_fRs1 hw hk).trans (fin_ofNat _)
    have h3 : fRs2 w = b := (eReg_fRs2 hw hk).trans (fin_ofNat _)
    have h4 : fOpt w = 0 := (eReg_fOpt hw hk).trans rfl
    have h5 : bits w 25 4 = 7 := (eReg_bits_25_4 hw hk).trans (by omega)
    have h6 : bits w 23 2 = p.code := (eReg_bits_23_2 hw hk).trans (by omega)
    have h7 : w % 4 = 0 := (eReg_4 hw hk).trans rfl
    refine ⟨eReg_lt hw hk, hx ▸ lt_lit rfl, hy ▸ lt_lit rfl, ?_⟩
    rw [decode_16 h0]
    simp only [decFp, chk, only00, h1, h2, h3, h4, h5, h6, h7, precOf_code] <;>
      simp <;> omega

theorem flt (p : Prec) (d : XReg) (a : XReg) (b : XReg) : Statement (.flt p d a b) :=
  of_words rfl fun w x1 x2 hw hx hy hwf => by
    have b_p := Prec.code_lt p
    have hk : RegOk 0 16 d.val a.val b.val (p.code + 4 * 8) 0 := ⟨lt_lit rfl, lt_lit rfl, d.isLt, a.isLt, b.isLt, by omega, lt_lit rfl⟩
    have h0 : bits w 2 6 = 16 := (eReg_bits_2_6 hw hk).trans rfl
    have h1 : fRd w = d := (eReg_fRd hw hk).trans (fin_ofNat _)
    have h2 : fRs1 w = a := (eReg_fRs1 hw hk).trans (fin_ofNat _)
    have h3 : fRs2 w = b := (eReg_fRs2 hw hk).trans (fin_ofNat _)
    have h4 : fOpt w = 0 := (eReg_fOpt hw hk).trans rfl
    have h5 : bits w 25 4 = 8 := (eReg_bits_25_4 hw hk).trans (by omega)
    have h6 : bits w 23 2 = p.code := (eReg_bits_23_2 hw hk).trans (by omega)
    have h7 : w % 4 = 0 := (eReg_4 hw hk).trans rfl
    refine ⟨eReg_lt hw hk, hx ▸ lt_lit rfl, hy ▸ lt_lit rfl, ?_⟩
    rw [decode_16 h0]
    simp only [decFp, chk, only00, h1, h2, h3, h4, h5, h6, h7, precOf_code] <;>
      simp <;> omega

theorem fle (p : Prec) (d : XReg) (a : XReg) (b : XReg) : Statement (.fle p d a b) :=
  of_words rfl fun w x1 x2 hw hx hy hwf => by
    have b_p := Prec.code_lt p
    have hk : RegOk 0 16 d.val a.val b.val (p.code + 4 * 9) 0 := ⟨lt_lit rfl, lt_lit rfl, d.isLt, a.isLt, b.isLt, by omega, lt_lit rfl⟩
    have h0 : bits w 2 6 = 16 := (eReg_bits_2_6 hw hk).trans rfl
    have h1 : fRd w = d := (eReg_fRd hw hk).trans (fin_ofNat _)
    have h2 : fRs1 w = a := (eReg_fRs1 hw hk).trans (fin_ofNat _)
    have h3 : fRs2 w = b := (eReg_fRs2 hw hk).trans (fin_ofNat _)
    have h4 : fOpt w = 0 := (eReg_fOpt hw hk).trans rfl
    have h5 : bits w 25 4 = 9 := (eReg_bits_25_4 hw hk).trans (by omega)
    have h6 : bits w 23 2 = p.code := (eReg_bits_23_2 hw hk).trans (by omega)
    have h7 : w % 4 = 0 := (eReg_4 hw hk).trans rfl
    refine ⟨eReg_lt hw hk, hx ▸ lt_lit rfl, hy ▸ lt_lit rfl, ?_⟩
    rw [decode_16 h0]
    simp only [decFp, chk, only00, h1, h2, h3, h4, h5, h6, h7, precOf_code] <;>
      simp <;> omega

theorem fclass (p : Prec) (d : XReg) (a : XReg) : Statement (.fclass p d a) :=
  of_words rfl fun w x1 x2 hw hx hy hwf => by
    have b_p := Prec.code_lt p
    have hk : RegOk 0 16 d.val a.val 0 (p.code + 4 * 10) 0 := ⟨lt_lit rfl, lt_lit rfl, d.isLt, a.isLt, lt_lit rfl, by omega, lt_lit rfl⟩
    have h0 : bits w 2 6 = 16 := (eReg_bits_2_6 hw hk).trans rfl
    have h1 : fRd w = d := (eReg_fRd hw hk).trans (fin_ofNat _)
    have h2 : fRs1 w = a := (eReg_fRs1 hw hk).trans (fin_ofNat _)
    have h3 : fRs2 w = 0 := (eReg_fRs2 hw hk).trans rfl
    have h4 : fOpt w = 0 := (eReg_fOpt hw hk).trans rfl
    have h5 : bits w 25 4 = 10 := (eReg_bits_25_4 hw hk).trans (by omega)
    have h6 : bits w 23 2 = p.code := (eReg_bits_23_2 hw hk).trans (by omega)
    have h7 : w % 4 = 0 := (eReg_4 hw hk).trans rfl
    refine ⟨eReg_lt hw hk, hx ▸ lt_lit rfl, hy ▸ lt_lit rfl, ?_⟩
    rw [decode_16 h0]
    simp only [decFp, chk, only00, h1, h2, h3, h4, h5, h6, h7, precOf_code] <;>
      simp <;> omega

theorem fsgnj (p : Prec) (d : XReg) (a : XReg) (b : XReg) : Statement (.fsgnj p d a b) :=
  of_words rfl fun w x1 x2 hw hx hy hwf => by
    have b_p := Prec.code_lt p
    have hk : RegOk 0 16 d.val a.val b.val (p.code + 4 * 11) 0 := ⟨lt_lit rfl, lt_lit rfl, d.isLt, a.isLt, b.isLt, by omega, lt_lit rfl⟩
    have h0 : bits w 2 6 = 16 := (eReg_bits_2_6 hw hk).trans rfl
    have h1 : fRd w = d := (eReg_fRd hw hk).trans (fin_ofNat _)
    have h2 : fRs1 w = a := (eReg_fRs1 hw hk).trans (fin_ofNat _)
    have h3 : fRs2 w = b := (eReg_fRs2 hw hk).trans (fin_ofNat _)
    have h4 : fOpt w = 0 := (eReg_fOpt hw hk).trans rfl
    have h5 : bits w 25 4 = 11 := (eReg_bits_25_4 hw hk).trans (by omega)
    have h6 : bits w 23 2 = p.code := (eReg_bits_23_2 hw hk).trans (by omega)
    have h7 : w % 4 = 0 := (eReg_4 hw hk).trans rfl
    refine ⟨eReg_lt hw hk, hx ▸ lt_lit rfl, hy ▸ lt_lit rfl, ?_⟩
    rw [decode_16 h0]
    simp only [decFp, chk, only00, h1, h2, h3, h4, h5, h6, h7, precOf_code] <;>
      simp <;> omega

theorem fabs (p : Prec) (d : XReg) (a : XReg) : Statement (.fabs p d a) :=
  of_words rfl fun w x1 x2 hw hx hy hwf => by
    have b_p := Prec.code_lt p
    have hk : RegOk 0 16 d.val a.val 0 (p.code + 4 * 12) 0 := ⟨lt_lit rfl, lt_lit rfl, d.isLt, a.isLt, lt_lit rfl, by omega, lt_lit rfl⟩
    have h0 : bits w 2 6 = 16 := (eReg_bits_2_6 hw hk).trans rfl
    have h1 : fRd w = d := (eReg_fRd hw hk).trans (fin_ofNat _)
    have h2 : fRs1 w = a := (eReg_fRs1 hw hk).trans (fin_ofNat _)
    have h3 : fRs2 w = 0 := (eReg_fRs2 hw hk).trans rfl
    have h4 : fOpt w = 0 := (eReg_fOpt hw hk).trans rfl
    have h5 : bits w 25 4 = 12 := (eReg_bits_25_4 hw hk).trans (by omega)
    have h6 : bits w 23 2 = p.code := (eReg_bits_23_2 hw hk).trans (by omega)
    have h7 : w % 4 = 0 := (eReg_4 hw hk).trans rfl
    refine ⟨eReg_lt hw hk, hx ▸ lt_lit rfl, hy ▸ lt_lit rfl, ?_⟩
    rw [decode_16 h0]
    simp only [decFp, chk, only00, h1, h2, h3, h4, h5, h6, h7, precOf_code] <;>
      simp <;> omega

theorem fmac (p : Prec) (rm : Rm) (d : XReg) (a : XReg) (b : XReg) : Statement (.fmac p rm d a b) :=
  of_words rfl fun w x1 x2 hw hx hy hwf => by
    have b_p := Prec.code_lt p
    have b_rm := Rm.code_lt rm
    have hk : RegOk 0 17 d.val a.val b.val (p.code + 4 * 0) rm.code := ⟨lt_lit rfl, lt_lit rfl, d.isLt, a.isLt, b.isLt, by omega, by omega⟩
    have h0 : bits w 2 6 = 17 := (eReg_bits_2_6 hw hk).trans rfl
    have h1 : fRd w = d := (eReg_fRd hw hk).trans (fin_ofNat _)
    have h2 : fRs1 w = a := (eReg_fRs1 hw hk).trans (fin_ofNat _)
    have h3 : fRs2 w = b := (eReg_fRs2 hw hk).trans (fin_ofNat _)
    have h4 : Fin.ofNat 32 x1 = 0 := Fin.ext (by simp only [Fin.ofNat]; show _ = 0; omega)
    have h5 : fOpt w = rm.code := eReg_fOpt hw hk
    have h6 : bits w 26 3 = 0 := (eReg_bits_26_3 hw hk).trans (by omega)
    have h7 : bits w 23 2 = p.code := (eReg_bits_23_2 hw hk).trans (by omega)
    have h8 : bit w 25 = false := (eReg_bit_25 hw hk).trans (beq_false (by omega))
    have h9 : w % 2 = 0 := (eReg_2 hw hk).trans rfl
    have h10 : w % 4 = 0 := (eReg_4 hw hk).trans rfl
    have h11 : x1 / 2 ^ 5 = 0 := by omega
    refine ⟨eReg_lt hw hk, hx ▸ lt_lit rfl, hy ▸ lt_lit rfl, ?_⟩
    rw [decode_17 h0]
    simp only [decFma, chk, h1, h2, h3, h4, h5, h6, h7, h8, h9, h10, h11, precOf_code, rmOf_code] <;>
      simp <;> omega

theorem fmsc (p : Prec) (rm : Rm) (d : XReg) (a : XReg) (b : XReg) : Statement (.fmsc p rm d a b) :=
  of_words rfl fun w x1 x2 hw hx hy hwf => by
    have b_p := Prec.code_lt p
    have b_rm := Rm.code_lt rm
    have hk : RegOk 0 17 d.val a.val b.val (p.code + 4 * 1) rm.code := ⟨lt_lit rfl, lt_lit rfl, d.isLt, a.isLt, b.isLt, by omega, by omega⟩
    have h0 : bits w 2 6 = 17 := (eReg_bits_2_6 hw hk).trans rfl
    have h1 : fRd w = d := (eReg_fRd hw hk).trans (fin_ofNat _)
    have h2 : fRs1 w = a := (eReg_fRs1 hw hk).trans (fin_ofNat _)
    have h3 : fRs2 w = b := (eReg_fRs2 hw hk).trans (fin_ofNat _)
    have h4 : Fin.ofNat 32 x1 = 0 := Fin.ext (by simp only [Fin.ofNat]; show _ = 0; omega)
    have h5 : fOpt w = rm.code := eReg_fOpt hw hk
    have h6 : bits w 26 3 = 0 := (eReg_bits_26_3 hw hk).trans (by omega)
    have h7 : bits w 23 2 = p.code := (eReg_bits_23_2 hw hk).trans (by omega)
    have h8 : bit w 25 = true := (eReg_bit_25 hw hk).trans (beq_true (by omega))
    have h9 : w % 2 = 0 := (eReg_2 hw hk).trans rfl
    have h10 : w % 4 = 0 := (eReg_4 hw hk).trans rfl
    have h11 : x1 / 2 ^ 5 = 0 := by omega
    refine ⟨eReg_lt hw hk, hx ▸ lt_lit rfl, hy ▸ lt_lit rfl, ?_⟩
    rw [decode_17 h0]
    simp only [decFma, chk, h1, h2, h3, h4, h5, h6, h7, h8, h9, h10, h11, precOf_code, rmOf_code] <;>
      simp <;> omega

theorem fmacExt (p : Prec) (rm : Rm) (d : XReg) (a : XReg) (b : XReg) (c : XReg) : Statement (.fmacExt p rm d a b c) :=
  of_words rfl fun w x1 x2 hw hx hy hwf => by
    have b_p := Prec.code_lt p
    have b_rm := Rm.code_lt rm
    have hk : RegOk 2 17 d.val a.val b.val (p.code + 4 * 0) rm.code := ⟨lt_lit rfl, lt_lit rfl, d.isLt, a.isLt, b.isLt, by omega, by omega⟩
    have h0 : bits w 2 6 = 17 := (eReg_bits_2_6 hw hk).trans rfl
    have h1 : fRd w = d := (eReg_fRd hw hk).trans (fin_ofNat _)
    have h2 : fRs1 w = a := (eReg_fRs1 hw hk).trans (fin_ofNat _)
    have h3 : fRs2 w = b := (eReg_fRs2 hw hk).trans (fin_ofNat _)
    have h4 : Fin.ofNat 32 x1 = c := Fin.ext (by simp only [Fin.ofNat]; omega)
    have h5 : fOpt w = rm.code := eReg_fOpt hw hk
    have h6 : bits w 26 3 = 0 := (eReg_bits_26_3 hw hk).trans (by omega)
    have h7 : bits w 23 2 = p.code := (eReg_bits_23_2 hw hk).trans (by omega)
    have h8 : bit w 25 = false := (eReg_bit_25 hw hk).trans (beq_false (by omega))
    have h9 : w % 2 = 0 := (eReg_2 hw hk).trans rfl
    have h10 : w % 4 = 2 := (eReg_4 hw hk).trans rfl
    have h11 : x1 / 2 ^ 5 = 0 := by omega
    refine ⟨eReg_lt hw hk, by omega, hy ▸ lt_lit rfl, ?_⟩
    rw [decode_17 h0]
    simp only [decFma, chk, h1, h2, h3, h4, h5, h6, h7, h8, h9, h10, h11, precOf_code, rmOf_code] <;>
      simp <;> omega

theorem fmscExt (p : Prec) (rm : Rm) (d : XReg) (a : XReg) (b : XReg) (c : XReg) : Statement (.fmscExt p rm d a b c) :=
  of_words rfl fun w x1 x2 hw hx hy hwf => by
    have b_p := Prec.code_lt p
    have b_rm := Rm.code_lt rm
    have hk : RegOk 2 17 d.val a.val b.val (p.code + 4 * 1) rm.code := ⟨lt_lit rfl, lt_lit rfl, d.isLt, a.isLt, b.isLt, by omega, by omega⟩
    have h0 : bits w 2 6 = 17 := (eReg_bits_2_6 hw hk).trans rfl
    have h1 : fRd w = d := (eReg_fRd hw hk).trans (fin_ofNat _)
    have h2 : fRs1 w = a := (eReg_fRs1 hw hk).trans (fin_ofNat _)
    have h3 : fRs2 w = b := (eReg_fRs2 hw hk).trans (fin_ofNat _)
    have h4 : Fin.ofNat 32 x1 = c := Fin.ext (by simp only [Fin.ofNat]; omega)
    have h5 : fOpt w = rm.code := eReg_fOpt hw hk
    have h6 : bits w 26 3 = 0 := (eReg_bits_26_3 hw hk).trans (by omega)
    have h7 : bits w 23 2 = p.code := (eReg_bits_23_2 hw hk).trans (by omega)
    have h8 : bit w 25 = true := (eReg_bit_25 hw hk).trans (beq_true (by omega))
    have h9 : w % 2 = 0 := (eReg_2 hw hk).trans rfl
    have h10 : w % 4 = 2 := (eReg_4 hw hk).trans rfl
    have h11 : x1 / 2 ^ 5 = 0 := by omega
    refine ⟨eReg_lt hw hk, by omega, hy ▸ lt_lit rfl, ?_⟩
    rw [decode_17 h0]
    simp only [decFma, chk, h1, h2, h3, h4, h5, h6, h7, h8, h9, h10, h11, precOf_code, rmOf_code] <;>
      simp <;> omega

theorem fcvt (dst : NumCode) (src : NumCode) (rm : Rm) (d : XReg) (a : XReg) : Statement (.fcvt dst src rm d a) :=
  of_words rfl fun w x1 x2 hw hx hy hwf => by
    have b_dst := NumCode.code_lt dst
    have b_src := NumCode.code_lt src
    have b_rm := Rm.code_lt rm
    have n_ty := NumCode.code_ne hwf
    have hk : RegOk 0 18 d.val a.val 0 (dst.code + 8 * src.code) rm.code := ⟨lt_lit rfl, lt_lit rfl, d.isLt, a.isLt, lt_lit rfl, by omega, by omega⟩
    have h0 : bits w 2 6 = 18 := (eReg_bits_2_6 hw hk).trans rfl
    have h1 : fRd w = d := (eReg_fRd hw hk).trans (fin_ofNat _)
    have h2 : fRs1 w = a := (eReg_fRs1 hw hk).trans (fin_ofNat _)
    have h3 : fRs2 w = 0 := (eReg_fRs2 hw hk).trans rfl
    have h4 : fOpt w = rm.code := eReg_fOpt hw hk
    have h5 : bits w 23 3 = dst.code := (eReg_bits_23_3 hw hk).trans (by omega)
    have h6 : bits w 26 3 = src.code := (eReg_bits_26_3 hw hk).trans (by omega)
    have h7 : w % 4 = 0 := (eReg_4 hw hk).trans rfl
    refine ⟨eReg_lt hw hk, hx ▸ lt_lit rfl, hy ▸ lt_lit rfl, ?_⟩
    rw [decode_18 h0]
    simp only [decCvt, chk, only00, h1, h2, h3, h4, h5, h6, h7, numOf_code, rmOf_code] <;>
      simp <;> omega

theorem vadd (ty : Ty) (d : VReg) (a : VReg) (b : VReg) (m : MReg) : Statement (.vadd ty d a b m) :=
  of_words rfl fun w x1 x2 hw hx hy hwf => by
    have b_ty := Ty.code_lt ty
    have n_ty := Ty.code_of_isInt hwf
    have hk : VecOk 20 d.val a.val b.val m.val ty.code 0 := ⟨lt_lit rfl, d.isLt, a.isLt, b.isLt, m.isLt, by omega, lt_lit rfl⟩
    have h0 : bits w 2 6 = 20 := (eVec_bits_2_6 hw hk).trans rfl
    have h1 : fVd w = d := (eVec_fVd hw hk).trans (fin_ofNat _)
    have h2 : fVs1 w = a := (eVec_fVs1 hw hk).trans (fin_ofNat _)
    have h3 : fVs2 w = b := (eVec_fVs2 hw hk).trans (fin_ofNat _)
    have h4 : fVm w = m := (eVec_fVm hw hk).trans (fin_ofNat _)
    have h5 : bits w 23 3 = ty.code := eVec_bits_23_3 hw hk
    have h6 : bits w 26 6 = 0 := (eVec_bits_26_6 hw hk).trans rfl
    have h7 : w % 4 = 0 := (eVec_4 hw hk).trans rfl
    refine ⟨eVec_lt hw hk, hx ▸ lt_lit rfl, hy ▸ lt_lit rfl, ?_⟩
    rw [decode_20 h0]
    simp only [decVecInt, chk, only00, h1, h2, h3, h4, h5, h6, h7, tyOf_code] <;>
      simp <;> omega

theorem vsub (ty : Ty) (d : VReg) (a : VReg) (b : VReg) (m : MReg) : Statement (.vsub ty d a b m) :=
  of_words rfl fun w x1 x2 hw hx hy hwf => by
    have b_ty := Ty.code_lt ty
    have n_ty := Ty.code_of_isInt hwf
    have hk : VecOk 20 d.val a.val b.val m.val ty.code 1 := ⟨lt_lit rfl, d.isLt, a.isLt, b.isLt, m.isLt, by omega, lt_lit rfl⟩
    have h0 : bits w 2 6 = 20 := (eVec_bits_2_6 hw hk).trans rfl
    have h1 : fVd w = d := (eVec_fVd hw hk).trans (fin_ofNat _)
    have h2 : fVs1 w = a := (eVec_fVs1 hw hk).trans (fin_ofNat _)
    have h3 : fVs2 w = b := (eVec_fVs2 hw hk).trans (fin_ofNat _)
    have h4 : fVm w = m := (eVec_fVm hw hk).trans (fin_ofNat _)
    have h5 : bits w 23 3 = ty.code := eVec_bits_23_3 hw hk
    have h6 : bits w 26 6 = 1 := (eVec_bits_26_6 hw hk).trans rfl
    have h7 : w % 4 = 0 := (eVec_4 hw hk).trans rfl
    refine ⟨eVec_lt hw hk, hx ▸ lt_lit rfl, hy ▸ lt_lit rfl, ?_⟩
    rw [decode_20 h0]
    simp only [decVecInt, chk, only00, h1, h2, h3, h4, h5, h6, h7, tyOf_code] <;>
      simp <;> omega

theorem vmul (ty : Ty) (d : VReg) (a : VReg) (b : VReg) (m : MReg) : Statement (.vmul ty d a b m) :=
  of_words rfl fun w x1 x2 hw hx hy hwf => by
    have b_ty := Ty.code_lt ty
    have n_ty := Ty.code_of_isInt hwf
    have hk : VecOk 20 d.val a.val b.val m.val ty.code 2 := ⟨lt_lit rfl, d.isLt, a.isLt, b.isLt, m.isLt, by omega, lt_lit rfl⟩
    have h0 : bits w 2 6 = 20 := (eVec_bits_2_6 hw hk).trans rfl
    have h1 : fVd w = d := (eVec_fVd hw hk).trans (fin_ofNat _)
    have h2 : fVs1 w = a := (eVec_fVs1 hw hk).trans (fin_ofNat _)
    have h3 : fVs2 w = b := (eVec_fVs2 hw hk).trans (fin_ofNat _)
    have h4 : fVm w = m := (eVec_fVm hw hk).trans (fin_ofNat _)
    have h5 : bits w 23 3 = ty.code := eVec_bits_23_3 hw hk
    have h6 : bits w 26 6 = 2 := (eVec_bits_26_6 hw hk).trans rfl
    have h7 : w % 4 = 0 := (eVec_4 hw hk).trans rfl
    refine ⟨eVec_lt hw hk, hx ▸ lt_lit rfl, hy ▸ lt_lit rfl, ?_⟩
    rw [decode_20 h0]
    simp only [decVecInt, chk, only00, h1, h2, h3, h4, h5, h6, h7, tyOf_code] <;>
      simp <;> omega

theorem vmulh (ty : Ty) (d : VReg) (a : VReg) (b : VReg) (m : MReg) : Statement (.vmulh ty d a b m) :=
  of_words rfl fun w x1 x2 hw hx hy hwf => by
    have b_ty := Ty.code_lt ty
    have n_ty := Ty.code_of_isInt hwf
    have hk : VecOk 20 d.val a.val b.val m.val ty.code 3 := ⟨lt_lit rfl, d.isLt, a.isLt, b.isLt, m.isLt, by omega, lt_lit rfl⟩
    have h0 : bits w 2 6 = 20 := (eVec_bits_2_6 hw hk).trans rfl
    have h1 : fVd w = d := (eVec_fVd hw hk).trans (fin_ofNat _)
    have h2 : fVs1 w = a := (eVec_fVs1 hw hk).trans (fin_ofNat _)
    have h3 : fVs2 w = b := (eVec_fVs2 hw hk).trans (fin_ofNat _)
    have h4 : fVm w = m := (eVec_fVm hw hk).trans (fin_ofNat _)
    have h5 : bits w 23 3 = ty.code := eVec_bits_23_3 hw hk
    have h6 : bits w 26 6 = 3 := (eVec_bits_26_6 hw hk).trans rfl
    have h7 : w % 4 = 0 := (eVec_4 hw hk).trans rfl
    refine ⟨eVec_lt hw hk, hx ▸ lt_lit rfl, hy ▸ lt_lit rfl, ?_⟩
    rw [decode_20 h0]
    simp only [decVecInt, chk, only00, h1, h2, h3, h4, h5, h6, h7, tyOf_code] <;>
      simp <;> omega

theorem vadds (ty : Ty) (d : VReg) (a : VReg) (b : VReg) (m : MReg) : Statement (.vadds ty d a b m) :=
  of_words rfl fun w x1 x2 hw hx hy hwf => by
    have b_ty := Ty.code_lt ty
    have n_ty := Ty.code_of_isInt hwf
    have hk : VecOk 20 d.val a.val b.val m.val ty.code 4 := ⟨lt_lit rfl, d.isLt, a.isLt, b.isLt, m.isLt, by omega, lt_lit rfl⟩
    have h0 : bits w 2 6 = 20 := (eVec_bits_2_6 hw hk).trans rfl
    have h1 : fVd w = d := (eVec_fVd hw hk).trans (fin_ofNat _)
    have h2 : fVs1 w = a := (eVec_fVs1 hw hk).trans (fin_ofNat _)
    have h3 : fVs2 w = b := (eVec_fVs2 hw hk).trans (fin_ofNat _)
    have h4 : fVm w = m := (eVec_fVm hw hk).trans (fin_ofNat _)
    have h5 : bits w 23 3 = ty.code := eVec_bits_23_3 hw hk
    have h6 : bits w 26 6 = 4 := (eVec_bits_26_6 hw hk).trans rfl
    have h7 : w % 4 = 0 := (eVec_4 hw hk).trans rfl
    refine ⟨eVec_lt hw hk, hx ▸ lt_lit rfl, hy ▸ lt_lit rfl, ?_⟩
    rw [decode_20 h0]
    simp only [decVecInt, chk, only00, h1, h2, h3, h4, h5, h6, h7, tyOf_code] <;>
      simp <;> omega

theorem vsubs (ty : Ty) (d : VReg) (a : VReg) (b : VReg) (m : MReg) : Statement (.vsubs ty d a b m) :=
  of_words rfl fun w x1 x2 hw hx hy hwf => by
    have b_ty := Ty.code_lt ty
    have n_ty := Ty.code_of_isInt hwf
    have hk : VecOk 20 d.val a.val b.val m.val ty.code 5 := ⟨lt_lit rfl, d.isLt, a.isLt, b.isLt, m.isLt, by omega, lt_lit rfl⟩
    have h0 : bits w 2 6 = 20 := (eVec_bits_2_6 hw hk).trans rfl
    have h1 : fVd w = d := (eVec_fVd hw hk).trans (fin_ofNat _)
    have h2 : fVs1 w = a := (eVec_fVs1 hw hk).trans (fin_ofNat _)
    have h3 : fVs2 w = b := (eVec_fVs2 hw hk).trans (fin_ofNat _)
    have h4 : fVm w = m := (eVec_fVm hw hk).trans (fin_ofNat _)
    have h5 : bits w 23 3 = ty.code := eVec_bits_23_3 hw hk
    have h6 : bits w 26 6 = 5 := (eVec_bits_26_6 hw hk).trans rfl
    have h7 : w % 4 = 0 := (eVec_4 hw hk).trans rfl
    refine ⟨eVec_lt hw hk, hx ▸ lt_lit rfl, hy ▸ lt_lit rfl, ?_⟩
    rw [decode_20 h0]
    simp only [decVecInt, chk, only00, h1, h2, h3, h4, h5, h6, h7, tyOf_code] <;>
      simp <;> omega

theorem vabs (ty : Ty) (d : VReg) (a : VReg) (m : MReg) : Statement (.vabs ty d a m) :=
  of_words rfl fun w x1 x2 hw hx hy hwf => by
    have b_ty := Ty.code_lt ty
    have n_ty := Ty.code_of_isInt hwf
    have hk : VecOk 20 d.val a.val 0 m.val ty.code 6 := ⟨lt_lit rfl, d.isLt, a.isLt, lt_lit rfl, m.isLt, by omega, lt_lit rfl⟩
    have h0 : bits w 2 6 = 20 := (eVec_bits_2_6 hw hk).trans rfl
    have h1 : fVd w = d := (eVec_fVd hw hk).trans (fin_ofNat _)
    have h2 : fVs1 w = a := (eVec_fVs1 hw hk).trans (fin_ofNat _)
    have h3 : fVs2 w = 0 := (eVec_fVs2 hw hk).trans rfl
    have h4 : fVm w = m := (eVec_fVm hw hk).trans (fin_ofNat _)
    have h5 : bits w 23 3 = ty.code := eVec_bits_23_3 hw hk
    have h6 : bits w 26 6 = 6 := (eVec_bits_26_6 hw hk).trans rfl
    have h7 : w % 4 = 0 := (eVec_4 hw hk).trans rfl
    refine ⟨eVec_lt hw hk, hx ▸ lt_lit rfl, hy ▸ lt_lit rfl, ?_⟩
    rw [decode_20 h0]
    simp only [decVecInt, chk, only00, h1, h2, h3, h4, h5, h6, h7, tyOf_code] <;>
      simp <;> omega

theorem vmin (ty : Ty) (d : VReg) (a : VReg) (b : VReg) (m : MReg) : Statement (.vmin ty d a b m) :=
  of_words rfl fun w x1 x2 hw hx hy hwf => by
    have b_ty := Ty.code_lt ty
    have n_ty := Ty.code_of_isInt hwf
    have hk : VecOk 20 d.val a.val b.val m.val ty.code 7 := ⟨lt_lit rfl, d.isLt, a.isLt, b.isLt, m.isLt, by omega, lt_lit rfl⟩
    have h0 : bits w 2 6 = 20 := (eVec_bits_2_6 hw hk).trans rfl
    have h1 : fVd w = d := (eVec_fVd hw hk).trans (fin_ofNat _)
    have h2 : fVs1 w = a := (eVec_fVs1 hw hk).trans (fin_ofNat _)
    have h3 : fVs2 w = b := (eVec_fVs2 hw hk).trans (fin_ofNat _)
    have h4 : fVm w = m := (eVec_fVm hw hk).trans (fin_ofNat _)
    have h5 : bits w 23 3 = ty.code := eVec_bits_23_3 hw hk
    have h6 : bits w 26 6 = 7 := (eVec_bits_26_6 hw hk).trans rfl
    have h7 : w % 4 = 0 := (eVec_4 hw hk).trans rfl
    refine ⟨eVec_lt hw hk, hx ▸ lt_lit rfl, hy ▸ lt_lit rfl, ?_⟩
    rw [decode_20 h0]
    simp only [decVecInt, chk, only00, h1, h2, h3, h4, h5, h6, h7, tyOf_code] <;>
      simp <;> omega

theorem vmax (ty : Ty) (d : VReg) (a : VReg) (b : VReg) (m : MReg) : Statement (.vmax ty d a b m) :=
  of_words rfl fun w x1 x2 hw hx hy hwf => by
    have b_ty := Ty.code_lt ty
    have n_ty := Ty.code_of_isInt hwf
    have hk : VecOk 20 d.val a.val b.val m.val ty.code 8 := ⟨lt_lit rfl, d.isLt, a.isLt, b.isLt, m.isLt, by omega, lt_lit rfl⟩
    have h0 : bits w 2 6 = 20 := (eVec_bits_2_6 hw hk).trans rfl
    have h1 : fVd w = d := (eVec_fVd hw hk).trans (fin_ofNat _)
    have h2 : fVs1 w = a := (eVec_fVs1 hw hk).trans (fin_ofNat _)
    have h3 : fVs2 w = b := (eVec_fVs2 hw hk).trans (fin_ofNat _)
    have h4 : fVm w = m := (eVec_fVm hw hk).trans (fin_ofNat _)
    have h5 : bits w 23 3 = ty.code := eVec_bits_23_3 hw hk
    have h6 : bits w 26 6 = 8 := (eVec_bits_26_6 hw hk).trans rfl
    have h7 : w % 4 = 0 := (eVec_4 hw hk).trans rfl
    refine ⟨eVec_lt hw hk, hx ▸ lt_lit rfl, hy ▸ lt_lit rfl, ?_⟩
    rw [decode_20 h0]
    simp only [decVecInt, chk, only00, h1, h2, h3, h4, h5, h6, h7, tyOf_code] <;>
      simp <;> omega

theorem vand (ty : Ty) (d : VReg) (a : VReg) (b : VReg) (m : MReg) : Statement (.vand ty d a b m) :=
  of_words rfl fun w x1 x2 hw hx hy hwf => by
    have b_ty := Ty.code_lt ty
    have n_ty := Ty.code_of_isInt hwf
    have hk : VecOk 20 d.val a.val b.val m.val ty.code 9 := ⟨lt_lit rfl, d.isLt, a.isLt, b.isLt, m.isLt, by omega, lt_lit rfl⟩
    have h0 : bits w 2 6 = 20 := (eVec_bits_2_6 hw hk).trans rfl
    have h1 : fVd w = d := (eVec_fVd hw hk).trans (fin_ofNat _)
    have h2 : fVs1 w = a := (eVec_fVs1 hw hk).trans (fin_ofNat _)
    have h3 : fVs2 w = b := (eVec_fVs2 hw hk).trans (fin_ofNat _)
    have h4 : fVm w = m := (eVec_fVm hw hk).trans (fin_ofNat _)
    have h5 : bits w 23 3 = ty.code := eVec_bits_23_3 hw hk
    have h6 : bits w 26 6 = 9 := (eVec_bits_26_6 hw hk).trans rfl
    have h7 : w % 4 = 0 := (eVec_4 hw hk).trans rfl
    refine ⟨eVec_lt hw hk, hx ▸ lt_lit rfl, hy ▸ lt_lit rfl, ?_⟩
    rw [decode_20 h0]
    simp only [decVecInt, chk, only00, h1, h2, h3, h4, h5, h6, h7, tyOf_code] <;>
      simp <;> omega

theorem vor (ty : Ty) (d : VReg) (a : VReg) (b : VReg) (m : MReg) : Statement (.vor ty d a b m) :=
  of_words rfl fun w x1 x2 hw hx hy hwf => by
    have b_ty := Ty.code_lt ty
    have n_ty := Ty.code_of_isInt hwf
    have hk : VecOk 20 d.val a.val b.val m.val ty.code 10 := ⟨lt_lit rfl, d.isLt, a.isLt, b.isLt, m.isLt, by omega, lt_lit rfl⟩
    have h0 : bits w 2 6 = 20 := (eVec_bits_2_6 hw hk).trans rfl
    have h1 : fVd w = d := (eVec_fVd hw hk).trans (fin_ofNat _)
    have h2 : fVs1 w = a := (eVec_fVs1 hw hk).trans (fin_ofNat _)
    have h3 : fVs2 w = b := (eVec_fVs2 hw hk).trans (fin_ofNat _)
    have h4 : fVm w = m := (eVec_fVm hw hk).trans (fin_ofNat _)
    have h5 : bits w 23 3 = ty.code := eVec_bits_23_3 hw hk
    have h6 : bits w 26 6 = 10 := (eVec_bits_26_6 hw hk).trans rfl
    have h7 : w % 4 = 0 := (eVec_4 hw hk).trans rfl
    refine ⟨eVec_lt hw hk, hx ▸ lt_lit rfl, hy ▸ lt_lit rfl, ?_⟩
    rw [decode_20 h0]
    simp only [decVecInt, chk, only00, h1, h2, h3, h4, h5, h6, h7, tyOf_code] <;>
      simp <;> omega

theorem vxor (ty : Ty) (d : VReg) (a : VReg) (b : VReg) (m : MReg) : Statement (.vxor ty d a b m) :=
  of_words rfl fun w x1 x2 hw hx hy hwf => by
    have b_ty := Ty.code_lt ty
    have n_ty := Ty.code_of_isInt hwf
    have hk : VecOk 20 d.val a.val b.val m.val ty.code 11 := ⟨lt_lit rfl, d.isLt, a.isLt, b.isLt, m.isLt, by omega, lt_lit rfl⟩
    have h0 : bits w 2 6 = 20 := (eVec_bits_2_6 hw hk).trans rfl
    have h1 : fVd w = d := (eVec_fVd hw hk).trans (fin_ofNat _)
    have h2 : fVs1 w = a := (eVec_fVs1 hw hk).trans (fin_ofNat _)
    have h3 : fVs2 w = b := (eVec_fVs2 hw hk).trans (fin_ofNat _)
    have h4 : fVm w = m := (eVec_fVm hw hk).trans (fin_ofNat _)
    have h5 : bits w 23 3 = ty.code := eVec_bits_23_3 hw hk
    have h6 : bits w 26 6 = 11 := (eVec_bits_26_6 hw hk).trans rfl
    have h7 : w % 4 = 0 := (eVec_4 hw hk).trans rfl
    refine ⟨eVec_lt hw hk, hx ▸ lt_lit rfl, hy ▸ lt_lit rfl, ?_⟩
    rw [decode_20 h0]
    simp only [decVecInt, chk, only00, h1, h2, h3, h4, h5, h6, h7, tyOf_code] <;>
      simp <;> omega

theorem vsll (ty : Ty) (d : VReg) (a : VReg) (b : VReg) (m : MReg) : Statement (.vsll ty d a b m) :=
  of_words rfl fun w x1 x2 hw hx hy hwf => by
    have b_ty := Ty.code_lt ty
    have n_ty := Ty.code_of_isInt hwf
    have hk : VecOk 20 d.val a.val b.val m.val ty.code 12 := ⟨lt_lit rfl, d.isLt, a.isLt, b.isLt, m.isLt, by omega, lt_lit rfl⟩
    have h0 : bits w 2 6 = 20 := (eVec_bits_2_6 hw hk).trans rfl
    have h1 : fVd w = d := (eVec_fVd hw hk).trans (fin_ofNat _)
    have h2 : fVs1 w = a := (eVec_fVs1 hw hk).trans (fin_ofNat _)
    have h3 : fVs2 w = b := (eVec_fVs2 hw hk).trans (fin_ofNat _)
    have h4 : fVm w = m := (eVec_fVm hw hk).trans (fin_ofNat _)
    have h5 : bits w 23 3 = ty.code := eVec_bits_23_3 hw hk
    have h6 : bits w 26 6 = 12 := (eVec_bits_26_6 hw hk).trans rfl
    have h7 : w % 4 = 0 := (eVec_4 hw hk).trans rfl
    refine ⟨eVec_lt hw hk, hx ▸ lt_lit rfl, hy ▸ lt_lit rfl, ?_⟩
    rw [decode_20 h0]
    simp only [decVecInt, chk, only00, h1, h2, h3, h4, h5, h6, h7, tyOf_code] <;>
      simp <;> omega

theorem vsrl (ty : Ty) (d : VReg) (a : VReg) (b : VReg) (m : MReg) : Statement (.vsrl ty d a b m) :=
  of_words rfl fun w x1 x2 hw hx hy hwf => by
    have b_ty := Ty.code_lt ty
    have n_ty := Ty.code_of_isInt hwf
    have hk : VecOk 20 d.val a.val b.val m.val ty.code 13 := ⟨lt_lit rfl, d.isLt, a.isLt, b.isLt, m.isLt, by omega, lt_lit rfl⟩
    have h0 : bits w 2 6 = 20 := (eVec_bits_2_6 hw hk).trans rfl
    have h1 : fVd w = d := (eVec_fVd hw hk).trans (fin_ofNat _)
    have h2 : fVs1 w = a := (eVec_fVs1 hw hk).trans (fin_ofNat _)
    have h3 : fVs2 w = b := (eVec_fVs2 hw hk).trans (fin_ofNat _)
    have h4 : fVm w = m := (eVec_fVm hw hk).trans (fin_ofNat _)
    have h5 : bits w 23 3 = ty.code := eVec_bits_23_3 hw hk
    have h6 : bits w 26 6 = 13 := (eVec_bits_26_6 hw hk).trans rfl
    have h7 : w % 4 = 0 := (eVec_4 hw hk).trans rfl
    refine ⟨eVec_lt hw hk, hx ▸ lt_lit rfl, hy ▸ lt_lit rfl, ?_⟩
    rw [decode_20 h0]
    simp only [decVecInt, chk, only00, h1, h2, h3, h4, h5, h6, h7, tyOf_code] <;>
      simp <;> omega

theorem vsra (ty : Ty) (d : VReg) (a : VReg) (b : VReg) (m : MReg) : Statement (.vsra ty d a b m) :=
  of_words rfl fun w x1 x2 hw hx hy hwf => by
    have b_ty := Ty.code_lt ty
    have n_ty := Ty.code_of_isInt hwf
    have hk : VecOk 20 d.val a.val b.val m.val ty.code 14 := ⟨lt_lit rfl, d.isLt, a.isLt, b.isLt, m.isLt, by omega, lt_lit rfl⟩
    have h0 : bits w 2 6 = 20 := (eVec_bits_2_6 hw hk).trans rfl
    have h1 : fVd w = d := (eVec_fVd hw hk).trans (fin_ofNat _)
    have h2 : fVs1 w = a := (eVec_fVs1 hw hk).trans (fin_ofNat _)
    have h3 : fVs2 w = b := (eVec_fVs2 hw hk).trans (fin_ofNat _)
    have h4 : fVm w = m := (eVec_fVm hw hk).trans (fin_ofNat _)
    have h5 : bits w 23 3 = ty.code := eVec_bits_23_3 hw hk
    have h6 : bits w 26 6 = 14 := (eVec_bits_26_6 hw hk).trans rfl
    have h7 : w % 4 = 0 := (eVec_4 hw hk).trans rfl
    refine ⟨eVec_lt hw hk, hx ▸ lt_lit rfl, hy ▸ lt_lit rfl, ?_⟩
    rw [decode_20 h0]
    simp only [decVecInt, chk, only00, h1, h2, h3, h4, h5, h6, h7, tyOf_code] <;>
      simp <;> omega

theorem vfadd (ty : Ty) (d : VReg) (a : VReg) (b : VReg) (m : MReg) : Statement (.vfadd ty d a b m) :=
  of_words rfl fun w x1 x2 hw hx hy hwf => by
    have b_ty := Ty.code_lt ty
    have n_ty := Ty.code_of_float hwf
    have hk : VecOk 21 d.val a.val b.val m.val ty.code 0 := ⟨lt_lit rfl, d.isLt, a.isLt, b.isLt, m.isLt, by omega, lt_lit rfl⟩
    have h0 : bits w 2 6 = 21 := (eVec_bits_2_6 hw hk).trans rfl
    have h1 : fVd w = d := (eVec_fVd hw hk).trans (fin_ofNat _)
    have h2 : fVs1 w = a := (eVec_fVs1 hw hk).trans (fin_ofNat _)
    have h3 : fVs2 w = b := (eVec_fVs2 hw hk).trans (fin_ofNat _)
    have h4 : fVm w = m := (eVec_fVm hw hk).trans (fin_ofNat _)
    have h5 : bits w 23 3 = ty.code := eVec_bits_23_3 hw hk
    have h6 : bits w 26 6 = 0 := (eVec_bits_26_6 hw hk).trans rfl
    have h7 : w % 4 = 0 := (eVec_4 hw hk).trans rfl
    refine ⟨eVec_lt hw hk, hx ▸ lt_lit rfl, hy ▸ lt_lit rfl, ?_⟩
    rw [decode_21 h0]
    simp only [decVecFloat, chk, only00, h1, h2, h3, h4, h5, h6, h7, tyOf_code] <;>
      simp <;> omega

theorem vfsub (ty : Ty) (d : VReg) (a : VReg) (b : VReg) (m : MReg) : Statement (.vfsub ty d a b m) :=
  of_words rfl fun w x1 x2 hw hx hy hwf => by
    have b_ty := Ty.code_lt ty
    have n_ty := Ty.code_of_float hwf
    have hk : VecOk 21 d.val a.val b.val m.val ty.code 1 := ⟨lt_lit rfl, d.isLt, a.isLt, b.isLt, m.isLt, by omega, lt_lit rfl⟩
    have h0 : bits w 2 6 = 21 := (eVec_bits_2_6 hw hk).trans rfl
    have h1 : fVd w = d := (eVec_fVd hw hk).trans (fin_ofNat _)
    have h2 : fVs1 w = a := (eVec_fVs1 hw hk).trans (fin_ofNat _)
    have h3 : fVs2 w = b := (eVec_fVs2 hw hk).trans (fin_ofNat _)
    have h4 : fVm w = m := (eVec_fVm hw hk).trans (fin_ofNat _)
    have h5 : bits w 23 3 = ty.code := eVec_bits_23_3 hw hk
    have h6 : bits w 26 6 = 1 := (eVec_bits_26_6 hw hk).trans rfl
    have h7 : w % 4 = 0 := (eVec_4 hw hk).trans rfl
    refine ⟨eVec_lt hw hk, hx ▸ lt_lit rfl, hy ▸ lt_lit rfl, ?_⟩
    rw [decode_21 h0]
    simp only [decVecFloat, chk, only00, h1, h2, h3, h4, h5, h6, h7, tyOf_code] <;>
      simp <;> omega

theorem vfmul (ty : Ty) (d : VReg) (a : VReg) (b : VReg) (m : MReg) : Statement (.vfmul ty d a b m) :=
  of_words rfl fun w x1 x2 hw hx hy hwf => by
    have b_ty := Ty.code_lt ty
    have n_ty := Ty.code_of_float hwf
    have hk : VecOk 21 d.val a.val b.val m.val ty.code 2 := ⟨lt_lit rfl, d.isLt, a.isLt, b.isLt, m.isLt, by omega, lt_lit rfl⟩
    have h0 : bits w 2 6 = 21 := (eVec_bits_2_6 hw hk).trans rfl
    have h1 : fVd w = d := (eVec_fVd hw hk).trans (fin_ofNat _)
    have h2 : fVs1 w = a := (eVec_fVs1 hw hk).trans (fin_ofNat _)
    have h3 : fVs2 w = b := (eVec_fVs2 hw hk).trans (fin_ofNat _)
    have h4 : fVm w = m := (eVec_fVm hw hk).trans (fin_ofNat _)
    have h5 : bits w 23 3 = ty.code := eVec_bits_23_3 hw hk
    have h6 : bits w 26 6 = 2 := (eVec_bits_26_6 hw hk).trans rfl
    have h7 : w % 4 = 0 := (eVec_4 hw hk).trans rfl
    refine ⟨eVec_lt hw hk, hx ▸ lt_lit rfl, hy ▸ lt_lit rfl, ?_⟩
    rw [decode_21 h0]
    simp only [decVecFloat, chk, only00, h1, h2, h3, h4, h5, h6, h7, tyOf_code] <;>
      simp <;> omega

theorem vfdiv (ty : Ty) (d : VReg) (a : VReg) (b : VReg) (m : MReg) : Statement (.vfdiv ty d a b m) :=
  of_words rfl fun w x1 x2 hw hx hy hwf => by
    have b_ty := Ty.code_lt ty
    have n_ty := Ty.code_of_float hwf
    have hk : VecOk 21 d.val a.val b.val m.val ty.code 3 := ⟨lt_lit rfl, d.isLt, a.isLt, b.isLt, m.isLt, by omega, lt_lit rfl⟩
    have h0 : bits w 2 6 = 21 := (eVec_bits_2_6 hw hk).trans rfl
    have h1 : fVd w = d := (eVec_fVd hw hk).trans (fin_ofNat _)
    have h2 : fVs1 w = a := (eVec_fVs1 hw hk).trans (fin_ofNat _)
    have h3 : fVs2 w = b := (eVec_fVs2 hw hk).trans (fin_ofNat _)
    have h4 : fVm w = m := (eVec_fVm hw hk).trans (fin_ofNat _)
    have h5 : bits w 23 3 = ty.code := eVec_bits_23_3 hw hk
    have h6 : bits w 26 6 = 3 := (eVec_bits_26_6 hw hk).trans rfl
    have h7 : w % 4 = 0 := (eVec_4 hw hk).trans rfl
    refine ⟨eVec_lt hw hk, hx ▸ lt_lit rfl, hy ▸ lt_lit rfl, ?_⟩
    rw [decode_21 h0]
    simp only [decVecFloat, chk, only00, h1, h2, h3, h4, h5, h6, h7, tyOf_code] <;>
      simp <;> omega

theorem vfsqrt (ty : Ty) (d : VReg) (a : VReg) (m : MReg) : Statement (.vfsqrt ty d a m) :=
  of_words rfl fun w x1 x2 hw hx hy hwf => by
    have b_ty := Ty.code_lt ty
    have n_ty := Ty.code_of_float hwf
    have hk : VecOk 21 d.val a.val 0 m.val ty.code 4 := ⟨lt_lit rfl, d.isLt, a.isLt, lt_lit rfl, m.isLt, by omega, lt_lit rfl⟩
    have h0 : bits w 2 6 = 21 := (eVec_bits_2_6 hw hk).trans rfl
    have h1 : fVd w = d := (eVec_fVd hw hk).trans (fin_ofNat _)
    have h2 : fVs1 w = a := (eVec_fVs1 hw hk).trans (fin_ofNat _)
    have h3 : fVs2 w = 0 := (eVec_fVs2 hw hk).trans rfl
    have h4 : fVm w = m := (eVec_fVm hw hk).trans (fin_ofNat _)
    have h5 : bits w 23 3 = ty.code := eVec_bits_23_3 hw hk
    have h6 : bits w 26 6 = 4 := (eVec_bits_26_6 hw hk).trans rfl
    have h7 : w % 4 = 0 := (eVec_4 hw hk).trans rfl
    refine ⟨eVec_lt hw hk, hx ▸ lt_lit rfl, hy ▸ lt_lit rfl, ?_⟩
    rw [decode_21 h0]
    simp only [decVecFloat, chk, only00, h1, h2, h3, h4, h5, h6, h7, tyOf_code] <;>
      simp <;> omega

theorem vfmin (ty : Ty) (d : VReg) (a : VReg) (b : VReg) (m : MReg) : Statement (.vfmin ty d a b m) :=
  of_words rfl fun w x1 x2 hw hx hy hwf => by
    have b_ty := Ty.code_lt ty
    have n_ty := Ty.code_of_float hwf
    have hk : VecOk 21 d.val a.val b.val m.val ty.code 5 := ⟨lt_lit rfl, d.isLt, a.isLt, b.isLt, m.isLt, by omega, lt_lit rfl⟩
    have h0 : bits w 2 6 = 21 := (eVec_bits_2_6 hw hk).trans rfl
    have h1 : fVd w = d := (eVec_fVd hw hk).trans (fin_ofNat _)
    have h2 : fVs1 w = a := (eVec_fVs1 hw hk).trans (fin_ofNat _)
    have h3 : fVs2 w = b := (eVec_fVs2 hw hk).trans (fin_ofNat _)
    have h4 : fVm w = m := (eVec_fVm hw hk).trans (fin_ofNat _)
    have h5 : bits w 23 3 = ty.code := eVec_bits_23_3 hw hk
    have h6 : bits w 26 6 = 5 := (eVec_bits_26_6 hw hk).trans rfl
    have h7 : w % 4 = 0 := (eVec_4 hw hk).trans rfl
    refine ⟨eVec_lt hw hk, hx ▸ lt_lit rfl, hy ▸ lt_lit rfl, ?_⟩
    rw [decode_21 h0]
    simp only [decVecFloat, chk, only00, h1, h2, h3, h4, h5, h6, h7, tyOf_code] <;>
      simp <;> omega

theorem vfmax (ty : Ty) (d : VReg) (a : VReg) (b : VReg) (m : MReg) : Statement (.vfmax ty d a b m) :=
  of_words rfl fun w x1 x2 hw hx hy hwf => by
    have b_ty := Ty.code_lt ty
    have n_ty := Ty.code_of_float hwf
    have hk : VecOk 21 d.val a.val b.val m.val ty.code 6 := ⟨lt_lit rfl, d.isLt, a.isLt, b.isLt, m.isLt, by omega, lt_lit rfl⟩
    have h0 : bits w 2 6 = 21 := (eVec_bits_2_6 hw hk).trans rfl
    have h1 : fVd w = d := (eVec_fVd hw hk).trans (fin_ofNat _)
    have h2 : fVs1 w = a := (eVec_fVs1 hw hk).trans (fin_ofNat _)
    have h3 : fVs2 w = b := (eVec_fVs2 hw hk).trans (fin_ofNat _)
    have h4 : fVm w = m := (eVec_fVm hw hk).trans (fin_ofNat _)
    have h5 : bits w 23 3 = ty.code := eVec_bits_23_3 hw hk
    have h6 : bits w 26 6 = 6 := (eVec_bits_26_6 hw hk).trans rfl
    have h7 : w % 4 = 0 := (eVec_4 hw hk).trans rfl
    refine ⟨eVec_lt hw hk, hx ▸ lt_lit rfl, hy ▸ lt_lit rfl, ?_⟩
    rw [decode_21 h0]
    simp only [decVecFloat, chk, only00, h1, h2, h3, h4, h5, h6, h7, tyOf_code] <;>
      simp <;> omega

theorem vfexp2 (ty : Ty) (d : VReg) (a : VReg) (m : MReg) : Statement (.vfexp2 ty d a m) :=
  of_words rfl fun w x1 x2 hw hx hy hwf => by
    have b_ty := Ty.code_lt ty
    have n_ty := Ty.code_of_wide hwf
    have hk : VecOk 21 d.val a.val 0 m.val ty.code 7 := ⟨lt_lit rfl, d.isLt, a.isLt, lt_lit rfl, m.isLt, by omega, lt_lit rfl⟩
    have h0 : bits w 2 6 = 21 := (eVec_bits_2_6 hw hk).trans rfl
    have h1 : fVd w = d := (eVec_fVd hw hk).trans (fin_ofNat _)
    have h2 : fVs1 w = a := (eVec_fVs1 hw hk).trans (fin_ofNat _)
    have h3 : fVs2 w = 0 := (eVec_fVs2 hw hk).trans rfl
    have h4 : fVm w = m := (eVec_fVm hw hk).trans (fin_ofNat _)
    have h5 : bits w 23 3 = ty.code := eVec_bits_23_3 hw hk
    have h6 : bits w 26 6 = 7 := (eVec_bits_26_6 hw hk).trans rfl
    have h7 : w % 4 = 0 := (eVec_4 hw hk).trans rfl
    refine ⟨eVec_lt hw hk, hx ▸ lt_lit rfl, hy ▸ lt_lit rfl, ?_⟩
    rw [decode_21 h0]
    simp only [decVecFloat, chk, only00, h1, h2, h3, h4, h5, h6, h7, tyOf_code] <;>
      simp
    rw [if_neg (by omega), if_neg (by omega)]

theorem vfrcp (ty : Ty) (d : VReg) (a : VReg) (m : MReg) : Statement (.vfrcp ty d a m) :=
  of_words rfl fun w x1 x2 hw hx hy hwf => by
    have b_ty := Ty.code_lt ty
    have n_ty := Ty.code_of_wide hwf
    have hk : VecOk 21 d.val a.val 0 m.val ty.code 8 := ⟨lt_lit rfl, d.isLt, a.isLt, lt_lit rfl, m.isLt, by omega, lt_lit rfl⟩
    have h0 : bits w 2 6 = 21 := (eVec_bits_2_6 hw hk).trans rfl
    have h1 : fVd w = d := (eVec_fVd hw hk).trans (fin_ofNat _)
    have h2 : fVs1 w = a := (eVec_fVs1 hw hk).trans (fin_ofNat _)
    have h3 : fVs2 w = 0 := (eVec_fVs2 hw hk).trans rfl
    have h4 : fVm w = m := (eVec_fVm hw hk).trans (fin_ofNat _)
    have h5 : bits w 23 3 = ty.code := eVec_bits_23_3 hw hk
    have h6 : bits w 26 6 = 8 := (eVec_bits_26_6 hw hk).trans rfl
    have h7 : w % 4 = 0 := (eVec_4 hw hk).trans rfl
    refine ⟨eVec_lt hw hk, hx ▸ lt_lit rfl, hy ▸ lt_lit rfl, ?_⟩
    rw [decode_21 h0]
    simp only [decVecFloat, chk, only00, h1, h2, h3, h4, h5, h6, h7, tyOf_code] <;>
      simp
    rw [if_neg (by omega), if_neg (by omega)]

theorem vfrsqrt (ty : Ty) (d : VReg) (a : VReg) (m : MReg) : Statement (.vfrsqrt ty d a m) :=
  of_words rfl fun w x1 x2 hw hx hy hwf => by
    have b_ty := Ty.code_lt ty
    have n_ty := Ty.code_of_wide hwf
    have hk : VecOk 21 d.val a.val 0 m.val ty.code 9 := ⟨lt_lit rfl, d.isLt, a.isLt, lt_lit rfl, m.isLt, by omega, lt_lit rfl⟩
    have h0 : bits w 2 6 = 21 := (eVec_bits_2_6 hw hk).trans rfl
    have h1 : fVd w = d := (eVec_fVd hw hk).trans (fin_ofNat _)
    have h2 : fVs1 w = a := (eVec_fVs1 hw hk).trans (fin_ofNat _)
    have h3 : fVs2 w = 0 := (eVec_fVs2 hw hk).trans rfl
    have h4 : fVm w = m := (eVec_fVm hw hk).trans (fin_ofNat _)
    have h5 : bits w 23 3 = ty.code := eVec_bits_23_3 hw hk
    have h6 : bits w 26 6 = 9 := (eVec_bits_26_6 hw hk).trans rfl
    have h7 : w % 4 = 0 := (eVec_4 hw hk).trans rfl
    refine ⟨eVec_lt hw hk, hx ▸ lt_lit rfl, hy ▸ lt_lit rfl, ?_⟩
    rw [decode_21 h0]
    simp only [decVecFloat, chk, only00, h1, h2, h3, h4, h5, h6, h7, tyOf_code] <;>
      simp
    rw [if_neg (by omega), if_neg (by omega)]

theorem vload (v : VReg) (a : XReg) (off : BitVec 5) (m : MReg) : Statement (.vload v a off m) :=
  of_words rfl fun w x1 x2 hw hx hy hwf => by
    have hk : RegOk 0 22 v.val a.val off.toNat (0 + 8 * m.val) 0 := ⟨lt_lit rfl, lt_lit rfl, by omega, a.isLt, off.isLt, by omega, lt_lit rfl⟩
    have h0 : bits w 2 6 = 22 := (eReg_bits_2_6 hw hk).trans rfl
    have h1 : fRs1 w = a := (eReg_fRs1 hw hk).trans (fin_ofNat _)
    have h2 : fVd w = v := (eReg_fVd hw hk).trans (Fin.ext (by simp only [Fin.ofNat]; omega))
    have h3 : Fin.ofNat 8 (w / 2 ^ 26) = m := (eReg_Fin_ofNat_8_2_26 hw hk).trans (Fin.ext (by simp only [Fin.ofNat]; omega))
    have h4 : fOff5 w = off := (eReg_fOff5 hw hk).trans (bv_ofNat _)
    have h5 : fOpt w = 0 := (eReg_fOpt hw hk).trans rfl
    have h6 : bits w 23 3 = 0 := (eReg_bits_23_3 hw hk).trans (by omega)
    have h7 : bit w 12 = false := (eReg_bit_12 hw hk).trans (beq_false (by omega))
    have h8 : w % 4 = 0 := (eReg_4 hw hk).trans rfl
    refine ⟨eReg_lt hw hk, hx ▸ lt_lit rfl, hy ▸ lt_lit rfl, ?_⟩
    rw [decode_22 h0]
    simp only [decVecMem0, decVecMem, chk, h1, h2, h3, h4, h5, h6, h7, h8] <;>
      simp <;> omega

theorem vstore (v : VReg) (a : XReg) (off : BitVec 5) (m : MReg) : Statement (.vstore v a off m) :=
  of_words rfl fun w x1 x2 hw hx hy hwf => by
    have hk : RegOk 0 22 v.val a.val off.toNat (1 + 8 * m.val) 0 := ⟨lt_lit rfl, lt_lit rfl, by omega, a.isLt, off.isLt, by omega, lt_lit rfl⟩
    have h0 : bits w 2 6 = 22 := (eReg_bits_2_6 hw hk).trans rfl
    have h1 : fRs1 w = a := (eReg_fRs1 hw hk).trans (fin_ofNat _)
    have h2 : fVd w = v := (eReg_fVd hw hk).trans (Fin.ext (by simp only [Fin.ofNat]; omega))
    have h3 : Fin.ofNat 8 (w / 2 ^ 26) = m := (eReg_Fin_ofNat_8_2_26 hw hk).trans (Fin.ext (by simp only [Fin.ofNat]; omega))
    have h4 : fOff5 w = off := (eReg_fOff5 hw hk).trans (bv_ofNat _)
    have h5 : fOpt w = 0 := (eReg_fOpt hw hk).trans rfl
    have h6 : bits w 23 3 = 1 := (eReg_bits_23_3 hw hk).trans (by omega)
    have h7 : bit w 12 = false := (eReg_bit_12 hw hk).trans (beq_false (by omega))
    have h8 : w % 4 = 0 := (eReg_4 hw hk).trans rfl
    refine ⟨eReg_lt hw hk, hx ▸ lt_lit rfl, hy ▸ lt_lit rfl, ?_⟩
    rw [decode_22 h0]
    simp only [decVecMem0, decVecMem, chk, h1, h2, h3, h4, h5, h6, h7, h8] <;>
      simp <;> omega

theorem vgather (e : ESize) (v : VReg) (vi : VReg) (a : XReg) (m : MReg) : Statement (.vgather e v vi a m) :=
  of_words rfl fun w x1 x2 hw hx hy hwf => by
    have b_e := ESize.code_lt e
    have hk : RegOk 0 22 v.val a.val vi.val (2 + 8 * m.val) e.code := ⟨lt_lit rfl, lt_lit rfl, by omega, a.isLt, by omega, by omega, by omega⟩
    have h0 : bits w 2 6 = 22 := (eReg_bits_2_6 hw hk).trans rfl
    have h1 : fRs1 w = a := (eReg_fRs1 hw hk).trans (fin_ofNat _)
    have h2 : fVd w = v := (eReg_fVd hw hk).trans (Fin.ext (by simp only [Fin.ofNat]; omega))
    have h3 : fV2 w = vi := (eReg_fV2 hw hk).trans (Fin.ext (by simp only [Fin.ofNat]; omega))
    have h4 : Fin.ofNat 8 (w / 2 ^ 26) = m := (eReg_Fin_ofNat_8_2_26 hw hk).trans (Fin.ext (by simp only [Fin.ofNat]; omega))
    have h5 : fOpt w = e.code := eReg_fOpt hw hk
    have h6 : bits w 23 3 = 2 := (eReg_bits_23_3 hw hk).trans (by omega)
    have h7 : bit w 12 = false := (eReg_bit_12 hw hk).trans (beq_false (by omega))
    have h8 : bit w 22 = false := (eReg_bit_22 hw hk).trans (beq_false (by omega))
    have h9 : w % 4 = 0 := (eReg_4 hw hk).trans rfl
    refine ⟨eReg_lt hw hk, hx ▸ lt_lit rfl, hy ▸ lt_lit rfl, ?_⟩
    rw [decode_22 h0]
    simp only [decVecMem0, decVecMem, chk, h1, h2, h3, h4, h5, h6, h7, h8, h9, esizeOf_code] <;>
      simp <;> omega

theorem vscatter (e : ESize) (v : VReg) (vi : VReg) (a : XReg) (m : MReg) : Statement (.vscatter e v vi a m) :=
  of_words rfl fun w x1 x2 hw hx hy hwf => by
    have b_e := ESize.code_lt e
    have hk : RegOk 0 22 v.val a.val vi.val (3 + 8 * m.val) e.code := ⟨lt_lit rfl, lt_lit rfl, by omega, a.isLt, by omega, by omega, by omega⟩
    have h0 : bits w 2 6 = 22 := (eReg_bits_2_6 hw hk).trans rfl
    have h1 : fRs1 w = a := (eReg_fRs1 hw hk).trans (fin_ofNat _)
    have h2 : fVd w = v := (eReg_fVd hw hk).trans (Fin.ext (by simp only [Fin.ofNat]; omega))
    have h3 : fV2 w = vi := (eReg_fV2 hw hk).trans (Fin.ext (by simp only [Fin.ofNat]; omega))
    have h4 : Fin.ofNat 8 (w / 2 ^ 26) = m := (eReg_Fin_ofNat_8_2_26 hw hk).trans (Fin.ext (by simp only [Fin.ofNat]; omega))
    have h5 : fOpt w = e.code := eReg_fOpt hw hk
    have h6 : bits w 23 3 = 3 := (eReg_bits_23_3 hw hk).trans (by omega)
    have h7 : bit w 12 = false := (eReg_bit_12 hw hk).trans (beq_false (by omega))
    have h8 : bit w 22 = false := (eReg_bit_22 hw hk).trans (beq_false (by omega))
    have h9 : w % 4 = 0 := (eReg_4 hw hk).trans rfl
    refine ⟨eReg_lt hw hk, hx ▸ lt_lit rfl, hy ▸ lt_lit rfl, ?_⟩
    rw [decode_22 h0]
    simp only [decVecMem0, decVecMem, chk, h1, h2, h3, h4, h5, h6, h7, h8, h9, esizeOf_code] <;>
      simp <;> omega

theorem vloadb (e : ESize) (v : VReg) (a : XReg) (off : BitVec 5) (m : MReg) : Statement (.vloadb e v a off m) :=
  of_words rfl fun w x1 x2 hw hx hy hwf => by
    have b_e := ESize.code_lt e
    have hk : RegOk 0 22 v.val a.val off.toNat (4 + 8 * m.val) e.code := ⟨lt_lit rfl, lt_lit rfl, by omega, a.isLt, off.isLt, by omega, by omega⟩
    have h0 : bits w 2 6 = 22 := (eReg_bits_2_6 hw hk).trans rfl
    have h1 : fRs1 w = a := (eReg_fRs1 hw hk).trans (fin_ofNat _)
    have h2 : fVd w = v := (eReg_fVd hw hk).trans (Fin.ext (by simp only [Fin.ofNat]; omega))
    have h3 : Fin.ofNat 8 (w / 2 ^ 26) = m := (eReg_Fin_ofNat_8_2_26 hw hk).trans (Fin.ext (by simp only [Fin.ofNat]; omega))
    have h4 : fOff5 w = off := (eReg_fOff5 hw hk).trans (bv_ofNat _)
    have h5 : fOpt w = e.code := eReg_fOpt hw hk
    have h6 : bits w 23 3 = 4 := (eReg_bits_23_3 hw hk).trans (by omega)
    have h7 : bit w 12 = false := (eReg_bit_12 hw hk).trans (beq_false (by omega))
    have h8 : w % 4 = 0 := (eReg_4 hw hk).trans rfl
    refine ⟨eReg_lt hw hk, hx ▸ lt_lit rfl, hy ▸ lt_lit rfl, ?_⟩
    rw [decode_22 h0]
    simp only [decVecMem0, decVecMem, chk, h1, h2, h3, h4, h5, h6, h7, h8, esizeOf_code] <;>
      simp <;> omega

theorem vloadLit (v : VReg) (a : XReg) (lit : Word) (m : MReg) : Statement (.vloadLit v a lit m) :=
  of_words rfl fun w x1 x2 hw hx hy hwf => by
    have hk : RegOk 1 22 v.val a.val 0 (0 + 8 * m.val) 0 := ⟨lt_lit rfl, lt_lit rfl, by omega, a.isLt, lt_lit rfl, by omega, lt_lit rfl⟩
    have h0 : bits w 2 6 = 22 := (eReg_bits_2_6 hw hk).trans rfl
    have h1 : fRs1 w = a := (eReg_fRs1 hw hk).trans (fin_ofNat _)
    have h2 : fRs2 w = 0 := (eReg_fRs2 hw hk).trans rfl
    have h3 : fVd w = v := (eReg_fVd hw hk).trans (Fin.ext (by simp only [Fin.ofNat]; omega))
    have h4 : Fin.ofNat 8 (w / 2 ^ 26) = m := (eReg_Fin_ofNat_8_2_26 hw hk).trans (Fin.ext (by simp only [Fin.ofNat]; omega))
    have h5 : fLit x1 = lit := BitVec.eq_of_toNat_eq (by simp only [fLit, BitVec.toNat_ofNat]; omega)
    have h6 : fOpt w = 0 := (eReg_fOpt hw hk).trans rfl
    have h7 : bits w 23 3 = 0 := (eReg_bits_23_3 hw hk).trans (by omega)
    have h8 : bit w 12 = false := (eReg_bit_12 hw hk).trans (beq_false (by omega))
    have h9 : w % 4 = 1 := (eReg_4 hw hk).trans rfl
    refine ⟨eReg_lt hw hk, by omega, hy ▸ lt_lit rfl, ?_⟩
    rw [decode_22 h0]
    simp only [decVecMem1, decVecMem, chk, h1, h2, h3, h4, h5, h6, h7, h8, h9] <;>
      simp <;> omega

theorem vstoreLit (v : VReg) (a : XReg) (lit : Word) (m : MReg) : Statement (.vstoreLit v a lit m) :=
  of_words rfl fun w x1 x2 hw hx hy hwf => by
    have hk : RegOk 1 22 v.val a.val 0 (1 + 8 * m.val) 0 := ⟨lt_lit rfl, lt_lit rfl, by omega, a.isLt, lt_lit rfl, by omega, lt_lit rfl⟩
    have h0 : bits w 2 6 = 22 := (eReg_bits_2_6 hw hk).trans rfl
    have h1 : fRs1 w = a := (eReg_fRs1 hw hk).trans (fin_ofNat _)
    have h2 : fRs2 w = 0 := (eReg_fRs2 hw hk).trans rfl
    have h3 : fVd w = v := (eReg_fVd hw hk).trans (Fin.ext (by simp only [Fin.ofNat]; omega))
    have h4 : Fin.ofNat 8 (w / 2 ^ 26) = m := (eReg_Fin_ofNat_8_2_26 hw hk).trans (Fin.ext (by simp only [Fin.ofNat]; omega))
    have h5 : fLit x1 = lit := BitVec.eq_of_toNat_eq (by simp only [fLit, BitVec.toNat_ofNat]; omega)
    have h6 : fOpt w = 0 := (eReg_fOpt hw hk).trans rfl
    have h7 : bits w 23 3 = 1 := (eReg_bits_23_3 hw hk).trans (by omega)
    have h8 : bit w 12 = false := (eReg_bit_12 hw hk).trans (beq_false (by omega))
    have h9 : w % 4 = 1 := (eReg_4 hw hk).trans rfl
    refine ⟨eReg_lt hw hk, by omega, hy ▸ lt_lit rfl, ?_⟩
    rw [decode_22 h0]
    simp only [decVecMem1, decVecMem, chk, h1, h2, h3, h4, h5, h6, h7, h8, h9] <;>
      simp <;> omega

theorem vloadbLit (e : ESize) (v : VReg) (a : XReg) (lit : Word) (m : MReg) : Statement (.vloadbLit e v a lit m) :=
  of_words rfl fun w x1 x2 hw hx hy hwf => by
    have b_e := ESize.code_lt e
    have hk : RegOk 1 22 v.val a.val 0 (4 + 8 * m.val) e.code := ⟨lt_lit rfl, lt_lit rfl, by omega, a.isLt, lt_lit rfl, by omega, by omega⟩
    have h0 : bits w 2 6 = 22 := (eReg_bits_2_6 hw hk).trans rfl
    have h1 : fRs1 w = a := (eReg_fRs1 hw hk).trans (fin_ofNat _)
    have h2 : fRs2 w = 0 := (eReg_fRs2 hw hk).trans rfl
    have h3 : fVd w = v := (eReg_fVd hw hk).trans (Fin.ext (by simp only [Fin.ofNat]; omega))
    have h4 : Fin.ofNat 8 (w / 2 ^ 26) = m := (eReg_Fin_ofNat_8_2_26 hw hk).trans (Fin.ext (by simp only [Fin.ofNat]; omega))
    have h5 : fLit x1 = lit := BitVec.eq_of_toNat_eq (by simp only [fLit, BitVec.toNat_ofNat]; omega)
    have h6 : fOpt w = e.code := eReg_fOpt hw hk
    have h7 : bits w 23 3 = 4 := (eReg_bits_23_3 hw hk).trans (by omega)
    have h8 : bit w 12 = false := (eReg_bit_12 hw hk).trans (beq_false (by omega))
    have h9 : w % 4 = 1 := (eReg_4 hw hk).trans rfl
    refine ⟨eReg_lt hw hk, by omega, hy ▸ lt_lit rfl, ?_⟩
    rw [decode_22 h0]
    simp only [decVecMem1, decVecMem, chk, h1, h2, h3, h4, h5, h6, h7, h8, h9, esizeOf_code] <;>
      simp <;> omega

theorem vloadExt (v : VReg) (a : XReg) (off : BitVec 47) (m : MReg) : Statement (.vloadExt v a off m) :=
  of_words rfl fun w x1 x2 hw hx hy hwf => by
    have hk : RegOk 2 22 v.val a.val 0 (0 + 8 * m.val) 0 := ⟨lt_lit rfl, lt_lit rfl, by omega, a.isLt, lt_lit rfl, by omega, lt_lit rfl⟩
    have h0 : bits w 2 6 = 22 := (eReg_bits_2_6 hw hk).trans rfl
    have h1 : fRs1 w = a := (eReg_fRs1 hw hk).trans (fin_ofNat _)
    have h2 : fRs2 w = 0 := (eReg_fRs2 hw hk).trans rfl
    have h3 : fVd w = v := (eReg_fVd hw hk).trans (Fin.ext (by simp only [Fin.ofNat]; omega))
    have h4 : Fin.ofNat 8 (w / 2 ^ 26) = m := (eReg_Fin_ofNat_8_2_26 hw hk).trans (Fin.ext (by simp only [Fin.ofNat]; omega))
    have h5 : fOff47 x1 = off := BitVec.eq_of_toNat_eq (by simp only [fOff47, BitVec.toNat_ofNat]; omega)
    have h6 : fOpt w = 0 := (eReg_fOpt hw hk).trans rfl
    have h7 : bits w 23 3 = 0 := (eReg_bits_23_3 hw hk).trans (by omega)
    have h8 : bit w 12 = false := (eReg_bit_12 hw hk).trans (beq_false (by omega))
    have h9 : w % 4 = 2 := (eReg_4 hw hk).trans rfl
    have h10 : x1 / 2 ^ 47 = 0 := by omega
    refine ⟨eReg_lt hw hk, by omega, hy ▸ lt_lit rfl, ?_⟩
    rw [decode_22 h0]
    simp only [decVecMem2, decVecMem, chk, h1, h2, h3, h4, h5, h6, h7, h8, h9, h10] <;>
      simp <;> omega

theorem vstoreExt (v : VReg) (a : XReg) (off : BitVec 47) (m : MReg) : Statement (.vstoreExt v a off m) :=
  of_words rfl fun w x1 x2 hw hx hy hwf => by
    have hk : RegOk 2 22 v.val a.val 0 (1 + 8 * m.val) 0 := ⟨lt_lit rfl, lt_lit rfl, by omega, a.isLt, lt_lit rfl, by omega, lt_lit rfl⟩
    have h0 : bits w 2 6 = 22 := (eReg_bits_2_6 hw hk).trans rfl
    have h1 : fRs1 w = a := (eReg_fRs1 hw hk).trans (fin_ofNat _)
    have h2 : fRs2 w = 0 := (eReg_fRs2 hw hk).trans rfl
    have h3 : fVd w = v := (eReg_fVd hw hk).trans (Fin.ext (by simp only [Fin.ofNat]; omega))
    have h4 : Fin.ofNat 8 (w / 2 ^ 26) = m := (eReg_Fin_ofNat_8_2_26 hw hk).trans (Fin.ext (by simp only [Fin.ofNat]; omega))
    have h5 : fOff47 x1 = off := BitVec.eq_of_toNat_eq (by simp only [fOff47, BitVec.toNat_ofNat]; omega)
    have h6 : fOpt w = 0 := (eReg_fOpt hw hk).trans rfl
    have h7 : bits w 23 3 = 1 := (eReg_bits_23_3 hw hk).trans (by omega)
    have h8 : bit w 12 = false := (eReg_bit_12 hw hk).trans (beq_false (by omega))
    have h9 : w % 4 = 2 := (eReg_4 hw hk).trans rfl
    have h10 : x1 / 2 ^ 47 = 0 := by omega
    refine ⟨eReg_lt hw hk, by omega, hy ▸ lt_lit rfl, ?_⟩
    rw [decode_22 h0]
    simp only [decVecMem2, decVecMem, chk, h1, h2, h3, h4, h5, h6, h7, h8, h9, h10] <;>
      simp <;> omega

theorem vloadbExt (e : ESize) (v : VReg) (a : XReg) (off : BitVec 47) (m : MReg) : Statement (.vloadbExt e v a off m) :=
  of_words rfl fun w x1 x2 hw hx hy hwf => by
    have b_e := ESize.code_lt e
    have hk : RegOk 2 22 v.val a.val 0 (4 + 8 * m.val) e.code := ⟨lt_lit rfl, lt_lit rfl, by omega, a.isLt, lt_lit rfl, by omega, by omega⟩
    have h0 : bits w 2 6 = 22 := (eReg_bits_2_6 hw hk).trans rfl
    have h1 : fRs1 w = a := (eReg_fRs1 hw hk).trans (fin_ofNat _)
    have h2 : fRs2 w = 0 := (eReg_fRs2 hw hk).trans rfl
    have h3 : fVd w = v := (eReg_fVd hw hk).trans (Fin.ext (by simp only [Fin.ofNat]; omega))
    have h4 : Fin.ofNat 8 (w / 2 ^ 26) = m := (eReg_Fin_ofNat_8_2_26 hw hk).trans (Fin.ext (by simp only [Fin.ofNat]; omega))
    have h5 : fOff47 x1 = off := BitVec.eq_of_toNat_eq (by simp only [fOff47, BitVec.toNat_ofNat]; omega)
    have h6 : fOpt w = e.code := eReg_fOpt hw hk
    have h7 : bits w 23 3 = 4 := (eReg_bits_23_3 hw hk).trans (by omega)
    have h8 : bit w 12 = false := (eReg_bit_12 hw hk).trans (beq_false (by omega))
    have h9 : w % 4 = 2 := (eReg_4 hw hk).trans rfl
    have h10 : x1 / 2 ^ 47 = 0 := by omega
    refine ⟨eReg_lt hw hk, by omega, hy ▸ lt_lit rfl, ?_⟩
    rw [decode_22 h0]
    simp only [decVecMem2, decVecMem, chk, h1, h2, h3, h4, h5, h6, h7, h8, h9, h10, esizeOf_code] <;>
      simp <;> omega

theorem vcmpEq (ty : Ty) (md : MReg) (a : VReg) (b : VReg) (m : MReg) : Statement (.vcmpEq ty md a b m) :=
  of_words rfl fun w x1 x2 hw hx hy hwf => by
    have b_ty := Ty.code_lt ty
    have hk : VecOk 23 md.val a.val b.val m.val ty.code 0 := ⟨lt_lit rfl, by omega, a.isLt, b.isLt, m.isLt, by omega, lt_lit rfl⟩
    have h0 : bits w 2 6 = 23 := (eVec_bits_2_6 hw hk).trans rfl
    have h1 : fVs1 w = a := (eVec_fVs1 hw hk).trans (fin_ofNat _)
    have h2 : fVs2 w = b := (eVec_fVs2 hw hk).trans (fin_ofNat _)
    have h3 : fVm w = m := (eVec_fVm hw hk).trans (fin_ofNat _)
    have h4 : fMd w = md := (eVec_fMd hw hk).trans (Fin.ext (by simp only [Fin.ofNat]; omega))
    have h5 : bits w 26 6 = 0 := (eVec_bits_26_6 hw hk).trans rfl
    have h6 : bits w 23 3 = ty.code := eVec_bits_23_3 hw hk
    have h7 : bit w 11 = false := (eVec_bit_11 hw hk).trans (beq_false (by omega))
    have h8 : w % 4 = 0 := (eVec_4 hw hk).trans rfl
    refine ⟨eVec_lt hw hk, hx ▸ lt_lit rfl, hy ▸ lt_lit rfl, ?_⟩
    rw [decode_23 h0]
    simp only [decVecPerm, chk, only00, h1, h2, h3, h4, h5, h6, h7, h8, tyOf_code] <;>
      simp <;> omega

theorem vcmpNe (ty : Ty) (md : MReg) (a : VReg) (b : VReg) (m : MReg) : Statement (.vcmpNe ty md a b m) :=
  of_words rfl fun w x1 x2 hw hx hy hwf => by
    have b_ty := Ty.code_lt ty
    have hk : VecOk 23 md.val a.val b.val m.val ty.code 1 := ⟨lt_lit rfl, by omega, a.isLt, b.isLt, m.isLt, by omega, lt_lit rfl⟩
    have h0 : bits w 2 6 = 23 := (eVec_bits_2_6 hw hk).trans rfl
    have h1 : fVs1 w = a := (eVec_fVs1 hw hk).trans (fin_ofNat _)
    have h2 : fVs2 w = b := (eVec_fVs2 hw hk).trans (fin_ofNat _)
    have h3 : fVm w = m := (eVec_fVm hw hk).trans (fin_ofNat _)
    have h4 : fMd w = md := (eVec_fMd hw hk).trans (Fin.ext (by simp only [Fin.ofNat]; omega))
    have h5 : bits w 26 6 = 1 := (eVec_bits_26_6 hw hk).trans rfl
    have h6 : bits w 23 3 = ty.code := eVec_bits_23_3 hw hk
    have h7 : bit w 11 = false := (eVec_bit_11 hw hk).trans (beq_false (by omega))
    have h8 : w % 4 = 0 := (eVec_4 hw hk).trans rfl
    refine ⟨eVec_lt hw hk, hx ▸ lt_lit rfl, hy ▸ lt_lit rfl, ?_⟩
    rw [decode_23 h0]
    simp only [decVecPerm, chk, only00, h1, h2, h3, h4, h5, h6, h7, h8, tyOf_code] <;>
      simp <;> omega

theorem vcmpLt (ty : Ty) (md : MReg) (a : VReg) (b : VReg) (m : MReg) : Statement (.vcmpLt ty md a b m) :=
  of_words rfl fun w x1 x2 hw hx hy hwf => by
    have b_ty := Ty.code_lt ty
    have hk : VecOk 23 md.val a.val b.val m.val ty.code 2 := ⟨lt_lit rfl, by omega, a.isLt, b.isLt, m.isLt, by omega, lt_lit rfl⟩
    have h0 : bits w 2 6 = 23 := (eVec_bits_2_6 hw hk).trans rfl
    have h1 : fVs1 w = a := (eVec_fVs1 hw hk).trans (fin_ofNat _)
    have h2 : fVs2 w = b := (eVec_fVs2 hw hk).trans (fin_ofNat _)
    have h3 : fVm w = m := (eVec_fVm hw hk).trans (fin_ofNat _)
    have h4 : fMd w = md := (eVec_fMd hw hk).trans (Fin.ext (by simp only [Fin.ofNat]; omega))
    have h5 : bits w 26 6 = 2 := (eVec_bits_26_6 hw hk).trans rfl
    have h6 : bits w 23 3 = ty.code := eVec_bits_23_3 hw hk
    have h7 : bit w 11 = false := (eVec_bit_11 hw hk).trans (beq_false (by omega))
    have h8 : w % 4 = 0 := (eVec_4 hw hk).trans rfl
    refine ⟨eVec_lt hw hk, hx ▸ lt_lit rfl, hy ▸ lt_lit rfl, ?_⟩
    rw [decode_23 h0]
    simp only [decVecPerm, chk, only00, h1, h2, h3, h4, h5, h6, h7, h8, tyOf_code] <;>
      simp <;> omega

theorem vcmpLe (ty : Ty) (md : MReg) (a : VReg) (b : VReg) (m : MReg) : Statement (.vcmpLe ty md a b m) :=
  of_words rfl fun w x1 x2 hw hx hy hwf => by
    have b_ty := Ty.code_lt ty
    have hk : VecOk 23 md.val a.val b.val m.val ty.code 3 := ⟨lt_lit rfl, by omega, a.isLt, b.isLt, m.isLt, by omega, lt_lit rfl⟩
    have h0 : bits w 2 6 = 23 := (eVec_bits_2_6 hw hk).trans rfl
    have h1 : fVs1 w = a := (eVec_fVs1 hw hk).trans (fin_ofNat _)
    have h2 : fVs2 w = b := (eVec_fVs2 hw hk).trans (fin_ofNat _)
    have h3 : fVm w = m := (eVec_fVm hw hk).trans (fin_ofNat _)
    have h4 : fMd w = md := (eVec_fMd hw hk).trans (Fin.ext (by simp only [Fin.ofNat]; omega))
    have h5 : bits w 26 6 = 3 := (eVec_bits_26_6 hw hk).trans rfl
    have h6 : bits w 23 3 = ty.code := eVec_bits_23_3 hw hk
    have h7 : bit w 11 = false := (eVec_bit_11 hw hk).trans (beq_false (by omega))
    have h8 : w % 4 = 0 := (eVec_4 hw hk).trans rfl
    refine ⟨eVec_lt hw hk, hx ▸ lt_lit rfl, hy ▸ lt_lit rfl, ?_⟩
    rw [decode_23 h0]
    simp only [decVecPerm, chk, only00, h1, h2, h3, h4, h5, h6, h7, h8, tyOf_code] <;>
      simp <;> omega

theorem vcmpLtu (ty : Ty) (md : MReg) (a : VReg) (b : VReg) (m : MReg) : Statement (.vcmpLtu ty md a b m) :=
  of_words rfl fun w x1 x2 hw hx hy hwf => by
    have b_ty := Ty.code_lt ty
    have n_ty := Ty.code_of_isInt hwf
    have hk : VecOk 23 md.val a.val b.val m.val ty.code 4 := ⟨lt_lit rfl, by omega, a.isLt, b.isLt, m.isLt, by omega, lt_lit rfl⟩
    have h0 : bits w 2 6 = 23 := (eVec_bits_2_6 hw hk).trans rfl
    have h1 : fVs1 w = a := (eVec_fVs1 hw hk).trans (fin_ofNat _)
    have h2 : fVs2 w = b := (eVec_fVs2 hw hk).trans (fin_ofNat _)
    have h3 : fVm w = m := (eVec_fVm hw hk).trans (fin_ofNat _)
    have h4 : fMd w = md := (eVec_fMd hw hk).trans (Fin.ext (by simp only [Fin.ofNat]; omega))
    have h5 : bits w 26 6 = 4 := (eVec_bits_26_6 hw hk).trans rfl
    have h6 : bits w 23 3 = ty.code := eVec_bits_23_3 hw hk
    have h7 : bit w 11 = false := (eVec_bit_11 hw hk).trans (beq_false (by omega))
    have h8 : w % 4 = 0 := (eVec_4 hw hk).trans rfl
    refine ⟨eVec_lt hw hk, hx ▸ lt_lit rfl, hy ▸ lt_lit rfl, ?_⟩
    rw [decode_23 h0]
    simp only [decVecPerm, chk, only00, h1, h2, h3, h4, h5, h6, h7, h8, tyOf_code] <;>
      simp <;> omega

theorem vcmpLeu (ty : Ty) (md : MReg) (a : VReg) (b : VReg) (m : MReg) : Statement (.vcmpLeu ty md a b m) :=
  of_words rfl fun w x1 x2 hw hx hy hwf => by
    have b_ty := Ty.code_lt ty
    have n_ty := Ty.code_of_isInt hwf
    have hk : VecOk 23 md.val a.val b.val m.val ty.code 5 := ⟨lt_lit rfl, by omega, a.isLt, b.isLt, m.isLt, by omega, lt_lit rfl⟩
    have h0 : bits w 2 6 = 23 := (eVec_bits_2_6 hw hk).trans rfl
    have h1 : fVs1 w = a := (eVec_fVs1 hw hk).trans (fin_ofNat _)
    have h2 : fVs2 w = b := (eVec_fVs2 hw hk).trans (fin_ofNat _)
    have h3 : fVm w = m := (eVec_fVm hw hk).trans (fin_ofNat _)
    have h4 : fMd w = md := (eVec_fMd hw hk).trans (Fin.ext (by simp only [Fin.ofNat]; omega))
    have h5 : bits w 26 6 = 5 := (eVec_bits_26_6 hw hk).trans rfl
    have h6 : bits w 23 3 = ty.code := eVec_bits_23_3 hw hk
    have h7 : bit w 11 = false := (eVec_bit_11 hw hk).trans (beq_false (by omega))
    have h8 : w % 4 = 0 := (eVec_4 hw hk).trans rfl
    refine ⟨eVec_lt hw hk, hx ▸ lt_lit rfl, hy ▸ lt_lit rfl, ?_⟩
    rw [decode_23 h0]
    simp only [decVecPerm, chk, only00, h1, h2, h3, h4, h5, h6, h7, h8, tyOf_code] <;>
      simp <;> omega

theorem vsel (ty : Ty) (d : VReg) (a : VReg) (b : VReg) (m : MReg) : Statement (.vsel ty d a b m) :=
  of_words rfl fun w x1 x2 hw hx hy hwf => by
    have b_ty := Ty.code_lt ty
    have hk : VecOk 23 d.val a.val b.val m.val ty.code 6 := ⟨lt_lit rfl, d.isLt, a.isLt, b.isLt, m.isLt, by omega, lt_lit rfl⟩
    have h0 : bits w 2 6 = 23 := (eVec_bits_2_6 hw hk).trans rfl
    have h1 : fVd w = d := (eVec_fVd hw hk).trans (fin_ofNat _)
    have h2 : fVs1 w = a := (eVec_fVs1 hw hk).trans (fin_ofNat _)
    have h3 : fVs2 w = b := (eVec_fVs2 hw hk).trans (fin_ofNat _)
    have h4 : fVm w = m := (eVec_fVm hw hk).trans (fin_ofNat _)
    have h5 : bits w 26 6 = 6 := (eVec_bits_26_6 hw hk).trans rfl
    have h6 : bits w 23 3 = ty.code := eVec_bits_23_3 hw hk
    have h7 : w % 4 = 0 := (eVec_4 hw hk).trans rfl
    refine ⟨eVec_lt hw hk, hx ▸ lt_lit rfl, hy ▸ lt_lit rfl, ?_⟩
    rw [decode_23 h0]
    simp only [decVecPerm, chk, only00, h1, h2, h3, h4, h5, h6, h7, tyOf_code] <;>
      simp <;> omega

theorem vbcast (ty : Ty) (d : VReg) (xs : LReg) (m : MReg) : Statement (.vbcast ty d xs m) :=
  of_words rfl fun w x1 x2 hw hx hy hwf => by
    have b_ty := Ty.code_lt ty
    have hk : VecOk 23 d.val xs.val 0 m.val ty.code 7 := ⟨lt_lit rfl, d.isLt, xs.isLt, lt_lit rfl, m.isLt, by omega, lt_lit rfl⟩
    have h0 : bits w 2 6 = 23 := (eVec_bits_2_6 hw hk).trans rfl
    have h1 : fVd w = d := (eVec_fVd hw hk).trans (fin_ofNat _)
    have h2 : fVs1 w = xs := (eVec_fVs1 hw hk).trans (fin_ofNat _)
    have h3 : fVs2 w = 0 := (eVec_fVs2 hw hk).trans rfl
    have h4 : fVm w = m := (eVec_fVm hw hk).trans (fin_ofNat _)
    have h5 : bits w 26 6 = 7 := (eVec_bits_26_6 hw hk).trans rfl
    have h6 : bits w 23 3 = ty.code := eVec_bits_23_3 hw hk
    have h7 : w % 4 = 0 := (eVec_4 hw hk).trans rfl
    refine ⟨eVec_lt hw hk, hx ▸ lt_lit rfl, hy ▸ lt_lit rfl, ?_⟩
    rw [decode_23 h0]
    simp only [decVecPerm, chk, only00, h1, h2, h3, h4, h5, h6, h7, tyOf_code] <;>
      simp <;> omega

theorem vext (ty : Ty) (xd : LReg) (a : VReg) (xi : LReg) : Statement (.vext ty xd a xi) :=
  of_words rfl fun w x1 x2 hw hx hy hwf => by
    have b_ty := Ty.code_lt ty
    have hk : VecOk 23 xd.val a.val xi.val 0 ty.code 8 := ⟨lt_lit rfl, xd.isLt, a.isLt, xi.isLt, lt_lit rfl, by omega, lt_lit rfl⟩
    have h0 : bits w 2 6 = 23 := (eVec_bits_2_6 hw hk).trans rfl
    have h1 : fVd w = xd := (eVec_fVd hw hk).trans (fin_ofNat _)
    have h2 : fVs1 w = a := (eVec_fVs1 hw hk).trans (fin_ofNat _)
    have h3 : fVs2 w = xi := (eVec_fVs2 hw hk).trans (fin_ofNat _)
    have h4 : fVm w = 0 := (eVec_fVm hw hk).trans rfl
    have h5 : bits w 26 6 = 8 := (eVec_bits_26_6 hw hk).trans rfl
    have h6 : bits w 23 3 = ty.code := eVec_bits_23_3 hw hk
    have h7 : w % 4 = 0 := (eVec_4 hw hk).trans rfl
    refine ⟨eVec_lt hw hk, hx ▸ lt_lit rfl, hy ▸ lt_lit rfl, ?_⟩
    rw [decode_23 h0]
    simp only [decVecPerm, chk, only00, h1, h2, h3, h4, h5, h6, h7, tyOf_code] <;>
      simp <;> omega

theorem vins (ty : Ty) (d : VReg) (xs : LReg) (xi : LReg) : Statement (.vins ty d xs xi) :=
  of_words rfl fun w x1 x2 hw hx hy hwf => by
    have b_ty := Ty.code_lt ty
    have hk : VecOk 23 d.val xs.val xi.val 0 ty.code 9 := ⟨lt_lit rfl, d.isLt, xs.isLt, xi.isLt, lt_lit rfl, by omega, lt_lit rfl⟩
    have h0 : bits w 2 6 = 23 := (eVec_bits_2_6 hw hk).trans rfl
    have h1 : fVd w = d := (eVec_fVd hw hk).trans (fin_ofNat _)
    have h2 : fVs1 w = xs := (eVec_fVs1 hw hk).trans (fin_ofNat _)
    have h3 : fVs2 w = xi := (eVec_fVs2 hw hk).trans (fin_ofNat _)
    have h4 : fVm w = 0 := (eVec_fVm hw hk).trans rfl
    have h5 : bits w 26 6 = 9 := (eVec_bits_26_6 hw hk).trans rfl
    have h6 : bits w 23 3 = ty.code := eVec_bits_23_3 hw hk
    have h7 : w % 4 = 0 := (eVec_4 hw hk).trans rfl
    refine ⟨eVec_lt hw hk, hx ▸ lt_lit rfl, hy ▸ lt_lit rfl, ?_⟩
    rw [decode_23 h0]
    simp only [decVecPerm, chk, only00, h1, h2, h3, h4, h5, h6, h7, tyOf_code] <;>
      simp <;> omega

theorem vperm (ty : Ty) (d : VReg) (a : VReg) (b : VReg) (m : MReg) : Statement (.vperm ty d a b m) :=
  of_words rfl fun w x1 x2 hw hx hy hwf => by
    have b_ty := Ty.code_lt ty
    have hk : VecOk 23 d.val a.val b.val m.val ty.code 10 := ⟨lt_lit rfl, d.isLt, a.isLt, b.isLt, m.isLt, by omega, lt_lit rfl⟩
    have h0 : bits w 2 6 = 23 := (eVec_bits_2_6 hw hk).trans rfl
    have h1 : fVd w = d := (eVec_fVd hw hk).trans (fin_ofNat _)
    have h2 : fVs1 w = a := (eVec_fVs1 hw hk).trans (fin_ofNat _)
    have h3 : fVs2 w = b := (eVec_fVs2 hw hk).trans (fin_ofNat _)
    have h4 : fVm w = m := (eVec_fVm hw hk).trans (fin_ofNat _)
    have h5 : bits w 26 6 = 10 := (eVec_bits_26_6 hw hk).trans rfl
    have h6 : bits w 23 3 = ty.code := eVec_bits_23_3 hw hk
    have h7 : w % 4 = 0 := (eVec_4 hw hk).trans rfl
    refine ⟨eVec_lt hw hk, hx ▸ lt_lit rfl, hy ▸ lt_lit rfl, ?_⟩
    rw [decode_23 h0]
    simp only [decVecPerm, chk, only00, h1, h2, h3, h4, h5, h6, h7, tyOf_code] <;>
      simp <;> omega

theorem vslide (ty : Ty) (d : VReg) (a : VReg) (xk : LReg) (m : MReg) : Statement (.vslide ty d a xk m) :=
  of_words rfl fun w x1 x2 hw hx hy hwf => by
    have b_ty := Ty.code_lt ty
    have hk : VecOk 23 d.val a.val xk.val m.val ty.code 11 := ⟨lt_lit rfl, d.isLt, a.isLt, xk.isLt, m.isLt, by omega, lt_lit rfl⟩
    have h0 : bits w 2 6 = 23 := (eVec_bits_2_6 hw hk).trans rfl
    have h1 : fVd w = d := (eVec_fVd hw hk).trans (fin_ofNat _)
    have h2 : fVs1 w = a := (eVec_fVs1 hw hk).trans (fin_ofNat _)
    have h3 : fVs2 w = xk := (eVec_fVs2 hw hk).trans (fin_ofNat _)
    have h4 : fVm w = m := (eVec_fVm hw hk).trans (fin_ofNat _)
    have h5 : bits w 26 6 = 11 := (eVec_bits_26_6 hw hk).trans rfl
    have h6 : bits w 23 3 = ty.code := eVec_bits_23_3 hw hk
    have h7 : w % 4 = 0 := (eVec_4 hw hk).trans rfl
    refine ⟨eVec_lt hw hk, hx ▸ lt_lit rfl, hy ▸ lt_lit rfl, ?_⟩
    rw [decode_23 h0]
    simp only [decVecPerm, chk, only00, h1, h2, h3, h4, h5, h6, h7, tyOf_code] <;>
      simp <;> omega

theorem vredsum (ty : Ty) (xd : LReg) (a : VReg) (m : MReg) : Statement (.vredsum ty xd a m) :=
  of_words rfl fun w x1 x2 hw hx hy hwf => by
    have b_ty := Ty.code_lt ty
    have hk : VecOk 23 xd.val a.val 0 m.val ty.code 12 := ⟨lt_lit rfl, xd.isLt, a.isLt, lt_lit rfl, m.isLt, by omega, lt_lit rfl⟩
    have h0 : bits w 2 6 = 23 := (eVec_bits_2_6 hw hk).trans rfl
    have h1 : fVd w = xd := (eVec_fVd hw hk).trans (fin_ofNat _)
    have h2 : fVs1 w = a := (eVec_fVs1 hw hk).trans (fin_ofNat _)
    have h3 : fVs2 w = 0 := (eVec_fVs2 hw hk).trans rfl
    have h4 : fVm w = m := (eVec_fVm hw hk).trans (fin_ofNat _)
    have h5 : bits w 26 6 = 12 := (eVec_bits_26_6 hw hk).trans rfl
    have h6 : bits w 23 3 = ty.code := eVec_bits_23_3 hw hk
    have h7 : w % 4 = 0 := (eVec_4 hw hk).trans rfl
    refine ⟨eVec_lt hw hk, hx ▸ lt_lit rfl, hy ▸ lt_lit rfl, ?_⟩
    rw [decode_23 h0]
    simp only [decVecPerm, chk, only00, h1, h2, h3, h4, h5, h6, h7, tyOf_code] <;>
      simp <;> omega

theorem vredmax (ty : Ty) (xd : LReg) (a : VReg) (m : MReg) : Statement (.vredmax ty xd a m) :=
  of_words rfl fun w x1 x2 hw hx hy hwf => by
    have b_ty := Ty.code_lt ty
    have hk : VecOk 23 xd.val a.val 0 m.val ty.code 13 := ⟨lt_lit rfl, xd.isLt, a.isLt, lt_lit rfl, m.isLt, by omega, lt_lit rfl⟩
    have h0 : bits w 2 6 = 23 := (eVec_bits_2_6 hw hk).trans rfl
    have h1 : fVd w = xd := (eVec_fVd hw hk).trans (fin_ofNat _)
    have h2 : fVs1 w = a := (eVec_fVs1 hw hk).trans (fin_ofNat _)
    have h3 : fVs2 w = 0 := (eVec_fVs2 hw hk).trans rfl
    have h4 : fVm w = m := (eVec_fVm hw hk).trans (fin_ofNat _)
    have h5 : bits w 26 6 = 13 := (eVec_bits_26_6 hw hk).trans rfl
    have h6 : bits w 23 3 = ty.code := eVec_bits_23_3 hw hk
    have h7 : w % 4 = 0 := (eVec_4 hw hk).trans rfl
    refine ⟨eVec_lt hw hk, hx ▸ lt_lit rfl, hy ▸ lt_lit rfl, ?_⟩
    rw [decode_23 h0]
    simp only [decVecPerm, chk, only00, h1, h2, h3, h4, h5, h6, h7, tyOf_code] <;>
      simp <;> omega

theorem vredmin (ty : Ty) (xd : LReg) (a : VReg) (m : MReg) : Statement (.vredmin ty xd a m) :=
  of_words rfl fun w x1 x2 hw hx hy hwf => by
    have b_ty := Ty.code_lt ty
    have hk : VecOk 23 xd.val a.val 0 m.val ty.code 14 := ⟨lt_lit rfl, xd.isLt, a.isLt, lt_lit rfl, m.isLt, by omega, lt_lit rfl⟩
    have h0 : bits w 2 6 = 23 := (eVec_bits_2_6 hw hk).trans rfl
    have h1 : fVd w = xd := (eVec_fVd hw hk).trans (fin_ofNat _)
    have h2 : fVs1 w = a := (eVec_fVs1 hw hk).trans (fin_ofNat _)
    have h3 : fVs2 w = 0 := (eVec_fVs2 hw hk).trans rfl
    have h4 : fVm w = m := (eVec_fVm hw hk).trans (fin_ofNat _)
    have h5 : bits w 26 6 = 14 := (eVec_bits_26_6 hw hk).trans rfl
    have h6 : bits w 23 3 = ty.code := eVec_bits_23_3 hw hk
    have h7 : w % 4 = 0 := (eVec_4 hw hk).trans rfl
    refine ⟨eVec_lt hw hk, hx ▸ lt_lit rfl, hy ▸ lt_lit rfl, ?_⟩
    rw [decode_23 h0]
    simp only [decVecPerm, chk, only00, h1, h2, h3, h4, h5, h6, h7, tyOf_code] <;>
      simp <;> omega

theorem vcvt (dty : Ty) (sty : Ty) (d : VReg) (a : VReg) (m : MReg) : Statement (.vcvt dty sty d a m) :=
  of_words rfl fun w x1 x2 hw hx hy hwf => by
    have b_dty := Ty.code_lt dty
    have b_sty := Ty.code_lt sty
    have n_ty := Ty.code_ne hwf
    have hk : VecOk 23 d.val a.val sty.code m.val dty.code 15 := ⟨lt_lit rfl, d.isLt, a.isLt, by omega, m.isLt, by omega, lt_lit rfl⟩
    have h0 : bits w 2 6 = 23 := (eVec_bits_2_6 hw hk).trans rfl
    have h1 : fVd w = d := (eVec_fVd hw hk).trans (fin_ofNat _)
    have h2 : fVs1 w = a := (eVec_fVs1 hw hk).trans (fin_ofNat _)
    have h3 : fVm w = m := (eVec_fVm hw hk).trans (fin_ofNat _)
    have h4 : bits w 26 6 = 15 := (eVec_bits_26_6 hw hk).trans rfl
    have h5 : bits w 23 3 = dty.code := eVec_bits_23_3 hw hk
    have h6 : bits w 16 3 = sty.code := (eVec_bits_16_3 hw hk).trans (by omega)
    have h7 : bit w 19 = false := (eVec_bit_19 hw hk).trans (beq_false (by omega))
    have h8 : w % 4 = 0 := (eVec_4 hw hk).trans rfl
    refine ⟨eVec_lt hw hk, hx ▸ lt_lit rfl, hy ▸ lt_lit rfl, ?_⟩
    rw [decode_23 h0]
    simp only [decVecPerm, chk, only00, h1, h2, h3, h4, h5, h6, h7, h8, tyOf_code] <;>
      simp <;> omega

theorem vmov (ty : Ty) (d : VReg) (a : VReg) (m : MReg) : Statement (.vmov ty d a m) :=
  of_words rfl fun w x1 x2 hw hx hy hwf => by
    have b_ty := Ty.code_lt ty
    have hk : VecOk 23 d.val a.val 0 m.val ty.code 16 := ⟨lt_lit rfl, d.isLt, a.isLt, lt_lit rfl, m.isLt, by omega, lt_lit rfl⟩
    have h0 : bits w 2 6 = 23 := (eVec_bits_2_6 hw hk).trans rfl
    have h1 : fVd w = d := (eVec_fVd hw hk).trans (fin_ofNat _)
    have h2 : fVs1 w = a := (eVec_fVs1 hw hk).trans (fin_ofNat _)
    have h3 : fVs2 w = 0 := (eVec_fVs2 hw hk).trans rfl
    have h4 : fVm w = m := (eVec_fVm hw hk).trans (fin_ofNat _)
    have h5 : bits w 26 6 = 16 := (eVec_bits_26_6 hw hk).trans rfl
    have h6 : bits w 23 3 = ty.code := eVec_bits_23_3 hw hk
    have h7 : w % 4 = 0 := (eVec_4 hw hk).trans rfl
    refine ⟨eVec_lt hw hk, hx ▸ lt_lit rfl, hy ▸ lt_lit rfl, ?_⟩
    rw [decode_23 h0]
    simp only [decVecPerm, chk, only00, h1, h2, h3, h4, h5, h6, h7, tyOf_code] <;>
      simp <;> omega

theorem mand (md : MReg) (a : MReg) (b : MReg) : Statement (.mand md a b) :=
  of_words rfl fun w x1 x2 hw hx hy hwf => by
    have hk : RegOk 0 24 md.val a.val b.val 0 0 := ⟨lt_lit rfl, lt_lit rfl, by omega, by omega, by omega, lt_lit rfl, lt_lit rfl⟩
    have h0 : bits w 2 6 = 24 := (eReg_bits_2_6 hw hk).trans rfl
    have h1 : fMd w = md := (eReg_fMd hw hk).trans (Fin.ext (by simp only [Fin.ofNat]; omega))
    have h2 : Fin.ofNat 8 (w / 2 ^ 13) = a := (eReg_Fin_ofNat_8_2_13 hw hk).trans (Fin.ext (by simp only [Fin.ofNat]; omega))
    have h3 : Fin.ofNat 8 (w / 2 ^ 18) = b := (eReg_Fin_ofNat_8_2_18 hw hk).trans (Fin.ext (by simp only [Fin.ofNat]; omega))
    have h4 : fFn w = 0 := (eReg_fFn hw hk).trans rfl
    have h5 : fOpt w = 0 := (eReg_fOpt hw hk).trans rfl
    have h6 : bits w 8 5 = md.val := eReg_bits_8_5 hw hk
    have h7 : bits w 13 5 = a.val := eReg_bits_13_5 hw hk
    have h8 : bits w 18 5 = b.val := eReg_bits_18_5 hw hk
    have h9 : w % 4 = 0 := (eReg_4 hw hk).trans rfl
    refine ⟨eReg_lt hw hk, hx ▸ lt_lit rfl, hy ▸ lt_lit rfl, ?_⟩
    rw [decode_24 h0]
    simp only [decMask, chk, only00, h1, h2, h3, h4, h5, h6, h7, h8, h9] <;>
      simp <;> omega

theorem mor (md : MReg) (a : MReg) (b : MReg) : Statement (.mor md a b) :=
  of_words rfl fun w x1 x2 hw hx hy hwf => by
    have hk : RegOk 0 24 md.val a.val b.val 1 0 := ⟨lt_lit rfl, lt_lit rfl, by omega, by omega, by omega, lt_lit rfl, lt_lit rfl⟩
    have h0 : bits w 2 6 = 24 := (eReg_bits_2_6 hw hk).trans rfl
    have h1 : fMd w = md := (eReg_fMd hw hk).trans (Fin.ext (by simp only [Fin.ofNat]; omega))
    have h2 : Fin.ofNat 8 (w / 2 ^ 13) = a := (eReg_Fin_ofNat_8_2_13 hw hk).trans (Fin.ext (by simp only [Fin.ofNat]; omega))
    have h3 : Fin.ofNat 8 (w / 2 ^ 18) = b := (eReg_Fin_ofNat_8_2_18 hw hk).trans (Fin.ext (by simp only [Fin.ofNat]; omega))
    have h4 : fFn w = 1 := (eReg_fFn hw hk).trans rfl
    have h5 : fOpt w = 0 := (eReg_fOpt hw hk).trans rfl
    have h6 : bits w 8 5 = md.val := eReg_bits_8_5 hw hk
    have h7 : bits w 13 5 = a.val := eReg_bits_13_5 hw hk
    have h8 : bits w 18 5 = b.val := eReg_bits_18_5 hw hk
    have h9 : w % 4 = 0 := (eReg_4 hw hk).trans rfl
    refine ⟨eReg_lt hw hk, hx ▸ lt_lit rfl, hy ▸ lt_lit rfl, ?_⟩
    rw [decode_24 h0]
    simp only [decMask, chk, only00, h1, h2, h3, h4, h5, h6, h7, h8, h9] <;>
      simp <;> omega

theorem mxor (md : MReg) (a : MReg) (b : MReg) : Statement (.mxor md a b) :=
  of_words rfl fun w x1 x2 hw hx hy hwf => by
    have hk : RegOk 0 24 md.val a.val b.val 2 0 := ⟨lt_lit rfl, lt_lit rfl, by omega, by omega, by omega, lt_lit rfl, lt_lit rfl⟩
    have h0 : bits w 2 6 = 24 := (eReg_bits_2_6 hw hk).trans rfl
    have h1 : fMd w = md := (eReg_fMd hw hk).trans (Fin.ext (by simp only [Fin.ofNat]; omega))
    have h2 : Fin.ofNat 8 (w / 2 ^ 13) = a := (eReg_Fin_ofNat_8_2_13 hw hk).trans (Fin.ext (by simp only [Fin.ofNat]; omega))
    have h3 : Fin.ofNat 8 (w / 2 ^ 18) = b := (eReg_Fin_ofNat_8_2_18 hw hk).trans (Fin.ext (by simp only [Fin.ofNat]; omega))
    have h4 : fFn w = 2 := (eReg_fFn hw hk).trans rfl
    have h5 : fOpt w = 0 := (eReg_fOpt hw hk).trans rfl
    have h6 : bits w 8 5 = md.val := eReg_bits_8_5 hw hk
    have h7 : bits w 13 5 = a.val := eReg_bits_13_5 hw hk
    have h8 : bits w 18 5 = b.val := eReg_bits_18_5 hw hk
    have h9 : w % 4 = 0 := (eReg_4 hw hk).trans rfl
    refine ⟨eReg_lt hw hk, hx ▸ lt_lit rfl, hy ▸ lt_lit rfl, ?_⟩
    rw [decode_24 h0]
    simp only [decMask, chk, only00, h1, h2, h3, h4, h5, h6, h7, h8, h9] <;>
      simp <;> omega

theorem mnot (md : MReg) (a : MReg) : Statement (.mnot md a) :=
  of_words rfl fun w x1 x2 hw hx hy hwf => by
    have hk : RegOk 0 24 md.val a.val 0 3 0 := ⟨lt_lit rfl, lt_lit rfl, by omega, by omega, lt_lit rfl, lt_lit rfl, lt_lit rfl⟩
    have h0 : bits w 2 6 = 24 := (eReg_bits_2_6 hw hk).trans rfl
    have h1 : fRs2 w = 0 := (eReg_fRs2 hw hk).trans rfl
    have h2 : fMd w = md := (eReg_fMd hw hk).trans (Fin.ext (by simp only [Fin.ofNat]; omega))
    have h3 : Fin.ofNat 8 (w / 2 ^ 13) = a := (eReg_Fin_ofNat_8_2_13 hw hk).trans (Fin.ext (by simp only [Fin.ofNat]; omega))
    have h4 : fFn w = 3 := (eReg_fFn hw hk).trans rfl
    have h5 : fOpt w = 0 := (eReg_fOpt hw hk).trans rfl
    have h6 : bits w 8 5 = md.val := eReg_bits_8_5 hw hk
    have h7 : bits w 13 5 = a.val := eReg_bits_13_5 hw hk
    have h8 : w % 4 = 0 := (eReg_4 hw hk).trans rfl
    refine ⟨eReg_lt hw hk, hx ▸ lt_lit rfl, hy ▸ lt_lit rfl, ?_⟩
    rw [decode_24 h0]
    simp only [decMask, chk, only00, h1, h2, h3, h4, h5, h6, h7, h8] <;>
      simp <;> omega

theorem mpop (d : XReg) (a : MReg) : Statement (.mpop d a) :=
  of_words rfl fun w x1 x2 hw hx hy hwf => by
    have hk : RegOk 0 24 d.val a.val 0 4 0 := ⟨lt_lit rfl, lt_lit rfl, d.isLt, by omega, lt_lit rfl, lt_lit rfl, lt_lit rfl⟩
    have h0 : bits w 2 6 = 24 := (eReg_bits_2_6 hw hk).trans rfl
    have h1 : fRd w = d := (eReg_fRd hw hk).trans (fin_ofNat _)
    have h2 : fRs2 w = 0 := (eReg_fRs2 hw hk).trans rfl
    have h3 : Fin.ofNat 8 (w / 2 ^ 13) = a := (eReg_Fin_ofNat_8_2_13 hw hk).trans (Fin.ext (by simp only [Fin.ofNat]; omega))
    have h4 : fFn w = 4 := (eReg_fFn hw hk).trans rfl
    have h5 : fOpt w = 0 := (eReg_fOpt hw hk).trans rfl
    have h6 : bits w 13 5 = a.val := eReg_bits_13_5 hw hk
    have h7 : w % 4 = 0 := (eReg_4 hw hk).trans rfl
    refine ⟨eReg_lt hw hk, hx ▸ lt_lit rfl, hy ▸ lt_lit rfl, ?_⟩
    rw [decode_24 h0]
    simp only [decMask, chk, only00, h1, h2, h3, h4, h5, h6, h7] <;>
      simp <;> omega

theorem mfirst (d : XReg) (a : MReg) : Statement (.mfirst d a) :=
  of_words rfl fun w x1 x2 hw hx hy hwf => by
    have hk : RegOk 0 24 d.val a.val 0 5 0 := ⟨lt_lit rfl, lt_lit rfl, d.isLt, by omega, lt_lit rfl, lt_lit rfl, lt_lit rfl⟩
    have h0 : bits w 2 6 = 24 := (eReg_bits_2_6 hw hk).trans rfl
    have h1 : fRd w = d := (eReg_fRd hw hk).trans (fin_ofNat _)
    have h2 : fRs2 w = 0 := (eReg_fRs2 hw hk).trans rfl
    have h3 : Fin.ofNat 8 (w / 2 ^ 13) = a := (eReg_Fin_ofNat_8_2_13 hw hk).trans (Fin.ext (by simp only [Fin.ofNat]; omega))
    have h4 : fFn w = 5 := (eReg_fFn hw hk).trans rfl
    have h5 : fOpt w = 0 := (eReg_fOpt hw hk).trans rfl
    have h6 : bits w 13 5 = a.val := eReg_bits_13_5 hw hk
    have h7 : w % 4 = 0 := (eReg_4 hw hk).trans rfl
    refine ⟨eReg_lt hw hk, hx ▸ lt_lit rfl, hy ▸ lt_lit rfl, ?_⟩
    rw [decode_24 h0]
    simp only [decMask, chk, only00, h1, h2, h3, h4, h5, h6, h7] <;>
      simp <;> omega

theorem mfromx (md : MReg) (xs : XReg) : Statement (.mfromx md xs) :=
  of_words rfl fun w x1 x2 hw hx hy hwf => by
    have hk : RegOk 0 24 md.val xs.val 0 6 0 := ⟨lt_lit rfl, lt_lit rfl, by omega, xs.isLt, lt_lit rfl, lt_lit rfl, lt_lit rfl⟩
    have h0 : bits w 2 6 = 24 := (eReg_bits_2_6 hw hk).trans rfl
    have h1 : fRs1 w = xs := (eReg_fRs1 hw hk).trans (fin_ofNat _)
    have h2 : fRs2 w = 0 := (eReg_fRs2 hw hk).trans rfl
    have h3 : fMd w = md := (eReg_fMd hw hk).trans (Fin.ext (by simp only [Fin.ofNat]; omega))
    have h4 : fFn w = 6 := (eReg_fFn hw hk).trans rfl
    have h5 : fOpt w = 0 := (eReg_fOpt hw hk).trans rfl
    have h6 : bits w 8 5 = md.val := eReg_bits_8_5 hw hk
    have h7 : w % 4 = 0 := (eReg_4 hw hk).trans rfl
    refine ⟨eReg_lt hw hk, hx ▸ lt_lit rfl, hy ▸ lt_lit rfl, ?_⟩
    rw [decode_24 h0]
    simp only [decMask, chk, only00, h1, h2, h3, h4, h5, h6, h7] <;>
      simp <;> omega

theorem mtox (d : XReg) (a : MReg) : Statement (.mtox d a) :=
  of_words rfl fun w x1 x2 hw hx hy hwf => by
    have hk : RegOk 0 24 d.val a.val 0 7 0 := ⟨lt_lit rfl, lt_lit rfl, d.isLt, by omega, lt_lit rfl, lt_lit rfl, lt_lit rfl⟩
    have h0 : bits w 2 6 = 24 := (eReg_bits_2_6 hw hk).trans rfl
    have h1 : fRd w = d := (eReg_fRd hw hk).trans (fin_ofNat _)
    have h2 : fRs2 w = 0 := (eReg_fRs2 hw hk).trans rfl
    have h3 : Fin.ofNat 8 (w / 2 ^ 13) = a := (eReg_Fin_ofNat_8_2_13 hw hk).trans (Fin.ext (by simp only [Fin.ofNat]; omega))
    have h4 : fFn w = 7 := (eReg_fFn hw hk).trans rfl
    have h5 : fOpt w = 0 := (eReg_fOpt hw hk).trans rfl
    have h6 : bits w 13 5 = a.val := eReg_bits_13_5 hw hk
    have h7 : w % 4 = 0 := (eReg_4 hw hk).trans rfl
    refine ⟨eReg_lt hw hk, hx ▸ lt_lit rfl, hy ▸ lt_lit rfl, ?_⟩
    rw [decode_24 h0]
    simp only [decMask, chk, only00, h1, h2, h3, h4, h5, h6, h7] <;>
      simp <;> omega

theorem vfmac (ty : Ty) (d : VReg) (a : VReg) (b : VReg) (m : MReg) : Statement (.vfmac ty d a b m) :=
  of_words rfl fun w x1 x2 hw hx hy hwf => by
    have b_ty := Ty.code_lt ty
    have n_ty := Ty.code_of_float hwf
    have hk : VecOk 25 d.val a.val b.val m.val ty.code 0 := ⟨lt_lit rfl, d.isLt, a.isLt, b.isLt, m.isLt, by omega, lt_lit rfl⟩
    have h0 : bits w 2 6 = 25 := (eVec_bits_2_6 hw hk).trans rfl
    have h1 : fVd w = d := (eVec_fVd hw hk).trans (fin_ofNat _)
    have h2 : fVs1 w = a := (eVec_fVs1 hw hk).trans (fin_ofNat _)
    have h3 : fVs2 w = b := (eVec_fVs2 hw hk).trans (fin_ofNat _)
    have h4 : fVm w = m := (eVec_fVm hw hk).trans (fin_ofNat _)
    have h5 : bits w 26 6 = 0 := (eVec_bits_26_6 hw hk).trans rfl
    have h6 : bits w 23 3 = ty.code := eVec_bits_23_3 hw hk
    have h7 : w % 4 = 0 := (eVec_4 hw hk).trans rfl
    refine ⟨eVec_lt hw hk, hx ▸ lt_lit rfl, hy ▸ lt_lit rfl, ?_⟩
    rw [decode_25 h0]
    simp only [decVecFma, chk, only00, h1, h2, h3, h4, h5, h6, h7, tyOf_code] <;>
      simp <;> omega

theorem vdot4 (d : VReg) (a : VReg) (b : VReg) (m : MReg) : Statement (.vdot4 d a b m) :=
  of_words rfl fun w x1 x2 hw hx hy hwf => by
    have hk : VecOk 25 d.val a.val b.val m.val 2 1 := ⟨lt_lit rfl, d.isLt, a.isLt, b.isLt, m.isLt, lt_lit rfl, lt_lit rfl⟩
    have h0 : bits w 2 6 = 25 := (eVec_bits_2_6 hw hk).trans rfl
    have h1 : fVd w = d := (eVec_fVd hw hk).trans (fin_ofNat _)
    have h2 : fVs1 w = a := (eVec_fVs1 hw hk).trans (fin_ofNat _)
    have h3 : fVs2 w = b := (eVec_fVs2 hw hk).trans (fin_ofNat _)
    have h4 : fVm w = m := (eVec_fVm hw hk).trans (fin_ofNat _)
    have h5 : bits w 26 6 = 1 := (eVec_bits_26_6 hw hk).trans rfl
    have h6 : bits w 23 3 = 2 := (eVec_bits_23_3 hw hk).trans rfl
    have h7 : w % 4 = 0 := (eVec_4 hw hk).trans rfl
    refine ⟨eVec_lt hw hk, hx ▸ lt_lit rfl, hy ▸ lt_lit rfl, ?_⟩
    rw [decode_25 h0]
    simp only [decVecFma, chk, only00, h1, h2, h3, h4, h5, h6, h7] <;>
      simp <;> omega

theorem tload (t : TReg) (xa : XReg) (xs : LReg) : Statement (.tload t xa xs) :=
  of_words rfl fun w x1 x2 hw hx hy hwf => by
    have hk : TilOk 28 t.val 0 xs.val xa.val 0 0 := ⟨lt_lit rfl, t.isLt, lt_lit rfl, xs.isLt, xa.isLt, lt_lit rfl, lt_lit rfl⟩
    have h0 : bits w 2 6 = 28 := (eTil_bits_2_6 hw hk).trans rfl
    have h1 : fVd w = t := (eTil_fVd hw hk).trans (fin_ofNat _)
    have h2 : fVs1 w = 0 := (eTil_fVs1 hw hk).trans rfl
    have h3 : fVs2 w = xs := (eTil_fVs2 hw hk).trans (fin_ofNat _)
    have h4 : Fin.ofNat 32 (w / 2 ^ 20) = xa := (eTil_Fin_ofNat_32_2_20 hw hk).trans (fin_ofNat _)
    have h5 : fOpt w = 0 := (eTil_fOpt hw hk).trans rfl
    have h6 : bits w 25 4 = 0 := (eTil_bits_25_4 hw hk).trans rfl
    have h7 : w % 4 = 0 := (eTil_4 hw hk).trans rfl
    refine ⟨eTil_lt hw hk, hx ▸ lt_lit rfl, hy ▸ lt_lit rfl, ?_⟩
    rw [decode_28 h0]
    simp only [decTileMem, chk, only00, h1, h2, h3, h4, h5, h6, h7] <;>
      simp <;> omega

theorem tloadt (t : TReg) (xa : XReg) (xs : LReg) : Statement (.tloadt t xa xs) :=
  of_words rfl fun w x1 x2 hw hx hy hwf => by
    have hk : TilOk 28 t.val 0 xs.val xa.val 1 0 := ⟨lt_lit rfl, t.isLt, lt_lit rfl, xs.isLt, xa.isLt, lt_lit rfl, lt_lit rfl⟩
    have h0 : bits w 2 6 = 28 := (eTil_bits_2_6 hw hk).trans rfl
    have h1 : fVd w = t := (eTil_fVd hw hk).trans (fin_ofNat _)
    have h2 : fVs1 w = 0 := (eTil_fVs1 hw hk).trans rfl
    have h3 : fVs2 w = xs := (eTil_fVs2 hw hk).trans (fin_ofNat _)
    have h4 : Fin.ofNat 32 (w / 2 ^ 20) = xa := (eTil_Fin_ofNat_32_2_20 hw hk).trans (fin_ofNat _)
    have h5 : fOpt w = 0 := (eTil_fOpt hw hk).trans rfl
    have h6 : bits w 25 4 = 1 := (eTil_bits_25_4 hw hk).trans rfl
    have h7 : w % 4 = 0 := (eTil_4 hw hk).trans rfl
    refine ⟨eTil_lt hw hk, hx ▸ lt_lit rfl, hy ▸ lt_lit rfl, ?_⟩
    rw [decode_28 h0]
    simp only [decTileMem, chk, only00, h1, h2, h3, h4, h5, h6, h7] <;>
      simp <;> omega

theorem tloads (t : TReg) (xa : XReg) (xs : LReg) : Statement (.tloads t xa xs) :=
  of_words rfl fun w x1 x2 hw hx hy hwf => by
    have hk : TilOk 28 t.val 0 xs.val xa.val 2 0 := ⟨lt_lit rfl, t.isLt, lt_lit rfl, xs.isLt, xa.isLt, lt_lit rfl, lt_lit rfl⟩
    have h0 : bits w 2 6 = 28 := (eTil_bits_2_6 hw hk).trans rfl
    have h1 : fVd w = t := (eTil_fVd hw hk).trans (fin_ofNat _)
    have h2 : fVs1 w = 0 := (eTil_fVs1 hw hk).trans rfl
    have h3 : fVs2 w = xs := (eTil_fVs2 hw hk).trans (fin_ofNat _)
    have h4 : Fin.ofNat 32 (w / 2 ^ 20) = xa := (eTil_Fin_ofNat_32_2_20 hw hk).trans (fin_ofNat _)
    have h5 : fOpt w = 0 := (eTil_fOpt hw hk).trans rfl
    have h6 : bits w 25 4 = 2 := (eTil_bits_25_4 hw hk).trans rfl
    have h7 : w % 4 = 0 := (eTil_4 hw hk).trans rfl
    refine ⟨eTil_lt hw hk, hx ▸ lt_lit rfl, hy ▸ lt_lit rfl, ?_⟩
    rw [decode_28 h0]
    simp only [decTileMem, chk, only00, h1, h2, h3, h4, h5, h6, h7] <;>
      simp <;> omega

theorem tstore (t : TReg) (xa : XReg) (xs : LReg) : Statement (.tstore t xa xs) :=
  of_words rfl fun w x1 x2 hw hx hy hwf => by
    have hk : TilOk 28 t.val 0 xs.val xa.val 3 0 := ⟨lt_lit rfl, t.isLt, lt_lit rfl, xs.isLt, xa.isLt, lt_lit rfl, lt_lit rfl⟩
    have h0 : bits w 2 6 = 28 := (eTil_bits_2_6 hw hk).trans rfl
    have h1 : fVd w = t := (eTil_fVd hw hk).trans (fin_ofNat _)
    have h2 : fVs1 w = 0 := (eTil_fVs1 hw hk).trans rfl
    have h3 : fVs2 w = xs := (eTil_fVs2 hw hk).trans (fin_ofNat _)
    have h4 : Fin.ofNat 32 (w / 2 ^ 20) = xa := (eTil_Fin_ofNat_32_2_20 hw hk).trans (fin_ofNat _)
    have h5 : fOpt w = 0 := (eTil_fOpt hw hk).trans rfl
    have h6 : bits w 25 4 = 3 := (eTil_bits_25_4 hw hk).trans rfl
    have h7 : w % 4 = 0 := (eTil_4 hw hk).trans rfl
    refine ⟨eTil_lt hw hk, hx ▸ lt_lit rfl, hy ▸ lt_lit rfl, ?_⟩
    rw [decode_28 h0]
    simp only [decTileMem, chk, only00, h1, h2, h3, h4, h5, h6, h7] <;>
      simp <;> omega

theorem taccld (acc : AReg) (xa : XReg) (xs : LReg) : Statement (.taccld acc xa xs) :=
  of_words rfl fun w x1 x2 hw hx hy hwf => by
    have hk : TilOk 28 acc.val 0 xs.val xa.val 4 0 := ⟨lt_lit rfl, by omega, lt_lit rfl, xs.isLt, xa.isLt, lt_lit rfl, lt_lit rfl⟩
    have h0 : bits w 2 6 = 28 := (eTil_bits_2_6 hw hk).trans rfl
    have h1 : fVs1 w = 0 := (eTil_fVs1 hw hk).trans rfl
    have h2 : fVs2 w = xs := (eTil_fVs2 hw hk).trans (fin_ofNat _)
    have h3 : Fin.ofNat 8 (w / 2 ^ 8) = acc := (eTil_Fin_ofNat_8_2_8 hw hk).trans (Fin.ext (by simp only [Fin.ofNat]; omega))
    have h4 : Fin.ofNat 32 (w / 2 ^ 20) = xa := (eTil_Fin_ofNat_32_2_20 hw hk).trans (fin_ofNat _)
    have h5 : fOpt w = 0 := (eTil_fOpt hw hk).trans rfl
    have h6 : bits w 25 4 = 4 := (eTil_bits_25_4 hw hk).trans rfl
    have h7 : bit w 11 = false := (eTil_bit_11 hw hk).trans (beq_false (by omega))
    have h8 : w % 4 = 0 := (eTil_4 hw hk).trans rfl
    refine ⟨eTil_lt hw hk, hx ▸ lt_lit rfl, hy ▸ lt_lit rfl, ?_⟩
    rw [decode_28 h0]
    simp only [decTileMem, chk, only00, h1, h2, h3, h4, h5, h6, h7, h8] <;>
      simp <;> omega

theorem taccst (acc : AReg) (xa : XReg) (xs : LReg) : Statement (.taccst acc xa xs) :=
  of_words rfl fun w x1 x2 hw hx hy hwf => by
    have hk : TilOk 28 acc.val 0 xs.val xa.val 5 0 := ⟨lt_lit rfl, by omega, lt_lit rfl, xs.isLt, xa.isLt, lt_lit rfl, lt_lit rfl⟩
    have h0 : bits w 2 6 = 28 := (eTil_bits_2_6 hw hk).trans rfl
    have h1 : fVs1 w = 0 := (eTil_fVs1 hw hk).trans rfl
    have h2 : fVs2 w = xs := (eTil_fVs2 hw hk).trans (fin_ofNat _)
    have h3 : Fin.ofNat 8 (w / 2 ^ 8) = acc := (eTil_Fin_ofNat_8_2_8 hw hk).trans (Fin.ext (by simp only [Fin.ofNat]; omega))
    have h4 : Fin.ofNat 32 (w / 2 ^ 20) = xa := (eTil_Fin_ofNat_32_2_20 hw hk).trans (fin_ofNat _)
    have h5 : fOpt w = 0 := (eTil_fOpt hw hk).trans rfl
    have h6 : bits w 25 4 = 5 := (eTil_bits_25_4 hw hk).trans rfl
    have h7 : bit w 11 = false := (eTil_bit_11 hw hk).trans (beq_false (by omega))
    have h8 : w % 4 = 0 := (eTil_4 hw hk).trans rfl
    refine ⟨eTil_lt hw hk, hx ▸ lt_lit rfl, hy ▸ lt_lit rfl, ?_⟩
    rw [decode_28 h0]
    simp only [decTileMem, chk, only00, h1, h2, h3, h4, h5, h6, h7, h8] <;>
      simp <;> omega

theorem tmma (acc : AReg) (ta : TReg) (tb : TReg) : Statement (.tmma acc ta tb) :=
  of_words rfl fun w x1 x2 hw hx hy hwf => by
    have hk : TilOk 29 acc.val ta.val tb.val 0 0 0 := ⟨lt_lit rfl, by omega, ta.isLt, tb.isLt, lt_lit rfl, lt_lit rfl, lt_lit rfl⟩
    have h0 : bits w 2 6 = 29 := (eTil_bits_2_6 hw hk).trans rfl
    have h1 : fVs1 w = ta := (eTil_fVs1 hw hk).trans (fin_ofNat _)
    have h2 : fVs2 w = tb := (eTil_fVs2 hw hk).trans (fin_ofNat _)
    have h3 : Fin.ofNat 8 (w / 2 ^ 8) = acc := (eTil_Fin_ofNat_8_2_8 hw hk).trans (Fin.ext (by simp only [Fin.ofNat]; omega))
    have h4 : fOpt w = 0 := (eTil_fOpt hw hk).trans rfl
    have h5 : bits w 25 4 = 0 := (eTil_bits_25_4 hw hk).trans rfl
    have h6 : bits w 20 5 = 0 := (eTil_bits_20_5 hw hk).trans rfl
    have h7 : bit w 11 = false := (eTil_bit_11 hw hk).trans (beq_false (by omega))
    have h8 : w % 4 = 0 := (eTil_4 hw hk).trans rfl
    refine ⟨eTil_lt hw hk, hx ▸ lt_lit rfl, hy ▸ lt_lit rfl, ?_⟩
    rw [decode_29 h0]
    simp only [decTileComp, chk, only00, h1, h2, h3, h4, h5, h6, h7, h8] <;>
      simp <;> omega

theorem taccout (td : TReg) (acc : AReg) (ta : TReg) (tb : TReg) (cb : BitVec 5) : Statement (.taccout td acc ta tb cb) :=
  of_words rfl fun w x1 x2 hw hx hy hwf => by
    have hk : TilOk 29 td.val ta.val tb.val (acc.val + 8 * (cb.toNat / 8)) 1 (cb.toNat % 8) := ⟨lt_lit rfl, td.isLt, ta.isLt, tb.isLt, by omega, lt_lit rfl, by omega⟩
    have h0 : bits w 2 6 = 29 := (eTil_bits_2_6 hw hk).trans rfl
    have h1 : fVd w = td := (eTil_fVd hw hk).trans (fin_ofNat _)
    have h2 : fVs1 w = ta := (eTil_fVs1 hw hk).trans (fin_ofNat _)
    have h3 : fVs2 w = tb := (eTil_fVs2 hw hk).trans (fin_ofNat _)
    have h4 : Fin.ofNat 8 (w / 2 ^ 20) = acc := (eTil_Fin_ofNat_8_2_20 hw hk).trans (Fin.ext (by simp only [Fin.ofNat]; omega))
    have h5 : bits w 25 4 = 1 := (eTil_bits_25_4 hw hk).trans rfl
    have h6 : bits w 23 2 = (cb.toNat / 8) := (eTil_bits_23_2 hw hk).trans (by omega)
    have h7 : bits w 29 3 = (cb.toNat % 8) := eTil_bits_29_3 hw hk
    have h8 : w % 4 = 0 := (eTil_4 hw hk).trans rfl
    refine ⟨eTil_lt hw hk, hx ▸ lt_lit rfl, hy ▸ lt_lit rfl, ?_⟩
    rw [decode_29 h0]
    simp only [decTileComp, chk, only00, h1, h2, h3, h4, h5, h6, h7, h8] <;>
      simp
    exact BitVec.eq_of_toNat_eq (by simp only [BitVec.toNat_ofNat]; omega)

theorem taccadd (accd : AReg) (accs : AReg) : Statement (.taccadd accd accs) :=
  of_words rfl fun w x1 x2 hw hx hy hwf => by
    have hk : TilOk 29 accd.val accs.val 0 0 2 0 := ⟨lt_lit rfl, by omega, by omega, lt_lit rfl, lt_lit rfl, lt_lit rfl, lt_lit rfl⟩
    have h0 : bits w 2 6 = 29 := (eTil_bits_2_6 hw hk).trans rfl
    have h1 : fVs2 w = 0 := (eTil_fVs2 hw hk).trans rfl
    have h2 : Fin.ofNat 8 (w / 2 ^ 8) = accd := (eTil_Fin_ofNat_8_2_8 hw hk).trans (Fin.ext (by simp only [Fin.ofNat]; omega))
    have h3 : Fin.ofNat 8 (w / 2 ^ 12) = accs := (eTil_Fin_ofNat_8_2_12 hw hk).trans (Fin.ext (by simp only [Fin.ofNat]; omega))
    have h4 : fOpt w = 0 := (eTil_fOpt hw hk).trans rfl
    have h5 : bits w 25 4 = 2 := (eTil_bits_25_4 hw hk).trans rfl
    have h6 : bits w 20 5 = 0 := (eTil_bits_20_5 hw hk).trans rfl
    have h7 : bit w 11 = false := (eTil_bit_11 hw hk).trans (beq_false (by omega))
    have h8 : bit w 15 = false := (eTil_bit_15 hw hk).trans (beq_false (by omega))
    have h9 : w % 4 = 0 := (eTil_4 hw hk).trans rfl
    refine ⟨eTil_lt hw hk, hx ▸ lt_lit rfl, hy ▸ lt_lit rfl, ?_⟩
    rw [decode_29 h0]
    simp only [decTileComp, chk, only00, h1, h2, h3, h4, h5, h6, h7, h8, h9] <;>
      simp <;> omega

theorem tzero (td : TReg) : Statement (.tzero td) :=
  of_words rfl fun w x1 x2 hw hx hy hwf => by
    have hk : TilOk 30 td.val 0 0 0 0 0 := ⟨lt_lit rfl, td.isLt, lt_lit rfl, lt_lit rfl, lt_lit rfl, lt_lit rfl, lt_lit rfl⟩
    have h0 : bits w 2 6 = 30 := (eTil_bits_2_6 hw hk).trans rfl
    have h1 : fVd w = td := (eTil_fVd hw hk).trans (fin_ofNat _)
    have h2 : fOpt w = 0 := (eTil_fOpt hw hk).trans rfl
    have h3 : bits w 25 4 = 0 := (eTil_bits_25_4 hw hk).trans rfl
    have h4 : bits w 12 13 = 0 := (eTil_bits_12_13 hw hk).trans rfl
    have h5 : w % 4 = 0 := (eTil_4 hw hk).trans rfl
    refine ⟨eTil_lt hw hk, hx ▸ lt_lit rfl, hy ▸ lt_lit rfl, ?_⟩
    rw [decode_30 h0]
    simp only [decTileMisc, chk, only00, h1, h2, h3, h4, h5] <;>
      simp <;> omega

theorem taccz (acc : AReg) : Statement (.taccz acc) :=
  of_words rfl fun w x1 x2 hw hx hy hwf => by
    have hk : TilOk 30 acc.val 0 0 0 1 0 := ⟨lt_lit rfl, by omega, lt_lit rfl, lt_lit rfl, lt_lit rfl, lt_lit rfl, lt_lit rfl⟩
    have h0 : bits w 2 6 = 30 := (eTil_bits_2_6 hw hk).trans rfl
    have h1 : Fin.ofNat 8 (w / 2 ^ 8) = acc := (eTil_Fin_ofNat_8_2_8 hw hk).trans (Fin.ext (by simp only [Fin.ofNat]; omega))
    have h2 : fOpt w = 0 := (eTil_fOpt hw hk).trans rfl
    have h3 : bits w 25 4 = 1 := (eTil_bits_25_4 hw hk).trans rfl
    have h4 : bits w 12 13 = 0 := (eTil_bits_12_13 hw hk).trans rfl
    have h5 : bit w 11 = false := (eTil_bit_11 hw hk).trans (beq_false (by omega))
    have h6 : w % 4 = 0 := (eTil_4 hw hk).trans rfl
    refine ⟨eTil_lt hw hk, hx ▸ lt_lit rfl, hy ▸ lt_lit rfl, ?_⟩
    rw [decode_30 h0]
    simp only [decTileMisc, chk, only00, h1, h2, h3, h4, h5, h6] <;>
      simp <;> omega

theorem txch (tp : TReg) (ta : TReg) (h : Bool) : Statement (.txch tp ta h) :=
  of_words rfl fun w x1 x2 hw hx hy hwf => by
    have b_h := b2n_lt h
    have hk : TilOk 30 tp.val ta.val 0 0 2 (b2n h) := ⟨lt_lit rfl, tp.isLt, ta.isLt, lt_lit rfl, lt_lit rfl, lt_lit rfl, by omega⟩
    have h0 : bits w 2 6 = 30 := (eTil_bits_2_6 hw hk).trans rfl
    have h1 : fVd w = tp := (eTil_fVd hw hk).trans (fin_ofNat _)
    have h2 : fVs1 w = ta := (eTil_fVs1 hw hk).trans (fin_ofNat _)
    have h3 : bits w 25 4 = 2 := (eTil_bits_25_4 hw hk).trans rfl
    have h4 : bits w 16 9 = 0 := (eTil_bits_16_9 hw hk).trans rfl
    have h5 : bits w 30 2 = 0 := (eTil_bits_30_2 hw hk).trans (by omega)
    have h6 : bit w 29 = h := (eTil_bit_29 hw hk).trans (beq_b2n (by omega))
    have h7 : w % 4 = 0 := (eTil_4 hw hk).trans rfl
    refine ⟨eTil_lt hw hk, hx ▸ lt_lit rfl, hy ▸ lt_lit rfl, ?_⟩
    rw [decode_30 h0]
    simp only [decTileMisc, chk, only00, h1, h2, h3, h4, h5, h6, h7] <;>
      simp <;> omega

theorem tcvt (td : TReg) (ta : TReg) : Statement (.tcvt td ta) :=
  of_words rfl fun w x1 x2 hw hx hy hwf => by
    have hk : TilOk 30 td.val ta.val 0 0 3 0 := ⟨lt_lit rfl, td.isLt, ta.isLt, lt_lit rfl, lt_lit rfl, lt_lit rfl, lt_lit rfl⟩
    have h0 : bits w 2 6 = 30 := (eTil_bits_2_6 hw hk).trans rfl
    have h1 : fVd w = td := (eTil_fVd hw hk).trans (fin_ofNat _)
    have h2 : fVs1 w = ta := (eTil_fVs1 hw hk).trans (fin_ofNat _)
    have h3 : fOpt w = 0 := (eTil_fOpt hw hk).trans rfl
    have h4 : bits w 25 4 = 3 := (eTil_bits_25_4 hw hk).trans rfl
    have h5 : bits w 16 9 = 0 := (eTil_bits_16_9 hw hk).trans rfl
    have h6 : w % 4 = 0 := (eTil_4 hw hk).trans rfl
    refine ⟨eTil_lt hw hk, hx ▸ lt_lit rfl, hy ▸ lt_lit rfl, ?_⟩
    rw [decode_30 h0]
    simp only [decTileMisc, chk, only00, h1, h2, h3, h4, h5, h6] <;>
      simp <;> omega

theorem verst (v : VReg) (xa : XReg) (xv : XReg) (os : Os) : Statement (.verst v xa xv os) :=
  of_words rfl fun w x1 x2 hw hx hy hwf => by
    have b_os := Os.code_lt os
    have n_os := Os.code_of_storeOk hwf
    have hk : RegOk 0 32 v.val xa.val xv.val (os.code % 2 + 2 * 0) (os.code / 2) := ⟨lt_lit rfl, lt_lit rfl, by omega, xa.isLt, xv.isLt, by omega, by omega⟩
    have h0 : bits w 2 6 = 32 := (eReg_bits_2_6 hw hk).trans rfl
    have h1 : fRs1 w = xa := (eReg_fRs1 hw hk).trans (fin_ofNat _)
    have h2 : fRs2 w = xv := (eReg_fRs2 hw hk).trans (fin_ofNat _)
    have h3 : fVd w = v := (eReg_fVd hw hk).trans (Fin.ext (by simp only [Fin.ofNat]; omega))
    have h4 : fOs w = os.code := (eReg_fOs hw hk).trans (by omega)
    have h5 : bits w 24 5 = 0 := (eReg_bits_24_5 hw hk).trans (by omega)
    have h6 : bit w 12 = false := (eReg_bit_12 hw hk).trans (beq_false (by omega))
    have h7 : w % 4 = 0 := (eReg_4 hw hk).trans rfl
    refine ⟨eReg_lt hw hk, hx ▸ lt_lit rfl, hy ▸ lt_lit rfl, ?_⟩
    rw [decode_32 h0]
    simp only [decVersion, chk, only00, h1, h2, h3, h4, h5, h6, h7, osOf_code] <;>
      simp <;> omega

theorem verld (v : VReg) (xa : XReg) (xv : XReg) (os : Os) : Statement (.verld v xa xv os) :=
  of_words rfl fun w x1 x2 hw hx hy hwf => by
    have b_os := Os.code_lt os
    have n_os := Os.code_of_loadOk hwf
    have hk : RegOk 0 32 v.val xa.val xv.val (os.code % 2 + 2 * 1) (os.code / 2) := ⟨lt_lit rfl, lt_lit rfl, by omega, xa.isLt, xv.isLt, by omega, by omega⟩
    have h0 : bits w 2 6 = 32 := (eReg_bits_2_6 hw hk).trans rfl
    have h1 : fRs1 w = xa := (eReg_fRs1 hw hk).trans (fin_ofNat _)
    have h2 : fRs2 w = xv := (eReg_fRs2 hw hk).trans (fin_ofNat _)
    have h3 : fVd w = v := (eReg_fVd hw hk).trans (Fin.ext (by simp only [Fin.ofNat]; omega))
    have h4 : fOs w = os.code := (eReg_fOs hw hk).trans (by omega)
    have h5 : bits w 24 5 = 1 := (eReg_bits_24_5 hw hk).trans (by omega)
    have h6 : bit w 12 = false := (eReg_bit_12 hw hk).trans (beq_false (by omega))
    have h7 : w % 4 = 0 := (eReg_4 hw hk).trans rfl
    refine ⟨eReg_lt hw hk, hx ▸ lt_lit rfl, hy ▸ lt_lit rfl, ?_⟩
    rw [decode_32 h0]
    simp only [decVersion, chk, only00, h1, h2, h3, h4, h5, h6, h7, osOf_code] <;>
      simp <;> omega

theorem verldle (v : VReg) (xa : XReg) (xv : XReg) (os : Os) : Statement (.verldle v xa xv os) :=
  of_words rfl fun w x1 x2 hw hx hy hwf => by
    have b_os := Os.code_lt os
    have n_os := Os.code_of_loadOk hwf
    have hk : RegOk 0 32 v.val xa.val xv.val (os.code % 2 + 2 * 2) (os.code / 2) := ⟨lt_lit rfl, lt_lit rfl, by omega, xa.isLt, xv.isLt, by omega, by omega⟩
    have h0 : bits w 2 6 = 32 := (eReg_bits_2_6 hw hk).trans rfl
    have h1 : fRs1 w = xa := (eReg_fRs1 hw hk).trans (fin_ofNat _)
    have h2 : fRs2 w = xv := (eReg_fRs2 hw hk).trans (fin_ofNat _)
    have h3 : fVd w = v := (eReg_fVd hw hk).trans (Fin.ext (by simp only [Fin.ofNat]; omega))
    have h4 : fOs w = os.code := (eReg_fOs hw hk).trans (by omega)
    have h5 : bits w 24 5 = 2 := (eReg_bits_24_5 hw hk).trans (by omega)
    have h6 : bit w 12 = false := (eReg_bit_12 hw hk).trans (beq_false (by omega))
    have h7 : w % 4 = 0 := (eReg_4 hw hk).trans rfl
    refine ⟨eReg_lt hw hk, hx ▸ lt_lit rfl, hy ▸ lt_lit rfl, ?_⟩
    rw [decode_32 h0]
    simp only [decVersion, chk, only00, h1, h2, h3, h4, h5, h6, h7, osOf_code] <;>
      simp <;> omega

theorem verprobe (d : XReg) (xa : XReg) (xv : XReg) : Statement (.verprobe d xa xv) :=
  of_words rfl fun w x1 x2 hw hx hy hwf => by
    have hk : RegOk 0 32 d.val xa.val xv.val (2 * 3) 0 := ⟨lt_lit rfl, lt_lit rfl, d.isLt, xa.isLt, xv.isLt, by omega, lt_lit rfl⟩
    have h0 : bits w 2 6 = 32 := (eReg_bits_2_6 hw hk).trans rfl
    have h1 : fRd w = d := (eReg_fRd hw hk).trans (fin_ofNat _)
    have h2 : fRs1 w = xa := (eReg_fRs1 hw hk).trans (fin_ofNat _)
    have h3 : fRs2 w = xv := (eReg_fRs2 hw hk).trans (fin_ofNat _)
    have h4 : fOs w = 0 := (eReg_fOs hw hk).trans (by omega)
    have h5 : bits w 24 5 = 3 := (eReg_bits_24_5 hw hk).trans (by omega)
    have h6 : w % 4 = 0 := (eReg_4 hw hk).trans rfl
    refine ⟨eReg_lt hw hk, hx ▸ lt_lit rfl, hy ▸ lt_lit rfl, ?_⟩
    rw [decode_32 h0]
    simp only [decVersion, chk, only00, h1, h2, h3, h4, h5, h6] <;>
      simp <;> omega

theorem verfloor (d : XReg) (xa : XReg) (xf : XReg) (os : Os) : Statement (.verfloor d xa xf os) :=
  of_words rfl fun w x1 x2 hw hx hy hwf => by
    have b_os := Os.code_lt os
    have n_os := Os.code_of_storeOk hwf
    have hk : RegOk 0 32 d.val xa.val xf.val (os.code % 2 + 2 * 4) (os.code / 2) := ⟨lt_lit rfl, lt_lit rfl, d.isLt, xa.isLt, xf.isLt, by omega, by omega⟩
    have h0 : bits w 2 6 = 32 := (eReg_bits_2_6 hw hk).trans rfl
    have h1 : fRd w = d := (eReg_fRd hw hk).trans (fin_ofNat _)
    have h2 : fRs1 w = xa := (eReg_fRs1 hw hk).trans (fin_ofNat _)
    have h3 : fRs2 w = xf := (eReg_fRs2 hw hk).trans (fin_ofNat _)
    have h4 : fOs w = os.code := (eReg_fOs hw hk).trans (by omega)
    have h5 : bits w 24 5 = 4 := (eReg_bits_24_5 hw hk).trans (by omega)
    have h6 : w % 4 = 0 := (eReg_4 hw hk).trans rfl
    refine ⟨eReg_lt hw hk, hx ▸ lt_lit rfl, hy ▸ lt_lit rfl, ?_⟩
    rw [decode_32 h0]
    simp only [decVersion, chk, only00, h1, h2, h3, h4, h5, h6, osOf_code] <;>
      simp <;> omega

theorem verdrop (xa : XReg) (os : Os) : Statement (.verdrop xa os) :=
  of_words rfl fun w x1 x2 hw hx hy hwf => by
    have b_os := Os.code_lt os
    have n_os := Os.code_of_storeOk hwf
    have hk : RegOk 0 32 0 xa.val 0 (os.code % 2 + 2 * 5) (os.code / 2) := ⟨lt_lit rfl, lt_lit rfl, lt_lit rfl, xa.isLt, lt_lit rfl, by omega, by omega⟩
    have h0 : bits w 2 6 = 32 := (eReg_bits_2_6 hw hk).trans rfl
    have h1 : fRd w = 0 := (eReg_fRd hw hk).trans rfl
    have h2 : fRs1 w = xa := (eReg_fRs1 hw hk).trans (fin_ofNat _)
    have h3 : fRs2 w = 0 := (eReg_fRs2 hw hk).trans rfl
    have h4 : fOs w = os.code := (eReg_fOs hw hk).trans (by omega)
    have h5 : bits w 24 5 = 5 := (eReg_bits_24_5 hw hk).trans (by omega)
    have h6 : w % 4 = 0 := (eReg_4 hw hk).trans rfl
    refine ⟨eReg_lt hw hk, hx ▸ lt_lit rfl, hy ▸ lt_lit rfl, ?_⟩
    rw [decode_32 h0]
    simp only [decVersion, chk, only00, h1, h2, h3, h4, h5, h6, osOf_code] <;>
      simp <;> omega

theorem cpy1 (xd : XReg) (xs : XReg) (xn : XReg) (xc : XReg) (xv : XReg) : Statement (.cpy1 xd xs xn xc xv) :=
  of_words rfl fun w x1 x2 hw hx hy hwf => by
    have n_xc := reg_or hwf
    have hk : RegOk 2 33 xd.val xs.val 0 0 0 := ⟨lt_lit rfl, lt_lit rfl, xd.isLt, xs.isLt, lt_lit rfl, lt_lit rfl, lt_lit rfl⟩
    have h0 : bits w 2 6 = 33 := (eReg_bits_2_6 hw hk).trans rfl
    have h1 : fRd w = xd := (eReg_fRd hw hk).trans (fin_ofNat _)
    have h2 : fRs1 w = xs := (eReg_fRs1 hw hk).trans (fin_ofNat _)
    have h3 : fRs2 w = 0 := (eReg_fRs2 hw hk).trans rfl
    have h4 : Fin.ofNat 32 x1 = xn := Fin.ext (by simp only [Fin.ofNat]; omega)
    have h5 : Fin.ofNat 32 (x1 / 2 ^ 5) = xc := Fin.ext (by simp only [Fin.ofNat]; omega)
    have h6 : Fin.ofNat 32 (x1 / 2 ^ 10) = xv := Fin.ext (by simp only [Fin.ofNat]; omega)
    have h7 : fFn w = 0 := (eReg_fFn hw hk).trans rfl
    have h8 : fOpt w = 0 := (eReg_fOpt hw hk).trans rfl
    have h9 : bits x1 5 5 = xc.val := by simp only [bits]; omega
    have h10 : bits x1 10 5 = xv.val := by simp only [bits]; omega
    have h11 : w % 4 = 2 := (eReg_4 hw hk).trans rfl
    have h12 : x1 / 2 ^ 15 = 0 := by omega
    refine ⟨eReg_lt hw hk, by omega, hy ▸ lt_lit rfl, ?_⟩
    rw [decode_33 h0]
    simp only [decCopy, chk, h1, h2, h3, h4, h5, h6, h7, h8, h9, h10, h11, h12] <;>
      simp <;> omega

theorem cpy2 (xd : XReg) (xs : XReg) (xn : XReg) (xc : XReg) (xv : XReg) : Statement (.cpy2 xd xs xn xc xv) :=
  of_words rfl fun w x1 x2 hw hx hy hwf => by
    have n_xc := reg_or hwf
    have hk : RegOk 2 33 xd.val xs.val 0 1 0 := ⟨lt_lit rfl, lt_lit rfl, xd.isLt, xs.isLt, lt_lit rfl, lt_lit rfl, lt_lit rfl⟩
    have h0 : bits w 2 6 = 33 := (eReg_bits_2_6 hw hk).trans rfl
    have h1 : fRd w = xd := (eReg_fRd hw hk).trans (fin_ofNat _)
    have h2 : fRs1 w = xs := (eReg_fRs1 hw hk).trans (fin_ofNat _)
    have h3 : fRs2 w = 0 := (eReg_fRs2 hw hk).trans rfl
    have h4 : Fin.ofNat 32 x1 = xn := Fin.ext (by simp only [Fin.ofNat]; omega)
    have h5 : Fin.ofNat 32 (x1 / 2 ^ 5) = xc := Fin.ext (by simp only [Fin.ofNat]; omega)
    have h6 : Fin.ofNat 32 (x1 / 2 ^ 10) = xv := Fin.ext (by simp only [Fin.ofNat]; omega)
    have h7 : fFn w = 1 := (eReg_fFn hw hk).trans rfl
    have h8 : fOpt w = 0 := (eReg_fOpt hw hk).trans rfl
    have h9 : bits x1 5 5 = xc.val := by simp only [bits]; omega
    have h10 : bits x1 10 5 = xv.val := by simp only [bits]; omega
    have h11 : w % 4 = 2 := (eReg_4 hw hk).trans rfl
    have h12 : x1 / 2 ^ 15 = 0 := by omega
    refine ⟨eReg_lt hw hk, by omega, hy ▸ lt_lit rfl, ?_⟩
    rw [decode_33 h0]
    simp only [decCopy, chk, h1, h2, h3, h4, h5, h6, h7, h8, h9, h10, h11, h12] <;>
      simp <;> omega

theorem cpy3 (xd : XReg) (xs : XReg) (xn : XReg) (xc : XReg) (xv : XReg) : Statement (.cpy3 xd xs xn xc xv) :=
  of_words rfl fun w x1 x2 hw hx hy hwf => by
    have n_xc := reg_or hwf
    have hk : RegOk 2 33 xd.val xs.val 0 2 0 := ⟨lt_lit rfl, lt_lit rfl, xd.isLt, xs.isLt, lt_lit rfl, lt_lit rfl, lt_lit rfl⟩
    have h0 : bits w 2 6 = 33 := (eReg_bits_2_6 hw hk).trans rfl
    have h1 : fRd w = xd := (eReg_fRd hw hk).trans (fin_ofNat _)
    have h2 : fRs1 w = xs := (eReg_fRs1 hw hk).trans (fin_ofNat _)
    have h3 : fRs2 w = 0 := (eReg_fRs2 hw hk).trans rfl
    have h4 : Fin.ofNat 32 x1 = xn := Fin.ext (by simp only [Fin.ofNat]; omega)
    have h5 : Fin.ofNat 32 (x1 / 2 ^ 5) = xc := Fin.ext (by simp only [Fin.ofNat]; omega)
    have h6 : Fin.ofNat 32 (x1 / 2 ^ 10) = xv := Fin.ext (by simp only [Fin.ofNat]; omega)
    have h7 : fFn w = 2 := (eReg_fFn hw hk).trans rfl
    have h8 : fOpt w = 0 := (eReg_fOpt hw hk).trans rfl
    have h9 : bits x1 5 5 = xc.val := by simp only [bits]; omega
    have h10 : bits x1 10 5 = xv.val := by simp only [bits]; omega
    have h11 : w % 4 = 2 := (eReg_4 hw hk).trans rfl
    have h12 : x1 / 2 ^ 15 = 0 := by omega
    refine ⟨eReg_lt hw hk, by omega, hy ▸ lt_lit rfl, ?_⟩
    rw [decode_33 h0]
    simp only [decCopy, chk, h1, h2, h3, h4, h5, h6, h7, h8, h9, h10, h11, h12] <;>
      simp <;> omega

theorem cpyv (xd : XReg) (xs : XReg) (xn : XReg) (xver : XReg) (xc : XReg) (xv : XReg) : Statement (.cpyv xd xs xn xver xc xv) :=
  of_words rfl fun w x1 x2 hw hx hy hwf => by
    have n_xc := reg_or hwf
    have hk : RegOk 2 33 xd.val xs.val xver.val 3 0 := ⟨lt_lit rfl, lt_lit rfl, xd.isLt, xs.isLt, xver.isLt, lt_lit rfl, lt_lit rfl⟩
    have h0 : bits w 2 6 = 33 := (eReg_bits_2_6 hw hk).trans rfl
    have h1 : fRd w = xd := (eReg_fRd hw hk).trans (fin_ofNat _)
    have h2 : fRs1 w = xs := (eReg_fRs1 hw hk).trans (fin_ofNat _)
    have h3 : fRs2 w = xver := (eReg_fRs2 hw hk).trans (fin_ofNat _)
    have h4 : Fin.ofNat 32 x1 = xn := Fin.ext (by simp only [Fin.ofNat]; omega)
    have h5 : Fin.ofNat 32 (x1 / 2 ^ 5) = xc := Fin.ext (by simp only [Fin.ofNat]; omega)
    have h6 : Fin.ofNat 32 (x1 / 2 ^ 10) = xv := Fin.ext (by simp only [Fin.ofNat]; omega)
    have h7 : fFn w = 3 := (eReg_fFn hw hk).trans rfl
    have h8 : fOpt w = 0 := (eReg_fOpt hw hk).trans rfl
    have h9 : bits x1 5 5 = xc.val := by simp only [bits]; omega
    have h10 : bits x1 10 5 = xv.val := by simp only [bits]; omega
    have h11 : w % 4 = 2 := (eReg_4 hw hk).trans rfl
    have h12 : x1 / 2 ^ 15 = 0 := by omega
    refine ⟨eReg_lt hw hk, by omega, hy ▸ lt_lit rfl, ?_⟩
    rw [decode_33 h0]
    simp only [decCopy, chk, h1, h2, h3, h4, h5, h6, h7, h8, h9, h10, h11, h12] <;>
      simp <;> omega

theorem cpyq (xd : XReg) (xs : XReg) (xn : XReg) (xc : XReg) (xv : XReg) : Statement (.cpyq xd xs xn xc xv) :=
  of_words rfl fun w x1 x2 hw hx hy hwf => by
    have n_xc := reg_or hwf
    have hk : RegOk 2 33 xd.val xs.val 0 4 0 := ⟨lt_lit rfl, lt_lit rfl, xd.isLt, xs.isLt, lt_lit rfl, lt_lit rfl, lt_lit rfl⟩
    have h0 : bits w 2 6 = 33 := (eReg_bits_2_6 hw hk).trans rfl
    have h1 : fRd w = xd := (eReg_fRd hw hk).trans (fin_ofNat _)
    have h2 : fRs1 w = xs := (eReg_fRs1 hw hk).trans (fin_ofNat _)
    have h3 : fRs2 w = 0 := (eReg_fRs2 hw hk).trans rfl
    have h4 : Fin.ofNat 32 x1 = xn := Fin.ext (by simp only [Fin.ofNat]; omega)
    have h5 : Fin.ofNat 32 (x1 / 2 ^ 5) = xc := Fin.ext (by simp only [Fin.ofNat]; omega)
    have h6 : Fin.ofNat 32 (x1 / 2 ^ 10) = xv := Fin.ext (by simp only [Fin.ofNat]; omega)
    have h7 : fFn w = 4 := (eReg_fFn hw hk).trans rfl
    have h8 : fOpt w = 0 := (eReg_fOpt hw hk).trans rfl
    have h9 : bits x1 5 5 = xc.val := by simp only [bits]; omega
    have h10 : bits x1 10 5 = xv.val := by simp only [bits]; omega
    have h11 : w % 4 = 2 := (eReg_4 hw hk).trans rfl
    have h12 : x1 / 2 ^ 15 = 0 := by omega
    refine ⟨eReg_lt hw hk, by omega, hy ▸ lt_lit rfl, ?_⟩
    rw [decode_33 h0]
    simp only [decCopy, chk, h1, h2, h3, h4, h5, h6, h7, h8, h9, h10, h11, h12] <;>
      simp <;> omega

theorem cpyx (xd : XReg) (xs : XReg) (xn : XReg) (xc : XReg) (xv : XReg) : Statement (.cpyx xd xs xn xc xv) :=
  of_words rfl fun w x1 x2 hw hx hy hwf => by
    have n_xc := reg_or hwf
    have hk : RegOk 2 33 xd.val xs.val 0 5 0 := ⟨lt_lit rfl, lt_lit rfl, xd.isLt, xs.isLt, lt_lit rfl, lt_lit rfl, lt_lit rfl⟩
    have h0 : bits w 2 6 = 33 := (eReg_bits_2_6 hw hk).trans rfl
    have h1 : fRd w = xd := (eReg_fRd hw hk).trans (fin_ofNat _)
    have h2 : fRs1 w = xs := (eReg_fRs1 hw hk).trans (fin_ofNat _)
    have h3 : fRs2 w = 0 := (eReg_fRs2 hw hk).trans rfl
    have h4 : Fin.ofNat 32 x1 = xn := Fin.ext (by simp only [Fin.ofNat]; omega)
    have h5 : Fin.ofNat 32 (x1 / 2 ^ 5) = xc := Fin.ext (by simp only [Fin.ofNat]; omega)
    have h6 : Fin.ofNat 32 (x1 / 2 ^ 10) = xv := Fin.ext (by simp only [Fin.ofNat]; omega)
    have h7 : fFn w = 5 := (eReg_fFn hw hk).trans rfl
    have h8 : fOpt w = 0 := (eReg_fOpt hw hk).trans rfl
    have h9 : bits x1 5 5 = xc.val := by simp only [bits]; omega
    have h10 : bits x1 10 5 = xv.val := by simp only [bits]; omega
    have h11 : w % 4 = 2 := (eReg_4 hw hk).trans rfl
    have h12 : x1 / 2 ^ 15 = 0 := by omega
    refine ⟨eReg_lt hw hk, by omega, hy ▸ lt_lit rfl, ?_⟩
    rw [decode_33 h0]
    simp only [decCopy, chk, h1, h2, h3, h4, h5, h6, h7, h8, h9, h10, h11, h12] <;>
      simp <;> omega

theorem cpy1Lit (xd : XReg) (xs : XReg) (xn : XReg) (xc : XReg) (lit : Word) : Statement (.cpy1Lit xd xs xn xc lit) :=
  of_words rfl fun w x1 x2 hw hx hy hwf => by
    have n_xc := fin_ne hwf
    have hk : RegOk 3 33 xd.val xs.val 0 0 0 := ⟨lt_lit rfl, lt_lit rfl, xd.isLt, xs.isLt, lt_lit rfl, lt_lit rfl, lt_lit rfl⟩
    have h0 : bits w 2 6 = 33 := (eReg_bits_2_6 hw hk).trans rfl
    have h1 : fRd w = xd := (eReg_fRd hw hk).trans (fin_ofNat _)
    have h2 : fRs1 w = xs := (eReg_fRs1 hw hk).trans (fin_ofNat _)
    have h3 : fRs2 w = 0 := (eReg_fRs2 hw hk).trans rfl
    have h4 : Fin.ofNat 32 x1 = xn := Fin.ext (by simp only [Fin.ofNat]; omega)
    have h5 : Fin.ofNat 32 (x1 / 2 ^ 5) = xc := Fin.ext (by simp only [Fin.ofNat]; omega)
    have h6 : fLit x2 = lit := BitVec.eq_of_toNat_eq (by simp only [fLit, BitVec.toNat_ofNat]; omega)
    have h7 : fFn w = 0 := (eReg_fFn hw hk).trans rfl
    have h8 : fOpt w = 0 := (eReg_fOpt hw hk).trans rfl
    have h9 : bits x1 5 5 = xc.val := by simp only [bits]; omega
    have h10 : bits x1 10 5 = 0 := by simp only [bits]; omega
    have h11 : w % 4 = 3 := (eReg_4 hw hk).trans rfl
    have h12 : x1 / 2 ^ 15 = 0 := by omega
    refine ⟨eReg_lt hw hk, by omega, by omega, ?_⟩
    rw [decode_33 h0]
    simp only [decCopy, chk, h1, h2, h3, h4, h5, h6, h7, h8, h9, h10, h11, h12] <;>
      simp <;> omega

theorem cpy2Lit (xd : XReg) (xs : XReg) (xn : XReg) (xc : XReg) (lit : Word) : Statement (.cpy2Lit xd xs xn xc lit) :=
  of_words rfl fun w x1 x2 hw hx hy hwf => by
    have n_xc := fin_ne hwf
    have hk : RegOk 3 33 xd.val xs.val 0 1 0 := ⟨lt_lit rfl, lt_lit rfl, xd.isLt, xs.isLt, lt_lit rfl, lt_lit rfl, lt_lit rfl⟩
    have h0 : bits w 2 6 = 33 := (eReg_bits_2_6 hw hk).trans rfl
    have h1 : fRd w = xd := (eReg_fRd hw hk).trans (fin_ofNat _)
    have h2 : fRs1 w = xs := (eReg_fRs1 hw hk).trans (fin_ofNat _)
    have h3 : fRs2 w = 0 := (eReg_fRs2 hw hk).trans rfl
    have h4 : Fin.ofNat 32 x1 = xn := Fin.ext (by simp only [Fin.ofNat]; omega)
    have h5 : Fin.ofNat 32 (x1 / 2 ^ 5) = xc := Fin.ext (by simp only [Fin.ofNat]; omega)
    have h6 : fLit x2 = lit := BitVec.eq_of_toNat_eq (by simp only [fLit, BitVec.toNat_ofNat]; omega)
    have h7 : fFn w = 1 := (eReg_fFn hw hk).trans rfl
    have h8 : fOpt w = 0 := (eReg_fOpt hw hk).trans rfl
    have h9 : bits x1 5 5 = xc.val := by simp only [bits]; omega
    have h10 : bits x1 10 5 = 0 := by simp only [bits]; omega
    have h11 : w % 4 = 3 := (eReg_4 hw hk).trans rfl
    have h12 : x1 / 2 ^ 15 = 0 := by omega
    refine ⟨eReg_lt hw hk, by omega, by omega, ?_⟩
    rw [decode_33 h0]
    simp only [decCopy, chk, h1, h2, h3, h4, h5, h6, h7, h8, h9, h10, h11, h12] <;>
      simp <;> omega

theorem cpy3Lit (xd : XReg) (xs : XReg) (xn : XReg) (xc : XReg) (lit : Word) : Statement (.cpy3Lit xd xs xn xc lit) :=
  of_words rfl fun w x1 x2 hw hx hy hwf => by
    have n_xc := fin_ne hwf
    have hk : RegOk 3 33 xd.val xs.val 0 2 0 := ⟨lt_lit rfl, lt_lit rfl, xd.isLt, xs.isLt, lt_lit rfl, lt_lit rfl, lt_lit rfl⟩
    have h0 : bits w 2 6 = 33 := (eReg_bits_2_6 hw hk).trans rfl
    have h1 : fRd w = xd := (eReg_fRd hw hk).trans (fin_ofNat _)
    have h2 : fRs1 w = xs := (eReg_fRs1 hw hk).trans (fin_ofNat _)
    have h3 : fRs2 w = 0 := (eReg_fRs2 hw hk).trans rfl
    have h4 : Fin.ofNat 32 x1 = xn := Fin.ext (by simp only [Fin.ofNat]; omega)
    have h5 : Fin.ofNat 32 (x1 / 2 ^ 5) = xc := Fin.ext (by simp only [Fin.ofNat]; omega)
    have h6 : fLit x2 = lit := BitVec.eq_of_toNat_eq (by simp only [fLit, BitVec.toNat_ofNat]; omega)
    have h7 : fFn w = 2 := (eReg_fFn hw hk).trans rfl
    have h8 : fOpt w = 0 := (eReg_fOpt hw hk).trans rfl
    have h9 : bits x1 5 5 = xc.val := by simp only [bits]; omega
    have h10 : bits x1 10 5 = 0 := by simp only [bits]; omega
    have h11 : w % 4 = 3 := (eReg_4 hw hk).trans rfl
    have h12 : x1 / 2 ^ 15 = 0 := by omega
    refine ⟨eReg_lt hw hk, by omega, by omega, ?_⟩
    rw [decode_33 h0]
    simp only [decCopy, chk, h1, h2, h3, h4, h5, h6, h7, h8, h9, h10, h11, h12] <;>
      simp <;> omega

theorem cpyvLit (xd : XReg) (xs : XReg) (xn : XReg) (xver : XReg) (xc : XReg) (lit : Word) : Statement (.cpyvLit xd xs xn xver xc lit) :=
  of_words rfl fun w x1 x2 hw hx hy hwf => by
    have n_xc := fin_ne hwf
    have hk : RegOk 3 33 xd.val xs.val xver.val 3 0 := ⟨lt_lit rfl, lt_lit rfl, xd.isLt, xs.isLt, xver.isLt, lt_lit rfl, lt_lit rfl⟩
    have h0 : bits w 2 6 = 33 := (eReg_bits_2_6 hw hk).trans rfl
    have h1 : fRd w = xd := (eReg_fRd hw hk).trans (fin_ofNat _)
    have h2 : fRs1 w = xs := (eReg_fRs1 hw hk).trans (fin_ofNat _)
    have h3 : fRs2 w = xver := (eReg_fRs2 hw hk).trans (fin_ofNat _)
    have h4 : Fin.ofNat 32 x1 = xn := Fin.ext (by simp only [Fin.ofNat]; omega)
    have h5 : Fin.ofNat 32 (x1 / 2 ^ 5) = xc := Fin.ext (by simp only [Fin.ofNat]; omega)
    have h6 : fLit x2 = lit := BitVec.eq_of_toNat_eq (by simp only [fLit, BitVec.toNat_ofNat]; omega)
    have h7 : fFn w = 3 := (eReg_fFn hw hk).trans rfl
    have h8 : fOpt w = 0 := (eReg_fOpt hw hk).trans rfl
    have h9 : bits x1 5 5 = xc.val := by simp only [bits]; omega
    have h10 : bits x1 10 5 = 0 := by simp only [bits]; omega
    have h11 : w % 4 = 3 := (eReg_4 hw hk).trans rfl
    have h12 : x1 / 2 ^ 15 = 0 := by omega
    refine ⟨eReg_lt hw hk, by omega, by omega, ?_⟩
    rw [decode_33 h0]
    simp only [decCopy, chk, h1, h2, h3, h4, h5, h6, h7, h8, h9, h10, h11, h12] <;>
      simp <;> omega

theorem cpyqLit (xd : XReg) (xs : XReg) (xn : XReg) (xc : XReg) (lit : Word) : Statement (.cpyqLit xd xs xn xc lit) :=
  of_words rfl fun w x1 x2 hw hx hy hwf => by
    have n_xc := fin_ne hwf
    have hk : RegOk 3 33 xd.val xs.val 0 4 0 := ⟨lt_lit rfl, lt_lit rfl, xd.isLt, xs.isLt, lt_lit rfl, lt_lit rfl, lt_lit rfl⟩
    have h0 : bits w 2 6 = 33 := (eReg_bits_2_6 hw hk).trans rfl
    have h1 : fRd w = xd := (eReg_fRd hw hk).trans (fin_ofNat _)
    have h2 : fRs1 w = xs := (eReg_fRs1 hw hk).trans (fin_ofNat _)
    have h3 : fRs2 w = 0 := (eReg_fRs2 hw hk).trans rfl
    have h4 : Fin.ofNat 32 x1 = xn := Fin.ext (by simp only [Fin.ofNat]; omega)
    have h5 : Fin.ofNat 32 (x1 / 2 ^ 5) = xc := Fin.ext (by simp only [Fin.ofNat]; omega)
    have h6 : fLit x2 = lit := BitVec.eq_of_toNat_eq (by simp only [fLit, BitVec.toNat_ofNat]; omega)
    have h7 : fFn w = 4 := (eReg_fFn hw hk).trans rfl
    have h8 : fOpt w = 0 := (eReg_fOpt hw hk).trans rfl
    have h9 : bits x1 5 5 = xc.val := by simp only [bits]; omega
    have h10 : bits x1 10 5 = 0 := by simp only [bits]; omega
    have h11 : w % 4 = 3 := (eReg_4 hw hk).trans rfl
    have h12 : x1 / 2 ^ 15 = 0 := by omega
    refine ⟨eReg_lt hw hk, by omega, by omega, ?_⟩
    rw [decode_33 h0]
    simp only [decCopy, chk, h1, h2, h3, h4, h5, h6, h7, h8, h9, h10, h11, h12] <;>
      simp <;> omega

theorem cpyxLit (xd : XReg) (xs : XReg) (xn : XReg) (xc : XReg) (lit : Word) : Statement (.cpyxLit xd xs xn xc lit) :=
  of_words rfl fun w x1 x2 hw hx hy hwf => by
    have n_xc := fin_ne hwf
    have hk : RegOk 3 33 xd.val xs.val 0 5 0 := ⟨lt_lit rfl, lt_lit rfl, xd.isLt, xs.isLt, lt_lit rfl, lt_lit rfl, lt_lit rfl⟩
    have h0 : bits w 2 6 = 33 := (eReg_bits_2_6 hw hk).trans rfl
    have h1 : fRd w = xd := (eReg_fRd hw hk).trans (fin_ofNat _)
    have h2 : fRs1 w = xs := (eReg_fRs1 hw hk).trans (fin_ofNat _)
    have h3 : fRs2 w = 0 := (eReg_fRs2 hw hk).trans rfl
    have h4 : Fin.ofNat 32 x1 = xn := Fin.ext (by simp only [Fin.ofNat]; omega)
    have h5 : Fin.ofNat 32 (x1 / 2 ^ 5) = xc := Fin.ext (by simp only [Fin.ofNat]; omega)
    have h6 : fLit x2 = lit := BitVec.eq_of_toNat_eq (by simp only [fLit, BitVec.toNat_ofNat]; omega)
    have h7 : fFn w = 5 := (eReg_fFn hw hk).trans rfl
    have h8 : fOpt w = 0 := (eReg_fOpt hw hk).trans rfl
    have h9 : bits x1 5 5 = xc.val := by simp only [bits]; omega
    have h10 : bits x1 10 5 = 0 := by simp only [bits]; omega
    have h11 : w % 4 = 3 := (eReg_4 hw hk).trans rfl
    have h12 : x1 / 2 ^ 15 = 0 := by omega
    refine ⟨eReg_lt hw hk, by omega, by omega, ?_⟩
    rw [decode_33 h0]
    simp only [decCopy, chk, h1, h2, h3, h4, h5, h6, h7, h8, h9, h10, h11, h12] <;>
      simp <;> omega

theorem collred (op : CollOp) (fmt : CollFmt) (br : Bool) (xd : XReg) (xs : XReg) (xn : XReg) (xc : XReg) (xr : XReg) : Statement (.collred op fmt br xd xs xn xc xr) :=
  of_words rfl fun w x1 x2 hw hx hy hwf => by
    have b_op := CollOp.code_lt op
    have b_fmt := CollFmt.code_lt fmt
    have b_br := b2n_lt br
    have n_op := CollOp.code_fmt hwf
    have hk : RegOk 2 34 xd.val xs.val xn.val 0 0 := ⟨lt_lit rfl, lt_lit rfl, xd.isLt, xs.isLt, xn.isLt, lt_lit rfl, lt_lit rfl⟩
    have h0 : bits w 2 6 = 34 := (eReg_bits_2_6 hw hk).trans rfl
    have h1 : fRd w = xd := (eReg_fRd hw hk).trans (fin_ofNat _)
    have h2 : fRs1 w = xs := (eReg_fRs1 hw hk).trans (fin_ofNat _)
    have h3 : fRs2 w = xn := (eReg_fRs2 hw hk).trans (fin_ofNat _)
    have h4 : Fin.ofNat 32 (x1 / 2 ^ 8) = xc := Fin.ext (by simp only [Fin.ofNat]; omega)
    have h5 : Fin.ofNat 32 (x1 / 2 ^ 13) = xr := Fin.ext (by simp only [Fin.ofNat]; omega)
    have h6 : fFn w = 0 := (eReg_fFn hw hk).trans rfl
    have h7 : fOpt w = 0 := (eReg_fOpt hw hk).trans rfl
    have h8 : bits x1 3 4 = fmt.code := by simp only [bits]; omega
    have h9 : bits x1 0 3 = op.code := by simp only [bits]; omega
    have h10 : bit x1 7 = br := bit_of (by omega)
    have h11 : w % 4 = 2 := (eReg_4 hw hk).trans rfl
    have h12 : x1 / 2 ^ 18 = 0 := by omega
    refine ⟨eReg_lt hw hk, by omega, hy ▸ lt_lit rfl, ?_⟩
    rw [decode_34 h0]
    simp only [decColl, chk, h1, h2, h3, h4, h5, h6, h7, h8, h9, h10, h11, h12, collFmtOf_code, collOpOf_code] <;>
      simp
    rw [if_neg (by omega), if_neg (by omega)]

theorem collgath (fmt : CollFmt) (br : Bool) (xd : XReg) (xs : XReg) (xn : XReg) (xc : XReg) (xr : XReg) : Statement (.collgath fmt br xd xs xn xc xr) :=
  of_words rfl fun w x1 x2 hw hx hy hwf => by
    have b_fmt := CollFmt.code_lt fmt
    have b_br := b2n_lt br
    have hk : RegOk 2 34 xd.val xs.val xn.val 1 0 := ⟨lt_lit rfl, lt_lit rfl, xd.isLt, xs.isLt, xn.isLt, lt_lit rfl, lt_lit rfl⟩
    have h0 : bits w 2 6 = 34 := (eReg_bits_2_6 hw hk).trans rfl
    have h1 : fRd w = xd := (eReg_fRd hw hk).trans (fin_ofNat _)
    have h2 : fRs1 w = xs := (eReg_fRs1 hw hk).trans (fin_ofNat _)
    have h3 : fRs2 w = xn := (eReg_fRs2 hw hk).trans (fin_ofNat _)
    have h4 : Fin.ofNat 32 (x1 / 2 ^ 8) = xc := Fin.ext (by simp only [Fin.ofNat]; omega)
    have h5 : Fin.ofNat 32 (x1 / 2 ^ 13) = xr := Fin.ext (by simp only [Fin.ofNat]; omega)
    have h6 : fFn w = 1 := (eReg_fFn hw hk).trans rfl
    have h7 : fOpt w = 0 := (eReg_fOpt hw hk).trans rfl
    have h8 : bits x1 3 4 = fmt.code := by simp only [bits]; omega
    have h9 : bits x1 0 3 = 0 := by simp only [bits]; omega
    have h10 : bit x1 7 = br := bit_of (by omega)
    have h11 : w % 4 = 2 := (eReg_4 hw hk).trans rfl
    have h12 : x1 / 2 ^ 18 = 0 := by omega
    refine ⟨eReg_lt hw hk, by omega, hy ▸ lt_lit rfl, ?_⟩
    rw [decode_34 h0]
    simp only [decColl, chk, h1, h2, h3, h4, h5, h6, h7, h8, h9, h10, h11, h12, collFmtOf_code] <;>
      simp <;> omega

theorem collbcast (fmt : CollFmt) (br : Bool) (xd : XReg) (xs : XReg) (xn : XReg) (xc : XReg) (xr : XReg) : Statement (.collbcast fmt br xd xs xn xc xr) :=
  of_words rfl fun w x1 x2 hw hx hy hwf => by
    have b_fmt := CollFmt.code_lt fmt
    have b_br := b2n_lt br
    have hk : RegOk 2 34 xd.val xs.val xn.val 2 0 := ⟨lt_lit rfl, lt_lit rfl, xd.isLt, xs.isLt, xn.isLt, lt_lit rfl, lt_lit rfl⟩
    have h0 : bits w 2 6 = 34 := (eReg_bits_2_6 hw hk).trans rfl
    have h1 : fRd w = xd := (eReg_fRd hw hk).trans (fin_ofNat _)
    have h2 : fRs1 w = xs := (eReg_fRs1 hw hk).trans (fin_ofNat _)
    have h3 : fRs2 w = xn := (eReg_fRs2 hw hk).trans (fin_ofNat _)
    have h4 : Fin.ofNat 32 (x1 / 2 ^ 8) = xc := Fin.ext (by simp only [Fin.ofNat]; omega)
    have h5 : Fin.ofNat 32 (x1 / 2 ^ 13) = xr := Fin.ext (by simp only [Fin.ofNat]; omega)
    have h6 : fFn w = 2 := (eReg_fFn hw hk).trans rfl
    have h7 : fOpt w = 0 := (eReg_fOpt hw hk).trans rfl
    have h8 : bits x1 3 4 = fmt.code := by simp only [bits]; omega
    have h9 : bits x1 0 3 = 0 := by simp only [bits]; omega
    have h10 : bit x1 7 = br := bit_of (by omega)
    have h11 : w % 4 = 2 := (eReg_4 hw hk).trans rfl
    have h12 : x1 / 2 ^ 18 = 0 := by omega
    refine ⟨eReg_lt hw hk, by omega, hy ▸ lt_lit rfl, ?_⟩
    rw [decode_34 h0]
    simp only [decColl, chk, h1, h2, h3, h4, h5, h6, h7, h8, h9, h10, h11, h12, collFmtOf_code] <;>
      simp <;> omega

theorem msend (d : XReg) (v : VReg) (xt : XReg) : Statement (.msend d v xt) :=
  of_words rfl fun w x1 x2 hw hx hy hwf => by
    have hk : RegOk 0 35 d.val xt.val v.val 0 0 := ⟨lt_lit rfl, lt_lit rfl, d.isLt, xt.isLt, by omega, lt_lit rfl, lt_lit rfl⟩
    have h0 : bits w 2 6 = 35 := (eReg_bits_2_6 hw hk).trans rfl
    have h1 : fRd w = d := (eReg_fRd hw hk).trans (fin_ofNat _)
    have h2 : fRs1 w = xt := (eReg_fRs1 hw hk).trans (fin_ofNat _)
    have h3 : fV2 w = v := (eReg_fV2 hw hk).trans (Fin.ext (by simp only [Fin.ofNat]; omega))
    have h4 : fFn w = 0 := (eReg_fFn hw hk).trans rfl
    have h5 : fOpt w = 0 := (eReg_fOpt hw hk).trans rfl
    have h6 : bit w 22 = false := (eReg_bit_22 hw hk).trans (beq_false (by omega))
    have h7 : w % 4 = 0 := (eReg_4 hw hk).trans rfl
    refine ⟨eReg_lt hw hk, hx ▸ lt_lit rfl, hy ▸ lt_lit rfl, ?_⟩
    rw [decode_35 h0]
    simp only [decMsg, chk, only00, h1, h2, h3, h4, h5, h6, h7] <;>
      simp <;> omega

theorem mrecv (d : XReg) (v : VReg) : Statement (.mrecv d v) :=
  of_words rfl fun w x1 x2 hw hx hy hwf => by
    have hk : RegOk 0 35 d.val 0 v.val 1 0 := ⟨lt_lit rfl, lt_lit rfl, d.isLt, lt_lit rfl, by omega, lt_lit rfl, lt_lit rfl⟩
    have h0 : bits w 2 6 = 35 := (eReg_bits_2_6 hw hk).trans rfl
    have h1 : fRd w = d := (eReg_fRd hw hk).trans (fin_ofNat _)
    have h2 : fRs1 w = 0 := (eReg_fRs1 hw hk).trans rfl
    have h3 : fV2 w = v := (eReg_fV2 hw hk).trans (Fin.ext (by simp only [Fin.ofNat]; omega))
    have h4 : fFn w = 1 := (eReg_fFn hw hk).trans rfl
    have h5 : fOpt w = 0 := (eReg_fOpt hw hk).trans rfl
    have h6 : bit w 22 = false := (eReg_bit_22 hw hk).trans (beq_false (by omega))
    have h7 : w % 4 = 0 := (eReg_4 hw hk).trans rfl
    refine ⟨eReg_lt hw hk, hx ▸ lt_lit rfl, hy ▸ lt_lit rfl, ?_⟩
    rw [decode_35 h0]
    simp only [decMsg, chk, only00, h1, h2, h3, h4, h5, h6, h7] <;>
      simp <;> omega

theorem mpoll (d : XReg) : Statement (.mpoll d) :=
  of_words rfl fun w x1 x2 hw hx hy hwf => by
    have hk : RegOk 0 35 d.val 0 0 2 0 := ⟨lt_lit rfl, lt_lit rfl, d.isLt, lt_lit rfl, lt_lit rfl, lt_lit rfl, lt_lit rfl⟩
    have h0 : bits w 2 6 = 35 := (eReg_bits_2_6 hw hk).trans rfl
    have h1 : fRd w = d := (eReg_fRd hw hk).trans (fin_ofNat _)
    have h2 : fRs1 w = 0 := (eReg_fRs1 hw hk).trans rfl
    have h3 : fRs2 w = 0 := (eReg_fRs2 hw hk).trans rfl
    have h4 : fFn w = 2 := (eReg_fFn hw hk).trans rfl
    have h5 : fOpt w = 0 := (eReg_fOpt hw hk).trans rfl
    have h6 : w % 4 = 0 := (eReg_4 hw hk).trans rfl
    refine ⟨eReg_lt hw hk, hx ▸ lt_lit rfl, hy ▸ lt_lit rfl, ?_⟩
    rw [decode_35 h0]
    simp only [decMsg, chk, only00, h1, h2, h3, h4, h5, h6] <;>
      simp <;> omega

theorem pause (n : BitVec 16) : Statement (.pause n) :=
  of_words rfl fun w x1 x2 hw hx hy hwf => by
    have n_n := bv_ne hwf
    have h0 : bits w 2 6 = 36 := by simp only [bits]; omega
    have h1 : fFn w = 0 := by simp only [fFn, bits]; omega
    have h2 : w % 4 = 0 := by omega
    have hb : n.toNat / 32768 ≤ 1 := by omega
    have hq : w / 1073741824 = 0 := Nat.div_eq_of_lt (by omega)
    have h3 : bits w 30 2 = 0 := by show w / 1073741824 % 4 = 0; rw [hq]
    have h4 : bits w 8 15 = n.toNat % 32768 := by simp only [bits]; omega
    have h5 : bits w 29 1 = n.toNat / 32768 := by simp only [bits]; omega
    have h6 : BitVec.ofNat 16 (n.toNat % 32768 + 2 ^ 15 * (n.toNat / 32768)) = n :=
      BitVec.eq_of_toNat_eq (by simp only [BitVec.toNat_ofNat]; omega)
    have h7 : bit w 29 = (n.toNat / 32768 == 1) := congrArg (· == 1) (by omega)
    refine ⟨by omega, hx ▸ lt_lit rfl, hy ▸ lt_lit rfl, ?_⟩
    rw [decode_36 h0]
    simp only [decSync, chk, only00, h1, h2, h3, h4, h5, h6, h7]
    simp
    omega

theorem waita (d : XReg) (xv : XReg) (xa : XReg) : Statement (.waita d xv xa) :=
  of_words rfl fun w x1 x2 hw hx hy hwf => by
    have hk : RegOk 0 36 d.val xa.val xv.val 1 0 := ⟨lt_lit rfl, lt_lit rfl, d.isLt, xa.isLt, xv.isLt, lt_lit rfl, lt_lit rfl⟩
    have h0 : bits w 2 6 = 36 := (eReg_bits_2_6 hw hk).trans rfl
    have h1 : fRd w = d := (eReg_fRd hw hk).trans (fin_ofNat _)
    have h2 : fRs1 w = xa := (eReg_fRs1 hw hk).trans (fin_ofNat _)
    have h3 : fRs2 w = xv := (eReg_fRs2 hw hk).trans (fin_ofNat _)
    have h4 : fFn w = 1 := (eReg_fFn hw hk).trans rfl
    have h5 : fOpt w = 0 := (eReg_fOpt hw hk).trans rfl
    have h6 : w % 4 = 0 := (eReg_4 hw hk).trans rfl
    refine ⟨eReg_lt hw hk, hx ▸ lt_lit rfl, hy ▸ lt_lit rfl, ?_⟩
    rw [decode_36 h0]
    simp only [decSync, chk, only00, h1, h2, h3, h4, h5, h6] <;>
      simp <;> omega

theorem clave (d : XReg) (xs : XReg) (xk : XReg) : Statement (.clave d xs xk) :=
  of_words rfl fun w x1 x2 hw hx hy hwf => by
    have hk : RegOk 0 36 d.val xk.val xs.val 2 0 := ⟨lt_lit rfl, lt_lit rfl, d.isLt, xk.isLt, xs.isLt, lt_lit rfl, lt_lit rfl⟩
    have h0 : bits w 2 6 = 36 := (eReg_bits_2_6 hw hk).trans rfl
    have h1 : fRd w = d := (eReg_fRd hw hk).trans (fin_ofNat _)
    have h2 : fRs1 w = xk := (eReg_fRs1 hw hk).trans (fin_ofNat _)
    have h3 : fRs2 w = xs := (eReg_fRs2 hw hk).trans (fin_ofNat _)
    have h4 : fFn w = 2 := (eReg_fFn hw hk).trans rfl
    have h5 : fOpt w = 0 := (eReg_fOpt hw hk).trans rfl
    have h6 : w % 4 = 0 := (eReg_4 hw hk).trans rfl
    refine ⟨eReg_lt hw hk, hx ▸ lt_lit rfl, hy ▸ lt_lit rfl, ?_⟩
    rw [decode_36 h0]
    simp only [decSync, chk, only00, h1, h2, h3, h4, h5, h6] <;>
      simp <;> omega

theorem clavev (vd : VReg) (vs : VReg) (xk : XReg) : Statement (.clavev vd vs xk) :=
  of_words rfl fun w x1 x2 hw hx hy hwf => by
    have hk : RegOk 0 36 vd.val xk.val vs.val 3 0 := ⟨lt_lit rfl, lt_lit rfl, by omega, xk.isLt, by omega, lt_lit rfl, lt_lit rfl⟩
    have h0 : bits w 2 6 = 36 := (eReg_bits_2_6 hw hk).trans rfl
    have h1 : fRs1 w = xk := (eReg_fRs1 hw hk).trans (fin_ofNat _)
    have h2 : fVd w = vd := (eReg_fVd hw hk).trans (Fin.ext (by simp only [Fin.ofNat]; omega))
    have h3 : fV2 w = vs := (eReg_fV2 hw hk).trans (Fin.ext (by simp only [Fin.ofNat]; omega))
    have h4 : fFn w = 3 := (eReg_fFn hw hk).trans rfl
    have h5 : fOpt w = 0 := (eReg_fOpt hw hk).trans rfl
    have h6 : bit w 12 = false := (eReg_bit_12 hw hk).trans (beq_false (by omega))
    have h7 : bit w 22 = false := (eReg_bit_22 hw hk).trans (beq_false (by omega))
    have h8 : w % 4 = 0 := (eReg_4 hw hk).trans rfl
    refine ⟨eReg_lt hw hk, hx ▸ lt_lit rfl, hy ▸ lt_lit rfl, ?_⟩
    rw [decode_36 h0]
    simp only [decSync, chk, only00, h1, h2, h3, h4, h5, h6, h7, h8] <;>
      simp <;> omega

theorem claveg (vd : VReg) (xs : XReg) (xk : XReg) : Statement (.claveg vd xs xk) :=
  of_words rfl fun w x1 x2 hw hx hy hwf => by
    have hk : RegOk 0 36 vd.val xk.val xs.val 4 0 := ⟨lt_lit rfl, lt_lit rfl, by omega, xk.isLt, xs.isLt, lt_lit rfl, lt_lit rfl⟩
    have h0 : bits w 2 6 = 36 := (eReg_bits_2_6 hw hk).trans rfl
    have h1 : fRs1 w = xk := (eReg_fRs1 hw hk).trans (fin_ofNat _)
    have h2 : fRs2 w = xs := (eReg_fRs2 hw hk).trans (fin_ofNat _)
    have h3 : fVd w = vd := (eReg_fVd hw hk).trans (Fin.ext (by simp only [Fin.ofNat]; omega))
    have h4 : fFn w = 4 := (eReg_fFn hw hk).trans rfl
    have h5 : fOpt w = 0 := (eReg_fOpt hw hk).trans rfl
    have h6 : bit w 12 = false := (eReg_bit_12 hw hk).trans (beq_false (by omega))
    have h7 : w % 4 = 0 := (eReg_4 hw hk).trans rfl
    refine ⟨eReg_lt hw hk, hx ▸ lt_lit rfl, hy ▸ lt_lit rfl, ?_⟩
    rw [decode_36 h0]
    simp only [decSync, chk, only00, h1, h2, h3, h4, h5, h6, h7] <;>
      simp <;> omega

theorem bara (h : Handle) : Statement (.bara h) :=
  of_words rfl fun w x1 x2 hw hx hy hwf => by
    have n_h := fin_ne hwf
    have hk : RegOk 0 36 0 0 h.val 5 0 := ⟨lt_lit rfl, lt_lit rfl, lt_lit rfl, lt_lit rfl, by omega, lt_lit rfl, lt_lit rfl⟩
    have h0 : bits w 2 6 = 36 := (eReg_bits_2_6 hw hk).trans rfl
    have h1 : Fin.ofNat 12 (bits w 18 5) = h := (eReg_Fin_ofNat_12_bits_18_5 hw hk).trans (fin_ofNat _)
    have h2 : fFn w = 5 := (eReg_fFn hw hk).trans rfl
    have h3 : fOpt w = 0 := (eReg_fOpt hw hk).trans rfl
    have h4 : bits w 8 10 = 0 := (eReg_bits_8_10 hw hk).trans rfl
    have h5 : bits w 18 5 = h.val := eReg_bits_18_5 hw hk
    have h6 : w % 4 = 0 := (eReg_4 hw hk).trans rfl
    refine ⟨eReg_lt hw hk, hx ▸ lt_lit rfl, hy ▸ lt_lit rfl, ?_⟩
    rw [decode_36 h0]
    simp only [decSync, chk, only00, h1, h2, h3, h4, h5, h6] <;>
      simp <;> omega

theorem barw (h : Handle) : Statement (.barw h) :=
  of_words rfl fun w x1 x2 hw hx hy hwf => by
    have n_h := fin_ne hwf
    have hk : RegOk 0 36 0 0 h.val 6 0 := ⟨lt_lit rfl, lt_lit rfl, lt_lit rfl, lt_lit rfl, by omega, lt_lit rfl, lt_lit rfl⟩
    have h0 : bits w 2 6 = 36 := (eReg_bits_2_6 hw hk).trans rfl
    have h1 : Fin.ofNat 12 (bits w 18 5) = h := (eReg_Fin_ofNat_12_bits_18_5 hw hk).trans (fin_ofNat _)
    have h2 : fFn w = 6 := (eReg_fFn hw hk).trans rfl
    have h3 : bits w 30 2 = 0 := (eReg_bits_30_2 hw hk).trans rfl
    have h4 : bits w 8 10 = 0 := (eReg_bits_8_10 hw hk).trans rfl
    have h5 : bits w 18 5 = h.val := eReg_bits_18_5 hw hk
    have h6 : bit w 29 = false := (eReg_bit_29 hw hk).trans rfl
    have h7 : w % 4 = 0 := (eReg_4 hw hk).trans rfl
    refine ⟨eReg_lt hw hk, hx ▸ lt_lit rfl, hy ▸ lt_lit rfl, ?_⟩
    rw [decode_36 h0]
    simp only [decSync, chk, only00, h1, h2, h3, h4, h5, h6, h7] <;>
      simp <;> omega

theorem barwSs : Statement .barwSs :=
  of_words rfl fun w x1 x2 hw hx hy hwf => by
    have hk : RegOk 0 36 0 0 0 6 1 := ⟨lt_lit rfl, lt_lit rfl, lt_lit rfl, lt_lit rfl, lt_lit rfl, lt_lit rfl, lt_lit rfl⟩
    have h0 : bits w 2 6 = 36 := (eReg_bits_2_6 hw hk).trans rfl
    have h1 : Fin.ofNat 12 (bits w 18 5) = 0 := (eReg_Fin_ofNat_12_bits_18_5 hw hk).trans rfl
    have h2 : fFn w = 6 := (eReg_fFn hw hk).trans rfl
    have h3 : bits w 30 2 = 0 := (eReg_bits_30_2 hw hk).trans rfl
    have h4 : bits w 8 10 = 0 := (eReg_bits_8_10 hw hk).trans rfl
    have h5 : bits w 18 5 = 0 := (eReg_bits_18_5 hw hk).trans rfl
    have h6 : bit w 29 = true := (eReg_bit_29 hw hk).trans rfl
    have h7 : w % 4 = 0 := (eReg_4 hw hk).trans rfl
    refine ⟨eReg_lt hw hk, hx ▸ lt_lit rfl, hy ▸ lt_lit rfl, ?_⟩
    rw [decode_36 h0]
    simp only [decSync, chk, only00, h1, h2, h3, h4, h5, h6, h7] <;>
      simp <;> omega

theorem barq (d : XReg) (h : Handle) : Statement (.barq d h) :=
  of_words rfl fun w x1 x2 hw hx hy hwf => by
    have hk : RegOk 0 36 d.val 0 h.val 7 0 := ⟨lt_lit rfl, lt_lit rfl, d.isLt, lt_lit rfl, by omega, lt_lit rfl, lt_lit rfl⟩
    have h0 : bits w 2 6 = 36 := (eReg_bits_2_6 hw hk).trans rfl
    have h1 : fRd w = d := (eReg_fRd hw hk).trans (fin_ofNat _)
    have h2 : fRs1 w = 0 := (eReg_fRs1 hw hk).trans rfl
    have h3 : Fin.ofNat 12 (bits w 18 5) = h := (eReg_Fin_ofNat_12_bits_18_5 hw hk).trans (fin_ofNat _)
    have h4 : fFn w = 7 := (eReg_fFn hw hk).trans rfl
    have h5 : fOpt w = 0 := (eReg_fOpt hw hk).trans rfl
    have h6 : bits w 18 5 = h.val := eReg_bits_18_5 hw hk
    have h7 : w % 4 = 0 := (eReg_4 hw hk).trans rfl
    refine ⟨eReg_lt hw hk, hx ▸ lt_lit rfl, hy ▸ lt_lit rfl, ?_⟩
    rw [decode_36 h0]
    simp only [decSync, chk, only00, h1, h2, h3, h4, h5, h6, h7] <;>
      simp <;> omega

theorem slpush (v : VReg) : Statement (.slpush v) :=
  of_words rfl fun w x1 x2 hw hx hy hwf => by
    have hk : RegOk 0 37 0 0 v.val 0 0 := ⟨lt_lit rfl, lt_lit rfl, lt_lit rfl, lt_lit rfl, by omega, lt_lit rfl, lt_lit rfl⟩
    have h0 : bits w 2 6 = 37 := (eReg_bits_2_6 hw hk).trans rfl
    have h1 : fV2 w = v := (eReg_fV2 hw hk).trans (Fin.ext (by simp only [Fin.ofNat]; omega))
    have h2 : fFn w = 0 := (eReg_fFn hw hk).trans rfl
    have h3 : fOpt w = 0 := (eReg_fOpt hw hk).trans rfl
    have h4 : bits w 8 10 = 0 := (eReg_bits_8_10 hw hk).trans rfl
    have h5 : bit w 22 = false := (eReg_bit_22 hw hk).trans (beq_false (by omega))
    have h6 : w % 4 = 0 := (eReg_4 hw hk).trans rfl
    refine ⟨eReg_lt hw hk, hx ▸ lt_lit rfl, hy ▸ lt_lit rfl, ?_⟩
    rw [decode_37 h0]
    simp only [decLink, chk, only00, h1, h2, h3, h4, h5, h6] <;>
      simp <;> omega

theorem slpop (v : VReg) : Statement (.slpop v) :=
  of_words rfl fun w x1 x2 hw hx hy hwf => by
    have hk : RegOk 0 37 v.val 0 0 1 0 := ⟨lt_lit rfl, lt_lit rfl, by omega, lt_lit rfl, lt_lit rfl, lt_lit rfl, lt_lit rfl⟩
    have h0 : bits w 2 6 = 37 := (eReg_bits_2_6 hw hk).trans rfl
    have h1 : fVd w = v := (eReg_fVd hw hk).trans (Fin.ext (by simp only [Fin.ofNat]; omega))
    have h2 : fFn w = 1 := (eReg_fFn hw hk).trans rfl
    have h3 : fOpt w = 0 := (eReg_fOpt hw hk).trans rfl
    have h4 : bits w 13 10 = 0 := (eReg_bits_13_10 hw hk).trans rfl
    have h5 : bit w 12 = false := (eReg_bit_12 hw hk).trans (beq_false (by omega))
    have h6 : w % 4 = 0 := (eReg_4 hw hk).trans rfl
    refine ⟨eReg_lt hw hk, hx ▸ lt_lit rfl, hy ▸ lt_lit rfl, ?_⟩
    rw [decode_37 h0]
    simp only [decLink, chk, only00, h1, h2, h3, h4, h5, h6] <;>
      simp <;> omega

theorem slfree (d : XReg) : Statement (.slfree d) :=
  of_words rfl fun w x1 x2 hw hx hy hwf => by
    have hk : RegOk 0 37 d.val 0 0 2 0 := ⟨lt_lit rfl, lt_lit rfl, d.isLt, lt_lit rfl, lt_lit rfl, lt_lit rfl, lt_lit rfl⟩
    have h0 : bits w 2 6 = 37 := (eReg_bits_2_6 hw hk).trans rfl
    have h1 : fRd w = d := (eReg_fRd hw hk).trans (fin_ofNat _)
    have h2 : fFn w = 2 := (eReg_fFn hw hk).trans rfl
    have h3 : fOpt w = 0 := (eReg_fOpt hw hk).trans rfl
    have h4 : bits w 13 10 = 0 := (eReg_bits_13_10 hw hk).trans rfl
    have h5 : w % 4 = 0 := (eReg_4 hw hk).trans rfl
    refine ⟨eReg_lt hw hk, hx ▸ lt_lit rfl, hy ▸ lt_lit rfl, ?_⟩
    rw [decode_37 h0]
    simp only [decLink, chk, only00, h1, h2, h3, h4, h5] <;>
      simp <;> omega

theorem slpeek (d : XReg) (v : VReg) : Statement (.slpeek d v) :=
  of_words rfl fun w x1 x2 hw hx hy hwf => by
    have hk : RegOk 0 37 d.val 0 v.val 3 0 := ⟨lt_lit rfl, lt_lit rfl, d.isLt, lt_lit rfl, by omega, lt_lit rfl, lt_lit rfl⟩
    have h0 : bits w 2 6 = 37 := (eReg_bits_2_6 hw hk).trans rfl
    have h1 : fRd w = d := (eReg_fRd hw hk).trans (fin_ofNat _)
    have h2 : fRs1 w = 0 := (eReg_fRs1 hw hk).trans rfl
    have h3 : fV2 w = v := (eReg_fV2 hw hk).trans (Fin.ext (by simp only [Fin.ofNat]; omega))
    have h4 : fFn w = 3 := (eReg_fFn hw hk).trans rfl
    have h5 : fOpt w = 0 := (eReg_fOpt hw hk).trans rfl
    have h6 : bit w 22 = false := (eReg_bit_22 hw hk).trans (beq_false (by omega))
    have h7 : w % 4 = 0 := (eReg_4 hw hk).trans rfl
    refine ⟨eReg_lt hw hk, hx ▸ lt_lit rfl, hy ▸ lt_lit rfl, ?_⟩
    rw [decode_37 h0]
    simp only [decLink, chk, only00, h1, h2, h3, h4, h5, h6, h7] <;>
      simp <;> omega

theorem strike (d : XReg) (xs : XReg) : Statement (.strike d xs) :=
  of_words rfl fun w x1 x2 hw hx hy hwf => by
    have hk : RegOk 0 38 d.val xs.val 0 0 0 := ⟨lt_lit rfl, lt_lit rfl, d.isLt, xs.isLt, lt_lit rfl, lt_lit rfl, lt_lit rfl⟩
    have h0 : bits w 2 6 = 38 := (eReg_bits_2_6 hw hk).trans rfl
    have h1 : fRd w = d := (eReg_fRd hw hk).trans (fin_ofNat _)
    have h2 : fRs1 w = xs := (eReg_fRs1 hw hk).trans (fin_ofNat _)
    have h3 : fRs2 w = 0 := (eReg_fRs2 hw hk).trans rfl
    have h4 : fFn w = 0 := (eReg_fFn hw hk).trans rfl
    have h5 : fOpt w = 0 := (eReg_fOpt hw hk).trans rfl
    have h6 : w % 4 = 0 := (eReg_4 hw hk).trans rfl
    refine ⟨eReg_lt hw hk, hx ▸ lt_lit rfl, hy ▸ lt_lit rfl, ?_⟩
    rw [decode_38 h0]
    simp only [decIsland, chk, only00, h1, h2, h3, h4, h5, h6] <;>
      simp <;> omega

theorem migr (xc : XReg) (isl : Bool) (w1 : BitVec 12) : Statement (.migr xc isl w1) :=
  of_words rfl fun w x1 x2 hw hx hy hwf => by
    have b_isl := b2n_lt isl
    have n_x := migr_ok hwf
    have hk : RegOk 2 38 0 0 0 1 0 := ⟨lt_lit rfl, lt_lit rfl, lt_lit rfl, lt_lit rfl, lt_lit rfl, lt_lit rfl, lt_lit rfl⟩
    have h0 : bits w 2 6 = 38 := (eReg_bits_2_6 hw hk).trans rfl
    have h1 : Fin.ofNat 32 (x1 / 2 ^ 13) = xc := Fin.ext (by simp only [Fin.ofNat]; omega)
    have h2 : BitVec.ofNat 12 (x1 / 2) = w1 := BitVec.eq_of_toNat_eq (by simp only [BitVec.toNat_ofNat]; omega)
    have h3 : fFn w = 1 := (eReg_fFn hw hk).trans rfl
    have h4 : fOpt w = 0 := (eReg_fOpt hw hk).trans rfl
    have h5 : bits w 8 15 = 0 := (eReg_bits_8_15 hw hk).trans rfl
    have h6 : bits x1 13 5 = xc.val := by simp only [bits]; omega
    have h7 : bits x1 1 12 = w1.toNat := by simp only [bits]; omega
    have h8 : bit x1 0 = isl := bit_of (by omega)
    have h9 : w % 4 = 2 := (eReg_4 hw hk).trans rfl
    have h10 : x1 / 2 ^ 18 = 0 := by omega
    refine ⟨eReg_lt hw hk, by omega, hy ▸ lt_lit rfl, ?_⟩
    rw [decode_38 h0]
    simp only [decIsland, chk, h1, h2, h3, h4, h5, h6, h7, h8, h9, h10] <;>
      simp <;> omega

theorem csrr (d : XReg) (csr : BitVec 12) : Statement (.csrr d csr) :=
  of_words rfl fun w x1 x2 hw hx hy hwf => by
    have h0 : bits w 2 6 = 48 := by simp only [bits]; omega
    have h1 : fRd w = d := Fin.ext (by simp only [fRd, Fin.ofNat]; omega)
    have h2 : fRs1 w = 0 := Fin.ext (by simp only [fRs1, Fin.ofNat]; show _ = 0; omega)
    have h3 : BitVec.ofNat 12 (w / 2 ^ 18) = csr := BitVec.eq_of_toNat_eq (by simp only [BitVec.toNat_ofNat]; omega)
    have h4 : bits w 30 2 = 0 := by simp only [bits]; omega
    have h5 : w % 4 = 0 := by omega
    refine ⟨by omega, hx ▸ lt_lit rfl, hy ▸ lt_lit rfl, ?_⟩
    rw [decode_48 h0]
    simp only [decCsr, chk, only00, h1, h2, h3, h4, h5] <;>
      simp <;> omega

theorem csrw (d : XReg) (csr : BitVec 12) (a : XReg) : Statement (.csrw d csr a) :=
  of_words rfl fun w x1 x2 hw hx hy hwf => by
    have h0 : bits w 2 6 = 48 := by simp only [bits]; omega
    have h1 : fRd w = d := Fin.ext (by simp only [fRd, Fin.ofNat]; omega)
    have h2 : fRs1 w = a := Fin.ext (by simp only [fRs1, Fin.ofNat]; omega)
    have h3 : BitVec.ofNat 12 (w / 2 ^ 18) = csr := BitVec.eq_of_toNat_eq (by simp only [BitVec.toNat_ofNat]; omega)
    have h4 : bits w 30 2 = 1 := by simp only [bits]; omega
    have h5 : w % 4 = 0 := by omega
    refine ⟨by omega, hx ▸ lt_lit rfl, hy ▸ lt_lit rfl, ?_⟩
    rw [decode_48 h0]
    simp only [decCsr, chk, only00, h1, h2, h3, h4, h5] <;>
      simp <;> omega

theorem csrs (d : XReg) (csr : BitVec 12) (a : XReg) : Statement (.csrs d csr a) :=
  of_words rfl fun w x1 x2 hw hx hy hwf => by
    have h0 : bits w 2 6 = 48 := by simp only [bits]; omega
    have h1 : fRd w = d := Fin.ext (by simp only [fRd, Fin.ofNat]; omega)
    have h2 : fRs1 w = a := Fin.ext (by simp only [fRs1, Fin.ofNat]; omega)
    have h3 : BitVec.ofNat 12 (w / 2 ^ 18) = csr := BitVec.eq_of_toNat_eq (by simp only [BitVec.toNat_ofNat]; omega)
    have h4 : bits w 30 2 = 2 := by simp only [bits]; omega
    have h5 : w % 4 = 0 := by omega
    refine ⟨by omega, hx ▸ lt_lit rfl, hy ▸ lt_lit rfl, ?_⟩
    rw [decode_48 h0]
    simp only [decCsr, chk, only00, h1, h2, h3, h4, h5] <;>
      simp <;> omega

theorem csrc (d : XReg) (csr : BitVec 12) (a : XReg) : Statement (.csrc d csr a) :=
  of_words rfl fun w x1 x2 hw hx hy hwf => by
    have h0 : bits w 2 6 = 48 := by simp only [bits]; omega
    have h1 : fRd w = d := Fin.ext (by simp only [fRd, Fin.ofNat]; omega)
    have h2 : fRs1 w = a := Fin.ext (by simp only [fRs1, Fin.ofNat]; omega)
    have h3 : BitVec.ofNat 12 (w / 2 ^ 18) = csr := BitVec.eq_of_toNat_eq (by simp only [BitVec.toNat_ofNat]; omega)
    have h4 : bits w 30 2 = 3 := by simp only [bits]; omega
    have h5 : w % 4 = 0 := by omega
    refine ⟨by omega, hx ▸ lt_lit rfl, hy ▸ lt_lit rfl, ?_⟩
    rw [decode_48 h0]
    simp only [decCsr, chk, only00, h1, h2, h3, h4, h5] <;>
      simp <;> omega

theorem scall : Statement .scall :=
  of_words rfl fun w x1 x2 hw hx hy hwf => by
    have hk : RegOk 0 49 0 0 0 0 0 := ⟨lt_lit rfl, lt_lit rfl, lt_lit rfl, lt_lit rfl, lt_lit rfl, lt_lit rfl, lt_lit rfl⟩
    have h0 : bits w 2 6 = 49 := (eReg_bits_2_6 hw hk).trans rfl
    have h1 : fFn w = 0 := (eReg_fFn hw hk).trans rfl
    have h2 : fOpt w = 0 := (eReg_fOpt hw hk).trans rfl
    have h3 : bits w 8 15 = 0 := (eReg_bits_8_15 hw hk).trans rfl
    have h4 : w % 4 = 0 := (eReg_4 hw hk).trans rfl
    refine ⟨eReg_lt hw hk, hx ▸ lt_lit rfl, hy ▸ lt_lit rfl, ?_⟩
    rw [decode_49 h0]
    simp only [decTrap, chk, only00, h1, h2, h3, h4] <;>
      simp <;> omega

theorem brk : Statement .brk :=
  of_words rfl fun w x1 x2 hw hx hy hwf => by
    have hk : RegOk 0 49 0 0 0 1 0 := ⟨lt_lit rfl, lt_lit rfl, lt_lit rfl, lt_lit rfl, lt_lit rfl, lt_lit rfl, lt_lit rfl⟩
    have h0 : bits w 2 6 = 49 := (eReg_bits_2_6 hw hk).trans rfl
    have h1 : fFn w = 1 := (eReg_fFn hw hk).trans rfl
    have h2 : fOpt w = 0 := (eReg_fOpt hw hk).trans rfl
    have h3 : bits w 8 15 = 0 := (eReg_bits_8_15 hw hk).trans rfl
    have h4 : w % 4 = 0 := (eReg_4 hw hk).trans rfl
    refine ⟨eReg_lt hw hk, hx ▸ lt_lit rfl, hy ▸ lt_lit rfl, ?_⟩
    rw [decode_49 h0]
    simp only [decTrap, chk, only00, h1, h2, h3, h4] <;>
      simp <;> omega

theorem threadDone : Statement .threadDone :=
  of_words rfl fun w x1 x2 hw hx hy hwf => by
    have hk : RegOk 0 49 0 0 0 2 0 := ⟨lt_lit rfl, lt_lit rfl, lt_lit rfl, lt_lit rfl, lt_lit rfl, lt_lit rfl, lt_lit rfl⟩
    have h0 : bits w 2 6 = 49 := (eReg_bits_2_6 hw hk).trans rfl
    have h1 : fFn w = 2 := (eReg_fFn hw hk).trans rfl
    have h2 : fOpt w = 0 := (eReg_fOpt hw hk).trans rfl
    have h3 : bits w 8 15 = 0 := (eReg_bits_8_15 hw hk).trans rfl
    have h4 : w % 4 = 0 := (eReg_4 hw hk).trans rfl
    refine ⟨eReg_lt hw hk, hx ▸ lt_lit rfl, hy ▸ lt_lit rfl, ?_⟩
    rw [decode_49 h0]
    simp only [decTrap, chk, only00, h1, h2, h3, h4] <;>
      simp <;> omega

theorem yieldTurn : Statement .yieldTurn :=
  of_words rfl fun w x1 x2 hw hx hy hwf => by
    have hk : RegOk 0 49 0 0 0 3 0 := ⟨lt_lit rfl, lt_lit rfl, lt_lit rfl, lt_lit rfl, lt_lit rfl, lt_lit rfl, lt_lit rfl⟩
    have h0 : bits w 2 6 = 49 := (eReg_bits_2_6 hw hk).trans rfl
    have h1 : fFn w = 3 := (eReg_fFn hw hk).trans rfl
    have h2 : fOpt w = 0 := (eReg_fOpt hw hk).trans rfl
    have h3 : bits w 8 15 = 0 := (eReg_bits_8_15 hw hk).trans rfl
    have h4 : w % 4 = 0 := (eReg_4 hw hk).trans rfl
    refine ⟨eReg_lt hw hk, hx ▸ lt_lit rfl, hy ▸ lt_lit rfl, ?_⟩
    rw [decode_49 h0]
    simp only [decTrap, chk, only00, h1, h2, h3, h4] <;>
      simp <;> omega

theorem eret : Statement .eret :=
  of_words rfl fun w x1 x2 hw hx hy hwf => by
    have hk : RegOk 0 50 0 0 0 0 0 := ⟨lt_lit rfl, lt_lit rfl, lt_lit rfl, lt_lit rfl, lt_lit rfl, lt_lit rfl, lt_lit rfl⟩
    have h0 : bits w 2 6 = 50 := (eReg_bits_2_6 hw hk).trans rfl
    have h1 : fFn w = 0 := (eReg_fFn hw hk).trans rfl
    have h2 : fOpt w = 0 := (eReg_fOpt hw hk).trans rfl
    have h3 : bits w 8 15 = 0 := (eReg_bits_8_15 hw hk).trans rfl
    have h4 : w % 4 = 0 := (eReg_4 hw hk).trans rfl
    refine ⟨eReg_lt hw hk, hx ▸ lt_lit rfl, hy ▸ lt_lit rfl, ?_⟩
    rw [decode_50 h0]
    simp only [decPriv, chk, only00, h1, h2, h3, h4] <;>
      simp <;> omega

theorem halt : Statement .halt :=
  of_words rfl fun w x1 x2 hw hx hy hwf => by
    have hk : RegOk 0 50 0 0 0 1 0 := ⟨lt_lit rfl, lt_lit rfl, lt_lit rfl, lt_lit rfl, lt_lit rfl, lt_lit rfl, lt_lit rfl⟩
    have h0 : bits w 2 6 = 50 := (eReg_bits_2_6 hw hk).trans rfl
    have h1 : fFn w = 1 := (eReg_fFn hw hk).trans rfl
    have h2 : fOpt w = 0 := (eReg_fOpt hw hk).trans rfl
    have h3 : bits w 8 15 = 0 := (eReg_bits_8_15 hw hk).trans rfl
    have h4 : w % 4 = 0 := (eReg_4 hw hk).trans rfl
    refine ⟨eReg_lt hw hk, hx ▸ lt_lit rfl, hy ▸ lt_lit rfl, ?_⟩
    rw [decode_50 h0]
    simp only [decPriv, chk, only00, h1, h2, h3, h4] <;>
      simp <;> omega

theorem tlbinv (xa : XReg) (xs : XReg) : Statement (.tlbinv xa xs) :=
  of_words rfl fun w x1 x2 hw hx hy hwf => by
    have hk : RegOk 0 50 0 xa.val xs.val 2 0 := ⟨lt_lit rfl, lt_lit rfl, lt_lit rfl, xa.isLt, xs.isLt, lt_lit rfl, lt_lit rfl⟩
    have h0 : bits w 2 6 = 50 := (eReg_bits_2_6 hw hk).trans rfl
    have h1 : fRd w = 0 := (eReg_fRd hw hk).trans rfl
    have h2 : fRs1 w = xa := (eReg_fRs1 hw hk).trans (fin_ofNat _)
    have h3 : fRs2 w = xs := (eReg_fRs2 hw hk).trans (fin_ofNat _)
    have h4 : fFn w = 2 := (eReg_fFn hw hk).trans rfl
    have h5 : fOpt w = 0 := (eReg_fOpt hw hk).trans rfl
    have h6 : w % 4 = 0 := (eReg_4 hw hk).trans rfl
    refine ⟨eReg_lt hw hk, hx ▸ lt_lit rfl, hy ▸ lt_lit rfl, ?_⟩
    rw [decode_50 h0]
    simp only [decPriv, chk, only00, h1, h2, h3, h4, h5, h6] <;>
      simp <;> omega

theorem mark (d : XReg) (a : XReg) (b : XReg) : Statement (.mark d a b) :=
  of_words rfl fun w x1 x2 hw hx hy hwf => by
    have hk : RegOk 0 51 d.val a.val b.val 0 0 := ⟨lt_lit rfl, lt_lit rfl, d.isLt, a.isLt, b.isLt, lt_lit rfl, lt_lit rfl⟩
    have h0 : bits w 2 6 = 51 := (eReg_bits_2_6 hw hk).trans rfl
    have h1 : fRd w = d := (eReg_fRd hw hk).trans (fin_ofNat _)
    have h2 : fRs1 w = a := (eReg_fRs1 hw hk).trans (fin_ofNat _)
    have h3 : fRs2 w = b := (eReg_fRs2 hw hk).trans (fin_ofNat _)
    have h4 : fFn w = 0 := (eReg_fFn hw hk).trans rfl
    have h5 : fOpt w = 0 := (eReg_fOpt hw hk).trans rfl
    have h6 : w % 4 = 0 := (eReg_4 hw hk).trans rfl
    refine ⟨eReg_lt hw hk, hx ▸ lt_lit rfl, hy ▸ lt_lit rfl, ?_⟩
    rw [decode_51 h0]
    simp only [decDebug, chk, only00, h1, h2, h3, h4, h5, h6] <;>
      simp <;> omega

theorem evDeferredTrapTake (tid : Nat) : Statement (.evDeferredTrapTake tid) := fun h => nomatch (show false = true from h)

theorem evFirmwarePageValidate (i : Nat) : Statement (.evFirmwarePageValidate i) := fun h => nomatch (show false = true from h)

theorem evServicedFaultRestart (i : Nat) : Statement (.evServicedFaultRestart i) := fun h => nomatch (show false = true from h)

theorem evWaitaMonitorMatch (tid : Nat) : Statement (.evWaitaMonitorMatch tid) := fun h => nomatch (show false = true from h)

theorem evWaitTimeout (tid : Nat) : Statement (.evWaitTimeout tid) := fun h => nomatch (show false = true from h)

theorem evVerWait (tid : Nat) : Statement (.evVerWait tid) := fun h => nomatch (show false = true from h)

theorem evVerFull (tid : Nat) : Statement (.evVerFull tid) := fun h => nomatch (show false = true from h)

theorem evBarStall (tid : Nat) : Statement (.evBarStall tid) := fun h => nomatch (show false = true from h)

theorem evClaveTimeout (tid : Nat) : Statement (.evClaveTimeout tid) := fun h => nomatch (show false = true from h)

theorem evSlDown (tid : Nat) : Statement (.evSlDown tid) := fun h => nomatch (show false = true from h)

theorem evSlEntryArrive (core : Nat) : Statement (.evSlEntryArrive core) := fun h => nomatch (show false = true from h)

theorem evSlCreditArrive (core : Nat) : Statement (.evSlCreditArrive core) := fun h => nomatch (show false = true from h)

theorem evPauseIntervalEnd (tid : Nat) : Statement (.evPauseIntervalEnd tid) := fun h => nomatch (show false = true from h)

theorem evMqTmmaExecute (core : Nat) : Statement (.evMqTmmaExecute core) := fun h => nomatch (show false = true from h)

theorem evMqTaccoutExecute (core : Nat) : Statement (.evMqTaccoutExecute core) := fun h => nomatch (show false = true from h)

theorem evMqTaccaddExecute (core : Nat) : Statement (.evMqTaccaddExecute core) := fun h => nomatch (show false = true from h)

theorem evMqTzeroExecute (core : Nat) : Statement (.evMqTzeroExecute core) := fun h => nomatch (show false = true from h)

theorem evMqTacczExecute (core : Nat) : Statement (.evMqTacczExecute core) := fun h => nomatch (show false = true from h)

theorem evMqTxchExecute (core : Nat) : Statement (.evMqTxchExecute core) := fun h => nomatch (show false = true from h)

theorem evMqTcvtExecute (core : Nat) : Statement (.evMqTcvtExecute core) := fun h => nomatch (show false = true from h)

theorem evCeGranuleTransfer (core : Nat) (slot : Nat) (off : Nat) : Statement (.evCeGranuleTransfer core slot off) := fun h => nomatch (show false = true from h)

theorem evCollectiveExecute (gid : Nat) (peer : List (PeerColl × List Byte)) : Statement (.evCollectiveExecute gid peer) := fun h => nomatch (show false = true from h)

theorem evBindcmdRead (tid : Nat) : Statement (.evBindcmdRead tid) := fun h => nomatch (show false = true from h)

theorem evBindcmdWrite (tid : Nat) : Statement (.evBindcmdWrite tid) := fun h => nomatch (show false = true from h)

theorem evBindZeroingDone (tid : Nat) : Statement (.evBindZeroingDone tid) := fun h => nomatch (show false = true from h)

theorem evBindcmdGo (tid : Nat) : Statement (.evBindcmdGo tid) := fun h => nomatch (show false = true from h)

theorem evBindcmdStop (tid : Nat) : Statement (.evBindcmdStop tid) := fun h => nomatch (show false = true from h)

theorem evThreadStop (tid : Nat) : Statement (.evThreadStop tid) := fun h => nomatch (show false = true from h)

theorem evGangStopSaveComplete (gid : Nat) : Statement (.evGangStopSaveComplete gid) := fun h => nomatch (show false = true from h)

theorem evTaskBind (gid : Nat) (cores : List Nat) : Statement (.evTaskBind gid cores) := fun h => nomatch (show false = true from h)

theorem evPriorityAging (gid : Nat) : Statement (.evPriorityAging gid) := fun h => nomatch (show false = true from h)

theorem evQuantumPreempt (gid : Nat) (waiting : Nat) : Statement (.evQuantumPreempt gid waiting) := fun h => nomatch (show false = true from h)

theorem evLaunch (qif : Nat) (queue : Nat) : Statement (.evLaunch qif queue) := fun h => nomatch (show false = true from h)

theorem evSignal (qif : Nat) (queue : Nat) : Statement (.evSignal qif queue) := fun h => nomatch (show false = true from h)

theorem evWaitq (qif : Nat) (queue : Nat) : Statement (.evWaitq qif queue) := fun h => nomatch (show false = true from h)

theorem evWaitqSatisfied (qif : Nat) (queue : Nat) : Statement (.evWaitqSatisfied qif queue) := fun h => nomatch (show false = true from h)

theorem evWaitqTimeout (qif : Nat) (queue : Nat) : Statement (.evWaitqTimeout qif queue) := fun h => nomatch (show false = true from h)

theorem evControl (qif : Nat) (queue : Nat) : Statement (.evControl qif queue) := fun h => nomatch (show false = true from h)

theorem evCapstart (qif : Nat) (queue : Nat) : Statement (.evCapstart qif queue) := fun h => nomatch (show false = true from h)

theorem evCapstop (qif : Nat) (queue : Nat) : Statement (.evCapstop qif queue) := fun h => nomatch (show false = true from h)

theorem evQueueNotify (qif : Nat) (off : Nat) (data : Word) : Statement (.evQueueNotify qif off data) := fun h => nomatch (show false = true from h)

theorem evQifEnableWrite (qif : Nat) (data : Word) : Statement (.evQifEnableWrite qif data) := fun h => nomatch (show false = true from h)

theorem evQifReset (qif : Nat) : Statement (.evQifReset qif) := fun h => nomatch (show false = true from h)

theorem evQifResetComplete (qif : Nat) : Statement (.evQifResetComplete qif) := fun h => nomatch (show false = true from h)

theorem evS2inv (qif : Nat) (data : Word) : Statement (.evS2inv qif data) := fun h => nomatch (show false = true from h)

theorem evInvreq (qif : Nat) (data : Word) : Statement (.evInvreq qif data) := fun h => nomatch (show false = true from h)

theorem evDbgresume (qif : Nat) (data : Word) : Statement (.evDbgresume qif data) := fun h => nomatch (show false = true from h)

theorem evDbgstop (qif : Nat) (data : Word) : Statement (.evDbgstop qif data) := fun h => nomatch (show false = true from h)

theorem evRestart (qif : Nat) (queue : Nat) : Statement (.evRestart qif queue) := fun h => nomatch (show false = true from h)

theorem evCheadWrite (qif : Nat) (queue : Nat) (data : Word) : Statement (.evCheadWrite qif queue data) := fun h => nomatch (show false = true from h)

theorem evFaultRingWrite (qif : Nat) (off : Nat) (data : Word) : Statement (.evFaultRingWrite qif off data) := fun h => nomatch (show false = true from h)

theorem evFresp (qif : Nat) (data : Word) : Statement (.evFresp qif data) := fun h => nomatch (show false = true from h)

theorem evFileFaultWaitLimit (i : Nat) : Statement (.evFileFaultWaitLimit i) := fun h => nomatch (show false = true from h)

theorem evTenantTableWrite (t : Nat) (word : Nat) (data : Word) : Statement (.evTenantTableWrite t word data) := fun h => nomatch (show false = true from h)

theorem evMsisend (data : Word) : Statement (.evMsisend data) := fun h => nomatch (show false = true from h)

theorem evAttbuf (data : Word) : Statement (.evAttbuf data) := fun h => nomatch (show false = true from h)

theorem evAttestationDone : Statement (.evAttestationDone) := fun h => nomatch (show false = true from h)

theorem evVminsel (data : Word) : Statement (.evVminsel data) := fun h => nomatch (show false = true from h)

theorem evVmintimeRead : Statement (.evVmintimeRead) := fun h => nomatch (show false = true from h)

theorem evRecoveryLoad (verdict : Nat) : Statement (.evRecoveryLoad verdict) := fun h => nomatch (show false = true from h)

theorem evRecoveryLoadFlash (verdict : Nat) : Statement (.evRecoveryLoadFlash verdict) := fun h => nomatch (show false = true from h)

theorem evRegisterWrite (off : Nat) (data : Word) : Statement (.evRegisterWrite off data) := fun h => nomatch (show false = true from h)

theorem evHostCxlAccess (hbm : Bool) (store : Bool) (addr : Nat) (data : List Byte) : Statement (.evHostCxlAccess hbm store addr data) := fun h => nomatch (show false = true from h)

theorem evBridgeLinkUp (port : Nat) (serial : Word) : Statement (.evBridgeLinkUp port serial) := fun h => nomatch (show false = true from h)

theorem evBridgeFlitReceive (port : Nat) (flit : List Byte) : Statement (.evBridgeFlitReceive port flit) := fun h => nomatch (show false = true from h)

theorem evBridgeRetrain (port : Nat) : Statement (.evBridgeRetrain port) := fun h => nomatch (show false = true from h)

theorem evBridgePortDown (port : Nat) : Statement (.evBridgePortDown port) := fun h => nomatch (show false = true from h)

theorem evBridgeSlackDecision (gid sstep : Nat) : Statement (.evBridgeSlackDecision gid sstep) := fun h => nomatch (show false = true from h)

theorem evWcFlush (granule : Nat) : Statement (.evWcFlush granule) := fun h => nomatch (show false = true from h)

theorem evLmBoundaryTick (core : Nat) (up : Bool) : Statement (.evLmBoundaryTick core up) := fun h => nomatch (show false = true from h)

theorem evQuadrantIdleDown (q : Nat) (target : Nat) : Statement (.evQuadrantIdleDown q target) := fun h => nomatch (show false = true from h)

theorem evQuadrantRaise (q : Nat) : Statement (.evQuadrantRaise q) := fun h => nomatch (show false = true from h)

theorem evBindWakeRequest (gid : Nat) (q : Nat) : Statement (.evBindWakeRequest gid q) := fun h => nomatch (show false = true from h)

theorem evWakeComplete (w : Nat) : Statement (.evWakeComplete w) := fun h => nomatch (show false = true from h)

theorem evStrikerRecordDelivery (t : Nat) : Statement (.evStrikerRecordDelivery t) := fun h => nomatch (show false = true from h)

theorem evTaborModeSwitch : Statement (.evTaborModeSwitch) := fun h => nomatch (show false = true from h)

theorem evLpddr6SelfRefreshEntry : Statement (.evLpddr6SelfRefreshEntry) := fun h => nomatch (show false = true from h)

theorem evCoreC1Entry (core : Nat) : Statement (.evCoreC1Entry core) := fun h => nomatch (show false = true from h)

theorem evCoreC2Entry (core : Nat) : Statement (.evCoreC2Entry core) := fun h => nomatch (show false = true from h)

theorem evDomainSwitchOn (d : Nat) (busy : List Nat) : Statement (.evDomainSwitchOn d busy) := fun h => nomatch (show false = true from h)

theorem evSwitchOnNeighbourTimeout (d : Nat) : Statement (.evSwitchOnNeighbourTimeout d) := fun h => nomatch (show false = true from h)

theorem evSwitchOnRampComplete (d : Nat) : Statement (.evSwitchOnRampComplete d) := fun h => nomatch (show false = true from h)

theorem evCoolingReport (medium : Nat) (inlet : Int) (flow : Nat) : Statement (.evCoolingReport medium inlet flow) := fun h => nomatch (show false = true from h)

theorem evCoolingSensorTimeout : Statement (.evCoolingSensorTimeout) := fun h => nomatch (show false = true from h)

theorem evTallowUpdate (cluster : Nat) (tj : Nat) : Statement (.evTallowUpdate cluster tj) := fun h => nomatch (show false = true from h)

theorem evHbmTempThreshold (stack : Nat) (temp : Int) : Statement (.evHbmTempThreshold stack temp) := fun h => nomatch (show false = true from h)

theorem evHbmThermalStep (stack : Nat) : Statement (.evHbmThermalStep stack) := fun h => nomatch (show false = true from h)

theorem evBellowsLimitStep (clusters : List Nat) : Statement (.evBellowsLimitStep clusters) := fun h => nomatch (show false = true from h)

theorem evBellowsRaiseStep (clusters : List Nat) : Statement (.evBellowsRaiseStep clusters) := fun h => nomatch (show false = true from h)

theorem evPowerEstimateTick (cluster : Nat) (volt : Nat) (temp : Nat) : Statement (.evPowerEstimateTick cluster volt temp) := fun h => nomatch (show false = true from h)

theorem evPowerWeightRefit (q : Nat) (energy : Rat) : Statement (.evPowerWeightRefit q energy) := fun h => nomatch (show false = true from h)

theorem evClockRatioHandshake (cluster : Nat) : Statement (.evClockRatioHandshake cluster) := fun h => nomatch (show false = true from h)

theorem evLadleMigration (gid : Nat) (cores : List Nat) : Statement (.evLadleMigration gid cores) := fun h => nomatch (show false = true from h)

theorem evCeSummaryTick : Statement (.evCeSummaryTick) := fun h => nomatch (show false = true from h)

theorem evPatrolScrub (key : Nat) : Statement (.evPatrolScrub key) := fun h => nomatch (show false = true from h)

theorem evPhaseFailure (d : Nat) (phase : Nat) : Statement (.evPhaseFailure d phase) := fun h => nomatch (show false = true from h)

theorem evColdStart (failStep : Nat) : Statement (.evColdStart failStep) := fun h => nomatch (show false = true from h)

theorem evWarmStart (failStep : Nat) : Statement (.evWarmStart failStep) := fun h => nomatch (show false = true from h)

theorem evRudimentHeldRelease (tid : Nat) : Statement (.evRudimentHeldRelease tid) := fun h => nomatch (show false = true from h)

theorem evReplayWaitExpiry (tid : Nat) : Statement (.evReplayWaitExpiry tid) := fun h => nomatch (show false = true from h)

theorem evDomainPowerGate (d : Nat) : Statement (.evDomainPowerGate d) := fun h => nomatch (show false = true from h)

theorem evServiceWaitLimit (qif : Nat) (queue : Nat) : Statement (.evServiceWaitLimit qif queue) := fun h => nomatch (show false = true from h)

theorem evCpyvVersionWaitLimit (core : Nat) (slot : Nat) (off : Nat) : Statement (.evCpyvVersionWaitLimit core slot off) := fun h => nomatch (show false = true from h)

theorem evMsixVectorUnmask (entry : Nat) (data : Word) : Statement (.evMsixVectorUnmask entry data) := fun h => nomatch (show false = true from h)

theorem evAlwaysOnPowerLoss : Statement (.evAlwaysOnPowerLoss) := fun h => nomatch (show false = true from h)

theorem evSupplyVoltageMinimum (d : Nat) (mv : Nat) : Statement (.evSupplyVoltageMinimum d mv) := fun h => nomatch (show false = true from h)

end Sys2Proof.Laws.RoundTrip
end

