-- ==== Sys2Proof/Machine/Fzas.lean ====
section
/-!
DEFINITION. The assembler fzas as spec/02 fixes what it emits (R32, R62 to R69, R506, R507): register names and identity symbols,
expressions, the suffixes it supplies, the choice of a form, pseudo-instructions, element data, and the code body with its header,
patch table and region table (spec/15, Table 15-8). No instruction of the machine reads this file; it says which bytes a kernel's
source stands for.
-/
namespace Sys2Proof.Machine

/-! ## Names (R32, R68) -/

/-- The ABI name of a scalar register, and x4 to x9, x30 and x31, which have none (Table 2-2). -/
def abiName (r : XReg) : String :=
  match r.val with
  | 0 => "zero" | 1 => "ra" | 2 => "sp" | 3 => "gp" | n =>
    if 10 ≤ n ∧ n ≤ 17 then "a" ++ toString (n - 10)
    else if 18 ≤ n ∧ n ≤ 29 then "s" ++ toString (n - 18)
    else "x" ++ toString n

/-- A register by its name or its number, in either case of letters (R32, R60). -/
def regNamed (name : String) : Option XReg :=
  (List.finRange 32).find? fun r => name.toLower == abiName r || name.toLower == "x" ++ toString r.val

/-- The identity symbols of the constant window (Table 2-13). -/
def identitySymbols : List (String × Nat) :=
  [("ID_CORE", 240), ("ID_GRANK", 241), ("ID_GSIZE", 242), ("ID_TEAM", 243), ("ID_LMBASE", 244), ("ID_SSTEPBASE", 245),
    ("ID_TENANT", 246), ("ID_ARENABASE", 247), ("ID_ARENALIMIT", 248)]

/-! ## Expressions (R63) -/

/-- Binary operators. -/
inductive FzOp where
  | mul | div | rem | add | sub | shl | shr | and | xor | or
  deriving DecidableEq, Repr

/-- Expressions; `here` is '.', `win` is `WIN(core, offset)`. -/
inductive FzExpr where
  | num (v : Word)
  | sym (name : String)
  | here
  | neg (a : FzExpr)
  | not (a : FzExpr)
  | bin (op : FzOp) (a b : FzExpr)
  | win (c o : FzExpr)
  deriving DecidableEq, Repr

/-- An operation on 64-bit two's complement; none is an assembly error. -/
def FzOp.eval (op : FzOp) (a b : Word) : Option Word :=
  match op with
  | .mul => some (a * b)
  | .div => if b = 0 then none else some (a.sdiv b)
  | .rem => if b = 0 then none else some (a.srem b)
  | .add => some (a + b)
  | .sub => some (a - b)
  | .shl => if 64 ≤ b.toNat then none else some (a <<< b.toNat)
  | .shr => if 64 ≤ b.toNat then none else some (a.sshiftRight b.toNat)
  | .and => some (a &&& b)
  | .xor => some (a ^^^ b)
  | .or => some (a ||| b)

/-- A core number that `WIN` takes. -/
def fzCore (c : Nat) : Bool := decide (c ≤ 0x7FF) || (decide (0xF00 ≤ c) && decide (c ≤ 0xF07))

/-- The value of an expression where `here` stands at `dot`; none is an assembly error. -/
def FzExpr.eval (env : List (String × Word)) (dot : Word) : FzExpr → Option Word
  | .num v => some v
  | .sym n => (env.find? fun p => p.1 == n).map (·.2)
  | .here => some dot
  | .neg a => (a.eval env dot).map fun x => 0 - x
  | .not a => (a.eval env dot).map fun x => ~~~x
  | .bin op a b => match a.eval env dot, b.eval env dot with | some x, some y => op.eval x y | _, _ => none
  | .win c o =>
    match c.eval env dot, o.eval env dot with
    | some x, some y => if fzCore x.toNat && decide (y.toNat < 2 ^ 24) then some (0x7F0000000000 + x * 2 ^ 24 + y) else none
    | _, _ => none

/-! ## Suffixes left out (R62) -/

/-- The ordering a source writes, without its scope. -/
inductive FzOrder where
  | rlx | acq | rel | ar
  deriving DecidableEq, Repr

/-- No ordering means .RLX; an ordering without a scope means .DV. -/
def fzOs (o : Option FzOrder) (sc : Option Scope) : Os :=
  match o with
  | none | some .rlx => .rlx
  | some .acq => .acq (sc.getD .dv)
  | some .rel => .rel (sc.getD .dv)
  | some .ar => .ar (sc.getD .dv)

/-- A scalar operation with rounding and no rounding suffix is .DYN. -/
def fzRm (r : Option Rm) : Rm := r.getD .dyn

/-- A fence's kind and scope: AR and .DV where not written. -/
def fzFence (k : Option FenceKind) (sc : Option Scope) : FenceKind × Scope := (k.getD .ar, sc.getD .dv)

/-- A vector instruction without a mask operand uses mask code 0. -/
def fzMask (m : Option MReg) : MReg := m.getD 0

/-! ## The shortest form (R64) -/

/-- Whether a value fits a signed field. -/
def fitsSigned (n : Nat) (v : Word) : Bool := decide (-(2 ^ (n - 1) : Int) ≤ v.toInt) && decide (v.toInt < 2 ^ (n - 1))

/-- A signed immediate of 10 bits, or the literal. -/
def fzImm10 (long : Bool) (short : BitVec 10 → Instr) (lit : Word → Instr) (v : Word) : Option Instr :=
  if long then some (lit v) else if fitsSigned 10 v then some (short (v.setWidth 10)) else none

/-- A shift amount: 0 to 63, no other form. -/
def fzShift (long : Bool) (short : BitVec 6 → Instr) (v : Word) : Option Instr :=
  if !long && decide (v.toNat < 64) then some (short (v.setWidth 6)) else none

/-- offset5 in units of an access, or the literal. -/
def fzOff5 (long : Bool) (unit : Nat) (short : BitVec 5 → Instr) (lit : Word → Instr) (v : Word) : Option Instr :=
  if long then some (lit v)
  else if v.toInt % unit = 0 ∧ -16 ≤ v.toInt / unit ∧ v.toInt / unit ≤ 15 then some (short (BitVec.ofInt 5 (v.toInt / unit)))
  else none

/-- A branch's off11 or a jump's off19 in instruction words; beyond it the extended form, a signed byte offset of 47 bits. -/
def fzTarget {n : Nat} (long : Bool) (short : BitVec n → Instr) (ext : BitVec 47 → Instr) (v : Word) : Option Instr :=
  if v.toNat % 4 ≠ 0 then none
  else if long then (if fitsSigned 47 v then some (ext (v.setWidth 47)) else none)
  else if fitsSigned (n + 2) v then some (short (BitVec.ofInt n (v.toInt / 4))) else none

/-- A literal in the place of a register: no short form. -/
def fzLit (long : Bool) (lit : Word → Instr) (v : Word) : Option Instr := if long then some (lit v) else none

/-- A number below a bound in a field of its own: no long form. -/
def fzField (long : Bool) (bound : Nat) (f : Nat → Instr) (v : Word) : Option Instr :=
  if !long && decide (v.toNat < bound) then some (f v.toNat) else none

/-- The instruction of a template with its one expression operand `v` put in: in the short form, or with `long` in the form beyond it,
which is the literal where the member takes one and the extended form for branches and JAL only (R64). None where that form does not
hold `v`. -/
noncomputable def fzPut (long : Bool) (i : Instr) (v : Word) : Option Instr :=
  match i with
  | .addi d a _ => fzImm10 long (.addi d a) (.addiLit d a) v
  | .andi d a _ => fzImm10 long (.andi d a) (.andiLit d a) v
  | .ori d a _ => fzImm10 long (.ori d a) (.oriLit d a) v
  | .xori d a _ => fzImm10 long (.xori d a) (.xoriLit d a) v
  | .slti d a _ => fzImm10 long (.slti d a) (.sltiLit d a) v
  | .sltiu d a _ => fzImm10 long (.sltiu d a) (.sltiuLit d a) v
  | .addwi d a _ => fzImm10 long (.addwi d a) (.addwiLit d a) v
  | .li d _ => fzImm10 long (.li d) (.liLit d) v
  | .pcadd d _ => fzImm10 long (.pcadd d) (.pcaddLit d) v
  | .jalr d a _ => if !long && fitsSigned 10 v then some (.jalr d a (v.setWidth 10)) else none
  | .slli d a _ => fzShift long (.slli d a) v
  | .srli d a _ => fzShift long (.srli d a) v
  | .srai d a _ => fzShift long (.srai d a) v
  | .ldk d _ => fzField long 256 (fun n => .ldk d (BitVec.ofNat 8 n)) v
  | .addk d a _ => fzField long 256 (fun n => .addk d a (BitVec.ofNat 8 n)) v
  | .csrr d _ => fzField long 4096 (fun n => .csrr d (BitVec.ofNat 12 n)) v
  | .csrw d _ a => fzField long 4096 (fun n => .csrw d (BitVec.ofNat 12 n) a) v
  | .csrs d _ a => fzField long 4096 (fun n => .csrs d (BitVec.ofNat 12 n) a) v
  | .csrc d _ a => fzField long 4096 (fun n => .csrc d (BitVec.ofNat 12 n) a) v
  | .pause _ => if v = 0 then none else fzField long 65536 (fun n => .pause (BitVec.ofNat 16 n)) v
  | .bara _ => fzField long 12 (fun n => .bara (Fin.ofNat 12 n)) v
  | .barw _ => fzField long 12 (fun n => .barw (Fin.ofNat 12 n)) v
  | .barq d _ => fzField long 12 (fun n => .barq d (Fin.ofNat 12 n)) v
  | .taccout t c a b _ => fzField long 32 (fun n => .taccout t c a b (BitVec.ofNat 5 n)) v
  | .txch p a _ => fzField long 2 (fun n => .txch p a (n == 1)) v
  | .addLit d a _ => fzLit long (.addLit d a) v
  | .subLit d a _ => fzLit long (.subLit d a) v
  | .andLit d a _ => fzLit long (.andLit d a) v
  | .orLit d a _ => fzLit long (.orLit d a) v
  | .xorLit d a _ => fzLit long (.xorLit d a) v
  | .andnLit d a _ => fzLit long (.andnLit d a) v
  | .ornLit d a _ => fzLit long (.ornLit d a) v
  | .xnorLit d a _ => fzLit long (.xnorLit d a) v
  | .sllLit d a _ => fzLit long (.sllLit d a) v
  | .srlLit d a _ => fzLit long (.srlLit d a) v
  | .sraLit d a _ => fzLit long (.sraLit d a) v
  | .rolLit d a _ => fzLit long (.rolLit d a) v
  | .rorLit d a _ => fzLit long (.rorLit d a) v
  | .sltLit d a _ => fzLit long (.sltLit d a) v
  | .sltuLit d a _ => fzLit long (.sltuLit d a) v
  | .minLit d a _ => fzLit long (.minLit d a) v
  | .maxLit d a _ => fzLit long (.maxLit d a) v
  | .minuLit d a _ => fzLit long (.minuLit d a) v
  | .maxuLit d a _ => fzLit long (.maxuLit d a) v
  | .addwLit d a _ => fzLit long (.addwLit d a) v
  | .subwLit d a _ => fzLit long (.subwLit d a) v
  | .bextLit d a _ => fzLit long (.bextLit d a) v
  | .bdepLit d a _ => fzLit long (.bdepLit d a) v
  | .seqLit d a _ => fzLit long (.seqLit d a) v
  | .sneLit d a _ => fzLit long (.sneLit d a) v
  | .beq a b _ => fzTarget long (.beq a b) (.beqExt a b) v
  | .bne a b _ => fzTarget long (.bne a b) (.bneExt a b) v
  | .blt a b _ => fzTarget long (.blt a b) (.bltExt a b) v
  | .bge a b _ => fzTarget long (.bge a b) (.bgeExt a b) v
  | .bltu a b _ => fzTarget long (.bltu a b) (.bltuExt a b) v
  | .bgeu a b _ => fzTarget long (.bgeu a b) (.bgeuExt a b) v
  | .jal d _ => fzTarget long (.jal d) (.jalExt d) v
  | .lb d a _ os => fzOff5 long 1 (.lb d a · os) (.lbLit d a · os) v
  | .lbu d a _ os => fzOff5 long 1 (.lbu d a · os) (.lbuLit d a · os) v
  | .lh d a _ os => fzOff5 long 2 (.lh d a · os) (.lhLit d a · os) v
  | .lhu d a _ os => fzOff5 long 2 (.lhu d a · os) (.lhuLit d a · os) v
  | .lw d a _ os => fzOff5 long 4 (.lw d a · os) (.lwLit d a · os) v
  | .lwu d a _ os => fzOff5 long 4 (.lwu d a · os) (.lwuLit d a · os) v
  | .ld d a _ os => fzOff5 long 8 (.ld d a · os) (.ldLit d a · os) v
  | .sb r a _ os => fzOff5 long 1 (.sb r a · os) (.sbLit r a · os) v
  | .sh r a _ os => fzOff5 long 2 (.sh r a · os) (.shLit r a · os) v
  | .sw r a _ os => fzOff5 long 4 (.sw r a · os) (.swLit r a · os) v
  | .sd r a _ os => fzOff5 long 8 (.sd r a · os) (.sdLit r a · os) v
  | .pstore r a _ => fzOff5 long 8 (.pstore r a) (.pstoreLit r a) v
  | .vload r a _ m => fzOff5 long 64 (.vload r a · m) (.vloadLit r a · m) v
  | .vstore r a _ m => fzOff5 long 64 (.vstore r a · m) (.vstoreLit r a · m) v
  | .vloadb e r a _ m => fzOff5 long 64 (.vloadb e r a · m) (.vloadbLit e r a · m) v
  | .cpy1Lit d a n c _ => fzLit long (.cpy1Lit d a n c) v
  | .cpy2Lit d a n c _ => fzLit long (.cpy2Lit d a n c) v
  | .cpy3Lit d a n c _ => fzLit long (.cpy3Lit d a n c) v
  | .cpyvLit d a n r c _ => fzLit long (.cpyvLit d a n r c) v
  | .cpyqLit d a n c _ => fzLit long (.cpyqLit d a n c) v
  | .cpyxLit d a n c _ => fzLit long (.cpyxLit d a n c) v
  | _ => none

/-- The shortest encoding that holds the operand (R64); none is an assembly error. -/
noncomputable def fzShortest (i : Instr) (v : Word) : Option Instr := (fzPut false i v).or (fzPut true i v)

/-- The template and the operand of an instruction in the longer of two forms: the literal where an immediate could stand, the extended
form of a branch or JAL. -/
noncomputable def fzLonger (i : Instr) : Option (Instr × Word) :=
  match i with
  | .addiLit d a v => some (.addi d a 0, v)
  | .andiLit d a v => some (.andi d a 0, v)
  | .oriLit d a v => some (.ori d a 0, v)
  | .xoriLit d a v => some (.xori d a 0, v)
  | .sltiLit d a v => some (.slti d a 0, v)
  | .sltiuLit d a v => some (.sltiu d a 0, v)
  | .addwiLit d a v => some (.addwi d a 0, v)
  | .liLit d v => some (.li d 0, v)
  | .pcaddLit d v => some (.pcadd d 0, v)
  | .beqExt a b o => some (.beq a b 0, o.signExtend 64)
  | .bneExt a b o => some (.bne a b 0, o.signExtend 64)
  | .bltExt a b o => some (.blt a b 0, o.signExtend 64)
  | .bgeExt a b o => some (.bge a b 0, o.signExtend 64)
  | .bltuExt a b o => some (.bltu a b 0, o.signExtend 64)
  | .bgeuExt a b o => some (.bgeu a b 0, o.signExtend 64)
  | .jalExt d o => some (.jal d 0, o.signExtend 64)
  | .lbLit d a v os => some (.lb d a 0 os, v)
  | .lbuLit d a v os => some (.lbu d a 0 os, v)
  | .lhLit d a v os => some (.lh d a 0 os, v)
  | .lhuLit d a v os => some (.lhu d a 0 os, v)
  | .lwLit d a v os => some (.lw d a 0 os, v)
  | .lwuLit d a v os => some (.lwu d a 0 os, v)
  | .ldLit d a v os => some (.ld d a 0 os, v)
  | .sbLit r a v os => some (.sb r a 0 os, v)
  | .shLit r a v os => some (.sh r a 0 os, v)
  | .swLit r a v os => some (.sw r a 0 os, v)
  | .sdLit r a v os => some (.sd r a 0 os, v)
  | .pstoreLit r a v => some (.pstore r a 0, v)
  | .vloadLit r a v m => some (.vload r a 0 m, v)
  | .vstoreLit r a v m => some (.vstore r a 0 m, v)
  | .vloadbLit e r a v m => some (.vloadb e r a 0 m, v)
  | _ => none

/-- A form that fzas never emits: the extended form where the member takes a literal (R64). -/
def fzNever (i : Instr) : Bool :=
  match i with
  | .lbExt _ _ _ _ | .lbuExt _ _ _ _ | .lhExt _ _ _ _ | .lhuExt _ _ _ _ | .lwExt _ _ _ _ | .lwuExt _ _ _ _ | .ldExt _ _ _ _ => true
  | .sbExt _ _ _ _ | .shExt _ _ _ _ | .swExt _ _ _ _ | .sdExt _ _ _ _ | .pstoreExt _ _ _ => true
  | .vloadExt _ _ _ _ | .vstoreExt _ _ _ _ | .vloadbExt _ _ _ _ _ => true
  | _ => false

/-- Whether fzas emits an instruction in the form it has: the shortest that holds its operands (R64). -/
noncomputable def fzEmits (i : Instr) : Bool :=
  !fzNever i && (match fzLonger i with | some (t, v) => (fzPut false t v).isNone | none => true)

/-- An instruction whose operand is a target: its offset counts from its own address (R44). -/
def fzRelative (i : Instr) : Bool :=
  match i with
  | .beq _ _ _ => true
  | .bne _ _ _ => true
  | .blt _ _ _ => true
  | .bge _ _ _ => true
  | .bltu _ _ _ => true
  | .bgeu _ _ _ => true
  | .jal _ _ => true
  | _ => false

/-! ## Pseudo-instructions (R65) -/

/-- NOP. -/
noncomputable def fzNop : Instr := .addi 0 0 0

/-- MOV. -/
noncomputable def fzMov (d a : XReg) : Instr := .addi d a 0

/-- NOT. -/
noncomputable def fzNot (d a : XReg) : Instr := .xori d a (-1)

/-- NEG. -/
noncomputable def fzNeg (d a : XReg) : Instr := .sub d 0 a

/-- RET. -/
noncomputable def fzRet : Instr := .jalr 0 1 0

/-- CSRRD. -/
noncomputable def fzCsrrd (d : XReg) (n : BitVec 12) : Instr := .csrr d n

/-- J: a template for its target. -/
noncomputable def fzJ : Instr := .jal 0 0

/-- CALL: a template for its target. -/
noncomputable def fzCall : Instr := .jal 1 0

/-- BEQZ: a template for its target. -/
noncomputable def fzBeqz (a : XReg) : Instr := .beq a 0 0

/-- BNEZ: a template for its target. -/
noncomputable def fzBnez (a : XReg) : Instr := .bne a 0 0

/-! ## Element data (R66, R77, R506) -/

/-- An operand of an element directive: an encoding, or the decimal value `num / 10 ^ digits`. -/
inductive FzElem where
  | code (c : Nat)
  | decimal (neg : Bool) (num : Nat) (digits : Nat)
  deriving DecidableEq, Repr

/-- An element's format: a floating-point one, or the MXINT8 grid of 2^-6. -/
inductive FzKind where
  | float (f : Fmt)
  | mxint8
  deriving DecidableEq, Repr

/-- Its width in bits. -/
def FzKind.width : FzKind → Nat
  | .float f => f.width
  | .mxint8 => 8

/-- The formats of .mx, by name (Table 6-2). -/
def mxFormat (name : String) : Option FzKind :=
  ([("MXFP8-E4M3", FzKind.float .e4m3), ("MXFP8-E5M2", .float .e5m2), ("MXFP6-E3M2", .float .e3m2), ("MXFP6-E2M3", .float .e2m3),
    ("MXFP4", .float .e2m1), ("MXINT8", .mxint8)].find? fun p => p.1 == name).map (·.2)

/-- The formats of .wb, by name: the element formats of codes 13 to 15. -/
def wbFormat (name : String) : Option FzKind :=
  ([("WB8", FzKind.float (tElem 13)), ("WB6", .float (tElem 14)), ("WB4", .float (tElem 15))].find? fun p => p.1 == name).map (·.2)

/-- One element's encoding: a code unchanged where it fits; a decimal value rounded RNE without saturation, an error where that
overflows or gives no finite value, or leaves the range of MXINT8 (R506). MXINT8's range is tested on the value as written, before it
is rounded: the rule calls a value outside -2 to 1.984375 an error, not a result. -/
def FzElem.encode (k : FzKind) : FzElem → Option Nat
  | .code c => if c < 2 ^ k.width then some c else none
  | .decimal neg num digits =>
    let x := if num = 0 then FV.fin neg 0 0 false else quotient neg num 0 (10 ^ digits) 0
    match k with
    | .float f =>
      let r := rnd f .rne false x ⟨0, 0⟩
      if r.2.flags &&& fOF ≠ 0 then none
      else match f.decode r.1 with | .fin _ _ _ _ => some r.1 | .nan => none | .inf _ => none
    | .mxint8 =>
      -- |value| against 127/64 and 2, in exact arithmetic
      if (if neg then decide (2 * 10 ^ digits < num) else decide (127 * 10 ^ digits < 64 * num)) then none
      else some ((rndInt (-128) 127 (-6) .rne x ⟨0, 0⟩).1 % 256).toNat

/-- All of a list, or an error. -/
def allOrNone {α β : Type} (f : α → Option β) : List α → Option (List β)
  | [] => some []
  | a :: r => match f a, allOrNone f r with | some b, some l => some (b :: l) | _, _ => none

/-- Elements packed from the lowest address, with no gaps (R77). -/
def packElems (width : Nat) (l : List Nat) : List Byte :=
  bytesOf ((l.length * width + 7) / 8) (l.foldr (fun c a => c + 2 ^ width * a) 0)

/-- .bf16, .fp32 and .fp8e4m3: elements in number as written. -/
def fzElems (f : Fmt) (l : List FzElem) : Option (List Byte) := (allOrNone (FzElem.encode (.float f)) l).map (packElems f.width)

/-- .mx: exactly 32 elements of a block. -/
def fzMx (name : String) (l : List FzElem) : Option (List Byte) :=
  match mxFormat name with
  | some k => if l.length = 32 then (allOrNone (FzElem.encode k) l).map (packElems k.width) else none
  | none => none

/-- .wb: exactly 256 elements of a run. -/
def fzWb (name : String) (l : List FzElem) : Option (List Byte) :=
  match wbFormat name with
  | some k => if l.length = 256 then (allOrNone (FzElem.encode k) l).map (packElems k.width) else none
  | none => none

/-- .byte, .half, .word and .dword: a value of 1, 2, 4 or 8 bytes, signed or unsigned; out of range is an error. -/
def fzValue (n : Nat) (v : Word) : Option (List Byte) :=
  if n = 8 ∨ v.toNat < 256 ^ n ∨ fitsSigned (8 * n) v then some (bytesOf n v.toNat) else none

/-! ## Words, padding, tables (R6, R66, R67, R69, R507) -/

/-- The little-endian bytes of an instruction's words (R6): word 0, and 64 or 128 bits more as LEN says (Table 2-3). -/
noncomputable def fzWords (i : Instr) : List Byte :=
  let e := encode i
  bytesOf 4 e.1 ++ (if e.1 % 4 = 0 then [] else if e.1 % 4 = 3 then bytesOf 8 e.2.1 ++ bytesOf 8 e.2.2 else bytesOf 8 e.2.1)

/-- A boundary fzas may pad to: a power of two up to 16,384. -/
def fzAlign (n : Nat) : Bool := (List.range 15).any fun k => n == 2 ^ k

/-- Padding up to a boundary: zero bytes, in .text NOPs; none where NOPs do not fit or the boundary is no legal one. The boundary counts
from the start of the section: where the host places a section the assembler does not know (DESIGN CHOICE, log entry 97). -/
def fzPad (text : Bool) (len n : Nat) : Option (List Byte) :=
  let k := alignUp len n - len
  if fzAlign n = false then none
  else if text then (if k % 4 = 0 then some ((List.replicate (k / 4) (bytesOf 4 8)).flatten) else none)
  else some (List.replicate k 0)

/-- The .lm section of a launch with this SPMIN ends within SPMIN steps of 16 KiB: the host runtime's check (R507). -/
def fzLmOk (len spmin : Nat) : Bool := decide (0x800 + len ≤ spmin * 2 ^ 14)

/-- .args binds at most 240 names, and no entry that .const data covers (R67). -/
def fzArgsOk (names : List String) (constBytes : Nat) : Bool :=
  decide (names.length ≤ 240) && decide (constBytes ≤ 8 * 240) && (names.isEmpty || decide (constBytes = 0))

/-- A .ver entry of the region table: the argument entry, the size in 16 KiB; none is an assembly error (R69). 256 GiB is a size the rule
allows and 2^24 pages of 16 KiB, which its 24-bit field does not hold: the field then holds 0, which no other size gives, and
bits [63:40] stay zero (DESIGN CHOICE, log entry 97). -/
def fzVer (names : List String) (seen : List String) (name : String) (size : Nat) : Option Word :=
  match names.findIdx? (· == name) with
  | none => none
  | some e =>
    if seen.contains name || size % 2 ^ 14 != 0 || size == 0 || decide (256 * 2 ^ 30 < size) then none
    else some (BitVec.ofNat 64 (e + size / 2 ^ 14 % 2 ^ 24 * 2 ^ 16))

/-- The region table of a kernel's .ver directives. -/
def fzVers (names : List String) : List (String × Nat) → List String → Option (List Word)
  | [], _ => some []
  | (n, z) :: r, seen =>
    match fzVer names seen n z, fzVers names r (n :: seen) with
    | some w, some l => some (w :: l)
    | _, _ => none

/-- The code body: the header of Table 15-8, the text at the next multiple of 64, the patch table, the region table. The device hash
is that of R369; no Faruz Portable Form is embedded. -/
def fzBody (hash : Word) (text : List Byte) (patches : List Nat) (vers : List Word) : List Byte :=
  let pt := alignUp (64 + text.length) 8
  let len := pt + 8 * patches.length + 8 * vers.length
  bytesOf 8 hash.toNat ++ bytesOf 8 len ++ bytesOf 8 64 ++ bytesOf 8 text.length ++ bytesOf 8 0 ++ bytesOf 8 0 ++ bytesOf 8 pt ++
    bytesOf 4 patches.length ++ bytesOf 4 vers.length ++ text ++ List.replicate (pt - 64 - text.length) 0 ++
    patches.flatMap (bytesOf 8) ++ vers.flatMap fun w => bytesOf 8 w.toNat

/-! ## A source file (R66, R507) -/

/-- Sections. -/
inductive FzSec where
  | text | data | lm | const
  deriving DecidableEq, Repr

/-- A line of source: a label, a directive of Table 2-12, an instruction whole, an instruction with an expression for its immediate,
offset, target, entry or CSR, `PCADD rd, label` (R109; `instrOf` is its `#imm` spelling), or a MIGR with its two expressions (R353). -/
inductive FzLine where
  | label (name : String)
  | sec (s : FzSec)
  | align (n : Nat)
  | values (bytes : Nat) (es : List FzExpr)
  | bf16 (l : List FzElem)
  | fp32 (l : List FzElem)
  | fp8e4m3 (l : List FzElem)
  | mx (format : String) (l : List FzElem)
  | wb (format : String) (l : List FzElem)
  | kernel (name : String)
  | kernelend
  | team (n : Nat)
  | gang (n : Option Nat)
  | args (names : List String)
  | tiles (n : Nat)
  | accs (n : Nat)
  | lease (name : String) (size : Nat)
  | ver (name : String) (size : Nat)
  | patch (label : String)
  | set (name : String) (e : FzExpr)
  | instr (i : Instr)
  | instrOf (i : Instr) (e : FzExpr)
  | pcaddOf (d : XReg) (label : FzExpr)
  | migrOf (xc : XReg) (isl w : FzExpr)
  deriving DecidableEq, Repr

/-- The head of a kernel as its directives give it. -/
structure FzHead where
  name : String
  team : Nat
  gang : Option (Option Nat)
  args : List String
  tiles : Nat
  accs : Nat
  leases : List (String × Nat)
  vers : List (String × Nat)
  patches : List String
  deriving DecidableEq, Repr

/-- A kernel that opens. -/
def FzHead.open (name : String) : FzHead := ⟨name, 0, none, [], 0, 0, [], [], []⟩

/-- The limits of Table 2-12: `.gang any` is `some none`, a kernel without .team or .gang is an error. -/
def FzHead.ok (h : FzHead) : Bool :=
  decide (1 ≤ h.team ∧ h.team ≤ 8) &&
    (match h.gang with | none => false | some none => true | some (some n) => decide (1 ≤ n ∧ n ≤ 2048)) &&
    decide (h.tiles ≤ 16) && decide (h.accs ≤ 8) && decide (h.leases.length ≤ 8)

/-- What a source assembles to: a code body for each kernel with its head, the data image, the argument image of .const from entry 0,
the length of .lm. -/
structure FzOut where
  kernels : List (FzHead × List Byte)
  data : List Byte
  const : List Byte
  lm : Nat
  deriving DecidableEq, Repr

/-- How far an assembly has come: the section, the kernel open, its text, the other sections, the symbols met so far (labels, .set), the
kernels closed, and which kernel's text each of the labels of a text stands in. -/
structure FzState where
  sec : FzSec
  head : Option FzHead
  text : List Byte
  data : List Byte
  const : List Byte
  lm : List Byte
  syms : List (String × Word)
  kernels : List (FzHead × List Byte)
  labels : List (String × String)
  deriving DecidableEq, Repr

/-- A source begins in .text with nothing open. -/
def FzState.init : FzState := ⟨.text, none, [], [], [], [], [], [], []⟩

/-- Bytes in the present section. -/
def FzState.here (s : FzState) : List Byte := match s.sec with | .text => s.text | .data => s.data | .lm => s.lm | .const => s.const

/-- Add bytes to the present section: text stands in a kernel, .lm holds zeros (R507). -/
def FzState.put (s : FzState) (b : List Byte) : Option FzState :=
  match s.sec with
  | .text => if s.head.isSome then some { s with text := s.text ++ b } else none
  | .data => some { s with data := s.data ++ b }
  | .const => some { s with const := s.const ++ b }
  | .lm => if b.all (· == 0) then some { s with lm := s.lm ++ b } else none

/-- Define a symbol, once: the labels and .set symbols of all sections and kernels of a source share one namespace, so that one name in
two kernels is an error (DESIGN CHOICE, log entry 115). -/
def FzState.define (s : FzState) (name : String) (v : Word) : Option FzState :=
  if s.syms.any fun p => p.1 == name then none else some { s with syms := s.syms ++ [(name, v)] }

/-- Define a label at the present place of its section: in .text the byte offset in the kernel's text, in .data and .lm those of R507, in
.const the byte offset in the image and not the entry number that LDK takes (the rules give .const labels no value: DESIGN CHOICE, log
entry 115). -/
def FzState.label (s : FzState) (name : String) : Option FzState :=
  (s.define name (BitVec.ofNat 64 s.here.length)).map fun s =>
    match s.sec, s.head with
    | .text, some h => { s with labels := s.labels ++ [(h.name, name)] }
    | _, _ => s

/-- Change the open kernel's head; without one a head directive is misplaced. -/
def FzState.onHead (s : FzState) (f : FzHead → FzHead) : Option FzState := s.head.map fun h => { s with head := some (f h) }

/-- The symbols an expression may use: the open kernel's arguments, the identity symbols, labels and .set symbols. -/
def fzEnv (args : List String) (syms : List (String × Word)) : List (String × Word) :=
  args.zipIdx.map (fun p => (p.1, BitVec.ofNat 64 p.2)) ++ identitySymbols.map (fun p => (p.1, BitVec.ofNat 64 p.2)) ++ syms

/-- What an earlier pass found: the symbols, each kernel's arguments by name, and the labels of each kernel's text. -/
structure FzKnown where
  syms : List (String × Word)
  args : List (String × List String)
  labels : List (String × String)
  deriving DecidableEq, Repr

/-- The environment of a line. -/
def FzKnown.env (k : FzKnown) (h : Option FzHead) : List (String × Word) :=
  fzEnv (match h with | some h => ((k.args.find? fun p => p.1 == h.name).map (·.2)).getD [] | none => []) k.syms

/-- Bytes of a data directive; without a known environment zeros of the same number. -/
def fzData (env : Option (List (String × Word))) (dot : Word) (n : Nat) (es : List FzExpr) : Option (List Byte) :=
  if n ≠ 1 ∧ n ≠ 2 ∧ n ≠ 4 ∧ n ≠ 8 then none
  else
    match env with
    | none => some (List.replicate (n * es.length) 0)
    | some env => (allOrNone (fun e => (e.eval env dot).bind (fzValue n)) es).map List.flatten

/-- An instruction line's words, in the form that `long` names, its operand counted from its own address where `rel`; without a known
environment zeros of the same number. -/
noncomputable def fzCode (env : Option (List (String × Word))) (dot : Word) (rel long : Bool) (i : Instr) (e : FzExpr) :
    Option (List Byte) :=
  match env with
  | none => some (List.replicate (match fzPut long i 0 with | some j => (fzWords j).length | none => 4) 0)
  | some env =>
    (e.eval env dot).bind fun v => (fzPut long i (if rel then v - dot else v)).bind fun j =>
      if j.wellFormed then some (fzWords j) else none

/-- The instruction template, the operand and whether that counts from the instruction's own address: a target (R44), or the label of a
PCADD (R109). -/
noncomputable def FzLine.operand (l : FzLine) : Option (Instr × FzExpr × Bool) :=
  match l with
  | .instrOf i e => some (i, e, fzRelative i)
  | .pcaddOf d e => some (.pcadd d 0, e, true)
  | _ => none

/-- The words of a MIGR: island 0 or 1 and a width within R353. -/
noncomputable def fzMigr (env : Option (List (String × Word))) (dot : Word) (xc : XReg) (isl w : FzExpr) : Option (List Byte) :=
  match env with
  | none => some (List.replicate 12 0)
  | some env =>
    (isl.eval env dot).bind fun a => (w.eval env dot).bind fun b =>
      let i := Instr.migr xc (a == 1) (BitVec.ofNat 12 (b.toNat - 1))
      if a.toNat < 2 ∧ 1 ≤ b.toNat ∧ b.toNat ≤ 4096 ∧ i.wellFormed = true then some (fzWords i) else none

/-- The code body of a kernel that closes: its head within Table 2-12, its arguments within R67, its patch slots at labels of its own
text, aligned to 8 bytes. -/
def FzState.close (hash : Word) (known : Option FzKnown) (s : FzState) (h : FzHead) (constBytes : Nat) : Option FzState :=
  match known with
  | none => some { s with head := none, text := [], kernels := s.kernels ++ [(h, [])] }
  | some k =>
    let slot (l : String) : Option Nat := match k.syms.find? fun p => p.1 == l with
      | some p => if k.labels.contains (h.name, l) ∧ p.2.toNat % 8 = 0 ∧ p.2.toNat + 8 ≤ s.text.length then some p.2.toNat else none
      | none => none
    if h.ok && fzArgsOk h.args constBytes then
      match allOrNone slot h.patches, fzVers h.args h.vers [] with
      | some ps, some vs => some { s with head := none, text := [], kernels := s.kernels ++ [(h, fzBody hash s.text ps vs)] }
      | _, _ => none
    else none

/-- One line. With nothing `known` only lengths and labels are right, which is what the next pass needs. None is an assembly error: a
directive outside its place, a value out of range, a symbol defined twice or not at all. A .set expression is evaluated with the symbols
met so far: a label or symbol defined later in the source is an error in it (the rules are silent: DESIGN CHOICE, log entry 115). -/
noncomputable def FzState.line (hash : Word) (known : Option FzKnown) (constBytes : Nat) (long : Bool) (s : FzState) : FzLine → Option FzState
  | .label n => s.label n
  | .sec x => some { s with sec := x }
  | .align n => (fzPad (s.sec == .text) s.here.length n).bind s.put
  | .values n es => (fzData (known.map (·.env s.head)) (BitVec.ofNat 64 s.here.length) n es).bind s.put
  | .bf16 l => (fzElems .bf16 l).bind s.put
  | .fp32 l => (fzElems .f32 l).bind s.put
  | .fp8e4m3 l => (fzElems .e4m3 l).bind s.put
  | .mx f l => (fzMx f l).bind s.put
  | .wb f l => (fzWb f l).bind s.put
  | .kernel n =>
    if s.sec = .text ∧ s.head.isNone = true ∧ (s.kernels.any fun p => p.1.name == n) = false then some { s with head := some (FzHead.open n), text := [] }
    else none
  | .kernelend => if s.sec = .text then s.head.bind fun h => s.close hash known h constBytes else none
  | .team n => s.onHead fun h => { h with team := n }
  | .gang n => s.onHead fun h => { h with gang := some n }
  | .args l => s.onHead fun h => { h with args := h.args ++ l }
  | .tiles n => s.onHead fun h => { h with tiles := n }
  | .accs n => s.onHead fun h => { h with accs := n }
  | .lease n z => s.onHead fun h => { h with leases := h.leases ++ [(n, z)] }
  | .ver n z => s.onHead fun h => { h with vers := h.vers ++ [(n, z)] }
  | .patch l => if s.sec = .text then s.onHead fun h => { h with patches := h.patches ++ [l] } else none
  | .set n e =>
    (e.eval (fzEnv (match s.head with | some h => h.args | none => []) s.syms) (BitVec.ofNat 64 s.here.length)).bind (s.define n)
  | .instr i => if s.sec = .text ∧ i.wellFormed = true ∧ fzEmits i = true then s.put (fzWords i) else none
  | .instrOf i e =>
    if s.sec = .text then (fzCode (known.map (·.env s.head)) (BitVec.ofNat 64 s.text.length) (fzRelative i) long i e).bind s.put else none
  | .pcaddOf d e =>
    if s.sec = .text then (fzCode (known.map (·.env s.head)) (BitVec.ofNat 64 s.text.length) true long (.pcadd d 0) e).bind s.put else none
  | .migrOf xc isl w =>
    if s.sec = .text then (fzMigr (known.map (·.env s.head)) (BitVec.ofNat 64 s.text.length) xc isl w).bind s.put else none

/-- A pass over a source, with a form for each line. -/
noncomputable def fzPass (hash : Word) (known : Option FzKnown) (constBytes : Nat) : List (FzLine × Bool) → FzState → Option FzState
  | [], s => if s.head.isNone then some s else none
  | (l, long) :: r, s => (s.line hash known constBytes long l).bind (fzPass hash known constBytes r)

/-- What a pass has found. -/
def FzState.known (s : FzState) : FzKnown := ⟨s.syms, s.kernels.map fun p => (p.1.name, p.1.args), s.labels⟩

/-- Which lines do not hold their operands in the form they have, where a pass's symbols are known: those take the longer form. -/
noncomputable def fzGrow (k : FzKnown) : List (FzLine × Bool) → FzState → List (FzLine × Bool)
  | [], _ => []
  | (l, long) :: r, s =>
    let grown := match l.operand with
      | some (i, e, rel) => long || (fzCode (some (k.env s.head)) (BitVec.ofNat 64 s.text.length) rel false i e).isNone
      | none => false
    (l, grown) :: (match s.line 0 none 0 long l with | some s' => fzGrow k r s' | none => r)

/-- Forms settled: each line the shortest that holds its operand when every other line has its own (R64). Forms only grow, so as many
rounds as there are lines are enough. -/
noncomputable def fzForms : Nat → List (FzLine × Bool) → List (FzLine × Bool)
  | 0, l => l
  | n + 1, l =>
    match fzPass 0 none 0 l FzState.init with
    | none => l
    | some s =>
      let l' := fzGrow s.known l FzState.init
      if l' = l then l else fzForms n l'

/-- A source assembled, or an assembly error: .const holds at most 240 entries' worth of data, in a source without a kernel too (R67). .data, .lm and .const are the source's, each kernel's text has a body of its own (DESIGN
CHOICE, log entry 97). -/
noncomputable def fzAssemble (hash : Word) (src : List FzLine) : Option FzOut :=
  let forms := fzForms (src.length + 1) (src.map fun l => (l, false))
  (fzPass 0 none 0 forms FzState.init).bind fun s0 =>
    (fzPass hash (some s0.known) s0.const.length forms FzState.init).bind fun s =>
      if s.const.length ≤ 8 * 240 then some ⟨s.kernels, s.data, s.const, s.lm.length⟩ else none

end Sys2Proof.Machine
end

