-- ==== Sys2Proof/Machine/Ordering.lean ====
section
/-!
DEFINITION. Which outcomes of concurrent accesses can occur (spec/09, R216 to R236; spec/10, R258, R259, R262): the events that an
instruction or an engine command makes, and the spec's conditions on an execution, as one check of plain data. An execution is written
down whole (events, fences, meetings, moves, fetches, reads-from, coherence) and `Execution.allowed` says whether the rules admit it.
The step function performs accesses one at a time, which is one of the executions admitted here (log entry 2).
-/
namespace Sys2Proof.Machine

/-! ## Parties (R217) -/

/-- A party: a thread, by a name that it keeps wherever it is bound (R231), or an external one (host agents, devices behind the host
fabric, the partner box). Service firmware is a thread. -/
inductive Party where
  | thread (id : Nat)
  | external (n : Nat)
  deriving DecidableEq, Repr

/-- A party where it stands at an event: a thread at the slot to which it is bound then (R217). -/
structure Post where
  party : Party
  slot : Nat
  deriving DecidableEq, Repr

/-- A thread named by the slot at which it runs. -/
def Post.bound (tid : Nat) : Post := ⟨.thread tid, tid⟩
/-- An external party. -/
def Post.outside (n : Nat) : Post := ⟨.external n, 0⟩

/-- The scope set of a thread (Table 9-2): whether a party where it stands lies in it. -/
def inScope (t : Post) (sc : Scope) (p : Post) : Bool :=
  let a := coreOf t.slot
  let b := coreOf p.slot
  match sc, t.party, p.party with
  | .sy, _, _ => true
  | .dv, _, .thread _ => true
  | .is, .thread _, .thread _ => isTabor a == isTabor b
  | .cl, .thread _, .thread _ => isTabor a == isTabor b && clusterOf a == clusterOf b
  | .tm, .thread _, .thread _ => a == b
  | _, _, _ => false

/-! ## Events (R216, R258) -/

/-- What an event does to its bytes (R216). -/
inductive Access where
  | load | store | rmw
  deriving DecidableEq, Repr

/-- What an event is beside an access: the completion write of its command (R227); a notify write as service firmware reads it, the
writing of a completion record (R233); of versions (R258), a creation, a load that returns one, a load that finds it reclaimed, a
probe, a reclamation, by a VERDROP or not. -/
inductive Role where
  | plain | completion | notify | record | create | fetchVersion | missing | probe | reclaim (drop : Bool)
  deriving DecidableEq, Repr

/-- One event: one part of an access (R210). `pos` is its place in the party's program order; the events of an engine command share the
place of its submission, and `grain`, the payload offset of a destination granule, ties that granule's store to the loads of its source
bytes. Locations are byte numbers of any space, and a pair (granule, version) or a region's floor is a location of its own, one number
wide. `deviceOrdered`: a page with CA 10; `far`: host memory or a bridge-peer page; `toBridge`: traffic for the partner. -/
structure Event where
  post : Post
  pos : Nat
  path : Path
  access : Access
  os : Os
  loc : Nat
  len : Nat
  got : List Nat
  put : List Nat
  deviceOrdered : Bool
  far : Bool
  toBridge : Bool
  command : Option Nat
  grain : Nat
  role : Role
  deriving DecidableEq, Repr

/-- A plain event of one place. -/
def Event.one (post : Post) (pos : Nat) (path : Path) (access : Access) (os : Os) (loc : Nat) (got put : List Nat) : Event :=
  ⟨post, pos, path, access, os, loc, 1, got, put, false, false, false, none, 0, .plain⟩

/-- A plain access on the LS path: one location of one byte, which reads `got` and writes `put`. -/
def Event.plain (tid pos : Nat) (access : Access) (os : Os) (loc : Nat) (got put : List Nat) : Event :=
  .one (.bound tid) pos .ls access os loc got put

/-- Its party. -/
def Event.party (e : Event) : Party := e.post.party

/-- It reads. -/
def Event.loads (e : Event) : Bool := decide (e.access ≠ .store)

/-- It writes. -/
def Event.stores (e : Event) : Bool := decide (e.access ≠ .load)

/-- It touches a location. -/
def Event.at (e : Event) (x : Nat) : Bool := decide (e.loc ≤ x ∧ x < e.loc + e.len)

/-- A fence that names its path counts it as a load and a store both: an access of a command on CE, CO or NI (R222). The model takes
every NI event for one, an MPOLL among them (log entry 42). -/
def Event.whole (e : Event) : Bool := decide (e.path = .ce ∨ e.path = .co ∨ e.path = .ni)

/-! ## The events of an instruction (Table 9-1) -/

/-- The accesses of an instruction, in order, with the path of each: what it loads and stores of memory, tile state, inboxes and
links, and its ordering suffix. Engine commands have theirs below, but for the shape block, which CPY2, CPY3 and CPYQ load on LS at
submission (R276); a WAITA's is the read that wakes it, a CLAVE's stands for its meeting (Table 9-6). An ABUMP reads two entries of the
constant window first (R271), a MIGR its record and its list (R353). An update of an accumulator is one read-modify-write of each
granule (R174). -/
def accessesOf : Instr → List (Path × Access × Os)
  | .lb _ _ _ o | .lbu _ _ _ o | .lh _ _ _ o | .lhu _ _ _ o | .lw _ _ _ o | .lwu _ _ _ o | .ld _ _ _ o => [(.ls, .load, o)]
  | .lbLit _ _ _ o | .lbuLit _ _ _ o | .lhLit _ _ _ o | .lhuLit _ _ _ o | .lwLit _ _ _ o | .lwuLit _ _ _ o | .ldLit _ _ _ o => [(.ls, .load, o)]
  | .lbExt _ _ _ o | .lbuExt _ _ _ o | .lhExt _ _ _ o | .lhuExt _ _ _ o | .lwExt _ _ _ o | .lwuExt _ _ _ o | .ldExt _ _ _ o => [(.ls, .load, o)]
  | .sb _ _ _ o | .sh _ _ _ o | .sw _ _ _ o | .sd _ _ _ o => [(.ls, .store, o)]
  | .sbLit _ _ _ o | .shLit _ _ _ o | .swLit _ _ _ o | .sdLit _ _ _ o => [(.ls, .store, o)]
  | .sbExt _ _ _ o | .shExt _ _ _ o | .swExt _ _ _ o | .sdExt _ _ _ o => [(.ls, .store, o)]
  | .pstore .. | .pstoreLit .. | .pstoreExt .. => [(.ls, .store, .rlx)]
  | .amoadd _ _ _ _ o | .amoand _ _ _ _ o | .amoor _ _ _ _ o | .amoxor _ _ _ _ o | .amomin _ _ _ _ o | .amomax _ _ _ _ o
  | .amominu _ _ _ _ o | .amomaxu _ _ _ _ o | .amoswap _ _ _ _ o | .amocas _ _ _ _ o | .amofadd _ _ _ _ o => [(.ls, .rmw, o)]
  | .abump _ _ _ o => [(.ls, .load, .rlx), (.ls, .load, .rlx), (.ls, .rmw, o)]
  | .ldk .. | .addk .. => [(.ls, .load, .rlx)]
  | .vload .. | .vloadLit .. | .vloadExt .. | .vloadb .. | .vloadbLit .. | .vloadbExt .. | .vgather .. => [(.ls, .load, .rlx)]
  | .vstore .. | .vstoreLit .. | .vstoreExt .. | .vscatter .. => [(.ls, .store, .rlx)]
  | .verst _ _ _ o => [(.ls, .store, o)]
  | .verld _ _ _ o | .verldle _ _ _ o => [(.ls, .load, o)]
  | .verprobe .. => [(.ls, .load, .rlx), (.ls, .load, .rlx)]
  | .verfloor _ _ _ o | .verdrop _ o => [(.ls, .store, o)]
  | .tload .. | .tloadt .. | .tloads .. | .taccld .. => [(.mx, .load, .rlx), (.mx, .store, .rlx)]
  | .tstore .. | .taccst .. => [(.mx, .load, .rlx), (.mx, .store, .rlx)]
  | .tmma .. => [(.mx, .load, .rlx), (.mx, .load, .rlx), (.mx, .rmw, .rlx)]
  | .taccadd .. => [(.mx, .load, .rlx), (.mx, .rmw, .rlx)]
  | .taccout .. => [(.mx, .load, .rlx), (.mx, .load, .rlx), (.mx, .store, .rlx)]
  | .tcvt .. | .txch .. => [(.mx, .load, .rlx), (.mx, .store, .rlx)]
  | .tzero .. | .taccz .. => [(.mx, .store, .rlx)]
  | .msend .. => [(.ni, .store, .rlx)]
  | .mrecv .. => [(.ni, .rmw, .rlx)]
  | .mpoll .. => [(.ni, .load, .rlx)]
  | .waita .. => [(.ls, .load, .acq .dv)]
  | .clave .. | .clavev .. | .claveg .. => [(.ls, .rmw, .ar .is)]
  | .slpush .. => [(.sl, .store, .rlx)]
  | .slpop .. => [(.sl, .rmw, .rlx)]
  | .slfree .. | .slpeek .. => [(.sl, .load, .rlx)]
  | .cpy2 .. | .cpy3 .. | .cpyq .. | .cpy2Lit .. | .cpy3Lit .. | .cpyqLit .. => [(.ls, .load, .rlx)]
  | .migr .. => [(.ls, .load, .rlx), (.ls, .load, .rlx)]
  | _ => []

/-- The location number of a place: the memory key, window bytes and hub words in spaces of their own. -/
def Loc.number : Loc → Nat
  | .mem k => k
  | .win c off => 4 * 2 ^ 52 + c * 2 ^ 24 + off
  | .hub off => 6 * 2 ^ 52 + off

/-- An atomic of a thread stores, where its word held `old`: an AMOCAS that fails, an ABUMP that is refused or allocates nothing are
loads only (R270, R271). -/
def State.atomicStores (s : State) (tid : Nat) (i : Instr) (old : Nat) : Bool :=
  let s := { s with cur := tid }
  match i with
  | .amocas d _ _ dbl _ => old == (s.getX d).toNat % 2 ^ (8 * amoBytes dbl)
  | .abump _ _ b _ => match s.kon 247, s.kon 248 with
    | .ok base, .ok lim => let n := alignUp (s.getX b).toNat 16; n != 0 && (abump base.toNat lim.toNat old n).isSome
    | _, _ => false
  | _ => true

/-- An access of an instruction as it is performed. -/
def State.performed (s : State) (tid : Nat) (i : Instr) (a : Path × Access × Os) (parts : List Span) : Path × Access × Os :=
  if a.2.1 = .rmw ∧ s.atomicStores tid i (ofBytes (s.bytesAt parts)) = false then (a.1, .load, a.2.2) else a

/-- The event of a part of an access (R210): its bytes before the access, in `s`, where it loads, after it, in `t`, where it stores. -/
def State.partEvent (s t : State) (post : Post) (pos : Nat) (a : Path × Access × Os) (p : Span) : Event where
  post := post
  pos := pos
  path := a.1
  access := a.2.1
  os := a.2.2
  loc := p.loc.number
  len := p.n
  got := if a.2.1 = .store then [] else (s.spanBytes p).map BitVec.toNat
  put := if a.2.1 = .load then [] else (t.spanBytes p).map BitVec.toNat
  deviceOrdered := p.ca == 2
  far := p.home == 2 || p.home == 3
  toBridge := a.1 != .ls && p.home == 3
  command := none
  grain := 0
  role := .plain

/-- The events of an instruction that takes the machine from `s` to `t`: one per part of each of its accesses, whose parts `parts`
lists. -/
def State.eventsOf (s t : State) (post : Post) (pos : Nat) (i : Instr) (parts : List (List Span)) : List Event :=
  ((accessesOf i).zip parts).flatMap fun a => a.2.map (s.partEvent t post pos (s.performed post.slot i a.1 a.2))

/-- The events of one destination granule of a command: its source bytes are loaded, then the granule is stored, at payload offset
`grain` (R216). A collective over the bridge (`br`) is traffic for the partner as a whole (R232). -/
def State.granuleEvents (s t : State) (post : Post) (pos : Nat) (path : Path) (id grain : Nat) (br : Bool) (src dst : List Span) : List Event :=
  (src.map (s.partEvent t post pos (path, .load, .rlx)) ++ dst.map (s.partEvent t post pos (path, .store, .rlx))).map
    fun e => { e with command := some id, grain := grain, toBridge := e.toBridge || br }

/-- The completion write of a command (R227): its scope comes from the payload. -/
def State.completionEvent (s t : State) (post : Post) (pos : Nat) (path : Path) (id : Nat) (p : Span) : Event :=
  { s.partEvent t post pos (path, .store, .rlx) p with command := some id, role := .completion }

/-! ## The events of versions (R258, R262) -/

/-- The location (g, v): granule by its key, version by its number. -/
def verLoc (g v : Nat) : Nat := 2 ^ 128 + g * 2 ^ 64 + v
/-- A region's floor. -/
def floorLoc (rk : Nat) : Nat := 2 ^ 192 + rk
/-- What a version's location holds: 0 for absent, else one more than its 64 bytes as a number. -/
def verValue (bs : List Byte) : Nat := ofBytes bs + 1

/-- The granules of a region with their live versions: (granule's key, version). -/
def Region.live (rk : Nat) (r : Region) : List (Nat × Nat) := r.grans.flatMap fun g => g.2.vers.map fun v => (rk + g.1, v.1)

/-- The versions of a region that an event reclaims. -/
def State.reclaims (s t : State) (rk : Nat) : List (Nat × Nat) :=
  (Region.live rk (s.region rk)).filter fun p => !(Region.live rk (t.region rk)).contains p

/-- The events of a versioned instruction at granule `g` of the region at `rk`, with the version `v` that it names and the version it
returned, if any, with the bytes. A probe loads (g, v) and (g, NEWEST); a load that finds its version reclaimed reads the reclamation,
and the floor that tells it so where there was no such version; what goes away is stored to by the event that reclaims it. A VERDROP
stores to every version of the region's life, those in `past` reclaimed before it: from then on each may be created again (R257, R259;
log entry 113). -/
def State.versionEvents (s t : State) (post : Post) (pos : Nat) (i : Instr) (rk g v : Nat) (back : Option (Nat × List Byte))
    (past : List (Nat × Nat)) : List Event :=
  let e (a : Access) (o : Os) (loc : Nat) (got put : List Nat) (r : Role) : Event := { Event.one post pos .ls a o loc got put with role := r }
  let store (drop : Bool) (p : Nat × Nat) : Event := e .store .rlx (verLoc p.1 p.2) [] [0] (.reclaim drop)
  let gone : List Event := (s.reclaims t rk).map (store false)
  let load (o : Os) : List Event :=
    match back with
    | some (u, bs) => [e .load o (verLoc g u) [verValue bs] [] .fetchVersion]
    | none => [e .load o (verLoc g v) [0] [] .missing, e .load .rlx (floorLoc rk) [(s.region rk).floor] [] .plain]
  match i with
  | .verst _ _ _ o =>
    (match back with | some (_, bs) => [e .store o (verLoc g v) [] [verValue bs] .create] | none => []) ++ gone
  | .verld _ _ _ o | .verldle _ _ _ o => load o
  | .verprobe .. =>
    let seen (u : Nat) : Event := e .load .rlx (verLoc g u) [if (Region.live rk (s.region rk)).contains (g, u) then 1 else 0] [] .probe
    seen v :: (match back with | some (u, _) => [seen u] | none => [])
  | .verfloor _ _ _ o => e .store o (floorLoc rk) [] [(t.region rk).floor] .plain :: gone
  | .verdrop _ o => e .store o (floorLoc rk) [] [(t.region rk).floor] .plain :: (s.reclaims t rk ++ past).map (store true)
  | _ => []

/-- The events of a granule of CPYV: its source bytes are loaded, then version `v` of granule `g` is created, which is a release of those
loads at .DV (R262), and what that reclaims is stored to. -/
def State.versionGranule (s t : State) (post : Post) (pos id grain : Nat) (src : List Span) (rk g v : Nat) (bs : List Byte) : List Event :=
  let e (loc put : Nat) (r : Role) : Event := { Event.one post pos .ce .store .rlx loc [] [put] with command := some id, grain := grain, role := r }
  s.granuleEvents t post pos .ce id grain false src [] ++
    e (verLoc g v) (verValue bs) .create :: (s.reclaims t rk).map fun p => e (verLoc p.1 p.2) 0 (.reclaim false)

/-! ## Fences, meetings, moves, handbacks, fetches -/

/-- A fence: `FENCE` names LS alone, `FENCEX` two paths (R222). A gang stop with its resume stands as a `.SY.SC` fence on all six, and
`late` names the events of commands saved by it that were performed only after the resume (R231). -/
structure Fence where
  post : Post
  pos : Nat
  kind : FenceKind
  scope : Scope
  paths : List Path
  late : List Nat
  deriving DecidableEq, Repr

/-- The six paths. -/
def allPaths : List Path := [.ls, .mx, .ce, .co, .ni, .sl]

/-- The fence of a gang stop, its save, rebinding and resume (R231). -/
def Fence.stop (post : Post) (pos : Nat) (late : List Nat) : Fence := ⟨post, pos, .sc, .sy, allPaths, late⟩

/-- The fence that an instruction is. -/
def fenceOf (post : Post) (pos : Nat) : Instr → Option Fence
  | .fence sc k => some ⟨post, pos, k, sc, [.ls], []⟩
  | .fencex sc k p q => some ⟨post, pos, k, sc, [p, q], []⟩
  | _ => none

/-- What meets (Table 9-6): a gang barrier, a superstep's end, a Clave rendezvous. -/
inductive MeetKind where
  | barrier | superstep | clave
  deriving DecidableEq, Repr

/-- The paths whose events a meeting orders; a rendezvous is an .AR.IS RMW on LS (Table 9-6). -/
def MeetKind.paths : MeetKind → List Path
  | .barrier => [.ls, .mx]
  | .superstep => allPaths
  | .clave => [.ls]

/-- A generation of a barrier or a rendezvous: who arrived, who woke, each at a place of its program order. -/
structure Meeting where
  arrivals : List (Post × Nat)
  wakes : List (Post × Nat)
  kind : MeetKind
  deriving DecidableEq, Repr

/-- A migration: the threads of the context before it and those after it (R230, R354). -/
structure Move where
  sources : List Party
  targets : List Party
  deriving DecidableEq, Repr

/-- A handback: the first instruction of the handler, the command, its resume offset, and the command that was resubmitted for the
remainder (R229). -/
structure Handback where
  party : Party
  pos : Nat
  command : Nat
  offset : Nat
  remainder : Option Nat
  deriving DecidableEq, Repr

/-- A fetch of a patch slot, 8 bytes as one unit: the `PSTORE` whose contents it holds, none for those before any (R234). -/
structure PatchFetch where
  party : Party
  pos : Nat
  slot : Nat
  source : Option Nat
  got : List Nat
  deriving DecidableEq, Repr

/-- An execution (R218). `hostOrder` lists the pairs of external events that the host's own architecture orders (R233); `syncs` the
places of `IFENCE`s, trap entries and `ERET`s (R234). `rf` gives for a location and a load (by its place in `events`) the store it
reads from, none where it reads the initial value; `co` lists each location's stores in coherence order; `initial` lists the initial
values that are not 0. -/
structure Execution where
  events : List Event
  fences : List Fence
  meetings : List Meeting
  moves : List Move
  handbacks : List Handback
  fetches : List PatchFetch
  syncs : List (Party × Nat)
  hostOrder : List (Nat × Nat)
  rf : List (Nat × Nat × Option Nat)
  co : List (Nat × List Nat)
  initial : List (Nat × Nat)
  deriving DecidableEq, Repr

/-- The execution of events and fences alone. -/
def Execution.of (events : List Event) (fences : List Fence) (rf : List (Nat × Nat × Option Nat)) (co : List (Nat × List Nat)) : Execution :=
  ⟨events, fences, [], [], [], [], [], [], rf, co, []⟩

/-! ## Graphs -/

/-- An edge: its ends, and the post and scope it counts for; none where it counts in every cycle (R223). -/
structure Edge where
  src : Nat
  dst : Nat
  limit : Option (Post × Scope)
  deriving DecidableEq, Repr

/-- Edges that no edge continues fall away. -/
def peel (l : List (Nat × Nat)) : List (Nat × Nat) := l.filter fun e => l.any fun f => f.1 == e.2

/-- Peeling, often enough. -/
def peelAll : Nat → List (Nat × Nat) → List (Nat × Nat)
  | 0, l => l
  | n + 1, l => peelAll n (peel l)

/-- No cycle: every edge falls away in the end. -/
def acyclic (l : List (Nat × Nat)) : Bool := (peelAll l.length l).isEmpty

/-- All sets out of a list of posts. -/
def postSets : List Post → List (List Post)
  | [] => [[]]
  | p :: r => postSets r ++ (postSets r).map (p :: ·)

/-- Pairs of a list, the earlier first. -/
def pairsInOrder : List Nat → List (Nat × Nat)
  | [] => []
  | a :: r => r.map (a, ·) ++ pairsInOrder r

/-- The events with their places. -/
def Execution.numbered (x : Execution) : List (Nat × Event) := (countFrom 0 x.events.length).zip x.events

/-- Program order (R216). -/
def Event.before (a b : Event) : Bool :=
  a.party == b.party &&
    (decide (a.pos < b.pos) ||
      (a.pos == b.pos && a.command.isSome && a.command == b.command && a.grain == b.grain && a.loads && b.stores && decide (b.role ≠ .completion)))

/-- All pairs of events in program order that meet a condition. -/
def Execution.pairsWhere (x : Execution) (c : Event → Event → Bool) : List (Nat × Nat) :=
  x.numbered.flatMap fun a => (x.numbered.filter fun b => a.2.before b.2 && c a.2 b.2).map fun b => (a.1, b.1)

/-- The coherence order of a location. -/
def Execution.coAt (x : Execution) (loc : Nat) : List Nat := ((x.co.find? fun p => p.1 == loc).map (·.2)).getD []

/-- The store that a load reads a location from. -/
def Execution.rfAt (x : Execution) (loc load : Nat) : Option Nat := (x.rf.find? fun p => p.1 == loc && p.2.1 == load).bind (·.2.2)

/-- Stores after a given one; all of them after the initial value. -/
def Execution.coAfter (x : Execution) (loc : Nat) : Option Nat → List Nat
  | none => x.coAt loc
  | some s => ((x.coAt loc).dropWhile (· != s)).drop 1

/-- Reads-from at a location. -/
def Execution.rfEdges (x : Execution) (loc : Nat) : List (Nat × Nat) :=
  (x.rf.filter fun p => p.1 == loc).flatMap fun p => match p.2.2 with | some s => [(s, p.2.1)] | none => []

/-- Coherence order at a location. -/
def Execution.coEdges (x : Execution) (loc : Nat) : List (Nat × Nat) := pairsInOrder (x.coAt loc)

/-- From-read at a location; an RMW does not stand before its own store. -/
def Execution.frEdges (x : Execution) (loc : Nat) : List (Nat × Nat) :=
  (x.rf.filter fun p => p.1 == loc).flatMap fun p => ((x.coAfter loc p.2.2).filter (· != p.2.1)).map fun s => (p.2.1, s)

/-- rf, co and fr at a location. -/
def Execution.comm (x : Execution) (loc : Nat) : List (Nat × Nat) := x.rfEdges loc ++ x.coEdges loc ++ x.frEdges loc

/-- The locations. -/
def Execution.locations (x : Execution) : List Nat := (x.events.flatMap fun e => countFrom e.loc e.len).eraseDups

/-- The parties. -/
def Execution.parties (x : Execution) : List Party := (x.events.map (·.party)).eraseDups

/-- The parties where they stand. -/
def Execution.posts (x : Execution) : List Post := (x.events.map (·.post)).eraseDups

/-- The role of an event, by its place. -/
def Execution.roleOf (x : Execution) (n : Nat) : Role := ((x.events[n]?).map (·.role)).getD .plain

/-- A load reads a completion word's write; `command` asks for one command's. -/
def Execution.seesCompletion (x : Execution) (l : Nat) (command : Option Nat) : Bool :=
  x.rf.any fun p => p.2.1 == l &&
    (match p.2.2 with
    | some s => (match x.events[s]? with | some e => decide (e.role = .completion) && (command.isNone || e.command == command) | none => false)
    | none => false)

/-! ## Suffixes (R217, R227, R233) -/

/-- The suffix under which Table 9-3 takes an event: its own; a notify read is .ACQ.SY and a completion record's store .REL.SY (R233); a
completion write releases its command's payload and nothing else (R227). -/
def Event.suffix (e : Event) : Os :=
  match e.role with
  | .notify => .acq .sy
  | .record => .rel .sy
  | .completion => .rlx
  | _ => e.os

/-- Scope of a release (.REL, .AR), if it is one. -/
def releaseScope : Os → Option Scope
  | .rel c | .ar c => some c
  | .rlx | .acq _ => none

/-- Scope of an acquire (.ACQ, .AR), if it is one. -/
def acquireScope : Os → Option Scope
  | .acq c | .ar c => some c
  | .rlx | .rel _ => none

/-! ## Coherence and atomicity (R219, R220, R225) -/

/-- A handback guarantees the bytes of an event: it lies in the command's payload below the resume offset (R229). -/
def Handback.covers (h : Handback) (e : Event) : Bool := h.party == e.party && e.command == some h.command && decide (e.grain < h.offset)

/-- A fence stands between two events: the first is performed before it, the second comes after it. -/
def Fence.splits (f : Fence) (a b : Nat × Event) : Bool :=
  a.2.party == f.post.party && b.2.party == f.post.party && decide (a.2.pos < f.pos) && !f.late.contains a.1 &&
    (decide (f.pos < b.2.pos) || f.late.contains b.1) && f.paths.contains a.2.path && f.paths.contains b.2.path

/-- Two events of a thread on different paths that coherence takes as of one path: a `FENCEX` naming both paths stands between
them (R219), or what stands between is the handback that guarantees the first one's bytes (R229) or an observation of its command's
completion (R228). -/
def Execution.joined (x : Execution) (a b : Nat × Event) : Bool :=
  (x.fences.any fun f => f.splits a b) ||
  (x.handbacks.any fun h => h.covers a.2 && h.party == b.2.party && decide (h.pos ≤ b.2.pos)) ||
  (a.2.command.isSome && x.numbered.any fun l => l.2.party == a.2.party && decide (l.2.pos < b.2.pos) && l.2.loads &&
    (acquireScope l.2.suffix).isSome && x.seesCompletion l.1 a.2.command)

/-- R219: per location, thread and path. -/
def Execution.coherent (x : Execution) : Bool :=
  x.locations.all fun loc => x.parties.all fun p => allPaths.all fun path =>
    acyclic (x.comm loc ++ (x.numbered.flatMap fun a => (x.numbered.filter fun b =>
      a.2.before b.2 && a.2.party == p && a.2.at loc && b.2.at loc &&
        ((a.2.path == path && b.2.path == path) || (a.2.path != b.2.path && x.joined a b))).map fun b => (a.1, b.1)))

/-- The last of the stores before an RMW's own in coherence order. -/
def Execution.coPrior (x : Execution) (loc n : Nat) : Option Nat := ((x.coAt loc).takeWhile (· != n)).getLast?

/-- R220: an RMW reads from the store right before its own. -/
def Execution.atomicRmw (x : Execution) : Bool :=
  x.numbered.all fun e => e.2.access != .rmw || (countFrom e.2.loc e.2.len).all fun loc => x.rfAt loc e.1 == x.coPrior loc e.1

/-- A load's source at a location is a given store or one after it. -/
def Execution.sees (x : Execution) (loc load store : Nat) : Bool :=
  match x.rfAt loc load with
  | none => false
  | some s => s == store || (x.coAfter loc (some store)).contains s

/-- The bytes of one granule that two events share. -/
def Event.shared (a b : Event) : List (Nat × Nat) :=
  let both := (countFrom a.loc a.len).filter b.at
  both.flatMap fun u => (both.filter fun v => u / 64 == v / 64).map fun v => (u, v)

/-- R225: a part reads or writes its bytes at one point of coherence order: a load sees each 64-byte granule of a store wholly old or
wholly new, and two stores stand in one order at all bytes of a granule that they share. -/
def Execution.granular (x : Execution) : Bool :=
  x.numbered.all fun l => x.numbered.all fun s => !s.2.stores || l.1 == s.1 ||
    (l.2.shared s.2).all fun p =>
      (!l.2.loads || x.sees p.1 l.1 s.1 == x.sees p.2 l.1 s.1) &&
      (!l.2.stores || (x.coAfter p.1 (some l.1)).contains s.1 == (x.coAfter p.2 (some l.1)).contains s.1)

/-! ## Preserved order (Table 9-3) -/

/-- Earlier loads before later stores of the same path: Table 9-3, row 1. -/
def Execution.loadStore (x : Execution) : List (Nat × Nat) := x.pairsWhere fun a b => a.path == b.path && a.loads && b.stores

/-- Edges under a scope, created by the event that `who` picks of the two. -/
def Execution.underScope (x : Execution) (l : List (Nat × Nat)) (who : Nat × Nat → Nat) (sc : Os → Option Scope) : List Edge :=
  l.flatMap fun e => match x.events[who e]? with
    | some v => (match sc v.suffix with | some c => [⟨e.1, e.2, some (v.post, c)⟩] | none => [])
    | none => []

/-- Table 9-3. Where the later event is a release, row 2 and its scope stand for row 1 too: a release too narrow orders nothing for the
acquirer (R223; Table 9-7, WRC with a narrow release; log entry 42). -/
def Execution.preserved (x : Execution) : List Edge :=
  (x.loadStore.filter fun e => match x.events[e.2]? with | some b => (releaseScope b.suffix).isNone | none => false).map
    (fun e => ⟨e.1, e.2, none⟩) ++
  (x.pairsWhere fun a b => a.deviceOrdered && b.deviceOrdered).map (fun e => ⟨e.1, e.2, none⟩) ++
  x.underScope (x.pairsWhere fun a b => a.path == b.path) (·.2) releaseScope ++
  x.underScope (x.pairsWhere fun a b => a.path == b.path) (·.1) acquireScope

/-! ## Fences (Table 9-4), system scope (R232) -/

/-- Whether a fence of a kind orders two events by what they do (Table 9-4). -/
def fenceOrders (k : FenceKind) (a b : Event) : Bool :=
  match k with
  | .acq => a.loads || a.whole
  | .rel => b.stores || b.whole
  | .ar => (a.loads || a.whole) || (b.stores || b.whole)
  | .sc => true

/-- Pairs of events that meet a condition. -/
def Execution.allPairs (x : Execution) (c : Nat × Event → Nat × Event → Bool) : List (Nat × Nat) :=
  x.numbered.flatMap fun a => (x.numbered.filter (c a)).map fun b => (a.1, b.1)

/-- R222, R231. -/
def Execution.fenced (x : Execution) : List Edge :=
  x.fences.flatMap fun f => (x.allPairs fun a b => f.splits a b && fenceOrders f.kind a.2 b.2).map fun e => ⟨e.1, e.2, some (f.post, f.scope)⟩

/-- R232: a `FENCE`.SY of kind REL, AR or SC orders earlier LS accesses before later bridge sends and device-ordered stores. -/
def Execution.systemFenced (x : Execution) : List Edge :=
  (x.fences.filter fun f => f.scope == .sy && f.kind != .acq && f.paths == [.ls]).flatMap fun f =>
    (x.pairsWhere fun a b => a.party == f.post.party && decide (a.pos < f.pos) && decide (f.pos < b.pos) && a.path == .ls &&
        (b.toBridge || (b.deviceOrdered && b.stores))).map
      fun e => ⟨e.1, e.2, some (f.post, .sy)⟩

/-! ## Engines (R227 to R229) -/

/-- A command and the earlier ones whose remainder it is (R229). -/
def Execution.lineage (x : Execution) : Nat → Option Nat → List (Option Nat)
  | 0, c => [c]
  | n + 1, c => c :: (x.handbacks.filter fun h => h.remainder == c && h.remainder.isSome).flatMap fun h => x.lineage n (some h.command)

/-- The payload events of a completion write: those of its command, and of the handed-back ones whose remainder the command is. -/
def Execution.payload (x : Execution) (w : Event) : List (Nat × Event) :=
  x.numbered.filter fun p => p.2.party == w.party && (x.lineage x.handbacks.length w.command).contains p.2.command && decide (p.2.role ≠ .completion)

/-- R227: every payload access stands before the completion write, at .DV, or at .SY with a payload byte in host memory or on a
bridge-peer page. -/
def Execution.completions (x : Execution) : List Edge :=
  x.numbered.flatMap fun w => if w.2.role = .completion then
      (x.payload w.2).map fun p => ⟨p.1, w.1, some (w.2.post, if (x.payload w.2).any (·.2.far) then .sy else .dv)⟩
    else []

/-- R262: a granule's version is a release, at .DV, of the source bytes that were read for it. -/
def Execution.granuleReleases (x : Execution) : List Edge :=
  x.numbered.flatMap fun w => if w.2.role = .create ∧ w.2.path = .ce then
      (x.numbered.filter fun a => a.2.party == w.2.party && a.2.loads && a.2.command == w.2.command && a.2.grain == w.2.grain).map
        fun a => ⟨a.1, w.1, some (w.2.post, .dv)⟩
    else []

/-- R228: an acquire that reads a completion word stands before every later event of its thread, on every path. -/
def Execution.observed (x : Execution) : List Edge :=
  x.numbered.flatMap fun l =>
    match acquireScope l.2.suffix with
    | some c =>
      if l.2.loads && x.seesCompletion l.1 none then
        (x.numbered.filter fun b => b.2.party == l.2.party && decide (l.2.pos < b.2.pos)).map fun b => ⟨l.1, b.1, some (l.2.post, c)⟩
      else []
    | none => []

/-- R229 for other parties: what a command performed below its resume offset stands before the submitting thread's later releases, and
before what follows its later release fences, at their scope; nothing else of the thread carries it (log entry 42). The thread itself
sees it by coherence (`Execution.joined`). -/
def Execution.handedBack (x : Execution) : List Edge :=
  x.handbacks.flatMap fun h => x.numbered.flatMap fun a => if h.covers a.2 then
      (x.numbered.filter fun b => b.2.party == h.party && decide (h.pos ≤ b.2.pos) && b.2.command != some h.command).flatMap fun b =>
        (match releaseScope b.2.suffix with | some c => [⟨a.1, b.1, some (b.2.post, c)⟩] | none => []) ++
        (x.fences.filter fun f => f.post.party == h.party && decide (h.pos ≤ f.pos) && decide (f.pos < b.2.pos) && f.kind != .acq &&
          f.paths.contains b.2.path && (b.2.stores || b.2.whole || f.kind == .sc)).map fun f => ⟨a.1, b.1, some (f.post, f.scope)⟩
    else []

/-- R229: no granule of a command that was handed back is in flight when the handler begins: at or above the resume offset too, whatever
the handler loads of a granule is as it stood then, all of it old or all of it new, until another store changes it. -/
def Execution.settled (x : Execution) : Bool :=
  x.handbacks.all fun h =>
    let reads := x.numbered.filter fun l => l.2.party == h.party && decide (h.pos ≤ l.2.pos) && l.2.loads && l.2.command != some h.command
    (x.numbered.filter fun e => e.2.party == h.party && e.2.command == some h.command && e.2.stores && decide (e.2.role ≠ .completion)).all fun e =>
      reads.all fun a => reads.all fun b => (countFrom e.2.loc e.2.len).all fun u => !a.2.at u ||
        (countFrom e.2.loc e.2.len).all fun v => !(b.2.at v && u / 64 == v / 64) || x.sees u a.1 e.1 == x.sees v b.1 e.1

/-! ## Meetings, moves (R230) -/

/-- R230: from what each arriving thread did before to what each waking thread does after, at .IS. -/
def Execution.meetingEdges (x : Execution) : List Edge :=
  x.meetings.flatMap fun m => m.arrivals.flatMap fun p => m.wakes.flatMap fun q =>
    (x.allPairs fun a b => a.2.party == p.1.party && decide (a.2.pos < p.2) && m.kind.paths.contains a.2.path &&
      b.2.party == q.1.party && decide (q.2 < b.2.pos) && m.kind.paths.contains b.2.path).map fun e => ⟨e.1, e.2, some (p.1, .is)⟩

/-- R230, R354: every event of a context before its migration stands before every event after it, on every path. -/
def Execution.moved (x : Execution) : List Edge :=
  x.moves.flatMap fun m =>
    (x.allPairs fun a b => m.sources.contains a.2.party && m.targets.contains b.2.party).map fun e => ⟨e.1, e.2, none⟩

/-- All edges but the external ones. -/
def Execution.ordered (x : Execution) : List Edge :=
  x.preserved ++ x.fenced ++ x.systemFenced ++ x.completions ++ x.granuleReleases ++ x.observed ++ x.handedBack ++ x.meetingEdges ++ x.moved ++
    x.hostOrder.map fun e => ⟨e.1, e.2, none⟩

/-! ## Versions (R258, R259) -/

/-- Between two creations of a location comes a reclamation by a VERDROP: `open_` says that one has been made in this life. -/
def Execution.createdOnce (x : Execution) : Bool → List Nat → Bool
  | _, [] => true
  | open_, n :: r =>
    match x.roleOf n with
    | .create => !open_ && x.createdOnce true r
    | .reclaim true => x.createdOnce false r
    | _ => x.createdOnce open_ r

/-- R259: at most one creation of a version in a life of its region, no other store but reclamations beside it; a returned version comes
from its creation, never from the initial value; a load that finds its version missing reads a reclamation, or, where none was made, it
reads a floor above its version. -/
def Execution.versioned (x : Execution) : Bool :=
  (x.locations.all fun loc => x.createdOnce false (x.coAt loc) &&
    (!((x.coAt loc).any fun n => x.roleOf n == .create) || (x.coAt loc).all fun n =>
      match x.roleOf n with | .create | .reclaim _ => true | _ => false)) &&
  x.numbered.all fun l =>
    match l.2.role, x.rfAt l.2.loc l.1 with
    | .fetchVersion, some s => x.roleOf s == .create
    | .fetchVersion, none => false
    | .missing, some s => (match x.roleOf s with | .reclaim _ => true | _ => false)
    | .missing, none => x.events.any fun e => e.party == l.2.party && e.pos == l.2.pos && e.loads && decide (floorLoc 0 ≤ e.loc) &&
        decide (l.2.loc % 2 ^ 64 < e.got.getD 0 0)
    | _, _ => true

/-! ## Fetch of patch slots (R234) -/

/-- Contents `b` of a slot are those of `a` or newer. -/
def Execution.notOlder (x : Execution) (slot : Nat) (a b : Option Nat) : Bool :=
  a.isNone || a == b || (match b with | some n => (x.coAfter slot a).contains n | none => false)

/-- A load reads from a store of a party after a place of its program order. -/
def Execution.readsAfter (x : Execution) (l : Nat × Event) (p : Party × Nat) : Bool :=
  l.2.loads && (countFrom l.2.loc l.2.len).any fun loc => match (x.rfAt loc l.1).bind fun s => x.events[s]? with
    | some w => w.party == p.1 && decide (p.2 < w.pos)
    | none => false

/-- Places of other parties' program orders that come after a place: an acquire that reads a store made after it, an acquire fence behind a
load that does, a wake of a meeting with an arrival after it, a context that a migration moved. -/
def Execution.follows (x : Execution) (p : Party × Nat) : List (Party × Nat) :=
  let readers := x.numbered.filter fun l => x.readsAfter l p
  (readers.filter fun l => (acquireScope l.2.suffix).isSome).map (fun l => (l.2.party, l.2.pos)) ++
  readers.flatMap (fun l => (x.fences.filter fun f => f.kind != .rel && f.post.party == l.2.party && decide (l.2.pos < f.pos) &&
      f.paths.contains l.2.path).map fun f => (f.post.party, f.pos)) ++
  (x.meetings.filter fun m => m.arrivals.any fun a => a.1.party == p.1 && decide (p.2 < a.2)).flatMap (fun m => m.wakes.map fun q => (q.1.party, q.2)) ++
  (x.moves.filter fun m => m.sources.contains p.1).flatMap fun m => m.targets.map fun q => (q, 0)

/-- All places that come after some places, in a number of rounds. -/
def Execution.closure (x : Execution) : Nat → List (Party × Nat) → List (Party × Nat)
  | 0, l => l
  | n + 1, l => x.closure n (l ++ l.flatMap x.follows).eraseDups

/-- A fence completes before an event of a thread: the event comes after it in the thread's own program order, or an acquire of the thread
before the event reads a store made after it (R234), by way of other threads too. -/
def Execution.completesBefore (x : Execution) (f : Fence) (p : Party) (pos : Nat) : Bool :=
  (x.closure (x.events.length + x.meetings.length + x.moves.length) [(f.post.party, f.pos)]).any fun (q : Party × Nat) =>
    q.1 == p && decide (q.2 < pos)

/-- R234: a fetch holds what its source put, whole; a thread's fetches of a slot never go back; after an IFENCE, trap entry or ERET that
follows the completion of a FENCE.SY.REL behind a PSTORE, they hold its contents or newer. -/
def Execution.fetched (x : Execution) : Bool :=
  x.fetches.all fun b =>
    (match b.source with
    | some n => (match x.events[n]? with | some w => w.stores && w.loc == b.slot && w.put == b.got | none => false)
    | none => b.got == (countFrom b.slot 8).map fun a => ((x.initial.find? fun p => p.1 == a).map (·.2)).getD 0) &&
    (x.fetches.all fun a => !(a.party == b.party && a.slot == b.slot && decide (a.pos < b.pos)) || x.notOlder b.slot a.source b.source) &&
    x.syncs.all fun e => !(e.1 == b.party && decide (e.2 < b.pos)) ||
      (x.fences.filter fun f => f.scope == .sy && f.kind != .acq && f.paths.contains .ls && x.completesBefore f e.1 e.2).all fun f =>
        x.numbered.all fun w => !(w.2.party == f.post.party && w.2.stores && w.2.loc == b.slot && decide (w.2.pos < f.pos)) ||
          x.notOlder b.slot (some w.1) b.source

/-! ## What is allowed (R218, R223, R224) -/

/-- rf, co and fr between different parties. -/
def Execution.external (x : Execution) : List (Nat × Nat) :=
  (x.locations.flatMap x.comm).filter fun e => match x.events[e.1]?, x.events[e.2]? with
    | some a, some b => a.party != b.party
    | _, _ => false

/-- The edges that count in a cycle whose parties, where they stand, are all in a set (R223). -/
def Execution.counted (x : Execution) (ps : List Post) : List (Nat × Nat) :=
  let inside (n : Nat) : Bool := (x.events[n]?.map fun e => ps.contains e.post).getD false
  ((x.ordered.filter fun e => match e.limit with | none => true | some l => ps.all (inScope l.1 l.2)).map (fun e => (e.src, e.dst)) ++ x.external).filter
    fun e => inside e.1 && inside e.2

/-- R224: no cycle of counted edges, whichever parties it runs through; and none of loads before stores alone, so that no value depends
on itself (R221). -/
def Execution.causal (x : Execution) : Bool :=
  (postSets x.posts).all (fun ps => acyclic (x.counted ps)) && acyclic (x.loadStore ++ x.external)

/-- The byte an event writes at a location. -/
def Event.putAt (e : Event) (loc : Nat) : Option Nat := if e.stores && e.at loc then e.put[loc - e.loc]? else none

/-- What a load returns of the value that it reads: a probe only whether there is a version. -/
def Event.reported (e : Event) (v : Nat) : Nat := if e.role = .probe then min v 1 else v

/-- The value that a load finds at a location: of the store it reads from, which is not its own, or the initial one. -/
def Execution.found (x : Execution) (loc load : Nat) : Option Nat :=
  match x.rfAt loc load with
  | none => some (((x.initial.find? fun p => p.1 == loc).map (·.2)).getD 0)
  | some s => x.events[s]?.bind fun w => if s == load then none else Event.putAt w loc

/-- R218: each load reads each of its bytes from one store to it or the initial value, and returns that; each location's stores are all in its order, once. -/
def Execution.wellFormed (x : Execution) : Bool :=
  (x.numbered.all fun e => !e.2.loads || (countFrom e.2.loc e.2.len).all fun loc =>
    (x.rf.filter fun p => p.1 == loc && p.2.1 == e.1).length == 1 &&
    e.2.got[loc - e.2.loc]? == (x.found loc e.1).map e.2.reported) &&
  (x.locations.all fun loc =>
    (x.coAt loc).eraseDups == x.coAt loc &&
    (x.numbered.all fun e => (e.2.stores && e.2.at loc) == (x.coAt loc).contains e.1)) &&
  x.co.all fun p => p.2.all fun n => decide (n < x.events.length)

/-- R218: the rules admit this execution. -/
def Execution.allowed (x : Execution) : Bool :=
  x.wellFormed && x.coherent && x.atomicRmw && x.causal && x.granular && x.versioned && x.settled && x.fetched

end Sys2Proof.Machine
end

