-- ==== Sys2Proof/Tests/Slice0.lean ====
section
/-!
SUPPORT. Tests: a decoding for every constructor whose word was put together from the encoding tables of spec/02 and its
groups' rules, an ill-formed term for every check of WellFormed, a witness for every statement that has hypotheses, the
worked examples of spec/, and the litmus tables of spec/09 and spec/10. Nothing is run for more than a step.
-/
open Sys2Proof Sys2Proof.Machine Sys2Proof.Claims
set_option maxRecDepth 100000
namespace Sys2Proof.Tests

/-! ## Decoding -/

/-- Every word of the list, with the words after it, decodes to the instruction beside it. -/
noncomputable def reads (l : List (Nat × Nat × Nat × Instr)) : Bool := l.all fun r => decide (decode r.1 r.2.1 r.2.2.1 = .instr r.2.2.2)

theorem test_decode_add_to_rol : reads
  [(0x00316A04, 0x0, 0x0, .add 10 11 12),
   (0x00B16A04, 0x0, 0x0, .sub 10 11 12),
   (0x01316A04, 0x0, 0x0, .and 10 11 12),
   (0x01B16A04, 0x0, 0x0, .or 10 11 12),
   (0x02316A04, 0x0, 0x0, .xor 10 11 12),
   (0x02B16A04, 0x0, 0x0, .andn 10 11 12),
   (0x03316A04, 0x0, 0x0, .orn 10 11 12),
   (0x03B16A04, 0x0, 0x0, .xnor 10 11 12),
   (0x04316A04, 0x0, 0x0, .sll 10 11 12),
   (0x04B16A04, 0x0, 0x0, .srl 10 11 12),
   (0x05316A04, 0x0, 0x0, .sra 10 11 12),
   (0x05B16A04, 0x0, 0x0, .rol 10 11 12)] = true := by decide

theorem test_decode_ror_to_andLit : reads
  [(0x06316A04, 0x0, 0x0, .ror 10 11 12),
   (0x06B16A04, 0x0, 0x0, .slt 10 11 12),
   (0x07316A04, 0x0, 0x0, .sltu 10 11 12),
   (0x07B16A04, 0x0, 0x0, .min 10 11 12),
   (0x08316A04, 0x0, 0x0, .max 10 11 12),
   (0x08B16A04, 0x0, 0x0, .minu 10 11 12),
   (0x09316A04, 0x0, 0x0, .maxu 10 11 12),
   (0x09B16A04, 0x0, 0x0, .addw 10 11 12),
   (0x0A316A04, 0x0, 0x0, .subw 10 11 12),
   (0x00016A05, 0x123456789ABCDEF0, 0x0, .addLit 10 11 0x123456789ABCDEF0),
   (0x00816A05, 0x123456789ABCDEF0, 0x0, .subLit 10 11 0x123456789ABCDEF0),
   (0x01016A05, 0x123456789ABCDEF0, 0x0, .andLit 10 11 0x123456789ABCDEF0)] = true := by decide

theorem test_decode_orLit_to_sltuLit : reads
  [(0x01816A05, 0x123456789ABCDEF0, 0x0, .orLit 10 11 0x123456789ABCDEF0),
   (0x02016A05, 0x123456789ABCDEF0, 0x0, .xorLit 10 11 0x123456789ABCDEF0),
   (0x02816A05, 0x123456789ABCDEF0, 0x0, .andnLit 10 11 0x123456789ABCDEF0),
   (0x03016A05, 0x123456789ABCDEF0, 0x0, .ornLit 10 11 0x123456789ABCDEF0),
   (0x03816A05, 0x123456789ABCDEF0, 0x0, .xnorLit 10 11 0x123456789ABCDEF0),
   (0x04016A05, 0x123456789ABCDEF0, 0x0, .sllLit 10 11 0x123456789ABCDEF0),
   (0x04816A05, 0x123456789ABCDEF0, 0x0, .srlLit 10 11 0x123456789ABCDEF0),
   (0x05016A05, 0x123456789ABCDEF0, 0x0, .sraLit 10 11 0x123456789ABCDEF0),
   (0x05816A05, 0x123456789ABCDEF0, 0x0, .rolLit 10 11 0x123456789ABCDEF0),
   (0x06016A05, 0x123456789ABCDEF0, 0x0, .rorLit 10 11 0x123456789ABCDEF0),
   (0x06816A05, 0x123456789ABCDEF0, 0x0, .sltLit 10 11 0x123456789ABCDEF0),
   (0x07016A05, 0x123456789ABCDEF0, 0x0, .sltuLit 10 11 0x123456789ABCDEF0)] = true := by decide

theorem test_decode_minLit_to_subwLit : reads
  [(0x07816A05, 0x123456789ABCDEF0, 0x0, .minLit 10 11 0x123456789ABCDEF0),
   (0x08016A05, 0x123456789ABCDEF0, 0x0, .maxLit 10 11 0x123456789ABCDEF0),
   (0x08816A05, 0x123456789ABCDEF0, 0x0, .minuLit 10 11 0x123456789ABCDEF0),
   (0x09016A05, 0x123456789ABCDEF0, 0x0, .maxuLit 10 11 0x123456789ABCDEF0),
   (0x09816A05, 0x123456789ABCDEF0, 0x0, .addwLit 10 11 0x123456789ABCDEF0),
   (0x0A016A05, 0x123456789ABCDEF0, 0x0, .subwLit 10 11 0x123456789ABCDEF0)] = true := by decide

theorem test_decode_addi_to_andiLit : reads
  [(0x0FF56A08, 0x0, 0x0, .addi 10 11 (-3)),
   (0x1FF56A08, 0x0, 0x0, .andi 10 11 (-3)),
   (0x2FF56A08, 0x0, 0x0, .ori 10 11 (-3)),
   (0x3FF56A08, 0x0, 0x0, .xori 10 11 (-3)),
   (0x40956A08, 0x0, 0x0, .slli 10 11 37),
   (0x50956A08, 0x0, 0x0, .srli 10 11 37),
   (0x60956A08, 0x0, 0x0, .srai 10 11 37),
   (0x7FF56A08, 0x0, 0x0, .slti 10 11 (-3)),
   (0x8FF56A08, 0x0, 0x0, .sltiu 10 11 (-3)),
   (0x9FF56A08, 0x0, 0x0, .addwi 10 11 (-3)),
   (0x00016A09, 0x123456789ABCDEF0, 0x0, .addiLit 10 11 0x123456789ABCDEF0),
   (0x10016A09, 0x123456789ABCDEF0, 0x0, .andiLit 10 11 0x123456789ABCDEF0)] = true := by decide

theorem test_decode_oriLit_to_addwiLit : reads
  [(0x20016A09, 0x123456789ABCDEF0, 0x0, .oriLit 10 11 0x123456789ABCDEF0),
   (0x30016A09, 0x123456789ABCDEF0, 0x0, .xoriLit 10 11 0x123456789ABCDEF0),
   (0x70016A09, 0x123456789ABCDEF0, 0x0, .sltiLit 10 11 0x123456789ABCDEF0),
   (0x80016A09, 0x123456789ABCDEF0, 0x0, .sltiuLit 10 11 0x123456789ABCDEF0),
   (0x90016A09, 0x123456789ABCDEF0, 0x0, .addwiLit 10 11 0x123456789ABCDEF0)] = true := by decide

theorem test_decode_ldk_to_addk : reads
  [(0x03DC0A0C, 0x0, 0x0, .ldk 10 247),
   (0x07DD6A0C, 0x0, 0x0, .addk 10 11 247)] = true := by decide

theorem test_decode_mul_to_remu : reads
  [(0x00316A10, 0x0, 0x0, .mul 10 11 12),
   (0x00B16A10, 0x0, 0x0, .mulh 10 11 12),
   (0x01316A10, 0x0, 0x0, .mulhu 10 11 12),
   (0x01B16A10, 0x0, 0x0, .mulhmx 10 11 12),
   (0x02316A10, 0x0, 0x0, .div 10 11 12),
   (0x02B16A10, 0x0, 0x0, .divu 10 11 12),
   (0x03316A10, 0x0, 0x0, .rem 10 11 12),
   (0x03B16A10, 0x0, 0x0, .remu 10 11 12)] = true := by decide

theorem test_decode_clz_to_bextLit : reads
  [(0x00016A14, 0x0, 0x0, .clz 10 11),
   (0x00816A14, 0x0, 0x0, .ctz 10 11),
   (0x01016A14, 0x0, 0x0, .popc 10 11),
   (0x01816A14, 0x0, 0x0, .brev 10 11),
   (0x02016A14, 0x0, 0x0, .bswap 10 11),
   (0x02816A14, 0x0, 0x0, .sextb 10 11),
   (0x03016A14, 0x0, 0x0, .sexth 10 11),
   (0x03816A14, 0x0, 0x0, .zexth 10 11),
   (0x04016A14, 0x0, 0x0, .zextw 10 11),
   (0x04B16A14, 0x0, 0x0, .bext 10 11 12),
   (0x05316A14, 0x0, 0x0, .bdep 10 11 12),
   (0x04816A15, 0x123456789ABCDEF0, 0x0, .bextLit 10 11 0x123456789ABCDEF0)] = true := by decide

theorem test_decode_bdepLit : reads
  [(0x05016A15, 0x123456789ABCDEF0, 0x0, .bdepLit 10 11 0x123456789ABCDEF0)] = true := by decide

theorem test_decode_li_to_pcaddLit : reads
  [(0x0FF40A18, 0x0, 0x0, .li 10 (-3)),
   (0x00000A19, 0x123456789ABCDEF0, 0x0, .liLit 10 0x123456789ABCDEF0),
   (0x1FF40A18, 0x0, 0x0, .pcadd 10 (-3)),
   (0x10000A19, 0x123456789ABCDEF0, 0x0, .pcaddLit 10 0x123456789ABCDEF0)] = true := by decide

theorem test_decode_sel_to_sneLit : reads
  [(0x00316A1C, 0x0, 0x0, .sel 10 11 12),
   (0x00B16A1C, 0x0, 0x0, .seq 10 11 12),
   (0x01316A1C, 0x0, 0x0, .sne 10 11 12),
   (0x00816A1D, 0x123456789ABCDEF0, 0x0, .seqLit 10 11 0x123456789ABCDEF0),
   (0x01016A1D, 0x123456789ABCDEF0, 0x0, .sneLit 10 11 0x123456789ABCDEF0)] = true := by decide

theorem test_decode_beq_to_bgeuExt : reads
  [(0xFF816A20, 0x0, 0x0, .beq 10 11 (-4)),
   (0xFF856A20, 0x0, 0x0, .bne 10 11 (-4)),
   (0xFF896A20, 0x0, 0x0, .blt 10 11 (-4)),
   (0xFF8D6A20, 0x0, 0x0, .bge 10 11 (-4)),
   (0xFF916A20, 0x0, 0x0, .bltu 10 11 (-4)),
   (0xFF956A20, 0x0, 0x0, .bgeu 10 11 (-4)),
   (0x00016A22, 0x7FFFFFFFF000, 0x0, .beqExt 10 11 (-4096)),
   (0x00056A22, 0x7FFFFFFFF000, 0x0, .bneExt 10 11 (-4096)),
   (0x00096A22, 0x7FFFFFFFF000, 0x0, .bltExt 10 11 (-4096)),
   (0x000D6A22, 0x7FFFFFFFF000, 0x0, .bgeExt 10 11 (-4096)),
   (0x00116A22, 0x7FFFFFFFF000, 0x0, .bltuExt 10 11 (-4096)),
   (0x00156A22, 0x7FFFFFFFF000, 0x0, .bgeuExt 10 11 (-4096))] = true := by decide

theorem test_decode_jal_to_jalExt : reads
  [(0xFFFF6A24, 0x0, 0x0, .jal 10 (-5)),
   (0x00000A26, 0x7FFFFFFFF000, 0x0, .jalExt 10 (-4096))] = true := by decide

theorem test_decode_jalr : reads
  [(0x0FF56A28, 0x0, 0x0, .jalr 10 11 (-3))] = true := by decide

theorem test_decode_lb_to_lwLit : reads
  [(0x40796A30, 0x0, 0x0, .lb 10 11 (-2) (.acq .dv)),
   (0x41796A30, 0x0, 0x0, .lbu 10 11 (-2) (.acq .dv)),
   (0x42796A30, 0x0, 0x0, .lh 10 11 (-2) (.acq .dv)),
   (0x43796A30, 0x0, 0x0, .lhu 10 11 (-2) (.acq .dv)),
   (0x44796A30, 0x0, 0x0, .lw 10 11 (-2) (.acq .dv)),
   (0x45796A30, 0x0, 0x0, .lwu 10 11 (-2) (.acq .dv)),
   (0x46796A30, 0x0, 0x0, .ld 10 11 (-2) (.acq .dv)),
   (0x40016A31, 0x123456789ABCDEF0, 0x0, .lbLit 10 11 0x123456789ABCDEF0 (.acq .dv)),
   (0x41016A31, 0x123456789ABCDEF0, 0x0, .lbuLit 10 11 0x123456789ABCDEF0 (.acq .dv)),
   (0x42016A31, 0x123456789ABCDEF0, 0x0, .lhLit 10 11 0x123456789ABCDEF0 (.acq .dv)),
   (0x43016A31, 0x123456789ABCDEF0, 0x0, .lhuLit 10 11 0x123456789ABCDEF0 (.acq .dv)),
   (0x44016A31, 0x123456789ABCDEF0, 0x0, .lwLit 10 11 0x123456789ABCDEF0 (.acq .dv))] = true := by decide

theorem test_decode_lwuLit_to_ldExt : reads
  [(0x45016A31, 0x123456789ABCDEF0, 0x0, .lwuLit 10 11 0x123456789ABCDEF0 (.acq .dv)),
   (0x46016A31, 0x123456789ABCDEF0, 0x0, .ldLit 10 11 0x123456789ABCDEF0 (.acq .dv)),
   (0x40016A32, 0x7FFFFFFFF000, 0x0, .lbExt 10 11 (-4096) (.acq .dv)),
   (0x41016A32, 0x7FFFFFFFF000, 0x0, .lbuExt 10 11 (-4096) (.acq .dv)),
   (0x42016A32, 0x7FFFFFFFF000, 0x0, .lhExt 10 11 (-4096) (.acq .dv)),
   (0x43016A32, 0x7FFFFFFFF000, 0x0, .lhuExt 10 11 (-4096) (.acq .dv)),
   (0x44016A32, 0x7FFFFFFFF000, 0x0, .lwExt 10 11 (-4096) (.acq .dv)),
   (0x45016A32, 0x7FFFFFFFF000, 0x0, .lwuExt 10 11 (-4096) (.acq .dv)),
   (0x46016A32, 0x7FFFFFFFF000, 0x0, .ldExt 10 11 (-4096) (.acq .dv))] = true := by decide

theorem test_decode_sb_to_shExt : reads
  [(0x80F96A34, 0x0, 0x0, .sb 10 11 (-2) (.rel .dv)),
   (0x82F96A34, 0x0, 0x0, .sh 10 11 (-2) (.rel .dv)),
   (0x84F96A34, 0x0, 0x0, .sw 10 11 (-2) (.rel .dv)),
   (0x86F96A34, 0x0, 0x0, .sd 10 11 (-2) (.rel .dv)),
   (0x07796A34, 0x0, 0x0, .pstore 10 11 (-2)),
   (0x80816A35, 0x123456789ABCDEF0, 0x0, .sbLit 10 11 0x123456789ABCDEF0 (.rel .dv)),
   (0x82816A35, 0x123456789ABCDEF0, 0x0, .shLit 10 11 0x123456789ABCDEF0 (.rel .dv)),
   (0x84816A35, 0x123456789ABCDEF0, 0x0, .swLit 10 11 0x123456789ABCDEF0 (.rel .dv)),
   (0x86816A35, 0x123456789ABCDEF0, 0x0, .sdLit 10 11 0x123456789ABCDEF0 (.rel .dv)),
   (0x07016A35, 0x123456789ABCDEF0, 0x0, .pstoreLit 10 11 0x123456789ABCDEF0),
   (0x80816A36, 0x7FFFFFFFF000, 0x0, .sbExt 10 11 (-4096) (.rel .dv)),
   (0x82816A36, 0x7FFFFFFFF000, 0x0, .shExt 10 11 (-4096) (.rel .dv))] = true := by decide

theorem test_decode_swExt_to_pstoreExt : reads
  [(0x84816A36, 0x7FFFFFFFF000, 0x0, .swExt 10 11 (-4096) (.rel .dv)),
   (0x86816A36, 0x7FFFFFFFF000, 0x0, .sdExt 10 11 (-4096) (.rel .dv)),
   (0x07016A36, 0x7FFFFFFFF000, 0x0, .pstoreExt 10 11 (-4096))] = true := by decide

theorem test_decode_amoadd_to_abump : reads
  [(0xE1316A38, 0x0, 0x0, .amoadd 10 11 12 true (.ar .dv)),
   (0xE3316A38, 0x0, 0x0, .amoand 10 11 12 true (.ar .dv)),
   (0xE5316A38, 0x0, 0x0, .amoor 10 11 12 true (.ar .dv)),
   (0xE7316A38, 0x0, 0x0, .amoxor 10 11 12 true (.ar .dv)),
   (0xE9316A38, 0x0, 0x0, .amomin 10 11 12 true (.ar .dv)),
   (0xEB316A38, 0x0, 0x0, .amomax 10 11 12 true (.ar .dv)),
   (0xED316A38, 0x0, 0x0, .amominu 10 11 12 true (.ar .dv)),
   (0xEF316A38, 0x0, 0x0, .amomaxu 10 11 12 true (.ar .dv)),
   (0xF1316A38, 0x0, 0x0, .amoswap 10 11 12 true (.ar .dv)),
   (0xF3316A38, 0x0, 0x0, .amocas 10 11 12 true (.ar .dv)),
   (0xF5316A38, 0x0, 0x0, .amofadd 10 11 12 true (.ar .dv)),
   (0xF7316A38, 0x0, 0x0, .abump 10 11 12 (.ar .dv))] = true := by decide

theorem test_decode_fence_to_ifence : reads
  [(0x0000123C, 0x0, 0x0, .fence .dv .ar),
   (0x0084123C, 0x0, 0x0, .fencex .dv .ar .ls .mx),
   (0x0100003C, 0x0, 0x0, .ifence)] = true := by decide

theorem test_decode_fadd_to_fsgnj : reads
  [(0x80B16A40, 0x0, 0x0, .fadd .s .rtz 10 11 12),
   (0x82B16A40, 0x0, 0x0, .fsub .s .rtz 10 11 12),
   (0x84B16A40, 0x0, 0x0, .fmul .s .rtz 10 11 12),
   (0x86B16A40, 0x0, 0x0, .fdiv .s .rtz 10 11 12),
   (0x88816A40, 0x0, 0x0, .fsqrt .s .rtz 10 11),
   (0x0AB16A40, 0x0, 0x0, .fmin .s 10 11 12),
   (0x0CB16A40, 0x0, 0x0, .fmax .s 10 11 12),
   (0x0EB16A40, 0x0, 0x0, .feq .s 10 11 12),
   (0x10B16A40, 0x0, 0x0, .flt .s 10 11 12),
   (0x12B16A40, 0x0, 0x0, .fle .s 10 11 12),
   (0x14816A40, 0x0, 0x0, .fclass .s 10 11),
   (0x16B16A40, 0x0, 0x0, .fsgnj .s 10 11 12)] = true := by decide

theorem test_decode_fabs : reads
  [(0x18816A40, 0x0, 0x0, .fabs .s 10 11)] = true := by decide

theorem test_decode_fmac_to_fmscExt : reads
  [(0x80B16A44, 0x0, 0x0, .fmac .s .rtz 10 11 12),
   (0x82B16A44, 0x0, 0x0, .fmsc .s .rtz 10 11 12),
   (0x80B16A46, 0xD, 0x0, .fmacExt .s .rtz 10 11 12 13),
   (0x82B16A46, 0xD, 0x0, .fmscExt .s .rtz 10 11 12 13)] = true := by decide

theorem test_decode_fcvt : reads
  [(0x98816A48, 0x0, 0x0, .fcvt .s .l .rtz 10 11)] = true := by decide

theorem test_decode_vadd_to_vxor : reads
  [(0x00DCA950, 0x0, 0x0, .vadd .i16 9 10 12 5),
   (0x04DCA950, 0x0, 0x0, .vsub .i16 9 10 12 5),
   (0x08DCA950, 0x0, 0x0, .vmul .i16 9 10 12 5),
   (0x0CDCA950, 0x0, 0x0, .vmulh .i16 9 10 12 5),
   (0x10DCA950, 0x0, 0x0, .vadds .i16 9 10 12 5),
   (0x14DCA950, 0x0, 0x0, .vsubs .i16 9 10 12 5),
   (0x18D0A950, 0x0, 0x0, .vabs .i16 9 10 5),
   (0x1CDCA950, 0x0, 0x0, .vmin .i16 9 10 12 5),
   (0x20DCA950, 0x0, 0x0, .vmax .i16 9 10 12 5),
   (0x24DCA950, 0x0, 0x0, .vand .i16 9 10 12 5),
   (0x28DCA950, 0x0, 0x0, .vor .i16 9 10 12 5),
   (0x2CDCA950, 0x0, 0x0, .vxor .i16 9 10 12 5)] = true := by decide

theorem test_decode_vsll_to_vsra : reads
  [(0x30DCA950, 0x0, 0x0, .vsll .i16 9 10 12 5),
   (0x34DCA950, 0x0, 0x0, .vsrl .i16 9 10 12 5),
   (0x38DCA950, 0x0, 0x0, .vsra .i16 9 10 12 5)] = true := by decide

theorem test_decode_vfadd_to_vfrsqrt : reads
  [(0x035CA954, 0x0, 0x0, .vfadd .fp32 9 10 12 5),
   (0x075CA954, 0x0, 0x0, .vfsub .fp32 9 10 12 5),
   (0x0B5CA954, 0x0, 0x0, .vfmul .fp32 9 10 12 5),
   (0x0F5CA954, 0x0, 0x0, .vfdiv .fp32 9 10 12 5),
   (0x1350A954, 0x0, 0x0, .vfsqrt .fp32 9 10 5),
   (0x175CA954, 0x0, 0x0, .vfmin .fp32 9 10 12 5),
   (0x1B5CA954, 0x0, 0x0, .vfmax .fp32 9 10 12 5),
   (0x1F50A954, 0x0, 0x0, .vfexp2 .fp32 9 10 5),
   (0x2350A954, 0x0, 0x0, .vfrcp .fp32 9 10 5),
   (0x2750A954, 0x0, 0x0, .vfrsqrt .fp32 9 10 5)] = true := by decide

theorem test_decode_vload_to_vloadbExt : reads
  [(0x14794958, 0x0, 0x0, .vload 9 10 (-2) 5),
   (0x14F94958, 0x0, 0x0, .vstore 9 10 (-2) 5),
   (0x55294958, 0x0, 0x0, .vgather .b4 9 10 10 5),
   (0x55A94958, 0x0, 0x0, .vscatter .b4 9 10 10 5),
   (0x56794958, 0x0, 0x0, .vloadb .b4 9 10 (-2) 5),
   (0x14014959, 0x123456789ABCDEF0, 0x0, .vloadLit 9 10 0x123456789ABCDEF0 5),
   (0x14814959, 0x123456789ABCDEF0, 0x0, .vstoreLit 9 10 0x123456789ABCDEF0 5),
   (0x56014959, 0x123456789ABCDEF0, 0x0, .vloadbLit .b4 9 10 0x123456789ABCDEF0 5),
   (0x1401495A, 0x7FFFFFFFF000, 0x0, .vloadExt 9 10 (-4096) 5),
   (0x1481495A, 0x7FFFFFFFF000, 0x0, .vstoreExt 9 10 (-4096) 5),
   (0x5601495A, 0x7FFFFFFFF000, 0x0, .vloadbExt .b4 9 10 (-4096) 5)] = true := by decide

theorem test_decode_vcmpEq_to_vslide : reads
  [(0x00BA955C, 0x0, 0x0, .vcmpEq .i16 5 9 10 3),
   (0x04BA955C, 0x0, 0x0, .vcmpNe .i16 5 9 10 3),
   (0x08BA955C, 0x0, 0x0, .vcmpLt .i16 5 9 10 3),
   (0x0CBA955C, 0x0, 0x0, .vcmpLe .i16 5 9 10 3),
   (0x10BA955C, 0x0, 0x0, .vcmpLtu .i16 5 9 10 3),
   (0x14BA955C, 0x0, 0x0, .vcmpLeu .i16 5 9 10 3),
   (0x18DCA95C, 0x0, 0x0, .vsel .i16 9 10 12 5),
   (0x1CD0A95C, 0x0, 0x0, .vbcast .i16 9 10 5),
   (0x208B9A5C, 0x0, 0x0, .vext .i16 10 9 11),
   (0x248BA95C, 0x0, 0x0, .vins .i16 9 10 11),
   (0x28DCA95C, 0x0, 0x0, .vperm .i16 9 10 12 5),
   (0x2CDAA95C, 0x0, 0x0, .vslide .i16 9 10 10 5)] = true := by decide

theorem test_decode_vredsum_to_vmov : reads
  [(0x30D09A5C, 0x0, 0x0, .vredsum .i16 10 9 5),
   (0x34D09A5C, 0x0, 0x0, .vredmax .i16 10 9 5),
   (0x38D09A5C, 0x0, 0x0, .vredmin .i16 10 9 5),
   (0x3CD2A95C, 0x0, 0x0, .vcvt .i16 .i32 9 10 5),
   (0x40D0A95C, 0x0, 0x0, .vmov .i16 9 10 5)] = true := by decide

theorem test_decode_mand_to_mtox : reads
  [(0x00186560, 0x0, 0x0, .mand 5 3 6),
   (0x00986560, 0x0, 0x0, .mor 5 3 6),
   (0x01186560, 0x0, 0x0, .mxor 5 3 6),
   (0x01806560, 0x0, 0x0, .mnot 5 3),
   (0x0200AA60, 0x0, 0x0, .mpop 10 5),
   (0x0280AA60, 0x0, 0x0, .mfirst 10 5),
   (0x03014560, 0x0, 0x0, .mfromx 5 10),
   (0x0380AA60, 0x0, 0x0, .mtox 10 5)] = true := by decide

theorem test_decode_vfmac_to_vdot4 : reads
  [(0x035CA964, 0x0, 0x0, .vfmac .fp32 9 10 12 5),
   (0x055CA964, 0x0, 0x0, .vdot4 9 10 12 5)] = true := by decide

theorem test_decode_tload_to_taccst : reads
  [(0x00AA0670, 0x0, 0x0, .tload 6 10 10),
   (0x02AA0670, 0x0, 0x0, .tloadt 6 10 10),
   (0x04AA0670, 0x0, 0x0, .tloads 6 10 10),
   (0x06AA0670, 0x0, 0x0, .tstore 6 10 10),
   (0x08AA0270, 0x0, 0x0, .taccld 2 10 10),
   (0x0AAA0270, 0x0, 0x0, .taccst 2 10 10)] = true := by decide

theorem test_decode_tmma_to_taccadd : reads
  [(0x00096274, 0x0, 0x0, .tmma 2 6 9),
   (0xA32D9674, 0x0, 0x0, .taccout 6 2 9 13 21),
   (0x04005274, 0x0, 0x0, .taccadd 2 5)] = true := by decide

theorem test_decode_tzero_to_tcvt : reads
  [(0x00000678, 0x0, 0x0, .tzero 6),
   (0x02000278, 0x0, 0x0, .taccz 2),
   (0x24009678, 0x0, 0x0, .txch 6 9 true),
   (0x06009678, 0x0, 0x0, .tcvt 6 9)] = true := by decide

theorem test_decode_verst_to_verdrop : reads
  [(0x80AD4980, 0x0, 0x0, .verst 9 10 11 (.rel .dv)),
   (0x412D4980, 0x0, 0x0, .verld 9 10 11 (.acq .dv)),
   (0x422D4980, 0x0, 0x0, .verldle 9 10 11 (.acq .dv)),
   (0x03316A80, 0x0, 0x0, .verprobe 10 11 12),
   (0x84B16A80, 0x0, 0x0, .verfloor 10 11 12 (.rel .dv)),
   (0x85814080, 0x0, 0x0, .verdrop 10 (.rel .dv))] = true := by decide

theorem test_decode_cpy1_to_cpyxLit : reads
  [(0x00016A86, 0x39AC, 0x0, .cpy1 10 11 12 13 14),
   (0x00816A86, 0x39AC, 0x0, .cpy2 10 11 12 13 14),
   (0x01016A86, 0x39AC, 0x0, .cpy3 10 11 12 13 14),
   (0x01BD6A86, 0x39AC, 0x0, .cpyv 10 11 12 15 13 14),
   (0x02016A86, 0x39AC, 0x0, .cpyq 10 11 12 13 14),
   (0x02816A86, 0x39AC, 0x0, .cpyx 10 11 12 13 14),
   (0x00016A87, 0x1AC, 0x7, .cpy1Lit 10 11 12 13 7),
   (0x00816A87, 0x1AC, 0x7, .cpy2Lit 10 11 12 13 7),
   (0x01016A87, 0x1AC, 0x7, .cpy3Lit 10 11 12 13 7),
   (0x01BD6A87, 0x1AC, 0x7, .cpyvLit 10 11 12 15 13 7),
   (0x02016A87, 0x1AC, 0x7, .cpyqLit 10 11 12 13 7),
   (0x02816A87, 0x1AC, 0x7, .cpyxLit 10 11 12 13 7)] = true := by decide

theorem test_decode_collred_to_collbcast : reads
  [(0x00316A8A, 0x1CDA2, 0x0, .collred .min .fp32 true 10 11 12 13 14),
   (0x00B16A8A, 0x1CDA0, 0x0, .collgath .fp32 true 10 11 12 13 14),
   (0x01316A8A, 0x1CDA0, 0x0, .collbcast .fp32 true 10 11 12 13 14)] = true := by decide

theorem test_decode_msend_to_mpoll : reads
  [(0x00256A8C, 0x0, 0x0, .msend 10 9 11),
   (0x00A40A8C, 0x0, 0x0, .mrecv 10 9),
   (0x01000A8C, 0x0, 0x0, .mpoll 10)] = true := by decide

theorem test_decode_pause_to_barq : reads
  [(0x20012390, 0x0, 0x0, .pause 0x8123),
   (0x00AD8A90, 0x0, 0x0, .waita 10 11 12),
   (0x012D8A90, 0x0, 0x0, .clave 10 11 12),
   (0x01A94990, 0x0, 0x0, .clavev 9 10 10),
   (0x02296990, 0x0, 0x0, .claveg 9 10 11),
   (0x02840090, 0x0, 0x0, .bara 1),
   (0x03240090, 0x0, 0x0, .barw 9),
   (0x23000090, 0x0, 0x0, .barwSs),
   (0x03840A90, 0x0, 0x0, .barq 10 1)] = true := by decide

theorem test_decode_slpush_to_slpeek : reads
  [(0x00240094, 0x0, 0x0, .slpush 9),
   (0x00800994, 0x0, 0x0, .slpop 9),
   (0x01000A94, 0x0, 0x0, .slfree 10),
   (0x01A40A94, 0x0, 0x0, .slpeek 10 9)] = true := by decide

theorem test_decode_strike_to_migr : reads
  [(0x00016A98, 0x0, 0x0, .strike 10 11),
   (0x0080009A, 0x1407E, 0x0, .migr 10 false 63)] = true := by decide

theorem test_decode_csrr_to_csrc : reads
  [(0x00800AC0, 0x0, 0x0, .csrr 10 0x020),
   (0x40816AC0, 0x0, 0x0, .csrw 10 0x020 11),
   (0x80816AC0, 0x0, 0x0, .csrs 10 0x020 11),
   (0xC0816AC0, 0x0, 0x0, .csrc 10 0x020 11)] = true := by decide

theorem test_decode_scall_to_yieldTurn : reads
  [(0x000000C4, 0x0, 0x0, .scall),
   (0x008000C4, 0x0, 0x0, .brk),
   (0x010000C4, 0x0, 0x0, .threadDone),
   (0x018000C4, 0x0, 0x0, .yieldTurn)] = true := by decide

theorem test_decode_eret_to_tlbinv : reads
  [(0x000000C8, 0x0, 0x0, .eret),
   (0x008000C8, 0x0, 0x0, .halt),
   (0x012D40C8, 0x0, 0x0, .tlbinv 10 11)] = true := by decide

theorem test_decode_mark : reads
  [(0x00316ACC, 0x0, 0x0, .mark 10 11 12)] = true := by decide

/-! ## WellFormed: what each check refuses -/

/-- No instruction of the list has an encoding. -/
def illFormed (l : List Instr) : Bool := l.all fun i => !i.wellFormed

/-- R112 and R114: an extended branch or jump whose displacement is not a multiple of four. -/
theorem test_ill_formed_displacement : illFormed
  [.beqExt 1 2 2, .bneExt 1 2 1, .bltExt 1 2 3, .bgeExt 1 2 2, .bltuExt 1 2 6, .bgeuExt 1 2 2, .jalExt 1 2] = true := by decide

/-- R264: a load with a release order, and a store with an acquire order. -/
theorem test_ill_formed_order : illFormed
  [.lb 1 2 0 (.rel .cl), .lwLit 1 2 0 (.ar .tm), .ldExt 1 2 0 (.rel .sy), .sb 1 2 0 (.acq .cl), .swLit 1 2 0 (.ar .dv),
   .sdExt 1 2 0 (.acq .is)] = true := by decide

/-- R253: the same of the version instructions. -/
theorem test_ill_formed_version_order : illFormed
  [.verst 1 2 3 (.acq .cl), .verld 1 2 3 (.rel .cl), .verldle 1 2 3 (.ar .cl), .verfloor 1 2 3 (.acq .cl), .verdrop 1 (.ar .cl)] = true := by
  decide

/-- R272: a fence between a path and itself. -/
theorem test_ill_formed_fencex : illFormed [.fencex .cl .ar .ls .ls, .fencex .dv .sc .sl .sl] = true := by decide

/-- R141: a conversion of a code to itself, and one between integers. -/
theorem test_ill_formed_fcvt : illFormed [.fcvt .s .s .rne 1 2, .fcvt .w .l .dyn 1 2] = true := by decide

/-- R142 to R152: a lane type outside the instruction's class. -/
theorem test_ill_formed_lane_type : illFormed
  [.vadd .fp32 1 2 3 0, .vabs .bf16 1 2 0, .vcmpLtu .fp16 1 2 3 0, .vfadd .i32 1 2 3 0, .vfmac .i8 1 2 3 0, .vfexp2 .fp16 1 2 0,
   .vcvt .i32 .i32 1 2 0] = true := by decide

/-- R275: a version register without a completion counter, and a literal without one. -/
theorem test_ill_formed_copy : illFormed [.cpy1 1 2 3 0 4, .cpyv 1 2 3 4 0 5, .cpy1Lit 1 2 3 0 7] = true := by decide

/-- R287: a bitwise collective of a float format. -/
theorem test_ill_formed_collective : illFormed [.collred .xor .fp32 false 1 2 3 4 5] = true := by decide

/-- R330, R335 and R353: PAUSE 0, a barrier of handle 0, and MIGR to no core or to more slices than there are. -/
theorem test_ill_formed_zero_operands : illFormed [.pause 0, .bara 0, .barw 0, .migr 0 false 1, .migr 5 true 8, .migr 5 false 2048] = true := by
  decide

/-- An event has no word. -/
theorem test_ill_formed_event : illFormed [.evQuadrantRaise 0, .evThreadStop 0, .evTaborModeSwitch] = true := by decide

/-! ## States to start from -/

/-- A result with which `p` holds. -/
def good {ε α : Type} (x : Except ε α) (p : α → Bool) : Bool :=
  match x with
  | .ok a => p a
  | .error _ => false

theorem good_exists {ε α : Type} {x : Except ε α} {p : α → Bool} (h : good x p = true) : ∃ a, x = .ok a ∧ p a = true := by
  cases x with
  | ok a => exact ⟨a, rfl, h⟩
  | error e => exact absurd h (by simp [good])

/-- A translation of the first 16 KiB of QIF 0 to the first 16 KiB of LPDDR6, readable, writable and executable in user mode. -/
def page0 : TlbEntry := ⟨0, 0, false, false, 0, 14, 0, 14, 0, 0, true, true, true, true, 0, false, true, 0, true⟩

/-- A thread of a task in user mode, with a handler at 0x200. -/
def user : Thread :=
  { Thread.init with
    pc := 0x100
    slot := .active
    space := ⟨0, false, 0, 0, 0⟩
    trap := { Thread.init.trap with etvecEn := true, etvecBase := 0x80 } }

/-- A RELEASED record of thread `i` of a team of `n` in a gang of one core. -/
def record (g i n : Nat) : BindRec := ⟨#[BitVec.ofNat 64 (2 + 8 * i + 64 * (n - 1)), BitVec.ofNat 64 (g + 2 ^ 43), 0, 0, 0], rfl⟩

/-- A launch record of a team of two, whose text is the first page. -/
def launch2 : LaunchRec :=
  ⟨false, false, false, 1, 2, 1, 2, 1, 1, 0, 0x4000, 0, 0, 1000000, 0, 0, 0, 0, none, [], 0, [], 0, 0, []⟩

/-- A bound task of one core with a team of two; handle 0 waits for both. -/
def task2 (c : Nat) : Task :=
  ⟨0, 0, 0, 0, false, false, 0, 0, launch2, 0, 0, .bound, false, [c], 7, [⟨0, false, 2, none⟩], 0, 0, 1, 0, 0, 0, none, 0,
    Arrivals.init 0 0, false, none, none, 0, [], [], false, false, []⟩

/-- Core 1 as the gang 1 holds it. -/
def core1 : Core := { Core.running with key := some 7, spmax := 2, tlb := [page0] }

/-- The device after reset with a gang of two threads on core 1; it is the turn of the first. -/
def start : State :=
  { State.reset with
    cur := 8
    threads := (State.reset.threads.set 8 user).set 9 { user with status := { user.status with priv := true } }
    cores := State.reset.cores.set 1 core1
    binds := (State.reset.binds.set 8 (record 1 0 2)).set 9 (record 1 1 2)
    tasks := [(1, task2 1)] }

/-- `start` with x registers of the thread whose turn it is set. -/
def withX (s : State) (l : List (XReg × Word)) : State := l.foldl (fun s p => s.setX p.1 p.2) s

/-- `start` with the handler's mode: supervisor mode. -/
def priv (s : State) : State := s.modMe fun t => { t with status := { t.status with priv := true } }

/-- The turn of the service thread on core 0. -/
def service : State :=
  { State.reset with cur := 0 }.modMe fun t => { t with trap := { t.trap with etvecEn := true, etvecBase := 0x80 } }
/-! ## Every statement's hypotheses are met -/

theorem witness_SelectRule :
    ((0x0000001D : Nat) / 4 % 64 = 7 ∧ (0x1D : Nat) % 4 = 1 ∧ (0x1D : Nat) / 2 ^ 23 % 64 = 0) ∧
    ((0x0180001C : Nat) / 4 % 64 = 7 ∧ (0x0180001C : Nat) % 4 ≤ 1 ∧ 3 ≤ (0x0180001C : Nat) / 2 ^ 23 % 64) ∧
    (∃ k, k < 64 ∧ ((withX start [(5, 0x8000000000000000)]).getX 5).getLsbD k = true) ∧
    (∀ k, k < 64 → (start.getX 5).getLsbD k = false) := by
  refine ⟨by decide, by decide, ⟨63, by decide, by decide⟩, fun k _ => ?_⟩
  have : start.getX 5 = 0 := by decide
  simp [this]

theorem witness_LiteralsConstants : badIn start.bad (winKey start.myCore (8 * (255 : BitVec 8).toNat)) 8 = none := by decide

theorem witness_BranchesJumps :
    let s := withX start [(5, 0x8000000000000000), (6, 0x7FFFFFFFFFFFFFFF)]
    s.getX 5 ≠ s.getX 6 ∧ s.getX 5 = s.getX 5 ∧ (s.getX 5).toInt < (s.getX 6).toInt ∧ ¬(s.getX 6).toInt < (s.getX 5).toInt ∧
      (s.getX 6).toNat < (s.getX 5).toNat ∧ ¬(s.getX 5).toNat < (s.getX 6).toNat := by decide

theorem witness_ExactResults :
    ratOf (.fin false 1 0 false) = some 1 ∧ ratOf (.fin true 1 0 false) = some (-1) ∧ ratOf (.fin false 0 0 false) = some 0 ∧
    ratOf (.fin true 0 0 false) = some 0 ∧ Short (.fin false 1 0 false) ∧
    ((1 : Rat) + -1 = 0 ∧ (FV.fin false 1 0 false).isNeg ≠ (FV.fin true 1 0 false).isNeg) ∧ (1 : Rat) - 1 = 0 ∧
    ((1 : Rat) + 1 * -1 = 0 ∧ false ≠ ((FV.fin false 1 0 false).isNeg != (FV.fin true 1 0 false).isNeg)) := by
  refine ⟨by norm_num [ratOf], by norm_num [ratOf], by norm_num [ratOf], by norm_num [ratOf], by norm_num [Short], ⟨by norm_num, by decide⟩,
    by norm_num, by norm_num, by decide⟩

/-- E4M3 under round-to-nearest-even: 1 is a code, 17/16 lies halfway, 512 is above 448, 2^-10 below the smallest normal. -/
theorem witness_Rounding :
    Table32 .e4m3 3 (-6) 448 0x7F ∧
    (MagOf 1 0 false 1 ∧ (2 : ℝ) ^ (0 : Int) ≤ 1 ∧ (1 : ℝ) < 2 ^ (0 + 1 : Int) ∧ ((8 : Nat) : ℝ) * 2 ^ (max (0 : Int) (-6) - 3) = 1 ∧ (1 : ℝ) ≤ 448) ∧
    (MagOf 17 (-4) false (17 / 16) ∧ ((8 : Nat) : ℝ) * 2 ^ (max (0 : Int) (-6) - 3) ≤ 17 / 16 ∧ (17 / 16 : ℝ) < (8 + 1) * 2 ^ (max (0 : Int) (-6) - 3) ∧
      ¬TakesHi .rne false (17 / 16) (1 / 8) 8 0 ∧ TakesHi .rmm false (17 / 16) (1 / 8) 8 0) ∧
    (MagOf 1 9 false 512 ∧ (2 : ℝ) ^ (9 : Int) ≤ 512 ∧ (512 : ℝ) < 2 ^ (9 + 1 : Int) ∧ ((8 : Nat) : ℝ) * 2 ^ (max (9 : Int) (-6) - 3) = 512 ∧ (448 : ℝ) < 512) ∧
    (MagOf 1 (-10) false (1 / 1024) ∧ ((0 : Nat) : ℝ) * 2 ^ (max (-10 : Int) (-6) - 3) ≠ 1 / 1024 ∧ (1 / 1024 : ℝ) < (0 + 1) * 2 ^ (max (-10 : Int) (-6) - 3) ∧
      (1 / 1024 : ℝ) < 2 ^ (-6 : Int)) ∧
    (∃ a, MagOf (2 ^ 119) (-119) true a ∧ 1 < a) := by
  refine ⟨Or.inr (Or.inr (Or.inr (Or.inr (Or.inr (Or.inl ⟨rfl, rfl, rfl, rfl, rfl⟩))))), ⟨⟨0, by norm_num, Or.inl ⟨rfl, rfl⟩⟩, by norm_num, by norm_num, by norm_num, by norm_num⟩,
    ⟨⟨0, by norm_num, Or.inl ⟨rfl, rfl⟩⟩, by norm_num, by norm_num, by norm_num [TakesHi], by norm_num [TakesHi]⟩,
    ⟨⟨0, by norm_num, Or.inl ⟨rfl, rfl⟩⟩, by norm_num, by norm_num, by norm_num, by norm_num⟩,
    ⟨⟨0, by norm_num, Or.inl ⟨rfl, rfl⟩⟩, by norm_num, by norm_num, by norm_num⟩,
    ((2 : ℝ) ^ 119 + 1 / 2) * (2 : ℝ) ^ (-119 : Int), ⟨1 / 2, by norm_num, Or.inr ⟨rfl, by norm_num, by norm_num, le_refl _⟩⟩, by norm_num⟩

theorem witness_PowersReciprocals :
    (ratOf (.fin false 1 0 false) = some 1 ∧ (1 : Rat) = (1 : Int)) ∧
    (ratOf (.fin false 1 (-1) false) = some (1 / 2) ∧ (∀ i : Int, (1 / 2 : Rat) ≠ i) ∧ |(1 / 2 : Rat)| < 4096) ∧
    (ratOf (.fin false 1 12 false) = some 4096 ∧ ratOf (.fin true 1 12 false) = some (-4096) ∧ ratOf (.fin false 0 0 false) = some 0) ∧
    Short (.fin false 1 (-1) false) := by
  refine ⟨⟨by norm_num [ratOf], by norm_num⟩, ⟨by norm_num [ratOf], fun i h => ?_, by norm_num [abs_of_pos]⟩,
    ⟨by norm_num [ratOf], by norm_num [ratOf], by norm_num [ratOf]⟩, by norm_num [Short]⟩
  have h2 : (1 : Rat) = 2 * i := by linarith
  have h3 : (1 : Int) = 2 * i := by exact_mod_cast h2
  omega

theorem witness_ScalarSelectCompare :
    let s := withX start [(5, 0x7FC00000), (6, 0x3F800000), (7, 0x80000000)]
    regF s .s 5 = .nan ∧ regF s .s 6 ≠ .nan ∧ ((regF s .s 7).isZero = true ∧ (regF s .s 7).isNeg = true) ∧
      NumEq (regF s .s 7) (regF s .s 0) ∧ NumLt (regF s .s 0) (regF s .s 6) := by
  have h7 : regF (withX start [(5, 0x7FC00000), (6, 0x3F800000), (7, 0x80000000)]) .s 7 = .fin true 0 (-149) false := by decide
  have h0 : regF (withX start [(5, 0x7FC00000), (6, 0x3F800000), (7, 0x80000000)]) .s 0 = .fin false 0 (-149) false := by decide
  have h6 : regF (withX start [(5, 0x7FC00000), (6, 0x3F800000), (7, 0x80000000)]) .s 6 = .fin false (2 ^ 23) (-23) false := by decide
  refine ⟨by decide, by decide, by decide, ?_, ?_⟩
  · rw [h7, h0]
    exact ⟨0, by norm_num [ratOf], by norm_num [ratOf]⟩
  · rw [h0, h6]
    exact ⟨0, 1, by norm_num [ratOf], by norm_num [ratOf], by norm_num⟩

theorem witness_Conversions :
    Fmt.f32.decode 0x7FC00000 = .nan ∧ ratOf (.fin true 1 64 false) = some (-2 ^ 64) ∧ ratOf (.fin false 1 64 false) = some (2 ^ 64) ∧
    (-2 ^ 64 : Rat) < (-2 ^ 63 : Int) - 1 ∧ ((2 ^ 63 - 1 : Int) : Rat) + 1 < 2 ^ 64 := by
  refine ⟨by decide, by norm_num [ratOf], by norm_num [ratOf], by norm_num, by norm_num⟩

theorem witness_VectorInteger : Ty.isInt .i8 = true ∧ Ty.isInt .i64 = true := by decide
theorem witness_VectorFloat : Ty.isInt .fp32 = false ∧ Ty.isInt .bf16 = false := by decide

theorem witness_VectorMinMaxCompare :
    let s := { start with threads := (start.setV 1 (BitVec.ofNat 512 0x7FC00000)).threads }
    LF .fp32 (s.getV 1) 0 = .nan ∧ LF .fp32 (s.getV 1) 1 ≠ .nan ∧ LF .fp32 (s.getV 2) 0 ≠ .nan ∧ Act s 0 32 15 ∧ ¬Act s 1 32 15 ∧
      Ty.i8.isInt = true ∧ Ty.fp32.isInt = false := by
  refine ⟨by decide, by decide, by decide, Or.inl rfl, fun h => ?_, by decide, by decide⟩
  rcases h with h | h
  · exact absurd h (by decide)
  · exact absurd h (by decide)

theorem witness_VectorReduce :
    (∀ i, i < 512 / 32 → ¬Act start 1 32 i) ∧ Act start 0 32 0 := by
  refine ⟨fun i _ h => ?_, Or.inl rfl⟩
  rcases h with h | h
  · exact absurd h (by decide)
  · have : start.getM 1 = 0 := by decide
    simp [this] at h

/-- The admission of `n` bytes at `a` of the first page, in one part. -/
def onPage (a n : Nat) : Admitted := ⟨[⟨BitVec.ofNat 64 a, n, .mem a, 0, 0⟩], [page0], []⟩

theorem onPage_memory (a n : Nat) : AllMemory (onPage a n) := by
  intro p h
  simp only [onPage, List.mem_singleton] at h
  exact ⟨a, by rw [h]⟩

theorem onPage_unmarked (a n k : Nat) : Unmarked start (onPage a n) k :=
  ⟨fun q h => absurd h (by simp [onPage]), fun e h => absurd h (by simp [start, State.reset])⟩

theorem onPage_outside (a n k : Nat) (h : k < a ∨ a + n ≤ k) : Outside (onPage a n) k := by
  intro p hp b hb
  simp only [onPage, List.mem_singleton] at hp
  subst hp
  cases hb
  exact h

/-- The read checks of a load of 8 bytes that ends with the page's first 64 bytes. -/
theorem witness_ScalarLoads :
    let s := withX start [(5, 0x38)]
    s.check s.meWho ⟨.read, 1, false, false⟩ (low ((s.getX 5).toInt + 8 * (0 : BitVec 5).toInt)) 8 = .ok (onPage 0x38 8) ∧
    s.badSpan false (onPage 0x38 8).spans = none ∧ Unmarked start (onPage 0x38 8) 0x40 := by
  exact ⟨by decide, by decide, onPage_unmarked _ _ _⟩

/-- A store of one part, a byte beside it; a patch store inside and outside a declared slot. -/
theorem witness_ScalarStores :
    let s := withX start [(5, 0x38)]
    let z := { start with tasks := [(1, { task2 1 with launch := { launch2 with patch := [0x38] } })] }
    let ask : Ask := ⟨.patch, 8, false, false⟩
    (s.check s.meWho ⟨.write, 1, false, false⟩ 0x38 8 = .ok (onPage 0x38 8) ∧ msiRefused (onPage 0x38 8).spans (bytesOfWord 7 8) = false ∧
      s.badSpan true (onPage 0x38 8).spans = none) ∧ AllMemory (onPage 0x38 8) ∧ Outside (onPage 0x38 8) 0x40 ∧ Outside (onPage 0x38 8) 0x37 ∧
    (0x38 ∈ z.patchSlots z.cur ∧ z.check z.meWho ask 0x38 8 = .ok (onPage 0x38 8)) ∧
    (0x40 ∉ z.patchSlots z.cur ∧ z.check z.meWho ask 0x40 8 = .ok (onPage 0x40 8)) := by
  refine ⟨by decide, onPage_memory _ _, onPage_outside _ _ _ (by decide), onPage_outside _ _ _ (by decide), by decide, by decide⟩

/-- `start` with bits 0 and 63 of m1 set. -/
def masked : State := start.setM 1 0x8000000000000001

theorem witness_VectorLoadsStores :
    let ask (a : Acc) : Ask := ⟨a, 1, false, false⟩
    let ad : Admitted := ⟨[⟨0, 64, .mem 0, 0, 0⟩], [page0], []⟩
    let spans : List Span := [⟨0, 1, .mem 0, 0, 0⟩, ⟨63, 1, .mem 63, 0, 0⟩]
    actBytes start 1 = [] ∧ actBytes masked 1 = [0, 63] ∧
    (masked.checkMasked (ask .read) 0 (masked.mask 1) = .ok (ad, spans) ∧ masked.badSpan false spans = none) ∧
    (masked.checkMasked (ask .write) 0 (masked.mask 1) = .ok (ad, spans) ∧ masked.badSpan true spans = none ∧
      msiRefused spans [1, 2] = false) ∧
    (masked.check masked.meWho (ask .read) 0 8 = .ok (onPage 0 8) ∧ (∃ i, i < 64 / 8 ∧ Act masked 1 (8 * 8) i)) ∧
    ∀ i, i < 64 / 8 → ¬Act start 1 (8 * 8) i := by
  refine ⟨by decide, by decide, by decide, by decide, ⟨by decide, 0, by decide, Or.inr (by decide)⟩, fun i _ h => ?_⟩
  rcases h with h | h
  · exact absurd h (by decide)
  · have : start.getM 1 = 0 := by decide
    simp [this] at h

/-- Two 8-byte elements of a gather or scatter at one address, the active lanes 0 and 7. -/
theorem witness_GatherScatter :
    let s := withX (start.setM 1 0x0100000000000001) [(5, 0x40)]
    elems s 8 2 5 1 = [(0, 0x40), (7, 0x40)] ∧ Admits s .read 8 (elems s 8 2 5 1) [(0, onPage 0x40 8), (7, onPage 0x40 8)] ∧
    Admits s .write 8 (elems s 8 2 5 1) [(0, onPage 0x40 8), (7, onPage 0x40 8)] ∧
    msiRefused (onPage 0x40 8).spans (bytesOfWord 0 8) = false := by
  have h : elems (withX (start.setM 1 0x0100000000000001) [(5, 0x40)]) 8 2 5 1 = [(0, 0x40), (7, 0x40)] := by decide
  refine ⟨h, ?_, ?_, by decide⟩ <;> rw [h] <;> exact .cons (by decide) (.cons (by decide) .nil)

theorem witness_Atomics :
    let s := withX start [(5, 0x38), (6, 0x39)]
    let ask : Ask := ⟨.rw, 8, true, false⟩
    (s.check s.meWho ask 0x38 8 = .ok (onPage 0x38 8) ∧ s.heldByReplay s.cur 0x38 (onPage 0x38 8).spans = false ∧
      s.badSpan false (onPage 0x38 8).spans = none ∧ s.captureOf s.cur = none) ∧ AllMemory (onPage 0x38 8) ∧
    ((s.getX 6).toNat % 8 ≠ 0 ∧ (s.getX 6).toNat + 8 ≤ 0x7F1000000000 ∧ (s.getX 6).toNat + 8 ≤ 0x7F0000000000) := by
  exact ⟨by decide, onPage_memory _ _, by decide⟩

theorem witness_AtomicsConditional :
    let s := withX start [(5, 0x38)]
    badIn s.bad (winKey s.myCore 1976) 8 = none ∧ badIn s.bad (winKey s.myCore 1984) 8 = none ∧
    s.check s.meWho ⟨.rw, 8, true, false⟩ (s.getX 5) 8 = .ok (onPage 0x38 8) := by decide

theorem witness_Fences :
    (∀ c ∈ (start.core (start.cur / 8)).copies, c.2.tid = start.cur → Path.ls ≠ .ce ∧ Path.mx ≠ .ce) ∧
    (∀ c ∈ (start.core (start.cur / 8)).colls, c.tid = start.cur → Path.ls ≠ .co ∧ Path.mx ≠ .co) ∧ QueueEmpty start ∧
    (start.core (partnerOf (start.cur / 8))).link.transit = [] := by
  refine ⟨by decide, by decide, by rw [QueueEmpty]; decide, by decide⟩

theorem witness_TrapEntry :
    let d : Deferred := ⟨true, 0x28, 5, Vector.replicate 8 0⟩
    let s := start.modMe fun t => { t with deferred := [d, { d with isData := false }] }
    let z := start.modMe fun t => { t with deferred := [{ d with isData := false }] }
    CanTrap s ∧ s.me.deferred = [d, { d with isData := false }] ∧ d.isData = true ∧ CanTrap z ∧ z.me.deferred = [{ d with isData := false }] := by
  refine ⟨⟨by decide, by decide, by decide⟩, by decide, by decide, ⟨by decide, by decide, by decide⟩, by decide⟩

/-- The state with a copy command of its thread 0 in slot 0 of core 0. -/
def withCopy (s : State) : State :=
  { s with cores := s.cores.set 0 { s.core 0 with copies := [(0, ⟨0, 0, false, s.me.space, 0x1000, 0x2000, 0x40, none, false, 0, 0, 0, 0, [], [], 0⟩)] } }

theorem witness_ScallRule :
    CanTrap start ∧ (let s := service.modMe fun t => { t with trap := { t.trap with trapped := true } };
      (s.isService (s.cur / 8) = true ∧ s.me.trap.trapped = true) ∧ (NoCommands s ∧ QueueEmpty s) ∧ ¬NoCommands (withCopy s)) := by
  refine ⟨⟨by decide, by decide, by decide⟩, by decide, ⟨⟨by decide, by decide⟩, by rw [QueueEmpty]; decide⟩, fun h => absurd (h.1 (0, _) (List.mem_singleton.mpr rfl)) (by decide)⟩

theorem witness_ReturnFromTrap :
    let s := service.modMe fun t => { t with trap := { t.trap with trapped := true } }
    s.me.status.priv = true ∧ s.me.trap.trapped = true := by decide

theorem witness_BreakYieldDoneHalt :
    let s := start.modMe fun t => { t with status := { t.status with debug := true } }
    (CanTrap start ∧ start.me.status.debug = false) ∧ (s.me.status.debug = true ∧ s.gangOf s.cur = some 1 ∧ s.tasks.find 1 = some (task2 1)) ∧
    (NoCommands start ∧ QueueEmpty start ∧ start.me.deferred = [] ∧
      (start.modMe fun t => { t with deferred := [⟨true, 0x28, 5, Vector.replicate 8 0⟩] }).me.deferred ≠ []) ∧ (NoCommands service ∧ QueueEmpty service ∧ service.gangOf service.cur = none) ∧
    (start.gangOf start.cur = some 1 ∧ start.tasks.find 1 = some (task2 1) ∧ (task2 1).bars[0]? = some ⟨0, false, 2, none⟩ ∧
      ∃ j, j ≠ start.cur ∧ j ∈ start.team 1 (start.cur / 8)) ∧
    ((priv start).me.status.priv = true ∧ (priv start).gangOf (priv start).cur = some 1) ∧
    (service.me.status.priv = true ∧ service.gangOf service.cur = none ∧ service.cur / 8 ≠ 0xF07) := by
  have n : NoCommands start := ⟨by decide, by decide⟩
  have m : NoCommands service := ⟨by decide, by decide⟩
  have q : QueueEmpty start := by rw [QueueEmpty]; decide
  have r : QueueEmpty service := by rw [QueueEmpty]; decide
  exact ⟨⟨⟨by decide, by decide, by decide⟩, by decide⟩, by decide, ⟨n, q, by decide, by decide⟩, ⟨m, r, by decide⟩, ⟨by decide, by decide, by decide, 9, by decide, by decide⟩,
    by decide, by decide⟩

theorem witness_InvalidateAndMark :
    let all : Nat := 0x20
    let one : Nat := 0x40 + 0x10
    let s := { service with hub := service.hub.set (qcb 0) 1 }
    let z := { start with tasks := [(1, { task2 1 with capture := some 3 })], captures := [(3, ⟨0, 0, 4, 0, 0x40, 64, 0, 0, [], [], false, []⟩)] }
    (s.me.status.priv = true ∧ s.isService (s.cur / 8) = true ∧ s.qEnabled (all % 8) = true ∧ all < 2 ^ 26 ∧ all / 8 % 2 = 0 ∧ all / 16 % 4 = 2) ∧
    (one < 2 ^ 26 ∧ s.qEnabled (one % 8) = true ∧ one / 8 % 2 = 0 ∧ one / 16 % 4 = 1) ∧ start.captureOf start.cur = none ∧
    (z.gangOf z.cur = some 1 ∧ z.wants 1 2 = true) ∧
    (let y := { z with captures := [(3, ⟨0, 0, 0, 0, 0x40, 64, 0, 0, [], [], false, []⟩)] };
      y.gangOf y.cur = some 1 ∧ y.wants 1 2 = false) ∧
    (∀ v ∈ [0x30, 0x40, 0x08], v < 2 ^ 26 ∧ s.qEnabled (v % 8) = true) ∧ 0x30 / 16 % 4 = 3 ∧ (0x40 / 8 % 2 = 0 ∧ 0x40 / 16 % 4 = 0) ∧
    (0x08 / 8 % 2 = 1 ∧ 0x08 / 16 % 4 = 0) ∧ (s.getX 0).toNat < 0x7F0000000000 := by decide

/-- No thread waits where none that is listed does. -/
theorem calm_of (s : State) (h : (s.threads.all fun p => p.2.wait.isNone) = true) : Calm s := by
  intro j
  rw [State.thr]
  generalize s.threads = l at h
  induction l with
  | nil => rfl
  | cons p r ih =>
    simp only [List.all_cons, Bool.and_eq_true] at h
    rw [SMap.get]
    split
    · simpa using h.1
    · exact ih h.2

theorem witness_CsrAccess :
    (csrExists 0x000 = true ∧ CsrReads start 0x000 ∧ CsrWrites start 0x001 ∧ QueueEmpty start) ∧ CsrWrites service 0x812 ∧ QueueEmpty service ∧
    (∀ p ∈ [(0x000, 0x1F), (0x100, 2 ^ 23 - 1), (0x10F, 2 ^ 23 - 1), (0x110, 2 ^ 32 - 1), (0x11F, 2 ^ 32 - 1), (0x120, 7), (0x127, 7),
      (0x801, 2 ^ 47 - 1), (0x802, 0x1FF), (0x803, 2 ^ 64 - 1), (0x804, 2 ^ 47 - 3), (0x805, 2 ^ 64 - 1), (0x811, 2 ^ 20 - 1),
      (0x812, 2 ^ 32 - 1)], csrMask p.1 = some p.2 ∧ csrExists p.1 = true) ∧
    (∀ n ∈ [0x001, 0x003, 0x050, 0x05F, 0x070, 0x128, 0x130, 0x800, 0x810, 0x840, 0x841, 0x845], (csrAfter n 0 0).isSome = true ∧ csrExists n = true) ∧
    ((start.me.csr.evsel.get (Fin.ofNat 16 0x040)).toNat % 256 ≠ 2 ∧ (start.me.csr.evsel.get (Fin.ofNat 16 0x04F)).toNat % 256 ≠ 2) ∧
    (∀ q, q < 4 → (start.quad q).st = .on) ∧ (NoRoomWait service ∧ NothingSpilled service) ∧
    ¬NothingSpilled { service with regions := [(islandRegion, { Region.init with spilled := true })] } ∧ service.me.bind.busy = false ∧
    (start.taskOf start.cur = some (task2 1) ∧ service.taskOf service.cur = none) := by
  refine ⟨⟨by decide, fun h => absurd h (by decide), ⟨fun h => absurd h (by decide), by decide⟩, by rw [QueueEmpty]; decide⟩, ⟨fun _ => by decide, fun _ => by decide⟩, by rw [QueueEmpty]; decide, by decide,
    by decide, by decide, by decide, ⟨fun j w h => absurd (h.symm.trans (calm_of service (by decide) j)) (Option.some_ne_none w), by rw [NothingSpilled]; decide⟩,
    fun h => absurd (h _ (List.mem_singleton.mpr rfl)).1 (by decide), by decide, by decide⟩

theorem witness_PrivilegeChecks :
    (CanTrap start ∧ start.me.status.priv = false) ∧ (CanTrap (priv start) ∧ (priv start).me.status.priv = true ∧
      (priv start).isService ((priv start).cur / 8) = false) ∧
    csrExists 0xFFF = false ∧ (csrExists 0x022 = true ∧ csrReadOnly 0x022 = true) ∧
    (csrExists 0x801 = true ∧ csrReadOnly 0x801 = false) ∧ (csrExists 0x806 = true ∧ csrReadOnly 0x806 = true) := by
  refine ⟨⟨⟨by decide, by decide, by decide⟩, by decide⟩, ⟨⟨by decide, by decide, by decide⟩, by decide, by decide⟩, by decide, by decide, by decide,
    by decide⟩

/-! ### Tiles -/

/-- `start` with descriptors: tile 0 INT8 of 4 rows and 32 columns, tile 1 with a reserved format, tile 2 MXFP8 of 1 row and 32 columns,
tile 3 FP32 of 16 rows and 16 columns, and an INT32 accumulator 1. -/
def tiles : State := start.modCore 1 fun k => { k with mx := { k.mx with
  tdesc := (((k.mx.tdesc.set 0 (BitVec.ofNat 23 (4 + 32 * 3 + 512 * 31))).set 1 31).set 2 (BitVec.ofNat 23 (7 + 512 * 31))).set 3
    (BitVec.ofNat 23 (16 + 32 * 15 + 512 * 15))
  accd := k.mx.accd.set 1 1 } }

/-- The gang of `tiles` with its bonded core 0x101. -/
def bonded : State :=
  { tiles with binds := tiles.binds.set (8 * 0x101) (record 1 0 2), cores := tiles.cores.set 0x101 core1 }

theorem witness_TileLoads :
    let s := withX tiles [(5, 0x100), (6, 64)]
    NoEntry s (usesTile 0) ∧ NoEntry s (usesAcc 0) ∧ descOk (s.tdesc (s.cur / 8) 0) = true ∧ transposable (dFmt (s.tdesc (s.cur / 8) 0)) = true ∧
    (descOk (s.tdesc (s.cur / 8) 2) = true ∧ scaled (dFmt (s.tdesc (s.cur / 8) 2)) = true) ∧
    Admits s .read 32 (piecesOf s 5 6 4 32) [(0, onPage 0x100 32), (1, onPage 0x140 32), (2, onPage 0x180 32), (3, onPage 0x1C0 32)] := by
  have h : piecesOf (withX tiles [(5, 0x100), (6, 64)]) 5 6 4 32 = [(0, 0x100), (1, 0x140), (2, 0x180), (3, 0x1C0)] := by decide
  refine ⟨by rw [NoEntry]; decide, by rw [NoEntry]; decide, by decide, by decide, by decide, ?_⟩
  rw [h]
  exact .cons (by decide) (.cons (by decide) (.cons (by decide) (.cons (by decide) .nil)))

theorem witness_TileStores :
    let s := withX tiles [(5, 0x100), (6, 64)]
    NoEntry s (usesTile 2) ∧ descOk (s.tdesc (s.cur / 8) 2) = true ∧ Admits s .write 32 (piecesOf s 5 6 1 32) [(0, onPage 0x100 32)] ∧
    badIn s.bad (tileKey 1 2 0 0) 32 = none ∧ msiRefused (onPage 0x100 32).spans (List.replicate 32 0) = false ∧ AllMemory (onPage 0x100 32) := by
  have h : piecesOf (withX tiles [(5, 0x100), (6, 64)]) 5 6 1 32 = [(0, 0x100)] := by decide
  refine ⟨by rw [NoEntry]; decide, by decide, ?_, by decide, by decide, onPage_memory _ _⟩
  rw [h]
  exact .cons (by decide) .nil

theorem witness_MatrixQueue :
    (tiles.core (tiles.cur / 8)).mx.queue.length < 8 ∧ tiles.tmmaOk 1 0 0 = true ∧ tiles.taccoutOk 3 0 0 = true ∧
    accIsInt tiles 2 = accIsInt tiles 3 ∧ bonded.mirrorBound = true ∧ tiles.tcvtOk 3 3 = true ∧
    (CanTrap tiles ∧ tiles.tmmaOk 0 0 0 = false ∧ tiles.taccoutOk 3 0 1 = false ∧ accIsInt tiles 0 ≠ accIsInt tiles 1 ∧ tiles.tcvtOk 1 3 = false ∧
      descOk (tiles.tdesc (tiles.cur / 8) 1) = false ∧ tiles.mirrorBound = false) := by
  exact ⟨by decide, by decide, by decide, by decide, by decide, by decide, ⟨by decide, by decide, by decide⟩, by decide, by decide, by decide,
    by decide, by decide, by decide⟩

/-! ### Versions, in the version block of the Tabor island -/

/-- The granule at the start of the block. -/
def granule : VPlace := ⟨islandRegion, 0, 0x7F0F009E0000⟩

/-- `start` with the block tagged by its tenant, floor 5 and the versions 7 and 9 of the granule. -/
def versions : State :=
  let s := withX start [(5, 0x7F0F009E0000), (6, 4), (7, 7), (8, 8)]
  { s with regions := [(islandRegion, ⟨2 ^ 14, some 0, 5, true, false, false, [(0, ⟨[(7, 0), (9, 1)], false, 0⟩)]⟩)] }

/-- Where no thread waits none waits for room. -/
theorem noRoom_of {s : State} (h : Calm s) : NoRoomWait s := fun j w e => absurd (e.symm.trans (h j)) (Option.some_ne_none w)

/-- `versions` with the granule's list lost. -/
def lostList : State :=
  { versions with regions := [(islandRegion, ⟨2 ^ 14, some 0, 5, true, false, false, [(0, ⟨[(7, 0), (9, 1)], true, 0⟩)]⟩)] }

/-- `versions` with the domain of the island dark. -/
def darkBlock : State := versions.setDomain 0x84 { versions.domain 0x84 with dark := true }

theorem witness_VersionStores :
    versions.versionAt versions.meWho .write (versions.getX 5) = .ok (versions, granule) ∧ CanTrap versions ∧ Calm versions ∧ NoRoomWait versions ∧
    versions.verLost granule = false ∧ verOf versions 6 < (versions.region islandRegion).floor ∧
    ((versions.region islandRegion).floor ≤ verOf versions 7 ∧ ∃ e ∈ (versions.gran granule).vers, e.1 = verOf versions 7) ∧
    ((versions.region islandRegion).floor ≤ verOf versions 8 ∧ (∀ e ∈ (versions.gran granule).vers, e.1 ≠ verOf versions 8)) ∧
    versions.verCreate granule (verOf versions 8) (vecBytes (versions.getV 0)) ≠ .wait ∧ versions.verRaise granule (verOf versions 8) ≠ .wait ∧
    (NoRoomWait lostList ∧ lostList.versionAt lostList.meWho .write (lostList.getX 5) = .ok (lostList, granule) ∧ lostList.verLost granule = true ∧
      CanTrap (lostList.logConsumed lostList.cur (regionBase islandRegion) 0x15)) ∧
    (NoRoomWait darkBlock ∧ darkBlock.versionAt darkBlock.meWho .write (darkBlock.getX 5) = .ok (darkBlock, granule) ∧ darkBlock.islandDark granule = true ∧
      CanTrap (darkBlock.logConsumed darkBlock.cur (regionBase islandRegion) 0x15)) ∧ versions.islandDark granule = false := by
  exact ⟨by decide, ⟨by decide, by decide, by decide⟩, calm_of _ (by decide), noRoom_of (calm_of _ (by decide)), by decide, by decide, by decide, by decide,
    by decide, by decide, ⟨noRoom_of (calm_of _ (by decide)), by decide, by decide, ⟨by decide, by decide, by decide⟩⟩,
    ⟨noRoom_of (calm_of _ (by decide)), by decide, by decide, ⟨by decide, by decide, by decide⟩⟩, by decide⟩

theorem witness_VersionLoads :
    let z := withX versions [(9, 6)]
    versions.versionAt versions.meWho .read (versions.getX 5) = .ok (versions, granule) ∧ NoRoomWait versions ∧ versions.verLost granule = false ∧
    (((versions.gran granule).vers.map Prod.fst).Nodup ∧ (7, 0) ∈ (versions.gran granule).vers ∧ 7 ≤ verOf versions 8 ∧
      (∀ x ∈ (versions.gran granule).vers, x.1 ≤ verOf versions 8 → x.1 ≤ 7)) ∧ badIn versions.bad (granule.slotKey 0) 64 = none ∧
    ((∀ e ∈ (versions.gran granule).vers, e.1 ≠ verOf versions 8) ∧ (versions.region granule.rk).floor ≤ verOf versions 8 ∧ versions.me.wait = none) ∧
    (verOf versions 6 < (versions.region granule.rk).floor ∧ (∀ e ∈ (versions.gran granule).vers, verOf versions 6 < e.1) ∧ CanTrap versions) ∧
    ((z.region granule.rk).floor ≤ verOf z 9 ∧ (∀ e ∈ (z.gran granule).vers, verOf z 9 < e.1)) ∧
    (lostList.versionAt lostList.meWho .read (lostList.getX 5) = .ok (lostList, granule) ∧ lostList.verLost granule = true) := by
  exact ⟨by decide, noRoom_of (calm_of _ (by decide)), by decide, by decide, by decide, by decide, ⟨by decide, by decide, ⟨by decide, by decide, by decide⟩⟩,
    by decide, by decide⟩

/-! ### Commands and messages -/

theorem witness_Copies :
    let s := withX start [(5, 0x1000), (6, 0x2000), (7, 0x40)]
    let nil : CopyCmd := ⟨8, 0, true, user.space, 0x1000, 0x2000, 0, none, true, 0x7F0001003000, 7, 0, 0, [], [], 0⟩
    (nil.total ≤ nil.low ∧ good (((s.setCopy 1 0 nil).retire 12).engineWrite (nil.who 1 0) 0x7F0001003000 ((List.range 8).map fun j => BitVec.ofNat 8 (7 / 256 ^ j)))
      (fun _ => true) = true) ∧
    (s.getX 5).toNat % 8 = 0 ∧ ((s.getX 7).toNat % 64 = 0 ∧
      s.check s.meWho ⟨.read, 1, false, false⟩ (s.getX 7) 64 = .ok (onPage 0x40 64) ∧ s.badSpan false (onPage 0x40 64).spans = none) ∧
    LowestFree s 0 ∧
    CopyCmd.low ⟨8, 0, true, user.space, 0x1000, 0x2000, 0x40, none, false, 0, 0, 0, 0, [], [], 0⟩ <
      CopyCmd.total ⟨8, 0, true, user.space, 0x1000, 0x2000, 0x40, none, false, 0, 0, 0, 0, [], [], 0⟩ ∧
    CopyCmd.low ⟨8, 1, true, user.space, 0x1000, 0x2000, 0x40, some ⟨8, 2, 1, 0, 0, 0, 0, 0, 0, 0⟩, false, 0, 0, 0, 0, [], [], 0⟩ <
      CopyCmd.total ⟨8, 1, true, user.space, 0x1000, 0x2000, 0x40, some ⟨8, 2, 1, 0, 0, 0, 0, 0, 0, 0⟩, false, 0, 0, 0, 0, [], [], 0⟩ := by
  refine ⟨by decide, by decide, by decide, ⟨by decide, by decide, fun k h => absurd h (Nat.not_lt_zero k)⟩, by decide, by decide⟩

/-- `start` with an inbox of two entries on core 1 at LM offset 0x1000: `n` entries, the next at the end of the ring. -/
def inbox (n : Nat) : State := start.modCore 1 fun k => { k with inboxSize := 2, inboxBase := 64, inboxHead := 0xFFFF, inboxTail := BitVec.ofNat 16 (0xFFFF + n) }

/-- `start` with bridge port 0 up and a tenant that bridges; its gang is paired with none, or with one. -/
def bridging : State := { start with ports := [(0, { Port.init with up := true })], hub := start.hub.set 0x400 0x30000 }
def pairing : State := { bridging with tasks := [(1, { task2 1 with launch := { launch2 with bridge := true } })] }

theorem witness_CollectivesMessages :
    (start.gangOf start.cur = some 1 ∧ (start.bind start.cur).tidx = 0) ∧ service.gangOf service.cur = none ∧
    (let s := withX (inbox 1) [(5, 1)];
      (s.getX 5).toNat < 2 ^ 12 ∧ isCore 1 = true ∧ (s.core 1).inboxSize ≠ 0 ∧ s.coreOff 1 = false ∧
        s.keyRefused s.meWho ⟨.write, 1, false, false⟩ 1 = false ∧ inboxHolds s 1 < (s.core 1).inboxSize) ∧
    ((inbox 2).core 1).inboxSize ≤ inboxHolds (inbox 2) 1 ∧ (start.core 1).inboxSize = 0 ∧ inboxHolds (inbox 0) 1 = 0 ∧
    (((inbox 1).core 1).inboxSize ≠ 0 ∧ inboxHolds (inbox 1) 1 ≠ 0 ∧
      badIn (inbox 1).bad (winKey 1 (inboxAt (inbox 1) 1 ((inbox 1).core 1).inboxHead.toNat)) 64 = none) ∧
    (({ start with cur := 9 } : State).bind 9).tidx ≠ 0 ∧ CanTrap { start with cur := 9 } ∧ CanTrap start.drawFree.2 ∧
    (start.tenantBridges (start.tenantOf start.cur) = false ∧ start.upPort = none) ∧
    (bridging.tenantBridges (bridging.tenantOf bridging.cur) = true ∧ CanTrap bridging.drawFree.2 ∧ CanTrap bridging ∧ ¬Paired bridging) ∧
    (bridging.bridgeUp = true ∧ bridging.upPort.isSome = true) ∧ Paired pairing ∧
    (pairing.tenantBridges (pairing.tenantOf pairing.cur) = true ∧ CanTrap pairing.drawFree.2.drawFree.2) ∧ isCore (0x1001 % 4096) = true := by
  refine ⟨by decide, by decide, by decide, by decide, by decide, by decide, by decide, by decide, ⟨by decide, by decide, by decide⟩,
    ⟨by decide, by decide, by decide⟩, by decide, ⟨by decide, ⟨by decide, by decide, by decide⟩, ⟨by decide, by decide, by decide⟩, fun ⟨k, h, e⟩ => ?_⟩, by decide,
    ⟨{ task2 1 with launch := { launch2 with bridge := true } }, by decide, rfl⟩, ⟨by decide, ⟨by decide, by decide, by decide⟩⟩, by decide⟩
  have h' : bridging.taskOf bridging.cur = some (task2 1) := by decide
  rw [h'] at h
  exact absurd e (by rw [← Option.some.inj h]; decide)


/-! ### Waits, barriers, the stack link, STRIKE and MIGR -/

/-- `start` with an offer of thread 9 under key 3, and that thread asleep for it. -/
def offered (kind k : Nat) : State :=
  let s := withX start [(5, 3 + 0x10000)]
  { s.modThr 9 fun t => { t with slot := .asleep, wait := some ⟨.clave, 0, 3, 0, 0, 0, none⟩ } with offers := [⟨9, 1, 3, kind, k, 6, 2⟩] }

theorem witness_PauseWaitClave :
    (let s := withX start [(5, 0x40), (6, 1)];
      s.check s.meWho ⟨.read, 8, true, false⟩ (s.getX 5) 8 = .ok (onPage 0x40 8) ∧ s.badSpan false (onPage 0x40 8).spans = none ∧
      Claims.numOf ((Reached s (onPage 0x40 8)).bytesAt (onPage 0x40 8).spans) % 2 ^ 64 = (s.getX 0).toNat ∧
      Claims.numOf ((Reached s (onPage 0x40 8)).bytesAt (onPage 0x40 8).spans) % 2 ^ 64 ≠ (s.getX 6).toNat ∧ s.me.wait = none) ∧
    ((∀ p ∈ start.offers, p.tid ≠ start.cur) ∧ (∀ p ∈ offersAt start 3, p.kind = 0 ∧ p.k = 2) ∧ (offersAt start 3).length + 1 < 2) ∧
    ((∀ p ∈ (offered 2 3).offers, p.tid ≠ (offered 2 3).cur) ∧ (∀ p ∈ offersAt (offered 2 3) 3, p.kind = 2 ∧ p.k = 3) ∧
      (offersAt (offered 2 3) 3).length + 1 < 3) ∧
    (∀ kind ∈ [0, 1], offersAt (offered kind 2) (keyOf16 (offered kind 2) 5) = [⟨9, 1, 3, kind, 2, 6, 2⟩]) ∧
    (let s := offered 2 2;
      let group := offersAt s (keyOf16 s 5) ++ [⟨s.cur, s.offerGang s.cur, keyOf16 s 5, 2, 2, 4, 1⟩];
      (∀ p ∈ s.offers, p.tid ≠ s.cur) ∧ (∀ p ∈ offersAt s (keyOf16 s 5), p.kind = 2 ∧ p.k = group.length) ∧
      (s.getX 5).toNat / 2 ^ 16 % 8 + 1 = group.length ∧ (group.map (·.tid)).Nodup ∧ (group.map fun p => s.partyRank p).Nodup) := by
  decide

/-- `start` with thread 9 waiting at barrier 0, or 11. -/
def atBarrier (h : Nat) : State :=
  let s := start.modThr 9 fun t => { t with
    slot := .asleep, wait := some ⟨.barrier, 0, 0, 0, 0, 0, none⟩, apbHandle := BitVec.ofNat 4 h, status := { t.status with apb := true } }
  s.setBarrier 1 1 h ⟨1, false, if h = 0 then 2 else 0, some 0⟩

theorem witness_Barriers :
    Names start 0 1 (task2 1) ⟨0, false, 2, none⟩ ∧ Names start 11 1 (task2 1) Barrier.init ∧
    (NotLast start 0 ⟨0, false, 2, none⟩ ∧ NotLast start 11 Barrier.init ∧ (start.core (partnerOf (start.cur / 8))).link.transit = []) ∧
    (start.me.status.apb = false ∧ start.me.slot = .active ∧ start.me.wait = none ∧ NoCommands start ∧ QueueEmpty start) ∧
    (Names (atBarrier 0) 0 1 { task2 1 with bars := [⟨1, false, 2, some 0⟩] } ⟨1, false, 2, some 0⟩ ∧
      Last (atBarrier 0) 0 { task2 1 with bars := [⟨1, false, 2, some 0⟩] } ⟨1, false, 2, some 0⟩ ∧ 9 ∈ (atBarrier 0).waitersAt 1 1 0) ∧
    (Names (atBarrier 11) 11 1 (task2 1) ⟨1, false, 0, some 0⟩ ∧ Last (atBarrier 11) 11 (task2 1) ⟨1, false, 0, some 0⟩) ∧
    (let s := start.modMe fun t => { t with sense := 1 };
      Names s 0 1 (task2 1) ⟨0, false, 2, none⟩ ∧ s.me.sense.getLsbD 0 ≠ false ∧ CanTrap s ∧ s.me.status.apb = false) := by
  have n : NoCommands start := ⟨by decide, by decide⟩
  have q : QueueEmpty start := by rw [QueueEmpty]; decide
  refine ⟨⟨by decide, by decide, by decide, by decide, by decide, by decide, by decide⟩,
    ⟨by decide, by decide, by decide, by decide, by decide, by decide, by decide⟩, ⟨⟨q, by decide, by decide⟩, ⟨q, by decide, by decide⟩, by decide⟩,
    ⟨by decide, by decide, by decide, n, q⟩,
    ⟨⟨by decide, by decide, by decide, by decide, by decide, by decide, by decide⟩,
      ⟨by rw [QueueEmpty]; decide, by decide, by decide, by decide, by decide, by decide⟩, by decide⟩,
    ⟨⟨by decide, by decide, by decide, by decide, by decide, by decide, by decide⟩,
      ⟨by rw [QueueEmpty]; decide, by decide, by decide, by decide, by decide, by decide⟩⟩,
    ⟨by decide, by decide, by decide, by decide, by decide, by decide, by decide⟩, by decide, ⟨by decide, by decide, by decide⟩, by decide⟩

/-- `bonded` with its link holding one entry and no credit, or DOWN. -/
def linked (credits : Nat) (down : Bool) : State :=
  bonded.modCore 1 fun k => { k with link := { k.link with fifo := [5], credits := credits, down := down } }

theorem witness_StackLink :
    (LinkOpen bonded ∧ (bonded.core (bonded.cur / 8)).link.credits ≠ 0 ∧ (bonded.core (bonded.cur / 8)).link.fifo = [] ∧ bonded.me.wait = none) ∧
    (LinkOpen (linked 0 false) ∧ ((linked 0 false).core ((linked 0 false).cur / 8)).link.credits = 0 ∧
      ((linked 0 false).core ((linked 0 false).cur / 8)).link.fifo = 5 :: []) ∧
    ((∃ g, (linked 0 true).gangOf (linked 0 true).cur = some g ∧ (linked 0 true).gangAt (partnerOf 1) = some g) ∧
      ((linked 0 true).core 1).link.down = true ∧ CanTrap (linked 0 true)) := by
  exact ⟨⟨⟨⟨1, by decide, by decide⟩, by decide⟩, by decide, by decide, by decide⟩, ⟨⟨⟨1, by decide, by decide⟩, by decide⟩, by decide, by decide⟩,
    ⟨1, by decide, by decide⟩, by decide, ⟨by decide, by decide, by decide⟩⟩

/-- The context record of a migration to a team of one with its image at 0x10000, as it lies in the first page at 0x40. -/
def contextCells : Memory :=
  [(0x40, 1), (0x42, 1), (0x43, 1), (0x44, 1), (0x52, 1), (0x5A, 9)]

/-- A gang of one thread in the first 640 KiB of LPDDR6, one lease, with that record. -/
def migrant : State :=
  let s := withX start [(5, 0x40)]
  { s with
    binds := s.binds.drop 9
    mem := contextCells
    tasks := [(1, { task2 1 with bars := [⟨0, false, 1, none⟩], launch := { launch2 with leases := [(0, 0xA0000)] } })]
    cores := s.cores.set 1 { core1 with tlb := (List.range 40).map fun i => { page0 with page := i, pa := 0x4000 * i } } }

theorem witness_StrikeMigrate :
    ¬Hits start 0 ∧ (let s := withX start [(5, 0x7FFFFFFF)];
      Hits s 5 ∧ NoCommands s ∧ QueueEmpty s ∧ (s.striker.get Striker.init (s.tenantOf s.cur)).places.length < 16 ∧ s.needsWake 15 = false ∧
      (let r : StrikeRec := ⟨1, 1, 0, false, 2, 15, 0, none, false⟩;
        let z := { s with striker := [(0, ⟨List.replicate 16 r, 17⟩)] };
        16 ≤ (z.striker.get Striker.init (z.tenantOf z.cur)).places.length) ∧
      (s.setQuad 3 { Quad.init with st := .ret }).needsWake 15 = true) ∧
    (migrant.gangOf migrant.cur = some 1 ∧ (task2 1).capture = none ∧ (migrant.getX 5).toNat % 64 = 0 ∧ NoCommands migrant ∧ QueueEmpty migrant ∧
      good (migrant.readContext (migrant.getX 5)) (fun p => p.2.2 == [] && p.1.listBad p.2.2 (recWord p.2.1 0x38) == [] && p.1.contextBad { task2 1 with
        bars := [⟨0, false, 1, none⟩], launch := { launch2 with leases := [(0, 0xA0000)] } } 1 p.2.1 == [] && p.1.usable true == 7 && p.1.contextWaits (task2 1) p.2.1 [] == none &&
        p.1.linkBusy (task2 1) == none && (p.1.core 1).mx.queue.isEmpty && (p.1.core 1).copies.isEmpty && (p.1.core 1).colls.isEmpty) = true) ∧
    (let s := migrant.modMe fun t => { t with slot := .asleep, wait := some ⟨.superstep, 0, 0, 0, 0, 0, none⟩, migr := some (migrationOf 0x40 [] [] true 1 8 15) };
      s.me.inMigr = some (migrationOf 0x40 [] [] true 1 8 15) ∧ (s.core 1).mx.queue = [] ∧ (s.core 1).copies = [] ∧ (s.core 1).colls = []) := by
  have n : NoCommands (withX start [(5, 0x7FFFFFFF)]) := ⟨by decide, by decide⟩
  have q : QueueEmpty (withX start [(5, 0x7FFFFFFF)]) := by rw [QueueEmpty]; decide
  have n' : NoCommands migrant := ⟨by decide, by decide⟩
  have q' : QueueEmpty migrant := by rw [QueueEmpty]; decide
  have h : ¬Hits start 0 := by
    rw [Hits, if_neg (by decide)]
    decide
  have h' : Hits (withX start [(5, 0x7FFFFFFF)]) 5 := by
    rw [Hits, if_neg (by decide)]
    decide
  refine ⟨h, ⟨h', n, q, by decide, by decide, by decide, by decide⟩, ⟨by decide, by decide, by decide, n', q', by decide⟩, by decide⟩

/-! ### Events of threads, pages, engines and queues -/

/-- `start` with the first thread asleep in its instruction since TIME 0, at TIME `now`. -/
def asleep (why : WaitWhy) (now : Nat) : State :=
  { start.modMe fun t => { t with slot := .asleep, wait := some ⟨why, 0, 0x40, 0x40, 0, 3, none⟩ } with time := now }

/-- A wait of that kind. -/
def waits (why : WaitWhy) : WaitRec := ⟨why, 0, 0x40, 0x40, 0, 3, none⟩

theorem asleep_sleeps (why : WaitWhy) (now : Nat) : SleepsOn (asleep why now) 8 (waits why) why := by
  cases why <;> exact ⟨by simp [asleep, State.modMe, State.modThr, State.setThr, State.thr, start, State.reset], by
    simp [asleep, waits, State.modMe, State.modThr, State.setThr, State.thr, start, State.reset], rfl⟩

/-- A deferred DATA_ERROR. -/
def data28 : Deferred := ⟨true, 0x28, 5, Vector.replicate 8 0⟩

theorem witness_ThreadEvents :
    (let s := start.modMe fun t => { t with deferred := [data28] };
      (s.thr 8).deferred = data28 :: [] ∧ (s.thr 8).live = true ∧ (s.thr 8).stopReq = false ∧ (s.thr 8).halting = none ∧
        CanTrap (onTurn (s.modThr 8 fun t => { t with deferred := [] }) 8)) ∧
    (SleepsOn (asleep .waita 0) 8 (waits .waita) .waita ∧ badIn (asleep .waita 0).bad (waits .waita).key 8 = none ∧
      (asleep .waita 0).mem.num (waits .waita).key 8 = (waits .waita).value.toNat) ∧
    (∀ why, SleepsOn (asleep why 10000000) 8 (waits why) why) ∧
    ((asleep .waita 1000000).waitLimit 8 ≤ (asleep .waita 1000000).time - (waits .waita).since ∧ CanTrap (onTurn (asleep .waita 1000000) 8)) ∧
    (((asleep .verLoad 10000000).thr 8).csr.vwaitlim.toNat ≤ (asleep .verLoad 10000000).time - (waits .verLoad).since ∧
      CanTrap (onTurn (asleep .verLoad 10000000) 8)) ∧
    (let s := { asleep .clave 1000000 with offers := [⟨8, 1, 3, 0, 2, 6, 2⟩] };
      s.offers.find? (fun o => o.tid == 8) = some ⟨8, 1, 3, 0, 2, 6, 2⟩ ∧ (s.thr 8).slot = .asleep ∧ (s.thr 8).wait = some (waits .clave) ∧
        s.waitLimit 8 ≤ s.time - 0) ∧
    (let s := (asleep .barrier 1000000).setBarrier 1 1 0 ⟨1, false, 2, some 0⟩;
      s.gangOf 8 = some 1 ∧ (s.barrier 1 1 (s.thr 8).apbHandle.toNat).since = some 0 ∧ s.waitLimit 8 ≤ s.time - 0 ∧
        s.waitersAt 1 1 (s.thr 8).apbHandle.toNat = [8]) ∧
    (let s := start.modMe fun t => { t with pause := 1 }; (s.thr 8).pause ≠ 0 ∧ s.clockRate 1 ≠ 0) ∧
    ((asleep .replay 0).stillHeld 8 = false) ∧
    (let s := { asleep .replay 1000000 with
        tasks := [(1, { task2 1 with capture := some 3 })], captures := [(3, ⟨0, 0, 4, 0, 0x40, 64, 0, 0, [], [], false, []⟩)] };
      s.captureOf 8 = some 3 ∧ (s.captures.find 3).isSome = true ∧ s.waitLimit 8 ≤ s.time - 0) ∧
    ((start.modMe fun t => { t with stopReq := true }).thr 8).stopReq = true ∧
    ((start.modMe fun t => { t with stopReq := true, wait := some (waits .strike) }).thr 8).striking = true ∧
    ((start.modMe fun t => { t with stopReq := true }).thr 8).striking = false := by
  refine ⟨⟨by decide, by decide, by decide, by decide, ⟨by decide, by decide, by decide⟩⟩, ⟨asleep_sleeps _ _, by decide, by decide⟩,
    fun why => asleep_sleeps why _, ⟨by decide, ⟨by decide, by decide, by decide⟩⟩, ⟨by decide, ⟨by decide, by decide, by decide⟩⟩, by decide,
    by decide, by decide, by decide, by decide, by decide, by decide, by decide⟩

/-- A page wait of the first thread, or of a copy engine; by service firmware, or a FILE fault. -/
def pageWait (firmware : Bool) : PageWait := ⟨8, none, firmware, 0x2000, 0, 0x4000, 0x4008, 0, false, 1, 0, false⟩

/-- A copy command of the first thread: `n` bytes from LM offset 0x1000 of its own core to 0x2000, no completion word. -/
def copyLm (fn n : Nat) : CopyCmd :=
  ⟨8, fn, true, user.space, 0x7F0001002000, 0x7F0001001000, BitVec.ofNat 64 n, none, false, 0, 0, 0, 0, [], [], 0⟩

/-- `start` with that command in slot 0. -/
def copying (c : CopyCmd) : State := start.modCore 1 fun k => { k with copies := [(0, c)] }

/-- A CPYV command into a granule whose eight slots are taken. -/
def copyFull : CopyCmd :=
  { copyLm 3 64 with dst := 0x7F0F009E0000, version := 20, vwait := [(0, 0)] }

/-- A reduction of two binary32 numbers in LM over a gang of one core. -/
def reduce1 : CollCmd := ⟨8, 0, .sum, .fp32, false, 2, none, true, user.space, 0x7F0001002000, 0x7F0001001000, false, 0, 1, 0⟩

theorem witness_PageEvents :
    (let s := { start with pageWaits := [pageWait true], mem := [(0x2000, 1)] };
      s.pageWaits[0]? = some (pageWait true) ∧ (s.mem.get 0x2000).getLsbD 0 = true) ∧
    ((asleep .fault 0).thr 8).slot = .asleep ∧
    (let s := { asleep .fault 1000000 with pageWaits := [pageWait false] };
      s.pageWaits[0]? = some (pageWait false) ∧ s.waitLimit 8 ≤ s.time - (pageWait false).since) ∧
    (let s := bonded.modCore 1 fun k => { k with link := { k.link with transit := [5], creditTransit := 1 } };
      (s.core 1).link.transit = 5 :: [] ∧ s.longest .slPop 1 = none ∧ (s.core 1).link.creditTransit ≠ 0 ∧ s.longest .slPush 1 = none) ∧
    (let s := (bonded.modMe fun t => { t with slot := .asleep, wait := some (waits .slPop) }).modCore 1 fun k => { k with link := { k.link with transit := [5] } };
      s.longest .slPop 1 = some (8 * 1 + 0, 3) ∧ (s.core 1).link.fifo = [] ∧ s.linkState 1 ≠ 0) ∧
    (let s := copying (copyLm 0 128);
      (s.core 1).copies.find 0 = some (copyLm 0 128) ∧ (copyLm 0 128).canDo 64 = true ∧ s.copyLater 1 0 (copyLm 0 128) = false ∧
        good (s.copyGranule ((copyLm 0 128).who 1 0) (copyLm 0 128) 64) (fun u => (u.core 1).copies.find 0 == some (copyLm 0 128)) = true ∧
        ((copyLm 0 128).perform 64).low < ((copyLm 0 128).perform 64).total) ∧
    (let s := start.modCore 1 fun k => { k with copies := [(0, copyLm 0 64), (1, { copyLm 0 64 with passed := 1 })] };
      s.copyLater 1 0 (copyLm 0 64) = true) ∧
    (let s := copying (copyLm 0 64);
      (copyLm 0 64).canDo 0 = true ∧ s.copyLater 1 0 (copyLm 0 64) = false ∧
        good (s.copyGranule ((copyLm 0 64).who 1 0) (copyLm 0 64) 0) (fun u => (u.core 1).copies.find 0 == some (copyLm 0 64)) = true ∧
        ((copyLm 0 64).perform 0).total ≤ ((copyLm 0 64).perform 0).low ∧ (copyLm 0 64).hasWord = false) ∧
    (let s := { copying copyFull with
        time := 10000000, regions := [(islandRegion, ⟨2 ^ 14, some 0, 5, true, false, false, [(0, ⟨(List.range 8).map fun i => (7 + i, i), false, 0⟩)]⟩)] };
      s.copyGranule (copyFull.who 1 0) copyFull 0 = .error .waits ∧ copyFull.vwait.find 0 = some 0 ∧ 0 = copyFull.low ∧ copyFull.low < copyFull.total ∧
        (s.thr 8).csr.vwaitlim.toNat ≤ s.time - 0) ∧
    (let s := start.modCore 1 fun k => { k with colls := [reduce1] };
      [((1 : Nat), (0 : Nat), reduce1)].map (fun p => (p.1, p.2.1)) = (task2 1).cores.zip (List.range (task2 1).cores.length) ∧
        (s.core 1).colls.head? = some reduce1 ∧ reduce1.agrees reduce1 = true ∧
        good (s.collRead [(1, 0, reduce1)]) (fun r => r.1.collBad ((Part.writes (1, 0, reduce1) (collResult reduce1 0 r.2)).map
          fun w => ((1, 0, reduce1), w)) == none) = true) := by
  refine ⟨by decide, by decide, by decide, by decide, by decide, ?_, by decide, ?_, by decide, ?_⟩
  · exact ⟨by decide, by decide, by decide, by decide⟩
  · exact ⟨by decide, by decide, by decide, by decide⟩
  · exact ⟨by decide, by decide, by decide, by decide⟩

/-- `tiles` with one queue entry of the first thread. -/
def queued (op : MxOp) : State := tiles.modCore 1 fun k => { k with mx := { k.mx with queue := [⟨op, 8, 0, 0⟩] } }

theorem witness_QueueEntryEvents :
    (∀ op ∈ [MxOp.tmma 1 0 0, .taccout 3 0 0 0 0, .taccadd 1 1, .tzero 0, .taccz 1, .txch 0 1 true, .tcvt 3 3],
      let s := queued op
      (s.core 1).mx.queue = ⟨op, 8, 0, 0⟩ :: [] ∧ headIsTxch (s.core (partnerOf 1)).mx.queue = false ∧
        s.badRange (s.entryRanges 1 op).1 (s.entryRanges 1 op).2 = none) ∧
    (let e : MxEntry := ⟨.txch 0 1 true, 8, 0, 0⟩;
      let s := (queued (.txch 0 1 true)).modCore (partnerOf 1) fun k => { k with mx := { k.mx with queue := [e] } };
      (s.core 1).mx.queue = e :: [] ∧ (s.core (partnerOf 1)).mx.queue = e :: [] ∧
        s.badRange (s.entryRanges (partnerOf 1) e.op).1 (s.entryRanges (partnerOf 1) e.op).2 = none) ∧
    (((tiles.core 1).mx.accd.get 1).getLsbD 0 = true ∧ ((tiles.core 1).mx.accd.get 1).getLsbD 1 = false) ∧
    (tiles.taccoutOk 3 0 0 = true ∧ (1 : Nat) = tiles.cur / 8) ∧ descOk (tiles.tdesc 1 3) = true := by decide

/-! ### The slot table, binding and migration -/

/-- The firmware core's thread with a slot-table command pending on core 2, slot 0, with these words. -/
def commanding (pending : Nat) (words : Vector Word 5) : State :=
  { State.reset with threads := State.reset.threads.set 0x7838 { Thread.service with bind := ⟨2, 0, words, true, false, pending, false⟩ } }

/-- The words of a PARKED record of gang 5. -/
def parked : Vector Word 5 := ⟨#[1, 5, 0x100, 0, 9], rfl⟩

theorem witness_SlotTableEvents :
    (∀ n ∈ [1, 2, 3, 4], (commanding n parked).tableFree = true ∧ ((commanding n parked).thr 0x7838).bind.pending = n ∧
      (((commanding n parked).thr 0x7838).bind.core.toNat < 0x800)) ∧
    (let s := { commanding 1 parked with threads := State.reset.threads.set 0x7838 { Thread.service with bind := ⟨0x800, 0, parked, true, false, 1, false⟩ } };
      s.tableFree = true ∧ ¬((s.thr 0x7838).bind.core.toNat < 0x800 ∨ 0xF00 ≤ (s.thr 0x7838).bind.core.toNat ∧
        (s.thr 0x7838).bind.core.toNat < 0xF08)) ∧
    (((commanding 2 parked).bind 16)[0].toNat % 4 = 0 ∧ parked[0].toNat % 4 = 1 ∧ ((commanding 2 parked).core 2).lastGang ≠ some 5) ∧
    (let s := (commanding 2 parked).modCore 2 fun k => { k with lastGang := some 5 }; (s.core 2).lastGang = some 5) ∧
    (let w : Vector Word 5 := ⟨#[0, 5, 0, 0, 0], rfl⟩;
      let s := { commanding 2 w with binds := State.reset.binds.set 16 parked };
      (s.bind 16)[0].toNat % 4 = 1 ∧ w[0].toNat % 4 = 0) ∧
    (let w : Vector Word 5 := ⟨#[3, 5, 0, 0, 0], rfl⟩;
      ((commanding 2 w).bind 16)[0].toNat % 4 = 0 ∧ w[0].toNat % 4 ≠ 1) ∧
    ((commanding 2 parked).thr 0x7838).bind.sawFree = false ∧
    (let s := { commanding 3 parked with binds := State.reset.binds.set 16 (parked.set 0 5) };
      s.recordsOf 5 = [16] ∧ (s.bind 16)[0].toNat % 4 = 1 ∧ (s.bind 16)[0].getLsbD 2 = true ∧ 0x7838 ∉ s.recordsOf 5 ∧ s.bad = []) ∧
    (let s := { commanding 4 (parked.set 1 1) with tasks := [(1, task2 1)], binds := State.reset.binds.set 8 (record 1 0 2) };
      s.tasks.find 1 = some (task2 1) ∧ ∃ j ∈ s.gangThreads 1, (s.bind j).st = 2) ∧
    (let s := { commanding 4 (parked.set 1 1) with binds := State.reset.binds.set 8 ((record 1 0 2).setSt 3) };
      s.gangThreads 1 ≠ [] ∧ ∀ j ∈ s.gangThreads 1, (s.bind j).st ≠ 2) := by decide

/-- A launch for one core of Tabor. -/
def taborLaunch (width : Nat) : LaunchRec := { launch2 with tabor := true, gmin := width, gmax := width }

/-- A task that waits to bind to that many cores of Tabor. -/
def taskWaiting (width : Nat) : Task := { task2 1 with state := .waiting, fresh := true, cores := [], launch := taborLaunch width }

/-- A gang bound to a core of Tabor. -/
def taskTabor : Task := { task2 0xF00 with launch := taborLaunch 1 }

/-- Page tables of one entry each, at 0x100000 (stage 2) and 0x104000 (stage 1): 64 GiB of addresses to the same ones of LPDDR6. -/
def tables : Memory := [(0x100000, 0xCF), (0x104000, 0xDF)]

/-- QIF 0 of tenant 1, enabled with those tables, PASID 0 on its allow list, a pin quota of 64 pages; queue 0 with four places for packets at 0x8000
and for records at 0xB000, and this TAIL. -/
def hub0 (tail : Nat) : SMap Word :=
  [(0x100, 0x100101), (0x108, 0x100000), (0x400, 0x4000000000), (0x410, 0x4000010000), (0x10100, 0x8000), (0x10108, 0x12), (0x10118, BitVec.ofNat 64 tail),
    (0x10120, 0xB000), (0x10128, 2), (0x11100, 0x8000000000000000), (0x11108, 0x104000)]

/-- `migrant`'s gang taken over by the Ladle. -/
def moving (k : Task) : State := { migrant with tasks := [(1, k)], mem := contextCells ++ tables, hub := hub0 0 }

/-- The migration of a gang of one core to one core of Tabor. -/
def migration1 : Migration := ⟨0x40, true, 1, 1, 1, 1, 0, 0x10000, 0, 0, 0, [], 8, 15, none⟩

/-- The gang before and after its cores are free. -/
def taskMoving (cores : List Nat) : Task :=
  { task2 1 with state := .migrating, cores := cores, savedCores := if cores.isEmpty then [1] else [], migr := some migration1 }

theorem witness_BindingEvents_bind :
    (let s := commanding 5 parked; (s.thr 0x7838).bind.pending = 5) ∧
    (let s := { State.reset with tasks := [(1, taskWaiting 1)] };
      s.boot.fatal = false ∧ s.resetting 0 = false ∧ s.mayBind 1 (taskWaiting 1) = true ∧ s.fits (taskWaiting 1) = true ∧
        s.coresOk (taskWaiting 1) [0xF00] = true ∧ s.dropWork.pagesIn 0 0 (pagesOf (taskWaiting 1).launch.leases) = .ok s.dropWork ∧
        s.dropWork.fwLoadR 0 0 0 (8 * 0) 16 = .ok (s.dropWork, []) ∧ (taskWaiting 1).launch.team ≤ 8) ∧
    (let k := { taskTabor with state := .saved, cores := [], savedCores := [0xF00] }; let s := { State.reset with tasks := [(1, k)] };
      s.mayBind 1 k = true ∧ s.fits k = true ∧ s.coresOk k [0xF00] = true ∧ s.bad = []) ∧
    (let k := { taskWaiting 1 with level := 2 }; let s := { State.reset with tasks := [(1, k)], time := 10000000 };
      k.need.isSome = true ∧ 1 < k.level ∧ (k.rises + 1) * 10000000 ≤ s.time - k.waitSince) ∧
    (let s := { State.reset with tasks := [(1, { taskTabor with level := 2 }), (2, taskWaiting 8)], time := 2000000 };
      (taskWaiting 8).need = some ⟨true, 8, 8, 0⟩ ∧ ({ taskTabor with level := 2 } : Task).onTabor = true ∧
        s.preemptable (taskWaiting 8) { taskTabor with level := 2 } = true ∧ s.fits (taskWaiting 8) = false ∧
        (∀ p ∈ s.tasks, p.2.onTabor = true → s.preemptable (taskWaiting 8) p.2 = true → p.2.level < 2 ∨ p.2.level = 2 ∧ 0 ≤ p.2.boundSince)) ∧
    (let k := { task2 1 with state := .stopping };
      let s := { start with tasks := [(1, k)], binds := (start.binds.set 8 ((record 1 0 2).setSt 1)).set 9 ((record 1 1 2).setSt 1),
                            threads := (start.threads.set 8 { user with slot := .stopped }).set 9 { user with slot := .stopped } };
      k.capture = none ∧ s.allStopped 1 = true) := by decide

/-- `moving`, with its pages in HBM of a quadrant that is not in Q-ON. -/
def movingAsleep : State :=
  { moving (taskMoving [1]) with
    mem := contextCells ++ [(0x100000, 0xCF), (0x100001, 0x08), (0x104000, 0xDF)]
    power := { Power.init with quads := Vector.replicate 4 { Quad.init with st := .ret } } }

theorem witness_BindingEvents_migrate :
    (let r := (moving (taskMoving [1])).ladleWrite (taskMoving [1]) migration1;
      r.2 = none ∧ good (r.1.pagesIn 0 0 (pagesOf launch2.leases ++ coverPages migration1.leases)) (fun v => v.tasks.find 1 == some (taskMoving [1])) = true) ∧
    (let r := movingAsleep.ladleWrite (taskMoving [1]) migration1;
      (match r.2 with
       | some f => (match r.1.fwFailed ((taskMoving [1]).job 1) .write f with | .later _ => true | .fail _ _ _ => false)
       | none => false) = true) ∧
    (let k := taskMoving []; let s := moving k; let m := migration1;
      m.wake = none ∧ m.statusw = 0 ∧ m.team ≤ 8 ∧ s.mayBind 1 k = true ∧ s.fits k = true ∧ s.coresOk k [0xF01] = true ∧
      (let k1 : Task := { k with
            launch := { k.launch with team := m.team, spmin := m.spmin, spmax := m.spmax }
            state := .bound
            cores := [0xF01]
            savedCores := []
            sstepBase := k.sstepBase + k.sstep
            sstep := 0
            bars := firstBars m.team k.launch.barn
            boundSince := s.time
            arrivals := Arrivals.init s.time 0
            migr := none
            collCounts := [] };
        let s1 := (s.over [0xF01] State.clearRecords).over [0xF01] fun s c =>
          ((((s.zeroCore c).modCore c fun k => { k with lastGang := some 1 }).openCore k1 c m.spmin m.spmax).openInbox k1.launch c).modCore c
            fun v => { v with collCount := (k.collCounts.map (·.2)).foldl max 0 };
        let r := s1.readSlots 0 0 m.image.toNat m.spmax (([0xF01].zip (countFrom 0 1)).take 1);
        r.2 = none ∧ good (r.1.fwLoadR 0 0 m.args 0 16) (fun v =>
          good (v.1.fwKey 0 0 .read (BitVec.ofNat 64 (m.image.toNat + 0x80000)) 2048 16) fun w => w.1.bad == []) = true)) := by decide +kernel

theorem witness_BindingEvents_gate :
    (32 : Nat) ∈ domainCores 1 ∧ (∀ c ∈ domainCores 1, State.reset.isService c = false) ∧ (State.reset.domain 1).powered = true ∧
    (let s := { State.reset with tasks := [(1, task2 32)] }; ∀ c ∈ (task2 32).cores, c ∈ domainCores 1) := by decide

/-! ### Packets -/

/-- Cells of bytes at offsets from an address. -/
def cellsAt (a : Nat) (l : List (Nat × Byte)) : Memory := l.map fun p => (a + p.1, p.2)

/-- The device with a packet of these bytes next in queue 0 of QIF 0, and other bytes above. -/
def packet (tail : Nat) (l : List (Nat × Byte)) (more : Memory) : State :=
  { State.reset with hub := hub0 tail, mem := cellsAt 0x8000 l ++ more ++ tables }

/-- The next packet of queue 0 is ready, and `p` holds of the machine that has started it and of its bytes. -/
def readyWith (s : State) (typ : Nat) (p : State → List Byte → Bool) : Bool :=
  s.mayStart 0 0 && good (s.readSlotBytes 0 0 (s.queue 0 0).next) fun r =>
    pkType r.2 == typ && (r.1.queue 0 0).running == [] && (r.1.allowEntry 0 (pkPasid r.2)).isSome && !pkHold r.2 && headOk r.2 && bodyOk r.2 &&
      p (startedPacket s r.1 0 0) r.2

theorem ready_exists {s : State} {typ : Nat} {p : State → List Byte → Bool} (h : readyWith s typ p = true) :
    ∃ u b, PacketReady s u 0 0 b typ ∧ p (startedPacket s u 0 0) b = true := by
  rw [readyWith, Bool.and_eq_true] at h
  obtain ⟨r, hr, hb⟩ := good_exists h.2
  simp only [Bool.and_eq_true, beq_iff_eq, Bool.not_eq_true'] at hb
  exact ⟨r.1, r.2, ⟨h.1, hr, hb.1.1.1.1.1.1, hb.1.1.1.1.1.2, hb.1.1.1.1.2, hb.1.1.1.2, hb.1.1.2, hb.1.2⟩, hb.2⟩

/-- A SIGNAL that adds 7 to the word at 0x9000, without a record. -/
theorem witness_PacketEvents_signal :
    ∃ u b, PacketReady (packet 1 [(0, 2), (9, 0x90), (16, 7), (24, 1)] [(0x9000, 5)]) u 0 0 b 2 ∧
      (good ((startedPacket (packet 1 [(0, 2), (9, 0x90), (16, 7), (24, 1)] [(0x9000, 5)]) u 0 0).signalAt 0 b 16) (fun r =>
        r.2.spans == [⟨0x9000, 8, .mem 0x9000, 0, 0⟩] && !isLm 0x9000 && !pkCrec b)) = true :=
  ready_exists (s := packet 1 [(0, 2), (9, 0x90), (16, 7), (24, 1)] [(0x9000, 5)]) (typ := 2)
    (p := fun z b => good (z.signalAt 0 b 16) fun r => r.2.spans == [⟨0x9000, 8, .mem 0x9000, 0, 0⟩] && !isLm 0x9000 && !pkCrec b) (by decide)

theorem witness_PacketEvents_waitq :
    (∃ u b, PacketReady (packet 1 [(0, 3), (9, 0x90), (16, 7)] []) u 0 0 b 3 ∧
      good ((startedPacket (packet 1 [(0, 3), (9, 0x90), (16, 7)] []) u 0 0).packetWord 0 b) (fun _ => true) = true) ∧
    (∀ opt ∈ [(0 : Byte), 1, 2],
      let b : List Byte := [3, 2] ++ List.replicate 7 0 ++ [0x90] ++ List.replicate 14 0 ++ [opt] ++ List.replicate 39 0
      let s := (packet 0 [] [(0x9000, if opt = 2 then 1 else 0)]).modQueue 0 0 fun v => { v with watch := [⟨5, b, 0, 0, []⟩] }
      s.waitqOf 0 0 = some ⟨5, b, 0, 0, []⟩ ∧ s.serves 0 = true ∧ recNum b 24 1 = opt.toNat ∧
        good (s.packetWord 0 b) (fun r => if opt = 2 then r.2 != recNum b 16 8 else r.2 == recNum b 16 8) = true) ∧
    (let b : List Byte := [3, 2] ++ List.replicate 7 0 ++ [0x90] ++ List.replicate 14 0 ++ [2] ++ List.replicate 39 0;
      let s := { (packet 0 [] []).modQueue 0 0 fun v => { v with watch := [⟨5, b, 0, 0, []⟩] } with time := 1000000000 };
      s.waitqOf 0 0 = some ⟨5, b, 0, 0, []⟩ ∧ s.serves 0 = true ∧ 1000000000 ≤ s.time - 0 ∧ recNum b 32 8 = 0 ∧ recNum b 24 1 = 2 ∧ pkCrec b = true ∧
        good (s.packetWord 0 b) (fun r => r.2 == recNum b 16 8 && (r.1.queue 0 0).pend.isEmpty && decide (2 ≤ r.1.reg (qdesc 0 0 + 0x28) % 16) &&
          good (r.1.ringKey 0 (r.1.reg (qdesc 0 0 + 0x20) + 32 * (r.1.reg (qdesc 0 0 + 0x30) % 4)) .write) (fun x => x == (0xB000, [(0x100000, 0xC0)]))) = true ∧
        isLm 0xB000 = false) := by
  refine ⟨ready_exists (s := packet 1 [(0, 3), (9, 0x90), (16, 7)] []) (typ := 3) (p := fun z b => good (z.packetWord 0 b) fun _ => true) (by decide),
    by decide, by decide⟩

/-- A CONTROL that chooses its TARGET, or the next packet. -/
theorem witness_PacketEvents_control :
    (∃ u b, PacketReady (packet 1 [(0, 4), (9, 0x90), (32, 2)] []) u 0 0 b 4 ∧ controlOk b 4 = true ∧
      good ((startedPacket (packet 1 [(0, 4), (9, 0x90), (32, 2)] []) u 0 0).packetWord 0 b) (fun r => r.2 == 0) = true) ∧
    (∃ u b, PacketReady (packet 1 [(0, 4), (9, 0x90), (32, 2)] [(0x9000, 1)]) u 0 0 b 4 ∧ controlOk b 4 = true ∧
      good ((startedPacket (packet 1 [(0, 4), (9, 0x90), (32, 2)] [(0x9000, 1)]) u 0 0).packetWord 0 b) (fun r => r.2 == 1) = true) ∧
    (∃ u b, PacketReady (packet 1 [(0, 4), (9, 0x90)] []) u 0 0 b 4 ∧ controlOk b 4 = true ∧
      good ((startedPacket (packet 1 [(0, 4), (9, 0x90)] []) u 0 0).packetWord 0 b) (fun r => r.2 == 0) = true) ∧
    (∃ u b, PacketReady ((packet 2 [(0x40, 4), (0x49, 0x90)] []).modQueue 0 0 fun v => { v with next := 1, held := [0] }) u 0 0 b 4 ∧
      controlOk b 4 = true ∧ (let z := startedPacket ((packet 2 [(0x40, 4), (0x49, 0x90)] []).modQueue 0 0 fun v => { v with next := 1, held := [0] }) u 0 0
      (z.queue 0 0).held.getLast? == some 0 && z.ahead 0 0 0 == 0 && decide (z.ahead 0 0 0 ≤ z.ahead 0 0 1)) = true) := by
  have conv : ∀ {s : State} {w : Nat}, readyWith s 4 (fun z b => controlOk b 4 && good (z.packetWord 0 b) fun r => r.2 == w) = true →
      ∃ u b, PacketReady s u 0 0 b 4 ∧ controlOk b 4 = true ∧ good ((startedPacket s u 0 0).packetWord 0 b) (fun r => r.2 == w) = true := by
    intro s w h
    obtain ⟨u, b, hr, hp⟩ := ready_exists h
    rw [Bool.and_eq_true] at hp
    exact ⟨u, b, hr, hp⟩
  obtain ⟨u, b, hr, hp⟩ := ready_exists (s := (packet 2 [(0x40, 4), (0x49, 0x90)] []).modQueue 0 0 fun v => { v with next := 1, held := [0] }) (typ := 4)
    (p := fun z b => controlOk b 4 && ((z.queue 0 0).held.getLast? == some 0 && z.ahead 0 0 0 == 0 && decide (z.ahead 0 0 0 ≤ z.ahead 0 0 1)))
    (by decide)
  rw [Bool.and_eq_true] at hp
  exact ⟨conv (by decide), conv (by decide), conv (by decide), u, b, hr, hp⟩

theorem witness_PacketEvents_capture :
    (∃ u b, PacketReady (packet 1 [(0, 5), (9, 0x90), (16, 0x40), (24, 1)] []) u 0 0 b 5 ∧
      (let z := startedPacket (packet 1 [(0, 5), (9, 0x90), (16, 0x40), (24, 1)] []) u 0 0
      z.captureOk 0 0 b && !bit (capSet b) 6 && decide (z.pinned (z.qTenant 0) + (coverPages [(recNum b 8 8, recNum b 16 8)]).length ≤
        z.pinQuota (z.qTenant 0)) && good (z.pagesIn 0 (pkPasid b) (coverPages [(recNum b 8 8, recNum b 16 8)])) fun _ => true) = true) ∧
    (∃ u b, PacketReady ((packet 1 [(0, 6)] []).modQueue 0 0 fun v => { v with capture := some 3 }) u 0 0 b 6 ∧
      (let z := startedPacket ((packet 1 [(0, 6)] []).modQueue 0 0 fun v => { v with capture := some 3 }) u 0 0
      (z.queue 0 0).capture = some 3 ∧ (∀ k, (z.quad k).isOn = true) ∧ z.captures = [])) ∧
    (let b : List Byte := [4] ++ List.replicate 63 0
      let s := { (packet 0 [] []).modQueue 0 0 fun v => { v with watch := [⟨5, b, 0, 0, []⟩] } with time := 1000000000 };
      (s.queue 0 0).watch.find? Watch.acts = some ⟨5, b, 0, 0, []⟩ ∧ pkType b = 4 ∧ s.serves 0 = true ∧ s.waitLimit (8 * 0xF07) ≤ s.time - 0) := by
  refine ⟨ready_exists (s := packet 1 [(0, 5), (9, 0x90), (16, 0x40), (24, 1)] []) (typ := 5) (p := fun z b => z.captureOk 0 0 b && !bit (capSet b) 6 &&
      decide (z.pinned (z.qTenant 0) + (coverPages [(recNum b 8 8, recNum b 16 8)]).length ≤ z.pinQuota (z.qTenant 0)) &&
      good (z.pagesIn 0 (pkPasid b) (coverPages [(recNum b 8 8, recNum b 16 8)])) fun _ => true) (by decide), ?_, by decide⟩
  obtain ⟨u, b, hr, hp⟩ := ready_exists (s := (packet 1 [(0, 6)] []).modQueue 0 0 fun v => { v with capture := some 3 }) (typ := 6)
    (p := fun z _ => (z.queue 0 0).capture == some 3 && z.power.quads == Vector.replicate 4 Quad.init && z.captures.isEmpty) (by decide)
  simp only [Bool.and_eq_true, beq_iff_eq, List.isEmpty_iff] at hp
  exact ⟨u, b, hr, hp.1.1, fun k => by rw [State.quad, hp.1.2, Vector.get_replicate]; rfl, hp.2⟩

/-- A launch record at 0x9000 and the header of its code body at 0xA000. -/
def launchCells : Memory :=
  cellsAt 0x9000 [(0, 1), (4, 1), (5, 1), (6, 1), (9, 1), (0xA, 1), (0xC, 1), (0xE, 1), (0x11, 0xA0)] ++
    cellsAt 0xA000 [(0, 0xF8), (1, 0x53), (2, 0x7E), (3, 0x0B), (4, 0xC4), (5, 0x91), (6, 0x2A), (7, 0x6D), (8, 0x80), (0x10, 0x40), (0x18, 0x40)]

/-- The launch record and header of a packet are read and pass every check. -/
def launches (z : State) (b : List Byte) : Bool :=
  (z.queue 0 0).watch.isEmpty &&
  good (z.fwLoadR 0 (pkPasid b) (pkAddr b) 256 16) fun r =>
    firstBad (r.1.recordChecks r.2) == none && recNum r.2 0x10 8 % 64 == 0 &&
    good (r.1.fwLoadR 0 (pkPasid b) (BitVec.ofNat 64 (recNum r.2 0x10 8)) 64 16) fun h =>
      headerOk h.2 (recNum r.2 0x18 8) && bodyRuns h.2 &&
      good (h.1.fwLoadR 0 (pkPasid b) (BitVec.ofNat 64 (recNum r.2 0x10 8 + recNum h.2 0x30 8)) (8 * recNum h.2 0x38 4) 16) fun t =>
        firstBad (t.1.recordLate 0 r.2) == none && !bit (recNum r.2 2 2) 1 && decide (recNum r.2 5 1 ≤ 7)

theorem witness_PacketEvents_launch :
    ∃ u b, PacketReady (packet 1 [(0, 1), (9, 0x90)] launchCells) u 0 0 b 1 ∧
      launches (startedPacket (packet 1 [(0, 1), (9, 0x90)] launchCells) u 0 0) b = true :=
  ready_exists (s := packet 1 [(0, 1), (9, 0x90)] launchCells) (typ := 1) (p := launches) (by decide)

/-! ### The host, the links, power, heat and errors -/

/-- The device with QIF 0 set up as for packets and a vector of the MSI-X table masked with its message pending. -/
def hosted : State := { State.reset with hub := hub0 0 }

theorem witness_HostWrites :
    HostOpen hosted ∧ (hosted.qEnabled 0 = true ∧ hosted.resetting 0 = false ∧ (hosted.allowEntry 0 (bits 1 16 20)).isSome = true ∧
      (hosted.queue 0 0).skipTo = none ∧ (1 + 2 ^ 16 - hosted.reg (qdesc 0 0 + 0x10)) % 2 ^ 16 ≤ 2 ^ (hosted.reg (qdesc 0 0 + 8) % 16) ∧
      (hosted.mem.num (storeKey 0x5D0000) 8 + 2 ^ 64 - hosted.mem.num (storeKey 0x5D0008) 8) % 2 ^ 64 ≠ 4096) ∧
    (State.reset.qEnabled 0 = false ∧ (∀ p ∈ State.reset.tasks, p.2.qif ≠ 0) ∧ (∀ m, m < 64 → (State.reset.queue 0 m).running = [])) ∧
    (({ hosted with qifs := [(0, { Qif.init with resetting := true })] } : State).qif 0).resetting = true ∧
    (let s := { hosted with tasks := [(1, { task2 1 with state := .debugStopped })] };
      s.tasks.find 1 = some { task2 1 with state := .debugStopped } ∧ (task2 1).debugHeld = false) ∧
    (let s := { hosted with tasks := [(1, { task2 1 with state := .debugStopped, debugHeld := true })] };
      s.tasks.find 1 = some { task2 1 with state := .debugStopped, debugHeld := true }) ∧ (hosted.ends = [] ∧ hosted.queues = [] ∧ hosted.qifs = [] ∧ hosted.captures = []) ∧ (hosted.queue 0 0).pend = [] ∧ (hosted.qif 0).pend = [] ∧
    (bits 1 24 39 = 0 ∧ (1 : Nat) % 2 ^ 24 ≠ 0) ∧ bit (hosted.reg (0x4000 + 8)) 32 = true ∧
    (let s := { hosted with hub := hosted.hub.set 0x4008 0 }; bit (s.reg (0x4000 + 8)) 32 = false) ∧
    ((hosted.domain 0).vmin < 0x10000 ∧ hosted.reg 0x1C38 ≤ (hosted.domain 0).vmin) ∧
    (let s := { hosted with hub := hosted.hub.set 0x5000 1 }; bit (s.reg 0x5000) 0 = true) := by
  refine ⟨⟨by decide, by decide⟩, by decide, ⟨by decide, by decide, by decide⟩, by decide, by decide, by decide, by decide, by decide, by decide, by decide,
    by decide, by decide, by decide, by decide⟩

/-- A flit of a type, with sequence number 0, an empty payload and its check. -/
def flitOf (typ : Byte) : List Byte :=
  let f : List Byte := typ :: List.replicate 247 0
  f ++ bytesLE 8 (crc64 f).toNat

/-- An idle flit. -/
def flit : List Byte := flitOf 0

/-- The device with port 0 up, its last accepted sequence number 4095. -/
def trained (retraining : Bool) (now : Nat) : State :=
  { State.reset with ports := [(0, { Port.init with up := true, retraining := retraining })], time := now }

theorem witness_LinkEvents :
    (State.reset.boot.alive = true ∧ State.reset.boot.fatal = false ∧ (State.reset.domain 0x81).dark = false ∧
      0x40 + 4 ≤ Config.hbmBytes ∧ State.reset.hbmDark 0x40 = false ∧ (State.reset.quad (hbmQuad 0x40)).st = .on ∧
      badPart State.reset.bad (2 ^ 52 + 0x40) 4 = none ∧ badIn State.reset.bad (2 ^ 52 + 0x40) 4 = none) ∧
    (let s := { State.reset with boot := { State.reset.boot with quote := some 0x1000 } }; s.boot.quote = some 0x1000 ∧ (0x1000 : Word).toNat < 2 ^ 52) ∧
    (∀ flash ∈ [true, false],
      let s := { State.reset with boot := { State.reset.boot with recovery := true, mailbox := 2, toFlash := flash } }
      s.boot.recovery = true ∧ s.boot.mailbox = 2 ∧ s.boot.toFlash = flash ∧ s.reg 0x80010 ≤ 2 ^ 26 ∧ s.reg 0x80008 % 4096 = 0) ∧
    ((State.reset.domain 0x82).dark = false ∧ (State.reset.port 1).up = false ∧ ((trained false 0).port 0).up = true ∧
      ((trained false 0).port 0).serial ≠ 1) ∧
    (((trained false 0).port 0).retraining = false ∧ flitOk [] = false ∧ flitOk flit = true ∧
      bits (recNum flit 0 8) 4 12 = (((trained false 0).port 0).rxSeq + 1) % 4096 ∧ ((trained false 0).port 0).waiting = [] ∧
      ((trained false 0).port 0).replay.length < 512 ∧ ∀ y ∈ [2, 3, 4, 5, 6], flitOk (flitOf y) = true ∧ recNum (flitOf y) 0 8 % 16 = y.toNat) ∧
    (let s := State.reset.setQuad (hbmQuad 0x40) { Quad.init with st := .ret }; s.hbmDark 0x40 = false ∧ (s.quad (hbmQuad 0x40)).isOn = false) ∧
    (let s := { trained false 0 with ports := [(0, { Port.init with up := true, rxSeq := 7 })] };
      bits (recNum flit 0 8) 4 12 ≠ ((s.port 0).rxSeq + 1) % 4096) ∧
    (let s := { trained false 0 with hub := [(0x418, 1)] }; s.exported 1 0x40 8 = true ∧ badPart s.bad 0x40 8 = none) ∧
    (trained false 0).exported 1 0x40 8 = false ∧ State.reset.boot.flash.good = true ∧
    ((trained true 0).port 0).retraining = true ∧ 100000000 ≤ (trained false 100000000).time - ((trained false 100000000).port 0).lastGood := by
  decide

/-- The device with quadrant 1 in a power state, at a TIME. -/
def powered (st : QuadState) (floor now : Nat) : State := { State.reset.setQuad 1 { Quad.init with st := st, floor := floor } with time := now }

theorem witness_PowerEvents_quadrants :
    (let s := powered .on 1 1000000; (s.quad 1).lost = false ∧ (s.quad 1).st.level < 1 ∧ 1 ≤ s.quadLimit 1 ∧ s.quadIdleFor 1 1000000 = true) ∧
    (let s := powered .gate 3 10000000000; (s.quad 1).st.level < 3 ∧ 3 ≤ s.quadLimit 1 ∧ s.quadIdleFor 1 10000000000 = true ∧ s.hbmNamed 1 = false) ∧
    (∀ m ∈ [1, 2, 3], let s := powered (.falling 0 m) 3 0; (s.quad 1).st = .falling 0 m ∧ m ≤ s.quadLimit 1) ∧
    (∀ m ∈ [2, 3], let s := powered (.falling 1 m) 3 0; (s.quad 1).st = .falling 1 m ∧ m ≤ s.quadLimit 1 ∧ (1 : Nat) ≠ 0) ∧
    (powered (.falling 1 3) 3 0).hbmNamed 1 = false ∧
    (let s := powered .off 1 0; s.quadLimit 1 < (s.quad 1).st.level) ∧
    (let s := powered (.rising 3 1 false) 3 0; (s.quad 1).st = .rising 3 1 false ∧ (s.quad 1).lost = false ∧ s.risen 1 3 1 = true ∧
      s.hostWaits = [] ∧ s.ends = [] ∧ s.queues = [] ∧ s.qifs = []) ∧
    (let s := (powered (.rising 3 1 false) 3 0).setDomain 33 { Domain.init with powered := false }; s.risen 1 3 1 = false) := by decide

/-- A task for one core of Cupola that waits while every quadrant is in Q-RET. -/
theorem witness_PowerEvents_bind :
    let w : Task := { taskWaiting 1 with launch := launch2 }
    let s := { State.reset with power := { Power.init with quads := Vector.replicate 4 { Quad.init with st := .ret } }, tasks := [(1, w)] }
    s.tasks.find 1 = some w ∧ w.need = some ⟨false, 1, 1, 0⟩ ∧ s.wakeLets w 1 = true ∧ (s.quad 1).st ≠ .on ∧ (s.quad 1).waking = false ∧
      (s.quad 1).lost = false := by decide +kernel

theorem witness_PowerEvents_wake :
    let w : Wake := ⟨4, 2, 0, 0, none, false⟩
    let rising (d : Domain) : State :=
      let s := { State.reset with power := { Power.init with wakes := [w], nextWake := 5 } }
      (s.setQuad 1 { Quad.init with st := .rising 2 0 true }).setDomain 33 d
    (∀ p, ((rising { Domain.init with powered := p }).power.wakes.find? fun x => x.id == 4) = some w) ∧ w.mask = 2 ^ 1 ∧
    (∀ p, ((rising { Domain.init with powered := p }).quad 1).lost = false ∧ ((rising { Domain.init with powered := p }).quad 1).st = .rising 2 0 true) ∧
    (rising { Domain.init with powered := false }).risen 1 2 0 = false ∧ (rising Domain.init).risen 1 2 0 = true ∧
    NothingWaits (rising Domain.init) ∧ (rising Domain.init).quadServed 1 = true ∧
    (let s := { State.reset with power := { Power.init with wakes := [w], nextWake := 5 } };
      4 < s.power.nextWake ∧ (s.quad 1).isOn = true ∧ (s.quad 1).awake = true ∧ ∀ p, p < 4 → bit w.mask p = true → p = 1) := by
  exact ⟨by decide, by decide, by decide, by decide, by decide, ⟨by decide, by decide, by simp [State.setDomain, State.setQuad, State.reset],
    by simp [State.setDomain, State.setQuad, State.reset], by simp [State.setDomain, State.setQuad, State.reset],
    fun j => by rw [Thread.sleeps, calm_of _ (by decide) j]; exact Bool.and_false _⟩, by decide, by decide⟩

theorem witness_PowerEvents_spill :
    (powered .on 1 1000000).spillHolds 1 = true ∧ (∀ m, (powered (.falling 0 m) 3 0).spillHolds 1 = true) ∧
    ({ powered (.falling 0 1) 3 0 with
        vspill := 0, regions := [(regionKey (keyOf 1 (2 * 48 * 2 ^ 30)) 14 0, { Region.init with hasRecord := true, spilled := true })] } : State).spillHolds 1 = false := by
  have h : (spilledEntries (powered .on 1 1000000).regions + (powered .on 1 1000000).quadEntries 1) = 0 := by decide
  have g (m : Nat) : (spilledEntries (powered (.falling 0 m) 3 0).regions + (powered (.falling 0 m) 3 0).quadEntries 1) = 0 := by
    simp [powered, State.quadEntries, State.residents, spilledEntries, State.setQuad, State.reset]
  exact ⟨by simp [State.spillHolds, h], fun m => by simp [State.spillHolds, g m], by decide⟩

theorem witness_PowerEvents_others :
    (let r : StrikeRec := ⟨1, 1, 0, false, 2, 15, 0, some (0, 0), false⟩; let s := { hosted with striker := [(0, ⟨[r], 2⟩)] };
      (s.striker.get Striker.init 0).places = r :: [] ∧ r.taken = false ∧ r.wakeq = some (0, 0) ∧ (s.queue 0 0).pend = []) ∧
    (State.reset.power.gatedTo ≤ State.reset.time ∧ State.reset.power.tnt = State.reset.taborBusy ∧
      ({ State.reset with power := { Power.init with tnt := true } } : State).power.tnt ≠
        ({ State.reset with power := { Power.init with tnt := true } } : State).taborBusy) ∧
    (let s := { State.reset with power := { Power.init with quads := Vector.replicate 4 { Quad.init with st := .gate } }, time := 50000 };
      (∀ p, p < 4 → (s.quad p).st = .gate ∨ (s.quad p).st = .off) ∧ 50000 ≤ s.time - s.power.lpddrLast) ∧
    (let s := State.reset.setCore 3 { Core.running with quiet := 40960 }; (s.core 3).cstate = .c0 ∧ 64 * 640 ≤ (s.core 3).quiet ∧
      (∀ i, i < 8 → (s.thr (8 * 3 + i)).slot = .unbound ∨ (s.thr (8 * 3 + i)).slot = .asleep)) ∧
    (let s := { State.reset with time := 100000 };
      (s.core 3).cstate = .c1 ∧ (∀ i, i < 8 → (s.bind (8 * 3 + i)).st < 2) ∧ s.isService 3 = false ∧ 100000 ≤ s.time - (s.core 3).idleSince) ∧
    (let s := State.reset.setDomain 1 { Domain.init with powered := false };
      isDomain 1 = true ∧ (s.domain 1).powered = false ∧ (s.domain 1).dark = false ∧ (s.domain 1).rampFrom = none ∧ s.power.switchQueue = [] ∧
        2 ∈ neighbours 1 ∧ (s.domain 1).waitFrom = none) ∧
    (let s := { State.reset.setDomain 1 { Domain.init with waitFrom := some 0 } with time := 5000 };
      (s.domain 1).waitFrom = some 0 ∧ 5000 ≤ s.time - 0) ∧
    (let s := { State.reset.setDomain 1 { Domain.init with rampFrom := some 0 } with time := 2000 };
      (s.domain 1).rampFrom = some 0 ∧ 2000 ≤ s.time - 0) ∧
    (let s := { State.reset with wc := [(8, 0x40, 7, 0)] }; (s.wc.filter fun e => e.2.1 / 64 == 1) = [(8, 0x40, 7, 0)] ∧ isLm 0x40 = false) := by
  decide

/-- The device with a cooling report. -/
def cooled (medium : Nat) (fallback : Bool) (good : Option Nat) (now : Nat) : State :=
  { State.reset with power := { Power.init with cooling := ⟨medium, 20, 50, fallback, good, 0, fallback⟩ }, time := now }

theorem witness_ThermalEvents :
    ((cooled 1 false none 0).power.cooling.fallback = false ∧ (cooled 1 false none 0).power.cooling.flawed = false) ∧ ((cooled 2 true none 0).power.cooling.flawed = true ∧ (cooled 2 true none 0).power.cooling.goodSince = none) ∧
    ((cooled 2 true (some 0) 10000000000).power.cooling.goodSince = some 0 ∧ 10000000000 ≤ (cooled 2 true (some 0) 10000000000).time - 0) ∧
    1000000000 ≤ (cooled 2 false none 1000000000).time - (cooled 2 false none 1000000000).power.cooling.lastReport ∧
    (State.reset.quad 0).lost = false ∧
    (let s := { State.reset with power := { Power.init with hbmTemp := [(1, 96)] } };
      95 < s.power.hbmTemp.get 0 1 ∧ s.power.hbmStep.find 1 = none) ∧
    (State.reset.power.lastChange.find 3 = none ∧ (3 : Nat) ≤ 128) ∧
    (let s := { State.reset.setCore 48 { Core.init with allow := 0 } with power := { Power.init with throttled := [3], calmSince := some 0 }, time := 1000000 };
      (∃ c ∈ clusterCores 3, (s.core c).allow = 0) ∧ (¬∃ c ∈ clusterCores 4, (s.core c).allow = 0) ∧ s.power.calmSince = some 0 ∧
        1000000 ≤ s.time - 0 ∧ 3 ∈ s.power.throttled ∧ 4 ∉ s.power.throttled) ∧
    (let s := { State.reset with power := { Power.init with want := [(3, 31)], urgent := [3] }, tasks := [(1, { task2 48 with state := .stopping })] };
      s.power.want.find 3 = some 31 ∧ 3 ∈ s.power.urgent) ∧
    (let s := { State.reset with power := { Power.init with want := [(3, 31)] } };
      s.power.want.find 3 = some 31 ∧ (∀ p ∈ s.tasks, p.2.state = .stopping → ∀ c ∈ p.2.held, clusterOf c ≠ 3)) ∧
    (∀ peer ∈ [97, 100, 104], ∀ last ∈ [none, some 3, some 6],
      let k := { task2 33 with launch := { launch2 with bridge := true } };
      let s := { State.reset with tasks := [(1, k)], slack := [(1, ⟨last, [(7, 100)], [(7, peer)]⟩)] };
      s.tasks.find 1 = some k ∧ (s.slack.get Slack.init 1).ready 7 = some (100, peer) ∧ (s.slack.get Slack.init 1).last = last ∧
        (∀ c ∈ k.held, clusterOf c ≤ 128 ∧ clusterOf c ∉ s.power.throttled) ∧ (∃ c ∈ k.held, 1 < s.ratioOf (clusterOf c))) ∧
    100 * 100 < 97 * 104 ∧ 103 * 97 < 100 * 100 ∧ (97 * 100 ≤ 100 * 100 ∧ 100 * 100 ≤ 103 * 100) ∧
    (let s := (State.reset.setCore 32 { Core.init with ratio := 31 }); s.ratioOf 2 < s.topRatio 2) := by decide

/-- A current of a logic domain and a package power above their limits on air. -/
theorem witness_ThermalEvents_limits :
    (let s := { State.reset with power := { Power.init with amps := [(0, 200)], watts := 700, cooling := ⟨1, 20, 5, false, none, 0, false⟩ } };
      s.power.cooling.fallback = false ∧ s.power.cooling.medium = 1 ∧ (180 : Rat) < s.power.amps.get 0 (logicDomain (16 * 0)) ∧
        s.power.cooling.package < s.power.watts) := by
  refine ⟨rfl, rfl, ?_, ?_⟩
  · show (180 : Rat) < 200
    norm_num
  · show (650 : Rat) < 700
    norm_num

theorem witness_ErrorEvents :
    (State.reset.power.domains.map Prod.fst).Nodup ∧
    (let s := State.reset.setDomain 1 { Domain.init with corrected := 3 };
      (s.power.domains.filter fun p => p.2.corrected != 0) = [(1, { Domain.init with corrected := 3 })]) ∧
    (let s := { State.reset with bad := [8] };
      s.patrolled 0x40 = true ∧ s.patrolOf (8 * 8) = s.patrolOf 0x40 ∧ s.power.patrol.get 0 (s.patrolOf 0x40) ≤ 8 ∧ s.bad.Nodup) ∧
    State.reset.patrolled (5 * 2 ^ 52) = false ∧
    (1000000000 ≤ ({ State.reset with time := 1000000000 } : State).time - State.reset.power.ceLast ∧
      State.reset.time - State.reset.power.ceLast < 1000000000) ∧
    (State.reset.boot.flash.good = true ∧ State.reset.boot.sum = State.reset.boot.flash.sum) ∧
    (let s := { State.reset with boot := { State.reset.boot with flash := { State.reset.boot.flash with good := false } } };
      s.boot.recovery = false ∧ s.boot.flash.good = false ∧ s.boot.alive = true) ∧
    (∀ d ∈ [1, 0x80], isDomain d = true ∧ (∀ n ∈ [0, 1, 2], let s := State.reset.setDomain d { Domain.init with failed := List.range n };
      23 ∉ (s.domain d).failed ∧ (s.domain d).dark = false ∧ (s.domain d).failed.length = n)) ∧
    ((0xFFFE : Nat) < (State.reset.domain 1).vmin ∧ (State.reset.domain 1).vmin ≤ 0xFFFF) ∧ State.reset.boot.recovery = false ∧
    State.reset.boot.alive = true := by decide

theorem witness_ErrorEvents_sleepers : ∀ j w, (State.reset.thr j).wait = some w →
    w.why ≠ .slPop ∧ w.why ≠ .slPush ∧ w.why ≠ .verLoad ∧ w.why ≠ .verStore := by
  intro j w h
  rw [calm_of State.reset (by decide) j] at h
  cases h

/-! ### Encodings and the step -/

theorem witness_RoundTrip : (Instr.migr 31 true 6).wellFormed = true ∧ (Instr.fmacExt .d .rsr 31 31 31 31).wellFormed = true := by decide

/-- `start` on the agenda with ADD x10, x11, x12 at its PC. -/
def adding : State := { start with agenda := [.thread 8], mem := [(0x100, 4), (0x101, 0x6A), (0x102, 0x31)] }

/-- It is the turn of `start`'s first thread, with its PC and memory so. -/
def turned (pc : Word) (m : Memory) : State := { start with agenda := [.thread 8], mem := m }.modThr 8 fun t => { t with pc := pc }

/-- Where no thread listed has yielded none has. -/
theorem noYield (s : State) (h : (s.threads.all fun p => !p.2.yielded) = true) : ∀ j, (s.thr j).yielded = false := by
  intro j
  rw [State.thr]
  generalize s.threads = l at h
  induction l with
  | nil => rfl
  | cons p r ih =>
    simp only [List.all_cons, Bool.and_eq_true] at h
    rw [SMap.get]
    split
    · simpa using h.1
    · exact ih h.2

theorem issuing_turned {s : State} (h : s.agenda = [.thread 8]) (h1 : (s.thr 8).slot = .active ∧ (s.thr 8).stopReq = false)
    (hy : (s.threads.all fun p => !p.2.yielded) = true) (hd : (s.thr 8).deferred = [])
    (hi : { s with agenda := [], cur := 8 }.issues (8 / 8) = true) (hp : s.pageWaits = []) : Issuing s 8 [] :=
  ⟨h, h1.1, h1.2, fun j _ => noYield s hy j, Or.inl hd, hi, fun p hm => absurd hm (by rw [hp]; exact List.not_mem_nil)⟩

theorem witness_StepRunsDecoded :
    Issuing adding 8 [] ∧ adding.bad = [] ∧
    (let u := fetching adding 8 [];
      good u.fetch (fun r => r.2.1 == 0x00316A04 && lenBytes r.2.1 == 4 && !hasLit r.2.1 && !r.1.patchSplit 4 false && r.1.bad.isEmpty) = true ∧
      decode 0x00316A04 0 0 = .instr (.add 10 11 12) ∧ (adding.thr 8).slotUnit = none ∧ (adding.thr 8).pc.toNat ∉ adding.ownSlots 8 ∧
      u.check u.meWho fetchAsk (adding.thr 8).pc 4 = .ok (onPage 0x100 4) ∧ (adding.thr 8).pc.toNat % 4 = 0 ∧ (adding.thr 8).pc.toNat < 0x7F0000000000 ∧
      (u.bytesAt (onPage 0x100 4).spans).length = 4 ∧ decodeBytes (u.bytesAt (onPage 0x100 4).spans) = some (.instr (.add 10 11 12), 4) ∧
      (u.admitPages u.meWho (onPage 0x100 4)).patchSplit 4 false = false ∧ (u.admitPages u.meWho (onPage 0x100 4)).bad = []) :=
  ⟨issuing_turned rfl (by decide) (by decide) (by decide) (by decide) rfl, by decide, by decide⟩

/-- What a fetch fails with. -/
def failsWith {α : Type} (x : Except AFault α) (c : Nat) (e : Word) : Bool :=
  match x with
  | .error (.trap k v) => k == c && v == e
  | _ => false

/-- A misaligned PC; one in the windows; one on a page with no translation; a word of 12 bytes (LEN 1) whose second word lies on such a page, or at
the windows' base; and a word of an unassigned MAJ. -/
theorem witness_DecodeRefusals :
    (∀ p ∈ [(0x102, []), (0x7F0001000000, []), (0x4000, []), (0x3FFC, [(0x3FFC, 0x19)]), (0x100, [])], Issuing (turned p.1 p.2) 8 [] ∧
      (turned p.1 p.2).bad = [] ∧ CanTrap (fetching (turned p.1 p.2) 8 [])) ∧
    failsWith (fetching (turned 0x102 []) 8 []).fetch 0x03 0x102 = true ∧ failsWith (fetching (turned 0x7F0001000000 []) 8 []).fetch 0x08 0x7F0001000000 = true ∧
    (let u := fetching (turned 0x3FFC [(0x3FFC, 0x19)]) 8 [];
      u.check u.meWho fetchAsk 0x3FFC 4 = .ok (onPage 0x3FFC 4) ∧ Claims.numOf (u.bytesAt (onPage 0x3FFC 4).spans) % 4 ≠ 0 ∧
        ((turned 0x3FFC [(0x3FFC, 0x19)]).thr 8).slotUnit = none ∧ (u.admitPages u.meWho (onPage 0x3FFC 4)).bad = [] ∧
        failsWith ((u.admitPages u.meWho (onPage 0x3FFC 4)).check u.meWho fetchAsk 0x4000 4) 0x08 0x4000 = true) ∧
    (let u := fetching (turned 0x4000 []) 8 []; failsWith (u.check u.meWho fetchAsk 0x4000 4) 0x08 0x4000 = true) ∧
    (let u := fetching (turned 0x100 []) 8 []; good u.fetch (fun r => r.2.1 == 0 && r.1.me.trap.etvecEn) = true ∧ decode 0 0 0 = .illegal 0) := by
  refine ⟨?_, by decide, by decide, by decide, by decide, by decide⟩
  intro p hp
  simp only [List.mem_cons, List.not_mem_nil, or_false] at hp
  rcases hp with rfl | rfl | rfl | rfl | rfl <;>
    exact ⟨issuing_turned rfl (by decide) (by decide) (by decide) (by decide) rfl, by decide, ⟨by decide, by decide, by decide⟩⟩

theorem witness_StepKeepsMemory :
    (turned 0x100 [(0x100, 0x04)]).mem.wf = true ∧ ∃ t, step (turned 0x100 [(0x100, 0x04)]) = .next t := by
  refine ⟨by decide, ?_⟩
  have h : (match step (turned 0x100 [(0x100, 0x04)]) with | .next _ => true | _ => false) = true := by decide
  split at h
  · exact ⟨_, ‹_›⟩
  · cases h

/-! ## Worked examples of spec/ -/

/-- The next state of an outcome has `p`. -/
def after (o : Out) (p : State → Bool) : Bool :=
  match o with
  | .next t => p t
  | _ => false

/-- spec/03, worked conversions: 0.1 to E4M3; 500 to E5M2 and to E4M3 without and with SAT. -/
theorem test_round_narrow :
    (rnd .e4m3 .rne false (Fmt.f32.decode 0x3DCCCCCD) ⟨0, 0⟩).1 = 0x1D ∧ (rnd .e4m3 .rne false (Fmt.f32.decode 0x3DCCCCCD) ⟨0, 0⟩).2.flags = 0x10 ∧
    (rnd .e5m2 .rne false (Fmt.f32.decode 0x43FA0000) ⟨0, 0⟩).1 = 0x60 ∧ (rnd .e4m3 .rne false (Fmt.f32.decode 0x43FA0000) ⟨0, 0⟩).1 = 0x7F ∧
    (rnd .e4m3 .rne true (Fmt.f32.decode 0x43FA0000) ⟨0, 0⟩).1 = 0x7E ∧ (rnd .e4m3 .rne true (Fmt.f32.decode 0x43FA0000) ⟨0, 0⟩).2.flags = 0x14 := by
  decide

/-- spec/03, worked conversions: 2.375 to E2M1 under RNE and under RSR from the generator state 1; 2.25 to E2M3 is exact. -/
theorem test_round_stochastic :
    (rnd .e2m1 .rne false (Fmt.f32.decode 0x40180000) ⟨1, 0⟩).1 = 4 ∧ (rnd .e2m1 .rsr false (Fmt.f32.decode 0x40180000) ⟨1, 0⟩).1 = 5 ∧
    (rnd .e2m1 .rsr false (Fmt.f32.decode 0x40180000) ⟨1, 0⟩).2.seed = 0x02000001 ∧
    (rnd .e2m3 .rne false (Fmt.f32.decode 0x40100000) ⟨1, 0⟩).1 = 0x11 ∧ (rnd .e2m3 .rne false (Fmt.f32.decode 0x40100000) ⟨1, 0⟩).2.flags = 0 := by
  decide

/-- spec/04, R107: the bits 4 to 7 of 0xB4, and their place. -/
theorem test_bext_bdep :
    let s := withX start [(11, 0xB4), (12, 0xF0), (13, 0xB)]
    after (exec (.bext 10 11 12) s) (fun t => t.getX 10 == 0xB) = true ∧ after (exec (.bdep 10 13 12) s) (fun t => t.getX 10 == 0xB0) = true := by
  decide

/-- spec/04, Table 4-6. -/
theorem test_divide_corners :
    let s := withX start [(5, 7), (6, -2), (7, -7), (8, 2), (9, 0x8000000000000000), (11, -1)]
    after (exec (.div 10 5 6) s) (fun t => t.getX 10 == -3) = true ∧ after (exec (.rem 10 5 6) s) (fun t => t.getX 10 == 1) = true ∧
    after (exec (.rem 10 7 8) s) (fun t => t.getX 10 == -1) = true ∧ after (exec (.div 10 9 11) s) (fun t => t.getX 10 == 0x8000000000000000) = true ∧
    after (exec (.rem 10 9 11) s) (fun t => t.getX 10 == 0) = true ∧ after (exec (.divu 10 5 0) s) (fun t => t.getX 10 == -1) = true := by
  decide

/-- spec/04: JALR to 0x10000002 traps MISALIGN there at the next boundary. -/
theorem test_jalr_misaligned :
    let s := withX start [(15, 0x10000000)]
    after (exec (.jalr 1 15 2) s) (fun t => t.getX 1 == 0x104 && after { t with agenda := [.thread 8] }.boundary fun u =>
      u.me.trap.code == 3 && u.me.trap.epc == 0x10000002 && u.me.trap.eval == 0x10000002 && u.me.pc == 0x200) = true := by decide

/-- spec/05: FCLASS of -0, of an infinity and of a NaN. -/
theorem test_fclass :
    let s := withX start [(5, 0x80000000), (6, 0x7F800000), (7, 0xFFC00001)]
    after (exec (.fclass .s 10 5) s) (fun t => t.getX 10 == 0x102) = true ∧ after (exec (.fclass .s 10 6) s) (fun t => t.getX 10 == 0x010) = true ∧
    after (exec (.fclass .s 10 7) s) (fun t => t.getX 10 == 0x001) = true := by decide

/-- spec/05: 2^24 + 1 converts to 2^24 in binary32, with NX. -/
theorem test_fcvt_ties :
    let s := withX start [(11, 16777217)]
    after (exec (.fcvt .s .l .dyn 10 11) s) (fun t => t.getX 10 == 0x4B800000 && t.me.csr.fflags == 0x10) = true := by decide

/-- spec/05: 2^0.5 in BF16 is 0x3FB5. -/
theorem test_vfexp2 :
    after (exec (.vfexp2 .bf16 1 2 0) (start.setV 2 (0x3F00#512))) (fun t => L (t.getV 1) 16 0 == 0x3FB5) = true := by decide

/-- spec/05: the tree sum of 2^24 and fifteen ones. -/
theorem test_vredsum_tree :
    let v : Vec := BitVec.ofNat 512 (0x4B800000 + ((List.range 15).map fun i => 0x3F800000 * 2 ^ (32 * (i + 1))).sum)
    after (exec (.vredsum .fp32 10 1 0) (start.setV 1 v)) (fun t => t.getX 10 == 0x4B800007 && t.me.csr.fflags == 0x10) = true := by decide

/-- Bytes of equal 16-bit codes from a key on. -/
def codes16 (key n : Nat) (lo hi : Byte) : Memory := ((List.range n).flatMap fun i => [(key + 2 * i, lo), (key + 2 * i + 1, hi)]).filter (·.2 != 0)

/-- spec/06, R163: a BF16 product of sixteen steps keeps 2^-22 beside 1. -/
theorem test_tmma_groups :
    let s := start.modCore 1 fun k => { k with mx := { k.mx with
      tdesc := (k.mx.tdesc.set 0 (512 * 15)).set 1 (512 * 15), queue := [⟨.tmma 2 0 1, 8, 0, 0⟩] } }
    let m := codes16 (tileKey 1 0 0 0) 1 0x80 0x3F ++ codes16 (tileKey 1 0 0 16) 8 0x80 0x39 ++ codes16 (tileKey 1 1 0 0) 1 0x80 0x3F ++
      codes16 (tileKey 1 1 0 16) 8 0 0x39
    after (exec (.evMqTmmaExecute 1) { s with mem := m }) (fun t => t.mem.num (accKey 1 2 0 0) 4 == 0x3F800002 && (t.core 1).mx.mxstat == 0) = true := by
  decide

/-- spec/06, R183: 6.5 x 0.5 into MXFP4 is 0x5 under the block scale 0x7F and 0x7 under 0x7E, with NX. -/
theorem test_taccout_scaled :
    let s (b : Byte) := { start with mem := [(scaleKey 1 3 0, b)] }
    let out (b : Byte) := rndTile 11 .rne false (descale (Fmt.f32.decode (mround (fMul (Fmt.f32.decode 0x40D00000) (Fmt.f32.decode 0x3F000000)) ⟨⟨0, 0⟩, false⟩).1)
      ((s b).blockScale 1 3 0 0 11)) ⟨⟨0, 0⟩, false⟩
    (out 0x7F).1 = 5 ∧ (out 0x7F).2.f.flags = 0x10 ∧ (out 0x7E).1 = 7 ∧ (out 0x7E).2.f.flags = 0x10 := by decide

/-- spec/08: the window address of v5 of slot 3 on core 293; a store to it traps ACCESS while that slot runs. -/
theorem test_window_address :
    winCore 0x7F0125130D40 = 293 ∧ winOff 0x7F0125130D40 = 0x130000 + 3 * 1024 + 5 * 64 ∧ winLoc 293 (winOff 0x7F0125130D40) = .win 293 0x130D40 ∧
    (let s := withX { start with threads := start.threads.set (8 * 293 + 3) user, cores := start.cores.set 293 core1 } [(5, 0x7F0125130D40)];
      after (exec (.sd 0 5 0 .rlx) (s.modMe fun t => { t with space := { t.space with wkey := 7 } })) (fun t => t.me.trap.code == 8) = true) := by decide

/-- spec/10: versions 3 and 4 of a granule, the floor raised to 10. -/
theorem test_version_floor :
    let s := withX versions [(6, 10), (7, 4), (8, 12), (9, 3), (11, 7)]
    let s := { s with regions := [(islandRegion, ⟨2 ^ 14, some 0, 0, true, false, false, [(0, ⟨[(3, 0), (4, 1)], false, 0⟩)]⟩)] }
    after (exec (.verfloor 10 5 6 .rlx) s) (fun t => t.getX 10 == 0 && (t.gran granule).vers == [(4, 1)] &&
      after (exec (.verld 1 5 9 .rlx) t) (fun u => u.me.trap.code == 0x10) && after (exec (.verldle 1 5 8 .rlx) t) (fun u => u.getX 8 == 4) &&
      after (exec (.verld 1 5 8 .rlx) t) (fun u => u.me.slot == .asleep) && after (exec (.verst 1 5 11 .rlx) t) (fun u => u.me.trap.code == 0x12) &&
      after (exec (.verst 1 5 6 .rlx) t) fun u => (u.gran granule).vers == [(10, 0)]) = true := by decide

/-- spec/11: the tree of a collective with three ranks. -/
theorem test_collective_tree :
    let c := { reduce1 with len := 1 }
    collResult c 0 [bytesLE 4 0x4B800000, bytesLE 4 0x3F800000, bytesLE 4 0x3F800000] = some (bytesLE 4 0x4B800000) ∧
    collResult c 0 [bytesLE 4 0x3F800000, bytesLE 4 0x3F800000, bytesLE 4 0x4B800000] = some (bytesLE 4 0x4B800001) := by decide

/-- spec/14: a STRIKE of 93 against 80, the tenant's record number 5, with the quadrants in retention. -/
theorem test_strike_wakes :
    let s := (withX start [(11, 93)]).modMe fun t => { t with csr := { t.csr with thresh := 80 } }
    let s := { s with striker := [(0, ⟨[], 5⟩)], power := { s.power with quads := Vector.replicate 4 { Quad.init with st := .ret } } }
    after (exec (.strike 10 11) s) (fun t => t.getX 10 == 0x0000000500000003) = true := by decide

/-- spec/16: domains of the cores 293 and 37; 95.5 degrees under the cold-plate table. -/
theorem test_domain_and_allowance :
    logicDomain 293 = 9 ∧ partnerOf 293 = 37 ∧ logicDomain 37 = 1 ∧
    after (exec (.evTallowUpdate 2 1528) (cooled 2 false none 0)) (fun t => (t.core 33).allow == 486 && (t.core 33).tj == 0x5F8) = true := by decide

/-- spec/19, R427: the walk of 0x20001234 under two stages reads LPDDR6 at 0x1200001234. -/
theorem test_two_stage_walk :
    let e (a v : Nat) : Memory := (List.range 8).map fun i => (a + i, BitVec.ofNat 8 (v / 256 ^ i))
    let leaf (n : Nat) : Nat := 0x1200000000 + n
    let z := e 0x100000 0x104001 ++ e 0x104020 0x12000000C7 ++ e (leaf 0x4000) 0x8008001 ++ e (leaf 0x8080) 0x800C001 ++ e (leaf 0xC000) 0x80000D7
    let s := { start with hub := [(0x108, 0x100000)], mem := z.filter (·.2 != 0) }
    (s.walkTwo ⟨8, true, ⟨0, false, 0x8004000 / 2 ^ 14, 0x123, 0⟩, none⟩ 0x20001234 .read).map (fun r => r.1.pa + 0x1234) =
      .ok 0x1200001234 := by decide

/-- spec/19, R440: the record of a notify of queue 2 of QIF 5. -/
theorem test_notify_record :
    let s := { State.reset with hub := [(0x100 + 64 * 5, 0x100001), (qdesc 5 2 + 8, 0x13), (qpage 5 + 0x1100, 0x8000000000000123)] }
    after (exec (.evQueueNotify 5 16 0x01230007) s) (fun t => t.mem.num (storeKey 0x5C0000) 8 == 0x0000142001230007 &&
      t.reg (qdesc 5 2 + 0x18) == 7) = true := by decide

/-- spec/15: the header of a LAUNCH with BAR and CREC. -/
theorem test_packet_header :
    let b := bytesLE 8 0x0007000001230301 ++ List.replicate 56 0
    pkType b = 1 ∧ pkPasid b = 0x123 ∧ pkTag b = 7 ∧ pkBar b = true ∧ pkCrec b = true ∧ pkHold b = false := by decide

/-- spec/16, R394: domain 9 waits for domain 1 for 5 us, then ramps while domain 1 is stretched, and is powered 2 us later. -/
theorem test_switch_on :
    let s := (State.reset.setDomain 9 { Domain.init with powered := false }).setDomain 1 { Domain.init with heavy := true }
    after (exec (.evDomainSwitchOn 9 [1]) { s with time := 500000 }) (fun t => (t.domain 9).waitFrom == some 500000 &&
      after (exec (.evSwitchOnNeighbourTimeout 9) { t with time := 505000 }) fun u => (u.domain 1).stretchTo == 507500 &&
        after (exec (.evSwitchOnRampComplete 9) { u with time := 507000 }) fun v => (v.domain 9).powered) = true := by decide

/-- spec/13, Table 13-7: a barrier fires with the last arrival, and every waiter wakes. -/
theorem test_barrier_fires :
    after (exec (.barw 0) (atBarrier 0)) (fun t => (t.barrier 1 1 0).c == 0 && (t.barrier 1 1 0).g && (t.thr 9).slot == .active &&
      !(t.thr 9).status.apb && (t.tasks.find 1).any fun k => k.sstep == 1) = true := by decide

/-- spec/11, R273 and R211: AMOADD.W on the last word of a page's first 64 bytes, and one that is misaligned. -/
theorem test_amoadd :
    let s := { withX start [(5, 0x3C), (6, 0x3E), (11, 1)] with mem := [(0x3C, 0xFF), (0x3D, 0xFF), (0x3E, 0xFF), (0x3F, 0xFF)] }
    after (exec (.amoadd 10 5 11 false .rlx) s) (fun t => t.getX 10 == -1 && t.mem.num 0x3C 8 == 0) = true ∧
    after (exec (.amoadd 10 6 11 false .rlx) s) (fun t => t.me.trap.code == 3 && t.me.trap.eval == 0x3E) = true := by decide

/-- R467 and R469: SCALL enters the handler, and ERET comes back. -/
theorem test_scall_eret :
    after (exec .scall start) (fun t => t.me.pc == 0x200 && t.me.trap.code == 0x30 && t.me.status.priv &&
      after (exec .eret t) fun u => u.me.pc == 0x100 && !u.me.status.priv && !u.me.trap.trapped) = true := by decide

/-- R18 and R240: a warm start keeps the island store and the version block, and no other region. -/
theorem test_warm_start :
    let s := { State.reset with
      mem := [(storeKey 5, 9)], regions := [(islandRegion, { Region.init with size := 2 ^ 14, floor := 3 }), (regionKey (keyOf 0 0) 14 1, Region.init)] }
    after (exec (.evWarmStart 0) s) (fun t => t.regions.length == 1 && (t.region islandRegion).floor == 3 && t.mem.get (storeKey 5) == 9) = true := by
  decide

/-- The step runs the word that withFetchWord places, as the first instruction after reset: LI a0, #511. -/
theorem test_first_instruction :
    after (step (State.reset.withFetchWord 32 0x07FC0A18)) (fun t => t.getX 10 == 0x1FF && t.me.csr.instret == 1) = true := by decide

/-! ## Litmus tables (spec/09, Tables 9-7 and 9-8; spec/10, Table 10-9)

T0 to T3 are slot 0 of cores 0, 16, 32 and 48, on different clusters of Cupola; T0 and core 1 share a cluster. Locations 0 and 100
stand for x and y, 200 for buf, 300 for a completion word, 400 and 500 for g and h at version 1. -/

/-- A store of 1 on the LS path. -/
def litW (t pos : Nat) (os : Os) (loc : Nat) (v : Nat := 1) : Event := .plain t pos .store os loc [] [v]

/-- A load on the LS path. -/
def litR (t pos : Nat) (os : Os) (loc : Nat) (v : Nat) : Event := .plain t pos .load os loc [v] []

/-- A tile load of buf. -/
def litT (t pos : Nat) (v : Nat) : Event := { litR t pos .rlx 200 v with path := .mx }

/-- Two threads that each do two accesses: the message-passing outcome a0 = 1, a1 = 0. -/
def litMp (t1 : Nat) (rel acq : Os) (f : List Fence) : Execution :=
  .of [litW 0 0 .rlx 0, litW 0 2 rel 100, litR t1 0 acq 100 1, litR t1 2 .rlx 0 0] f [(100, 2, some 1), (0, 3, none)] [(0, [0]), (100, [1])]

/-- The store-buffering outcome a0 = 0, a1 = 0. -/
def litSb (rel acq : Os) (f : List Fence) : Execution :=
  .of [litW 0 0 rel 0, litR 0 2 acq 100 0, litW 128 0 rel 100, litR 128 2 acq 0 0] f [(100, 1, none), (0, 3, none)] [(0, [0]), (100, [2])]

/-- A fence on the LS path between two accesses. -/
def litF (t : Nat) (k : FenceKind) (sc : Scope) : Fence := ⟨.bound t, 1, k, sc, [.ls], []⟩

theorem test_litmus_mp : (litMp 128 .rlx .rlx []).allowed = true := by decide
theorem test_litmus_mp_relacq : (litMp 128 (.rel .dv) (.acq .dv) []).allowed = false := by decide
theorem test_litmus_mp_fences : (litMp 128 .rlx .rlx [litF 0 .rel .dv, litF 128 .acq .dv]).allowed = false := by decide
theorem test_litmus_mp_tm : (litMp 128 (.rel .tm) (.acq .tm) []).allowed = true := by decide
theorem test_litmus_mp_cl : (litMp 8 (.rel .cl) (.acq .cl) []).allowed = false ∧ (litMp 128 (.rel .cl) (.acq .cl) []).allowed = true := by decide
theorem test_litmus_sb : (litSb .rlx .rlx []).allowed = true ∧ (litSb (.rel .dv) (.acq .dv) []).allowed = true := by decide
theorem test_litmus_sb_sc : (litSb .rlx .rlx [litF 0 .sc .dv, litF 128 .sc .dv]).allowed = false := by decide
theorem test_litmus_sb_one : (litSb .rlx .rlx [litF 0 .sc .dv]).allowed = true ∧ (litSb .rlx .rlx [litF 0 .sc .tm, litF 128 .sc .tm]).allowed = true := by decide

theorem test_litmus_sb_swaps :
    (Execution.of [.plain 0 0 .rmw (.ar .dv) 0 [0] [1], litR 0 2 .rlx 100 0, .plain 128 0 .rmw (.ar .dv) 100 [0] [1], litR 128 2 .rlx 0 0] []
      [(0, 0, none), (100, 1, none), (100, 2, none), (0, 3, none)] [(0, [0]), (100, [2])]).allowed = false := by decide

theorem test_litmus_lb :
    (Execution.of [litR 0 0 .rlx 0 1, litW 0 1 .rlx 100, litR 128 0 .rlx 100 1, litW 128 1 .rlx 0] []
      [(0, 0, some 3), (100, 2, some 1)] [(0, [3]), (100, [1])]).allowed = false := by decide

theorem test_litmus_corr :
    (Execution.of [litW 0 0 .rlx 0 1, litW 0 1 .rlx 0 2, litR 128 0 .rlx 0 2, litR 128 1 .rlx 0 1] []
      [(0, 2, some 1), (0, 3, some 0)] [(0, [0, 1])]).allowed = false ∧
    (Execution.of [litW 0 0 .rlx 0 1, litW 0 1 .rlx 0 2, litR 128 0 .rlx 0 1, litR 128 1 .rlx 0 2] []
      [(0, 2, some 0), (0, 3, some 1)] [(0, [0, 1])]).allowed = true := by decide

/-- Write-to-read causality, a0 = 1, a1 = 1, a2 = 0. -/
def litWrc (rel : Os) : Execution :=
  .of [litW 0 0 .rlx 0, litR 128 0 .rlx 0 1, litW 128 1 rel 100, litR 256 0 (.acq .dv) 100 1, litR 256 1 .rlx 0 0] []
    [(0, 1, some 0), (100, 3, some 2), (0, 4, none)] [(0, [0]), (100, [2])]

theorem test_litmus_wrc : (litWrc (.rel .dv)).allowed = false ∧ (litWrc (.rel .tm)).allowed = true := by decide

/-- Independent reads of independent writes. -/
def litIriw (acq : Os) : Execution :=
  .of [litW 0 0 .rlx 0, litW 128 0 .rlx 100, litR 256 0 acq 0 1, litR 256 1 acq 100 0, litR 384 0 acq 100 1, litR 384 1 acq 0 0] []
    [(0, 2, some 0), (100, 3, none), (100, 4, some 1), (0, 5, none)] [(0, [0]), (100, [1])]

theorem test_litmus_iriw : (litIriw (.acq .dv)).allowed = false ∧ (litIriw .rlx).allowed = true := by decide

/-- An own vector store under a tile load that sees the old granule. -/
def litOwnTile (f : List Fence) : Execution := .of [litW 0 0 .rlx 200, litT 0 2 0] f [(200, 1, none)] [(200, [0])]

theorem test_litmus_own_tile : (litOwnTile []).allowed = true ∧ (litOwnTile [⟨.bound 0, 1, .ar, .dv, [.ls, .mx], []⟩]).allowed = false := by decide

/-- Message passing into a tile load. -/
def litCross (f : List Fence) : Execution :=
  .of [litW 0 0 .rlx 200, litW 0 1 (.rel .dv) 100, litR 128 0 (.acq .dv) 100 1, litT 128 2 0] f [(100, 2, some 1), (200, 3, none)] [(200, [0]), (100, [1])]

theorem test_litmus_cross : (litCross []).allowed = true ∧ (litCross [⟨.bound 128, 1, .acq, .dv, [.ls, .mx], []⟩]).allowed = false := by decide

/-- A copy of T0 into buf whose completion another thread reads before its tile load of the old granule. -/
def litCopy (t : Nat) (acq : Os) : Execution :=
  { Execution.of [{ litR 0 0 .rlx 600 1 with path := .ce, command := some 1 }, { litW 0 0 .rlx 200 with path := .ce, command := some 1 },
      { litW 0 0 .rlx 300 7 with path := .ce, command := some 1, role := .completion }, litR t 1 acq 300 7, litT t 2 0] []
    [(600, 0, none), (300, 3, some 2), (200, 4, none)] [(200, [1]), (300, [2])] with initial := [(600, 1)] }

theorem test_litmus_copy : (litCopy 128 (.acq .dv)).allowed = false ∧ (litCopy 0 (.acq .dv)).allowed = false ∧ (litCopy 128 .rlx).allowed = true := by decide

/-- The bytes below a handback's resume offset, read old by a handler, or by another thread. -/
def litHandback (t : Nat) : Execution :=
  { Execution.of [{ litW 0 0 .rlx 200 with path := .ce, command := some 1 }, litR t 2 .rlx 200 0] [] [(200, 1, none)] [(200, [0])] with
    handbacks := [⟨.thread 0, 1, 1, 0x200, none⟩] }

theorem test_litmus_handback : (litHandback 0).allowed = false ∧ (litHandback 128).allowed = true := by decide

/-- A bridge send behind a store, received by the partner, who reads the old data. -/
def litBridge (f : List Fence) : Execution :=
  .of [litW 0 0 .rlx 200, { litW 0 2 .rlx 700 with path := .ni, toBridge := true },
      { Event.plain 0 0 .rmw .rlx 700 [1] [0] with post := .outside 0, path := .ni }, { litR 0 2 .rlx 200 0 with post := .outside 0 }]
    (⟨.outside 0, 1, .acq, .sy, [.ni, .ls], []⟩ :: f) [(700, 2, some 1), (200, 3, none)] [(200, [0]), (700, [1, 2])]

theorem test_litmus_bridge : (litBridge [⟨.bound 0, 1, .rel, .sy, [.ls], []⟩]).allowed = false ∧ (litBridge []).allowed = true := by decide

/-- A doorbell on a device-ordered page; the device behind it reads the buffer after it. -/
def litDoorbell (f : List Fence) : Execution :=
  .of [litW 0 0 .rlx 200, { litW 0 2 .rlx 700 with deviceOrdered := true }, { litR 0 0 (.acq .sy) 700 1 with post := .outside 0 },
      { litR 0 1 .rlx 200 0 with post := .outside 0 }] f [(700, 2, some 1), (200, 3, none)] [(200, [0]), (700, [1])]

theorem test_litmus_doorbell : (litDoorbell [⟨.bound 0, 1, .rel, .sy, [.ls], []⟩]).allowed = false ∧ (litDoorbell []).allowed = true := by decide

/-- The contents of a patch slot at 800 after the `PSTORE`, as one unit. -/
def litSlot : List Nat := [1, 0, 0, 0, 0, 0, 0, 0]

/-- A patch announced by a flag that the fetching thread reads as an acquire; `src` is what it then executes. -/
def litPatch (syncs : List (Party × Nat)) (src : Option Nat) (got : List Nat) : Execution :=
  { Execution.of [{ litW 0 0 .rlx 800 with len := 8, put := litSlot }, litW 0 2 (.rel .dv) 100, litR 128 0 (.acq .dv) 100 1]
      [⟨.bound 0, 1, .rel, .sy, [.ls], []⟩] [(100, 2, some 1)]
      ((100, [1]) :: (countFrom 800 8).map fun a => (a, [0])) with
    fetches := [⟨.thread 128, 2, 800, src, got⟩], syncs := syncs }

/-- Old contents after the IFENCE, without it; new contents; half of each. -/
theorem test_litmus_patch :
    (litPatch [(.thread 128, 1)] none (List.replicate 8 0)).allowed = false ∧ (litPatch [] none (List.replicate 8 0)).allowed = true ∧
    (litPatch [(.thread 128, 1)] (some 0) litSlot).allowed = true ∧ (litPatch [] (some 0) (List.replicate 8 0)).allowed = false := by decide

/-- A granule written whole and read with one byte old, one new. -/
theorem test_litmus_torn :
    (Execution.of [{ litW 0 0 .rlx 0 with len := 2, put := [1, 1] }, { litR 128 0 .rlx 0 1 with path := .mx, len := 2, got := [1, 0] }] []
      [(0, 1, some 0), (1, 1, none)] [(0, [0]), (1, [0])]).allowed = false := by decide

/-- Version 1 of h at 500 is read, version 1 of g at 400 is found absent. -/
def litVersions (rel acq : Os) : Execution :=
  .of [{ litW 0 0 .rlx 400 with role := .create }, { litW 0 1 rel 500 with role := .create }, { litR 128 0 acq 500 1 with role := .fetchVersion },
      litR 128 1 .rlx 400 0] [] [(500, 2, some 1), (400, 3, none)] [(400, [0]), (500, [1])]

theorem test_litmus_versions : (litVersions (.rel .dv) (.acq .dv)).allowed = false ∧ (litVersions .rlx .rlx).allowed = true := by decide

/-- Racing creators both retire, unless a VERDROP lies between them; a load of a version that returns before it exists. -/
theorem test_litmus_creators :
    (Execution.of [{ litW 0 0 .rlx 400 with role := .create }, { litW 128 0 .rlx 400 2 with role := .create }] [] [] [(400, [0, 1])]).allowed = false ∧
    (Execution.of [{ litW 0 0 .rlx 400 with role := .create }, { litW 128 0 .rlx 400 2 with role := .create },
      { litW 0 1 .rlx 400 0 with role := .reclaim true }] [] [] [(400, [0, 2, 1])]).allowed = true ∧
    (Execution.of [{ litW 0 0 .rlx 400 with role := .create }, { litR 128 0 .rlx 400 0 with role := .fetchVersion }] []
      [(400, 1, none)] [(400, [0])]).allowed = false := by decide

/-- spec/12, R295: store buffering with both threads stopped and rebound between their accesses, one of them to another cluster. -/
theorem test_litmus_rebound :
    (Execution.of [litW 0 0 .rlx 0, { litR 0 2 .rlx 100 0 with post := ⟨.thread 0, 512⟩ }, litW 128 0 .rlx 100, litR 128 2 .rlx 0 0]
      [.stop (.bound 0) 1 [], .stop (.bound 128) 1 []] [(100, 1, none), (0, 3, none)] [(0, [0]), (100, [2])]).allowed = false := by decide

/-- Table 9-1: an instruction's path, access and suffix. -/
theorem test_event_paths :
    accessesOf (.amoadd 1 2 3 true (.ar .dv)) = [(.ls, .rmw, .ar .dv)] ∧ accessesOf (.mpoll 1) = [(.ni, .load, .rlx)] ∧
    accessesOf (.tzero 1) = [(.mx, .store, .rlx)] := by decide

/-- spec/16, R386: a record for a full ring keeps its Striker place; CHEAD moves on and it is written, and the place frees. -/
theorem test_striker_place :
    let r : StrikeRec := ⟨1, 1, 0, false, 2, 15, 0, some (0, 0), false⟩
    let s := { State.reset with hub := [(0x108, 0x100000), (qdesc 0 0 + 0x28, 2), (qdesc 0 0 + 0x30, 4)], striker := [(0, ⟨[r], 2⟩)] }
    after (exec (.evStrikerRecordDelivery 0) s) (fun t => (t.striker.get Striker.init 0).places == [{ r with taken := true }] &&
      (t.queue 0 0).pend.length == 1) = true := by decide

/-! ## fzas (spec/02) -/

/-- spec/03, R77: the packing example of E2M3; spec/02, R506: 7.5 is no FP4 value, 6.5 is emitted as 6.0. -/
theorem test_fzas_elements :
    packElems 6 [0x08, 0x24, 0x1F, 0x01] = [0x08, 0xF9, 0x05] ∧
    allOrNone (FzElem.encode (.float .e2m3)) [.decimal false 1 0, .decimal true 5 1, .decimal false 75 1, .decimal false 125 3] =
      some [0x08, 0x24, 0x1F, 0x01] ∧
    FzElem.encode (.float .e2m1) (.decimal false 75 1) = none ∧ FzElem.encode (.float .e2m1) (.decimal false 65 1) = some 7 ∧
    FzElem.encode .mxint8 (.decimal false 1984375 6) = some 127 ∧ FzElem.encode .mxint8 (.decimal false 2 0) = none ∧ FzElem.encode .mxint8 (.decimal false 199 2) = none := by decide

/-- spec/02, R63: division corners, shifts, and the window address of Table 2-10. -/
theorem test_fzas_expressions :
    (FzExpr.bin .div (.num (2 ^ 63)) (.neg (.num 1))).eval [] 0 = some (2 ^ 63) ∧
    (FzExpr.bin .rem (.num (2 ^ 63)) (.neg (.num 1))).eval [] 0 = some 0 ∧ (FzExpr.bin .shl (.num 1) (.num 64)).eval [] 0 = none ∧
    (FzExpr.bin .shr (.neg (.num 8)) (.num 1)).eval [] 0 = some (-4) ∧
    (FzExpr.win (.num 293) (.num 0x100000)).eval [] 0 = some 0x7F0125100000 ∧ (FzExpr.win (.num 0x800) (.num 0)).eval [] 0 = none := by decide

/-- spec/02: NOP is 0x00000008, the LI of 0x123456789ABCDEF0 takes the literal. -/
theorem test_fzas_words :
    fzWords fzNop = [8, 0, 0, 0] ∧ fzShortest (.li 10 0) 0x123456789ABCDEF0 = some (.liLit 10 0x123456789ABCDEF0) ∧
    fzShortest (.li 10 0) 0x1FF = some (.li 10 0x1FF) ∧ fzShortest (.slli 1 1 0) 64 = none ∧
    fzShortest fzJ 0x200000 = some (.jalExt 0 0x200000) ∧ fzShortest fzJ (2 ^ 47) = none ∧
    fzWords (.liLit 10 0x123456789ABCDEF0) = [0x19, 0x0A, 0, 0, 0xF0, 0xDE, 0xBC, 0x9A, 0x78, 0x56, 0x34, 0x12] := by decide

/-- spec/02, R69: one region of 32 KiB reached through entry 1; sizes and names refused. -/
theorem test_fzas_regions :
    fzVers ["a", "r"] [("r", 0x8000)] [] = some [0x20001] ∧ fzVers ["a", "r"] [("r", 0x8000), ("r", 0x8000)] [] = none ∧
    fzVers ["a"] [("r", 0x8000)] [] = none ∧ fzVers ["r"] [("r", 100)] [] = none := by decide

/-- spec/02: the kernel head of the worked example, with a branch to a label, assembles; a .team outside a kernel does not. -/
theorem test_fzas_kernel :
    (fzAssemble 7 [.kernel "scale_rows", .team 1, .gang none, .args ["src_base", "nrows"], .instrOf (.ldk 10 0) (.sym "src_base"),
      .instrOf (.ldk 11 0) (.sym "nrows"), .label "l", .instrOf (.ldk 12 0) (.sym "ID_GRANK"), .instrOf (fzBnez 12) (.sym "l"), .instr .threadDone,
      .kernelend]).map (fun o => o.kernels.map fun k => k.2.drop 64) =
      some [fzWords (.ldk 10 0) ++ fzWords (.ldk 11 1) ++ fzWords (.ldk 12 241) ++ fzWords (.bne 12 0 (-1)) ++ fzWords .threadDone ++ [0, 0, 0, 0]] ∧
    fzAssemble 7 [.team 1] = none := by decide

end Sys2Proof.Tests
end

section
/-!
PROOFS. Encoder and decoder (spec/02). From an instruction to its words and back: the lemmas of Laws/PerInstr brought together, and
the words laid out as bytes (O55, O58).
-/
namespace Sys2Proof.Proofs.Encoding
open Sys2Proof.Laws

/-- The words of every well-formed instruction fit and decode to it; an event is not well formed. -/
theorem roundTrip_statement (i : Instr) : RoundTrip.Statement i := by
  cases i with
  | add => exact RoundTrip.add _ _ _ | sub => exact RoundTrip.sub _ _ _ | and => exact RoundTrip.and _ _ _
  | or => exact RoundTrip.or _ _ _ | xor => exact RoundTrip.xor _ _ _ | andn => exact RoundTrip.andn _ _ _
  | orn => exact RoundTrip.orn _ _ _ | xnor => exact RoundTrip.xnor _ _ _ | sll => exact RoundTrip.sll _ _ _
  | srl => exact RoundTrip.srl _ _ _ | sra => exact RoundTrip.sra _ _ _ | rol => exact RoundTrip.rol _ _ _
  | ror => exact RoundTrip.ror _ _ _ | slt => exact RoundTrip.slt _ _ _ | sltu => exact RoundTrip.sltu _ _ _
  | min => exact RoundTrip.min _ _ _ | max => exact RoundTrip.max _ _ _ | minu => exact RoundTrip.minu _ _ _
  | maxu => exact RoundTrip.maxu _ _ _ | addw => exact RoundTrip.addw _ _ _ | subw => exact RoundTrip.subw _ _ _
  | addLit => exact RoundTrip.addLit _ _ _ | subLit => exact RoundTrip.subLit _ _ _ | andLit => exact RoundTrip.andLit _ _ _
  | orLit => exact RoundTrip.orLit _ _ _ | xorLit => exact RoundTrip.xorLit _ _ _ | andnLit => exact RoundTrip.andnLit _ _ _
  | ornLit => exact RoundTrip.ornLit _ _ _ | xnorLit => exact RoundTrip.xnorLit _ _ _ | sllLit => exact RoundTrip.sllLit _ _ _
  | srlLit => exact RoundTrip.srlLit _ _ _ | sraLit => exact RoundTrip.sraLit _ _ _ | rolLit => exact RoundTrip.rolLit _ _ _
  | rorLit => exact RoundTrip.rorLit _ _ _ | sltLit => exact RoundTrip.sltLit _ _ _ | sltuLit => exact RoundTrip.sltuLit _ _ _
  | minLit => exact RoundTrip.minLit _ _ _ | maxLit => exact RoundTrip.maxLit _ _ _ | minuLit => exact RoundTrip.minuLit _ _ _
  | maxuLit => exact RoundTrip.maxuLit _ _ _ | addwLit => exact RoundTrip.addwLit _ _ _ | subwLit => exact RoundTrip.subwLit _ _ _
  | addi => exact RoundTrip.addi _ _ _ | andi => exact RoundTrip.andi _ _ _ | ori => exact RoundTrip.ori _ _ _
  | xori => exact RoundTrip.xori _ _ _ | slli => exact RoundTrip.slli _ _ _ | srli => exact RoundTrip.srli _ _ _
  | srai => exact RoundTrip.srai _ _ _ | slti => exact RoundTrip.slti _ _ _ | sltiu => exact RoundTrip.sltiu _ _ _
  | addwi => exact RoundTrip.addwi _ _ _ | addiLit => exact RoundTrip.addiLit _ _ _ | andiLit => exact RoundTrip.andiLit _ _ _
  | oriLit => exact RoundTrip.oriLit _ _ _ | xoriLit => exact RoundTrip.xoriLit _ _ _ | sltiLit => exact RoundTrip.sltiLit _ _ _
  | sltiuLit => exact RoundTrip.sltiuLit _ _ _ | addwiLit => exact RoundTrip.addwiLit _ _ _ | ldk => exact RoundTrip.ldk _ _
  | addk => exact RoundTrip.addk _ _ _ | mul => exact RoundTrip.mul _ _ _ | mulh => exact RoundTrip.mulh _ _ _
  | mulhu => exact RoundTrip.mulhu _ _ _ | mulhmx => exact RoundTrip.mulhmx _ _ _ | div => exact RoundTrip.div _ _ _
  | divu => exact RoundTrip.divu _ _ _ | rem => exact RoundTrip.rem _ _ _ | remu => exact RoundTrip.remu _ _ _
  | clz => exact RoundTrip.clz _ _ | ctz => exact RoundTrip.ctz _ _ | popc => exact RoundTrip.popc _ _
  | brev => exact RoundTrip.brev _ _ | bswap => exact RoundTrip.bswap _ _ | sextb => exact RoundTrip.sextb _ _
  | sexth => exact RoundTrip.sexth _ _ | zexth => exact RoundTrip.zexth _ _ | zextw => exact RoundTrip.zextw _ _
  | bext => exact RoundTrip.bext _ _ _ | bdep => exact RoundTrip.bdep _ _ _ | bextLit => exact RoundTrip.bextLit _ _ _
  | bdepLit => exact RoundTrip.bdepLit _ _ _ | li => exact RoundTrip.li _ _ | liLit => exact RoundTrip.liLit _ _
  | pcadd => exact RoundTrip.pcadd _ _ | pcaddLit => exact RoundTrip.pcaddLit _ _ | sel => exact RoundTrip.sel _ _ _
  | seq => exact RoundTrip.seq _ _ _ | sne => exact RoundTrip.sne _ _ _ | seqLit => exact RoundTrip.seqLit _ _ _
  | sneLit => exact RoundTrip.sneLit _ _ _ | beq => exact RoundTrip.beq _ _ _ | bne => exact RoundTrip.bne _ _ _
  | blt => exact RoundTrip.blt _ _ _ | bge => exact RoundTrip.bge _ _ _ | bltu => exact RoundTrip.bltu _ _ _
  | bgeu => exact RoundTrip.bgeu _ _ _ | beqExt => exact RoundTrip.beqExt _ _ _ | bneExt => exact RoundTrip.bneExt _ _ _
  | bltExt => exact RoundTrip.bltExt _ _ _ | bgeExt => exact RoundTrip.bgeExt _ _ _ | bltuExt => exact RoundTrip.bltuExt _ _ _
  | bgeuExt => exact RoundTrip.bgeuExt _ _ _ | jal => exact RoundTrip.jal _ _ | jalExt => exact RoundTrip.jalExt _ _
  | jalr => exact RoundTrip.jalr _ _ _ | lb => exact RoundTrip.lb _ _ _ _ | lbu => exact RoundTrip.lbu _ _ _ _
  | lh => exact RoundTrip.lh _ _ _ _ | lhu => exact RoundTrip.lhu _ _ _ _ | lw => exact RoundTrip.lw _ _ _ _
  | lwu => exact RoundTrip.lwu _ _ _ _ | ld => exact RoundTrip.ld _ _ _ _ | lbLit => exact RoundTrip.lbLit _ _ _ _
  | lbuLit => exact RoundTrip.lbuLit _ _ _ _ | lhLit => exact RoundTrip.lhLit _ _ _ _ | lhuLit => exact RoundTrip.lhuLit _ _ _ _
  | lwLit => exact RoundTrip.lwLit _ _ _ _ | lwuLit => exact RoundTrip.lwuLit _ _ _ _ | ldLit => exact RoundTrip.ldLit _ _ _ _
  | lbExt => exact RoundTrip.lbExt _ _ _ _ | lbuExt => exact RoundTrip.lbuExt _ _ _ _ | lhExt => exact RoundTrip.lhExt _ _ _ _
  | lhuExt => exact RoundTrip.lhuExt _ _ _ _ | lwExt => exact RoundTrip.lwExt _ _ _ _ | lwuExt => exact RoundTrip.lwuExt _ _ _ _
  | ldExt => exact RoundTrip.ldExt _ _ _ _ | sb => exact RoundTrip.sb _ _ _ _ | sh => exact RoundTrip.sh _ _ _ _
  | sw => exact RoundTrip.sw _ _ _ _ | sd => exact RoundTrip.sd _ _ _ _ | pstore => exact RoundTrip.pstore _ _ _
  | sbLit => exact RoundTrip.sbLit _ _ _ _ | shLit => exact RoundTrip.shLit _ _ _ _ | swLit => exact RoundTrip.swLit _ _ _ _
  | sdLit => exact RoundTrip.sdLit _ _ _ _ | pstoreLit => exact RoundTrip.pstoreLit _ _ _ | sbExt => exact RoundTrip.sbExt _ _ _ _
  | shExt => exact RoundTrip.shExt _ _ _ _ | swExt => exact RoundTrip.swExt _ _ _ _ | sdExt => exact RoundTrip.sdExt _ _ _ _
  | pstoreExt => exact RoundTrip.pstoreExt _ _ _ | amoadd => exact RoundTrip.amoadd _ _ _ _ _
  | amoand => exact RoundTrip.amoand _ _ _ _ _ | amoor => exact RoundTrip.amoor _ _ _ _ _ | amoxor => exact RoundTrip.amoxor _ _ _ _ _
  | amomin => exact RoundTrip.amomin _ _ _ _ _ | amomax => exact RoundTrip.amomax _ _ _ _ _
  | amominu => exact RoundTrip.amominu _ _ _ _ _ | amomaxu => exact RoundTrip.amomaxu _ _ _ _ _
  | amoswap => exact RoundTrip.amoswap _ _ _ _ _ | amocas => exact RoundTrip.amocas _ _ _ _ _
  | amofadd => exact RoundTrip.amofadd _ _ _ _ _ | abump => exact RoundTrip.abump _ _ _ _ | fence => exact RoundTrip.fence _ _
  | fencex => exact RoundTrip.fencex _ _ _ _ | ifence => exact RoundTrip.ifence | fadd => exact RoundTrip.fadd _ _ _ _ _
  | fsub => exact RoundTrip.fsub _ _ _ _ _ | fmul => exact RoundTrip.fmul _ _ _ _ _ | fdiv => exact RoundTrip.fdiv _ _ _ _ _
  | fsqrt => exact RoundTrip.fsqrt _ _ _ _ | fmin => exact RoundTrip.fmin _ _ _ _ | fmax => exact RoundTrip.fmax _ _ _ _
  | feq => exact RoundTrip.feq _ _ _ _ | flt => exact RoundTrip.flt _ _ _ _ | fle => exact RoundTrip.fle _ _ _ _
  | fclass => exact RoundTrip.fclass _ _ _ | fsgnj => exact RoundTrip.fsgnj _ _ _ _ | fabs => exact RoundTrip.fabs _ _ _
  | fmac => exact RoundTrip.fmac _ _ _ _ _ | fmsc => exact RoundTrip.fmsc _ _ _ _ _ | fmacExt => exact RoundTrip.fmacExt _ _ _ _ _ _
  | fmscExt => exact RoundTrip.fmscExt _ _ _ _ _ _ | fcvt => exact RoundTrip.fcvt _ _ _ _ _ | vadd => exact RoundTrip.vadd _ _ _ _ _
  | vsub => exact RoundTrip.vsub _ _ _ _ _ | vmul => exact RoundTrip.vmul _ _ _ _ _ | vmulh => exact RoundTrip.vmulh _ _ _ _ _
  | vadds => exact RoundTrip.vadds _ _ _ _ _ | vsubs => exact RoundTrip.vsubs _ _ _ _ _ | vabs => exact RoundTrip.vabs _ _ _ _
  | vmin => exact RoundTrip.vmin _ _ _ _ _ | vmax => exact RoundTrip.vmax _ _ _ _ _ | vand => exact RoundTrip.vand _ _ _ _ _
  | vor => exact RoundTrip.vor _ _ _ _ _ | vxor => exact RoundTrip.vxor _ _ _ _ _ | vsll => exact RoundTrip.vsll _ _ _ _ _
  | vsrl => exact RoundTrip.vsrl _ _ _ _ _ | vsra => exact RoundTrip.vsra _ _ _ _ _ | vfadd => exact RoundTrip.vfadd _ _ _ _ _
  | vfsub => exact RoundTrip.vfsub _ _ _ _ _ | vfmul => exact RoundTrip.vfmul _ _ _ _ _ | vfdiv => exact RoundTrip.vfdiv _ _ _ _ _
  | vfsqrt => exact RoundTrip.vfsqrt _ _ _ _ | vfmin => exact RoundTrip.vfmin _ _ _ _ _ | vfmax => exact RoundTrip.vfmax _ _ _ _ _
  | vfexp2 => exact RoundTrip.vfexp2 _ _ _ _ | vfrcp => exact RoundTrip.vfrcp _ _ _ _ | vfrsqrt => exact RoundTrip.vfrsqrt _ _ _ _
  | vload => exact RoundTrip.vload _ _ _ _ | vstore => exact RoundTrip.vstore _ _ _ _ | vgather => exact RoundTrip.vgather _ _ _ _ _
  | vscatter => exact RoundTrip.vscatter _ _ _ _ _ | vloadb => exact RoundTrip.vloadb _ _ _ _ _
  | vloadLit => exact RoundTrip.vloadLit _ _ _ _ | vstoreLit => exact RoundTrip.vstoreLit _ _ _ _
  | vloadbLit => exact RoundTrip.vloadbLit _ _ _ _ _ | vloadExt => exact RoundTrip.vloadExt _ _ _ _
  | vstoreExt => exact RoundTrip.vstoreExt _ _ _ _ | vloadbExt => exact RoundTrip.vloadbExt _ _ _ _ _
  | vcmpEq => exact RoundTrip.vcmpEq _ _ _ _ _ | vcmpNe => exact RoundTrip.vcmpNe _ _ _ _ _
  | vcmpLt => exact RoundTrip.vcmpLt _ _ _ _ _ | vcmpLe => exact RoundTrip.vcmpLe _ _ _ _ _
  | vcmpLtu => exact RoundTrip.vcmpLtu _ _ _ _ _ | vcmpLeu => exact RoundTrip.vcmpLeu _ _ _ _ _
  | vsel => exact RoundTrip.vsel _ _ _ _ _ | vbcast => exact RoundTrip.vbcast _ _ _ _ | vext => exact RoundTrip.vext _ _ _ _
  | vins => exact RoundTrip.vins _ _ _ _ | vperm => exact RoundTrip.vperm _ _ _ _ _ | vslide => exact RoundTrip.vslide _ _ _ _ _
  | vredsum => exact RoundTrip.vredsum _ _ _ _ | vredmax => exact RoundTrip.vredmax _ _ _ _
  | vredmin => exact RoundTrip.vredmin _ _ _ _ | vcvt => exact RoundTrip.vcvt _ _ _ _ _ | vmov => exact RoundTrip.vmov _ _ _ _
  | mand => exact RoundTrip.mand _ _ _ | mor => exact RoundTrip.mor _ _ _ | mxor => exact RoundTrip.mxor _ _ _
  | mnot => exact RoundTrip.mnot _ _ | mpop => exact RoundTrip.mpop _ _ | mfirst => exact RoundTrip.mfirst _ _
  | mfromx => exact RoundTrip.mfromx _ _ | mtox => exact RoundTrip.mtox _ _ | vfmac => exact RoundTrip.vfmac _ _ _ _ _
  | vdot4 => exact RoundTrip.vdot4 _ _ _ _ | tload => exact RoundTrip.tload _ _ _ | tloadt => exact RoundTrip.tloadt _ _ _
  | tloads => exact RoundTrip.tloads _ _ _ | tstore => exact RoundTrip.tstore _ _ _ | taccld => exact RoundTrip.taccld _ _ _
  | taccst => exact RoundTrip.taccst _ _ _ | tmma => exact RoundTrip.tmma _ _ _ | taccout => exact RoundTrip.taccout _ _ _ _ _
  | taccadd => exact RoundTrip.taccadd _ _ | tzero => exact RoundTrip.tzero _ | taccz => exact RoundTrip.taccz _
  | txch => exact RoundTrip.txch _ _ _ | tcvt => exact RoundTrip.tcvt _ _ | verst => exact RoundTrip.verst _ _ _ _
  | verld => exact RoundTrip.verld _ _ _ _ | verldle => exact RoundTrip.verldle _ _ _ _ | verprobe => exact RoundTrip.verprobe _ _ _
  | verfloor => exact RoundTrip.verfloor _ _ _ _ | verdrop => exact RoundTrip.verdrop _ _ | cpy1 => exact RoundTrip.cpy1 _ _ _ _ _
  | cpy2 => exact RoundTrip.cpy2 _ _ _ _ _ | cpy3 => exact RoundTrip.cpy3 _ _ _ _ _ | cpyv => exact RoundTrip.cpyv _ _ _ _ _ _
  | cpyq => exact RoundTrip.cpyq _ _ _ _ _ | cpyx => exact RoundTrip.cpyx _ _ _ _ _ | cpy1Lit => exact RoundTrip.cpy1Lit _ _ _ _ _
  | cpy2Lit => exact RoundTrip.cpy2Lit _ _ _ _ _ | cpy3Lit => exact RoundTrip.cpy3Lit _ _ _ _ _
  | cpyvLit => exact RoundTrip.cpyvLit _ _ _ _ _ _ | cpyqLit => exact RoundTrip.cpyqLit _ _ _ _ _
  | cpyxLit => exact RoundTrip.cpyxLit _ _ _ _ _ | collred => exact RoundTrip.collred _ _ _ _ _ _ _ _
  | collgath => exact RoundTrip.collgath _ _ _ _ _ _ _ | collbcast => exact RoundTrip.collbcast _ _ _ _ _ _ _
  | msend => exact RoundTrip.msend _ _ _ | mrecv => exact RoundTrip.mrecv _ _ | mpoll => exact RoundTrip.mpoll _
  | pause => exact RoundTrip.pause _ | waita => exact RoundTrip.waita _ _ _ | clave => exact RoundTrip.clave _ _ _
  | clavev => exact RoundTrip.clavev _ _ _ | claveg => exact RoundTrip.claveg _ _ _ | bara => exact RoundTrip.bara _
  | barw => exact RoundTrip.barw _ | barwSs => exact RoundTrip.barwSs | barq => exact RoundTrip.barq _ _
  | slpush => exact RoundTrip.slpush _ | slpop => exact RoundTrip.slpop _ | slfree => exact RoundTrip.slfree _
  | slpeek => exact RoundTrip.slpeek _ _ | strike => exact RoundTrip.strike _ _ | migr => exact RoundTrip.migr _ _ _
  | csrr => exact RoundTrip.csrr _ _ | csrw => exact RoundTrip.csrw _ _ _ | csrs => exact RoundTrip.csrs _ _ _
  | csrc => exact RoundTrip.csrc _ _ _ | scall => exact RoundTrip.scall | brk => exact RoundTrip.brk
  | threadDone => exact RoundTrip.threadDone | yieldTurn => exact RoundTrip.yieldTurn | eret => exact RoundTrip.eret
  | halt => exact RoundTrip.halt | tlbinv => exact RoundTrip.tlbinv _ _ | mark => exact RoundTrip.mark _ _ _
  | _ => exact fun h => nomatch (show false = true from h)

theorem decode_encode {i : Instr} {w x1 x2 : Nat} (he : encode i = (w, x1, x2)) (hi : i.wellFormed = true) :
    decode w x1 x2 = .instr i := by
  obtain ⟨-, -, -, h⟩ := roundTrip_statement i hi
  rwa [he] at h

/-! ## Words as bytes -/

@[simp] theorem bytesOf_length (n v : Nat) : (bytesOf n v).length = n := by
  induction n generalizing v with
  | zero => rfl
  | succ n ih => simp [bytesOf, ih]

theorem ofBytes_bytesOf (n v : Nat) : ofBytes (bytesOf n v) = v % 256 ^ n := by
  induction n generalizing v with
  | zero => simp [bytesOf, ofBytes, Nat.mod_one]
  | succ n ih =>
    rw [bytesOf, ofBytes, ih, BitVec.toNat_ofNat, pow_succ' 256 n, Nat.mod_mul]

theorem lenBytes_le (w : Nat) : lenBytes w ≤ 20 := by
  unfold lenBytes
  split
  · decide
  · split <;> decide

/-- Words that fit, laid out as bytes, are read back as they were. -/
theorem decodeBytes_wordBytes {w x1 x2 : Nat} (hw : w < 2 ^ 32) (h1 : x1 < 2 ^ 64) (h2 : x2 < 2 ^ 64) :
    decodeBytes (wordBytes w x1 x2) = some (decode w x1 x2, lenBytes w) := by
  have hlen : (wordBytes w x1 x2).length = 20 := by simp [wordBytes]
  have hw' : ofBytes ((wordBytes w x1 x2).take 4) = w := by
    rw [wordBytes, List.append_assoc, List.take_left' (bytesOf_length 4 w), ofBytes_bytesOf, Nat.mod_eq_of_lt (show w < 256 ^ 4 from hw)]
  have h1' : ofBytes (((wordBytes w x1 x2).drop 4).take 8) = x1 := by
    rw [wordBytes, List.append_assoc, List.drop_left' (bytesOf_length 4 w), List.take_left' (bytesOf_length 8 x1), ofBytes_bytesOf,
      Nat.mod_eq_of_lt (show x1 < 256 ^ 8 from h1)]
  have h2' : ofBytes (((wordBytes w x1 x2).drop 12).take 8) = x2 := by
    rw [wordBytes, List.drop_left' (by simp), List.take_of_length_le (by simp), ofBytes_bytesOf, Nat.mod_eq_of_lt (show x2 < 256 ^ 8 from h2)]
  have hle := lenBytes_le w
  unfold decodeBytes
  simp only [hw', h1', h2', hlen]
  rw [if_neg (by omega)]

/-- Settles O55: what each instruction's lemma says of its words, read from bytes. -/
theorem roundTrip : Obligations.RoundTrip := by
  intro i hi
  obtain ⟨hw, h1, h2, hd⟩ := roundTrip_statement i hi
  rw [decodeBytes_wordBytes hw h1 h2, hd]
  rfl

/-- Settles O58: each worked word is what the encoder gives for its instruction. -/
theorem decodedWords : Obligations.DecodedWords := by
  unfold Obligations.DecodedWords
  and_intros <;> exact decode_encode rfl rfl

end Sys2Proof.Proofs.Encoding
end

section
/-!
PROOFS. What decode reads, it encodes back: every answer of decode is faithful to its words.
-/
namespace Sys2Proof.Proofs.Encoding
open Sys2Proof.Laws

/-! ## What decode reads, it encodes back -/

/-- What decode may answer to words: an EVAL of R505's checks on words, or a well-formed instruction with these very words. -/
def Faithful (w x1 x2 : Nat) : Decoded → Prop
  | .illegal e => e = 0 ∨ e = 4 ∨ e = 5 ∨ e = 6
  | .instr i => w < 2 ^ 32 → x1 < 2 ^ 64 → x2 < 2 ^ 64 →
      i.wellFormed = true ∧ encode i = (w, if w % 4 = 0 then 0 else x1, if w % 4 = 3 then x2 else 0)

section
variable {w x1 x2 : Nat}

theorem faithful_zero : Faithful w x1 x2 (.illegal 0) := .inl rfl
theorem faithful_literal : Faithful w x1 x2 (.illegal 4) := .inr (.inl rfl)
theorem faithful_extended : Faithful w x1 x2 (.illegal 5) := .inr (.inr (.inl rfl))
theorem faithful_register : Faithful w x1 x2 (.illegal 6) := .inr (.inr (.inr rfl))

/-- A check answers its own EVAL, or what is behind it. -/
theorem faithful_chk {bad : Bool} {e : Nat} {k : Decoded} (he : Faithful w x1 x2 (.illegal e))
    (hk : bad = false → Faithful w x1 x2 k) : Faithful w x1 x2 (chk bad e k) := by
  cases bad with
  | true => exact he
  | false => exact hk rfl

theorem faithful_only00 {k : Decoded} (hk : w % 4 = 0 → Faithful w x1 x2 k) : Faithful w x1 x2 (only00 w k) :=
  faithful_chk faithful_extended fun h2 => faithful_chk faithful_literal fun h1 => hk (by simp at h1 h2; omega)

/-- An instruction of one word. -/
theorem faithful_short {i : Instr} {v : Nat} (hl : w % 4 = 0) (hi : i.wellFormed = true) (he : encode i = (v, 0, 0)) (hv : w < 2 ^ 32 → v = w) :
    Faithful w x1 x2 (.instr i) :=
  fun hw _ _ => ⟨hi, by rw [he, hv hw, if_pos hl, if_neg (by omega)]⟩

/-- An instruction of three words. -/
theorem faithful_long {i : Instr} {v y : Nat} (hl : w % 4 = 1 ∨ w % 4 = 2) (hi : i.wellFormed = true) (he : encode i = (v, y, 0))
    (hv : w < 2 ^ 32 → v = w) (hy : x1 < 2 ^ 64 → y = x1) : Faithful w x1 x2 (.instr i) :=
  fun hw h1 _ => ⟨hi, by rw [he, hv hw, hy h1, if_neg (by omega), if_neg (by omega)]⟩

/-- An instruction of five words. -/
theorem faithful_longest {i : Instr} {v y z : Nat} (hl : w % 4 = 3) (hi : i.wellFormed = true) (he : encode i = (v, y, z))
    (hv : w < 2 ^ 32 → v = w) (hy : x1 < 2 ^ 64 → y = x1) (hz : x2 < 2 ^ 64 → z = x2) : Faithful w x1 x2 (.instr i) :=
  fun hw h1 h2 => ⟨hi, by rw [he, hv hw, hy h1, hz h2, if_neg (by omega), if_pos hl]⟩

/-! ### A word from its fields -/

variable {len maj d a b imm fn opt k off m ty rs cond : Nat}

theorem eReg_eq (hl : w % 4 = len) (hm : bits w 2 6 = maj) (hd : (fRd w).val = d) (ha : (fRs1 w).val = a)
    (hb : (fRs2 w).val = b) (hf : fFn w = fn) (ho : fOpt w = opt) (hw : w < 2 ^ 32) : eReg len maj d a b fn opt = w := by
  subst hl hm hd ha hb hf ho
  simp only [eReg, bits, fRd, fRs1, fRs2, fFn, fOpt, Fin.ofNat]
  omega

theorem eImm_eq (hl : w % 4 = len) (hm : bits w 2 6 = maj) (hd : (fRd w).val = d) (ha : (fRs1 w).val = a)
    (hi : bits w 18 10 = imm) (hf : bits w 28 4 = fn) (hw : w < 2 ^ 32) : eImm len maj d a imm fn = w := by
  subst hl hm hd ha hi hf
  simp only [eImm, bits, fRd, fRs1, Fin.ofNat]
  omega

theorem eKon_eq (hl : w % 4 = 0) (hm : bits w 2 6 = maj) (hd : (fRd w).val = d) (ha : (fRs1 w).val = a)
    (hk : bits w 18 8 = k) (hf : bits w 26 6 = fn) (hw : w < 2 ^ 32) : eKon maj d a k fn = w := by
  subst hm hd ha hk hf
  simp only [eKon, bits, fRd, fRs1, Fin.ofNat]
  omega

theorem eBr_eq (hl : w % 4 = len) (hm : bits w 2 6 = 8) (ha : (fRd w).val = a) (hb : (fRs1 w).val = b)
    (hc : bits w 18 3 = cond) (ho : bits w 21 11 = off) (hw : w < 2 ^ 32) : eBr len a b cond off = w := by
  subst hl ha hb hc ho
  simp only [eBr, bits, fRd, fRs1, Fin.ofNat] at *
  omega

theorem eVec_eq (hl : w % 4 = 0) (hm : bits w 2 6 = maj) (hd : (fVd w).val = d) (ha : (fVs1 w).val = a)
    (hb : (fVs2 w).val = b) (hv : (fVm w).val = m) (ht : bits w 23 3 = ty) (hf : bits w 26 6 = fn) (hw : w < 2 ^ 32) : eVec maj d a b m ty fn = w := by
  subst hm hd ha hb hv ht hf
  simp only [eVec, bits, fVd, fVs1, fVs2, fVm, Fin.ofNat]
  omega

theorem eTil_eq (hl : w % 4 = 0) (hm : bits w 2 6 = maj) (hd : (fVd w).val = d) (ha : (fVs1 w).val = a)
    (hb : (fVs2 w).val = b) (hr : bits w 20 5 = rs) (hf : bits w 25 4 = fn) (ho : fOpt w = opt) (hw : w < 2 ^ 32) : eTil maj d a b rs fn opt = w := by
  subst hm hd ha hb hr hf ho
  simp only [eTil, bits, fVd, fVs1, fVs2, fOpt, Fin.ofNat]
  omega

/-! ### Codes of named operands, read and written back -/

theorem code_osOf : ∀ c < 16, (osOf c).code = c := by decide
theorem code_rmOf : ∀ c < 7, (rmOf c).code = c := by decide
theorem code_precOf : ∀ c < 4, (precOf c).code = c := by decide
theorem code_tyOf : ∀ c < 7, (tyOf c).code = c := by decide
theorem code_esizeOf : ∀ c < 4, (esizeOf c).code = c := by decide
theorem code_numOf : ∀ c < 8, (numOf c).code = c := by decide
theorem code_pathOf : ∀ c < 6, (pathOf c).code = c := by decide
theorem code_kindOf : ∀ c < 4, (kindOf c).code = c := by decide
theorem code_scopeOf : ∀ c < 5, (scopeOf c).code = c := by decide
theorem code_collOpOf : ∀ c < 6, (collOpOf c).code = c := by decide
theorem code_collFmtOf : ∀ c < 8, (collFmtOf c).code = c := by decide

theorem loadOk_osOf : ∀ c < 6, (osOf c).loadOk = true := by decide
theorem storeOk_osOf : ∀ c < 11, c = 0 ∨ 6 ≤ c → (osOf c).storeOk = true := by decide
theorem isInt_tyOf : ∀ c < 4, (tyOf c).isInt = true := by decide
theorem not_isInt_tyOf : ∀ c < 7, 4 ≤ c → (!(tyOf c).isInt) = true := by decide

/-! ### The groups -/

/-- The condition of a check that has passed. -/
theorem of_passed {p : Prop} {inst : Decidable (¬p)} (h : @decide (¬p) inst = false) : p := not_not.mp (of_decide_eq_false h)

theorem fLit_toNat (h1 : x1 < 2 ^ 64) : (fLit x1).toNat = x1 := Nat.mod_eq_of_lt h1

theorem fOff47_toNat (h : x1 / 2 ^ 47 = 0) : (fOff47 x1).toNat = x1 := Nat.mod_eq_of_lt (by omega)

theorem bit_eq_false {i : Nat} (h : bit w i = false) : w / 2 ^ i % 2 = 0 := by
  simp only [bit, beq_eq_false_iff_ne] at h
  omega

theorem b2n_bit (w i : Nat) : b2n (bit w i) = w / 2 ^ i % 2 := by
  rcases Nat.mod_two_eq_zero_or_one (w / 2 ^ i) with h | h <;> simp [bit, b2n, h]

theorem faithful_decAluReg (hm : bits w 2 6 = 1) : Faithful w x1 x2 (decAluReg w x1) := by
  refine faithful_chk faithful_extended fun h2 => faithful_chk faithful_zero fun ho => ?_
  split
  · next hl =>
    have leaf {i : Instr} {k : Nat} (hk : fFn w = k) (hi : i.wellFormed = true)
        (he : encode i = (eReg 0 1 (fRd w).val (fRs1 w).val (fRs2 w).val k 0, 0, 0)) : Faithful w x1 x2 (.instr i) :=
      faithful_short hl hi he (eReg_eq hl hm rfl rfl rfl hk (of_passed ho))
    unfold decAluReg0
    split
    case h_22 => exact faithful_zero
    all_goals exact leaf ‹_› rfl rfl
  · next hl =>
    refine faithful_chk faithful_zero fun hb => ?_
    have leaf {i : Instr} {k : Nat} (hk : fFn w = k) (hi : i.wellFormed = true)
        (he : encode i = (eReg 1 1 (fRd w).val (fRs1 w).val 0 k 0, (fLit x1).toNat, 0)) : Faithful w x1 x2 (.instr i) := by
      have hl : w % 4 = 1 := by simp at h2; omega
      exact faithful_long (.inl hl) hi he (eReg_eq hl hm rfl rfl (congrArg Fin.val (of_passed hb)) hk (of_passed ho)) fLit_toNat
    unfold decAluReg1
    split
    case h_22 => exact faithful_zero
    all_goals exact leaf ‹_› rfl rfl

theorem faithful_decAluImm (hm : bits w 2 6 = 2) : Faithful w x1 x2 (decAluImm w x1) := by
  refine faithful_chk faithful_extended fun h2 => ?_
  split
  · next hl =>
    have leaf {i : Instr} {k : Nat} (hk : bits w 28 4 = k) (hi : i.wellFormed = true)
        (he : encode i = (eImm 0 2 (fRd w).val (fRs1 w).val (fImm w).toNat k, 0, 0)) : Faithful w x1 x2 (.instr i) :=
      faithful_short hl hi he (eImm_eq hl hm rfl rfl rfl hk)
    have shift {i : Instr} {k : Nat} (hk : bits w 28 4 = k) (hi : i.wellFormed = true)
        (he : encode i = (eImm 0 2 (fRd w).val (fRs1 w).val (BitVec.ofNat 6 (w / 2 ^ 18)).toNat k, 0, 0)) :
        Faithful w x1 x2 (chk (bits w 24 4 ≠ 0) 0 (.instr i)) := by
      refine faithful_chk faithful_zero fun hs => faithful_short hl hi he (eImm_eq hl hm rfl rfl ?_ hk)
      have hs := of_passed hs
      simp only [bits, BitVec.toNat_ofNat] at hs ⊢
      omega
    unfold decAluImm0
    split
    case h_5 | h_6 | h_7 => exact shift ‹_› rfl rfl
    case h_11 => exact faithful_zero
    all_goals exact leaf ‹_› rfl rfl
  · next hl =>
    have leaf {i : Instr} {k : Nat} (hk : bits w 28 4 = k) (hi : i.wellFormed = true)
        (he : encode i = (eImm 1 2 (fRd w).val (fRs1 w).val 0 k, (fLit x1).toNat, 0)) :
        Faithful w x1 x2 (chk (fImm w ≠ 0) 0 (.instr i)) := by
      have hl : w % 4 = 1 := by simp at h2; omega
      exact faithful_chk faithful_zero fun hz =>
        faithful_long (.inl hl) hi he (eImm_eq hl hm rfl rfl (congrArg BitVec.toNat (of_passed hz)) hk) fLit_toNat
    unfold decAluImm1
    split
    case h_5 | h_6 | h_7 => exact faithful_literal
    case h_11 => exact faithful_zero
    all_goals exact leaf ‹_› rfl rfl

theorem faithful_decKon (hm : bits w 2 6 = 3) : Faithful w x1 x2 (decKon w) := by
  refine faithful_only00 fun hl => ?_
  split
  · exact faithful_chk faithful_zero fun ha =>
      faithful_short hl rfl rfl (eKon_eq hl hm rfl (congrArg Fin.val (of_passed ha)) rfl ‹_›)
  · exact faithful_short hl rfl rfl (eKon_eq hl hm rfl rfl rfl ‹_›)
  · exact faithful_zero

theorem faithful_decMul (hm : bits w 2 6 = 4) : Faithful w x1 x2 (decMul w) := by
  refine faithful_only00 fun hl => faithful_chk faithful_zero fun ho => ?_
  have leaf {i : Instr} {k : Nat} (hk : fFn w = k) (hi : i.wellFormed = true)
      (he : encode i = (eReg 0 4 (fRd w).val (fRs1 w).val (fRs2 w).val k 0, 0, 0)) : Faithful w x1 x2 (.instr i) :=
    faithful_short hl hi he (eReg_eq hl hm rfl rfl rfl hk (of_passed ho))
  split
  case h_9 => exact faithful_zero
  all_goals exact leaf ‹_› rfl rfl

theorem faithful_decBit (hm : bits w 2 6 = 5) : Faithful w x1 x2 (decBit w x1) := by
  refine faithful_chk faithful_extended fun h2 => ?_
  split
  · next hl =>
    refine faithful_chk faithful_zero fun ho => ?_
    have unary {i : Instr} {k : Nat} (hk : fFn w = k) (hi : i.wellFormed = true)
        (he : encode i = (eReg 0 5 (fRd w).val (fRs1 w).val 0 k 0, 0, 0)) : Faithful w x1 x2 (chk (fRs2 w ≠ 0) 0 (.instr i)) :=
      faithful_chk faithful_zero fun hb =>
        faithful_short hl hi he (eReg_eq hl hm rfl rfl (congrArg Fin.val (of_passed hb)) hk (of_passed ho))
    unfold decBit0
    split
    case h_10 | h_11 => exact faithful_short hl rfl rfl (eReg_eq hl hm rfl rfl rfl ‹_› (of_passed ho))
    case h_12 => exact faithful_zero
    all_goals exact unary ‹_› rfl rfl
  · next hl =>
    refine faithful_chk faithful_zero fun ho => ?_
    have leaf {i : Instr} {k : Nat} (hk : fFn w = k) (h9 : 8 < k) (hi : i.wellFormed = true)
        (he : encode i = (eReg 1 5 (fRd w).val (fRs1 w).val 0 k 0, (fLit x1).toNat, 0)) :
        Faithful w x1 x2 (chk (fRs2 w ≠ 0) 0 (.instr i)) := by
      have hl : w % 4 = 1 := by simp at h2; omega
      have ho : fOpt w = 0 := by simpa [hk, h9] using ho
      exact faithful_chk faithful_zero fun hb =>
        faithful_long (.inl hl) hi he (eReg_eq hl hm rfl rfl (congrArg Fin.val (of_passed hb)) hk ho) fLit_toNat
    unfold decBit1
    split
    · exact leaf ‹_› (by decide) rfl rfl
    · exact leaf ‹_› (by decide) rfl rfl
    · split
      · exact faithful_literal
      · exact faithful_zero

theorem faithful_decLi (hm : bits w 2 6 = 6) : Faithful w x1 x2 (decLi w x1) := by
  refine faithful_chk faithful_extended fun h2 => faithful_chk faithful_zero fun ha => ?_
  split
  · next hl =>
    have leaf {i : Instr} {k : Nat} (hk : bits w 28 4 = k) (hi : i.wellFormed = true)
        (he : encode i = (eImm 0 6 (fRd w).val 0 (fImm w).toNat k, 0, 0)) : Faithful w x1 x2 (.instr i) :=
      faithful_short hl hi he (eImm_eq hl hm rfl (congrArg Fin.val (of_passed ha)) rfl hk)
    split
    · exact leaf ‹_› rfl rfl
    · exact leaf ‹_› rfl rfl
    · exact faithful_zero
  · next hl =>
    refine faithful_chk faithful_zero fun hz => ?_
    have leaf {i : Instr} {k : Nat} (hk : bits w 28 4 = k) (hi : i.wellFormed = true)
        (he : encode i = (eImm 1 6 (fRd w).val 0 0 k, (fLit x1).toNat, 0)) : Faithful w x1 x2 (.instr i) := by
      have hl : w % 4 = 1 := by simp at h2; omega
      exact faithful_long (.inl hl) hi he
        (eImm_eq hl hm rfl (congrArg Fin.val (of_passed ha)) (congrArg BitVec.toNat (of_passed hz)) hk) fLit_toNat
    split
    · exact leaf ‹_› rfl rfl
    · exact leaf ‹_› rfl rfl
    · exact faithful_zero

theorem faithful_decSel (hm : bits w 2 6 = 7) : Faithful w x1 x2 (decSel w x1) := by
  refine faithful_chk faithful_extended fun h2 => ?_
  split
  · next hl =>
    refine faithful_chk faithful_zero fun ho => ?_
    split
    case h_4 => exact faithful_zero
    all_goals exact faithful_short hl rfl rfl (eReg_eq hl hm rfl rfl rfl ‹_› (of_passed ho))
  · next hl =>
    have leaf {i : Instr} {k : Nat} (hk : fFn w = k) (hi : i.wellFormed = true)
        (he : encode i = (eReg 1 7 (fRd w).val (fRs1 w).val 0 k 0, (fLit x1).toNat, 0)) :
        Faithful w x1 x2 (chk (fOpt w ≠ 0 || fRs2 w ≠ 0) 0 (.instr i)) := by
      have hl : w % 4 = 1 := by simp at h2; omega
      refine faithful_chk faithful_zero fun h => ?_
      obtain ⟨ho, hb⟩ : fOpt w = 0 ∧ fRs2 w = 0 := by simpa using h
      exact faithful_long (.inl hl) hi he (eReg_eq hl hm rfl rfl (congrArg Fin.val hb) hk ho) fLit_toNat
    split
    · exact faithful_literal
    · exact leaf ‹_› rfl rfl
    · exact leaf ‹_› rfl rfl
    · exact faithful_zero

theorem faithful_decBr (hm : bits w 2 6 = 8) : Faithful w x1 x2 (decBr w x1) := by
  refine faithful_chk faithful_literal fun h2 => ?_
  split
  · next hl =>
    have leaf {i : Instr} {k : Nat} (hk : bits w 18 3 = k) (hi : i.wellFormed = true)
        (he : encode i = (eBr 0 (fRd w).val (fRs1 w).val k (BitVec.ofNat 11 (w / 2 ^ 21)).toNat, 0, 0)) :
        Faithful w x1 x2 (.instr i) :=
      faithful_short hl hi he (eBr_eq hl hm rfl rfl hk rfl)
    split
    case h_7 => exact faithful_zero
    all_goals exact leaf ‹_› rfl rfl
  · next hl =>
    refine faithful_chk faithful_zero fun h => ?_
    obtain ⟨⟨hz, h4⟩, hx⟩ : (bits w 21 11 = 0 ∧ x1 % 4 = 0) ∧ x1 / 2 ^ 47 = 0 := by simpa using h
    have hy := fOff47_toNat hx
    have leaf {i : Instr} {k : Nat} (hk : bits w 18 3 = k) (hi : i.wellFormed = ((fOff47 x1).toNat % 4 == 0))
        (he : encode i = (eBr 2 (fRd w).val (fRs1 w).val k 0, (fOff47 x1).toNat, 0)) : Faithful w x1 x2 (.instr i) := by
      have hl : w % 4 = 2 := by simp at h2; omega
      exact faithful_long (.inr hl) (hi.trans (by rw [hy, h4]; rfl)) he (eBr_eq hl hm rfl rfl hk hz) fun _ => hy
    split
    case h_7 => exact faithful_zero
    all_goals exact leaf ‹_› rfl rfl

theorem faithful_decJal (hm : bits w 2 6 = 9) : Faithful w x1 x2 (decJal w x1) := by
  refine faithful_chk faithful_literal fun h2 => ?_
  split
  · next hl =>
    refine faithful_short hl rfl rfl fun hw => ?_
    simp only [bits, fRd, Fin.ofNat, BitVec.toNat_ofNat] at hm ⊢
    omega
  · next hl =>
    refine faithful_chk faithful_zero fun h => ?_
    obtain ⟨⟨hz, h4⟩, hx⟩ : (bits w 13 19 = 0 ∧ x1 % 4 = 0) ∧ x1 / 2 ^ 47 = 0 := by simpa using h
    have hl : w % 4 = 2 := by simp at h2; omega
    have hy := fOff47_toNat hx
    refine faithful_long (.inr hl) (show ((fOff47 x1).toNat % 4 == 0) = true by rw [hy, h4]; rfl) rfl (fun hw => ?_) fun _ => hy
    simp only [bits, fRd, Fin.ofNat] at hm hz ⊢
    omega

theorem faithful_decJalr (hm : bits w 2 6 = 10) : Faithful w x1 x2 (decJalr w) :=
  faithful_only00 fun hl => faithful_chk faithful_zero fun hf =>
    faithful_short hl rfl rfl (eImm_eq hl hm rfl rfl rfl (of_passed hf))

/-! Ordering-and-scope codes (R47): the low bit in FN, the others in OPT. -/

theorem osOf_fOs_code (w : Nat) : (osOf (fOs w)).code = fOs w := code_osOf _ (by simp only [fOs, bits]; omega)

theorem fOpt_os (w : Nat) : fOpt w = (osOf (fOs w)).code / 2 := by
  rw [osOf_fOs_code]
  simp only [fOpt, fOs, bits]
  omega

theorem fFn_os (hk : bits w 24 5 = k) : fFn w = (osOf (fOs w)).code % 2 + 2 * k := by
  subst hk
  rw [osOf_fOs_code]
  simp only [fFn, fOs, bits]
  omega

theorem fFn_of_fOs_zero (h : fOs w = 0) (hk : bits w 24 5 = k) : fFn w = 2 * k ∧ fOpt w = 0 := by
  subst hk
  simp only [fFn, fOpt, fOs, bits] at h ⊢
  omega

theorem bits_24_5 (hz : bits w 27 2 = 0) : bits w 24 5 = bits w 24 3 := by
  simp only [bits] at hz ⊢
  omega

theorem loadOk_of_passed (h : decide (fOs w > 5) = false) : (osOf (fOs w)).loadOk = true :=
  loadOk_osOf _ (by simp at h; omega)

theorem storeOk_of_passed (h : (fOs w ≠ 0 && !(decide (6 ≤ fOs w) && decide (fOs w ≤ 10))) = false) : (osOf (fOs w)).storeOk = true := by
  have h : fOs w = 0 ∨ (6 ≤ fOs w ∧ fOs w ≤ 10) := by
    simp at h
    omega
  exact storeOk_osOf _ (by omega) (by omega)

theorem faithful_decLoad (hm : bits w 2 6 = 12) : Faithful w x1 x2 (decLoad w x1) := by
  refine faithful_chk faithful_literal fun h3 => faithful_chk faithful_zero fun hz => ?_
  have hz := bits_24_5 (of_passed hz)
  have word {len b k : Nat} (hl : w % 4 = len) (hb : (fRs2 w).val = b) (hk : bits w 24 3 = k) :
      w < 2 ^ 32 → eReg len 12 (fRd w).val (fRs1 w).val b ((osOf (fOs w)).code % 2 + 2 * k) ((osOf (fOs w)).code / 2) = w :=
    eReg_eq hl hm rfl rfl hb (fFn_os (hz.trans hk)) (fOpt_os w)
  split
  · next hl =>
    have leaf {i : Instr} {k : Nat} (hk : bits w 24 3 = k) (hi : i.wellFormed = (osOf (fOs w)).loadOk)
        (he : encode i = (eReg 0 12 (fRd w).val (fRs1 w).val (fOff5 w).toNat ((osOf (fOs w)).code % 2 + 2 * k) ((osOf (fOs w)).code / 2),
          0, 0)) : Faithful w x1 x2 (chk (decide (fOs w > 5)) 0 (.instr i)) :=
      faithful_chk faithful_zero fun h => faithful_short hl (hi.trans (loadOk_of_passed h)) he (word hl rfl hk)
    unfold decLoad0
    split
    case h_8 => exact faithful_zero
    all_goals exact leaf ‹_› rfl rfl
  · refine faithful_chk faithful_zero fun hb => ?_
    have hb : (fRs2 w).val = 0 := congrArg Fin.val (of_passed hb)
    split
    · next hl =>
      have leaf {i : Instr} {k : Nat} (hk : bits w 24 3 = k) (hi : i.wellFormed = (osOf (fOs w)).loadOk)
          (he : encode i = (eReg 1 12 (fRd w).val (fRs1 w).val 0 ((osOf (fOs w)).code % 2 + 2 * k) ((osOf (fOs w)).code / 2),
            (fLit x1).toNat, 0)) : Faithful w x1 x2 (chk (decide (fOs w > 5)) 0 (.instr i)) :=
        faithful_chk faithful_zero fun h =>
          faithful_long (.inl hl) (hi.trans (loadOk_of_passed h)) he (word hl hb hk) fLit_toNat
      unfold decLoad1
      split
      case h_8 => exact faithful_zero
      all_goals exact leaf ‹_› rfl rfl
    · refine faithful_chk faithful_zero fun hx => ?_
      have hl : w % 4 = 2 := by simp at h3; omega
      have leaf {i : Instr} {k : Nat} (hk : bits w 24 3 = k) (hi : i.wellFormed = (osOf (fOs w)).loadOk)
          (he : encode i = (eReg 2 12 (fRd w).val (fRs1 w).val 0 ((osOf (fOs w)).code % 2 + 2 * k) ((osOf (fOs w)).code / 2),
            (fOff47 x1).toNat, 0)) : Faithful w x1 x2 (chk (decide (fOs w > 5)) 0 (.instr i)) :=
        faithful_chk faithful_zero fun h =>
          faithful_long (.inr hl) (hi.trans (loadOk_of_passed h)) he (word hl hb hk) fun _ => fOff47_toNat (of_passed hx)
      unfold decLoad2
      split
      case h_8 => exact faithful_zero
      all_goals exact leaf ‹_› rfl rfl

theorem faithful_decStore (hm : bits w 2 6 = 13) : Faithful w x1 x2 (decStore w x1) := by
  refine faithful_chk faithful_literal fun h3 => faithful_chk faithful_zero fun hz => ?_
  have hz := bits_24_5 (of_passed hz)
  have word {len b k : Nat} (hl : w % 4 = len) (hb : (fRs2 w).val = b) (hk : bits w 24 3 = k) :
      w < 2 ^ 32 → eReg len 13 (fRd w).val (fRs1 w).val b ((osOf (fOs w)).code % 2 + 2 * k) ((osOf (fOs w)).code / 2) = w :=
    eReg_eq hl hm rfl rfl hb (fFn_os (hz.trans hk)) (fOpt_os w)
  have patch {len b : Nat} (hl : w % 4 = len) (hb : (fRs2 w).val = b) (hk : bits w 24 3 = 7) (ho : fOs w = 0) :
      w < 2 ^ 32 → eReg len 13 (fRd w).val (fRs1 w).val b 14 0 = w :=
    have ⟨hf, ho⟩ := fFn_of_fOs_zero ho (hz.trans hk)
    eReg_eq hl hm rfl rfl hb hf ho
  split
  · next hl =>
    have leaf {i : Instr} {k : Nat} (hk : bits w 24 3 = k) (hi : i.wellFormed = (osOf (fOs w)).storeOk)
        (he : encode i = (eReg 0 13 (fRd w).val (fRs1 w).val (fOff5 w).toNat ((osOf (fOs w)).code % 2 + 2 * k) ((osOf (fOs w)).code / 2),
          0, 0)) : Faithful w x1 x2 (chk (fOs w ≠ 0 && !(decide (6 ≤ fOs w) && decide (fOs w ≤ 10))) 0 (.instr i)) :=
      faithful_chk faithful_zero fun h => faithful_short hl (hi.trans (storeOk_of_passed h)) he (word hl rfl hk)
    unfold decStore0
    split
    case h_5 => exact faithful_chk faithful_zero fun h => faithful_short hl rfl rfl (patch hl rfl ‹_› (of_passed h))
    case h_6 => exact faithful_zero
    all_goals exact leaf ‹_› rfl rfl
  · refine faithful_chk faithful_zero fun hb => ?_
    have hb : (fRs2 w).val = 0 := congrArg Fin.val (of_passed hb)
    split
    · next hl =>
      have leaf {i : Instr} {k : Nat} (hk : bits w 24 3 = k) (hi : i.wellFormed = (osOf (fOs w)).storeOk)
          (he : encode i = (eReg 1 13 (fRd w).val (fRs1 w).val 0 ((osOf (fOs w)).code % 2 + 2 * k) ((osOf (fOs w)).code / 2),
            (fLit x1).toNat, 0)) : Faithful w x1 x2 (chk (fOs w ≠ 0 && !(decide (6 ≤ fOs w) && decide (fOs w ≤ 10))) 0 (.instr i)) :=
        faithful_chk faithful_zero fun h =>
          faithful_long (.inl hl) (hi.trans (storeOk_of_passed h)) he (word hl hb hk) fLit_toNat
      unfold decStore1
      split
      case h_5 => exact faithful_chk faithful_zero fun h =>
        faithful_long (.inl hl) rfl rfl (patch hl hb ‹_› (of_passed h)) fLit_toNat
      case h_6 => exact faithful_zero
      all_goals exact leaf ‹_› rfl rfl
    · refine faithful_chk faithful_zero fun hx => ?_
      have hl : w % 4 = 2 := by simp at h3; omega
      have hy := fOff47_toNat (of_passed hx)
      have leaf {i : Instr} {k : Nat} (hk : bits w 24 3 = k) (hi : i.wellFormed = (osOf (fOs w)).storeOk)
          (he : encode i = (eReg 2 13 (fRd w).val (fRs1 w).val 0 ((osOf (fOs w)).code % 2 + 2 * k) ((osOf (fOs w)).code / 2),
            (fOff47 x1).toNat, 0)) : Faithful w x1 x2 (chk (fOs w ≠ 0 && !(decide (6 ≤ fOs w) && decide (fOs w ≤ 10))) 0 (.instr i)) :=
        faithful_chk faithful_zero fun h => faithful_long (.inr hl) (hi.trans (storeOk_of_passed h)) he (word hl hb hk) fun _ => hy
      unfold decStore2
      split
      case h_5 => exact faithful_chk faithful_zero fun h => faithful_long (.inr hl) rfl rfl (patch hl hb ‹_› (of_passed h)) fun _ => hy
      case h_6 => exact faithful_zero
      all_goals exact leaf ‹_› rfl rfl

theorem faithful_decAtomic (hm : bits w 2 6 = 14) : Faithful w x1 x2 (decAtomic w) := by
  refine faithful_only00 fun hl => ?_
  have fn {k : Nat} (hk : bits w 25 4 = k) : fFn w = (osOf (fOs w)).code % 2 + 2 * b2n (bit w 24) + 4 * k := by
    subst hk
    rw [osOf_fOs_code, b2n_bit]
    simp only [fFn, fOs, bits]
    omega
  have leaf {i : Instr} {k : Nat} (hk : bits w 25 4 = k) (hi : i.wellFormed = true)
      (he : encode i = (eReg 0 14 (fRd w).val (fRs1 w).val (fRs2 w).val ((osOf (fOs w)).code % 2 + 2 * b2n (bit w 24) + 4 * k)
        ((osOf (fOs w)).code / 2), 0, 0)) : Faithful w x1 x2 (.instr i) :=
    faithful_short hl hi he (eReg_eq hl hm rfl rfl rfl (fn hk) (fOpt_os w))
  split
  case h_12 hk =>
    refine faithful_chk faithful_zero fun hd => ?_
    have hd : bit w 24 = true := by simpa using hd
    exact faithful_short hl rfl rfl (eReg_eq hl hm rfl rfl rfl (by rw [fn hk, hd]; rfl) (fOpt_os w))
  case h_13 => exact faithful_zero
  all_goals exact leaf ‹_› rfl rfl

theorem pathOf_ne : ∀ c < 6, ∀ d < 6, c ≠ d → (pathOf c != pathOf d) = true := by decide

theorem faithful_decFence (hm : bits w 2 6 = 15) : Faithful w x1 x2 (decFence w) := by
  refine faithful_only00 fun hl => faithful_chk faithful_zero fun ho => ?_
  have rd (h : badScope w = false) : (fRd w).val = (kindOf (bits w 8 2)).code + 4 * ((scopeOf (bits w 10 3 - 1)).code + 1) := by
    simp [badScope] at h
    rw [code_kindOf _ (by simp only [bits]; omega), code_scopeOf _ (by omega)]
    simp only [bits, fRd, Fin.ofNat] at h ⊢
    omega
  split
  · refine faithful_chk faithful_zero fun h => ?_
    obtain ⟨hz, hs⟩ : bits w 13 10 = 0 ∧ badScope w = false := by simpa using h
    simp only [bits] at hz
    refine faithful_short hl rfl rfl (eReg_eq hl hm (rd hs) ?_ ?_ ‹_› (of_passed ho))
    · simp only [fRs1, Fin.ofNat]; omega
    · simp only [fRs2, Fin.ofNat]; omega
  · refine faithful_chk faithful_zero fun h => ?_
    obtain ⟨⟨⟨⟨⟨h16, h21⟩, hs⟩, hp⟩, hq⟩, hpq⟩ : ((((bits w 16 2 = 0 ∧ bits w 21 2 = 0) ∧ badScope w = false) ∧ bits w 13 3 ≤ 5) ∧
      bits w 18 3 ≤ 5) ∧ bits w 13 3 ≠ bits w 18 3 := by simpa using h
    refine faithful_short hl (pathOf_ne _ (by omega) _ (by omega) hpq) rfl (eReg_eq hl hm (rd hs) ?_ ?_ ‹_› (of_passed ho))
    · rw [code_pathOf _ (by omega)]
      simp only [bits, fRs1, Fin.ofNat] at h16 ⊢
      omega
    · rw [code_pathOf _ (by omega)]
      simp only [bits, fRs2, Fin.ofNat] at h21 ⊢
      omega
  · refine faithful_chk faithful_zero fun h => ?_
    have hz := of_passed h
    simp only [bits] at hz
    refine faithful_short hl rfl rfl (eReg_eq hl hm ?_ ?_ ?_ ‹_› (of_passed ho))
    · simp only [fRd, Fin.ofNat]; omega
    · simp only [fRs1, Fin.ofNat]; omega
    · simp only [fRs2, Fin.ofNat]; omega
  · exact faithful_zero

theorem precOf_bits_code (w : Nat) : (precOf (bits w 23 2)).code = bits w 23 2 := code_precOf _ (by simp only [bits]; omega)

theorem fFn_prec (hk : bits w 25 4 = k) : fFn w = (precOf (bits w 23 2)).code + 4 * k := by
  subst hk
  rw [precOf_bits_code]
  simp only [fFn, bits]
  omega

/-- OPT as a rounding code, of which 7 is reserved. -/
theorem fOpt_rm (h : fOpt w ≠ 7) : fOpt w = (rmOf (fOpt w)).code := by
  refine (code_rmOf _ ?_).symm
  simp only [fOpt, bits] at h ⊢
  omega

theorem faithful_decFp (hm : bits w 2 6 = 16) : Faithful w x1 x2 (decFp w) := by
  refine faithful_only00 fun hl => ?_
  have rounded {i : Instr} {k : Nat} (hk : bits w 25 4 = k) (hi : i.wellFormed = true)
      (he : encode i = (eReg 0 16 (fRd w).val (fRs1 w).val (fRs2 w).val ((precOf (bits w 23 2)).code + 4 * k) (rmOf (fOpt w)).code,
        0, 0)) : Faithful w x1 x2 (chk (fOpt w = 7) 0 (.instr i)) :=
    faithful_chk faithful_zero fun ho =>
      faithful_short hl hi he (eReg_eq hl hm rfl rfl rfl (fFn_prec hk) (fOpt_rm (of_decide_eq_false ho)))
  have exact2 {i : Instr} {k : Nat} (hk : bits w 25 4 = k) (hi : i.wellFormed = true)
      (he : encode i = (eReg 0 16 (fRd w).val (fRs1 w).val (fRs2 w).val ((precOf (bits w 23 2)).code + 4 * k) 0, 0, 0)) :
      Faithful w x1 x2 (chk (fOpt w ≠ 0) 0 (.instr i)) :=
    faithful_chk faithful_zero fun ho => faithful_short hl hi he (eReg_eq hl hm rfl rfl rfl (fFn_prec hk) (of_passed ho))
  have exact1 {i : Instr} {k : Nat} (hk : bits w 25 4 = k) (hi : i.wellFormed = true)
      (he : encode i = (eReg 0 16 (fRd w).val (fRs1 w).val 0 ((precOf (bits w 23 2)).code + 4 * k) 0, 0, 0)) :
      Faithful w x1 x2 (chk (fOpt w ≠ 0 || fRs2 w ≠ 0) 0 (.instr i)) := by
    refine faithful_chk faithful_zero fun h => ?_
    obtain ⟨ho, hb⟩ : fOpt w = 0 ∧ fRs2 w = 0 := by simpa using h
    exact faithful_short hl hi he (eReg_eq hl hm rfl rfl (congrArg Fin.val hb) (fFn_prec hk) ho)
  split
  case h_1 | h_2 | h_3 | h_4 => exact rounded ‹_› rfl rfl
  case h_5 hk =>
    refine faithful_chk faithful_zero fun h => ?_
    obtain ⟨ho, hb⟩ : fOpt w ≠ 7 ∧ fRs2 w = 0 := by simpa using h
    exact faithful_short hl rfl rfl (eReg_eq hl hm rfl rfl (congrArg Fin.val hb) (fFn_prec hk) (fOpt_rm ho))
  case h_11 | h_13 => exact exact1 ‹_› rfl rfl
  case h_14 => exact faithful_zero
  all_goals exact exact2 ‹_› rfl rfl

theorem faithful_decFma (hm : bits w 2 6 = 17) : Faithful w x1 x2 (decFma w x1) := by
  refine faithful_chk faithful_literal fun h2 => faithful_chk faithful_zero fun h => ?_
  obtain ⟨hz, ho⟩ : bits w 26 3 = 0 ∧ fOpt w ≠ 7 := by simpa using h
  have fn {k : Nat} (hk : w / 2 ^ 25 % 2 = k) : fFn w = (precOf (bits w 23 2)).code + 4 * k :=
    fFn_prec (by simp only [bits] at hz ⊢; omega)
  have word {len k : Nat} (hl : w % 4 = len) (hk : w / 2 ^ 25 % 2 = k) :
      w < 2 ^ 32 → eReg len 17 (fRd w).val (fRs1 w).val (fRs2 w).val ((precOf (bits w 23 2)).code + 4 * k) (rmOf (fOpt w)).code = w :=
    eReg_eq hl hm rfl rfl rfl (fn hk) (fOpt_rm ho)
  have one (h : bit w 25 = true) : w / 2 ^ 25 % 2 = 1 := by simpa [bit] using h
  have zero (h : ¬bit w 25 = true) : w / 2 ^ 25 % 2 = 0 := bit_eq_false (by simpa using h)
  split
  · next hl =>
    split
    · exact faithful_short hl rfl rfl (word hl (one ‹_›))
    · exact faithful_short hl rfl rfl (word hl (zero ‹_›))
  · next hl =>
    have hl : w % 4 = 2 := by simp at h2; omega
    refine faithful_chk faithful_zero fun hx => ?_
    have hy : (Fin.ofNat 32 x1).val = x1 := Nat.mod_eq_of_lt (by have := of_passed hx; omega)
    split
    · exact faithful_long (.inr hl) rfl rfl (word hl (one ‹_›)) fun _ => hy
    · exact faithful_long (.inr hl) rfl rfl (word hl (zero ‹_›)) fun _ => hy

theorem numOf_ok : ∀ d < 8, ∀ s < 8, d ≠ s → d < 4 ∨ s < 4 →
    (numOf d != numOf s && !((numOf d).isInt && (numOf s).isInt)) = true := by decide

theorem faithful_decCvt (hm : bits w 2 6 = 18) : Faithful w x1 x2 (decCvt w) := by
  refine faithful_only00 fun hl => faithful_chk faithful_zero fun h => ?_
  obtain ⟨⟨⟨ho, hb⟩, hne⟩, hint⟩ : ((fOpt w ≠ 7 ∧ fRs2 w = 0) ∧ bits w 23 3 ≠ bits w 26 3) ∧ (4 ≤ bits w 23 3 → bits w 26 3 < 4) := by
    simpa using h
  have hd : bits w 23 3 < 8 := by simp only [bits]; omega
  have hs : bits w 26 3 < 8 := by simp only [bits]; omega
  refine faithful_short hl (numOf_ok _ hd _ hs hne (by omega)) rfl (eReg_eq hl hm rfl rfl (congrArg Fin.val hb) ?_ (fOpt_rm ho))
  rw [code_numOf _ hd, code_numOf _ hs]
  simp only [fFn, bits]
  omega

theorem faithful_decVecInt (hm : bits w 2 6 = 20) : Faithful w x1 x2 (decVecInt w) := by
  refine faithful_only00 fun hl => faithful_chk faithful_zero fun ht => ?_
  have ht : bits w 23 3 < 4 := by simp at ht; omega
  have hc : bits w 23 3 = (tyOf (bits w 23 3)).code := (code_tyOf _ (by omega)).symm
  have leaf {i : Instr} {k : Nat} (hk : bits w 26 6 = k) (hi : i.wellFormed = (tyOf (bits w 23 3)).isInt)
      (he : encode i = (eVec 20 (fVd w).val (fVs1 w).val (fVs2 w).val (fVm w).val (tyOf (bits w 23 3)).code k, 0, 0)) :
      Faithful w x1 x2 (.instr i) :=
    faithful_short hl (hi.trans (isInt_tyOf _ ht)) he (eVec_eq hl hm rfl rfl rfl rfl hc hk)
  split
  case h_7 => exact faithful_chk faithful_zero fun hb =>
    faithful_short hl (isInt_tyOf _ ht) rfl (eVec_eq hl hm rfl rfl (congrArg Fin.val (of_passed hb)) rfl hc ‹_›)
  case h_16 => exact faithful_zero
  all_goals exact leaf ‹_› rfl rfl

theorem wide_tyOf : ∀ c < 7, 4 ≤ c → c ≠ 5 → (tyOf c == .bf16 || tyOf c == .fp32) = true := by decide

theorem faithful_decVecFloat (hm : bits w 2 6 = 21) : Faithful w x1 x2 (decVecFloat w) := by
  refine faithful_only00 fun hl => faithful_chk faithful_zero fun ht => ?_
  obtain ⟨h4, h7⟩ : 4 ≤ bits w 23 3 ∧ bits w 23 3 ≠ 7 := by simpa using ht
  have ht : bits w 23 3 < 7 := by simp only [bits] at h7 ⊢; omega
  have hc : bits w 23 3 = (tyOf (bits w 23 3)).code := (code_tyOf _ ht).symm
  have leaf {i : Instr} {k : Nat} (hk : bits w 26 6 = k) (hi : i.wellFormed = !(tyOf (bits w 23 3)).isInt)
      (he : encode i = (eVec 21 (fVd w).val (fVs1 w).val (fVs2 w).val (fVm w).val (tyOf (bits w 23 3)).code k, 0, 0)) :
      Faithful w x1 x2 (.instr i) :=
    faithful_short hl (hi.trans (not_isInt_tyOf _ ht h4)) he (eVec_eq hl hm rfl rfl rfl rfl hc hk)
  have wide {i : Instr} {k : Nat} (hk : bits w 26 6 = k)
      (hi : i.wellFormed = (tyOf (bits w 23 3) == .bf16 || tyOf (bits w 23 3) == .fp32))
      (he : encode i = (eVec 21 (fVd w).val (fVs1 w).val 0 (fVm w).val (tyOf (bits w 23 3)).code k, 0, 0)) :
      Faithful w x1 x2 (chk (fVs2 w ≠ 0 || bits w 23 3 == 5) 0 (.instr i)) := by
    refine faithful_chk faithful_zero fun h => ?_
    obtain ⟨hb, h5⟩ : fVs2 w = 0 ∧ bits w 23 3 ≠ 5 := by simpa using h
    exact faithful_short hl (hi.trans (wide_tyOf _ ht h4 h5)) he (eVec_eq hl hm rfl rfl (congrArg Fin.val hb) rfl hc hk)
  split
  case h_5 => exact faithful_chk faithful_zero fun hb =>
    faithful_short hl (not_isInt_tyOf _ ht h4) rfl (eVec_eq hl hm rfl rfl (congrArg Fin.val (of_passed hb)) rfl hc ‹_›)
  case h_8 | h_9 | h_10 => exact wide ‹_› rfl rfl
  case h_11 => exact faithful_zero
  all_goals exact leaf ‹_› rfl rfl

/-! Four-bit registers in five-bit fields: the top bit is 0 (R46). -/

theorem fRd_of_bit (h : bit w 12 = false) : (fRd w).val = (fVd w).val := by
  have h := bit_eq_false h
  simp only [fRd, fVd, Fin.ofNat]
  omega

theorem fRs2_of_bit (h : bit w 22 = false) : (fRs2 w).val = (fV2 w).val := by
  have h := bit_eq_false h
  simp only [fRs2, fV2, Fin.ofNat]
  omega

theorem fVd_of_bit (h : bit w 11 = false) : (fVd w).val = (Fin.ofNat 8 (w / 2 ^ 8)).val := by
  have h := bit_eq_false h
  simp only [fVd, Fin.ofNat]
  omega

theorem fFn_mask (hk : bits w 23 3 = k) : fFn w = k + 8 * (Fin.ofNat 8 (w / 2 ^ 26)).val := by
  subst hk
  simp only [fFn, bits, Fin.ofNat]
  omega

theorem fOpt_esize (h : fOpt w ≤ 3) : fOpt w = (esizeOf (fOpt w)).code := (code_esizeOf _ (by omega)).symm

theorem faithful_decVecMem0 (hl : w % 4 = 0) (hm : bits w 2 6 = 22) : Faithful w x1 x2 (decVecMem0 w) := by
  have plain {i : Instr} {k : Nat} (hk : bits w 23 3 = k) (hi : i.wellFormed = true)
      (he : encode i = (eReg 0 22 (fVd w).val (fRs1 w).val (fOff5 w).toNat (k + 8 * (Fin.ofNat 8 (w / 2 ^ 26)).val) 0, 0, 0)) :
      Faithful w x1 x2 (chk (bit w 12) 6 (chk (fOpt w ≠ 0) 0 (.instr i))) :=
    faithful_chk faithful_register fun hd => faithful_chk faithful_zero fun ho =>
      faithful_short hl hi he (eReg_eq hl hm (fRd_of_bit hd) rfl rfl (fFn_mask hk) (of_passed ho))
  have indexed {i : Instr} {k : Nat} (hk : bits w 23 3 = k) (hi : i.wellFormed = true)
      (he : encode i = (eReg 0 22 (fVd w).val (fRs1 w).val (fV2 w).val (k + 8 * (Fin.ofNat 8 (w / 2 ^ 26)).val)
        (esizeOf (fOpt w)).code, 0, 0)) :
      Faithful w x1 x2 (chk (bit w 12 || bit w 22) 6 (chk (decide (fOpt w > 3)) 0 (.instr i))) := by
    refine faithful_chk faithful_register fun h => faithful_chk faithful_zero fun ho => ?_
    obtain ⟨hd, hb⟩ : bit w 12 = false ∧ bit w 22 = false := by simpa using h
    exact faithful_short hl hi he
      (eReg_eq hl hm (fRd_of_bit hd) rfl (fRs2_of_bit hb) (fFn_mask hk) (fOpt_esize (by simpa using ho)))
  unfold decVecMem0
  split
  · exact plain ‹_› rfl rfl
  · exact plain ‹_› rfl rfl
  · exact indexed ‹_› rfl rfl
  · exact indexed ‹_› rfl rfl
  · exact faithful_chk faithful_register fun hd => faithful_chk faithful_zero fun ho =>
      faithful_short hl rfl rfl (eReg_eq hl hm (fRd_of_bit hd) rfl rfl (fFn_mask ‹_›) (fOpt_esize (by simpa using ho)))
  · exact faithful_zero

theorem faithful_decVecMem1 (hl : w % 4 = 1) (hm : bits w 2 6 = 22) :
    Faithful w x1 x2 (decVecMem1 w x1) := by
  have plain {i : Instr} {k : Nat} (hk : bits w 23 3 = k) (hi : i.wellFormed = true)
      (he : encode i = (eReg 1 22 (fVd w).val (fRs1 w).val 0 (k + 8 * (Fin.ofNat 8 (w / 2 ^ 26)).val) 0, (fLit x1).toNat, 0)) :
      Faithful w x1 x2 (chk (bit w 12) 6 (chk (fOpt w ≠ 0 || fRs2 w ≠ 0) 0 (.instr i))) := by
    refine faithful_chk faithful_register fun hd => faithful_chk faithful_zero fun h => ?_
    obtain ⟨ho, hb⟩ : fOpt w = 0 ∧ fRs2 w = 0 := by simpa using h
    exact faithful_long (.inl hl) hi he (eReg_eq hl hm (fRd_of_bit hd) rfl (congrArg Fin.val hb) (fFn_mask hk) ho) fLit_toNat
  unfold decVecMem1
  split
  · exact plain ‹_› rfl rfl
  · exact plain ‹_› rfl rfl
  · exact faithful_literal
  · exact faithful_literal
  · refine faithful_chk faithful_register fun hd => faithful_chk faithful_zero fun h => ?_
    obtain ⟨ho, hb⟩ : fOpt w ≤ 3 ∧ fRs2 w = 0 := by simpa using h
    exact faithful_long (.inl hl) rfl rfl
      (eReg_eq hl hm (fRd_of_bit hd) rfl (congrArg Fin.val hb) (fFn_mask ‹_›) (fOpt_esize ho)) fLit_toNat
  · exact faithful_zero

theorem faithful_decVecMem2 (hl : w % 4 = 2) (hm : bits w 2 6 = 22) : Faithful w x1 x2 (decVecMem2 w x1) := by
  have plain {i : Instr} {k : Nat} (hk : bits w 23 3 = k) (hi : i.wellFormed = true)
      (he : encode i = (eReg 2 22 (fVd w).val (fRs1 w).val 0 (k + 8 * (Fin.ofNat 8 (w / 2 ^ 26)).val) 0, (fOff47 x1).toNat, 0)) :
      Faithful w x1 x2 (chk (bit w 12) 6 (chk (fOpt w ≠ 0 || fRs2 w ≠ 0 || x1 / 2 ^ 47 ≠ 0) 0 (.instr i))) := by
    refine faithful_chk faithful_register fun hd => faithful_chk faithful_zero fun h => ?_
    obtain ⟨⟨ho, hb⟩, hx⟩ : (fOpt w = 0 ∧ fRs2 w = 0) ∧ x1 / 2 ^ 47 = 0 := by simpa using h
    exact faithful_long (.inr hl) hi he (eReg_eq hl hm (fRd_of_bit hd) rfl (congrArg Fin.val hb) (fFn_mask hk) ho) fun _ => fOff47_toNat hx
  unfold decVecMem2
  split
  · exact plain ‹_› rfl rfl
  · exact plain ‹_› rfl rfl
  · exact faithful_extended
  · exact faithful_extended
  · refine faithful_chk faithful_register fun hd => faithful_chk faithful_zero fun h => ?_
    obtain ⟨⟨ho, hb⟩, hx⟩ : (fOpt w ≤ 3 ∧ fRs2 w = 0) ∧ x1 / 2 ^ 47 = 0 := by simpa using h
    exact faithful_long (.inr hl) rfl rfl
      (eReg_eq hl hm (fRd_of_bit hd) rfl (congrArg Fin.val hb) (fFn_mask ‹_›) (fOpt_esize ho)) fun _ => fOff47_toNat hx
  · exact faithful_zero

theorem faithful_decVecMem3 : Faithful w x1 x2 (decVecMem3 w) := by
  unfold decVecMem3
  split
  case h_4 | h_5 => exact faithful_extended
  all_goals exact faithful_literal

theorem faithful_decVecMem (hm : bits w 2 6 = 22) : Faithful w x1 x2 (decVecMem w x1) := by
  unfold decVecMem
  split
  · exact faithful_decVecMem0 ‹_› hm
  · split
    · exact faithful_decVecMem1 ‹_› hm
    · split
      · exact faithful_decVecMem2 ‹_› hm
      · exact faithful_decVecMem3

theorem tyOf_ne : ∀ c < 7, ∀ d < 7, c ≠ d → (tyOf c != tyOf d) = true := by decide

theorem ty_of_ne_seven (h : bits w 23 3 ≠ 7) : bits w 23 3 < 7 ∧ bits w 23 3 = (tyOf (bits w 23 3)).code := by
  have ht : bits w 23 3 < 7 := by simp only [bits] at h ⊢; omega
  exact ⟨ht, (code_tyOf _ ht).symm⟩

theorem faithful_decVecPerm (hm : bits w 2 6 = 23) : Faithful w x1 x2 (decVecPerm w) := by
  refine faithful_only00 fun hl => ?_
  have full {i : Instr} {k : Nat} (hk : bits w 26 6 = k) (hi : i.wellFormed = true)
      (he : encode i = (eVec 23 (fVd w).val (fVs1 w).val (fVs2 w).val (fVm w).val (tyOf (bits w 23 3)).code k, 0, 0)) :
      Faithful w x1 x2 (chk (bits w 23 3 == 7) 0 (.instr i)) := by
    refine faithful_chk faithful_zero fun ht => ?_
    obtain ⟨-, hc⟩ := ty_of_ne_seven (w := w) (by simpa using ht)
    exact faithful_short hl hi he (eVec_eq hl hm rfl rfl rfl rfl hc hk)
  have compare {i : Instr} {k : Nat} (hk : bits w 26 6 = k) (hi : i.wellFormed = true)
      (he : encode i = (eVec 23 (fMd w).val (fVs1 w).val (fVs2 w).val (fVm w).val (tyOf (bits w 23 3)).code k, 0, 0)) :
      Faithful w x1 x2 (chk (bit w 11) 6 (chk (bits w 23 3 == 7) 0 (.instr i))) := by
    refine faithful_chk faithful_register fun hd => faithful_chk faithful_zero fun ht => ?_
    obtain ⟨-, hc⟩ := ty_of_ne_seven (w := w) (by simpa using ht)
    exact faithful_short hl hi he (eVec_eq hl hm (fVd_of_bit hd) rfl rfl rfl hc hk)
  have unsigned {i : Instr} {k : Nat} (hk : bits w 26 6 = k) (hi : i.wellFormed = (tyOf (bits w 23 3)).isInt)
      (he : encode i = (eVec 23 (fMd w).val (fVs1 w).val (fVs2 w).val (fVm w).val (tyOf (bits w 23 3)).code k, 0, 0)) :
      Faithful w x1 x2 (chk (bit w 11) 6 (chk (decide (bits w 23 3 > 3)) 0 (.instr i))) := by
    refine faithful_chk faithful_register fun hd => faithful_chk faithful_zero fun ht => ?_
    have ht : bits w 23 3 < 4 := by simp at ht; omega
    exact faithful_short hl (hi.trans (isInt_tyOf _ ht)) he
      (eVec_eq hl hm (fVd_of_bit hd) rfl rfl rfl (code_tyOf _ (by omega)).symm hk)
  have single {i : Instr} {k : Nat} (hk : bits w 26 6 = k) (hi : i.wellFormed = true)
      (he : encode i = (eVec 23 (fVd w).val (fVs1 w).val 0 (fVm w).val (tyOf (bits w 23 3)).code k, 0, 0)) :
      Faithful w x1 x2 (chk (bits w 23 3 == 7 || fVs2 w ≠ 0) 0 (.instr i)) := by
    refine faithful_chk faithful_zero fun h => ?_
    obtain ⟨ht, hb⟩ : bits w 23 3 ≠ 7 ∧ fVs2 w = 0 := by simpa using h
    exact faithful_short hl hi he (eVec_eq hl hm rfl rfl (congrArg Fin.val hb) rfl (ty_of_ne_seven ht).2 hk)
  have unmasked {i : Instr} {k : Nat} (hk : bits w 26 6 = k) (hi : i.wellFormed = true)
      (he : encode i = (eVec 23 (fVd w).val (fVs1 w).val (fVs2 w).val 0 (tyOf (bits w 23 3)).code k, 0, 0)) :
      Faithful w x1 x2 (chk (bits w 23 3 == 7 || fVm w ≠ 0) 0 (.instr i)) := by
    refine faithful_chk faithful_zero fun h => ?_
    obtain ⟨ht, hv⟩ : bits w 23 3 ≠ 7 ∧ fVm w = 0 := by simpa using h
    exact faithful_short hl hi he (eVec_eq hl hm rfl rfl rfl (congrArg Fin.val hv) (ty_of_ne_seven ht).2 hk)
  split
  case h_1 | h_2 | h_3 | h_4 => exact compare ‹_› rfl rfl
  case h_5 | h_6 => exact unsigned ‹_› rfl rfl
  case h_7 | h_11 | h_12 => exact full ‹_› rfl rfl
  case h_8 | h_13 | h_14 | h_15 | h_17 => exact single ‹_› rfl rfl
  case h_9 | h_10 => exact unmasked ‹_› rfl rfl
  case h_16 =>
    refine faithful_chk faithful_zero fun h => ?_
    obtain ⟨⟨⟨ht, h19⟩, hs⟩, hne⟩ : ((bits w 23 3 ≠ 7 ∧ bit w 19 = false) ∧ bits w 16 3 ≠ 7) ∧ bits w 16 3 ≠ bits w 23 3 := by
      simpa using h
    obtain ⟨htl, hc⟩ := ty_of_ne_seven ht
    have hsl : bits w 16 3 < 7 := by simp only [bits] at hs ⊢; omega
    refine faithful_short hl (tyOf_ne _ htl _ hsl hne.symm) rfl (eVec_eq hl hm rfl rfl ?_ rfl hc ‹_›)
    rw [code_tyOf _ hsl]
    have h19 := bit_eq_false h19
    simp only [fVs2, bits, Fin.ofNat]
    omega
  case h_18 => exact faithful_zero

/-! Mask registers in five-bit fields: the top two bits are 0 (R46). -/

theorem fRd_mask (h : bits w 8 5 ≤ 7) : (fRd w).val = (fMd w).val := by
  simp only [bits, fRd, fMd, Fin.ofNat] at h ⊢
  omega

theorem fRs1_mask (h : bits w 13 5 ≤ 7) : (fRs1 w).val = (Fin.ofNat 8 (w / 2 ^ 13)).val := by
  simp only [bits, fRs1, Fin.ofNat] at h ⊢
  omega

theorem fRs2_mask (h : bits w 18 5 ≤ 7) : (fRs2 w).val = (Fin.ofNat 8 (w / 2 ^ 18)).val := by
  simp only [bits, fRs2, Fin.ofNat] at h ⊢
  omega

theorem faithful_decMask (hm : bits w 2 6 = 24) : Faithful w x1 x2 (decMask w) := by
  refine faithful_only00 fun hl => ?_
  have binary {i : Instr} {k : Nat} (hk : fFn w = k) (hi : i.wellFormed = true)
      (he : encode i = (eReg 0 24 (fMd w).val (Fin.ofNat 8 (w / 2 ^ 13)).val (Fin.ofNat 8 (w / 2 ^ 18)).val k 0, 0, 0)) :
      Faithful w x1 x2 (chk (decide (bits w 8 5 > 7) || decide (bits w 13 5 > 7) || decide (bits w 18 5 > 7)) 6
        (chk (fOpt w ≠ 0) 0 (.instr i))) := by
    refine faithful_chk faithful_register fun h => faithful_chk faithful_zero fun ho => ?_
    obtain ⟨⟨hd, ha⟩, hb⟩ : (bits w 8 5 ≤ 7 ∧ bits w 13 5 ≤ 7) ∧ bits w 18 5 ≤ 7 := by simpa using h
    exact faithful_short hl hi he (eReg_eq hl hm (fRd_mask hd) (fRs1_mask ha) (fRs2_mask hb) hk (of_passed ho))
  have unary {i : Instr} {d a k : Nat} (hd : (fRd w).val = d) (ha : (fRs1 w).val = a) (hk : fFn w = k) (hi : i.wellFormed = true)
      (he : encode i = (eReg 0 24 d a 0 k 0, 0, 0)) : Faithful w x1 x2 (chk (fOpt w ≠ 0 || fRs2 w ≠ 0) 0 (.instr i)) := by
    refine faithful_chk faithful_zero fun h => ?_
    obtain ⟨ho, hb⟩ : fOpt w = 0 ∧ fRs2 w = 0 := by simpa using h
    exact faithful_short hl hi he (eReg_eq hl hm hd ha (congrArg Fin.val hb) hk ho)
  have ofMask {i : Instr} {k : Nat} (hk : fFn w = k) (hi : i.wellFormed = true)
      (he : encode i = (eReg 0 24 (fRd w).val (Fin.ofNat 8 (w / 2 ^ 13)).val 0 k 0, 0, 0)) :
      Faithful w x1 x2 (chk (decide (bits w 13 5 > 7)) 6 (chk (fOpt w ≠ 0 || fRs2 w ≠ 0) 0 (.instr i))) :=
    faithful_chk faithful_register fun ha => unary rfl (fRs1_mask (by simpa using ha)) hk hi he
  split
  case h_1 | h_2 | h_3 => exact binary ‹_› rfl rfl
  case h_4 =>
    refine faithful_chk faithful_register fun h => ?_
    obtain ⟨hd, ha⟩ : bits w 8 5 ≤ 7 ∧ bits w 13 5 ≤ 7 := by simpa using h
    exact unary (fRd_mask hd) (fRs1_mask ha) ‹_› rfl rfl
  case h_7 => exact faithful_chk faithful_register fun hd => unary (fRd_mask (by simpa using hd)) rfl ‹_› rfl rfl
  case h_9 => exact faithful_zero
  all_goals exact ofMask ‹_› rfl rfl

theorem faithful_decVecFma (hm : bits w 2 6 = 25) : Faithful w x1 x2 (decVecFma w) := by
  refine faithful_only00 fun hl => ?_
  split
  · refine faithful_chk faithful_zero fun h => ?_
    obtain ⟨h4, h7⟩ : 4 ≤ bits w 23 3 ∧ bits w 23 3 ≠ 7 := by simpa using h
    obtain ⟨ht, hc⟩ := ty_of_ne_seven h7
    exact faithful_short hl (not_isInt_tyOf _ ht h4) rfl (eVec_eq hl hm rfl rfl rfl rfl hc ‹_›)
  · exact faithful_chk faithful_zero fun ht => faithful_short hl rfl rfl (eVec_eq hl hm rfl rfl rfl rfl (of_passed ht) ‹_›)
  · exact faithful_zero

theorem faithful_decTileMem (hm : bits w 2 6 = 28) : Faithful w x1 x2 (decTileMem w) := by
  refine faithful_only00 fun hl => ?_
  have leaf {i : Instr} {d k : Nat} (hd : (fVd w).val = d) (hk : bits w 25 4 = k) (hi : i.wellFormed = true)
      (he : encode i = (eTil 28 d 0 (fVs2 w).val (Fin.ofNat 32 (w / 2 ^ 20)).val k 0, 0, 0)) :
      Faithful w x1 x2 (chk (fVs1 w ≠ 0 || fOpt w ≠ 0) 0 (.instr i)) := by
    refine faithful_chk faithful_zero fun h => ?_
    obtain ⟨ha, ho⟩ : fVs1 w = 0 ∧ fOpt w = 0 := by simpa using h
    exact faithful_short hl hi he (eTil_eq hl hm hd (congrArg Fin.val ha) rfl rfl hk ho)
  split
  case h_5 | h_6 => exact faithful_chk faithful_register fun hd => leaf (fVd_of_bit hd) ‹_› rfl rfl
  case h_7 => exact faithful_zero
  all_goals exact leaf rfl ‹_› rfl rfl

theorem faithful_decTileComp (hm : bits w 2 6 = 29) : Faithful w x1 x2 (decTileComp w) := by
  refine faithful_only00 fun hl => ?_
  split
  · refine faithful_chk faithful_register fun hd => faithful_chk faithful_zero fun h => ?_
    obtain ⟨hr, ho⟩ : bits w 20 5 = 0 ∧ fOpt w = 0 := by simpa using h
    exact faithful_short hl rfl rfl (eTil_eq hl hm (fVd_of_bit hd) rfl rfl hr ‹_› ho)
  · have hc : (BitVec.ofNat 5 (8 * bits w 23 2 + bits w 29 3)).toNat = 8 * bits w 23 2 + bits w 29 3 :=
      Nat.mod_eq_of_lt (by simp only [bits]; omega)
    refine faithful_short hl rfl rfl (eTil_eq hl hm rfl rfl rfl ?_ ‹_› ?_) <;>
    · rw [hc]
      simp only [fOpt, bits, Fin.ofNat]
      omega
  · refine faithful_chk faithful_register fun hd => faithful_chk faithful_zero fun h => ?_
    obtain ⟨h11, h15⟩ : bit w 11 = false ∧ bit w 15 = false := by simpa using hd
    obtain ⟨⟨hb, hr⟩, ho⟩ : (fVs2 w = 0 ∧ bits w 20 5 = 0) ∧ fOpt w = 0 := by simpa using h
    refine faithful_short hl rfl rfl (eTil_eq hl hm (fVd_of_bit h11) ?_ (congrArg Fin.val hb) hr ‹_› ho)
    have h15 := bit_eq_false h15
    simp only [fVs1, Fin.ofNat]
    omega
  · exact faithful_zero

theorem faithful_decTileMisc (hm : bits w 2 6 = 30) : Faithful w x1 x2 (decTileMisc w) := by
  refine faithful_only00 fun hl => ?_
  have none_behind_td (h : bits w 12 13 = 0) : (fVs1 w).val = 0 ∧ (fVs2 w).val = 0 ∧ bits w 20 5 = 0 := by
    simp only [bits, fVs1, fVs2, Fin.ofNat] at h ⊢
    omega
  have none_behind_ta (h : bits w 16 9 = 0) : (fVs2 w).val = 0 ∧ bits w 20 5 = 0 := by
    simp only [bits, fVs2, Fin.ofNat] at h ⊢
    omega
  have alone {i : Instr} {d k : Nat} (hd : (fVd w).val = d) (hk : bits w 25 4 = k) (hi : i.wellFormed = true)
      (he : encode i = (eTil 30 d 0 0 0 k 0, 0, 0)) : Faithful w x1 x2 (chk (bits w 12 13 ≠ 0 || fOpt w ≠ 0) 0 (.instr i)) := by
    refine faithful_chk faithful_zero fun h => ?_
    obtain ⟨hz, ho⟩ : bits w 12 13 = 0 ∧ fOpt w = 0 := by simpa using h
    obtain ⟨ha, hb, hr⟩ := none_behind_td hz
    exact faithful_short hl hi he (eTil_eq hl hm hd ha hb hr hk ho)
  split
  · exact alone rfl ‹_› rfl rfl
  · exact faithful_chk faithful_register fun hd => alone (fVd_of_bit hd) ‹_› rfl rfl
  · refine faithful_chk faithful_zero fun h => ?_
    obtain ⟨hz, ho⟩ : bits w 16 9 = 0 ∧ bits w 30 2 = 0 := by simpa using h
    obtain ⟨hb, hr⟩ := none_behind_ta hz
    refine faithful_short hl rfl rfl (eTil_eq hl hm rfl rfl hb hr ‹_› ?_)
    rw [b2n_bit]
    simp only [fOpt, bits] at ho ⊢
    omega
  · refine faithful_chk faithful_zero fun h => ?_
    obtain ⟨hz, ho⟩ : bits w 16 9 = 0 ∧ fOpt w = 0 := by simpa using h
    obtain ⟨hb, hr⟩ := none_behind_ta hz
    exact faithful_short hl rfl rfl (eTil_eq hl hm rfl rfl hb hr ‹_› ho)
  · exact faithful_zero

theorem faithful_decVersion (hm : bits w 2 6 = 32) : Faithful w x1 x2 (decVersion w) := by
  refine faithful_only00 fun hl => ?_
  have word {d b k : Nat} (hd : (fRd w).val = d) (hb : (fRs2 w).val = b) (hk : bits w 24 5 = k) :
      w < 2 ^ 32 → eReg 0 32 d (fRs1 w).val b ((osOf (fOs w)).code % 2 + 2 * k) ((osOf (fOs w)).code / 2) = w :=
    eReg_eq hl hm hd rfl hb (fFn_os hk) (fOpt_os w)
  split
  · exact faithful_chk faithful_register fun hd => faithful_chk faithful_zero fun h =>
      faithful_short hl (storeOk_of_passed h) rfl (word (fRd_of_bit hd) rfl ‹_›)
  · exact faithful_chk faithful_register fun hd => faithful_chk faithful_zero fun h =>
      faithful_short hl (loadOk_of_passed h) rfl (word (fRd_of_bit hd) rfl ‹_›)
  · exact faithful_chk faithful_register fun hd => faithful_chk faithful_zero fun h =>
      faithful_short hl (loadOk_of_passed h) rfl (word (fRd_of_bit hd) rfl ‹_›)
  · refine faithful_chk faithful_zero fun h => ?_
    obtain ⟨hf, ho⟩ := fFn_of_fOs_zero (of_passed h) ‹_›
    exact faithful_short hl rfl rfl (eReg_eq hl hm rfl rfl rfl hf ho)
  · exact faithful_chk faithful_zero fun h => faithful_short hl (storeOk_of_passed h) rfl (word rfl rfl ‹_›)
  · refine faithful_chk faithful_zero fun h => ?_
    rw [Bool.or_eq_false_iff] at h
    obtain ⟨hz, hs⟩ := h
    obtain ⟨hd, hb⟩ : fRd w = 0 ∧ fRs2 w = 0 := by simpa using hz
    exact faithful_short hl (storeOk_of_passed hs) rfl (word (congrArg Fin.val hd) (congrArg Fin.val hb) ‹_›)
  · exact faithful_zero

/-! The word E of a copy names xn, xc and xv in five bits each (R275). -/

theorem copy_operands (hx : x1 / 2 ^ 15 = 0) :
    (Fin.ofNat 32 x1).val + 2 ^ 5 * (Fin.ofNat 32 (x1 / 2 ^ 5)).val + 2 ^ 10 * (Fin.ofNat 32 (x1 / 2 ^ 10)).val = x1 := by
  simp only [Fin.ofNat]
  omega

theorem ofNat_five_eq_zero (x i : Nat) : Fin.ofNat 32 (x / 2 ^ i) = 0 ↔ bits x i 5 = 0 := Fin.ext_iff

theorem faithful_decCopy (hm : bits w 2 6 = 33) : Faithful w x1 x2 (decCopy w x1 x2) := by
  refine faithful_chk faithful_extended fun hlen => faithful_chk faithful_zero fun h => ?_
  obtain ⟨ho, hx⟩ : fOpt w = 0 ∧ x1 / 2 ^ 15 = 0 := by simpa using h
  have hy := copy_operands hx
  split
  · next hl =>
    refine faithful_chk faithful_zero fun hc => ?_
    have hwf : (Fin.ofNat 32 (x1 / 2 ^ 5) != 0 || Fin.ofNat 32 (x1 / 2 ^ 10) == 0) = true := by
      have hc : bits x1 5 5 = 0 → bits x1 10 5 = 0 := by simpa using hc
      simp only [Bool.or_eq_true, bne_iff_ne, beq_iff_eq, ne_eq, ofNat_five_eq_zero]
      omega
    have leaf {i : Instr} {k : Nat} (hk : fFn w = k)
        (hi : i.wellFormed = (Fin.ofNat 32 (x1 / 2 ^ 5) != 0 || Fin.ofNat 32 (x1 / 2 ^ 10) == 0))
        (he : encode i = (eReg 2 33 (fRd w).val (fRs1 w).val 0 k 0,
          (Fin.ofNat 32 x1).val + 2 ^ 5 * (Fin.ofNat 32 (x1 / 2 ^ 5)).val + 2 ^ 10 * (Fin.ofNat 32 (x1 / 2 ^ 10)).val, 0)) :
        Faithful w x1 x2 (chk (fRs2 w ≠ 0) 0 (.instr i)) :=
      faithful_chk faithful_zero fun hb => faithful_long (.inr hl) (hi.trans hwf) he
        (eReg_eq hl hm rfl rfl (congrArg Fin.val (of_passed hb)) hk ho) fun _ => hy
    split
    case h_4 => exact faithful_long (.inr hl) hwf rfl (eReg_eq hl hm rfl rfl rfl ‹_› ho) fun _ => hy
    case h_7 => exact faithful_zero
    all_goals exact leaf ‹_› rfl rfl
  · next hl =>
    have hl : w % 4 = 3 := by simp at hlen; omega
    refine faithful_chk faithful_zero fun hc => ?_
    obtain ⟨hc, hv⟩ : bits x1 5 5 ≠ 0 ∧ bits x1 10 5 = 0 := by simpa using hc
    have hwf : (Fin.ofNat 32 (x1 / 2 ^ 5) != 0) = true := by rwa [bne_iff_ne, ne_eq, ofNat_five_eq_zero]
    have hy : (Fin.ofNat 32 x1).val + 2 ^ 5 * (Fin.ofNat 32 (x1 / 2 ^ 5)).val = x1 := by
      rwa [(ofNat_five_eq_zero x1 10).mpr hv] at hy
    have leaf {i : Instr} {k : Nat} (hk : fFn w = k) (hi : i.wellFormed = (Fin.ofNat 32 (x1 / 2 ^ 5) != 0))
        (he : encode i = (eReg 3 33 (fRd w).val (fRs1 w).val 0 k 0,
          (Fin.ofNat 32 x1).val + 2 ^ 5 * (Fin.ofNat 32 (x1 / 2 ^ 5)).val, (fLit x2).toNat)) :
        Faithful w x1 x2 (chk (fRs2 w ≠ 0) 0 (.instr i)) :=
      faithful_chk faithful_zero fun hb => faithful_longest hl (hi.trans hwf) he
        (eReg_eq hl hm rfl rfl (congrArg Fin.val (of_passed hb)) hk ho) (fun _ => hy) fLit_toNat
    split
    case h_4 => exact faithful_longest hl hwf rfl (eReg_eq hl hm rfl rfl rfl ‹_› ho) (fun _ => hy) fLit_toNat
    case h_7 => exact faithful_zero
    all_goals exact leaf ‹_› rfl rfl

theorem collOp_ok : ∀ c < 6, ∀ f < 8, c ≤ 2 ∨ f ≤ 3 → (!((collOpOf c).isBitwise && (collFmtOf f).isFloat)) = true := by decide

theorem faithful_decColl (hm : bits w 2 6 = 34) : Faithful w x1 x2 (decColl w x1) := by
  refine faithful_chk faithful_extended fun h2 => faithful_chk faithful_literal fun h3 => faithful_chk faithful_zero fun h => ?_
  have hl : w % 4 = 2 := by simp at h2 h3; omega
  obtain ⟨⟨ho, hx⟩, hf⟩ : (fOpt w = 0 ∧ x1 / 2 ^ 18 = 0) ∧ bits x1 3 4 ≤ 7 := by simpa using h
  have hy : bits x1 0 3 + 2 ^ 3 * (collFmtOf (bits x1 3 4)).code + 2 ^ 7 * b2n (bit x1 7) + 2 ^ 8 * (Fin.ofNat 32 (x1 / 2 ^ 8)).val +
      2 ^ 13 * (Fin.ofNat 32 (x1 / 2 ^ 13)).val = x1 := by
    rw [code_collFmtOf _ (by omega), b2n_bit]
    simp only [bits, Fin.ofNat]
    omega
  have unreduced {i : Instr} {k : Nat} (hk : fFn w = k) (hi : i.wellFormed = true)
      (he : encode i = (eReg 2 34 (fRd w).val (fRs1 w).val (fRs2 w).val k 0, 2 ^ 3 * (collFmtOf (bits x1 3 4)).code +
        2 ^ 7 * b2n (bit x1 7) + 2 ^ 8 * (Fin.ofNat 32 (x1 / 2 ^ 8)).val + 2 ^ 13 * (Fin.ofNat 32 (x1 / 2 ^ 13)).val, 0)) :
      Faithful w x1 x2 (chk (bits x1 0 3 ≠ 0) 0 (.instr i)) := by
    refine faithful_chk faithful_zero fun hz => faithful_long (.inr hl) hi he (eReg_eq hl hm rfl rfl rfl hk ho) fun _ => ?_
    rwa [of_passed hz, Nat.zero_add] at hy
  split
  · refine faithful_chk faithful_zero fun hop => ?_
    obtain ⟨h5, h23⟩ : bits x1 0 3 ≤ 5 ∧ (2 < bits x1 0 3 → bits x1 3 4 ≤ 3) := by simpa using hop
    refine faithful_long (.inr hl) (collOp_ok _ (by omega) _ (by omega) (by omega)) rfl (eReg_eq hl hm rfl rfl rfl ‹_› ho) fun _ => ?_
    rwa [code_collOpOf _ (by omega)]
  · exact unreduced ‹_› rfl rfl
  · exact unreduced ‹_› rfl rfl
  · exact faithful_zero

theorem faithful_decMsg (hm : bits w 2 6 = 35) : Faithful w x1 x2 (decMsg w) := by
  refine faithful_only00 fun hl => ?_
  split
  · exact faithful_chk faithful_register fun hb => faithful_chk faithful_zero fun ho =>
      faithful_short hl rfl rfl (eReg_eq hl hm rfl rfl (fRs2_of_bit hb) ‹_› (of_passed ho))
  · refine faithful_chk faithful_register fun hb => faithful_chk faithful_zero fun h => ?_
    obtain ⟨ho, ha⟩ : fOpt w = 0 ∧ fRs1 w = 0 := by simpa using h
    exact faithful_short hl rfl rfl (eReg_eq hl hm rfl (congrArg Fin.val ha) (fRs2_of_bit hb) ‹_› ho)
  · refine faithful_chk faithful_zero fun h => ?_
    obtain ⟨⟨ho, ha⟩, hb⟩ : (fOpt w = 0 ∧ fRs1 w = 0) ∧ fRs2 w = 0 := by simpa using h
    exact faithful_short hl rfl rfl (eReg_eq hl hm rfl (congrArg Fin.val ha) (congrArg Fin.val hb) ‹_› ho)
  · exact faithful_zero

theorem fRd_fRs1_zero (h : bits w 8 10 = 0) : (fRd w).val = 0 ∧ (fRs1 w).val = 0 := by
  simp only [bits, fRd, fRs1, Fin.ofNat] at h ⊢
  omega

theorem fRs1_fRs2_zero (h : bits w 13 10 = 0) : (fRs1 w).val = 0 ∧ (fRs2 w).val = 0 := by
  simp only [bits, fRs1, fRs2, Fin.ofNat] at h ⊢
  omega

theorem fields_zero (h : bits w 8 15 = 0) : (fRd w).val = 0 ∧ (fRs1 w).val = 0 ∧ (fRs2 w).val = 0 := by
  simp only [bits, fRd, fRs1, fRs2, Fin.ofNat] at h ⊢
  omega

/-- A barrier handle in rs2, 0 to 11 (R309). -/
theorem fRs2_handle (h : bits w 18 5 ≤ 11) : (fRs2 w).val = (Fin.ofNat 12 (bits w 18 5)).val :=
  (Nat.mod_eq_of_lt (by omega : bits w 18 5 < 12)).symm

theorem handle_ne_zero (h : bits w 18 5 ≤ 11) (hz : bits w 18 5 ≠ 0) : (Fin.ofNat 12 (bits w 18 5) != 0) = true := by
  rw [bne_iff_ne, ne_eq, Fin.ext_iff, ← fRs2_handle h]
  exact hz

theorem faithful_decSync (hm : bits w 2 6 = 36) : Faithful w x1 x2 (decSync w) := by
  refine faithful_only00 fun hl => ?_
  split
  · refine faithful_chk faithful_zero fun h => ?_
    obtain ⟨hz, hn⟩ : bits w 30 2 = 0 ∧ (bits w 8 15 = 0 → bit w 29 = true) := by simpa using h
    have hn : bits w 8 15 = 0 → bits w 29 1 = 1 := fun h => by simpa [bit, bits] using hn h
    have hk : fFn w = 0 := ‹_›
    refine faithful_short hl ?_ rfl fun hw => ?_
    · show (BitVec.ofNat 16 (bits w 8 15 + 2 ^ 15 * bits w 29 1) != 0) = true
      rw [bne_iff_ne, ne_eq, ← BitVec.toNat_inj, BitVec.toNat_ofNat]
      simp only [bits] at hn ⊢
      simp only [BitVec.ofNat_eq_ofNat, BitVec.toNat_ofNat]
      omega
    · simp only [BitVec.toNat_ofNat]
      simp only [fFn, bits] at hz hm hk ⊢
      omega
  · exact faithful_chk faithful_zero fun ho => faithful_short hl rfl rfl (eReg_eq hl hm rfl rfl rfl ‹_› (of_passed ho))
  · exact faithful_chk faithful_zero fun ho => faithful_short hl rfl rfl (eReg_eq hl hm rfl rfl rfl ‹_› (of_passed ho))
  · refine faithful_chk faithful_register fun h => faithful_chk faithful_zero fun ho => ?_
    obtain ⟨hd, hb⟩ : bit w 12 = false ∧ bit w 22 = false := by simpa using h
    exact faithful_short hl rfl rfl (eReg_eq hl hm (fRd_of_bit hd) rfl (fRs2_of_bit hb) ‹_› (of_passed ho))
  · exact faithful_chk faithful_register fun hd => faithful_chk faithful_zero fun ho =>
      faithful_short hl rfl rfl (eReg_eq hl hm (fRd_of_bit hd) rfl rfl ‹_› (of_passed ho))
  · refine faithful_chk faithful_zero fun h => ?_
    obtain ⟨⟨⟨ho, hz⟩, hh⟩, hne⟩ : ((fOpt w = 0 ∧ bits w 8 10 = 0) ∧ bits w 18 5 ≤ 11) ∧ bits w 18 5 ≠ 0 := by simpa using h
    obtain ⟨hd, ha⟩ := fRd_fRs1_zero hz
    exact faithful_short hl (handle_ne_zero hh hne) rfl (eReg_eq hl hm hd ha (fRs2_handle hh) ‹_› ho)
  · refine faithful_chk faithful_zero fun h => ?_
    obtain ⟨⟨⟨h30, hz⟩, hh⟩, hs⟩ : ((bits w 30 2 = 0 ∧ bits w 8 10 = 0) ∧ bits w 18 5 ≤ 11) ∧ bit w 29 = (bits w 18 5 == 0) := by
      simpa using h
    obtain ⟨hd, ha⟩ := fRd_fRs1_zero hz
    simp only [bits] at h30
    split
    · next h29 =>
      have hb : bits w 18 5 = 0 := by simpa [h29] using hs
      have h29 : w / 2 ^ 29 % 2 = 1 := by simpa [bit] using h29
      exact faithful_short hl rfl rfl (eReg_eq hl hm hd ha hb ‹_› (by simp only [fOpt, bits]; omega))
    · next h29 =>
      have h29 : bit w 29 = false := by simpa using h29
      have hb : bits w 18 5 ≠ 0 := by simpa [h29] using hs.symm
      have h29 := bit_eq_false h29
      exact faithful_short hl (handle_ne_zero hh hb) rfl
        (eReg_eq hl hm hd ha (fRs2_handle hh) ‹_› (by simp only [fOpt, bits]; omega))
  · refine faithful_chk faithful_zero fun h => ?_
    obtain ⟨⟨ho, ha⟩, hh⟩ : (fOpt w = 0 ∧ fRs1 w = 0) ∧ bits w 18 5 ≤ 11 := by simpa using h
    exact faithful_short hl rfl rfl (eReg_eq hl hm rfl (congrArg Fin.val ha) (fRs2_handle hh) ‹_› ho)
  · exact faithful_zero

theorem faithful_decLink (hm : bits w 2 6 = 37) : Faithful w x1 x2 (decLink w) := by
  refine faithful_only00 fun hl => ?_
  split
  · refine faithful_chk faithful_register fun hb => faithful_chk faithful_zero fun h => ?_
    obtain ⟨ho, hz⟩ : fOpt w = 0 ∧ bits w 8 10 = 0 := by simpa using h
    obtain ⟨hd, ha⟩ := fRd_fRs1_zero hz
    exact faithful_short hl rfl rfl (eReg_eq hl hm hd ha (fRs2_of_bit hb) ‹_› ho)
  · refine faithful_chk faithful_register fun hd => faithful_chk faithful_zero fun h => ?_
    obtain ⟨ho, hz⟩ : fOpt w = 0 ∧ bits w 13 10 = 0 := by simpa using h
    obtain ⟨ha, hb⟩ := fRs1_fRs2_zero hz
    exact faithful_short hl rfl rfl (eReg_eq hl hm (fRd_of_bit hd) ha hb ‹_› ho)
  · refine faithful_chk faithful_zero fun h => ?_
    obtain ⟨ho, hz⟩ : fOpt w = 0 ∧ bits w 13 10 = 0 := by simpa using h
    obtain ⟨ha, hb⟩ := fRs1_fRs2_zero hz
    exact faithful_short hl rfl rfl (eReg_eq hl hm rfl ha hb ‹_› ho)
  · refine faithful_chk faithful_register fun hb => faithful_chk faithful_zero fun h => ?_
    obtain ⟨ho, ha⟩ : fOpt w = 0 ∧ fRs1 w = 0 := by simpa using h
    exact faithful_short hl rfl rfl (eReg_eq hl hm rfl (congrArg Fin.val ha) (fRs2_of_bit hb) ‹_› ho)
  · exact faithful_zero

theorem faithful_decIsland (hm : bits w 2 6 = 38) : Faithful w x1 x2 (decIsland w x1) := by
  unfold decIsland
  split
  · refine faithful_only00 fun hl => faithful_chk faithful_zero fun h => ?_
    obtain ⟨ho, hb⟩ : fOpt w = 0 ∧ fRs2 w = 0 := by simpa using h
    exact faithful_short hl rfl rfl (eReg_eq hl hm rfl rfl (congrArg Fin.val hb) ‹_› ho)
  · refine faithful_chk faithful_extended fun h2 => faithful_chk faithful_literal fun h3 => faithful_chk faithful_zero fun h => ?_
    have hl : w % 4 = 2 := by simp at h2 h3; omega
    obtain ⟨⟨⟨⟨ho, hz⟩, hx⟩, hc⟩, hn⟩ : (((fOpt w = 0 ∧ bits w 8 15 = 0) ∧ x1 / 2 ^ 18 = 0) ∧ bits x1 13 5 ≠ 0) ∧
      bits x1 1 12 + 1 ≤ (if bit x1 0 then 8 else 2048) := by simpa using h
    obtain ⟨hd, ha, hb⟩ := fields_zero hz
    refine faithful_long (.inr hl) ?_ rfl (eReg_eq hl hm hd ha hb ‹_› ho) fun _ => ?_
    · show (Fin.ofNat 32 (x1 / 2 ^ 13) != 0 && decide (bits x1 1 12 + 1 ≤ (if bit x1 0 then 8 else 2048))) = true
      rw [Bool.and_eq_true, decide_eq_true_iff, bne_iff_ne, ne_eq, ofNat_five_eq_zero]
      exact ⟨hc, hn⟩
    · rw [b2n_bit]
      simp only [BitVec.toNat_ofNat, Fin.ofNat]
      omega
  · exact faithful_zero

theorem faithful_decCsr (hm : bits w 2 6 = 48) : Faithful w x1 x2 (decCsr w) := by
  refine faithful_only00 fun hl => ?_
  have word {a k : Nat} (ha : (fRs1 w).val = a) (hk : bits w 30 2 = k) :
      w < 2 ^ 32 → 2 ^ 2 * 48 + 2 ^ 8 * (fRd w).val + 2 ^ 13 * a + 2 ^ 18 * (BitVec.ofNat 12 (w / 2 ^ 18)).toNat + 2 ^ 30 * k = w := by
    intro hw
    subst ha hk
    simp only [bits, fRd, fRs1, Fin.ofNat, BitVec.toNat_ofNat] at hm ⊢
    omega
  split
  · exact faithful_chk faithful_zero fun ha => faithful_short hl rfl rfl (word (congrArg Fin.val (of_passed ha)) ‹_›)
  · exact faithful_short hl rfl rfl (word rfl ‹_›)
  · exact faithful_short hl rfl rfl (word rfl ‹_›)
  · next n0 n1 n2 =>
    have h3 : bits w 30 2 = 3 := by simp only [bits, imp_false] at n0 n1 n2 ⊢; omega
    exact faithful_short hl rfl rfl (word rfl h3)

theorem faithful_decTrap (hm : bits w 2 6 = 49) : Faithful w x1 x2 (decTrap w) := by
  refine faithful_only00 fun hl => faithful_chk faithful_zero fun h => ?_
  obtain ⟨ho, hz⟩ : fOpt w = 0 ∧ bits w 8 15 = 0 := by simpa using h
  obtain ⟨hd, ha, hb⟩ := fields_zero hz
  split
  case h_5 => exact faithful_zero
  all_goals exact faithful_short hl rfl rfl (eReg_eq hl hm hd ha hb ‹_› ho)

theorem faithful_decPriv (hm : bits w 2 6 = 50) : Faithful w x1 x2 (decPriv w) := by
  refine faithful_only00 fun hl => faithful_chk faithful_zero fun ho => ?_
  have bare {i : Instr} {k : Nat} (hk : fFn w = k) (hi : i.wellFormed = true) (he : encode i = (eReg 0 50 0 0 0 k 0, 0, 0)) :
      Faithful w x1 x2 (chk (bits w 8 15 ≠ 0) 0 (.instr i)) := by
    refine faithful_chk faithful_zero fun hz => ?_
    obtain ⟨hd, ha, hb⟩ := fields_zero (of_passed hz)
    exact faithful_short hl hi he (eReg_eq hl hm hd ha hb hk (of_passed ho))
  split
  · exact bare ‹_› rfl rfl
  · exact bare ‹_› rfl rfl
  · exact faithful_chk faithful_zero fun hd =>
      faithful_short hl rfl rfl (eReg_eq hl hm (congrArg Fin.val (of_passed hd)) rfl rfl ‹_› (of_passed ho))
  · exact faithful_zero

theorem faithful_decDebug (hm : bits w 2 6 = 51) : Faithful w x1 x2 (decDebug w) := by
  refine faithful_only00 fun hl => faithful_chk faithful_zero fun h => ?_
  obtain ⟨ho, hf⟩ : fOpt w = 0 ∧ fFn w = 0 := by simpa using h
  exact faithful_short hl rfl rfl (eReg_eq hl hm rfl rfl rfl hf ho)

/-- Whatever decode answers, it is faithful to the words. -/
theorem faithful_decode : Faithful w x1 x2 (decode w x1 x2) := by
  unfold decode
  split
  · exact faithful_decAluReg ‹_›
  · exact faithful_decAluImm ‹_›
  · exact faithful_decKon ‹_›
  · exact faithful_decMul ‹_›
  · exact faithful_decBit ‹_›
  · exact faithful_decLi ‹_›
  · exact faithful_decSel ‹_›
  · exact faithful_decBr ‹_›
  · exact faithful_decJal ‹_›
  · exact faithful_decJalr ‹_›
  · exact faithful_decLoad ‹_›
  · exact faithful_decStore ‹_›
  · exact faithful_decAtomic ‹_›
  · exact faithful_decFence ‹_›
  · exact faithful_decFp ‹_›
  · exact faithful_decFma ‹_›
  · exact faithful_decCvt ‹_›
  · exact faithful_decVecInt ‹_›
  · exact faithful_decVecFloat ‹_›
  · exact faithful_decVecMem ‹_›
  · exact faithful_decVecPerm ‹_›
  · exact faithful_decMask ‹_›
  · exact faithful_decVecFma ‹_›
  · exact faithful_decTileMem ‹_›
  · exact faithful_decTileComp ‹_›
  · exact faithful_decTileMisc ‹_›
  · exact faithful_decVersion ‹_›
  · exact faithful_decCopy ‹_›
  · exact faithful_decColl ‹_›
  · exact faithful_decMsg ‹_›
  · exact faithful_decSync ‹_›
  · exact faithful_decLink ‹_›
  · exact faithful_decIsland ‹_›
  · exact faithful_decCsr ‹_›
  · exact faithful_decTrap ‹_›
  · exact faithful_decPriv ‹_›
  · exact faithful_decDebug ‹_›
  · exact faithful_zero

end
end Sys2Proof.Proofs.Encoding
end

section
/-!
PROOFS. Precise traps (spec/21, R459) and what CSR instructions and the privileged instructions refuse (O32).
-/
namespace Sys2Proof.Proofs.Encoding
open Sys2Proof.Machine Sys2Proof.Claims

/-! ## Traps -/

/-- A thread that no capture covers leaves no trace record. -/
theorem traceGang_uncaptured {s : State} {tid g : Nat} (hg : s.gangOf tid = some g) (hc : s.captureOf tid = none)
    (kind len core slot bitNo : Nat) (payload : List Word) : s.traceGang g kind len core slot bitNo payload = s := by
  unfold State.captureOf State.taskOf at hc
  rw [hg] at hc
  unfold State.traceGang
  cases ht : s.tasks.find g with
  | none => rfl
  | some t =>
    simp only [ht] at hc
    simp only [hc]

theorem trap_eq {s : State} (h : CanTrap s) (code : Nat) (eval : Word) :
    s.trap code eval = (s.leaveWait s.cur).setThr s.cur (s.me.enterTrap code false eval) := by
  obtain ⟨hn, he, hc⟩ := h
  have hh : (s.thr s.cur).handles = true := by
    show (s.me.trap.etvecEn && !s.me.trap.trapped) = true
    rw [hn, he]
    rfl
  cases hg : s.gangOf s.cur with
  | none => exact State.trapOf_handler hh hg code false eval
  | some g =>
    have ht : (s.leaveWait s.cur).thr s.cur = s.thr s.cur := rfl
    have hg' : ((s.leaveWait s.cur).setThr s.cur ((s.thr s.cur).enterTrap code false eval)).gangOf s.cur = some g := hg
    unfold State.trap State.trapOf
    simp only [ht, hh, if_true, hg']
    exact traceGang_uncaptured hg' hc _ _ _ _ _ _

theorem enterTrap_pc_ofNat (t : Thread) (code : Nat) (d : Bool) (eval : Word) :
    (t.enterTrap code d eval).pc = BitVec.ofNat 64 (t.trap.etvecBase.toNat * 4) :=
  BitVec.eq_of_toNat_eq (by simp [BitVec.toNat_mul])

theorem blocking_iff (w : WaitRec) : w.blocking = !(w.why == .done || w.why == .fault || w.why == .replay || w.why == .strike) := by
  unfold WaitRec.blocking
  cases w.why <;> rfl

/-- A trap whose handler may be entered makes R459's assignments and nothing else. -/
theorem trapped_trap {s : State} (h : CanTrap s) (code : Nat) (eval : Word) : Trapped s (s.trap code eval) code false eval := by
  rw [trap_eq h]
  refine ⟨(State.thr_setThr _ _ _).trans ?_, fun j hj => State.thr_setThr_other _ _ hj, rfl⟩
  rw [← enterTrap_pc_ofNat s.me code false eval]
  unfold Thread.enterTrap
  cases hw : s.me.wait with
  | none => simp only [Option.map_none, Option.getD_none, BitVec.ofNat_toNat]
  | some w => simp only [Option.map_some, Option.getD_some, blocking_iff, BitVec.ofNat_toNat]

theorem traps_trapOut {s : State} (h : CanTrap s) (code : Nat) (eval : Word) : Traps s (s.trapOut code eval) code eval :=
  ⟨_, State.trapOut_eq s code eval, trapped_trap h code eval⟩

/-! ## CSR instructions -/

theorem csrOp_fault {s : State} {n c e : Nat} {w : Bool} (h : s.csrFault n w = some (c, e)) (d : XReg) (f : Word → Word) :
    s.csrOp d n w f = s.trapOut c (BitVec.ofNat 64 e) := by
  unfold State.csrOp
  rw [h]

section
variable {s : State} {n : Nat} {w : Bool}

theorem csrFault_absent (h : csrExists n = false) : s.csrFault n w = some (Cause.illegal, 2) := by simp [State.csrFault, h]

theorem csrFault_readOnly (h : csrExists n = true) (hr : csrReadOnly n = true) : s.csrFault n true = some (Cause.illegal, 3) := by
  simp [State.csrFault, h, hr]

theorem csrFault_user (h : csrExists n = true) (hr : (w && csrReadOnly n) = false) (hn : 0x800 ≤ n) (hp : s.me.status.priv = false) :
    s.csrFault n w = some (Cause.priv, n) := by
  simp [State.csrFault, h, hr, hn, hp]

theorem csrFault_service (h : csrExists n = true) (hr : csrReadOnly n = false) (hn : csrServiceOnly n = true)
    (hp : s.me.status.priv = true) (hs : s.onService = false) : s.csrFault n true = some (Cause.illegal, 3) := by
  simp [State.csrFault, h, hr, hn, hp, hs]

theorem csrFault_bindcmd (hp : s.me.status.priv = true) (hs : s.onService = false) :
    s.csrFault 0x846 true = some (Cause.access, 0x846) := by
  simp [State.csrFault, csrExists, csrReadOnly, csrServiceOnly, hp, hs]

end

/-- The CSRs that R461 keeps for service firmware exist and are writable. -/
theorem csrServiceOnly_of_firmware {n : Nat}
    (h : n = 0x800 ∨ (0x810 ≤ n ∧ n ≤ 0x812) ∨ n = 0x820 ∨ (0x840 ≤ n ∧ n ≤ 0x845) ∨ n = 0x850) :
    csrExists n = true ∧ csrReadOnly n = false ∧ csrServiceOnly n = true := by
  refine ⟨?_, ?_, ?_⟩
  · simp [csrExists]
    omega
  · simp [csrReadOnly]
    omega
  · simp [csrServiceOnly]
    omega

theorem exec_csrr (d : XReg) (n : BitVec 12) (s : State) : exec (.csrr d n) s = s.csrOp d n.toNat false id := rfl

theorem exec_csrw (d a : XReg) (n : BitVec 12) (s : State) : exec (.csrw d n a) s = s.csrOp d n.toNat true fun _ => s.getX a := rfl

theorem exec_csrs (d a : XReg) (n : BitVec 12) (s : State) :
    exec (.csrs d n a) s = s.csrOp d n.toNat (decide (a ≠ 0)) fun old => old ||| s.getX a := rfl

theorem exec_csrc (d a : XReg) (n : BitVec 12) (s : State) :
    exec (.csrc d n a) s = s.csrOp d n.toNat (decide (a ≠ 0)) fun old => old &&& ~~~s.getX a := rfl

section
variable {s : State} {c e : Nat} {d a : XReg} {n : BitVec 12} (hs : CanTrap s)
include hs

/-- A fault that does not depend on writing is every CSR instruction's. -/
theorem csr_all_trap (h : ∀ w, s.csrFault n.toNat w = some (c, e)) :
    Traps s (exec (.csrr d n) s) c (BitVec.ofNat 64 e) ∧ Traps s (exec (.csrw d n a) s) c (BitVec.ofNat 64 e) ∧
      Traps s (exec (.csrs d n a) s) c (BitVec.ofNat 64 e) ∧ Traps s (exec (.csrc d n a) s) c (BitVec.ofNat 64 e) := by
  have all (w : Bool) (f : Word → Word) : Traps s (s.csrOp d n.toNat w f) c (BitVec.ofNat 64 e) := by
    rw [csrOp_fault (h w)]
    exact traps_trapOut hs c _
  rw [exec_csrr, exec_csrw, exec_csrs, exec_csrc]
  exact ⟨all _ _, all _ _, all _ _, all _ _⟩

/-- A fault of a write is CSRW's, and that of CSRS and CSRC with a source other than x0. -/
theorem csr_writes_trap (h : s.csrFault n.toNat true = some (c, e)) :
    Traps s (exec (.csrw d n a) s) c (BitVec.ofNat 64 e) ∧
      (a ≠ 0 → Traps s (exec (.csrs d n a) s) c (BitVec.ofNat 64 e) ∧ Traps s (exec (.csrc d n a) s) c (BitVec.ofNat 64 e)) := by
  have all (w : Bool) (hw : w = true) (f : Word → Word) : Traps s (s.csrOp d n.toNat w f) c (BitVec.ofNat 64 e) := by
    rw [hw, csrOp_fault h]
    exact traps_trapOut hs c _
  rw [exec_csrw, exec_csrs, exec_csrc]
  exact ⟨all _ rfl _, fun ha => ⟨all _ (decide_eq_true ha) _, all _ (decide_eq_true ha) _⟩⟩

end

/-! ## Privileged instructions -/

theorem privileged_user {s : State} (h : s.me.status.priv = false) (k : Out) : s.privileged k = s.trapOut Cause.priv 0 := by
  simp [State.privileged, h]

theorem privileged_supervisor {s : State} (h : s.me.status.priv = true) (k : Out) : s.privileged k = k := by
  simp [State.privileged, h]

theorem execEret_user {s : State} (h : s.me.status.priv = false) : exec .eret s = s.trapOut Cause.priv 0 := privileged_user h _

theorem execHalt_user {s : State} (h : s.me.status.priv = false) : exec .halt s = s.trapOut Cause.priv 0 := privileged_user h _

theorem execTlbinv_user {s : State} (h : s.me.status.priv = false) (a b : XReg) : exec (.tlbinv a b) s = s.trapOut Cause.priv 0 :=
  privileged_user h _

theorem execTlbinv_task {s : State} (h : s.me.status.priv = true) (hs : s.onService = false) (a b : XReg) :
    exec (.tlbinv a b) s = s.trapOut Cause.priv 0 := by
  refine (privileged_supervisor h _).trans ?_
  simp [hs]

theorem execEret_untrapped {s : State} (h : s.me.status.priv = true) (ht : s.me.trap.trapped = false) :
    exec .eret s = s.trapOut Cause.illegal 0 := by
  refine (privileged_supervisor h _).trans ?_
  simp [State.eret, ht]

/-- Settles O32: each refusal is the trap that the instruction's checks answer, and a trap does nothing else. -/
theorem privilegeChecks : Obligations.PrivilegeChecks := by
  intro s d a b n hs
  refine ⟨fun hp => ?_, fun hp hv => ?_, fun hp => ?_, fun h => ?_, fun h hr => ?_, fun h hr hn hp => ?_, fun h _ hn hp => ?_,
    fun hp hv => ⟨fun hn => ?_, fun hn => ?_⟩⟩
  · rw [execEret_user hp, execHalt_user hp, execTlbinv_user hp]
    exact ⟨traps_trapOut hs _ _, traps_trapOut hs _ _, traps_trapOut hs _ _⟩
  · rw [execTlbinv_task hp hv]
    exact traps_trapOut hs _ _
  · rw [execEret_untrapped hp hs.1]
    exact traps_trapOut hs _ _
  · exact csr_all_trap hs fun w => csrFault_absent h
  · exact csr_writes_trap hs (csrFault_readOnly h hr)
  · exact csr_all_trap hs fun w => csrFault_user h (by rw [hr, Bool.and_false]) hn hp
  · rw [exec_csrr, csrOp_fault (csrFault_user h rfl hn hp)]
    exact traps_trapOut hs _ _
  · obtain ⟨h, hr, ho⟩ := csrServiceOnly_of_firmware hn
    exact csr_writes_trap hs (csrFault_service h hr ho hp hv)
  · exact csr_writes_trap hs (hn ▸ csrFault_bindcmd hp hv)

end Sys2Proof.Proofs.Encoding
end

section
/-!
PROOFS. What decode refuses (spec/02, R41, R505) and the turn of an issuing thread: its fetch, its traps and its instruction (O56, O57).
-/
namespace Sys2Proof.Proofs.Encoding
open Sys2Proof.Machine Sys2Proof.Claims Sys2Proof.Laws

/-! ## Refusals of decode -/

theorem chk_of_true {bad : Bool} (h : bad = true) (e : Nat) (k : Decoded) : chk bad e k = .illegal e := by rw [h]; rfl

theorem chk_of_false {bad : Bool} (h : bad = false) (e : Nat) (k : Decoded) : chk bad e k = k := by rw [h]; rfl

section
variable {w x1 x2 : Nat}

theorem only00_literal (h : w % 4 = 1) (k : Decoded) : only00 w k = .illegal 4 := by
  unfold only00
  rw [chk_of_false (by simp [h]), chk_of_true (by simp [h])]

theorem only00_extended (h : 2 ≤ w % 4) (k : Decoded) : only00 w k = .illegal 5 := chk_of_true (by simpa using h) _ _

theorem only00_plain (h : w % 4 = 0) (k : Decoded) : only00 w k = k := by
  unfold only00
  rw [chk_of_false (by simp [h]), chk_of_false (by simp [h])]

theorem decode_unassigned (h : w / 4 % 64 ∉ assigned) : decode w x1 x2 = .illegal 0 := by
  unfold decode
  split
  case h_38 => rfl
  all_goals exact absurd (show bits w 2 6 ∈ assigned by rw [‹bits w 2 6 = _›]; decide) h

theorem decode_plainOnly (h : w / 4 % 64 ∈ plainOnly) : ∃ k, decode w x1 x2 = only00 w k := by
  simp only [plainOnly, List.mem_cons, List.not_mem_nil, or_false] at h
  rcases h with h | h | h | h | h | h | h | h | h | h | h | h | h | h | h | h | h | h | h | h | h | h | h
  · exact ⟨_, RoundTrip.decode_3 h⟩
  · exact ⟨_, RoundTrip.decode_4 h⟩
  · exact ⟨_, RoundTrip.decode_10 h⟩
  · exact ⟨_, RoundTrip.decode_14 h⟩
  · exact ⟨_, RoundTrip.decode_15 h⟩
  · exact ⟨_, RoundTrip.decode_16 h⟩
  · exact ⟨_, RoundTrip.decode_18 h⟩
  · exact ⟨_, RoundTrip.decode_20 h⟩
  · exact ⟨_, RoundTrip.decode_21 h⟩
  · exact ⟨_, RoundTrip.decode_23 h⟩
  · exact ⟨_, RoundTrip.decode_24 h⟩
  · exact ⟨_, RoundTrip.decode_25 h⟩
  · exact ⟨_, RoundTrip.decode_28 h⟩
  · exact ⟨_, RoundTrip.decode_29 h⟩
  · exact ⟨_, RoundTrip.decode_30 h⟩
  · exact ⟨_, RoundTrip.decode_32 h⟩
  · exact ⟨_, RoundTrip.decode_35 h⟩
  · exact ⟨_, RoundTrip.decode_36 h⟩
  · exact ⟨_, RoundTrip.decode_37 h⟩
  · exact ⟨_, RoundTrip.decode_48 h⟩
  · exact ⟨_, RoundTrip.decode_49 h⟩
  · exact ⟨_, RoundTrip.decode_50 h⟩
  · exact ⟨_, RoundTrip.decode_51 h⟩

theorem decode_literalOnly (h : w / 4 % 64 ∈ literalOnly) : ∃ k, decode w x1 x2 = chk (w % 4 ≥ 2) 5 k := by
  simp only [literalOnly, List.mem_cons, List.not_mem_nil, or_false] at h
  rcases h with h | h | h | h | h
  · exact ⟨_, RoundTrip.decode_1 h⟩
  · exact ⟨_, RoundTrip.decode_2 h⟩
  · exact ⟨_, RoundTrip.decode_5 h⟩
  · exact ⟨_, RoundTrip.decode_6 h⟩
  · exact ⟨_, RoundTrip.decode_7 h⟩

theorem decode_extendedOnly (h : w / 4 % 64 ∈ extendedOnly) : ∃ k, decode w x1 x2 = chk (w % 2 = 1) 4 k := by
  simp only [extendedOnly, List.mem_cons, List.not_mem_nil, or_false] at h
  rcases h with h | h | h
  · exact ⟨_, RoundTrip.decode_8 h⟩
  · exact ⟨_, RoundTrip.decode_9 h⟩
  · exact ⟨_, RoundTrip.decode_17 h⟩

theorem decode_loadStore (h : w / 4 % 64 = 12 ∨ w / 4 % 64 = 13) : ∃ k, decode w x1 x2 = chk (w % 4 = 3) 4 k := by
  rcases h with h | h
  · exact ⟨_, RoundTrip.decode_12 h⟩
  · exact ⟨_, RoundTrip.decode_13 h⟩

theorem decode_copyCollective (h : w / 4 % 64 = 33 ∨ w / 4 % 64 = 34) : ∃ k, decode w x1 x2 = chk (decide (w % 4 < 2)) 5 k := by
  rcases h with h | h
  · exact ⟨_, RoundTrip.decode_33 h⟩
  · exact ⟨_, RoundTrip.decode_34 h⟩

theorem decColl_literal (h : w % 4 = 3) : decColl w x1 = .illegal 4 := by
  unfold decColl
  rw [chk_of_false (by simp [h]), chk_of_true (by simp [h])]

/-- TRAP refuses a field that it leaves unused and a selector that names no member. -/
theorem decTrap_refused (hl : w % 4 = 0) (h : fOpt w ≠ 0 ∨ 4 ≤ fFn w ∨ bits w 8 15 ≠ 0) : decTrap w = .illegal 0 := by
  unfold decTrap
  rw [only00_plain hl]
  by_cases hz : fOpt w = 0 ∧ bits w 8 15 = 0
  · rw [chk_of_false (by simp [hz])]
    split
    case h_5 => rfl
    all_goals omega
  · exact chk_of_true (by simpa [imp_iff_not_or] using hz) _ _

/-- PRIV refuses a field that a member leaves unused and a selector that names no member. -/
theorem decPriv_refused (hl : w % 4 = 0) (h : fOpt w ≠ 0 ∨ 3 ≤ fFn w ∨ (fFn w ≤ 1 ∧ bits w 8 15 ≠ 0)) : decPriv w = .illegal 0 := by
  unfold decPriv
  rw [only00_plain hl]
  by_cases ho : fOpt w = 0
  · rw [chk_of_false (by simp [ho])]
    split
    · exact chk_of_true (decide_eq_true (by omega)) _ _
    · exact chk_of_true (decide_eq_true (by omega)) _ _
    · omega
    · rfl
  · exact chk_of_true (decide_eq_true ho) _ _

end

/-! ## Fetch -/

theorem numOf_eq_ofBytes (l : List Byte) : Claims.numOf l = ofBytes l := by
  induction l with
  | nil => rfl
  | cons b l ih => rw [Claims.numOf, ofBytes, ih]

theorem badIn_nil (k n : Nat) : badIn [] k n = none := by
  unfold badIn
  rw [List.find?_eq_none.mpr (by simp)]

/-- With no bad word known, no part of an access meets one. -/
theorem badSpan_of_bad_nil {s : State} (h : s.bad = []) (l : List Span) : s.badSpan false l = none := by
  induction l with
  | nil => rfl
  | cons p l ih =>
    unfold State.badSpan
    cases p.loc <;> simp [h, badIn_nil, ih]

section
variable {s : State} {a : Word} {n : Nat}

theorem fetchPart_window (h : 0x7F0000000000 ≤ a.toNat) : s.fetchPart a n = .error (.trap Cause.access a) := if_pos h

theorem fetchPart_error (h : a.toNat < 0x7F0000000000) {f : AFault} (hc : s.check s.meWho fetchAsk a n = .error f) :
    s.fetchPart a n = .error f := by
  unfold State.fetchPart
  rw [if_neg (show ¬winBase ≤ a.toNat from Nat.not_le.mpr h), show Ask.plain .exec = fetchAsk from rfl, hc]

theorem fetchPart_ok (h : a.toNat < 0x7F0000000000) {ad : Admitted} (hc : s.check s.meWho fetchAsk a n = .ok ad) (hb : s.bad = []) :
    s.fetchPart a n = .ok (s.admitPages s.meWho ad, ofBytes (s.bytesAt ad.spans)) := by
  unfold State.fetchPart
  rw [if_neg (show ¬winBase ≤ a.toNat from Nat.not_le.mpr h), show Ask.plain .exec = fetchAsk from rfl, hc]
  simp only [badSpan_of_bad_nil hb]

end

theorem fetch_misaligned {s : State} (h : s.me.pc.toNat % 4 ≠ 0) : s.fetch = .error (.trap Cause.misalign s.me.pc) := if_pos h

theorem fetch_first_error {s : State} (h : s.me.pc.toNat % 4 = 0) {f : AFault} (hf : s.fetchPart s.me.pc 4 = .error f) :
    s.fetch = .error f := by
  unfold State.fetch
  simp only [h, ne_eq, not_true_eq_false, if_false, hf]

theorem unitWord_eq_none {t : Thread} (h : t.slotUnit = none) : t.unitWord = none := by
  unfold Thread.unitWord
  rw [h]

theorem lenBytes_word {w : Nat} (h : w % 4 = 0) : lenBytes w = 4 := if_pos h

theorem hasLit_word {w : Nat} (h : w % 4 = 0) : hasLit w = false := beq_false_of_ne (by omega)

/-- A failure of a word behind the first is the fetch's. -/
theorem fetch_second_error {s v : State} {w : Nat} (h : s.me.pc.toNat % 4 = 0) (hf : s.fetchPart s.me.pc 4 = .ok (v, w))
    (hu : v.me.unitWord = none) (hl : w % 4 ≠ 0) {f : AFault} (hs : v.fetchPart (s.me.pc + 4) 4 = .error f) : s.fetch = .error f := by
  obtain ⟨n, hn⟩ : ∃ n, lenBytes w / 4 - 1 = n + 1 := by
    unfold lenBytes
    split
    · contradiction
    · split
      · exact ⟨3, rfl⟩
      · exact ⟨1, rfl⟩
  unfold State.fetch
  simp only [h, ne_eq, not_true_eq_false, if_false, hf, hu, Option.getD_none, hn, State.fetchWords, hs]

/-- One word, fetched outside the patch slots of the thread's code. -/
theorem fetch_word {s v : State} {w : Nat} (h : s.me.pc.toNat % 4 = 0) (hf : s.fetchPart s.me.pc 4 = .ok (v, w)) (hl : w % 4 = 0)
    (hu : v.me.slotUnit = none) (hp : v.me.pc.toNat ∉ v.ownSlots v.cur) : s.fetch = .ok (v, w, 0, 0) := by
  have hk : v.unitOf w = none := by
    unfold State.unitOf
    rw [if_neg]
    rintro ⟨-, hc, -⟩
    exact hp (List.contains_iff_mem.mp hc)
  have hr : v.fetchWords (s.me.pc + 4) (4 / 4 - 1) = .ok (v, 0) := rfl
  unfold State.fetch
  simp only [h, ne_eq, not_true_eq_false, if_false, hf, unitWord_eq_none hu, Option.getD_none, lenBytes_word hl, hr, hk,
    State.keepUnit, hu, if_true, Nat.zero_mod, Nat.zero_div]

/-! ## What a turn's beginning and an admitted fetch leave alone -/

/-- Leaving C1 changes cores and the note of a wake. -/
theorem clockCore_eq (s : State) : s.clockCore = { s with cores := s.clockCore.cores, power := s.clockCore.power } := by
  unfold State.clockCore
  dsimp only
  split <;> split <;> rfl

/-- A core that an ACTIVE slot takes out of C1, or that was not in it. -/
def outOfC1 (k : Core) : Core := { k with cstate := if k.cstate = .c1 then .c0 else k.cstate, quiet := 0 }

theorem outOfC1_of_busy {k : Core} (h : ¬(k.cstate = .c1 ∨ k.quiet ≠ 0)) : outOfC1 k = k := by
  obtain ⟨hc, hq⟩ := not_or.mp h
  unfold outOfC1
  rw [if_neg hc, ← not_not.mp hq]

theorem clockCore_core (s : State) : s.clockCore.core s.myCore = outOfC1 (s.core s.myCore) := by
  have key (t : State) (ht : t.cores = s.cores) :
      (if (t.core s.myCore).cstate = .c1 ∨ (t.core s.myCore).quiet ≠ 0 then t.modCore s.myCore outOfC1 else t).core s.myCore =
        outOfC1 (s.core s.myCore) := by
    have hc : t.core s.myCore = s.core s.myCore := by
      unfold State.core
      rw [ht]
    rw [← hc]
    split
    · exact SMap.get_set_same _ _ _ _
    · exact (outOfC1_of_busy ‹_›).symm
  unfold State.clockCore
  dsimp only
  split
  · exact key _ rfl
  · exact key _ rfl

theorem clockCore_power {s : State} (h : s.leads s.myCore = false) : s.clockCore.power = s.power := by
  unfold State.clockCore
  simp only [h, Bool.false_and, Bool.false_eq_true, if_false]
  split <;> rfl

/-- Holding translations changes TLBs alone. -/
theorem over_holdTlb_eq (s : State) (c : Nat) (l : List TlbEntry) : ∃ k t,
    s.over l (fun s e => s.holdTlb c e) = { s with cores := k, clusterTlbs := t } := by
  induction l generalizing s with
  | nil => exact ⟨s.cores, s.clusterTlbs, rfl⟩
  | cons e l ih =>
    obtain ⟨k, t, h⟩ := ih (s.holdTlb c e)
    exact ⟨k, t, h⟩

theorem modThr_count_thr (s : State) (i c n j : Nat) : ∃ r, (s.modThr i fun t => t.count c n).thr j = { s.thr j with csr := r } := by
  by_cases h : j = i
  · exact ⟨_, by rw [h, State.thr_modThr]; rfl⟩
  · exact ⟨_, State.thr_modThr_other s _ h⟩

/-- The marks of a walk, its TLB entries, the count of misses and the access to LPDDR6 are all that an admitted access leaves. -/
theorem admitPages_eq (s : State) (w : Who) (ad : Admitted) : ∃ m p th k t,
    s.admitPages w ad = { s with mem := m, power := p, threads := th, cores := k, clusterTlbs := t } ∧
      ∀ j, ∃ r, ({ s with threads := th } : State).thr j = { s.thr j with csr := r } := by
  have power : ∃ m p, (if ad.marks.any fun m => m.1 / 2 ^ 52 == 0 then ({ s with mem := setMarks s.mem ad.marks } : State).usesLpddr
      else { s with mem := setMarks s.mem ad.marks }) = { s with mem := m, power := p } := by
    split
    · exact ⟨_, _, rfl⟩
    · exact ⟨_, s.power, rfl⟩
  obtain ⟨m, p, hp⟩ := power
  unfold State.admitPages
  dsimp only
  rw [hp]
  split
  · split
    · obtain ⟨k, t, h⟩ := over_holdTlb_eq { s with mem := m, power := p } (coreOf w.tid) ad.pages
      exact ⟨m, p, s.threads, k, t, h, fun j => ⟨_, rfl⟩⟩
    · obtain ⟨k, t, h⟩ := over_holdTlb_eq _ (coreOf w.tid) ad.pages
      exact ⟨m, p, _, k, t, h, modThr_count_thr s w.tid 13 _⟩
  · exact ⟨m, p, s.threads, s.cores, s.clusterTlbs, rfl, fun j => ⟨_, rfl⟩⟩

/-- An admitted access leaves the thread as it was but for its counters, and the patch slots of its code. -/
theorem admitPages_keeps (s : State) (w : Who) (ad : Admitted) :
    (∃ r, (s.admitPages w ad).me = { s.me with csr := r }) ∧ (s.admitPages w ad).ownSlots (s.admitPages w ad).cur = s.ownSlots s.cur := by
  obtain ⟨m, p, th, k, t, h, hth⟩ := admitPages_eq s w ad
  rw [h]
  exact ⟨hth s.cur, rfl⟩

/-! ## The turn of an issuing thread -/

theorem div_of_mem_countFrom {c u : Nat} (h : u ∈ countFrom (8 * c) 8) : u / 8 = c := by
  simp only [countFrom, List.mem_cons, List.not_mem_nil, or_false] at h
  omega

theorem decided_of_no_yield {s : State} {c : Nat} (h : ∀ u, u / 8 = c → (s.thr u).yielded = false) : s.decided c = s := by
  unfold State.decided
  rw [List.filter_eq_nil_iff.mpr fun u hu => by simp [h u (div_of_mem_countFrom hu)]]
  rfl

/-- Where no thread of the core has just yielded, the thread named has its turn. -/
theorem giveTurn_of_no_yield {s : State} {tid : Nat} (h : ∀ u, u / 8 = tid / 8 → (s.thr u).yielded = false) :
    s.giveTurn tid = { s with cur := tid } := by
  have hd : s.decided (coreOf tid) = s := decided_of_no_yield h
  unfold State.giveTurn
  simp only [hd, h tid rfl, Bool.false_eq_true, if_false, ite_self]

/-- A boundary before which nothing else comes issues the next instruction. -/
theorem boundary_of_ready {s : State} (ha : s.me.slot = .active) (hs : s.me.stopReq = false) (hd : s.me.dueDeferred = false)
    (hi : s.issues s.myCore = true) (hp : s.myPage = none) : s.boundary = s.issue := by
  unfold State.boundary
  simp only [ha, hs, hd, hi, hp, reduceCtorEq, decide_false, Bool.false_and, Bool.or_self, Bool.false_eq_true, Bool.not_true, if_false]

theorem myPage_eq_none {s : State} (h : ∀ p ∈ s.pageWaits, p.tid = s.cur → p.engine.isSome = true) : s.myPage = none := by
  refine List.find?_eq_none.mpr fun p hp => ?_
  rw [Bool.and_eq_true, beq_iff_eq, Option.isNone_iff_eq_none]
  rintro ⟨ht, he⟩
  have := h p hp ht
  rw [he] at this
  exact absurd this Bool.false_ne_true

theorem dueDeferred_eq_false {t : Thread} (h : t.deferred = [] ∨ t.trap.trapped = true) : t.dueDeferred = false := by
  unfold Thread.dueDeferred
  rcases h with h | h <;> simp [h]

section
variable {s : State} {tid : Nat} {rest : List Turn} (h : Issuing s tid rest)
include h

theorem step_issuing : step s = ({ s with agenda := rest, cur := tid } : State).issue := by
  obtain ⟨ht, ha, hs, hy, hd, hi, hp⟩ := h
  unfold step
  rw [ht]
  exact (congrArg State.boundary (giveTurn_of_no_yield (s := { s with agenda := rest }) hy)).trans
    (boundary_of_ready (s := { s with agenda := rest, cur := tid }) ha hs (dueDeferred_eq_false hd) hi (myPage_eq_none hp))

theorem step_of_fetch_error {f : AFault} (hf : (fetching s tid rest).fetch = .error f) :
    step s = .next ((fetching s tid rest).failed .exec f) := by
  rw [step_issuing h]
  unfold State.issue
  simp only [show State.clockCore { s with agenda := rest, cur := tid } = fetching s tid rest from rfl, hf]

theorem step_of_fetch_ok {v : State} {w x1 x2 : Nat} (hf : (fetching s tid rest).fetch = .ok (v, w, x1, x2)) :
    step s = v.perform (decode w x1 x2) (lenBytes w) (hasLit w) := by
  rw [step_issuing h]
  unfold State.issue
  simp only [show State.clockCore { s with agenda := rest, cur := tid } = fetching s tid rest from rfl, hf]

end

/-! ## What the turn fetches -/

section
variable (s : State) (tid : Nat) (rest : List Turn)

theorem fetching_eq : fetching s tid rest =
    { s with agenda := rest, cur := tid, cores := (fetching s tid rest).cores, power := (fetching s tid rest).power } :=
  clockCore_eq _

@[simp] theorem me_fetching : (fetching s tid rest).me = s.thr tid := by
  rw [fetching_eq]
  rfl

@[simp] theorem bad_fetching : (fetching s tid rest).bad = s.bad := by rw [fetching_eq]

theorem ownSlots_fetching : (fetching s tid rest).ownSlots (fetching s tid rest).cur = s.ownSlots tid := by
  rw [fetching_eq]
  rfl

theorem slotUnit_admitPages_fetching (w : Who) (ad : Admitted) (h : (s.thr tid).slotUnit = none) :
    ((fetching s tid rest).admitPages w ad).me.slotUnit = none := by
  obtain ⟨⟨r, hr⟩, -⟩ := admitPages_keeps (fetching s tid rest) w ad
  rw [hr, me_fetching]
  exact h

end

section
variable {s : State} {tid : Nat} {rest : List Turn}

theorem fetching_fetchPart_ok (hlt : (s.thr tid).pc.toNat < 0x7F0000000000) (hb : s.bad = []) {ad : Admitted}
    (hc : (fetching s tid rest).check (fetching s tid rest).meWho fetchAsk (s.thr tid).pc 4 = .ok ad) :
    (fetching s tid rest).fetchPart (fetching s tid rest).me.pc 4 =
      .ok ((fetching s tid rest).admitPages (fetching s tid rest).meWho ad, ofBytes ((fetching s tid rest).bytesAt ad.spans)) := by
  rw [me_fetching]
  exact fetchPart_ok hlt hc ((bad_fetching s tid rest).trans hb)

/-- A trap that the fetch of an issuing thread finds is taken. -/
theorem traps_of_fetch_error (h : Issuing s tid rest) (ht : CanTrap (fetching s tid rest)) {c : Nat} {e : Word}
    (hf : (fetching s tid rest).fetch = .error (.trap c e)) : Traps (fetching s tid rest) (step s) c e :=
  ⟨_, step_of_fetch_error h hf, trapped_trap ht c e⟩

/-- An illegal word fetched by an issuing thread traps ILLEGAL with its EVAL. -/
theorem traps_of_illegal (h : Issuing s tid rest) {v : State} {w x1 x2 e : Nat} (hf : (fetching s tid rest).fetch = .ok (v, w, x1, x2))
    (hd : decode w x1 x2 = .illegal e) (ht : CanTrap v) : Traps v (step s) Cause.illegal (BitVec.ofNat 64 e) := by
  rw [step_of_fetch_ok h hf, hd]
  exact traps_trapOut ht _ _

theorem fetching_misaligned (hpc : (s.thr tid).pc.toNat % 4 ≠ 0) :
    (fetching s tid rest).fetch = .error (.trap Cause.misalign (s.thr tid).pc) := by
  rw [← me_fetching s tid rest] at hpc ⊢
  exact fetch_misaligned hpc

theorem fetching_window (hpc : (s.thr tid).pc.toNat % 4 = 0) (hw : 0x7F0000000000 ≤ (s.thr tid).pc.toNat) :
    (fetching s tid rest).fetch = .error (.trap Cause.access (s.thr tid).pc) := by
  rw [← me_fetching s tid rest] at hpc hw ⊢
  exact fetch_first_error hpc (fetchPart_window hw)

theorem fetching_first_error (hpc : (s.thr tid).pc.toNat % 4 = 0) (hlt : (s.thr tid).pc.toNat < 0x7F0000000000) {f : AFault}
    (hc : (fetching s tid rest).check (fetching s tid rest).meWho fetchAsk (s.thr tid).pc 4 = .error f) :
    (fetching s tid rest).fetch = .error f := by
  rw [← me_fetching s tid rest] at hpc hlt hc
  exact fetch_first_error hpc (fetchPart_error hlt hc)

/-- The word behind a longer instruction's first is fetched in the state that the first leaves. -/
theorem fetching_second_error (hpc : (s.thr tid).pc.toNat % 4 = 0) (hlt : (s.thr tid).pc.toNat < 0x7F0000000000)
    (hu : (s.thr tid).slotUnit = none) (hb : s.bad = []) {ad : Admitted}
    (hc : (fetching s tid rest).check (fetching s tid rest).meWho fetchAsk (s.thr tid).pc 4 = .ok ad)
    (hl : Claims.numOf ((fetching s tid rest).bytesAt ad.spans) % 4 ≠ 0) {f : AFault}
    (hs : ((fetching s tid rest).admitPages (fetching s tid rest).meWho ad).fetchPart ((s.thr tid).pc + 4) 4 = .error f) :
    (fetching s tid rest).fetch = .error f := by
  rw [numOf_eq_ofBytes] at hl
  refine fetch_second_error (by rwa [me_fetching]) (fetching_fetchPart_ok hlt hb hc)
    (unitWord_eq_none (slotUnit_admitPages_fetching s tid rest _ ad hu)) hl ?_
  rwa [me_fetching]

/-- One word at the PC, outside the patch slots, is the fetch. -/
theorem fetching_word (hpc : (s.thr tid).pc.toNat % 4 = 0) (hlt : (s.thr tid).pc.toNat < 0x7F0000000000)
    (hu : (s.thr tid).slotUnit = none) (ho : (s.thr tid).pc.toNat ∉ s.ownSlots tid) (hb : s.bad = []) {ad : Admitted}
    (hc : (fetching s tid rest).check (fetching s tid rest).meWho fetchAsk (s.thr tid).pc 4 = .ok ad)
    (hl : ofBytes ((fetching s tid rest).bytesAt ad.spans) % 4 = 0) :
    (fetching s tid rest).fetch = .ok ((fetching s tid rest).admitPages (fetching s tid rest).meWho ad,
      ofBytes ((fetching s tid rest).bytesAt ad.spans), 0, 0) := by
  refine fetch_word (by rwa [me_fetching]) (fetching_fetchPart_ok hlt hb hc) hl (slotUnit_admitPages_fetching s tid rest _ ad hu) ?_
  obtain ⟨⟨r, hr⟩, hk⟩ := admitPages_keeps (fetching s tid rest) (fetching s tid rest).meWho ad
  rw [hr, hk, ownSlots_fetching, me_fetching]
  exact ho

end

/-- Four bytes that decode to an instruction of four bytes are its word. -/
theorem decodeBytes_word {l : List Byte} {i : Instr} (hl : l.length = 4) (h : decodeBytes l = some (.instr i, 4)) :
    ofBytes l % 4 = 0 ∧ decode (ofBytes l) 0 0 = .instr i := by
  have h4 : l.drop 4 = [] := List.drop_eq_nil_of_le hl.le
  have h12 : l.drop 12 = [] := List.drop_eq_nil_of_le (by omega)
  unfold decodeBytes at h
  simp only [List.take_of_length_le hl.le, h4, h12, List.take_nil, ofBytes] at h
  split at h
  · contradiction
  · obtain ⟨hd, hlen⟩ := Prod.mk.inj (Option.some.inj h)
    refine ⟨?_, hd⟩
    by_contra hne
    unfold lenBytes at hlen
    rw [if_neg hne] at hlen
    split at hlen <;> contradiction

theorem toNat_add_four {a : Word} (h : a.toNat < 0x7F0000000000) : (a + 4).toNat = a.toNat + 4 := by bv_omega

/-- With no bad word known, an instruction that no patch slot cuts is executed. -/
theorem perform_instr {v : State} {i : Instr} {n : Nat} {lit : Bool} (hp : v.patchSplit n lit = false) (hb : v.bad = []) :
    v.perform (.instr i) n lit = exec i v := by
  unfold State.perform State.run
  simp only [hp, hb, List.isEmpty_nil, Bool.true_or, if_true, Bool.false_eq_true, if_false]

/-! ## The obligations -/

/-- Settles O56: the turn of an issuing thread fetches in `fetching`, and what is fetched is performed. -/
theorem stepRunsDecoded : Obligations.StepRunsDecoded := by
  intro s tid rest i b u
  refine ⟨clockCore_core b, clockCore_eq b, clockCore_power, fun h hb => ⟨?_, ?_⟩⟩
  · intro v w x1 x2 hf hd hp hv
    rw [step_of_fetch_ok h hf, hd, perform_instr hp hv]
  · intro ad hpc hlt hu ho hc hn hd v hp hv
    obtain ⟨hl, hd⟩ := decodeBytes_word hn hd
    rw [step_of_fetch_ok h (fetching_word hpc hlt hu ho hb hc hl), hd, lenBytes_word hl, hasLit_word hl]
    exact perform_instr hp hv

/-- Settles O57: the refusals by group, `faithful_decode` for what is accepted, and the fetch's failures at a thread's turn. -/
theorem decodeRefusals : Obligations.DecodeRefusals := by
  refine ⟨fun w x1 x2 => ⟨decode_unassigned, fun h => ?plain, fun h hl => ?literal, fun h hl => ?extended, fun h hl => ?loadStore,
    fun h hl => ?copyCollective, fun h hl => ?collective, fun hl h hf => ?trap, fun hl h hf => ?priv, fun e he => ?eval,
    fun i hw h1 h2 hd => ?accepted⟩, fun s tid rest h hb => ?turn⟩
  case plain =>
    obtain ⟨k, hk⟩ := decode_plainOnly (x1 := x1) (x2 := x2) h
    exact ⟨fun hl => hk.trans (only00_literal hl k), fun hl => hk.trans (only00_extended hl k)⟩
  case literal =>
    obtain ⟨k, hk⟩ := decode_literalOnly (x1 := x1) (x2 := x2) h
    exact hk.trans (chk_of_true (decide_eq_true hl) 5 k)
  case extended =>
    obtain ⟨k, hk⟩ := decode_extendedOnly (x1 := x1) (x2 := x2) h
    exact hk.trans (chk_of_true (decide_eq_true (by omega)) 4 k)
  case loadStore =>
    obtain ⟨k, hk⟩ := decode_loadStore (x1 := x1) (x2 := x2) h
    exact hk.trans (chk_of_true (decide_eq_true hl) 4 k)
  case copyCollective =>
    obtain ⟨k, hk⟩ := decode_copyCollective (x1 := x1) (x2 := x2) h
    exact hk.trans (chk_of_true (decide_eq_true (by omega)) 5 k)
  case collective => exact (RoundTrip.decode_34 h).trans (decColl_literal hl)
  case trap => exact (RoundTrip.decode_49 h).trans (decTrap_refused hl hf)
  case priv => exact (RoundTrip.decode_50 h).trans (decPriv_refused hl hf)
  case eval =>
    have hf := faithful_decode (w := w) (x1 := x1) (x2 := x2)
    rw [he] at hf
    exact hf
  case accepted =>
    have hf := faithful_decode (w := w) (x1 := x1) (x2 := x2)
    rw [hd] at hf
    exact hf hw h1 h2
  case turn =>
    refine ⟨fun ht hpc => ?_, fun ht hpc hw => ?_, fun c e ht hf => ?_, fun c e ht hpc hc => ?_, fun ad ht hpc hu hc hl => ?second,
      fun v w x1 x2 e hf hd ht => traps_of_illegal h hf hd ht⟩
    · exact traps_of_fetch_error h ht (fetching_misaligned hpc)
    · exact traps_of_fetch_error h ht (fetching_window hpc hw)
    · exact traps_of_fetch_error h ht hf
    · exact traps_of_fetch_error h ht (fetching_first_error hpc.1 hpc.2 hc)
    case second =>
      obtain ⟨hpc, hlt⟩ := hpc
      have hadd := toNat_add_four hlt
      refine ⟨fun _ he => ?_, fun c e _ hlt' hs => ?_⟩
      · exact traps_of_fetch_error h ht (fetching_second_error hpc hlt hu hb hc hl (fetchPart_window (by omega)))
      · exact traps_of_fetch_error h ht (fetching_second_error hpc hlt hu hb hc hl (fetchPart_error (by omega) hs))

end Sys2Proof.Proofs.Encoding
end

section
/-!
PROOFS. A magnitude cut at a grid (spec/03, R86, R88, R89, R92): where the real magnitude lies between two neighbours, which of them
Table 3-11 chooses, and RND into an integer range.
-/
namespace Sys2Proof.Proofs.Rounding
open Sys2Proof Sys2Proof.Machine Sys2Proof.Claims

/-! ## The generator and the flags -/

@[simp] theorem seed_raise (st : Fst) (b : BitVec 5) : (st.raise b).seed = st.seed := rfl
@[simp] theorem flags_raise (st : Fst) (b : BitVec 5) : (st.raise b).flags = st.flags ||| b := rfl

/-- The state that every call of RND hands on: under RSR the generator has advanced once (R86, R89). -/
theorem draw_snd (st : Fst) (mode : Rm) :
    (st.draw mode).2 = ⟨if mode = .rsr then stepped st.seed else st.seed, st.flags⟩ := by
  unfold Fst.draw
  split <;> rfl

theorem draw_raise (st : Fst) (mode : Rm) (b : BitVec 5) :
    (st.draw mode).2.raise b = ⟨if mode = .rsr then stepped st.seed else st.seed, st.flags ||| b⟩ := by
  rw [draw_snd]
  rfl

theorem draw_fst {mode : Rm} (h : mode = .rsr) (st : Fst) : (st.draw mode).1 = drawn st.seed := by
  subst h
  rfl

/-! ## A magnitude on its grid -/

/-- The cut `c` places a magnitude `a` on the grid `q`: in units `u`, of which a grid step has 2^k, it is lo whole steps and the
remainder with the cut-off part `d`. -/
structure Places (c : Cut) (b : Bool) (a q d u : ℝ) : Prop where
  unit_pos : 0 < u
  grid : q = 2 ^ c.k * u
  mag : a = (c.lo * 2 ^ c.k + (c.rem + d)) * u
  rem_lt : c.rem < 2 ^ c.k
  inexact : c.inexact = true ↔ 0 < c.rem + d
  tail : b = false ∧ d = 0 ∨ b = true ∧ 0 < d ∧ d < 1
  wide : b = true → 24 ≤ c.k

theorem two_zpow_split {e qe : ℤ} (h : e ≤ qe) : (2 : ℝ) ^ qe = 2 ^ (qe - e).toNat * 2 ^ e := by
  rw [← zpow_natCast, ← zpow_add₀ two_ne_zero]
  congr 1
  omega

theorem cut_places {m : ℕ} {e qe : ℤ} {b : Bool} {a : ℝ} (ha : MagOf m e b a) (hb : b = true → e + 24 ≤ qe) :
    ∃ d u, Places (cut m e b qe) b a (2 ^ qe) d u := by
  obtain ⟨d, had, hd⟩ := ha
  by_cases hq : qe ≤ e
  case pos =>
    have hbf : b = false := by
      by_contra h
      have := hb (by simpa using h)
      omega
    obtain ⟨-, rfl⟩ : b = false ∧ d = 0 := by simpa [hbf] using hd
    have hc : cut m e b qe = ⟨m * 2 ^ (e - qe).toNat, 0, 0, b⟩ := if_pos hq
    refine ⟨0, 2 ^ qe, ?_⟩
    rw [hc]
    refine ⟨by positivity, by simp, ?_, by simp, by simp [hbf], .inl ⟨hbf, rfl⟩, by simp [hbf]⟩
    simp [had, two_zpow_split hq, mul_assoc]
  case neg =>
    have hle : e ≤ qe := by omega
    have hc : cut m e b qe = ⟨m / 2 ^ (qe - e).toNat, m % 2 ^ (qe - e).toNat, (qe - e).toNat, b || m % 2 ^ (qe - e).toNat != 0⟩ :=
      if_neg hq
    refine ⟨d, 2 ^ e, ?_⟩
    rw [hc]
    refine ⟨by positivity, two_zpow_split hle, ?_, Nat.mod_lt _ (by positivity), ?_, ?_, fun h => ?_⟩
    · have hm : (m : ℝ) = (m / 2 ^ (qe - e).toNat : ℕ) * 2 ^ (qe - e).toNat + (m % 2 ^ (qe - e).toNat : ℕ) := by
        exact_mod_cast (Nat.div_add_mod' m _).symm
      rw [had, ← add_assoc, ← hm]
    · rcases hd with ⟨rfl, rfl⟩ | ⟨rfl, hd, -⟩
      · simp [Nat.pos_iff_ne_zero]
      · have : (0 : ℝ) < (m % 2 ^ (qe - e).toNat : ℕ) + d := by positivity
        simpa using this
    · rcases hd with hd | ⟨hb, hd0, hd1, -⟩
      · exact .inl hd
      · exact .inr ⟨hb, hd0, hd1⟩
    · have := hb h
      simp only
      omega

/-- A whole number lies below r + d exactly where it lies below r, or is r and something was cut off. -/
theorem natCast_lt_add_tail {b : Bool} {d : ℝ} (h : b = false ∧ d = 0 ∨ b = true ∧ 0 < d ∧ d < 1) (x r : ℕ) :
    (x : ℝ) < r + d ↔ x < r ∨ b = true ∧ x = r := by
  rcases h with ⟨rfl, rfl⟩ | ⟨rfl, h0, h1⟩
  · simp
  · have hle : (x : ℝ) < r + d ↔ x ≤ r := by
      refine ⟨fun hx => Nat.lt_succ_iff.mp ?_, fun hx => ?_⟩
      · rw [← Nat.cast_lt (α := ℝ)]
        push_cast
        linarith
      · have : (x : ℝ) ≤ r := Nat.cast_le.mpr hx
        linarith
    simp [hle, le_iff_lt_or_eq]

/-- A whole number is at most r + d exactly where it is at most r. -/
theorem natCast_le_add_tail {b : Bool} {d : ℝ} (h : b = false ∧ d = 0 ∨ b = true ∧ 0 < d ∧ d < 1) (x r : ℕ) :
    (x : ℝ) ≤ r + d ↔ x ≤ r := by
  have hd : 0 ≤ d ∧ d < 1 := by
    rcases h with ⟨-, rfl⟩ | ⟨-, h0, h1⟩
    · simp
    · exact ⟨h0.le, h1⟩
  refine ⟨fun hx => Nat.lt_succ_iff.mp ?_, fun hx => ?_⟩
  · rw [← Nat.cast_lt (α := ℝ)]
    push_cast
    linarith
  · have : (x : ℝ) ≤ r := Nat.cast_le.mpr hx
    linarith

section
variable {c : Cut} {b : Bool} {a q d u : ℝ}

theorem Places.tail_bounds (h : Places c b a q d u) : 0 ≤ d ∧ d < 1 := by
  rcases h.tail with ⟨-, rfl⟩ | ⟨-, h0, h1⟩
  · simp
  · exact ⟨h0.le, h1⟩

theorem Places.grid_pos (h : Places c b a q d u) : 0 < q := by
  have := h.unit_pos
  rw [h.grid]
  positivity

theorem Places.below_grid (h : Places c b a q d u) : (c.rem : ℝ) + d < 2 ^ c.k := by
  have hr : (c.rem : ℝ) + 1 ≤ 2 ^ c.k := by exact_mod_cast h.rem_lt
  linarith [h.tail_bounds.2]

theorem Places.mag_eq (h : Places c b a q d u) : a = c.lo * q + (c.rem + d) * u := by
  rw [h.mag, h.grid]
  ring

theorem Places.lo_le (h : Places c b a q d u) : c.lo * q ≤ a := by
  have : 0 ≤ ((c.rem : ℝ) + d) * u := mul_nonneg (add_nonneg c.rem.cast_nonneg h.tail_bounds.1) h.unit_pos.le
  linarith [h.mag_eq]

theorem Places.lt_hi (h : Places c b a q d u) : a < (c.lo + 1) * q := by
  have : ((c.rem : ℝ) + d) * u < q := h.grid ▸ mul_lt_mul_of_pos_right h.below_grid h.unit_pos
  linarith [h.mag_eq]

/-- The cut's lo is the only whole number n with n q ≤ a < (n + 1) q. -/
theorem Places.lo_unique (h : Places c b a q d u) {n : ℕ} (h0 : n * q ≤ a) (h1 : a < (n + 1) * q) : c.lo = n := by
  have hlo : (c.lo : ℝ) < n + 1 := lt_of_mul_lt_mul_right (h.lo_le.trans_lt h1) h.grid_pos.le
  have hn : (n : ℝ) < c.lo + 1 := lt_of_mul_lt_mul_right (h0.trans_lt h.lt_hi) h.grid_pos.le
  norm_cast at hlo hn
  omega

theorem Places.inexact_iff (h : Places c b a q d u) : c.inexact = true ↔ a ≠ c.lo * q := by
  have hne : a = c.lo * q ↔ (c.rem : ℝ) + d = 0 := by
    rw [h.mag_eq, add_eq_left, mul_eq_zero, or_iff_left h.unit_pos.ne']
  rw [h.inexact, ne_eq, hne, lt_iff_le_and_ne, and_iff_right (add_nonneg c.rem.cast_nonneg h.tail_bounds.1), ne_comm]

/-- Below an inexact magnitude the grid step has a half in units. -/
theorem Places.half (h : Places c b a q d u) (hi : c.inexact = true) : ∃ H : ℕ, 2 ^ c.k = 2 * H := by
  have hk : c.k ≠ 0 := by
    intro hk
    have hrem : c.rem = 0 := by simpa [hk] using h.rem_lt
    rcases h.tail with ⟨-, rfl⟩ | ⟨hb, -⟩
    · simpa [hrem] using h.inexact.mp hi
    · have := h.wide hb
      omega
  exact ⟨2 ^ (c.k - 1), by rw [mul_comm, pow_sub_one_mul hk]⟩

theorem Places.half_lt_iff (h : Places c b a q d u) {H : ℕ} (hH : 2 ^ c.k = 2 * H) :
    (c.lo * q + q / 2 < a ↔ (H : ℝ) < c.rem + d) ∧ (c.lo * q + q / 2 ≤ a ↔ (H : ℝ) ≤ c.rem + d) := by
  have hq : q / 2 = H * u := by
    have : (2 : ℝ) ^ c.k = 2 * H := by exact_mod_cast hH
    rw [h.grid, this]
    ring
  rw [h.mag_eq, hq, add_lt_add_iff_left, add_le_add_iff_left, mul_lt_mul_iff_left₀ h.unit_pos, mul_le_mul_iff_left₀ h.unit_pos]
  exact ⟨.rfl, .rfl⟩

/-- R88's comparison in units: the grid of a cut-off magnitude is so wide that what is cut off only decides a tie. -/
theorem Places.draw_lt_iff (h : Places c b a q d u) (draw : ℕ) :
    (draw : ℝ) * q < (a - c.lo * q) * 2 ^ 24 ↔
      draw * 2 ^ c.k < c.rem * 2 ^ 24 ∨ b = true ∧ draw * 2 ^ c.k = c.rem * 2 ^ 24 := by
  have hu : (draw : ℝ) * q < (a - c.lo * q) * 2 ^ 24 ↔ ((draw * 2 ^ c.k : ℕ) : ℝ) < (c.rem + d) * 2 ^ 24 := by
    have hl : (draw : ℝ) * q = (draw * 2 ^ c.k : ℕ) * u := by
      rw [h.grid]
      push_cast
      ring
    have hr : (a - c.lo * q) * 2 ^ 24 = (c.rem + d) * 2 ^ 24 * u := by
      rw [h.mag_eq]
      ring
    rw [hl, hr, mul_lt_mul_iff_left₀ h.unit_pos]
  rw [hu]
  rcases h.tail with ⟨rfl, rfl⟩ | ⟨rfl, -⟩
  · rw [add_zero]
    norm_cast
    simp
  · obtain ⟨j, hj⟩ := Nat.exists_eq_add_of_le (h.wide rfl)
    have hk : draw * 2 ^ c.k = draw * 2 ^ j * 2 ^ 24 := by rw [hj, pow_add]; ring
    have h24 : (0 : ℝ) < 2 ^ 24 := by positivity
    rw [hk, Nat.mul_lt_mul_right (by positivity), Nat.mul_left_inj (by positivity), ← natCast_lt_add_tail h.tail,
      Nat.cast_mul, Nat.cast_pow 2 24, Nat.cast_ofNat, mul_lt_mul_iff_left₀ h24]

/-- Table 3-11 on an inexact magnitude: the model's choice is the table's. -/
theorem Places.up_iff (h : Places c b a q d u) (hi : c.inexact = true) (neg : Bool) {mode : Rm} (hm : mode ≠ .dyn) {draw draw' : ℕ}
    (hd : mode = .rsr → draw = draw') : c.up b neg mode draw = true ↔ TakesHi mode neg a q c.lo draw' := by
  obtain ⟨H, hH⟩ := h.half hi
  obtain ⟨hlt, hle⟩ := h.half_lt_iff hH
  cases mode with
  | rne =>
    have heq : a = c.lo * q + q / 2 ↔ H = c.rem ∧ b = false := by
      have : a = c.lo * q + q / 2 ↔ ¬ c.lo * q + q / 2 < a ∧ c.lo * q + q / 2 ≤ a := by
        rw [not_lt, le_antisymm_iff]
      rw [this, hlt, hle, natCast_lt_add_tail h.tail, natCast_le_add_tail h.tail]
      cases b <;> simp <;> omega
    simp only [TakesHi, Cut.up, hlt, heq, natCast_lt_add_tail h.tail, hH]
    cases b <;> simp <;> omega
  | rmm =>
    simp only [TakesHi, Cut.up, hle, natCast_le_add_tail h.tail, hH]
    simp
  | rup => simp [TakesHi, Cut.up]
  | rdn => simp [TakesHi, Cut.up]
  | rtz => simp [TakesHi, Cut.up]
  | rsr =>
    obtain rfl := hd rfl
    simp [TakesHi, Cut.up, h.draw_lt_iff]
  | dyn => exact absurd rfl hm

end

/-! ## The number of grid steps delivered -/

/-- Whole grid steps of the rounded magnitude. -/
def stepsOf (c : Cut) (b neg : Bool) (mode : Rm) (draw : ℕ) : ℕ :=
  if c.inexact && c.up b neg mode draw then c.lo + 1 else c.lo

theorem stepsOf_eq (c : Cut) (b neg : Bool) (mode : Rm) (draw : ℕ) :
    stepsOf c b neg mode draw = c.lo ∨ stepsOf c b neg mode draw = c.lo + 1 := by
  unfold stepsOf
  split
  · exact .inr rfl
  · exact .inl rfl

section
variable {c : Cut} {b : Bool} {a q d u : ℝ}

/-- What the statement asks of the rounded magnitude, as a whole number of steps or as a real number, holds of the model's steps. -/
theorem Places.chosen {α : Type} (h : Places c b a q d u) (neg : Bool) {mode : Rm} (hm : mode ≠ .dyn) {draw draw' : ℕ}
    (hd : mode = .rsr → draw = draw') (g : ℕ → α) {r : α} (he : a = c.lo * q → r = g c.lo)
    (hc : a ≠ c.lo * q → (TakesHi mode neg a q c.lo draw' → r = g (c.lo + 1)) ∧ (¬ TakesHi mode neg a q c.lo draw' → r = g c.lo)) :
    r = g (stepsOf c b neg mode draw) := by
  unfold stepsOf
  by_cases hi : c.inexact = true
  · obtain ⟨hhi, hlo⟩ := hc (h.inexact_iff.mp hi)
    rw [hi, Bool.true_and]
    split
    next hup => exact hhi ((h.up_iff hi neg hm hd).mp hup)
    next hup => exact hlo fun ht => hup ((h.up_iff hi neg hm hd).mpr ht)
  · rw [Bool.not_eq_true _ |>.mp hi]
    exact he (not_not.mp fun hne => hi (h.inexact_iff.mpr hne))

/-- The rounded magnitude is the magnitude exactly where the cut is exact. -/
theorem Places.steps_eq_iff (h : Places c b a q d u) (neg : Bool) (mode : Rm) (draw : ℕ) :
    stepsOf c b neg mode draw * q = a ↔ c.inexact = false := by
  by_cases hi : c.inexact = true
  · have hne := h.inexact_iff.mp hi
    have hlt := h.lt_hi
    rcases stepsOf_eq c b neg mode draw with hs | hs
    · simp [hs, hi, Ne.symm hne]
    · simp [hs, hi, hlt.ne']
  · rw [Bool.not_eq_true] at hi
    have he : a = c.lo * q := not_not.mp fun hne => by simp [h.inexact_iff.mpr hne] at hi
    simp [stepsOf, hi, he]

end

/-! ## RND into an integer range (R92) -/

/-- The grid steps that a call of `rndInt` delivers, before the bounds. -/
theorem rndInt_fin (lo hi qe : ℤ) (mode : Rm) (neg : Bool) (m : ℕ) (e : ℤ) (b : Bool) (st : Fst) :
    rndInt lo hi qe mode (.fin neg m e b) st =
      let c := cut m e b qe
      let j := stepsOf c b neg mode (st.draw mode).1
      let v : ℤ := if neg then -j else j
      if v < lo then (lo, (st.draw mode).2.raise fNV)
      else if hi < v then (hi, (st.draw mode).2.raise fNV)
      else (v, if c.inexact then (st.draw mode).2.raise fNX else (st.draw mode).2) := rfl

/-- R92 for a number: the steps that Table 3-11 chooses, or the nearer bound with NV alone. -/
theorem rndInt_rounds {lo hi qe : ℤ} {mode : Rm} {st : Fst} (hm : mode ≠ .dyn) {neg : Bool} {m : ℕ} {e : ℤ} {a : ℝ} {n j : ℕ}
    (hlh : lo ≤ hi) (ha : MagOf m e false a) (h0 : n * (2 : ℝ) ^ qe ≤ a) (h1 : a < (n + 1) * (2 : ℝ) ^ qe)
    (he : a = n * (2 : ℝ) ^ qe → j = n)
    (hc : a ≠ n * (2 : ℝ) ^ qe → (TakesHi mode neg a (2 ^ qe) n (drawn st.seed) → j = n + 1) ∧
      (¬ TakesHi mode neg a (2 ^ qe) n (drawn st.seed) → j = n)) :
    let v : ℤ := if neg then -j else j
    let out := rndInt lo hi qe mode (.fin neg m e false) st
    out.2.seed = (if mode = .rsr then stepped st.seed else st.seed) ∧
    (v < lo → out.1 = lo ∧ out.2.flags = st.flags ||| 1) ∧ (hi < v → out.1 = hi ∧ out.2.flags = st.flags ||| 1) ∧
    (lo ≤ v → v ≤ hi → out.1 = v ∧ (j * (2 : ℝ) ^ qe = a → out.2.flags = st.flags) ∧
      (j * (2 : ℝ) ^ qe ≠ a → out.2.flags = st.flags ||| 0x10)) := by
  obtain ⟨d, u, h⟩ := cut_places (qe := qe) ha (by simp)
  obtain rfl := h.lo_unique h0 h1
  obtain rfl : j = stepsOf (cut m e false qe) false neg mode (st.draw mode).1 := h.chosen neg hm (draw_fst · st) id he hc
  intro v out
  have hout : out = if v < lo then (lo, (st.draw mode).2.raise fNV) else if hi < v then (hi, (st.draw mode).2.raise fNV)
      else (v, if (cut m e false qe).inexact then (st.draw mode).2.raise fNX else (st.draw mode).2) :=
    rndInt_fin ..
  rw [ne_eq, h.steps_eq_iff, hout, draw_snd]
  by_cases hlo : v < lo
  · rw [if_pos hlo]
    exact ⟨rfl, fun _ => ⟨rfl, rfl⟩, fun _ => by omega, fun _ => by omega⟩
  by_cases hhi : hi < v
  · rw [if_neg hlo, if_pos hhi]
    exact ⟨rfl, fun _ => by omega, fun _ => ⟨rfl, rfl⟩, fun _ _ => by omega⟩
  · rw [if_neg hlo, if_neg hhi]
    cases (cut m e false qe).inexact with
    | false => exact ⟨rfl, fun _ => by omega, fun _ => by omega, fun _ _ => ⟨rfl, fun _ => rfl, fun hn => absurd rfl hn⟩⟩
    | true => exact ⟨rfl, fun _ => by omega, fun _ => by omega, fun _ _ => ⟨rfl, fun hn => by simp at hn, fun _ => rfl⟩⟩

end Sys2Proof.Proofs.Rounding
end

section
/-!
PROOFS. The codes of a format as real numbers (spec/03, R73, Tables 3-2, 3-3): codes and magnitudes are in the same order, so a code
tells an overflow; and the answers of RND that are not rounded (R87, Table 3-12).
-/
namespace Sys2Proof.Proofs.Rounding
open Sys2Proof Sys2Proof.Machine Sys2Proof.Claims

/-! ## The numbers that codes stand for (R73) -/

/-- Magnitude of a code, in units of the smallest subnormal. -/
def codeUnits (f : Fmt) (c : ℕ) : ℕ :=
  if c / 2 ^ f.mb = 0 then c % 2 ^ f.mb else (2 ^ f.mb + c % 2 ^ f.mb) * 2 ^ (c / 2 ^ f.mb - 1)

/-- The code at `n` steps of a grid 2^x times the finest one, the next power of two included. -/
theorem codeUnits_grid (f : Fmt) {x n : ℕ} (hn : n ≤ 2 ^ (f.mb + 1)) (hx : x = 0 ∨ 2 ^ f.mb ≤ n) :
    codeUnits f (x * 2 ^ f.mb + n) = n * 2 ^ x := by
  have hp : 0 < 2 ^ f.mb := by positivity
  rw [pow_succ] at hn
  unfold codeUnits
  rcases Nat.lt_or_ge n (2 ^ f.mb) with hlt | hge
  · obtain rfl : x = 0 := by omega
    simp [Nat.div_eq_of_lt hlt, Nat.mod_eq_of_lt hlt]
  rcases hn.lt_or_eq with hlt | rfl
  · have hc : x * 2 ^ f.mb + n = n - 2 ^ f.mb + 2 ^ f.mb * (x + 1) := by
      rw [mul_add, mul_comm x]
      omega
    rw [hc, Nat.add_mul_div_left _ _ hp, Nat.add_mul_mod_self_left, Nat.div_eq_of_lt (by omega), Nat.mod_eq_of_lt (by omega),
      if_neg (by omega), Nat.add_sub_cancel' hge]
    congr 2
    omega
  · have hc : x * 2 ^ f.mb + 2 ^ f.mb * 2 = 2 ^ f.mb * (x + 2) := by ring
    rw [hc, Nat.mul_div_cancel_left _ hp, Nat.mul_mod_right, if_neg (by omega), Nat.add_zero, show x + 2 - 1 = x + 1 by omega, pow_succ]
    ring

/-- Every code stands on such a grid, and so does the next one. -/
theorem exists_grid (f : Fmt) (c : ℕ) : ∃ x n, c = x * 2 ^ f.mb + n ∧ n < 2 ^ (f.mb + 1) ∧ (x = 0 ∨ 2 ^ f.mb ≤ n) := by
  have hdiv := Nat.div_add_mod' c (2 ^ f.mb)
  have hmod : c % 2 ^ f.mb < 2 ^ f.mb := Nat.mod_lt _ (by positivity)
  rw [pow_succ]
  cases hE : c / 2 ^ f.mb with
  | zero => exact ⟨0, c, by omega, by rw [hE] at hdiv; omega, .inl rfl⟩
  | succ x =>
    refine ⟨x, 2 ^ f.mb + c % 2 ^ f.mb, ?_, by omega, .inr (by omega)⟩
    rw [hE, Nat.succ_mul] at hdiv
    omega

theorem codeUnits_strictMono (f : Fmt) : StrictMono (codeUnits f) := by
  refine strictMono_nat_of_lt_succ fun c => ?_
  obtain ⟨x, n, rfl, hn, hx⟩ := exists_grid f c
  rw [add_assoc, codeUnits_grid f hn.le hx, codeUnits_grid f (Nat.succ_le_of_lt hn) (by omega)]
  exact Nat.mul_lt_mul_of_pos_right (Nat.lt_succ_self n) (by positivity)

/-- The number that a code stands for. -/
noncomputable def valueOf (f : Fmt) (c : ℕ) : ℝ := codeUnits f c * (2 : ℝ) ^ (f.emin - f.mb)

theorem valueOf_lt_iff (f : Fmt) (c c' : ℕ) : valueOf f c < valueOf f c' ↔ c < c' := by
  unfold valueOf
  rw [mul_lt_mul_iff_left₀ (by positivity), Nat.cast_lt, (codeUnits_strictMono f).lt_iff_lt]

/-! ## Sign and magnitude of a code -/

theorem signed_parts (f : Fmt) (neg : Bool) {c : ℕ} (hc : c < 2 ^ (f.eb + f.mb)) :
    f.signed neg c < 2 ^ f.width ∧ bit (f.signed neg c) (f.eb + f.mb) = neg ∧ bits (f.signed neg c) f.mb f.eb = c / 2 ^ f.mb ∧
      f.signed neg c % 2 ^ f.mb = c % 2 ^ f.mb := by
  have hw : 2 ^ f.width = 2 * 2 ^ (f.eb + f.mb) := by rw [Fmt.width, add_assoc, pow_add, pow_one]
  have hdiv : c / 2 ^ f.mb < 2 ^ f.eb := by
    rw [Nat.div_lt_iff_lt_mul (by positivity), ← pow_add]
    exact hc
  cases neg with
  | false =>
    refine ⟨?_, bit_false ?_, Nat.mod_eq_of_lt hdiv, rfl⟩
    · simp only [Fmt.signed, hw, Bool.false_eq_true, if_false]
      omega
    · simp only [Fmt.signed, Bool.false_eq_true, if_false]
      rw [Nat.div_eq_of_lt hc]
  | true =>
    simp only [Fmt.signed, hw, if_true, bits]
    refine ⟨by omega, bit_true ?_, ?_, ?_⟩
    · rw [Nat.add_div_right _ (by positivity), Nat.div_eq_of_lt hc]
    · rw [pow_add, Nat.add_mul_div_right _ _ (by positivity), Nat.add_mod_right, Nat.mod_eq_of_lt hdiv]
    · rw [pow_add, Nat.add_mul_mod_self_right]

/-- The codes of the top binade are the last 2^mb without a sign. -/
theorem topBinade_add (f : Fmt) : (2 ^ f.eb - 1) * 2 ^ f.mb + 2 ^ f.mb = 2 ^ (f.eb + f.mb) := by
  rw [← Nat.succ_mul, Nat.succ_eq_add_one, Nat.sub_add_cancel Nat.one_le_two_pow, pow_add]

theorem maxCode_lt (f : Fmt) : f.maxCode < 2 ^ (f.eb + f.mb) := by
  have h1 := topBinade_add f
  have h2 : 0 < 2 ^ f.mb := by positivity
  unfold Fmt.maxCode
  cases f.tops <;> simp only <;> omega

/-- A code up to the largest finite one is neither an infinity nor a NaN (Table 3-2). -/
theorem not_top_of_le_maxCode {f : Fmt} (he : 0 < f.eb) {c : ℕ} (hc : c ≤ f.maxCode) :
    ¬ (f.tops = .ieee ∧ c / 2 ^ f.mb = 2 ^ f.eb - 1) ∧
      ¬ (f.tops = .e4m3 ∧ c / 2 ^ f.mb = 2 ^ f.eb - 1 ∧ c % 2 ^ f.mb = 2 ^ f.mb - 1) := by
  have h2 : 2 ≤ 2 ^ f.eb := Nat.le_self_pow he.ne' 2
  have h1 : 0 < 2 ^ f.mb := by positivity
  have hdiv := Nat.div_add_mod' c (2 ^ f.mb)
  refine ⟨fun ⟨ht, hE⟩ => ?_, fun ⟨ht, hE, hM⟩ => ?_⟩
  · have : 0 < (2 ^ f.eb - 1) * 2 ^ f.mb := Nat.mul_pos (by omega) h1
    simp only [Fmt.maxCode, ht] at hc
    rw [hE] at hdiv
    omega
  · have h3 := topBinade_add f
    have h4 : 2 ≤ 2 ^ (f.eb + f.mb) := Nat.le_self_pow (by omega) 2
    simp only [Fmt.maxCode, ht] at hc
    rw [hE, hM] at hdiv
    omega

theorem codeOf_signed {f : Fmt} (he : 0 < f.eb) (neg : Bool) {c : ℕ} (hc : c ≤ f.maxCode) :
    CodeOf f neg (valueOf f c) (f.signed neg c) := by
  obtain ⟨hlt, hbit, hbits, hmod⟩ := signed_parts f neg (hc.trans_lt (maxCode_lt f))
  obtain ⟨hieee, he4m3⟩ := not_top_of_le_maxCode he hc
  refine ⟨hlt, ?_⟩
  unfold valueOf codeUnits
  simp only [Fmt.decode, hbit, hbits, hmod, if_neg hieee, if_neg he4m3]
  by_cases hE : c / 2 ^ f.mb = 0
  · exact ⟨_, _, by rw [if_pos hE], by rw [if_pos hE]⟩
  · refine ⟨_, _, by rw [if_neg hE], ?_⟩
    rw [if_neg hE, Nat.cast_mul, mul_assoc, Nat.cast_pow 2, Nat.cast_ofNat, ← zpow_natCast, ← zpow_add₀ two_ne_zero]
    congr 2
    unfold Fmt.emin
    omega

theorem decode_inf {f : Fmt} (he : 0 < f.eb) (ht : f.tops = .ieee) (neg : Bool) :
    f.decode (f.inf neg) = .inf neg ∧ f.inf neg < 2 ^ f.width := by
  have h2 : 2 ≤ 2 ^ f.eb := Nat.le_self_pow he.ne' 2
  have hc : (2 ^ f.eb - 1) * 2 ^ f.mb < 2 ^ (f.eb + f.mb) := by
    rw [← topBinade_add]
    exact Nat.lt_add_of_pos_right (by positivity)
  obtain ⟨hlt, hbit, hbits, hmod⟩ := signed_parts f neg hc
  refine ⟨?_, hlt⟩
  simp [Fmt.inf, Fmt.decode, hbit, hbits, hmod, ht]

/-! ## The formats of Table 3-2 -/

/-- What the proofs use of a row of Tables 3-2 and 3-3. -/
structure IsRow (f : Fmt) (mb : ℕ) (emin : ℤ) (top : ℝ) (nan : ℕ) : Prop where
  mb : f.mb = mb
  emin : f.emin = emin
  top : valueOf f f.maxCode = top
  nan : f.nan = nan
  eb_pos : 0 < f.eb
  mb_le : f.mb ≤ 52
  narrow : Narrow f = decide (f.tops = .finite)
  e4m3 : f = .e4m3 ↔ f.tops = .e4m3

theorem valueOf_grid (f : Fmt) {x n : ℕ} (hn : n ≤ 2 ^ (f.mb + 1)) (hx : x = 0 ∨ 2 ^ f.mb ≤ n) :
    valueOf f (x * 2 ^ f.mb + n) = n * (2 : ℝ) ^ (x + f.emin - f.mb) := by
  rw [valueOf, codeUnits_grid f hn hx, Nat.cast_mul, Nat.cast_pow 2, Nat.cast_ofNat, mul_assoc, ← zpow_natCast, ← zpow_add₀ two_ne_zero,
    add_sub_assoc]

/-- The largest finite code, as steps of the grid of its binade. -/
theorem valueOf_maxCode {f : Fmt} (x n : ℕ) (k : ℤ)
    (h : f.maxCode = x * 2 ^ f.mb + n ∧ n ≤ 2 ^ (f.mb + 1) ∧ 2 ^ f.mb ≤ n ∧ x + f.emin - f.mb = k) :
    valueOf f f.maxCode = n * (2 : ℝ) ^ k := by
  obtain ⟨hc, hn, hx, hk⟩ := h
  rw [hc, valueOf_grid f hn (.inr hx), hk]

theorem all_ones_mul_zpow (p : ℕ) {k : ℤ} {j : ℕ} (hk : k + p = j) :
    ((2 ^ (p + 1) - 1 : ℕ) : ℝ) * (2 : ℝ) ^ k = (2 - (2 : ℝ) ^ (-p : ℤ)) * 2 ^ j := by
  have hj : (2 : ℝ) ^ j = 2 ^ k * 2 ^ p := by rw [← zpow_natCast, ← hk, zpow_add₀ two_ne_zero, zpow_natCast]
  rw [Nat.cast_sub Nat.one_le_two_pow, hj, zpow_neg, zpow_natCast]
  push_cast
  field_simp
  ring

theorem isRow {f : Fmt} {mb : ℕ} {emin : ℤ} {top : ℝ} {nan : ℕ} (h : Table32 f mb emin top nan) : IsRow f mb emin top nan := by
  rcases h with ⟨rfl, rfl, rfl, rfl, rfl⟩ | ⟨rfl, rfl, rfl, rfl, rfl⟩ | ⟨rfl, rfl, rfl, rfl, rfl⟩ | ⟨rfl, rfl, rfl, rfl, rfl⟩ |
    ⟨rfl, rfl, rfl, rfl, rfl⟩ | ⟨rfl, rfl, rfl, rfl, rfl⟩ | ⟨rfl, rfl, rfl, rfl, rfl⟩ | ⟨rfl, rfl, rfl, rfl, rfl⟩ |
    ⟨rfl, rfl, rfl, rfl, rfl⟩ <;>
    refine ⟨rfl, by decide, ?_, by decide, by decide, by decide, by decide, by decide⟩
  · exact (valueOf_maxCode 2045 (2 ^ 53 - 1) 971 (by decide)).trans (all_ones_mul_zpow 52 rfl)
  · exact (valueOf_maxCode 253 (2 ^ 24 - 1) 104 (by decide)).trans (all_ones_mul_zpow 23 rfl)
  · exact (valueOf_maxCode 29 (2 ^ 11 - 1) 5 (by decide)).trans (by norm_num)
  · exact (valueOf_maxCode 253 (2 ^ 8 - 1) 120 (by decide)).trans (all_ones_mul_zpow 7 rfl)
  · exact (valueOf_maxCode 29 7 13 (by decide)).trans (by norm_num)
  · exact (valueOf_maxCode 14 14 5 (by decide)).trans (by norm_num)
  · exact (valueOf_maxCode 6 7 2 (by decide)).trans (by norm_num)
  · exact (valueOf_maxCode 2 15 (-1) (by decide)).trans (by norm_num)
  · exact (valueOf_maxCode 2 3 1 (by decide)).trans (by norm_num)

section
variable {f : Fmt} {mb : ℕ} {emin : ℤ} {top : ℝ} {nan : ℕ}

theorem IsRow.codeOf_top (h : IsRow f mb emin top nan) (neg : Bool) : CodeOf f neg top (f.signed neg f.maxCode) :=
  h.top ▸ codeOf_signed h.eb_pos neg le_rfl

theorem IsRow.tops_ieee (h : IsRow f mb emin top nan) (hn : Narrow f = false) (he : f ≠ .e4m3) : f.tops = .ieee := by
  rw [h.narrow, decide_eq_false_iff_not] at hn
  rw [ne_eq, h.e4m3] at he
  cases ht : f.tops with
  | ieee => rfl
  | e4m3 => exact absurd ht he
  | finite => exact absurd ht hn

theorem nan_of_e4m3 (h : f = .e4m3) : f.nan = 0x7F := by rw [h]; decide

/-- R87. -/
theorem IsRow.overflowed (h : IsRow f mb emin top nan) (mode : Rm) (sat neg : Bool) :
    Overflowed f top mode sat neg (f.overflow neg mode sat) := by
  have hmost := h.codeOf_top neg
  refine ⟨fun hs => ?_, fun hs he => ?_, fun hs hn he => ?_⟩
  · rw [h.narrow, decide_eq_true_iff] at hs
    unfold Fmt.overflow
    rwa [if_pos hs]
  · have ht := h.e4m3.mp he
    unfold Fmt.overflow
    rw [if_neg (by simp [hs, ht]), if_pos ht, nan_of_e4m3 he]
  · have ht := h.tops_ieee hn he
    have hinf := decode_inf h.eb_pos ht neg
    subst hs
    unfold Fmt.overflow
    rw [if_neg (by simp [ht]), if_neg (by simp [ht])]
    refine ⟨?nearest, ?rtz, ?rdnPos, ?rdnNeg, ?rupPos, ?rupNeg⟩
    case nearest => rintro (rfl | rfl | rfl) <;> exact hinf
    case rtz => rintro rfl; exact hmost
    case rdnPos => rintro rfl rfl; exact hmost
    case rdnNeg => rintro rfl rfl; exact hinf
    case rupPos => rintro rfl rfl; exact hinf
    case rupNeg => rintro rfl rfl; exact hmost

/-- Table 3-12. -/
theorem IsRow.rnd_nan (h : IsRow f mb emin top nan) (mode : Rm) (sat : Bool) (st : Fst) :
    rnd f mode sat .nan st =
      (nan, ⟨if mode = .rsr then stepped st.seed else st.seed, if Narrow f then st.flags ||| 1 else st.flags⟩) := by
  have hr : rnd f mode sat .nan st = ((f.special .nan sat).1, (st.draw mode).2.raise (f.special .nan sat).2) := rfl
  rw [hr, draw_raise, ← h.nan]
  by_cases ht : f.tops = .finite
  · simp [h.narrow, ht, Fmt.special, Fmt.nan, fNV]
  · simp [h.narrow, ht, Fmt.special]

theorem IsRow.rnd_inf (h : IsRow f mb emin top nan) (mode : Rm) (sat : Bool) (st : Fst) (neg : Bool) :
    let out := rnd f mode sat (.inf neg) st
    out.2.seed = (if mode = .rsr then stepped st.seed else st.seed) ∧
    (Narrow f → CodeOf f neg top out.1 ∧ out.2.flags = st.flags ||| 1) ∧
    (¬ Narrow f → sat = true → CodeOf f neg top out.1 ∧ out.2.flags = st.flags ||| 0x10) ∧
    (f = .e4m3 → sat = false → out.1 = 0x7F ∧ out.2.flags = st.flags ||| 1) ∧
    (¬ Narrow f → f ≠ .e4m3 → sat = false → f.decode out.1 = .inf neg ∧ out.1 < 2 ^ f.width ∧ out.2.flags = st.flags) := by
  have hr : rnd f mode sat (.inf neg) st = ((f.special (.inf neg) sat).1, (st.draw mode).2.raise (f.special (.inf neg) sat).2) := rfl
  have hmost := h.codeOf_top neg
  intro out
  simp only [out, hr, draw_snd, seed_raise, flags_raise, true_and]
  refine ⟨fun hn => ?_, fun hn hs => ?_, fun he hs => ?_, fun hn he hs => ?_⟩
  · rw [h.narrow, decide_eq_true_iff] at hn
    simp only [Fmt.special, if_pos hn]
    exact ⟨hmost, rfl⟩
  · rw [h.narrow, decide_eq_true_iff] at hn
    simp only [Fmt.special, if_neg hn, if_pos hs]
    exact ⟨hmost, rfl⟩
  · have ht := h.e4m3.mp he
    simp [Fmt.special, ht, hs, nan_of_e4m3 he, fNV]
  · have ht := h.tops_ieee (Bool.not_eq_true _ |>.mp hn) he
    have hinf := decode_inf h.eb_pos ht neg
    simp [Fmt.special, ht, hs, hinf]

theorem valueOf_zero (f : Fmt) : valueOf f 0 = 0 := by simp [valueOf, codeUnits]

theorem IsRow.rnd_zero (h : IsRow f mb emin top nan) (mode : Rm) (sat : Bool) (st : Fst) (neg : Bool) (e : ℤ) :
    CodeOf f neg 0 (rnd f mode sat (.fin neg 0 e false) st).1 ∧
      (rnd f mode sat (.fin neg 0 e false) st).2 = ⟨if mode = .rsr then stepped st.seed else st.seed, st.flags⟩ :=
  ⟨valueOf_zero f ▸ codeOf_signed h.eb_pos neg (Nat.zero_le _), draw_snd st mode⟩

end

end Sys2Proof.Proofs.Rounding
end

section
/-!
PROOFS. RND into a floating-point format (spec/03, R86): the steps on the grid of the binade, the code that they give, and the
statement put together (O9).
-/
namespace Sys2Proof.Proofs.Rounding
open Sys2Proof Sys2Proof.Machine Sys2Proof.Claims

/-! ## RND into a format -/

/-- Exponent of the binade whose grid a magnitude is placed on: its own, or the smallest normal's (R86). -/
def gridExp (f : Fmt) (m : ℕ) (e : ℤ) : ℤ := max (Nat.log2 m + e) f.emin

/-- Grid steps of the magnitude that RND delivers, before the overflow of R87. -/
def roundedSteps (f : Fmt) (mode : Rm) (neg : Bool) (m : ℕ) (e : ℤ) (b : Bool) (st : Fst) : ℕ :=
  stepsOf (cut m e b (gridExp f m e - f.mb)) b neg mode (st.draw mode).1

/-- The code of those steps, without the sign. -/
def roundedCode (f : Fmt) (mode : Rm) (neg : Bool) (m : ℕ) (e : ℤ) (b : Bool) (st : Fst) : ℕ :=
  (gridExp f m e + f.bias - 1).toNat * 2 ^ f.mb + roundedSteps f mode neg m e b st

theorem rnd_fin {m : ℕ} (hm : m ≠ 0) (f : Fmt) (mode : Rm) (sat neg : Bool) (e : ℤ) (b : Bool) (st : Fst) :
    rnd f mode sat (.fin neg m e b) st =
      let n := roundedSteps f mode neg m e b st
      let code := roundedCode f mode neg m e b st
      if n ≠ 0 ∧ f.maxCode < code then (f.overflow neg mode sat, (st.draw mode).2.raise (fOF ||| fNX))
      else if (cut m e b (gridExp f m e - f.mb)).inexact then
        (f.signed neg (if n = 0 then 0 else code), (st.draw mode).2.raise (if Nat.log2 m + e < f.emin then fNX ||| fUF else fNX))
      else (f.signed neg code, (st.draw mode).2) := by
  simp [rnd, hm, roundedCode, roundedSteps, stepsOf, gridExp]

/-- Flags that RND raises below the overflow of R87: NX for an inexact magnitude, and UF where it lies below the smallest normal. -/
def roundedFlags (f : Fmt) (m : ℕ) (e : ℤ) (b : Bool) : BitVec 5 :=
  if (cut m e b (gridExp f m e - f.mb)).inexact then (if Nat.log2 m + e < f.emin then 0x18 else 0x10) else 0

section
variable {f : Fmt} {mode : Rm} {neg : Bool} {m : ℕ} {e : ℤ} {b : Bool} {st : Fst}

theorem rnd_overflow (hm : m ≠ 0) (sat : Bool) (h0 : roundedSteps f mode neg m e b st = 0 → roundedCode f mode neg m e b st = 0)
    (hlt : f.maxCode < roundedCode f mode neg m e b st) :
    rnd f mode sat (.fin neg m e b) st = (f.overflow neg mode sat, (st.draw mode).2.raise 0x14) := by
  rw [rnd_fin hm]
  exact if_pos ⟨fun hn => by simp [h0 hn] at hlt, hlt⟩

theorem rnd_fits (hm : m ≠ 0) (sat : Bool) (h0 : roundedSteps f mode neg m e b st = 0 → roundedCode f mode neg m e b st = 0)
    (hle : roundedCode f mode neg m e b st ≤ f.maxCode) :
    rnd f mode sat (.fin neg m e b) st =
      (f.signed neg (roundedCode f mode neg m e b st), (st.draw mode).2.raise (roundedFlags f m e b)) := by
  have hcode : (if roundedSteps f mode neg m e b st = 0 then 0 else roundedCode f mode neg m e b st) = roundedCode f mode neg m e b st :=
    ite_eq_right_iff.mpr fun hn => (h0 hn).symm
  rw [rnd_fin hm]
  dsimp only
  rw [if_neg (fun h => absurd h.2 hle.not_gt), hcode, roundedFlags]
  split
  · rfl
  · simp [Fst.raise]

end

/-! ## The binade of a magnitude -/

theorem lt_two_zpow_iff {a : ℝ} {k : ℤ} (h0 : (2 : ℝ) ^ k ≤ a) (h1 : a < (2 : ℝ) ^ (k + 1)) (j : ℤ) : a < (2 : ℝ) ^ j ↔ k < j := by
  refine ⟨fun h => (zpow_lt_zpow_iff_right₀ one_lt_two).mp (h0.trans_lt h), fun h => h1.trans_le ?_⟩
  exact (zpow_le_zpow_iff_right₀ one_lt_two).mpr h

theorem magOf_binade {m : ℕ} {e : ℤ} {b : Bool} {a : ℝ} (ha : MagOf m e b a) (hm : m ≠ 0) :
    (2 : ℝ) ^ (Nat.log2 m + e) ≤ a ∧ a < (2 : ℝ) ^ (Nat.log2 m + e + 1) := by
  obtain ⟨d, rfl, hd⟩ := ha
  have hd : 0 ≤ d ∧ d < 1 := by
    rcases hd with ⟨-, rfl⟩ | ⟨-, h0, h1, -⟩
    · simp
    · exact ⟨h0.le, h1⟩
  have hlo : (2 : ℝ) ^ Nat.log2 m ≤ m := by exact_mod_cast Nat.log2_self_le hm
  have hhi : (m : ℝ) + 1 ≤ 2 ^ (Nat.log2 m + 1) := by exact_mod_cast Nat.lt_log2_self
  have he : (0 : ℝ) < 2 ^ e := by positivity
  rw [add_right_comm, zpow_add₀ two_ne_zero, zpow_add₀ two_ne_zero, zpow_natCast, mul_le_mul_iff_left₀ he, mul_lt_mul_iff_left₀ he]
  refine ⟨by linarith, lt_of_lt_of_le (by linarith) (hhi.trans_eq ?_)⟩
  exact_mod_cast rfl

/-- A cut-off magnitude, which has 120 bits, lies at least 24 bits below the grid. -/
theorem IsRow.grid_wide {f : Fmt} {mb : ℕ} {emin : ℤ} {top : ℝ} {nan : ℕ} (h : IsRow f mb emin top nan) {m : ℕ} {e : ℤ} {b : Bool}
    {a : ℝ} (ha : MagOf m e b a) (hb : b = true) : e + 24 ≤ gridExp f m e - f.mb := by
  have hm : 2 ^ 119 ≤ m := by
    obtain ⟨d, -, ⟨hf, -⟩ | ⟨-, -, -, hm⟩⟩ := ha
    · exact absurd (hb.symm.trans hf) (by decide)
    · exact hm
  have hlog : 119 ≤ Nat.log2 m := (Nat.le_log2 (by omega)).mpr hm
  have hmb := h.mb_le
  unfold gridExp
  omega

/-- The rounded steps stay on the grid of their binade, the next power of two included. -/
theorem roundedSteps_bounds {f : Fmt} {m : ℕ} {e : ℤ} {b : Bool} {a d u : ℝ} (ha : MagOf m e b a) (hm : m ≠ 0)
    (h : Places (cut m e b (gridExp f m e - f.mb)) b a (2 ^ (gridExp f m e - f.mb)) d u) (mode : Rm) (neg : Bool) (st : Fst) :
    roundedSteps f mode neg m e b st ≤ 2 ^ (f.mb + 1) ∧
      ((gridExp f m e + f.bias - 1).toNat = 0 ∨ 2 ^ f.mb ≤ roundedSteps f mode neg m e b st) := by
  obtain ⟨hlo, hhi⟩ := magOf_binade ha hm
  have hq : ∀ j : ℕ, (2 : ℝ) ^ (gridExp f m e - f.mb + j) = (2 ^ j : ℕ) * 2 ^ (gridExp f m e - f.mb) := fun j => by
    rw [zpow_add₀ two_ne_zero, mul_comm, zpow_natCast, Nat.cast_pow, Nat.cast_ofNat]
  have hupper : (cut m e b (gridExp f m e - f.mb)).lo < 2 ^ (f.mb + 1) := by
    rw [← Nat.cast_lt (α := ℝ)]
    refine lt_of_mul_lt_mul_right (h.lo_le.trans_lt (hhi.trans_le ?_)) h.grid_pos.le
    rw [← hq]
    refine (zpow_le_zpow_iff_right₀ one_lt_two).mpr ?_
    unfold gridExp
    push_cast
    omega
  have hlower : Nat.log2 m + e < f.emin ∨ 2 ^ f.mb ≤ (cut m e b (gridExp f m e - f.mb)).lo := by
    rcases lt_or_ge (Nat.log2 m + e) f.emin with hlt | hge
    · exact .inl hlt
    refine .inr (Nat.lt_succ_iff.mp ?_)
    rw [← Nat.cast_lt (α := ℝ)]
    refine lt_of_mul_lt_mul_right (LE.le.trans_lt (LE.le.trans ?_ hlo) (h.lt_hi.trans_eq (by push_cast; rfl))) h.grid_pos.le
    rw [← hq]
    refine (zpow_le_zpow_iff_right₀ one_lt_two).mpr ?_
    unfold gridExp
    omega
  have hsteps : roundedSteps f mode neg m e b st = _ ∨ roundedSteps f mode neg m e b st = _ := stepsOf_eq _ b neg mode _
  refine ⟨by omega, hlower.imp (fun hlt => ?_) (fun hge => by omega)⟩
  unfold gridExp Fmt.emin at *
  omega

section
variable {f : Fmt} {mb : ℕ} {emin : ℤ} {top : ℝ} {nan : ℕ}

/-- The code that RND delivers stands for the rounded magnitude. -/
theorem valueOf_roundedCode {m : ℕ} {e : ℤ} {b : Bool} {mode : Rm} {neg : Bool} {st : Fst}
    (hN : roundedSteps f mode neg m e b st ≤ 2 ^ (f.mb + 1) ∧
      ((gridExp f m e + f.bias - 1).toNat = 0 ∨ 2 ^ f.mb ≤ roundedSteps f mode neg m e b st)) :
    valueOf f (roundedCode f mode neg m e b st) = roundedSteps f mode neg m e b st * (2 : ℝ) ^ (gridExp f m e - f.mb) := by
  rw [roundedCode, valueOf_grid f hN.1 hN.2]
  congr 2
  unfold gridExp Fmt.emin
  omega

/-- R86 to R88 for a number that is not zero. -/
theorem IsRow.rnd_rounds (h : IsRow f mb emin top nan) {mode : Rm} (sat : Bool) {st : Fst} (hmode : mode ≠ .dyn) {neg : Bool} {m : ℕ}
    {e : ℤ} {b : Bool} {a r : ℝ} {k : ℤ} {n : ℕ} (ha : MagOf m e b a) (hm : m ≠ 0) (hk0 : (2 : ℝ) ^ k ≤ a) (hk1 : a < (2 : ℝ) ^ (k + 1)) :
    let q : ℝ := (2 : ℝ) ^ (max k emin - mb)
    n * q ≤ a → a < (n + 1) * q →
    (a = n * q → r = n * q) → (a ≠ n * q → (TakesHi mode neg a q n (drawn st.seed) → r = (n + 1) * q) ∧
      (¬ TakesHi mode neg a q n (drawn st.seed) → r = n * q)) →
    let out := rnd f mode sat (.fin neg m e b) st
    out.2.seed = (if mode = .rsr then stepped st.seed else st.seed) ∧
    (top < r → out.2.flags = st.flags ||| 0x14 ∧ Overflowed f top mode sat neg out.1) ∧
    (r ≤ top → CodeOf f neg r out.1 ∧ (r = a → out.2.flags = st.flags) ∧
      (r ≠ a → a < (2 : ℝ) ^ emin → out.2.flags = st.flags ||| 0x18) ∧
      (r ≠ a → (2 : ℝ) ^ emin ≤ a → out.2.flags = st.flags ||| 0x10)) := by
  have hk : k = Nat.log2 m + e := by
    obtain ⟨hlo, hhi⟩ := magOf_binade ha hm
    have h1 := (lt_two_zpow_iff hlo hhi _).mp hk1
    have h2 := (lt_two_zpow_iff hk0 hk1 _).mp hhi
    omega
  obtain rfl := h.mb
  obtain rfl := h.emin
  have hg : max k f.emin = gridExp f m e := by rw [hk, gridExp]
  rw [hg]
  intro q h0 h1 he hc
  obtain ⟨d, u, hp⟩ := cut_places ha (h.grid_wide ha)
  have hlo := hp.lo_unique h0 h1
  have hN := roundedSteps_bounds ha hm hp mode neg st
  have hr : r = valueOf f (roundedCode f mode neg m e b st) := by
    rw [valueOf_roundedCode hN]
    subst hlo
    exact hp.chosen neg hmode (draw_fst · st) (fun j => j * q) he
      (by simp only [Nat.cast_succ]; exact hc)
  have hzero : roundedSteps f mode neg m e b st = 0 → roundedCode f mode neg m e b st = 0 := fun hn => by
    have : 0 < 2 ^ f.mb := by positivity
    have hx : (gridExp f m e + f.bias - 1).toNat = 0 := by omega
    rw [roundedCode, hx, hn, zero_mul]
  have hexact : r = a ↔ (cut m e b (gridExp f m e - f.mb)).inexact = false := by
    rw [hr, valueOf_roundedCode hN]
    exact hp.steps_eq_iff neg mode _
  have htop : top < r ↔ f.maxCode < roundedCode f mode neg m e b st := by rw [hr, ← h.top, valueOf_lt_iff]
  have htiny : a < (2 : ℝ) ^ f.emin ↔ Nat.log2 m + e < f.emin := hk ▸ lt_two_zpow_iff hk0 hk1 f.emin
  intro out
  rcases lt_or_ge f.maxCode (roundedCode f mode neg m e b st) with hover | hfits
  · have hout : out = _ := rnd_overflow hm sat hzero hover
    rw [hout, draw_snd]
    exact ⟨rfl, fun _ => ⟨rfl, h.overflowed mode sat neg⟩, fun hle => absurd (htop.mpr hover) hle.not_gt⟩
  · have hout : out = _ := rnd_fits hm sat hzero hfits
    rw [hout, draw_snd, ← not_lt, ← not_lt, ne_eq, hexact, htiny, htop, hr]
    refine ⟨rfl, fun hover => absurd hover hfits.not_gt, fun _ => ⟨codeOf_signed h.eb_pos neg hfits, fun hi => ?exact,
      fun hi ht => ?tiny, fun hi ht => ?normal⟩⟩
    case exact => simp [roundedFlags, hi]
    case tiny => simp [roundedFlags, Bool.not_eq_false _ |>.mp hi, ht]
    case normal => simp [roundedFlags, Bool.not_eq_false _ |>.mp hi, ht]

end

/-- Settles O9: a magnitude is cut at its grid, the model's choice on the cut is Table 3-11's, and the code of the chosen number of grid
steps stands for the rounded magnitude; codes and magnitudes are in the same order, so the code tells the overflow. -/
theorem rounding : Obligations.Rounding := by
  refine ⟨fun f mb emin top nan mode sat st hrow hmode => ?_, fun lo hi qe mode st hlh hmode => ?_⟩
  · have h := isRow hrow
    exact ⟨fun neg m e b a r k n ha hm hk0 hk1 => h.rnd_rounds sat hmode ha hm hk0 hk1, h.rnd_zero mode sat st, h.rnd_nan mode sat st,
      h.rnd_inf mode sat st⟩
  · have hspecial := draw_raise st mode fNV
    exact ⟨fun neg m e a n j ha h0 h1 he hc => rndInt_rounds hmode hlh ha h0 h1 he hc, congrArg _ hspecial, congrArg _ hspecial,
      congrArg _ hspecial⟩

end Sys2Proof.Proofs.Rounding
end

section
/-!
PROOFS. What an ordinary scalar instruction leaves of the machine (spec/04, R95): an instruction
that writes a register, and a control transfer.
-/
namespace Sys2Proof.Proofs.Integer
open Sys2Proof.Machine Sys2Proof.Claims

/-! ## Frames -/

theorem onlyX_setX {s t : State} (h : ∀ r, t.getX r = s.getX r) (d : XReg) (w : Word) :
    OnlyX s (t.setX d w) d w := fun r => by
  rw [State.getX_setX, h r]

theorem getV_setX (s : State) (d : XReg) (w : Word) (r : VReg) :
    (s.setX d w).getV r = s.getV r := by simp [State.getV]

theorem getM_setX (s : State) (d : XReg) (w : Word) (r : MReg) :
    (s.setX d w).getM r = s.getM r := by simp [State.getM]

/-- A write to a scalar register changes the thread's own record and nothing else. -/
theorem setX_rest (s : State) (d : XReg) (w : Word) :
    s.setX d w = { s with threads := (s.setX d w).threads } := by
  unfold State.setX
  split <;> rfl

theorem retired_setX (s : State) (d : XReg) (w : Word) (n : Nat) :
    Retired s ((s.setX d w).retire n) (nextPc s n) where
  pc := by simp [nextPc]
  instret := by simp
  awake := by simp
  status := by simp
  trap := by simp
  csrs := by simp
  space := by simp
  cur := by simp
  sync := by simp
  others j hj := by rw [State.thr_retire_other _ _ (by simpa using hj), State.thr_setX_other _ _ _ hj]
  bytes k := by simp
  rest := by
    rw [setX_rest]
    rfl

/-- Writing rd at the end of an instruction is all that the instruction does. -/
theorem writesX_putX (s : State) (d : XReg) (w : Word) (n : Nat) : WritesX s (s.putX d w n) n d w :=
  ⟨_, State.putX_eq s d w n, retired_setX s d w n, fun r => by rw [State.getX_retire, State.getX_setX],
    fun r => by rw [State.getV_retire, getV_setX], fun r => by rw [State.getM_retire, getM_setX], by simp [SameF]⟩

theorem writesX_of_eq {s : State} {o : Out} {d : XReg} {w : Word} {n : Nat} (h : o = s.putX d w n) :
    WritesX s o n d w :=
  h ▸ writesX_putX s d w n

/-- The state that a control transfer leaves before its link is written. -/
theorem retired_jump (s : State) (d : XReg) (target w : Word) (n : Nat) :
    Retired s (((s.retire n).modMe fun t => { t with pc := target }).setX d w) target where
  pc := by simp
  instret := by simp
  awake := by simp
  status := by simp
  trap := by simp
  csrs := by simp
  space := by simp
  cur := by simp
  sync := by simp
  others j hj := by
    rw [State.thr_setX_other _ _ _ (by simpa using hj), State.thr_modMe_other _ _ (by simpa using hj), State.thr_retire_other _ _ hj]
  bytes k := by simp
  rest := by
    rw [setX_rest]
    rfl

theorem jumps_jump (s : State) (d : XReg) (target : Word) (n : Nat) :
    Jumps s (s.jump d target n) target d (nextPc s n) := by
  refine ⟨_, rfl, retired_jump s d target _ n, onlyX_setX (fun r => ?_) _ _, fun r => ?_, fun r => ?_, by simp [SameF]⟩
  · simp [State.getX]
  · rw [getV_setX]
    simp [State.getV]
  · rw [getM_setX]
    simp [State.getM]

end Sys2Proof.Proofs.Integer
end

section
/-!
PROOFS. Integer arithmetic (spec/04, R97 to R100): the model's words are the slices of the integers
that Tables 4-2 and 4-3 give (O1).
-/
namespace Sys2Proof.Proofs.Integer
open Sys2Proof.Machine Sys2Proof.Claims

/-! ## Slices of integers -/

theorem low_natCast (n : Nat) : low n = BitVec.ofNat 64 n := BitVec.ofInt_natCast 64 n

@[simp] theorem low_toInt (a : Word) : low a.toInt = a := BitVec.ofInt_toInt

@[simp] theorem low_toNat (a : Word) : low a.toNat = a := by simp [low]

theorem low_add (m n : Int) : low (m + n) = low m + low n := BitVec.ofInt_add m n

theorem low_sub (m n : Int) : low (m - n) = low m - low n := by
  simp only [low, sub_eq_add_neg, BitVec.ofInt_add, BitVec.ofInt_neg]

theorem low_mul (m n : Int) : low (m * n) = low m * low n := BitVec.ofInt_mul m n

theorem low_ite (p : Prop) [Decidable p] (m n : Int) :
    low (if p then m else n) = if p then low m else low n := apply_ite _ _ _ _

/-- A word's number and an integer that it is the slice of differ by a multiple of 2^64, so they
agree below bit `n`. -/
theorem toNat_low_bmod (m : Int) {n : Nat} (h : n ≤ 64) :
    ((low m).toNat : Int).bmod (2 ^ n) = m.bmod (2 ^ n) := by
  have hd : ((2 ^ n : Nat) : Int) ∣ (2 ^ 64 : Nat) := Int.natCast_dvd_natCast.mpr (Nat.pow_dvd_pow 2 h)
  have hm : ((low m).toNat : Int) = m % (2 ^ 64 : Nat) := by
    rw [low, BitVec.toNat_ofInt, Int.toNat_of_nonneg (Int.emod_nonneg _ (by decide))]
  rw [hm, ← Int.emod_bmod, Int.emod_emod_of_dvd _ hd, Int.emod_bmod]

theorem sext_eq_low (v : Word) (n : Nat) : sext v n = low ((v.toNat : Int).bmod (2 ^ n)) := by
  rw [sext, BitVec.signExtend, low]
  exact congrArg _ (BitVec.toInt_ofNat' ..)

theorem sext_low (m : Int) {n : Nat} (h : n ≤ 64) : sext (low m) n = low (m.bmod (2 ^ n)) := by
  rw [sext_eq_low, toNat_low_bmod m h]

theorem simm_eq_low {n : Nat} (i : BitVec n) : simm i = low i.toInt := rfl

theorem b2w_eq (b : Bool) : b2w b = if b = true then 1 else 0 := rfl

/-! ## Results of Table 4-2 -/

section
variable (a b : Word)

theorem add_eq_low : Alu.add a b = low (a.toNat + b.toNat) := by simp [low_add, Alu.add]

theorem add_eq_low_toInt : Alu.add a b = low (a.toInt + b.toInt) := by simp [low_add, Alu.add]

theorem sub_eq_low : Alu.sub a b = low (a.toInt - b.toInt) := by simp [low_sub, Alu.sub]

theorem sll_eq_low : Alu.sll a b = low (a.toNat * 2 ^ (b.toNat % 64)) := by
  have h : (a.toNat : Int) * 2 ^ (b.toNat % 64) = (a.toNat * 2 ^ (b.toNat % 64) : Nat) := by push_cast; rfl
  rw [h, low_natCast]
  exact BitVec.eq_of_toNat_eq (by simp [Alu.sll, Alu.sh, Nat.shiftLeft_eq])

theorem srl_eq_low : Alu.srl a b = low (a.toNat / 2 ^ (b.toNat % 64)) := by
  have h : (a.toNat : Int) / 2 ^ (b.toNat % 64) = (a.toNat / 2 ^ (b.toNat % 64) : Nat) := by push_cast; rfl
  rw [h, low_natCast]
  refine BitVec.eq_of_toNat_eq ?_
  have hlt : a.toNat / 2 ^ (b.toNat % 64) < 2 ^ 64 := (Nat.div_le_self _ _).trans_lt a.isLt
  rw [BitVec.toNat_ofNat, Nat.mod_eq_of_lt hlt]
  simp [Alu.srl, Alu.sh, Nat.shiftRight_eq_div_pow]

theorem sra_eq_low : Alu.sra a b = low (a.toInt / 2 ^ (b.toNat % 64)) := by
  rw [← low_toInt (Alu.sra a b), Alu.sra, BitVec.toInt_sshiftRight, Int.shiftRight_eq_div_pow, Alu.sh]
  push_cast
  rfl

theorem slt_eq : Alu.slt a b = if a.toInt < b.toInt then 1 else 0 := by
  simp [Alu.slt, b2w_eq, BitVec.slt]

theorem sltu_eq : Alu.sltu a b = if a.toNat < b.toNat then 1 else 0 := by
  simp [Alu.sltu, b2w_eq, BitVec.ult]

theorem min_eq_low : Alu.min a b = low (min a.toInt b.toInt) := by
  simp only [Alu.min, BitVec.slt_iff_toInt_lt, min_def_lt, low_ite, low_toInt]

theorem max_eq_low : Alu.max a b = low (max a.toInt b.toInt) := by
  simp only [Alu.max, BitVec.slt_iff_toInt_lt, max_def_lt, low_ite, low_toInt]

theorem minu_eq_low : Alu.minu a b = low (min a.toNat b.toNat) := by
  simp only [Alu.minu, BitVec.ult_iff_lt, BitVec.lt_def, min_def_lt, Nat.cast_lt, low_ite, low_toNat]

theorem maxu_eq_low : Alu.maxu a b = low (max a.toNat b.toNat) := by
  simp only [Alu.maxu, BitVec.ult_iff_lt, BitVec.lt_def, max_def_lt, Nat.cast_lt, low_ite, low_toNat]

theorem addw_eq_low32 : Alu.addw a b = low32 (a.toNat + b.toNat) := by
  rw [low32, ← sext_low _ (by decide), ← add_eq_low]
  rfl

theorem addw_eq_low32_toInt : Alu.addw a b = low32 (a.toInt + b.toInt) := by
  rw [low32, ← sext_low _ (by decide), ← add_eq_low_toInt]
  rfl

theorem subw_eq_low32 : Alu.subw a b = low32 (a.toInt - b.toInt) := by
  rw [low32, ← sext_low _ (by decide), ← sub_eq_low]
  rfl

end

/-! ## Bitwise results -/

/-- A word is the one whose bits are given. -/
theorem eq_ofFnLE {w : Word} {f : Fin 64 → Bool} (h : ∀ i : Fin 64, w.getLsbD i = f i) :
    w = BitVec.ofFnLE f :=
  BitVec.eq_of_getLsbD_eq fun i hi => by rw [BitVec.getLsbD_ofFnLE, dif_pos hi, ← h ⟨i, hi⟩]

section
variable (a b : Word)

theorem and_eq_bits : Alu.and a b = BitVec.ofFnLE fun i : Fin 64 => a.getLsbD i && b.getLsbD i :=
  eq_ofFnLE fun i => by simp [Alu.and]

theorem or_eq_bits : Alu.or a b = BitVec.ofFnLE fun i : Fin 64 => a.getLsbD i || b.getLsbD i :=
  eq_ofFnLE fun i => by simp [Alu.or]

theorem xor_eq_bits : Alu.xor a b = BitVec.ofFnLE fun i : Fin 64 => a.getLsbD i != b.getLsbD i :=
  eq_ofFnLE fun i => by simp [Alu.xor]

theorem andn_eq_bits : Alu.andn a b = BitVec.ofFnLE fun i : Fin 64 => a.getLsbD i && !b.getLsbD i :=
  eq_ofFnLE fun i => by simp [Alu.andn]

theorem orn_eq_bits : Alu.orn a b = BitVec.ofFnLE fun i : Fin 64 => a.getLsbD i || !b.getLsbD i :=
  eq_ofFnLE fun i => by simp [Alu.orn]

theorem xnor_eq_bits : Alu.xnor a b = BitVec.ofFnLE fun i : Fin 64 => a.getLsbD i == b.getLsbD i :=
  eq_ofFnLE fun i => by simp [Alu.xnor, bne]

/-- A bit of a rotated word comes from one of the two shifted ones, as it falls below or above the
shift. -/
theorem rol_eq_bits :
    Alu.rol a b = BitVec.ofFnLE fun i : Fin 64 => a.getLsbD ((i.val + 64 - b.toNat % 64) % 64) :=
  eq_ofFnLE fun i => by
    have hk : b.toNat % 64 < 64 := Nat.mod_lt _ (by decide)
    simp only [Alu.rol, Alu.sh, BitVec.getLsbD_or, BitVec.getLsbD_shiftLeft, BitVec.getLsbD_ushiftRight, i.isLt, decide_true, Bool.true_and]
    by_cases h : i.val < b.toNat % 64
    · rw [show (i.val + 64 - b.toNat % 64) % 64 = 64 - b.toNat % 64 + i.val by omega]
      simp [h]
    · rw [show (i.val + 64 - b.toNat % 64) % 64 = i.val - b.toNat % 64 by omega,
        BitVec.getLsbD_of_ge a (64 - b.toNat % 64 + i.val) (by omega)]
      simp [h]

theorem ror_eq_bits :
    Alu.ror a b = BitVec.ofFnLE fun i : Fin 64 => a.getLsbD ((i.val + b.toNat % 64) % 64) :=
  eq_ofFnLE fun i => by
    have hk : b.toNat % 64 < 64 := Nat.mod_lt _ (by decide)
    simp only [Alu.ror, Alu.sh, BitVec.getLsbD_or, BitVec.getLsbD_shiftLeft, BitVec.getLsbD_ushiftRight, i.isLt, decide_true, Bool.true_and]
    by_cases h : i.val < 64 - b.toNat % 64
    · rw [show (i.val + b.toNat % 64) % 64 = b.toNat % 64 + i.val by omega]
      simp [h]
    · rw [show (i.val + b.toNat % 64) % 64 = i.val - (64 - b.toNat % 64) by omega,
        BitVec.getLsbD_of_ge a (b.toNat % 64 + i.val) (by omega)]
      simp [h]

end

/-! ## The instructions -/

section
variable {g f : Word → Word → Word}

theorem aluReg_of {reg : XReg → XReg → XReg → Instr} {lit : XReg → XReg → Word → Instr}
    (h : ∀ a b, g a b = f a b)
    (hr : ∀ s d a b, exec (reg d a b) s = s.alu g d a (s.getX b) 4) (hl : ∀ s d a l, exec (lit d a l) s = s.alu g d a l 12) :
    AluReg reg lit f := fun s d a b l =>
  ⟨writesX_of_eq (by rw [hr, ← h]; rfl), writesX_of_eq (by rw [hl, ← h]; rfl)⟩

theorem aluImm_of {imm : XReg → XReg → BitVec 10 → Instr} {lit : XReg → XReg → Word → Instr}
    (h : ∀ a b, g a b = f a b)
    (hi : ∀ s d a i, exec (imm d a i) s = s.alu g d a (simm i) 4) (hl : ∀ s d a l, exec (lit d a l) s = s.alu g d a l 12) :
    AluImm imm lit f := fun s d a i l =>
  ⟨writesX_of_eq (by rw [hi, ← h]; rfl), writesX_of_eq (by rw [hl, ← h]; rfl)⟩

theorem alu2_of {reg : XReg → XReg → XReg → Instr} (h : ∀ a b, g a b = f a b)
    (hr : ∀ s d a b, exec (reg d a b) s = s.alu g d a (s.getX b) 4) : Alu2 reg f := fun s d a b =>
  writesX_of_eq (by rw [hr, ← h]; rfl)

end

/-- A shift amount in an instruction's field is below 64. -/
theorem shiftField_mod (n : BitVec 6) : (n.setWidth 64).toNat % 64 = n.toNat := by
  rw [BitVec.toNat_setWidth]
  omega

/-- Settles O1: every member is one shared form, and its result the one that the table gives. -/
theorem aluOperations : Obligations.AluOperations := by
  refine ⟨aluReg_of add_eq_low ?_ ?_, aluReg_of sub_eq_low ?_ ?_, aluReg_of sll_eq_low ?_ ?_, aluReg_of srl_eq_low ?_ ?_,
    aluReg_of sra_eq_low ?_ ?_, aluReg_of slt_eq ?_ ?_, aluReg_of sltu_eq ?_ ?_, aluReg_of min_eq_low ?_ ?_,
    aluReg_of max_eq_low ?_ ?_, aluReg_of minu_eq_low ?_ ?_, aluReg_of maxu_eq_low ?_ ?_, aluReg_of addw_eq_low32 ?_ ?_,
    aluReg_of subw_eq_low32 ?_ ?_, aluReg_of and_eq_bits ?_ ?_, aluReg_of or_eq_bits ?_ ?_, aluReg_of xor_eq_bits ?_ ?_,
    aluReg_of andn_eq_bits ?_ ?_, aluReg_of orn_eq_bits ?_ ?_, aluReg_of xnor_eq_bits ?_ ?_, aluReg_of rol_eq_bits ?_ ?_,
    aluReg_of ror_eq_bits ?_ ?_, aluImm_of add_eq_low_toInt ?_ ?_, aluImm_of and_eq_bits ?_ ?_, aluImm_of or_eq_bits ?_ ?_,
    aluImm_of xor_eq_bits ?_ ?_, aluImm_of slt_eq ?_ ?_, aluImm_of sltu_eq ?_ ?_, aluImm_of addw_eq_low32_toInt ?_ ?_,
    fun s d a n => ⟨writesX_of_eq ?sll, writesX_of_eq ?srl, writesX_of_eq ?sra⟩⟩
  case sll => rw [← shiftField_mod n, ← sll_eq_low]; rfl
  case srl => rw [← shiftField_mod n, ← srl_eq_low]; rfl
  case sra => rw [← shiftField_mod n, ← sra_eq_low]; rfl
  all_goals exact fun _ _ _ _ => rfl

end Sys2Proof.Proofs.Integer
end

section
/-!
PROOFS. Multiplication, division and bit manipulation (spec/04, R104 to R107; O2, O3).
-/
namespace Sys2Proof.Proofs.Integer
open Sys2Proof.Machine Sys2Proof.Claims

/-! ## Products and quotients (R104, R105) -/

theorem low_neg_one : low (-1) = BitVec.allOnes 64 := by decide

section
variable (a b : Word)

theorem mul_eq_low : Alu.mul a b = low (a.toInt * b.toInt) := by simp [low_mul, Alu.mul]

/-- The one signed quotient that does not fit, 2^63, is sliced to -2^63. -/
theorem div_eq_low : Alu.div a b =
    if b = 0 then low (-1) else if a.toInt = -2 ^ 63 ∧ b.toInt = -1 then low (-2 ^ 63)
    else low (a.toInt.tdiv b.toInt) := by
  unfold Alu.div
  split
  · exact low_neg_one.symm
  · split
    next h =>
      obtain ⟨ha, hb⟩ := h
      rw [ha, hb]
      decide
    next => rfl

/-- Where the quotient does not fit, the remainder is 0. -/
theorem rem_eq_low : Alu.rem a b = if b = 0 then a else if a.toInt = -2 ^ 63 ∧ b.toInt = -1 then 0
    else low (a.toInt - a.toInt.tdiv b.toInt * b.toInt) := by
  unfold Alu.rem
  split
  · rfl
  · split
    next h =>
      obtain ⟨ha, hb⟩ := h
      rw [ha, hb]
      decide
    next => rw [Int.tmod_def, Int.mul_comm]; rfl

theorem divu_eq_low : Alu.divu a b = if b = 0 then low (-1) else low (a.toNat / b.toNat) := by
  rw [Alu.divu, low_neg_one, ← Int.natCast_div, low_natCast]

theorem remu_eq_low :
    Alu.remu a b = if b = 0 then a else low (a.toNat - a.toNat / b.toNat * b.toNat) := by
  have h : (a.toNat : Int) - a.toNat / b.toNat * b.toNat = (a.toNat % b.toNat : Nat) := by
    rw [Int.natCast_mod, Int.emod_def, Int.mul_comm]
  rw [Alu.remu, h, low_natCast]

end

/-- Settles O2: the results of R104 and R105, of one shared form. -/
theorem multiplyDivide : Obligations.MultiplyDivide := by
  refine ⟨alu2_of mul_eq_low ?_, alu2_of (g := Alu.mulh) (fun _ _ => rfl) ?_, alu2_of (g := Alu.mulhu) (fun _ _ => rfl) ?_,
    alu2_of (g := Alu.mulhmx) (fun _ _ => rfl) ?_, alu2_of div_eq_low ?_, alu2_of rem_eq_low ?_, alu2_of divu_eq_low ?_,
    alu2_of remu_eq_low ?_⟩
  all_goals exact fun _ _ _ _ => rfl

end Sys2Proof.Proofs.Integer
end

section
/-!
PROOFS. The members of BIT (spec/04, R106, R107; O3): counts, reversals, extensions, packing and
placing.
-/
namespace Sys2Proof.Proofs.Integer
open Sys2Proof.Machine Sys2Proof.Claims Sys2Proof.Proofs.Encoding

/-! ## Counts -/

theorem b2n_eq_toNat (b : Bool) : b2n b = b.toNat := by cases b <;> rfl

theorem toNat_ofNat_of_le {n : Nat} (h : n ≤ 64) : (BitVec.ofNat 64 n).toNat = n := by
  rw [BitVec.toNat_ofNat]
  omega

/-- The low `n` bits lie in the binade that their leading zeros tell. -/
theorem lead_spec (a : Word) (n : Nat) :
    Alu.lead a n ≤ n ∧ a.toNat % 2 ^ n < 2 ^ (n - Alu.lead a n) ∧
    (Alu.lead a n < n → 2 ^ (n - 1 - Alu.lead a n) ≤ a.toNat % 2 ^ n) := by
  induction n with
  | zero => simp [Alu.lead, Nat.mod_one]
  | succ n ih =>
    obtain ⟨hle, hlt, hge⟩ := ih
    have hmod : a.toNat % 2 ^ (n + 1) = a.toNat % 2 ^ n + 2 ^ n * (a.toNat / 2 ^ n % 2) := Nat.mod_pow_succ
    have hbit : a.getLsbD n = decide (a.toNat / 2 ^ n % 2 = 1) := Nat.testBit_eq_decide_div_mod_eq
    unfold Alu.lead
    split
    next h =>
      have hone : a.toNat / 2 ^ n % 2 = 1 := by simpa [hbit] using h
      have := Nat.mod_lt a.toNat (Nat.two_pow_pos n)
      rw [hmod, hone, Nat.add_sub_cancel, Nat.sub_zero, Nat.sub_zero, Nat.pow_succ]
      omega
    next h =>
      have hzero : a.toNat / 2 ^ n % 2 = 0 := by
        have : ¬ a.toNat / 2 ^ n % 2 = 1 := by simpa [hbit] using h
        omega
      rw [hmod, hzero, Nat.mul_zero, Nat.add_zero, Nat.add_sub_add_right]
      exact ⟨by omega, hlt, fun hl => (show n + 1 - 1 - (Alu.lead a n + 1) = n - 1 - Alu.lead a n by omega) ▸ hge (by omega)⟩

theorem clz_spec (a : Word) : (a = 0 ∧ Alu.clz a = 64) ∨
    (2 ^ (63 - (Alu.clz a).toNat) ≤ a.toNat ∧ a.toNat < 2 ^ (64 - (Alu.clz a).toNat) ∧ (Alu.clz a).toNat < 64) := by
  obtain ⟨hle, hlt, hge⟩ := lead_spec a 64
  rw [Nat.mod_eq_of_lt a.isLt] at hlt hge
  have hw : (Alu.clz a).toNat = Alu.lead a 64 := toNat_ofNat_of_le hle
  rw [hw]
  rcases Nat.lt_or_eq_of_le hle with h | h
  · exact .inr ⟨hge h, hlt, h⟩
  · refine .inl ⟨BitVec.eq_of_toNat_eq ?_, BitVec.eq_of_toNat_eq (hw.trans h)⟩
    rw [h] at hlt
    simpa using hlt

/-- Below the trailing zeros there is no 1 bit, behind them one. -/
theorem trail_spec (a : Word) (i n : Nat) :
    Alu.trail a i n ≤ n ∧ (∀ j, j < Alu.trail a i n → a.getLsbD (i + j) = false) ∧
    (Alu.trail a i n < n → a.getLsbD (i + Alu.trail a i n) = true) := by
  induction n generalizing i with
  | zero => simp [Alu.trail]
  | succ n ih =>
    obtain ⟨hle, hzero, hone⟩ := ih (i + 1)
    unfold Alu.trail
    split
    next h => exact ⟨Nat.zero_le _, fun j hj => absurd hj (Nat.not_lt_zero j), fun _ => h⟩
    next h =>
      refine ⟨by omega, fun j hj => ?_, fun hl => ?_⟩
      · cases j with
        | zero => simpa using h
        | succ j => rw [show i + (j + 1) = i + 1 + j by omega]; exact hzero j (by omega)
      · rw [show i + (Alu.trail a (i + 1) n + 1) = i + 1 + Alu.trail a (i + 1) n by omega]
        exact hone (by omega)

theorem ctz_spec (a : Word) : (a = 0 ∧ Alu.ctz a = 64) ∨
    (a.getLsbD (Alu.ctz a).toNat = true ∧ ∀ i, i < (Alu.ctz a).toNat → a.getLsbD i = false) := by
  obtain ⟨hle, hzero, hone⟩ := trail_spec a 0 64
  simp only [Nat.zero_add] at hzero hone
  have hw : (Alu.ctz a).toNat = Alu.trail a 0 64 := toNat_ofNat_of_le hle
  rw [hw]
  rcases Nat.lt_or_eq_of_le hle with h | h
  · exact .inr ⟨hone h, hzero⟩
  · exact .inl ⟨BitVec.eq_of_getLsbD_eq fun i hi => (hzero i (by omega)).trans BitVec.getLsbD_zero.symm,
      BitVec.eq_of_toNat_eq (hw.trans h)⟩

@[simp] theorem onesBelow_zero (b : Word) : onesBelow b 0 = 0 := rfl

theorem onesBelow_succ (b : Word) (i : Nat) :
    onesBelow b (i + 1) = onesBelow b i + (b.getLsbD i).toNat := by
  unfold onesBelow
  rw [List.range_succ, List.filter_append, List.length_append]
  cases h : b.getLsbD i <;> simp [h]

theorem onesBelow_mono (b : Word) {i j : Nat} (h : i ≤ j) : onesBelow b i ≤ onesBelow b j :=
  monotone_nat_of_le_succ (fun n => by rw [onesBelow_succ]; omega) h

theorem onesBelow_le (b : Word) (i : Nat) : onesBelow b i ≤ i :=
  (List.length_filter_le ..).trans_eq List.length_range

theorem ones_eq_onesBelow (a : Word) (n : Nat) : Alu.ones a n = onesBelow a n := by
  induction n with
  | zero => rfl
  | succ n ih =>
    rw [Alu.ones, onesBelow_succ, ih, Nat.add_comm, b2n_eq_toNat]

theorem popc_spec (a : Word) : (Alu.popc a).toNat = onesBelow a 64 := by
  rw [Alu.popc, ones_eq_onesBelow, toNat_ofNat_of_le (onesBelow_le a 64)]

/-! ## Reversals -/

theorem brev_spec (a : Word) (i : Nat) (hi : i < 64) :
    (Alu.brev a).getLsbD i = a.getLsbD (63 - i) := by
  rw [Alu.brev, BitVec.getLsbD_reverse, BitVec.getMsbD]
  simp [hi]

/-- Bit `i` of byte `k` of a number put together from bytes. -/
theorem testBit_ofBytes (l : List Byte) (k : Nat) {i : Nat} (hi : i < 8) :
    (ofBytes l).testBit (8 * k + i) = (l.getD k 0).getLsbD i := by
  induction l generalizing k with
  | nil => simp [ofBytes]
  | cons b l ih =>
    have hb : b.toNat < 2 ^ 8 := b.isLt
    rw [ofBytes, Nat.add_comm, show 256 = 2 ^ 8 by rfl, Nat.testBit_two_pow_mul_add _ hb]
    cases k with
    | zero => simp [hi, BitVec.getLsbD]
    | succ k =>
      rw [if_neg (by omega), show 8 * (k + 1) + i - 8 = 8 * k + i by omega, ih]
      rfl

/-- Byte `k` of a number. -/
theorem bytesOf_getD {n k : Nat} (hk : k < n) (v : Nat) :
    (bytesOf n v).getD k 0 = BitVec.ofNat 8 (v / 256 ^ k) := by
  induction n generalizing k v with
  | zero => omega
  | succ n ih =>
    cases k with
    | zero => simp [bytesOf]
    | succ k =>
      rw [bytesOf, List.getD_cons_succ, ih (by omega), Nat.div_div_eq_div_mul, pow_succ']

theorem bswap_spec (a : Word) (i k : Nat) (hi : i < 8) (hk : k < 8) :
    (Alu.bswap a).getLsbD (8 * k + i) = a.getLsbD (8 * (7 - k) + i) := by
  have hrev : (bytesOf 8 a.toNat).reverse.getD k 0 = BitVec.ofNat 8 (a.toNat / 2 ^ (8 * (7 - k))) := by
    rw [List.getD_eq_getElem?_getD, List.getElem?_reverse (by simp; omega), ← List.getD_eq_getElem?_getD, bytesOf_length,
      show 8 - 1 - k = 7 - k by omega, bytesOf_getD (by omega), pow_mul]
    rfl
  rw [Alu.bswap, BitVec.getLsbD_ofNat, testBit_ofBytes _ _ hi, hrev, BitVec.getLsbD_ofNat, Nat.testBit_div_two_pow, Nat.add_comm i]
  simp [show 8 * k + i < 64 by omega, hi, BitVec.getLsbD]

/-! ## Extensions -/

theorem sextb_spec (a : Word) : Alu.sextb a = low (a.toInt.bmod (2 ^ 8)) := by
  rw [← sext_low _ (by decide), low_toInt]
  rfl

theorem sexth_spec (a : Word) : Alu.sexth a = low (a.toInt.bmod (2 ^ 16)) := by
  rw [← sext_low _ (by decide), low_toInt]
  rfl

theorem toNat_zext (v : Word) {n : Nat} (h : n ≤ 64) : (zext v n).toNat = v.toNat % 2 ^ n := by
  rw [zext, BitVec.toNat_setWidth_of_le h, BitVec.toNat_ofNat]

/-! ## Packing and placing -/

theorem b2n_add_two_mul (x : Bool) (n : Nat) : b2n x + 2 * n = Nat.bit x n := by
  rw [Nat.bit_val, Nat.add_comm, b2n_eq_toNat]

/-- The packed bits take as many places as the mask has 1 bits. -/
theorem pack_lt (a b : Word) {i n c : Nat} (hc : onesBelow b (i + n) = onesBelow b i + c) :
    Alu.pack a b i n < 2 ^ c := by
  induction n generalizing i c with
  | zero => simp [Alu.pack]
  | succ n ih =>
    have hs := onesBelow_succ b i
    have hm := onesBelow_mono b (show i + 1 ≤ i + (n + 1) by omega)
    rw [show i + (n + 1) = i + 1 + n by omega] at hc hm
    unfold Alu.pack
    split
    next hb =>
      rw [hb, Bool.toNat_true] at hs
      obtain ⟨c, rfl⟩ : ∃ c', c = c' + 1 := ⟨c - 1, by omega⟩
      have := ih (i := i + 1) (c := c) (by omega)
      have : b2n (a.getLsbD i) < 2 := b2n_lt _
      rw [Nat.pow_succ]
      omega
    next hb =>
      rw [Bool.eq_false_of_not_eq_true hb, Bool.toNat_false] at hs
      exact ih (by omega)

/-- The bit at a 1 position of the mask stands where the 1 positions below it count to. -/
theorem testBit_pack (a b : Word) {i n k c : Nat} (hik : i ≤ k) (hk : k < i + n)
    (hb : b.getLsbD k = true)
    (hc : onesBelow b k = onesBelow b i + c) : (Alu.pack a b i n).testBit c = a.getLsbD k := by
  induction n generalizing i c with
  | zero => omega
  | succ n ih =>
    have hs := onesBelow_succ b i
    unfold Alu.pack
    rcases Nat.eq_or_lt_of_le hik with rfl | hlt
    · obtain rfl : c = 0 := by omega
      rw [if_pos hb, b2n_add_two_mul, Nat.testBit_bit_zero]
    · have hm := onesBelow_mono b (show i + 1 ≤ k from hlt)
      split
      next hi =>
        rw [hi, Bool.toNat_true] at hs
        obtain ⟨c, rfl⟩ : ∃ c', c = c' + 1 := ⟨c - 1, by omega⟩
        rw [b2n_add_two_mul, Nat.testBit_bit_succ]
        exact ih hlt (by omega) (by omega)
      next hi =>
        rw [Bool.eq_false_of_not_eq_true hi, Bool.toNat_false] at hs
        exact ih hlt (by omega) (by omega)

theorem packed_bext (a b : Word) : Packed a b (Alu.bext a b) := by
  refine ⟨fun i hi hb => ?_, fun j hj => ?_⟩
  · have hlt : onesBelow b i < 64 := (onesBelow_le b i).trans_lt hi
    rw [Alu.bext, BitVec.getLsbD_ofNat, testBit_pack a b (Nat.zero_le i) (by omega) hb (by simp)]
    simp [hlt]
  · have hlt : Alu.pack a b 0 64 < 2 ^ j := (pack_lt a b (by simp)).trans_le (Nat.pow_le_pow_right (by decide) hj)
    rw [Alu.bext, BitVec.getLsbD_ofNat, Nat.testBit_lt_two_pow hlt, Bool.and_false]

/-- Nothing is placed below the first position looked at. -/
theorem two_pow_dvd_spread (a b : Word) (i j n : Nat) : 2 ^ i ∣ Alu.spread a b i j n := by
  induction n generalizing i j with
  | zero => simp [Alu.spread]
  | succ n ih =>
    have hle : 2 ^ i ∣ 2 ^ (i + 1) := Nat.pow_dvd_pow 2 (Nat.le_succ i)
    unfold Alu.spread
    split
    · exact Nat.dvd_add (Nat.dvd_mul_left ..) (hle.trans (ih ..))
    · exact hle.trans (ih ..)

/-- A bit placed at `i` and more bits placed behind it. -/
theorem testBit_placed (x : Bool) (i q k : Nat) :
    (b2n x * 2 ^ i + 2 ^ (i + 1) * q).testBit k = if k < i then false else if k = i then x else q.testBit (k - (i + 1)) := by
  have hx : b2n x * 2 ^ i < 2 ^ (i + 1) := by
    rw [Nat.pow_succ, Nat.mul_comm]
    exact Nat.mul_lt_mul_of_pos_left (b2n_lt x) (Nat.two_pow_pos i)
  rw [Nat.add_comm, Nat.testBit_two_pow_mul_add _ hx, Nat.testBit_mul_two_pow]
  rcases Nat.lt_trichotomy k i with h | rfl | h
  · simp [h, Nat.not_le_of_lt h, Nat.lt_succ_of_lt h]
  · cases x <;> simp [b2n]
  · simp [Nat.not_lt_of_le (Nat.succ_le_of_lt h), Nat.not_lt_of_lt h, Nat.ne_of_gt h]

/-- The bit placed at a 1 position is the one that the 1 positions below it count to; a 0 position
holds 0. -/
theorem testBit_spread (a b : Word) {i j n k c : Nat} (hik : i ≤ k) (hk : k < i + n)
    (hc : onesBelow b k = onesBelow b i + c) :
    (Alu.spread a b i j n).testBit k = (b.getLsbD k && a.getLsbD (j + c)) := by
  induction n generalizing i j c with
  | zero => omega
  | succ n ih =>
    have hs := onesBelow_succ b i
    obtain ⟨q, hq⟩ := two_pow_dvd_spread a b (i + 1) (j + 1) n
    obtain ⟨q', hq'⟩ := two_pow_dvd_spread a b (i + 1) j n
    unfold Alu.spread
    rcases Nat.eq_or_lt_of_le hik with rfl | hlt
    · obtain rfl : c = 0 := by omega
      split
      next hi => rw [hq, testBit_placed]; simp [hi]
      next hi => rw [hq', Nat.testBit_two_pow_mul]; simp [hi]
    · have hm := onesBelow_mono b (show i + 1 ≤ k from hlt)
      split
      next hi =>
        rw [hi, Bool.toNat_true] at hs
        obtain ⟨c, rfl⟩ : ∃ c', c = c' + 1 := ⟨c - 1, by omega⟩
        have h := ih (i := i + 1) (j := j + 1) (c := c) hlt (by omega) (by omega)
        rw [hq, Nat.testBit_two_pow_mul] at h
        rw [hq, testBit_placed, if_neg (by omega), if_neg (by omega), show j + (c + 1) = j + 1 + c by omega, ← h]
        simp [Nat.succ_le_of_lt hlt]
      next hi =>
        rw [Bool.eq_false_of_not_eq_true hi, Bool.toNat_false] at hs
        exact ih hlt (by omega) (by omega)

theorem placed_bdep (a b : Word) : Placed a b (Alu.bdep a b) := fun i hi => by
  rw [Alu.bdep, BitVec.getLsbD_ofNat, testBit_spread a b (c := onesBelow b i) (Nat.zero_le i) (by omega) (by simp)]
  simp [hi]

/-! ## The instructions -/

theorem alu1_of {reg : XReg → XReg → Instr} {g : Word → Word} {p : Word → Word → Prop}
    (h : ∀ a, p a (g a))
    (hr : ∀ s d a, exec (reg d a) s = s.alu1 g d a) : Alu1 reg p := fun s d a =>
  ⟨_, h _, writesX_of_eq (hr s d a)⟩

theorem bitMask_of {reg : XReg → XReg → XReg → Instr} {lit : XReg → XReg → Word → Instr}
    {g : Word → Word → Word}
    {p : Word → Word → Word → Prop} (h : ∀ a b, p a b (g a b)) (hr : ∀ s d a b, exec (reg d a b) s = s.alu g d a (s.getX b) 4)
    (hl : ∀ s d a l, exec (lit d a l) s = s.alu g d a l 12) : BitMask reg lit p := fun s d a b l =>
  ⟨⟨_, h _ _, writesX_of_eq (hr s d a b)⟩, _, h _ _, writesX_of_eq (hl s d a l)⟩

/-- Settles O3: each result is the word that Table 4-7 describes. -/
theorem bitManipulation : Obligations.BitManipulation := by
  refine ⟨alu1_of clz_spec ?_, alu1_of ctz_spec ?_, alu1_of popc_spec ?_, alu1_of brev_spec ?_, alu1_of bswap_spec ?_,
    alu1_of sextb_spec ?_, alu1_of sexth_spec ?_, alu1_of (g := Alu.zexth) (fun a => toNat_zext a (by decide)) ?_,
    alu1_of (g := Alu.zextw) (fun a => toNat_zext a (by decide)) ?_,
    bitMask_of packed_bext (fun _ _ _ _ => rfl) fun _ _ _ _ => rfl, bitMask_of placed_bdep (fun _ _ _ _ => rfl) fun _ _ _ _ => rfl⟩
  all_goals exact fun _ _ _ => rfl

end Sys2Proof.Proofs.Integer
end

section
/-!
PROOFS. Select, literals, the constant window, branches and jumps (spec/04, R101, R102, R108 to
R116; O4, O5, O6).
-/
namespace Sys2Proof.Proofs.Integer
open Sys2Proof.Machine Sys2Proof.Claims Sys2Proof.Proofs.Encoding

/-! ## SEL (R110, R111) -/

theorem decSel_literal {w : Nat} (hl : w % 4 = 1) (hf : fFn w = 0) (x1 : Nat) :
    decSel w x1 = .illegal 4 := by
  simp [decSel, chk_of_false, hl, hf]

/-- A check with EVAL 0 of what is refused with EVAL 0 makes no difference. -/
theorem chk_illegal (bad : Bool) (e : Nat) : chk bad e (.illegal e) = .illegal e := ite_self _

theorem decSel_unassigned {w : Nat} (hl : w % 4 ≤ 1) (hf : 3 ≤ fFn w) (x1 : Nat) :
    decSel w x1 = .illegal 0 := by
  obtain ⟨f, hf⟩ : ∃ f, fFn w = f + 3 := ⟨fFn w - 3, by omega⟩
  rw [decSel, chk_of_false (by simpa using hl), hf]
  split
  · exact chk_illegal _ 0
  · rfl

theorem exec_sel (s : State) (d a b : XReg) :
    exec (.sel d a b) s = s.putX d (if s.getX d ≠ 0 then s.getX a else s.getX b) 4 := rfl

theorem ne_zero_of_bit {w : Word} {k : Nat} (h : w.getLsbD k = true) : w ≠ 0 := by
  rintro rfl
  simp at h

/-- An x0 that is written to is as it was. -/
theorem sameX_of_onlyX_zero {s t : State} {w : Word} (h : OnlyX s t 0 w) : SameX s t := fun r => by
  rw [h r]
  split
  next hr => rw [hr, State.getX_zero]
  next => rfl

/-- Settles O4: what the group's decoder refuses, and the two cases of the condition. -/
theorem selectRule : Obligations.SelectRule := by
  refine ⟨fun w x1 x2 hm => ⟨fun ⟨hl, hf⟩ => ?_, fun ⟨hl, hf⟩ => ?_⟩, fun s e n lit => rfl, fun s d a b =>
    ⟨fun ⟨k, _, hk⟩ => ?_, fun hz => ?_, ?_⟩⟩
  · rw [Laws.RoundTrip.decode_7 hm, decSel_literal hl hf]
  · rw [Laws.RoundTrip.decode_7 hm, decSel_unassigned hl hf]
  · exact writesX_of_eq (by rw [exec_sel, if_pos (ne_zero_of_bit hk)])
  · have h0 : s.getX d = 0 := BitVec.eq_of_getLsbD_eq fun i hi => (hz i hi).trans BitVec.getLsbD_zero.symm
    exact writesX_of_eq (by rw [exec_sel, if_neg (not_not_intro h0)])
  · obtain ⟨t, ht, hr, hx, -, -, -⟩ := writesX_of_eq (exec_sel s 0 a b)
    exact ⟨t, ht, hr, sameX_of_onlyX_zero hx⟩

/-! ## Literals and comparisons (R108, R110) -/

theorem pc47_eq_low (s : State) : s.pc47 = low (s.me.pc.toNat % 2 ^ 47) := by
  have h : ((s.me.pc.toNat : Int) % 2 ^ 47) = (s.me.pc.toNat % 2 ^ 47 : Nat) := by push_cast; rfl
  have hz := toNat_zext s.me.pc (show 47 ≤ 64 by decide)
  rw [h, low_natCast, ← hz, BitVec.ofNat_toNat, BitVec.setWidth_eq]
  rfl

theorem pc47_add (s : State) (n : Int) :
    s.pc47 + low n = low (s.me.pc.toNat % 2 ^ 47 + n) := by rw [low_add, pc47_eq_low]

theorem seq_eq (a b : Word) : Alu.seq a b = if a = b then 1 else 0 := by simp [Alu.seq, b2w_eq]

theorem sne_eq (a b : Word) : Alu.sne a b = if a = b then 0 else 1 := by simp [Alu.sne, b2w_eq]

/-! ## The constant window (R101) -/

theorem num_eq_sum (m : Memory) (k n : Nat) :
    m.num k n = ((List.range n).map fun j => (m.get (k + j)).toNat * 256 ^ j).sum := by
  unfold Memory.num
  induction n generalizing k with
  | zero => rfl
  | succ n ih =>
    rw [Memory.getBytes, ofBytes, ih, List.range_succ_eq_map, List.map_cons, List.map_map, List.sum_cons, ← List.sum_map_mul_left]
    simp only [Function.comp_def, Nat.add_zero, pow_zero, Nat.mul_one, Nat.succ_eq_add_one, pow_succ', Nat.add_right_comm k 1,
      ← Nat.add_assoc, Nat.mul_left_comm 256]

theorem winKey_add (c o j : Nat) : winKey c o + j = winKey c (o + j) := by
  simp only [winKey, keyOf]
  omega

/-- Entry `k` of the constant window where its word is not known bad. The definition is unfolded at
its name alone: applied, it would have the kernel work out the words at the window's key, in unary.
-/
theorem kon_ok {s : State} {k : BitVec 8}
    (h : badIn s.bad (winKey s.myCore (8 * k.toNat)) 8 = none) :
    s.kon k = .ok (BitVec.ofNat 64 (s.mem.num (winKey s.myCore (8 * k.toNat)) 8)) := by
  conv => lhs; fun; fun; delta State.kon
  dsimp only
  rw [h]

/-- An entry is eight bytes of the core's own LM, lowest first. -/
theorem low_window (s : State) (k : BitVec 8) :
    low ((List.range 8).map fun j => (s.mem.get (winKey (s.cur / 8) (8 * k.toNat + j))).toNat * 256 ^ j).sum =
      BitVec.ofNat 64 (s.mem.num (winKey s.myCore (8 * k.toNat)) 8) := by
  rw [low_natCast, num_eq_sum, show s.cur / 8 = s.myCore from rfl]
  simp only [winKey_add]

theorem exec_ldk (s : State) (d : XReg) (k : BitVec 8) {c : Word} (h : s.kon k = .ok c) :
    exec (.ldk d k) s = s.putX d c 4 := by
  change execLdk d k s = _
  conv => lhs; fun; fun; fun; delta execLdk
  rw [h]

theorem exec_addk (s : State) (d a : XReg) (k : BitVec 8) {c : Word} (h : s.kon k = .ok c) :
    exec (.addk d a k) s = s.putX d (s.getX a + c) 4 := by
  change execAddk d a k s = _
  conv => lhs; fun; fun; fun; fun; delta execAddk
  rw [h]

/-- Settles O5: what each instruction writes, the constant being the eight bytes of its entry. -/
theorem literalsConstants : Obligations.LiteralsConstants := by
  refine ⟨fun s d a b i l => ⟨writesX_of_eq rfl, writesX_of_eq rfl, writesX_of_eq ?pcadd, writesX_of_eq ?pcaddLit, writesX_of_eq ?seq,
    writesX_of_eq ?sne, writesX_of_eq ?seqLit, writesX_of_eq ?sneLit⟩, fun s d a k h => ?window⟩
  case pcadd => rw [← pc47_add]; rfl
  case pcaddLit => rw [← pc47_add, low_toInt]; rfl
  case seq => rw [← seq_eq]; rfl
  case sne => rw [← sne_eq]; rfl
  case seqLit => rw [← seq_eq]; rfl
  case sneLit => rw [← sne_eq]; rfl
  case window =>
    intro c
    have hk : s.kon k = .ok (low c) := (kon_ok h).trans (congrArg _ (low_window s k).symm)
    refine ⟨writesX_of_eq (exec_ldk s d k hk), writesX_of_eq ?_⟩
    rw [exec_addk s d a k hk, low_add, low_toNat]

/-! ## Branches and jumps (R112 to R116) -/

/-- A jump that writes no link. -/
theorem jumps_noLink (s : State) (target : Word) (n : Nat) :
    Jumps s (s.jump 0 target n) target 0 0 := by
  obtain ⟨t, ht, hr, hx, hrest⟩ := jumps_jump s 0 target n
  refine ⟨t, ht, hr, fun r => ?_, hrest⟩
  rw [hx r]
  split <;> rfl

theorem jumps_branch_taken (s : State) (off : Int) (n : Nat) :
    Jumps s (s.branch true (low off) n) (low (s.me.pc.toNat % 2 ^ 47 + off)) 0 0 := by
  rw [← pc47_add]
  exact jumps_noLink s _ n

theorem jumps_branch_untaken (s : State) (off : Word) (n : Nat) :
    Jumps s (s.branch false off n) (nextPc s n) 0 0 :=
  writesX_putX s 0 0 n

theorem simm_mul_four {n : Nat} (i : BitVec n) : simm i * 4 = low (4 * i.toInt) := by
  rw [low_mul, mul_comm, simm_eq_low]
  rfl

theorem branchBoth_of {short : XReg → XReg → BitVec 11 → Instr}
    {ext : XReg → XReg → BitVec 47 → Instr} {c : Word → Word → Prop}
    {t : Word → Word → Bool} (h : ∀ a b, t a b = true ↔ c a b)
    (hs : ∀ s a b i, exec (short a b i) s = s.branch (t (s.getX a) (s.getX b)) (simm i * 4) 4)
    (he : ∀ s a b e, exec (ext a b e) s = s.branch (t (s.getX a) (s.getX b)) (simm e) 12) : BranchBoth short ext c := fun s a b i e => by
  rw [hs, he, simm_mul_four, simm_eq_low]
  refine ⟨fun hc => ?_, fun hc => ?_⟩
  · rw [(h _ _).mpr hc]
    exact ⟨jumps_branch_taken s _ 4, jumps_branch_taken s _ 12⟩
  · rw [Bool.eq_false_of_not_eq_true fun ht => hc ((h _ _).mp ht)]
    exact ⟨jumps_branch_untaken s _ 4, jumps_branch_untaken s _ 12⟩

/-- Settles O6: each condition decides between the two ways of `State.branch`, and a jump is one. -/
theorem branchesJumps : Obligations.BranchesJumps := by
  refine ⟨branchBoth_of (t := (· == ·)) (by simp) ?_ ?_, branchBoth_of (t := (· != ·)) (by simp) ?_ ?_,
    branchBoth_of (t := BitVec.slt) (fun _ _ => BitVec.slt_iff_toInt_lt) ?_ ?_,
    branchBoth_of (t := fun a b => !a.slt b) (by simp [BitVec.slt]) ?_ ?_,
    branchBoth_of (t := BitVec.ult) (by simp [BitVec.ult]) ?_ ?_,
    branchBoth_of (t := fun a b => !a.ult b) (by simp [BitVec.ult]) ?_ ?_, fun s d a i e j => ?jumps⟩
  case jumps =>
    intro base
    rw [← pc47_add, ← pc47_add, ← simm_mul_four, ← simm_eq_low, low_add, low_toInt, ← simm_eq_low]
    exact ⟨jumps_jump s d _ 4, jumps_jump s d _ 12, jumps_jump s d _ 4⟩
  all_goals exact fun _ _ _ _ => rfl

end Sys2Proof.Proofs.Integer
end

section
/-!
PROOFS. What CSRs read, and what a write leaves in them (spec/04, R117 to R123; spec/06, R160;
spec/21, R461 to R463).
-/
namespace Sys2Proof.Proofs.Integer
open Sys2Proof.Machine Sys2Proof.Claims Sys2Proof.Proofs.Encoding

/-! ## Numbers -/

/-- A CSR that an instruction may write. -/
def WritableCsr (n : Nat) : Prop := csrExists n = true ∧ csrReadOnly n = false

theorem writableCsr_iff {n : Nat} :
    WritableCsr n ↔ n = 0x000 ∨ n = 0x001 ∨ n = 0x003 ∨ (0x040 ≤ n ∧ n < 0x060) ∨ n = 0x070 ∨
    n = 0x071 ∨
    (0x100 ≤ n ∧ n ≤ 0x128) ∨ n = 0x130 ∨ (0x800 ≤ n ∧ n < 0x806) ∨ (0x810 ≤ n ∧ n ≤ 0x812) ∨ n = 0x820 ∨ (0x840 ≤ n ∧ n ≤ 0x846) ∨
    n = 0x850 := by
  simp only [WritableCsr, csrExists, csrReadOnly, Bool.or_eq_true, Bool.or_eq_false_iff, Bool.and_eq_true, Bool.and_eq_false_imp, beq_iff_eq,
    beq_eq_false_iff_ne, bne_iff_ne, decide_eq_true_eq, decide_eq_false_iff_not]
  omega

theorem csrMatrix_iff {n : Nat} : csrMatrix n = true ↔ 0x100 ≤ n ∧ n ≤ 0x128 := by
  rw [csrMatrix, Bool.and_eq_true, decide_eq_true_eq, decide_eq_true_eq]

theorem csrMatrix_eq_false {n : Nat} (h : n < 0x100 ∨ 0x128 < n) : csrMatrix n = false :=
  Bool.eq_false_of_not_eq_true fun hm => by
    have := csrMatrix_iff.mp hm
    omega

/-! ## What a writable CSR reads -/

/-- The CSRs that an instruction may write are of three kinds: the matrix unit's, the thread's own,
the supervisor's. -/
theorem csrRead_writable (s : State) {n : Nat} (h : WritableCsr n) :
    s.csrRead n = BitVec.ofNat 64 (if csrMatrix n then mxRead (s.core s.myCore).mx n
      else if n < 0x800 then s.me.csr.read n else s.readSuper s.me n) := by
  have := writableCsr_iff.mp h
  unfold State.csrRead
  simp (disch := omega) only [if_neg]

theorem mxRead_lt (m : Matrix) (n : Nat) : mxRead m n < 2 ^ 64 := by
  unfold mxRead
  split_ifs <;> omega

theorem read_lt (c : Csrs) (n : Nat) : c.read n < 2 ^ 64 := by
  have := b2n_lt c.threshFmt
  unfold Csrs.read strikethWord wakeclassWord
  split_ifs <;> omega

theorem toNat_csrRead_matrix (s : State) {n : Nat} (h : csrMatrix n = true) :
    (s.csrRead n).toNat = mxRead (s.core s.myCore).mx n := by
  have hm := csrMatrix_iff.mp h
  rw [csrRead_writable s (writableCsr_iff.mpr (by omega)), if_pos h, BitVec.toNat_ofNat, Nat.mod_eq_of_lt (mxRead_lt _ n)]

theorem toNat_csrRead_own (s : State) {n : Nat} (h : n < 0x800) (hw : WritableCsr n)
    (hm : csrMatrix n = false) :
    (s.csrRead n).toNat = s.me.csr.read n := by
  rw [csrRead_writable s hw, if_neg (Bool.eq_false_iff.mp hm), if_pos h, BitVec.toNat_ofNat, Nat.mod_eq_of_lt (read_lt _ n)]

theorem csrRead_super (s : State) {n : Nat} (h : 0x800 ≤ n) :
    s.csrRead n = BitVec.ofNat 64 (s.readSuper s.me n) := by
  unfold State.csrRead
  simp (disch := omega) only [if_neg, csrMatrix_eq_false, Bool.false_eq_true, if_false]

/-! ## Tables of the writable CSRs -/

/-- The thread's own CSRs whose write depends on nothing but what it reads. -/
def OwnCsr (n : Nat) : Prop := n = 0x000 ∨ n = 0x001 ∨ n = 0x003 ∨ (0x050 ≤ n ∧ n < 0x060) ∨
    n = 0x070 ∨ n = 0x130

/-- Such CSRs of supervisor mode. -/
def SuperCsr (n : Nat) : Prop :=
  n = 0x800 ∨ n = 0x801 ∨ n = 0x802 ∨ n = 0x803 ∨ n = 0x804 ∨ n = 0x805 ∨ n = 0x810 ∨ n = 0x811 ∨ n = 0x812 ∨ n = 0x840 ∨
    (0x841 ≤ n ∧ n < 0x846)

theorem csrAfter_isSome {n o v : Nat} (h : (csrAfter n o v).isSome = true) :
    csrMatrix n = true ∨ OwnCsr n ∨ SuperCsr n := by
  by_contra hn
  simp only [csrMatrix_iff, OwnCsr, SuperCsr, not_or] at hn
  have hm : csrMask n = none := by
    unfold csrMask
    simp (disch := omega) only [if_neg]
  unfold csrAfter at h
  simp (disch := omega) only [hm, if_neg] at h
  exact absurd h (by decide)

theorem vget_vset {α : Type} {k : Nat} [NeZero k] (v : Vector α k) (i : Nat) (a : α) :
    (vset v i a).get (Fin.ofNat k i) = a :=
  vecGet_set_same v (Fin.ofNat k i) a

/-! ## Bits that a mask keeps -/

theorem and_low (v k : Nat) : v &&& (2 ^ k - 1) = v % 2 ^ k := Nat.and_two_pow_sub_one_eq_mod v k

/-- A mask's low bits and the bits above act apart. -/
theorem and_split {i b d : Nat} (a c : Nat) (hb : b < 2 ^ i) (hd : d < 2 ^ i) :
    (2 ^ i * a + b) &&& (2 ^ i * c + d) = 2 ^ i * (a &&& c) + (b &&& d) := by
  refine Nat.eq_of_testBit_eq fun j => ?_
  rw [Nat.testBit_and, Nat.testBit_two_pow_mul_add _ hb, Nat.testBit_two_pow_mul_add _ hd,
    Nat.testBit_two_pow_mul_add _ ((Nat.and_le_left).trans_lt hb)]
  split <;> simp

/-- The writable bits of ETVEC: EN and BASE. -/
theorem and_etvec (v : Nat) : v &&& (2 ^ 47 - 3) = v % 2 + 4 * (v / 4 % 2 ^ 45) := by
  have h := and_split (i := 2) (b := v % 4) (d := 1) (v / 4) (2 ^ 45 - 1) (Nat.mod_lt _ (by decide)) (by decide)
  rw [show 2 ^ 2 * (v / 4) + v % 4 = v from Nat.div_add_mod v 4, and_low, show v % 4 &&& 1 = v % 4 % 2 from and_low _ 1] at h
  rw [show 2 ^ 47 - 3 = 2 ^ 2 * (2 ^ 45 - 1) + 1 by decide, h]
  omega

/-- The writable bits of MXSTAT lie in its six. -/
theorem and_mxstat (v : Nat) : v % 2 ^ 6 &&& 0x3D = v &&& 0x3D := by
  rw [← and_low, Nat.and_assoc]
  rfl

/-! ## What a write leaves -/

/-- CSRs of the matrix unit (Tables 6-2 to 6-5). -/
theorem mxRead_mxWrite (m : Matrix) {n : Nat} (h : csrMatrix n = true) (o v : Nat) :
    some (mxRead (mxWrite m n v) n) = csrAfter n o v := by
  have hm := csrMatrix_iff.mp h
  unfold mxRead mxWrite csrAfter csrMask
  rcases Nat.lt_or_ge n 0x110 with h1 | h1
  · simp (disch := omega) only [if_pos, if_neg, vget_vset, BitVec.toNat_ofNat, and_low]
  rcases Nat.lt_or_ge n 0x120 with h2 | h2
  · simp (disch := omega) only [if_pos, if_neg, vget_vset, BitVec.toNat_ofNat, and_low]
  rcases Nat.lt_or_ge n 0x128 with h3 | h3
  · simp (disch := omega) only [if_pos, if_neg, vget_vset, BitVec.toNat_ofNat]
    rw [show 7 = 2 ^ 3 - 1 by rfl, and_low]
  · simp (disch := omega) only [if_pos, if_neg, BitVec.toNat_and, BitVec.toNat_ofNat]
    exact congrArg some (and_mxstat v)

/-- The thread's own CSRs (Tables 4-10, 4-12, 14-5, 22-11). -/
theorem read_write_own (c : Csrs) {n v : Nat} (h : OwnCsr n) (hv : v < 2 ^ 64) :
    some ((c.write n v).read n) = csrAfter n (c.read n) v := by
  rcases h with rfl | rfl | rfl | ⟨h1, h2⟩ | rfl | rfl
  · refine congrArg some ?_
    exact (BitVec.toNat_ofNat v 5).trans (and_low v 5).symm
  · show some (Csrs.read (if v % 8 < 6 then { c with frm := BitVec.ofNat 3 v } else c) 1) = some (if v % 8 < 6 then v % 8 else c.frm.toNat)
    split
    · exact congrArg some (BitVec.toNat_ofNat v 3)
    · rfl
  · show some (if v = 0 then Config.srSeedReset else BitVec.ofNat 64 v).toNat = some (if v = 0 then 0x9E3779B97F4A7C15 else v)
    split
    · rfl
    · rw [BitVec.toNat_ofNat, Nat.mod_eq_of_lt hv]
  · unfold Csrs.write Csrs.read csrAfter csrMask
    simp (disch := omega) only [if_pos, if_neg, vget_vset, BitVec.toNat_ofNat]
    split
    · rfl
    · congr 1
      omega
  · show some ((BitVec.ofNat 32 v).toNat + b2n (bit v 32) * 2 ^ 32) = some (v % 2 ^ 33)
    rw [b2n_bit, BitVec.toNat_ofNat]
    congr 1
    omega
  · show some (if v % 2 ^ 40 = 0 then 10000000#40 else BitVec.ofNat 40 v).toNat = some (if v % 2 ^ 40 = 0 then 10000000 else v % 2 ^ 40)
    split
    · rfl
    · rw [BitVec.toNat_ofNat]

theorem b2n_bit_zero (v : Nat) : b2n (bit v 0) = v % 2 := by rw [b2n_bit, pow_zero, Nat.div_one]

/-- ESTATUS takes TRAPPED, and PPRIV where the new value of it is not reserved. -/
theorem estatusWord_write (t : TrapRegs) (v : Nat) :
    estatusWord { t with trapped := bit v 0, ppriv := if bit v 3 then t.ppriv else bit v 2 } =
      v % 2 + (if v / 8 % 2 = 0 then v / 4 % 2 else estatusWord t / 4 % 2) * 4 + estatusWord t / 16 % 16 * 16 := by
  have h0 := b2n_lt t.trapped
  have h1 := b2n_lt t.ppriv
  have h2 := b2n_lt t.waitAbandon
  have hp : b2n (if bit v 3 then t.ppriv else bit v 2) = if v / 8 % 2 = 0 then v / 4 % 2 else b2n t.ppriv := by
    have h3 : b2n (bit v 3) = v / 8 % 2 := b2n_bit v 3
    have h4 : b2n (bit v 2) = v / 4 % 2 := b2n_bit v 2
    rw [← h3, ← h4]
    cases bit v 3 <;> rfl
  show b2n (bit v 0) + 4 * b2n (if bit v 3 then t.ppriv else bit v 2) + 16 * b2n t.waitAbandon + 32 * t.pwaitKind.toNat = _
  rw [hp, b2n_bit_zero]
  unfold estatusWord
  split <;> omega

/-- Supervisor CSRs (Tables 15-10, 19-3, 19-5, 21-3). -/
theorem readSuper_writeSuper (s : State) (t : Thread) {n v : Nat} (h : SuperCsr n)
    (hv : v < 2 ^ 64) :
    some (s.readSuper (t.writeSuper n v) n) = csrAfter n (s.readSuper t n) v := by
  rcases h with rfl | rfl | rfl | rfl | rfl | rfl | rfl | rfl | rfl | rfl | ⟨h1, h2⟩
  · exact congrArg some (estatusWord_write t.trap v)
  · exact congrArg some ((BitVec.toNat_ofNat v 47).trans (and_low v 47).symm)
  · show some ((BitVec.ofNat 8 v).toNat + 256 * b2n (bit v 8)) = some (v &&& (2 ^ 9 - 1))
    rw [b2n_bit, BitVec.toNat_ofNat, and_low]
    congr 1
    omega
  · exact congrArg some ((BitVec.toNat_ofNat v 64).trans (and_low v 64).symm)
  · show some (b2n (bit v 0) + 4 * (BitVec.ofNat 45 (v / 4)).toNat) = some (v &&& (2 ^ 47 - 3))
    rw [b2n_bit_zero, BitVec.toNat_ofNat, and_etvec]
  · exact congrArg some ((BitVec.toNat_ofNat v 64).trans (and_low v 64).symm)
  · show some ((BitVec.ofNat 3 v).toNat + 8 * b2n (bit v 3) + (BitVec.ofNat 33 (v / 2 ^ 14)).toNat * 2 ^ 14) =
      some (v % 16 + v / 2 ^ 14 % 2 ^ 33 * 2 ^ 14)
    rw [b2n_bit, BitVec.toNat_ofNat, BitVec.toNat_ofNat]
    congr 1
    omega
  · exact congrArg some ((BitVec.toNat_ofNat v 20).trans (and_low v 20).symm)
  · exact congrArg some ((BitVec.toNat_ofNat v 32).trans (and_low v 32).symm)
  · show some ((BitVec.ofNat 12 v).toNat + 2 ^ 12 * (BitVec.ofNat 3 (v / 2 ^ 12)).toNat) = some (v % 2 ^ 15)
    rw [BitVec.toNat_ofNat, BitVec.toNat_ofNat]
    congr 1
    omega
  · unfold State.readSuper Thread.writeSuper csrAfter csrMask
    simp (disch := omega) only [if_pos, if_neg, vget_vset, BitVec.toNat_ofNat, Nat.mod_eq_of_lt hv]

end Sys2Proof.Proofs.Integer
end

section
/-!
PROOFS. CSR instructions (spec/04, R117; O31): what is refused is O32's; what passes reads the old
value and takes the new one.
-/
namespace Sys2Proof.Proofs.Integer
open Sys2Proof.Machine Sys2Proof.Claims Sys2Proof.Proofs.Encoding

/-! ## The checks pass -/

theorem csrFault_read {s : State} {n : Nat} (h : csrExists n = true) (hp : CsrReads s n) :
    s.csrFault n false = none := by
  unfold State.csrFault
  by_cases hn : 0x800 ≤ n
  · simp [h, hp hn]
  · simp [h, hn]

theorem csrFault_write {s : State} {n : Nat} (hw : WritableCsr n) (hp : CsrWrites s n) :
    s.csrFault n true = none := by
  have hn := writableCsr_iff.mp hw
  obtain ⟨hread, hserv⟩ := hp
  have hpriv : (decide (0x800 ≤ n) && !s.me.status.priv) = false := by
    by_cases hn : 0x800 ≤ n
    · simp [hread hn]
    · simp [hn]
  have hon (ho : n = 0x800 ∨ (0x810 ≤ n ∧ n ≤ 0x820) ∨ 0x840 ≤ n) : s.onService = true := hserv ho
  have h1 : (!s.onService && csrServiceOnly n) = false := by
    by_cases ho : n = 0x800 ∨ (0x810 ≤ n ∧ n ≤ 0x820) ∨ 0x840 ≤ n
    · rw [hon ho, Bool.not_true, Bool.false_and]
    · have hs : csrServiceOnly n = false := by
        simp only [csrServiceOnly, Bool.or_eq_false_iff, Bool.and_eq_false_imp, beq_eq_false_iff_ne, decide_eq_true_eq, decide_eq_false_iff_not]
        omega
      rw [hs, Bool.and_false]
  have h2 : (!s.onService && n == 0x846) = false := by
    by_cases hb : n = 0x846
    · rw [hon (by omega), Bool.not_true, Bool.false_and]
    · rw [beq_false_of_ne hb, Bool.and_false]
  simp [State.csrFault, hw.1, hw.2, hpriv, h1, h2]

theorem afterDrain_empty {s : State} (hq : QueueEmpty s) (wait : Bool) (k : State → Out) :
    s.afterDrain wait k = k s := by
  have h : (s.core s.myCore).mx.queue = [] := hq
  unfold State.afterDrain
  simp [h]

/-- An instruction that only reads. -/
theorem csrOp_read {s : State} {n : Nat} (hf : s.csrFault n false = none) (hq : QueueEmpty s)
    (d : XReg) (f : Word → Word) :
    s.csrOp d n false f = s.putX d (s.csrRead n) 4 := by
  unfold State.csrOp
  rw [hf]
  simp only [Bool.false_and, Bool.false_eq_true, if_false]
  exact afterDrain_empty hq _ _

/-- An instruction that writes. -/
theorem csrOp_write {s : State} {n : Nat} (hf : s.csrFault n true = none) (hb : s.csrBusy n = false)
    (hq : QueueEmpty s) (d : XReg)
    (f : Word → Word) : s.csrOp d n true f = (s.csrWrite n (f (s.csrRead n))).putX d (s.csrRead n) 4 := by
  unfold State.csrOp
  rw [hf]
  simp only [hb, Bool.and_false, Bool.false_eq_true, if_false]
  exact afterDrain_empty hq _ _

/-! ## What a write leaves alone -/

/-- A thread's PC and registers are another's. -/
def SameRegs (t r : Thread) : Prop := r.pc = t.pc ∧ r.x = t.x ∧ r.v = t.v ∧ r.m = t.m

/-- A write of a CSR leaves the thread's PC and registers, and every other thread. -/
structure Spared (s u : State) : Prop where
  cur : u.cur = s.cur
  regs : SameRegs s.me u.me
  others : ∀ j, j ≠ s.cur → u.thr j = s.thr j

theorem spared_of_threads {s u : State} (hc : u.cur = s.cur) (ht : u.threads = s.threads) :
    Spared s u := by
  have hthr (j : Nat) : u.thr j = s.thr j := by simp only [State.thr, ht]
  have hme : u.me = s.me := by rw [State.me, hc, hthr, State.me]
  exact ⟨hc, hme ▸ ⟨rfl, rfl, rfl, rfl⟩, fun j _ => hthr j⟩

theorem spared_modMe {s : State} {f : Thread → Thread} (h : SameRegs s.me (f s.me)) :
    Spared s (s.modMe f) :=
  ⟨rfl, by rwa [State.me_modMe], fun _ hj => State.thr_modMe_other s f hj⟩

/-- What the obligation asks of a write: rd takes the old value, and `p` holds of the next state. -/
def Wrote (s : State) (d : XReg) (old : Word) (p : State → Prop) (o : Out) : Prop :=
  Gives o fun t => OnlyX s t d old ∧ SameV s t ∧ SameM s t ∧ t.me.pc = nextPc s 4 ∧ (∀ j, j ≠ s.cur → t.thr j = s.thr j) ∧ p t

theorem wrote_putX {s u : State} (h : Spared s u) {d : XReg} {old : Word} {p : State → Prop}
    (hp : p ((u.setX d old).retire 4)) :
    Wrote s d old p (u.putX d old 4) := by
  obtain ⟨hcur, ⟨hpc, hx, hv, hm⟩, hothers⟩ := h
  have hr := retired_setX u d old 4
  refine ⟨_, State.putX_eq u d old 4, fun r => ?_, fun r => ?_, fun r => ?_, ?_, fun j hj => ?_, hp⟩
  · rw [State.getX_retire, State.getX_setX, State.getX, State.getX, hx]
  · rw [State.getV_retire, getV_setX, State.getV, State.getV, hv]
  · rw [State.getM_retire, getM_setX, State.getM, State.getM, hm]
  · rw [hr.pc, nextPc, nextPc, hpc]
  · rw [hr.others j (hcur ▸ hj), hothers j hj]

/-- CSRW, CSRS and CSRC of a register write what each of them makes of the old value. -/
theorem writes_all {s : State} {d a : XReg} {n : BitVec 12} {p : Word → State → Prop}
    (hw : WritableCsr n.toNat)
    (hp : CsrWrites s n.toNat) (hb : s.csrBusy n.toNat = false) (hq : QueueEmpty s)
    (h : ∀ w, Wrote s d (s.csrRead n.toNat) (p w) ((s.csrWrite n.toNat w).putX d (s.csrRead n.toNat) 4)) :
    Wrote s d (s.csrRead n.toNat) (p (s.getX a)) (exec (.csrw d n a) s) ∧
      (a ≠ 0 → Wrote s d (s.csrRead n.toNat) (p (s.csrRead n.toNat ||| s.getX a)) (exec (.csrs d n a) s) ∧
        Wrote s d (s.csrRead n.toNat) (p (s.csrRead n.toNat &&& ~~~s.getX a)) (exec (.csrc d n a) s)) := by
  have hf := csrFault_write hw hp
  rw [exec_csrw, csrOp_write hf hb hq]
  refine ⟨h _, fun ha => ?_⟩
  rw [exec_csrs, exec_csrc, decide_eq_true ha, csrOp_write hf hb hq, csrOp_write hf hb hq]
  exact ⟨h _, h _⟩

/-! ## The CSR after the instruction -/

/-- EVCNT, EVSEL and the other own CSRs. -/
theorem read_ranges (c : Csrs) (n : Nat) :
    (0x040 ≤ n → n < 0x050 → c.read n = (c.evcnt.get (Fin.ofNat 16 n)).toNat) ∧
    (0x050 ≤ n → n < 0x060 → c.read n = (c.evsel.get (Fin.ofNat 16 n)).toNat) := by
  unfold Csrs.read
  refine ⟨fun h1 h2 => ?_, fun h1 h2 => ?_⟩
  · simp (disch := omega) only [if_neg, if_pos]
  · simp (disch := omega) only [if_neg, if_pos]

/-- Retirement counts events and the instruction; the other CSRs read on. -/
theorem read_retire (t : Thread) (k : Nat) {n : Nat} (h : OwnCsr n) :
    (t.retire k).csr.read n = t.csr.read n := by
  rcases h with rfl | rfl | rfl | ⟨h1, h2⟩ | rfl | rfl
  all_goals
    unfold Csrs.read strikethWord
    simp (disch := omega) only [if_neg, if_pos, if_true, Thread.retire_fflags, Thread.retire_frm, Thread.retire_srseed, Thread.retire_evsel,
      Thread.retire_thresh, Thread.retire_threshFmt, Thread.retire_vwaitlim]

/-- Supervisor CSRs are in a thread's trap, address-space and slot-table registers. -/
theorem readSuper_congr {s u : State} {t r : Thread} (ht : t.trap = r.trap) (hs : t.space = r.space)
    (hb : t.bind = r.bind) {n : Nat}
    (h : SuperCsr n) : s.readSuper t n = u.readSuper r n := by
  rcases h with rfl | rfl | rfl | rfl | rfl | rfl | rfl | rfl | rfl | rfl | ⟨h1, h2⟩
  all_goals
    unfold State.readSuper
    simp (disch := omega) only [if_neg, if_pos, ht, hs, hb]

theorem readSuper_lt (s : State) (t : Thread) {n : Nat} (h : SuperCsr n) :
    s.readSuper t n < 2 ^ 64 := by
  have h1 := b2n_lt t.trap.trapped
  have h2 := b2n_lt t.trap.ppriv
  have h3 := b2n_lt t.trap.waitAbandon
  have h4 := b2n_lt t.trap.deferred
  have h5 := b2n_lt t.trap.etvecEn
  have h6 := b2n_lt t.space.mode
  rcases h with rfl | rfl | rfl | rfl | rfl | rfl | rfl | rfl | rfl | rfl | ⟨h1, h2⟩
  all_goals
    unfold State.readSuper
    simp (disch := omega) only [if_neg, if_pos, if_true, estatusWord, ecauseWord, etvecWord, transrootWord]
    omega

end Sys2Proof.Proofs.Integer
end

section
/-!
PROOFS. Reading and writing CSRs (O31): the clauses of a write, and the read-only CSRs.
-/
namespace Sys2Proof.Proofs.Integer
open Sys2Proof.Machine Sys2Proof.Claims Sys2Proof.Proofs.Encoding

/-! ## CSRs that take what their table lets in -/

/-- What a CSR reads after a write of `w`, and that no part of the machine but the thread's and its
core's registers changed. -/
def TakesTable (s : State) (n : Nat) (old w : Word) (t : State) : Prop :=
  some (t.csrRead n).toNat = csrAfter n old.toNat w.toNat ∧ t = { s with threads := t.threads, cores := t.cores }

section
variable (s : State) (d : XReg) (old w : Word) {n : Nat}

theorem after_rest (u : State) :
    (u.setX d old).retire 4 = { u with threads := ((u.setX d old).retire 4).threads } :=
  (retired_setX u d old 4).rest

theorem after_core (u : State) (c : Nat) :
    ((u.setX d old).retire 4).core c = u.core c := by simp [State.core]

theorem after_myCore (u : State) :
    ((u.setX d old).retire 4).myCore = u.myCore := by simp [State.myCore]

/-- A write to the thread's own record leaves everything but the threads. -/
theorem modMe_after_rest (f : Thread → Thread) :
    ((s.modMe f).setX d old).retire 4 = { s with threads := (((s.modMe f).setX d old).retire 4).threads } :=
  (after_rest d old (s.modMe f)).trans rfl

theorem csrWrite_matrix (h : csrMatrix n = true) :
    s.csrWrite n w = s.modMx s.myCore fun m => mxWrite m n w.toNat := by
  unfold State.csrWrite
  rw [if_pos h]

theorem csrWrite_own (h : n < 0x800) (hm : csrMatrix n = false) (hw : n ≠ 0x071) :
    s.csrWrite n w = s.modMe fun t => { t with csr := t.csr.write n w.toNat } := by
  unfold State.csrWrite
  rw [if_neg (Bool.eq_false_iff.mp hm), if_neg hw, if_pos h]

theorem csrWrite_super (h : SuperCsr n) :
    s.csrWrite n w = s.modMe fun t => t.writeSuper n w.toNat := by
  have hn : 0x800 ≤ n ∧ n ≠ 0x820 ∧ n < 0x846 := by
    unfold SuperCsr at h
    omega
  unfold State.csrWrite
  rw [if_neg (Bool.eq_false_iff.mp (csrMatrix_eq_false (by omega)))]
  simp (disch := omega) only [if_neg]

theorem wrote_matrix (h : csrMatrix n = true) :
    Wrote s d (s.csrRead n) (TakesTable s n (s.csrRead n) w) ((s.csrWrite n w).putX d (s.csrRead n) 4) := by
  rw [csrWrite_matrix s w h]
  refine wrote_putX (spared_of_threads rfl rfl) ⟨?_, ?_⟩
  · rw [toNat_csrRead_matrix _ h, after_core, after_myCore]
    show some (mxRead ((s.modCore s.myCore _).core s.myCore).mx n) = _
    rw [State.core_modCore, mxRead_mxWrite _ h]
  · refine (after_rest _ _ _).trans ?_
    simp only [State.retire_cores, State.setX_cores]
    rfl

theorem own_kind (h : OwnCsr n) : n < 0x800 ∧ WritableCsr n ∧ csrMatrix n = false ∧ n ≠ 0x071 := by
  unfold OwnCsr at h
  exact ⟨by omega, writableCsr_iff.mpr (by omega), csrMatrix_eq_false (by omega), by omega⟩

theorem wrote_own (h : OwnCsr n) :
    Wrote s d (s.csrRead n) (TakesTable s n (s.csrRead n) w) ((s.csrWrite n w).putX d (s.csrRead n) 4) := by
  obtain ⟨hn, hr, hm, hw⟩ := own_kind h
  rw [csrWrite_own s w hn hm hw]
  refine wrote_putX (spared_modMe ⟨rfl, rfl, rfl, rfl⟩) ⟨?_, ?_⟩
  · rw [toNat_csrRead_own _ hn hr hm, toNat_csrRead_own s hn hr hm, State.me_retire, read_retire _ _ h, State.me_setX_csr, State.me_modMe,
      read_write_own _ h w.isLt]
  · refine (after_rest _ _ _).trans ?_
    simp only [State.retire_cores, State.setX_cores]
    rfl

theorem toNat_csrRead_super (h : SuperCsr n) : (s.csrRead n).toNat = s.readSuper s.me n := by
  have hn : 0x800 ≤ n := by
    unfold SuperCsr at h
    omega
  rw [csrRead_super s hn, BitVec.toNat_ofNat, Nat.mod_eq_of_lt (readSuper_lt s _ h)]

theorem sameRegs_ite {t a b : Thread} {p : Prop} [Decidable p] (ha : SameRegs t a)
    (hb : SameRegs t b) :
    SameRegs t (if p then a else b) := by
  split
  · exact ha
  · exact hb

theorem sameRegs_writeSuper (t : Thread) (n v : Nat) : SameRegs t (t.writeSuper n v) := by
  unfold Thread.writeSuper
  repeat' apply sameRegs_ite
  all_goals exact ⟨rfl, rfl, rfl, rfl⟩

theorem wrote_super (h : SuperCsr n) :
    Wrote s d (s.csrRead n) (TakesTable s n (s.csrRead n) w) ((s.csrWrite n w).putX d (s.csrRead n) 4) := by
  rw [csrWrite_super s w h]
  refine wrote_putX (spared_modMe (sameRegs_writeSuper s.me n w.toNat)) ⟨?_, ?_⟩
  · rw [toNat_csrRead_super _ h, toNat_csrRead_super s h, ← readSuper_writeSuper s s.me h w.isLt, State.me_retire]
    refine congrArg some (readSuper_congr ?_ ?_ ?_ h) <;> simp
  · refine (after_rest _ _ _).trans ?_
    simp only [State.retire_cores, State.setX_cores]
    rfl

end

end Sys2Proof.Proofs.Integer
end

section
/-!
PROOFS. CSRs whose write does more than fill a register (spec/10, R243; spec/15, R375; spec/22,
R493; Tables 14-6, 16-2), and the read-only CSRs (Tables 4-11, 4-12, 16-14, 21-4); O31.
-/
namespace Sys2Proof.Proofs.Integer
open Sys2Proof.Machine Sys2Proof.Claims Sys2Proof.Proofs.Encoding

/-! ## Runs that change nothing -/

theorem over_self {α : Type} {s : State} {l : List α} {f : State → α → State} (h : ∀ a, f s a = s) :
    s.over l f = s := by
  unfold State.over
  induction l with
  | nil => rfl
  | cons a l ih => rw [List.foldl_cons, h a, ih]

/-- A quadrant in Q-ON is not raised. -/
theorem raiseQuads_on {s : State} (h : ∀ q, q < 4 → (s.quad q).st = .on) : s.raiseQuads = s :=
  over_self fun q => by
    have hq : (s.quad q).st = .on := by
      have : s.quad q = s.quad (q % 4) := by simp [State.quad, Fin.ofNat]
      rw [this]
      exact h _ (Nat.mod_lt _ (by decide))
    simp [hq, QuadState.level]

/-- With no thread waiting for room, freed room wakes none. -/
theorem settleStores_calm {s : State} (h : NoRoomWait s) : s.settleStores = s :=
  over_self fun j => by
    cases hw : (s.thr j).wait with
    | none => rfl
    | some w => simp [h j w hw]

/-- A count is 0 where nothing adds to it. -/
theorem foldl_eq_zero {α : Type} {f : Nat → α → Nat} {p : α → Prop}
    (h : ∀ n a, f n a = 0 ↔ n = 0 ∧ p a) (l : List α) (n : Nat) :
    l.foldl f n = 0 ↔ n = 0 ∧ ∀ a ∈ l, p a := by
  induction l generalizing n with
  | nil => simp
  | cons a l ih => rw [List.foldl_cons, ih, h, List.forall_mem_cons, and_assoc]

theorem spilledEntries_eq_zero (s : State) : spilledEntries s.regions = 0 ↔ NothingSpilled s := by
  have hb (b : Bool) : b2n b = 0 ↔ b = false := by cases b <;> decide
  have hg := foldl_eq_zero (f := fun n (g : Nat × GranList) => n + g.2.spilled) fun _ _ => Nat.add_eq_zero_iff
  refine (foldl_eq_zero (p := fun p : Nat × Region => p.2.spilled = false ∧ ∀ g ∈ p.2.grans, g.2.spilled = 0) (fun n p => ?_) s.regions 0).trans
    ⟨fun h => h.2, fun h => ⟨rfl, h⟩⟩
  rw [hg, Nat.add_eq_zero_iff, hb, and_assoc]

section
variable (s : State) (d : XReg) (old w : Word) {n : Nat}

/-! ## Event counters (R493) -/

/-- A counter that does not select retired instructions is as it was. -/
theorem counted_other (t : Thread) {i : Fin 16} (h : (t.csr.evsel.get i).toNat % 256 ≠ 2) :
    (t.counted 2 1).get i = t.csr.evcnt.get i := by
  have hc : t.counts 2 i = false := by simp [Thread.counts, h]
  rw [Thread.counted, Vector.get_ofFn, hc]
  rfl

theorem wrote_evcnt (h1 : 0x040 ≤ n) (h2 : n < 0x050)
    (he : (s.me.csr.evsel.get (Fin.ofNat 16 n)).toNat % 256 ≠ 2) :
    Wrote s d (s.csrRead n) (fun t => (t.csrRead n).toNat = w.toNat % 2 ^ 48 ∧ t = { s with threads := t.threads })
      ((s.csrWrite n w).putX d (s.csrRead n) 4) := by
  have hn : n < 0x800 := by omega
  have hr : WritableCsr n := writableCsr_iff.mpr (by omega)
  have hm : csrMatrix n = false := csrMatrix_eq_false (by omega)
  have hwrite (c : Csrs) (v : Nat) : c.write n v = { c with evcnt := vset c.evcnt n (BitVec.ofNat 48 v) } := by
    unfold Csrs.write
    simp (disch := omega) only [if_neg, if_pos]
  rw [csrWrite_own s w hn hm (by omega)]
  refine wrote_putX (spared_modMe ⟨rfl, rfl, rfl, rfl⟩) ⟨?_, modMe_after_rest s d _ _⟩
  rw [toNat_csrRead_own _ hn hr hm, (read_ranges _ n).1 h1 h2, State.me_retire]
  show (((State.setX _ d _).me.counted 2 1).get _).toNat = _
  rw [counted_other _ (by simpa [hwrite] using he), State.me_setX_csr, State.me_modMe, hwrite, vget_vset, BitVec.toNat_ofNat]

/-! ## WAKECLASS (Table 14-6) -/

theorem csrWrite_wakeclass (h : ∀ q, q < 4 → (s.quad q).st = .on) :
    s.csrWrite 0x071 w = s.modMe fun t => { t with csr := t.csr.write 0x071 w.toNat } :=
  raiseQuads_on (s := s.modMe fun t => { t with csr := t.csr.write 0x071 w.toNat }) h

theorem wrote_wakeclass (hn : n = 0x071) (h : ∀ q, q < 4 → (s.quad q).st = .on) :
    Wrote s d (s.csrRead n) (fun t => (t.csrRead n).toNat =
        (if w.toNat % 4 = 3 then (s.csrRead n).toNat % 4 else w.toNat % 4) + w.toNat / 16 % 16 * 16 ∧ t = { s with threads := t.threads })
      ((s.csrWrite n w).putX d (s.csrRead n) 4) := by
  subst hn
  have hread (u : State) : (u.csrRead 0x071).toNat = wakeclassWord u.me.csr := toNat_csrRead_own u (by decide) ⟨rfl, rfl⟩ rfl
  rw [csrWrite_wakeclass s w h]
  refine wrote_putX (spared_modMe ⟨rfl, rfl, rfl, rfl⟩) ⟨?_, modMe_after_rest s d _ _⟩
  rw [hread, hread, State.me_retire]
  show wakeclassWord (State.setX _ d _).me.csr = _
  rw [State.me_setX_csr, State.me_modMe]
  show (if w.toNat % 4 = 3 then s.me.csr.wakeClass else BitVec.ofNat 2 w.toNat).toNat + 16 * (BitVec.ofNat 4 (w.toNat / 16)).toNat =
    (if w.toNat % 4 = 3 then (s.me.csr.wakeClass.toNat + 16 * s.me.csr.wakeMask.toNat) % 4 else w.toNat % 4) + w.toNat / 16 % 16 * 16
  rw [BitVec.toNat_ofNat]
  split
  · omega
  · rw [BitVec.toNat_ofNat]
    omega

/-! ## BINDCMD (R375) -/

theorem csrWrite_bindcmd : ∃ f : Thread → Bool,
    s.csrWrite 0x846 w = s.modMe fun t => { t with bind := { t.bind.command (w.toNat % 8) with sawFree := f t } } :=
  ⟨fun t => let b := (t.writeSuper 0x846 w.toNat).bind; (s.bind (8 * b.core.toNat + b.slot.toNat)).st == 0, rfl⟩

theorem csrRead_bindcmd (u : State) :
    u.csrRead 0x846 = BitVec.ofNat 64 (256 * b2n u.me.bind.busy + 512 * b2n u.me.bind.err) :=
  csrRead_super u (by decide)

theorem wrote_bindcmd (hn : n = 0x846) (h : s.me.bind.busy = false) :
    Wrote s d (s.csrRead n) (fun t => t = { s with threads := t.threads } ∧
        t.csrRead n = if 1 ≤ w.toNat % 8 ∧ w.toNat % 8 ≤ 4 then 0x100 else 0x200)
      ((s.csrWrite n w).putX d (s.csrRead n) 4) := by
  subst hn
  obtain ⟨f, hf⟩ := csrWrite_bindcmd s w
  rw [hf]
  refine wrote_putX (spared_modMe ⟨rfl, rfl, rfl, rfl⟩) ⟨modMe_after_rest s d _ _, ?_⟩
  rw [csrRead_bindcmd, State.me_retire, Thread.retire_bind, State.me_setX_bind, State.me_modMe]
  unfold BindCsrs.command
  split
  · rfl
  · simp only [h]
    rfl

/-! ## VSPILL (R243) -/

theorem csrRead_vspill (u : State) : u.csrRead 0x820 = u.vspill := by
  rw [csrRead_super u (by decide)]
  exact BitVec.eq_of_toNat_eq (by rw [BitVec.toNat_ofNat]; exact Nat.mod_eq_of_lt u.vspill.isLt)

theorem csrWrite_vspill : s.csrWrite 0x820 w =
    s.writeVspill (decide (0 < spilledEntries s.regions)) w.toNat := by
  unfold State.csrWrite
  rw [if_neg (by decide), if_neg (by decide), if_neg (by decide), if_pos rfl]

/-- VSPILL keeps its value while an entry is spilled. -/
theorem writeVspill_spilled (v : Nat) : s.writeVspill true v = s := rfl

theorem writeVspill_free (v : Nat) :
    s.writeVspill false v = { s with vspill := BitVec.ofNat 64 (bits v 0 12 + bits v 24 28 * 2 ^ 24) }.settleStores := rfl

theorem toNat_vspillWord (v : Nat) :
    (BitVec.ofNat 64 (bits v 0 12 + bits v 24 28 * 2 ^ 24)).toNat =
    v % 2 ^ 12 + v / 2 ^ 24 % 2 ^ 28 * 2 ^ 24 := by
  rw [BitVec.toNat_ofNat, bits, bits, pow_zero, Nat.div_one]
  exact Nat.mod_eq_of_lt (by omega)

theorem settleStores_vspill (h : NoRoomWait s) (v : Word) :
    ({ s with vspill := v } : State).settleStores = { s with vspill := v } :=
  settleStores_calm (s := { s with vspill := v }) h

/-- The rest of an instruction that wrote VSPILL. -/
theorem wrote_of_vspill {u : State} {v : Word} (hu : u = { s with vspill := v }) {a b : Prop}
    {n : Nat}
    (h : (a → v.toNat = n) ∧ (b → v = old)) :
    Wrote s d old (fun t => t = { s with threads := t.threads, vspill := t.vspill } ∧ (a → (t.csrRead 0x820).toNat = n) ∧
      (b → t.csrRead 0x820 = old)) (u.putX d old 4) := by
  have hv : ((u.setX d old).retire 4).vspill = v := by rw [State.retire_vspill, State.setX_vspill, hu]
  refine wrote_putX (spared_of_threads (by rw [hu]) (by rw [hu])) ⟨?_, ?_⟩
  · rw [hv]
    exact (after_rest _ _ _).trans (congrArg (fun x : State => { x with threads := ((u.setX d old).retire 4).threads }) hu)
  · rwa [csrRead_vspill, hv]

theorem wrote_vspill (hn : n = 0x820) (h : NoRoomWait s) :
    Wrote s d (s.csrRead n) (fun t => t = { s with threads := t.threads, vspill := t.vspill } ∧
        (NothingSpilled s → (t.csrRead n).toNat = w.toNat % 2 ^ 12 + w.toNat / 2 ^ 24 % 2 ^ 28 * 2 ^ 24) ∧
        (¬ NothingSpilled s → t.csrRead n = s.csrRead n))
      ((s.csrWrite n w).putX d (s.csrRead n) 4) := by
  subst hn
  rw [csrWrite_vspill s w]
  by_cases hs : NothingSpilled s
  · rw [(spilledEntries_eq_zero s).mpr hs, decide_eq_false (Nat.lt_irrefl 0), writeVspill_free, settleStores_vspill s h]
    exact wrote_of_vspill s d _ rfl ⟨fun _ => toNat_vspillWord _, fun hn => absurd hs hn⟩
  · rw [decide_eq_true (Nat.pos_of_ne_zero fun h0 => hs ((spilledEntries_eq_zero s).mp h0)), writeVspill_spilled]
    exact wrote_of_vspill s d _ rfl ⟨fun hn => absurd hn hs, fun _ => (csrRead_vspill s).symm⟩

/-! ## QPWR (Table 16-2) -/

/-- FLOOR of a quadrant takes its field of a word. -/
def setFloor (v : Nat) (s : State) (q : Nat) : State :=
  s.setQuad q { s.quad q with floor := bits v (8 * q + 3) 2 }

theorem quad_setQuad {q r : Nat} (hq : q < 4) (hr : r < 4) (v : Quad) :
    (s.setQuad q v).quad r = if r = q then v else s.quad r := by
  have hget (l : Vector Quad 4) : l.get (Fin.ofNat 4 r) = l[r] := by simp [Vector.get, Nat.mod_eq_of_lt hr]
  rw [State.quad, State.quad, hget, hget]
  simp only [State.setQuad, Nat.mod_eq_of_lt hq, Vector.getElem_set, eq_comm (a := q)]

theorem quad_over_setFloor (v : Nat) (l : List Nat) (hl : ∀ q ∈ l, q < 4) {r : Nat} (hr : r < 4) :
    (s.over l (setFloor v)).quad r = if r ∈ l then { s.quad r with floor := bits v (8 * r + 3) 2 } else s.quad r := by
  unfold State.over
  induction l generalizing s with
  | nil => rfl
  | cons q l ih =>
    rw [List.foldl_cons, ih _ fun a ha => hl a (List.mem_cons_of_mem _ ha), setFloor, quad_setQuad s (hl q (List.mem_cons_self ..)) hr]
    by_cases h : r = q
    · subst h
      simp
    · simp [h]

/-- The quadrants after a write of their FLOOR fields. -/
theorem quad_writeQpwr {v r : Nat} (hr : r < 4) :
    (s.over (countFrom 0 4) (setFloor v)).quad r = { s.quad r with floor := bits v (8 * r + 3) 2 } := by
  rw [quad_over_setFloor s v _ (by decide) hr, if_pos]
  show r ∈ [0, 1, 2, 3]
  simp
  omega

theorem csrWrite_qpwr (h : ∀ q, q < 4 → (s.quad q).st = .on) :
    s.csrWrite 0x850 w = s.over (countFrom 0 4) (setFloor w.toNat) :=
  raiseQuads_on (s := s.over (countFrom 0 4) (setFloor w.toNat)) fun q hq => by rw [quad_writeQpwr s hq, h q hq]

theorem foldl_quads (g : Nat → Nat) :
    (countFrom 0 4).foldl (fun a q => a + g q) 0 = g 0 + g 1 + g 2 + g 3 := by
  show 0 + g 0 + g 1 + g 2 + g 3 = _
  rw [Nat.zero_add]

/-- The quadrants' bytes in a word of QPWR. -/
theorem byte_of_quads {f : Nat → Nat} (hf : ∀ r, r < 4 → f r < 4) (m t : Nat) {q : Nat}
    (hq : q < 4) :
    (8 * f 0 * 2 ^ (8 * 0) + 8 * f 1 * 2 ^ (8 * 1) + 8 * f 2 * 2 ^ (8 * 2) + 8 * f 3 * 2 ^ (8 * 3) + m * 2 ^ 32 + t * 2 ^ 48) % 2 ^ 64
      / 2 ^ (8 * q) % 2 ^ 8 = 8 * f q := by
  have h0 := hf 0 (by decide)
  have h1 := hf 1 (by decide)
  have h2 := hf 2 (by decide)
  have h3 := hf 3 (by decide)
  interval_cases q
  all_goals
    simp only [Nat.reduceMul, Nat.reducePow]
    omega

theorem csrRead_qpwr (u : State) :
    u.csrRead 0x850 = BitVec.ofNat 64 u.qpwr := csrRead_super u (by decide)

/-- While every quadrant is in Q-ON, byte `q` of QPWR holds FLOOR of quadrant `q`. -/
theorem csrRead_qpwr_floor {u : State} (h : ∀ q, q < 4 → (u.quad q).st = .on) {f : Nat → Nat}
    (hf : ∀ q, q < 4 → (u.quad q).floor = f q ∧ f q < 4) {q : Nat} (hq : q < 4) :
    (u.csrRead 0x850).toNat / 2 ^ (8 * q) % 2 ^ 8 = 8 * f q := by
  have hc (r : Nat) (hr : r < 4) : ((u.quad r).st.code + 8 * (u.quad r).floor) * 2 ^ (8 * r) = 8 * f r * 2 ^ (8 * r) := by
    rw [h r hr, (hf r hr).1, QuadState.code, Nat.zero_add]
  rw [csrRead_qpwr, BitVec.toNat_ofNat, State.qpwr, foldl_quads, hc 0 (by decide), hc 1 (by decide), hc 2 (by decide), hc 3 (by decide)]
  exact byte_of_quads (fun r hr => (hf r hr).2) _ _ hq

/-- A write of FLOOR fields changes the quadrants alone. -/
theorem over_setFloor_rest (v : Nat) (l : List Nat) :
    s.over l (setFloor v) = { s with power := (s.over l (setFloor v)).power } := by
  unfold State.over
  induction l generalizing s with
  | nil => rfl
  | cons q l ih =>
    rw [List.foldl_cons, ih]
    rfl

theorem quad_after (u : State) (q : Nat) :
    ((u.setX d old).retire 4).quad q = u.quad q := by simp [State.quad]

/-- The rest of an instruction that wrote FLOOR fields. -/
theorem wrote_of_floors {u : State} {f : Nat → Nat} (hu : u = { s with power := u.power })
    (h : ∀ q, q < 4 → (s.quad q).st = .on)
    (hf : ∀ q, f q < 4) (hquad : ∀ q, q < 4 → u.quad q = { s.quad q with floor := f q }) :
    Wrote s d old (fun t => t = { s with threads := t.threads, power := t.power } ∧
      ∀ q, q < 4 → (t.csrRead 0x850).toNat / 2 ^ (8 * q) % 2 ^ 8 = 8 * f q ∧ t.quad q = { s.quad q with floor := f q })
      (u.putX d old 4) := by
  have hafter (q : Nat) (hq : q < 4) : ((u.setX d old).retire 4).quad q = { s.quad q with floor := f q } := by
    rw [quad_after, hquad q hq]
  refine wrote_putX (spared_of_threads (by rw [hu]) (by rw [hu])) ⟨?_, fun q hq => ⟨?_, hafter q hq⟩⟩
  · refine (after_rest _ _ _).trans ?_
    simp only [State.retire_power, State.setX_power]
    exact congrArg (fun x : State => { x with threads := ((u.setX d old).retire 4).threads }) hu
  · exact csrRead_qpwr_floor (fun r hr => by rw [hafter r hr, h r hr]) (fun r hr => ⟨by rw [hafter r hr], hf r⟩) hq

theorem wrote_qpwr (hn : n = 0x850) (h : ∀ q, q < 4 → (s.quad q).st = .on) :
    Wrote s d (s.csrRead n) (fun t => t = { s with threads := t.threads, power := t.power } ∧
        ∀ q, q < 4 → (t.csrRead n).toNat / 2 ^ (8 * q) % 2 ^ 8 = 8 * (w.toNat / 2 ^ (8 * q + 3) % 4) ∧
          t.quad q = { s.quad q with floor := w.toNat / 2 ^ (8 * q + 3) % 4 })
      ((s.csrWrite n w).putX d (s.csrRead n) 4) := by
  subst hn
  rw [csrWrite_qpwr s w h]
  exact wrote_of_floors s d _ (over_setFloor_rest ..) h (fun q => Nat.mod_lt _ (by decide)) fun q hq => quad_writeQpwr s hq

end

end Sys2Proof.Proofs.Integer
end

section
/-!
PROOFS. The read-only CSRs (Tables 4-11, 4-12, 4-13, 15-10, 16-14, 21-4), and O31 put together.
-/
namespace Sys2Proof.Proofs.Integer
open Sys2Proof.Machine Sys2Proof.Claims Sys2Proof.Proofs.Encoding

/-! ## Read-only CSRs -/

section
variable (s : State)

theorem csrRead_identity {n : Nat} (h1 : 0x010 ≤ n) (h2 : n ≤ 0x018) :
    s.csrRead n = BitVec.ofNat 64 (s.identity s.cur n) := by
  unfold State.csrRead
  simp (disch := omega) only [if_pos]

/-- What a thread without a task reads of its place. -/
theorem csrRead_firmware (h : s.taskOf s.cur = none) {n : Nat} (h1 : 0x010 ≤ n) (h2 : n ≤ 0x018)
    (h3 : n ≠ 0x011) (h4 : n ≠ 0x016) :
    s.csrRead n = BitVec.ofNat 64 (if n = 0x010 then s.cur % 8 else 0) := by
  rw [csrRead_identity s h1 h2, State.identity, if_neg h3, if_neg h4, h]
  rfl

/-- What a thread of a task reads of its place: fields of its bind record, and the task's superstep.
-/
theorem csrRead_task {k : Task} (h : s.taskOf s.cur = some k) {n : Nat} (h1 : 0x010 ≤ n)
    (h2 : n ≤ 0x018) (h3 : n ≠ 0x011) (h4 : n ≠ 0x016) :
    s.csrRead n = BitVec.ofNat 64 (if n = 0x010 then s.cur % 8 + 8 * (s.bind s.cur).tidx else if n = 0x012 then (s.bind s.cur).team
      else if n = 0x013 then (s.bind s.cur).gang else if n = 0x014 then (s.bind s.cur).grank
      else if n = 0x015 then (s.bind s.cur).gsize else if n = 0x017 then (s.bind s.cur).tenant else k.sstep.toNat) := by
  rw [csrRead_identity s h1 h2, State.identity, if_neg h3, if_neg h4, h]
  rfl

/-- Fields of a bind record (Table 15-9) by its first two words. -/
theorem bind_fields (b : BindRec) :
    b.tidx = (b.map BitVec.toNat)[0] / 2 ^ 3 % 8 ∧
    b.team = (b.map BitVec.toNat)[0] / 2 ^ 6 % 8 + 1 ∧
    b.tenant = (b.map BitVec.toNat)[0] / 2 ^ 12 % 2 ^ 8 ∧ b.gang = (b.map BitVec.toNat)[1] % 2 ^ 32 ∧
    b.grank = (b.map BitVec.toNat)[1] / 2 ^ 32 % 2 ^ 11 ∧ b.gsize = (b.map BitVec.toNat)[1] / 2 ^ 43 % 2 ^ 12 := by
  simp [BindRec.tidx, BindRec.team, BindRec.tenant, BindRec.gang, BindRec.grank, BindRec.gsize, Word.field, bits]

theorem tstatusOf_eq (t : TStatus) (b : Bool) : tstatusOf t b = tstatusWord t b := rfl

/-- The user's view of TSTATUS ends below the bit that tells a service core. -/
theorem tstatusWord_mod (t : TStatus) (b : Bool) :
    tstatusWord t b % 256 = tstatusWord t false % 256 := by
  have h : b2n false = 0 := rfl
  unfold tstatusWord
  omega

theorem readOnlyCsrs : ReadOnlyCsrs s where
  core := by
    rw [csrRead_identity s (by decide) (by decide), csrRead_identity s (by decide) (by decide), low_natCast, low_natCast]
    exact ⟨rfl, rfl⟩
  firmware h := by
    have hread {n : Nat} := csrRead_firmware s h (n := n)
    refine ⟨?_, ?_, ?_, ?_, ?_, ?_, ?_⟩
    · rw [hread (by decide) (by decide) (by decide) (by decide), low_natCast]
      rfl
    all_goals exact hread (by decide) (by decide) (by decide) (by decide)
  task k h := by
    have hread {n : Nat} := csrRead_task s h (n := n)
    obtain ⟨htidx, hteam, htenant, hgang, hgrank, hgsize⟩ := bind_fields (s.bind s.cur)
    simp only [low_natCast, ← htidx, ← hteam, ← htenant, ← hgang, ← hgrank, ← hgsize]
    refine ⟨?_, ?_, ?_, ?_, ?_, ?_, ?_⟩
    all_goals refine (hread (by decide) (by decide) (by decide) (by decide)).trans ?_
    all_goals simp (disch := omega) only [if_neg, if_true, BitVec.ofNat_toNat, BitVec.setWidth_eq]
  counts := by
    rw [low_natCast]
    exact ⟨rfl, BitVec.ofNat_toNat .., BitVec.ofNat_toNat ..⟩
  tallow := by
    rw [low_natCast]
    rfl
  clkratio := by
    intro nt
    rw [low_natCast]
    rfl
  tstatus := by
    rw [low_natCast, low_natCast, tstatusOf_eq, tstatusOf_eq, ← tstatusWord_mod s.me.status s.onService]
    exact ⟨rfl, rfl⟩
  lmsplit := by
    rw [low_natCast]
    rfl
  handback k hk := by
    rw [csrRead_super s (by omega)]
    unfold State.readSuper
    simp (disch := omega) only [if_neg, if_pos]
    rw [BitVec.ofNat_toNat, BitVec.setWidth_eq, show Fin.ofNat 8 (0x808 + k) = Fin.ofNat 8 k from Fin.ext (by simp [Fin.ofNat]; omega)]

end

/-! ## The obligation -/

theorem writable_of_table {n o v : Nat} (h : (csrAfter n o v).isSome = true) :
    WritableCsr n ∧ n ≠ 0x846 := by
  rw [writableCsr_iff]
  rcases csrAfter_isSome h with h | h | h
  · rw [csrMatrix_iff] at h
    omega
  · unfold OwnCsr at h
    omega
  · unfold SuperCsr at h
    omega

theorem wrote_table (s : State) (d : XReg) (w : Word) {n : Nat}
    (h : (csrAfter n (s.csrRead n).toNat 0).isSome = true) :
    Wrote s d (s.csrRead n) (TakesTable s n (s.csrRead n) w) ((s.csrWrite n w).putX d (s.csrRead n) 4) := by
  rcases csrAfter_isSome h with h | h | h
  · exact wrote_matrix s d w h
  · exact wrote_own s d w h
  · exact wrote_super s d w h

theorem csrBusy_other {s : State} {n : Nat} (h : n ≠ 0x846) :
    s.csrBusy n = false := by simp [State.csrBusy, h]

/-- Settles O31: what passes O32's checks reads the old value; each kind of CSR takes what its table
lets in. -/
theorem csrAccess : Obligations.CsrAccess := by
  refine ⟨fun s d a n => ⟨fun he hp hq => ?read, fun hp hq => ⟨fun h => ?table, fun h1 h2 he => ?evcnt, fun hn h => ?wakeclass,
    fun hn h => ?vspill, fun hn h => ?bindcmd, fun hn h => ?qpwr⟩⟩, readOnlyCsrs⟩
  case read =>
    have hf := csrFault_read he hp
    rw [exec_csrr, exec_csrs, exec_csrc, decide_eq_false (not_not_intro rfl), csrOp_read hf hq, csrOp_read hf hq, csrOp_read hf hq]
    exact ⟨writesX_putX s d _ 4, writesX_putX s d _ 4, writesX_putX s d _ 4⟩
  case table =>
    obtain ⟨hw, hn⟩ := writable_of_table h
    exact writes_all (p := TakesTable s n.toNat (s.csrRead n.toNat)) hw hp (csrBusy_other hn) hq fun w => wrote_table s d w h
  case evcnt =>
    exact writes_all (writableCsr_iff.mpr (by omega)) hp (csrBusy_other (by omega)) hq fun w => wrote_evcnt s d w h1 h2 he
  case wakeclass =>
    exact writes_all (writableCsr_iff.mpr (by omega)) hp (csrBusy_other (by omega)) hq fun w => wrote_wakeclass s d w hn h
  case vspill =>
    exact writes_all (writableCsr_iff.mpr (by omega)) hp (csrBusy_other (by omega)) hq fun w => wrote_vspill s d w hn h
  case bindcmd =>
    exact writes_all (writableCsr_iff.mpr (by omega)) hp (by simp [State.csrBusy, h]) hq fun w => wrote_bindcmd s d w hn h
  case qpwr =>
    exact writes_all (writableCsr_iff.mpr (by omega)) hp (csrBusy_other (by omega)) hq fun w => wrote_qpwr s d w hn h

end Sys2Proof.Proofs.Integer
end

section
/-!
PROOFS. What a scalar or vector floating-point instruction leaves of the machine (spec/05, R132 to R136): the flags, the generator and
the counters of its thread, and one register.
-/
namespace Sys2Proof.Proofs.Float
open Sys2Proof.Machine Sys2Proof.Claims Sys2Proof.Proofs.Integer

/-! ## Flags and draws of a thread -/

/-- Counting flags changes the event counters alone. -/
theorem countFlags_eq (t : Thread) (f : BitVec 5) : ∃ c, t.countFlags f = { t with csr := { t.csr with evcnt := c } } := by
  have hstep : ∀ (l : List Nat) (c : Vector (BitVec 48) 16), ∃ c',
      l.foldl (fun t i => if f.getLsbD i then t.count (8 - i) 1 else t) { t with csr := { t.csr with evcnt := c } } =
        { t with csr := { t.csr with evcnt := c' } } := by
    intro l
    induction l with
    | nil => exact fun c => ⟨c, rfl⟩
    | cons i l ih =>
      intro c
      rw [List.foldl_cons]
      split
      · exact ih _
      · exact ih c
  exact hstep (countFrom 0 5) t.csr.evcnt

/-- The thread after its roundings: counters, flags and generator. -/
def raisedCsr (k : Csrs) (c : Vector (BitVec 48) 16) (r : Fst) : Csrs :=
  { k with evcnt := c, fflags := k.fflags ||| r.flags, srseed := r.seed }

/-- The state after the roundings of the thread whose turn it is. -/
def raisedState (s : State) (c : Vector (BitVec 48) 16) (r : Fst) : State := s.modMe fun t => { t with csr := raisedCsr t.csr c r }

theorem modMe_fpDone (s : State) (r : Fst) : ∃ c, s.modMe (·.fpDone r) = raisedState s c r := by
  obtain ⟨c, hc⟩ := countFlags_eq s.me r.flags
  refine ⟨c, congrArg (s.setThr s.cur) ?_⟩
  change Thread.fpDone s.me r = _
  unfold Thread.fpDone Thread.raiseFlags
  rw [hc]
  rfl

/-- A result with flags and no draw. -/
theorem modMe_raiseFlags (s : State) (f : BitVec 5) : ∃ c, s.modMe (·.raiseFlags f) = raisedState s c ⟨s.me.csr.srseed, f⟩ := by
  obtain ⟨c, hc⟩ := countFlags_eq s.me f
  refine ⟨c, congrArg (s.setThr s.cur) ?_⟩
  change Thread.raiseFlags s.me f = _
  unfold Thread.raiseFlags
  rw [hc]
  rfl

section
variable {s t : State} {c : Vector (BitVec 48) 16} {r : Fst}

@[simp] theorem me_raisedState : (raisedState s c r).me = { s.me with csr := raisedCsr s.me.csr c r } := State.me_modMe _ _

@[simp] theorem getX_raisedState (i : XReg) : (raisedState s c r).getX i = s.getX i := by simp [State.getX]
@[simp] theorem getV_raisedState (i : VReg) : (raisedState s c r).getV i = s.getV i := by simp [State.getV]
@[simp] theorem getM_raisedState (i : MReg) : (raisedState s c r).getM i = s.getM i := by simp [State.getM]

/-- What has retired behind the roundings has retired. -/
theorem retired_of_raisedState {pc : Word} (h : Retired (raisedState s c r) t pc) : Retired s t pc where
  pc := h.pc
  instret := by simpa [raisedCsr] using h.instret
  awake := h.awake
  status := by simpa using h.status
  trap := by simpa using h.trap
  csrs := by simpa [raisedCsr] using h.csrs
  space := by simpa using h.space
  cur := h.cur
  sync := by simpa using h.sync
  others j hj := by rw [h.others j hj, raisedState, State.thr_modMe_other _ _ hj]
  bytes := h.bytes
  rest := h.rest

theorem nextPc_raisedState (n : Nat) : nextPc (raisedState s c r) n = nextPc s n := by simp [nextPc]

end

/-! ## One register written -/

theorem retired_setV (s : State) (d : VReg) (v : Vec) (n : Nat) : Retired s ((s.setV d v).retire n) (nextPc s n) where
  pc := by simp [nextPc]
  instret := by simp
  awake := by simp
  status := by simp
  trap := by simp
  csrs := by simp
  space := by simp
  cur := by simp
  sync := by simp
  others j hj := by rw [State.thr_retire_other _ _ (show j ≠ (s.setV d v).cur from hj), State.thr_setV_other _ _ _ hj]
  bytes k := by simp
  rest := rfl

theorem retired_setM (s : State) (d : MReg) (w : Word) (n : Nat) : Retired s ((s.setM d w).retire n) (nextPc s n) where
  pc := by simp [nextPc]
  instret := by simp
  awake := by simp
  status := by simp
  trap := by simp
  csrs := by simp
  space := by simp
  cur := by simp
  sync := by simp
  others j hj := by rw [State.thr_retire_other _ _ (show j ≠ (s.setM d w).cur from hj), State.thr_setM_other _ _ _ hj]
  bytes k := by simp
  rest := rfl

section
variable (s : State) (r : Fst)

/-- X(rd) and the outcome of the roundings are all that a scalar instruction writes. -/
theorem gives_setX (d : XReg) (w : Word) (n : Nat) {u : State} (hu : ∃ c, u = raisedState s c r) :
    Gives ((u.setX d w).fin n) fun t =>
      Retired s t (nextPc s n) ∧ OnlyX s t d w ∧ SameV s t ∧ SameM s t ∧ Raised s t r.flags r.seed := by
  obtain ⟨c, rfl⟩ := hu
  have h := retired_of_raisedState (retired_setX (raisedState s c r) d w n)
  rw [nextPc_raisedState] at h
  refine ⟨_, State.fin_eq _ n, h, fun i => ?_, fun i => ?_, fun i => ?_, ?_⟩
  · rw [State.getX_retire, State.getX_setX, getX_raisedState]
  · rw [State.getV_retire, getV_setX, getV_raisedState]
  · rw [State.getM_retire, getM_setX, getM_raisedState]
  · simp [Raised, raisedCsr]

theorem writesF_setX (d : XReg) (code n : Nat) {u : State} (hu : ∃ c, u = raisedState s c r) :
    WritesF s ((u.setX d (BitVec.ofNat 64 code)).fin n) n d code r.flags r.seed :=
  gives_setX s r d _ n hu

/-- V(vd) and the outcome of the roundings are all that a vector instruction writes. -/
theorem gives_setV (d : VReg) (v : Vec) {u : State} (hu : ∃ c, u = raisedState s c r) :
    Gives ((u.setV d v).fin 4) fun t =>
      Retired s t (nextPc s 4) ∧ SameX s t ∧ OnlyV s t d v ∧ SameM s t ∧ Raised s t r.flags r.seed := by
  obtain ⟨c, rfl⟩ := hu
  have h := retired_of_raisedState (retired_setV (raisedState s c r) d v 4)
  rw [nextPc_raisedState] at h
  refine ⟨_, State.fin_eq _ 4, h, fun i => ?_, fun i => ?_, fun i => ?_, ?_⟩
  · simp [State.getX]
  · rw [State.getV_retire, State.getV_setV, getV_raisedState]
  · simp [State.getM]
  · simp [Raised, raisedCsr]

/-- M(md) and the flags are all that a comparison writes. -/
theorem gives_setM (d : MReg) (w : Word) {u : State} (hu : ∃ c, u = raisedState s c r) :
    Gives ((u.setM d w).fin 4) fun t =>
      Retired s t (nextPc s 4) ∧ SameX s t ∧ SameV s t ∧ OnlyM s t d w ∧ Raised s t r.flags r.seed := by
  obtain ⟨c, rfl⟩ := hu
  have h := retired_of_raisedState (retired_setM (raisedState s c r) d w 4)
  rw [nextPc_raisedState] at h
  refine ⟨_, State.fin_eq _ 4, h, fun i => ?_, fun i => ?_, fun i => ?_, ?_⟩
  · simp [State.getX]
  · simp [State.getV]
  · rw [State.getM_retire, State.getM_setM, getM_raisedState]
  · simp [Raised, raisedCsr]

end

/-- A result without flags or draws leaves FFLAGS and SRSEED. -/
theorem sameF_of_raised {s t : State} (h : Raised s t 0 s.me.csr.srseed) : SameF s t := ⟨by simpa using h.1, h.2⟩

theorem writesV_setV (s : State) (d : VReg) (v : Vec) : WritesV s ((s.setV d v).fin 4) d v :=
  ⟨_, State.fin_eq _ 4, retired_setV s d v 4, fun i => by simp [State.getX], fun i => by rw [State.getV_retire, State.getV_setV],
    fun i => by simp [State.getM], by simp [SameF]⟩

theorem writesM_setM (s : State) (d : MReg) (w : Word) : WritesM s ((s.setM d w).fin 4) d w :=
  ⟨_, State.fin_eq _ 4, retired_setM s d w 4, fun i => by simp [State.getX], fun i => by simp [State.getV],
    fun i => by rw [State.getM_retire, State.getM_setM], by simp [SameF]⟩

/-! ## One rounding (R86, R132, R136) -/

theorem mode_eq (s : State) (m : Rm) : s.mode m = modeOf s m := by
  unfold State.mode modeOf resolveRm
  cases m <;> simp only [reduceCtorEq, if_false, if_true]
  generalize s.me.csr.frm = f
  revert f
  decide

/-- The flags that stand already are kept, and tell nothing of the rounding. -/
theorem rnd_raise (f : Fmt) (mode : Rm) (sat : Bool) (x : FV) (st : Fst) (b : BitVec 5) :
    rnd f mode sat x (st.raise b) = ((rnd f mode sat x st).1, (rnd f mode sat x st).2.raise b) := by
  have hd : (st.raise b).draw mode = ((st.draw mode).1, (st.draw mode).2.raise b) := by
    unfold Fst.draw
    split <;> rfl
  have hc : ∀ (u : Fst) (a : BitVec 5), (u.raise b).raise a = (u.raise a).raise b := fun u a => by
    simp only [Fst.raise, BitVec.or_assoc, BitVec.or_comm b]
  cases x with
  | nan => simp only [rnd, hd, hc]
  | inf neg => simp only [rnd, hd, hc]
  | fin neg m e i =>
    by_cases hm : m = 0
    · simp only [rnd, hd, hm, if_true]
    · have hs : Rounding.roundedSteps f mode neg m e i (st.raise b) = Rounding.roundedSteps f mode neg m e i st := by
        simp only [Rounding.roundedSteps, hd]
      have hk : Rounding.roundedCode f mode neg m e i (st.raise b) = Rounding.roundedCode f mode neg m e i st := by
        simp only [Rounding.roundedCode, hs]
      rw [Rounding.rnd_fin hm, Rounding.rnd_fin hm, hs, hk, hd]
      dsimp only
      split
      · rw [hc]
      · split
        · rw [hc]
        · rfl

theorem roundsX_fpRound (s : State) (p : Prec) (m : Rm) (d : XReg) (x : FV × BitVec 5) (n : Nat) :
    RoundsX s (s.fpRound p m d x n) n d p (modeOf s m) x := by
  unfold State.fpRound
  rw [rnd_raise, mode_eq]
  have h := writesF_setX s _ d (rnd (fmtOfPrec p) (modeOf s m) false x.1 s.me.fpStart).1 n
    (modMe_fpDone s ((rnd (fmtOfPrec p) (modeOf s m) false x.1 s.me.fpStart).2.raise x.2))
  rw [Rounding.flags_raise, BitVec.or_comm] at h
  exact h

theorem roundsX_of_eq {s : State} {o : Out} {n : Nat} {d : XReg} {p : Prec} {m : Rm} {x : FV × BitVec 5}
    (h : o = s.fpRound p m d x n) : RoundsX s o n d p (modeOf s m) x :=
  h ▸ roundsX_fpRound s p m d x n

/-- Settles O7: every member is one rounding of its exact result. -/
theorem scalarArithmetic : Obligations.ScalarArithmetic := by
  intro s p m d a b c x y M
  have h (o : Out) (n : Nat) (e : Rm → FV × BitVec 5) (ho : o = s.fpRound p m d (e (s.mode m)) n) : RoundsX s o n d p M (e M) := by
    rw [mode_eq] at ho
    exact roundsX_of_eq ho
  exact ⟨h _ 4 (fAdd · x y) rfl, h _ 4 (fAdd · x y.neg) rfl, h _ 4 (fun _ => fMul x y) rfl, h _ 4 (fun _ => fDiv x y) rfl,
    h _ 4 (fun _ => fSqrt x) rfl, h _ 4 (fMulAdd · false x y (regF s p d)) rfl, h _ 4 (fMulAdd · true x y (regF s p d)) rfl,
    h _ 12 (fMulAdd · false x y (regF s p c)) rfl, h _ 12 (fMulAdd · true x y (regF s p c)) rfl⟩

end Sys2Proof.Proofs.Float
end

section
/-!
PROOFS. The exact results that go into RND (spec/05, R136 to R138, Table 5-2; O8): sums and products of dyadic numbers as rationals,
quotients and roots as real numbers that are cut off below a whole number.
-/
namespace Sys2Proof.Proofs.Float
open Sys2Proof.Machine Sys2Proof.Claims

/-! ## Dyadic numbers -/

/-- The rational number of a sign, a significand and an exponent. -/
def dyadic (neg : Bool) (m : ℕ) (e : ℤ) : ℚ := (if neg then -1 else 1) * (m : ℚ) * (2 : ℚ) ^ e

theorem ratOf_fin (neg : Bool) (m : ℕ) (e : ℤ) : ratOf (.fin neg m e false) = some (dyadic neg m e) := rfl

/-- What has a rational number is a number that is not cut off. -/
theorem exists_fin {x : FV} {u : ℚ} (h : ratOf x = some u) : ∃ neg m e, x = .fin neg m e false ∧ u = dyadic neg m e := by
  match x, h with
  | .fin neg m e false, h => exact ⟨neg, m, e, rfl, (Option.some.inj h).symm⟩

theorem dyadic_eq_zero {neg : Bool} {m : ℕ} {e : ℤ} : dyadic neg m e = 0 ↔ m = 0 := by
  cases neg <;> simp [dyadic, zpow_ne_zero]

@[simp] theorem dyadic_zero (neg : Bool) (e : ℤ) : dyadic neg 0 e = 0 := dyadic_eq_zero.mpr rfl

theorem dyadic_not (neg : Bool) (m : ℕ) (e : ℤ) : dyadic (!neg) m e = -dyadic neg m e := by
  cases neg <;> simp [dyadic]

theorem dyadic_false_nonneg (m : ℕ) (e : ℤ) : 0 ≤ dyadic false m e := by
  simp only [dyadic, Bool.false_eq_true, if_false]
  positivity

theorem dyadic_true_nonpos (m : ℕ) (e : ℤ) : dyadic true m e ≤ 0 := by
  rw [← Bool.not_false, dyadic_not]
  exact neg_nonpos.mpr (dyadic_false_nonneg m e)

/-- A number above 0 has no sign, and one below 0 has one. -/
theorem sign_of_pos {neg : Bool} {m : ℕ} {e : ℤ} (h : 0 < dyadic neg m e) : neg = false ∧ m ≠ 0 := by
  refine ⟨?_, fun hm => by simp [hm] at h⟩
  cases neg with
  | false => rfl
  | true => exact absurd h (dyadic_true_nonpos m e).not_gt

theorem sign_of_neg {neg : Bool} {m : ℕ} {e : ℤ} (h : dyadic neg m e < 0) : neg = true ∧ m ≠ 0 := by
  have h' : 0 < dyadic (!neg) m e := by
    rw [dyadic_not]
    exact neg_pos.mpr h
  obtain ⟨hn, hm⟩ := sign_of_pos h'
  exact ⟨by simpa using hn, hm⟩

theorem dyadic_mul (na nb : Bool) (ma mb : ℕ) (ea eb : ℤ) :
    dyadic (na != nb) (ma * mb) (ea + eb) = dyadic na ma ea * dyadic nb mb eb := by
  rw [dyadic, dyadic, dyadic, zpow_add₀ two_ne_zero]
  cases na <;> cases nb <;> push_cast <;> simp <;> ring

/-- An integer on a grid, with its sign apart. -/
theorem dyadic_natAbs (n : ℤ) (e : ℤ) : dyadic (decide (n < 0)) n.natAbs e = n * (2 : ℚ) ^ e := by
  rcases lt_or_ge n 0 with h | h
  · simp [dyadic, h, Nat.cast_natAbs, abs_of_neg h]
  · simp [dyadic, not_lt.mpr h, Nat.cast_natAbs, abs_of_nonneg h]

/-- The sum on the common grid is the sum of the numbers. -/
theorem dyadicSum_eq (na : Bool) (ma : ℕ) (ea : ℤ) (nb : Bool) (mb : ℕ) (eb : ℤ) :
    ((dyadicSum na ma ea nb mb eb).1 : ℚ) * (2 : ℚ) ^ (dyadicSum na ma ea nb mb eb).2 = dyadic na ma ea + dyadic nb mb eb := by
  have hgrid {x : ℤ} (hx : min ea eb ≤ x) : (2 : ℚ) ^ x = 2 ^ (x - min ea eb).toNat * 2 ^ min ea eb := by
    rw [← zpow_natCast, ← zpow_add₀ two_ne_zero]
    congr 1
    omega
  simp only [dyadicSum, dyadic, hgrid (min_le_left ea eb), hgrid (min_le_right ea eb)]
  cases na <;> cases nb <;> push_cast <;> simp <;> ring

theorem dyadicSum_eq_zero {na : Bool} {ma : ℕ} {ea : ℤ} {nb : Bool} {mb : ℕ} {eb : ℤ} :
    (dyadicSum na ma ea nb mb eb).1 = 0 ↔ dyadic na ma ea + dyadic nb mb eb = 0 := by
  rw [← dyadicSum_eq, mul_eq_zero, or_iff_left (zpow_ne_zero _ two_ne_zero), Int.cast_eq_zero]

theorem dyadicSum_neg {na : Bool} {ma : ℕ} {ea : ℤ} {nb : Bool} {mb : ℕ} {eb : ℤ} :
    (dyadicSum na ma ea nb mb eb).1 < 0 ↔ dyadic na ma ea + dyadic nb mb eb < 0 := by
  have h2 : (0 : ℚ) < 2 ^ (dyadicSum na ma ea nb mb eb).2 := by positivity
  rw [← dyadicSum_eq, mul_neg_iff]
  simp [h2, h2.le]

/-! ## Sums and products (R136, R138) -/

section
variable (mode : Rm) (sub na : Bool) (ma : ℕ) (ea : ℤ) (nb : Bool) (mb : ℕ) (eb : ℤ) (nc : Bool) (mc : ℕ) (ec : ℤ)

theorem fAdd_fin : fAdd mode (.fin na ma ea false) (.fin nb mb eb false) =
    (if (dyadicSum na ma ea nb mb eb).1 = 0 then .fin (if na = nb then na else decide (mode = .rdn)) 0 0 false
      else .fin (decide ((dyadicSum na ma ea nb mb eb).1 < 0)) (dyadicSum na ma ea nb mb eb).1.natAbs (dyadicSum na ma ea nb mb eb).2 false,
      0) := by
  simp only [fAdd]
  split <;> rfl

theorem fAdd_sum :
    ratOf (fAdd mode (.fin na ma ea false) (.fin nb mb eb false)).1 = some (dyadic na ma ea + dyadic nb mb eb) ∧
      (fAdd mode (.fin na ma ea false) (.fin nb mb eb false)).2 = 0 := by
  rw [fAdd_fin]
  refine ⟨?_, rfl⟩
  dsimp only
  split
  next h => rw [ratOf_fin, dyadic_zero, dyadicSum_eq_zero.mp h]
  next => rw [ratOf_fin, dyadic_natAbs, dyadicSum_eq]

variable {na ma ea nb mb eb} in
/-- An exact zero sum: the common sign, or that of the rounding mode. -/
theorem fAdd_zero_sign (h : dyadic na ma ea + dyadic nb mb eb = 0) :
    (fAdd mode (.fin na ma ea false) (.fin nb mb eb false)).1.isNeg = if na = nb then na else decide (mode = .rdn) := by
  rw [fAdd_fin, if_pos (dyadicSum_eq_zero.mpr h)]
  rfl

theorem fMul_fin : fMul (.fin na ma ea false) (.fin nb mb eb false) = (.fin (na != nb) (ma * mb) (ea + eb) false, 0) := rfl

/-- FMAC and FMSC add the exact product, or take it away. -/
theorem fMulAdd_fin : fMulAdd mode sub (.fin na ma ea false) (.fin nb mb eb false) (.fin nc mc ec false) =
    fAdd mode (.fin nc mc ec false) (.fin (if sub then !(na != nb) else na != nb) (ma * mb) (ea + eb) false) := by
  cases sub <;> rfl

end

/-! ## Whole numbers with something cut off -/

/-- A magnitude between a whole number of 120 bits and the next one. -/
theorem magOf_floor {m : ℕ} {b : Bool} {a : ℝ} (h0 : m ≤ a) (h1 : a < m + 1) (hb : b = true ↔ (m : ℝ) ≠ a) (hm : 2 ^ 119 ≤ m) (e : ℤ) :
    MagOf m e b (a * (2 : ℝ) ^ e) := by
  refine ⟨a - m, by ring, ?_⟩
  cases b with
  | false => exact .inl ⟨rfl, sub_eq_zero.mpr (not_not.mp (mt hb.mpr (by decide))).symm⟩
  | true => exact .inr ⟨rfl, sub_pos.mpr (h0.lt_of_ne (hb.mp rfl)), by linarith, hm⟩

theorem standsFor_fin (neg : Bool) {m : ℕ} {e : ℤ} {b : Bool} {a : ℝ} (h : MagOf m e b a) :
    StandsFor (.fin neg m e b) (if neg then -a else a) :=
  ⟨neg, m, e, b, a, rfl, h, rfl⟩

theorem dyadic_real (neg : Bool) (m : ℕ) (e : ℤ) : (dyadic neg m e : ℝ) = if neg then -(m * (2 : ℝ) ^ e) else m * (2 : ℝ) ^ e := by
  cases neg <;> simp [dyadic]

/-- An exact value stands for its number. -/
theorem standsFor_exact (neg : Bool) (m : ℕ) (e : ℤ) : StandsFor (.fin neg m e false) (dyadic neg m e) := by
  rw [dyadic_real]
  exact standsFor_fin neg ⟨0, by simp, .inl ⟨rfl, rfl⟩⟩

/-! ## Quotients -/

/-- The whole part of a quotient, and whether something is cut off. -/
theorem natDiv_floor (n : ℕ) {d : ℕ} (hd : d ≠ 0) :
    ((n / d : ℕ) : ℝ) ≤ n / d ∧ (n : ℝ) / d < (n / d : ℕ) + 1 ∧ ((n % d != 0) = true ↔ ((n / d : ℕ) : ℝ) ≠ n / d) := by
  have hd' : (0 : ℝ) < d := by exact_mod_cast Nat.pos_of_ne_zero hd
  have hsplit : (n : ℝ) / d = (n / d : ℕ) + (n % d : ℕ) / d := by
    rw [eq_comm, ← mul_left_inj' hd'.ne', add_mul, div_mul_cancel₀ _ hd'.ne', div_mul_cancel₀ _ hd'.ne']
    exact_mod_cast Nat.div_add_mod' n d
  have hlt : ((n % d : ℕ) : ℝ) / d < 1 := by
    rw [div_lt_one hd']
    exact_mod_cast Nat.mod_lt n (Nat.pos_of_ne_zero hd)
  have hge : (0 : ℝ) ≤ (n % d : ℕ) / d := by positivity
  rw [hsplit]
  refine ⟨by linarith, by linarith, ?_⟩
  simp [hd]

theorem quotient_isNeg (neg : Bool) (ma : ℕ) (ea : ℤ) (mb : ℕ) (eb : ℤ) : (quotient neg ma ea mb eb).isNeg = neg := rfl

/-- A quotient of numbers has at least 160 bits. -/
theorem quotient_standsFor (neg : Bool) {ma mb : ℕ} (ha : ma ≠ 0) (hb : mb ≠ 0) (ea eb : ℤ) :
    StandsFor (quotient neg ma ea mb eb) (if neg then -(ma * (2 : ℝ) ^ ea / (mb * 2 ^ eb)) else ma * (2 : ℝ) ^ ea / (mb * 2 ^ eb)) := by
  obtain ⟨h0, h1, hi⟩ := natDiv_floor (ma * 2 ^ (160 + Nat.log2 mb)) hb
  have hlog : mb < 2 ^ (Nat.log2 mb + 1) := Nat.lt_log2_self
  have hwide : 2 ^ 119 ≤ ma * 2 ^ (160 + Nat.log2 mb) / mb := by
    rw [Nat.le_div_iff_mul_le (Nat.pos_of_ne_zero hb)]
    calc 2 ^ 119 * mb ≤ 2 ^ 119 * 2 ^ (Nat.log2 mb + 1) := Nat.mul_le_mul_left _ hlog.le
      _ ≤ 2 ^ (160 + Nat.log2 mb) := by
        rw [← Nat.pow_add]
        exact Nat.pow_le_pow_right (by decide) (by omega)
      _ ≤ ma * 2 ^ (160 + Nat.log2 mb) := Nat.le_mul_of_pos_left _ (Nat.pos_of_ne_zero ha)
  have h := standsFor_fin neg (magOf_floor h0 h1 hi hwide (ea - eb - (160 + Nat.log2 mb : ℕ)))
  have hval : ((ma * 2 ^ (160 + Nat.log2 mb) : ℕ) : ℝ) / mb * 2 ^ (ea - eb - (160 + Nat.log2 mb : ℕ)) =
      ma * (2 : ℝ) ^ ea / (mb * 2 ^ eb) := by
    rw [zpow_sub₀ two_ne_zero, zpow_sub₀ two_ne_zero, zpow_natCast]
    push_cast
    field_simp
  rw [hval] at h
  exact h

section
variable {na : Bool} {ma : ℕ} {ea : ℤ} {nb : Bool} {mb : ℕ} {eb : ℤ}

theorem fDiv_fin (hb : mb ≠ 0) : fDiv (.fin na ma ea false) (.fin nb mb eb false) =
    (if ma = 0 then .fin (na != nb) 0 0 false else quotient (na != nb) ma ea mb eb, 0) := by
  simp only [fDiv, if_neg hb]
  split <;> rfl

theorem fDiv_quotient (hb : mb ≠ 0) :
    let q := fDiv (.fin na ma ea false) (.fin nb mb eb false)
    StandsFor q.1 ((dyadic na ma ea : ℝ) / (dyadic nb mb eb : ℚ)) ∧ q.1.isNeg = (na != nb) ∧ q.2 = 0 := by
  intro q
  have hq : q = _ := fDiv_fin hb
  rw [hq]
  by_cases ha : ma = 0
  · have h := standsFor_exact (na != nb) 0 0
    simp only [ha, if_true, dyadic_zero, Rat.cast_zero, zero_div] at h ⊢
    exact ⟨h, rfl, trivial⟩
  · have h := quotient_standsFor (na != nb) ha hb ea eb
    rw [if_neg ha, dyadic_real, dyadic_real]
    refine ⟨?_, rfl, rfl⟩
    convert h using 1
    cases na <;> cases nb <;> simp [neg_div, div_neg]

theorem fDiv_by_zero (ha : ma ≠ 0) : fDiv (.fin na ma ea false) (.fin nb 0 eb false) = (.inf (na != nb), 2) := by
  simp only [fDiv, if_true, if_neg ha]
  rfl

end

/-! ## Square roots -/

/-- The bits of the root found one by one, from the highest. -/
theorem isqrt_spec (x n r : ℕ) (h0 : r * r ≤ x) (h1 : x < (r + 2 ^ n) * (r + 2 ^ n)) :
    isqrt x n r * isqrt x n r ≤ x ∧ x < (isqrt x n r + 1) * (isqrt x n r + 1) := by
  induction n generalizing r with
  | zero => exact ⟨h0, h1⟩
  | succ n ih =>
    unfold isqrt
    split
    next h => exact ih _ h (by rwa [Nat.add_assoc, ← Nat.two_mul, ← Nat.pow_succ'])
    next h => exact ih r h0 (not_le.mp h)

/-- A whole root that is at least 2^k. -/
theorem le_of_lt_succ_sq {x r k : ℕ} (h1 : x < (r + 1) * (r + 1)) (hx : 2 ^ k * 2 ^ k ≤ x) : 2 ^ k ≤ r :=
  Nat.lt_succ_iff.mp (Nat.mul_self_lt_mul_self_iff.mp (hx.trans_lt h1))

theorem natSqrt_floor {x r : ℕ} (h0 : r * r ≤ x) (h1 : x < (r + 1) * (r + 1)) :
    (r : ℝ) ≤ √x ∧ √(x : ℝ) < r + 1 ∧ ((r * r != x) = true ↔ (r : ℝ) ≠ √x) := by
  refine ⟨Real.le_sqrt_of_sq_le ?_, (Real.sqrt_lt' (by positivity)).mpr ?_, ?_⟩
  · rw [sq]
    exact_mod_cast h0
  · rw [sq]
    exact_mod_cast h1
  · rw [bne_iff_ne, ne_eq, ne_eq, not_iff_not, eq_comm (a := (r : ℝ)), Real.sqrt_eq_iff_mul_self_eq (by positivity) (by positivity)]
    norm_cast
    exact eq_comm

/-- The root of a number with an even exponent. -/
theorem sqrt_even (x : ℝ) (e : ℤ) : √(x * 2 ^ (2 * e)) = √x * 2 ^ e := by
  rw [mul_comm 2 e, zpow_mul, Real.sqrt_mul' _ (by positivity), zpow_two, ← sq, Real.sqrt_sq (by positivity)]

/-- The shift that gives a significand 257 or 258 bits and an even exponent. -/
def rootShift (m : ℕ) (e : ℤ) : ℕ := if (e - (256 - Nat.log2 m : ℕ)) % 2 = 0 then 256 - Nat.log2 m else 256 - Nat.log2 m + 1

theorem fSqrt_fin {m : ℕ} (hm : m ≠ 0) (e : ℤ) : fSqrt (.fin false m e false) =
    (.fin false (isqrt (m * 2 ^ rootShift m e) 130 0) ((e - rootShift m e) / 2)
      (isqrt (m * 2 ^ rootShift m e) 130 0 * isqrt (m * 2 ^ rootShift m e) 130 0 != m * 2 ^ rootShift m e), 0) := by
  simp only [fSqrt, if_neg hm, Bool.false_eq_true, if_false]
  rfl

theorem rootShift_bounds {m : ℕ} (hm : m ≠ 0) (hs : m < 2 ^ 200) (e : ℤ) :
    2 ^ 128 * 2 ^ 128 ≤ m * 2 ^ rootShift m e ∧ m * 2 ^ rootShift m e < 2 ^ 130 * 2 ^ 130 ∧ 2 * ((e - rootShift m e) / 2) = e - rootShift m e := by
  have hlo : 2 ^ Nat.log2 m ≤ m := Nat.log2_self_le hm
  have hhi : m < 2 ^ (Nat.log2 m + 1) := Nat.lt_log2_self
  have hlog : Nat.log2 m < 200 := (Nat.log2_lt hm).mpr hs
  have hk : rootShift m e = 256 - Nat.log2 m ∨ rootShift m e = 257 - Nat.log2 m := by
    unfold rootShift
    split
    · exact .inl rfl
    · exact .inr (by omega)
  refine ⟨?_, ?_, ?_⟩
  · calc 2 ^ 128 * 2 ^ 128 = 2 ^ (128 + 128) := (Nat.pow_add ..).symm
      _ ≤ 2 ^ (Nat.log2 m + rootShift m e) := Nat.pow_le_pow_right (by decide) (by omega)
      _ ≤ m * 2 ^ rootShift m e := by
        rw [Nat.pow_add]
        exact Nat.mul_le_mul_right _ hlo
  · calc m * 2 ^ rootShift m e < 2 ^ (Nat.log2 m + 1) * 2 ^ rootShift m e := Nat.mul_lt_mul_of_pos_right hhi (by positivity)
      _ = 2 ^ (Nat.log2 m + 1 + rootShift m e) := (Nat.pow_add ..).symm
      _ ≤ 2 ^ 130 * 2 ^ 130 := (Nat.pow_le_pow_right (by decide) (by omega)).trans_eq (Nat.pow_add 2 130 130)
  · unfold rootShift
    split <;> omega

theorem fSqrt_root {m : ℕ} (hm : m ≠ 0) (hs : m < 2 ^ 200) (e : ℤ) :
    StandsFor (fSqrt (.fin false m e false)).1 √(dyadic false m e : ℝ) := by
  obtain ⟨hlo, hhi, heven⟩ := rootShift_bounds hm hs e
  obtain ⟨h0, h1⟩ := isqrt_spec (m * 2 ^ rootShift m e) 130 0 (Nat.zero_le _) (by rwa [Nat.zero_add])
  obtain ⟨hr0, hr1, hi⟩ := natSqrt_floor h0 h1
  have hwide : 2 ^ 119 ≤ isqrt (m * 2 ^ rootShift m e) 130 0 := (Nat.pow_le_pow_right (by decide) (by decide)).trans (le_of_lt_succ_sq h1 hlo)
  have h := standsFor_fin false (magOf_floor hr0 hr1 hi hwide ((e - rootShift m e) / 2))
  have hval : √(dyadic false m e : ℝ) = √((m * 2 ^ rootShift m e : ℕ) : ℝ) * 2 ^ ((e - rootShift m e) / 2) := by
    rw [← sqrt_even, heven, dyadic_real, zpow_sub₀ two_ne_zero, zpow_natCast]
    push_cast
    congr 1
    field_simp
  rw [fSqrt_fin hm, hval]
  exact h

/-! ## Infinities (Table 5-2) -/

theorem isNeg_fin (neg : Bool) (m : ℕ) (e : ℤ) (b : Bool) : (FV.fin neg m e b).isNeg = neg := rfl

/-- A product of a number that is not 0 and an infinity. -/
theorem fMul_inf {m : ℕ} (hm : m ≠ 0) (neg : Bool) (e : ℤ) (a : Bool) :
    fMul (.fin neg m e false) (.inf a) = (.inf (neg != a), 0) ∧ fMul (.inf a) (.fin neg m e false) = (.inf (neg != a), 0) := by
  simp only [fMul, if_neg hm, true_and]
  cases neg <;> cases a <;> rfl

/-- The addend and a product that is infinite: they cancel, or agree. -/
theorem fMulAdd_inf {m : ℕ} (hm : m ≠ 0) (mode : Rm) (b neg : Bool) (e : ℤ) (a c : Bool) :
    fMulAdd mode b (.fin neg m e false) (.inf a) (.inf c) = if c = (b != (neg != a)) then (.inf c, 0) else (.nan, 1) := by
  simp only [fMulAdd, (fMul_inf hm neg e a).1]
  cases b <;> cases neg <;> cases a <;> cases c <;> rfl

/-- Settles O8: sums and products are exact on a common grid, quotients and roots are cut off below 120 bits, and the infinities and
NaN go by Table 5-2. -/
theorem exactResults : Obligations.ExactResults := by
  refine ⟨fun m x y z u v w hx hy hz => ?numbers, fun m x u a b hx => ?infinities, fun m x => ?nans⟩
  case numbers =>
    obtain ⟨na, ma, ea, rfl, rfl⟩ := exists_fin hx
    obtain ⟨nb, mb, eb, rfl, rfl⟩ := exists_fin hy
    obtain ⟨nc, mc, ec, rfl, rfl⟩ := exists_fin hz
    have hneg : (FV.fin nb mb eb false).neg = .fin (!nb) mb eb false := rfl
    simp only [hneg, isNeg_fin, fMulAdd_fin, fMul_fin, Bool.false_eq_true, if_false, if_true, ← dyadic_mul, sub_eq_add_neg,
      ← dyadic_not]
    obtain ⟨hfma, hfma0⟩ := fAdd_sum m nc mc ec (na != nb) (ma * mb) (ea + eb)
    obtain ⟨hfms, hfms0⟩ := fAdd_sum m nc mc ec (!(na != nb)) (ma * mb) (ea + eb)
    refine ⟨fAdd_sum m na ma ea nb mb eb, fAdd_sum m na ma ea (!nb) mb eb, ⟨ratOf_fin .., trivial, trivial⟩, ⟨hfma, hfms, hfma0, hfms0⟩,
      fun h hn => ?_, fun h hn => ?_, fun hu hv => ⟨fun hn => ?_, fun hn => ?_⟩, fun h hn => ?_, fun hv => ?_, fun hv hu => ?_,
      fun hv hu => ?_, fun hs hu => ?_, fun hu => ?_, fun hu => ?_⟩
    · rw [fAdd_zero_sign m h, if_neg hn]
    · rw [fAdd_zero_sign m h, if_neg (by simp [hn])]
    · rw [fAdd_zero_sign m (by rw [hu, hv, add_zero]), if_pos hn]
    · rw [fAdd_zero_sign m (by rw [dyadic_not, hu, hv, neg_zero, add_zero]), if_pos (by simpa [Bool.eq_not] using hn)]
    · rw [fAdd_zero_sign m h, if_neg hn]
    · exact fDiv_quotient (mt dyadic_eq_zero.mpr hv)
    · rw [dyadic_eq_zero.mp hv]
      exact fDiv_by_zero (mt dyadic_eq_zero.mpr hu)
    · rw [dyadic_eq_zero.mp hv, dyadic_eq_zero.mp hu]
      rfl
    · obtain ⟨rfl, hm⟩ := sign_of_pos hu
      exact ⟨fSqrt_root hm hs ea, by rw [fSqrt_fin hm]; rfl, by rw [fSqrt_fin hm]⟩
    · obtain ⟨rfl, hm⟩ := sign_of_neg hu
      simp only [fSqrt, if_neg hm, if_true]
      rfl
    · rw [dyadic_eq_zero.mp hu]
      exact ⟨(ratOf_fin na 0 0).trans (congrArg some (dyadic_zero na 0)), rfl, rfl⟩
  case infinities =>
    obtain ⟨n, k, e, rfl, rfl⟩ := exists_fin hx
    refine ⟨rfl, rfl, rfl, fun hu => fMul_inf (mt dyadic_eq_zero.mpr hu) n e a, fun hu => ?zero, fun hu => ?fused, rfl,
      ⟨(ratOf_fin (n != a) 0 0).trans (congrArg some (dyadic_zero _ 0)), rfl, rfl⟩, ?_, ?_, rfl, rfl, rfl, rfl⟩
    case zero =>
      rw [dyadic_eq_zero.mp hu]
      exact ⟨rfl, rfl, fun y sub => ⟨rfl, rfl⟩⟩
    case fused =>
      have hk := mt dyadic_eq_zero.mpr hu
      rw [fMulAdd_inf hk, fMulAdd_inf hk, isNeg_fin, if_pos rfl]
      refine ⟨if_neg ?_, rfl⟩
      cases b <;> cases n <;> cases a <;> decide
    · cases a <;> rfl
    · cases a <;> rfl
  case nans => cases x <;> exact ⟨rfl, rfl, rfl, rfl, rfl, rfl, rfl, rfl⟩

end Sys2Proof.Proofs.Float
end

section
/-!
PROOFS. Reciprocals and powers of two (spec/05, R144, Table 5-6; O10): the reciprocal root as a cut-off root, and the series of the
exponential with the error of its truncations.
-/
namespace Sys2Proof.Proofs.Float
open Sys2Proof.Machine Sys2Proof.Claims

/-! ## Reciprocals -/

theorem fRcp_fin {m : ℕ} (hm : m ≠ 0) (neg : Bool) (e : ℤ) : fRcp (.fin neg m e false) = (quotient neg 1 0 m e, 0) := if_neg hm

theorem fRcp_standsFor {m : ℕ} (hm : m ≠ 0) (neg : Bool) (e : ℤ) :
    StandsFor (fRcp (.fin neg m e false)).1 (1 / (dyadic neg m e : ℚ)) := by
  have h := quotient_standsFor neg one_ne_zero hm 0 e
  rw [fRcp_fin hm, dyadic_real]
  convert h using 1
  cases neg <;> simp

/-! ## Reciprocal square roots -/

/-- The significand and exponent with an even exponent. -/
def evenSig (m : ℕ) (e : ℤ) : ℕ := if e % 2 = 0 then m else 2 * m
def evenExp (e : ℤ) : ℤ := if e % 2 = 0 then e else e - 1

theorem evenExp_half (e : ℤ) : 2 * (-evenExp e / 2) = -evenExp e := by
  unfold evenExp
  split <;> omega

theorem evenSig_pos {m : ℕ} (hm : m ≠ 0) (e : ℤ) : 0 < evenSig m e := by
  unfold evenSig
  split <;> omega

theorem evenSig_mul (m : ℕ) (e : ℤ) : (evenSig m e : ℝ) * 2 ^ evenExp e = m * 2 ^ e := by
  unfold evenSig evenExp
  split
  · rfl
  · rw [zpow_sub_one₀ two_ne_zero]
    push_cast
    ring

/-- The root of the quotient that the model takes. -/
def invRoot (n : ℕ) : ℕ := isqrt (2 ^ (2 * (130 + Nat.log2 n)) / n) (130 + Nat.log2 n + 1) 0

theorem fRsqrt_fin {m : ℕ} (hm : m ≠ 0) (e : ℤ) : fRsqrt (.fin false m e false) =
    (.fin false (invRoot (evenSig m e)) (-evenExp e / 2 - (130 + Nat.log2 (evenSig m e) : ℕ))
      (invRoot (evenSig m e) * invRoot (evenSig m e) * evenSig m e != 2 ^ (2 * (130 + Nat.log2 (evenSig m e)))), 0) := by
  simp only [fRsqrt, if_neg hm, Bool.false_eq_true, if_false]
  rfl

theorem invRoot_spec {n : ℕ} (hn : 0 < n) :
    invRoot n * invRoot n * n ≤ 2 ^ (2 * (130 + Nat.log2 n)) ∧
      2 ^ (2 * (130 + Nat.log2 n)) < (invRoot n + 1) * (invRoot n + 1) * n ∧ 2 ^ 119 ≤ invRoot n := by
  have hk : 2 ^ (2 * (130 + Nat.log2 n)) = 2 ^ (130 + Nat.log2 n) * 2 ^ (130 + Nat.log2 n) := by rw [← Nat.pow_add, Nat.two_mul]
  have hstart : 2 ^ (2 * (130 + Nat.log2 n)) / n < (0 + 2 ^ (130 + Nat.log2 n + 1)) * (0 + 2 ^ (130 + Nat.log2 n + 1)) := by
    refine (Nat.div_le_self _ _).trans_lt ?_
    rw [Nat.zero_add, ← Nat.pow_add]
    exact Nat.pow_lt_pow_right (by decide) (by omega)
  obtain ⟨h0, h1⟩ := isqrt_spec (2 ^ (2 * (130 + Nat.log2 n)) / n) (130 + Nat.log2 n + 1) 0 (Nat.zero_le _) hstart
  refine ⟨(Nat.le_div_iff_mul_le hn).mp h0, (Nat.div_lt_iff_lt_mul hn).mp h1, le_of_lt_succ_sq h1 ?_⟩
  rw [Nat.le_div_iff_mul_le hn, ← Nat.pow_add]
  calc 2 ^ (119 + 119) * n ≤ 2 ^ (119 + 119) * 2 ^ (Nat.log2 n + 1) := Nat.mul_le_mul_left _ Nat.lt_log2_self.le
    _ = 2 ^ (119 + 119 + (Nat.log2 n + 1)) := (Nat.pow_add ..).symm
    _ ≤ 2 ^ (2 * (130 + Nat.log2 n)) := Nat.pow_le_pow_right (by decide) (by omega)

/-- The reciprocal root between two whole numbers. -/
theorem invRoot_floor {n : ℕ} (hn : 0 < n) :
    (invRoot n : ℝ) ≤ 2 ^ (130 + Nat.log2 n) / √n ∧ (2 : ℝ) ^ (130 + Nat.log2 n) / √n < invRoot n + 1 ∧
      ((invRoot n * invRoot n * n != 2 ^ (2 * (130 + Nat.log2 n))) = true ↔ (invRoot n : ℝ) ≠ 2 ^ (130 + Nat.log2 n) / √n) := by
  obtain ⟨h0, h1, -⟩ := invRoot_spec hn
  have hs : (0 : ℝ) < √n := Real.sqrt_pos.mpr (by exact_mod_cast hn)
  have hsq (r : ℕ) : ((r : ℝ) * √n) ^ 2 = (r * r * n : ℕ) := by
    rw [mul_pow, Real.sq_sqrt (Nat.cast_nonneg n)]
    push_cast
    ring
  have hp : ((2 : ℝ) ^ (130 + Nat.log2 n)) ^ 2 = (2 ^ (2 * (130 + Nat.log2 n)) : ℕ) := by
    rw [← pow_mul, Nat.mul_comm]
    push_cast
    rfl
  have hr (r : ℕ) : 0 ≤ (r : ℝ) * √n := by positivity
  have hk : (0 : ℝ) ≤ 2 ^ (130 + Nat.log2 n) := by positivity
  refine ⟨?_, ?_, ?_⟩
  · rw [le_div_iff₀ hs, ← pow_le_pow_iff_left₀ (hr _) hk two_ne_zero, hsq, hp]
    exact_mod_cast h0
  · have h := hr (invRoot n + 1)
    rw [div_lt_iff₀ hs, ← Nat.cast_succ, ← pow_lt_pow_iff_left₀ hk h two_ne_zero, hsq, hp]
    exact_mod_cast h1
  · rw [bne_iff_ne, ne_eq, ne_eq, not_iff_not, eq_div_iff hs.ne', ← pow_left_inj₀ (hr _) hk two_ne_zero, hsq, hp]
    norm_cast

theorem fRsqrt_standsFor {m : ℕ} (hm : m ≠ 0) (e : ℤ) :
    StandsFor (fRsqrt (.fin false m e false)).1 (1 / √(dyadic false m e : ℚ)) := by
  have hn := evenSig_pos hm e
  obtain ⟨h0, h1, hi⟩ := invRoot_floor hn
  obtain ⟨-, -, hwide⟩ := invRoot_spec hn
  have h := standsFor_fin false (magOf_floor h0 h1 hi hwide (-evenExp e / 2 - (130 + Nat.log2 (evenSig m e) : ℕ)))
  have hroot : √(dyadic false m e : ℝ) = √(evenSig m e : ℝ) * 2 ^ (-(-evenExp e / 2)) := by
    have hhalf := evenExp_half e
    rw [← sqrt_even, show 2 * -(-evenExp e / 2) = evenExp e by omega, dyadic_real, evenSig_mul]
    rfl
  rw [fRsqrt_fin hm, hroot]
  convert h using 1
  have hs : (0 : ℝ) < √(evenSig m e) := Real.sqrt_pos.mpr (by exact_mod_cast hn)
  rw [zpow_sub₀ two_ne_zero, zpow_neg, zpow_natCast, if_neg (by decide)]
  field_simp

end Sys2Proof.Proofs.Float
end

section
/-!
PROOFS. The series of VFEXP2 (spec/05, R144, Table 5-6): how far the truncated series lies from the exponential of its fraction.
-/
namespace Sys2Proof.Proofs.Float
open Sys2Proof.Machine Sys2Proof.Claims

/-! ## Terms of the series -/

/-- The unit of the series: a term stands for its multiple of 2^-320. -/
def expUnit : ℕ := 2 ^ 320

theorem expUnit_split : expUnit = 2 ^ 160 * 2 ^ 160 := by
  rw [expUnit, ← Nat.pow_add]

theorem expUnit_pos : 0 < expUnit := by
  rw [expUnit_split]
  decide

theorem expSeries_succ (t n k term : ℕ) : expSeries t (n + 1) k term = term + expSeries t n (k + 1) (term * t / expUnit / (k + 1)) := rfl

/-- Term `k` of the exponential's series at `a`, in units. -/
noncomputable def expTerm (a : ℝ) (k : ℕ) : ℝ := expUnit * (a ^ k / k.factorial)

theorem expTerm_zero (a : ℝ) : expTerm a 0 = expUnit := by simp [expTerm]

theorem expTerm_succ (a : ℝ) (k : ℕ) : expTerm a (k + 1) = expTerm a k * a / (k + 1) := by
  simp only [expTerm, Nat.factorial_succ, pow_succ]
  push_cast
  field_simp

/-- A whole quotient is less than 1 below the quotient. -/
theorem natDiv_bounds (n : ℕ) {d : ℕ} (hd : d ≠ 0) : ((n / d : ℕ) : ℝ) ≤ n / d ∧ (n : ℝ) / d - 1 < (n / d : ℕ) := by
  obtain ⟨h0, h1, -⟩ := natDiv_floor n hd
  exact ⟨h0, by linarith⟩

section
variable {t : ℕ} (ht : t ≤ expUnit)
include ht

/-- One more term is cut off by less than 2 more. -/
theorem term_step {k term : ℕ} {c : ℝ} (hhi : (term : ℝ) ≤ expTerm (t / expUnit) k) (hlo : expTerm (t / expUnit) k - c ≤ term)
    (hc : 0 ≤ c) :
    ((term * t / expUnit / (k + 1) : ℕ) : ℝ) ≤ expTerm (t / expUnit) (k + 1) ∧
      expTerm (t / expUnit) (k + 1) - (c + 2) ≤ (term * t / expUnit / (k + 1) : ℕ) := by
  have hU : (0 : ℝ) < expUnit := by exact_mod_cast expUnit_pos
  have ha0 : (0 : ℝ) ≤ t / expUnit := by positivity
  have ha1 : (t : ℝ) / expUnit ≤ 1 := (div_le_one hU).mpr (by exact_mod_cast ht)
  have hk : (1 : ℝ) ≤ k + 1 := by simp
  obtain ⟨h1, h2⟩ := natDiv_bounds (term * t) expUnit_pos.ne'
  obtain ⟨h3, h4⟩ := natDiv_bounds (term * t / expUnit) k.succ_ne_zero
  rw [Nat.cast_mul, mul_div_assoc] at h1 h2
  rw [Nat.cast_succ] at h3 h4
  have hhi' : (term : ℝ) * (t / expUnit) ≤ expTerm (t / expUnit) k * (t / expUnit) := mul_le_mul_of_nonneg_right hhi ha0
  have hlo' : expTerm (t / expUnit) k * (t / expUnit) - c ≤ term * (t / expUnit) := by nlinarith
  rw [expTerm_succ]
  constructor
  · exact h3.trans (div_le_div_of_nonneg_right (h1.trans hhi') (by linarith))
  · have hq : (expTerm (t / expUnit) k * (t / expUnit) - (c + 1)) / (k + 1) ≤ ((term * t / expUnit : ℕ) : ℝ) / (k + 1) :=
      div_le_div_of_nonneg_right (by linarith) (by linarith)
    have hc1 : (c + 1) / (k + 1 : ℝ) ≤ c + 1 := div_le_self (add_nonneg hc zero_le_one) hk
    rw [sub_div] at hq
    linarith

/-- The series from term `k` on lies below the exact terms by a little. -/
theorem expSeries_bounds (n k term : ℕ) {c : ℝ} (hhi : (term : ℝ) ≤ expTerm (t / expUnit) k)
    (hlo : expTerm (t / expUnit) k - c ≤ term) (hc : 0 ≤ c) :
    (expSeries t n k term : ℝ) ≤ ∑ j ∈ Finset.range n, expTerm (t / expUnit) (k + j) ∧
      ∑ j ∈ Finset.range n, expTerm (t / expUnit) (k + j) - n * (c + 2 * n) ≤ expSeries t n k term := by
  induction n generalizing k term c with
  | zero => simp [expSeries]
  | succ n ih =>
    obtain ⟨h1, h2⟩ := term_step ht hhi hlo hc
    obtain ⟨h3, h4⟩ := ih (k + 1) _ h1 h2 (by linarith)
    have hsum : ∑ j ∈ Finset.range (n + 1), expTerm (t / expUnit) (k + j) =
        ∑ j ∈ Finset.range n, expTerm (t / expUnit) (k + 1 + j) + expTerm (t / expUnit) k := by
      rw [Finset.sum_range_succ', add_zero]
      exact congrArg (· + _) (Finset.sum_congr rfl fun j _ => congrArg _ (by omega))
    rw [expSeries_succ, hsum]
    push_cast
    constructor
    · linarith
    · nlinarith [(Nat.cast_nonneg n : (0 : ℝ) ≤ n)]

/-- The series as an exact sum of powers, but for what is cut off. -/
theorem expSeries_sum (n : ℕ) :
    (expSeries t n 0 expUnit : ℝ) ≤ expUnit * ∑ j ∈ Finset.range n, ((t : ℝ) / expUnit) ^ j / j.factorial ∧
      expUnit * ∑ j ∈ Finset.range n, ((t : ℝ) / expUnit) ^ j / j.factorial - n * (2 * n) ≤ expSeries t n 0 expUnit := by
  have h := expSeries_bounds ht n 0 expUnit (c := 0) (expTerm_zero _).ge (by simp [expTerm_zero]) le_rfl
  simpa only [Nat.zero_add, zero_add, expTerm, ← Finset.mul_sum] using h

/-- Eighty terms make up the exponential but for 2^-40. -/
theorem expSeries_exp :
    (expSeries t 80 0 expUnit : ℝ) / expUnit ≤ Real.exp (t / expUnit) ∧
      Real.exp (t / expUnit) - 2 / 2 ^ 40 ≤ (expSeries t 80 0 expUnit : ℝ) / expUnit := by
  have hU : (0 : ℝ) < expUnit := by exact_mod_cast expUnit_pos
  have ha0 : (0 : ℝ) ≤ t / expUnit := by positivity
  have ha1 : (t : ℝ) / expUnit ≤ 1 := (div_le_one hU).mpr (by exact_mod_cast ht)
  obtain ⟨hhi, hlo⟩ := expSeries_sum ht 80
  have htail : Real.exp (t / expUnit) - ∑ j ∈ Finset.range 80, ((t : ℝ) / expUnit) ^ j / j.factorial ≤ 1 / 2 ^ 40 := by
    have h := Real.exp_bound' ha0 ha1 (n := 80) (by decide)
    have hfac : ((t : ℝ) / expUnit) ^ 80 * (80 + 1) / ((80).factorial * 80) ≤ 1 / 2 ^ 40 := by
      have hpow : ((t : ℝ) / expUnit) ^ 80 ≤ 1 := pow_le_one₀ ha0 ha1
      have hf : (2 : ℝ) ^ 79 ≤ (80).factorial := by exact_mod_cast (by decide : 2 ^ 79 ≤ (80).factorial)
      rw [div_le_div_iff₀ (by positivity) (by positivity)]
      nlinarith
    push_cast at h
    linarith
  have hsum := Real.sum_le_exp_of_nonneg ha0 80
  have hround : (80 : ℝ) * (2 * 80) ≤ 1 / 2 ^ 40 * expUnit := by
    rw [expUnit_split]
    norm_num
  constructor
  · rw [div_le_iff₀ hU]
    nlinarith
  · rw [le_div_iff₀ hU]
    push_cast at hlo
    nlinarith

end

/-! ## The base -/

/-- The model's logarithm of 2 is right to nine digits. -/
theorem ln2Bits_close : |(ln2Bits : ℝ) / expUnit - Real.log 2| ≤ 1 / 2 ^ 31 := by
  have hU : (0 : ℝ) < expUnit := by exact_mod_cast expUnit_pos
  have h1 := Real.log_two_gt_d9
  have h2 := Real.log_two_lt_d9
  have h3 : (0.69314718055 : ℝ) ≤ ln2Bits / expUnit := by
    rw [le_div_iff₀ hU, expUnit_split, ln2Bits]
    norm_num
  have h4 : (ln2Bits : ℝ) / expUnit ≤ 0.69314718056 := by
    rw [div_le_iff₀ hU, expUnit_split, ln2Bits]
    norm_num
  rw [abs_le]
  constructor <;> norm_num at * <;> linarith

end Sys2Proof.Proofs.Float
end

section
/-!
PROOFS. VFEXP2 (spec/05, R144, Table 5-6): the fraction and the whole part of the exponent, the error of the power, what lies beyond
every format; and the statement about the three functions put together (O10).
-/
namespace Sys2Proof.Proofs.Float
open Sys2Proof.Machine Sys2Proof.Claims

/-! ## The power of the fraction -/

/-- The exponent of the series is the fraction's logarithm, cut off. -/
theorem expFraction_close {f d : ℕ} (hf : f < d) :
    f * ln2Bits / d ≤ expUnit ∧
      |((f * ln2Bits / d : ℕ) : ℝ) / expUnit - f / d * Real.log 2| ≤ 1 / 2 ^ 31 + 1 / 2 ^ 40 := by
  have hd : (0 : ℝ) < d := by exact_mod_cast (Nat.zero_le f).trans_lt hf
  have hU : (0 : ℝ) < expUnit := by exact_mod_cast expUnit_pos
  have hx0 : (0 : ℝ) ≤ f / d := by positivity
  have hx1 : (f : ℝ) / d ≤ 1 := (div_le_one hd).mpr (by exact_mod_cast hf.le)
  obtain ⟨h1, h2⟩ := natDiv_bounds (f * ln2Bits) (Nat.ne_of_gt ((Nat.zero_le f).trans_lt hf))
  constructor
  · have hL : ln2Bits ≤ expUnit := by
      rw [expUnit_split, ln2Bits]
      norm_num
    exact (Nat.div_le_of_le_mul (Nat.mul_le_mul_right _ hf.le)).trans hL
  · have hcut : |((f * ln2Bits / d : ℕ) : ℝ) / expUnit - f / d * (ln2Bits / expUnit)| ≤ 1 / 2 ^ 40 := by
      have h40 : (1 : ℝ) / expUnit ≤ 1 / 2 ^ 40 := by
        rw [expUnit_split]
        norm_num
      have hs : (f : ℝ) / d * (ln2Bits / expUnit) = f * ln2Bits / d / expUnit := by ring
      rw [Nat.cast_mul] at h1 h2
      rw [hs, ← sub_div, abs_div, abs_of_pos hU]
      refine (div_le_div_of_nonneg_right (abs_le.mpr ⟨by linarith, by linarith⟩) hU.le).trans h40
    have hlog : |(f : ℝ) / d * (ln2Bits / expUnit) - f / d * Real.log 2| ≤ 1 / 2 ^ 31 := by
      rw [← mul_sub, abs_mul, abs_of_nonneg hx0]
      exact (mul_le_of_le_one_left (abs_nonneg _) hx1).trans ln2Bits_close
    have := abs_sub_le (((f * ln2Bits / d : ℕ) : ℝ) / expUnit) (f / d * (ln2Bits / expUnit)) (f / d * Real.log 2)
    linarith

/-- Exponentials of numbers that lie close together. -/
theorem exp_close {a y : ℝ} (h : |a - y| ≤ 1 / 2 ^ 31 + 1 / 2 ^ 40) : |Real.exp a - Real.exp y| ≤ Real.exp y * (1 / 2 ^ 31 + 1 / 2 ^ 39) := by
  have h1 := Real.abs_exp_sub_one_sub_id_le (x := a - y) (h.trans (by norm_num))
  have hsq : (a - y) ^ 2 ≤ (1 / 2 ^ 31 + 1 / 2 ^ 40) ^ 2 := sq_le_sq' (abs_le.mp h).1 (abs_le.mp h).2
  have h2 : |Real.exp (a - y) - 1| ≤ 1 / 2 ^ 31 + 1 / 2 ^ 39 := by
    rw [abs_le] at h h1 ⊢
    norm_num at *
    constructor <;> linarith
  have hfac : Real.exp a - Real.exp y = Real.exp y * (Real.exp (a - y) - 1) := by
    rw [mul_sub, ← Real.exp_add, add_sub_cancel, mul_one]
  rw [hfac, abs_mul, Real.abs_exp]
  exact mul_le_mul_of_nonneg_left h2 (Real.exp_pos y).le

/-- A series that lies close to the power, without its low 64 bits. -/
theorem sig_close {n : ℕ} {a p : ℝ} (hp : 1 ≤ p) (ha : |a - p| ≤ p * (1 / 2 ^ 31 + 1 / 2 ^ 39)) (h1 : (n : ℝ) / expUnit ≤ a)
    (h2 : a - 2 / 2 ^ 40 ≤ (n : ℝ) / expUnit) :
    |((n / 2 ^ 64 : ℕ) : ℝ) / 2 ^ 256 - p| ≤ p * (2 : ℝ) ^ (-30 : ℤ) ∧ 2 ^ 119 ≤ n / 2 ^ 64 := by
  obtain ⟨h3, h4⟩ := natDiv_bounds n (d := 2 ^ 64) (by positivity)
  obtain ⟨ha1, ha2⟩ := abs_le.mp ha
  have hU : (expUnit : ℝ) = 2 ^ 64 * 2 ^ 256 := by
    rw [expUnit_split]
    norm_num
  have hM1 : ((n / 2 ^ 64 : ℕ) : ℝ) / 2 ^ 256 ≤ n / expUnit := by
    rw [hU, ← div_div]
    rw [Nat.cast_pow, Nat.cast_ofNat] at h3
    exact div_le_div_of_nonneg_right h3 (by positivity)
  have hM2 : (n : ℝ) / expUnit - 1 / 2 ^ 40 ≤ ((n / 2 ^ 64 : ℕ) : ℝ) / 2 ^ 256 := by
    rw [hU, ← div_div]
    rw [Nat.cast_pow, Nat.cast_ofNat] at h4
    have h5 := div_le_div_of_nonneg_right h4.le (show (0 : ℝ) ≤ 2 ^ 256 by positivity)
    rw [sub_div] at h5
    refine (sub_le_sub_left ?_ _).trans h5
    norm_num
  have habs : |((n / 2 ^ 64 : ℕ) : ℝ) / 2 ^ 256 - p| ≤ p * (2 : ℝ) ^ (-30 : ℤ) := by
    generalize ((n / 2 ^ 64 : ℕ) : ℝ) / 2 ^ 256 = y at hM1 hM2
    have hz : (2 : ℝ) ^ (-30 : ℤ) = 1 / 2 ^ 30 := by norm_num
    rw [abs_le, hz]
    constructor <;> linarith
  refine ⟨habs, ?_⟩
  have hlow : (1 : ℝ) / 2 ≤ ((n / 2 ^ 64 : ℕ) : ℝ) / 2 ^ 256 := by
    have hz : (2 : ℝ) ^ (-30 : ℤ) ≤ 1 / 2 := by norm_num
    have := (abs_le.mp habs).1
    nlinarith
  rw [le_div_iff₀ (by positivity)] at hlow
  have hbig : (2 : ℝ) ^ 119 ≤ (n / 2 ^ 64 : ℕ) := by
    refine LE.le.trans ?_ hlow
    norm_num
  exact_mod_cast hbig

/-- The significand that VFEXP2 takes for a fraction f / d. -/
def expSig (f d : ℕ) : ℕ := expSeries (f * ln2Bits / d) 80 0 expUnit / 2 ^ 64

theorem expSig_close {f d : ℕ} (hf : f < d) :
    |(expSig f d : ℝ) / 2 ^ 256 - (2 : ℝ) ^ ((f : ℝ) / d)| ≤ (2 : ℝ) ^ ((f : ℝ) / d) * (2 : ℝ) ^ (-30 : ℤ) ∧ 2 ^ 119 ≤ expSig f d := by
  obtain ⟨ht, hclose⟩ := expFraction_close hf
  obtain ⟨h1, h2⟩ := expSeries_exp ht
  have hpow : (2 : ℝ) ^ ((f : ℝ) / d) = Real.exp (f / d * Real.log 2) := by rw [Real.rpow_def_of_pos two_pos, mul_comm (Real.log 2)]
  have hge : 1 ≤ Real.exp (f / d * Real.log 2) :=
    Real.one_le_exp (mul_nonneg (div_nonneg f.cast_nonneg d.cast_nonneg) (Real.log_pos one_lt_two).le)
  rw [hpow]
  exact sig_close hge (exp_close hclose) h1 h2

/-! ## Whole part and fraction of the exponent -/

/-- The exponent in units of 2^-(-e) where e is below 0, and of 1 otherwise. -/
def expScaled (neg : Bool) (m : ℕ) (e : ℤ) : ℤ := if neg then -(m * 2 ^ e.toNat : ℕ) else (m * 2 ^ e.toNat : ℕ)
def expDen (e : ℤ) : ℕ := 2 ^ (-e).toNat
def expWhole (neg : Bool) (m : ℕ) (e : ℤ) : ℤ := expScaled neg m e / expDen e
def expFrac (neg : Bool) (m : ℕ) (e : ℤ) : ℕ := (expScaled neg m e % expDen e).toNat

theorem expDen_pos (e : ℤ) : 0 < expDen e := Nat.two_pow_pos _

theorem expFrac_lt (neg : Bool) (m : ℕ) (e : ℤ) : expFrac neg m e < expDen e := by
  have hd : (0 : ℤ) < expDen e := by exact_mod_cast expDen_pos e
  have := Int.emod_lt_of_pos (expScaled neg m e) hd
  have := Int.emod_nonneg (expScaled neg m e) hd.ne'
  unfold expFrac
  omega

theorem expScaled_eq (neg : Bool) (m : ℕ) (e : ℤ) : expScaled neg m e = expWhole neg m e * expDen e + expFrac neg m e := by
  have hd : (expDen e : ℤ) ≠ 0 := by exact_mod_cast (expDen_pos e).ne'
  rw [expFrac, Int.toNat_of_nonneg (Int.emod_nonneg _ hd), expWhole, Int.ediv_mul_add_emod]

theorem dyadic_mul_expDen (neg : Bool) (m : ℕ) (e : ℤ) : dyadic neg m e * expDen e = expScaled neg m e := by
  have he : (2 : ℚ) ^ e * 2 ^ (-e).toNat = 2 ^ e.toNat := by
    rw [← zpow_natCast, ← zpow_natCast, ← zpow_add₀ two_ne_zero]
    congr 1
    omega
  rw [dyadic, expDen, mul_assoc, Nat.cast_pow, Nat.cast_ofNat, he, expScaled]
  cases neg <;> push_cast <;> simp

theorem dyadic_eq_whole_add_frac (neg : Bool) (m : ℕ) (e : ℤ) :
    dyadic neg m e = expWhole neg m e + (expFrac neg m e : ℚ) / expDen e := by
  have hd : (expDen e : ℚ) ≠ 0 := by exact_mod_cast (expDen_pos e).ne'
  rw [← mul_left_inj' hd, dyadic_mul_expDen, expScaled_eq, add_mul, div_mul_cancel₀ _ hd]
  push_cast
  rfl

/-- The fraction is 0 exactly for a whole exponent. -/
theorem expFrac_eq_zero {neg : Bool} {m : ℕ} {e i : ℤ} (h : dyadic neg m e = i) : expFrac neg m e = 0 ∧ expWhole neg m e = i := by
  have hd : (0 : ℤ) < expDen e := by exact_mod_cast expDen_pos e
  have hs : expScaled neg m e = i * expDen e := by
    have := dyadic_mul_expDen neg m e
    rw [h] at this
    exact_mod_cast this.symm
  rw [expFrac, expWhole, hs, Int.mul_emod_left, Int.mul_ediv_cancel _ hd.ne']
  exact ⟨rfl, rfl⟩

/-- The exponent's magnitude tells whether the power lies beyond every format. -/
theorem far_iff {m : ℕ} (hm : m ≠ 0) (neg : Bool) (e : ℤ) : 12 ≤ (Nat.log2 m : ℤ) + e ↔ 4096 ≤ |dyadic neg m e| := by
  have hmag : MagOf m e false (m * (2 : ℝ) ^ e) := ⟨0, by simp, .inl ⟨rfl, rfl⟩⟩
  obtain ⟨h0, h1⟩ := Rounding.magOf_binade hmag hm
  have h := Rounding.lt_two_zpow_iff h0 h1 12
  have habs : |dyadic neg m e| = m * 2 ^ e := by
    have h2 : (0 : ℚ) ≤ m * 2 ^ e := by positivity
    cases neg <;> simp [dyadic, abs_of_nonneg h2]
  have h12 : (2 : ℝ) ^ (12 : ℤ) = (4096 : ℚ) := by norm_num
  rw [h12, show (m : ℝ) * 2 ^ e = ((m * 2 ^ e : ℚ) : ℝ) by push_cast; rfl, Rat.cast_lt, ← habs] at h
  rw [← not_lt, ← not_lt, h]

theorem fExp2_zero (neg : Bool) (e : ℤ) : fExp2 (.fin neg 0 e false) = (.fin false 1 0 false, 0) := rfl

theorem fExp2_far {m : ℕ} (hm : m ≠ 0) {neg : Bool} {e : ℤ} (h : 4096 ≤ |dyadic neg m e|) :
    fExp2 (.fin neg m e false) = (.fin false 1 (if neg then -4000 else 4000) true, 0) := by
  simp only [fExp2, if_neg hm, if_pos ((far_iff hm neg e).mpr h)]
  cases neg <;> rfl

theorem fExp2_near {m : ℕ} (hm : m ≠ 0) {neg : Bool} {e : ℤ} (h : |dyadic neg m e| < 4096) :
    fExp2 (.fin neg m e false) =
      if expFrac neg m e = 0 then (.fin false 1 (expWhole neg m e) false, 0)
      else (.fin false (expSig (expFrac neg m e) (expDen e)) (expWhole neg m e - 256) true, 0) := by
  have hfar : ¬ 12 ≤ (Nat.log2 m : ℤ) + e := fun hf => absurd ((far_iff hm neg e).mp hf) h.not_ge
  simp only [fExp2, if_neg hm, if_neg hfar]
  rfl

/-- Table 5-6 for an exponent that is a whole number. -/
theorem fExp2_whole {neg : Bool} {m : ℕ} {e i : ℤ} (h : dyadic neg m e = i) (hi : i.natAbs < 4096) :
    fExp2 (.fin neg m e false) = (.fin false 1 i false, 0) := by
  by_cases hm : m = 0
  · obtain rfl : i = 0 := by
      rw [hm, dyadic_zero] at h
      exact_mod_cast h.symm
    rw [hm, fExp2_zero]
  · obtain ⟨hf, hw⟩ := expFrac_eq_zero h
    have hnear : |dyadic neg m e| < 4096 := by
      rw [h, ← Int.cast_abs, Int.abs_eq_natAbs]
      exact_mod_cast hi
    rw [fExp2_near hm hnear, if_pos hf, hw]

/-- Table 5-6 for a fraction: within 2^-30 of the power. -/
theorem fExp2_fraction {neg : Bool} {m : ℕ} {e : ℤ} (h : ∀ i : ℤ, dyadic neg m e ≠ i) (hnear : |dyadic neg m e| < 4096) :
    ∃ k j, fExp2 (.fin neg m e false) = (.fin false k j true, 0) ∧ 2 ^ 119 ≤ k ∧
      |(k : ℝ) * (2 : ℝ) ^ j - (2 : ℝ) ^ ((dyadic neg m e : ℚ) : ℝ)| ≤ (2 : ℝ) ^ ((dyadic neg m e : ℚ) : ℝ) * (2 : ℝ) ^ (-30 : ℤ) := by
  have hm : m ≠ 0 := by
    rintro rfl
    exact h 0 (by rw [dyadic_zero, Int.cast_zero])
  have hsplit := dyadic_eq_whole_add_frac neg m e
  have hf : expFrac neg m e ≠ 0 := fun hf => h (expWhole neg m e) (by rw [hsplit, hf, Nat.cast_zero, zero_div, add_zero])
  obtain ⟨hclose, hwide⟩ := expSig_close (expFrac_lt neg m e)
  refine ⟨_, _, (fExp2_near hm hnear).trans (if_neg hf), hwide, ?_⟩
  have hpow : (2 : ℝ) ^ ((dyadic neg m e : ℚ) : ℝ) = 2 ^ expWhole neg m e * (2 : ℝ) ^ ((expFrac neg m e : ℝ) / expDen e) := by
    rw [hsplit, ← Real.rpow_intCast, ← Real.rpow_add two_pos]
    push_cast
    rfl
  have hsig : (expSig (expFrac neg m e) (expDen e) : ℝ) * 2 ^ (expWhole neg m e - 256) =
      2 ^ expWhole neg m e * ((expSig (expFrac neg m e) (expDen e) : ℝ) / 2 ^ 256) := by
    rw [zpow_sub₀ two_ne_zero]
    norm_cast
    ring
  rw [hpow, hsig, ← mul_sub, abs_mul, abs_of_pos (show (0 : ℝ) < 2 ^ expWhole neg m e by positivity), mul_assoc]
  exact mul_le_mul_of_nonneg_left hclose (by positivity)

/-! ## Powers beyond every format -/

/-- A magnitude of less than a quarter of the smallest subnormal rounds to +0 under round-to-nearest-even. -/
theorem rnd_rne_tiny (f : Fmt) {e : ℤ} (h : e + 2 ≤ f.emin - f.mb) (st : Fst) :
    rnd f .rne false (.fin false 1 e true) st = (0, st.raise 0x18) := by
  have hg : Rounding.gridExp f 1 e = f.emin := by
    simp only [Rounding.gridExp, show Nat.log2 1 = 0 by decide, Nat.cast_zero, zero_add]
    omega
  obtain ⟨k, hk⟩ : ∃ k, (f.emin - f.mb - e).toNat = k + 2 := ⟨(f.emin - f.mb - e).toNat - 2, by omega⟩
  have h4 : 4 ≤ 2 ^ (k + 2) := by
    rw [Nat.pow_add]
    exact Nat.le_mul_of_pos_left _ (Nat.two_pow_pos k)
  have hcut : cut 1 e true (f.emin - f.mb) = ⟨0, 1, k + 2, true⟩ := by
    rw [cut, if_neg (by omega), hk]
    simp only [Nat.div_eq_of_lt (show 1 < 2 ^ (k + 2) by omega), Nat.mod_eq_of_lt (show 1 < 2 ^ (k + 2) by omega), Bool.true_or]
  have hup : (⟨0, 1, k + 2, true⟩ : Cut).up true false .rne 0 = false := by
    simp only [Cut.up, Bool.or_eq_false_iff, Bool.and_eq_false_iff, decide_eq_false_iff_not]
    omega
  have hsteps : Rounding.roundedSteps f .rne false 1 e true st = 0 := by
    rw [Rounding.roundedSteps, hg, hcut, Rounding.stepsOf]
    change (if true && (⟨0, 1, k + 2, true⟩ : Cut).up true false .rne 0 then 0 + 1 else 0) = 0
    rw [hup]
    rfl
  have htiny : (Nat.log2 1 : ℤ) + e < f.emin := by
    rw [show Nat.log2 1 = 0 by decide, Nat.cast_zero]
    omega
  rw [Rounding.rnd_fin one_ne_zero]
  simp only [hsteps, hg, hcut, if_pos htiny, ne_eq, not_true, false_and, if_false, if_true]
  rfl

theorem rnd_rne_huge (st : Fst) :
    rnd .f32 .rne false (.fin false 1 4000 true) st = (0x7F800000, st.raise 0x14) ∧
      rnd .bf16 .rne false (.fin false 1 4000 true) st = (0x7F80, st.raise 0x14) := ⟨rfl, rfl⟩

theorem fExp2_flags (x : FV) : (fExp2 x).2 = 0 := by
  cases x with
  | fin neg m e b =>
    simp only [fExp2]
    split
    · rfl
    · split
      · rfl
      · generalize (if neg then _ else _ : ℤ) = v
        split <;> rfl
  | _ => rfl

/-- Settles O10: the power of the fraction is the truncated series of a close exponent, the reciprocal a quotient and the reciprocal root
the root of one. -/
theorem powersReciprocals : Obligations.PowersReciprocals := by
  refine ⟨fun x u hx hs => ?numbers, rfl, rfl, rfl, rfl, ⟨?zero, rfl, rfl⟩, fun b => ⟨?zeros, rfl, rfl⟩, ⟨?zero, rfl, rfl⟩, rfl⟩
  case zero => exact (ratOf_fin false 0 0).trans (congrArg some (dyadic_zero _ 0))
  case zeros => exact (ratOf_fin b 0 0).trans (congrArg some (dyadic_zero _ 0))
  case numbers =>
    obtain ⟨neg, m, e, rfl, rfl⟩ := exists_fin hx
    refine ⟨fun i h hi => fExp2_whole h hi, fun h hnear => fExp2_fraction h hnear, fun f st hf => ⟨fun hu => ?huge, fun hu => ?tiny⟩,
      fExp2_flags _, fun hu => ?rcp, fun hu => ?byZero, fun hu => ?rsqrt, fun hu => ?negative⟩
    case huge =>
      obtain ⟨rfl, hm⟩ := sign_of_pos (show 0 < dyadic neg m e by linarith)
      obtain ⟨h32, h16⟩ := rnd_rne_huge st
      rw [fExp2_far hm (by rwa [abs_of_nonneg (dyadic_false_nonneg m e)])]
      rcases hf with rfl | rfl
      · exact h32
      · exact h16
    case tiny =>
      obtain ⟨rfl, hm⟩ := sign_of_neg (show dyadic neg m e < 0 by linarith)
      rw [fExp2_far hm (by rw [abs_of_nonpos (dyadic_true_nonpos m e)]; linarith)]
      rcases hf with rfl | rfl
      · exact rnd_rne_tiny .f32 (by decide) st
      · exact rnd_rne_tiny .bf16 (by decide) st
    case rcp =>
      have hm := mt dyadic_eq_zero.mpr hu
      exact ⟨fRcp_standsFor hm neg e, by rw [fRcp_fin hm]; rfl, by rw [fRcp_fin hm]⟩
    case byZero =>
      rw [dyadic_eq_zero.mp hu]
      exact ⟨rfl, rfl⟩
    case rsqrt =>
      obtain ⟨rfl, hm⟩ := sign_of_pos hu
      exact ⟨fRsqrt_standsFor hm e, by rw [fRsqrt_fin hm]; rfl, by rw [fRsqrt_fin hm]⟩
    case negative =>
      obtain ⟨rfl, hm⟩ := sign_of_neg hu
      simp only [fRsqrt, if_neg hm, if_true]
      rfl

end Sys2Proof.Proofs.Float
end

section
/-!
PROOFS. Codes of the formats with infinities and NaN (spec/03, R73, Table 3-2): what a code stands for, that it is the only one for its
value, that it rounds to itself, and that RND delivers a code of the format's width.
-/
namespace Sys2Proof.Proofs.Float
open Sys2Proof.Machine Sys2Proof.Claims Sys2Proof.Proofs.Rounding

/-- A format of IEEE 754's kind: its top binade holds the infinities and NaN. -/
structure IsIeee (f : Fmt) : Prop where
  tops : f.tops = .ieee
  eb_pos : 0 < f.eb
  mb_pos : 0 < f.mb

theorem isIeee_prec (p : Prec) : IsIeee (fmtOfPrec p) := by
  cases p <;> exact ⟨rfl, by decide, by decide⟩

theorem isIeee_ty (ty : Ty) : IsIeee (fmtOfTy ty) := by
  cases ty <;> exact ⟨rfl, by decide, by decide⟩

/-! ## Sign and magnitude -/

/-- Magnitude bits of a code. -/
def codeMag (f : Fmt) (c : ℕ) : ℕ := c % 2 ^ (f.eb + f.mb)

theorem codeMag_lt (f : Fmt) (c : ℕ) : codeMag f c < 2 ^ (f.eb + f.mb) := Nat.mod_lt _ (Nat.two_pow_pos _)

theorem two_pow_width (f : Fmt) : 2 ^ f.width = 2 * 2 ^ (f.eb + f.mb) := by rw [Fmt.width, Nat.add_assoc, Nat.pow_add, Nat.pow_one]

/-- A code is its sign bit before its magnitude bits. -/
theorem signed_codeMag {f : Fmt} {c : ℕ} (hc : c < 2 ^ f.width) : f.signed (bit c (f.eb + f.mb)) (codeMag f c) = c := by
  rw [two_pow_width] at hc
  have hdiv := Nat.div_add_mod' c (2 ^ (f.eb + f.mb))
  have hlt : c / 2 ^ (f.eb + f.mb) < 2 := Nat.div_lt_of_lt_mul (by rwa [Nat.mul_comm])
  unfold Fmt.signed codeMag
  rcases Nat.le_one_iff_eq_zero_or_eq_one.mp (Nat.lt_succ_iff.mp hlt) with h | h
  · rw [bit_false (by rw [h]), if_neg (by decide)]
    rw [h] at hdiv
    omega
  · rw [bit_true (by rw [h]), if_pos rfl]
    rw [h] at hdiv
    omega

theorem signed_lt {f : Fmt} (neg : Bool) {g : ℕ} (hg : g < 2 ^ (f.eb + f.mb)) : f.signed neg g < 2 ^ f.width := (signed_parts f neg hg).1

/-! ## Exact values -/

theorem cut_self (m : ℕ) (e : ℤ) : cut m e false e = ⟨m, 0, 0, false⟩ := by simp [cut]

/-- An exact cut of a number that is not 0 has whole steps. -/
theorem lo_ne_zero_of_exact {m : ℕ} (hm : m ≠ 0) {e qe : ℤ} {b : Bool} (hi : (cut m e b qe).inexact = false) : (cut m e b qe).lo ≠ 0 := by
  unfold cut at hi ⊢
  split at hi
  next hq =>
    rw [if_pos hq]
    exact Nat.mul_ne_zero hm (Nat.two_pow_pos _).ne'
  next hq =>
    rw [if_neg hq]
    intro hlo
    have hmod : m % 2 ^ (qe - e).toNat = 0 := by simpa using (Bool.or_eq_false_iff.mp hi).2
    have hdiv := Nat.div_add_mod' m (2 ^ (qe - e).toNat)
    rw [show m / 2 ^ (qe - e).toNat = 0 from hlo, hmod, Nat.zero_mul] at hdiv
    exact hm hdiv.symm

/-- A value on the grid of its binade keeps its significand. -/
theorem rnd_on_grid {f : Fmt} {m : ℕ} {e : ℤ} (hm : m ≠ 0) (hgrid : gridExp f m e - f.mb = e) {g : ℕ}
    (hcode : (gridExp f m e + f.bias - 1).toNat * 2 ^ f.mb + m = g) (hg : g ≤ f.maxCode) (neg : Bool) (st : Fst) :
    rnd f .rne false (.fin neg m e false) st = (f.signed neg g, st) := by
  have hsteps : roundedSteps f .rne neg m e false st = m := by
    rw [roundedSteps, hgrid, cut_self]
    rfl
  have hrc : roundedCode f .rne neg m e false st = g := by rw [roundedCode, hsteps, hcode]
  rw [rnd_fits hm false (fun h0 => absurd (hsteps.symm.trans h0) hm) (hrc ▸ hg), hrc, roundedFlags, hgrid, cut_self]
  simp [Fst.draw, Fst.raise]

section
variable {f : Fmt} (h : IsIeee f)
include h

theorem maxCode_eq : f.maxCode = (2 ^ f.eb - 1) * 2 ^ f.mb - 1 := by rw [Fmt.maxCode, h.tops]

/-- Decode of a sign and a magnitude: above the largest finite magnitude stand infinity and then NaN. -/
theorem decode_signed (neg : Bool) {g : ℕ} (hg : g < 2 ^ (f.eb + f.mb)) :
    f.decode (f.signed neg g) =
      if g / 2 ^ f.mb = 2 ^ f.eb - 1 then (if g % 2 ^ f.mb = 0 then .inf neg else .nan)
      else if g / 2 ^ f.mb = 0 then .fin neg (g % 2 ^ f.mb) (f.emin - f.mb) false
      else .fin neg (2 ^ f.mb + g % 2 ^ f.mb) (((g / 2 ^ f.mb : ℕ) : ℤ) - f.bias - f.mb) false := by
  obtain ⟨-, hbit, hbits, hmod⟩ := signed_parts f neg hg
  simp only [Fmt.decode, hbit, hbits, hmod, h.tops, true_and, reduceCtorEq, false_and, if_false]

/-- The largest finite magnitude lies just below the top binade. -/
theorem le_maxCode_of_not_top {g : ℕ} (hg : g < 2 ^ (f.eb + f.mb)) (ht : g / 2 ^ f.mb ≠ 2 ^ f.eb - 1) : g ≤ f.maxCode := by
  have hlt : g / 2 ^ f.mb < 2 ^ f.eb := by
    rw [Nat.div_lt_iff_lt_mul (Nat.two_pow_pos _), ← Nat.pow_add]
    exact hg
  have : g < (2 ^ f.eb - 1) * 2 ^ f.mb := by
    rw [← Nat.div_lt_iff_lt_mul (Nat.two_pow_pos _)]
    omega
  rw [maxCode_eq h]
  omega

/-- What a code of the format's width stands for. -/
theorem code_cases {c : ℕ} (hc : c < 2 ^ f.width) :
    f.decode c = .nan ∨ (∃ neg, f.decode c = .inf neg ∧ c = f.inf neg) ∨
      ∃ neg g m e, f.decode c = .fin neg m e false ∧ c = f.signed neg g ∧ g ≤ f.maxCode ∧ valueOf f g = m * (2 : ℝ) ^ e := by
  have hg := codeMag_lt f c
  have hd := decode_signed h (bit c (f.eb + f.mb)) hg
  rw [signed_codeMag hc] at hd
  by_cases ht : codeMag f c / 2 ^ f.mb = 2 ^ f.eb - 1
  · rw [if_pos ht] at hd
    by_cases hm : codeMag f c % 2 ^ f.mb = 0
    · rw [if_pos hm] at hd
      refine .inr (.inl ⟨_, hd, ?_⟩)
      rw [Fmt.inf, ← ht, Nat.div_mul_cancel (Nat.dvd_of_mod_eq_zero hm), signed_codeMag hc]
    · exact .inl (by rw [hd, if_neg hm])
  · have hle := le_maxCode_of_not_top h hg ht
    obtain ⟨-, m, e, hfin, hval⟩ := codeOf_signed h.eb_pos (bit c (f.eb + f.mb)) hle
    rw [signed_codeMag hc] at hfin
    exact .inr (.inr ⟨_, _, m, e, hfin, (signed_codeMag hc).symm, hle, hval⟩)

/-! ## A code rounds to itself -/

theorem rnd_finite_code (neg : Bool) {g : ℕ} (hg : g ≤ f.maxCode) (st : Fst) :
    rnd f .rne false (f.decode (f.signed neg g)) st = (f.signed neg g, st) := by
  have hdiv := Nat.div_add_mod' g (2 ^ f.mb)
  have hmod : g % 2 ^ f.mb < 2 ^ f.mb := Nat.mod_lt _ (Nat.two_pow_pos _)
  have hnot : g / 2 ^ f.mb ≠ 2 ^ f.eb - 1 := fun ht => (not_top_of_le_maxCode h.eb_pos hg).1 ⟨h.tops, ht⟩
  rw [decode_signed h neg (hg.trans_lt (maxCode_lt f)), if_neg hnot]
  by_cases hE : g / 2 ^ f.mb = 0
  · rw [if_pos hE]
    rw [hE] at hdiv
    have hmg : g % 2 ^ f.mb = g := by omega
    rw [hmg]
    by_cases h0 : g = 0
    · subst h0
      rfl
    · have hlog : Nat.log2 g < f.mb := (Nat.log2_lt h0).mpr (by omega)
      have hgrid : gridExp f g (f.emin - f.mb) = f.emin := by
        unfold gridExp
        omega
      refine rnd_on_grid h0 (by rw [hgrid]) ?_ hg neg st
      rw [hgrid]
      unfold Fmt.emin
      simp
  · rw [if_neg hE]
    obtain ⟨E, hE'⟩ : ∃ E, g / 2 ^ f.mb = E + 1 := Nat.exists_eq_succ_of_ne_zero hE
    rw [hE', Nat.succ_mul] at hdiv
    rw [hE']
    have hlog : Nat.log2 (2 ^ f.mb + g % 2 ^ f.mb) = f.mb := by
      rw [Nat.log2_eq_iff (by omega), Nat.pow_succ]
      omega
    have hgrid : gridExp f (2 ^ f.mb + g % 2 ^ f.mb) (((E + 1 : ℕ) : ℤ) - f.bias - f.mb) = ((E + 1 : ℕ) : ℤ) - f.bias := by
      unfold gridExp Fmt.emin
      omega
    refine rnd_on_grid (by omega) (by rw [hgrid]) ?_ hg neg st
    rw [hgrid, show (((E + 1 : ℕ) : ℤ) - f.bias + f.bias - 1).toNat = E by omega]
    omega

/-- A code that is no NaN is the code of its value. -/
theorem exact_decode {c : ℕ} (hc : c < 2 ^ f.width) (hn : f.decode c ≠ .nan) : Fmt.exact f (f.decode c) = c := by
  rcases code_cases h hc with hd | ⟨neg, hd, hinf⟩ | ⟨neg, g, m, e, -, rfl, hg, -⟩
  · exact absurd hd hn
  · rw [hd, hinf]
    simp [Fmt.exact, rnd, Fmt.special, h.tops]
  · rw [Fmt.exact, rnd_finite_code h neg hg]

theorem exact_nan : Fmt.exact f .nan = f.nan := by simp [Fmt.exact, rnd, Fmt.special, h.tops]

/-! ## Codes as RND delivers them -/

theorem nan_lt : f.nan < 2 ^ f.width := by
  have htop := topBinade_add f
  have hmb : 2 ^ (f.mb - 1) < 2 ^ f.mb := Nat.pow_lt_pow_right (by decide) (Nat.sub_lt h.mb_pos one_pos)
  rw [two_pow_width, Fmt.nan, h.tops]
  dsimp only
  omega

theorem inf_lt (neg : Bool) : f.inf neg < 2 ^ f.width := (decode_inf h.eb_pos h.tops neg).2

theorem overflow_lt (neg : Bool) (mode : Rm) (sat : Bool) : f.overflow neg mode sat < 2 ^ f.width := by
  have hmax (n : Bool) : f.signed n f.maxCode < 2 ^ f.width := signed_lt n (maxCode_lt f)
  unfold Fmt.overflow
  split
  · exact hmax neg
  · split
    · exact nan_lt h
    · split
      · exact hmax neg
      · split
        · exact inf_lt h true
        · exact hmax false
      · split
        · exact hmax true
        · exact inf_lt h false
      · exact inf_lt h neg

theorem rnd_lt (mode : Rm) (sat : Bool) (x : FV) (st : Fst) : (rnd f mode sat x st).1 < 2 ^ f.width := by
  have hmax {g : ℕ} (neg : Bool) (hg : g ≤ f.maxCode) : f.signed neg g < 2 ^ f.width := signed_lt neg (hg.trans_lt (maxCode_lt f))
  cases x with
  | nan =>
    change (f.special .nan sat).1 < _
    simp only [Fmt.special, h.tops, reduceCtorEq, if_false]
    exact nan_lt h
  | inf neg =>
    change (f.special (.inf neg) sat).1 < _
    simp only [Fmt.special, h.tops, reduceCtorEq, if_false]
    split
    · exact hmax neg le_rfl
    · exact inf_lt h neg
  | fin neg m e b =>
    by_cases hm : m = 0
    · simp only [rnd, if_pos hm]
      exact hmax neg (Nat.zero_le _)
    · rw [rnd_fin hm]
      dsimp only
      split
      next => exact overflow_lt h neg mode sat
      next hfit =>
        have hle (hn : roundedSteps f mode neg m e b st ≠ 0) : roundedCode f mode neg m e b st ≤ f.maxCode :=
          not_lt.mp fun hlt => hfit ⟨hn, hlt⟩
        split
        next hi =>
          refine hmax neg ?_
          split
          · exact Nat.zero_le _
          next hn => exact hle hn
        next hi =>
          have hlo := lo_ne_zero_of_exact hm (Bool.not_eq_true _ ▸ hi)
          refine hmax neg (hle ?_)
          rcases stepsOf_eq (cut m e b (gridExp f m e - f.mb)) b neg mode (st.draw mode).1 with hs | hs
          · exact fun h0 => hlo (hs.symm.trans h0)
          · exact fun h0 => Nat.succ_ne_zero _ (hs.symm.trans h0)

end

end Sys2Proof.Proofs.Float
end

section
/-!
PROOFS. Comparison and selection (spec/05, R139, R140, Tables 5-3 and 5-4; O11): the order of values, the operand that FMIN and FMAX
choose, and the members that take no rounding.
-/
namespace Sys2Proof.Proofs.Float
open Sys2Proof.Machine Sys2Proof.Claims Sys2Proof.Proofs.Rounding

/-! ## The order of values -/

/-- Nothing is cut off of the value: it is what a code stands for. -/
def Uncut (x : FV) : Prop := ∀ neg m e, x ≠ .fin neg m e true

theorem uncut_decode {f : Fmt} (h : IsIeee f) {c : ℕ} (hc : c < 2 ^ f.width) : Uncut (f.decode c) := by
  intro neg m e
  rcases code_cases h hc with hd | ⟨_, hd, -⟩ | ⟨_, _, _, _, hd, -⟩ <;> rw [hd] <;> simp

theorem isNan_iff {x : FV} : x.isNan = true ↔ x = .nan := by cases x <;> simp [FV.isNan]

theorem isNan_false {x : FV} (h : x ≠ .nan) : x.isNan = false := Bool.eq_false_of_not_eq_true (mt isNan_iff.mp h)

theorem fLess_fin (na : Bool) (ma : ℕ) (ea : ℤ) (nb : Bool) (mb : ℕ) (eb : ℤ) :
    (fLess (.fin na ma ea false) (.fin nb mb eb false)).getD false = true ↔ dyadic na ma ea < dyadic nb mb eb := by
  simp only [fLess, Option.getD_some, decide_eq_true_eq, dyadicSum_neg, dyadic_not, ← sub_eq_add_neg, sub_neg]

theorem fSame_fin (na : Bool) (ma : ℕ) (ea : ℤ) (nb : Bool) (mb : ℕ) (eb : ℤ) :
    (fSame (.fin na ma ea false) (.fin nb mb eb false)).getD false = true ↔ dyadic na ma ea = dyadic nb mb eb := by
  simp only [fSame, Option.getD_some, decide_eq_true_eq, dyadicSum_eq_zero, dyadic_not, ← sub_eq_add_neg, sub_eq_zero]

theorem numLt_fin (na : Bool) (ma : ℕ) (ea : ℤ) (nb : Bool) (mb : ℕ) (eb : ℤ) :
    NumLt (.fin na ma ea false) (.fin nb mb eb false) ↔ dyadic na ma ea < dyadic nb mb eb := by
  simp [NumLt, ratOf_fin]

theorem numEq_fin (na : Bool) (ma : ℕ) (ea : ℤ) (nb : Bool) (mb : ℕ) (eb : ℤ) :
    NumEq (.fin na ma ea false) (.fin nb mb eb false) ↔ dyadic na ma ea = dyadic nb mb eb := by
  simp [NumEq, ratOf_fin, eq_comm]

section
variable {x y : FV} (hx : Uncut x) (hy : Uncut y)
include hx hy

theorem fLess_iff : (fLess x y).getD false = true ↔ NumLt x y := by
  match x, y, hx, hy with
  | .fin _ _ _ true, _, hx, _ => exact absurd rfl (hx _ _ _)
  | _, .fin _ _ _ true, _, hy => exact absurd rfl (hy _ _ _)
  | .fin _ _ _ false, .fin _ _ _ false, _, _ => rw [fLess_fin, numLt_fin]
  | .nan, .nan, _, _ | .nan, .inf _, _, _ | .nan, .fin _ _ _ false, _, _ | .inf _, .nan, _, _ | .inf _, .inf _, _, _
  | .inf _, .fin _ _ _ false, _, _ | .fin _ _ _ false, .nan, _, _ | .fin _ _ _ false, .inf _, _, _ => simp [fLess, NumLt]

theorem fSame_iff : (fSame x y).getD false = true ↔ NumEq x y := by
  match x, y, hx, hy with
  | .fin _ _ _ true, _, hx, _ => exact absurd rfl (hx _ _ _)
  | _, .fin _ _ _ true, _, hy => exact absurd rfl (hy _ _ _)
  | .fin _ _ _ false, .fin _ _ _ false, _, _ => rw [fSame_fin, numEq_fin]
  | .nan, .nan, _, _ | .nan, .inf _, _, _ | .nan, .fin _ _ _ false, _, _ | .inf _, .nan, _, _ | .inf _, .inf _, _, _
  | .inf _, .fin _ _ _ false, _, _ | .fin _ _ _ false, .nan, _, _ | .fin _ _ _ false, .inf _, _, _ => simp [fSame, NumEq]

theorem fLessEq_iff : fLessEq x y = true ↔ NumLt x y ∨ NumEq x y := by
  rw [fLessEq, Bool.or_eq_true, fLess_iff hx hy, fSame_iff hx hy]

theorem numLt_asymm (h : NumLt x y) : ¬NumLt y x := by
  match x, y, hx, hy, h with
  | .fin _ _ _ true, _, hx, _, _ => exact absurd rfl (hx _ _ _)
  | _, .fin _ _ _ true, _, hy, _ => exact absurd rfl (hy _ _ _)
  | .fin _ _ _ false, .fin _ _ _ false, _, _, h =>
    rw [numLt_fin] at h ⊢
    exact h.not_gt
  | .inf _, .inf _, _, _, h | .inf _, .fin _ _ _ false, _, _, h | .fin _ _ _ false, .inf _, _, _, h => simp_all [NumLt]

theorem not_numLt_of_zeros (h : x.isZero = true ∧ y.isZero = true) : ¬NumLt x y := by
  match x, y, hx, hy, h with
  | .fin _ _ _ true, _, hx, _, _ => exact absurd rfl (hx _ _ _)
  | _, .fin _ _ _ true, _, hy, _ => exact absurd rfl (hy _ _ _)
  | .fin na ma ea false, .fin nb mb eb false, _, _, h =>
    obtain ⟨rfl, rfl⟩ : ma = 0 ∧ mb = 0 := by simpa [FV.isZero] using h
    rw [numLt_fin, dyadic_zero, dyadic_zero]
    exact lt_irrefl 0

end

/-- The order in which FMIN and FMAX choose: that of the numbers, -0 below +0. -/
def Below (x y : FV) : Prop := NumLt x y ∨ (x.isZero = true ∧ y.isZero = true) ∧ x.isNeg = true ∧ y.isNeg = false

open Classical in
theorem fPick_numbers {x y : FV} (hx : Uncut x) (hy : Uncut y) (hnx : x ≠ .nan) (hny : y ≠ .nan) (max : Bool) :
    fPick max x y = if Below x y ↔ max = true then y else x := by
  have hlow : ((fLess x y).getD false || (x.isZero && y.isZero && x.isNeg && !y.isNeg)) = true ↔ Below x y := by
    rw [Bool.or_eq_true, fLess_iff hx hy, Below]
    simp only [Bool.and_eq_true, Bool.not_eq_true', and_assoc]
  simp only [fPick, isNan_false hnx, isNan_false hny, Bool.false_eq_true, if_false, beq_iff_eq]
  exact if_congr (Bool.eq_iff_iff.trans (iff_congr hlow .rfl)) rfl rfl

/-! ## Equal numbers have one code -/

/-- Numbers that are equal and, if zero, of one sign agree in sign and magnitude. -/
theorem dyadic_inj {na nb : Bool} {ma mb : ℕ} {ea eb : ℤ} (h : dyadic na ma ea = dyadic nb mb eb) (h0 : ma = 0 → mb = 0 → na = nb) :
    na = nb ∧ (ma : ℝ) * 2 ^ ea = mb * 2 ^ eb := by
  have hn : na = nb := by
    rcases lt_trichotomy (dyadic na ma ea) 0 with hlt | heq | hgt
    · rw [(sign_of_neg hlt).1, (sign_of_neg (h.symm.trans_lt hlt)).1]
    · exact h0 (dyadic_eq_zero.mp heq) (dyadic_eq_zero.mp (h.symm.trans heq))
    · rw [(sign_of_pos hgt).1, (sign_of_pos (hgt.trans_eq h)).1]
  subst hn
  refine ⟨rfl, ?_⟩
  have hr : (dyadic na ma ea : ℝ) = dyadic na mb eb := congrArg _ h
  rw [dyadic_real, dyadic_real] at hr
  cases na with
  | false => exact hr
  | true => exact neg_injective hr

theorem valueOf_injective (f : Fmt) {c c' : ℕ} (h : valueOf f c = valueOf f c') : c = c' := by
  rcases lt_trichotomy c c' with hlt | heq | hgt
  · exact absurd h ((valueOf_lt_iff f c c').mpr hlt).ne
  · exact heq
  · exact absurd h ((valueOf_lt_iff f c' c).mpr hgt).ne'

section
variable {f : Fmt} (h : IsIeee f) {a b : ℕ} (ha : a < 2 ^ f.width) (hb : b < 2 ^ f.width)
include h ha hb

/-- Two codes of which neither lies below the other are one code. -/
theorem code_unique (hna : f.decode a ≠ .nan) (hnb : f.decode b ≠ .nan) (h1 : ¬Below (f.decode a) (f.decode b))
    (h2 : ¬Below (f.decode b) (f.decode a)) : a = b := by
  rcases code_cases h ha with hda | ⟨na, hda, rfl⟩ | ⟨na, ga, ma, ea, hda, rfl, hga, hva⟩
  · exact absurd hda hna
  all_goals
    rcases code_cases h hb with hdb | ⟨nb, hdb, rfl⟩ | ⟨nb, gb, mb, eb, hdb, rfl, hgb, hvb⟩
    · exact absurd hdb hnb
    all_goals
      rw [hda, hdb] at h1 h2
      simp only [Below, not_or] at h1 h2
  · cases na <;> cases nb <;> simp [NumLt] at h1 h2 <;> rfl
  · cases na <;> simp [NumLt] at h1 h2
  · cases nb <;> simp [NumLt] at h1 h2
  · obtain ⟨hlt1, hz1⟩ := h1
    obtain ⟨hlt2, hz2⟩ := h2
    rw [numLt_fin] at hlt1 hlt2
    have hzero : ma = 0 → mb = 0 → na = nb := by
      rintro rfl rfl
      revert hz1 hz2
      cases na <;> cases nb <;> simp [FV.isZero, FV.isNeg]
    obtain ⟨rfl, hv⟩ := dyadic_inj (le_antisymm (not_lt.mp hlt2) (not_lt.mp hlt1)) hzero
    rw [valueOf_injective f (hva.trans (hv.trans hvb.symm))]

/-! ## Table 5-3 -/

omit h ha hb in
/-- FMIN and FMAX by Table 5-3: the other operand beside a NaN, the canonical NaN for two, else the first where `less` holds. -/
structure Chosen (f : Fmt) (a b : ℕ) (less : Prop) (k : ℕ) : Prop where
  both : f.decode a = .nan → f.decode b = .nan → k = f.nan
  right : f.decode a = .nan → f.decode b ≠ .nan → k = b
  left : f.decode a ≠ .nan → f.decode b = .nan → k = a
  first : f.decode a ≠ .nan → f.decode b ≠ .nan → less → k = a
  second : f.decode a ≠ .nan → f.decode b ≠ .nan → ¬less → k = b

open Classical in
/-- What is chosen of two numbers tells what is chosen at all. -/
theorem chosen_of {max : Bool} {less : Prop}
    (hnum : f.decode a ≠ .nan → f.decode b ≠ .nan → ∀ k, k = (if Below (f.decode a) (f.decode b) ↔ max = true then b else a) →
      (less → k = a) ∧ (¬less → k = b)) :
    Chosen f a b less (Fmt.exact f (fPick max (f.decode a) (f.decode b))) := by
  have hboth (hna : f.decode a ≠ .nan) (hnb : f.decode b ≠ .nan) : Fmt.exact f (fPick max (f.decode a) (f.decode b)) =
      if Below (f.decode a) (f.decode b) ↔ max = true then b else a := by
    rw [fPick_numbers (uncut_decode h ha) (uncut_decode h hb) hna hnb, apply_ite (Fmt.exact f), exact_decode h ha hna,
      exact_decode h hb hnb]
  refine ⟨fun hna hnb => ?_, fun hna hnb => ?_, fun hna hnb => ?_, fun hna hnb => (hnum hna hnb _ (hboth hna hnb)).1,
    fun hna hnb => (hnum hna hnb _ (hboth hna hnb)).2⟩
  · rw [hna, hnb]
    exact exact_nan h
  · rw [fPick, if_pos (isNan_iff.mpr hna), exact_decode h hb hnb]
  · rw [fPick, isNan_false hna, if_neg (by decide), if_pos (isNan_iff.mpr hnb), exact_decode h ha hna]

theorem chosen_min : Chosen f a b
    (NumLt (f.decode a) (f.decode b) ∨ ((f.decode a).isZero = true ∧ (f.decode b).isZero = true) ∧ (f.decode a).isNeg = true)
    (Fmt.exact f (fPick false (f.decode a) (f.decode b))) := by
  refine chosen_of h ha hb fun hna hnb k hk => ?_
  by_cases hl : Below (f.decode a) (f.decode b)
  · rw [if_neg (by simp [hl])] at hk
    refine ⟨fun _ => hk, fun hn => absurd (hl.imp_right fun hz => ?_) hn⟩
    exact ⟨hz.1, hz.2.1⟩
  · rw [if_pos (by simp [hl])] at hk
    refine ⟨fun hless => hk.trans (code_unique h ha hb hna hnb hl fun hr => ?_).symm, fun _ => hk⟩
    rcases hless with hlt | ⟨hz, hneg⟩
    · exact hl (.inl hlt)
    · rcases hr with hr | ⟨-, -, hpos⟩
      · exact not_numLt_of_zeros (uncut_decode h hb) (uncut_decode h ha) hz.symm hr
      · exact absurd (hneg.symm.trans hpos) (by decide)

theorem chosen_max : Chosen f a b
    (NumLt (f.decode b) (f.decode a) ∨ ((f.decode a).isZero = true ∧ (f.decode b).isZero = true) ∧ (f.decode b).isNeg = true)
    (Fmt.exact f (fPick true (f.decode a) (f.decode b))) := by
  refine chosen_of h ha hb fun hna hnb k hk => ?_
  by_cases hl : Below (f.decode a) (f.decode b)
  · rw [if_pos (by simp [hl])] at hk
    refine ⟨fun hless => ?_, fun _ => hk⟩
    rcases hl with hlt | ⟨hz, -, hpos⟩
    · rcases hless with hr | ⟨hz, -⟩
      · exact absurd hr (numLt_asymm (uncut_decode h ha) (uncut_decode h hb) hlt)
      · exact absurd hlt (not_numLt_of_zeros (uncut_decode h ha) (uncut_decode h hb) hz)
    · rcases hless with hr | ⟨-, hneg⟩
      · exact absurd hr (not_numLt_of_zeros (uncut_decode h hb) (uncut_decode h ha) hz.symm)
      · exact absurd (hneg.symm.trans hpos) (by decide)
  · rw [if_neg (by simp [hl])] at hk
    refine ⟨fun _ => hk, fun hn => hk.trans (code_unique h ha hb hna hnb hl fun hr => hn ?_)⟩
    exact hr.imp_right fun ⟨hz, hneg, _⟩ => ⟨hz.symm, hneg⟩

end

end Sys2Proof.Proofs.Float
end

section
/-!
PROOFS. The scalar members without a rounding (spec/05, R139, R140): FMIN, FMAX, FSGNJ, FABS, the comparisons and FCLASS (O11).
-/
namespace Sys2Proof.Proofs.Float
open Sys2Proof.Machine Sys2Proof.Claims Sys2Proof.Proofs.Rounding

theorem writesF_fpFlat (s : State) (d : XReg) (code : ℕ) (f : BitVec 5) : WritesF s (s.fpFlat d code f) 4 d code f s.me.csr.srseed :=
  writesF_setX s ⟨s.me.csr.srseed, f⟩ d code 4 (modMe_raiseFlags s f)

/-- The low bits of a register are a code of the precision. -/
theorem fcode_lt (s : State) (p : Prec) (r : XReg) : s.fcode p r < 2 ^ (fmtOfPrec p).width := Nat.mod_lt _ (Nat.two_pow_pos _)

theorem regF_eq (s : State) (p : Prec) (r : XReg) : regF s p r = (fmtOfPrec p).decode (s.fcode p r) := rfl

theorem uncut_regF (s : State) (p : Prec) (r : XReg) : Uncut (regF s p r) := uncut_decode (isIeee_prec p) (fcode_lt s p r)

/-- The choice of Table 5-3 as a disjunction of its four rows. -/
theorem Chosen.rows {f : Fmt} {a b : ℕ} {less : Prop} {k : ℕ} (h : Chosen f a b less k) :
    (f.decode a = .nan ∧ f.decode b = .nan ∧ k = f.nan) ∨ (f.decode a = .nan ∧ f.decode b ≠ .nan ∧ k = b) ∨
      (f.decode a ≠ .nan ∧ f.decode b = .nan ∧ k = a) ∨
      (f.decode a ≠ .nan ∧ f.decode b ≠ .nan ∧ ((less ∧ k = a) ∨ (¬less ∧ k = b))) := by
  by_cases ha : f.decode a = .nan <;> by_cases hb : f.decode b = .nan
  · exact .inl ⟨ha, hb, h.both ha hb⟩
  · exact .inr (.inl ⟨ha, hb, h.right ha hb⟩)
  · exact .inr (.inr (.inl ⟨ha, hb, h.left ha hb⟩))
  · by_cases hl : less
    · exact .inr (.inr (.inr ⟨ha, hb, .inl ⟨hl, h.first ha hb hl⟩⟩))
    · exact .inr (.inr (.inr ⟨ha, hb, .inr ⟨hl, h.second ha hb hl⟩⟩))

/-! ## Signs (FSGNJ, FABS) -/

theorem width_sub_one (f : Fmt) : f.width - 1 = f.eb + f.mb := by
  unfold Fmt.width
  omega

theorem withSign_nan {f : Fmt} {c : ℕ} (h : f.decode c = .nan) (neg : Bool) : withSign f c neg = f.nan := if_pos (isNan_iff.mpr h)

/-- The magnitude of one code with the sign bit of another. -/
theorem withSign_number {f : Fmt} {a b : ℕ} (ha : f.decode a ≠ .nan) (hb : b < 2 ^ f.width) :
    withSign f a (bit b (f.width - 1)) = a % 2 ^ (f.width - 1) + b / 2 ^ (f.width - 1) * 2 ^ (f.width - 1) := by
  have hb' := hb
  rw [two_pow_width] at hb'
  have hlt : b / 2 ^ (f.eb + f.mb) < 2 := Nat.div_lt_of_lt_mul (by rwa [Nat.mul_comm])
  rw [withSign, isNan_false ha, width_sub_one, if_neg (by decide), Fmt.signed]
  rcases Nat.le_one_iff_eq_zero_or_eq_one.mp (Nat.lt_succ_iff.mp hlt) with h | h
  · rw [bit_false (by rw [h]), if_neg (by decide), h, Nat.zero_mul, Nat.add_zero]
  · rw [bit_true (by rw [h]), if_pos rfl, h, Nat.one_mul]

theorem withSign_abs {f : Fmt} {a : ℕ} (ha : f.decode a ≠ .nan) : withSign f a false = a % 2 ^ (f.width - 1) := by
  rw [withSign, isNan_false ha, if_neg (by decide)]
  rfl

/-! ## Comparisons -/

theorem nanFlag_eq (x y : FV) [Decidable (x = .nan ∨ y = .nan)] : nanFlag x y = if x = .nan ∨ y = .nan then 1 else 0 := by
  simp only [nanFlag, Bool.or_eq_true, isNan_iff]
  rfl

/-- A comparison writes the outcome, and NV beside a NaN where it signals. -/
theorem compares_of {mk : Prec → XReg → XReg → XReg → Instr} {sig : Bool} {c : FV → FV → Prop} {t : FV → FV → Bool}
    (ht : ∀ x y, Uncut x → Uncut y → (t x y = true ↔ c x y))
    (hmk : ∀ s p d a b, exec (mk p d a b) s =
      s.fpFlat d (b2n (t (regF s p a) (regF s p b))) (if sig = true then nanFlag (regF s p a) (regF s p b) else 0)) :
    Compares mk sig c := by
  intro s p d a b x y nv
  have hflag : (if sig = true then nanFlag x y else 0) = nv := by
    cases sig <;> simp [nv, nanFlag_eq]
  have hiff := ht x y (uncut_regF s p a) (uncut_regF s p b)
  have hw : WritesF s (exec (mk p d a b) s) 4 d (b2n (t x y)) nv s.me.csr.srseed := by
    rw [hmk, hflag]
    exact writesF_fpFlat s d _ nv
  refine ⟨fun hc => ?_, fun hc => ?_⟩
  · rw [hiff.mpr hc] at hw
    exact hw
  · rw [Bool.eq_false_of_not_eq_true (mt hiff.mp hc)] at hw
    exact hw

/-! ## FCLASS (Table 5-4) -/

/-- The class of a code by its fields. -/
theorem fclass_eq {f : Fmt} (h : f.tops = .ieee) {c : ℕ} (hc : c < 2 ^ f.width) :
    let e := c / 2 ^ f.mb % 2 ^ f.eb
    let m := c % 2 ^ f.mb
    let sign := if c / 2 ^ (f.eb + f.mb) = 1 then 256 else 0
    fclass f c = if e = 2 ^ f.eb - 1 ∧ m ≠ 0 then 1 else if e = 2 ^ f.eb - 1 then 16 + sign else if e ≠ 0 then 8 + sign
      else if m ≠ 0 then 4 + sign else 2 + sign := by
  intro e m sign
  rw [two_pow_width] at hc
  have hlt : c / 2 ^ (f.eb + f.mb) < 2 := Nat.div_lt_of_lt_mul (by rwa [Nat.mul_comm])
  have hsign : 256 * b2n (bit c (f.eb + f.mb)) = sign := by
    rcases Nat.le_one_iff_eq_zero_or_eq_one.mp (Nat.lt_succ_iff.mp hlt) with hs | hs
    · rw [bit_false (by rw [hs])]
      simp [sign, hs, b2n]
    · rw [bit_true (by rw [hs])]
      simp [sign, hs, b2n]
  have he : bits c f.mb f.eb = e := rfl
  have hm : c % 2 ^ f.mb = m := rfl
  simp only [fclass, Fmt.decode, he, hm, h, true_and, reduceCtorEq, false_and, if_false]
  by_cases htop : e = 2 ^ f.eb - 1
  · by_cases h0 : m = 0
    · simp [htop, h0, FV.isNan, FV.isZero, FV.isInf, FV.isNeg, hsign]
    · simp [htop, h0, FV.isNan, FV.isNeg, b2n]
  · by_cases he0 : e = 0
    · rw [he0] at htop ⊢
      by_cases h0 : m = 0
      · simp [htop, h0, FV.isNan, FV.isZero, FV.isNeg, hsign]
      · simp [htop, h0, FV.isNan, FV.isZero, FV.isInf, FV.isNeg, hsign]
    · have hpos : 2 ^ f.mb + m ≠ 0 := (Nat.add_pos_left (Nat.two_pow_pos _) _).ne'
      simp [htop, he0, FV.isNan, FV.isZero, FV.isInf, FV.isNeg, hsign]

/-- Settles O11: the choice of Table 5-3 on codes, the order of values, and the fields that Table 5-4 names. -/
theorem scalarSelectCompare : Obligations.ScalarSelectCompare := by
  refine ⟨fun s p d a b => ?select, compares_of (t := fun x y => (fSame x y).getD false) (fun _ _ => fSame_iff) fun _ _ _ _ _ => rfl,
    compares_of (t := fun x y => (fLess x y).getD false) (fun _ _ => fLess_iff) fun _ _ _ _ _ => rfl,
    compares_of (t := fLessEq) (fun _ _ => fLessEq_iff) fun _ _ _ _ _ => rfl, fun s p d a => ?classes⟩
  case select =>
    intro f x y ca cb seed mag sign pick zeros
    have hf : IsIeee f := isIeee_prec p
    have ha : ca < 2 ^ f.width := fcode_lt s p a
    have hb : cb < 2 ^ f.width := fcode_lt s p b
    refine ⟨⟨_, (chosen_min hf ha hb).rows, writesF_fpFlat s d _ 0⟩, ⟨_, (chosen_max hf ha hb).rows, writesF_fpFlat s d _ 0⟩,
      fun hx => ⟨?_, ?_⟩, fun hx => ⟨?_, ?_⟩⟩
    · rw [← withSign_nan hx (bit cb (f.width - 1))]
      exact writesF_fpFlat s d _ 0
    · rw [← withSign_nan hx false]
      exact writesF_fpFlat s d _ 0
    · rw [← withSign_number hx hb]
      exact writesF_fpFlat s d _ 0
    · have hmag : withSign f ca false = mag := withSign_abs hx
      rw [← hmag]
      exact writesF_fpFlat s d _ 0
  case classes =>
    intro f c e m top sign k
    have hk : fclass f c = k := fclass_eq (isIeee_prec p).tops (fcode_lt s p a)
    rw [← hk]
    exact writesF_fpFlat s d _ 0

end Sys2Proof.Proofs.Float
end

section
/-!
PROOFS. FCVT (spec/05, R141; spec/03, R92): the source as an exact value, and what a rounding into an integer range answers (O12).
-/
namespace Sys2Proof.Proofs.Float
open Sys2Proof.Machine Sys2Proof.Claims Sys2Proof.Proofs.Rounding Sys2Proof.Proofs.Integer

/-! ## Rounding into an integer range -/

section
variable (mode : Rm) (st : Fst)

/-- A delivered number lies in the range. -/
theorem rndInt_mem {lo hi : ℤ} (hlo : lo ≤ 0) (hhi : 0 ≤ hi) (qe : ℤ) (x : FV) :
    lo ≤ (rndInt lo hi qe mode x st).1 ∧ (rndInt lo hi qe mode x st).1 ≤ hi := by
  cases x with
  | nan => exact ⟨hlo, hhi⟩
  | inf neg =>
    cases neg with
    | false => exact ⟨hlo.trans hhi, le_rfl⟩
    | true => exact ⟨le_rfl, hlo.trans hhi⟩
  | fin neg m e b =>
    rw [rndInt_fin]
    dsimp only
    generalize (if neg = true then _ else _ : ℤ) = v
    split
    · exact ⟨le_rfl, hlo.trans hhi⟩
    · split
      · exact ⟨hlo.trans hhi, le_rfl⟩
      · exact ⟨by omega, by omega⟩

theorem rndInt_nan (lo hi qe : ℤ) : rndInt lo hi qe mode .nan st = (0, (st.draw mode).2.raise fNV) := rfl

/-- The whole part of a magnitude is at least reached by its steps. -/
theorem lt_steps_succ (neg : Bool) (m : ℕ) (e : ℤ) : (m : ℝ) * 2 ^ e < stepsOf (cut m e false 0) false neg mode (st.draw mode).1 + 1 := by
  have hmag : MagOf m e false (m * (2 : ℝ) ^ e) := ⟨0, by simp, .inl ⟨rfl, rfl⟩⟩
  obtain ⟨d, u, hp⟩ := cut_places (qe := 0) hmag (by simp)
  have hlt := hp.lt_hi
  rw [zpow_zero, mul_one] at hlt
  refine hlt.trans_le (add_le_add_left ?_ 1)
  rcases stepsOf_eq (cut m e false 0) false neg mode (st.draw mode).1 with h | h
  · rw [h]
  · rw [h]
    push_cast
    linarith

/-- A number more than 1 below the range gives its lower bound. -/
theorem rndInt_below {lo : ℤ} (hi : ℤ) (hlo : lo ≤ 0) {x : FV} {u : ℚ} (hx : ratOf x = some u) (hu : u < lo - 1) :
    rndInt lo hi 0 mode x st = (lo, (st.draw mode).2.raise fNV) := by
  obtain ⟨neg, m, e, rfl, rfl⟩ := exists_fin hx
  have hlo' : (lo : ℚ) ≤ 0 := by exact_mod_cast hlo
  obtain ⟨rfl, -⟩ := sign_of_neg (hu.trans (by linarith))
  have hreal : (dyadic true m e : ℝ) < lo - 1 := by exact_mod_cast hu
  have hsteps := lt_steps_succ mode st true m e
  rw [dyadic_real, if_pos rfl] at hreal
  have hv : -(stepsOf (cut m e false 0) false true mode (st.draw mode).1 : ℤ) < lo := by
    rw [← Int.cast_lt (R := ℝ)]
    push_cast
    linarith
  rw [rndInt_fin]
  exact if_pos hv

/-- A number more than 1 above the range gives its upper bound. -/
theorem rndInt_above {lo hi : ℤ} (hlo : lo ≤ 0) (hhi : 0 ≤ hi) {x : FV} {u : ℚ} (hx : ratOf x = some u) (hu : hi + 1 < u) :
    rndInt lo hi 0 mode x st = (hi, (st.draw mode).2.raise fNV) := by
  obtain ⟨neg, m, e, rfl, rfl⟩ := exists_fin hx
  have hhi' : (0 : ℚ) ≤ hi := by exact_mod_cast hhi
  obtain ⟨rfl, -⟩ := sign_of_pos (lt_trans (by linarith) hu)
  have hreal : (hi : ℝ) + 1 < dyadic false m e := by exact_mod_cast hu
  have hsteps := lt_steps_succ mode st false m e
  rw [dyadic_real, if_neg (by decide)] at hreal
  have hv : hi < (stepsOf (cut m e false 0) false false mode (st.draw mode).1 : ℤ) := by
    rw [← Int.cast_lt (R := ℝ)]
    push_cast
    linarith
  rw [rndInt_fin]
  exact (if_neg (by simp; omega)).trans (if_pos hv)

theorem draw_raise_flags (seed : Word) (b : BitVec 5) : (((⟨seed, 0⟩ : Fst).draw mode).2.raise b).flags = b := by
  rw [draw_raise]
  exact BitVec.zero_or

end

/-! ## The source -/

theorem toInt_sext (x : Word) : (sext x 32).toInt = x.toInt.bmod (2 ^ 32) := by
  have h : x.toInt.bmod (2 ^ 32) = (x.toNat : ℤ).bmod (2 ^ 32) := by
    rw [BitVec.toInt_eq_toNat_bmod]
    exact Int.bmod_bmod_of_dvd (by decide)
  rw [h, sext, BitVec.toInt_signExtend_of_le (by decide), BitVec.toInt_ofNat']

/-- The source of FCVT at its width. -/
def cvtSource (src : NumCode) (x : Word) : FV :=
  match src with
  | .w => FV.ofInt ((x.toInt).bmod (2 ^ 32))
  | .wu => FV.ofInt (x.toNat % 2 ^ 32 : Nat)
  | .l => FV.ofInt x.toInt
  | .lu => FV.ofInt x.toNat
  | .d => Fmt.f64.decode x.toNat
  | .s => Fmt.f32.decode (x.toNat % 2 ^ 32)
  | .h => Fmt.f16.decode (x.toNat % 2 ^ 16)
  | .b => Fmt.bf16.decode (x.toNat % 2 ^ 16)

theorem ncValue_eq (src : NumCode) (x : Word) : ncValue src x = cvtSource src x := by
  cases src with
  | w => exact congrArg FV.ofInt (toInt_sext x)
  | wu => exact congrArg (fun n : ℕ => FV.ofInt n) (toNat_zext x (by decide))
  | d => exact congrArg Fmt.f64.decode (Nat.mod_eq_of_lt x.isLt)
  | l | lu | s | h | b => rfl

/-! ## The instruction -/

section
variable (s : State) (dst src : NumCode) (m : Rm) (d a : XReg)

/-- What FCVT does, whatever its codes. -/
theorem gives_fcvt :
    let r := cvt dst src (modeOf s m) (s.getX a) ⟨s.me.csr.srseed, 0⟩
    Gives (exec (.fcvt dst src m d a) s) fun t =>
      Retired s t (nextPc s 4) ∧ OnlyX s t d r.1 ∧ SameV s t ∧ SameM s t ∧ Raised s t r.2.flags r.2.seed := by
  intro r
  have he : exec (.fcvt dst src m d a) s = ((s.modMe (·.fpDone r.2)).setX d r.1).fin 4 := by
    change execFcvt dst src m d a s = _
    rw [execFcvt, mode_eq]
    rfl
  rw [he]
  exact gives_setX s r.2 d r.1 4 (modMe_fpDone s r.2)

variable {dst} in
theorem cvt_int (hi : dst.isInt = true) (mode : Rm) (x : Word) (st : Fst) : cvt dst src mode x st =
    (low (rndInt (ncBounds dst).1 (ncBounds dst).2 0 mode (cvtSource src x) st).1,
      (rndInt (ncBounds dst).1 (ncBounds dst).2 0 mode (cvtSource src x) st).2) := by
  rw [cvt, if_pos hi, ncValue_eq]
  rfl

variable {dst} in
theorem cvt_float (hi : dst.isInt = false) (mode : Rm) (x : Word) (st : Fst) : cvt dst src mode x st =
    (BitVec.ofNat 64 (rnd (ncFmt dst) mode false (cvtSource src x) st).1, (rnd (ncFmt dst) mode false (cvtSource src x) st).2) := by
  rw [cvt, hi, if_neg (by decide), ncValue_eq]

theorem ncBounds_spec : (ncBounds dst).1 ≤ 0 ∧ 0 ≤ (ncBounds dst).2 := by cases dst <;> decide

variable {dst} in
theorem fcvt_float (hi : dst.isInt = false) :
    let r := rnd (ncFmt dst) (modeOf s m) false (cvtSource src (s.getX a)) ⟨s.me.csr.srseed, 0⟩
    WritesF s (exec (.fcvt dst src m d a) s) 4 d r.1 r.2.flags r.2.seed := by
  have h := gives_fcvt s dst src m d a
  rw [cvt_float src hi] at h
  exact h

variable {dst} in
theorem fcvt_int (hi : dst.isInt = true) :
    let lo := (ncBounds dst).1
    let hi := (ncBounds dst).2
    let value := cvtSource src (s.getX a)
    let r := rndInt lo hi 0 (modeOf s m) value ⟨s.me.csr.srseed, 0⟩
    Gives (exec (.fcvt dst src m d a) s) (fun t => Retired s t (nextPc s 4) ∧ OnlyX s t d (low r.1) ∧ SameV s t ∧ SameM s t ∧
      Raised s t r.2.flags r.2.seed) ∧ lo ≤ r.1 ∧ r.1 ≤ hi ∧ (value = .nan → r.1 = 0 ∧ r.2.flags = 1) ∧
      (∀ u : Rat, ratOf value = some u → (u < lo - 1 → r.1 = lo ∧ r.2.flags = 1) ∧ ((hi : Rat) + 1 < u → r.1 = hi ∧ r.2.flags = 1)) := by
  intro lo hi value r
  obtain ⟨hlo, hhi⟩ := ncBounds_spec dst
  have h := gives_fcvt s dst src m d a
  rw [cvt_int src ‹_›] at h
  obtain ⟨h1, h2⟩ := rndInt_mem (modeOf s m) ⟨s.me.csr.srseed, 0⟩ hlo hhi 0 value
  have hbound {v : ℤ} (hr : r = (v, ((⟨s.me.csr.srseed, 0⟩ : Fst).draw (modeOf s m)).2.raise fNV)) : r.1 = v ∧ r.2.flags = 1 := by
    rw [hr]
    exact ⟨rfl, draw_raise_flags _ _ fNV⟩
  exact ⟨h, h1, h2, fun hn => hbound ((congrArg (rndInt lo hi 0 _ · _) hn).trans (rndInt_nan ..)), fun u hu =>
    ⟨fun hl => hbound (rndInt_below _ _ hi hlo hu hl), fun hg => hbound (rndInt_above _ _ hlo hhi hu hg)⟩⟩

end

/-- Settles O12: one rounding of the source's value into a format or an integer range. -/
theorem conversions : Obligations.Conversions := by
  intro s dst src m d a x M value start toInt
  obtain ⟨t, ht, hret, -, hv, hm, -⟩ := gives_fcvt s dst src m d a
  refine ⟨⟨t, ht, hret, hv, hm⟩, ?_⟩
  cases dst with
  | w => exact fcvt_int (dst := .w) s src m d a rfl
  | wu => exact fcvt_int (dst := .wu) s src m d a rfl
  | l => exact fcvt_int (dst := .l) s src m d a rfl
  | lu => exact fcvt_int (dst := .lu) s src m d a rfl
  | d => exact fcvt_float (dst := .d) s src m d a rfl
  | s => exact fcvt_float (dst := .s) s src m d a rfl
  | h => exact fcvt_float (dst := .h) s src m d a rfl
  | b => exact fcvt_float (dst := .b) s src m d a rfl

end Sys2Proof.Proofs.Float
end

section
/-!
PROOFS. Lanes of vector registers (spec/05, R130, R131, R133): reading a lane back from packed lanes, the active lanes of a mask, and the
state that roundings in ascending order hand on.
-/
namespace Sys2Proof.Proofs.Vector
open Sys2Proof.Machine Sys2Proof.Claims

/-! ## Packed lanes -/

theorem countFrom_eq_range' (k n : ℕ) : countFrom k n = List.range' k n := by
  induction n generalizing k with
  | zero => rfl
  | succ n ih => rw [countFrom, ih, List.range'_succ]

theorem countFrom_zero (n : ℕ) : countFrom 0 n = List.range n := by rw [countFrom_eq_range', List.range_eq_range']

theorem packLanes_lt (w : ℕ) (l : List ℕ) : packLanes w l < 2 ^ (w * l.length) := by
  induction l with
  | nil => simp [packLanes]
  | cons a l ih =>
    have ha : a % 2 ^ w < 2 ^ w := Nat.mod_lt _ (Nat.two_pow_pos w)
    rw [packLanes, List.length_cons, Nat.mul_succ, Nat.add_comm (w * _), Nat.pow_add]
    calc a % 2 ^ w + 2 ^ w * packLanes w l < 2 ^ w * 1 + 2 ^ w * packLanes w l := by omega
      _ = 2 ^ w * (packLanes w l + 1) := by ring
      _ ≤ 2 ^ w * 2 ^ (w * l.length) := Nat.mul_le_mul_left _ ih

/-- Lane `i` of packed lanes. -/
theorem packLanes_lane (w : ℕ) (l : List ℕ) (i : ℕ) : packLanes w l / 2 ^ (w * i) % 2 ^ w = l.getD i 0 % 2 ^ w := by
  induction l generalizing i with
  | nil => simp [packLanes]
  | cons a l ih =>
    cases i with
    | zero => simp [packLanes, Nat.add_mul_mod_self_left]
    | succ i =>
      have ha : a % 2 ^ w < 2 ^ w := Nat.mod_lt _ (Nat.two_pow_pos w)
      rw [packLanes, Nat.mul_succ, Nat.add_comm (w * i), Nat.pow_add, ← Nat.div_div_eq_div_mul,
        Nat.add_mul_div_left _ _ (Nat.two_pow_pos w), Nat.div_eq_of_lt ha, Nat.zero_add, ih, List.getD_cons_succ]

theorem toNat_ofLanes {w : ℕ} {l : List ℕ} (h : w * l.length ≤ 512) : (ofLanes w l).toNat = packLanes w l := by
  have hlt := (packLanes_lt w l).trans_le (Nat.pow_le_pow_right Nat.two_pos h)
  rw [ofLanes, BitVec.toNat_ofNat, Nat.mod_eq_of_lt hlt]

/-- Lane `i` of a register written with the lanes 0 to n - 1. -/
theorem lane_ofLanes {w n : ℕ} (h : w * n ≤ 512) (f : ℕ → ℕ) {i : ℕ} (hi : i < n) :
    L (ofLanes w ((countFrom 0 n).map f)) w i = f i % 2 ^ w := by
  rw [L, toNat_ofLanes (by simpa [countFrom_zero] using h), packLanes_lane, countFrom_zero]
  simp [hi]

theorem lane_lt (v : Vec) (w i : ℕ) : L v w i < 2 ^ w := Nat.mod_lt _ (Nat.two_pow_pos w)

theorem lane_eq (v : Vec) (w i : ℕ) : lane v w i = L v w i := rfl

/-! ## Lane widths -/

/-- A width that a lane may have. -/
structure LaneWidth (w : ℕ) : Prop where
  pos : 0 < w
  whole : w * (512 / w) = 512
  bytes : 8 * (w / 8) = w

theorem laneWidth (ty : Ty) : LaneWidth (laneBits ty) := by
  cases ty <;> exact ⟨by decide, by decide, by decide⟩

theorem LaneWidth.byte_lt {w : ℕ} (h : LaneWidth w) {i : ℕ} (hi : i < 512 / w) : w / 8 * i + w / 8 ≤ 64 := by
  have h1 : w * i + w ≤ 512 := by
    rw [← Nat.mul_succ]
    exact (Nat.mul_le_mul_left w hi).trans h.whole.le
  have h2 : w * i = 8 * (w / 8 * i) := by rw [← Nat.mul_assoc, h.bytes]
  have h3 := h.bytes
  omega

/-- The activity that the model computes is the one of R131. -/
theorem activeLane_iff {s : State} {m : MReg} {w i : ℕ} (h : LaneWidth w) (hi : i < 512 / w) :
    activeLane (s.mask m) w i = true ↔ Act s m w i := by
  have hb := h.byte_lt hi
  have hp := h.bytes
  have hpos := h.pos
  unfold activeLane maskBit State.mask Act
  by_cases hm : m = 0
  · rw [if_pos hm, BitVec.getLsbD_allOnes]
    simp only [hm, true_or, iff_true, decide_eq_true_eq]
    omega
  · rw [if_neg hm]
    simp [hm]

/-! ## Lanes as integers -/

theorem signed_eq {w n : ℕ} (hn : n < 2 ^ w) : signed w n = Sg w n := by
  unfold signed Sg
  rw [Nat.mod_eq_of_lt hn]
  by_cases h : n < 2 ^ (w - 1)
  · rw [if_neg (not_le.mpr h), if_pos h]
  · rw [if_pos (not_lt.mp h), if_neg h]
    push_cast
    rfl

theorem natCast_wrap (w : ℕ) (i : ℤ) : ((wrap w i : ℕ) : ℤ) = i % 2 ^ w := by
  have h : (0 : ℤ) < 2 ^ w := by positivity
  rw [wrap, Nat.cast_pow, Nat.cast_ofNat, Int.toNat_of_nonneg (Int.emod_nonneg _ h.ne')]

theorem wrap_lt (w : ℕ) (i : ℤ) : wrap w i < 2 ^ w := by
  have h : (0 : ℤ) < 2 ^ w := by positivity
  have := Int.emod_lt_of_pos i h
  rw [← natCast_wrap] at this
  exact_mod_cast this

theorem clampS_eq (w : ℕ) (i : ℤ) : clampS w i = clamped w i := by
  unfold clampS clamped
  push_cast
  rfl

/-- A lane read as a signed number differs from the lane by a multiple of 2^w. -/
theorem sg_emod (w n : ℕ) : Sg w n % 2 ^ w = (n : ℤ) % 2 ^ w := by
  unfold Sg
  split
  · rfl
  · exact Int.sub_emod_right ..

/-! ## Lanes written without a rounding -/

section
variable {s : State} {w : ℕ} (h : LaneWidth w)
include h

/-- Active lanes take `f` modulo 2^w, the others what `old` has. -/
theorem lane_laneMap (m : MReg) (old : Vec) (f : ℕ → ℕ) {i : ℕ} (hi : i < 512 / w) :
    (Act s m w i → L (laneMap w (s.mask m) old f) w i = f i % 2 ^ w) ∧ (¬Act s m w i → L (laneMap w (s.mask m) old f) w i = L old w i) := by
  have hl := lane_ofLanes h.whole.le (fun i => if activeLane (s.mask m) w i then f i else lane old w i) hi
  rw [← activeLane_iff h hi]
  refine ⟨fun ha => hl.trans ?_, fun ha => hl.trans ?_⟩
  · rw [if_pos ha]
  · rw [if_neg ha]
    exact Nat.mod_eq_of_lt (lane_lt old w i)

/-- Active lanes take `g`, which is `f` modulo 2^w. -/
theorem lanewise_laneMap (d : VReg) (m : MReg) (old : Vec) {g : ℕ → ℕ} {f : ℕ → ℤ} (hg : ∀ i, (g i : ℤ) % 2 ^ w = f i % 2 ^ w) :
    Lanewise s ((s.setV d (laneMap w (s.mask m) old g)).fin 4) d m w old f := by
  refine ⟨_, fun i hi => ?_, Float.writesV_setV s d _⟩
  obtain ⟨ha, hn⟩ := lane_laneMap (s := s) h m old g hi
  refine ⟨fun hact => ?_, hn⟩
  rw [ha hact, ← hg]
  push_cast
  rfl

end

/-! ## Lanes written in ascending order (R133) -/

/-- What the roundings of the lanes below `i` leave. -/
def laneState (w : ℕ) (m : Word) (f : ℕ → Fst → ℕ × Fst) (st : Fst) : ℕ → Fst
  | 0 => st
  | i + 1 => if activeLane m w i then (f i (laneState w m f st i)).2 else laneState w m f st i

/-- The lanes that a fold computes are those of the states before them. -/
theorem laneFold_eq (w : ℕ) (m : Word) (old : Vec) (f : ℕ → Fst → ℕ × Fst) (st : Fst) (k n : ℕ) :
    laneFold w m old f (countFrom k n) (laneState w m f st k) =
      ((countFrom k n).map fun i => if activeLane m w i then (f i (laneState w m f st i)).1 else lane old w i,
        laneState w m f st (k + n)) := by
  induction n generalizing k with
  | zero => rfl
  | succ n ih =>
    have hstep : (if activeLane m w k then f k (laneState w m f st k) else (lane old w k, laneState w m f st k)) =
        (if activeLane m w k then (f k (laneState w m f st k)).1 else lane old w k, laneState w m f st (k + 1)) := by
      rw [laneState]
      split <;> rfl
    rw [countFrom, laneFold, hstep]
    dsimp only
    rw [ih, List.map_cons, show k + 1 + n = k + (n + 1) by omega]

section
variable {s : State} {w : ℕ} (h : LaneWidth w) {n : ℕ} (hn : n ≤ 512 / w)
include h hn

/-- Lanes 0 to n - 1 written in order: what an active lane takes, what an inactive one keeps, and the states between them. -/
theorem lane_laneFold (m : MReg) (old : Vec) {f : ℕ → Fst → ℕ × Fst} (hf : ∀ i st, (f i st).1 < 2 ^ w) (st : Fst) {i : ℕ} (hi : i < n) :
    let r := laneFold w (s.mask m) old f (countFrom 0 n) st
    let u := laneState w (s.mask m) f st
    (Act s m w i → (L (ofLanes w r.1) w i, u (i + 1)) = f i (u i)) ∧
      (¬Act s m w i → L (ofLanes w r.1) w i = L old w i ∧ u (i + 1) = u i) := by
  intro r u
  have hr : r = _ := laneFold_eq w (s.mask m) old f st 0 n
  have hl := lane_ofLanes ((Nat.mul_le_mul_left w hn).trans h.whole.le)
    (fun i => if activeLane (s.mask m) w i then (f i (u i)).1 else lane old w i) hi
  rw [hr, ← activeLane_iff h (hi.trans_le hn)]
  refine ⟨fun ha => Prod.ext (hl.trans ?_) (if_pos ha), fun ha => ⟨hl.trans ?_, if_neg ha⟩⟩
  · rw [if_pos ha]
    exact Nat.mod_eq_of_lt (hf i _)
  · rw [if_neg ha]
    exact Nat.mod_eq_of_lt (lane_lt old w i)

end

end Sys2Proof.Proofs.Vector
end

section
/-!
PROOFS. Vector integer members (spec/05, R142, Table 5-5; O13): each lane's result is the integer that the table gives, modulo 2^w.
-/
namespace Sys2Proof.Proofs.Vector
open Sys2Proof.Machine Sys2Proof.Claims

/-! ## Results of Table 5-5 -/

section
variable {w a b : ℕ} (ha : a < 2 ^ w) (hb : b < 2 ^ w)

theorem lanesAdd_emod : (Lanes.add w a b : ℤ) % 2 ^ w = ((a : ℤ) + b) % 2 ^ w := by simp [Lanes.add]

theorem lanesMul_emod : (Lanes.mul w a b : ℤ) % 2 ^ w = ((a : ℤ) * b) % 2 ^ w := by simp [Lanes.mul]

theorem lanesSll_emod : (Lanes.sll w a b : ℤ) % 2 ^ w = ((a : ℤ) * 2 ^ (b % w)) % 2 ^ w := by simp [Lanes.sll, Lanes.sh]

theorem wrap_emod (i : ℤ) : (wrap w i : ℤ) % 2 ^ w = i % 2 ^ w := by rw [natCast_wrap, Int.emod_emod]

include hb in
theorem lanesSub_emod : (Lanes.sub w a b : ℤ) % 2 ^ w = ((a : ℤ) - b) % 2 ^ w := by
  rw [Lanes.sub, Int.natCast_mod, Nat.cast_sub (by omega)]
  push_cast
  rw [Int.emod_emod, add_sub_right_comm, Int.add_emod_right]

include ha in
theorem lanesAbs_emod : (Lanes.abs w a : ℤ) % 2 ^ w = |Sg w a| % 2 ^ w := by
  rw [Lanes.abs, signed_eq ha, Int.natCast_mod, Int.natCast_natAbs]
  push_cast
  rw [Int.emod_emod]

include ha in
theorem lanesSra_emod : (Lanes.sra w a b : ℤ) % 2 ^ w = (Sg w a / 2 ^ (b % w)) % 2 ^ w := by
  rw [Lanes.sra, wrap_emod, signed_eq ha, Lanes.sh]
  push_cast
  rfl

include ha hb

theorem lanesMulh_emod : (Lanes.mulh w a b : ℤ) % 2 ^ w = (Sg w a * Sg w b / 2 ^ w) % 2 ^ w := by
  rw [Lanes.mulh, wrap_emod, signed_eq ha, signed_eq hb]
  push_cast
  rfl

theorem lanesAdds_emod : (Lanes.adds w a b : ℤ) % 2 ^ w = clamped w (Sg w a + Sg w b) % 2 ^ w := by
  rw [Lanes.adds, wrap_emod, clampS_eq, signed_eq ha, signed_eq hb]

theorem lanesSubs_emod : (Lanes.subs w a b : ℤ) % 2 ^ w = clamped w (Sg w a - Sg w b) % 2 ^ w := by
  rw [Lanes.subs, wrap_emod, clampS_eq, signed_eq ha, signed_eq hb]

theorem lanesMin_emod : (Lanes.min w a b : ℤ) % 2 ^ w = min (Sg w a) (Sg w b) % 2 ^ w := by
  rw [Lanes.min, signed_eq ha, signed_eq hb, min_def_lt]
  split <;> exact (sg_emod w _).symm

theorem lanesMax_emod : (Lanes.max w a b : ℤ) % 2 ^ w = max (Sg w a) (Sg w b) % 2 ^ w := by
  rw [Lanes.max, signed_eq ha, signed_eq hb, max_def_lt]
  split <;> exact (sg_emod w _).symm

end

/-- A member of Table 5-5 is its function of two lanes. -/
theorem vint_of {mk : Ty → VReg → VReg → VReg → MReg → Instr} {g : ℕ → ℕ → ℕ → ℤ} {f : ℕ → ℕ → ℕ → ℕ}
    (hf : ∀ {w a b : ℕ}, a < 2 ^ w → b < 2 ^ w → (f w a b : ℤ) % 2 ^ w = g w a b % 2 ^ w)
    (hmk : ∀ s ty d a b m, exec (mk ty d a b m) s = s.vint f ty d a b m) : VInt mk g := by
  intro s ty d a b m _
  rw [hmk]
  exact lanewise_laneMap (laneWidth ty) d m (s.getV d) fun i => hf (lane_lt _ _ i) (lane_lt _ _ i)

/-- Settles O13: each result modulo 2^w. -/
theorem vectorInteger : Obligations.VectorInteger := by
  refine ⟨vint_of (fun _ _ => lanesAdd_emod) ?_, vint_of (fun _ hb => lanesSub_emod hb) ?_, vint_of (fun _ _ => lanesMul_emod) ?_,
    vint_of lanesMulh_emod ?_, vint_of lanesAdds_emod ?_, vint_of lanesSubs_emod ?_,
    vint_of (f := fun w a _ => Lanes.abs w a) (fun ha _ => lanesAbs_emod ha) ?_, vint_of lanesMin_emod ?_, vint_of lanesMax_emod ?_,
    vint_of (f := Lanes.and) (fun _ _ => rfl) ?_, vint_of (f := Lanes.or) (fun _ _ => rfl) ?_, vint_of (f := Lanes.xor) (fun _ _ => rfl) ?_,
    vint_of (fun _ _ => lanesSll_emod) ?_, vint_of (f := Lanes.srl) (fun _ _ => rfl) ?_, vint_of (fun ha _ => lanesSra_emod ha) ?_⟩
  all_goals exact fun _ _ _ _ _ _ => rfl

end Sys2Proof.Proofs.Vector
end

section
/-!
PROOFS. Vector float members that round (spec/05, R133, R143 to R145; O14) and VCVT (R150, R151; O17): lanes in ascending order, each from
the generator state and the flags that the lane before it left.
-/
namespace Sys2Proof.Proofs.Vector
open Sys2Proof.Machine Sys2Proof.Claims Sys2Proof.Proofs.Float

/-! ## Float lanes -/

section
variable {ty : Ty} (h : ty.isInt = false)
include h

theorem laneVal_float (v : Vec) (i : ℕ) : laneVal v ty i = LF ty v i := by
  rw [laneVal, h, if_neg Bool.false_ne_true]
  rfl

theorem width_ty : (fmtOfTy ty).width = laneBits ty := by
  cases ty with
  | i8 | i16 | i32 | i64 => cases h
  | bf16 | fp16 | fp32 => rfl

/-- The code that a rounding gives is a lane. -/
theorem rnd_lane_lt (mode : Rm) (x : FV) (st : Fst) : (rnd (fmtOfTy ty) mode false x st).1 < 2 ^ laneBits ty := by
  rw [← width_ty h]
  exact rnd_lt (isIeee_ty ty) mode false x st

end

/-- The value of a lane of any type. -/
theorem laneVal_eq (ty : Ty) (v : Vec) (i : ℕ) :
    laneVal v ty i = if ty.isInt then FV.ofInt (Sg (laneBits ty) (L v (laneBits ty) i)) else (fmtOfTy ty).decode (L v (laneBits ty) i) := by
  rw [laneVal, lane_eq, signed_eq (lane_lt v _ i)]

/-! ## One rounding a lane -/

section
variable (s : State) {ty : Ty} (d : VReg) (m : MReg)

/-- What a fold over the first n lanes leaves of the machine. -/
theorem gives_lanes (w n : ℕ) (f : ℕ → Fst → ℕ × Fst) :
    let r := laneFold w (s.mask m) (s.getV d) f (countFrom 0 n) s.me.fpStart
    let st := laneState w (s.mask m) f s.me.fpStart n
    Gives (((s.modMe (·.fpDone r.2)).setV d (ofLanes w r.1)).fin 4) fun t => Retired s t (nextPc s 4) ∧ SameX s t ∧
      OnlyV s t d (ofLanes w r.1) ∧ SameM s t ∧ Raised s t st.flags st.seed := by
  intro r st
  have hr : r.2 = st := by
    have := laneFold_eq w (s.mask m) (s.getV d) f s.me.fpStart 0 n
    rw [Nat.zero_add] at this
    exact congrArg Prod.snd this
  rw [← hr]
  exact gives_setV s r.2 d _ (modMe_fpDone s r.2)

theorem inOrder_vround {w : ℕ} (h : LaneWidth w) {f : ℕ → Fst → ℕ × Fst} (hf : ∀ i st, (f i st).1 < 2 ^ w) :
    InOrder s (s.vround w d m f) d m w f :=
  ⟨_, laneState w (s.mask m) f s.me.fpStart, rfl, fun _ hi => lane_laneFold h le_rfl m (s.getV d) hf _ hi, gives_lanes s d m w (512 / w) f⟩

theorem inOrder_vflt (h : ty.isInt = false) (mode : Rm) (f : ℕ → FV × BitVec 5) :
    InOrder s (s.vflt ty d m mode f) d m (laneBits ty) fun i st => rnd (fmtOfTy ty) mode false (f i).1 (st.raise (f i).2) :=
  inOrder_vround s d m (laneWidth ty) fun _ _ => rnd_lane_lt h mode _ _

end

/-- A member that rounds each lane is its exact result of the lanes' values. -/
theorem vflt_of {mk : Ty → VReg → VReg → VReg → MReg → Instr} {fixed : Option Rm} {g : Rm → FV → FV → FV → FV × BitVec 5}
    (hmk : ∀ s ty d a b m, exec (mk ty d a b m) s = s.vflt ty d m (fixed.getD s.vmode) fun i =>
      g (fixed.getD s.vmode) (laneVal (s.getV a) ty i) (laneVal (s.getV b) ty i) (laneVal (s.getV d) ty i)) : VFlt mk fixed g := by
  intro s ty d a b m h
  have ho := inOrder_vflt s d m h (fixed.getD s.vmode) fun i =>
    g (fixed.getD s.vmode) (laneVal (s.getV a) ty i) (laneVal (s.getV b) ty i) (laneVal (s.getV d) ty i)
  rw [← hmk] at ho
  simp only [laneVal_float h, State.vmode, mode_eq] at ho
  exact ho

/-- Settles O14: every member is one rounding of its exact result in each active lane. -/
theorem vectorFloat : Obligations.VectorFloat := by
  refine ⟨vflt_of ?_, vflt_of ?_, vflt_of ?_, vflt_of ?_, vflt_of ?_, vflt_of ?_, vflt_of ?_, vflt_of ?_, vflt_of ?_⟩
  all_goals exact fun _ _ _ _ _ _ => rfl

/-! ## VCVT -/

/-- The element that VCVT writes, before it is reduced to the lane. -/
def vcvtElem (dty sty : Ty) (mode : Rm) (v : Vec) (i : ℕ) (st : Fst) : ℤ × Fst :=
  let wd := laneBits dty
  let x := L v (laneBits sty) i
  let value := if sty.isInt then FV.ofInt (Sg (laneBits sty) x) else (fmtOfTy sty).decode x
  if dty.isInt ∧ sty.isInt then (clamped wd (Sg (laneBits sty) x), st)
  else if dty.isInt then rndInt (-2 ^ (wd - 1)) (2 ^ (wd - 1) - 1) 0 mode value st
  else ((rnd (fmtOfTy dty) mode false value st).1, (rnd (fmtOfTy dty) mode false value st).2)

section
variable (dty sty : Ty) (mode : Rm) (v : Vec) (i : ℕ) (st : Fst)

theorem vcvtLane_eq : ((vcvtLane dty sty mode v i st).1 : ℤ) = (vcvtElem dty sty mode v i st).1 % 2 ^ laneBits dty ∧
    (vcvtLane dty sty mode v i st).2 = (vcvtElem dty sty mode v i st).2 := by
  unfold vcvtLane vcvtElem
  dsimp only
  rw [lane_eq, signed_eq (lane_lt v _ i), clampS_eq, laneVal_eq]
  cases hd : dty.isInt
  · have hlt := rnd_lane_lt hd mode (if sty.isInt then FV.ofInt (Sg (laneBits sty) (L v (laneBits sty) i))
      else (fmtOfTy sty).decode (L v (laneBits sty) i)) st
    refine ⟨?_, rfl⟩
    exact (Int.emod_eq_of_lt (Int.natCast_nonneg _) (by exact_mod_cast hlt)).symm
  · cases sty.isInt
    · simp [natCast_wrap]
    · simp [natCast_wrap]

theorem vcvtLane_lt : (vcvtLane dty sty mode v i st).1 < 2 ^ laneBits dty := by
  have h := (vcvtLane_eq dty sty mode v i st).1
  have hlt := Int.emod_lt_of_pos (vcvtElem dty sty mode v i st).1 (show (0 : ℤ) < 2 ^ laneBits dty by positivity)
  rw [← h] at hlt
  exact_mod_cast hlt

end

/-- Settles O17: the elements in ascending order, the bits above them zero. -/
theorem vectorConvert : Obligations.VectorConvert := by
  intro s dty sty d a m ws wd n M x value elem
  have hn : n ≤ 512 / wd := Nat.div_le_div_left (le_max_right ws wd) (laneWidth dty).pos
  have hw : wd * n ≤ 512 := (Nat.mul_le_mul_left wd hn).trans (laneWidth dty).whole.le
  let f := vcvtLane dty sty s.vmode (s.getV a)
  have hf : ∀ i st, ((f i st).1 : ℤ) = (elem i st).1 % 2 ^ wd ∧ (f i st).2 = (elem i st).2 := by
    intro i st
    have hM : s.vmode = M := mode_eq s .dyn
    change _ = (vcvtElem dty sty M (s.getV a) i st).1 % 2 ^ wd ∧ _ = (vcvtElem dty sty M (s.getV a) i st).2
    rw [← hM]
    exact vcvtLane_eq dty sty s.vmode (s.getV a) i st
  have hlen : (laneFold wd (s.mask m) (s.getV d) f (countFrom 0 n) s.me.fpStart).1.length = n := by
    have := laneFold_eq wd (s.mask m) (s.getV d) f s.me.fpStart 0 n
    rw [laneState] at this
    rw [this, List.length_map, countFrom_zero, List.length_range]
  refine ⟨ofLanes wd (laneFold wd (s.mask m) (s.getV d) f (countFrom 0 n) s.me.fpStart).1, laneState wd (s.mask m) f s.me.fpStart, rfl,
    ?_, fun i hi => ?_, gives_lanes s d m wd n f⟩
  · rw [toNat_ofLanes (by rw [hlen]; exact hw)]
    exact (packLanes_lt wd _).trans_eq (by rw [hlen, Nat.mul_comm])
  · obtain ⟨hact, hno⟩ := lane_laneFold (laneWidth dty) hn m (s.getV d) (fun i st => vcvtLane_lt dty sty s.vmode (s.getV a) i st) s.me.fpStart hi
    refine ⟨fun ha => ?_, hno⟩
    obtain ⟨hl, hs⟩ := Prod.ext_iff.mp (hact ha)
    obtain ⟨hf1, hf2⟩ := hf i (laneState wd (s.mask m) f s.me.fpStart i)
    exact ⟨(congrArg Nat.cast hl).trans hf1, hs.trans hf2⟩

end Sys2Proof.Proofs.Vector
end

section
/-!
PROOFS. Vector moves and the mask members (spec/05, R145, R147, R152; O18): each writes one register with lanes or bits taken from the
registers as they stood before it.
-/
namespace Sys2Proof.Proofs.Vector
open Sys2Proof.Machine Sys2Proof.Claims Sys2Proof.Proofs.Integer

/-! ## Extract, insert, dot product -/

theorem extract_eq (ty : Ty) (v : Vec) (k : ℕ) : extract ty v k =
    if k < 512 / laneBits ty then (if ty.isInt then low (Sg (laneBits ty) (L v (laneBits ty) k)) else low (L v (laneBits ty) k)) else 0 := by
  unfold extract
  dsimp only
  rw [lane_eq, signed_eq (lane_lt v _ k), low_natCast]
  rfl

/-- VINS replaces lane k, if it is one. -/
theorem lane_insert (ty : Ty) (v : Vec) (x : Word) (k : ℕ) {i : ℕ} (hi : i < 512 / laneBits ty) :
    L (insert ty v x k) (laneBits ty) i = if i = k then x.toNat % 2 ^ laneBits ty else L v (laneBits ty) i := by
  refine (lane_ofLanes (laneWidth ty).whole.le (fun i => if i = k then x.toNat % 2 ^ laneBits ty else lane v (laneBits ty) i) hi).trans ?_
  split
  · exact Nat.mod_mod ..
  · exact Nat.mod_eq_of_lt (lane_lt v _ i)

/-- The sum that VDOT4 writes, before it wraps. -/
theorem dot4_emod (a b : Vec) (d i : ℕ) (hd : d < 2 ^ 32) : (dot4 a b d i : ℤ) % 2 ^ 32 =
    (Sg 32 d + Sg 8 (L a 8 (4 * i)) * Sg 8 (L b 8 (4 * i)) + Sg 8 (L a 8 (4 * i + 1)) * Sg 8 (L b 8 (4 * i + 1)) +
      Sg 8 (L a 8 (4 * i + 2)) * Sg 8 (L b 8 (4 * i + 2)) + Sg 8 (L a 8 (4 * i + 3)) * Sg 8 (L b 8 (4 * i + 3))) % 2 ^ 32 := by
  have hbyte : ∀ (v : Vec) (j : ℕ), signed 8 (lane v 8 j) = Sg 8 (L v 8 j) := fun v j => signed_eq (lane_lt v 8 j)
  have hlanes : countFrom (4 * i) 4 = [4 * i, 4 * i + 1, 4 * i + 2, 4 * i + 3] := by rw [countFrom_eq_range']; rfl
  rw [dot4, wrap_emod, signed_eq hd, hlanes]
  simp only [List.map_cons, List.map_nil, intDot, hbyte, add_zero, add_assoc]

/-- Settles O18: a move is a choice of lanes, a mask member a choice of bits. -/
theorem vectorMovesMasks : Obligations.VectorMovesMasks := by
  constructor
  · intro s ty d a b m xd xs xi w n va vb vd k sl
    have hw := laneWidth ty
    refine ⟨lanewise_laneMap hw d m vb fun _ => rfl, lanewise_laneMap hw d m vd fun _ => ?bcast, lanewise_laneMap hw d m vd fun _ => rfl,
      lanewise_laneMap hw d m vd fun i => ?slide, lanewise_laneMap hw d m vd fun _ => rfl, writesX_of_eq ?ext,
      ⟨_, fun i hi => lane_insert ty vd _ k hi, Float.writesV_setV s d _⟩,
      lanewise_laneMap (laneWidth .i32) d m vd fun i => dot4_emod va vb _ i (lane_lt vd 32 i)⟩
    case bcast =>
      push_cast
      exact Int.emod_emod ..
    case slide => exact congrArg (· % (2 ^ w : ℤ)) (Nat.cast_ite ..)
    case ext =>
      rw [← extract_eq]
      rfl
  · intro s d a b x p q
    have hnot : ~~~p = BitVec.ofFnLE fun i : Fin 64 => !p.getLsbD i := eq_ofFnLE fun i => by simp
    have hpop : Alu.popc p = low (onesBelow p 64) := by rw [low_natCast, ← ones_eq_onesBelow, Alu.popc]
    have hw : ∀ w, WritesM s (s.putM d w) d w := Float.writesM_setM s d
    exact ⟨and_eq_bits p q ▸ hw (p &&& q), or_eq_bits p q ▸ hw (p ||| q), xor_eq_bits p q ▸ hw (p ^^^ q), hnot ▸ hw (~~~p), hw _,
      writesX_of_eq (hpop ▸ rfl), ⟨_, ctz_spec p, writesX_of_eq rfl⟩, writesX_of_eq rfl⟩

end Sys2Proof.Proofs.Vector
end

section
/-!
PROOFS. VCMP, VFMIN and VFMAX (spec/05, R139, R144, R146, R147; O15): the bits of a mask that tell a lane's outcome, the flags of the
active lanes, and the choice of Table 5-3 in every lane.
-/
namespace Sys2Proof.Proofs.Vector
open Sys2Proof.Machine Sys2Proof.Claims Sys2Proof.Proofs.Float

/-! ## Mask bits and flags of a comparison -/

/-- Each bit of a lane's bytes tells the lane's outcome. -/
theorem getLsbD_maskLanes {w : ℕ} (h : LaneWidth w) (c : ℕ → Bool) {i k : ℕ} (hi : i < 512 / w) (hk : k < w / 8) :
    (BitVec.ofNat 64 (packLanes (w / 8) ((countFrom 0 (512 / w)).map fun i => if c i then 2 ^ (w / 8) - 1 else 0))).getLsbD (w / 8 * i + k)
      = c i := by
  have hb := h.byte_lt hi
  have hlane := packLanes_lane (w / 8) ((countFrom 0 (512 / w)).map fun i => if c i then 2 ^ (w / 8) - 1 else 0) i
  have hbit := congrArg (Nat.testBit · k) hlane
  simp only [Nat.testBit_mod_two_pow, Nat.testBit_div_two_pow, hk, decide_true, Bool.true_and] at hbit
  rw [BitVec.getLsbD_ofNat, decide_eq_true (by omega), Bool.true_and, Nat.add_comm, hbit, countFrom_zero]
  cases hc : c i <;> simp [hi, hc, hk, Nat.testBit_two_pow_sub_one]

/-- NV is raised where one lane raises it. -/
theorem foldl_flags (l : List (Bool × BitVec 5)) (hl : ∀ p ∈ l, p.2 = 1 ∨ p.2 = 0) :
    (l.foldl (fun f p => f ||| p.2) 0 = 1 ∧ ∃ p ∈ l, p.2 = 1) ∨ (l.foldl (fun f p => f ||| p.2) 0 = 0 ∧ ∀ p ∈ l, p.2 = 0) := by
  induction l using List.reverseRecOn with
  | nil => exact .inr ⟨rfl, by simp⟩
  | append_singleton l p ih =>
    have hp := hl p (by simp)
    rw [List.foldl_append, List.foldl_cons, List.foldl_nil]
    rcases ih fun q hq => hl q (List.mem_append_left _ hq) with ⟨hf, q, hq, hq1⟩ | ⟨hf, h0⟩
    · refine .inl ⟨?_, q, List.mem_append_left _ hq, hq1⟩
      rcases hp with hp | hp <;> rw [hf, hp] <;> decide
    · rcases hp with hp | hp
      · exact .inl ⟨by rw [hf, hp]; decide, p, by simp, hp⟩
      · refine .inr ⟨by rw [hf, hp]; decide, fun q hq => ?_⟩
        rcases List.mem_append.mp hq with hq | hq
        · exact h0 q hq
        · rw [List.mem_singleton.mp hq, hp]

/-! ## One lane -/

/-- The outcome and the flags of a comparison of two lanes. -/
def laneCmp (cmp : Cmp) (ty : Ty) (x y : ℕ) : Bool × BitVec 5 :=
  if ty.isInt then (cmpInt cmp (laneBits ty) x y, 0) else cmpFlt cmp ((fmtOfTy ty).decode x) ((fmtOfTy ty).decode y)

theorem vcmpLane_eq (s : State) (cmp : Cmp) (ty : Ty) (a b : VReg) (m : MReg) (i : ℕ) : s.vcmpLane cmp ty a b (s.mask m) i =
    if activeLane (s.mask m) (laneBits ty) i then laneCmp cmp ty (L (s.getV a) (laneBits ty) i) (L (s.getV b) (laneBits ty) i)
    else (false, 0) := by
  unfold State.vcmpLane laneCmp
  dsimp only
  cases activeLane (s.mask m) (laneBits ty) i
  · rfl
  · cases h : ty.isInt
    · rw [laneVal_float h, laneVal_float h]
      rfl
    · rfl

/-- What a comparison of two lanes has to tell. -/
def LaneCmp (cmp : Cmp) (ty : Ty) (c nv : ℕ → ℕ → Prop) : Prop :=
  ∀ x y, x < 2 ^ laneBits ty → y < 2 ^ laneBits ty → ((laneCmp cmp ty x y).1 = true ↔ c x y) ∧
    (((laneCmp cmp ty x y).2 = 1 ∧ nv x y) ∨ ((laneCmp cmp ty x y).2 = 0 ∧ ¬nv x y))

section
variable {ty : Ty} {cmp : Cmp} {c nv : ℕ → ℕ → Prop} (hcmp : LaneCmp cmp ty c nv) (s : State) (a b : VReg) (m : MReg)
include hcmp

/-- An inactive lane is false and raises nothing. -/
theorem vcmpLane_rows {i : ℕ} (hi : i < 512 / laneBits ty) :
    let r := s.vcmpLane cmp ty a b (s.mask m) i
    let x := L (s.getV a) (laneBits ty) i
    let y := L (s.getV b) (laneBits ty) i
    (r.1 = true ↔ Act s m (laneBits ty) i ∧ c x y) ∧
      ((r.2 = 1 ∧ Act s m (laneBits ty) i ∧ nv x y) ∨ (r.2 = 0 ∧ (Act s m (laneBits ty) i → ¬nv x y))) := by
  intro r x y
  have hxy := hcmp x y (lane_lt _ _ i) (lane_lt _ _ i)
  have hr : r = _ := vcmpLane_eq s cmp ty a b m i
  rw [hr, ← activeLane_iff (laneWidth ty) hi]
  split
  · next ha => simpa [ha] using hxy
  · next ha => simp [ha]

/-- The flags of VCMP are those of the active lanes. -/
theorem vcmp_flags :
    let f := ((countFrom 0 (512 / laneBits ty)).map (s.vcmpLane cmp ty a b (s.mask m))).foldl (fun f p => f ||| p.2) 0
    let x := fun i => L (s.getV a) (laneBits ty) i
    let y := fun i => L (s.getV b) (laneBits ty) i
    (f = 1 ∧ ∃ i, i < 512 / laneBits ty ∧ Act s m (laneBits ty) i ∧ nv (x i) (y i)) ∨
      (f = 0 ∧ ∀ i, i < 512 / laneBits ty → Act s m (laneBits ty) i → ¬nv (x i) (y i)) := by
  intro f x y
  have hmem : ∀ p, p ∈ (countFrom 0 (512 / laneBits ty)).map (s.vcmpLane cmp ty a b (s.mask m)) ↔
      ∃ i, i < 512 / laneBits ty ∧ s.vcmpLane cmp ty a b (s.mask m) i = p := by simp [countFrom_zero]
  have hrows {i : ℕ} (hi : i < 512 / laneBits ty) := (vcmpLane_rows hcmp s a b m hi).2
  have hbit := foldl_flags ((countFrom 0 (512 / laneBits ty)).map (s.vcmpLane cmp ty a b (s.mask m))) fun p hp => by
    obtain ⟨i, hi, rfl⟩ := (hmem p).mp hp
    exact (hrows hi).imp And.left And.left
  rcases hbit with ⟨hf, p, hp, h1⟩ | ⟨hf, h0⟩
  · obtain ⟨i, hi, rfl⟩ := (hmem p).mp hp
    rcases hrows hi with ⟨-, hn⟩ | ⟨h, -⟩
    · exact .inl ⟨hf, i, hi, hn⟩
    · exact absurd (h1.symm.trans h) (by decide)
  · refine .inr ⟨hf, fun i hi ha => ?_⟩
    rcases hrows hi with ⟨h, -⟩ | ⟨-, hn⟩
    · exact absurd (h.symm.trans (h0 _ ((hmem _).mpr ⟨i, hi, rfl⟩))) (by decide)
    · exact hn ha

end

/-- VCMP is its comparison of two lanes. -/
theorem vcompares_of {mk : Ty → MReg → VReg → VReg → MReg → Instr} {ty : Ty} {cmp : Cmp} {c nv : ℕ → ℕ → Prop}
    (hcmp : LaneCmp cmp ty c nv) (hmk : ∀ s d a b m, exec (mk ty d a b m) s = s.vcmp cmp ty d a b m) : VCompares mk ty c nv := by
  intro s d a b m w x y
  refine ⟨BitVec.ofNat 64 (packLanes (w / 8) ((countFrom 0 (512 / w)).map fun i =>
    if (s.vcmpLane cmp ty a b (s.mask m) i).1 then 2 ^ (w / 8) - 1 else 0)), _, fun i k hi hk => ?_, vcmp_flags hcmp s a b m, ?_⟩
  · rw [getLsbD_maskLanes (laneWidth ty) (fun i => (s.vcmpLane cmp ty a b (s.mask m) i).1) hi hk]
    exact (vcmpLane_rows hcmp s a b m hi).1
  · have hg := fun f v => gives_setM s ⟨s.me.csr.srseed, f⟩ d v (modMe_raiseFlags s f)
    rw [hmk, State.vcmp]
    simp only [List.map_map]
    exact hg _ _

/-! ## The comparisons -/

theorem laneCmp_int {cmp : Cmp} {ty : Ty} (h : ty.isInt = true) {c : ℕ → ℕ → Prop}
    (hc : ∀ x y, x < 2 ^ laneBits ty → y < 2 ^ laneBits ty → (cmpInt cmp (laneBits ty) x y = true ↔ c x y)) :
    LaneCmp cmp ty c fun _ _ => False := by
  intro x y hx hy
  rw [laneCmp, if_pos h]
  exact ⟨hc x y hx hy, .inr ⟨rfl, id⟩⟩

theorem laneCmp_float {cmp : Cmp} {ty : Ty} (h : ty.isInt = false) {c nv : FV → FV → Prop}
    (hc : ∀ x y, Uncut x → Uncut y → ((cmpFlt cmp x y).1 = true ↔ c x y) ∧
      (((cmpFlt cmp x y).2 = 1 ∧ nv x y) ∨ ((cmpFlt cmp x y).2 = 0 ∧ ¬nv x y))) :
    LaneCmp cmp ty (fun a b => c ((fmtOfTy ty).decode a) ((fmtOfTy ty).decode b))
      fun a b => nv ((fmtOfTy ty).decode a) ((fmtOfTy ty).decode b) := by
  intro x y hx hy
  rw [← width_ty h] at hx hy
  rw [laneCmp, h, if_neg Bool.false_ne_true]
  exact hc _ _ (uncut_decode (isIeee_ty ty) hx) (uncut_decode (isIeee_ty ty) hy)

/-- The flags of LT and LE. -/
theorem nanFlag_rows (x y : FV) : (nanFlag x y = 1 ∧ (x = .nan ∨ y = .nan)) ∨ (nanFlag x y = 0 ∧ ¬(x = .nan ∨ y = .nan)) := by
  classical
  rw [nanFlag_eq]
  by_cases h : x = .nan ∨ y = .nan
  · exact .inl ⟨if_pos h, h⟩
  · exact .inr ⟨if_neg h, h⟩

/-! ## VFMIN and VFMAX -/

/-- Results that take no draw and raise nothing leave the generator and the flags. -/
theorem laneState_const {w : ℕ} {m : Word} {f : ℕ → Fst → ℕ × Fst} (hf : ∀ i st, (f i st).2 = st) (st : Fst) (n : ℕ) :
    laneState w m f st n = st := by
  induction n with
  | zero => rfl
  | succ n ih => rw [laneState, ih, hf, ite_self]

/-- Every active lane takes the code of the operand that is picked. -/
theorem writesV_vpick (s : State) (max : Bool) {ty : Ty} (h : ty.isInt = false) (d a b : VReg) (m : MReg) :
    ∃ v, (∀ i, i < 512 / laneBits ty → (¬Act s m (laneBits ty) i → L v (laneBits ty) i = L (s.getV d) (laneBits ty) i) ∧
      (Act s m (laneBits ty) i → L v (laneBits ty) i = Fmt.exact (fmtOfTy ty) (fPick max (LF ty (s.getV a) i) (LF ty (s.getV b) i)))) ∧
      WritesV s (s.vpick max ty d a b m) d v := by
  let f : ℕ → Fst → ℕ × Fst := fun i st =>
    (Fmt.exact (fmtOfTy ty) (fPick max (laneVal (s.getV a) ty i) (laneVal (s.getV b) ty i)), st)
  have hlt : ∀ i st, (f i st).1 < 2 ^ laneBits ty := fun i st => rnd_lane_lt h _ _ _
  refine ⟨ofLanes (laneBits ty) (laneFold (laneBits ty) (s.mask m) (s.getV d) f (countFrom 0 (512 / laneBits ty)) s.me.fpStart).1,
    fun i hi => ?_, ?_⟩
  · obtain ⟨hact, hno⟩ := lane_laneFold (laneWidth ty) le_rfl m (s.getV d) hlt s.me.fpStart hi
    refine ⟨fun ha => (hno ha).1, fun ha => ?_⟩
    rw [← laneVal_float h, ← laneVal_float h]
    exact (Prod.ext_iff.mp (hact ha)).1
  · obtain ⟨t, ht, hret, hx, hv, hm, hr⟩ := gives_lanes s d m (laneBits ty) (512 / laneBits ty) f
    rw [laneState_const (fun _ _ => rfl)] at hr
    exact ⟨t, ht, hret, hx, hv, hm, sameF_of_raised hr⟩

/-- The rows of Table 5-3 for a lane. -/
theorem laneRows_of_chosen {f : Fmt} {a b : ℕ} {less : Prop} {k : ℕ} (h : Chosen f a b less k) :
    (f.decode a = .nan ∧ f.decode b = .nan → k = f.nan) ∧ (f.decode a = .nan ∧ f.decode b ≠ .nan → k = b) ∧
      (f.decode a ≠ .nan ∧ f.decode b = .nan → k = a) ∧ (f.decode a ≠ .nan ∧ f.decode b ≠ .nan ∧ less → k = a) ∧
      (f.decode a ≠ .nan ∧ f.decode b ≠ .nan ∧ ¬less → k = b) :=
  ⟨fun ⟨x, y⟩ => h.both x y, fun ⟨x, y⟩ => h.right x y, fun ⟨x, y⟩ => h.left x y, fun ⟨x, y, l⟩ => h.first x y l,
    fun ⟨x, y, l⟩ => h.second x y l⟩

/-- Settles O15: a comparison lane by lane, and the choice of the scalar members in every lane. -/
theorem vectorMinMaxCompare : Obligations.VectorMinMaxCompare := by
  refine ⟨?int, ?float, ?pick⟩
  case int =>
    intro ty h w
    have hs : ∀ {n}, n < 2 ^ w → signed w n = Sg w n := signed_eq
    refine ⟨vcompares_of (laneCmp_int h fun x y _ _ => ?_) fun _ _ _ _ _ => rfl,
      vcompares_of (laneCmp_int h fun x y _ _ => ?_) fun _ _ _ _ _ => rfl,
      vcompares_of (laneCmp_int h fun x y hx hy => ?_) fun _ _ _ _ _ => rfl,
      vcompares_of (laneCmp_int h fun x y hx hy => ?_) fun _ _ _ _ _ => rfl,
      vcompares_of (laneCmp_int h fun x y _ _ => ?_) fun _ _ _ _ _ => rfl,
      vcompares_of (laneCmp_int h fun x y _ _ => ?_) fun _ _ _ _ _ => rfl⟩
    · exact beq_iff_eq
    · exact bne_iff_ne
    · rw [← hs hx, ← hs hy]; exact decide_eq_true_iff
    · rw [← hs hx, ← hs hy]; exact decide_eq_true_iff
    · exact decide_eq_true_iff
    · exact decide_eq_true_iff
  case float =>
    intro ty h x nan
    have quiet {cmp : Cmp} {c : FV → FV → Prop} (hc : ∀ x y, Uncut x → Uncut y → ((cmpFlt cmp x y).1 = true ↔ c x y))
        (h0 : ∀ x y, (cmpFlt cmp x y).2 = 0) : LaneCmp cmp ty (fun a b => c (x a) (x b)) fun _ _ => False :=
      laneCmp_float h (nv := fun _ _ => False) fun x y hx hy => ⟨hc x y hx hy, .inr ⟨h0 x y, id⟩⟩
    have loud {cmp : Cmp} {c : FV → FV → Prop} (hc : ∀ x y, Uncut x → Uncut y → ((cmpFlt cmp x y).1 = true ↔ c x y))
        (hn : ∀ x y, (cmpFlt cmp x y).2 = nanFlag x y) : LaneCmp cmp ty (fun a b => c (x a) (x b)) nan :=
      laneCmp_float h fun x y hx hy => ⟨hc x y hx hy, hn x y ▸ nanFlag_rows x y⟩
    have hne (x y : FV) (hx : Uncut x) (hy : Uncut y) : (cmpFlt .ne x y).1 = true ↔ ¬NumEq x y := by
      rw [← fSame_iff hx hy]
      simp [cmpFlt]
    exact ⟨vcompares_of (quiet (cmp := .eq) (fun _ _ => fSame_iff) fun _ _ => rfl) fun _ _ _ _ _ => rfl,
      vcompares_of (quiet (cmp := .ne) (c := fun x y => ¬NumEq x y) hne fun _ _ => rfl) fun _ _ _ _ _ => rfl,
      vcompares_of (loud (cmp := .lt) (fun _ _ => fLess_iff) fun _ _ => rfl) fun _ _ _ _ _ => rfl,
      vcompares_of (loud (cmp := .le) (fun _ _ => fLessEq_iff) fun _ _ => rfl) fun _ _ _ _ _ => rfl⟩
  case pick =>
    intro s ty d a b m h w x y zeros pick
    have hlt : ∀ (v : Vec) i, L v w i < 2 ^ (fmtOfTy ty).width := fun v i => width_ty h ▸ lane_lt v w i
    constructor
    · obtain ⟨v, hv, hw⟩ := writesV_vpick s false h d a b m
      refine ⟨v, fun i hi => ⟨(hv i hi).1, fun ha => ?_⟩, hw⟩
      rw [(hv i hi).2 ha]
      exact laneRows_of_chosen (chosen_min (isIeee_ty ty) (hlt _ i) (hlt _ i))
    · obtain ⟨v, hv, hw⟩ := writesV_vpick s true h d a b m
      refine ⟨v, fun i hi => ⟨(hv i hi).1, fun ha => ?_⟩, hw⟩
      rw [(hv i hi).2 ha]
      exact laneRows_of_chosen (chosen_max (isIeee_ty ty) (hlt _ i) (hlt _ i))

end Sys2Proof.Proofs.Vector
end

section
/-!
PROOFS. Reductions (spec/05, R148, R149; O16): the sum, the greatest and the least of a list of lanes, and the tree of a float reduction,
level by level and node by node.
-/
namespace Sys2Proof.Proofs.Vector
open Sys2Proof.Machine Sys2Proof.Claims Sys2Proof.Proofs.Integer Sys2Proof.Proofs.Float

/-! ## Integer lanes -/

theorem sum_filter_map (l : List ℕ) (p : ℕ → Bool) (g : ℕ → ℤ) : ((l.filter p).map g).sum = (l.map fun i => if p i then g i else 0).sum := by
  induction l with
  | nil => rfl
  | cons i l ih =>
    rw [List.filter_cons, List.map_cons, List.sum_cons, ← ih]
    split <;> simp

/-- The greater of two integers, or the lesser. -/
theorem extreme_pair (e z : ℤ) : (if decide (e < z) == true then z else e) = max e z ∧ (if decide (e < z) == false then z else e) = min e z := by
  rcases lt_or_ge e z with h | h
  · simp [h, h.le]
  · simp [h, not_lt.mpr h]

theorem extreme_append (b : Bool) (a : ℤ) (l : List ℤ) (z : ℤ) :
    extreme b (a :: (l ++ [z])) = if decide (extreme b (a :: l) < z) == b then z else extreme b (a :: l) := by
  rw [extreme, extreme, List.foldl_append, List.foldl_cons, List.foldl_nil]

theorem extreme_mem (b : Bool) (a : ℤ) (l : List ℤ) : extreme b (a :: l) ∈ a :: l := by
  induction l using List.reverseRecOn with
  | nil => exact List.mem_singleton.mpr rfl
  | append_singleton l z ih =>
    rw [extreme_append, ← List.cons_append]
    split
    · exact List.mem_append_right _ (List.mem_singleton.mpr rfl)
    · exact List.mem_append_left _ ih

theorem le_extreme (a : ℤ) (l : List ℤ) : ∀ y ∈ a :: l, y ≤ extreme true (a :: l) := by
  induction l using List.reverseRecOn with
  | nil => exact fun y hy => (List.mem_singleton.mp hy).le
  | append_singleton l z ih =>
    intro y hy
    rw [extreme_append, (extreme_pair _ z).1]
    rcases List.mem_append.mp (List.cons_append ▸ hy) with hy | hy
    · exact (ih y hy).trans (le_max_left ..)
    · exact (List.mem_singleton.mp hy).le.trans (le_max_right ..)

theorem extreme_le (a : ℤ) (l : List ℤ) : ∀ y ∈ a :: l, extreme false (a :: l) ≤ y := by
  induction l using List.reverseRecOn with
  | nil => exact fun y hy => (List.mem_singleton.mp hy).ge
  | append_singleton l z ih =>
    intro y hy
    rw [extreme_append, (extreme_pair _ z).2]
    rcases List.mem_append.mp (List.cons_append ▸ hy) with hy | hy
    · exact (min_le_left ..).trans (ih y hy)
    · exact (min_le_right ..).trans (List.mem_singleton.mp hy).ge

section
variable (s : State) (ty : Ty) (a : VReg) (m : MReg)

/-- The active lanes as signed numbers. -/
theorem sumLanes_eq : s.sumLanes ty a m = ((List.range (512 / laneBits ty)).filter (activeLane (s.mask m) (laneBits ty))).map
    fun i => Sg (laneBits ty) (L (s.getV a) (laneBits ty) i) := by
  rw [State.sumLanes, laneCount, countFrom_zero]
  exact List.map_congr_left fun i _ => signed_eq (lane_lt _ _ i)

theorem mem_sumLanes {y : ℤ} : y ∈ s.sumLanes ty a m ↔
    ∃ i, i < 512 / laneBits ty ∧ Act s m (laneBits ty) i ∧ Sg (laneBits ty) (L (s.getV a) (laneBits ty) i) = y := by
  rw [sumLanes_eq]
  simp only [List.mem_map, List.mem_filter, List.mem_range, and_assoc]
  refine exists_congr fun i => and_congr_right fun hi => ?_
  rw [activeLane_iff (laneWidth ty) hi]

/-- The sum over the active lanes is the sum over all lanes, the inactive ones 0. -/
theorem foldl_sumLanes {f : ℕ → ℤ} (hf : ∀ i, (Act s m (laneBits ty) i → f i = Sg (laneBits ty) (L (s.getV a) (laneBits ty) i)) ∧
    (¬Act s m (laneBits ty) i → f i = 0)) :
    (s.sumLanes ty a m).foldl (· + ·) 0 = ((List.range (512 / laneBits ty)).map f).sum := by
  rw [← List.sum_eq_foldl, sumLanes_eq, sum_filter_map]
  refine congrArg List.sum (List.map_congr_left fun i hi => ?_)
  have hact := activeLane_iff (s := s) (m := m) (laneWidth ty) (List.mem_range.mp hi)
  split
  · next ha => exact ((hf i).1 (hact.mp ha)).symm
  · next ha => exact ((hf i).2 (mt hact.mpr ha)).symm

/-- The extreme of the active lanes, where there is one. -/
theorem exists_extreme_sumLanes (max : Bool) (h : ∃ i, i < 512 / laneBits ty ∧ Act s m (laneBits ty) i) :
    ∃ k, k < 512 / laneBits ty ∧ Act s m (laneBits ty) k ∧
      extreme max (s.sumLanes ty a m) = Sg (laneBits ty) (L (s.getV a) (laneBits ty) k) ∧
      ∀ i, i < 512 / laneBits ty → Act s m (laneBits ty) i →
        if max then Sg (laneBits ty) (L (s.getV a) (laneBits ty) i) ≤ Sg (laneBits ty) (L (s.getV a) (laneBits ty) k)
        else Sg (laneBits ty) (L (s.getV a) (laneBits ty) k) ≤ Sg (laneBits ty) (L (s.getV a) (laneBits ty) i) := by
  obtain ⟨i, hi, ha⟩ := h
  have hmem := fun i hi ha => (mem_sumLanes s ty a m).mpr ⟨i, hi, ha, rfl⟩
  obtain ⟨b, l, hl⟩ := List.exists_cons_of_ne_nil (List.ne_nil_of_mem (hmem i hi ha))
  obtain ⟨k, hk, hka, hke⟩ := (mem_sumLanes s ty a m).mp (hl ▸ extreme_mem max b l)
  refine ⟨k, hk, hka, by rw [hke, hl], fun j hj hja => ?_⟩
  rw [hke, hl]
  cases max
  · exact extreme_le b l _ (hl ▸ hmem j hj hja)
  · exact le_extreme b l _ (hl ▸ hmem j hj hja)

/-- A list of no active lane. -/
theorem sumLanes_nil (h : ∀ i, i < 512 / laneBits ty → ¬Act s m (laneBits ty) i) : s.sumLanes ty a m = [] :=
  List.eq_nil_iff_forall_not_mem.mpr fun _ hy => by
    obtain ⟨i, hi, ha, -⟩ := (mem_sumLanes s ty a m).mp hy
    exact h i hi ha

end

/-! ## The tree of a float reduction -/

section
variable (op : FV → FV → Fst → FV × Fst)

/-- A node: two values combine, an absent one gives the other. -/
def treeNode : Option FV → Option FV → Fst → Option FV × Fst
  | some x, some y, st => (some (op x y st).1, (op x y st).2)
  | some x, none, st => (some x, st)
  | none, y, st => (y, st)

/-- The state before node `j` of the level above `node`. -/
def levelState (node : ℕ → Option FV) (st : Fst) : ℕ → Fst
  | 0 => st
  | j + 1 => (treeNode op (node (2 * j)) (node (2 * j + 1)) (levelState node st j)).2

/-- The nodes of level `l` over `n` leaves, and the state that the levels below it leave. -/
def treeRun (n : ℕ) (leaf : ℕ → Option FV) (st : Fst) : ℕ → (ℕ → Option FV) × Fst
  | 0 => (leaf, st)
  | l + 1 =>
    let p := treeRun n leaf st l
    (fun j => (treeNode op (p.1 (2 * j)) (p.1 (2 * j + 1)) (levelState op p.1 p.2 j)).1, levelState op p.1 p.2 (n / 2 ^ (l + 1)))

theorem treeLevel_cons (x y : Option FV) (r : List (Option FV)) (st : Fst) : treeLevel op (x :: y :: r) st =
    ((treeNode op x y st).1 :: (treeLevel op r (treeNode op x y st).2).1, (treeLevel op r (treeNode op x y st).2).2) := by
  rcases x with _ | x <;> rcases y with _ | y <;> rfl

/-- One level of the model's tree, pair after pair. -/
theorem treeLevel_eq (node : ℕ → Option FV) (st : Fst) (k n : ℕ) :
    treeLevel op ((countFrom (2 * k) (2 * n)).map node) (levelState op node st k) =
      ((countFrom k n).map fun j => (treeNode op (node (2 * j)) (node (2 * j + 1)) (levelState op node st j)).1,
        levelState op node st (k + n)) := by
  induction n generalizing k with
  | zero => rfl
  | succ n ih =>
    have hk : countFrom (2 * k) (2 * (n + 1)) = 2 * k :: (2 * k + 1) :: countFrom (2 * (k + 1)) (2 * n) := rfl
    rw [hk, List.map_cons, List.map_cons, treeLevel_cons, ← levelState, ih, countFrom, List.map_cons, Nat.add_right_comm, Nat.add_assoc]

/-- A single node stays as it is, level after level. -/
theorem tree_singleton (e : ℕ) (x : Option FV) (st : Fst) : tree op e [x] st = (x, st) := by
  induction e with
  | zero => rfl
  | succ e ih => exact ih

/-- The root of the model's tree is the last level's node. -/
theorem tree_eq {n : ℕ} (leaf : ℕ → Option FV) (st : Fst) (e k l : ℕ) (hn : n = 2 ^ (l + k)) :
    tree op (k + e) ((countFrom 0 (2 ^ k)).map (treeRun op n leaf st l).1) (treeRun op n leaf st l).2 =
      ((treeRun op n leaf st (l + k)).1 0, (treeRun op n leaf st (l + k)).2) := by
  induction k generalizing l with
  | zero =>
    rw [Nat.zero_add]
    exact tree_singleton op e _ _
  | succ k ih =>
    have hlevel := treeLevel_eq op (treeRun op n leaf st l).1 (treeRun op n leaf st l).2 0 (2 ^ k)
    have hdiv : n / 2 ^ (l + 1) = 2 ^ k := by
      rw [hn, show l + (k + 1) = k + (l + 1) by omega, Nat.pow_add, Nat.mul_div_cancel _ (Nat.two_pow_pos _)]
    have hnext := ih (l + 1) (by rw [hn]; congr 1; omega)
    rw [treeRun, hdiv, show l + 1 + k = l + (k + 1) by omega] at hnext
    rw [show k + 1 + e = k + e + 1 by omega, tree, Nat.pow_succ, Nat.mul_comm]
    rw [levelState, Nat.zero_add, Nat.mul_zero] at hlevel
    rw [hlevel]
    exact hnext

end

/-! ## The members -/

/-- The lanes of a float type number a power of two. -/
theorem exists_lanes_pow {ty : Ty} (h : ty.isInt = false) : ∃ k e, k + e = 6 ∧ 512 / laneBits ty = 2 ^ k := by
  cases ty with
  | i8 | i16 | i32 | i64 => cases h
  | bf16 | fp16 => exact ⟨5, 1, rfl, rfl⟩
  | fp32 => exact ⟨4, 2, rfl, rfl⟩

section
variable (s : State) {ty : Ty} (xd : LReg) (a : VReg) (m : MReg)

theorem vred_int (h : ty.isInt = true) (f : List ℤ → ℤ) (op : FV → FV → Fst → FV × Fst) :
    WritesX s (s.vred ty xd a m f op) 4 (lreg xd) (low (f (s.sumLanes ty a m))) :=
  writesX_of_eq (if_pos h)

/-- The leaves of the tree, an inactive lane absent. -/
def leaf (s : State) (ty : Ty) (a : VReg) (m : MReg) (i : ℕ) : Option FV :=
  if activeLane (s.mask m) (laneBits ty) i then some (laneVal (s.getV a) ty i) else none

/-- A float reduction is the run of its tree. -/
theorem vred_float (h : ty.isInt = false) (f : List ℤ → ℤ) (op : FV → FV → Fst → FV × Fst) :
    let n := 512 / laneBits ty
    let r := treeRun op n (leaf s ty a m) s.me.fpStart (Nat.log2 n)
    WritesF s (s.vred ty xd a m f op) 4 (lreg xd) (match r.1 0 with | some x => Fmt.exact .f32 x | none => 0) r.2.flags r.2.seed := by
  intro n r
  obtain ⟨k, e, hke, hn⟩ := exists_lanes_pow h
  have hlog : Nat.log2 n = k := by rw [show n = 2 ^ k from hn, Nat.log2_two_pow]
  have hr : tree op 6 (s.treeLanes ty a m) s.me.fpStart = (r.1 0, r.2) := by
    have htree := tree_eq op (n := n) (leaf s ty a m) s.me.fpStart e k 0 (hn.trans (by rw [Nat.zero_add]))
    rw [hke, Nat.zero_add, ← hn, ← hlog] at htree
    exact htree
  rw [State.vred, h, if_neg Bool.false_ne_true, hr]
  exact writesF_setX s r.2 (lreg xd) _ 4 (modMe_fpDone s r.2)

end

/-- Settles O16: integer reductions of the list of active lanes, float reductions node by node. -/
theorem vectorReduce : Obligations.VectorReduce := by
  constructor
  · classical
    intro s ty xd a m h w x none
    have hred := vred_int s xd a m h
    have hf : ∀ i, (Act s m w i → (if Act s m w i then x i else 0) = x i) ∧ (¬Act s m w i → (if Act s m w i then x i else 0) = 0) :=
      fun i => ⟨fun ha => if_pos ha, fun ha => if_neg ha⟩
    have hex (max : Bool) (hs : ¬none) : ∃ k, k < 512 / w ∧ Act s m w k ∧
        (∀ i, i < 512 / w → Act s m w i → if max then x i ≤ x k else x k ≤ x i) ∧
        WritesX s (s.vred ty xd a m (extreme max) (pickNode max)) 4 (lreg xd) (low (x k)) := by
      obtain ⟨k, hk, hka, hke, hall⟩ := exists_extreme_sumLanes s ty a m max (by simpa [none] using hs)
      have hw := hred (extreme max) (pickNode max)
      rw [hke] at hw
      exact ⟨k, hk, hka, hall, hw⟩
    have h0 (max : Bool) (hn : none) : WritesX s (s.vred ty xd a m (extreme max) (pickNode max)) 4 (lreg xd) 0 := by
      have hw := hred (extreme max) (pickNode max)
      rw [sumLanes_nil s ty a m hn] at hw
      exact hw
    refine ⟨⟨_, hf, ?_⟩, fun hn => ⟨h0 true hn, h0 false hn⟩, fun hs => ⟨hex true hs, hex false hs⟩⟩
    rw [← foldl_sumLanes s ty a m hf]
    exact hred (fun l => l.foldl (· + ·) 0) (sumNode s.vmode)
  · intro s ty xd a m h M add runs
    have hruns (f : List ℤ → ℤ) (op : FV → FV → Fst → FV × Fst) : runs (s.vred ty xd a m f op) op := by
      refine ⟨fun l => (treeRun op (512 / laneBits ty) (leaf s ty a m) s.me.fpStart l).1,
        fun l => levelState op (treeRun op (512 / laneBits ty) (leaf s ty a m) s.me.fpStart l).1
          (treeRun op (512 / laneBits ty) (leaf s ty a m) s.me.fpStart l).2, fun i hi => ?leaves, rfl, fun l _ => ⟨rfl, fun j _ => ?node⟩,
        vred_float s xd a m h f op⟩
      case leaves =>
        rw [← activeLane_iff (laneWidth ty) hi, ← laneVal_float h]
        exact ⟨fun ha => if_pos ha, fun ha => if_neg ha⟩
      case node =>
        dsimp only
        rw [treeRun, levelState]
        dsimp only
        generalize (treeRun op _ _ _ l).1 (2 * j) = p
        generalize (treeRun op _ _ _ l).1 (2 * j + 1) = q
        rcases p with _ | x <;> rcases q with _ | y <;> simp [treeNode]
    have hadd : sumNode s.vmode = add := by
      rw [State.vmode, mode_eq]
      rfl
    exact ⟨hadd ▸ hruns _ (sumNode s.vmode), hruns _ (pickNode true), hruns _ (pickNode false)⟩

end Sys2Proof.Proofs.Vector
end

section
/-!
PROOFS. The entry of matrix operations into the queue of a core (spec/06, R161, R166 to R169).
-/
namespace Sys2Proof.Proofs.Matrix
open Sys2Proof.Machine Sys2Proof.Claims Sys2Proof.Proofs.Encoding Sys2Proof.Proofs.Integer

/-! ## What enqueueing leaves -/

theorem drawN_drawState (w : Word) (n : Nat) : drawN (drawState w) n = drawState (drawN w n) := by
  induction n generalizing w with
  | zero => rfl
  | succ n ih => exact ih (drawState w)

/-- The draws of R168, one after the other. -/
theorem drawN_eq_rec (w : Word) (n : Nat) : drawN w n = Nat.rec (motive := fun _ => Word) w (fun _ w => drawState w) n := by
  induction n with
  | zero => rfl
  | succ n ih => rw [drawN, drawN_drawState, ih]

section
variable (s : State) (op : MxOp) (draws : Nat)

/-- The entry of an operation, which carries FRM and the generator state of this moment. -/
def entryOf : MxEntry := ⟨op, s.cur, s.me.csr.frm, s.me.csr.srseed⟩

theorem enqueue_rest : ∃ th k, s.enqueue op draws = { s with threads := th, cores := k } := by
  unfold State.enqueue
  split
  · exact ⟨_, _, rfl⟩
  · exact ⟨_, _, rfl⟩

theorem enqueue_me : (s.enqueue op draws).me = { s.me with csr := { s.me.csr with srseed := drawN s.me.csr.srseed draws } } := by
  unfold State.enqueue
  split
  case isTrue h =>
    subst h
    rfl
  case isFalse => exact State.me_modMe _ _

theorem enqueue_thr_other {j : Nat} (h : j ≠ s.cur) : (s.enqueue op draws).thr j = s.thr j := by
  unfold State.enqueue
  split
  case isTrue => rfl
  case isFalse => exact State.thr_modMe_other _ _ h

theorem enqueue_cores : (s.enqueue op draws).cores =
    (s.modMx s.myCore fun m => { m with queue := m.queue ++ [entryOf s op] }).cores := by
  unfold State.enqueue
  split <;> rfl

theorem enqueue_core : (s.enqueue op draws).core s.myCore = { s.core s.myCore with mx := { (s.core s.myCore).mx with
    queue := (s.core s.myCore).mx.queue ++ [entryOf s op] } } := by
  rw [State.core, enqueue_cores]
  exact State.core_modCore _ _ _

theorem enqueue_core_other {c : Nat} (h : c ≠ s.myCore) : (s.enqueue op draws).core c = s.core c := by
  rw [State.core, enqueue_cores]
  exact State.core_modCore_other _ _ h

theorem enqueue_cur : (s.enqueue op draws).cur = s.cur := by
  obtain ⟨th, k, h⟩ := enqueue_rest s op draws
  rw [h]

theorem stepped_enqueue (n : Nat) : Stepped s ((s.enqueue op draws).retire n) (nextPc s n) where
  pc := by simp [enqueue_me, nextPc]
  instret := by simp [enqueue_me]
  awake := by simp
  status := by simp [enqueue_me]
  trap := by simp [enqueue_me]
  csrs := by simp [enqueue_me]
  space := by simp [enqueue_me]
  cur := by simp [enqueue_cur]

/-- With room in the queue the operation enters it, and nothing else changes but the generator. -/
theorem enqueues_enqueueOp : Enqueues s (s.enqueueOp op draws) op draws := by
  intro hroom
  refine ⟨(s.enqueue op draws).retire 4, if_pos hroom, stepped_enqueue s op draws 4, fun r => ?_, fun r => ?_, fun r => ?_, ?_, ?_,
    fun j hj => ?_, ?_, enqueue_core s op draws, fun c hc => enqueue_core_other s op draws hc⟩
  · simp [State.getX, enqueue_me]
  · simp [State.getV, enqueue_me]
  · simp [State.getM, enqueue_me]
  · simp [enqueue_me]
  · rw [State.me_retire, Thread.retire_srseed, enqueue_me, drawN_eq_rec]
  · rw [State.thr_retire_other _ _ (by rwa [enqueue_cur]), enqueue_thr_other s op draws hj]
  · obtain ⟨th, k, h⟩ := enqueue_rest s op draws
    rw [h]
    rfl

end

/-! ## The instructions -/

theorem withDesc_true (s : State) {ok : Bool} (h : ok = true) (k : Out) : s.withDesc ok k = k := if_pos h

/-- A descriptor that is invalid or does not fit traps before anything else (R155). -/
theorem traps_withDesc {s : State} (hs : CanTrap s) {ok : Bool} (h : ok = false) (k : Out) : Traps s (s.withDesc ok k) 0x01 1 := by
  subst h
  exact traps_trapOut hs _ _

section
variable (s : State) (n n2 : AReg) (t ta tb : TReg) (cb : BitVec 5) (h : Bool) (xa : XReg) (xs : LReg)

theorem exec_tmma : exec (.tmma n ta tb) s = s.withDesc (s.tmmaOk n ta tb) (s.enqueueOp (.tmma n ta tb) 0) := rfl

theorem exec_taccout : exec (.taccout t n ta tb cb) s =
    s.withDesc (s.taccoutOk t n cb.toNat) (s.enqueueOp (.taccout t n ta tb cb.toNat) (s.taccoutDraws t n)) := rfl

theorem exec_taccadd : exec (.taccadd n n2) s = s.withDesc (accIsInt s n == accIsInt s n2) (s.enqueueOp (.taccadd n n2) 0) := rfl

theorem exec_tcvt : exec (.tcvt t ta) s = s.withDesc (s.tcvtOk t ta) (s.enqueueOp (.tcvt t ta) (s.tcvtDraws t ta)) := rfl

theorem exec_txch_bound (hb : s.mirrorBound = true) : exec (.txch t ta h) s = s.enqueueOp (.txch t ta h) 0 := if_pos hb

/-- TXCH without its partner traps with the window address of the half-tile that it would take. -/
theorem exec_txch_unbound (hb : s.mirrorBound = false) : exec (.txch t ta h) s = s.trapOut Cause.access
    (low (0x7F0000000000 + partnerOf (s.cur / 8) * 2 ^ 24 + 0x100000 + 4096 * t.val + if h then 2048 else 0)) := by
  have haddr : (0x7F0000000000 + partnerOf (s.cur / 8) * 2 ^ 24 + 0x100000 + 4096 * t.val + if h then 2048 else 0 : Int) =
      (winBase + partnerOf (s.cur / 8) * 2 ^ 24 + 0x100000 + 4096 * t.val + 2048 * b2n h : Nat) := by
    cases h <;> simp [winBase, b2n]
  rw [haddr, low_natCast]
  exact if_neg (by simp [hb])

end

/-- Settles O35: every member is its condition and the one way into the queue. -/
theorem matrixQueue : Obligations.MatrixQueue := by
  intro s n n2 t ta tb cb h xa xs d
  refine ⟨fun hok => ?tmma, fun hok => ?taccout, fun hok => ?taccadd, enqueues_enqueueOp s _ 0, enqueues_enqueueOp s _ 0,
    fun hb => ?txch, fun hok => ?tcvt, fun hs => ⟨fun hbad => traps_withDesc hs hbad _,
      fun hbad => traps_withDesc hs hbad _, fun hne => ?types, fun hbad => traps_withDesc hs hbad _, fun hd => ?invalid, fun hb => ?unbound⟩⟩
  case tmma =>
    rw [exec_tmma, withDesc_true s hok]
    exact enqueues_enqueueOp s _ _
  case taccout =>
    rw [exec_taccout, withDesc_true s hok]
    exact enqueues_enqueueOp s _ _
  case taccadd =>
    rw [exec_taccadd, withDesc_true s (beq_iff_eq.mpr hok)]
    exact enqueues_enqueueOp s _ _
  case txch =>
    rw [exec_txch_bound s t ta h hb]
    exact enqueues_enqueueOp s _ _
  case tcvt =>
    rw [exec_tcvt, withDesc_true s hok]
    exact enqueues_enqueueOp s _ _
  case types =>
    rw [exec_taccadd]
    exact traps_withDesc hs (beq_eq_false_iff_ne.mpr hne) _
  case invalid =>
    have hand (b : Bool) : (descOk (s.tdesc s.myCore t) && b) = false := by rw [show descOk (s.tdesc s.myCore t) = false from hd, Bool.false_and]
    exact ⟨traps_withDesc hs hd _, traps_withDesc hs (hand _) _, traps_withDesc hs (hand _) _, traps_withDesc hs hd _⟩
  case unbound =>
    rw [exec_txch_unbound s t ta h hb]
    exact traps_trapOut hs _ _

end Sys2Proof.Proofs.Matrix
end

section
/-!
PROOFS. What admitted accesses leave of the machine: the registers of the thread that makes them (spec/02, R31), and the bytes that
they neither mark nor write (spec/19, R427; spec/09, R226). Tile loads and stores are made of such accesses (spec/06, R176).
-/
namespace Sys2Proof.Proofs.Matrix
open Sys2Proof.Machine Sys2Proof.Claims Sys2Proof.Proofs.Encoding

/-- What holds of a state and is kept by every step of a run over a list holds behind the list. -/
theorem over_induction {α : Type} {s : State} {l : List α} {f : State → α → State} {P : State → Prop} (hs : P s)
    (hstep : ∀ a ∈ l, ∀ u, P u → P (f u a)) : P (s.over l f) := by
  induction l generalizing s with
  | nil => exact hs
  | cons a l ih => exact ih (hstep a List.mem_cons_self s hs) fun b hb => hstep b (List.mem_cons_of_mem a hb)

/-! ## The registers of the thread -/

/-- The thread whose turn it is keeps all but its event counters, and every other thread is as it was. -/
structure KeepsThreads (s u : State) : Prop where
  cur : u.cur = s.cur
  me : ∃ c, u.me = { s.me with csr := { s.me.csr with evcnt := c } }
  others : ∀ j, j ≠ s.cur → u.thr j = s.thr j

theorem KeepsThreads.trans {s u v : State} (h : KeepsThreads s u) (h' : KeepsThreads u v) : KeepsThreads s v where
  cur := h'.cur.trans h.cur
  me := by
    obtain ⟨c, hc⟩ := h.me
    obtain ⟨c', hc'⟩ := h'.me
    exact ⟨c', by rw [hc', hc]⟩
  others j hj := by rw [h'.others j (by rwa [h.cur]), h.others j hj]

theorem keepsThreads_of_eq {s u : State} (hc : u.cur = s.cur) (ht : u.threads = s.threads) : KeepsThreads s u := by
  have hthr (j : Nat) : u.thr j = s.thr j := by simp only [State.thr, ht]
  exact ⟨hc, ⟨s.me.csr.evcnt, by rw [State.me, hc, hthr, State.me]⟩, fun j _ => hthr j⟩

theorem KeepsThreads.refl (s : State) : KeepsThreads s s := keepsThreads_of_eq rfl rfl

theorem keepsThreads_over {α : Type} {s : State} {l : List α} {f : State → α → State} (h : ∀ a ∈ l, ∀ u, KeepsThreads u (f u a)) :
    KeepsThreads s (s.over l f) :=
  over_induction (.refl s) fun a ha u hu => hu.trans (h a ha u)

/-- A thread that counts an event keeps the rest of its state. -/
theorem keepsThreads_count (s : State) (code n : Nat) : KeepsThreads s (s.modThr s.cur fun t => t.count code n) :=
  ⟨rfl, ⟨_, State.thr_modThr s s.cur _⟩, fun _ hj => State.thr_modThr_other s _ hj⟩

section
variable {s u : State} (h : KeepsThreads s u)
include h

theorem KeepsThreads.quiet : Quiet s u := by
  obtain ⟨c, hc⟩ := h.me
  refine ⟨fun r => ?_, fun r => ?_, fun r => ?_, ?_⟩
  · simp [State.getX, hc]
  · simp [State.getV, hc]
  · simp [State.getM, hc]
  · simp [SameF, hc]

theorem KeepsThreads.pc : u.me.pc = s.me.pc := by
  obtain ⟨c, hc⟩ := h.me
  rw [hc]

end

/-! ## The bytes of memory -/

/-- The thread holds no write-combined copy of the byte. -/
def NotHeld (s : State) (tid key : Nat) : Prop := ∀ e ∈ s.wc, e.1 = tid → e.2.1 ≠ key

/-- The byte stands, where the thread holds no write-combined copy of it, and the thread takes none. -/
def KeepsByte (tid key : Nat) (s u : State) : Prop := NotHeld s tid key → NotHeld u tid key ∧ u.mem.get key = s.mem.get key

section
variable {tid key : Nat} {s u v : State}

theorem KeepsByte.trans (h : KeepsByte tid key s u) (h' : KeepsByte tid key u v) : KeepsByte tid key s v := fun hs => by
  obtain ⟨hu, hb⟩ := h hs
  obtain ⟨hv, hb'⟩ := h' hu
  exact ⟨hv, hb'.trans hb⟩

theorem keepsByte_of_eq (hw : u.wc = s.wc) (hm : u.mem = s.mem) : KeepsByte tid key s u := fun hs => by
  refine ⟨?_, by rw [hm]⟩
  unfold NotHeld
  rwa [hw]

theorem KeepsByte.refl (s : State) : KeepsByte tid key s s := keepsByte_of_eq rfl rfl

theorem keepsByte_over {α : Type} {l : List α} {f : State → α → State} (h : ∀ a ∈ l, ∀ u, KeepsByte tid key u (f u a)) :
    KeepsByte tid key s (s.over l f) :=
  over_induction (.refl s) fun a ha u hu => hu.trans (h a ha u)

end

/-! ## Writing bytes -/

@[simp] theorem constZero_length (k : Nat) (bs : List Byte) : (constZero k bs).length = bs.length := by
  induction bs generalizing k with
  | nil => rfl
  | cons b bs ih => simp [constZero, ih]

/-- A write changes memory, the bad words that it covers, and the touched steps of an LM. -/
theorem poke_eq (s : State) (k : Nat) (bs : List Byte) : ∃ c,
    s.poke k bs = { s with mem := s.mem.putBytes k (constZero k bs), bad := heal s.bad k bs.length, cores := c } := by
  unfold State.poke
  dsimp only
  split
  · exact ⟨_, rfl⟩
  · exact ⟨s.cores, rfl⟩

theorem keepsThreads_poke (s : State) (k : Nat) (bs : List Byte) : KeepsThreads s (s.poke k bs) := by
  obtain ⟨c, h⟩ := poke_eq s k bs
  rw [h]
  exact keepsThreads_of_eq rfl rfl

theorem keepsByte_poke (s : State) {k : Nat} {bs : List Byte} {key : Nat} (tid : Nat) (hkey : key < k ∨ k + bs.length ≤ key) :
    KeepsByte tid key s (s.poke k bs) := by
  obtain ⟨c, h⟩ := poke_eq s k bs
  rw [h]
  exact fun hs => ⟨hs, Memory.get_putBytes_out (by rwa [constZero_length])⟩

/-! ## Write-combined bytes -/

/-- The write-combined bytes of a thread taken out of the buffer, to be written. -/
def takenWc (s : State) (tid : Nat) : State :=
  { s with wc := s.wc.filter (fun e => !(e.1 == tid)), bad := healKeys s.bad ((s.wc.filter fun e => e.1 == tid).map fun e => e.2.1) }

theorem flushWc_eq (s : State) (tid : Nat) :
    s.flushWc tid = (takenWc s tid).over (s.wc.filter fun e => e.1 == tid) fun u e => u.poke e.2.1 [e.2.2.1] := rfl

theorem keepsThreads_flushWc (s : State) (tid : Nat) : KeepsThreads s (s.flushWc tid) := by
  have htaken : KeepsThreads s (takenWc s tid) := keepsThreads_of_eq rfl rfl
  rw [flushWc_eq]
  exact htaken.trans (keepsThreads_over fun e _ u => keepsThreads_poke u _ _)

theorem keepsByte_flushWc (s : State) (tid key : Nat) : KeepsByte tid key s (s.flushWc tid) := fun hs => by
  have htaken : NotHeld (takenWc s tid) tid key := fun e he => hs e (List.mem_filter.mp he).1
  rw [flushWc_eq]
  refine keepsByte_over (s := takenWc s tid) (fun e he v => keepsByte_poke v tid ?_) htaken
  have hkey : e.2.1 ≠ key := by
    obtain ⟨hmem, ht⟩ := List.mem_filter.mp he
    exact hs e hmem (beq_iff_eq.mp ht)
  rw [List.length_singleton]
  omega

theorem keepsThreads_ite {s u v : State} {p : Prop} [Decidable p] (h : KeepsThreads s u) (h' : KeepsThreads s v) :
    KeepsThreads s (if p then u else v) := by
  split
  · exact h
  · exact h'

theorem keepsByte_ite {tid key : Nat} {s u v : State} {p : Prop} [Decidable p] (h : KeepsByte tid key s u) (h' : KeepsByte tid key s v) :
    KeepsByte tid key s (if p then u else v) := by
  split
  · exact h
  · exact h'

/-- The bytes that a store leaves in the write-combining buffer are those of its part. -/
theorem keepsByte_holdWc (s : State) {k : Nat} {bs : List Byte} {key : Nat} (tid : Nat) (hkey : key < k ∨ k + bs.length ≤ key) :
    KeepsByte tid key s (s.holdWc tid k bs) := fun hs => by
  refine ⟨fun e he ht => ?_, rfl⟩
  rcases List.mem_append.mp he with hold | hnew
  · obtain ⟨x, hx, rfl⟩ := List.mem_map.mp hold
    have hmem := (List.mem_filter.mp hx).1
    by_cases hgranule : x.1 = tid ∧ x.2.1 / 64 = k / 64
    · rw [if_pos hgranule] at ht ⊢
      exact hs x hmem ht
    · rw [if_neg hgranule] at ht ⊢
      exact hs x hmem ht
  · obtain ⟨p, hp, rfl⟩ := List.mem_map.mp hnew
    have hrange : p.2 ∈ countFrom k bs.length := (List.of_mem_zip hp).2
    rw [Vector.countFrom_eq_range', List.mem_range'_1] at hrange
    show p.2 ≠ key
    omega

/-! ## Pages and boundaries of an admitted access -/

theorem get_setMarks (m : Memory) (l : Marks) {key : Nat} (h : ∀ q ∈ l, q.1 ≠ key) : (setMarks m l).get key = m.get key := by
  induction l generalizing m with
  | nil => rfl
  | cons q l ih =>
    have hq : q.1 ≠ key := h q List.mem_cons_self
    rw [setMarks, ih _ fun x hx => h x (List.mem_cons_of_mem q hx)]
    exact Memory.get_putBytes_out (by rw [List.length_singleton]; omega)

/-- The pages of an admitted access set marks, end self-refresh, count misses and are held in TLBs. -/
theorem admitPages_cases (s : State) (w : Who) (ad : Admitted) : ∃ p th k t,
    s.admitPages w ad = { s with mem := setMarks s.mem ad.marks, power := p, threads := th, cores := k, clusterTlbs := t } ∧
      (th = s.threads ∨ ∃ n, th = (s.modThr w.tid fun t => t.count 13 n).threads) := by
  have power : ∃ p, (if ad.marks.any fun m => m.1 / 2 ^ 52 == 0 then ({ s with mem := setMarks s.mem ad.marks } : State).usesLpddr
      else { s with mem := setMarks s.mem ad.marks }) = { s with mem := setMarks s.mem ad.marks, power := p } := by
    split
    · exact ⟨_, rfl⟩
    · exact ⟨s.power, rfl⟩
  obtain ⟨p, hp⟩ := power
  unfold State.admitPages
  dsimp only
  rw [hp]
  split
  · split
    · obtain ⟨k, t, h⟩ := over_holdTlb_eq { s with mem := setMarks s.mem ad.marks, power := p } (coreOf w.tid) ad.pages
      exact ⟨p, s.threads, k, t, h, .inl rfl⟩
    · obtain ⟨k, t, h⟩ := over_holdTlb_eq _ (coreOf w.tid) ad.pages
      exact ⟨p, _, k, t, h, .inr ⟨_, rfl⟩⟩
  · exact ⟨p, s.threads, s.cores, s.clusterTlbs, rfl, .inl rfl⟩

theorem keepsThreads_admitPages (s : State) (ad : Admitted) : KeepsThreads s (s.admitPages s.meWho ad) := by
  obtain ⟨p, th, k, t, h, hth⟩ := admitPages_cases s s.meWho ad
  rw [h]
  rcases hth with rfl | ⟨n, rfl⟩
  · exact keepsThreads_of_eq rfl rfl
  · exact (keepsThreads_count s 13 n).trans (keepsThreads_of_eq rfl rfl)

/-- A part that is reached raises its core and boundary, or ends self-refresh. -/
theorem reach_eq (s : State) (p : Span) : ∃ k w, s.reach p = { s with cores := k, power := w } := by
  have touch (u : State) (c : Nat) : ∃ k, u.touchCore c = { u with cores := k } := by
    unfold State.touchCore
    split
    · exact ⟨_, rfl⟩
    · exact ⟨u.cores, rfl⟩
  have raise (u : State) (c off : Nat) : ∃ k, u.raiseBound c off = { u with cores := k } := by
    unfold State.raiseBound
    split
    · exact ⟨_, rfl⟩
    · exact ⟨u.cores, rfl⟩
  have htouch (c : Nat) : ∃ k w, s.touchCore c = { s with cores := k, power := w } := (touch s c).imp fun _ h => ⟨s.power, h⟩
  unfold State.reach
  split
  · dsimp only
    split
    · split
      · obtain ⟨k, h⟩ := touch s (bits _ 24 12)
        obtain ⟨k', h'⟩ := raise { s with cores := k } (bits _ 24 12) _
        exact ⟨k', s.power, by rw [h]; exact h'⟩
      · exact htouch _
    · split
      · exact htouch _
      · split
        · exact ⟨s.cores, _, rfl⟩
        · exact ⟨s.cores, s.power, rfl⟩
  · exact htouch _
  · exact ⟨s.cores, s.power, rfl⟩

theorem keepsThreads_reach (s : State) (p : Span) : KeepsThreads s (s.reach p) := by
  obtain ⟨k, w, h⟩ := reach_eq s p
  rw [h]
  exact keepsThreads_of_eq rfl rfl

theorem keepsByte_reach (tid key : Nat) (s : State) (p : Span) : KeepsByte tid key s (s.reach p) := by
  obtain ⟨k, w, h⟩ := reach_eq s p
  rw [h]
  exact keepsByte_of_eq rfl rfl

theorem keepsThreads_admitAccess (s : State) (ad : Admitted) : KeepsThreads s (s.admitAccess s.meWho ad) :=
  (keepsThreads_admitPages s ad).trans (keepsThreads_over fun p _ u => keepsThreads_reach u p)

theorem keepsByte_admitAccess (s : State) (w : Who) {ad : Admitted} (tid : Nat) {key : Nat} (h : ∀ q ∈ ad.marks, q.1 ≠ key) :
    KeepsByte tid key s (s.admitAccess w ad) := by
  have hpages : KeepsByte tid key s (s.admitPages w ad) := by
    obtain ⟨p, th, k, t, he, -⟩ := admitPages_cases s w ad
    rw [he]
    exact fun hs => ⟨hs, get_setMarks s.mem ad.marks h⟩
  exact hpages.trans (keepsByte_over fun p _ u => keepsByte_reach tid key u p)

end Sys2Proof.Proofs.Matrix
end

section
/-!
PROOFS. Admitted accesses performed one after the other: what a store leaves of the machine where all its parts are memory, and what a
load leaves of the thread (spec/06, R176; spec/08, R213; spec/22, R482).
-/
namespace Sys2Proof.Proofs.Matrix
open Sys2Proof.Machine Sys2Proof.Claims Sys2Proof.Proofs.Encoding

/-! ## Records of bad words -/

/-- Nothing but hub words and the messages sent differ. -/
def LogsOnly (s u : State) : Prop := ∃ h m, u = { s with hub := h, msi := m }

theorem logsOnly_refl (s : State) : LogsOnly s s := ⟨s.hub, s.msi, rfl⟩

section
variable {s u : State} (hu : LogsOnly s u)
include hu

theorem logsOnly_setReg (o v : Nat) : LogsOnly s (u.setReg o v) := by
  obtain ⟨h, m, rfl⟩ := hu
  exact ⟨_, m, rfl⟩

theorem logsOnly_msiSend (i : Nat) : LogsOnly s (u.msiSend i) := by
  unfold State.msiSend
  dsimp only
  split
  · exact logsOnly_setReg hu _ _
  · obtain ⟨h, m, rfl⟩ := hu
    exact ⟨h, _, rfl⟩

theorem logsOnly_logError (kind domain unit tenant addr detail : Nat) : LogsOnly s (u.logError kind domain unit tenant addr detail) := by
  have record (o a b c d w x y z : Nat) : LogsOnly s (((((u.setReg o a).setReg b c).setReg d w).setReg x y).setReg 0x1C10 z) :=
    logsOnly_setReg (logsOnly_setReg (logsOnly_setReg (logsOnly_setReg (logsOnly_setReg hu _ _) _ _) _ _) _ _) _ _
  unfold State.logError
  dsimp only
  split
  · exact logsOnly_setReg hu _ _
  · split
    · exact logsOnly_msiSend (record _ _ _ _ _ _ _ _ _) _
    · exact record _ _ _ _ _ _ _ _ _

theorem logsOnly_noteKey (tenant k n : Nat) : LogsOnly s (u.noteKey tenant k n) :=
  over_induction (P := LogsOnly s) hu fun _ _ _ hv => logsOnly_logError hv _ _ _ _ _ _

end

/-- Noting the bad words that a store covers whole changes the error log alone. -/
theorem logsOnly_noteWhole (s : State) (tenant : Nat) (l : List Span) : LogsOnly s (s.noteWhole tenant l) := by
  unfold State.noteWhole
  split
  · exact logsOnly_refl s
  · refine over_induction (P := LogsOnly s) (logsOnly_refl s) fun p _ v hv => ?_
    split
    · exact logsOnly_noteKey hv _ _ _
    · exact logsOnly_noteKey hv _ _ _
    · exact hv

theorem keepsThreads_noteWhole (s : State) (tenant : Nat) (l : List Span) : KeepsThreads s (s.noteWhole tenant l) := by
  obtain ⟨h, m, e⟩ := logsOnly_noteWhole s tenant l
  rw [e]
  exact keepsThreads_of_eq rfl rfl

theorem keepsByte_noteWhole (tid key : Nat) (s : State) (tenant : Nat) (l : List Span) : KeepsByte tid key s (s.noteWhole tenant l) := by
  obtain ⟨h, m, e⟩ := logsOnly_noteWhole s tenant l
  rw [e]
  exact keepsByte_of_eq rfl rfl

/-! ## Stores to memory -/

/-- One part of a thread's store, in memory: write-combined, or written behind what the thread has write-combined. -/
def storePart (s : State) (tid : Nat) (p : Span) (k : Nat) (bs : List Byte) : State :=
  if p.ca = 3 then s.holdWc tid k bs else (if s.wc.any (fun e => e.1 == tid) then s.flushWc tid else s).poke k bs

theorem writeSpans_cons_mem (s : State) (hub : State → Nat → Nat → State) (tid : Nat) {p : Span} {k : Nat} (hp : p.loc = .mem k)
    (l : List Span) (bs : List Byte) : s.writeSpans hub tid true (p :: l) bs =
      (storePart s tid p k (bs.take p.n)).writeSpans hub tid true l (bs.drop p.n) := by
  simp only [State.writeSpans, hp, Bool.true_and, decide_eq_true_eq, storePart]

theorem keepsThreads_storePart (s : State) (tid : Nat) (p : Span) (k : Nat) (bs : List Byte) : KeepsThreads s (storePart s tid p k bs) :=
  keepsThreads_ite (keepsThreads_of_eq rfl rfl)
    ((keepsThreads_ite (keepsThreads_flushWc s tid) (.refl s)).trans (keepsThreads_poke _ _ _))

theorem keepsByte_storePart (s : State) (tid : Nat) (p : Span) {k : Nat} {bs : List Byte} {key : Nat}
    (hkey : key < k ∨ k + bs.length ≤ key) : KeepsByte tid key s (storePart s tid p k bs) :=
  keepsByte_ite (keepsByte_holdWc s tid hkey)
    ((keepsByte_ite (keepsByte_flushWc s tid key) (.refl s)).trans (keepsByte_poke _ tid hkey))

section
variable {hub : State → Nat → Nat → State} {tid : Nat} {l : List Span} (hl : ∀ p ∈ l, ∃ k, p.loc = .mem k)
include hl

theorem keepsThreads_writeSpans (s : State) (bs : List Byte) : KeepsThreads s (s.writeSpans hub tid true l bs) := by
  induction l generalizing s bs with
  | nil => exact .refl s
  | cons p l ih =>
    obtain ⟨k, hp⟩ := hl p List.mem_cons_self
    rw [writeSpans_cons_mem s hub tid hp]
    exact (keepsThreads_storePart s tid p k _).trans (ih (fun q hq => hl q (List.mem_cons_of_mem p hq)) _ _)

theorem keepsByte_writeSpans {key : Nat} (hkey : ∀ p ∈ l, ∀ k, p.loc = .mem k → key < k ∨ k + p.n ≤ key) (s : State) (bs : List Byte) :
    KeepsByte tid key s (s.writeSpans hub tid true l bs) := by
  induction l generalizing s bs with
  | nil => exact .refl s
  | cons p l ih =>
    obtain ⟨k, hp⟩ := hl p List.mem_cons_self
    have hpart : key < k ∨ k + (bs.take p.n).length ≤ key := by
      have := hkey p List.mem_cons_self k hp
      have := List.length_take_le p.n bs
      omega
    rw [writeSpans_cons_mem s hub tid hp]
    exact (keepsByte_storePart s tid p hpart).trans (ih (fun q hq => hl q (List.mem_cons_of_mem p hq))
      (fun q hq => hkey q (List.mem_cons_of_mem p hq)) _ _)

end

section
variable {ad : Admitted} (hm : AllMemory ad)
include hm

theorem keepsThreads_stored (s : State) (bs : List Byte) : KeepsThreads s (Stored s ad bs) :=
  ((keepsThreads_admitAccess s ad).trans (keepsThreads_noteWhole _ _ _)).trans (keepsThreads_writeSpans hm _ _)

theorem keepsByte_stored (s : State) {key : Nat} (hmarks : ∀ q ∈ ad.marks, q.1 ≠ key) (hout : Outside ad key) (bs : List Byte) :
    KeepsByte s.cur key s (Stored s ad bs) :=
  ((keepsByte_admitAccess s s.meWho s.cur hmarks).trans (keepsByte_noteWhole s.cur key _ _ _)).trans (keepsByte_writeSpans hm hout _ _)

end

section
variable {r : List (Nat × Admitted)} (hm : ∀ q ∈ r, AllMemory q.2)
include hm

theorem keepsThreads_writeAll (s : State) (el : Nat → List Byte) : KeepsThreads s (writeAll s el r) := by
  induction r generalizing s with
  | nil => exact .refl s
  | cons q r ih =>
    exact (keepsThreads_stored (hm q List.mem_cons_self) s _).trans (ih (fun x hx => hm x (List.mem_cons_of_mem q hx)) _)

theorem keepsByte_writeAll (s : State) (el : Nat → List Byte) {key : Nat}
    (hkey : ∀ q ∈ r, (∀ m ∈ q.2.marks, m.1 ≠ key) ∧ Outside q.2 key) : KeepsByte s.cur key s (writeAll s el r) := by
  induction r generalizing s with
  | nil => exact .refl s
  | cons q r ih =>
    have hq := hm q List.mem_cons_self
    obtain ⟨hmarks, hout⟩ := hkey q List.mem_cons_self
    have hrest := ih (fun x hx => hm x (List.mem_cons_of_mem q hx)) (Stored s q.2 (el q.1)) fun x hx => hkey x (List.mem_cons_of_mem q hx)
    rw [(keepsThreads_stored hq s _).cur] at hrest
    exact (keepsByte_stored hq s hmarks hout _).trans hrest

end

/-! ## Loads -/

/-- A load of a hub word may clear a live log of voltage minima. -/
theorem hubRead_eq (s : State) (off : Nat) : ∃ p f, s.hubRead off = { s with power := p, free := f } := by
  unfold State.hubRead
  split
  · dsimp only
    split
    · exact ⟨s.power, s.free, rfl⟩
    · exact ⟨_, _, rfl⟩
  · exact ⟨s.power, s.free, rfl⟩

theorem keepsThreads_loadEffect (s : State) (tid : Nat) (l : List Span) : KeepsThreads s (s.loadEffect tid l) := by
  refine (keepsThreads_ite (keepsThreads_flushWc s tid) (.refl s)).trans (keepsThreads_over fun p _ u => ?_)
  split
  · obtain ⟨w, f, h⟩ := hubRead_eq u _
    rw [h]
    exact keepsThreads_of_eq rfl rfl
  · exact .refl u

theorem keepsThreads_reached (s : State) (ad : Admitted) : KeepsThreads s (Reached s ad) :=
  (keepsThreads_admitAccess s ad).trans (keepsThreads_loadEffect _ _ _)

theorem keepsThreads_readAll (s : State) (r : List (Nat × Admitted)) : KeepsThreads s (readAll s r).1 := by
  induction r generalizing s with
  | nil => exact .refl s
  | cons q r ih => exact (keepsThreads_reached s q.2).trans (ih _)

end Sys2Proof.Proofs.Matrix
end

section
/-!
PROOFS. Tile loads and stores (spec/06, R175 to R178): their pieces are admitted accesses performed in ascending order, and what a
load fills is one write to the matrix unit's own memory (R153).
-/
namespace Sys2Proof.Proofs.Matrix
open Sys2Proof.Machine Sys2Proof.Claims Sys2Proof.Proofs.Encoding Sys2Proof.Proofs.Integer

/-! ## Retiring behind accesses -/

section
variable {s u : State} (h : KeepsThreads s u) (n : Nat)
include h

theorem stepped_retire : Stepped s (u.retire n) (s.me.pc + BitVec.ofNat 64 n) := by
  have hcur := h.cur
  obtain ⟨c, hc⟩ := h.me
  constructor <;> simp [hc, hcur]

theorem quiet_retire : Quiet s (u.retire n) := by
  obtain ⟨hx, hv, hm, hf⟩ := h.quiet
  refine ⟨fun r => ?_, fun r => ?_, fun r => ?_, ?_⟩
  · rw [State.getX_retire, hx]
  · rw [State.getV_retire, hv]
  · rw [State.getM_retire, hm]
  · simpa [SameF] using hf

theorem others_retire {j : Nat} (hj : j ≠ s.cur) : (u.retire n).thr j = s.thr j := by
  rw [State.thr_retire_other _ _ (by rwa [h.cur]), h.others j hj]

end

/-! ## Pieces -/

theorem pieces_eq (s : State) (xa : XReg) (xs : LReg) (n size : Nat) : s.pieces xa xs n size = piecesOf s xa xs n size := by
  unfold State.pieces piecesOf
  rw [Vector.countFrom_zero]
  refine List.map_congr_left fun i _ => congrArg (Prod.mk i) ?_
  rw [pieceAt, low_add, low_toInt, low_mul, low_natCast, low_ite, low_natCast, low_toInt]
  rfl

theorem admits_fst {s : State} {acc : Acc} {e : Nat} {l : List (Nat × Word)} {r : List (Nat × Admitted)} (h : Admits s acc e l r) :
    r.map Prod.fst = l.map Prod.fst := by
  unfold Admits at h
  induction h with
  | nil => rfl
  | cons hq _ ih => rw [List.map_cons, List.map_cons, ih, hq.1]

/-- The lanes of admitted pieces count from 0. -/
theorem admits_pieces_fst {s : State} {acc : Acc} {xa : XReg} {xs : LReg} {n size : Nat} {r : List (Nat × Admitted)}
    (h : Admits s acc size (piecesOf s xa xs n size) r) : r.map Prod.fst = List.range n := by
  rw [admits_fst h, piecesOf, List.map_map]
  exact List.map_id _

/-- Admitted pieces that are no refused message and meet no bad word pass the checks. -/
theorem checkElements_of_admits {s : State} {acc : Acc} {e : Nat} {data : Nat → List Byte} {l : List (Nat × Word)}
    {r : List (Nat × Admitted)} (h : Admits s acc e l r) (hmsi : ∀ q ∈ r, msiRefused q.2.spans (data q.1) = false) :
    s.checkElements acc e data l = .ok r := by
  unfold Admits at h
  induction h with
  | nil => rfl
  | @cons p q l r hpq hrest ih =>
    obtain ⟨hi, hcheck, hbad⟩ := hpq
    have hq := hmsi q List.mem_cons_self
    rw [State.checkElements, Ask.plain, hcheck]
    simp only [← hi, hq, Bool.false_eq_true, if_false, hbad, ih fun x hx => hmsi x (List.mem_cons_of_mem q hx)]

/-- With no entry of the queue against it an instruction runs at once (R170). -/
theorem afterQueue_noEntry {s : State} {p : MxOp → Bool} (h : NoEntry s p) (k : State → Out) : s.afterQueue p k = k s := by
  have hqueued : s.queued p = false := List.any_eq_false.mpr fun e he => by simp [h e he]
  unfold State.afterQueue
  rw [hqueued]
  rfl

/-! ## Pieces read -/

section
variable (s : State) (r : List (Nat × Admitted))

theorem readPieces_fst : (s.readPieces r).1 = (readAll s r).1 := by
  induction r generalizing s with
  | nil => rfl
  | cons q r ih => exact ih _

theorem readPieces_length : (s.readPieces r).2.length = r.length := by
  induction r generalizing s with
  | nil => rfl
  | cons q r ih => exact congrArg (· + 1) (ih _)

theorem pieceNum_readAll (i : Nat) : pieceNum (readAll s r).2 i = ofBytes ((s.readPieces r).2.getD i []) := by
  induction r generalizing s i with
  | nil => rfl
  | cons q r ih =>
    cases i with
    | zero => exact numOf_eq_ofBytes _
    | succ i => exact ih _ i

end

theorem tileLoad_admitted {s : State} {xa : XReg} {xs : LReg} {n size : Nat} {r : List (Nat × Admitted)}
    (h : Admits s .read size (piecesOf s xa xs n size) r) (put : State → List (List Byte) → State) :
    s.tileLoad xa xs n size put = (put (readAll s r).1 (s.readPieces r).2).fin 4 := by
  have hmsi (l : List Span) : msiRefused l [] = false := by simp [msiRefused]
  unfold State.tileLoad
  rw [pieces_eq, checkElements_of_admits h fun q _ => hmsi q.2.spans]
  dsimp only
  rw [readPieces_fst]

/-! ## The matrix unit's memory -/

theorem isLm_winKey {c o : Nat} (h : 2 ^ 18 ≤ o) (h' : o < 2 ^ 24) : isLm (winKey c o) = false := by
  have hlow : ¬(winKey c o % 2 ^ 24 < 2 ^ 18) := by
    unfold winKey keyOf
    omega
  unfold isLm
  rw [decide_eq_false hlow, Bool.and_false]

theorem constZero_winKey {c o : Nat} (bs : List Byte) (h : 2 ^ 18 ≤ o) (h' : o + bs.length ≤ 2 ^ 24) : constZero (winKey c o) bs = bs := by
  induction bs generalizing o with
  | nil => rfl
  | cons b bs ih =>
    rw [List.length_cons] at h'
    rw [constZero, isLm_winKey h (by omega), winKey_add, ih (by omega) (by omega)]
    rfl

/-- A write to tiles, scale areas or accumulators stores its bytes, and makes the words that it covers good. -/
theorem poke_winKey (s : State) {c o : Nat} (bs : List Byte) (h : 2 ^ 18 ≤ o) (h' : o + bs.length ≤ 2 ^ 24) (hlt : o < 2 ^ 24) :
    s.poke (winKey c o) bs =
      { s with mem := s.mem.putBytes (winKey c o) bs, bad := heal s.bad (winKey c o) bs.length } := by
  unfold State.poke
  rw [isLm_winKey h hlt, constZero_winKey bs h h']
  rfl

/-! ## Rows put together from pieces -/

theorem getD_eq_nil {α : Type} {l : List (List α)} {i : Nat} (h : l.length ≤ i) : l.getD i [] = [] := by
  rw [List.getD_eq_getElem?_getD, List.getElem?_eq_none h, Option.getD_none]

/-- Byte `b` of rows of `w` bytes one after the other. -/
theorem getD_flatMap_rows {α β : Type} {l : List α} {f : α → List β} {w : Nat} (h : ∀ a ∈ l, (f a).length = w) (hw : 0 < w) (b : Nat) (d : β) :
    (l.flatMap f).getD b d = ((l.map f).getD (b / w) []).getD (b % w) d := by
  induction l generalizing b with
  | nil => simp
  | cons a l ih =>
    have ha : (f a).length = w := h a List.mem_cons_self
    rw [List.flatMap_cons, List.map_cons]
    rcases Nat.lt_or_ge b w with hb | hb
    · rw [List.getD_append _ _ _ _ (by omega), Nat.div_eq_of_lt hb, Nat.mod_eq_of_lt hb, List.getD_cons_zero]
    · obtain ⟨k, rfl⟩ := Nat.exists_eq_add_of_le hb
      rw [List.getD_append_right _ _ _ _ (by omega), ha, Nat.add_sub_cancel_left, ih fun x hx => h x (List.mem_cons_of_mem a hx),
        Nat.add_div_left k hw, Nat.add_mod_left, List.getD_cons_succ]

theorem length_flatMap_rows {α β : Type} {l : List α} {f : α → List β} {w : Nat} (h : ∀ a ∈ l, (f a).length = w) :
    (l.flatMap f).length = l.length * w := by
  rw [List.length_flatMap, List.map_congr_left h, List.map_const', List.sum_replicate, smul_eq_mul]

theorem padTo_length (n : Nat) (l : List Byte) : (padTo n l).length = n := by
  simp only [padTo, List.length_append, List.length_take, List.length_replicate]
  omega

theorem padTo_getD {n b : Nat} (l : List Byte) (h : b < n) : (padTo n l).getD b 0 = l.getD b 0 := by
  simp only [padTo, List.getD_eq_getElem?_getD, List.getElem?_append, List.length_take, List.getElem?_take, List.getElem?_replicate]
  by_cases hb : b < l.length
  · rw [if_pos (by omega), if_pos h]
  · rw [if_neg (by omega), List.getElem?_eq_none (by omega)]
    split <;> rfl

theorem byteIn_ofBytes (l : List Byte) (b : Nat) : byteIn (ofBytes l) b = (l.getD b 0).toNat := by
  unfold byteIn
  induction l generalizing b with
  | nil => simp [ofBytes]
  | cons x l ih =>
    have hx : x.toNat < 256 := x.isLt
    cases b with
    | zero =>
      rw [ofBytes, pow_zero, Nat.div_one, Nat.add_mul_mod_self_left, Nat.mod_eq_of_lt hx]
      rfl
    | succ b =>
      rw [ofBytes, pow_succ', ← Nat.div_div_eq_div_mul, Nat.add_mul_div_left _ _ (by decide), Nat.div_eq_of_lt hx, Nat.zero_add, ih]
      rfl

/-- Rows of `w` bytes from pieces, 16 of them: byte `b` is byte `b % w` of piece `b / w`. -/
theorem getD_paddedRows {w : Nat} (hw : 0 < w) (rows : List (List Byte)) {b : Nat} (hb : b < 16 * w) :
    ((countFrom 0 16).flatMap fun i => padTo w (rows.getD i [])).getD b 0 = (rows.getD (b / w) []).getD (b % w) 0 := by
  have hrow : b / w < 16 := Nat.div_lt_of_lt_mul (by rwa [Nat.mul_comm])
  rw [getD_flatMap_rows (fun i _ => padTo_length w _) hw, Vector.countFrom_zero, List.getD_eq_getElem?_getD (l := List.map _ _),
    List.getElem?_map, List.getElem?_range hrow, Option.map_some, Option.getD_some, padTo_getD _ (Nat.mod_lt b hw)]

theorem length_paddedRows (w : Nat) (rows : List (List Byte)) :
    ((countFrom 0 16).flatMap fun i => padTo w (rows.getD i [])).length = 16 * w :=
  length_flatMap_rows fun _ _ => padTo_length w _

end Sys2Proof.Proofs.Matrix
end

section
/-!
PROOFS. What tile loads fill and tile stores store (spec/06, R177, Table 6-10).
-/
namespace Sys2Proof.Proofs.Matrix
open Sys2Proof.Machine Sys2Proof.Claims Sys2Proof.Proofs.Encoding Sys2Proof.Proofs.Integer

/-! ## Loads -/

/-- A tile load whose pieces are admitted reads them, fills an area of the matrix unit's memory and retires. -/
theorem fillsArea_tileLoad (s : State) (xa : XReg) (xs : LReg) (n size : Nat) {off len : Nat} {fill : List (List Byte) → List Byte}
    {f : (Nat → Nat) → Nat → Nat} (hoff : 2 ^ 18 ≤ off) (hlt : off < 2 ^ 24) (hend : off + len ≤ 2 ^ 24)
    (hfill : ∀ l : List (List Byte), l.length = n → (fill l).length = len ∧
      ∀ b, b < len → ((fill l).getD b 0).toNat = f (fun i => ofBytes (l.getD i [])) b) :
    FillsArea s (s.tileLoad xa xs n size fun u l => u.poke (winKey u.myCore off) (fill l)) (piecesOf s xa xs n size) size
      (winKey (s.cur / 8) off) len f := by
  intro r hr u
  have hread : KeepsThreads s u := keepsThreads_readAll s r
  have hcore : u.myCore = s.cur / 8 := congrArg (· / 8) hread.cur
  have hpieces : (s.readPieces r).2.length = n := by
    rw [readPieces_length, ← List.length_map (f := Prod.fst), admits_pieces_fst hr, List.length_range]
  obtain ⟨hlen, hbytes⟩ := hfill _ hpieces
  have hpoke : KeepsThreads u (u.poke (winKey (s.cur / 8) off) (fill (s.readPieces r).2)) := keepsThreads_poke _ _ _
  have hmem : (u.poke (winKey (s.cur / 8) off) (fill (s.readPieces r).2)).mem =
      u.mem.putBytes (winKey (s.cur / 8) off) (fill (s.readPieces r).2) := by
    rw [poke_winKey u _ hoff (by rwa [hlen]) hlt]
  refine ⟨_, (tileLoad_admitted hr _).trans (by rw [hcore]; exact State.fin_eq _ _), stepped_retire hpoke 4, quiet_retire hpoke 4,
    fun j hj => others_retire hpoke 4 (by rwa [hread.cur]), fun b hb => ?inside, fun k hk => ?outside⟩
  case inside =>
    rw [State.retire_mem, hmem, Memory.get_putBytes, if_pos (by omega), Nat.add_sub_cancel_left, hbytes b hb]
    exact congrArg (f · b) (funext fun i => (pieceNum_readAll s r i).symm)
  case outside =>
    rw [State.retire_mem, hmem, Memory.get_putBytes_out (by rwa [hlen])]

section
variable {s : State} {t : TReg} {acc : AReg} (xa : XReg) (xs : LReg)

theorem exec_tload (hq : NoEntry s (usesTile t)) (hd : descOk (s.tdesc s.myCore t) = true) : exec (.tload t xa xs) s =
    s.tileLoad xa xs (dRows (s.tdesc s.myCore t)) (rowBytes (s.tdesc s.myCore t)) fun u l => u.putTile u.myCore t l :=
  (if_pos hd).trans (afterQueue_noEntry hq _)

theorem exec_tloadt (hq : NoEntry s (usesTile t)) (hd : descOk (s.tdesc s.myCore t) = true)
    (ht : transposable (dFmt (s.tdesc s.myCore t)) = true) : exec (.tloadt t xa xs) s =
    s.tileLoad xa xs (dCols (s.tdesc s.myCore t)) (dRows (s.tdesc s.myCore t) * (tBits (dFmt (s.tdesc s.myCore t)) / 8)) fun u l =>
      u.putTile u.myCore t ((countFrom 0 (dRows (s.tdesc s.myCore t))).map fun i => column (tBits (dFmt (s.tdesc s.myCore t)) / 8) i l) :=
  (if_pos (Bool.and_eq_true_iff.mpr ⟨hd, ht⟩)).trans (afterQueue_noEntry hq _)

theorem exec_tloads (hq : NoEntry s (usesTile t)) (hd : descOk (s.tdesc s.myCore t) = true)
    (hs : scaled (dFmt (s.tdesc s.myCore t)) = true) : exec (.tloads t xa xs) s =
    s.tileLoad xa xs (dRows (s.tdesc s.myCore t)) ((scaleBlocks (s.tdesc s.myCore t)).1 * (scaleBlocks (s.tdesc s.myCore t)).2) fun u l =>
      u.putScales u.myCore t l :=
  (if_pos (Bool.and_eq_true_iff.mpr ⟨hd, hs⟩)).trans (afterQueue_noEntry hq _)

theorem exec_taccld (hq : NoEntry s (usesAcc acc)) : exec (.taccld acc xa xs) s =
    s.tileLoad xa xs 16 64 fun u l => u.poke (accKey u.myCore acc 0 0) (l.flatMap (padTo 64)) :=
  Eq.trans (b := execTaccld acc xa xs s) rfl (afterQueue_noEntry hq _)

end

/-! ## What the pieces fill -/

theorem toNat_paddedRows {w n : Nat} (hw : 0 < w) {l : List (List Byte)} (hl : l.length = n) {b : Nat} (hb : b < 16 * w) :
    (((countFrom 0 16).flatMap fun i => padTo w (l.getD i [])).getD b 0).toNat =
      if b / w < n then byteIn (ofBytes (l.getD (b / w) [])) (b % w) else 0 := by
  rw [getD_paddedRows hw l hb]
  split
  case isTrue => rw [byteIn_ofBytes]
  case isFalse h =>
    rw [getD_eq_nil (by omega)]
    rfl

/-- Byte `k` of row `i` of a transposed tile: byte `k % es` of element `i` of piece `k / es`. -/
theorem column_getD {es : Nat} (hes : 0 < es) (i : Nat) (l : List (List Byte)) (k : Nat) :
    (column es i l).getD k 0 = (l.getD (k / es) []).getD (es * i + k % es) 0 := by
  rw [column, getD_flatMap_rows (fun _ _ => padTo_length es _) hes]
  rcases Nat.lt_or_ge (k / es) l.length with h | h
  · have hk : k % es < es := Nat.mod_lt k hes
    simp only [List.getD_eq_getElem?_getD (l := List.map _ _), List.getElem?_map, List.getElem?_eq_getElem h, Option.map_some,
      Option.getD_some, padTo_getD _ hk, List.getD_eq_getElem?_getD, List.getElem?_take, if_pos hk, List.getElem?_drop]
  · rw [getD_eq_nil h, getD_eq_nil (by rwa [List.length_map])]
    rfl

/-- Elements that TLOADT places are one or two bytes long. -/
theorem transposable_size {f : Nat} (h : transposable f = true) : tBits f / 8 = 1 ∨ tBits f / 8 = 2 := by
  have hf : f ≤ 5 ∨ f = 7 ∨ f = 8 ∨ f = 12 ∨ f = 13 := by simpa [transposable, or_assoc] using h
  have hsmall : ∀ f < 6, tBits f / 8 = 1 ∨ tBits f / 8 = 2 := by decide
  rcases hf with hf | rfl | rfl | rfl | rfl
  · exact hsmall f (by omega)
  all_goals decide

theorem toNat_transposed {es rows n : Nat} (hes : es = 1 ∨ es = 2) {l : List (List Byte)} (hl : l.length = n) {b : Nat} (hb : b < 4096) :
    (((countFrom 0 16).flatMap fun i => padTo 256 (((countFrom 0 rows).map fun i => column es i l).getD i [])).getD b 0).toNat =
      if b / 256 < rows ∧ b % 256 / es < n then byteIn (ofBytes (l.getD (b % 256 / es) [])) (es * (b / 256) + b % es) else 0 := by
  have hmod : b % 256 % es = b % es := by
    rcases hes with rfl | rfl
    · rw [Nat.mod_one, Nat.mod_one]
    · exact Nat.mod_mod_of_dvd b (by decide)
  rw [getD_paddedRows (by decide) _ hb, Vector.countFrom_zero]
  rcases Nat.lt_or_ge (b / 256) rows with hrow | hrow
  · rw [List.getD_eq_getElem?_getD (l := List.map _ _), List.getElem?_map, List.getElem?_range hrow, Option.map_some, Option.getD_some,
      column_getD (by omega), hmod]
    split
    case isTrue => rw [byteIn_ofBytes]
    case isFalse h =>
      rw [getD_eq_nil (by omega)]
      rfl
  · rw [getD_eq_nil (by simpa using hrow), if_neg (by omega)]
    rfl

theorem toNat_accRows {l : List (List Byte)} (hl : l.length = 16) {b : Nat} (hb : b < 1024) :
    ((l.flatMap (padTo 64)).getD b 0).toNat = byteIn (ofBytes (l.getD (b / 64) [])) (b % 64) := by
  have hrow : b / 64 < l.length := by omega
  rw [getD_flatMap_rows (fun _ _ => padTo_length 64 _) (by decide), byteIn_ofBytes]
  simp only [List.getD_eq_getElem?_getD, List.getElem?_map, List.getElem?_eq_getElem hrow, Option.map_some, Option.getD_some]
  simp only [← List.getD_eq_getElem?_getD, padTo_getD _ (Nat.mod_lt b (by decide : 0 < 64))]

/-- Settles O33: each member reads its pieces and fills its area with rows put together from them. -/
theorem tileLoads : Obligations.TileLoads := by
  intro s t acc xa xs c d es blocks
  have ht := t.isLt
  have ha := acc.isLt
  refine ⟨fun hq hd => ⟨?tload, fun htr => ?tloadt, fun hsc => ?tloads⟩, fun hq => ?taccld⟩
  case tload =>
    rw [exec_tload xa xs hq hd]
    exact fillsArea_tileLoad s xa xs _ _ (off := 0x100000 + 4096 * t.val + 256 * 0 + 0) (by omega) (by omega) (by omega) fun l hl =>
      ⟨length_paddedRows 256 l, fun b hb => toNat_paddedRows (by decide) hl hb⟩
  case tloadt =>
    rw [exec_tloadt xa xs hq hd htr]
    exact fillsArea_tileLoad s xa xs _ _ (off := 0x100000 + 4096 * t.val + 256 * 0 + 0) (by omega) (by omega) (by omega) fun l hl =>
      ⟨length_paddedRows 256 _, fun b hb => toNat_transposed (transposable_size htr) hl hb⟩
  case tloads =>
    rw [exec_tloads xa xs hq hd hsc]
    exact fillsArea_tileLoad s xa xs _ _ (off := 0x110000 + 256 * t.val + 0) (by omega) (by omega) (by omega) fun l hl =>
      ⟨length_paddedRows 16 l, fun b hb => toNat_paddedRows (by decide) hl hb⟩
  case taccld =>
    rw [exec_taccld xa xs hq]
    exact fillsArea_tileLoad s xa xs _ _ (off := 0x120000 + 1024 * acc.val + 64 * 0 + 4 * 0) (by omega) (by omega) (by omega) fun l hl =>
      ⟨(length_flatMap_rows fun _ _ => padTo_length 64 _).trans (by rw [hl]), fun b hb => toNat_accRows hl hb⟩

/-! ## Stores -/

theorem getBytes_eq_map (m : Memory) (k n : Nat) : m.getBytes k n = (List.range n).map fun b => m.get (k + b) := by
  induction n generalizing k with
  | zero => rfl
  | succ n ih =>
    rw [Memory.getBytes, ih, List.range_succ_eq_map, List.map_cons, List.map_map]
    simp only [Function.comp_def, Nat.add_zero, Nat.succ_eq_add_one, Nat.add_assoc, Nat.add_comm 1]

/-- Elements stored one after the other, as a run over the list with their bytes beside them. -/
theorem over_zip_eq_writeAll (s : State) (el : Nat → List Byte) (r : List (Nat × Admitted)) :
    (s.over (r.zip ((r.map Prod.fst).map el)) fun u p => Stored u p.1.2 p.2) = writeAll s el r := by
  induction r generalizing s with
  | nil => rfl
  | cons q r ih => exact ih _

theorem tileStore_admitted {s : State} {xa : XReg} {xs : LReg} {n size : Nat} {src : Nat → Nat} {r : List (Nat × Admitted)}
    (h : Admits s .write size (piecesOf s xa xs n size) r)
    (hr : ∀ q ∈ r, badIn s.bad (src q.1) size = none ∧ msiRefused q.2.spans (s.mem.getBytes (src q.1) size) = false) :
    s.tileStore xa xs n size src = (writeAll s (fun i => s.mem.getBytes (src i) size) r).fin 4 := by
  have hlanes := admits_pieces_fst h
  have hgood : (List.range n).findSome? (fun i => badIn s.bad (src i) size) = none := by
    rw [List.findSome?_eq_none_iff, ← hlanes]
    intro i hi
    obtain ⟨q, hq, rfl⟩ := List.mem_map.mp hi
    exact (hr q hq).1
  unfold State.tileStore
  rw [pieces_eq, checkElements_of_admits h fun q hq => (hr q hq).2]
  dsimp only
  rw [Vector.countFrom_zero, hgood, ← over_zip_eq_writeAll, hlanes]
  rfl

theorem storesArea_tileStore (s : State) (xa : XReg) (xs : LReg) (n size : Nat) (src : Nat → Nat) :
    StoresArea s (s.tileStore xa xs n size src) (piecesOf s xa xs n size) size src := by
  intro r hr row hgood
  have hrow : row = fun i => s.mem.getBytes (src i) size := funext fun i => (getBytes_eq_map _ _ _).symm
  rw [hrow] at hgood ⊢
  refine ⟨_, (tileStore_admitted hr hgood).trans (State.fin_eq _ _), retired_setX _ 0 0 4, quiet_retire (.refl _) 4, fun hm => ?_⟩
  have hkeeps := keepsThreads_writeAll hm s fun i => s.mem.getBytes (src i) size
  refine ⟨quiet_retire hkeeps 4, ?_, fun j hj => others_retire hkeeps 4 hj, fun key hkey => ?_⟩
  · rw [State.me_retire, Thread.retire_pc, hkeeps.pc]
    rfl
  · rw [State.retire_mem]
    cases r with
    | nil => rfl
    | cons q r =>
      obtain ⟨⟨-, hheld⟩, -⟩ := hkey q List.mem_cons_self
      exact (keepsByte_writeAll hm s _ (fun x hx => ⟨(hkey x hx).1.1, (hkey x hx).2⟩) hheld).2

section
variable {s : State} {t : TReg} {acc : AReg} (xa : XReg) (xs : LReg)

theorem exec_tstore (hq : NoEntry s (usesTile t)) (hd : descOk (s.tdesc s.myCore t) = true) : exec (.tstore t xa xs) s =
    s.tileStore xa xs (dRows (s.tdesc s.myCore t)) (rowBytes (s.tdesc s.myCore t)) fun i => tileKey s.myCore t i 0 :=
  (if_pos hd).trans (afterQueue_noEntry hq _)

theorem exec_taccst (hq : NoEntry s (usesAcc acc)) : exec (.taccst acc xa xs) s =
    s.tileStore xa xs 16 64 fun i => accKey s.myCore acc i 0 :=
  Eq.trans (b := execTaccst acc xa xs s) rfl (afterQueue_noEntry hq _)

end

/-- Settles O34: both members are one run of stores over the rows. -/
theorem tileStores : Obligations.TileStores := by
  intro s t acc xa xs c d
  refine ⟨fun hq hd => ?tstore, fun hq => ?taccst⟩
  case tstore =>
    rw [exec_tstore xa xs hq hd]
    exact storesArea_tileStore s xa xs _ _ _
  case taccst =>
    rw [exec_taccst xa xs hq]
    exact storesArea_tileStore s xa xs _ _ _

end Sys2Proof.Proofs.Matrix
end

section
/-!
PROOFS. Entries of the matrix queue (spec/06, R165, R184): an accumulator row is read as the sum over all cells listed in its range
(`Memory.longNum`), a single element as the first cell listed at each key (`Memory.num`). The two differ where a key is listed twice,
which the canonical form of memory (`Memory.wf`) excludes and O46 does not.
-/
namespace Sys2Proof.Proofs.Matrix
open Sys2Proof.Machine Sys2Proof.Claims

/-- The device after reset, but for a TACCADD of the INT32 accumulators 0 and 1 at the head of core 1's queue, and memory that lists
the first byte of accumulator 0, with value 1, twice. -/
def listedTwice : State :=
  { State.reset with
    cores := State.reset.cores.set 1 { Core.init with mx := { Core.init.mx with
      queue := [⟨.taccadd 0 1, 8, 0, 0⟩], accd := Vector.replicate 8 1 } }
    mem := [(accKey 1 0 0 0, 1), (accKey 1 0 0 0, 1)] }

theorem exec_listedTwice :
    exec (.evMqTaccaddExecute 1) listedTwice = .next (listedTwice.mqTurn 1 fun op => op.kind == 2) := rfl

/-- Element [0][0] of accumulator 0 is 1 and that of accumulator 1 is 0, but TACCADD stores 2. -/
theorem listedTwice_elements : listedTwice.mem.num (accKey 1 0 0 0) 4 = 1 ∧ listedTwice.mem.num (accKey 1 1 0 0) 4 = 0 ∧
    (listedTwice.mqTurn 1 fun op => op.kind == 2).mem.num (accKey 1 0 0 0) 4 = 2 := by decide

/-- Refutes O46: in `listedTwice`, where memory is not in canonical form, the integer TACCADD stores another sum than that of the
elements. -/
theorem not_queueEntryEvents : ¬ Obligations.QueueEntryEvents := by
  intro h
  obtain ⟨-, hevents⟩ := h listedTwice 1 ⟨.taccadd 0 1, 8, 0, 0⟩ [] 0 1 0 0 0 0 false rfl rfl
  obtain ⟨-, -, hadd, -⟩ := hevents rfl
  obtain ⟨z, hz, -, hsum⟩ := hadd rfl
  have hz' : listedTwice.mqTurn 1 (fun op => op.kind == 2) = z := by
    rw [exec_listedTwice] at hz
    injection hz
  have hsum00 : z.mem.num (accKey 1 0 0 0) 4 =
      (listedTwice.mem.num (accKey 1 0 0 0) 4 + listedTwice.mem.num (accKey 1 1 0 0) 4) % 2 ^ 32 :=
    hsum rfl rfl 0 0 (by decide) (by decide)
  obtain ⟨h0, h1, hout⟩ := listedTwice_elements
  rw [← hz', hout, h0, h1] at hsum00
  exact absurd hsum00 (by decide)

end Sys2Proof.Proofs.Matrix
end

section
/-!
PROOFS. The canonical form of memory (`Safe`) for results: what it says of an outcome, of an answer that may fail and of one that may be
missing, and how it passes through a branch and a fold. The sections after this one hold one lemma for each function of the model that
gives a state, named after the function, so that a proof is the composition that the function is; only where memory itself is written
does it cite a law of memory.
-/
namespace Sys2Proof.Machine

theorem Memory.wf_setMarks {m : Memory} (h : m.wf = true) (l : Marks) : (setMarks m l).wf = true := by
  induction l generalizing m with
  | nil => exact h
  | cons p l ih => exact ih (Memory.wf_put h _ _)

end Sys2Proof.Machine

namespace Sys2Proof
open Machine

/-! ## Results that hold a state -/

/-- The next state of an outcome, if it has one, is safe. -/
def SafeOut : Out → Prop
  | .next s => Safe s
  | .fault _ => True
  | .refused _ => True

/-- What is answered, if anything, has `p`. -/
def SafeOk {ε α : Type} (p : α → Prop) : Except ε α → Prop
  | .ok a => p a
  | .error _ => True

/-- What is present, if anything, has `p`. -/
def SafeSome {α : Type} (p : α → Prop) : Option α → Prop
  | some a => p a
  | none => True

/-- The state after a storing instruction at the home unit, if it was performed, is safe. -/
def SafeVer : VerOut → Prop
  | .done s => Safe s
  | .cause _ => True
  | .wait => True

/-- The state that a failed access of firmware leaves is safe. -/
def SafeFw : FwFail → Prop
  | .later s => Safe s
  | .fail s _ _ => Safe s

/-- The state that a failed access of an engine leaves is safe. -/
def SafeEngine : EngineFail → Prop
  | .later s => Safe s
  | .lease s _ => Safe s
  | .back s _ _ _ => Safe s

/-- The state that work of firmware over a range leaves is safe. -/
def SafeRun (r : FwRun) : Prop := Safe r.1

theorem SafeOut.next {r : Out} {s : State} (h : SafeOut r) (e : r = .next s) : Safe s := by
  subst e
  exact h

theorem SafeOk.ok {ε α : Type} {p : α → Prop} {r : Except ε α} {a : α} (h : SafeOk p r) (e : r = .ok a) : p a := by
  subst e
  exact h

theorem SafeSome.some {α : Type} {p : α → Prop} {r : Option α} {a : α} (h : SafeSome p r) (e : r = .some a) : p a := by
  subst e
  exact h

theorem SafeSome.some_ok {ε α : Type} {p : α → Prop} {r : Option (Except ε α)} {a : α} (h : SafeSome (SafeOk p) r)
    (e : r = .some (.ok a)) : p a := by
  subst e
  exact h

theorem SafeSome.getD {r : Option State} {s : State} (h : SafeSome Safe r) (hs : Safe s) : Safe (r.getD s) := by
  cases r with
  | none => exact hs
  | some u => exact h

theorem SafeSome.map {α β : Type} {p : β → Prop} {r : Option α} {f : α → β} (hf : ∀ a, p (f a)) : SafeSome p (r.map f) := by
  cases r with
  | none => trivial
  | some a => exact hf a

theorem SafeVer.done {r : VerOut} {s : State} (h : SafeVer r) (e : r = .done s) : Safe s := by
  subst e
  exact h

theorem SafeFw.later {r : FwFail} {s : State} (h : SafeFw r) (e : r = .later s) : Safe s := by
  subst e
  exact h

theorem SafeFw.fail {r : FwFail} {s : State} {c : Nat} {a : Word} (h : SafeFw r) (e : r = .fail s c a) : Safe s := by
  subst e
  exact h

theorem SafeRun.fst {r : FwRun} {s : State} {f : Option AFault} (h : SafeRun r) (e : r = (s, f)) : Safe s := by
  subst e
  exact h

theorem SafeRun.next {r : FwRun} {f : State → FwRun} (h : SafeRun r) (hf : ∀ u, Safe u → SafeRun (f u)) : SafeRun (r.next f) := by
  unfold FwRun.next
  split
  · exact hf _ h
  · exact h

theorem SafeEngine.later {r : EngineFail} {s : State} (h : SafeEngine r) (e : r = .later s) : Safe s := by
  subst e
  exact h

theorem SafeEngine.lease {r : EngineFail} {s : State} {a : Word} (h : SafeEngine r) (e : r = .lease s a) : Safe s := by
  subst e
  exact h

theorem SafeEngine.back {r : EngineFail} {s : State} {code cause : Nat} {a : Word} (h : SafeEngine r) (e : r = .back s code cause a) :
    Safe s := by
  subst e
  exact h

/-- Only memory counts: a record update, told apart from the state it starts from. -/
theorem safe_mk {agenda cur free time threads cores tasks teamBars offers nextGang nextKey binds mem bad wc regions drops vspill clusterTlbs
    rounds pageWaits ends hostWaits hub queues qifs captures msi ports sent bridgeBox slack power striker boot} (h : Memory.wf mem = true) :
    Safe ⟨agenda, cur, free, time, threads, cores, tasks, teamBars, offers, nextGang, nextKey, binds, mem, bad, wc, regions, drops, vspill,
      clusterTlbs, rounds, pageWaits, ends, hostWaits, hub, queues, qifs, captures, msi, ports, sent, bridgeBox, slack, power, striker,
      boot⟩ := h

theorem Safe.clear {s : State} {k n : Nat} {bad : List Nat} (h : Safe s) : Safe { s with mem := s.mem.clear k n, bad := bad } :=
  safe_mk (Memory.wf_clear h _ _)

/-- The state part of a result, read off where the result is known. -/
theorem Safe.of_eq {α : Type} {g : α → State} {r r' : α} (h : Safe (g r)) (e : r = r') : Safe (g r') := e ▸ h

/-! ## Branches and folds -/

theorem Safe.ite {s t : State} {c : Prop} {_ : Decidable c} (hs : Safe s) (ht : Safe t) : Safe (if c then s else t) := by
  split <;> assumption

theorem Safe.snd_ite {α : Type} {a b : α × State} {c : Prop} {_ : Decidable c} (ha : Safe a.2) (hb : Safe b.2) :
    Safe (if c then a else b).2 := by
  split <;> assumption

theorem SafeOk.ite {ε α : Type} {p : α → Prop} {a b : Except ε α} {c : Prop} {_ : Decidable c} (ha : SafeOk p a) (hb : SafeOk p b) :
    SafeOk p (if c then a else b) := by
  split <;> assumption

theorem SafeOut.ite {a b : Out} {c : Prop} {_ : Decidable c} (ha : SafeOut a) (hb : SafeOut b) : SafeOut (if c then a else b) := by
  split <;> assumption

theorem SafeVer.ite {a b : VerOut} {c : Prop} {_ : Decidable c} (ha : SafeVer a) (hb : SafeVer b) : SafeVer (if c then a else b) := by
  split <;> assumption

theorem Safe.over {α : Type} {s : State} (h : Safe s) {l : List α} {f : State → α → State} (hf : ∀ u a, Safe u → Safe (f u a)) :
    Safe (s.over l f) := by
  induction l generalizing s with
  | nil => exact h
  | cons a l ih => exact ih (hf s a h)

end Sys2Proof
end

section
/-!
PROOFS. Memory keeps its canonical form (O60; spec/08, R196; spec/09, R226): what the state's own operations, translation, physical
memory, replies of the hub and fault records leave of memory.
-/
namespace Sys2Proof
open Machine

section
variable {s : State} (h : Safe s)
include h

/-! ## Machine/Mem -/

theorem Safe.healRegs {tid l} : Safe (s.healRegs tid l) := .ite h h
theorem Safe.setThr {tid t} : Safe (s.setThr tid t) := h
theorem Safe.modThr {tid f} : Safe (s.modThr tid f) := h.setThr
theorem Safe.modMe {f} : Safe (s.modMe f) := h.modThr
theorem Safe.setCore {c k} : Safe (s.setCore c k) := h
theorem Safe.modCore {c f} : Safe (s.modCore c f) := h.setCore

theorem Safe.modTask {g f} : Safe (s.modTask g f) := by
  unfold State.modTask
  split <;> exact h

theorem Safe.setX {r w} : Safe (s.setX r w) := .ite h h.modMe
theorem Safe.setV {r w} : Safe (s.setV r w) := h.modMe
theorem Safe.setM {r w} : Safe (s.setM r w) := h.modMe
theorem Safe.retire {n} : Safe (s.retire n) := h.modMe
theorem Safe.drawFree : Safe s.drawFree.2 := h

/-! ## Machine/Flags -/

theorem Safe.fpResult {d code r} : Safe (s.fpResult d code r) := h.modMe.setX

/-! ## Machine/Translate -/

theorem Safe.setReg {off v} : Safe (s.setReg off v) := h
theorem Safe.setQuad {q v} : Safe (s.setQuad q v) := h
theorem Safe.setDomain {d v} : Safe (s.setDomain d v) := h
theorem Safe.askDomains {l} : Safe (s.askDomains l) := h
theorem Safe.beginRise {q dst wake} : Safe (s.beginRise q dst wake) := h.setQuad.askDomains

theorem Safe.accessWake {q} : Safe (s.accessWake q) := by
  unfold State.accessWake
  extract_lets v w s1
  have h1 : Safe s1 := h.beginRise
  exact .ite h h1

theorem Safe.raiseBound {c off} : Safe (s.raiseBound c off) := .ite h.modCore h
theorem Safe.touchCore {c} : Safe (s.touchCore c) := .ite h.modCore h
theorem Safe.wakesLpddr : Safe s.wakesLpddr := h
theorem Safe.usesLpddr : Safe s.usesLpddr := h

theorem Safe.reach {p} : Safe (s.reach p) := by
  unfold State.reach
  split
  · extract_lets s1
    have h1 : Safe s1 := h.touchCore
    exact .ite (.ite h1.raiseBound h1) (.ite h.touchCore (.ite h.usesLpddr h))
  · exact h.touchCore
  · exact h

theorem Safe.holdTlb {c e} : Safe (s.holdTlb c e) := h

theorem Safe.admitPages {w ad} : Safe (s.admitPages w ad) := by
  unfold State.admitPages
  extract_lets s1 s2 missed s3
  have h1 : Safe s1 := Memory.wf_setMarks h _
  have h2 : Safe s2 := .ite h1.usesLpddr h1
  have h3 : Safe s3 := .ite h2 h2.modThr
  exact .ite (h3.over fun _ _ hu => hu.holdTlb) h2

theorem Safe.admitAccess {w ad} : Safe (s.admitAccess w ad) := h.admitPages.over fun _ _ hu => hu.reach

/-! ## Machine/Ram -/

theorem Safe.poke {k bs} : Safe (s.poke k bs) := by
  unfold State.poke
  extract_lets s1
  have h1 : Safe s1 := Memory.wf_putBytes h _ _
  exact .ite h1.modCore h1

theorem Safe.pokeNum {k n v} : Safe (s.pokeNum k n v) := h.poke

theorem Safe.landWc {out} : Safe (s.landWc out) := by
  unfold State.landWc
  extract_lets es s1
  have h1 : Safe s1 := h
  exact h1.over fun _ _ hu => hu.poke

theorem Safe.flushWc {tid} : Safe (s.flushWc tid) := h.landWc
theorem Safe.holdWc {tid k bs} : Safe (s.holdWc tid k bs) := h
theorem Safe.expireWc : Safe s.expireWc := h.landWc

theorem Safe.setWinByte {c off b} : Safe (s.setWinByte c off b) := by
  unfold State.setWinByte
  split
  · exact h.modThr
  · exact .ite h h.modThr
  · exact h

theorem Safe.showPorts : Safe s.showPorts := h.setReg

theorem Safe.hubRead {off} : Safe (s.hubRead off) := by
  unfold State.hubRead
  split
  · extract_lets
    split
    · exact h
    · split
      next e => exact (h.drawFree.of_eq e).setDomain
  · exact h

theorem Safe.loadEffect {tid l} : Safe (s.loadEffect tid l) := by
  unfold State.loadEffect
  extract_lets s1
  have h1 : Safe s1 := .ite h.flushWc h
  refine h1.over fun _ _ hu => ?_
  split
  · exact hu.hubRead
  · exact hu

theorem Safe.writeSpans {hub tid thread l bs} (hhub : ∀ u j k, Safe u → Safe (hub u j k)) :
    Safe (s.writeSpans hub tid thread l bs) := by
  induction l generalizing s bs with
  | nil => exact h
  | cons p l ih =>
    rw [State.writeSpans]
    refine ih ?_
    split
    · exact .ite h.holdWc (Safe.ite h.flushWc h).poke
    · refine Safe.over ?_ fun _ _ hu => hu.setWinByte
      exact h
    · exact hhub _ _ _ h

/-! ## Machine/Records -/

theorem Safe.msiSend {i} : Safe (s.msiSend i) := .ite h.setReg h
theorem Safe.raise {q v} : Safe (s.raise q v) := .ite h.msiSend h.setReg
theorem Safe.raiseErr {q} : Safe (s.raiseErr q) := h.raise

theorem Safe.logError {kind domain unit tenant addr detail} : Safe (s.logError kind domain unit tenant addr detail) := by
  unfold State.logError
  extract_lets tail at0 s1 s2
  have h1 : Safe s1 := h.setReg.setReg.setReg
  have h2 : Safe s2 := h1.setReg.setReg
  exact .ite h.setReg (.ite h2.msiSend h2)

theorem Safe.logConsumed {tid key code} : Safe (s.logConsumed tid key code) := h.logError
theorem Safe.noteKey {tenant k n} : Safe (s.noteKey tenant k n) := h.over fun _ _ hu => hu.logError

theorem Safe.noteWhole {tenant l} : Safe (s.noteWhole tenant l) := by
  unfold State.noteWhole
  split
  · exact h
  · refine h.over fun _ _ hu => ?_
    split
    · exact hu.noteKey
    · exact hu.noteKey
    · exact hu

theorem Safe.ringUsed {k m} : Safe (s.ringUsed k m) := by
  unfold State.ringUsed
  extract_lets s1
  have h1 : Safe s1 := Memory.wf_setMarks h _
  exact .ite h1.usesLpddr h1

theorem Safe.ringWrite {q ia l} : SafeOk Safe (s.ringWrite q ia l) := by
  unfold State.ringWrite
  split
  · trivial
  · exact h.ringUsed.noteKey.poke

theorem Safe.setQueue {q n v} : Safe (s.setQueue q n v) := h
theorem Safe.setQif {q v} : Safe (s.setQif q v) := h
theorem Safe.stopQueue {q n code} : Safe (s.stopQueue q n code) := h.setReg
theorem Safe.failHeld {q l} : Safe (s.failHeld q l) := h

theorem Safe.putFault {q r} : SafeSome (SafeOk Safe) (s.putFault q r) := by
  unfold State.putFault
  extract_lets
  split
  · trivial
  · show SafeOk Safe _
    split
    · trivial
    · next e => exact (h.ringWrite.ok e).setReg.raise

theorem Safe.writeFaults {q a} : Safe (s.writeFaults q a) := by
  induction a generalizing s with
  | nil => exact h.setQif
  | cons r rest ih =>
    rw [State.writeFaults]
    split
    · exact h.setQif
    · exact h.setQif.accessWake
    · exact h.setQif.raiseErr
    · next e => exact ih (h.putFault.some_ok e)

theorem Safe.flushFaults {q l} : Safe (s.flushFaults q l) := .ite h.writeFaults h.failHeld.setQif

theorem Safe.postFault {q kind queue pasid acc stage addr index tag} :
    Safe (s.postFault q kind queue pasid acc stage addr index tag).1 := by
  unfold State.postFault
  extract_lets seq w0 r _ s1
  have h1 : Safe s1 := h.setQif
  split
  · split
    · exact h1.flushFaults
    · exact h1.setQif
  · exact h

theorem Safe.addWait {tid engine sp from_ fw entry page addr va acc stage} :
    Safe (s.addWait tid engine sp from_ fw entry page addr va acc stage).1 := by
  unfold State.addWait
  extract_lets q s1
  have h1 : Safe s1 := .ite h.usesLpddr h
  split
  · exact h1
  · split
    · exact h1
    · split
      · next e => exact ((h1.postFault.of_eq e) : Safe _)
      · next e => exact h1.postFault.of_eq e

theorem Safe.dropJob {marker} : Safe (s.dropJob marker) := h
theorem Safe.logFirmware {q key} : Safe (s.logFirmware q key) := h.logError

theorem Safe.fwFailed {j acc f} : SafeFw (s.fwFailed j acc f) := by
  unfold State.fwFailed
  split
  · exact h
  · exact h.logFirmware
  · exact h
  · exact h.accessWake
  · split
    · split <;> exact h
    · split
      · next e => exact h.addWait.of_eq e
      · next e => exact h.addWait.of_eq e

theorem Safe.putRecord {q n r} : SafeSome (SafeOk Safe) (s.putRecord q n r) := by
  unfold State.putRecord
  extract_lets
  split
  · trivial
  · show SafeOk Safe _
    split
    · trivial
    · next e => exact Safe.ite (h.ringWrite.ok e).setReg.raise (h.ringWrite.ok e).setReg

theorem Safe.freePlace {tenant seq} : Safe (s.freePlace tenant seq) := h

theorem Safe.written {r} : Safe (s.written r) := by
  unfold State.written
  split
  · exact h.freePlace
  · exact h
  · exact h
  · exact h

theorem Safe.flushRecords {q n a} : Safe (s.flushRecords q n a) := by
  induction a generalizing s with
  | nil => exact h.setQueue
  | cons r rest ih =>
    rw [State.flushRecords]
    extract_lets _ s1
    have h1 : Safe s1 := h.setQueue
    split
    · exact h.setQueue
    · split
      · next e => exact h1.fwFailed.later e
      · next e => exact (h1.fwFailed.fail e).dropJob.stopQueue.raiseErr
    · next e => exact ih (h.putRecord.some_ok e).dropJob.written

theorem Safe.record {q n r} : Safe (s.record q n r) := .ite h.flushRecords h.setQueue
theorem Safe.retryQueue {q n} : Safe (s.retryQueue q n) := .ite h h.flushRecords
theorem Safe.finishPacket {q n index} : Safe (s.finishPacket q n index) := h.setQueue.setReg

theorem Safe.completePacket {q n index tag crec irq status sub value} :
    Safe (s.completePacket q n index tag crec irq status sub value) := by
  unfold State.completePacket
  extract_lets v pass s1 s2
  have h1 : Safe s1 := h.setQueue
  have h2 : Safe s2 := .ite h1.record h1
  exact h2.finishPacket

theorem Safe.fwLoad {q pasid va n} : SafeOk (fun r => Safe r.1) (s.fwLoad q pasid va n) := by
  unfold State.fwLoad
  extract_lets
  split
  · trivial
  · split
    · trivial
    · exact h.admitAccess

theorem Safe.fwStore {q pasid va bs} : SafeOk Safe (s.fwStore q pasid va bs) := by
  unfold State.fwStore
  extract_lets
  split
  · trivial
  · split
    · trivial
    · exact h.admitAccess.noteWhole.writeSpans (fun _ _ _ hu => hu)

theorem Safe.fwResolve {f} : SafeSome Safe (s.fwResolve f) := by
  unfold State.fwResolve
  split
  · exact Memory.wf_put h _ _
  · trivial

theorem Safe.fwStoreR {q pasid va bs a} : SafeOk Safe (s.fwStoreR q pasid va bs a) := by
  induction a generalizing s with
  | zero => exact h.fwStore
  | succ k ih =>
    rw [State.fwStoreR]
    split
    · next e => exact h.fwStore.ok e
    · split
      · next e => exact ih (h.fwResolve.some e)
      · trivial

theorem Safe.fwLoadR {q pasid va n a} : SafeOk (fun r => Safe r.1) (s.fwLoadR q pasid va n a) := by
  induction a generalizing s with
  | zero => exact h.fwLoad
  | succ k ih =>
    rw [State.fwLoadR]
    split
    · next e => exact h.fwLoad.ok e
    · split
      · next e => exact ih (h.fwResolve.some e)
      · trivial

theorem Safe.tracePut {c k bs} : SafeOk Safe (s.tracePut c k bs) := by
  unfold State.tracePut
  extract_lets
  split
  · exact h
  · split
    · next e => exact ((h.fwStoreR.ok e) : Safe _)
    · trivial
    · exact h

theorem Safe.traceWrite {c a} : Safe (s.traceWrite c a) := by
  induction a generalizing s c with
  | zero => exact h
  | succ k ih =>
    rw [State.traceWrite]
    split
    · exact h
    · split
      · exact h
      · split
        · next e => exact ih (h.tracePut.ok e)
        · exact h.accessWake

theorem Safe.traceAgain {c} : Safe (s.traceAgain c) := by
  unfold State.traceAgain
  split
  · exact h.traceWrite
  · exact h

theorem Safe.traceNext {c words} : Safe (s.traceNext c words) := by
  unfold State.traceNext
  split
  · exact h
  · extract_lets s1
    have h1 : Safe s1 := h
    exact .ite h1.traceAgain h1

theorem Safe.trace {c words} : Safe (s.trace c words) := by
  unfold State.trace
  split
  · exact h
  · exact .ite h h.traceNext

theorem Safe.retryRings : Safe s.retryRings := by
  unfold State.retryRings
  extract_lets s1 s2
  have h1 : Safe s1 := h.over fun _ _ hu => hu.retryQueue
  have h2 : Safe s2 := by
    refine h1.over fun _ _ hu => ?_
    split
    · exact hu
    · split
      · exact hu.flushFaults
      · exact hu
  exact h2.over fun _ _ hu => hu.traceAgain

theorem Safe.traceGang {g kind len core slot bitNo payload} : Safe (s.traceGang g kind len core slot bitNo payload) := by
  unfold State.traceGang
  split
  · exact h
  · split
    · exact h
    · split
      · exact h
      · exact .ite h.trace h

end

end Sys2Proof
end

section
/-!
PROOFS. Memory keeps its canonical form (O60; spec/08, R196; spec/09, R226): the matrix unit's memory, saving and restoring of teams and
tasks, the hub's registers, starts.
-/
namespace Sys2Proof
open Machine

section
variable {s : State} (h : Safe s)
include h

/-! ## Machine/Matrix -/

theorem Safe.modMx {c f} : Safe (s.modMx c f) := h.modCore
theorem Safe.putAccRow {c n i l} : Safe (s.putAccRow c n i l) := h.poke

theorem Safe.tmmaRow {c n ta tb da db accd i st} : Safe (s.tmmaRow c n ta tb da db accd i st).1 := by
  unfold State.tmmaRow
  extract_lets
  split
  exact h.putAccRow

theorem Safe.mxRows {f l st} (hf : ∀ u i st, Safe u → Safe (f u i st).1) : Safe (s.mxRows f l st).1 := by
  induction l generalizing s st with
  | nil => exact h
  | cons i l ih => exact ih (hf s i st h)

theorem Safe.taccoutRow {c t n cb d accd scale mode i st} : Safe (s.taccoutRow c t n cb d accd scale mode i st).1 := by
  unfold State.taccoutRow
  extract_lets
  split
  exact h.poke

theorem Safe.taccaddRow {c d n accd i st} : Safe (s.taccaddRow c d n accd i st).1 := by
  unfold State.taccaddRow
  extract_lets
  split
  exact h.putAccRow

theorem Safe.tcvtRow {s' c t ta da dd mode i st} : Safe (State.tcvtRow s' s c t ta da dd mode i st).1 := by
  unfold State.tcvtRow
  extract_lets
  split
  exact h.poke

theorem Safe.swapBytes {a b n} : Safe (s.swapBytes a b n) := h.poke.poke

theorem Safe.entryEffect {c e} : Safe (s.entryEffect c e).1 := by
  unfold State.entryEffect
  extract_lets
  split
  · exact h.mxRows fun _ _ _ hu => hu.tmmaRow
  · extract_lets
    split
    exact h.mxRows fun _ _ _ hu => hu.taccoutRow
  · exact h.mxRows fun _ _ _ hu => hu.taccaddRow
  · exact h.poke.poke
  · exact h.poke
  · exact h.swapBytes.swapBytes
  · exact h.mxRows fun _ _ _ hu => hu.tcvtRow

theorem Safe.entryFlags {c e st sat} : Safe (s.entryFlags c e st sat) := by
  unfold State.entryFlags
  extract_lets s1
  have h1 : Safe s1 := h.modMx
  exact h1.modThr

theorem Safe.runEntry {c e rest} : Safe (s.runEntry c e rest) := by
  unfold State.runEntry
  extract_lets r s1
  have h1 : Safe s1 := h.modMx
  split
  · extract_lets s2
    have h2 : Safe s2 := h.logConsumed.modMx
    exact h2.over fun _ _ hu => hu.modThr
  · split
    next e => exact (h1.entryEffect.of_eq e).entryFlags

theorem Safe.mxHead {c} : Safe (s.mxHead c) := by
  unfold State.mxHead
  split
  · exact h
  · exact h.runEntry

theorem Safe.mxStep {c} : Safe (s.mxStep c) := .ite h.mxHead.mxHead h.mxHead

theorem Safe.mxDrain {c a} : Safe (s.mxDrain c a) := by
  induction a generalizing s c with
  | zero => exact h
  | succ k ih => exact .ite h (ih h.mxStep)

theorem Safe.enqueue {op draws} : Safe (s.enqueue op draws) := by
  unfold State.enqueue
  extract_lets t s1
  have h1 : Safe s1 := h.modMx
  exact .ite h1 h1.modMe

/-! ## Machine/Tasks -/

theorem Safe.handBack {tid code eval ehb} : Safe (s.handBack tid code eval ehb) := h.modThr
theorem Safe.noteSaved {tid k n} : Safe (s.noteSaved tid k n) := .ite h (h.over fun _ _ hu => hu.logConsumed)
theorem Safe.moveMem {src dst n} : Safe (s.moveMem src dst n) := Memory.wf_move h _ _ _

theorem Safe.saveTeam {c base team} : Safe (s.saveTeam c base team) := by
  unfold State.saveTeam
  extract_lets k w s1 s2 s3 s4 s5 csrs s6 s7 fifo s8 s9 s10 recs s11
  have h1 : Safe s1 := h.noteSaved.noteSaved.noteSaved.noteSaved
  have h2 : Safe s2 := h1.usesLpddr.moveMem
  have h3 : Safe s3 := h2.moveMem
  have h4 : Safe s4 := h3.moveMem
  have h5 : Safe s5 := h4.moveMem
  have h6 : Safe s6 := h5.poke
  have h7 : Safe s7 := h6.poke
  have h8 : Safe s8 := h7.poke
  have h9 : Safe s9 := h8.poke
  have h10 : Safe s10 := h9.poke
  have h11 : Safe s11 := h10.poke
  exact h11.poke

theorem Safe.restoreCopies {c base key} : Safe (s.restoreCopies c base key) := by
  unfold State.restoreCopies
  refine h.over fun _ _ hu => ?_
  extract_lets
  split
  · exact hu.logConsumed.handBack
  · exact .ite hu.modCore hu

theorem Safe.restoreColls {c base key more} : Safe (s.restoreColls c base key more) := h.modCore

theorem Safe.restoreTeam {c base key more} : Safe (s.restoreTeam c base key more) := by
  unfold State.restoreTeam
  extract_lets word touched n csr barWord fifo inbox counts top s1 s2 s3 s4 s5 bars s6 s7
  have h1 : Safe s1 := h.usesLpddr.moveMem
  have h2 : Safe s2 := Memory.wf_clear (Memory.wf_clear h1 _ _) _ _
  have h5 : Safe s5 := h2.moveMem.moveMem.moveMem
  have h6 : Safe s6 := safe_mk h5
  have h7 : Safe s7 := h6.modCore
  exact h7.restoreCopies.restoreColls

theorem Safe.freeSlot {tid} : Safe (s.freeSlot tid) := h
theorem Safe.freeCore {c} : Safe (s.freeCore c) := h
theorem Safe.dropTenant {t} : Safe (s.dropTenant t) := h

theorem Safe.freeGang {g t} : Safe (s.freeGang g t) := by
  unfold State.freeGang
  extract_lets ths s1 s2 s3
  have h1 : Safe s1 := h.over fun _ _ hu => hu.mxDrain
  have h2 : Safe s2 := h1.over fun _ _ hu => hu.freeSlot
  have h3 : Safe s3 := h2.over fun _ _ hu => hu.freeCore
  exact h3

theorem Safe.endStores {e a} : Safe (s.endStores e a).1 := by
  induction a generalizing s e with
  | nil => exact h
  | cons a rest ih =>
    rw [State.endStores]
    split
    · next e => exact ih (h.fwStoreR.ok e)
    · split
      · next e => exact h.fwFailed.later e
      · next e => exact ih (h.fwFailed.fail e)

theorem Safe.finishEnd {e} : Safe (s.finishEnd e) := by
  unfold State.finishEnd
  split
  next e =>
    extract_lets s1
    have h1 : Safe s1 := (h.endStores.of_eq e).dropJob
    split
    · exact ((h.endStores.of_eq e) : Safe _)
    · split
      · exact .ite h1.completePacket h1.completePacket
      · exact h1.completePacket

theorem Safe.retryEnds : Safe s.retryEnds := by
  refine Safe.over ?_ fun _ _ hu => hu.finishEnd
  exact h

theorem Safe.endTaskWith {g status sub value first} : Safe (s.endTaskWith g status sub value first) := by
  unfold State.endTaskWith
  extract_lets s1
  have h1 : Safe s1 := h.over fun _ _ hu => hu.flushWc
  split
  · exact h
  · extract_lets s2 s3
    have h2 : Safe s2 := h1.freeGang
    have h3 : Safe s3 := .ite h2 h2
    exact .ite h3 h3.finishEnd

theorem Safe.endTask {g status sub value} : Safe (s.endTask g status sub value) := h.endTaskWith

theorem Safe.stopGang {g} : Safe (s.stopGang g) := by
  unfold State.stopGang
  extract_lets ths s1
  have h1 : Safe s1 := h.over fun _ _ hu => .ite hu hu
  exact h1.modTask

theorem Safe.saveThread {tid} : Safe (s.saveThread tid) := by
  unfold State.saveThread
  extract_lets k s1
  have h1 : Safe s1 := h.usesLpddr.poke
  exact h1

theorem Safe.restoreRegs {tid key} : Safe (s.restoreRegs tid key) := .ite h h

theorem Safe.stopThread {tid} : Safe (s.stopThread tid) := by
  unfold State.stopThread
  extract_lets b s1 s2 t s3 s4
  have h1 : Safe s1 := h.flushWc
  have h2 : Safe s2 := h1
  have h3 : Safe s3 := h2.over fun _ _ hu => hu.logConsumed
  have h4 : Safe s4 := h3.saveThread
  exact h4

theorem Safe.saveGang {g} : Safe (s.saveGang g) := by
  unfold State.saveGang
  split
  · exact h
  · extract_lets ranks s1 s2 recs s3 keep paused s4 s5
    have h1 : Safe s1 := h.over fun _ _ hu => hu.mxDrain
    have h2 : Safe s2 := by
      refine h1.over fun _ _ hu => ?_
      split
      · exact hu.saveTeam
      · exact hu
    have h3 : Safe s3 := h2.over fun _ _ hu => hu.saveThread
    have h4 : Safe s4 := h3.over fun _ _ hu => hu.modThr
    have h5 : Safe s5 := h4.over fun _ _ hu => hu.freeCore
    exact h5.modTask

/-! ## Machine/Hub -/

theorem Safe.dropTlb {p} : Safe (s.dropTlb p) := h

theorem Safe.invalidate {p} : Safe (s.invalidate p) := by
  unfold State.invalidate
  extract_lets s1
  have h1 : Safe s1 := h.landWc.dropTlb
  exact h1

theorem Safe.logNotify {q w0} : Safe (s.logNotify q w0) := by
  unfold State.logNotify
  extract_lets tail s1
  have h1 : Safe s1 := h.poke
  exact .ite h.setReg h1.pokeNum

theorem Safe.readNotifies : Safe s.readNotifies := h.pokeNum

theorem Safe.notify {q o v} : Safe (s.notify q o v) := by
  unfold State.notify
  extract_lets n tail pasid head ok s1 s2
  have h1 : Safe s1 := .ite h.setReg h
  have h2 : Safe s2 := h1.logNotify
  exact .ite h (.ite h2 h2.postFault)

theorem Safe.wakePage {w} : Safe (s.wakePage w) := by
  unfold State.wakePage
  split
  · exact h
  · exact h.modThr

theorem Safe.fresp {q v} : Safe (s.fresp q v) := by
  unfold State.fresp
  extract_lets mine s1
  have h1 : Safe s1 := h.over fun _ _ hu => hu.wakePage
  refine .ite h (.ite (Safe.retryRings (Safe.retryEnds ?_)) (Safe.retryRings (Safe.retryEnds ?_)))
  · exact h
  · exact h1

theorem Safe.qifResetStart {q} : Safe (s.qifResetStart q) := h.setReg.setQif

theorem Safe.qifResetDone {q} : Safe (s.qifResetDone q) := by
  unfold State.qifResetDone
  extract_lets mine s1 s2 s3 _ s4 s5 _ s6 s7 s8
  have h1 : Safe s1 := h.over fun _ _ hu => hu.flushWc
  have h2 : Safe s2 := h1.over fun _ _ hu => hu.freeGang
  have h3 : Safe s3 := h2
  have h4 : Safe s4 := by
    refine h3.over fun _ _ hu => ?_
    extract_lets d s9 s10 kept s11
    have h9 : Safe s9 := hu.setReg
    have h10 : Safe s10 := h9.setReg.setReg.setReg
    have h11 : Safe s11 := h10
    exact .ite h11 h11.setQueue
  have h5 : Safe s5 := h4.dropTlb
  have h6 : Safe s6 := h5.setQif
  have h7 : Safe s7 := h6.setReg
  have h8 : Safe s8 := h7.setReg
  exact h8.raiseErr

theorem Safe.debugResume {q g} : Safe (s.debugResume q g) := by
  unfold State.debugResume
  extract_lets s1
  have h1 : Safe s1 := h.over fun _ _ hu => hu.modThr
  split
  · exact .ite h.modTask (.ite h1.modTask h)
  · exact h

theorem Safe.debugStop {q g} : Safe (s.debugStop q g) := by
  unfold State.debugStop
  split
  · exact .ite h.modTask h
  · exact h

theorem Safe.queueCtl {q n old v} : Safe (s.queueCtl q n old v) := by
  unfold State.queueCtl
  extract_lets _ s1 s2
  have h1 : Safe s1 := .ite h.setReg (.ite h.setQueue h)
  have h2 : Safe s2 := h1.setReg
  exact .ite h2.flushRecords h1

theorem Safe.hubEffect {off old v} : Safe (s.hubEffect off old v) := by
  delta State.hubEffect
  have hctl {c : Prop} {_ : Decidable c} : Safe (if c then s.setReg off old else s) := .ite h.setReg h
  refine .ite (.ite ?start (.ite ?inval (.ite hctl h))) <| .ite (.ite h h) <| .ite h.setReg.setReg <| .ite ?quote <|
    .ite (.ite h.setReg.msiSend h) <| .ite h.msiSend <| .ite ?page (.ite (.ite h h) h)
  case start => exact .ite (Safe.ite h.setReg h).qifResetStart (.ite h.setReg h)
  case inval => exact h.invalidate.setReg
  case quote =>
    split
    · exact h
    · exact h.setReg
  case page =>
    exact .ite h.notify <| .ite (.ite h.qifResetStart h) <| .ite h.invalidate.setReg <| .ite h.debugResume <| .ite h.debugStop <|
      .ite (.ite h.queueCtl <| .ite hctl <| .ite h.setQueue <| .ite h.flushRecords h) <| .ite h.flushFaults <| .ite h.fresp h

theorem Safe.hubMirror {off v} : Safe (s.hubMirror off v) := .ite h.setReg (.ite h (.ite h (.ite h h)))

theorem Safe.hubStore {aperture off v} : Safe (s.hubStore aperture off v) := by
  unfold State.hubStore
  extract_lets old f s1 s2
  have h1 : Safe s1 := .ite h h.setReg
  have h2 : Safe s2 := .ite h1.hubMirror h1
  exact .ite h (.ite h2 h2.hubEffect)

/-! ## Machine/Start -/

theorem Safe.down {warm} : Safe (s.down warm) := Memory.wf_filter h _

theorem Safe.bringUp {mask} : Safe (s.bringUp mask) :=
  h.over fun _ _ hu => .ite hu (.ite hu.setQuad (hu.setQuad.over fun _ _ hv => hv.setDomain))

theorem Safe.running {kind image} : Safe (s.running kind image) := by
  unfold State.running
  extract_lets mask s1
  have h1 : Safe s1 := h.bringUp
  exact h1

theorem Safe.startFails {step} : Safe (s.startFails step) := h

theorem Safe.attempt {warm fail} : Safe (s.attempt warm fail).1 := by
  unfold State.attempt
  split
  · exact h.down.running
  · exact h.down.startFails

theorem Safe.startAgain {a} : Safe (s.startAgain a) := by
  induction a generalizing s with
  | zero => exact h
  | succ k ih =>
    rw [State.startAgain]
    split
    · exact h
    · split
      next e1 =>
        split
        · next e2 => exact (h.drawFree.of_eq e1).attempt.of_eq e2
        · next e3 => exact ih ((h.drawFree.of_eq e1).attempt.of_eq e3)

theorem Safe.start {warm fail} : Safe (s.start warm fail) := by
  unfold State.start
  split
  · next e => exact h.attempt.of_eq e
  · next e => exact (h.attempt.of_eq e).startAgain

theorem Safe.fwFault {tid code} : Safe (s.fwFault tid code) := by
  unfold State.fwFault
  extract_lets s1 fails
  have h1 : Safe s1 := h.logError
  split
  · split
    · exact safe_mk h1.down
    · split
      · next e => exact safe_mk (h1.attempt.of_eq e)
      · next e => exact (h1.attempt.of_eq e).startAgain
  · exact h1

theorem Safe.fatal {cause d tenant} : Safe (s.fatal cause d tenant) := by
  unfold State.fatal
  extract_lets s1 s2
  have h2 : Safe s2 := h.logError.over fun _ _ hu => hu.qifResetStart.qifResetDone
  exact safe_mk h2

theorem Safe.beginWake {q} : Safe (s.beginWake q) := .ite h h.beginRise

theorem Safe.deliverStrike {t r} : Safe (s.deliverStrike t r) := by
  unfold State.deliverStrike
  extract_lets k mark s1
  have h1 : Safe s1 := h
  split
  · exact h1.record
  · exact h.freePlace

theorem Safe.deliverUpTo {seq core} : Safe (s.deliverUpTo seq core) := by
  unfold State.deliverUpTo
  extract_lets
  split
  · exact h
  · exact h.over fun _ _ hu => hu.deliverStrike

theorem Safe.wakeDone {w} : Safe (s.wakeDone w) := by
  unfold State.wakeDone
  extract_lets miss _ s1 _ s2 s3
  have h1 : Safe s1 := h
  have h2 : Safe s2 := h1
  have h3 : Safe s3 := .ite h2.logError h1
  split
  · exact .ite h3.raiseErr h3
  · extract_lets s4 q n s5
    have h4 : Safe s4 := h3.deliverUpTo
    have h5 : Safe s5 := h4.record
    exact .ite (.ite h5.raise h5) (.ite h4.raiseErr h4)

theorem Safe.wakesLose {q} : Safe (s.wakesLose q) := by
  unfold State.wakesLose
  extract_lets hit _ s1
  have h1 : Safe s1 := h
  exact h1.over fun _ _ hu => hu.wakeDone

theorem Safe.wakeRequest {mask strike} : Safe (s.wakeRequest mask strike) := by
  unfold State.wakeRequest
  extract_lets qs failed cls w s1 _ s2
  have h1 : Safe s1 := h.over fun _ _ hu => hu.beginWake
  have h2 : Safe s2 := h1
  exact .ite h2.wakeDone h2

theorem Safe.raiseQuads : Safe s.raiseQuads := by
  unfold State.raiseQuads
  refine h.over fun _ _ hu => ?_
  extract_lets
  split
  · exact hu
  · exact .ite hu.beginRise hu

end

end Sys2Proof
end

section
/-!
PROOFS. Memory keeps its canonical form (O60; spec/08, R196; spec/09, R226): what an instruction's end, a trap, the clock, a fetch and the
register members leave of memory.
-/
namespace Sys2Proof
open Machine

section
variable {s : State} (h : Safe s)
include h

/-! ## Machine/Ops -/

theorem Safe.leaveWait {tid} : Safe (s.leaveWait tid) := h
theorem Safe.stopService {tid code} : Safe (s.stopService tid code) := h.modThr.fwFault
theorem Safe.endService {tid code} : Safe (s.endService tid code) := .ite h.modThr h.mxDrain.flushWc.stopService

theorem Safe.trapOf {tid code deferred eval ehb} : Safe (s.trapOf tid code deferred eval ehb) := by
  unfold State.trapOf
  extract_lets s1 t _ t' t' s2
  have h1 : Safe s1 := h.leaveWait
  have h2 : Safe s2 := h1.setThr
  split
  · split
    · exact h2
    · exact h2.traceGang
  · split
    · exact h1.endTask
    · exact h1.endService

theorem Safe.trap {code eval} : Safe (s.trap code eval) := h.trapOf
theorem Safe.trapOut {code eval} : SafeOut (s.trapOut code eval) := h.trap

theorem Safe.takeDeferred {tid} : Safe (s.takeDeferred tid) := by
  unfold State.takeDeferred
  split
  · exact h
  · exact h.modThr.trapOf

theorem Safe.parityAt {tid n} : Safe (s.parityAt tid n) := by
  unfold State.parityAt
  extract_lets reg c s1
  have h1 : Safe s1 := h.logError
  split
  · exact h1.trapOf
  · split
    next e => exact (h1.drawFree.of_eq e).trapOf

theorem Safe.afterDrain {wait k} (hk : ∀ u, Safe u → SafeOut (k u)) : SafeOut (s.afterDrain wait k) := by
  rcases s.afterDrain_cases wait k with e | e | e <;> rw [e]
  · exact hk _ h
  · exact h.mxDrain
  · exact hk _ h.mxDrain

theorem Safe.sleepMe {why addr key value dest} : Safe (s.sleepMe why addr key value dest) := h.modMe

theorem Safe.addPageWait {tid engine sp fw entry page addr va acc stage} :
    Safe (s.addPageWait tid engine sp fw entry page addr va acc stage).1 :=
  h.addWait

theorem Safe.failed {acc f} : Safe (s.failed acc f) := by
  unfold State.failed
  split
  · exact h.trap
  · extract_lets s1
    have h1 : Safe s1 := h.logConsumed.trap
    exact .ite h1.fatal h1
  · split
    · exact h.endTask
    · exact h.trap
  · exact h.accessWake
  · split
    · next e => exact (h.addPageWait.of_eq e).sleepMe
    · next e => exact (h.addPageWait.of_eq e).trap

theorem Safe.load {ask va n} : SafeOk (fun r => Safe r.1) (s.load ask va n) := by
  unfold State.load
  split
  · trivial
  · extract_lets s1
    have h1 : Safe s1 := h.admitAccess.loadEffect
    split
    · trivial
    · exact h1

theorem Safe.store {ask va bs} : SafeOk Safe (s.store ask va bs) := by
  unfold State.store
  split
  · trivial
  · split
    · trivial
    · split
      · trivial
      · exact h.admitAccess.noteWhole.writeSpans (fun _ _ _ hu => hu.hubStore)

theorem Safe.release {os} : Safe (s.release os) := .ite h.flushWc h
theorem Safe.fin {n} : SafeOut (s.fin n) := h.retire
theorem Safe.putX {d w n} : SafeOut (s.putX d w n) := h.setX.fin

theorem Safe.loadX {ask va k f d n} : SafeOut (s.loadX ask va k f d n) := by
  rcases s.loadX_cases ask va k f d n with ⟨u, bs, e, e'⟩ | ⟨f, -, e'⟩ <;> rw [e']
  · exact (h.load.ok e).setX.retire
  · exact h.failed

/-! ## Machine/Clock -/

theorem Safe.pass {n} : Safe (s.pass n) := (safe_mk h).expireWc

/-! ## Machine/Fetch -/

theorem Safe.fetchPart {a n} : SafeOk (fun r => Safe r.1) (s.fetchPart a n) := by
  unfold State.fetchPart
  split
  · trivial
  · split
    · trivial
    · split
      · trivial
      · exact h.admitPages

theorem Safe.keepUnit {u} : Safe (s.keepUnit u) := .ite h h.modMe

theorem Safe.fetchWords {a n} : SafeOk (fun r => Safe r.1) (s.fetchWords a n) := by
  induction n generalizing s a with
  | zero => exact h
  | succ k ih =>
    rw [State.fetchWords]
    split
    · trivial
    · next e1 =>
      split
      · trivial
      · next e2 =>
        have hu := (ih (h.fetchPart.ok e1)).ok e2
        exact hu

theorem Safe.fetch : SafeOk (fun r => Safe r.1) s.fetch := by
  unfold State.fetch
  extract_lets
  split
  · trivial
  · split
    · trivial
    · next e1 =>
      extract_lets
      split
      · trivial
      · next e2 => exact ((h.fetchPart.ok e1).fetchWords.ok e2).keepUnit

/-! ## Machine/Integer -/

theorem Safe.alu {f d a b n} : SafeOut (s.alu f d a b n) := h.putX
theorem Safe.alu1 {f d a} : SafeOut (s.alu1 f d a) := h.putX
theorem Safe.jump {d target n} : SafeOut (s.jump d target n) := h.retire.modMe.setX
theorem Safe.branch {taken off n} : SafeOut (s.branch taken off n) := .ite h.jump h.fin

/-- The definition is unfolded at its name alone: applied, it would have the kernel work out the words at the window's key, in unary. -/
theorem Safe.execLdk {d k} : SafeOut (execLdk d k s) := by
  conv => arg 1; fun; fun; fun; delta Machine.execLdk
  split
  · exact h.failed
  · exact h.putX

theorem Safe.execAddk {d a k} : SafeOut (execAddk d a k s) := by
  conv => arg 1; fun; fun; fun; fun; delta Machine.execAddk
  split
  · exact h.failed
  · exact h.putX

/-! ## Machine/Scalar -/

theorem Safe.fpRound {p rm d x n} : SafeOut (s.fpRound p rm d x n) := h.fpResult.fin
theorem Safe.fpFlat {d code f} : SafeOut (s.fpFlat d code f) := h.modMe.setX.fin

/-! ## Machine/Vector -/

theorem Safe.vint {f ty d a b m} : SafeOut (s.vint f ty d a b m) := h.setV.fin
theorem Safe.execVabs {ty d a m} : SafeOut (execVabs ty d a m s) := by
  unfold Machine.execVabs
  exact h.vint

theorem Safe.vround {w d m f} : SafeOut (s.vround w d m f) := h.modMe.setV.fin
theorem Safe.vflt {ty d m mode f} : SafeOut (s.vflt ty d m mode f) := h.vround
theorem Safe.vpick {max ty d a b m} : SafeOut (s.vpick max ty d a b m) := h.vround
theorem Safe.vcmp {c ty md a b m} : SafeOut (s.vcmp c ty md a b m) := h.modMe.setM.fin
theorem Safe.vmap {ty d m f} : SafeOut (s.vmap ty d m f) := h.setV.fin
theorem Safe.vred {ty xd a m f op} : SafeOut (s.vred ty xd a m f op) := .ite h.putX h.fpResult.fin
theorem Safe.vcvt {dty sty d a m} : SafeOut (s.vcvt dty sty d a m) := h.modMe.setV.fin
theorem Safe.putM {md w} : SafeOut (s.putM md w) := h.setM.fin

end

end Sys2Proof
end

section
/-!
PROOFS. Memory keeps its canonical form (O60; spec/08, R196; spec/09, R226): versions at the home unit, loads and stores of every form,
atomics, and tile loads and stores.
-/
namespace Sys2Proof
open Machine

section
variable {s : State} (h : Safe s)
include h

/-! ## Machine/Versions -/

theorem Safe.setRegion {rk r} : Safe (s.setRegion rk r) := h

theorem Safe.needRecord {rk} : SafeSome Safe (s.needRecord rk) := by
  unfold State.needRecord
  extract_lets
  split
  · exact h
  · split
    · exact h.setRegion
    · cases s.placeEntry (s.recordHome rk) with
      | none => trivial
      | some sp => exact h.setRegion

theorem Safe.setGran {p g} : Safe (s.setGran p g) := h.setRegion

theorem Safe.fetchEntries {p} : Safe (s.fetchEntries p) := by
  unfold State.fetchEntries
  extract_lets _ s1
  have h1 : Safe s1 := .ite h.setRegion h
  exact .ite h1 h1.setGran

theorem Safe.spillQuad {q} : Safe (s.spillQuad q) := h

theorem Safe.verCreate {p v data} : SafeVer (s.verCreate p v data) := by
  unfold State.verCreate
  extract_lets
  split
  · trivial
  · split
    · trivial
    · split
      · trivial
      · split
        · trivial
        · split
          · trivial
          · next e =>
            split
            · trivial
            · exact (h.needRecord.some e).setGran.poke

theorem Safe.verRaise {p f} : SafeVer (s.verRaise p f) := by
  unfold State.verRaise
  extract_lets
  split
  · trivial
  · split
    · exact h
    · split
      · trivial
      · next e => exact (h.needRecord.some e).setRegion

theorem Safe.verEmpty {rk} : Safe (s.verEmpty rk) := .ite h.setRegion h
theorem Safe.setTag {w p} : Safe (s.setTag w p) := .ite h.setRegion h

theorem Safe.verLoadNow {tid p le v vd xv} : SafeSome Safe (s.verLoadNow tid p le v vd xv) := by
  unfold State.verLoadNow
  split
  · exact h.logConsumed.trapOf
  · split
    · trivial
    · exact h.trapOf
    · extract_lets
      split
      · exact h.logConsumed.trapOf
      · exact h.setTag.modThr.healRegs

theorem Safe.settleLoads {at'} : Safe (s.settleLoads at') := by
  unfold State.settleLoads
  refine h.over fun _ _ hu => ?_
  split
  · split
    · split
      · exact hu.trapOf
      · exact hu.verLoadNow.getD hu
    · exact hu
  · exact hu

theorem Safe.settleStore {tid w} : Safe (s.settleStore tid w) := by
  unfold State.settleStore
  extract_lets p floor r
  have hr : SafeVer (if s.tagLost tid p then .cause Cause.access else r) := by
    split
    · trivial
    · exact SafeVer.ite h.verCreate h.verRaise
  split
  · exact h
  · exact (Safe.ite h.logConsumed h).trapOf
  · next e => exact (Safe.ite (hr.done e).setTag.modThr.healRegs (hr.done e).setTag.modThr).settleLoads

theorem Safe.settleStores : Safe s.settleStores := by
  unfold State.settleStores
  refine h.over fun _ _ hu => ?_
  split
  · split
    · split
      · exact hu.parityAt
      · exact hu.settleStore
    · exact hu
  · exact hu

theorem Safe.settleGran {p freed} : Safe (s.settleGran p freed) := by
  unfold State.settleGran
  extract_lets s1
  have h1 : Safe s1 := h.settleLoads
  exact .ite h1.settleStores h1

theorem Safe.fetchGran {p} : Safe (s.fetchGran p) := .ite h.fetchEntries.settleStores h

theorem Safe.versionAt {w acc g} : SafeOk (fun r => Safe r.1) (s.versionAt w acc g) := by
  unfold State.versionAt
  split
  · trivial
  · split
    · split
      · trivial
      · exact h.touchCore
    · split
      · trivial
      · exact h.admitAccess.fetchGran

theorem Safe.verTrap {p c} : SafeOut (s.verTrap p c) := by
  unfold State.verTrap
  extract_lets s1
  have h1 : Safe s1 := .ite h.logConsumed h
  exact h1.trapOut

theorem Safe.verSleep {p why code v dest} : SafeOut (s.verSleep p why code v dest) := .ite h.trapOut h.sleepMe.modMe

theorem Safe.execVerst {v xa xv os} : SafeOut (execVerst v xa xv os s) := by
  unfold Machine.execVerst
  split
  · exact h.failed
  · next e1 =>
    extract_lets s1
    have h1 : Safe s1 := (h.versionAt.ok e1).release
    split
    · next e2 => exact (h1.verCreate.done e2).setTag.retire.settleGran
    · exact h1.verTrap
    · exact h1.verSleep

theorem Safe.verLoad {le v xa xv} : SafeOut (s.verLoad le v xa xv) := by
  unfold State.verLoad
  split
  · exact h.failed
  · next e1 =>
    split
    · next e2 => exact (h.versionAt.ok e1).verLoadNow.some e2
    · exact (h.versionAt.ok e1).verSleep

theorem Safe.execVerprobe {d xa xv} : SafeOut (execVerprobe d xa xv s) := by
  unfold Machine.execVerprobe
  split
  · exact h.failed
  · next e => exact .ite (h.versionAt.ok e).verTrap (h.versionAt.ok e).setTag.putX

theorem Safe.execVerfloor {d xa xf os} : SafeOut (execVerfloor d xa xf os s) := by
  unfold Machine.execVerfloor
  split
  · exact h.failed
  · next e1 =>
    extract_lets s1
    have h1 : Safe s1 := (h.versionAt.ok e1).release
    split
    · next e2 =>
      extract_lets s2
      have h2 : Safe s2 := (h1.verRaise.done e2).setTag.setX.retire
      exact h2.settleLoads.settleStores
    · exact h1.verTrap
    · exact h1.verSleep

theorem Safe.execVerdrop {xa os} : SafeOut (execVerdrop xa os s) := by
  unfold Machine.execVerdrop
  split
  · exact h.failed
  · next e =>
    extract_lets s1
    have h1 : Safe s1 := (h.versionAt.ok e).release
    exact .ite (h.versionAt.ok e).verTrap h1.verEmpty.setTag.retire.settleStores

theorem Safe.dropWork : Safe s.dropWork := .ite h ((safe_mk h).over fun _ _ hu => .ite hu hu.dropTenant).settleStores

theorem Safe.upsetVer {rk gran} : Safe (s.upsetVer rk gran) := by
  unfold State.upsetVer
  extract_lets r hit s1
  have h1 : Safe s1 := by
    unfold s1
    split
    · exact h.setGran
    · exact h.setRegion
  exact .ite h1.settleLoads.settleStores h

/-! ## Machine/Memory -/

theorem Safe.storeOs {os ask va bs n} : SafeOut (s.storeOs os ask va bs n) := by
  unfold State.storeOs
  split
  · exact h.failed
  · next e => exact (h.store.ok e).release.fin

theorem Safe.scalarLoad {a k f d n} : SafeOut (s.scalarLoad a k f d n) := h.loadX
theorem Safe.scalarStore {a k r os n} : SafeOut (s.scalarStore a k r os n) := h.storeOs

theorem Safe.patchStore {a r n} : SafeOut (s.patchStore a r n) := by
  unfold State.patchStore
  extract_lets
  split
  · exact h.failed
  · exact .ite h.storeOs h.trapOut

theorem Safe.vload {v a mr n} : SafeOut (s.vload v a mr n) := by
  unfold State.vload
  extract_lets
  split
  · exact h.fin
  · split
    · exact h.failed
    · extract_lets s1
      have h1 : Safe s1 := h.admitAccess.loadEffect
      split
      · exact h.failed
      · exact h1.setV.fin

theorem Safe.vstore {v a mr n} : SafeOut (s.vstore v a mr n) := by
  unfold State.vstore
  extract_lets
  split
  · exact h.fin
  · split
    · exact h.failed
    · split
      · exact h.trapOut
      · split
        · exact h.failed
        · exact (h.admitAccess.noteWhole.writeSpans (fun _ _ _ hu => hu.hubStore)).fin

theorem Safe.vloadb {es v a mr n} : SafeOut (s.vloadb es v a mr n) := by
  unfold State.vloadb
  extract_lets
  split
  · exact h.fin
  · split
    · exact h.failed
    · next e => exact (h.load.ok e).setV.fin

theorem Safe.readElements {a} : Safe (s.readElements a).1 := by
  induction a generalizing s with
  | nil => exact h
  | cons a r ih =>
    rw [State.readElements]
    split
    next e =>
      have hu := (ih h.admitAccess.loadEffect).of_eq e
      exact hu

theorem Safe.vgather {es v vi a mr} : SafeOut (s.vgather es v vi a mr) := by
  unfold State.vgather
  extract_lets
  split
  · exact h.failed
  · split
    next e => exact (h.readElements.of_eq e).setV.fin

theorem Safe.vscatter {es v vi a mr} : SafeOut (s.vscatter es v vi a mr) := by
  unfold State.vscatter
  extract_lets
  split
  · exact h.failed
  · exact (h.over fun _ _ hu => hu.admitAccess.noteWhole.writeSpans (fun _ _ _ hv => hv.hubStore)).fin

theorem Safe.traceFree {c kind core payload} : Safe (s.traceFree c kind core payload) := by
  unfold State.traceFree
  split
  next e1 =>
    split
    next e2 => exact ((h.drawFree.of_eq e1).drawFree.of_eq e2).trace

theorem Safe.rudimentRecord {c slice l} : Safe (s.rudimentRecord c slice l) := h.traceFree

theorem Safe.rudimentLog {c slice tag req} : Safe (s.rudimentLog c slice tag req) := by
  unfold State.rudimentLog
  split
  · exact h
  · extract_lets runs mine rest s1
    have h1 : Safe s1 := h
    exact .ite h h1.rudimentRecord

theorem Safe.rudiment {tid va spans} : Safe (s.rudiment tid va spans) := by
  unfold State.rudiment
  split
  · split
    · exact .ite (.ite h h) (.ite h.rudimentLog h)
    · exact h
  · exact h

theorem Safe.endReplay {c gid} : Safe (s.endReplay c gid) := by
  unfold State.endReplay
  split
  · exact h
  · extract_lets s1 s2
    have h1 : Safe s1 := h
    have h2 : Safe s2 := by
      refine h1.over fun _ _ hu => ?_
      split
      · exact .ite hu.modThr hu
      · exact hu
    split
    next e => exact (h2.drawFree.of_eq e).traceNext

theorem Safe.atomic {os a n f fl ext d} : SafeOut (s.atomic os a n f fl ext d) := by
  unfold State.atomic
  split
  · exact h.failed
  · extract_lets s1 old s2 s3 s4
    have h1 : Safe s1 := h.admitAccess.loadEffect
    have h2 : Safe s2 := by
      unfold s2
      split
      · exact h1.writeSpans fun _ _ _ hu => hu.hubStore
      · exact h1
    have h3 : Safe s3 := h2.rudiment.release
    have h4 : Safe s4 := .ite h3 h3.modMe
    split
    · split
      · split
        · exact h.sleepMe.endReplay
        · exact h
      · exact h.sleepMe
    · split
      · exact h.failed
      · exact h4.putX

theorem Safe.amo {f d a b dbl os} : SafeOut (s.amo f d a b dbl os) := by
  delta State.amo
  exact h.atomic

theorem Safe.fence {sc k p1 p2} : SafeOut (s.fence sc k p1 p2) := .ite h (h.afterDrain fun _ hu => (Safe.ite hu.flushWc hu).fin)

theorem Safe.execAmoswap {d a b dbl os} : SafeOut (execAmoswap d a b dbl os s) := by
  unfold Machine.execAmoswap
  exact h.amo

theorem Safe.execAmocas {d a b dbl os} : SafeOut (execAmocas d a b dbl os s) := by
  unfold Machine.execAmocas
  extract_lets n cmp src
  exact h.atomic

theorem Safe.execAmofadd {d a b dbl os} : SafeOut (execAmofadd d a b dbl os s) := by
  unfold Machine.execAmofadd
  extract_lets src
  exact h.atomic

/-- Unfolded at its name alone, as `Safe.execLdk`. -/
theorem Safe.execAbump {d a b os} : SafeOut (execAbump d a b os s) := by
  conv => arg 1; fun; fun; fun; fun; fun; delta Machine.execAbump
  split
  · exact h.atomic
  · exact h.failed
  · exact h.failed

/-! ## Machine/Tiles -/

theorem Safe.drainFor {p a} : Safe (s.drainFor p a) := by
  induction a generalizing s with
  | zero => exact h
  | succ k ih => exact .ite (ih h.mxStep) h

theorem Safe.afterQueue {p k} (hk : ∀ u, Safe u → SafeOut (k u)) : SafeOut (s.afterQueue p k) := by
  unfold State.afterQueue
  extract_lets s1
  have h1 : Safe s1 := h.drainFor
  exact .ite (.ite h1 (hk _ h1)) (hk _ h)

theorem Safe.enqueueOp {op draws} : SafeOut (s.enqueueOp op draws) := by
  unfold State.enqueueOp
  extract_lets s1
  have h1 : Safe s1 := h.mxStep
  exact .ite h.enqueue.fin (.ite h1 h1.enqueue.fin)

theorem Safe.tdescBad : SafeOut s.tdescBad := h.trapOut
theorem Safe.withDesc {ok k} (hk : SafeOut k) : SafeOut (s.withDesc ok k) := .ite hk h.tdescBad

theorem Safe.readPieces {a} : Safe (s.readPieces a).1 := by
  induction a generalizing s with
  | nil => exact h
  | cons a r ih =>
    rw [State.readPieces]
    split
    next e =>
      have hu := (ih h.admitAccess.loadEffect).of_eq e
      exact hu

theorem Safe.tileLoad {xa xs n size put} (hput : ∀ u j, Safe u → Safe (put u j)) : SafeOut (s.tileLoad xa xs n size put) := by
  unfold State.tileLoad
  split
  · exact h.failed
  · split
    next e => exact (hput _ _ (h.readPieces.of_eq e)).fin

theorem Safe.tileStore {xa xs n size src} : SafeOut (s.tileStore xa xs n size src) := by
  unfold State.tileStore
  split
  · exact h.failed
  · split
    · exact h.failed
    · exact (h.over fun _ _ hu => hu.admitAccess.noteWhole.writeSpans (fun _ _ _ hv => hv.hubStore)).fin

theorem Safe.putTile {c t rows} : Safe (s.putTile c t rows) := h.poke
theorem Safe.putScales {c t rows} : Safe (s.putScales c t rows) := h.poke

theorem Safe.execTload {t xa xs} : SafeOut (execTload t xa xs s) :=
  h.withDesc (h.afterQueue fun _ hu => hu.tileLoad fun _ _ hv => hv.putTile)

theorem Safe.execTloadt {t xa xs} : SafeOut (execTloadt t xa xs s) :=
  h.withDesc (h.afterQueue fun _ hu => hu.tileLoad fun _ _ hv => hv.putTile)

theorem Safe.execTloads {t xa xs} : SafeOut (execTloads t xa xs s) :=
  h.withDesc (h.afterQueue fun _ hu => hu.tileLoad fun _ _ hv => hv.putScales)

theorem Safe.execTstore {t xa xs} : SafeOut (execTstore t xa xs s) := h.withDesc (h.afterQueue fun _ hu => hu.tileStore)
theorem Safe.execTaccld {acc xa xs} : SafeOut (execTaccld acc xa xs s) := h.afterQueue fun _ hu => hu.tileLoad fun _ _ hv => hv.poke
theorem Safe.execTaccst {acc xa xs} : SafeOut (execTaccst acc xa xs s) := h.afterQueue fun _ hu => hu.tileStore
theorem Safe.execTmma {acc ta tb} : SafeOut (execTmma acc ta tb s) := h.withDesc h.enqueueOp
theorem Safe.execTaccout {td acc ta tb cb} : SafeOut (execTaccout td acc ta tb cb s) := h.withDesc h.enqueueOp
theorem Safe.execTaccadd {accd accs} : SafeOut (execTaccadd accd accs s) := h.withDesc h.enqueueOp
theorem Safe.execTxch {tp ta h'} : SafeOut (execTxch tp ta h' s) := .ite h.enqueueOp h.trapOut
theorem Safe.execTcvt {td ta} : SafeOut (execTcvt td ta s) := h.withDesc h.enqueueOp

end

end Sys2Proof
end

section
/-!
PROOFS. Memory keeps its canonical form (O60; spec/08, R196; spec/09, R226): the copy engines, messages and collectives.
-/
namespace Sys2Proof
open Machine

section
variable {s : State} (h : Safe s)
include h

/-! ## Machine/Engines -/

theorem Safe.setCopy {core slot c} : Safe (s.setCopy core slot c) := h.modCore
theorem Safe.dropCopy {core slot} : Safe (s.dropCopy core slot) := h.modCore
theorem Safe.dropEngineWaits {core slot} : Safe (s.dropEngineWaits core slot) := h

theorem Safe.engineFailed {who acc f} : SafeEngine (s.engineFailed who acc f) := by
  unfold State.engineFailed
  split
  · exact h
  · exact h.logConsumed
  · exact h
  · exact h.accessWake
  · split
    · split <;> exact h
    · split
      · next e => exact h.addPageWait.of_eq e
      · next e => exact h.addPageWait.of_eq e

theorem Safe.engineRead {who va n} : SafeOk (fun r => Safe r.1) (s.engineRead who va n) := by
  unfold State.engineRead
  split
  · trivial
  · extract_lets s1
    have h1 : Safe s1 := h.admitAccess.loadEffect
    split
    · trivial
    · exact h1

theorem Safe.engineWrite {who va bs} : SafeOk Safe (s.engineWrite who va bs) := by
  unfold State.engineWrite
  split
  · trivial
  · exact h.admitAccess.noteWhole.writeSpans (fun _ _ _ hu => hu)

theorem Safe.copySrc {who c o} : SafeOk (fun r => Safe r.1) (s.copySrc who c o) := by
  unfold State.copySrc
  extract_lets
  split
  · exact h
  · split
    · split
      · trivial
      · next e => exact h.engineRead.ok e
    · exact h

theorem Safe.copyData {who c o n} : SafeOk (fun r => Safe r.1) (s.copyData who c o n) := by
  unfold State.copyData
  split
  · exact h
  · split
    · trivial
    · next e1 =>
      split
      · trivial
      · next e2 => exact (h.copySrc.ok e1).engineRead.ok e2

theorem Safe.copyVersion {who c d bs} : SafeOk Safe (s.copyVersion who c d bs) := by
  unfold State.copyVersion
  split
  · trivial
  · next e1 =>
    split
    · trivial
    · split
      · trivial
      · trivial
      · next e2 => exact ((h.versionAt.ok e1).verCreate.done e2).setTag.settleGran

theorem Safe.copyGranule {who c o} : SafeOk Safe (s.copyGranule who c o) := by
  unfold State.copyGranule
  extract_lets
  split
  · trivial
  · split
    · trivial
    · next e1 =>
      split
      · exact (h.copyData.ok e1).copyVersion
      · split
        · trivial
        · next e2 => exact (h.copyData.ok e1).engineWrite.ok e2

theorem Safe.copyBack {core slot c code cause whr resume eval} : Safe (s.copyBack core slot c code cause whr resume eval) :=
  h.dropCopy.dropEngineWaits.handBack

theorem Safe.copyFailed {core slot c o whr acc f} : Safe (s.copyFailed core slot c o whr acc f) := by
  unfold State.copyFailed
  split
  · next e => exact h.engineFailed.later e
  · next e =>
    split
    · exact (h.engineFailed.lease e).endTask
    · exact (h.engineFailed.lease e).copyBack
  · next e => exact .ite (h.engineFailed.back e).copyBack h

theorem Safe.copyFinish {core slot c} : Safe (s.copyFinish core slot c) := by
  unfold State.copyFinish
  split
  · split
    · exact h.copyFailed
    · next e => exact (h.engineWrite.ok e).dropCopy.dropEngineWaits
  · exact h.dropCopy.dropEngineWaits

theorem Safe.copyAdvance {core slot c} : Safe (s.copyAdvance core slot c) := .ite h.setCopy.copyFinish h.setCopy
theorem Safe.copyServed {core slot} : Safe (s.copyServed core slot) := h

theorem Safe.copyServe {core slot o c} : Safe (s.copyServe core slot o c) := by
  unfold State.copyServe
  split
  · exact h.copyServed.copyFinish
  · split
    · next e => exact (h.copyGranule.ok e).copyServed.copyAdvance
    · exact h.copyServed.setCopy
    · exact h.copyServed.copyFailed

theorem Safe.copyTurn {core slot o} : Safe (s.copyTurn core slot o) := by
  unfold State.copyTurn
  split
  · exact h
  · exact .ite h h.copyServe

theorem Safe.copyVerExpired {core slot o} : Safe (s.copyVerExpired core slot o) := by
  unfold State.copyVerExpired
  split
  · exact h
  · split
    · exact h
    · split
      · split
        · exact h.copyBack
        · exact h.copyTurn
      · exact h

theorem Safe.submitCopy {c n s0} (h0 : Safe s0) : SafeOut (s.submitCopy c n s0) := by
  unfold State.submitCopy
  split
  · exact h.trapOut
  · split
    · exact h0
    · exact Safe.ite h.setCopy.retire.copyFinish h.setCopy.retire

theorem Safe.copyOp {fn xd xs xn ver xc v n} : SafeOut (s.copyOp fn xd xs xn ver xc v n) := by
  unfold State.copyOp
  extract_lets
  split
  · split
    · exact h.trapOut
    · split
      · exact h.failed
      · next e => exact (h.load.ok e).submitCopy h
  · exact h.submitCopy h

theorem Safe.append {d v c} : SafeOut (s.append d v c) := by
  unfold State.append
  extract_lets k data s1 key s2
  have h1 : Safe s1 := h.touchCore
  have h2 : Safe s2 := h1.raiseBound.noteKey.poke.modCore
  exact .ite h1.putX h2.putX

theorem Safe.fillPort {p} : Safe (s.fillPort p) := h
theorem Safe.sendFlit {p typ vc tenant count content} : Safe (s.sendFlit p typ vc tenant count content) := (safe_mk h).fillPort

theorem Safe.sendAcross {d v t} : SafeOut (s.sendAcross d v t) := by
  unfold State.sendAcross
  split
  · exact h.trapOut
  · exact h.trapOut
  · split
    next e1 =>
      split
      next e2 =>
        have hu := (h.drawFree.of_eq e1).drawFree.of_eq e2
        exact .ite hu.trapOut (.ite hu.trapOut hu.sendFlit.putX)

theorem Safe.msend {d v xt} : SafeOut (s.msend d v xt) := .ite h.trapOut (.ite h.sendAcross (.ite h.trapOut (.ite h.trapOut h.append)))

/-- `badIn` is put behind an equation: the kernel would work out its words, in unary, at the concrete length. -/
theorem Safe.mrecv {d v} : SafeOut (s.mrecv d v) := by
  obtain ⟨bad, hb⟩ : ∃ f, f = badIn := ⟨_, rfl⟩
  unfold State.mrecv
  rw [← hb]
  extract_lets c k key data s1
  have h1 : Safe s1 := h.modCore
  split
  · exact h.putX
  · split
    · exact h.failed
    · exact h1.setV.putX

theorem Safe.collective {fn op fmt br xd xs xn xc xr} : SafeOut (s.collective fn op fmt br xd xs xn xc xr) :=
  .ite h.trapOut (.ite h.trapOut (.ite h.drawFree.trapOut h.modCore.fin))

theorem Safe.dropColl {p} : Safe (s.dropColl p) := h.modCore.dropEngineWaits

theorem Safe.collBack {ps at_ code cause whr eval} : Safe (s.collBack ps at_ code cause whr eval) := by
  unfold State.collBack
  refine h.over fun _ _ hu => ?_
  extract_lets s1
  have h1 : Safe s1 := hu.dropColl
  split
  · exact h1.handBack
  · split
    next e => exact (h1.drawFree.of_eq e).handBack

theorem Safe.collFailed {ps p whr acc f} : Safe (s.collFailed ps p whr acc f) := by
  unfold State.collFailed
  split
  · next e => exact h.engineFailed.later e
  · next e =>
    split
    · exact (h.engineFailed.lease e).endTask
    · exact h.engineFailed.lease e
  · next e => exact (h.engineFailed.back e).collBack

theorem Safe.collRead {a} : SafeOk (fun r => Safe r.1) (s.collRead a) := by
  induction a generalizing s with
  | nil => exact h
  | cons p r ih =>
    rw [State.collRead]
    split
    · trivial
    · next e1 =>
      split
      · trivial
      · next e2 =>
        have hu := (ih (h.engineRead.ok e1)).ok e2
        exact hu

theorem Safe.collWrite {all} : Safe (s.collWrite all) := by
  unfold State.collWrite
  refine h.over fun _ _ hu => ?_
  split
  · next e => exact hu.engineWrite.ok e
  · exact hu

theorem Safe.collRun {ps peer width c0} : Safe (s.collRun ps peer width c0) := by
  unfold State.collRun
  split
  · exact h.collFailed
  · next e =>
    extract_lets leaves all s1
    have h1 : Safe s1 := (h.collRead.ok e).collWrite.collWrite
    split
    · exact (h.collRead.ok e).collFailed
    · exact h1.over fun _ _ hu => hu.dropColl

theorem Safe.collTurn {gid peer} : Safe (s.collTurn gid peer) := by
  unfold State.collTurn
  split
  · exact h
  · split
    · exact h
    · dsimp only
      split
      · exact h
      · split
        · exact h
        · split
          · exact h.drawFree.collBack
          · split
            · exact h.drawFree.collBack
            · exact h.collRun

end

end Sys2Proof
end

section
/-!
PROOFS. Memory keeps its canonical form (O60; spec/08, R196; spec/09, R226): barriers, Clave, the stack link, STRIKE and MIGR.
-/
namespace Sys2Proof
open Machine

section
variable {s : State} (h : Safe s)
include h

/-! ## Machine/Sync -/

theorem Safe.traceStop {g reason pc} : Safe (s.traceStop g reason pc) := by
  unfold State.traceStop
  split
  · split
    next e => exact (h.drawFree.of_eq e).traceGang
  · exact h

theorem Safe.firstPc {g} : Safe (s.firstPc g).2 := by
  unfold State.firstPc
  split
  · exact h
  · exact h.drawFree

theorem Safe.eventBytes {g} : Safe (s.eventBytes g).2 := by
  unfold State.eventBytes
  split
  · exact h
  · split
    next e1 =>
      split
      next e2 => exact (h.drawFree.of_eq e1).drawFree.of_eq e2

theorem Safe.traceFiring {g a} : Safe (s.traceFiring g a) := by
  unfold State.traceFiring
  extract_lets s1
  have h1 : Safe s1 := by
    unfold s1
    split
    · split
      next e1 => exact (h.drawFree.of_eq e1).traceGang
    · exact h
  split
  · split
    next e1 =>
      split
      next e2 => exact ((h1.drawFree.of_eq e1).eventBytes.of_eq e2).traceGang
  · exact h1

theorem Safe.setBarrier {g c h' b} : Safe (s.setBarrier g c h' b) := .ite h h.modTask

theorem Safe.debugPark {g} : Safe (s.debugPark g) := by
  unfold State.debugPark
  extract_lets s1
  have h1 : Safe s1 := h.over fun _ _ hu => hu.leaveWait.modThr
  split
  next e => exact (h1.firstPc.of_eq e).modTask.traceStop

theorem Safe.slackRecord {g t b} : Safe (s.slackRecord g t b) := by
  unfold State.slackRecord
  split
  · extract_lets n k s1
    have h1 : Safe s1 := safe_mk h
    split
    · exact h1.sendFlit
    · exact h1
  · exact h

theorem Safe.superstep {g} : Safe (s.superstep g) := by
  unfold State.superstep
  split
  · exact h
  · exact h.modTask.slackRecord.traceFiring

theorem Safe.fire {g c h'} : Safe (s.fire g c h') := by
  unfold State.fire
  extract_lets s1
  have h1 : Safe s1 := .ite h.superstep h
  exact h1.setBarrier.over fun _ _ hu => hu.modThr

theorem Safe.afterFire {g h'} : Safe (s.afterFire g h') := by
  unfold State.afterFire
  split
  · exact .ite h.debugPark h
  · exact h

theorem Safe.arrive {g h'} : SafeSome (fun r => Safe r.1) (s.arrive g h') := by
  unfold State.arrive
  extract_lets c b ev s1 s2
  have h1 : Safe s1 := .ite h.modTask h
  have h2 : Safe s2 := h1.modMe
  split
  · trivial
  · split
    · exact h2.fire
    · exact h2.setBarrier

theorem Safe.sleepBarrier {g h'} : Safe (s.sleepBarrier g h') := by
  unfold State.sleepBarrier
  extract_lets c others s1
  have h1 : Safe s1 := .ite h h.setBarrier
  exact h1.modMe.sleepMe

theorem Safe.barwAgain {g h'} : SafeOut (s.barwAgain g h') := .ite h.trapOut (.ite h.modMe h.sleepBarrier)
theorem Safe.meet {k} (hk : ∀ u, Safe u → SafeOut (k u)) : SafeOut (s.meet k) := h.afterDrain fun _ hu => hk _ hu.flushWc

theorem Safe.barwArrive {g h'} : SafeOut (s.barwArrive g h') := by
  unfold State.barwArrive
  split
  · exact h.trapOut
  · next e => exact (h.arrive.some e).retire.afterFire
  · next e => exact (h.arrive.some e).sleepBarrier

theorem Safe.withHandle {h' k} (hk : ∀ g, SafeOut (k g)) : SafeOut (s.withHandle h' k) := by
  unfold State.withHandle
  split
  · exact h.trapOut
  · exact .ite (hk _) h.trapOut

theorem Safe.barw {h' ss} : SafeOut (s.barw h' ss) :=
  h.withHandle fun _ => .ite h.barwAgain <| .ite h.sleepMe <| h.meet fun _ hu => hu.barwArrive

theorem Safe.barStall {tid} : Safe (s.barStall tid) := by
  unfold State.barStall
  split
  · exact h
  · extract_lets
    split
    · exact h
    · exact .ite (h.setBarrier.over fun _ _ hu => .ite hu.trapOf hu) h

theorem Safe.waita {d v a} : SafeOut (s.waita d v a) := by
  unfold State.waita
  extract_lets
  split
  · exact h.failed
  · split
    · exact h.failed
    · next e => exact .ite (h.load.ok e).putX (.ite (h.load.ok e).trapOut (h.load.ok e).sleepMe.modMe)

theorem Safe.monitor {tid} : Safe (s.monitor tid) := by
  unfold State.monitor
  split
  · exact .ite h.modThr.healRegs h
  · exact h

theorem Safe.claveMatch {group} : Safe (s.claveMatch group) := by
  unfold State.claveMatch
  extract_lets sorted s1
  have h1 : Safe s1 := h
  exact h1.over fun _ _ hu => hu.modThr.healRegs

theorem Safe.clave {kind k key payload dest} : SafeOut (s.clave kind k key payload dest) :=
  .ite (.ite h.trapOut h) (h.meet fun _ hu => .ite hu.trapOut (.ite (safe_mk hu).claveMatch (safe_mk hu).sleepMe))

theorem Safe.claveExpire {tid} : Safe (s.claveExpire tid) := by
  unfold State.claveExpire
  split
  · exact .ite h.trapOf h
  · exact h

theorem Safe.modLink {c f} : Safe (s.modLink c f) := h.modCore

theorem Safe.withLink {k} (hk : ∀ p, SafeOut (k p)) : SafeOut (s.withLink k) := by
  unfold State.withLink
  extract_lets
  split
  · exact h.trapOut
  · exact .ite h.trapOut (.ite h.trapOut (hk _))

theorem Safe.slPushNow {tid vs} : Safe (s.slPushNow tid vs) := by
  unfold State.slPushNow
  extract_lets c v s1
  have h1 : Safe s1 := h.modLink
  exact h1.modLink.modThr

theorem Safe.slPopNow {tid vd} : Safe (s.slPopNow tid vd) := by
  unfold State.slPopNow
  extract_lets
  split
  · exact h
  · extract_lets s1
    have h1 : Safe s1 := h.modLink
    exact h1.modLink.modThr.healRegs

theorem Safe.slEntry {c} : Safe (s.slEntry c) := by
  unfold State.slEntry
  split
  · exact h
  · extract_lets s1
    have h1 : Safe s1 := h.modLink
    split
    · exact h1.slPopNow
    · exact h1

theorem Safe.slPushNext {c a} : Safe (s.slPushNext c a) := by
  induction a generalizing s c with
  | zero => exact h
  | succ k ih =>
    rw [State.slPushNext]
    split
    · exact h
    · split
      · exact ih h.parityAt
      · exact h.slPushNow

theorem Safe.slCredit {c} : Safe (s.slCredit c) := .ite h h.modLink.slPushNext
theorem Safe.slExpire {tid} : Safe (s.slExpire tid) := .ite h.trapOf h
theorem Safe.unlink {g c} : Safe (s.unlink g c) := h.over fun _ _ hu => .ite hu.trapOf hu

theorem Safe.linkDown {c} : Safe (s.linkDown c) := by
  unfold State.linkDown
  extract_lets s1
  have h1 : Safe s1 := h.modLink
  exact h1.over fun _ _ hu => .ite hu.trapOf hu

theorem Safe.strikePost {d score} : SafeOut (s.strikePost d score) := by
  unfold State.strikePost
  extract_lets tenant k mask
  refine .ite h.putX ?_
  split
  extract_lets r s1 packed
  have h1 : Safe s1 := safe_mk h
  exact .ite h1.wakeRequest.putX h1.putX

theorem Safe.strike {d a} : SafeOut (s.strike d a) := .ite (.ite h.modMe (h.meet fun _ hu => hu.strikePost)) h.putX

theorem Safe.migrCommit {g m} : Safe (s.migrCommit g m) := by
  unfold State.migrCommit
  extract_lets ev s1 s2 tid base s3
  have h1 : Safe s1 := h.flushWc.modTask
  have h2 : Safe s2 := h1.modMe.fire
  have h3 : Safe s3 := h2.traceStop
  exact h3.modTask.freeSlot

theorem Safe.readContext {c} : SafeOk (fun r => Safe r.1) (s.readContext c) := by
  unfold State.readContext
  split
  · trivial
  · next e1 =>
    extract_lets
    split
    · exact h.load.ok e1
    · split
      · trivial
      · next e2 => exact (h.load.ok e1).load.ok e2

theorem Safe.migrGo {g m} : SafeOut (s.migrGo g m) := .ite h.sleepMe.modMe (h.afterDrain fun _ hu => hu.migrCommit)

theorem Safe.migrCheck {g t c r kv isl w} : SafeOut (s.migrCheck g t c r kv isl w) := by
  unfold State.migrCheck
  split
  · exact h.trapOut
  · split
    · exact h.trapOut
    · split
      · exact h.trapOut
      · split
        · exact h.trapOut
        · exact h.migrGo

/-- `contextWaits` is put behind an equation, as `badIn` is for `Safe.mrecv`. -/
theorem Safe.migrRead {g xc isl w} : SafeOut (s.migrRead g xc isl w) := by
  obtain ⟨waits, hwaits⟩ : ∃ f, f = State.contextWaits := ⟨_, rfl⟩
  unfold State.migrRead
  rw [← hwaits]
  split
  · exact h.trapOut
  · refine .ite h.trapOut ?_
    split
    · exact h.failed
    · next e =>
      have hu := h.readContext.ok e
      split
      · exact hu.failed
      · exact hu.migrCheck

theorem Safe.migr {xc isl w} : SafeOut (s.migr xc isl w) := by
  unfold State.migr
  split
  · exact h.trapOut
  · split
    · exact h.migrGo
    · exact h.migrRead

theorem Safe.execBara {b} : SafeOut (execBara b s) := h.withHandle fun _ => h.meet fun _ hu => by
  split
  · exact hu.trapOut
  · next e => exact Safe.ite (hu.arrive.some e).retire.afterFire (hu.arrive.some e).retire

theorem Safe.execBarq {d b} : SafeOut (execBarq d b s) := h.withHandle fun _ => h.putX
theorem Safe.execSlpush {v} : SafeOut (execSlpush v s) := h.withLink fun _ => .ite h.slPushNow (.ite h.trapOut h.sleepMe)
theorem Safe.execSlpop {v} : SafeOut (execSlpop v s) := h.withLink fun _ => .ite h.slPopNow (.ite h.trapOut h.sleepMe)
theorem Safe.execSlfree {d} : SafeOut (execSlfree d s) := h.withLink fun _ => h.putX

theorem Safe.execSlpeek {d v} : SafeOut (execSlpeek d v s) := h.withLink fun _ => by
  split
  · exact h.putX
  · exact h.setV.putX

end

end Sys2Proof
end

section
/-!
PROOFS. Memory keeps its canonical form (O60; spec/08, R196; spec/09, R226): the system members, the waits of threads, and firmware's work
over a tenant's addresses.
-/
namespace Sys2Proof
open Machine

section
variable {s : State} (h : Safe s)
include h

/-! ## Machine/System -/

theorem Safe.discardTeam {c} : Safe (s.discardTeam c) :=
  h.clear.clear.clear.modCore

theorem Safe.threadDone {tid g} : Safe (s.threadDone tid g) := by
  unfold State.threadDone
  extract_lets c s1 s2 s3 b s4 s5
  have h1 : Safe s1 := h.modThr.freeSlot
  have h2 : Safe s2 := h1.modTask
  have h3 : Safe s3 := .ite h2.freeCore.discardTeam.modTask h2
  have h4 : Safe s4 := .ite h3.fire.afterFire h3
  have h5 : Safe s5 := .ite h4.unlink h4
  exact .ite h5.endTask h5

theorem Safe.done : SafeOut s.done := by
  refine .ite h.sleepMe (h.afterDrain fun u hu => ?_)
  extract_lets s1
  have h1 : Safe s1 := hu.flushWc
  refine .ite h1.takeDeferred ?_
  split
  · exact h1.threadDone
  · exact h1.retire.freeSlot

theorem Safe.haltService : SafeOut s.haltService := .ite h.sleepMe (h.afterDrain fun _ hu => hu.flushWc.retire.stopService)

theorem Safe.halt : SafeOut s.halt := by
  unfold State.halt
  split
  · exact h.endTask
  · exact h.haltService

theorem Safe.privileged {k} (hk : SafeOut k) : SafeOut (s.privileged k) := .ite hk h.trapOut
theorem Safe.eret : SafeOut s.eret := .ite h.modMe h.trapOut
theorem Safe.tlbinv {a sel} : SafeOut (s.tlbinv a sel) := .ite h.trapOut (.ite h.trapOut h.invalidate.fin)

theorem Safe.mark {d a b} : SafeOut (s.mark d a b) := by
  unfold State.mark
  split
  · exact .ite h.traceGang.putX h.putX
  · exact h.putX

theorem Safe.execBrk : SafeOut (execBrk s) := by
  unfold Machine.execBrk
  split
  · split
    · exact h.modTask.barw
    · exact h.barw
  · exact h.trapOut

theorem Safe.execEret : SafeOut (execEret s) := h.privileged h.eret
theorem Safe.execHalt : SafeOut (execHalt s) := h.privileged h.halt
theorem Safe.execTlbinv {xa xs} : SafeOut (execTlbinv xa xs s) := h.privileged (.ite h.tlbinv h.trapOut)

/-! ## Machine/Waits -/

theorem Safe.validatePage {w} : Safe (s.validatePage w) := .ite (safe_mk (Memory.wf_put h _ _)) h

theorem Safe.restartPage {w} : Safe (s.restartPage w) := by
  unfold State.restartPage
  extract_lets s1
  have h1 : Safe s1 := h.wakePage
  exact .ite (safe_mk h1) h

theorem Safe.pageExpired {w} : Safe (s.pageExpired w) := by
  unfold State.pageExpired
  split
  · exact h
  · split
    · exact h.trapOf
    · exact h

theorem Safe.onPageWait {i f} (hf : ∀ u j, Safe u → Safe (f u j)) : Safe (s.onPageWait i f) := by
  unfold State.onPageWait
  split
  · exact hf _ _ h
  · exact h

theorem Safe.expire {tid why limit code} : Safe (s.expire tid why limit code) := by
  unfold State.expire
  extract_lets
  split
  · exact .ite h.trapOf h
  · exact h

theorem Safe.verExpire {tid why code} : Safe (s.verExpire tid why code) := h.expire
theorem Safe.pauseEnd {tid} : Safe (s.pauseEnd tid) := .ite h h.pass.modThr
theorem Safe.replayRelease {tid} : Safe (s.replayRelease tid) := .ite h.modThr h

theorem Safe.replayExpire {tid} : Safe (s.replayExpire tid) := by
  unfold State.replayExpire
  split
  · split
    · exact h.endReplay
    · exact h
  · exact h

theorem Safe.mqTurn {core p} : Safe (s.mqTurn core p) := by
  unfold State.mqTurn
  split
  · exact .ite h.mxStep h
  · exact h

theorem Safe.execEvDeferredTrapTake {tid} : SafeOut (execEvDeferredTrapTake tid s) := Safe.ite h.takeDeferred h
theorem Safe.execEvFirmwarePageValidate {i} : SafeOut (execEvFirmwarePageValidate i s) := h.onPageWait fun _ _ hu => hu.validatePage
theorem Safe.execEvServicedFaultRestart {i} : SafeOut (execEvServicedFaultRestart i s) := h.onPageWait fun _ _ hu => hu.restartPage
theorem Safe.execEvFileFaultWaitLimit {i} : SafeOut (execEvFileFaultWaitLimit i s) := h.onPageWait fun _ _ hu => hu.pageExpired

/-! ## Machine/Firmware -/

theorem Safe.pageIn {q pasid va a} : SafeOk Safe (s.pageIn q pasid va a) := by
  induction a generalizing s with
  | zero => trivial
  | succ k ih =>
    rw [State.pageIn]
    split
    · exact h
    · split
      · exact h
      · trivial
    · split
      · next e => exact ih (h.fwResolve.some e)
      · trivial

theorem Safe.pagesIn {q pasid a} : SafeOk Safe (s.pagesIn q pasid a) := by
  induction a generalizing s with
  | nil => exact h
  | cons a r ih =>
    rw [State.pagesIn]
    split
    · next e => exact ih (h.pageIn.ok e)
    · trivial

theorem Safe.fwKey {q pasid acc va n a} : SafeOk (fun r => Safe r.1) (s.fwKey q pasid acc va n a) := by
  induction a generalizing s with
  | zero => trivial
  | succ k ih =>
    rw [State.fwKey]
    split
    · exact h.admitAccess
    · split
      · next e => exact ih (h.fwResolve.some e)
      · trivial

theorem Safe.fwTry {r} (hr : SafeOk Safe r) : SafeRun (fwTry s r) := by
  unfold Machine.fwTry
  split
  · exact hr
  · exact h

theorem Safe.fwParts {q pasid acc f a b} (hf : ∀ u k o n, Safe u → SafeOk Safe (f u k o n)) :
    SafeRun (s.fwParts q pasid acc f a b) := by
  induction a generalizing s b with
  | nil => exact h
  | cons p l ih =>
    rw [State.fwParts]
    split
    · exact h
    · next e =>
      have hk := h.fwKey.ok e
      split
      · exact hk
      · next ef => exact ih ((hf _ _ _ _ hk).ok ef)

theorem Safe.fwZero {q pasid va n} : SafeRun (s.fwZero q pasid va n) := h.fwParts fun _ _ _ _ hu => hu.clear

theorem Safe.fwOut {keep q pasid src va n} : SafeRun (s.fwOut keep q pasid src va n) := h.fwParts fun u k o n hu => by
  split
  · trivial
  · exact hu.moveMem

theorem Safe.fwIn {q pasid va dst n} : SafeRun (s.fwIn q pasid va dst n) := h.fwParts (fun _ _ _ _ hu => hu.moveMem)

end

end Sys2Proof
end

section
/-!
PROOFS. Memory keeps its canonical form (O60; spec/08, R196; spec/09, R226): binding, gang stops, the slot table's commands, power gates
and the Ladle.
-/
namespace Sys2Proof
open Machine

section
variable {s : State} (h : Safe s)
include h

/-! ## Machine/Binding -/

theorem Safe.zeroCore {c} : Safe (s.zeroCore c) := by
  unfold State.zeroCore
  extract_lets good s1 s2 s3
  have h1 : Safe s1 := h.clear.clear.clear.clear
  have h2 : Safe s2 := h1.over fun _ _ hu => hu.modThr
  have h3 : Safe s3 := h2.modCore
  exact h3.modCore

theorem Safe.claimCore {g c} : Safe (s.claimCore g c) := .ite h h.zeroCore.modCore
theorem Safe.identityEntries {t c rank size team} : Safe (s.identityEntries t c rank size team) := h.poke

theorem Safe.trapBadImage {tid k n} : SafeSome Safe (s.trapBadImage tid k n) := SafeSome.map fun _ => h.logConsumed.trapOf

theorem Safe.imageTrap {tid} : Safe (s.imageTrap tid) := by
  unfold State.imageTrap
  extract_lets
  split
  · next e => exact h.trapBadImage.some e
  · next e => exact h.trapBadImage.some e
  · next e => exact h.trapBadImage.some e
  · exact h

theorem Safe.imageTraps {g ths} : Safe (s.imageTraps g ths) := .ite h (h.over fun _ _ hu => .ite hu.imageTrap hu)
theorem Safe.openCore {t c spmin spmax} : Safe (s.openCore t c spmin spmax) := h.modCore
theorem Safe.openInbox {l c} : Safe (s.openInbox l c) := h.modCore
theorem Safe.broadcast {c image} : Safe (s.broadcast c image) := h.poke
theorem Safe.freshTeamBars {c} : Safe (s.freshTeamBars c) := h
theorem Safe.startTeam {t g c rank size team pc} : Safe (s.startTeam t g c rank size team pc) := h.over fun _ _ hu => (safe_mk hu).setThr
theorem Safe.countBind {level q} : Safe (s.countBind level q) := h
theorem Safe.clearRecords {c} : Safe (s.clearRecords c) := h.over fun _ _ hu => .ite hu.freeSlot hu

theorem Safe.bindFresh {g t cores image} : Safe (s.bindFresh g t cores image) := by
  unfold State.bindFresh
  extract_lets w key s1 t s2 s3 s4 s5
  have h1 : Safe s1 := h.countBind
  have h2 : Safe s2 := safe_mk h1
  have h3 : Safe s3 := h2.over fun _ _ hu => hu.clearRecords
  have h4 : Safe s4 := h3.over fun _ _ hu => hu.claimCore
  have h5 : Safe s5 := by
    refine h4.over fun _ _ hu => ?_
    extract_lets s6
    have h6 : Safe s6 := hu.openCore.openInbox.freshTeamBars.broadcast
    exact h6.identityEntries.startTeam
  exact safe_mk h5

theorem Safe.credit {c} : Safe (s.credit c) := h.modCore

theorem Safe.bindSaved {g t cores} : Safe (s.bindSaved g t cores) := by
  unfold State.bindSaved
  extract_lets recs held t s1 s2 s3 s4 s5 s6 s7
  have h1 : Safe s1 := h.over fun _ _ hu => hu.freeSlot
  have h2 : Safe s2 := h1.over fun _ _ hu => hu.clearRecords
  have h3 : Safe s3 := h2.over fun _ _ hu => hu.claimCore
  have h4 : Safe s4 := by
    refine h3.over fun _ _ hu => ?_
    extract_lets s8
    have h8 : Safe s8 := hu.openCore
    split
    · split
      · exact h8.restoreTeam
      · exact h8
    · exact h8
  have h5 : Safe s5 := h4.over fun _ _ hu => hu.credit
  have h6 : Safe s6 := by
    refine h5.over fun _ _ hu => ?_
    extract_lets b c tid more save s8
    have h8 : Safe s8 := hu.identityEntries
    exact (safe_mk h8).setThr.restoreRegs
  have h7 : Safe s7 := safe_mk h6
  exact h7.imageTraps

theorem Safe.refuseTask {g t status sub value} : Safe (s.refuseTask g t status sub value) := h.freeGang.dropJob.completePacket

theorem Safe.bindFirst {g t cores} : Safe (s.bindFirst g t cores) := by
  unfold State.bindFirst
  extract_lets q p s1
  have h1 : Safe s1 := h.dropWork
  split
  · split
    · next e1 => exact (h1.fwFailed.later e1).modTask
    · next e2 => exact (h1.fwFailed.fail e2).refuseTask
  · next e1 =>
    split
    · split
      · next e3 => exact ((h1.pagesIn.ok e1).fwFailed.later e3).modTask
      · next e4 => exact ((h1.pagesIn.ok e1).fwFailed.fail e4).refuseTask
    · next e3 => exact ((h1.pagesIn.ok e1).fwLoadR.ok e3).dropJob.bindFresh

theorem Safe.taskBind {g cores} : Safe (s.taskBind g cores) := by
  unfold State.taskBind
  split
  · exact h
  · split
    · exact h
    · split
      · exact h.bindFirst
      · exact h.bindSaved
      · exact h

theorem Safe.age {g} : Safe (s.age g) := by
  unfold State.age
  split
  · exact h
  · exact .ite h.modTask h

theorem Safe.preempt {g waiting} : Safe (s.preempt g waiting) := by
  unfold State.preempt
  split
  · split
    · exact .ite h.stopGang.modTask h
    · exact h
  · exact h

theorem Safe.threadStop {tid} : Safe (s.threadStop tid) := .ite h.stopThread h

theorem Safe.stopComplete {g} : Safe (s.stopComplete g) := by
  unfold State.stopComplete
  split
  · refine .ite ?_ h
    split
    next e => exact ((Safe.snd_ite h.firstPc h).of_eq e).traceStop.saveGang
  · exact h

theorem Safe.bindOver {tid err} : Safe (s.bindOver tid err) := h.modThr
theorem Safe.bindRead {tid} : Safe (s.bindRead tid) := .ite h (.ite h.modThr.bindOver h.bindOver)

theorem Safe.bindStore {tid} : Safe (s.bindStore tid) := by
  unfold State.bindStore
  extract_lets b r s1 s2 s3
  have h1 : Safe s1 := h
  have h2 : Safe s2 := h1.modThr
  have h3 : Safe s3 := .ite h1.modCore (.ite h2.modCore h2)
  exact h3.bindOver

theorem Safe.bindWrite {tid} : Safe (s.bindWrite tid) := .ite h (.ite h.bindOver (.ite h.modThr h.bindStore))
theorem Safe.bindZeroed {tid} : Safe (s.bindZeroed tid) := .ite h.zeroCore.bindStore h

theorem Safe.release1 {t tid more} : Safe (s.release1 t tid more) := by
  unfold State.release1
  extract_lets b key t thr s1 s2 s3
  have h1 : Safe s1 := h.identityEntries
  have h2 : Safe s2 := h1.modCore
  have h3 : Safe s3 := (safe_mk h2).setThr
  exact .ite h3 h3.restoreRegs

theorem Safe.regain {b c h'} : Safe (s.regain b c h') := h.restoreTeam.modCore

theorem Safe.bindGo {tid} : Safe (s.bindGo tid) := by
  unfold State.bindGo
  extract_lets b g s1 parked
  have h1 : Safe s1 := h.bindOver
  refine .ite h (.ite h.bindOver ?_)
  clear_value parked
  cases parked with
  | nil => exact h1
  | cons i l =>
    dsimp -zeta only
    extract_lets t cores t' held s2 back s3 s4 s5
    have h2 : Safe s2 := safe_mk h1
    have h3 : Safe s3 := h2.over fun _ _ hu => hu.regain
    have h4 : Safe s4 := h3.over fun _ _ hu => hu.credit
    have h5 : Safe s5 := h4.over fun _ _ hu => hu.release1
    exact h5.imageTraps

theorem Safe.bindStop {tid} : Safe (s.bindStop tid) := by
  unfold State.bindStop
  extract_lets b g s1
  have h1 : Safe s1 := h.bindOver
  exact .ite h (.ite h.bindOver (.ite h1 h1.stopGang.modTask))

theorem Safe.gateDomain {d} : Safe (s.gateDomain d) := by
  unfold State.gateDomain
  extract_lets cs _ s1
  have h1 : Safe s1 := h.setDomain
  exact h1.over fun _ _ hu => hu.zeroCore.modCore

theorem Safe.powerGate {d} : Safe (s.powerGate d) := by
  unfold State.powerGate
  extract_lets
  split
  · exact h
  · split
    · exact h.gateDomain
    · refine h.over fun _ _ hu => ?_
      split
      · exact .ite hu.stopGang (.ite hu.stopGang.modTask hu)
      · exact hu

theorem Safe.ladleFails {g m cause addr status} : Safe (s.ladleFails g m cause addr status) := h.dropJob.endTaskWith

theorem Safe.ladleFault {g t m acc f} : Safe (s.ladleFault g t m acc f) := by
  unfold State.ladleFault
  split
  · next e => exact h.fwFailed.later e
  · next e => exact (h.fwFailed.fail e).ladleFails

theorem Safe.writeSlot {q p c at_} : SafeRun (s.writeSlot q p c at_) := by
  unfold State.writeSlot
  extract_lets top other
  clear_value top other
  refine h.fwZero.next fun _ hu => hu.fwOut.next fun _ hu => hu.fwOut.next fun _ hu => hu.fwOut.next fun _ hu => ?_
  exact (hu.fwTry hu.fwStoreR).next fun _ hu => hu.fwTry hu.fwStoreR

theorem Safe.writeSlots {q p a b} : SafeRun (s.writeSlots q p a b) := by
  induction a generalizing s b with
  | nil => exact h
  | cons c l ih => exact h.writeSlot.next fun _ hu => ih hu

theorem Safe.copyKvs {q p a} : SafeRun (s.copyKvs q p a) := by
  induction a generalizing s with
  | nil => exact h
  | cons e r ih =>
    rw [State.copyKvs]
    split
    · exact h.fwOut.next fun _ hu => ih hu
    · exact ih h

theorem Safe.fwKeepBad {q p va regs} : SafeRun (s.fwKeepBad q p va regs) := by
  unfold State.fwKeepBad
  split
  · exact h
  · exact h.fwParts (fun _ _ _ _ hu => hu)

theorem Safe.ladleWrite {t m} : SafeRun (s.ladleWrite t m) := by
  unfold State.ladleWrite
  extract_lets q p base tail
  refine h.writeSlots.next fun _ hu => (hu.fwTry hu.fwStoreR).next fun _ hu => ?_
  exact hu.fwKeepBad.next fun _ hu => hu.copyKvs

theorem Safe.ladleRelease {g t m} : Safe (s.ladleRelease g t m) := by
  unfold State.ladleRelease
  extract_lets counts s1 _ l down wakes m' s2
  have h1 : Safe s1 := h.over fun _ _ hu => hu.freeCore
  have h2 : Safe s2 := h1.modTask
  exact .ite h2.wakeRequest h2

theorem Safe.ladleSave {g t m} : Safe (s.ladleSave g t m) := by
  unfold State.ladleSave
  split
  · next e1 => exact (h.ladleWrite.fst e1).ladleFault
  · next e2 =>
    split
    · exact (h.ladleWrite.fst e2).ladleFault
    · next e3 => exact ((h.ladleWrite.fst e2).pagesIn.ok e3).dropJob.ladleRelease

theorem Safe.readSlot {q p c at_ spmax} : SafeRun (s.readSlot q p c at_ spmax) := by
  obtain ⟨load, hload⟩ : ∃ f, f = State.fwLoadR := ⟨_, rfl⟩
  unfold State.readSlot
  rw [← hload]
  refine h.fwIn.next fun _ hu => hu.fwIn.next fun _ hu => hu.fwIn.next fun _ hu => ?_
  split
  · exact hu
  · next e =>
    rw [hload] at e
    exact (hu.fwLoadR.ok e).modCore

theorem Safe.readSlots {q p base spmax a} : SafeRun (s.readSlots q p base spmax a) := by
  induction a generalizing s with
  | nil => exact h
  | cons c l ih => exact h.readSlot.next fun _ hu => ih hu

theorem Safe.ladleBind {g t m cores} : Safe (s.ladleBind g t m cores) := by
  unfold State.ladleBind
  extract_lets q p w base old pc l t' u s1
  have h1 : Safe s1 := by
    refine (h.over fun _ _ hu => hu.clearRecords).over fun _ _ hu => ?_
    extract_lets s2
    have h2 : Safe s2 := hu.zeroCore.modCore.openCore.openInbox
    exact h2.modCore
  split
  · exact h.ladleFault
  · next e1 =>
    split
    · exact h.ladleFault
    · next e2 =>
      split
      · exact h.ladleFault
      · next e3 =>
        extract_lets words s3 c _ s4 s5 s6
        have h3 : Safe s3 := (((h1.readSlots.fst e1).fwLoadR.ok e2).fwKey.ok e3).over fun _ _ hu =>
          hu.freshTeamBars.broadcast.identityEntries.startTeam
        have h4 : Safe s4 := h3.modThr.restoreRegs
        have h5 : Safe s5 := (safe_mk h4).dropJob
        have h6 : Safe s6 := h5.trapBadImage.getD h5
        refine .ite h6 ?_
        split
        · next e4 => exact h6.fwStoreR.ok e4
        · split
          · split
            · next e5 => exact h.fwFailed.later e5
            · next e6 => exact (h.fwFailed.fail e6).ladleFails
          · next e5 => exact (h6.fwFailed.fail e5).ladleFails

theorem Safe.ladle {g cores} : Safe (s.ladle g cores) := by
  unfold State.ladle
  split
  · exact h
  · split
    · exact .ite h.ladleSave (.ite h (.ite h.ladleBind h))
    · exact h

end

end Sys2Proof
end

section
/-!
PROOFS. Memory keeps its canonical form (O60; spec/08, R196; spec/09, R226): packets and captures.
-/
namespace Sys2Proof
open Machine

section
variable {s : State} (h : Safe s)
include h

/-! ## Machine/Packets -/

theorem Safe.modQueue {q n f} : Safe (s.modQueue q n f) := h.setQueue
theorem Safe.haltQueue {q n code} : Safe (s.haltQueue q n code) := h.stopQueue.raiseErr
theorem Safe.unwatch {q n i} : Safe (s.unwatch q n i) := h.modQueue.dropJob

theorem Safe.packetEnd {q n i b crec irq status value stop} : Safe (s.packetEnd q n i b crec irq status value stop) := by
  unfold State.packetEnd
  extract_lets s1
  have h1 : Safe s1 := h.unwatch.completePacket
  exact .ite h1.haltQueue h1

theorem Safe.packetDone {q n i b status value stop} : Safe (s.packetDone q n i b status value stop) := h.packetEnd
theorem Safe.packetBad {q n i b} : Safe (s.packetBad q n i b) := h.packetDone
theorem Safe.packetArg {q n i b addr stop} : Safe (s.packetArg q n i b addr stop) := h.packetEnd
theorem Safe.waits {q n w} : Safe (s.waits q n w) := h.modQueue
theorem Safe.packetWaits {q n i b since} : Safe (s.packetWaits q n i b since) := h.waits

theorem Safe.slotKey {q ia a} : SafeOk (fun r => Safe r.1) (s.slotKey q ia a) := by
  induction a generalizing s with
  | zero => trivial
  | succ k ih =>
    rw [State.slotKey]
    split
    · exact h.ringUsed
    · split
      · next e => exact ih (h.fwResolve.some e)
      · trivial

theorem Safe.readSlotBytes {q n i} : SafeOk (fun r => Safe r.1) (s.readSlotBytes q n i) := by
  unfold State.readSlotBytes
  extract_lets
  split
  · trivial
  · next e =>
    split
    · trivial
    · exact h.slotKey.ok e

theorem Safe.slotFailed {q n i f} : Safe (s.slotFailed q n i f) := by
  unfold State.slotFailed
  split
  · next e => exact h.fwFailed.later e
  · next e => exact (h.fwFailed.fail e).dropJob.haltQueue

theorem Safe.skipOver {q n a} : Safe (s.skipOver q n a) := by
  induction a generalizing s with
  | zero => exact h
  | succ k ih =>
    rw [State.skipOver]
    split
    · exact h
    · split
      · exact h.modQueue
      · split
        · exact h
        · split
          · exact h.slotFailed
          · next e =>
            extract_lets s1
            have h1 : Safe s1 := (h.readSlotBytes.ok e).modQueue
            exact ih h1.completePacket

theorem Safe.settleSkip {q n} : Safe (s.settleSkip q n) := h.skipOver

theorem Safe.packetWord {q b} : SafeOk (fun r => Safe r.1) (s.packetWord q b) := by
  unfold State.packetWord
  split
  · trivial
  · next e => exact h.fwLoadR.ok e

theorem Safe.signalAt {q b a} : SafeOk (fun r => Safe r.1) (s.signalAt q b a) := by
  induction a generalizing s b with
  | zero => trivial
  | succ k ih =>
    rw [State.signalAt]
    split
    · split
      · trivial
      · exact h.admitAccess
    · split
      · next e => exact ih (h.fwResolve.some e)
      · trivial

theorem Safe.signal {q n i b since} : Safe (s.signal q n i b since) := by
  unfold State.signal
  split
  · split
    · next e => exact (h.fwFailed.later e).packetWaits
    · next e => exact (h.fwFailed.fail e).packetArg
  · next e => exact ((h.signalAt.ok e).writeSpans (fun _ _ _ hu => hu)).packetDone

theorem Safe.waitq {q n i b since decide_} : Safe (s.waitq q n i b since decide_) := by
  unfold State.waitq
  split
  · split
    · next e => exact (h.fwFailed.later e).packetWaits
    · next e => exact (h.fwFailed.fail e).packetArg
  · next e => exact .ite (h.packetWord.ok e).packetDone (h.packetWord.ok e).dropJob.packetWaits

theorem Safe.waitqOver {q n i b} : Safe (s.waitqOver q n i b) := by
  unfold State.waitqOver
  split
  · next e => exact .ite (h.packetWord.ok e).packetDone (h.packetWord.ok e).packetDone
  · split
    · exact h.packetDone
    · next e => exact (h.fwFailed.fail e).packetArg

theorem Safe.controlJump {q n i b t} : Safe (s.controlJump q n i b t) := by
  unfold State.controlJump
  extract_lets size ahead back inside s1
  have h1 : Safe s1 := h.packetDone
  exact .ite h1.modQueue (.ite h1.modQueue.settleSkip h.packetBad)

theorem Safe.control {q n i b since} : Safe (s.control q n i b since) := by
  unfold State.control
  split
  · split
    · next e => exact (h.fwFailed.later e).packetWaits
    · next e => exact (h.fwFailed.fail e).packetArg
  · next e =>
    extract_lets s1
    have h1 : Safe s1 := .ite (h.packetWord.ok e).modQueue (h.packetWord.ok e)
    split
    · exact (h.packetWord.ok e).controlJump
    · exact h1.packetDone

theorem Safe.levelOf {q prio} : Safe (s.levelOf q prio).2 := by
  unfold State.levelOf
  split
  · exact h
  · split
    next e => exact h.drawFree.of_eq e

theorem Safe.queueTask {q n i g b l} : Safe (s.queueTask q n i g b l) := h
theorem Safe.launchBad {q n i b sub value} : Safe (s.launchBad q n i b sub value) := h.unwatch.completePacket
theorem Safe.takeGang {l} : Safe (s.takeGang l) := .ite h h

theorem Safe.launchFault {q n i b l sub f} : Safe (s.launchFault q n i b l sub f) := by
  unfold State.launchFault
  split
  · next e => exact (h.fwFailed.later e).takeGang.waits
  · next e => exact (h.fwFailed.fail e).launchBad

theorem Safe.launchRead {q pasid va n got} : SafeOk (fun r => Safe r.1) (s.launchRead q pasid va n got) := by
  unfold State.launchRead
  split
  · exact h
  · exact h.fwLoadR

theorem Safe.launchEnd {q n i l b r h' patch} : Safe (s.launchEnd q n i l b r h' patch) := by
  unfold State.launchEnd
  split
  · exact h.launchBad
  · split
    next e =>
      have hu := (Safe.snd_ite h.drawFree h).of_eq e
      extract_lets s1
      have h1 : Safe s1 := hu.unwatch
      refine .ite hu.launchBad (.ite ?_ h1.completePacket)
      split
      next e1 => exact (h1.levelOf.of_eq e1).takeGang.queueTask

theorem Safe.launch {q n i b since} : Safe (s.launch q n i b since) := by
  unfold State.launch
  extract_lets
  split
  · exact h.launchFault
  · next e1 =>
    split
    · exact (h.launchRead.ok e1).launchBad
    · split
      · exact (h.launchRead.ok e1).launchBad
      · split
        · exact (h.launchRead.ok e1).launchFault
        · next e2 =>
          split
          · exact ((h.launchRead.ok e1).launchRead.ok e2).launchBad
          · split
            · exact ((h.launchRead.ok e1).launchRead.ok e2).launchEnd
            · split
              · exact ((h.launchRead.ok e1).launchRead.ok e2).launchFault
              · next e3 => exact (((h.launchRead.ok e1).launchRead.ok e2).fwLoadR.ok e3).launchEnd

theorem Safe.capStart {q n i b since} : Safe (s.capStart q n i b since) := by
  unfold State.capStart
  extract_lets p size pages
  refine .ite h.packetBad (.ite h.packetDone ?_)
  split
  · split
    · next e1 => exact (h.fwFailed.later e1).packetWaits
    · next e2 => exact (h.fwFailed.fail e2).packetDone
  · next e1 =>
    have hu := h.pagesIn.ok e1
    have hload {c : Prop} {_ : Decidable c} {va n} :
        SafeOk (fun r => Safe r.1) (if c then State.fwLoadR _ q p va n 16 else .ok (_, [])) := .ite hu.fwLoadR hu
    split
    · split
      · next e3 => exact (hu.fwFailed.later e3).packetWaits
      · next e4 => exact (hu.fwFailed.fail e4).packetDone
    · next e3 =>
      extract_lets log id c s1
      have h2 := hload.ok e3
      have h1 : Safe s1 := safe_mk h2
      exact h1.modQueue.packetDone

theorem Safe.flushRuns {id l a} : Safe (s.flushRuns id l a) := by
  induction a generalizing s with
  | nil => exact h
  | cons a r ih => exact ih (Safe.ite h h.rudimentRecord)

theorem Safe.endRecord {id} : SafeOk Safe (s.endRecord id) := by
  unfold State.endRecord
  split
  · exact h
  · split
    · exact h
    · split
      next e1 =>
        split
        next e2 =>
          extract_lets
          split
          · next e3 => exact ((h.drawFree.of_eq e1).drawFree.of_eq e2).fwStoreR.ok e3
          · trivial
          · exact (h.drawFree.of_eq e1).drawFree.of_eq e2

theorem Safe.closeCapture {q n i b id} : Safe (s.closeCapture q n i b id) := by
  unfold State.closeCapture
  extract_lets s1
  have h1 : Safe s1 := h
  exact h1.modQueue.packetDone

theorem Safe.capStop {q n i b since} : Safe (s.capStop q n i b since) := by
  unfold State.capStop
  split
  · exact h.packetDone
  · split
    · exact h.modQueue.packetDone
    · extract_lets s1 waiting
      have h1 : Safe s1 := .ite h (safe_mk h).flushRuns
      refine .ite h1.packetWaits (.ite h1.closeCapture ?_)
      split
      · exact h1.accessWake.packetWaits
      · next e => exact (h1.endRecord.ok e).closeCapture

theorem Safe.packetRun {q n i b since} : Safe (s.packetRun q n i b since) := by
  unfold State.packetRun
  split
  · exact h.launch
  · exact h.signal
  · exact h.waitq
  · exact h.control
  · exact h.capStart
  · exact h.capStop

theorem Safe.packetRefused {q n i b} : Safe (s.packetRefused q n i b) := by
  unfold State.packetRefused
  extract_lets s1
  have h1 : Safe s1 := h.packetEnd
  exact h1.postFault.raiseErr

theorem Safe.packetStart {q n i b} : Safe (s.packetStart q n i b) := by
  unfold State.packetStart
  extract_lets s1 s2 s3
  have h1 : Safe s1 := h.readNotifies.dropJob
  have h2 : Safe s2 := h1.modQueue
  have h3 : Safe s3 := .ite h2.modQueue h2
  exact .ite h2.packetRefused (.ite h2.packetBad h3.packetRun)

theorem Safe.packetsAgain {typ q n} : Safe (s.packetsAgain typ q n) := .ite (h.over fun _ _ hu => hu.packetRun) h

theorem Safe.packetTurn {typ q n} : Safe (s.packetTurn typ q n) := by
  unfold State.packetTurn
  extract_lets s1
  have h1 : Safe s1 := .ite h.settleSkip h
  split
  · exact h1.packetsAgain
  · split
    · exact h1.slotFailed.packetsAgain
    · next e => exact .ite h1.packetsAgain (h1.readSlotBytes.ok e).packetStart

theorem Safe.waitqAgain {q n} : Safe (s.waitqAgain q n) := by
  unfold State.waitqAgain
  split
  · exact .ite h.waitq h
  · exact h

theorem Safe.waitqLate {q n} : Safe (s.waitqLate q n) := by
  unfold State.waitqLate
  split
  · exact .ite h.waitqOver h
  · exact h

theorem Safe.packetLate {q n} : Safe (s.packetLate q n) := by
  unfold State.packetLate
  split
  · exact .ite h.packetArg h
  · exact h

end

end Sys2Proof
end

section
/-!
PROOFS. Memory keeps its canonical form (O60; spec/08, R196; spec/09, R226): the host, the bridge, and Bellows.
-/
namespace Sys2Proof
open Machine

section
variable {s : State} (h : Safe s)
include h

/-! ## Machine/HostEvents -/

theorem Safe.hostWrite {off v} : Safe (s.hostWrite off v) := .ite h.hubStore h
theorem Safe.hostWrite4 {off v} : Safe (s.hostWrite4 off v) := .ite h.hostWrite h
theorem Safe.registerWrite {off v} : Safe (s.registerWrite off v) := .ite h.hostWrite4 h.hostWrite

theorem Safe.ring {q o v} : Safe (s.ring q o v) := by
  unfold State.ring
  extract_lets s1
  have h1 : Safe s1 := h.hostWrite
  exact .ite (.ite h1.settleSkip h1) h

theorem Safe.pageWrite {q o v} : Safe (s.pageWrite q o v) := .ite h.hostWrite h
theorem Safe.blockWrite {q o v} : Safe (s.blockWrite q o v) := .ite h.hostWrite h
theorem Safe.vminRead : Safe s.vminRead := .ite h.hubRead h

theorem Safe.hostPoison {key} : Safe (s.hostPoison key) := by
  unfold State.hostPoison
  split
  next e => exact (h.drawFree.of_eq e).logError

theorem Safe.hostCxl {hbm store addr data} : Safe (s.hostCxl hbm store addr data) := by
  unfold State.hostCxl
  extract_lets size key s1 s2
  have h1 : Safe s1 := h.accessWake
  have h2 : Safe s2 := .ite h h.wakesLpddr
  split
  · exact h
  · split
    · exact h
    · split
      · exact safe_mk h1
      · split
        · exact h2.hostPoison
        · exact .ite h2.noteKey.poke h2

theorem Safe.hostRetry : Safe s.hostRetry := (safe_mk h).over fun _ _ hu => hu.hostCxl
theorem Safe.hostMemory {addr data} : Safe (s.hostMemory addr data) := .ite h h.poke
theorem Safe.setPort {p v} : Safe (s.setPort p v) := h

theorem Safe.linkUp {p serial} : Safe (s.linkUp p serial) := by
  unfold State.linkUp
  extract_lets other clash s1 _ _ s2
  have h1 : Safe s1 := h.setReg
  have h2 : Safe s2 := h1.setPort.showPorts
  exact .ite h (.ite h1.setPort.showPorts (safe_mk h2))

theorem Safe.serveRequest {p t store a bs} : Safe (s.serveRequest p t store a bs) := by
  unfold State.serveRequest
  extract_lets s1
  have h1 : Safe s1 := h.wakesLpddr
  split
  · split
    · exact h1.hostPoison.sendFlit
    · exact .ite h1.noteKey.poke.sendFlit h1.sendFlit
  · exact h

theorem Safe.bridgeRequest {p t pay} : Safe (s.bridgeRequest p t pay) := by
  unfold State.bridgeRequest
  split
  · exact h
  · exact h.serveRequest

theorem Safe.bridgeMessage {tenant m} : Safe (s.bridgeMessage tenant m) := .ite h h.touchCore.raiseBound.poke.modCore

theorem Safe.bridgeSlack {pay} : Safe (s.bridgeSlack pay) := by
  unfold State.bridgeSlack
  split <;> exact h

theorem Safe.replayPort {p} : Safe (s.replayPort p) := h

theorem Safe.bridgePayload {p f} : Safe (s.bridgePayload p f) :=
  .ite h.bridgeRequest (.ite (h.over fun _ _ hu => hu.bridgeMessage) (.ite h.bridgeSlack (.ite h.replayPort h)))

theorem Safe.flitIn {p f} : Safe (s.flitIn p f) := by
  unfold State.flitIn
  extract_lets v head s1
  have h1 : Safe s1 := h.setPort.fillPort
  exact .ite h (.ite h.setPort.sendFlit (.ite h1 h1.setPort.bridgePayload))

theorem Safe.retrain {p} : Safe (s.retrain p) := .ite h.setPort.replayPort h
theorem Safe.portDown {p} : Safe (s.portDown p) := .ite h.setPort.showPorts h

theorem Safe.loadEnd {flash verdict} : Safe (s.loadEnd flash verdict) := by
  unfold State.loadEnd
  extract_lets _ m s1
  have h1 : Safe s1 := .ite h h
  exact .ite h (.ite h (.ite (safe_mk h1) h1.running))

theorem Safe.attest : Safe s.attest := by
  unfold State.attest
  extract_lets _ s1 s2
  have h1 : Safe s1 := h
  have h2 : Safe s2 := h1.setReg
  split
  · exact h
  · split
    · exact h2
    · exact h2.poke

theorem Safe.execEvQifResetComplete {qif} : SafeOut (execEvQifResetComplete qif s) := Safe.ite h.qifResetDone h
theorem Safe.execEvRestart {qif queue} : SafeOut (execEvRestart qif queue s) := Safe.ite h.pageWrite h
theorem Safe.execEvCheadWrite {qif queue data} : SafeOut (execEvCheadWrite qif queue data s) := Safe.ite h.pageWrite h
theorem Safe.execEvFaultRingWrite {qif off data} : SafeOut (execEvFaultRingWrite qif off data s) := Safe.ite h.pageWrite h
theorem Safe.execEvTenantTableWrite {t word data} : SafeOut (execEvTenantTableWrite t word data s) := Safe.ite h.hostWrite h
theorem Safe.execEvMsisend {data} : SafeOut (execEvMsisend data s) := Safe.ite h.hubStore h
theorem Safe.execEvMsixVectorUnmask {entry data} : SafeOut (execEvMsixVectorUnmask entry data s) := Safe.ite h.hostWrite4 h

/-! ## Machine/Bellows -/

theorem Safe.flushGranule {g} : Safe (s.flushGranule g) := h.landWc
theorem Safe.boundTick {c up} : Safe (s.boundTick c up) := h.modCore
theorem Safe.loseTasks {p d} : Safe (s.loseTasks p d).1 := h.over fun _ _ hu => hu.endTask
theorem Safe.wipeCores {p} : Safe (s.wipeCores p) := safe_mk (Memory.wf_filter h _)
theorem Safe.setCores {p st} : Safe (s.setCores p st) := h
theorem Safe.loseHbm {q} : Safe (s.loseHbm q) := h.clear

theorem Safe.powerOff {l} : Safe (s.powerOff l) := by
  unfold State.powerOff
  extract_lets s1
  have h1 : Safe s1 := h.over fun _ _ hu => hu.setDomain
  exact safe_mk h1

theorem Safe.enterQuad {q n} : Safe (s.enterQuad q n) := by
  unfold State.enterQuad
  extract_lets _ s1 s2
  have h1 : Safe s1 := h.setQuad
  have h2 : Safe s2 := h1.wipeCores.setCores.powerOff
  exact .ite (.ite h2.loseHbm h2) h1

theorem Safe.fallInto {q n} : Safe (s.fallInto q n) := h.enterQuad

theorem Safe.quadDown {q n} : Safe (s.quadDown q n) := by
  unfold State.quadDown
  extract_lets
  split
  · exact h
  · split
    · exact h
    · exact .ite h h.fallInto
    · exact .ite (Safe.ite h.spillQuad h).setQuad h

theorem Safe.freshCores {q} : Safe (s.freshCores q) := by
  unfold State.freshCores
  extract_lets cls held s1 _ s2
  have h1 : Safe s1 := h.wipeCores
  have h2 : Safe s2 := safe_mk h1
  exact h2.over fun _ _ hu => hu.over fun _ _ hv => hv.modCore

theorem Safe.quadServes : Safe s.quadServes := h.hostRetry.retryRings.retryEnds.settleStores

theorem Safe.quadUp {q n} : Safe (s.quadUp q n) := by
  unfold State.quadUp
  split
  · extract_lets old s1 s2
    have h1 : Safe s1 := h.setQuad
    have h2 : Safe s2 := .ite h1.freshCores h1
    exact .ite h (.ite h2.setCores.quadServes (.ite h2.setCores h2))
  · exact h

theorem Safe.quadRaise {q} : Safe (s.quadRaise q) := by
  unfold State.quadRaise
  split
  · exact h.quadUp
  · exact h.raiseQuads

theorem Safe.wakeQuad {q} : Safe (s.wakeQuad q) := .ite h.quadUp h.beginWake

theorem Safe.wakeComplete {id} : Safe (s.wakeComplete id) := by
  unfold State.wakeComplete
  split
  · exact h
  · extract_lets s1
    have h1 : Safe s1 := h.over fun _ _ hu => hu.wakeQuad
    split
    · exact h1
    · exact .ite h1.wakeDone h1

theorem Safe.coolQuad {q} : Safe (s.coolQuad q) := .ite h.setQuad h

theorem Safe.bindWake {g q} : Safe (s.bindWake g q) := by
  unfold State.bindWake
  extract_lets s1
  have h1 : Safe s1 := h.coolQuad
  split
  · exact h
  · exact .ite h h1.wakeRequest

theorem Safe.strikerTurn {t} : Safe (s.strikerTurn t) := by
  unfold State.strikerTurn
  split
  · exact h.deliverStrike
  · exact h

theorem Safe.taborSwitch : Safe s.taborSwitch := .ite h h
theorem Safe.selfRefresh : Safe s.selfRefresh := .ite h h
theorem Safe.coreC1 {c} : Safe (s.coreC1 c) := .ite h.modCore h
theorem Safe.coreC2 {c} : Safe (s.coreC2 c) := .ite h.modCore h

theorem Safe.rampStart {d} : Safe (s.rampStart d) := by
  unfold State.rampStart
  extract_lets _ s1
  have h1 : Safe s1 := h.setDomain
  exact h1.over fun _ _ hu => .ite hu.setDomain hu

theorem Safe.switchOn {d busy} : Safe (s.switchOn d busy) := by
  unfold State.switchOn
  extract_lets v _ s1 s2
  have h1 : Safe s1 := .ite h h
  have h2 : Safe s2 := h1.over fun _ _ hu => hu.setDomain
  exact .ite h (.ite h1 (.ite h2.setDomain h2.rampStart))

theorem Safe.switchLate {d} : Safe (s.switchLate d) := by
  unfold State.switchLate
  split
  · exact .ite h.rampStart h
  · exact h

theorem Safe.rampDone {d} : Safe (s.rampDone d) := by
  unfold State.rampDone
  extract_lets _ s1 _ s2
  have h1 : Safe s1 := h.setDomain
  have h2 : Safe s2 := safe_mk h1
  split
  · exact .ite h h2.setCores
  · exact h

theorem Safe.noteCalm : Safe s.noteCalm := h
theorem Safe.shunts {amps watts} : Safe (s.shunts amps watts) := (safe_mk h).noteCalm
theorem Safe.cool {medium inlet flow} : Safe (s.cool medium inlet flow) := (safe_mk h).noteCalm
theorem Safe.tallow {cl tj} : Safe (s.tallow cl tj) := (h.over fun _ _ hu => hu.modCore).noteCalm

theorem Safe.hbmShutdown {stack} : Safe (s.hbmShutdown stack) := by
  unfold State.hbmShutdown
  extract_lets
  split
  next e =>
    extract_lets s1
    have h1 : Safe s1 := (Safe.ite (h.loseTasks.of_eq e).spillQuad (h.loseTasks.of_eq e)).enterQuad
    exact h1.setQuad.wakesLose.logError

theorem Safe.hbmReading {stack temp} : Safe (s.hbmReading stack temp) := by
  unfold State.hbmReading
  extract_lets hold _ s1
  have h1 : Safe s1 := (safe_mk h).noteCalm
  exact .ite h (.ite h1.hbmShutdown h1)

theorem Safe.askRatio {cl n} : Safe (s.askRatio cl n) := h
theorem Safe.lowerRatio {cl} : Safe (s.lowerRatio cl) := .ite h.askRatio h
theorem Safe.raiseRatio {cl} : Safe (s.raiseRatio cl) := .ite h.askRatio h

theorem Safe.hbmStep {stack} : Safe (s.hbmStep stack) := by
  unfold State.hbmStep
  extract_lets due cls _ s1
  have h1 : Safe s1 := h
  exact .ite h (h1.over fun _ _ hu => hu.lowerRatio)

theorem Safe.limitOne {named cl} : Safe (s.limitOne named cl) := .ite h (safe_mk h).lowerRatio
theorem Safe.limitStep {named} : Safe (s.limitStep named) := h.over fun _ _ hu => hu.limitOne

theorem Safe.raiseOne {cl} : Safe (s.raiseOne cl) := by
  unfold State.raiseOne
  extract_lets s1
  have h1 : Safe s1 := h.raiseRatio
  exact .ite h (.ite h1 (safe_mk h1))

theorem Safe.raiseStep {cls} : Safe (s.raiseStep cls) := .ite (h.over fun _ _ hu => hu.raiseOne) h

theorem Safe.handshake {cl} : Safe (s.handshake cl) := by
  unfold State.handshake
  split
  · exact h
  · extract_lets s1
    have h1 : Safe s1 := h.over fun _ _ hu => hu.modCore
    exact .ite h (safe_mk h1)

theorem Safe.slackStep {g n} : Safe (s.slackStep g n) := by
  unfold State.slackStep
  extract_lets k soon s1
  have h1 : Safe s1 := h
  split
  · extract_lets cls s2 s3
    have h2 : Safe s2 := h1.over fun _ _ hu => hu.lowerRatio
    have h3 : Safe s3 := h1.over fun _ _ hu => hu.raiseRatio
    exact .ite h1 (.ite (safe_mk h2) (.ite (safe_mk h3) h1))
  · exact h

theorem Safe.drawCounts {a} : Safe (s.drawCounts a).1 := by
  induction a generalizing s with
  | zero => exact h
  | succ k ih =>
    rw [State.drawCounts]
    split
    next e1 =>
      have hu : Safe _ := h.drawFree.of_eq e1
      split
      next e2 =>
        have hv := (ih hu).of_eq e2
        exact hv

theorem Safe.estimateTick {cl volt temp} : Safe (s.estimateTick cl volt temp) := by
  unfold State.estimateTick
  split
  · exact h
  · extract_lets
    split
    next e => exact safe_mk (h.drawCounts.of_eq e)

theorem Safe.refit {q y} : Safe (s.refit q y) := .ite h h
theorem Safe.execEvLmBoundaryTick {core up} : SafeOut (execEvLmBoundaryTick core up s) := Safe.ite h.boundTick h
theorem Safe.execEvQuadrantRaise {q} : SafeOut (execEvQuadrantRaise q s) := Safe.ite h.quadRaise h
theorem Safe.execEvCoolingSensorTimeout : SafeOut (execEvCoolingSensorTimeout s) := (safe_mk h).noteCalm

end

end Sys2Proof
end

section
/-!
PROOFS. Memory keeps its canonical form (O60; spec/08, R196; spec/09, R226): CSRs, errors, every instruction and event of the dispatch,
and a turn of the agenda.
-/
namespace Sys2Proof
open Machine

section
variable {s : State} (h : Safe s)
include h

/-! ## Machine/Csr -/

theorem Safe.writeQpwr {v} : Safe (s.writeQpwr v) := (h.over fun _ _ hu => hu.setQuad).raiseQuads
theorem Safe.writeVspill {spilled v} : Safe (s.writeVspill spilled v) := .ite h (safe_mk h).settleStores

theorem Safe.csrWrite {n w} : Safe (s.csrWrite n w) :=
  .ite h.modMx (.ite h.modMe.raiseQuads (.ite h.modMe (.ite h.writeVspill (.ite h.writeQpwr (.ite h.modMe h.modMe)))))

theorem Safe.csrOp {d n w f} : SafeOut (s.csrOp d n w f) := by
  unfold State.csrOp
  split
  · exact h.trapOut
  · exact .ite h (h.afterDrain fun _ hu => (Safe.ite hu.csrWrite hu).putX)

/-! ## Machine/Errors -/

theorem Safe.upset {key double} : Safe (s.upset key double) := .ite h (.ite h h.setDomain)
theorem Safe.correctedIn {d} : Safe (s.correctedIn d) := .ite h.setDomain h

theorem Safe.ceSummary : Safe s.ceSummary := by
  unfold State.ceSummary
  extract_lets l _ s1
  have h1 : Safe s1 := h
  exact .ite h (h1.over fun _ _ hu => hu.setDomain.logError)

theorem Safe.patrol {key} : Safe (s.patrol key) := by
  unfold State.patrol
  extract_lets m stood found _ s1
  have h1 : Safe s1 := h
  exact .ite h (h1.over fun _ _ hu => hu.logError)

theorem Safe.linksDown {d} : Safe (s.linksDown d) := h.over fun _ _ hu => hu.linkDown

theorem Safe.drained {d} : Safe (s.drained d).1 := by
  unfold State.drained
  split
  · split
    next e => exact h.drawFree.of_eq e
  · exact h

theorem Safe.dropClocks {d} : Safe (s.dropClocks d) := by
  unfold State.dropClocks
  extract_lets cls s1
  have h1 : Safe s1 := h.over fun _ _ hu => hu.over fun _ _ hv => hv.modCore
  exact safe_mk h1

theorem Safe.gateDark {d} : Safe (s.gateDark d) := by
  unfold State.gateDark
  extract_lets s1 _ s2 q s3 _ s4 s5
  have h1 : Safe s1 := h.powerOff
  have h2 : Safe s2 := h1.setDomain
  have h3 : Safe s3 := (Safe.ite h2.spillQuad h2).enterQuad
  have h4 : Safe s4 := h2.linksDown.wipeCores
  have h5 : Safe s5 := h4.setCores
  exact .ite h3.setQuad.wakesLose (.ite h5.setRegion.settleLoads.settleStores (.ite h5.showPorts h5))

theorem Safe.darken {d} : Safe (s.darken d) := by
  unfold State.darken
  extract_lets s1
  have h1 : Safe s1 := h.dropClocks
  split
  · exact h1.fatal
  · split
    next e1 =>
      split
      · next e2 => exact ((h1.loseTasks.of_eq e1).drained.of_eq e2).fatal
      · next e3 => exact ((h1.loseTasks.of_eq e1).drained.of_eq e3).gateDark.logError

theorem Safe.phaseFails {d phase} : Safe (s.phaseFails d phase) := by
  unfold State.phaseFails
  extract_lets v n s1
  have h1 : Safe s1 := h.setDomain
  exact .ite h (.ite h1.logError h1.darken)

theorem Safe.vminReading {d mv} : Safe (s.vminReading d mv) := .ite h.setDomain h
theorem Safe.coldStart {fail} : Safe (s.coldStart fail) := .ite h h.start
theorem Safe.warmStart {fail} : Safe (s.warmStart fail) := .ite h h.start

theorem Safe.powerLoss : Safe s.powerLoss := by
  unfold State.powerLoss
  extract_lets s1 _ s2
  have h1 : Safe s1 := h.down
  have h2 : Safe s2 := safe_mk h1
  exact h2.showPorts

/-! ## Machine/Dispatch -/

/-- An arm takes the lemma of the function it calls; `exec` is unfolded first where the unifier does not reach the call by itself. -/
theorem Safe.exec {i} : SafeOut (exec i s) := by
  cases i with
  | add | sub | and | or | xor | andn | orn | xnor | sll | srl | sra | rol | ror | slt | sltu | min | max | minu | maxu | addw | subw
  | addLit | subLit | andLit | orLit | xorLit | andnLit | ornLit | xnorLit | sllLit | srlLit | sraLit | rolLit | rorLit | sltLit
  | sltuLit | minLit | maxLit | minuLit | maxuLit | addwLit | subwLit | addi | andi | ori | xori | slli | srli | srai | slti | sltiu
  | addwi | addiLit | andiLit | oriLit | xoriLit | sltiLit | sltiuLit | addwiLit | mul | mulh | mulhu | mulhmx | div | divu | rem
  | remu | bext | bdep | bextLit | bdepLit | seq | sne | seqLit | sneLit => exact h.alu
  | ldk => exact h.execLdk
  | addk => exact h.execAddk
  | clz | ctz | popc | brev | bswap | sextb | sexth | zexth | zextw => exact h.alu1
  | li | liLit | pcadd | pcaddLit | sel | vext | mpop | mfirst | mtox | mpoll => exact h.putX
  | beq | bne | blt | bge | bltu | bgeu | beqExt | bneExt | bltExt | bgeExt | bltuExt | bgeuExt => exact h.branch
  | jal | jalExt | jalr => exact h.jump
  | lb | lbu | lh | lhu | lw | lwu | ld | lbLit | lbuLit | lhLit | lhuLit | lwLit | lwuLit | ldLit | lbExt | lbuExt | lhExt | lhuExt
  | lwExt | lwuExt | ldExt => exact h.scalarLoad
  | sb | sh | sw | sd | sbLit | shLit | swLit | sdLit | sbExt | shExt | swExt | sdExt => exact h.scalarStore
  | pstore | pstoreLit | pstoreExt => exact h.patchStore
  | amoadd | amoand | amoor | amoxor | amomin | amomax | amominu | amomaxu => exact h.amo
  | amoswap => exact h.execAmoswap
  | amocas => exact h.execAmocas
  | amofadd => exact h.execAmofadd
  | abump => exact h.execAbump
  | fence | fencex =>
    unfold Machine.exec
    exact h.fence
  | ifence => exact h.fin
  | fadd | fsub | fmul | fdiv | fsqrt | fmac | fmsc | fmacExt | fmscExt => exact h.fpRound
  | fmin | fmax | feq | flt | fle | fclass | fsgnj | fabs => exact h.fpFlat
  | fcvt => exact h.modMe.setX.fin
  | vadd | vsub | vmul | vmulh | vadds | vsubs | vmin | vmax | vand | vor | vxor | vsll | vsrl | vsra => exact h.vint
  | vabs => exact h.execVabs
  | vfadd | vfsub | vfmul | vfdiv | vfsqrt | vfexp2 | vfrcp | vfrsqrt | vfmac => exact h.vflt
  | vfmin | vfmax => exact h.vpick
  | vload | vloadLit | vloadExt => exact h.vload
  | vstore | vstoreLit | vstoreExt => exact h.vstore
  | vgather => exact h.vgather
  | vscatter => exact h.vscatter
  | vloadb | vloadbLit | vloadbExt => exact h.vloadb
  | vcmpEq | vcmpNe | vcmpLt | vcmpLe | vcmpLtu | vcmpLeu => exact h.vcmp
  | vsel | vins => exact h.setV.fin
  | vbcast | vperm | vslide | vmov | vdot4 => exact h.vmap
  | vredsum | vredmax | vredmin => exact h.vred
  | vcvt => exact h.vcvt
  | mand | mor | mxor | mnot | mfromx => exact h.putM
  | tload => exact h.execTload
  | tloadt => exact h.execTloadt
  | tloads => exact h.execTloads
  | tstore => exact h.execTstore
  | taccld => exact h.execTaccld
  | taccst => exact h.execTaccst
  | tmma => exact h.execTmma
  | taccout => exact h.execTaccout
  | taccadd => exact h.execTaccadd
  | tzero | taccz => exact h.enqueueOp
  | txch => exact h.execTxch
  | tcvt => exact h.execTcvt
  | verst => exact h.execVerst
  | verld | verldle => exact h.verLoad
  | verprobe => exact h.execVerprobe
  | verfloor => exact h.execVerfloor
  | verdrop => exact h.execVerdrop
  | cpy1 | cpy2 | cpy3 | cpyv | cpyq | cpyx | cpy1Lit | cpy2Lit | cpy3Lit | cpyvLit | cpyqLit | cpyxLit =>
    unfold Machine.exec
    exact h.copyOp
  | collred | collgath | collbcast => exact h.collective
  | msend => exact h.msend
  | mrecv => exact h.mrecv
  | pause | yieldTurn => exact h.retire.modMe
  | waita => exact h.waita
  | clave | clavev | claveg => exact h.clave
  | bara => exact h.execBara
  | barq => exact h.execBarq
  | barw | barwSs => exact h.barw
  | slpush => exact h.execSlpush
  | slpop => exact h.execSlpop
  | slfree => exact h.execSlfree
  | slpeek => exact h.execSlpeek
  | strike => exact h.strike
  | migr => exact h.migr
  | csrr | csrw | csrs | csrc =>
    unfold Machine.exec
    exact h.csrOp
  | scall => exact h.trapOut
  | brk => exact h.execBrk
  | threadDone => exact h.done
  | eret => exact h.execEret
  | halt => exact h.execHalt
  | tlbinv => exact h.execTlbinv
  | mark => exact h.mark
  | evDeferredTrapTake => exact h.execEvDeferredTrapTake
  | evFirmwarePageValidate => exact h.execEvFirmwarePageValidate
  | evServicedFaultRestart => exact h.execEvServicedFaultRestart
  | evWaitaMonitorMatch => exact h.monitor
  | evWaitTimeout => exact h.expire
  | evVerWait | evVerFull => exact h.verExpire
  | evBarStall => exact h.barStall
  | evClaveTimeout => exact h.claveExpire
  | evSlDown => exact h.slExpire
  | evSlEntryArrive => exact h.slEntry
  | evSlCreditArrive => exact h.slCredit
  | evPauseIntervalEnd => exact h.pauseEnd
  | evMqTmmaExecute | evMqTaccoutExecute | evMqTaccaddExecute | evMqTzeroExecute | evMqTacczExecute | evMqTxchExecute | evMqTcvtExecute
    => exact h.mqTurn
  | evCeGranuleTransfer => exact h.copyTurn
  | evCollectiveExecute => exact h.collTurn
  | evBindcmdRead => exact h.bindRead
  | evBindcmdWrite => exact h.bindWrite
  | evBindZeroingDone => exact h.bindZeroed
  | evBindcmdGo => exact h.bindGo
  | evBindcmdStop => exact h.bindStop
  | evThreadStop => exact h.threadStop
  | evGangStopSaveComplete => exact h.stopComplete
  | evTaskBind => exact h.taskBind
  | evPriorityAging => exact h.age
  | evQuantumPreempt => exact h.preempt
  | evLaunch | evSignal | evWaitq | evControl | evCapstart | evCapstop => exact h.packetTurn
  | evWaitqSatisfied => exact h.waitqAgain
  | evWaitqTimeout => exact h.waitqLate
  | evQueueNotify => exact h.ring
  | evQifEnableWrite | evS2inv => exact h.blockWrite
  | evQifReset | evInvreq | evDbgresume | evDbgstop | evFresp => exact h.pageWrite
  | evQifResetComplete => exact h.execEvQifResetComplete
  | evRestart => exact h.execEvRestart
  | evCheadWrite => exact h.execEvCheadWrite
  | evFaultRingWrite => exact h.execEvFaultRingWrite
  | evFileFaultWaitLimit => exact h.execEvFileFaultWaitLimit
  | evTenantTableWrite => exact h.execEvTenantTableWrite
  | evMsisend => exact h.execEvMsisend
  | evAttbuf | evVminsel => exact h.hostWrite
  | evAttestationDone => exact h.attest
  | evVmintimeRead => exact h.vminRead
  | evRecoveryLoad | evRecoveryLoadFlash => exact h.loadEnd
  | evRegisterWrite => exact h.registerWrite
  | evHostCxlAccess => exact h.hostCxl
  | evBridgeLinkUp => exact h.linkUp
  | evBridgeFlitReceive => exact h.flitIn
  | evBridgeRetrain => exact h.retrain
  | evBridgePortDown => exact h.portDown
  | evBridgeSlackDecision => exact h.slackStep
  | evWcFlush => exact h.flushGranule
  | evLmBoundaryTick => exact h.execEvLmBoundaryTick
  | evQuadrantIdleDown => exact h.quadDown
  | evQuadrantRaise => exact h.execEvQuadrantRaise
  | evBindWakeRequest => exact h.bindWake
  | evWakeComplete => exact h.wakeComplete
  | evStrikerRecordDelivery => exact h.strikerTurn
  | evTaborModeSwitch => exact h.taborSwitch
  | evLpddr6SelfRefreshEntry => exact h.selfRefresh
  | evCoreC1Entry => exact h.coreC1
  | evCoreC2Entry => exact h.coreC2
  | evDomainSwitchOn => exact h.switchOn
  | evSwitchOnNeighbourTimeout => exact h.switchLate
  | evSwitchOnRampComplete => exact h.rampDone
  | evCoolingReport => exact h.cool
  | evCoolingSensorTimeout => exact h.execEvCoolingSensorTimeout
  | evTallowUpdate => exact h.tallow
  | evHbmTempThreshold => exact h.hbmReading
  | evHbmThermalStep => exact h.hbmStep
  | evBellowsLimitStep => exact h.limitStep
  | evBellowsRaiseStep => exact h.raiseStep
  | evPowerEstimateTick => exact h.estimateTick
  | evPowerWeightRefit => exact h.refit
  | evClockRatioHandshake => exact h.handshake
  | evLadleMigration => exact h.ladle
  | evCeSummaryTick => exact h.ceSummary
  | evPatrolScrub => exact h.patrol
  | evPhaseFailure => exact h.phaseFails
  | evColdStart => exact h.coldStart
  | evWarmStart => exact h.warmStart
  | evRudimentHeldRelease => exact h.replayRelease
  | evReplayWaitExpiry => exact h.replayExpire
  | evDomainPowerGate => exact h.powerGate
  | evServiceWaitLimit => exact h.packetLate
  | evCpyvVersionWaitLimit => exact h.copyVerExpired
  | evMsixVectorUnmask => exact h.execEvMsixVectorUnmask
  | evAlwaysOnPowerLoss => exact h.powerLoss
  | evSupplyVoltageMinimum => exact h.vminReading

/-! ## Machine/Parity -/

theorem Safe.runParity {i} : SafeOut (s.runParity i) := by
  unfold State.runParity
  extract_lets bad
  split
  · exact h.parityAt
  · split
    · next e =>
      have hu := h.exec.next e
      exact .ite hu hu.healRegs
    · exact h.exec

theorem Safe.run {i} : SafeOut (s.run i) := .ite h.exec h.runParity

/-! ## Machine/Turn -/

theorem Safe.clockCore : Safe s.clockCore := by
  unfold State.clockCore
  extract_lets c _ s1
  have h1 : Safe s1 := .ite h.setQuad h
  exact .ite h1.modCore h1

theorem Safe.perform {d n lit} : SafeOut (s.perform d n lit) := by
  unfold State.perform
  split
  · exact h.trapOut
  · exact .ite h.trapOut h.run

theorem Safe.issue : SafeOut s.issue := by
  unfold State.issue
  extract_lets s1
  have h1 : Safe s1 := h.clockCore
  split
  · exact h1.failed
  · next e => exact (h1.fetch.ok e).perform

theorem Safe.sleepTurn : SafeOut s.sleepTurn := by
  unfold State.sleepTurn
  extract_lets s1 s2
  have h1 : Safe s1 := h.modMe
  have h2 : Safe s2 := h.monitor
  split
  · exact h1.issue
  · split
    · exact Safe.ite h2.expire h2
    · exact h.verExpire
    · exact h.verExpire
    · exact h.barStall
    · exact h.claveExpire
    · exact h.slExpire
    · exact h.slExpire
    · exact .ite h.replayExpire h1.issue
    · exact .ite h h1.issue
    · split
      · exact Safe.ite h h.endService
      · exact .ite h h1.issue
    · exact h1.issue
    · exact h1.issue

theorem Safe.pageTurn {w} : Safe (s.pageTurn w) := .ite h.trapOf h.pageExpired

theorem Safe.boundary : SafeOut s.boundary := by
  unfold State.boundary
  extract_lets
  split
  · exact h
  · split
    · exact h.stopThread
    · split
      · exact h
      · split
        · exact h.takeDeferred
        · split
          · exact h.pageTurn
          · exact .ite h.sleepTurn h.issue

theorem Safe.coreWork {c} : Safe (s.coreWork c) := by
  unfold State.coreWork
  extract_lets s1 s2 s3
  have h1 : Safe s1 := .ite h h.mxStep
  have h2 : Safe s2 := .ite h1 h1.slEntry
  have h3 : Safe s3 := .ite h2 h2.slCredit
  exact h3.over fun _ _ hu => hu.copyTurn

theorem Safe.tableWork {tid} : Safe (s.tableWork tid) := by
  unfold State.tableWork
  split
  · exact h.bindRead
  · exact h.bindWrite
  · exact h.bindGo
  · exact h.bindStop
  · exact h.bindZeroed
  · exact h

theorem Safe.collWork {g t} : Safe (s.collWork g t) := .ite h h.collTurn
theorem Safe.pageWork : Safe s.pageWork := h.over fun _ _ hu => hu.validatePage.restartPage

theorem Safe.engines : Safe s.engines := by
  unfold State.engines
  extract_lets s1 s2 s3
  have h1 : Safe s1 := h.over fun _ _ hu => hu.coreWork
  have h2 : Safe s2 := h1.over fun _ _ hu => hu.tableWork
  have h3 : Safe s3 := h2.over fun _ _ hu => hu.collWork
  exact h3.pageWork.retryEnds.dropWork

theorem Safe.decided {c} : Safe (s.decided c) := h.over fun _ _ hu => hu.modThr

theorem Safe.giveTurn {tid} : Safe (s.giveTurn tid) := by
  unfold State.giveTurn
  extract_lets other s1
  have h1 : Safe s1 := h.decided
  split
  · split
    · exact safe_mk h1
    · exact h
  · exact .ite (safe_mk h1) h

/-- Stated by its result: to elaborate a goal `SafeOut s.idle` would be to run the engines. -/
theorem Safe.idle {t} (e : s.idle = .next t) : Safe t := by
  unfold State.idle at e
  extract_lets s1 at e
  have h1 : Safe s1 := h.pass.engines
  clear_value s1
  split at e
  · exact h1.giveTurn.boundary.next e
  · cases e
    exact h1

theorem Safe.takeTurn {t} : SafeOut (s.takeTurn t) := by
  unfold State.takeTurn
  split
  · exact h.giveTurn.boundary
  · exact .ite h.exec h
  · exact h.pass
  · exact .ite h.modCore h
  · exact h.upset
  · exact h.correctedIn
  · exact h.upsetVer
  · exact h.shunts
  · exact h.hostWrite4
  · exact h.hostMemory

/-! ## Machine/Step -/

theorem Safe.step {t} (e : step s = .next t) : Safe t := by
  unfold Machine.step at e
  split at e
  · next turn rest _ =>
    have hrest : Safe { s with agenda := rest } := safe_mk h
    exact hrest.takeTurn.next e
  · split at e
    · cases e
    · exact h.idle e

end

end Sys2Proof
end

section
/-!
PROOFS. Every step keeps memory in its canonical form (O60).
-/
namespace Sys2Proof.Proofs

/-- Settles O60: each function of the machine that gives a state keeps the form, so a turn of the agenda and an idle step do. -/
theorem stepKeepsMemory : Obligations.StepKeepsMemory := by
  intro s t h e
  exact Safe.step h e

end Sys2Proof.Proofs
end

section
/-!
PROOFS. Versioned regions (spec/10): region records and their lists, what the operations of a versioned instruction leave of them and
of the threads, and how a versioned instruction reaches its granule (R237 to R244).
-/
namespace Sys2Proof.Proofs.Versions
open Sys2Proof.Machine Sys2Proof.Claims Sys2Proof.Proofs.Encoding Sys2Proof.Proofs.Integer Sys2Proof.Proofs.Matrix

/-! ## Sparse tables -/

/-- A value that is listed is changed; the default is one that the change keeps. -/
theorem get_mapVals {α : Type} {f : Nat → α → α} {d : α} {i : Nat} (hd : f i d = d) (m : SMap α) :
    (m.mapVals f).get d i = f i (m.get d i) := by
  induction m with
  | nil => exact hd.symm
  | cons p m ih =>
    obtain ⟨k, a⟩ := p
    change (if k = i then f k a else (SMap.mapVals f m).get d i) = f i (if k = i then a else SMap.get d m i)
    split
    · next h => rw [h]
    · exact ih

theorem get_drop_same {α : Type} (d : α) (m : SMap α) (i : Nat) : (m.drop i).get d i = d := by
  induction m with
  | nil => rfl
  | cons p m ih =>
    obtain ⟨k, a⟩ := p
    by_cases h : k = i
    · simpa [SMap.drop, h] using ih
    · simpa [SMap.drop, SMap.get, h] using ih

/-! ## Region records -/

section
variable (s : State) (rk : Nat) (r : Region)

@[simp] theorem region_setRegion : (s.setRegion rk r).region rk = r := SMap.get_set_same _ _ _ _

theorem region_setRegion_other {q : Nat} (h : q ≠ rk) : (s.setRegion rk r).region q = s.region q := SMap.get_set_other _ _ _ h

@[simp] theorem gran_setRegion (off : Nat) (va : Word) : (s.setRegion rk r).gran ⟨rk, off, va⟩ = r.grans.get GranList.init off := by
  rw [State.gran, region_setRegion]

end

@[simp] theorem gran_setGran (s : State) (p : VPlace) (g : GranList) : (s.setGran p g).gran p = g := by
  rw [State.gran, State.setGran, region_setRegion]
  exact SMap.get_set_same _ _ _ _

/-- Nothing but the regions differs. -/
def RegionsOnly (s t : State) : Prop := ∃ r, t = { s with regions := r }

/-- No floor, no list and no loss differs: the first part of `SameVersions`. -/
def SameLists (s t : State) : Prop :=
  ∀ q : VPlace, (t.region q.rk).floor = (s.region q.rk).floor ∧ t.gran q = s.gran q ∧ t.verLost q = s.verLost q

theorem SameLists.trans {s t u : State} (h : SameLists s t) (h' : SameLists t u) : SameLists s u := fun q => by
  obtain ⟨hf, hg, hl⟩ := h q
  obtain ⟨hf', hg', hl'⟩ := h' q
  exact ⟨hf'.trans hf, hg'.trans hg, hl'.trans hl⟩

theorem sameLists_of_eq {s t : State} (hr : t.regions = s.regions) (hp : t.power = s.power) : SameLists s t := fun q => by
  simp [State.region, State.gran, State.verLost, State.islandDark, State.domain, hr, hp]

theorem islandDark_of_eq {s t : State} (hp : t.power = s.power) (p : VPlace) : t.islandDark p = s.islandDark p := by
  simp [State.islandDark, State.domain, hp]

/-- A record put with the floor, the lists and the loss of the one before changes none of them. -/
theorem sameLists_setRegion {s : State} {rk : Nat} {r : Region} (hf : r.floor = (s.region rk).floor) (hg : r.grans = (s.region rk).grans)
    (hl : r.lost = (s.region rk).lost) : SameLists s (s.setRegion rk r) := fun q => by
  have hdark : (s.setRegion rk r).islandDark q = s.islandDark q := rfl
  by_cases h : q.rk = rk
  · simp [State.gran, State.verLost, hdark, h, hf, hg, hl]
  · simp [State.gran, State.verLost, hdark, region_setRegion_other s rk r h]

section
variable {s t u : State}

theorem regionsOnly_setRegion (s : State) (rk : Nat) (r : Region) : RegionsOnly s (s.setRegion rk r) := ⟨_, rfl⟩

theorem RegionsOnly.refl (s : State) : RegionsOnly s s := ⟨s.regions, rfl⟩

theorem RegionsOnly.trans (h : RegionsOnly s t) (h' : RegionsOnly t u) : RegionsOnly s u := by
  obtain ⟨r, rfl⟩ := h
  obtain ⟨r', rfl⟩ := h'
  exact ⟨r', rfl⟩

theorem regionsOnly_ite {p : Prop} [Decidable p] (h : RegionsOnly s t) (h' : RegionsOnly s u) : RegionsOnly s (if p then t else u) := by
  split
  · exact h
  · exact h'

theorem RegionsOnly.keepsThreads (h : RegionsOnly s t) : KeepsThreads s t := by
  obtain ⟨r, rfl⟩ := h
  exact keepsThreads_of_eq rfl rfl

theorem RegionsOnly.mem (h : RegionsOnly s t) : t.mem = s.mem := by
  obtain ⟨r, rfl⟩ := h
  rfl

theorem RegionsOnly.power (h : RegionsOnly s t) : t.power = s.power := by
  obtain ⟨r, rfl⟩ := h
  rfl

end

/-! ## The operations around a versioned event -/

/-- A region that gets its record keeps its floor and its lists. -/
theorem needRecord_some {s t : State} {rk : Nat} (h : s.needRecord rk = some t) : RegionsOnly s t ∧ SameLists s t := by
  have hput (b : Bool) : SameLists s (s.setRegion rk { s.region rk with hasRecord := true, spilled := b }) := sameLists_setRegion rfl rfl rfl
  unfold State.needRecord at h
  dsimp only at h
  split at h
  · cases h
    exact ⟨.refl s, sameLists_of_eq rfl rfl⟩
  · split at h
    · cases h
      exact ⟨regionsOnly_setRegion _ _ _, hput _⟩
    · obtain ⟨b, -, rfl⟩ := Option.map_eq_some_iff.mp h
      exact ⟨regionsOnly_setRegion _ _ _, hput b⟩

theorem regionsOnly_setTag (s : State) (w : Who) (p : VPlace) : RegionsOnly s (s.setTag w p) := by
  unfold State.setTag
  split
  · exact regionsOnly_setRegion _ _ _
  · exact .refl s

/-- The tag is all that a first use of the island block changes, and no other region is touched (R241). -/
theorem sameVersions_setTag (s : State) (w : Who) (p : VPlace) : SameVersions s (s.setTag w p) p := by
  unfold State.setTag
  split
  · next h => exact ⟨sameLists_setRegion rfl rfl rfl, fun hp => absurd h.1 hp⟩
  · exact ⟨sameLists_of_eq rfl rfl, fun _ => rfl⟩

theorem regionsOnly_fetchEntries (s : State) (p : VPlace) : RegionsOnly s (s.fetchEntries p) :=
  (regionsOnly_ite (regionsOnly_setRegion s _ _) (.refl s)).trans (regionsOnly_ite (.refl _) (regionsOnly_setRegion _ _ _))

/-! ## Write-combined data that a release lets leave -/

/-- A flush changes memory, the bad words that it covers, the touched steps of an LM and the buffer. -/
theorem flushWc_rest (s : State) (tid : Nat) : ∃ m b c w, s.flushWc tid = { s with mem := m, bad := b, cores := c, wc := w } := by
  rw [flushWc_eq]
  refine over_induction (P := fun u => ∃ m b c w, u = { s with mem := m, bad := b, cores := c, wc := w }) ⟨s.mem, _, s.cores, _, rfl⟩
    fun e _ u hu => ?_
  obtain ⟨m, b, c, w, rfl⟩ := hu
  obtain ⟨c', h⟩ := poke_eq { s with mem := m, bad := b, cores := c, wc := w } e.2.1 [e.2.2.1]
  exact ⟨_, _, c', w, h⟩

theorem release_eq (s : State) (os : Os) : s.release os = Released s os := by cases os <;> rfl

theorem released_rest (s : State) (os : Os) : ∃ m b c w, Released s os = { s with mem := m, bad := b, cores := c, wc := w } := by
  cases os with
  | rlx | acq => exact ⟨s.mem, s.bad, s.cores, s.wc, rfl⟩
  | rel | ar => exact flushWc_rest s s.cur

theorem released_power (s : State) (os : Os) : (Released s os).power = s.power := by
  obtain ⟨m, b, c, w, h⟩ := released_rest s os
  rw [h]

theorem released_cur (s : State) (os : Os) : (Released s os).cur = s.cur := by
  obtain ⟨m, b, c, w, h⟩ := released_rest s os
  rw [h]

theorem keepsThreads_released (s : State) (os : Os) : KeepsThreads s (Released s os) := by
  obtain ⟨m, b, c, w, h⟩ := released_rest s os
  rw [h]
  exact keepsThreads_of_eq rfl rfl

theorem sameLists_released (s : State) (os : Os) : SameLists s (Released s os) := by
  obtain ⟨m, b, c, w, h⟩ := released_rest s os
  rw [h]
  exact sameLists_of_eq rfl rfl

/-! ## Sleepers that there are none of -/

section
variable {s u : State} (h : KeepsThreads s u)
include h

theorem wait_of_keepsThreads (j : Nat) : (u.thr j).wait = (s.thr j).wait := by
  by_cases hj : j = s.cur
  · obtain ⟨c, hc⟩ := h.me
    rw [State.me, h.cur] at hc
    rw [hj, hc, State.me]
  · rw [h.others j hj]

theorem noRoomWait_of_keepsThreads (hs : NoRoomWait s) : NoRoomWait u := fun j w hw => hs j w ((wait_of_keepsThreads h j).symm.trans hw)

theorem calm_of_keepsThreads (hs : Calm s) : Calm u := fun j => (wait_of_keepsThreads h j).trans (hs j)

end

theorem noRoomWait_of_calm {s : State} (h : Calm s) : NoRoomWait s := fun j w hw => absurd (hw.symm.trans (h j)) (Option.some_ne_none w)

theorem settleLoads_calm {s : State} (h : Calm s) (at_ : Nat → Bool) : s.settleLoads at_ = s := over_self fun j => by simp only [h j]

theorem settleGran_calm {s : State} (h : Calm s) (p : VPlace) (freed : Bool) : s.settleGran p freed = s := by
  unfold State.settleGran
  dsimp only
  rw [settleLoads_calm h, settleStores_calm (noRoomWait_of_calm h)]
  exact ite_self s

/-! ## Reaching a granule -/

theorem keepsThreads_touchCore (s : State) (c : Nat) : KeepsThreads s (s.touchCore c) := by
  unfold State.touchCore
  exact keepsThreads_ite (keepsThreads_of_eq rfl rfl) (.refl s)

theorem keepsThreads_fetchGran {s : State} (h : NoRoomWait s) (p : VPlace) : KeepsThreads s (s.fetchGran p) := by
  have hfetch := (regionsOnly_fetchEntries s p).keepsThreads
  unfold State.fetchGran
  rw [settleStores_calm (noRoomWait_of_keepsThreads hfetch h)]
  exact keepsThreads_ite hfetch (.refl s)

/-- Where no store waits for room, a versioned access that is admitted leaves the threads as they were. -/
theorem keepsThreads_versionAt {s u : State} {acc : Acc} {g : Word} {p : VPlace} (hs : NoRoomWait s)
    (h : s.versionAt s.meWho acc g = .ok (u, p)) : KeepsThreads s u := by
  unfold State.versionAt at h
  split at h
  · cases h
  · next ad _ =>
    split at h
    · split at h
      · cases h
      · cases h
        exact keepsThreads_touchCore s _
    · split at h
      · cases h
      · cases h
        have hadmit := keepsThreads_admitAccess s ad
        exact hadmit.trans (keepsThreads_fetchGran (noRoomWait_of_keepsThreads hadmit hs) _)

theorem ver_of_keepsThreads {s u : State} (h : KeepsThreads s u) (r : XReg) : u.ver r = verOf s r := by
  obtain ⟨hx, -⟩ := h.quiet
  rw [State.ver, verOf, hx]

theorem getV_of_keepsThreads {s u : State} (h : KeepsThreads s u) (r : VReg) : u.getV r = s.getV r := h.quiet.2.1 r

/-! ## Retiring and trapping behind an access -/

section
variable {s u t : State} (h : KeepsThreads s u)
include h

theorem nextPc_of_keepsThreads (n : Nat) : nextPc u n = nextPc s n := by rw [nextPc, nextPc, h.pc]

/-- The event counters apart, an instruction that retires behind an access retires from the state before it. -/
theorem stepped_of_keepsThreads {n : Nat} (ht : Stepped u t (nextPc u n)) : Stepped s t (nextPc s n) := by
  rw [nextPc_of_keepsThreads h] at ht
  have hcur := h.cur
  obtain ⟨c, hc⟩ := h.me
  obtain ⟨hpc, hret, hawake, hstatus, htrap, hcsrs, hspace, hcur'⟩ := ht
  simp only [hc] at hret hstatus htrap hcsrs hspace
  exact ⟨hpc, hret, hawake, hstatus, htrap, hcsrs, hspace, hcur'.trans hcur⟩

theorem verDone_retire : VerDone s (u.retire 4) ∧ SameX s (u.retire 4) := by
  obtain ⟨hx, hv, hm, hf⟩ := quiet_retire h 4
  exact ⟨⟨stepped_retire h 4, hv, hm, hf, fun j hj => others_retire h 4 hj⟩, hx⟩

theorem verDone_setX (d : XReg) (w : Word) : VerDone s ((u.setX d w).retire 4) ∧ OnlyX s ((u.setX d w).retire 4) d w := by
  obtain ⟨t, ht, hretired, hx, hv, hm, hf⟩ := writesX_putX u d w 4
  obtain ⟨hx', hv', hm', hf'⟩ := h.quiet
  cases ht
  refine ⟨⟨stepped_of_keepsThreads h hretired.toStepped, fun r => (hv r).trans (hv' r), fun r => (hm r).trans (hm' r),
    ⟨hf.1.trans hf'.1, hf.2.trans hf'.2⟩, fun j hj => ?_⟩, fun r => by rw [hx, hx']⟩
  rw [hretired.others j (by rwa [h.cur]), h.others j hj]

end

/-- The instruction's own wait is over, and there was no other. -/
theorem calm_of_verDone {s t : State} (hs : Calm s) (h : VerDone s t) : Calm t := fun j => by
  obtain ⟨hstep, -, -, -, hothers⟩ := h
  by_cases hj : j = s.cur
  · rw [hj, ← hstep.cur]
    exact hstep.awake.2
  · rw [hothers j hj, hs j]

/-- A lost list traps with its error record (R249, Table 22-4). -/
theorem verTrap_lost (s : State) (p : VPlace) :
    s.verTrap p Cause.verLost = (s.logConsumed s.cur (regionBase p.rk + p.off) 0x15).trapOut 0x15 p.va := by
  unfold State.verTrap
  rw [if_pos rfl, Cause.verLost]

theorem lostAt_verTrap {s u : State} (hcur : u.cur = s.cur) (p : VPlace) : LostAt s u p (u.verTrap p Cause.verLost) := by
  rw [verTrap_lost, hcur]
  exact fun hz => traps_trapOut hz _ _

theorem verTrap_eq {s : State} {c : Nat} (h : c ≠ Cause.verLost) (p : VPlace) : s.verTrap p c = s.trapOut c p.va := by
  unfold State.verTrap
  rw [if_neg h]

end Sys2Proof.Proofs.Versions
end

section
/-!
PROOFS. VERST, VERFLOOR and VERDROP (spec/10, R247, R249, R254, R256, R257; O36).
-/
namespace Sys2Proof.Proofs.Versions
open Sys2Proof.Machine Sys2Proof.Claims Sys2Proof.Proofs.Encoding Sys2Proof.Proofs.Integer Sys2Proof.Proofs.Matrix

/-! ## Reclamation and slots -/

/-- What stays under a floor: the versions at or above it, or else the greatest of all (R247). -/
theorem mem_reclaim (n : Nat) (l : List (Nat × Nat)) (e : Nat × Nat) :
    e ∈ reclaim n l ↔ e ∈ l ∧ (n ≤ e.1 ∨ ∀ x ∈ l, x.1 < n ∧ x.1 ≤ e.1) := by
  unfold reclaim
  dsimp only
  split
  · next h =>
    have hlow : ∀ x ∈ l, x.1 < n := by simpa [List.filter_eq_nil_iff] using h
    simp only [List.mem_filter, List.all_eq_true, decide_eq_true_eq]
    refine and_congr_right fun he => ⟨fun hmax => .inr fun x hx => ⟨hlow x hx, hmax x hx⟩, fun hor x hx => ?_⟩
    rcases hor with hge | hmax
    · exact absurd (hlow e he) (by omega)
    · exact (hmax x hx).2
  · next h =>
    obtain ⟨x, hx, hge⟩ : ∃ x ∈ l, n ≤ x.1 := by simpa [List.filter_eq_nil_iff] using h
    simp only [List.mem_filter, decide_eq_true_eq]
    refine and_congr_right fun _ => ⟨.inl, fun hor => hor.resolve_right fun hmax => ?_⟩
    exact absurd (hmax x hx).1 (by omega)

/-- Of eight slots a list of fewer than eight versions leaves one free. -/
theorem exists_free_slot {l : List (Nat × Nat)} (h : l.length < 8) : ∃ i < 8, ∀ e ∈ l, e.2 ≠ i := by
  by_contra hall
  push Not at hall
  have hsub : List.range 8 ⊆ l.map Prod.snd := fun i hi => List.mem_map.mpr (hall i (List.mem_range.mp hi))
  have hlen := (List.subperm_of_subset List.nodup_range hsub).length_le
  rw [List.length_range, List.length_map] at hlen
  omega

theorem freeSlotOf_spec {l : List (Nat × Nat)} (h : l.length < 8) :
    freeSlotOf l < 8 ∧ (∀ e ∈ l, e.2 ≠ freeSlotOf l) ∧ ∀ k, k < freeSlotOf l → ∃ e ∈ l, e.2 = k := by
  unfold freeSlotOf
  rw [Vector.countFrom_zero]
  cases hfind : (List.range 8).find? fun i => !l.any fun e => e.2 == i with
  | none =>
    obtain ⟨i, hi, hfree⟩ := exists_free_slot h
    have hused := List.find?_eq_none.mp hfind i (List.mem_range.mpr hi)
    simp only [Bool.not_eq_true', Bool.not_eq_false, List.any_eq_true, beq_iff_eq] at hused
    obtain ⟨e, he, rfl⟩ := hused
    exact absurd rfl (hfree e he)
  | some i =>
    obtain ⟨hfree, hi, hbelow⟩ := List.find?_range_eq_some.mp hfind
    refine ⟨List.mem_range.mp hi, by simpa using hfree, fun k hk => by simpa using hbelow k hk⟩

/-! ## The bytes of a version -/

theorem getD_constZero {k j : Nat} (h : isLm (k + j) = false) (bs : List Byte) : (constZero k bs).getD j 0 = bs.getD j 0 := by
  induction bs generalizing k j with
  | nil => rfl
  | cons b bs ih =>
    cases j with
    | zero => simp [constZero, show isLm k = false from h]
    | succ j => exact ih (by rwa [Nat.add_assoc, Nat.add_comm 1])

theorem vecBytes_length (v : Vec) : (vecBytes v).length = 64 := bytesOf_length 64 _

theorem toNat_vecBytes (v : Vec) {j : Nat} (hj : j < 64) : ((vecBytes v).getD j 0).toNat = L v 8 j := by
  rw [vecBytes, bytesOf_getD hj, BitVec.toNat_ofNat, L, Nat.pow_mul]

/-! ## Creating a version and raising a floor -/

/-- A list put and the bytes of a version written change nothing of the threads and of the region's floor. -/
theorem put_version (s : State) (p : VPlace) (g : GranList) (k : Nat) (data : List Byte) :
    KeepsThreads s ((s.setGran p g).poke k data) ∧ (((s.setGran p g).poke k data).region p.rk).floor = (s.region p.rk).floor ∧
      ((s.setGran p g).poke k data).gran p = g ∧ ((s.setGran p g).poke k data).mem = s.mem.putBytes k (constZero k data) := by
  have hput : RegionsOnly s (s.setGran p g) := regionsOnly_setRegion _ _ _
  obtain ⟨c, hpoke⟩ := poke_eq (s.setGran p g) k data
  have hlists : SameLists (s.setGran p g) ((s.setGran p g).poke k data) := by
    rw [hpoke]
    exact sameLists_of_eq rfl rfl
  obtain ⟨hfloor, hgran, -⟩ := hlists p
  refine ⟨hput.keepsThreads.trans (keepsThreads_poke _ _ _), ?_, by rw [hgran, gran_setGran], by rw [hpoke]; rfl⟩
  rw [hfloor, State.setGran, region_setRegion]

section
variable {s : State} {p : VPlace} {n : Nat} {data : List Byte}

theorem verCreate_lost (h : s.verLost p = true) : s.verCreate p n data = .cause Cause.verLost := by
  unfold State.verCreate
  exact if_pos h

theorem verCreate_stale (h : s.verLost p = false) (hn : n < (s.region p.rk).floor) : s.verCreate p n data = .cause Cause.verStale := by
  unfold State.verCreate
  dsimp only
  rw [h, if_neg Bool.false_ne_true, if_pos hn]

theorem verCreate_dup (h : s.verLost p = false) (hn : (s.region p.rk).floor ≤ n) (he : ∃ e ∈ (s.gran p).vers, e.1 = n) :
    s.verCreate p n data = .cause Cause.verDup := by
  have hany : (s.gran p).vers.any (fun e => e.1 == n) = true := by simpa using he
  unfold State.verCreate
  dsimp only
  rw [h, if_neg Bool.false_ne_true, if_neg (by omega), if_pos hany]

/-- A creation that need not wait takes the lowest free slot, and reclaims (R247, R254). -/
theorem verCreate_done (h : s.verLost p = false) (hn : (s.region p.rk).floor ≤ n) (hnew : ∀ e ∈ (s.gran p).vers, e.1 ≠ n)
    (hw : s.verCreate p n data ≠ .wait) :
    (s.gran p).vers.length < 8 ∧ ∃ t, s.verCreate p n data = .done t ∧ KeepsThreads s t ∧
      (t.region p.rk).floor = (s.region p.rk).floor ∧
      (t.gran p).vers = reclaim (s.region p.rk).floor ((s.gran p).vers ++ [(n, freeSlotOf (s.gran p).vers)]) ∧
      t.mem = s.mem.putBytes (p.slotKey (freeSlotOf (s.gran p).vers)) (constZero (p.slotKey (freeSlotOf (s.gran p).vers)) data) := by
  have hany : (s.gran p).vers.any (fun e => e.1 == n) = false := List.any_eq_false.mpr fun e he => by simp [hnew e he]
  unfold State.verCreate at hw ⊢
  dsimp only at hw ⊢
  rw [h, if_neg Bool.false_ne_true, if_neg (by omega), hany, if_neg Bool.false_ne_true] at hw ⊢
  split at hw
  · exact absurd rfl hw
  · next hroom =>
    rw [if_neg hroom]
    refine ⟨by omega, ?_⟩
    cases hr : s.needRecord p.rk with
    | none => simp [hr] at hw
    | some s' =>
      obtain ⟨hrest, hlists⟩ := needRecord_some hr
      obtain ⟨hfloor, -⟩ := hlists p
      cases he : s'.needEntry p with
      | none => simp [hr, he] at hw
      | some k =>
        obtain ⟨hkeeps, hfloor', hgran, hmem⟩ := put_version s' p
          (GranList.with (reclaim (s.region p.rk).floor ((s.gran p).vers ++ [(n, freeSlotOf (s.gran p).vers)])) k)
          (p.slotKey (freeSlotOf (s.gran p).vers)) data
        refine ⟨_, by simp only [he], hrest.keepsThreads.trans hkeeps, hfloor'.trans hfloor, by rw [hgran]; rfl, ?_⟩
        rw [hmem, hrest.mem]

theorem verRaise_lost (h : s.verLost p = true) : s.verRaise p n = .cause Cause.verLost := by
  unfold State.verRaise
  exact if_pos h

/-- A floor that is raised without a wait reclaims in every granule whose list is not lost (R247, R249, R256). -/
theorem verRaise_done (h : s.verLost p = false) (hw : s.verRaise p n ≠ .wait) :
    ∃ t, s.verRaise p n = .done t ∧ RegionsOnly s t ∧ (t.region p.rk).floor = max (s.region p.rk).floor n ∧
      ∀ off va e, s.verLost ⟨p.rk, off, va⟩ = false → (e ∈ (t.gran ⟨p.rk, off, va⟩).vers ↔ e ∈ (s.gran ⟨p.rk, off, va⟩).vers ∧
        (n ≤ (s.region p.rk).floor ∨ n ≤ e.1 ∨ ∀ x ∈ (s.gran ⟨p.rk, off, va⟩).vers, x.1 < n ∧ x.1 ≤ e.1)) := by
  unfold State.verRaise at hw ⊢
  dsimp only at hw ⊢
  rw [h, if_neg Bool.false_ne_true] at hw ⊢
  split at hw
  · next hle =>
    rw [if_pos hle]
    exact ⟨s, rfl, .refl s, by omega, fun off va e _ => (and_iff_left (.inl hle)).symm⟩
  · next hgt =>
    rw [if_neg hgt]
    cases hr : s.needRecord p.rk with
    | none => simp [hr] at hw
    | some s' =>
      obtain ⟨hrest, -⟩ := needRecord_some hr
      refine ⟨_, rfl, hrest.trans (regionsOnly_setRegion _ _ _), ?_, fun off va e hl => ?_⟩
      · rw [region_setRegion]
        dsimp only
        omega
      · have hgood : (s.gran ⟨p.rk, off, va⟩).lost = false := by
          simp only [State.verLost, Bool.or_eq_false_iff] at hl
          exact hl.1.2
        have hinit : (if GranList.init.lost then GranList.init else GranList.with (reclaim n GranList.init.vers) GranList.init.spilled) =
          GranList.init := rfl
        rw [gran_setRegion, get_mapVals hinit]
        change e ∈ (if (s.gran ⟨p.rk, off, va⟩).lost then s.gran ⟨p.rk, off, va⟩ else _).vers ↔ _
        rw [hgood, if_neg Bool.false_ne_true]
        refine (mem_reclaim n _ e).trans (and_congr_right fun _ => ?_)
        exact (or_iff_right hgt).symm

end

/-- An emptied region has floor 0 and no list, and nothing of it is lost (R257). -/
theorem region_verEmpty (s : State) (rk : Nat) : ∃ size tag, (s.verEmpty rk).region rk = { Region.init with size := size, tag := tag } := by
  unfold State.verEmpty
  split
  · exact ⟨_, _, region_setRegion _ _ _⟩
  · exact ⟨2 ^ regionSize rk, none, get_drop_same _ _ _⟩

theorem regionsOnly_verEmpty (s : State) (rk : Nat) : RegionsOnly s (s.verEmpty rk) :=
  regionsOnly_ite (regionsOnly_setRegion _ _ _) ⟨_, rfl⟩

theorem emptied_verEmpty {s : State} {p : VPlace} (h : s.islandDark p = false) :
    ((s.verEmpty p.rk).region p.rk).floor = 0 ∧ (s.verEmpty p.rk).verLost p = false ∧
      ∀ off va, ((s.verEmpty p.rk).gran ⟨p.rk, off, va⟩).vers = [] := by
  have hdark := islandDark_of_eq (regionsOnly_verEmpty s p.rk).power p
  obtain ⟨size, tag, hr⟩ := region_verEmpty s p.rk
  refine ⟨by rw [hr]; rfl, ?_, fun off va => by rw [State.gran, hr]; rfl⟩
  rw [State.verLost, State.gran, hr, hdark, h]
  rfl

/-! ## The instructions -/

section
variable {s u t : State} {p : VPlace} {v : VReg} {d xa xv : XReg} {os : Os} {c : Nat}
  (hu : s.versionAt s.meWho .write (s.getX xa) = .ok (u, p)) (hk : KeepsThreads s u)
include hu hk

theorem exec_verst_done (hc : (Released u os).verCreate p (verOf s xv) (vecBytes (s.getV v)) = .done t) : exec (.verst v xa xv os) s =
    .next (((t.setTag (Released u os).meWho p).retire 4).settleGran p ((Released u os).frees p)) := by
  have hz := hk.trans (keepsThreads_released u os)
  change execVerst v xa xv os s = _
  unfold execVerst
  simp only [hu, release_eq, ver_of_keepsThreads hz, getV_of_keepsThreads hz, hc]

theorem exec_verst_cause (hc : (Released u os).verCreate p (verOf s xv) (vecBytes (s.getV v)) = .cause c) :
    exec (.verst v xa xv os) s = (Released u os).verTrap p c := by
  have hz := hk.trans (keepsThreads_released u os)
  change execVerst v xa xv os s = _
  unfold execVerst
  simp only [hu, release_eq, ver_of_keepsThreads hz, getV_of_keepsThreads hz, hc]

theorem exec_verfloor_done (hc : (Released u os).verRaise p (verOf s xv) = .done t) : exec (.verfloor d xa xv os) s =
    .next (((((t.setTag (Released u os).meWho p).setX d (BitVec.ofNat 64 ((Released u os).region p.rk).floor)).retire 4).settleLoads
      fun k => k / 2 ^ 25 == p.rk).settleStores) := by
  have hz := hk.trans (keepsThreads_released u os)
  change execVerfloor d xa xv os s = _
  unfold execVerfloor
  simp only [hu, release_eq, ver_of_keepsThreads hz, hc]

theorem exec_verfloor_cause (hc : (Released u os).verRaise p (verOf s xv) = .cause c) :
    exec (.verfloor d xa xv os) s = (Released u os).verTrap p c := by
  have hz := hk.trans (keepsThreads_released u os)
  change execVerfloor d xa xv os s = _
  unfold execVerfloor
  simp only [hu, release_eq, ver_of_keepsThreads hz, hc]

omit hk in
theorem exec_verdrop_dark (h : u.islandDark p = true) : exec (.verdrop xa os) s = u.verTrap p Cause.verLost := by
  change execVerdrop xa os s = _
  unfold execVerdrop
  simp only [hu, h, if_true]

omit hk in
theorem exec_verdrop_lit (h : u.islandDark p = false) : exec (.verdrop xa os) s =
    .next (((((Released u os).verEmpty p.rk).setTag (Released u os).meWho p).retire 4).settleStores) := by
  change execVerdrop xa os s = _
  unfold execVerdrop
  simp only [hu, h, release_eq, Bool.false_eq_true, if_false]

/-- A version is created, and no sleeper is there to be decided. -/
theorem gives_verst (hs : Calm s) (hl : u.verLost p = false) (hn : (u.region p.rk).floor ≤ verOf s xv)
    (hnew : ∀ e ∈ (u.gran p).vers, e.1 ≠ verOf s xv) (hw : (Released u os).verCreate p (verOf s xv) (vecBytes (s.getV v)) ≠ .wait) :
    Gives (exec (.verst v xa xv os) s) fun t => VerDone s t ∧ SameX s t ∧
      ∃ i, i < 8 ∧ (∀ e ∈ (u.gran p).vers, e.2 ≠ i) ∧ (∀ k, k < i → ∃ e ∈ (u.gran p).vers, e.2 = k) ∧
        (∀ e, e ∈ (t.gran p).vers ↔ (e ∈ (u.gran p).vers ∨ e = (verOf s xv, i)) ∧ (u.region p.rk).floor ≤ e.1) ∧
        (t.region p.rk).floor = (u.region p.rk).floor ∧
        (∀ j, j < 64 → isLm (p.slotKey i + j) = false → (t.mem.get (p.slotKey i + j)).toNat = L (s.getV v) 8 j) ∧
        ∀ k, (k < p.slotKey i ∨ p.slotKey i + 64 ≤ k) → t.mem.get k = (Released u os).mem.get k := by
  obtain ⟨hfloor, hgran, hlost⟩ := sameLists_released u os p
  rw [← hfloor] at hn
  rw [← hgran] at hnew
  obtain ⟨hlen, t, hc, hkeeps, htfloor, htvers, htmem⟩ := verCreate_done (hlost.trans hl) hn hnew hw
  rw [hfloor] at htfloor hn
  rw [hgran] at hlen
  rw [hgran, hfloor] at htvers
  rw [hgran] at htmem
  have htag := regionsOnly_setTag t (Released u os).meWho p
  obtain ⟨hsame, -⟩ := sameVersions_setTag t (Released u os).meWho p
  have hall := ((hk.trans (keepsThreads_released u os)).trans hkeeps).trans htag.keepsThreads
  have hretire : SameLists t ((t.setTag (Released u os).meWho p).retire 4) := SameLists.trans hsame (sameLists_of_eq rfl rfl)
  obtain ⟨hrfloor, hrgran, -⟩ := hretire p
  obtain ⟨hdone, hx⟩ := verDone_retire hall
  obtain ⟨hslot, hfree, hbelow⟩ := freeSlotOf_spec hlen
  have hmem (k : Nat) : ((t.setTag (Released u os).meWho p).retire 4).mem.get k = t.mem.get k := by rw [State.retire_mem, htag.mem]
  have hsize : (constZero (p.slotKey (freeSlotOf (u.gran p).vers)) (vecBytes (s.getV v))).length = 64 := by
    rw [constZero_length, vecBytes_length]
  rw [exec_verst_done hu hk hc, settleGran_calm (calm_of_verDone hs hdone)]
  refine ⟨_, rfl, hdone, hx, freeSlotOf (u.gran p).vers, hslot, hfree, hbelow, fun e => ?_, hrfloor.trans htfloor, fun j hj hlm => ?_,
    fun k hkey => ?_⟩
  · rw [hrgran, htvers, mem_reclaim, List.mem_append, List.mem_singleton]
    refine and_congr_right fun _ => or_iff_left fun hmax => ?_
    have := (hmax (verOf s xv, _) (List.mem_append_right _ (List.mem_singleton.mpr rfl))).1
    exact absurd this (by dsimp only; omega)
  · rw [hmem, htmem, Memory.get_putBytes, if_pos (by omega), Nat.add_sub_cancel_left, getD_constZero hlm, toNat_vecBytes _ hj]
  · rw [hmem, htmem, Memory.get_putBytes_out (by rwa [hsize])]

/-- A floor is raised, and no sleeper is there to be decided. -/
theorem gives_verfloor (hs : Calm s) (hl : u.verLost p = false) (hw : (Released u os).verRaise p (verOf s xv) ≠ .wait) :
    Gives (exec (.verfloor d xa xv os) s) fun t => VerDone s t ∧ OnlyX s t d (low (u.region p.rk).floor) ∧
      (∀ k, t.mem.get k = (Released u os).mem.get k) ∧ (t.region p.rk).floor = max (u.region p.rk).floor (verOf s xv) ∧
      ∀ off e, u.verLost ⟨p.rk, off, p.va⟩ = false → (e ∈ (t.gran ⟨p.rk, off, p.va⟩).vers ↔
        e ∈ (u.gran ⟨p.rk, off, p.va⟩).vers ∧ (verOf s xv ≤ (u.region p.rk).floor ∨ verOf s xv ≤ e.1 ∨
          ∀ x ∈ (u.gran ⟨p.rk, off, p.va⟩).vers, x.1 < verOf s xv ∧ x.1 ≤ e.1)) := by
  have hz := sameLists_released u os
  obtain ⟨hfloor, -, hlost⟩ := hz p
  obtain ⟨t, hc, hrest, htfloor, htvers⟩ := verRaise_done (hlost.trans hl) hw
  have htag := hrest.trans (regionsOnly_setTag t (Released u os).meWho p)
  obtain ⟨hsame, -⟩ := sameVersions_setTag t (Released u os).meWho p
  have hall := (hk.trans (keepsThreads_released u os)).trans htag.keepsThreads
  obtain ⟨hdone, hx⟩ := verDone_setX hall d (BitVec.ofNat 64 (u.region p.rk).floor)
  have hcalm : Calm (((t.setTag (Released u os).meWho p).setX d (BitVec.ofNat 64 (u.region p.rk).floor)).retire 4) :=
    calm_of_verDone hs hdone
  have hlists : SameLists t (((t.setTag (Released u os).meWho p).setX d (BitVec.ofNat 64 (u.region p.rk).floor)).retire 4) :=
    SameLists.trans hsame (sameLists_of_eq (by simp) (by simp))
  rw [exec_verfloor_done hu hk hc, hfloor, settleLoads_calm hcalm, settleStores_calm (noRoomWait_of_calm hcalm)]
  refine ⟨_, rfl, hdone, by rwa [low_natCast], fun k => ?_, ?_, fun off e hoff => ?_⟩
  · rw [State.retire_mem, State.setX_mem, htag.mem]
  · rw [(hlists p).1, htfloor, hfloor]
  · obtain ⟨-, hgran, hl'⟩ := hz ⟨p.rk, off, p.va⟩
    rw [(hlists _).2.1, htvers off p.va e (hl'.trans hoff), hgran, hfloor]

/-- A region is emptied, and no store is there that waits for room. -/
theorem gives_verdrop (hs : Calm s) (hdark : u.islandDark p = false) :
    Gives (exec (.verdrop xa os) s) fun t => VerDone s t ∧ SameX s t ∧ (∀ k, t.mem.get k = (Released u os).mem.get k) ∧
      (t.region p.rk).floor = 0 ∧ t.verLost p = false ∧ ∀ off, (t.gran ⟨p.rk, off, p.va⟩).vers = [] := by
  have hempty := regionsOnly_verEmpty (Released u os) p.rk
  have htag := hempty.trans (regionsOnly_setTag _ (Released u os).meWho p)
  obtain ⟨hsame, -⟩ := sameVersions_setTag ((Released u os).verEmpty p.rk) (Released u os).meWho p
  have hlists := SameLists.trans hsame
    (sameLists_of_eq (t := (((Released u os).verEmpty p.rk).setTag (Released u os).meWho p).retire 4) rfl rfl)
  obtain ⟨hfloor, hlost, hvers⟩ := emptied_verEmpty ((islandDark_of_eq (released_power u os) p).trans hdark)
  obtain ⟨hdone, hx⟩ := verDone_retire ((hk.trans (keepsThreads_released u os)).trans htag.keepsThreads)
  rw [exec_verdrop_lit hu hdark, settleStores_calm (noRoomWait_of_calm (calm_of_verDone hs hdone))]
  refine ⟨_, rfl, hdone, hx, fun k => ?_, ?_, ?_, fun off => ?_⟩
  · rw [State.retire_mem, htag.mem]
  · rw [(hlists p).1, hfloor]
  · rw [(hlists p).2.2, hlost]
  · rw [(hlists _).2.1, hvers]

end

/-- Settles O36: the home unit's answers to a creation and to a raised floor, and an emptied region, with no sleeper to decide. -/
theorem versionStores : Obligations.VersionStores := by
  intro s u p v d xa xv os hu z vs n f r
  obtain ⟨hfloor, hgran, hlost⟩ : (z.region p.rk).floor = f ∧ z.gran p = u.gran p ∧ z.verLost p = u.verLost p := sameLists_released u os p
  refine ⟨fun hs hl => ?lost, fun hs hd => ?dark, fun hs hz hl => ⟨fun hn => ?stale, fun hn he => ?dup⟩, fun hs => ?calm⟩
  case lost =>
    have hk := keepsThreads_versionAt hs hu
    have hcur : z.cur = s.cur := (released_cur u os).trans hk.cur
    rw [exec_verst_cause hu hk (verCreate_lost (hlost.trans hl)), exec_verfloor_cause hu hk (verRaise_lost (hlost.trans hl))]
    exact ⟨lostAt_verTrap hcur p, lostAt_verTrap hcur p⟩
  case dark =>
    rw [exec_verdrop_dark hu hd]
    exact lostAt_verTrap (keepsThreads_versionAt hs hu).cur p
  case stale =>
    rw [exec_verst_cause hu (keepsThreads_versionAt hs hu) (verCreate_stale (hlost.trans hl) (by rwa [hfloor])), verTrap_eq (by decide)]
    exact traps_trapOut hz _ _
  case dup =>
    have hdup := verCreate_dup (data := vecBytes (s.getV v)) (hlost.trans hl) (hfloor.trans_le hn) (by rwa [hgran])
    rw [exec_verst_cause hu (keepsThreads_versionAt hs hu) hdup, verTrap_eq (by decide)]
    exact traps_trapOut hz _ _
  case calm =>
    have hk := keepsThreads_versionAt (noRoomWait_of_calm hs) hu
    exact ⟨fun hl hn hnew hw => gives_verst hu hk hs hl hn hnew hw, fun hl hw => gives_verfloor hu hk hs hl hw,
      fun hd => gives_verdrop hu hk hs hd⟩

end Sys2Proof.Proofs.Versions
end

section
/-!
PROOFS. Table 10-2 as the model decides it, and the state of a thread that takes a version (spec/10, R248, R254).
-/
namespace Sys2Proof.Proofs.Versions
open Sys2Proof.Machine Sys2Proof.Claims Sys2Proof.Proofs.Encoding Sys2Proof.Proofs.Integer Sys2Proof.Proofs.Matrix

/-! ## Table 10-2 -/

/-- In a list that holds no version twice, the number tells the entry. -/
theorem entry_unique {l : List (Nat × Nat)} (hnd : (l.map Prod.fst).Nodup) {x e : Nat × Nat} (hx : x ∈ l) (he : e ∈ l) (h : x.1 = e.1) :
    x = e := List.inj_on_of_nodup_map hnd hx he h

/-- The outcome where no version is found. -/
def verNone (floor v : Nat) : VerGive := if v < floor then .missing else .notYet

section
variable {l : List (Nat × Nat)} {e : Nat × Nat} {floor v : Nat}

theorem find_none (h : ∀ x ∈ l, x.1 ≠ v) : l.find? (fun x => x.1 == v) = none := List.find?_eq_none.mpr fun x hx => by simp [h x hx]

theorem verFind_named (hnd : (l.map Prod.fst).Nodup) (he : e ∈ l) (h : e.1 = v) (le : Bool) : verFind le l floor v = .give e.1 e.2 := by
  unfold verFind
  cases hfind : l.find? fun x => x.1 == v with
  | none => exact absurd h (by simpa using List.find?_eq_none.mp hfind e he)
  | some x =>
    have hx : x.1 = v := by simpa using List.find?_some hfind
    rw [entry_unique hnd (List.mem_of_find?_eq_some hfind) he (hx.trans h.symm)]

/-- Of the versions of a list this is the greatest at or below `v`; none where every version is above. -/
def GreatestAtOrBelow (l : List (Nat × Nat)) (v : Nat) : Option (Nat × Nat) → Prop
  | none => ∀ x ∈ l, v < x.1
  | some b => b ∈ l ∧ b.1 ≤ v ∧ ∀ x ∈ l, x.1 ≤ v → x.1 ≤ b.1

theorem greatest_atOrBelow (l : List (Nat × Nat)) (v : Nat) : GreatestAtOrBelow l v (atOrBelow l v) := by
  induction l using List.reverseRecOn with
  | nil => exact fun x hx => absurd hx List.not_mem_nil
  | append_singleton l e ih =>
    unfold atOrBelow at ih ⊢
    rw [List.foldl_concat]
    generalize List.foldl _ none l = a at ih ⊢
    cases a with
    | none =>
      by_cases h : e.1 ≤ v
      · simp only [h, decide_true, Bool.and_self, if_true]
        refine ⟨List.mem_append_right l List.mem_cons_self, h, fun x hx hle => ?_⟩
        rcases List.mem_append.mp hx with hx | hx
        · exact absurd (ih x hx) (by omega)
        · rw [List.mem_singleton.mp hx]
      · simp only [h, decide_false, Bool.false_and, Bool.false_eq_true, if_false]
        intro x hx
        rcases List.mem_append.mp hx with hx | hx
        · exact ih x hx
        · rw [List.mem_singleton.mp hx]
          omega
    | some b =>
      obtain ⟨hb, hbv, hmax⟩ := ih
      by_cases h : e.1 ≤ v ∧ b.1 < e.1
      · simp only [h, decide_true, Bool.and_self, if_true]
        refine ⟨List.mem_append_right l List.mem_cons_self, h.1, fun x hx hle => ?_⟩
        rcases List.mem_append.mp hx with hx | hx
        · have := hmax x hx hle
          omega
        · rw [List.mem_singleton.mp hx]
      · simp only [← Bool.decide_and, h, decide_false, Bool.false_eq_true, if_false]
        refine ⟨List.mem_append_left _ hb, hbv, fun x hx hle => ?_⟩
        rcases List.mem_append.mp hx with hx | hx
        · exact hmax x hx hle
        · rw [List.mem_singleton.mp hx] at hle ⊢
          omega

theorem verFind_greatest (hnd : (l.map Prod.fst).Nodup) (he : e ∈ l) (h : e.1 ≤ v) (hmax : ∀ x ∈ l, x.1 ≤ v → x.1 ≤ e.1) :
    verFind true l floor v = .give e.1 e.2 := by
  rcases Nat.eq_or_lt_of_le h with heq | hlt
  · exact verFind_named hnd he heq true
  · have hnone : ∀ x ∈ l, x.1 ≠ v := fun x hx hv => by
      have := hmax x hx hv.le
      omega
    have hgreatest := greatest_atOrBelow l v
    unfold verFind
    rw [find_none hnone]
    dsimp only
    rw [if_pos rfl]
    cases hfind : atOrBelow l v with
    | none =>
      rw [hfind] at hgreatest
      exact absurd (hgreatest e he) (by omega)
    | some b =>
      rw [hfind] at hgreatest
      obtain ⟨hb, hbv, hbmax⟩ := hgreatest
      rw [entry_unique hnd hb he (Nat.le_antisymm (hmax b hb hbv) (hbmax e he h))]

theorem verFind_absent (h : ∀ x ∈ l, x.1 ≠ v) : verFind false l floor v = verNone floor v := by
  unfold verFind
  rw [find_none h]
  rfl

theorem verFind_above (h : ∀ x ∈ l, v < x.1) : verFind true l floor v = verNone floor v := by
  have hgreatest := greatest_atOrBelow l v
  unfold verFind
  rw [find_none fun x hx => (h x hx).ne']
  dsimp only
  rw [if_pos rfl]
  cases hfind : atOrBelow l v with
  | none => rfl
  | some b =>
    rw [hfind] at hgreatest
    exact absurd (h b hgreatest.1) (by have := hgreatest.2.1; omega)

end

/-! ## A load that retires -/

/-- A register file with one register replaced. -/
theorem get_vset {α : Type} {n : Nat} [NeZero n] (v : Vector α n) (i r : Fin n) (a : α) :
    (vset v i.val a).get r = if r = i then a else v.get r := by
  have hset : vset v i.val a = v.set i.val a i.isLt := by simp [vset]
  rw [hset]
  split
  · next h =>
    subst h
    exact vecGet_set_same _ _ _
  · next h => exact vecGet_set_other _ _ h

/-- The state after a load of the turn's thread that takes version `k`, whose bytes are `data`. -/
def taken (u : State) (p : VPlace) (le : Bool) (vd : VReg) (xv : XReg) (data : Vec) (k : Nat) : State :=
  ((u.setTag (u.threadWho u.cur) p).modThr u.cur fun t => t.takeVersion le vd.val xv.val data k).healRegs u.cur
    (vregWords vd.val ++ if le then xregWords xv.val else [])

section
variable {u : State} {p : VPlace} {le : Bool} {vd : VReg} {xv : XReg} {data : Vec} {k : Nat}

/-- Beside the tag, words that are good again are all that changes outside the thread. -/
theorem taken_rest (u : State) (p : VPlace) (le : Bool) (vd : VReg) (xv : XReg) (data : Vec) (k : Nat) : ∃ b r, taken u p le vd xv data k =
    { u.modMe (fun t => t.takeVersion le vd.val xv.val data k) with bad := b, regions := r } ∧
      (u.setTag (u.threadWho u.cur) p).regions = r := by
  obtain ⟨r, h⟩ := regionsOnly_setTag u (u.threadWho u.cur) p
  unfold taken State.healRegs
  rw [h]
  split
  · exact ⟨_, r, rfl, rfl⟩
  · exact ⟨_, r, rfl, rfl⟩

theorem me_taken : (taken u p le vd xv data k).me = u.me.takeVersion le vd.val xv.val data k := by
  obtain ⟨b, r, h, -⟩ := taken_rest u p le vd xv data k
  rw [h]
  exact State.me_modMe u fun t => t.takeVersion le vd.val xv.val data k

theorem taken_cur : (taken u p le vd xv data k).cur = u.cur := by
  obtain ⟨b, r, h, -⟩ := taken_rest u p le vd xv data k
  rw [h]
  rfl

theorem taken_mem : (taken u p le vd xv data k).mem = u.mem := by
  obtain ⟨b, r, h, -⟩ := taken_rest u p le vd xv data k
  rw [h]
  rfl

theorem thr_taken_other {j : Nat} (hj : j ≠ u.cur) : (taken u p le vd xv data k).thr j = u.thr j := by
  obtain ⟨b, r, h, -⟩ := taken_rest u p le vd xv data k
  rw [h]
  exact State.thr_modMe_other u (fun t => t.takeVersion le vd.val xv.val data k) hj

theorem sameVersions_taken : SameVersions u (taken u p le vd xv data k) p := by
  obtain ⟨b, r, h, hr⟩ := taken_rest u p le vd xv data k
  obtain ⟨hlists, hregions⟩ := sameVersions_setTag u (u.threadWho u.cur) p
  have heq : (taken u p le vd xv data k).regions = (u.setTag (u.threadWho u.cur) p).regions := by rw [h, hr]
  have hpower : (taken u p le vd xv data k).power = (u.setTag (u.threadWho u.cur) p).power := by
    rw [h, (regionsOnly_setTag u _ p).power]
    rfl
  exact ⟨SameLists.trans hlists (sameLists_of_eq heq hpower), fun hp => heq.trans (hregions hp)⟩

theorem stepped_taken : Stepped u (taken u p le vd xv data k) (nextPc u 4) := by
  constructor <;> simp [me_taken, Thread.takeVersion, nextPc, taken_cur]

theorem onlyV_taken : OnlyV u (taken u p le vd xv data k) vd data := fun r => by
  rw [State.getV, me_taken]
  exact get_vset _ _ _ _

theorem sameX_taken : SameX u (taken u p false vd xv data k) := fun r => by
  rw [State.getX, me_taken]
  rfl

theorem onlyX_taken : OnlyX u (taken u p true vd xv data k) xv (BitVec.ofNat 64 k) := fun r => by
  rw [State.getX, me_taken]
  by_cases hr : r = 0
  · rw [if_pos hr, if_pos hr]
  · rw [if_neg hr, if_neg hr, State.getX, if_neg hr]
    by_cases hxv : xv = 0
    · subst hxv
      rw [if_neg hr]
      rfl
    · have hval : xv.val ≠ 0 := fun h => hxv (Fin.ext h)
      simp only [Thread.takeVersion, Thread.retire_x, Bool.true_and, bne_iff_ne, ne_eq, hval, not_false_eq_true, if_true]
      exact get_vset _ _ _ _

theorem sameM_taken : SameM u (taken u p le vd xv data k) := fun r => by
  rw [State.getM, me_taken]
  rfl

theorem sameF_taken : SameF u (taken u p le vd xv data k) := by
  rw [SameF, me_taken]
  exact ⟨rfl, rfl⟩

end

/-- Higher bits that are cut off leave the bytes below them. -/
theorem byteIn_mod {j w : Nat} (h : 8 * j + 8 ≤ w) (n : Nat) : n % 2 ^ w / 2 ^ (8 * j) % 2 ^ 8 = byteIn n j := by
  have hsplit : 2 ^ w = 2 ^ (8 * j) * 2 ^ (w - 8 * j) := by rw [← pow_add, Nat.add_sub_of_le (by omega)]
  rw [hsplit, Nat.mod_mul_right_div_self, Nat.mod_mod_of_dvd _ (Nat.pow_dvd_pow 2 (by omega)), byteIn, Nat.pow_mul]

/-- The bytes of a vector that is read are those of memory. -/
theorem L_vecOfBytes (m : Memory) (k : Nat) {j : Nat} (hj : j < 64) : L (vecOfBytes (m.getBytes k 64)) 8 j = (m.get (k + j)).toNat := by
  rw [L, vecOfBytes, BitVec.toNat_ofNat, byteIn_mod (w := 512) (by omega), byteIn_ofBytes, getBytes_eq_map]
  simp [hj]

end Sys2Proof.Proofs.Versions
end

section
/-!
PROOFS. VERLD, VERLDLE and VERPROBE (spec/10, R249, R250, R254, R255; O37).
-/
namespace Sys2Proof.Proofs.Versions
open Sys2Proof.Machine Sys2Proof.Claims Sys2Proof.Proofs.Encoding Sys2Proof.Proofs.Integer Sys2Proof.Proofs.Matrix

/-! ## The instructions -/

theorem logConsumed_cur (s : State) (tid key code : Nat) : (s.logConsumed tid key code).cur = s.cur := by
  obtain ⟨h, m, e⟩ := logsOnly_logError (logsOnly_refl s) 2 (unitOfKey key).2 (unitOfKey key).1 (s.tenantOf tid) (addrOfKey key) code
  rw [State.logConsumed, e]

section
variable {s u : State} {p : VPlace} (le : Bool) (vd : VReg) {xa xv : XReg}
  (hu : s.versionAt s.meWho .read (s.getX xa) = .ok (u, p))
include hu

theorem verLoad_lost (hl : u.verLost p = true) : s.verLoad le vd xa xv = u.verTrap p Cause.verLost := by
  rw [verTrap_lost, State.trapOut_eq, State.trap, logConsumed_cur]
  unfold State.verLoad State.verLoadNow
  simp only [hu, hl, if_true, Cause.verLost]

variable (hk : KeepsThreads s u) (hl : u.verLost p = false)
include hk hl

theorem verLoad_give {k i : Nat} (hf : verFind le (u.gran p).vers (u.region p.rk).floor (verOf s xv) = .give k i)
    (hb : badIn u.bad (p.slotKey i) 64 = none) :
    s.verLoad le vd xa xv = .next (taken u p le vd xv (vecOfBytes (u.mem.getBytes (p.slotKey i) 64)) k) := by
  unfold State.verLoad State.verLoadNow
  simp only [hu, hl, ver_of_keepsThreads hk, hf, hb, Bool.false_eq_true, if_false]
  rfl

theorem verLoad_missing (hf : verFind le (u.gran p).vers (u.region p.rk).floor (verOf s xv) = .missing) :
    s.verLoad le vd xa xv = u.trapOut 0x10 p.va := by
  unfold State.verLoad State.verLoadNow
  simp only [hu, hl, ver_of_keepsThreads hk, hf, Bool.false_eq_true, if_false]
  rfl

theorem verLoad_notYet (hf : verFind le (u.gran p).vers (u.region p.rk).floor (verOf s xv) = .notYet) :
    s.verLoad le vd xa xv = u.verSleep p .verLoad Cause.verWait (BitVec.ofNat 64 (verOf s xv)) (loadDest vd.val xv.val le) := by
  unfold State.verLoad State.verLoadNow
  simp only [hu, hl, ver_of_keepsThreads hk, hf, Bool.false_eq_true, if_false]

/-- A version that Table 10-2 gives is loaded from its slot. -/
theorem loadsVersion_verLoad {e : Nat × Nat} {x : State → Prop}
    (hf : verFind le (u.gran p).vers (u.region p.rk).floor (verOf s xv) = .give e.1 e.2)
    (hx : ∀ data, x (taken u p le vd xv data e.1)) : LoadsVersion s u p (s.verLoad le vd xa xv) vd e x := by
  intro hb
  obtain ⟨-, hv, hm, hflags⟩ := hk.quiet
  refine ⟨_, verLoad_give le vd hu hk hl hf hb, stepped_of_keepsThreads hk stepped_taken, fun r => ?_,
    ⟨sameF_taken.1.trans hflags.1, sameF_taken.2.trans hflags.2⟩, fun j hj => ?_, hx _, fun r hr => ?_, fun j hj => ?_, fun k => ?_,
    sameVersions_taken⟩
  · rw [sameM_taken, hm]
  · rw [thr_taken_other (by rwa [hk.cur]), hk.others j hj]
  · rw [onlyV_taken, if_neg hr, hv]
  · rw [onlyV_taken, if_pos rfl, L_vecOfBytes _ _ hj]
  · rw [taken_mem]

/-- A version that may still come is slept for (R250). -/
theorem sleeps_verLoad (hf : verFind le (u.gran p).vers (u.region p.rk).floor (verOf s xv) = .notYet) (hw : s.me.wait = none) :
    Gives (s.verLoad le vd xa xv) fun t => t.me.slot = .asleep ∧ t.me.pc = s.me.pc ∧ t.me.status.waitKind = 1 ∧ t.me.status.waiting = true ∧
      Quiet s t ∧ t.me.csr.instret = s.me.csr.instret ∧ ∀ j, j ≠ s.cur → t.thr j = s.thr j := by
  obtain ⟨c, hc⟩ := hk.me
  have hwait : u.me.wait = none := by rwa [hc]
  have hexpired : u.me.expired .verLoad u.time u.me.csr.vwaitlim.toNat = false := by
    unfold Thread.expired
    rw [hwait]
  rw [verLoad_notYet le vd hu hk hl hf]
  unfold State.verSleep
  rw [hexpired, if_neg Bool.false_ne_true]
  refine ⟨_, rfl, ?slot, ?pc, ?kind, ?waiting, ⟨fun r => ?x, fun r => ?v, fun r => ?m, ?flags⟩, ?instret, fun j hj => ?others⟩
  case others =>
    rw [State.thr_modMe_other _ _ (by rwa [State.sleepMe, State.modMe_cur, hk.cur]), State.sleepMe,
      State.thr_modMe_other _ _ (by rwa [hk.cur]), hk.others j hj]
  all_goals simp [State.sleepMe, Thread.sleep, State.getX, State.getV, State.getM, SameF, WaitWhy.kind, hc]

end

/-! ## The result of a probe -/

theorem newest_eq (l : List (Nat × Nat)) : l.foldl (fun a e => max a e.1) 0 = (l.map Prod.fst).foldr max 0 := by
  rw [← List.foldl_map (f := Prod.fst) (g := max), List.foldl_eq_foldr]

/-- A flag of a probe's result, in its place. -/
theorem natCast_b2n_mul (q : Prop) [Decidable q] (k : Nat) : (b2n (decide q) : Int) * 2 ^ k = if q then 2 ^ k else 0 := by
  by_cases h : q
  · simp [h, b2n]
  · simp [h, b2n]

/-- The fields of Table 10-6. -/
theorem probeWord_eq (l : List (Nat × Nat)) (f n : Nat) : probeWord l f n =
    low (((l.map Prod.fst).foldr max 0 : Nat) + (if ∃ e ∈ l, e.1 = n then 2 ^ 32 else 0) + (if l = [] then 0 else 2 ^ 33) +
      l.length * 2 ^ 34 + if (∀ e ∈ l, e.1 ≠ n) ∧ n < f then 2 ^ 38 else 0) := by
  have hhit : (l.any fun e => e.1 == n) = decide (∃ e ∈ l, e.1 = n) := by
    rw [Bool.eq_iff_iff]
    simp
  have hany : (!l.isEmpty) = decide (l ≠ []) := by
    rw [Bool.eq_iff_iff]
    simp
  have hgone : (!decide (∃ e ∈ l, e.1 = n) && decide (n < f)) = decide ((∀ e ∈ l, e.1 ≠ n) ∧ n < f) := by
    rw [← decide_not, ← Bool.decide_and]
    exact decide_eq_decide.mpr (and_congr_left fun _ => ⟨fun h e he hn => h ⟨e, he, hn⟩, fun h ⟨e, he, hn⟩ => h e he hn⟩)
  unfold probeWord
  dsimp only
  rw [newest_eq, hhit, hany, hgone, ← low_natCast]
  simp only [Nat.cast_add, natCast_b2n_mul, Nat.cast_mul, Nat.cast_pow, Nat.cast_ofNat, ne_eq, ite_not]

/-! ## The obligation -/

theorem exec_verld (s : State) (vd : VReg) (xa xv : XReg) (os : Os) : exec (.verld vd xa xv os) s = s.verLoad false vd xa xv := rfl

theorem exec_verldle (s : State) (vd : VReg) (xa xv : XReg) (os : Os) : exec (.verldle vd xa xv os) s = s.verLoad true vd xa xv := rfl

theorem exec_verprobe_lost {s u : State} {p : VPlace} {xa : XReg} (d xv : XReg) (hu : s.versionAt s.meWho .read (s.getX xa) = .ok (u, p))
    (hl : u.verLost p = true) : exec (.verprobe d xa xv) s = u.verTrap p Cause.verLost := by
  change execVerprobe d xa xv s = _
  unfold execVerprobe
  simp only [hu, hl, if_true]

theorem exec_verprobe {s u : State} {p : VPlace} {xa xv : XReg} (d : XReg) (hu : s.versionAt s.meWho .read (s.getX xa) = .ok (u, p))
    (hk : KeepsThreads s u) (hl : u.verLost p = false) : exec (.verprobe d xa xv) s =
      .next (((u.setTag u.meWho p).setX d (probeWord (u.gran p).vers (u.region p.rk).floor (verOf s xv))).retire 4) := by
  change execVerprobe d xa xv s = _
  unfold execVerprobe
  simp only [hu, hl, ver_of_keepsThreads hk, Bool.false_eq_true, if_false]
  exact State.putX_eq _ _ _ _

/-- Settles O37: what Table 10-2 gives decides a load, and the probe's fields are counted from the list. -/
theorem versionLoads : Obligations.VersionLoads := by
  intro s u p vd d xa xv os hu hs
  have hk := keepsThreads_versionAt hs hu
  refine ⟨fun hl => ?lost, fun hl => ?good⟩
  case lost =>
    have hlost := lostAt_verTrap hk.cur p
    rw [exec_verld, exec_verldle, verLoad_lost false vd hu hl, verLoad_lost true vd hu hl, exec_verprobe_lost d xv hu hl]
    exact ⟨hlost, hlost, hlost⟩
  case good =>
    intro vs n f absent
    have habsent (le : Bool) (hf : verFind le vs f n = verNone f n) : absent (s.verLoad le vd xa xv) := by
      refine ⟨fun hn hw => sleeps_verLoad le vd hu hk hl (hf.trans (if_neg (by omega))) hw, fun hn htrap => ?_⟩
      rw [verLoad_missing le vd hu hk hl (hf.trans (if_pos hn))]
      exact traps_trapOut htrap _ _
    obtain ⟨hx, -⟩ := hk.quiet
    refine ⟨fun hnd e he => ⟨fun hn => ?named, fun hn hmax => ?greatest⟩, fun h => habsent false (verFind_absent h),
      fun h => habsent true (verFind_above h), ?probe⟩
    case named =>
      exact loadsVersion_verLoad false vd hu hk hl (verFind_named hnd he hn false) fun data r => by rw [sameX_taken, hx]
    case greatest =>
      refine loadsVersion_verLoad true vd hu hk hl (verFind_greatest hnd he hn hmax) fun data r => ?_
      rw [onlyX_taken, hx, low_natCast]
    case probe =>
      have htag := regionsOnly_setTag u u.meWho p
      obtain ⟨hlists, hregions⟩ := sameVersions_setTag u u.meWho p
      obtain ⟨hdone, hxd⟩ := verDone_setX (hk.trans htag.keepsThreads) d (probeWord vs f n)
      refine ⟨_, exec_verprobe d hu hk hl, hdone, fun k => ?_,
        ⟨SameLists.trans hlists (sameLists_of_eq (by simp) (by simp)), fun hp => ?_⟩, ?_⟩
      · rw [State.retire_mem, State.setX_mem, htag.mem]
      · rw [State.retire_regions, State.setX_regions, hregions hp]
      · rw [← probeWord_eq]
        exact hxd

end Sys2Proof.Proofs.Versions
end

section
/-!
PROOFS. Accesses of a thread that are admitted, performed (spec/08, R210 to R213; spec/09, R226): what they leave of the thread and of
memory, and what an instruction that ends behind one leaves.
-/
namespace Sys2Proof.Proofs.Access
open Sys2Proof.Machine Sys2Proof.Claims Sys2Proof.Proofs.Encoding Sys2Proof.Proofs.Integer Sys2Proof.Proofs.Matrix
  Sys2Proof.Proofs.Versions

/-! ## Loads -/

theorem keepsByte_loadEffect (s : State) (tid key : Nat) (l : List Span) : KeepsByte tid key s (s.loadEffect tid l) := by
  refine (keepsByte_ite (keepsByte_flushWc s tid key) (.refl s)).trans (keepsByte_over fun p _ u => ?_)
  split
  · obtain ⟨w, f, h⟩ := hubRead_eq u _
    rw [h]
    exact keepsByte_of_eq rfl rfl
  · exact .refl u

/-- The state after an admitted load whose parts are `l`: the access of a masked load has other parts than its check. -/
def loaded (s : State) (ad : Admitted) (l : List Span) : State := (s.admitAccess s.meWho ad).loadEffect s.cur l

theorem reached_eq (s : State) (ad : Admitted) : Reached s ad = loaded s ad ad.spans := rfl

theorem keepsThreads_loaded (s : State) (ad : Admitted) (l : List Span) : KeepsThreads s (loaded s ad l) :=
  (keepsThreads_admitAccess s ad).trans (keepsThreads_loadEffect _ _ _)

theorem keepsByte_loaded (s : State) {ad : Admitted} (l : List Span) {key : Nat} (h : ∀ q ∈ ad.marks, q.1 ≠ key) :
    KeepsByte s.cur key s (loaded s ad l) :=
  (keepsByte_admitAccess s s.meWho s.cur h).trans (keepsByte_loadEffect _ s.cur key l)

/-- A load leaves every byte that it does not mark, and of which the thread holds no write-combined copy. -/
theorem get_loaded {s : State} {ad : Admitted} (l : List Span) {key : Nat} (h : Unmarked s ad key) :
    (loaded s ad l).mem.get key = s.mem.get key :=
  (keepsByte_loaded s l h.1 h.2).2

theorem load_admitted {s : State} {ask : Ask} {va : Word} {n : Nat} {ad : Admitted} (hc : s.check s.meWho ask va n = .ok ad)
    (hb : s.badSpan false ad.spans = none) : s.load ask va n = .ok (Reached s ad, (Reached s ad).bytesAt ad.spans) := by
  unfold State.load
  rw [hc]
  dsimp only
  rw [hb]
  rfl

/-! ## Stores -/

/-- The state after an admitted store of `bs` whose parts are `l`. -/
def storedAt (s : State) (ad : Admitted) (l : List Span) (bs : List Byte) : State :=
  ((s.admitAccess s.meWho ad).noteWhole (s.tenantOf s.cur) l).writeSpans (fun s o v => s.hubStore true o v) s.cur true l bs

theorem stored_eq (s : State) (ad : Admitted) (bs : List Byte) : Stored s ad bs = storedAt s ad ad.spans bs := rfl

theorem store_admitted {s : State} {ask : Ask} {va : Word} {bs : List Byte} {ad : Admitted}
    (hc : s.check s.meWho ask va bs.length = .ok ad) (hm : msiRefused ad.spans bs = false) (hb : s.badSpan true ad.spans = none) :
    s.store ask va bs = .ok (Stored s ad bs) := by
  unfold State.store
  rw [hc]
  dsimp only
  rw [hm, hb]
  rfl

section
variable {l : List Span} (hl : ∀ p ∈ l, ∃ k, p.loc = .mem k)
include hl

theorem keepsThreads_storedAt (s : State) (ad : Admitted) (bs : List Byte) : KeepsThreads s (storedAt s ad l bs) :=
  ((keepsThreads_admitAccess s ad).trans (keepsThreads_noteWhole _ _ _)).trans (keepsThreads_writeSpans hl _ _)

theorem keepsByte_storedAt (s : State) {ad : Admitted} {key : Nat} (hmarks : ∀ q ∈ ad.marks, q.1 ≠ key)
    (hout : ∀ p ∈ l, ∀ k, p.loc = .mem k → key < k ∨ k + p.n ≤ key) (bs : List Byte) : KeepsByte s.cur key s (storedAt s ad l bs) :=
  ((keepsByte_admitAccess s s.meWho s.cur hmarks).trans (keepsByte_noteWhole s.cur key _ _ _)).trans (keepsByte_writeSpans hl hout _ _)

end

theorem keepsByte_released (s : State) (os : Os) (key : Nat) : KeepsByte s.cur key s (Released s os) := by
  cases os with
  | rlx | acq => exact .refl s
  | rel | ar => exact keepsByte_flushWc s s.cur key

/-! ## A store of one part, read back -/

/-- A byte as memory takes it: the reserved LM offsets stay zero (R203). -/
theorem getD_constZero_eq (k : Nat) (bs : List Byte) (j : Nat) : (constZero k bs).getD j 0 =
    if isLm (k + j) = true ∧ 0x7C8 ≤ (k + j) % 2 ^ 24 ∧ (k + j) % 2 ^ 24 < 0x800 then 0 else bs.getD j 0 := by
  induction bs generalizing k j with
  | nil => simp [constZero]
  | cons b bs ih =>
    cases j with
    | zero => simp [constZero, and_assoc]
    | succ j =>
      rw [constZero, List.getD_cons_succ, List.getD_cons_succ, ih, Nat.add_assoc k 1 j, Nat.add_comm 1 j]

theorem get_poke (s : State) {k j : Nat} {bs : List Byte} (hj : j < bs.length) : (s.poke k bs).mem.get (k + j) =
    if isLm (k + j) = true ∧ 0x7C8 ≤ (k + j) % 2 ^ 24 ∧ (k + j) % 2 ^ 24 < 0x800 then 0 else bs.getD j 0 := by
  obtain ⟨c, h⟩ := poke_eq s k bs
  rw [h]
  dsimp only
  rw [Memory.get_putBytes, if_pos (by rw [constZero_length]; omega), Nat.add_sub_cancel_left, getD_constZero_eq]

theorem poke_wc (s : State) (k : Nat) (bs : List Byte) : (s.poke k bs).wc = s.wc := by
  obtain ⟨c, h⟩ := poke_eq s k bs
  rw [h]

/-- A flush leaves the thread no write-combined byte. -/
theorem notHeld_flushWc (s : State) (tid key : Nat) : NotHeld (s.flushWc tid) tid key := by
  have hwc : (s.flushWc tid).wc = (takenWc s tid).wc := by
    rw [flushWc_eq]
    exact over_induction (P := fun u => u.wc = (takenWc s tid).wc) rfl fun e _ u hu => (poke_wc u _ _).trans hu
  intro e he ht
  rw [hwc] at he
  simp [takenWc, ht] at he

/-- A store to a page that is not write-combined leaves the thread no write-combined byte. -/
theorem notHeld_storePart (s : State) (tid key : Nat) {p : Span} (hp : p.ca ≠ 3) (k : Nat) (bs : List Byte) :
    NotHeld (storePart s tid p k bs) tid key := by
  intro e he ht
  rw [storePart, if_neg hp, poke_wc] at he
  split at he
  · exact notHeld_flushWc s tid key e he ht
  · next hnone => exact absurd (List.any_eq_true.mpr ⟨e, he, by simp [ht]⟩) hnone

/-- A store in one part to memory that is not write-combined reads back, with R203's exception. -/
theorem get_writeSpans_single (s : State) (hub : State → Nat → Nat → State) (tid : Nat) {p : Span} {k j : Nat} {bs : List Byte}
    (hp : p.loc = .mem k) (hn : p.n = bs.length) (hca : p.ca ≠ 3) (hj : j < bs.length) :
    (∀ key, NotHeld (s.writeSpans hub tid true [p] bs) tid key) ∧ (s.writeSpans hub tid true [p] bs).mem.get (k + j) =
      if isLm (k + j) = true ∧ 0x7C8 ≤ (k + j) % 2 ^ 24 ∧ (k + j) % 2 ^ 24 < 0x800 then 0 else bs.getD j 0 := by
  have hw : s.writeSpans hub tid true [p] bs = storePart s tid p k bs := by
    rw [writeSpans_cons_mem s hub tid hp, hn, List.take_length]
    rfl
  rw [hw]
  refine ⟨fun key => notHeld_storePart s tid key hca k bs, ?_⟩
  rw [storePart, if_neg hca, get_poke _ hj]

/-! ## An instruction that ends behind an access -/

theorem retired_retire (s : State) (n : Nat) : Retired s (s.retire n) (nextPc s n) := retired_setX s 0 0 n

section
variable {s u t : State} (h : KeepsThreads s u)
include h

theorem onlyX_behind {d : XReg} {w : Word} (ht : OnlyX u t d w) : OnlyX s t d w := fun r => by rw [ht r, h.quiet.1 r]
theorem onlyV_behind {d : VReg} {w : Vec} (ht : OnlyV u t d w) : OnlyV s t d w := fun r => by rw [ht r, h.quiet.2.1 r]
theorem sameX_behind (ht : SameX u t) : SameX s t := fun r => (ht r).trans (h.quiet.1 r)
theorem sameV_behind (ht : SameV u t) : SameV s t := fun r => (ht r).trans (h.quiet.2.1 r)
theorem sameM_behind (ht : SameM u t) : SameM s t := fun r => (ht r).trans (h.quiet.2.2.1 r)

theorem raised_behind {f : BitVec 5} (ht : Raised u t f u.me.csr.srseed) : Raised s t f s.me.csr.srseed := by
  obtain ⟨-, -, -, hf, hseed⟩ := h.quiet
  exact ⟨by rw [ht.1, hf], ht.2.trans hseed⟩

theorem sameF_behind (ht : SameF u t) : SameF s t := by
  obtain ⟨-, -, -, hf, hseed⟩ := h.quiet
  exact ⟨ht.1.trans hf, ht.2.trans hseed⟩

theorem quiet_behind (ht : Quiet u t) : Quiet s t :=
  ⟨sameX_behind h ht.1, sameV_behind h ht.2.1, sameM_behind h ht.2.2.1, sameF_behind h ht.2.2.2⟩

theorem others_behind {pc : Word} (ht : Retired u t pc) {j : Nat} (hj : j ≠ s.cur) : t.thr j = s.thr j := by
  rw [ht.others j (by rwa [h.cur]), h.others j hj]

/-- X(rd) written behind an access. -/
theorem gives_putX_behind (d : XReg) (w : Word) (n : Nat) : Gives (u.putX d w n) fun t =>
    Retired u t (nextPc s n) ∧ OnlyX s t d w ∧ SameV s t ∧ SameM s t ∧ SameF s t := by
  obtain ⟨t, ht, hret, hx, hv, hm, hf⟩ := writesX_putX u d w n
  rw [nextPc_of_keepsThreads h] at hret
  exact ⟨t, ht, hret, onlyX_behind h hx, sameV_behind h hv, sameM_behind h hm, sameF_behind h hf⟩

/-- V(vd) written behind an access. -/
theorem gives_setV_behind (d : VReg) (w : Vec) (n : Nat) : Gives ((u.setV d w).fin n) fun t =>
    Retired u t (nextPc s n) ∧ SameX s t ∧ OnlyV s t d w ∧ SameM s t ∧ SameF s t := by
  have hret := Float.retired_setV u d w n
  rw [nextPc_of_keepsThreads h] at hret
  refine ⟨_, State.fin_eq _ n, hret, sameX_behind h fun r => ?_, onlyV_behind h fun r => ?_, sameM_behind h fun r => ?_, sameF_behind h ?_⟩
  · simp [State.getX]
  · rw [State.getV_retire, State.getV_setV]
  · simp [State.getM]
  · simp [SameF]

end

end Sys2Proof.Proofs.Access
end

section
/-!
PROOFS. Scalar loads and stores (spec/11, R263 to R265, R274; O19, O20).
-/
namespace Sys2Proof.Proofs.Access
open Sys2Proof.Machine Sys2Proof.Claims Sys2Proof.Proofs.Encoding Sys2Proof.Proofs.Integer Sys2Proof.Proofs.Matrix
  Sys2Proof.Proofs.Versions

/-! ## Addresses (R263) -/

section
variable (s : State) (a : XReg)

theorem ea_short (i : BitVec 5) (k : Nat) : s.ea a (shortOff i k) = low ((s.getX a).toInt + k * i.toInt) := by
  rw [State.ea, shortOff, simm_eq_low, low_add, low_toInt, low_mul, low_natCast, BitVec.mul_comm]

theorem ea_lit (l : Word) : s.ea a l = low ((s.getX a).toInt + l.toInt) := by
  rw [State.ea, low_add, low_toInt, low_toInt]

theorem ea_ext (e : BitVec 47) : s.ea a (simm e) = low ((s.getX a).toInt + e.toInt) := by
  rw [State.ea, simm_eq_low, low_add, low_toInt]

end

/-! ## Results (Table 11-1) -/

/-- The low `n` bits of a number as two's complement. -/
theorem sext_ofNat (x : Nat) {n : Nat} (h0 : 0 < n) (h : n ≤ 64) : sext (BitVec.ofNat 64 x) n = low (Sg n (x % 2 ^ n)) := by
  have hhalf : (2 ^ n + 1) / 2 = 2 ^ (n - 1) := by
    obtain ⟨k, rfl⟩ := Nat.exists_eq_add_of_le' h0
    rw [Nat.add_sub_cancel, pow_succ]
    omega
  have hmod : ((x % 2 ^ 64 : Nat) : Int) % (2 ^ n : Nat) = (x % 2 ^ n : Nat) := by
    rw [← Int.natCast_mod, Nat.mod_mod_of_dvd _ (Nat.pow_dvd_pow 2 h)]
  rw [sext_eq_low, BitVec.toNat_ofNat, Int.bmod_def, hmod]
  congr 1
  unfold Sg
  by_cases hlt : x % 2 ^ n < 2 ^ (n - 1)
  · rw [if_pos hlt, if_pos (by rw [← hhalf] at hlt; exact_mod_cast hlt)]
  · rw [if_neg hlt, if_neg (by rw [← hhalf] at hlt; exact_mod_cast hlt)]
    push_cast
    rfl

theorem signedBytes_eq {n : Nat} (h0 : 0 < n) (h : n ≤ 64) (bs : List Byte) : signedBytes n bs = low (Sg n (Claims.numOf bs % 2 ^ n)) := by
  rw [signedBytes, sext_ofNat _ h0 h, numOf_eq_ofBytes]

theorem plainBytes_eq (bs : List Byte) : plainBytes bs = low (Claims.numOf bs) := by
  rw [plainBytes, low_natCast, numOf_eq_ofBytes]

/-! ## Loads -/

theorem loadsX_scalarLoad (s : State) (va : Word) (k : Nat) {g : List Byte → Word} {f : Nat → Int} (hf : ∀ bs, g bs = low (f (Claims.numOf bs)))
    (d : XReg) (n : Nat) : LoadsX s (s.scalarLoad va k g d n) n va k f d := by
  intro ad hc hb
  have hrun : s.scalarLoad va k g d n = (Reached s ad).putX d (g ((Reached s ad).bytesAt ad.spans)) n := by
    unfold State.scalarLoad State.loadX Ask.plain
    rw [load_admitted hc hb]
  have hk : KeepsThreads s (Reached s ad) := keepsThreads_reached s ad
  obtain ⟨t, ht, hret, hx, hv, hm, hfl⟩ := gives_putX_behind hk d (g ((Reached s ad).bytesAt ad.spans)) n
  refine ⟨t, hrun.trans ht, hret, hf _ ▸ hx, hv, hm, hfl, fun j hj => others_behind hk hret hj, fun key hkey => ?_⟩
  rw [hret.bytes, reached_eq, get_loaded _ hkey]

/-- The three forms of a load are one operation at three addresses. -/
theorem loads_of {short : XReg → XReg → BitVec 5 → Os → Instr} {lit : XReg → XReg → Word → Os → Instr}
    {ext : XReg → XReg → BitVec 47 → Os → Instr} {k : Nat} {g : List Byte → Word} {f : Nat → Int}
    (hf : ∀ bs, g bs = low (f (Claims.numOf bs)))
    (hshort : ∀ s d a i os, exec (short d a i os) s = s.scalarLoad (s.ea a (shortOff i k)) k g d 4)
    (hlit : ∀ s d a l os, exec (lit d a l os) s = s.scalarLoad (s.ea a l) k g d 12)
    (hext : ∀ s d a e os, exec (ext d a e os) s = s.scalarLoad (s.ea a (simm e)) k g d 12) : Loads short lit ext k f := by
  intro s d a i l e os base
  rw [hshort, hlit, hext, ea_short, ea_lit, ea_ext]
  exact ⟨loadsX_scalarLoad s _ k hf d 4, loadsX_scalarLoad s _ k hf d 12, loadsX_scalarLoad s _ k hf d 12⟩

/-- Settles O19: every load is the one operation, with its own result. -/
theorem scalarLoads : Obligations.ScalarLoads := by
  exact ⟨loads_of (signedBytes_eq (n := 8) (by decide) (by decide)) (fun _ _ _ _ _ => rfl) (fun _ _ _ _ _ => rfl) fun _ _ _ _ _ => rfl,
    loads_of plainBytes_eq (fun _ _ _ _ _ => rfl) (fun _ _ _ _ _ => rfl) fun _ _ _ _ _ => rfl,
    loads_of (signedBytes_eq (n := 16) (by decide) (by decide)) (fun _ _ _ _ _ => rfl) (fun _ _ _ _ _ => rfl) fun _ _ _ _ _ => rfl,
    loads_of plainBytes_eq (fun _ _ _ _ _ => rfl) (fun _ _ _ _ _ => rfl) fun _ _ _ _ _ => rfl,
    loads_of (signedBytes_eq (n := 32) (by decide) (by decide)) (fun _ _ _ _ _ => rfl) (fun _ _ _ _ _ => rfl) fun _ _ _ _ _ => rfl,
    loads_of plainBytes_eq (fun _ _ _ _ _ => rfl) (fun _ _ _ _ _ => rfl) fun _ _ _ _ _ => rfl,
    loads_of plainBytes_eq (fun _ _ _ _ _ => rfl) (fun _ _ _ _ _ => rfl) fun _ _ _ _ _ => rfl⟩

/-! ## Stores -/

theorem storesB_storeOs (s : State) (os : Os) (ask : Ask) (va : Word) (bs : List Byte) (n : Nat) :
    StoresB s (s.storeOs os ask va bs n) n ask va bs os := by
  intro ad hc hmsi hb
  have hrun : s.storeOs os ask va bs n = (Released (Stored s ad bs) os).fin n := by
    unfold State.storeOs
    rw [store_admitted hc hmsi hb, ← release_eq]
  refine ⟨_, hrun.trans (State.fin_eq _ n), retired_retire _ n, quiet_retire (.refl _) n, fun hm => ?_⟩
  have hstored : KeepsThreads s (Stored s ad bs) := keepsThreads_stored hm s bs
  have hk := hstored.trans (keepsThreads_released (Stored s ad bs) os)
  have hrel (key : Nat) : KeepsByte s.cur key (Stored s ad bs) (Released (Stored s ad bs) os) :=
    hstored.cur ▸ keepsByte_released (Stored s ad bs) os key
  refine ⟨quiet_retire hk n, (stepped_retire hk n).pc, fun j hj => others_retire hk n hj, fun key hkey hout => ?_,
    fun p k hspans hp hn hca j hj => ?_⟩
  · rw [State.retire_mem, (((keepsByte_stored hm s hkey.1 hout bs).trans (hrel key)) hkey.2).2]
  · obtain ⟨hfree, hread⟩ := get_writeSpans_single ((s.admitAccess s.meWho ad).noteWhole (s.tenantOf s.cur) ad.spans)
      (fun s o v => s.hubStore true o v) s.cur hp hn hca hj
    rw [← hspans] at hfree hread
    rw [State.retire_mem, (hrel (k + j) (hfree _)).2]
    exact hread

theorem bytesOf_eq_map (n v : Nat) : bytesOf n v = (List.range n).map fun j => BitVec.ofNat 8 (v / 256 ^ j) := by
  refine List.ext_getElem (by simp) fun j h _ => ?_
  rw [bytesOf_length] at h
  have hj := bytesOf_getD h v
  rw [List.getD_eq_getElem?_getD, List.getElem?_eq_getElem (by rwa [bytesOf_length]), Option.getD_some] at hj
  simp [hj]

theorem bytesOf_toNat (w : Word) (k : Nat) : bytesOf k w.toNat = bytesOfWord w k := bytesOf_eq_map k w.toNat

/-- The three forms of a store are one operation at three addresses. -/
theorem stores_of {short : XReg → XReg → BitVec 5 → Os → Instr} {lit : XReg → XReg → Word → Os → Instr}
    {ext : XReg → XReg → BitVec 47 → Os → Instr} {k : Nat}
    (hshort : ∀ s r a i os, exec (short r a i os) s = s.scalarStore (s.ea a (shortOff i k)) k r os 4)
    (hlit : ∀ s r a l os, exec (lit r a l os) s = s.scalarStore (s.ea a l) k r os 12)
    (hext : ∀ s r a e os, exec (ext r a e os) s = s.scalarStore (s.ea a (simm e)) k r os 12) : Stores short lit ext k := by
  intro s r a i l e os base bs
  rw [hshort, hlit, hext, ea_short, ea_lit, ea_ext]
  simp only [State.scalarStore, bytesOf_toNat]
  exact ⟨storesB_storeOs s os _ _ _ 4, storesB_storeOs s os _ _ _ 12, storesB_storeOs s os _ _ _ 12⟩

/-- A patch store that passes the checks stores at the start of a declared slot, and traps elsewhere (R274). -/
theorem patchStore_at (s : State) (va : Word) (r : XReg) (n : Nat) :
    (va.toNat ∈ s.patchSlots s.cur → StoresB s (s.patchStore va r n) n ⟨.patch, 8, false, false⟩ va (bytesOfWord (s.getX r) 8) .rlx) ∧
    (va.toNat ∉ s.patchSlots s.cur → ∀ ad, s.check s.meWho ⟨.patch, 8, false, false⟩ va 8 = .ok ad →
      s.patchStore va r n = .next (s.trap 0x38 va)) := by
  refine ⟨fun hslot ad hc hmsi hb => ?_, fun hslot ad hc => ?_⟩
  · have hrun : s.patchStore va r n = s.storeOs .rlx ⟨.patch, 8, false, false⟩ va (bytesOfWord (s.getX r) 8) n := by
      rw [← bytesOf_toNat] at hc ⊢
      rw [bytesOf_length] at hc
      unfold State.patchStore
      dsimp only
      rw [hc]
      exact if_pos (List.contains_iff_mem.mpr hslot)
    rw [hrun]
    exact storesB_storeOs s .rlx _ va _ n ad hc hmsi hb
  · unfold State.patchStore
    dsimp only
    rw [hc]
    exact if_neg (by simpa using hslot)

/-- Settles O20: every store is the one operation, and PSTORE is it where the slot is declared. -/
theorem scalarStores : Obligations.ScalarStores := by
  refine ⟨stores_of (fun _ _ _ _ _ => rfl) (fun _ _ _ _ _ => rfl) fun _ _ _ _ _ => rfl,
    stores_of (fun _ _ _ _ _ => rfl) (fun _ _ _ _ _ => rfl) fun _ _ _ _ _ => rfl,
    stores_of (fun _ _ _ _ _ => rfl) (fun _ _ _ _ _ => rfl) fun _ _ _ _ _ => rfl,
    stores_of (fun _ _ _ _ _ => rfl) (fun _ _ _ _ _ => rfl) fun _ _ _ _ _ => rfl, fun s r a i l e => ?_⟩
  intro base bs ask at_
  have hpatch {o : Out} {n : Nat} {va : Word} (ho : o = s.patchStore va r n) : at_ o n va := ho ▸ patchStore_at s va r n
  exact ⟨hpatch (congrArg (s.patchStore · r 4) (ea_short s a i 8)), hpatch (congrArg (s.patchStore · r 12) (ea_lit s a l)),
    hpatch (congrArg (s.patchStore · r 12) (ea_ext s a e))⟩

end Sys2Proof.Proofs.Access
end

section
/-!
PROOFS. Vector loads and stores (spec/11, R266 to R268; O21).
-/
namespace Sys2Proof.Proofs.Access
open Sys2Proof.Machine Sys2Proof.Claims Sys2Proof.Proofs.Encoding Sys2Proof.Proofs.Integer Sys2Proof.Proofs.Matrix
  Sys2Proof.Proofs.Versions

/-! ## Bytes of a vector -/

theorem getD_vecBytes (v : Vec) {i : Nat} (hi : i < 64) : (vecBytes v).getD i 0 = BitVec.ofNat 8 (L v 8 i) := by
  rw [← toNat_vecBytes v hi, BitVec.ofNat_toNat, BitVec.setWidth_eq]

theorem L_vecOfBytes_getD (l : List Byte) {i : Nat} (hi : i < 64) : L (vecOfBytes l) 8 i = (l.getD i 0).toNat := by
  rw [L, vecOfBytes, BitVec.toNat_ofNat, byteIn_mod (w := 512) (by omega), byteIn_ofBytes]

theorem vecBytes_eq_map (v : Vec) : vecBytes v = (List.range 64).map fun i => BitVec.ofNat 8 (L v 8 i) := by
  refine List.ext_getElem (by simp [vecBytes_length]) fun i h _ => ?_
  have hi : i < 64 := by rwa [vecBytes_length] at h
  have hget := getD_vecBytes v hi
  rw [List.getD_eq_getElem?_getD, List.getElem?_eq_getElem h, Option.getD_some] at hget
  simp [hget]

/-! ## Active bytes -/

section
variable (s : State) (m : MReg)

theorem maskBit_mask {i : Nat} (hi : i < 64) : maskBit (s.mask m) i = (m == 0 || (s.getM m).getLsbD i) := by
  unfold maskBit State.mask
  by_cases h : m = 0
  · rw [if_pos h, BitVec.getLsbD_allOnes]
    simp [h, hi]
  · simp [h]

theorem activeBytes_mask : activeBytes (s.mask m) = actBytes s m := by
  rw [activeBytes, actBytes, Vector.countFrom_zero]
  exact List.filter_congr fun i hi => maskBit_mask s m (List.mem_range.mp hi)

theorem mem_actBytes {i : Nat} : i ∈ actBytes s m ↔ i < 64 ∧ ActB s m i := by simp [actBytes, ActB]

theorem maskBit_iff {i : Nat} (hi : i < 64) : maskBit (s.mask m) i = true ↔ ActB s m i := by simp [maskBit_mask s m hi, ActB]

theorem mask_eq_zero_iff : s.mask m = 0 ↔ actBytes s m = [] := by
  rw [← activeBytes_mask]
  refine ⟨fun h => ?_, fun h => BitVec.eq_of_getLsbD_eq fun i hi => ?_⟩
  · simp [h, activeBytes, maskBit]
  · refine (Bool.eq_false_iff.mpr fun hbit => ?_).trans BitVec.getLsbD_zero.symm
    have hmem : i ∈ activeBytes (s.mask m) := List.mem_filter.mpr ⟨by rw [Vector.countFrom_zero]; exact List.mem_range.mpr hi, hbit⟩
    rw [h] at hmem
    exact List.not_mem_nil hmem

/-- An active byte stands in the list behind the active bytes below it. -/
theorem idxOf_actBytes {i : Nat} (h : i ∈ actBytes s m) :
    (actBytes s m).idxOf i = ((List.range i).filter (maskBit (s.mask m))).length := by
  obtain ⟨hi, hact⟩ := (mem_actBytes s m).mp h
  obtain ⟨k, hk⟩ := Nat.exists_eq_add_of_lt hi
  have hrange : List.range 64 = List.range i ++ i :: ((List.range k).map Nat.succ).map (i + ·) := by
    rw [hk, Nat.add_assoc, List.range_add, List.range_succ_eq_map, List.map_cons, Nat.add_zero]
  have hbelow : i ∉ (List.range i).filter (maskBit (s.mask m)) := by simp
  rw [← activeBytes_mask, activeBytes, Vector.countFrom_zero, hrange, List.filter_append,
    List.filter_cons_of_pos ((maskBit_iff s m hi).mpr hact), List.idxOf_append_of_notMem hbelow, List.idxOf_cons_self, Nat.add_zero]

end

/-- A byte of a merge: the next one of the new bytes where it is active. -/
theorem getD_mergeBytes (m : Word) (c : Nat) (l new : List Byte) {j : Nat} (hj : j < l.length) : (mergeBytes m c l new).getD j 0 =
    if maskBit m (c + j) then new.getD ((List.range' c j).filter (maskBit m)).length (l.getD j 0) else l.getD j 0 := by
  induction l generalizing c new j with
  | nil => exact absurd hj (Nat.not_lt_zero j)
  | cons b l ih =>
    have htail (k : Nat) (d : Byte) : new.tail.getD k d = new.getD (k + 1) d := by cases new <;> simp
    have hhead : new.headD b = new.getD 0 b := by cases new <;> simp
    cases j with
    | zero =>
      by_cases h : maskBit m c = true
      · rw [mergeBytes, if_pos h, if_pos (show maskBit m (c + 0) = true from h), List.getD_cons_zero, hhead]
        rfl
      · rw [mergeBytes, if_neg h, if_neg (show ¬maskBit m (c + 0) = true from h)]
        rfl
    | succ j =>
      have hj' : j < l.length := by simpa using hj
      have hc : c + 1 + j = c + (j + 1) := by omega
      by_cases h : maskBit m c = true
      · rw [mergeBytes, if_pos h, List.getD_cons_succ, ih (c + 1) new.tail hj', hc, htail, List.range'_succ, List.filter_cons_of_pos h]
        rfl
      · rw [mergeBytes, if_neg h, List.getD_cons_succ, ih (c + 1) new hj', hc, List.range'_succ, List.filter_cons_of_neg h]
        rfl

/-- The bytes that a masked store takes from a register. -/
theorem maskedBytes_eq (s : State) (m : MReg) (v : Vec) :
    (((vecBytes v).zip (countFrom 0 64)).filterMap fun p => if maskBit (s.mask m) p.2 then some p.1 else none) =
      (actBytes s m).map fun i => BitVec.ofNat 8 (L v 8 i) := by
  have hpick (l : List Nat) : ((l.map fun i => BitVec.ofNat 8 (L v 8 i)).zip l).filterMap
      (fun p => if maskBit (s.mask m) p.2 then some p.1 else none) = (l.filter (maskBit (s.mask m))).map fun i => BitVec.ofNat 8 (L v 8 i) := by
    induction l with
    | nil => rfl
    | cons i l ih => by_cases h : maskBit (s.mask m) i = true <;> simp [h, ih]
  rw [vecBytes_eq_map, Vector.countFrom_zero, hpick, ← activeBytes_mask, activeBytes, Vector.countFrom_zero]

/-! ## VLOAD and VSTORE -/

/-- An instruction that accesses nothing retires. -/
theorem gives_fin (s : State) (n : Nat) : Gives (s.fin n) fun t => Retired s t (nextPc s n) ∧ Quiet s t :=
  ⟨_, State.fin_eq s n, retired_retire s n, quiet_retire (.refl s) n⟩

theorem vLoads_vload (s : State) (v : VReg) (va : Word) (m : MReg) (n : Nat) : VLoads s (s.vload v va m n) n va v m := by
  refine ⟨fun hnone => ?_, fun ad spans hc hb hsome => ?_⟩
  · have hrun : s.vload v va m n = s.fin n := if_pos ((mask_eq_zero_iff s m).mpr hnone)
    rw [hrun]
    exact gives_fin s n
  · intro u
    let w := vecOfBytes (mergeBytes (s.mask m) 0 (vecBytes (s.getV v)) (u.bytesAt spans))
    have hrun : s.vload v va m n = (u.setV v w).fin n := by
      unfold State.vload Ask.plain
      dsimp only
      rw [if_neg (mt (mask_eq_zero_iff s m).mp hsome), hc]
      dsimp only
      rw [hb]
    have hbyte (i : Nat) (hi : i < 64) : L w 8 i = (if maskBit (s.mask m) i then
        (u.bytesAt spans).getD ((List.range i).filter (maskBit (s.mask m))).length (BitVec.ofNat 8 (L (s.getV v) 8 i))
        else BitVec.ofNat 8 (L (s.getV v) 8 i)).toNat := by
      rw [L_vecOfBytes_getD _ hi, getD_mergeBytes _ _ _ _ (by rwa [vecBytes_length]), getD_vecBytes _ hi, Nat.zero_add,
        ← List.range_eq_range']
    obtain ⟨t, ht, hret, hx, hv, hm, hf⟩ := gives_setV_behind (keepsThreads_loaded s ad spans) v w n
    refine ⟨w, fun i hi => ⟨fun hact => ?_, fun hact => ?_⟩, t, hrun.trans ht, hret, hx, hv, hm, hf, fun key hkey => ?_⟩
    · rw [hbyte i hi, if_neg (mt (maskBit_iff s m hi).mp hact), ← getD_vecBytes _ hi, toNat_vecBytes _ hi]
    · rw [hbyte i hi, if_pos ((maskBit_iff s m hi).mpr hact), idxOf_actBytes s m ((mem_actBytes s m).mpr ⟨hi, hact⟩)]
    · rw [hret.bytes, get_loaded _ hkey]

theorem vStores_vstore (s : State) (v : VReg) (va : Word) (m : MReg) (n : Nat) : VStores s (s.vstore v va m n) n va v m := by
  refine ⟨fun hnone => ?_, fun ad spans hc hsome => ?_⟩
  · have hrun : s.vstore v va m n = s.fin n := if_pos ((mask_eq_zero_iff s m).mpr hnone)
    rw [hrun]
    exact gives_fin s n
  · intro bs hmsi hb
    have hrun : s.vstore v va m n = (storedAt s ad spans bs).fin n := by
      unfold State.vstore Ask.plain
      dsimp only
      rw [if_neg (mt (mask_eq_zero_iff s m).mp hsome), hc]
      dsimp only
      rw [maskedBytes_eq, if_neg (by simpa using hmsi), hb]
      rfl
    refine ⟨_, hrun.trans (State.fin_eq _ n), retired_retire _ n, quiet_retire (.refl _) n, fun hmem => ?_⟩
    have hk := keepsThreads_storedAt hmem s ad bs
    refine ⟨quiet_retire hk n, (stepped_retire hk n).pc, fun j hj => others_retire hk n hj, fun key hkey hout => ?_⟩
    rw [State.retire_mem]
    exact (keepsByte_storedAt hmem s hkey.1 hout bs hkey.2).2

/-! ## VLOADB -/

theorem eBytes_eq (es : ESize) : esizeBytes es = eBytes es := by cases es <;> rfl

theorem laneWidth_eBytes (es : ESize) : Vector.LaneWidth (8 * eBytes es) := by
  cases es <;> exact ⟨by decide, by decide, by decide⟩

theorem lanes_eBytes (es : ESize) : 512 / (8 * eBytes es) = 64 / eBytes es := by cases es <;> decide

theorem vLoadsB_vloadb (s : State) (es : ESize) (v : VReg) (va : Word) (m : MReg) (n : Nat) :
    VLoadsB s (s.vloadb es v va m n) n va (eBytes es) v m := by
  have hw := laneWidth_eBytes es
  have hact {i : Nat} (hi : i < 64 / eBytes es) : activeLane (s.mask m) (8 * eBytes es) i = true ↔ Act s m (8 * eBytes es) i :=
    Vector.activeLane_iff hw (by rwa [lanes_eBytes])
  have hany : ((countFrom 0 (64 / eBytes es)).any (activeLane (s.mask m) (8 * eBytes es)) = true) ↔
      ∃ i, i < 64 / eBytes es ∧ Act s m (8 * eBytes es) i := by
    rw [Vector.countFrom_zero, List.any_eq_true]
    simp only [List.mem_range]
    exact exists_congr fun i => and_congr_right hact
  refine ⟨fun hnone => ?_, fun ad hc hb hsome => ?_⟩
  · have hrun : s.vloadb es v va m n = s.fin n := by
      unfold State.vloadb
      rw [eBytes_eq]
      refine if_pos ?_
      rw [Bool.not_eq_true', ← Bool.not_eq_true, hany]
      exact fun ⟨i, hi, ha⟩ => hnone i hi ha
    rw [hrun]
    exact gives_fin s n
  · let x := ofBytes ((Reached s ad).bytesAt ad.spans)
    have hrun : s.vloadb es v va m n = ((Reached s ad).setV v (laneMap (8 * eBytes es) (s.mask m) (s.getV v) fun _ => x)).fin n := by
      unfold State.vloadb Ask.plain
      dsimp only
      rw [eBytes_eq, if_neg (by simpa using hany.mpr hsome), load_admitted hc hb]
    obtain ⟨t, ht, hret, hx, hv, hm, hf⟩ := gives_setV_behind (keepsThreads_reached s ad) v
      (laneMap (8 * eBytes es) (s.mask m) (s.getV v) fun _ => x) n
    refine ⟨_, fun i hi => ?_, t, hrun.trans ht, hret, hx, hv, hm, hf, fun key hkey => ?_⟩
    · rw [numOf_eq_ofBytes]
      exact Vector.lane_laneMap hw m (s.getV v) (fun _ => x) (by rwa [lanes_eBytes])
    · rw [hret.bytes, reached_eq, get_loaded _ hkey]

/-- Settles O21: each member is one operation at the address of its form. -/
theorem vectorLoadsStores : Obligations.VectorLoadsStores := by
  intro s v a m i l e es base va vl ve
  have hva : s.ea a (shortOff i 64) = va := ea_short s a i 64
  have hvl : s.ea a l = vl := ea_lit s a l
  have hve : s.ea a (simm e) = ve := ea_ext s a e
  rw [← hva, ← hvl, ← hve]
  exact ⟨vLoads_vload s v _ m 4, vLoads_vload s v _ m 12, vLoads_vload s v _ m 12, vStores_vstore s v _ m 4, vStores_vstore s v _ m 12,
    vStores_vstore s v _ m 12, vLoadsB_vloadb s es v _ m 4, vLoadsB_vloadb s es v _ m 12, vLoadsB_vloadb s es v _ m 12⟩

end Sys2Proof.Proofs.Access
end

section
/-!
PROOFS. Gathers and scatters (spec/11, R266 to R268; O22): their elements are admitted accesses performed in ascending order.
-/
namespace Sys2Proof.Proofs.Access
open Sys2Proof.Machine Sys2Proof.Claims Sys2Proof.Proofs.Encoding Sys2Proof.Proofs.Integer Sys2Proof.Proofs.Matrix
  Sys2Proof.Proofs.Versions

/-! ## Elements -/

/-- The number of elements that a gather or a scatter handles (R267). -/
def elemCount (es : ESize) : Nat := if eBytes es = 8 then 8 else 16

theorem elemCount_bounds (es : ESize) : 8 * eBytes es * elemCount es ≤ 512 ∧ elemCount es ≤ 64 / eBytes es := by
  cases es <;> decide

theorem elemCount_byte {es : ESize} {i : Nat} (hi : i < elemCount es) : eBytes es * i < 64 := by
  have hpos : 0 < eBytes es := by cases es <;> decide
  have hle := (elemCount_bounds es).1
  have hlt : eBytes es * i < eBytes es * elemCount es := Nat.mul_lt_mul_of_pos_left hi hpos
  rw [Nat.mul_assoc] at hle
  omega

theorem elements_eq (s : State) (es : ESize) (vi : VReg) (a : XReg) (m : MReg) :
    s.elements (eBytes es) vi (s.getX a) (s.mask m) = elems s (eBytes es) vi a m := by
  unfold State.elements elems
  rw [Vector.countFrom_zero]
  have hfilter : (List.range (elemCount es)).filter (activeLane (s.mask m) (8 * eBytes es)) =
      (List.range (elemCount es)).filter fun i => m == 0 || (s.getM m).getLsbD (eBytes es * i) := by
    refine List.filter_congr fun i hi => ?_
    rw [activeLane, Nat.mul_div_cancel_left _ (by decide), maskBit_mask s m (elemCount_byte (List.mem_range.mp hi))]
  have haddr (i : Nat) : s.getX a + (if eBytes es = 8 then BitVec.ofInt 64 (signed 64 (lane (s.getV vi) 64 i))
      else BitVec.ofInt 64 (signed 32 (lane (s.getV vi) 32 i))) = elemAt s (eBytes es) vi a i := by
    rw [elemAt, low_add, low_toInt, Vector.lane_eq, Vector.lane_eq, Vector.signed_eq (Vector.lane_lt _ _ _),
      Vector.signed_eq (Vector.lane_lt _ _ _), low_ite]
    rfl
  simp only [haddr]
  exact congrArg (List.map fun i => (i, elemAt s (eBytes es) vi a i)) hfilter

theorem mem_elems_fst {s : State} {es : ESize} {vi : VReg} {a : XReg} {m : MReg} {i : Nat} :
    i ∈ (elems s (eBytes es) vi a m).map Prod.fst ↔ i < elemCount es ∧ Act s m (8 * eBytes es) i := by
  unfold elems
  rw [List.map_map, Function.comp_def, List.map_id', List.mem_filter, List.mem_range, Act, Nat.mul_div_cancel_left _ (by decide)]
  simp [elemCount]

/-! ## Elements read -/

theorem readElements_eq (s : State) (r : List (Nat × Admitted)) : s.readElements r = readAll s r := by
  induction r generalizing s with
  | nil => rfl
  | cons q r ih =>
    rw [State.readElements, readAll, ih, numOf_eq_ofBytes]
    rfl

theorem readAll_fst (s : State) (r : List (Nat × Admitted)) : (readAll s r).2.map Prod.fst = r.map Prod.fst := by
  induction r generalizing s with
  | nil => rfl
  | cons q r ih => exact congrArg (q.1 :: ·) (ih _)

/-- A lane that is listed is looked up among the numbers listed for it, another gives the default. -/
theorem get_listed {l : SMap Nat} {d i : Nat} :
    (i ∈ l.map Prod.fst → (i, l.get d i) ∈ l) ∧ (i ∉ l.map Prod.fst → l.get d i = d) := by
  induction l with
  | nil => exact ⟨fun h => absurd h List.not_mem_nil, fun _ => rfl⟩
  | cons p l ih =>
    obtain ⟨k, x⟩ := p
    by_cases hk : k = i
    · subst hk
      exact ⟨fun _ => by simp [SMap.get], fun h => absurd List.mem_cons_self h⟩
    · have hget : SMap.get d ((k, x) :: l) i = SMap.get d l i := if_neg hk
      rw [hget]
      refine ⟨fun h => List.mem_cons_of_mem _ (ih.1 ?_), fun h => ih.2 fun hi => h (List.mem_cons_of_mem _ hi)⟩
      exact (List.mem_cons.mp h).resolve_left (Ne.symm hk)

/-! ## VGATHER -/

theorem L_ofLanes {w : Nat} {l : List Nat} (h : w * l.length ≤ 512) (i : Nat) : L (ofLanes w l) w i = l.getD i 0 % 2 ^ w := by
  rw [L, Vector.toNat_ofLanes h, Vector.packLanes_lane]

section
variable {s : State} {es : ESize} {v vi : VReg} {a : XReg} {m : MReg} {r : List (Nat × Admitted)}

/-- The register that a gather leaves. -/
def gathered (s : State) (es : ESize) (v : VReg) (r : List (Nat × Admitted)) : Vec :=
  ofLanes (8 * eBytes es) ((countFrom 0 (elemCount es)).map fun i => SMap.get (lane (s.getV v) (8 * eBytes es) i) (readAll s r).2 i)

theorem exec_vgather (h : Admits s .read (eBytes es) (elems s (eBytes es) vi a m) r) :
    exec (.vgather es v vi a m) s = ((readAll s r).1.setV v (gathered s es v r)).fin 4 := by
  have hmsi (l : List Span) : msiRefused l [] = false := by simp [msiRefused]
  change s.vgather es v vi a m = _
  unfold State.vgather
  rw [eBytes_eq]
  dsimp only
  rw [elements_eq, checkElements_of_admits h fun q _ => hmsi q.2.spans]
  dsimp only
  rw [readElements_eq]
  rfl

theorem lane_gathered (h : Admits s .read (eBytes es) (elems s (eBytes es) vi a m) r) (i : Nat) :
    (elemCount es ≤ i → L (gathered s es v r) (8 * eBytes es) i = 0) ∧
    (i < elemCount es → ¬Act s m (8 * eBytes es) i → L (gathered s es v r) (8 * eBytes es) i = L (s.getV v) (8 * eBytes es) i) ∧
    (i < elemCount es → Act s m (8 * eBytes es) i →
      ∃ x, (i, x) ∈ (readAll s r).2 ∧ L (gathered s es v r) (8 * eBytes es) i = x % 2 ^ (8 * eBytes es)) := by
  have hlisted : i ∈ (readAll s r).2.map Prod.fst ↔ i < elemCount es ∧ Act s m (8 * eBytes es) i := by
    rw [readAll_fst, admits_fst h, mem_elems_fst]
  have hlane (hi : i < elemCount es) : L (gathered s es v r) (8 * eBytes es) i =
      SMap.get (lane (s.getV v) (8 * eBytes es) i) (readAll s r).2 i % 2 ^ (8 * eBytes es) :=
    Vector.lane_ofLanes (elemCount_bounds es).1 _ hi
  refine ⟨fun hi => ?above, fun hi hact => ?inactive, fun hi hact => ?active⟩
  case above =>
    have hlen : ((countFrom 0 (elemCount es)).map fun i => SMap.get (lane (s.getV v) (8 * eBytes es) i) (readAll s r).2 i).length =
        elemCount es := by rw [List.length_map, Vector.countFrom_zero, List.length_range]
    rw [gathered, L_ofLanes (by rw [hlen]; exact (elemCount_bounds es).1), List.getD_eq_getElem?_getD,
      List.getElem?_eq_none (by rwa [hlen]), Option.getD_none, Nat.zero_mod]
  case inactive =>
    rw [hlane hi, get_listed.2 fun hmem => hact (hlisted.mp hmem).2]
    exact Nat.mod_eq_of_lt (Vector.lane_lt _ _ _)
  case active => exact ⟨_, get_listed.1 (hlisted.mpr ⟨hi, hact⟩), hlane hi⟩

/-! ## VSCATTER -/

/-- The bytes of an element to store. -/
theorem elementBytes_eq (s : State) (es : ESize) (v : VReg) (i : Nat) : bytesOf (eBytes es) (lane (s.getV v) (8 * eBytes es) i) =
    bytesOfWord (BitVec.ofNat 64 (L (s.getV v) (8 * eBytes es) i)) (eBytes es) := by
  have hlt : L (s.getV v) (8 * eBytes es) i < 2 ^ 64 :=
    (Vector.lane_lt _ _ _).trans_le (Nat.pow_le_pow_right (by decide) (by cases es <;> decide))
  rw [← bytesOf_toNat, BitVec.toNat_ofNat, Nat.mod_eq_of_lt hlt, Vector.lane_eq]

theorem over_eq_writeAll (s : State) (el : Nat → List Byte) (r : List (Nat × Admitted)) :
    (s.over r fun u p => Stored u p.2 (el p.1)) = writeAll s el r := by
  induction r generalizing s with
  | nil => rfl
  | cons q r ih => exact ih _

theorem exec_vscatter (h : Admits s .write (eBytes es) (elems s (eBytes es) vi a m) r)
    (hmsi : ∀ q ∈ r, msiRefused q.2.spans (bytesOfWord (BitVec.ofNat 64 (L (s.getV v) (8 * eBytes es) q.1)) (eBytes es)) = false) :
    exec (.vscatter es v vi a m) s =
      (writeAll s (fun i => bytesOfWord (BitVec.ofNat 64 (L (s.getV v) (8 * eBytes es) i)) (eBytes es)) r).fin 4 := by
  change s.vscatter es v vi a m = _
  unfold State.vscatter
  rw [eBytes_eq]
  dsimp only
  simp only [elementBytes_eq]
  rw [elements_eq, checkElements_of_admits h hmsi, ← over_eq_writeAll]
  rfl

/-- Stores to memory, one after the other, leave the registers and every byte outside them, but those they mark and those the thread
had write-combined. -/
theorem writeAll_frame {el : Nat → List Byte} (hm : ∀ q ∈ r, AllMemory q.2) (n : Nat) :
    Quiet s ((writeAll s el r).retire n) ∧ ((writeAll s el r).retire n).me.pc = nextPc s n ∧
      (∀ j, j ≠ s.cur → ((writeAll s el r).retire n).thr j = s.thr j) ∧
      ∀ key, (∀ q ∈ r, Unmarked s q.2 key ∧ Outside q.2 key) → ((writeAll s el r).retire n).mem.get key = s.mem.get key := by
  have hk := keepsThreads_writeAll hm s el
  refine ⟨quiet_retire hk n, (stepped_retire hk n).pc, fun j hj => others_retire hk n hj, fun key hkey => ?_⟩
  rw [State.retire_mem]
  cases r with
  | nil => rfl
  | cons q r =>
    obtain ⟨⟨-, hheld⟩, -⟩ := hkey q List.mem_cons_self
    exact (keepsByte_writeAll hm s el (fun x hx => ⟨(hkey x hx).1.1, (hkey x hx).2⟩) hheld).2

end

/-- Settles O22: the elements of both members are admitted accesses in lane order. -/
theorem gatherScatter : Obligations.GatherScatter := by
  intro s es v vi a m e nl l
  refine ⟨fun r hr => ?gather, fun r hr => ?scatter⟩
  case gather =>
    refine ⟨gathered s es v r, fun i _ => lane_gathered hr i, ?_⟩
    rw [exec_vgather hr]
    exact gives_setV_behind (keepsThreads_readAll s r) v _ 4
  case scatter =>
    intro el hmsi
    exact ⟨_, (exec_vscatter hr hmsi).trans (State.fin_eq _ 4), retired_retire _ 4, quiet_retire (.refl _) 4,
      fun hm => writeAll_frame hm 4⟩

end Sys2Proof.Proofs.Access
end

section
/-!
PROOFS. Atomics (spec/11, R269 to R271; spec/08, R212; O23, O24): an aligned access of 4 or 8 bytes has one part, so what capture and
replay keep of an atomic (spec/22, R498, R499) does not depend on where a store to the hub leads.
-/
namespace Sys2Proof.Proofs.Access
open Sys2Proof.Machine Sys2Proof.Claims Sys2Proof.Proofs.Encoding Sys2Proof.Proofs.Integer Sys2Proof.Proofs.Matrix
  Sys2Proof.Proofs.Versions

/-! ## The parts of an aligned access (R210, R212) -/

theorem cutAt_whole {g va n : Nat} (hn : n ≠ 0) (h : va % g + n ≤ g) : cutAt g va (n + 1) n = [(va, n)] := by
  obtain ⟨m, rfl⟩ := Nat.exists_eq_succ_of_ne_zero hn
  have hmin : min (m + 1) (g - va % g) = m + 1 := by omega
  rw [cutAt, if_neg hn]
  dsimp only
  rw [hmin, Nat.sub_self, cutAt, if_pos rfl]

/-- What passes the checks is aligned, and lies in the window or is translated. -/
theorem check_ok {s : State} {w : Who} {ask : Ask} {va : Word} {n : Nat} {ad : Admitted} (hn : n ≠ 0) (h : s.check w ask va n = .ok ad) :
    va.toNat % ask.align = 0 ∧ (s.checkWindow w ask va.toNat n = .ok ad ∨ s.checkMapped w ask va.toNat n = .ok ad) := by
  unfold State.check at h
  dsimp only at h
  rw [if_neg hn] at h
  split at h
  · cases h
  · by_cases halign : va.toNat % ask.align = 0
    · rw [if_neg (not_not.mpr halign)] at h
      split at h
      · exact ⟨halign, .inl h⟩
      · exact ⟨halign, .inr h⟩
    · rw [if_pos halign] at h
      cases h

theorem checkWindow_spans {s : State} {w : Who} {ask : Ask} {va n : Nat} {ad : Admitted} (h : s.checkWindow w ask va n = .ok ad) :
    ad.spans.length = (cutAt 64 va (n + 1) n).length := by
  unfold State.checkWindow at h
  dsimp only at h
  split at h
  · cases h
  · split at h
    · cases h
    · cases h
      exact List.length_map _

theorem checkMapped_spans {s : State} {w : Who} {ask : Ask} {va n : Nat} {ad : Admitted} (h : s.checkMapped w ask va n = .ok ad) :
    ad.spans = [] ∨ ∃ es, spansOf (cutAt (2 ^ 14) va (n + 1) n) es = .ok ad.spans := by
  have ofSpans {es : List TlbEntry} {m : Marks} (hs : (match spansOf (cutAt (2 ^ 14) va (n + 1) n) es with
      | .error f => Except.error f | .ok spans => .ok (Admitted.mk spans es m)) = .ok ad) :
      spansOf (cutAt (2 ^ 14) va (n + 1) n) es = .ok ad.spans := by
    revert hs
    cases hspans : spansOf (cutAt (2 ^ 14) va (n + 1) n) es with
    | error f => exact fun hs => by cases hs
    | ok spans => exact fun hs => by cases hs; rfl
  unfold State.checkMapped at h
  generalize (if ask.acc = .exec then none else s.leaseGap w (BitVec.ofNat 64 va) n) = gap at h
  dsimp only at h
  split at h
  · split at h <;> cases h
  · cases h
  · next es marks _ =>
    split at h
    · cases h
      exact .inl rfl
    · split at h
      · cases h
      · split at h
        · cases h
        · split at h
          · cases h
          · split at h
            · cases h
            · split at h
              · cases h
              · split at h
                · cases h
                · exact .inr ⟨_, ofSpans h⟩

/-- The parts of a page that is reached within 64 bytes. -/
theorem spansOf_whole {a n : Nat} (hcut : cutAt 64 a (n + 1) n = [(a, n)]) {es : List TlbEntry} {l : List Span}
    (h : spansOf [(a, n)] es = .ok l) : l.length ≤ 1 := by
  cases es with
  | nil =>
    cases h
    exact Nat.zero_le 1
  | cons e es =>
    have hrest : spansOf [] es = .ok [] := by cases es <;> rfl
    rw [spansOf, hcut, hrest] at h
    dsimp only at h
    split at h
    · cases h
    · cases h
      rw [List.append_nil]
      exact List.length_filterMap_le _ _

/-- An access of 4 or 8 bytes that asks for its own alignment has at most one part. -/
theorem spans_aligned {s : State} {w : Who} {ask : Ask} {va : Word} {n : Nat} {ad : Admitted} (hn : n = 4 ∨ n = 8) (ha : ask.align = n)
    (h : s.check w ask va n = .ok ad) : ad.spans.length ≤ 1 := by
  have hpos : n ≠ 0 := by omega
  obtain ⟨halign, hwhere⟩ := check_ok hpos h
  rw [ha] at halign
  have hpart : cutAt 64 va.toNat (n + 1) n = [(va.toNat, n)] := cutAt_whole hpos (by rcases hn with rfl | rfl <;> omega)
  have hpage : cutAt (2 ^ 14) va.toNat (n + 1) n = [(va.toNat, n)] := cutAt_whole hpos (by rcases hn with rfl | rfl <;> omega)
  rcases hwhere with hwin | hmapped
  · rw [checkWindow_spans hwin, hpart]
    exact Nat.le_refl 1
  · rcases checkMapped_spans hmapped with hnil | ⟨es, hes⟩
    · rw [hnil]
      exact Nat.zero_le 1
    · rw [hpage] at hes
      exact spansOf_whole hpart hes

/-- A misaligned access of `n` bytes, below the reserved addresses and not across the window's base, fails the check of its alignment. -/
theorem check_misaligned {s : State} {w : Who} {ask : Ask} {va : Word} {n : Nat} (hn : n ≠ 0) (h : va.toNat % ask.align ≠ 0)
    (hres : va.toNat + n ≤ 0x7F1000000000) (hwin : va.toNat + n ≤ 0x7F0000000000 ∨ 0x7F0000000000 ≤ va.toNat) :
    s.check w ask va n = .error (.trap Cause.misalign va) := by
  have hrange : rangeFault va.toNat n = none := by
    unfold rangeFault resBase winBase
    rw [if_neg (by omega), if_neg (by omega)]
  unfold State.check
  dsimp only
  rw [if_neg hn, hrange]
  exact if_pos h

/-! ## The task of a thread -/

/-- What says which task a thread is bound to. -/
structure KeepsTasks (s u : State) : Prop where
  binds : u.binds = s.binds
  tasks : u.tasks = s.tasks
  boot : u.boot = s.boot

theorem KeepsTasks.refl (s : State) : KeepsTasks s s := ⟨rfl, rfl, rfl⟩

theorem KeepsTasks.trans {s u v : State} (h : KeepsTasks s u) (h' : KeepsTasks u v) : KeepsTasks s v :=
  ⟨h'.binds.trans h.binds, h'.tasks.trans h.tasks, h'.boot.trans h.boot⟩

theorem KeepsTasks.captureOf {s u : State} (h : KeepsTasks s u) (tid : Nat) : u.captureOf tid = s.captureOf tid := by
  unfold State.captureOf State.taskOf State.gangOf State.bind State.isService
  rw [h.binds, h.tasks, h.boot]

theorem keepsTasks_ite {s u v : State} {p : Prop} [Decidable p] (h : KeepsTasks s u) (h' : KeepsTasks s v) :
    KeepsTasks s (if p then u else v) := by
  split
  · exact h
  · exact h'

theorem keepsTasks_over {α : Type} {s : State} {l : List α} {f : State → α → State} (h : ∀ a u, KeepsTasks u (f u a)) :
    KeepsTasks s (s.over l f) :=
  over_induction (.refl s) fun a _ u hu => hu.trans (h a u)

theorem keepsTasks_poke (s : State) (k : Nat) (bs : List Byte) : KeepsTasks s (s.poke k bs) := by
  obtain ⟨c, h⟩ := poke_eq s k bs
  rw [h]
  exact ⟨rfl, rfl, rfl⟩

theorem keepsTasks_flushWc (s : State) (tid : Nat) : KeepsTasks s (s.flushWc tid) := by
  obtain ⟨m, b, c, w, h⟩ := flushWc_rest s tid
  rw [h]
  exact ⟨rfl, rfl, rfl⟩

theorem keepsTasks_loaded (s : State) (ad : Admitted) (l : List Span) : KeepsTasks s (loaded s ad l) := by
  have hpages : KeepsTasks s (s.admitPages s.meWho ad) := by
    obtain ⟨p, th, k, t, h, -⟩ := admitPages_cases s s.meWho ad
    rw [h]
    exact ⟨rfl, rfl, rfl⟩
  have hreach : KeepsTasks s (s.admitAccess s.meWho ad) := hpages.trans (keepsTasks_over fun p u => by
    obtain ⟨k, w, h⟩ := reach_eq u p
    rw [h]
    exact ⟨rfl, rfl, rfl⟩)
  refine (hreach.trans (keepsTasks_ite (keepsTasks_flushWc _ _) (.refl _))).trans (keepsTasks_over fun p u => ?_)
  split
  · obtain ⟨w, f, h⟩ := hubRead_eq u _
    rw [h]
    exact ⟨rfl, rfl, rfl⟩
  · exact .refl u

theorem keepsTasks_writeSpans {hub : State → Nat → Nat → State} {tid : Nat} {l : List Span} (hl : ∀ p ∈ l, ∃ k, p.loc = .mem k)
    (s : State) (bs : List Byte) : KeepsTasks s (s.writeSpans hub tid true l bs) := by
  induction l generalizing s bs with
  | nil => exact .refl s
  | cons p l ih =>
    obtain ⟨k, hp⟩ := hl p List.mem_cons_self
    rw [writeSpans_cons_mem s hub tid hp]
    have hpart : KeepsTasks s (storePart s tid p k (bs.take p.n)) :=
      keepsTasks_ite ⟨rfl, rfl, rfl⟩ ((keepsTasks_ite (keepsTasks_flushWc s tid) (.refl s)).trans (keepsTasks_poke _ _ _))
    exact hpart.trans (ih (fun q hq => hl q (List.mem_cons_of_mem p hq)) _ _)

/-! ## What capture and replay keep of an atomic -/

theorem rudiment_uncaptured {s : State} {tid : Nat} (h : s.captureOf tid = none) (va : Word) (l : List Span) : s.rudiment tid va l = s := by
  unfold State.rudiment
  rw [h]

theorem rudiment_noSlice {s : State} {l : List Span} (h : s.sliceOf l = none) (tid : Nat) (va : Word) : s.rudiment tid va l = s := by
  unfold State.rudiment
  rw [h]
  cases s.captureOf tid <;> rfl

/-! ## An atomic that is performed -/

/-- The state after an atomic has stored its new value, if any. -/
def exchanged (u : State) (tid : Nat) (l : List Span) (n : Nat) (new : Option Nat) : State :=
  match new with
  | some v => u.writeSpans (fun s o v => s.hubStore true o v) tid true l (bytesOf n v)
  | none => u

theorem keepsThreads_exchanged {l : List Span} (hl : ∀ p ∈ l, ∃ k, p.loc = .mem k) (u : State) (tid n : Nat) (new : Option Nat) :
    KeepsThreads u (exchanged u tid l n new) := by
  cases new with
  | none => exact .refl u
  | some v => exact keepsThreads_writeSpans hl u _

theorem keepsTasks_exchanged {l : List Span} (hl : ∀ p ∈ l, ∃ k, p.loc = .mem k) (u : State) (tid n : Nat) (new : Option Nat) :
    KeepsTasks u (exchanged u tid l n new) := by
  cases new with
  | none => exact .refl u
  | some v => exact keepsTasks_writeSpans hl u _

theorem keepsByte_exchanged {l : List Span} (hl : ∀ p ∈ l, ∃ k, p.loc = .mem k) (u : State) (tid n : Nat) {new : Option Nat} {key : Nat}
    (hkey : new = none ∨ ∀ p ∈ l, ∀ k, p.loc = .mem k → key < k ∨ k + p.n ≤ key) :
    KeepsByte tid key u (exchanged u tid l n new) := by
  cases new with
  | none => exact .refl u
  | some v => exact keepsByte_writeSpans hl (hkey.resolve_left (Option.some_ne_none v)) u _

/-- The log is kept of the thread that made the atomic, even where a store to the hub came between. -/
theorem rudiment_exchanged {l : List Span} (hl : l.length ≤ 1) (u : State) (va : Word) (n : Nat) (new : Option Nat) :
    (exchanged u u.cur l n new).rudiment (exchanged u u.cur l n new).cur va l = (exchanged u u.cur l n new).rudiment u.cur va l := by
  have hnoSlice (h : (exchanged u u.cur l n new).sliceOf l = none) :
      (exchanged u u.cur l n new).rudiment (exchanged u u.cur l n new).cur va l = (exchanged u u.cur l n new).rudiment u.cur va l := by
    rw [rudiment_noSlice h, rudiment_noSlice h]
  match l, hl with
  | [], _ => exact hnoSlice rfl
  | [p], _ =>
    cases hp : p.loc with
    | mem k => rw [(keepsThreads_exchanged (fun q hq => ⟨k, by rw [List.mem_singleton.mp hq, hp]⟩) u u.cur n new).cur]
    | win c off => exact hnoSlice (by simp only [State.sliceOf, hp])
    | hub off => exact hnoSlice (by simp only [State.sliceOf, hp])

/-- X(rd) written with flags that may be none. -/
theorem gives_putX_flags (z : State) (d : XReg) (w : Word) (n : Nat) (f : BitVec 5) :
    Gives ((if f = 0 then z else z.modMe (·.raiseFlags f)).putX d w n) fun t =>
      Retired z t (nextPc z n) ∧ OnlyX z t d w ∧ SameV z t ∧ SameM z t ∧ Raised z t f z.me.csr.srseed := by
  by_cases hf : f = 0
  · obtain ⟨t, ht, hret, hx, hv, hm, hflags, hseed⟩ := writesX_putX z d w n
    rw [if_pos hf]
    exact ⟨t, ht, hret, hx, hv, hm, by simpa [hf] using hflags, hseed⟩
  · rw [if_neg hf]
    exact Float.gives_setX z ⟨z.me.csr.srseed, f⟩ d w n (Float.modMe_raiseFlags z f)

/-- The state that an atomic leaves before it writes rd. -/
def atomically (s : State) (os : Os) (va : Word) (ad : Admitted) (n : Nat) (new : Option Nat) : State :=
  Released ((exchanged (Reached s ad) s.cur ad.spans n new).rudiment s.cur va ad.spans) os

section
variable {s : State} {os : Os} {va : Word} {n : Nat} {ad : Admitted}

theorem atomic_admitted (hn : n = 4 ∨ n = 8) (hc : s.check s.meWho ⟨.rw, n, true, false⟩ va n = .ok ad)
    (hheld : s.heldByReplay s.cur va ad.spans = false) (hb : s.badSpan false ad.spans = none) (new : Nat → Option Nat) (fl : Nat → BitVec 5)
    (ext : Nat → Word) (d : XReg) : s.atomic os va n new fl ext d =
      let old := Claims.numOf ((Reached s ad).bytesAt ad.spans)
      let z := atomically s os va ad n (new old)
      (if fl old = 0 then z else z.modMe (·.raiseFlags (fl old))).putX d (ext old) 4 := by
  have hcur : (Reached s ad).cur = s.cur := (keepsThreads_reached s ad).cur
  have hlog := rudiment_exchanged (spans_aligned hn rfl hc) (Reached s ad) va n (new (Claims.numOf ((Reached s ad).bytesAt ad.spans)))
  rw [hcur] at hlog
  unfold State.atomic
  rw [hc]
  dsimp only
  rw [if_neg (by simp [hheld]), hb]
  dsimp only
  rw [show (s.admitAccess s.meWho ad).loadEffect s.cur ad.spans = Reached s ad from rfl, ← numOf_eq_ofBytes, hcur]
  generalize new (Claims.numOf ((Reached s ad).bytesAt ad.spans)) = w at hlog ⊢
  rw [atomically, ← hlog, ← release_eq]
  cases w <;> rfl

section
variable (hm : AllMemory ad) (hcap : s.captureOf s.cur = none) (new : Option Nat)
include hm hcap

/-- Where no capture covers the task, an atomic on memory is the load, the store and the release. -/
theorem atomically_uncaptured : atomically s os va ad n new = Released (exchanged (Reached s ad) s.cur ad.spans n new) os := by
  have hk : KeepsTasks s (exchanged (Reached s ad) s.cur ad.spans n new) :=
    (keepsTasks_loaded s ad ad.spans).trans (keepsTasks_exchanged hm _ _ _ _)
  rw [atomically, rudiment_uncaptured ((hk.captureOf s.cur).trans hcap)]

theorem keepsThreads_atomically : KeepsThreads s (atomically s os va ad n new) := by
  rw [atomically_uncaptured hm hcap]
  exact ((keepsThreads_reached s ad).trans (keepsThreads_exchanged hm _ _ _ _)).trans (keepsThreads_released _ os)

theorem keepsByte_releasedExchange (key : Nat) : KeepsByte s.cur key (exchanged (Reached s ad) s.cur ad.spans n new)
    (atomically s os va ad n new) := by
  have hcur : (exchanged (Reached s ad) s.cur ad.spans n new).cur = s.cur :=
    ((keepsThreads_reached s ad).trans (keepsThreads_exchanged hm _ _ _ _)).cur
  have hrel := keepsByte_released (exchanged (Reached s ad) s.cur ad.spans n new) os key
  rwa [hcur, ← atomically_uncaptured (va := va) hm hcap] at hrel

theorem get_atomically {key : Nat} (hkey : Unmarked s ad key) (hout : new = none ∨ Outside ad key) :
    (atomically s os va ad n new).mem.get key = s.mem.get key := by
  have hreach : KeepsByte s.cur key s (Reached s ad) := keepsByte_loaded s ad.spans hkey.1
  exact (((hreach.trans (keepsByte_exchanged hm _ _ _ hout)).trans (keepsByte_releasedExchange hm hcap new key)) hkey.2).2

end

/-- What an atomic in one part stores is read back. -/
theorem get_atomically_place (hm : AllMemory ad) (hcap : s.captureOf s.cur = none) {p : Span} {k j v : Nat} (hspans : ad.spans = [p])
    (hp : p.loc = .mem k) (hpn : p.n = n) (hca : p.ca ≠ 3) (hj : j < n) :
    (atomically s os va ad n (some v)).mem.get (k + j) =
      if isLm (k + j) = true ∧ 0x7C8 ≤ (k + j) % 2 ^ 24 ∧ (k + j) % 2 ^ 24 < 0x800 then 0 else BitVec.ofNat 8 (v / 256 ^ j) := by
  have hlen : (bytesOf n v).length = n := bytesOf_length n v
  obtain ⟨hfree, hread⟩ := get_writeSpans_single (j := j) (Reached s ad) (fun s o v => s.hubStore true o v) s.cur hp (hpn.trans hlen.symm) hca
    (hj.trans_eq hlen.symm)
  have hkeep := keepsByte_releasedExchange (os := os) (va := va) (n := n) hm hcap (some v) (k + j)
  rw [hspans] at hkeep
  rw [(hkeep (hfree _)).2]
  refine hread.trans ?_
  rw [bytesOf_getD hj]

end

/-- An atomic, from what it answers of an admitted access. -/
theorem atomicAt_atomic {n : Nat} (hn : n = 4 ∨ n = 8) (s : State) (os : Os) (va : Word) (new : Nat → Option Nat) (fl : Nat → BitVec 5)
    {ext : Nat → Word} {res : Nat → Int} (hext : ∀ old, ext old = low (res old)) (d : XReg) :
    AtomicAt s (s.atomic os va n new fl ext d) os va n new fl res d := by
  intro ad hc hheld hb u old w z
  have hz : z = atomically s os va ad n (new old) := by
    have hw : w = exchanged u s.cur ad.spans n (new old) := by
      dsimp only [w]
      cases new old with
      | none => rfl
      | some v => exact congrArg _ (bytesOf_eq_map n v).symm
    rw [show z = Released (w.rudiment s.cur va ad.spans) os from rfl, hw]
    rfl
  obtain ⟨t, ht, hret, hx, hv, hmr, hf⟩ := gives_putX_flags z d (ext old) 4 (fl old)
  refine ⟨t, ?_, hret, hext old ▸ hx, hv, hmr, hf, fun hm hcap => ?_⟩
  · rw [atomic_admitted hn hc hheld hb, ← ht, hz]
  · have hk : KeepsThreads s z := hz ▸ keepsThreads_atomically hm hcap (new old)
    refine ⟨onlyX_behind hk (hext old ▸ hx), sameV_behind hk hv, sameM_behind hk hmr, raised_behind hk hf,
      hret.pc.trans (nextPc_of_keepsThreads hk 4), fun j hj => others_behind hk hret hj, fun key hkey hout => ?_,
      fun p k v hspans hp hpn hca hnew j hj => ?_⟩
    · rw [hret.bytes, hz, get_atomically hm hcap _ hkey hout]
    · rw [hret.bytes, hz, hnew, get_atomically_place hm hcap hspans hp hpn hca hj]

end Sys2Proof.Proofs.Access
end

section
/-!
PROOFS. Atomics (spec/11, R269 to R271; O23, O24): each is the one operation, with its own function.
-/
namespace Sys2Proof.Proofs.Access
open Sys2Proof.Machine Sys2Proof.Claims Sys2Proof.Proofs.Encoding Sys2Proof.Proofs.Integer Sys2Proof.Proofs.Matrix
  Sys2Proof.Proofs.Versions

theorem amoBytes_cases (dbl : Bool) : amoBytes dbl = 4 ∨ amoBytes dbl = 8 := by cases dbl <;> decide

theorem amoExt_eq (dbl : Bool) (old : Nat) : amoExt dbl old = low (if dbl then (old : Int) else Sg 32 (old % 2 ^ 32)) := by
  cases dbl with
  | false => exact sext_ofNat old (by decide) (by decide)
  | true => exact (low_natCast old).symm

/-- The signed order of Table 11-3 is that of the lanes. -/
theorem signed_eq_Sg (w n : Nat) : signed w n = Sg w (n % 2 ^ w) := by
  rw [← Vector.signed_eq (Nat.mod_lt n (Nat.two_pow_pos w)), signed, signed, Nat.mod_mod]

theorem amo_of {mk : XReg → XReg → XReg → Bool → Os → Instr} {f g : Nat → Nat → Nat → Nat} (hfg : ∀ w x y, f w x y = g w x y)
    (hmk : ∀ s d a b dbl os, exec (mk d a b dbl os) s = s.amo f d a b dbl os) : Amo mk g := by
  obtain rfl : f = g := funext fun w => funext fun x => funext fun y => hfg w x y
  intro s d a b dbl os
  rw [hmk]
  exact atomicAt_atomic (amoBytes_cases dbl) s os (s.getX a)
    (fun old => some (f (8 * amoBytes dbl) old ((s.getX b).toNat % 2 ^ (8 * amoBytes dbl)))) (fun _ => 0) (amoExt_eq dbl) d

/-- An atomic at a misaligned address traps before it reads anything. -/
theorem atomic_misaligned {s : State} {va : Word} {n : Nat} (hn : n = 4 ∨ n = 8) (h : va.toNat % n ≠ 0)
    (hres : va.toNat + n ≤ 0x7F1000000000) (hwin : va.toNat + n ≤ 0x7F0000000000 ∨ 0x7F0000000000 ≤ va.toNat) (os : Os)
    (new : Nat → Option Nat) (fl : Nat → BitVec 5) (ext : Nat → Word) (d : XReg) :
    s.atomic os va n new fl ext d = .next (s.trap 0x03 va) := by
  have hc : s.check s.meWho ⟨.rw, n, true, false⟩ va n = .error (.trap Cause.misalign va) :=
    check_misaligned (by omega) h hres hwin
  unfold State.atomic
  rw [hc]
  rfl

theorem misaligns_of {mk : XReg → XReg → XReg → Bool → Os → Instr}
    (hmk : ∀ s d a b dbl os, ∃ new fl ext, exec (mk d a b dbl os) s = s.atomic os (s.getX a) (amoBytes dbl) new fl ext d) : Misaligns mk := by
  intro s d a b dbl os n x h hres hwin
  obtain ⟨new, fl, ext, hrun⟩ := hmk s d a b dbl os
  exact hrun.trans (atomic_misaligned (amoBytes_cases dbl) h hres hwin os new fl ext d)

theorem misaligns_amo {mk : XReg → XReg → XReg → Bool → Os → Instr} {f : Nat → Nat → Nat → Nat}
    (hmk : ∀ s d a b dbl os, exec (mk d a b dbl os) s = s.amo f d a b dbl os) : Misaligns mk :=
  misaligns_of fun s d a b dbl os =>
    ⟨fun old => some (f (8 * amoBytes dbl) old ((s.getX b).toNat % 2 ^ (8 * amoBytes dbl))), fun _ => 0, amoExt dbl, hmk s d a b dbl os⟩

theorem exec_amocas (s : State) (d a b : XReg) (dbl : Bool) (os : Os) : exec (.amocas d a b dbl os) s =
    s.atomic os (s.getX a) (amoBytes dbl) (fun old => if old = (s.getX d).toNat % 2 ^ (8 * amoBytes dbl) then
      some ((s.getX b).toNat % 2 ^ (8 * amoBytes dbl)) else none) (fun _ => 0) (amoExt dbl) d := rfl

theorem exec_amofadd (s : State) (d a b : XReg) (dbl : Bool) (os : Os) : exec (.amofadd d a b dbl os) s =
    s.atomic os (s.getX a) (amoBytes dbl) (fun old => some (fadd dbl old ((s.getX b).toNat % 2 ^ (8 * amoBytes dbl))).1)
      (fun old => (fadd dbl old ((s.getX b).toNat % 2 ^ (8 * amoBytes dbl))).2.flags) (BitVec.ofNat 64) d := rfl

/-- Settles O23: what each atomic stores is its function, and the check of the alignment comes before every other part of the access. -/
theorem atomics : Obligations.Atomics := by
  refine ⟨amo_of (f := Lanes.add) (fun _ _ _ => rfl) fun _ _ _ _ _ _ => rfl, amo_of (f := Lanes.and) (fun _ _ _ => rfl) fun _ _ _ _ _ _ => rfl,
    amo_of (f := Lanes.or) (fun _ _ _ => rfl) fun _ _ _ _ _ _ => rfl, amo_of (f := Lanes.xor) (fun _ _ _ => rfl) fun _ _ _ _ _ _ => rfl,
    amo_of (f := Lanes.min) (fun w x y => by rw [Lanes.min, signed_eq_Sg, signed_eq_Sg]) fun _ _ _ _ _ _ => rfl,
    amo_of (f := Lanes.max) (fun w x y => by rw [Lanes.max, signed_eq_Sg, signed_eq_Sg]) fun _ _ _ _ _ _ => rfl,
    amo_of (f := laneMinu) (fun _ _ _ => rfl) fun _ _ _ _ _ _ => rfl, amo_of (f := laneMaxu) (fun _ _ _ => rfl) fun _ _ _ _ _ _ => rfl,
    amo_of (f := fun _ _ src => src) (fun _ _ _ => rfl) fun _ _ _ _ _ _ => rfl, misaligns_amo (f := Lanes.add) fun _ _ _ _ _ _ => rfl,
    misaligns_amo (f := Lanes.and) fun _ _ _ _ _ _ => rfl, misaligns_amo (f := Lanes.or) fun _ _ _ _ _ _ => rfl,
    misaligns_amo (f := Lanes.xor) fun _ _ _ _ _ _ => rfl, misaligns_amo (f := Lanes.min) fun _ _ _ _ _ _ => rfl,
    misaligns_amo (f := Lanes.max) fun _ _ _ _ _ _ => rfl, misaligns_amo (f := laneMinu) fun _ _ _ _ _ _ => rfl,
    misaligns_amo (f := laneMaxu) fun _ _ _ _ _ _ => rfl, misaligns_amo (f := fun _ _ src => src) fun _ _ _ _ _ _ => rfl,
    misaligns_of fun s d a b dbl os => ⟨_, _, _, exec_amocas s d a b dbl os⟩,
    misaligns_of fun s d a b dbl os => ⟨_, _, _, exec_amofadd s d a b dbl os⟩⟩

/-! ## AMOFADD (R270) -/

theorem fadd_eq (dbl : Bool) (old src : Nat) : fadd dbl old src =
    let f : Fmt := if dbl then .f64 else .f32
    rnd f .rne false (fAdd .rne (f.decode old) (f.decode src)).1 ⟨0, (fAdd .rne (f.decode old) (f.decode src)).2⟩ := by
  have hzero (x : BitVec 5) : 0 ||| x = x := BitVec.zero_or
  simp only [fadd, Fst.raise, hzero]

/-! ## ABUMP (R271) -/

theorem ofBytes_lt (bs : List Byte) : ofBytes bs < 256 ^ bs.length := by
  induction bs with
  | nil => exact Nat.one_pos
  | cons b bs ih =>
    have hb : b.toNat < 256 := b.isLt
    rw [ofBytes, List.length_cons, pow_succ]
    omega

/-- The eight bytes of an entry of the constant window are its number. -/
theorem kon_window {s : State} {k : BitVec 8} (h : badIn s.bad (winKey s.myCore (8 * k.toNat)) 8 = none) :
    ∃ c, s.kon k = .ok c ∧ c.toNat = window s k.toNat := by
  have hlt : s.mem.num (winKey s.myCore (8 * k.toNat)) 8 < 2 ^ 64 := by
    have := ofBytes_lt (s.mem.getBytes (winKey s.myCore (8 * k.toNat)) 8)
    rwa [getBytes_eq_map, List.length_map, List.length_range, ← getBytes_eq_map] at this
  refine ⟨_, kon_ok h, ?_⟩
  rw [BitVec.toNat_ofNat, Nat.mod_eq_of_lt hlt, num_eq_sum]
  simp only [winKey_add]
  rfl

theorem alignUp_16 (n : Nat) : alignUp n 16 = (n + 15) / 16 * 16 := rfl

section
variable (base lim old k : Nat)

theorem abump_eq : abump base lim old k = if old < base ∨ lim < old ∨ lim < old + k then none else some old := by
  have : (old < base ∨ lim < old ∨ lim - old < k) ↔ old < base ∨ lim < old ∨ lim < old + k := by omega
  simp only [abump, this]

theorem abump_stored : (if k = 0 then none else (abump base lim old k).map (· + k)) =
    if (old < base ∨ lim < old ∨ lim < old + k) ∨ k = 0 then none else some (old + k) := by
  rw [abump_eq]
  by_cases hk : k = 0
  · rw [if_pos hk, if_pos (.inr hk)]
  · rw [if_neg hk]
    by_cases hr : old < base ∨ lim < old ∨ lim < old + k
    · rw [if_pos hr, if_pos (.inl hr)]
      rfl
    · rw [if_neg hr, if_neg (by simp [hr, hk])]
      rfl

theorem abump_result : (match abump base lim old k with | some v => BitVec.ofNat 64 v | none => BitVec.allOnes 64) =
    low (if old < base ∨ lim < old ∨ lim < old + k then -1 else (old : Int)) := by
  rw [abump_eq, low_ite, low_neg_one, low_natCast]
  by_cases hr : old < base ∨ lim < old ∨ lim < old + k
  · rw [if_pos hr, if_pos hr]
  · rw [if_neg hr, if_neg hr]

end

/-- ABUMP where neither bound's word is known bad. -/
theorem exec_abump {s : State} {base lim : Word} (hbase : s.kon 247 = .ok base) (hlim : s.kon 248 = .ok lim) (d a b : XReg) (os : Os) :
    exec (.abump d a b os) s =
      let k := alignUp (s.getX b).toNat 16
      s.atomic os (s.getX a) 8
        (fun old => if (old < base.toNat ∨ lim.toNat < old ∨ lim.toNat < old + k) ∨ k = 0 then none else some (old + k)) (fun _ => 0)
        (fun old => low (if old < base.toNat ∨ lim.toNat < old ∨ lim.toNat < old + k then -1 else (old : Int))) d := by
  change execAbump d a b os s = _
  conv => lhs; fun; fun; fun; fun; fun; delta execAbump
  rw [hbase, hlim]
  exact congrArg₂ (fun new ext => s.atomic os (s.getX a) 8 new (fun _ => 0) ext d) (funext fun old => abump_stored _ _ old _)
    (funext fun old => abump_result _ _ old _)

/-- Settles O24: the three are the one operation too, ABUMP between the bounds that it reads. -/
theorem atomicsConditional : Obligations.AtomicsConditional := by
  intro s d a b dbl os n src cmp f sum base lim k refused
  refine ⟨?_, ?_, fun hbase hlim => ?_⟩
  · rw [exec_amocas]
    exact atomicAt_atomic (amoBytes_cases dbl) s os (s.getX a) (fun old => if old = cmp then some src else none) (fun _ => 0) (amoExt_eq dbl) d
  · rw [exec_amofadd]
    simp only [fadd_eq]
    exact atomicAt_atomic (amoBytes_cases dbl) s os (s.getX a) (fun old => some (sum old).1) (fun old => (sum old).2.flags)
      (fun old => (low_natCast old).symm) d
  · obtain ⟨cb, hcb, hb⟩ := kon_window (s := s) (k := 247) hbase
    obtain ⟨cl, hcl, hl⟩ := kon_window (s := s) (k := 248) hlim
    rw [exec_abump hcb hcl, hb, hl]
    exact atomicAt_atomic (.inr rfl) s os (s.getX a) (fun old => if refused old ∨ k = 0 then none else some (old + k)) (fun _ => 0)
      (fun _ => rfl) d

end Sys2Proof.Proofs.Access
end

section
/-!
PROOFS. Fences (spec/11, R272, R273; spec/09, R222, R226; O25).
-/
namespace Sys2Proof.Proofs.Access
open Sys2Proof.Machine Sys2Proof.Claims Sys2Proof.Proofs.Encoding Sys2Proof.Proofs.Integer Sys2Proof.Proofs.Matrix
  Sys2Proof.Proofs.Versions

/-! ## What a fence waits for -/

theorem pendingOn_false {s : State} {p : Path} (hce : ∀ c ∈ (s.core (s.cur / 8)).copies, c.2.tid = s.cur → p ≠ .ce)
    (hco : ∀ c ∈ (s.core (s.cur / 8)).colls, c.tid = s.cur → p ≠ .co) : s.pendingOn p s.cur = false := by
  cases p with
  | ce => exact List.any_eq_false.mpr fun c hc h => hce c hc (beq_iff_eq.mp h) rfl
  | co => exact List.any_eq_false.mpr fun c hc h => hco c hc (beq_iff_eq.mp h) rfl
  | _ => rfl

theorem fenceWaits_false {s : State} {k : FenceKind} {p : Path} (hce : ∀ c ∈ (s.core (s.cur / 8)).copies, c.2.tid = s.cur → p ≠ .ce)
    (hco : ∀ c ∈ (s.core (s.cur / 8)).colls, c.tid = s.cur → p ≠ .co)
    (hsl : k = .acq ∨ (s.core (partnerOf (s.cur / 8))).link.transit = [] ∨ p ≠ .sl) : s.fenceWaits k p = false := by
  have hpush : (p == .sl && k != .acq && s.pushing) = false := by
    rcases hsl with rfl | htransit | hp
    · simp
    · simp [State.pushing, State.myCore, coreOf, htransit]
    · simp [hp]
  rw [State.fenceWaits, pendingOn_false hce hco, hpush]
  rfl

theorem afterDrain_of_not_waiting {s : State} {wait : Bool} (h : QueueEmpty s ∨ wait = false) (k : State → Out) :
    s.afterDrain wait k = k s := by
  rcases h with hq | rfl
  · exact afterDrain_empty hq wait k
  · rfl

/-! ## What leaves at a fence -/

theorem fenceFlushes_iff (sc : Scope) (k : FenceKind) (p q : Path) :
    fenceFlushes sc k p q = true ↔ sc = .sy ∨ (k ≠ .acq ∧ (p = .ls ∨ q = .ls ∨ p = .mx ∨ q = .mx)) := by
  simp [fenceFlushes, or_assoc]

/-- A fence that waits for nothing retires behind the data that leaves. -/
theorem gives_fence {s : State} {sc : Scope} {k : FenceKind} {p q : Path} {ls : Prop} (hp : s.fenceWaits k p = false)
    (hq : s.fenceWaits k q = false) (hmx : QueueEmpty s ∨ (p ≠ .mx ∧ q ≠ .mx)) (hls : ls ↔ p = .ls ∨ q = .ls ∨ p = .mx ∨ q = .mx) :
    Gives (s.fence sc k p q) fun t => ∃ u, (((sc = .sy ∨ (k ≠ .acq ∧ ls)) ∧ u = s.flushWc s.cur) ∨
      (¬(sc = .sy ∨ (k ≠ .acq ∧ ls)) ∧ u = s)) ∧ Retired u t (nextPc s 4) ∧ Quiet s t := by
  have hrun : s.fence sc k p q = (if fenceFlushes sc k p q then s.flushWc s.cur else s).fin 4 := by
    have hwait : QueueEmpty s ∨ (p == .mx || q == .mx) = false := hmx.imp_right fun ⟨hp, hq⟩ => by simp [hp, hq]
    rw [State.fence, hp, hq, if_neg (by decide), afterDrain_of_not_waiting hwait]
  have hk : KeepsThreads s (if fenceFlushes sc k p q then s.flushWc s.cur else s) :=
    keepsThreads_ite (keepsThreads_flushWc s s.cur) (.refl s)
  refine ⟨_, hrun.trans (State.fin_eq _ 4), _, ?_, nextPc_of_keepsThreads hk 4 ▸ retired_retire _ 4, quiet_retire hk 4⟩
  rw [hls, ← fenceFlushes_iff]
  by_cases h : fenceFlushes sc k p q = true
  · exact .inl ⟨h, if_pos h⟩
  · exact .inr ⟨h, if_neg h⟩

/-- Settles O25: FENCE is the fence of the LS path, which nothing is under way on. -/
theorem fences : Obligations.Fences := by
  intro s sc k p q out
  refine ⟨?_, ⟨_, State.fin_eq s 4, retired_retire s 4, quiet_retire (.refl s) 4⟩, fun hce hco hmx hsl => ?_⟩
  · have hwaits : s.fenceWaits k .ls = false :=
      fenceWaits_false (fun _ _ _ => by decide) (fun _ _ _ => by decide) (.inr (.inr (by decide)))
    exact gives_fence hwaits hwaits (.inr ⟨by decide, by decide⟩) (by simp)
  · exact gives_fence
      (fenceWaits_false (fun c hc ht => (hce c hc ht).1) (fun c hc ht => (hco c hc ht).1) (hsl.imp_right (.imp_right And.left)))
      (fenceWaits_false (fun c hc ht => (hce c hc ht).2) (fun c hc ht => (hco c hc ht).2) (hsl.imp_right (.imp_right And.right))) hmx Iff.rfl

end Sys2Proof.Proofs.Access
end

section
/-!
PROOFS. The command slots of the cores and the tails of their inboxes, which accesses leave alone (spec/11, R278, R279, R285).
-/
namespace Sys2Proof.Proofs.Access
open Sys2Proof.Machine Sys2Proof.Claims Sys2Proof.Proofs.Encoding Sys2Proof.Proofs.Integer Sys2Proof.Proofs.Matrix
  Sys2Proof.Proofs.Versions

/-- No command slot and no inbox's tail of any core changes. -/
def KeepsSlots (s u : State) : Prop := ∀ c, (u.core c).copies = (s.core c).copies ∧ (u.core c).inboxTail = (s.core c).inboxTail

theorem KeepsSlots.refl (s : State) : KeepsSlots s s := fun _ => ⟨rfl, rfl⟩

theorem KeepsSlots.trans {s u v : State} (h : KeepsSlots s u) (h' : KeepsSlots u v) : KeepsSlots s v :=
  fun c => ⟨(h' c).1.trans (h c).1, (h' c).2.trans (h c).2⟩

theorem keepsSlots_of_cores {s u : State} (h : u.cores = s.cores) : KeepsSlots s u := fun c => by
  rw [State.core, State.core, h]
  exact ⟨rfl, rfl⟩

theorem keepsSlots_modCore (s : State) (d : Nat) {f : Core → Core} (hf : ∀ k, (f k).copies = k.copies ∧ (f k).inboxTail = k.inboxTail) :
    KeepsSlots s (s.modCore d f) := by
  intro c
  by_cases h : c = d
  · rw [h, State.core_modCore]
    exact hf _
  · rw [State.core_modCore_other s f h]
    exact ⟨rfl, rfl⟩

theorem keepsSlots_ite {s u v : State} {p : Prop} [Decidable p] (h : KeepsSlots s u) (h' : KeepsSlots s v) :
    KeepsSlots s (if p then u else v) := by
  split
  · exact h
  · exact h'

theorem keepsSlots_over {α : Type} {s : State} {l : List α} {f : State → α → State} (h : ∀ a u, KeepsSlots u (f u a)) :
    KeepsSlots s (s.over l f) :=
  over_induction (.refl s) fun a _ u hu => hu.trans (h a u)

/-! ## What performing an access does to the cores -/

theorem keepsSlots_touchCore (s : State) (c : Nat) : KeepsSlots s (s.touchCore c) :=
  keepsSlots_ite (keepsSlots_modCore s c fun _ => ⟨rfl, rfl⟩) (.refl s)

theorem keepsSlots_raiseBound (s : State) (c off : Nat) : KeepsSlots s (s.raiseBound c off) :=
  keepsSlots_ite (keepsSlots_modCore s c fun _ => ⟨rfl, rfl⟩) (.refl s)

theorem keepsSlots_reach (s : State) (p : Span) : KeepsSlots s (s.reach p) := by
  unfold State.reach
  split
  · exact keepsSlots_ite ((keepsSlots_touchCore s _).trans (keepsSlots_ite (keepsSlots_raiseBound _ _ _) (.refl _)))
      (keepsSlots_ite (keepsSlots_touchCore s _) (keepsSlots_ite (keepsSlots_of_cores rfl) (.refl s)))
  · exact keepsSlots_touchCore s _
  · exact .refl s

/-- The pages of an engine's access: it holds no translation. -/
theorem keepsSlots_admitPages (s : State) {w : Who} (hw : w.engine.isNone = false) (ad : Admitted) : KeepsSlots s (s.admitPages w ad) := by
  have hpages : s.admitPages w ad = if ad.marks.any fun m => m.1 / 2 ^ 52 == 0 then ({ s with mem := setMarks s.mem ad.marks } : State).usesLpddr
      else { s with mem := setMarks s.mem ad.marks } := by
    unfold State.admitPages
    rw [hw]
    rfl
  rw [hpages]
  split
  · exact keepsSlots_of_cores rfl
  · exact keepsSlots_of_cores rfl

theorem keepsSlots_admitAccess (s : State) {w : Who} (hw : w.engine.isNone = false) (ad : Admitted) : KeepsSlots s (s.admitAccess w ad) :=
  (keepsSlots_admitPages s hw ad).trans (keepsSlots_over fun p u => keepsSlots_reach u p)

/-! ## What a write of the engine does to the cores -/

theorem keepsSlots_poke (s : State) (k : Nat) (bs : List Byte) : KeepsSlots s (s.poke k bs) := by
  unfold State.poke
  exact keepsSlots_ite (KeepsSlots.trans (keepsSlots_of_cores rfl) (keepsSlots_modCore _ _ fun _ => ⟨rfl, rfl⟩)) (keepsSlots_of_cores rfl)

theorem keepsSlots_flushWc (s : State) (tid : Nat) : KeepsSlots s (s.flushWc tid) := by
  rw [flushWc_eq]
  exact KeepsSlots.trans (u := takenWc s tid) (keepsSlots_of_cores rfl) (keepsSlots_over fun e u => keepsSlots_poke u _ _)

theorem keepsSlots_noteWhole (s : State) (tenant : Nat) (l : List Span) : KeepsSlots s (s.noteWhole tenant l) := by
  obtain ⟨h, m, hu⟩ := logsOnly_noteWhole s tenant l
  rw [hu]
  exact keepsSlots_of_cores rfl

theorem keepsSlots_setWinByte (s : State) (c off : Nat) (b : Byte) : KeepsSlots s (s.setWinByte c off b) := by
  unfold State.setWinByte
  split
  · exact keepsSlots_of_cores rfl
  · exact keepsSlots_ite (.refl s) (keepsSlots_of_cores rfl)
  · exact .refl s

/-- A write of an engine, which never goes into a write-combining buffer and has no effect on the hub. -/
theorem keepsSlots_writeSpans (s : State) (tid : Nat) (l : List Span) (bs : List Byte) :
    KeepsSlots s (s.writeSpans (fun s _ _ => s) tid false l bs) := by
  induction l generalizing s bs with
  | nil => exact .refl s
  | cons p l ih =>
    refine KeepsSlots.trans ?_ (ih _ _)
    cases p.loc with
    | mem k => exact (keepsSlots_ite (keepsSlots_flushWc s tid) (.refl s)).trans (keepsSlots_poke _ _ _)
    | win c off => exact KeepsSlots.trans (keepsSlots_of_cores rfl) (keepsSlots_over fun q u => keepsSlots_setWinByte u _ _ _)
    | hub off => exact .refl s

theorem keepsSlots_engineWrite {s w : State} {who : Who} (hwho : who.engine.isNone = false) {va : Word} {bs : List Byte}
    (h : s.engineWrite who va bs = .ok w) : KeepsSlots s w := by
  unfold State.engineWrite at h
  split at h
  · cases h
  · cases h
    exact ((keepsSlots_admitAccess s hwho _).trans (keepsSlots_noteWhole _ _ _)).trans (keepsSlots_writeSpans _ _ _ _)

end Sys2Proof.Proofs.Access
end

section
/-!
PROOFS. Copy instructions (spec/11, R275 to R278; O38): submission into a slot, and the command of no bytes.
-/
namespace Sys2Proof.Proofs.Access
open Sys2Proof.Machine Sys2Proof.Claims Sys2Proof.Proofs.Encoding Sys2Proof.Proofs.Integer Sys2Proof.Proofs.Matrix
  Sys2Proof.Proofs.Versions

/-! ## Shape blocks (Table 11-5) -/

theorem ofBytes_drop (bs : List Byte) (k : Nat) : ofBytes (bs.drop k) = ofBytes bs / 256 ^ k := by
  induction k generalizing bs with
  | zero => rw [List.drop_zero, pow_zero, Nat.div_one]
  | succ k ih =>
    cases bs with
    | nil => simp [ofBytes]
    | cons b bs =>
      have hb : b.toNat < 256 := b.isLt
      rw [List.drop_succ_cons, ih, ofBytes, pow_succ', ← Nat.div_div_eq_div_mul, show (b.toNat + 256 * ofBytes bs) / 256 = ofBytes bs by omega]

theorem ofBytes_take (bs : List Byte) (n : Nat) : ofBytes (bs.take n) = ofBytes bs % 256 ^ n := by
  have hsplit : ofBytes (bs.take n ++ bs.drop n) = ofBytes (bs.take n) + 256 ^ (bs.take n).length * ofBytes (bs.drop n) := by
    induction bs.take n with
    | nil => simp [ofBytes]
    | cons b r ih =>
      rw [List.cons_append, ofBytes, ofBytes, ih, List.length_cons, pow_succ']
      ring
  have hlt := ofBytes_lt (bs.take n)
  rw [List.take_append_drop] at hsplit
  by_cases hn : n ≤ bs.length
  · rw [List.length_take_of_le hn] at hsplit hlt
    rw [hsplit, Nat.add_mul_mod_self_left, Nat.mod_eq_of_lt hlt]
  · rw [List.take_of_length_le (by omega)] at hlt ⊢
    exact (Nat.mod_eq_of_lt (hlt.trans_le (Nat.pow_le_pow_right (by decide) (by omega)))).symm

/-- A field of a shape block, as a slice of its number. -/
theorem ofBytes_field (bs : List Byte) (k n : Nat) : ofBytes ((bs.drop k).take n) = Claims.numOf bs / 256 ^ k % 256 ^ n := by
  rw [ofBytes_take, ofBytes_drop, numOf_eq_ofBytes]

theorem shapeOf_eq (bs : List Byte) : shapeOf bs =
    let f (a n : Nat) : Nat := Claims.numOf bs / 256 ^ a % 256 ^ n
    let w (a : Nat) : Word := BitVec.ofNat 64 (f a 8)
    ⟨f 0 4, f 4 4, f 8 4, w 16, w 24, w 32, w 40, w 48, f 56 8, f 12 4⟩ := by
  simp only [shapeOf, ofBytes_field]

/-! ## Command slots -/

theorem find_drop_same {α : Type} (m : SMap α) (i : Nat) : (m.drop i).find i = none := by
  induction m with
  | nil => rfl
  | cons p m ih =>
    obtain ⟨k, a⟩ := p
    by_cases h : k = i
    · simpa [SMap.drop, h] using ih
    · simpa [SMap.drop, SMap.find, h] using ih

theorem find_drop_other {α : Type} (m : SMap α) {i j : Nat} (h : j ≠ i) : (m.drop i).find j = m.find j := by
  induction m with
  | nil => rfl
  | cons p m ih =>
    obtain ⟨k, a⟩ := p
    by_cases hk : k = i
    · have hj : k ≠ j := fun hkj => h (hkj.symm.trans hk)
      rw [SMap.find, if_neg hj, ← ih]
      simp [SMap.drop, hk]
    · have hcons : SMap.drop ((k, a) :: m) i = (k, a) :: SMap.drop m i := List.filter_cons_of_pos (by simp [hk])
      rw [hcons, SMap.find, SMap.find, ih]

/-- What goes into a free slot and out again leaves the slots as they were. -/
theorem find_drop_set {α : Type} (m : SMap α) {i : Nat} (a : α) (h : m.find i = none) (k : Nat) : ((m.set i a).drop i).find k = m.find k := by
  by_cases hk : k = i
  · rw [hk, find_drop_same, h]
  · rw [find_drop_other _ hk, SMap.find_set_other _ _ hk]

theorem freeCopySlot_of_lowestFree {s : State} {i : Nat} (h : LowestFree s i) : s.freeCopySlot s.myCore = some i := by
  obtain ⟨hi, hnone, hlower⟩ := h
  unfold State.freeCopySlot
  rw [Vector.countFrom_zero, List.find?_range_eq_some]
  refine ⟨Option.isNone_iff_eq_none.mpr hnone, List.mem_range.mpr hi, fun k hk => ?_⟩
  have hsome : ((s.core s.myCore).copies.find k).isSome = true := hlower k hk
  rw [← Option.not_isSome, hsome]
  rfl

/-! ## Submission (R278) -/

section
variable {u : State} {i : Nat} (c : CopyCmd) (n : Nat)

/-- A command with a free slot is put there; one of no bytes is finished at once. -/
theorem submitCopy_free (hi : LowestFree u i) {c₀ : CopyCmd} (hc : { c₀ with low := c₀.start } = c) (htid : coreOf c.tid = u.myCore)
    (hword : c.hasWord = true → c.caddr.toNat % 8 = 0) (s : State) : u.submitCopy c₀ n s =
      .next (if c.total ≤ c.low then ((u.setCopy u.myCore i c).retire n).copyFinish u.myCore i c else (u.setCopy u.myCore i c).retire n) := by
  subst hc
  have haligned : (c₀.hasWord && c₀.caddr.toNat % 8 != 0) = false := by
    by_cases h : c₀.hasWord = true
    · simp [hword h]
    · simp [h]
  unfold State.submitCopy
  rw [haligned, freeCopySlot_of_lowestFree hi, ← htid]
  rfl

theorem keepsThreads_setCopy (m : Nat) : KeepsThreads u (u.setCopy m i c) := keepsThreads_of_eq rfl rfl

theorem copies_setCopy (m : Nat) : ((u.setCopy m i c).core m).copies = (u.core m).copies.set i c := by rw [State.setCopy, State.core_modCore]

theorem copies_dropCopy (m : Nat) : ((u.dropCopy m i).core m).copies = (u.core m).copies.drop i := by rw [State.dropCopy, State.core_modCore]

/-- The slot of a finished command is free again, as it was. -/
theorem find_finished (hi : LowestFree u i) {w : State} (hw : KeepsSlots ((u.setCopy u.myCore i c).retire n) w) (k : Nat) :
    ((((w.dropCopy u.myCore i).dropEngineWaits u.myCore i).core u.myCore).copies.find k) = (u.core u.myCore).copies.find k := by
  have hset : (w.core u.myCore).copies = (u.core u.myCore).copies.set i c := (hw u.myCore).1.trans (copies_setCopy c u.myCore)
  have hdrop : (((w.dropCopy u.myCore i).dropEngineWaits u.myCore i).core u.myCore).copies = (w.core u.myCore).copies.drop i :=
    copies_dropCopy u.myCore
  rw [hdrop, hset]
  exact find_drop_set _ _ hi.2.1 k

/-- A command of no bytes and without completion word is finished as it is submitted. -/
theorem copyFinish_noWord {w : State} (m : Nat) (h : c.hasWord = false) : w.copyFinish m i c = (w.dropCopy m i).dropEngineWaits m i := by
  unfold State.copyFinish
  rw [h]
  rfl

theorem copyFinish_word {v w : State} {m : Nat} (h : c.hasWord = true)
    (hw : v.engineWrite (c.who m i) c.caddr (bytesOf 8 c.cval.toNat) = .ok w) : v.copyFinish m i c = (w.dropCopy m i).dropEngineWaits m i := by
  unfold State.copyFinish
  rw [h, hw]
  rfl

end

theorem shapedFn_iff (fn : Nat) : shapedFn fn = true ↔ fn = 1 ∨ fn = 2 ∨ fn = 4 := by simp [shapedFn, or_assoc]

/-- The command of a copy instruction, before its shape block is read. -/
def copyCmd (s : State) (fn : Nat) (xd xs xn xc : XReg) (ver : Nat) (v : Word) (sh : Option Shape) : CopyCmd :=
  ⟨s.cur, fn, !s.me.status.priv, s.me.space, s.getX xd, s.getX xs, s.getX xn, sh, decide (xc ≠ 0), s.getX xc, v, ver, 0, [], [], 0⟩

section
variable (s : State) {fn : Nat} (xd xs xn xc : XReg) (ver : Nat) (v : Word) (n : Nat)

theorem copyOp_unshaped (h : ¬(fn = 1 ∨ fn = 2 ∨ fn = 4)) :
    s.copyOp fn xd xs xn ver xc v n = s.submitCopy (copyCmd s fn xd xs xn xc ver v none) n s := by
  have hfn : shapedFn fn = false := Bool.eq_false_iff.mpr fun hs => h ((shapedFn_iff fn).mp hs)
  unfold State.copyOp
  rw [hfn]
  rfl

theorem copyOp_shaped (h : fn = 1 ∨ fn = 2 ∨ fn = 4) (halign : (s.getX xn).toNat % 64 = 0) {ad : Admitted}
    (hc : s.check s.meWho ⟨.read, 1, false, false⟩ (s.getX xn) 64 = .ok ad) (hb : s.badSpan false ad.spans = none) :
    s.copyOp fn xd xs xn ver xc v n =
      (Reached s ad).submitCopy (copyCmd s fn xd xs xn xc ver v (some (shapeOf ((Reached s ad).bytesAt ad.spans)))) n s := by
  unfold State.copyOp
  rw [(shapedFn_iff fn).mpr h, if_pos rfl, if_neg (not_not.mpr halign), Ask.plain, load_admitted hc hb]
  rfl

/-- A copy instruction submits its command. -/
theorem submits_copyOp (fn : Nat) : Submits s (s.copyOp fn xd xs xn ver xc v n) n fn xd xs xn xc ver v := by
  intro hword cmd puts
  have hputs {u : State} (hk : KeepsThreads s u) (sh : Option Shape)
      (hrun : s.copyOp fn xd xs xn ver xc v n = u.submitCopy (copyCmd s fn xd xs xn xc ver v sh) n s) : puts u (cmd sh) := by
    intro i hi
    have hm : u.myCore = s.cur / 8 := congrArg (· / 8) hk.cur
    have haligned : (cmd sh).hasWord = true → (cmd sh).caddr.toNat % 8 = 0 := fun h => hword (of_decide_eq_true h)
    have hsub := hrun.trans (submitCopy_free (cmd sh) n hi (by cases sh <;> rfl) hm.symm haligned s)
    have hset : KeepsThreads u (u.setCopy u.myCore i (cmd sh)) := keepsThreads_setCopy (cmd sh) u.myCore
    have hpc : nextPc u n = nextPc s n := nextPc_of_keepsThreads hk n
    rw [← hm, ← hpc]
    refine ⟨fun h => ⟨_, hsub.trans (by rw [if_neg (by omega)]), stepped_retire hset n, quiet_retire hset n,
      fun j hj => others_retire hset n (by rwa [hk.cur]), fun _ => rfl, rfl, fun k hkm => ?_, ?_, fun k hki => ?_⟩,
      fun h => ⟨fun hx => ?_, fun hx w hw => ?_⟩⟩
    · exact State.core_modCore_other u (fun k => { k with copies := k.copies.set i (cmd sh) }) hkm
    · exact (congrArg (·.find i) (copies_setCopy (cmd sh) u.myCore)).trans (SMap.find_set_same _ _ _)
    · exact (congrArg (·.find k) (copies_setCopy (cmd sh) u.myCore)).trans (SMap.find_set_other _ _ hki)
    · rw [if_pos h, copyFinish_noWord _ _ (decide_eq_false (not_not.mpr hx))] at hsub
      have hfree : KeepsThreads u (((u.setCopy u.myCore i (cmd sh)).dropCopy u.myCore i).dropEngineWaits u.myCore i) :=
        keepsThreads_of_eq rfl rfl
      exact ⟨_, hsub, stepped_retire hfree n, quiet_retire hfree n, fun j hj => others_retire hfree n (by rwa [hk.cur]), fun _ => rfl,
        find_finished (cmd sh) n hi (.refl _)⟩
    · have hw' : ((u.setCopy u.myCore i (cmd sh)).retire n).engineWrite ((cmd sh).who u.myCore i) (cmd sh).caddr
          (bytesOf 8 (cmd sh).cval.toNat) = .ok w := by
        rw [bytesOf_eq_map]
        exact hw
      rw [if_pos h, copyFinish_word _ (decide_eq_true hx) hw'] at hsub
      exact ⟨_, hsub, rfl, rfl, find_finished (cmd sh) n hi (keepsSlots_engineWrite rfl hw)⟩
  split
  · next hfn =>
    intro ad halign hc hb u f w
    have hrun := copyOp_shaped s xd xs xn xc ver v n hfn halign hc hb
    rw [shapeOf_eq] at hrun
    exact hputs (keepsThreads_reached s ad) _ hrun
  · next hfn => exact hputs (.refl s) none (copyOp_unshaped s xd xs xn xc ver v n hfn)

end

theorem copyForms_of {reg : XReg → XReg → XReg → XReg → XReg → Instr} {lit : XReg → XReg → XReg → XReg → Word → Instr} {fn : Nat}
    (hreg : ∀ s xd xs xn xc xv, exec (reg xd xs xn xc xv) s = s.copyOp fn xd xs xn 0 xc (s.getX xv) 12)
    (hlit : ∀ s xd xs xn xc l, exec (lit xd xs xn xc l) s = s.copyOp fn xd xs xn 0 xc l 20) : CopyForms reg lit fn := by
  intro s xd xs xn xc xv l
  rw [hreg, hlit]
  exact ⟨submits_copyOp s xd xs xn xc 0 (s.getX xv) 12 fn, submits_copyOp s xd xs xn xc 0 l 20 fn⟩

/-- Settles O38: the instructions are one operation, with their function number and where their completion value comes from. -/
theorem copies : Obligations.Copies :=
  ⟨copyForms_of (fun _ _ _ _ _ _ => rfl) fun _ _ _ _ _ _ => rfl, copyForms_of (fun _ _ _ _ _ _ => rfl) fun _ _ _ _ _ _ => rfl,
    copyForms_of (fun _ _ _ _ _ _ => rfl) fun _ _ _ _ _ _ => rfl, copyForms_of (fun _ _ _ _ _ _ => rfl) fun _ _ _ _ _ _ => rfl,
    copyForms_of (fun _ _ _ _ _ _ => rfl) fun _ _ _ _ _ _ => rfl, fun s xd xs xn xver xc xv l =>
    ⟨submits_copyOp s xd xs xn xc (verOf s xver) (s.getX xv) 12 3, submits_copyOp s xd xs xn xc (verOf s xver) l 20 3⟩⟩

end Sys2Proof.Proofs.Access
end

section
/-!
PROOFS. Collective instructions (spec/11, R287, R288; spec/20, R450; O39).
-/
namespace Sys2Proof.Proofs.Access
open Sys2Proof.Machine Sys2Proof.Claims Sys2Proof.Proofs.Encoding Sys2Proof.Proofs.Integer Sys2Proof.Proofs.Matrix
  Sys2Proof.Proofs.Versions

/-! ## What the bridge refuses (R450) -/

section
variable {s : State}

theorem bridgeRefused_of_not_bridges (h : s.tenantBridges (s.tenantOf s.cur) = false) : s.bridgeRefused s.cur = some Cause.access := by
  unfold State.bridgeRefused
  rw [h]
  rfl

theorem bridgeRefused_of_not_paired (h : s.tenantBridges (s.tenantOf s.cur) = true) (hp : ¬Paired s) :
    s.bridgeRefused s.cur = some Cause.windowKey := by
  unfold State.bridgeRefused
  rw [h]
  cases ht : s.taskOf s.cur with
  | none => rfl
  | some k =>
    have hb : k.launch.bridge = false := Bool.eq_false_iff.mpr fun hb => hp ⟨k, ht, hb⟩
    simp [hb]

theorem bridgeRefused_of_paired (h : s.tenantBridges (s.tenantOf s.cur) = true) (hp : Paired s) : s.bridgeRefused s.cur = none := by
  obtain ⟨k, ht, hb⟩ := hp
  unfold State.bridgeRefused
  rw [h, ht]
  simp [hb]

end

/-! ## Collectives -/

section
variable {s : State} (fn : Nat) (op : CollOp) (fmt : CollFmt) (br : Bool) (xd xs xn xc xr : XReg)

theorem collective_of_tidx {g : Nat} (hg : s.gangOf s.cur = some g) (ht : (s.bind s.cur).tidx ≠ 0) :
    s.collective fn op fmt br xd xs xn xc xr = s.trapOut Cause.access (BitVec.ofNat 64 (s.bind s.cur).tidx) := by
  unfold State.collective
  exact if_pos (by simp [hg, ht])

variable (ht : s.gangOf s.cur = none ∨ (s.bind s.cur).tidx = 0) (hc : xc ≠ 0 → (s.getX xc).toNat % 8 = 0)
include ht hc

theorem collective_refused {c : Nat} (hr : s.collRefused br = some c) :
    s.collective fn op fmt br xd xs xn xc xr = s.drawFree.2.trapOut c s.drawFree.1 := by
  unfold State.collective
  dsimp only
  rw [if_neg (by rcases ht with h | h <;> simp [h]), if_neg fun h => h.2 (hc h.1), hr]
  rfl

/-- The command of a collective instruction. -/
def collCmd (s : State) (fn : Nat) (op : CollOp) (fmt : CollFmt) (br : Bool) (xd xs xn xc xr : XReg) : CollCmd :=
  ⟨s.cur, fn, op, fmt, br, s.getX xn, if xr = 0 then none else some ((s.getX xr).toNat % ((if br then 2 else 1) * max 1 (s.bind s.cur).gsize)),
    !s.me.status.priv, s.me.space, s.getX xd, s.getX xs, decide (xc ≠ 0), s.getX xc, (s.core s.myCore).collCount + 1, collExt op fmt br xc xr⟩

theorem collective_joins (hr : s.collRefused br = none) : s.collective fn op fmt br xd xs xn xc xr =
    (s.modCore s.myCore fun k =>
      { k with colls := k.colls ++ [collCmd s fn op fmt br xd xs xn xc xr], collCount := k.collCount + 1 }).fin 12 := by
  unfold State.collective
  dsimp only
  rw [if_neg (by rcases ht with h | h <;> simp [h]), if_neg fun h => h.2 (hc h.1), hr]
  rfl

end

/-- A collective instruction joins its core's list. -/
theorem joins_collective (s : State) (fn : Nat) (op : CollOp) (fmt : CollFmt) (br : Bool) (xd xs xn xc xr : XReg) :
    Joins s (s.collective fn op fmt br xd xs xn xc xr) fn op fmt br xd xs xn xc xr := by
  refine ⟨fun g hg ht hcan => ?_, fun ht hc hbr hcan => ⟨fun hnot => ?_, fun hbridges hp => ?_⟩, fun ht hc hok => ?_⟩
  · rw [collective_of_tidx fn op fmt br xd xs xn xc xr hg ht]
    exact traps_trapOut hcan _ _
  · subst hbr
    rw [collective_refused fn op fmt true xd xs xn xc xr ht hc (bridgeRefused_of_not_bridges hnot)]
    exact ⟨_, State.trapOut_eq _ _ _, _, trapped_trap hcan _ _⟩
  · subst hbr
    rw [collective_refused fn op fmt true xd xs xn xc xr ht hc (bridgeRefused_of_not_paired hbridges hp)]
    exact ⟨_, State.trapOut_eq _ _ _, _, trapped_trap hcan _ _⟩
  · have hr : s.collRefused br = none := by
      cases br with
      | false => rfl
      | true =>
        obtain ⟨hbridges, hp⟩ := hok rfl
        exact bridgeRefused_of_paired hbridges hp
    have hk : KeepsThreads s (s.modCore s.myCore fun k =>
      { k with colls := k.colls ++ [collCmd s fn op fmt br xd xs xn xc xr], collCount := k.collCount + 1 }) := keepsThreads_of_eq rfl rfl
    refine ⟨_, (collective_joins fn op fmt br xd xs xn xc xr ht hc hr).trans (State.fin_eq _ 12), stepped_retire hk 12, quiet_retire hk 12,
      fun j hj => others_retire hk 12 hj, rfl, fun k hkm => ?_, collCmd s fn op fmt br xd xs xn xc xr, ?_, rfl, rfl, rfl, rfl, rfl, rfl, rfl, rfl,
      rfl, rfl, rfl, rfl, rfl⟩
    · exact State.core_modCore_other s (fun k =>
        { k with colls := k.colls ++ [collCmd s fn op fmt br xd xs xn xc xr], collCount := k.collCount + 1 }) hkm
    · exact State.core_modCore s s.myCore fun k =>
        { k with colls := k.colls ++ [collCmd s fn op fmt br xd xs xn xc xr], collCount := k.collCount + 1 }

end Sys2Proof.Proofs.Access
end

section
/-!
PROOFS. Messages (spec/11, R283 to R285; spec/20, R450; O39): an inbox is a ring of entries in its core's LM.
-/
namespace Sys2Proof.Proofs.Access
open Sys2Proof.Machine Sys2Proof.Claims Sys2Proof.Proofs.Encoding Sys2Proof.Proofs.Integer Sys2Proof.Proofs.Matrix
  Sys2Proof.Proofs.Versions

/-! ## An instruction that writes X(rd) behind something else -/

theorem core_of_retired {u t : State} {pc : Word} (h : Retired u t pc) (c : Nat) : t.core c = u.core c := by
  rw [State.core, State.core, h.rest]

theorem stepped_behind {s u t : State} (h : KeepsThreads s u) {n : Nat} (ht : Retired u t (nextPc s n)) : Stepped s t (nextPc s n) := by
  rw [← nextPc_of_keepsThreads h] at ht
  exact stepped_of_keepsThreads h ht.toStepped

/-! ## Inboxes (R283) -/

theorem inboxCount_eq (s : State) (c : Nat) : (s.core c).inboxCount = inboxHolds s c := by
  rw [Core.inboxCount, BitVec.toNat_sub, inboxHolds]
  omega

theorem inboxKey_eq (s : State) (c k : Nat) : inboxKey c (s.core c) k = winKey c (inboxAt s c k) := rfl

/-- An entry lies within the LM. -/
theorem inboxAt_le (s : State) (c k : Nat) : inboxAt s c k + 64 ≤ 2 ^ 18 := by
  unfold inboxAt
  omega

theorem isLm_winKey_low {c o : Nat} (hc : c < 2 ^ 12) (ho : o < 2 ^ 18) : isLm (winKey c o) = true := by
  have hspace : winKey c o / 2 ^ 52 = 4 := by
    unfold winKey keyOf
    omega
  have hoff : winKey c o % 2 ^ 24 < 2 ^ 18 := by
    unfold winKey keyOf
    omega
  unfold isLm
  rw [hspace, decide_eq_true hoff]
  rfl

theorem winKey_mod {o : Nat} (c : Nat) (ho : o < 2 ^ 18) : winKey c o % 2 ^ 24 = o := by
  unfold winKey keyOf
  omega

/-! ## MSEND in this box (R285) -/

theorem msend_append {s : State} {xt : XReg} (d : XReg) (v : VReg) (hc : (s.getX xt).toNat < 2 ^ 12) (hcore : isCore (s.getX xt).toNat = true)
    (hsize : (s.core (s.getX xt).toNat).inboxSize ≠ 0) (hon : s.coreOff (s.getX xt).toNat = false)
    (hkey : s.keyRefused s.meWho ⟨.write, 1, false, false⟩ (s.getX xt).toNat = false) :
    s.msend d v xt = s.append d v (s.getX xt).toNat := by
  have hbit : bit (s.getX xt).toNat 12 = false := by rw [bit, Nat.div_eq_of_lt hc]; rfl
  have hin : s.inboxRefused (s.getX xt).toNat = false := by simp [State.inboxRefused, hcore, hsize, hon]
  unfold State.msend
  dsimp only
  rw [if_neg (by omega), hbit, Nat.mod_eq_of_lt (show _ < 4096 from hc), hin, Ask.plain, hkey]
  rfl

theorem touchCore_eq (s : State) (c : Nat) : ∃ k, s.touchCore c = { s with cores := k } := by
  unfold State.touchCore
  split
  · exact ⟨_, rfl⟩
  · exact ⟨s.cores, rfl⟩

theorem raiseBound_eq (s : State) (c off : Nat) : ∃ k, s.raiseBound c off = { s with cores := k } := by
  unfold State.raiseBound
  split
  · exact ⟨_, rfl⟩
  · exact ⟨s.cores, rfl⟩

/-- The state before an append writes its bytes: the core is awake, its boundary raised, the bad words noted. -/
def appendReady (s : State) (c key : Nat) : State :=
  ((s.touchCore c).raiseBound c (key % 2 ^ 18)).noteKey ((s.touchCore c).tenantOf (s.touchCore c).cur) key 64

theorem appendReady_eq (s : State) (c key : Nat) : ∃ k h m, appendReady s c key = { s with cores := k, hub := h, msi := m } := by
  obtain ⟨k, hk⟩ := touchCore_eq s c
  obtain ⟨k', hk'⟩ := raiseBound_eq (s.touchCore c) c (key % 2 ^ 18)
  obtain ⟨h, m, hu⟩ := logsOnly_noteKey (logsOnly_refl ((s.touchCore c).raiseBound c (key % 2 ^ 18)))
    ((s.touchCore c).tenantOf (s.touchCore c).cur) key 64
  exact ⟨k', h, m, by rw [appendReady, hu, hk', hk]⟩

theorem keepsSlots_appendReady (s : State) (c key : Nat) : KeepsSlots s (appendReady s c key) := by
  obtain ⟨h, m, hu⟩ := logsOnly_noteKey (logsOnly_refl ((s.touchCore c).raiseBound c (key % 2 ^ 18)))
    ((s.touchCore c).tenantOf (s.touchCore c).cur) key 64
  refine ((keepsSlots_touchCore s c).trans (keepsSlots_raiseBound _ c (key % 2 ^ 18))).trans ?_
  rw [appendReady, hu]
  exact keepsSlots_of_cores rfl

/-- The state after an append to an inbox with room. -/
def appended (s : State) (c key : Nat) (bs : List Byte) : State :=
  ((appendReady s c key).poke key bs).modCore c fun k => { k with inboxTail := k.inboxTail + 1 }

section
variable (s : State) (c key : Nat) (bs : List Byte)

theorem keepsThreads_appended : KeepsThreads s (appended s c key bs) := by
  obtain ⟨k, h, m, hu⟩ := appendReady_eq s c key
  have hready : KeepsThreads s (appendReady s c key) := by
    rw [hu]
    exact keepsThreads_of_eq rfl rfl
  exact (hready.trans (keepsThreads_poke _ key bs)).trans (keepsThreads_of_eq rfl rfl)

theorem inboxTail_appended : ((appended s c key bs).core c).inboxTail = (s.core c).inboxTail + 1 := by
  rw [appended, State.core_modCore]
  have hslots := (keepsSlots_appendReady s c key).trans (keepsSlots_poke _ key bs)
  exact congrArg (· + 1) (hslots c).2

theorem get_appended_outside {k : Nat} (hk : k < key ∨ key + bs.length ≤ k) : (appended s c key bs).mem.get k = s.mem.get k := by
  obtain ⟨q, h, m, hu⟩ := appendReady_eq s c key
  obtain ⟨q', hp⟩ := poke_eq (appendReady s c key) key bs
  have hmem : (appended s c key bs).mem = s.mem.putBytes key (constZero key bs) := by
    rw [appended, State.modCore_mem, hp, hu]
  rw [hmem, Memory.get_putBytes_out (by rwa [constZero_length])]

end

/-- The bytes of an entry as memory takes them: the reserved LM offsets stay zero. -/
theorem get_appended {c o : Nat} (hc : c < 2 ^ 12) (ho : o + 64 ≤ 2 ^ 18) (s : State) (w : Vec) {j : Nat} (hj : j < 64) :
    ((appended s c (winKey c o) (vecBytes w)).mem.get (winKey c (o + j))).toNat = if 0x7C8 ≤ o + j ∧ o + j < 0x800 then 0 else L w 8 j := by
  have hoff : o + j < 2 ^ 18 := by omega
  rw [appended, State.modCore_mem, ← winKey_add, get_poke _ (by rwa [vecBytes_length]), winKey_add, isLm_winKey_low hc hoff, winKey_mod c hoff]
  simp only [true_and]
  split
  · rfl
  · exact toNat_vecBytes w hj

section
variable (s : State) (d : XReg) (v : VReg) (c : Nat)

/-- A full inbox: the entry is not appended. -/
theorem gives_append_full (hfull : (s.core c).inboxSize ≤ inboxHolds s c) : Gives (s.append d v c) fun t =>
    VerDone s t ∧ OnlyX s t d (low (-1)) ∧ (∀ k, t.mem.get k = s.mem.get k) ∧ (t.core c).inboxTail = (s.core c).inboxTail := by
  have hrun : s.append d v c = (s.touchCore c).putX d (low (-1)) 4 := by
    unfold State.append
    dsimp only
    rw [inboxCount_eq, if_pos hfull, low_neg_one]
  have hk : KeepsThreads s (s.touchCore c) := keepsThreads_touchCore s c
  obtain ⟨k, htouch⟩ := touchCore_eq s c
  obtain ⟨t, ht, hret, hx, hv, hm, hf⟩ := gives_putX_behind hk d (low (-1)) 4
  refine ⟨t, hrun.trans ht, ⟨stepped_behind hk hret, hv, hm, hf, fun j hj => others_behind hk hret hj⟩, hx, fun k => ?_, ?_⟩
  · rw [hret.bytes, htouch]
  · rw [core_of_retired hret, (keepsSlots_touchCore s c c).2]

/-- An inbox with room: the entry at TAIL takes the vector. -/
theorem gives_append_room (hroom : inboxHolds s c < (s.core c).inboxSize) : Gives (s.append d v c) fun t =>
    VerDone s t ∧ OnlyX s t d (low ((s.core c).inboxSize - inboxHolds s c - 1)) ∧
      Retired (appended s c (winKey c (inboxAt s c (s.core c).inboxTail.toNat)) (vecBytes (s.getV v))) t (nextPc s 4) := by
  have hcount : (((s.core c).inboxSize - inboxHolds s c - 1 : Nat) : Int) = (s.core c).inboxSize - inboxHolds s c - 1 := by omega
  have hrun : s.append d v c = (appended s c (winKey c (inboxAt s c (s.core c).inboxTail.toNat)) (vecBytes (s.getV v))).putX d
      (low ((s.core c).inboxSize - inboxHolds s c - 1)) 4 := by
    unfold State.append
    dsimp only
    rw [inboxCount_eq, if_neg (by omega), inboxKey_eq, ← hcount, low_natCast]
    rfl
  have hk := keepsThreads_appended s c (winKey c (inboxAt s c (s.core c).inboxTail.toNat)) (vecBytes (s.getV v))
  obtain ⟨t, ht, hret, hx, hv, hm, hf⟩ := gives_putX_behind hk d (low ((s.core c).inboxSize - inboxHolds s c - 1)) 4
  exact ⟨t, hrun.trans ht, ⟨stepped_behind hk hret, hv, hm, hf, fun j hj => others_behind hk hret hj⟩, hx, hret⟩

end

/-! ## MSEND to the partner box (R285, R450) -/

theorem msend_across {s : State} {xt : XReg} (d : XReg) (v : VReg) (hlow : 2 ^ 12 ≤ (s.getX xt).toNat) (hhigh : (s.getX xt).toNat < 2 ^ 13) :
    s.msend d v xt = s.sendAcross d v (s.getX xt) := by
  have hone : (s.getX xt).toNat / 2 ^ 12 = 1 := by omega
  have hbit : bit (s.getX xt).toNat 12 = true := by rw [bit, hone]; rfl
  unfold State.msend
  dsimp only
  rw [if_neg (by omega), if_pos hbit]

section
variable {s : State} {w : Word}

/-- The port that takes a message for the partner box. -/
def farPort (s : State) (w : Word) : Option Nat := if s.bridgeUp && isCore (w.toNat % 4096) then s.upPort else none

theorem farPort_isSome : (farPort s w).isSome = true ↔ isCore (w.toNat % 4096) = true ∧ s.bridgeUp = true ∧ s.upPort.isSome = true := by
  unfold farPort
  by_cases h : (s.bridgeUp && isCore (w.toNat % 4096)) = true
  · rw [if_pos h]
    obtain ⟨hup, hcore⟩ := Bool.and_eq_true_iff.mp h
    simp [hup, hcore]
  · rw [if_neg h]
    refine iff_of_false (by simp) fun ⟨hcore, hup, _⟩ => h ?_
    rw [hup, hcore]
    rfl

variable (d : XReg) (v : VReg)

theorem sendAcross_noPort (h : farPort s w = none) : s.sendAcross d v w = s.trapOut Cause.access w := by
  unfold farPort at h
  unfold State.sendAcross
  rw [h]

theorem sendAcross_refused {p c : Nat} (h : farPort s w = some p) (hr : s.bridgeRefused s.cur = some c) :
    s.sendAcross d v w = s.trapOut c w := by
  unfold farPort at h
  unfold State.sendAcross
  rw [h, hr]

/-- What the partner box decides, two free values say: a trap, or a free count. -/
theorem sendAcross_sent {p : Nat} (h : farPort s w = some p) (hr : s.bridgeRefused s.cur = none) :
    s.sendAcross d v w = s.drawFree.2.drawFree.2.trapOut Cause.access w ∨
      s.sendAcross d v w = s.drawFree.2.drawFree.2.trapOut Cause.windowKey w ∨
      ∃ u x, KeepsThreads s u ∧ u.mem = s.mem ∧ s.sendAcross d v w = u.putX d x 4 := by
  unfold farPort at h
  unfold State.sendAcross
  rw [h, hr]
  dsimp only
  split
  · exact .inl rfl
  · split
    · exact .inr (.inl rfl)
    · refine .inr (.inr ⟨_, _, ?_, ?_, rfl⟩)
      · exact keepsThreads_of_eq rfl rfl
      · rfl

/-- A message for the partner box: refused here, or ended in one of the three ways of R450. -/
theorem msend_far {xt : XReg} (hlow : 2 ^ 12 ≤ (s.getX xt).toNat) (hhigh : (s.getX xt).toNat < 2 ^ 13) :
    let c := (s.getX xt).toNat
    let far := isCore (c % 4096) = true ∧ s.bridgeUp = true ∧ s.upPort.isSome = true
    let bridges := s.tenantBridges (s.tenantOf s.cur) = true
    let z := s.drawFree.2.drawFree.2
    (CanTrap s → (¬ far → Traps s (s.msend d v xt) 0x08 (s.getX xt)) ∧ (far → ¬ bridges → Traps s (s.msend d v xt) 0x08 (s.getX xt)) ∧
      (far → bridges → ¬ Paired s → Traps s (s.msend d v xt) 0x0A (s.getX xt))) ∧
    (CanTrap z → far → bridges → Paired s → Gives (s.msend d v xt) fun t =>
      Trapped z t 0x08 false (s.getX xt) ∨ Trapped z t 0x0A false (s.getX xt) ∨
        (Stepped s t (nextPc s 4) ∧ SameV s t ∧ SameM s t ∧ SameF s t ∧ (∃ w, OnlyX s t d w) ∧ (∀ k, t.mem.get k = s.mem.get k) ∧
          ∀ j, j ≠ s.cur → t.thr j = s.thr j)) := by
  intro c far bridges z
  rw [msend_across d v hlow hhigh]
  have hport (h : far) : ∃ p, farPort s (s.getX xt) = some p := Option.isSome_iff_exists.mp (farPort_isSome.mpr h)
  refine ⟨fun hcan => ⟨fun hnot => ?_, fun hfar hb => ?_, fun hfar hb hp => ?_⟩, fun hz hfar hb hp => ?_⟩
  · have hnone : farPort s (s.getX xt) = none := Option.not_isSome_iff_eq_none.mp fun h => hnot (farPort_isSome.mp h)
    rw [sendAcross_noPort d v hnone]
    exact traps_trapOut hcan _ _
  · obtain ⟨p, hport⟩ := hport hfar
    rw [sendAcross_refused d v hport (bridgeRefused_of_not_bridges (Bool.eq_false_iff.mpr hb))]
    exact traps_trapOut hcan _ _
  · obtain ⟨p, hport⟩ := hport hfar
    rw [sendAcross_refused d v hport (bridgeRefused_of_not_paired hb hp)]
    exact traps_trapOut hcan _ _
  · obtain ⟨p, hport⟩ := hport hfar
    rcases sendAcross_sent d v hport (bridgeRefused_of_paired hb hp) with hrun | hrun | ⟨u, x, hk, hmem, hrun⟩
    · exact ⟨_, hrun.trans (State.trapOut_eq _ _ _), .inl (trapped_trap hz _ _)⟩
    · exact ⟨_, hrun.trans (State.trapOut_eq _ _ _), .inr (.inl (trapped_trap hz _ _))⟩
    · obtain ⟨t, ht, hret, hx, hv, hm, hf⟩ := gives_putX_behind hk d x 4
      exact ⟨t, hrun.trans ht, .inr (.inr ⟨stepped_behind hk hret, hv, hm, hf, ⟨x, hx⟩, fun k => by rw [hret.bytes, hmem],
        fun j hj => others_behind hk hret hj⟩)⟩

end

/-! ## MRECV (R284) -/

section
variable (s : State) (d : XReg) (v : VReg)

/-- MRECV of an empty inbox. -/
theorem mrecv_empty (h : (s.core (s.cur / 8)).inboxSize = 0 ∨ inboxHolds s (s.cur / 8) = 0) : s.mrecv d v = s.putX d (low (-1)) 4 := by
  have h' : (s.core s.myCore).inboxSize = 0 ∨ (s.core s.myCore).inboxCount = 0 := by rwa [inboxCount_eq]
  rw [low_neg_one]
  conv => lhs; fun; fun; fun; delta State.mrecv
  exact if_pos h'

/-- The own inbox with its HEAD moved on. -/
def taking (s : State) : State := s.modCore s.myCore fun k => { k with inboxHead := k.inboxHead + 1 }

/-- MRECV of the entry at HEAD. `badIn` is put behind an equation, as elsewhere: the kernel would work out its words in unary. -/
theorem mrecv_entry (hsize : (s.core (s.cur / 8)).inboxSize ≠ 0) (hholds : inboxHolds s (s.cur / 8) ≠ 0)
    (hb : badIn s.bad (winKey (s.cur / 8) (inboxAt s (s.cur / 8) (s.core (s.cur / 8)).inboxHead.toNat)) 64 = none) :
    s.mrecv d v = ((taking s).setV v (vecOfBytes (s.mem.getBytes
      (winKey (s.cur / 8) (inboxAt s (s.cur / 8) (s.core (s.cur / 8)).inboxHead.toNat)) 64))).putX d (low (inboxHolds s (s.cur / 8) - 1)) 4 := by
  have h' : ¬((s.core s.myCore).inboxSize = 0 ∨ (s.core s.myCore).inboxCount = 0) := by
    rw [inboxCount_eq]
    exact fun h => h.elim hsize hholds
  have hcount : (((s.core s.myCore).inboxCount - 1 : Nat) : Int) = inboxHolds s (s.cur / 8) - 1 := by
    rw [inboxCount_eq]
    exact Nat.cast_pred (Nat.pos_of_ne_zero hholds)
  obtain ⟨bad, hbad⟩ : ∃ f, f = badIn := ⟨_, rfl⟩
  rw [← hbad] at hb
  rw [← hcount, low_natCast]
  unfold State.mrecv
  rw [← hbad]
  refine (if_neg h').trans ?_
  dsimp only
  rw [inboxKey_eq, show s.myCore = s.cur / 8 from rfl, hb]
  rfl

/-- X(rd) and V(vd) written at once. -/
theorem gives_setV_putX (u : State) (v : VReg) (x : Vec) (d : XReg) (w : Word) (n : Nat) : Gives ((u.setV v x).putX d w n) fun t =>
    Stepped u t (nextPc u n) ∧ OnlyX u t d w ∧ OnlyV u t v x ∧ SameM u t ∧ SameF u t ∧ (∀ j, j ≠ u.cur → t.thr j = u.thr j) ∧
      (∀ k, t.mem.get k = u.mem.get k) ∧ ∀ c, t.core c = u.core c := by
  obtain ⟨t, ht, hret, hx, hv, hm, hf⟩ := writesX_putX (u.setV v x) d w n
  obtain ⟨⟨hpc, hcount, hawake, hstatus, htrap, hcsrs, hspace, hcur⟩, -, hothers, hbytes, hrest⟩ := hret
  refine ⟨t, ht, ⟨?_, ?_, hawake, ?_, ?_, ?_, ?_, hcur⟩, fun r => ?_, fun r => ?_, fun r => ?_, ?_, fun j hj => ?_, hbytes, fun c => ?_⟩
  · simpa [nextPc] using hpc
  · simpa using hcount
  · simpa using hstatus
  · simpa using htrap
  · simpa using hcsrs
  · simpa using hspace
  · rw [hx, State.getX, State.getX, State.me_setV_x]
  · rw [hv, State.getV_setV]
  · rw [hm, State.getM, State.getM, State.me_setV_m]
  · simpa [SameF] using hf
  · rw [hothers j hj, State.thr_setV_other _ _ _ hj]
  · rw [State.core, State.core, hrest]
    rfl

/-- MRECV takes the entry at HEAD. -/
theorem gives_mrecv (hsize : (s.core (s.cur / 8)).inboxSize ≠ 0) (hholds : inboxHolds s (s.cur / 8) ≠ 0) {o : Nat}
    (ho : o = inboxAt s (s.cur / 8) (s.core (s.cur / 8)).inboxHead.toNat) (hb : badIn s.bad (winKey (s.cur / 8) o) 64 = none) :
    Gives (s.mrecv d v) fun t => Stepped s t (nextPc s 4) ∧ OnlyX s t d (low (inboxHolds s (s.cur / 8) - 1)) ∧ SameM s t ∧ SameF s t ∧
      (∀ j, j ≠ s.cur → t.thr j = s.thr j) ∧ (∀ r, r ≠ v → t.getV r = s.getV r) ∧
      (∀ j, j < 64 → L (t.getV v) 8 j = (s.mem.get (winKey (s.cur / 8) (o + j))).toNat) ∧ (∀ k, t.mem.get k = s.mem.get k) ∧
      (t.core (s.cur / 8)).inboxHead = (s.core (s.cur / 8)).inboxHead + 1 ∧ (t.core (s.cur / 8)).inboxTail = (s.core (s.cur / 8)).inboxTail := by
  subst ho
  have hk : KeepsThreads s (taking s) := keepsThreads_of_eq rfl rfl
  have hcore : (taking s).core (s.cur / 8) =
      { s.core (s.cur / 8) with inboxHead := (s.core (s.cur / 8)).inboxHead + 1 } := State.core_modCore s s.myCore _
  obtain ⟨t, ht, hstep, hx, hv, hm, hf, hothers, hbytes, hcores⟩ := gives_setV_putX (taking s) v _ d _ 4
  refine ⟨t, (mrecv_entry s d v hsize hholds hb).trans ht, stepped_of_keepsThreads hk hstep, onlyX_behind hk hx, sameM_behind hk hm,
    sameF_behind hk hf, fun j hj => (hothers j hj).trans (hk.others j hj), fun r hr => ?_, fun j hj => ?_, hbytes, ?_, ?_⟩
  · rw [hv, if_neg hr, hk.quiet.2.1]
  · rw [hv, if_pos rfl, L_vecOfBytes _ _ hj, winKey_add]
  · rw [hcores, hcore]
  · rw [hcores, hcore]

end

/-! ## The obligation -/

/-- MSEND to a core of this box that takes it. -/
theorem gives_msend {s : State} {xt : XReg} (d : XReg) (v : VReg) (hc : (s.getX xt).toNat < 2 ^ 12) (hcore : isCore (s.getX xt).toNat = true)
    (hsize : (s.core (s.getX xt).toNat).inboxSize ≠ 0) (hon : s.coreOff (s.getX xt).toNat = false)
    (hkey : s.keyRefused s.meWho ⟨.write, 1, false, false⟩ (s.getX xt).toNat = false) :
    let c := (s.getX xt).toNat
    Gives (s.msend d v xt) fun t =>
      Stepped s t (nextPc s 4) ∧ SameV s t ∧ SameM s t ∧ SameF s t ∧ (∀ j, j ≠ s.cur → t.thr j = s.thr j) ∧
      ((s.core c).inboxSize ≤ inboxHolds s c → OnlyX s t d (low (-1)) ∧ (∀ k, t.mem.get k = s.mem.get k) ∧
        (t.core c).inboxTail = (s.core c).inboxTail) ∧
      (∀ o, inboxHolds s c < (s.core c).inboxSize → o = inboxAt s c (s.core c).inboxTail.toNat →
        OnlyX s t d (low ((s.core c).inboxSize - inboxHolds s c - 1)) ∧ (t.core c).inboxTail = (s.core c).inboxTail + 1 ∧
        (∀ j, j < 64 → (t.mem.get (winKey c (o + j))).toNat = if 0x7C8 ≤ o + j ∧ o + j < 0x800 then 0 else L (s.getV v) 8 j) ∧
        ∀ k, (k < winKey c o ∨ winKey c o + 64 ≤ k) → t.mem.get k = s.mem.get k) := by
  intro c
  rw [msend_append d v hc hcore hsize hon hkey]
  by_cases hfull : (s.core c).inboxSize ≤ inboxHolds s c
  · obtain ⟨t, ht, ⟨hstep, hv, hm, hf, hothers⟩, hx, hbytes, htail⟩ := gives_append_full s d v c hfull
    exact ⟨t, ht, hstep, hv, hm, hf, hothers, fun _ => ⟨hx, hbytes, htail⟩, fun o hroom => absurd hroom (not_lt.mpr hfull)⟩
  · obtain ⟨t, ht, ⟨hstep, hv, hm, hf, hothers⟩, hx, hret⟩ := gives_append_room s d v c (not_le.mp hfull)
    refine ⟨t, ht, hstep, hv, hm, hf, hothers, fun h => absurd h hfull, fun o _ ho => ?_⟩
    subst ho
    refine ⟨hx, ?_, fun j hj => ?_, fun k hk => ?_⟩
    · rw [core_of_retired hret, inboxTail_appended]
    · rw [hret.bytes, get_appended hc (inboxAt_le s c _) s _ hj]
    · rw [hret.bytes, get_appended_outside s c _ _ (by rwa [vecBytes_length])]

/-- Settles O39: a command joins its core's list, and a message its ring, where nothing refuses them. -/
theorem collectivesMessages : Obligations.CollectivesMessages := by
  intro s op fmt br xd xs xn xc xr d xt v c m
  refine ⟨joins_collective s 0 op fmt br xd xs xn xc xr, joins_collective s 1 .sum fmt br xd xs xn xc xr,
    joins_collective s 2 .sum fmt br xd xs xn xc xr, gives_msend d v, msend_far d v, fun h => ?_, fun hsize hholds => ?_, ?_⟩
  · exact writesX_of_eq (mrecv_empty s d v h)
  · exact fun hb => gives_mrecv s d v hsize hholds rfl hb
  · refine writesX_of_eq ?_
    rw [low_natCast, ← inboxCount_eq]
    rfl

end Sys2Proof.Proofs.Access
end
